-- ==== Sys2Proof/Word.lean ====
section
/-!
DEFINITION. The word types of the block and their plainest arithmetic (R3, R4).
-/

namespace Sys2Proof

/-- A byte. -/
abbrev Byte := BitVec 8

/-- A 32-bit word of a core (R72). -/
abbrev Word := BitVec 32

/-- A 64-bit register or memory word (R7, R298). -/
abbrev DWord := BitVec 64

/-- One bit for each of the 65,536 logical grains; bit g belongs to the grain of index g (R30). -/
abbrev Plane := BitVec 65536

end Sys2Proof
end

