-- ==== Sys2Proof/Syntax.lean ====
section
/-!
DEFINITION. The commands of the block: one constructor of `Instr` for each row of the spec's operation table, and
the types of their operands.
-/

namespace Sys2Proof

/-- The conditions of R70; the numbers are the COND codes. -/
inductive Cond where
  | alw | zs | zc | gor | gnor | cy | ncy | neg | nneg | ov | ugt | ule | sge | slt | sgt | sle
deriving DecidableEq, Repr

/-- What every core instruction carries: the core (0-3 are D0-D3, 4-7 are MC0-MC3, CORE_ID of R73), its condition
(R70), and whether the form is the 16-bit one (R66). -/
structure Hdr where
  core : Fin 8
  cond : Cond
  short : Bool
deriving DecidableEq, Repr

/-- Where amov takes its value from (R77): an accumulator or a scalar register. -/
inductive AmovSrc where
  | acc (a : Fin 4)
  | scalar (r : Fin 32)
deriving DecidableEq, Repr

/-- The four NEWS directions (R34). -/
inductive Dir where
  | n | e | s | w
deriving DecidableEq, Repr

/-- Who makes a register or memory access (R12, R63, R139, R240, R345). `vf k` is virtual function k + 1; `unit r` is a unit of
router r that no other name covers (R277). -/
inductive Agent where
  | pf
  | vf (k : Fin 7)
  | core (c : Fin 8)
  | dma (n : Fin 3)
  | flash (n : Fin 4)
  | jtag
  | pfDebug
  | unit (router : Fin 36)
deriving DecidableEq, Repr

/-- A submission descriptor (R256); byte 40 + k of the descriptor is bits [8k + 7:8k] of `p1`. -/
structure Desc where
  opcode : BitVec 8
  flags : BitVec 8
  priority : BitVec 8
  byte3 : BitVec 8
  cmdId : BitVec 32
  deadline : BitVec 32
  reel : BitVec 32
  offset : BitVec 64
  length : BitVec 32
  p0 : BitVec 32
  hostAddr : BitVec 64
  p1 : BitVec 192
deriving DecidableEq, Repr

/-- Where a descriptor came from (R249, R272): a submission ring of a function, or an Ethernet session. -/
inductive Src where
  | sq (fn : Fin 8) (n : Fin 64)
  | session (k : Fin 8)
deriving DecidableEq, Repr

/-- What host memory, which is outside the module (R1), held for a command: the 16-byte entries of its scatter-gather list in the order
of the walk (R257), whether host memory answered a read of the list or of the data with an error, and the data read. -/
structure HostIn where
  list : List (BitVec 128)
  listErr : Bool
  dataErr : Bool
  data : List Byte
deriving DecidableEq, Repr

/-- A command as it starts: its source, its descriptor and what host memory holds for it. -/
structure CmdIn where
  src : Src
  desc : Desc
  host : HostIn
deriving DecidableEq, Repr

/-- What the signature, decryption and header checks of a signed image found (R132, R193, R327, R334). -/
structure ImageVerdict where
  signatureOk : Bool
  contentOk : Bool
  svn : Nat
  floor : Bool
deriving DecidableEq, Repr

/-- A record of a microcode image (R130, R132): a word for an index of a store, 0 microstore, 1 nanostore, 2 decode table, 3 overlay
CAM. -/
structure MicroRec where
  space : Fin 4
  index : Nat
  word : BitVec 128
deriving DecidableEq, Repr

/-- A copy of a Kilgegus patch image or of a customer image as boot finds it (R132): whether its signature and its tag are good, its
target ROM version, its version, the first 32 bits of its hash and its records. -/
structure MicroImage where
  verified : Bool
  target : BitVec 16
  version : BitVec 16
  hash : BitVec 32
  records : List MicroRec
deriving DecidableEq, Repr

/-- A table that a program image declares (R165, R206, R268): its number, its bit planes, its kind (1 gains, 2 out flags,
0 any other), the grain memory address of its first plane, and its data where the image carries any. -/
structure TableDecl where
  number : Nat
  planes : Nat
  kind : Fin 3
  base : Nat
  data : Option (List Byte)
deriving DecidableEq, Repr

/-- What a program image declares, as its verification reads it (R28, R134, R165, R206, R268, R358, R359). The layout
of the image is not given; these are the facts the rules name. -/
structure ProgramImage where
  inspection : Bool
  declaredCycles : Nat
  layoutId : Nat
  npgDeclared : Option (Fin 4)
  custHash : Option (BitVec 32)
  tables : List TableDecl
  bankWord : Nat
  hasSlipHook : Bool
deriving DecidableEq, Repr

/-- A cell of a fabric image (R187, R189, R192): its entries, the entries used, its selectors (L0-L3 within the block,
C0, C1, GS), MAC selector, initial values and RETAIN flags. -/
structure CellConf where
  entries : List (BitVec 32)
  len : Fin 9
  l : List (Fin 16)
  c0 : Fin 64
  c1 : Fin 64
  gs : Fin 64
  mac : Fin 4
  initDA : BitVec 16
  initDB : BitVec 16
  initOUT : BitVec 16
  initH : BitVec 16
  retDA : Bool
  retDB : Bool
  retOUT : Bool
  retH : Bool
deriving DecidableEq, Repr

/-- A MAC slice's settings (R190). `cascade` says whether CIN is the preceding slice's ACC. -/
structure MacConf where
  signed : Bool
  shift : Fin 33
  cascade : Bool
  retain : Bool
deriving DecidableEq, Repr

/-- An I/O cell's settings (R191). -/
structure PinConf where
  mode : Fin 4
  pull : Fin 4
  drive : Fin 3
  slew : Fin 4
  schmitt : Bool
deriving DecidableEq, Repr

/-- A fabric region's image (R192): region, clock (0 TCLK, 1 FCLK, 2 TCLK / 2), cells by number, track drivers, MAC settings and I/O
cells. Block b of the cluster drives its cluster tracks 4b to 4b + 3, each from one of its 16 cells, and the cluster of region r drives
the global tracks 4r to 4r + 3, each from one of its cluster tracks (R189; log 127). -/
structure RegionImage where
  region : Fin 16
  clock : Fin 3
  cells : List (Fin 256 × CellConf)
  clusterTracks : List (Fin 64 × Fin 16)
  globalTracks : List (Fin 4 × Fin 64)
  macs : List (Fin 4 × MacConf)
  pins : List (Fin 20 × PinConf)
deriving DecidableEq, Repr

/-- What one read of a codeword found (R228, R231): the hard decode, the error trend of R230, the read-retries, the
soft decode, and, by sled, whether the matching codeword of the stripe's unit there decodes for a rebuild. -/
structure MediaVerdict where
  hard : Bool
  manyErrors : Bool
  retry : Bool
  soft : Bool
  others : BitVec 16
deriving DecidableEq, Repr

/-- A packet: the fields of its head flit and the data it carries (R278). ROUTE, HOPS, VN and URG are the module's to fill in when
it injects the packet (R280, R285, R286). -/
structure Packet where
  src : Fin 36
  ssub : Fin 4
  dst : Fin 36
  dsub : Fin 4
  epoch : BitVec 4
  seq : BitVec 8
  op : Fin 6
  bclass : Fin 4
  addr : BitVec 48
  bytes : BitVec 10
  data : List Byte
  route : BitVec 24 := 0
  hops : BitVec 4 := 0
  vn : Bool := false
  urg : Fin 4 := 0
deriving DecidableEq, Repr

/-- A cell instruction's fields but OP (R187). -/
structure CellOp where
  region : Fin 16
  cell : Fin 256
  sa : Fin 16
  sb : Fin 16
  dst : Fin 4
  setf : Bool
  imm : BitVec 16
deriving DecidableEq, Repr

/-- What the dark and the white lines of a calibration run measured of a pixel, by word of the camera correction memory (R213): its dark
and its white level, and whether it is dead. -/
abbrev CalPixel := Nat × BitVec 16 × BitVec 16 × Bool

/-- What the printed lines of a calibration run measured (R213): DIST_LINES by camera, the registration table, CH_OFS by channel and
head, the landing-error map, the initial class and gain of each nozzle, and the planes of gains and flags with the grain addresses of
bank A and of bank B. -/
structure CalProducts where
  dist : List (Fin 4 × BitVec 17)
  regTable : List (Fin 4 × Nat)
  chOfs : List (Nat × Int)
  landing : List Int
  classes : List (Nat × Fin 4 × BitVec 6)
  planes : List (Nat × Nat × Plane)
deriving DecidableEq, Repr

/-- A GenICam access to a camera over its control channel (R197): the camera, the address, and the value of a write. -/
structure CamAccess where
  cam : Fin 4
  addr : BitVec 32
  write : Option (BitVec 32)
deriving DecidableEq, Repr

/-- What CAMERA_CONFIG sets of the loop: the trigger rate in Hz that its cameras are meant for (R197), and OUT_HOLD. -/
structure LoopConf where
  rate : Nat
  outHold : Nat
deriving DecidableEq, Repr

/-- A KEEPALIVE as it comes (R272-R274): its session, header and body, and whether the connection takes the module's capsules. -/
structure KeepaliveIn where
  session : Fin 8
  head : BitVec 128
  body : List Byte
  room : Bool
deriving DecidableEq, Repr

/-- The commands, one constructor a row of the operation table, in its order. -/
inductive Instr where
  /-- REGISTER_WRITE (R11): A software write to a control register that has no row of its own acts on each field by its access code; narrow or misaligned accesses complete without effect and are counted. -/
  | registerWrite (a : Agent) (addr : Nat) (bits : Nat) (v : DWord)
  /-- HALF_READ_LATCH (R7): A 32-bit read of the low half of a 64-bit register latches the high half for the next high-half read. -/
  | halfReadLatch (a : Agent) (addr : Nat) (bits : Nat)
  /-- FIFO_REGISTER_READ (R294): A read of a FIFO register returns and pops its head, with VALID = 0 at depth 0. -/
  | fifoRegisterRead (a : Agent) (p : Fin 4)
  /-- FIFO_REGISTER_WRITE (R294): A software write to a FIFO register is pushed, or held until there is room. -/
  | fifoRegisterWrite (a : Agent) (p : Fin 4) (bits : Nat) (v : DWord)
  /-- FIFO_WRITE_DISCARD (R294): A FIFO register write held for 64 us is discarded and counted in SYS_BAD_ACCESS.COUNT. -/
  | fifoWriteDiscard (p : Fin 4)
  /-- ADD (R69): Integer register add. -/
  | add (h : Hdr) (rd rs1 rs2 : Fin 32)
  /-- SUB (R69): Integer register subtract. -/
  | sub (h : Hdr) (rd rs1 rs2 : Fin 32)
  /-- AND (R69): Bitwise AND of registers. -/
  | and (h : Hdr) (rd rs1 rs2 : Fin 32)
  /-- OR (R69): Bitwise OR of registers. -/
  | or (h : Hdr) (rd rs1 rs2 : Fin 32)
  /-- XOR (R69): Bitwise exclusive-OR of registers. -/
  | xor (h : Hdr) (rd rs1 rs2 : Fin 32)
  /-- ANDN (R69): AND of one register with the complement of another. -/
  | andn (h : Hdr) (rd rs1 rs2 : Fin 32)
  /-- SHL (R69): Logical shift left. -/
  | shl (h : Hdr) (rd rs1 rs2 : Fin 32)
  /-- SHR (R69): Logical shift right. -/
  | shr (h : Hdr) (rd rs1 rs2 : Fin 32)
  /-- SAR (R69): Arithmetic shift right. -/
  | sar (h : Hdr) (rd rs1 rs2 : Fin 32)
  /-- MIN (R69): Signed minimum. -/
  | min (h : Hdr) (rd rs1 rs2 : Fin 32)
  /-- MAX (R69): Signed maximum. -/
  | max (h : Hdr) (rd rs1 rs2 : Fin 32)
  /-- MINU (R69): Unsigned minimum. -/
  | minu (h : Hdr) (rd rs1 rs2 : Fin 32)
  /-- MAXU (R69): Unsigned maximum. -/
  | maxu (h : Hdr) (rd rs1 rs2 : Fin 32)
  /-- ABS (R69): Absolute value. -/
  | abs (h : Hdr) (rd rs1 : Fin 32)
  /-- NEG (R69): Two's-complement negation. -/
  | neg (h : Hdr) (rd rs1 : Fin 32)
  /-- MOV (R69): Register move. -/
  | mov (h : Hdr) (rd rs1 : Fin 32)
  /-- CMP (R71): Compare, setting N, Z, C and V. -/
  | cmp (h : Hdr) (rs1 rs2 : Fin 32)
  /-- CMN (R71): Compare negative, setting the flags. -/
  | cmn (h : Hdr) (rs1 rs2 : Fin 32)
  /-- TST (R71): Test, setting the flags. -/
  | tst (h : Hdr) (rs1 rs2 : Fin 32)
  /-- ADDF (R71): Add that sets the flags. -/
  | addf (h : Hdr) (rd rs1 rs2 : Fin 32)
  /-- SUBF (R71): Subtract that sets the flags. -/
  | subf (h : Hdr) (rd rs1 rs2 : Fin 32)
  /-- ADDI (R69): Add immediate. -/
  | addi (h : Hdr) (rd rs1 : Fin 32) (imm : BitVec 11)
  /-- ANDI (R69): AND immediate. -/
  | andi (h : Hdr) (rd rs1 : Fin 32) (imm : BitVec 11)
  /-- ORI (R69): OR immediate. -/
  | ori (h : Hdr) (rd rs1 : Fin 32) (imm : BitVec 11)
  /-- XORI (R69): Exclusive-OR immediate. -/
  | xori (h : Hdr) (rd rs1 : Fin 32) (imm : BitVec 11)
  /-- SHLI (R69): Shift left by immediate. -/
  | shli (h : Hdr) (rd rs1 : Fin 32) (imm : BitVec 11)
  /-- SHRI (R69): Logical shift right by immediate. -/
  | shri (h : Hdr) (rd rs1 : Fin 32) (imm : BitVec 11)
  /-- SARI (R69): Arithmetic shift right by immediate. -/
  | sari (h : Hdr) (rd rs1 : Fin 32) (imm : BitVec 11)
  /-- CMPI (R71): Compare with immediate, setting the flags. -/
  | cmpi (h : Hdr) (rs1 : Fin 32) (imm : BitVec 11)
  /-- MOVHI (R69): Load a zero-extended 16-bit constant into the high half. -/
  | movhi (h : Hdr) (rd : Fin 32) (imm : BitVec 16)
  /-- MOVLO (R69): Load a zero-extended 16-bit constant into the low half. -/
  | movlo (h : Hdr) (rd : Fin 32) (imm : BitVec 16)
  /-- MOVI (R69): 16-bit form move of a small immediate. -/
  | movi (h : Hdr) (rd : Fin 32) (imm : BitVec 5)
  /-- MUL (R81): Low 32 bits of a product. -/
  | mul (h : Hdr) (rd rs1 rs2 : Fin 32)
  /-- MULH (R81): Signed high 32 bits of a product. -/
  | mulh (h : Hdr) (rd rs1 rs2 : Fin 32)
  /-- MULHU (R81): Unsigned high 32 bits of a product. -/
  | mulhu (h : Hdr) (rd rs1 rs2 : Fin 32)
  /-- MULL (R81): Full 64-bit signed product to an even pair. -/
  | mull (h : Hdr) (rd rs1 rs2 : Fin 32)
  /-- MULLU (R81): Full 64-bit unsigned product to an even pair. -/
  | mullu (h : Hdr) (rd rs1 rs2 : Fin 32)
  /-- DSTEP (R82): One restoring unsigned division step, setting C. -/
  | dstep (h : Hdr) (sR sQ sD : Fin 32)
  /-- CRCC (R84): Folds a byte into a reflected CRC-32C. -/
  | crcc (h : Hdr) (sC sB : Fin 32)
  /-- CRCP (R84): Folds a byte into a reflected CRC with the polynomial in CORE_CRCPOLY. -/
  | crcp (h : Hdr) (sC sB : Fin 32)
  /-- PAR (R85): Writes the parity of a register to bit 0. -/
  | par (h : Hdr) (rd rs1 : Fin 32)
  /-- BREV (R85): Reverses the low w bits of a register. -/
  | brev (h : Hdr) (rd rs1 : Fin 32) (w : Fin 64)
  /-- MAC (R77): Adds a Q1.31 product to an accumulator, saturating. -/
  | mac (h : Hdr) (acc : Fin 4) (rs1 rs2 : Fin 32)
  /-- MACH (R77): Adds a Q1.15 product of low halves to an accumulator. -/
  | mach (h : Hdr) (acc : Fin 4) (rs1 rs2 : Fin 32)
  /-- MSB (R77): Subtracts a Q1.31 product from an accumulator. -/
  | msb (h : Hdr) (acc : Fin 4) (rs1 rs2 : Fin 32)
  /-- MSBH (R77): Subtracts a Q1.15 product from an accumulator. -/
  | msbh (h : Hdr) (acc : Fin 4) (rs1 rs2 : Fin 32)
  /-- ACLR (R77): Clears an accumulator. -/
  | aclr (h : Hdr) (acc : Fin 4)
  /-- AMOV (R77): Moves a value into or between accumulators. -/
  | amov (h : Hdr) (acc : Fin 4) (src : AmovSrc)
  /-- ASHR (R77): Arithmetic right shift of an accumulator. -/
  | ashr (h : Hdr) (acc : Fin 4) (rs2 : Fin 32)
  /-- SAT (R80): Rounds and saturates an accumulator to Q1.31. -/
  | sat (h : Hdr) (rd : Fin 32) (acc : Fin 4) (fn : Fin 8)
  /-- SATH (R80): Rounds and saturates an accumulator to Q1.15, sign-extended. -/
  | sath (h : Hdr) (rd : Fin 32) (acc : Fin 4) (fn : Fin 8)
  /-- QADD (R80): Saturating Q1.31 add. -/
  | qadd (h : Hdr) (rd rs1 rs2 : Fin 32)
  /-- QSUB (R80): Saturating Q1.31 subtract. -/
  | qsub (h : Hdr) (rd rs1 rs2 : Fin 32)
  /-- QADDH (R80): Saturating Q1.15 add. -/
  | qaddh (h : Hdr) (rd rs1 rs2 : Fin 32)
  /-- QSUBH (R80): Saturating Q1.15 subtract. -/
  | qsubh (h : Hdr) (rd rs1 rs2 : Fin 32)
  /-- QMUL (R80): Rounded, saturating Q1.31 multiply. -/
  | qmul (h : Hdr) (rd rs1 rs2 : Fin 32) (fn : Fin 8)
  /-- QMULH (R80): Rounded, saturating Q1.15 multiply. -/
  | qmulh (h : Hdr) (rd rs1 rs2 : Fin 32) (fn : Fin 8)
  /-- QSRA (R80): Rounded arithmetic right shift. -/
  | qsra (h : Hdr) (rd rs1 rs2 : Fin 32) (fn : Fin 8)
  /-- FADD (R86): binary32 add. -/
  | fadd (h : Hdr) (rd ra rb : Fin 32)
  /-- FSUB (R86): binary32 subtract. -/
  | fsub (h : Hdr) (rd ra rb : Fin 32)
  /-- FMUL (R86): binary32 multiply. -/
  | fmul (h : Hdr) (rd ra rb : Fin 32)
  /-- FFMA (R86): binary32 fused multiply-add. -/
  | ffma (h : Hdr) (rd ra rb rc : Fin 32)
  /-- FFNMA (R86): binary32 fused negated multiply-add. -/
  | ffnma (h : Hdr) (rd ra rb rc : Fin 32)
  /-- FCMP (R86): binary32 compare setting exactly one of N, C, V, with Z on equality. -/
  | fcmp (h : Hdr) (ra rb : Fin 32)
  /-- FMIN (R86): binary32 minimum. -/
  | fmin (h : Hdr) (rd ra rb : Fin 32)
  /-- FMAX (R86): binary32 maximum. -/
  | fmax (h : Hdr) (rd ra rb : Fin 32)
  /-- FABS (R86): binary32 absolute value. -/
  | fabs (h : Hdr) (rd ra : Fin 32)
  /-- FNEG (R86): binary32 negation. -/
  | fneg (h : Hdr) (rd ra : Fin 32)
  /-- FCVT_WS (R86): Converts binary32 to a signed integer, rounding to nearest even. -/
  | fcvtWs (h : Hdr) (rd ra : Fin 32)
  /-- FCVT_SW (R86): Converts a signed integer to binary32. -/
  | fcvtSw (h : Hdr) (rd ra : Fin 32)
  /-- FRECPE (R87): Reciprocal estimate with relative error below 2^-12. -/
  | frecpe (h : Hdr) (rd ra : Fin 32)
  /-- MFC (R73): Reads a core register. -/
  | mfc (h : Hdr) (rd : Fin 32) (n : Fin 64)
  /-- MTC (R73): Writes a core register. -/
  | mtc (h : Hdr) (n : Fin 64) (rs : Fin 32)
  /-- MTSEG (R74): Loads a segment register's base, rights and limit. -/
  | mtseg (h : Hdr) (seg : Fin 8) (sP sL : Fin 32)
  /-- MFSEG (R74): Reads a segment register. -/
  | mfseg (h : Hdr) (sP sL : Fin 32) (seg : Fin 8)
  /-- FENCE_RW (R104): Orders all earlier loads and stores before all later ones. -/
  | fenceRw (h : Hdr)
  /-- FENCE_R (R104): Orders earlier loads before later loads. -/
  | fenceR (h : Hdr)
  /-- FENCE_W (R104): Orders earlier stores before later stores. -/
  | fenceW (h : Hdr)
  /-- FENCE_I (R104): Makes earlier stores visible to later instruction fetch. -/
  | fenceI (h : Hdr)
  /-- FBAR (R89): Waits for floating-point work to drain and takes any pending floating-point trap. -/
  | fbar (h : Hdr)
  /-- RETT (R99): Returns from a trap, restoring IE and PRIV and clearing TRAP. -/
  | rett (h : Hdr)
  /-- SYS (R97): System call exception, also used to request a Developer warm restart. -/
  | sys (h : Hdr)
  /-- BRK (R97): Breakpoint exception. -/
  | brk (h : Hdr)
  /-- WFI (R99): Waits at level S until an interrupt is pending. -/
  | wfi (h : Hdr)
  /-- LDB (R76): Signed byte load through a segment. -/
  | ldb (h : Hdr) (rd : Fin 32) (seg : Fin 8) (rb : Fin 32) (imm : BitVec 6)
  /-- LDH (R76): Signed halfword load. -/
  | ldh (h : Hdr) (rd : Fin 32) (seg : Fin 8) (rb : Fin 32) (imm : BitVec 6)
  /-- LDW (R76): Word load. -/
  | ldw (h : Hdr) (rd : Fin 32) (seg : Fin 8) (rb : Fin 32) (imm : BitVec 6)
  /-- LDD (R76): Doubleword load to an even pair. -/
  | ldd (h : Hdr) (rd : Fin 32) (seg : Fin 8) (rb : Fin 32) (imm : BitVec 6)
  /-- LDBU (R76): Unsigned byte load. -/
  | ldbu (h : Hdr) (rd : Fin 32) (seg : Fin 8) (rb : Fin 32) (imm : BitVec 6)
  /-- LDHU (R76): Unsigned halfword load. -/
  | ldhu (h : Hdr) (rd : Fin 32) (seg : Fin 8) (rb : Fin 32) (imm : BitVec 6)
  /-- STB (R76): Byte store, a read-merge-write to SRAM. -/
  | stb (h : Hdr) (rs : Fin 32) (seg : Fin 8) (rb : Fin 32) (imm : BitVec 6)
  /-- STH (R76): Halfword store. -/
  | sth (h : Hdr) (rs : Fin 32) (seg : Fin 8) (rb : Fin 32) (imm : BitVec 6)
  /-- STW (R76): Word store. -/
  | stw (h : Hdr) (rs : Fin 32) (seg : Fin 8) (rb : Fin 32) (imm : BitVec 6)
  /-- STD (R76): Doubleword store. -/
  | std (h : Hdr) (rs : Fin 32) (seg : Fin 8) (rb : Fin 32) (imm : BitVec 6)
  /-- LRW (R100): Word load setting a reservation on its granule. -/
  | lrw (h : Hdr) (rd : Fin 32) (seg : Fin 8) (ra : Fin 32)
  /-- LRD (R100): Doubleword load setting a reservation. -/
  | lrd (h : Hdr) (rd : Fin 32) (seg : Fin 8) (ra : Fin 32)
  /-- SCW (R100): Word store only if the reservation holds, reporting success. -/
  | scw (h : Hdr) (rd rs : Fin 32) (seg : Fin 8) (ra : Fin 32)
  /-- SCD (R100): Doubleword store-conditional. -/
  | scd (h : Hdr) (rd rs : Fin 32) (seg : Fin 8) (ra : Fin 32)
  /-- B (R67): Conditional relative branch. -/
  | b (h : Hdr) (off : BitVec 21)
  /-- BL (R72): Relative branch writing the return address to s31. -/
  | bl (h : Hdr) (off : BitVec 21)
  /-- JR (R69): Jump to a register address. -/
  | jr (h : Hdr) (rs1 : Fin 32)
  /-- JALR (R72): Jump to a register address, writing the return address to s31. -/
  | jalr (h : Hdr) (rs1 : Fin 32)
  /-- VADD (R94): Wrapping vector add. -/
  | vadd (h : Hdr) (esz grp : Fin 4) (ro : Bool) (vd vs1 vs2 : Fin 16)
  /-- VSUB (R94): Wrapping vector subtract. -/
  | vsub (h : Hdr) (esz grp : Fin 4) (ro : Bool) (vd vs1 vs2 : Fin 16)
  /-- VADDSAT (R94): Signed saturating vector add. -/
  | vaddsat (h : Hdr) (esz grp : Fin 4) (ro : Bool) (vd vs1 vs2 : Fin 16)
  /-- VSUBSAT (R94): Signed saturating vector subtract. -/
  | vsubsat (h : Hdr) (esz grp : Fin 4) (ro : Bool) (vd vs1 vs2 : Fin 16)
  /-- VADDSATU (R94): Unsigned saturating vector add. -/
  | vaddsatu (h : Hdr) (esz grp : Fin 4) (ro : Bool) (vd vs1 vs2 : Fin 16)
  /-- VSUBSATU (R94): Unsigned saturating vector subtract. -/
  | vsubsatu (h : Hdr) (esz grp : Fin 4) (ro : Bool) (vd vs1 vs2 : Fin 16)
  /-- VMUL (R94): Wrapping vector multiply. -/
  | vmul (h : Hdr) (esz grp : Fin 4) (ro : Bool) (vd vs1 vs2 : Fin 16)
  /-- VMIN (R69): Signed vector minimum. -/
  | vmin (h : Hdr) (esz grp : Fin 4) (ro : Bool) (vd vs1 vs2 : Fin 16)
  /-- VMAX (R69): Signed vector maximum. -/
  | vmax (h : Hdr) (esz grp : Fin 4) (ro : Bool) (vd vs1 vs2 : Fin 16)
  /-- VMINU (R69): Unsigned vector minimum. -/
  | vminu (h : Hdr) (esz grp : Fin 4) (ro : Bool) (vd vs1 vs2 : Fin 16)
  /-- VMAXU (R69): Unsigned vector maximum. -/
  | vmaxu (h : Hdr) (esz grp : Fin 4) (ro : Bool) (vd vs1 vs2 : Fin 16)
  /-- VABS (R69): Vector absolute value. -/
  | vabs (h : Hdr) (esz grp : Fin 4) (ro : Bool) (vd vs1 : Fin 16)
  /-- VDUP (R69): Duplicates a value into vector elements. -/
  | vdup (h : Hdr) (esz grp : Fin 4) (ro : Bool) (vd : Fin 16) (rs : Fin 32)
  /-- VEXT (R69): Extracts a vector element. -/
  | vext (h : Hdr) (esz grp : Fin 4) (ro : Bool) (rd : Fin 32) (vs1 : Fin 16) (idx : Fin 64)
  /-- VINS (R69): Inserts a vector element. -/
  | vins (h : Hdr) (esz grp : Fin 4) (ro : Bool) (vd : Fin 16) (rs : Fin 32) (idx : Fin 64)
  /-- VWIDEN (R69): Widens vector elements. -/
  | vwiden (h : Hdr) (esz grp : Fin 4) (ro : Bool) (vd vs1 : Fin 16)
  /-- VMULQ (R94): Fixed-point vector multiply rounded under R78. -/
  | vmulq (h : Hdr) (esz grp : Fin 4) (ro : Bool) (mode : Fin 4) (vd vs1 vs2 : Fin 16)
  /-- VSRA_RND (R94): Rounded vector arithmetic right shift. -/
  | vsraRnd (h : Hdr) (esz grp : Fin 4) (ro : Bool) (mode : Fin 4) (vd vs1 vs2 : Fin 16)
  /-- VNARROW_SAT (R94): Signed saturating narrowing of vector elements. -/
  | vnarrowSat (h : Hdr) (esz grp : Fin 4) (ro : Bool) (vd vs1 : Fin 16)
  /-- VNARROW_SATU (R94): Unsigned saturating narrowing of vector elements. -/
  | vnarrowSatu (h : Hdr) (esz grp : Fin 4) (ro : Bool) (vd vs1 : Fin 16)
  /-- VLD (R95): Vector load of g registers without separation. -/
  | vld (h : Hdr) (seg : Fin 8) (rb : Fin 32) (esz grp : Fin 4) (vd : Fin 16)
  /-- VST (R95): Vector store of g registers without interleaving. -/
  | vst (h : Hdr) (seg : Fin 8) (rb : Fin 32) (esz grp : Fin 4) (vd : Fin 16)
  /-- VSPLIT (R95): Loads memory and separates it into F planes, F from 2 to 8. -/
  | vsplit (h : Hdr) (seg : Fin 8) (rb : Fin 32) (esz grp : Fin 4) (nf : Fin 8) (vd : Fin 16)
  /-- VMERGE (R95): Interleaves F planes and stores them to memory. -/
  | vmerge (h : Hdr) (seg : Fin 8) (rb : Fin 32) (esz grp : Fin 4) (nf : Fin 8) (vd : Fin 16)
  /-- INTERRUPT (R98): An enabled interrupt is taken at an instruction boundary, entering the trap handler. -/
  | interrupt (core : Fin 8) (num : BitVec 8)
  /-- FP_TRAP (R89): A pending floating-point trap is taken at the earliest permitted boundary. -/
  | fpTrap (core : Fin 8)
  /-- MACHINE_CHECK (R98): A pending machine check is taken at the next instruction boundary. -/
  | machineCheck (core : Fin 8)
  /-- A_ADD (R113): Issues the array add, plain or masked, to the AIQ after the checks of R109. -/
  | aAdd (h : Hdr) (m : Bool) (rd ra rb : Fin 32)
  /-- A_SUB (R113): Issues the array subtract. -/
  | aSub (h : Hdr) (m : Bool) (rd ra rb : Fin 32)
  /-- A_ADDS (R113): Issues the array add with signed overflow to F. -/
  | aAdds (h : Hdr) (m : Bool) (rd ra rb : Fin 32)
  /-- A_ADD_IP (R113): Issues the in-place array add. -/
  | aAddIp (h : Hdr) (m : Bool) (rd ra rb : Fin 32)
  /-- A_SUB_IP (R113): Issues the in-place array subtract. -/
  | aSubIp (h : Hdr) (m : Bool) (rd ra rb : Fin 32)
  /-- A_MULU (R113): Issues the unsigned array multiply. -/
  | aMulu (h : Hdr) (m : Bool) (rd ra rb : Fin 32)
  /-- A_CMP (R113): Issues the signed array compare into F. -/
  | aCmp (h : Hdr) (m : Bool) (rd ra rb : Fin 32)
  /-- A_CMPU (R113): Issues the unsigned array compare into F. -/
  | aCmpu (h : Hdr) (m : Bool) (rd ra rb : Fin 32)
  /-- A_MOV (R113): Issues the array field move. -/
  | aMov (h : Hdr) (m : Bool) (rd ra rb : Fin 32)
  /-- A_MOVI (R113): Issues the array move of a scalar immediate. -/
  | aMovi (h : Hdr) (m : Bool) (rd ra rb : Fin 32)
  /-- A_NOT (R113): Issues the array complement. -/
  | aNot (h : Hdr) (m : Bool) (rd ra rb : Fin 32)
  /-- A_AND (R113): Issues the array AND. -/
  | aAnd (h : Hdr) (m : Bool) (rd ra rb : Fin 32)
  /-- A_OR (R113): Issues the array OR. -/
  | aOr (h : Hdr) (m : Bool) (rd ra rb : Fin 32)
  /-- A_XOR (R113): Issues the array exclusive-OR. -/
  | aXor (h : Hdr) (m : Bool) (rd ra rb : Fin 32)
  /-- A_ANDN (R113): Issues the array AND NOT. -/
  | aAndn (h : Hdr) (m : Bool) (rd ra rb : Fin 32)
  /-- A_SHIFT (R113): Issues a neighbour field move in direction N, E, S or W. -/
  | aShift (h : Hdr) (dir : Dir) (m : Bool) (rd ra rb : Fin 32)
  /-- A_LUT (R113): Issues an indexed table lookup. -/
  | aLut (h : Hdr) (m : Bool) (rd ra rb : Fin 32)
  /-- A_ASSOC (R113): Issues an associative match against a key list. -/
  | aAssoc (h : Hdr) (m : Bool) (rd ra rb : Fin 32)
  /-- A_POP (R113): Issues a population count through the sum tree into a scalar. -/
  | aPop (h : Hdr) (m : Bool) (rd ra rb : Fin 32)
  /-- A_GOR (R113): Issues a global OR into F and a scalar. -/
  | aGor (h : Hdr) (m : Bool) (rd ra rb : Fin 32)
  /-- A_GLD (R127): Issues the store of GC into memory. -/
  | aGld (h : Hdr) (m : Bool) (rd ra rb : Fin 32)
  /-- A_GST (R127): Issues the load of GP from memory. -/
  | aGst (h : Hdr) (m : Bool) (rd ra rb : Fin 32)
  /-- A_LDF (R113): Issues F load from a field. -/
  | aLdf (h : Hdr) (m : Bool) (rd ra rb : Fin 32)
  /-- A_STF (R113): Issues F store to a field. -/
  | aStf (h : Hdr) (m : Bool) (rd ra rb : Fin 32)
  /-- A_LDM (R113): Issues M load from a field. -/
  | aLdm (h : Hdr) (m : Bool) (rd ra rb : Fin 32)
  /-- A_ANDM (R113): Issues M AND a field. -/
  | aAndm (h : Hdr) (m : Bool) (rd ra rb : Fin 32)
  /-- A_SETM (R113): Issues M set to 1. -/
  | aSetm (h : Hdr) (m : Bool) (rd ra rb : Fin 32)
  /-- A_STM (R113): Issues M store to a field. -/
  | aStm (h : Hdr) (m : Bool) (rd ra rb : Fin 32)
  /-- A_NOP (R113): Issues an array no-operation. -/
  | aNop (h : Hdr) (m : Bool) (rd ra rb : Fin 32)
  /-- A_SYNC (R112): Waits until every earlier array instruction has retired. -/
  | aSync (h : Hdr) (m : Bool) (rd ra rb : Fin 32)
  /-- CUSTOMER_INSTRUCTION (R115): Issues a customer array instruction from decode entries 192-255. -/
  | customerInstruction (h : Hdr) (k : Fin 64) (rd ra rb : Fin 32)
  /-- SYSTEM_ROUTINE (R113): Issues an S-level system routine from decode entries 128-191. -/
  | systemRoutine (h : Hdr) (k : Fin 64) (rd ra rb : Fin 32)
  /-- AIQ_DISPATCH (R116): The AIQ head entry dispatches, loads expander state and runs its routine. -/
  | aiqDispatch (d : Fin 4)
  /-- AIQ_ENTRY_RETIRE (R111): A routine completes DONE after its results arrive, writes RD and retires. -/
  | aiqEntryRetire (d : Fin 4)
  /-- ROUTINE_OVERRUN (R126): A routine not committed by its 2,049th cycle is stopped with a machine check. -/
  | routineOverrun (d : Fin 4)
  /-- G_WINDOW_OPEN (R42): A window opens when the Enlarger's data and GP are ready. -/
  | gWindowOpen (d : Fin 4)
  /-- G_WINDOW_COMPLETE (R42): The 256th shift completes, GC takes G, and output lines complete into the Reserve. -/
  | gWindowComplete (d : Fin 4)
  /-- PROCESSING_SLOT_START (R22): The Developer starts a slot once the Reserve has room, applying switches and checkpoints. -/
  | processingSlotStart (d : Fin 4)
  /-- FOG_SLICE (R54): A Fog check slice starts when the AIQ is empty and the expander idle. -/
  | fogSlice (d : Fin 4)
  /-- FOG_SLICE_INSERT (R54): After MIN_GAP lines without a slice, one is inserted ahead of the next array instruction. -/
  | fogSliceInsert (d : Fin 4)
  /-- FOG_SLICE_END (R55): A slice ends, restoring state, localising any mismatch and applying a deferred gang write. -/
  | fogSliceEnd (d : Fin 4) (found : Option (Fin 256 × Fin 256 × Fin 33))
  /-- GRN_GANG_WRITE (R48): A write to GRN_GANG is applied, deferred or ignored with GANG_REJ. -/
  | grnGangWrite (a : Agent) (v : BitVec 32)
  /-- GRN_INIT (R52): Starts writing zero codewords to selected partitions, or sets INIT_REJ. -/
  | grnInit (a : Agent) (v : BitVec 32)
  /-- GRN_INIT_COMPLETE (R52): Initialisation of a partition completes after 8,192 GCLK. -/
  | grnInitComplete (p : Fin 4)
  /-- SLIP_GO (R57): A live column slip starts, interrupting and stopping every Developer. -/
  | slipGo (a : Agent) (v : BitVec 32)
  /-- SLIP_COMPLETE (R57): Migration, verify and battery finish; Developers resume and COLUMN_SLIPPED is raised. -/
  | slipComplete (verifyOk batteryOk : Bool)
  /-- BOOT_SLIP (R60): A boot-form slip sets the mapping without migration. -/
  | bootSlip (a : Agent) (v : BitVec 32)
  /-- BACKDOOR_READ (R62): A read of grain memory through the backdoor window. -/
  | backdoorRead (a : Agent) (off n : Nat)
  /-- BACKDOOR_WRITE (R62): A write of grain memory through the backdoor window. -/
  | backdoorWrite (a : Agent) (off : Nat) (data : List Byte)
  /-- UC_ADDR_WRITE (R138): Sets the microcode store space and index and resets the half pointer. -/
  | ucAddrWrite (a : Agent) (d : Fin 4) (v : BitVec 32)
  /-- UC_DATA_WRITE (R138): Writes a microcode store word before LOCK, or is ignored with WREJ. -/
  | ucDataWrite (a : Agent) (d : Fin 4) (v : DWord)
  /-- UCODE_LOCK (R133): Closes the microcode stores until die reset. -/
  | ucodeLock (a : Agent) (d : Fin 4)
  /-- BAND_PUSH (R141): Enqueues one band on an Enlarger. -/
  | bandPush (a : Agent) (p : Fin 4) (bits : Nat) (v : DWord)
  /-- BAND_FEED_START (R147): The Enlarger starts a band, checking every strip before feeding the first line. -/
  | bandFeedStart (p : Fin 4)
  /-- ENL_FLUSH (R388): Discards queued and unfed bands of every Enlarger of the gang. -/
  | enlFlush (a : Agent) (p : Fin 4)
  /-- ENL_RESTART (R147): Resumes a halted Enlarger at the failing band. -/
  | enlRestart (a : Agent) (p : Fin 4)
  /-- ENCODER_COUNT (R158): An accepted quadrature edge adds or subtracts PITCH to LINEPOS. -/
  | encoderCount (ch : Fin 4) (a b : Bool) (dt : Nat)
  /-- ENCODER_INDEX (R158): An index pulse loads LINEPOS with IDX_ORG or provides the START_MODE 1 event. -/
  | encoderIndex (ch : Fin 4)
  /-- ENCODER_STALL (R157): No count for STALL_US sets STALL and requests a Hold. -/
  | encoderStall (ch : Fin 4)
  /-- PACER_TICK (R158): The internal pacer adds 1.0 to LINEPOS every PACE ticks. -/
  | pacerTick
  /-- LINEPOS_WRITE (R158): A software write loads LINEPOS, claiming and arming due lines. -/
  | lineposWrite (a : Agent) (v : DWord)
  /-- GROUP_FIRE (R159): A firing group's timer expires and the fire is issued in-band or wired. -/
  | groupFire (g : Fin 64) (headReadsFail : Bool)
  /-- WIRED_PULSE_END (R185): A wired fire pulse ends after WIDTH ticks. -/
  | wiredPulseEnd (w : Fin 16)
  /-- CAMERA_TRIGGER (R198): A timer owned by a camera trigger expires and sends the trigger packet. -/
  | cameraTrigger (t : Fin 64)
  /-- FABRIC_TIMER_EXPIRY (R160): A timer owned by the fabric expires. -/
  | fabricTimerExpiry (t : Fin 64)
  /-- OUTPUT_TIMER_EXPIRY (R379): A timer owned by an industrial output expires and turns the output on. -/
  | outputTimerExpiry (t : Fin 64)
  /-- OUTPUT_PULSE_END (R379): An output pulse ends WIDTH us after its latest expiry. -/
  | outputPulseEnd (o : Fin 16)
  /-- TIMER_CLAIM (R160): A write of a nonzero OWNER claims a timer or sets CLAIM_REJ. -/
  | timerClaim (a : Agent) (t : Fin 64) (v : BitVec 32)
  /-- TIMER_RELEASE (R160): A write of OWNER = 0 releases a timer. -/
  | timerRelease (a : Agent) (t : Fin 64) (v : BitVec 32)
  /-- HOLD_REQ_WRITE (R163): SHT_HOLD.REQ requests a Hold, or completes at once in Hold. -/
  | holdReqWrite (a : Agent) (v : DWord)
  /-- HOLD_RESUME_WRITE (R163): SHT_HOLD.RESUME resumes, or withdraws pending requests. -/
  | holdResumeWrite (a : Agent) (v : DWord)
  /-- HOLD_TIMER_EXPIRY (R163): The DURATION_US timer of a Hold ends, acting as RESUME. -/
  | holdTimerExpiry
  /-- SWATH_ARM (R161): The next swath arms once the carriage and GATE_IN allow. -/
  | swathArm
  /-- NOZZLE_MAP_WRITE (R155): Writes a Nozzle Map entry, ignored in Print. -/
  | nozzleMapWrite (a : Agent) (v : BitVec 32)
  /-- FRAME_SEND (R174): A GHL frame of a claimed line is sent while the window has room. -/
  | frameSend (lane : Fin 16)
  /-- ACK (R174): An upstream ACK retires frames cumulatively. -/
  | ack (lane : Fin 16) (seq : BitVec 8)
  /-- NAK (R174): An upstream NAK resends unacknowledged frames. -/
  | nak (lane : Fin 16) (seq : BitVec 8)
  /-- ACK_TIMEOUT (R174): The oldest frame is resent after ACK_TO; 8 timeouts fail the lane. -/
  | ackTimeout (lane : Fin 16)
  /-- LINK (R181): An upstream LINK block is received, and READY blocks bring the lane UP. -/
  | link (lane : Fin 16) (st : BitVec 8) (version : BitVec 8) (heads : BitVec 8) (maxnoz : BitVec 16)
  /-- TSOF (R179): A telemetry frame is received, checked and written to the ring. -/
  | tsof (lane : Fin 16) (ttype : BitVec 8) (head : BitVec 8) (len : Nat) (crc : BitVec 32) (payload : List Byte)
  /-- TEL_STALE (R179): No STATUS telemetry for TEL_TO ms sets TEL_STALE. -/
  | telStale (lane : Fin 16)
  /-- TEL_RD_WRITE (R180): The consumer moves RD forward, or an invalid write is ignored. -/
  | telRdWrite (a : Agent) (v : DWord)
  /-- SFP_INSERT (R181): An SFP+ module is inserted and the lane starts TRAINING. -/
  | sfpInsert (lane : Fin 16) (rated : Bool)
  /-- SFP_REMOVE (R182): An SFP+ module is removed, failing the lane. -/
  | sfpRemove (lane : Fin 16)
  /-- LOSS_OF_SIGNAL (R182): RX_LOS fails an UP lane. -/
  | lossOfSignal (lane : Fin 16)
  /-- LOSS_OF_ALIGNMENT (R182): Too many invalid sync headers or characters fail the lane. -/
  | lossOfAlignment (lane : Fin 16)
  /-- LINK_SILENCE_TIMEOUT (R182): No upstream block for LINK_TO × 10 us fails the lane. -/
  | linkSilenceTimeout (lane : Fin 16)
  /-- LANE_RETRAIN (R182): A FAILED lane retrains after 1 ms. -/
  | laneRetrain (lane : Fin 16)
  /-- REGION_SWAP_REQUEST (R194): SWAP requests a region exchange, at once with IMMED. -/
  | regionSwapRequest (a : Agent) (r : Fin 16) (v : DWord)
  /-- REGION_EXCHANGE (R194): The region's shadow replaces its active configuration at AT_LINE. -/
  | regionExchange (r : Fin 16) (fiPulse : Option (BitVec 16))
  /-- PIN_OWNER_CLAIM (R195): A nonzero OWNER claims the shared pins or sets CLAIM_REJ. -/
  | pinOwnerClaim (a : Agent) (v : BitVec 32)
  /-- PIN_OWNER_RELEASE (R195): Writing OWNER = 0 releases the shared pins. -/
  | pinOwnerRelease (a : Agent) (v : BitVec 32)
  /-- PIN_HANDOVER_END (R195): After 2 TCLK undriven, the pins take the new owner's configuration. -/
  | pinHandoverEnd
  /-- FAB_PASS (R188): Cell passes a. -/
  | fabPass (c : CellOp)
  /-- FAB_ADD (R188): Cell 16-bit add. -/
  | fabAdd (c : CellOp)
  /-- FAB_SUB (R188): Cell 16-bit subtract. -/
  | fabSub (c : CellOp)
  /-- FAB_AND (R188): Cell bitwise AND. -/
  | fabAnd (c : CellOp)
  /-- FAB_OR (R188): Cell bitwise OR. -/
  | fabOr (c : CellOp)
  /-- FAB_XOR (R188): Cell bitwise exclusive-OR. -/
  | fabXor (c : CellOp)
  /-- FAB_ANDN (R188): Cell AND NOT. -/
  | fabAndn (c : CellOp)
  /-- FAB_SHL (R188): Cell shift left. -/
  | fabShl (c : CellOp)
  /-- FAB_SHR (R188): Cell logical shift right. -/
  | fabShr (c : CellOp)
  /-- FAB_SAR (R188): Cell arithmetic shift right. -/
  | fabSar (c : CellOp)
  /-- FAB_ROT (R188): Cell rotate. -/
  | fabRot (c : CellOp)
  /-- FAB_MUX (R188): Cell select by FL. -/
  | fabMux (c : CellOp)
  /-- FAB_LTU (R188): Cell unsigned less-than flag. -/
  | fabLtu (c : CellOp)
  /-- FAB_EQ (R188): Cell equality flag. -/
  | fabEq (c : CellOp)
  /-- FAB_MIN (R188): Cell unsigned minimum. -/
  | fabMin (c : CellOp)
  /-- FAB_MAX (R188): Cell unsigned maximum. -/
  | fabMax (c : CellOp)
  /-- FAB_CNT (R188): Cell counter wrapping at IMM. -/
  | fabCnt (c : CellOp)
  /-- FAB_EDGE (R188): Cell edge detection against H. -/
  | fabEdge (c : CellOp)
  /-- FAB_BIT (R188): Cell bit select. -/
  | fabBit (c : CellOp)
  /-- FAB_HSPOP (R188): Cell consumes a head-stream word. -/
  | fabHspop (c : CellOp)
  /-- FAB_MACW (R190): Cell drives a MAC slice, accumulating. -/
  | fabMacw (c : CellOp)
  /-- FAB_SKIP (R188): Cell jumps its entry pointer when FL is set. -/
  | fabSkip (c : CellOp)
  /-- FAB_IOOE (R188): Cell sets its pin output enables. -/
  | fabIooe (c : CellOp)
  /-- CAMERA_LINE_ARRIVAL (R199): A camera line arrives, is corrected and written to the camera ring, or discarded. -/
  | cameraLineArrival (cam : Fin 4) (tag : Nat) (planes : List (List (BitVec 16)))
  /-- CAMERA_LINE_TIMEOUT (R199): A line not arrived LINE_TO us after its trigger is discarded. -/
  | cameraLineTimeout (cam : Fin 4) (tag : Nat)
  /-- CAMERA_LINK_LOST (R199): A camera link is lost, setting LOST and raising LINK_REROUTED. -/
  | cameraLinkLost (cam : Fin 4) (connector : Fin 4)
  /-- CAMERA_MOVER_LINE (R202): The mover registers a tag's lines into strips and pushes camera bands. -/
  | cameraMoverLine (tag : Nat)
  /-- TABLE_SWAP_REQUEST (R207): CAM_TSWAP.REQ requests a bank swap at AT_LINE, or sets REJ. -/
  | tableSwapRequest (a : Agent) (v : DWord)
  /-- REEL_CREATE (R218): Creates an OPEN Reel with a new or imported key. -/
  | reelCreate (c : CmdIn)
  /-- REEL_WRITE (R219): Writes data to an OPEN Reel, optionally closing it. -/
  | reelWrite (c : CmdIn)
  /-- REEL_WRITE_DURABLE (R235): The write becomes durable and its completion is posted. -/
  | reelWriteDurable (src : Src) (cmdId : BitVec 32)
  /-- REEL_READ (R218): Reads a Reel range to host memory. -/
  | reelRead (c : CmdIn) (media : List (Nat × MediaVerdict)) (tags : List (Nat × Bool))
  /-- REEL_DELETE (R220): Destroys a Reel's key and handle. -/
  | reelDelete (c : CmdIn)
  /-- STORE_COMMAND_ADMIT (R226): A waiting store command is admitted once its bucket is at 0 or above. -/
  | storeCommandAdmit (fn : Fin 8) (write : Bool)
  /-- STORE_DEADLINE_MISS (R227): An admitted command whose deadline can no longer be met is refused busy. -/
  | storeDeadlineMiss (src : Src) (cmdId : BitVec 32) (hintUs : BitVec 32)
  /-- CODEWORD_READ (R228): A flash page read completes and escalates through retries and rebuild. -/
  | codewordRead (sled : Fin 16) (cw : Nat) (cls : Fin 4) (line : Option Nat) (m : MediaVerdict)
  /-- FLASH_PROGRAM_FAIL (R232): A program or erase fails and the block is retired. -/
  | flashProgramFail (sled : Fin 16)
  /-- PATROL_READ (R230): Patrol reads written codewords within PATROL_D days. -/
  | patrolRead (sled : Fin 16) (cw : Nat) (m : MediaVerdict)
  /-- REFRESH (R230): A block is rewritten elsewhere by age or error trend. -/
  | refresh (u : Fin 16 × Nat)
  /-- RECLAIM_ERASE (R220): Blocks of deleted Reels are erased as class 3 work. -/
  | reclaimErase (bytes : Nat)
  /-- SLED_REMOVED (R236): A sled removed without OFFLINE fails. -/
  | sledRemoved (sled : Fin 16)
  /-- SLED_NO_ANSWER (R236): A sled not answering within 50 us fails. -/
  | sledNoAnswer (sled : Fin 16)
  /-- SLED_INTERNAL_FAULT (R236): A sled controller reports an internal fault. -/
  | sledInternalFault (sled : Fin 16)
  /-- SLED_INSERTED (R237): A replacement sled is identified, refused or accepted for rebuild. -/
  | sledInserted (sled : Fin 16) (rawTB : Nat) (serial : BitVec 128) (healthyReinsert : Bool)
  /-- SLED_OFFLINE (R237): OFFLINE takes a sled out of service, or sets REJ. -/
  | sledOffline (a : Agent) (sled : Fin 16)
  /-- REBUILD_START (R238): Rebuild starts once the replacement is accepted and any deferral ends. -/
  | rebuildStart
  /-- REBUILD_CHECKPOINT (R237): The rebuild checkpoints every 1 GB. -/
  | rebuildCheckpoint (gb : Nat)
  /-- SLED_REBUILT (R237): Rebuild completes and the store returns to FULL. -/
  | sledRebuilt
  /-- REBUILD_PAUSE (R238): Setting PAUSE stops a running rebuild. -/
  | rebuildPause (a : Agent)
  /-- REBUILD_RESUME (R238): Clearing PAUSE restarts the rebuild. -/
  | rebuildResume (a : Agent)
  /-- SQ_DOORBELL (R248): A submission doorbell sets the new TAIL; `off` is the BAR2 offset that the host writes. -/
  | sqDoorbell (fn : Fin 8) (off : BitVec 16) (v : DWord)
  /-- CQ_DOORBELL (R248): A completion head doorbell frees slots and posts waiting completions. -/
  | cqDoorbell (fn : Fin 8) (n : Fin 64) (v : DWord)
  /-- EQ_DOORBELL (R253): An event head doorbell frees slots and posts the event backlog. -/
  | eqDoorbell (fn : Fin 8) (v : DWord)
  /-- RING_ENABLE (R247): ENABLE = 1 resets HEAD, TAIL and phase and puts the ring in service. -/
  | ringEnable (fn : Fin 8) (ring : Fin 129) (v : DWord)
  /-- RING_DISABLE (R255): ENABLE = 0 stops a ring, draining or discarding. -/
  | ringDisable (fn : Fin 8) (ring : Fin 129) (v : DWord)
  /-- DESCRIPTOR_FETCH (R249): The module fetches and accepts descriptors in round robin. -/
  | descriptorFetch (fn : Fin 8) (n : Fin 64) (ds : List (BitVec 512)) (hostErr : Bool)
  /-- COALESCE_TIMEOUT (R252): COAL_US after the first pending entry, the ring's vector is sent. `hostErr`: host memory answered the
  write of an entry of the ring with an error (R254). -/
  | coalesceTimeout (fn : Fin 8) (w : Fin 129 × Bool)
  /-- COMMAND_DEADLINE (R258): A command not started within DEADLINE_US completes REFUSED_BUSY. -/
  | commandDeadline (src : Src) (cmdId : BitVec 32) (estUs : BitVec 32)
  /-- FUNCTION_LEVEL_RESET (R255): FLR disables a function's rings without drain and resets its HST_ registers. -/
  | functionLevelReset (fn : Fin 8)
  /-- HOT_RESET (R255): Hot reset or sideband reset resets every function. -/
  | hotReset
  /-- PCIE_LINK_DOWN (R255): Link down resets every function. -/
  | pcieLinkDown
  /-- BAR4_READ (R242): A host read of the Staging RAM through BAR4. -/
  | bar4Read (off n : Nat)
  /-- BAR4_WRITE (R139): A posted host write through BAR4, discarded outside the general region. -/
  | bar4Write (off : Nat) (data : List Byte)
  /-- JOB_LOAD (R266): Prefetches a Reel or loads host strips for the next PRINT_START. -/
  | jobLoad (c : CmdIn)
  /-- HOST_LOAD_READ (R390): A host-form load starts reading once the print region has room. -/
  | hostLoadRead (fn : Fin 8)
  /-- HOST_LOAD_COMPLETE (R389): The whole buffer has been read and walked, and the load completes. -/
  | hostLoadComplete (fn : Fin 8)
  /-- PRINT_START (R265): Checks and starts a job, filling the Reserve. -/
  | printStart (src : Src) (desc : Desc) (host : HostIn) (restS : BitVec 32)
  /-- HOLD (R267): Requests a Hold at a boundary. -/
  | hold (c : CmdIn)
  /-- RESUME (R163): Ends a Hold or withdraws pending requests. -/
  | resume (c : CmdIn)
  /-- ABORT (R262): Stops the job at the next boundary and returns to Ready. -/
  | abort (c : CmdIn)
  /-- CALIBRATE (R212): Runs the calibration run. -/
  | calibrate (c : CmdIn) (ok : Bool) (channels : Fin 8) (illum : Fin 16) (pixels : List CalPixel) (p : CalProducts)
  /-- TABLE_UPDATE (R268): Loads table data into the shadow bank for a switch at line L. -/
  | tableUpdate (c : CmdIn) (arrived : Bool)
  /-- PROGRAM_CHANGE (R165): Loads new programs for a switch at line L. -/
  | programChange (c : CmdIn)
  /-- HEAD_CONFIG (R168): Sets lane settings and loads the Nozzle Map image. -/
  | headConfig (c : CmdIn) (lanes : List (Fin 16 × BitVec 32)) (nmap : List (Nat × BitVec 32)) (ports : BitVec 8)
  /-- CAMERA_CONFIG (R197): Sets camera and inspection parameters. -/
  | cameraConfig (c : CmdIn) (cams : List (Fin 4 × DWord)) (loop : LoopConf) (access : List CamAccess)
  /-- SCAN_RANGE (R304): Starts a range pass and reports its counts. -/
  | scanRange (c : CmdIn)
  /-- STATUS_QUERY (R233): Returns a status or health page. -/
  | statusQuery (c : CmdIn)
  /-- BLACKBOX_READ (R368): Returns Contact Sheet records. -/
  | blackboxRead (c : CmdIn)
  /-- FW_STAGE (R327): Verifies and stores an image. -/
  | fwStage (c : CmdIn) (v : ImageVerdict) (prog : Option ProgramImage) (region : Option RegionImage)
  /-- FW_ACTIVATE (R328): Marks a staged image to boot first. -/
  | fwActivate (c : CmdIn)
  /-- KEY_WRAP (R337): Unwraps an imported key into a slot. -/
  | keyWrap (c : CmdIn) (tagOk : Bool)
  /-- MODE_SET (R309): Changes the mode. -/
  | modeSet (c : CmdIn)
  /-- SESSION_CONNECT (R272): A TLS session is accepted or its client certificate rejected. -/
  | sessionConnect (port : Fin 2) (certOk : Bool)
  /-- BIND (R273): Binds a session to a function and event mask. `h` is the capsule's 16-byte header, and `permitted` says whether the
  client's certificate permits the function that a BIND names. -/
  | bind (k : Fin 8) (h : BitVec 128) (body : List Byte) (permitted : Bool)
  /-- SUBMIT (R274): A capsule carries a descriptor and its data. -/
  | submit (k : Fin 8) (h : BitVec 128) (body : List Byte)
  /-- KEEPALIVE (R272): A KEEPALIVE capsule is received; `room` says whether the connection takes the module's capsules. -/
  | keepalive (k : KeepaliveIn)
  /-- KEEPALIVE_SEND (R272): After 10 s without traffic the module sends KEEPALIVE. -/
  | keepaliveSend (k : Fin 8)
  /-- SESSION_TIMEOUT (R272): A session silent for 30 s is closed. -/
  | sessionTimeout (k : Fin 8)
  /-- SESSION_CLOSE (R272): A session closes, and its completions and events are discarded. -/
  | sessionClose (k : Fin 8)
  /-- NOC_REQUEST_ARRIVAL (R283): A request packet reaches its target and is performed or its recorded outcome resent. -/
  | nocRequestArrival (p : Packet)
  /-- NOC_RESPONSE_ARRIVAL (R292): A response returns its credit, or is dropped for an old epoch. -/
  | nocResponseArrival (ni : Fin 36) (dst : Fin 36) (epoch : BitVec 4) (seq : BitVec 8)
  /-- LINK_DOWN (R282): A network link is declared DOWN, LINK_DOWN floods and USE_B is set. -/
  | linkDown (router : Fin 36) (south : Bool)
  /-- REQUEST_REPLAY (R283): 4 us after LINK_DOWN, unanswered requests are replayed. -/
  | requestReplay (ni : Fin 36)
  /-- ROUTE_WAIT_TIMEOUT (R284): A request without a usable route for 2 ms completes FAILED_NODE_RESET. -/
  | routeWaitTimeout (ni : Fin 36) (dst : Fin 36) (seq : BitVec 8)
  /-- ROUTE_DATA_WRITE (R280): Writes a route table entry, advancing IDX with INC. -/
  | routeDataWrite (a : Agent) (ni : Fin 36) (v : DWord)
  /-- COMMIT (R280): Checks and applies the route and credit tables, or sets BAD. -/
  | commit (a : Agent)
  /-- DOMAIN_POWER_DOWN (R290): A domain stops, completes accepted requests and turns off. -/
  | domainPowerDown (ni : Fin 36)
  /-- DOMAIN_WAKE_COMPLETE (R290): A held request has woken its domain and is served. -/
  | domainWakeComplete (ni : Fin 36)
  /-- NODE_RESET (R291): A node resets, failing accepted requests, with its router as proxy responder. -/
  | nodeReset (ni : Fin 36)
  /-- NODE_RESET_END (R291): The node's NI is ready and proxy response ends. -/
  | nodeResetEnd (ni : Fin 36)
  /-- DDR_CHANNEL_LOSS (R297): A DDR channel is lost and the module serves from mirrors and a reduced interleave. -/
  | ddrChannelLoss (ch : Fin 4)
  /-- SCRUB_READ (R303): The scrubber reads the next word of its range at RATE. -/
  | scrubRead (m : Fin 17)
  /-- SCAN_GO (R304): ECC_SCAN_CTL.GO starts a range pass, or sets REJ. -/
  | scanGo (a : Agent) (v : DWord)
  /-- SCAN_PASS_COMPLETE (R304): A range pass completes with its counts and failing indices. -/
  | scanPassComplete
  /-- ECC_INIT (R302): Starts writing zero codewords to the selected memories. -/
  | eccInit (a : Agent) (v : BitVec 32)
  /-- ECC_INIT_COMPLETE (R302): Initialisation of a memory completes. -/
  | eccInitComplete (m : Fin 17)
  /-- FLIP_ARM (R305): Arms an error injection for the next write. -/
  | flipArm (a : Agent) (v : DWord)
  /-- DEVELOPER_WATCHDOG (R357): The Developer watchdog fires and the warm restart begins. -/
  | developerWatchdog (d : Fin 4)
  /-- WARM_RESTART_COMPLETE (R358): The first slot after restart completes and DEVELOPER_RESTART is raised. -/
  | warmRestartComplete (d : Fin 4)
  /-- DRAIN_COMPLETE (R311): The drain of MODE_SET 0, 1 or 10 finishes and the module powers down. -/
  | drainComplete
  /-- DRAIN_TIMEOUT (R311): After 10 s the running commands complete ABORTED. -/
  | drainTimeout
  /-- WAKE (R318): A write of PWR_WAKE.WAKE wakes the module. -/
  | wake (a : Agent)
  /-- WAKE_ON_LAN (R318): A magic packet wakes the module. -/
  | wakeOnLan
  /-- WAKE_IN (R318): Activation of the wake input wakes the module. -/
  | wakeIn
  /-- POWER_BUTTON_PRESS (R308): A press of the power button boots or wakes the module. -/
  | powerButtonPress
  /-- POWER_BUTTON_HOLD (R308): The power button held 4 s turns the module Off. -/
  | powerButtonHold
  /-- MAINS_APPLIED (R308): Mains applied with AUTO_ON boots the module. -/
  | mainsApplied
  /-- POWER_ON_RESET (R320): Always-on power is applied and everything resets. -/
  | powerOnReset
  /-- DIE_RESET (R320): JTAG DIE_RESET performs a die reset and full boot. -/
  | dieReset
  /-- MC_WATCHDOG_EXPIRY (R320): An unserviced management-core watchdog causes a die reset. -/
  | mcWatchdogExpiry
  /-- BOOT_STAGE_COMPLETE (R324): A boot stage completes and the next starts, or Ready is reached. -/
  | bootStageComplete (ok : Bool) (fallback : BitVec 8) (patch cust : List MicroImage) (fabFailed : BitVec 16)
  /-- UART_IMAGE_RECEIVED (R326): A recovery image received over XMODEM is verified and written. -/
  | uartImageReceived (ok : Bool)
  /-- INLET_LOST (R321): An inlet below 70 V for 5 ms is lost. -/
  | inletLost (u : Fin 2)
  /-- INLET_RESTORED (R321): An inlet returns. -/
  | inletRestored (u : Fin 2)
  /-- CARTRIDGE_FAULT (R321): A power cartridge faults. -/
  | cartridgeFault (u : Fin 2)
  /-- CARTRIDGE_REMOVED (R321): A power cartridge is removed. -/
  | cartridgeRemoved (u : Fin 2)
  /-- CARTRIDGE_INSERTED (R321): A power cartridge is inserted. -/
  | cartridgeInserted (u : Fin 2)
  /-- HOLDUP_SHUTDOWN (R322): At SHUT_MS without mains, Safe and then Off. -/
  | holdupShutdown
  /-- HOLDUP_READY (R323): The holdup cartridge is charged. -/
  | holdupReady
  /-- HOLDUP_NOT_READY (R323): The holdup cartridge is absent or not ready. -/
  | holdupNotReady
  /-- REFERENCE_HOLDOVER (R314): The external reference is lost and steering freezes. -/
  | referenceHoldover
  /-- REFERENCE_RETURN (R314): A valid external input returns and locking resumes. -/
  | referenceReturn
  /-- REFERENCE_LOCKED (R314): The reference comes within 0.01 ppm of the input. -/
  | referenceLocked
  /-- PPS_EDGE (R316): A 1PPS rising edge latches DEV_TIME. -/
  | ppsEdge
  /-- FAN_FAILED (R384): A fan below 50 % for 2 s fails. -/
  | fanFailed (fan : Fin 6)
  /-- FAN_RESTORED (R384): A fan is restored. -/
  | fanRestored (fan : Fin 6)
  /-- THERMAL_WARNING (R384): Junction or intake reaches the warning level. -/
  | thermalWarning (sensor : Fin 16) (tempC : BitVec 16)
  /-- THERMAL_CRITICAL (R384): Critical temperature or tray absence leads to Safe. -/
  | thermalCritical (sensor : Fin 16) (tempC : BitVec 16)
  /-- THERMAL_CUTOFF (R384): A junction of 115 C switches the module Off. -/
  | thermalCutoff
  /-- FILTER_WARNING (R384): Fans need more than 85 % at a cool intake. -/
  | filterWarning
  /-- FAN_TRAY_REMOVED (R384): The fan tray is removed. -/
  | fanTrayRemoved
  /-- FAN_TRAY_INSERTED (R384): The fan tray is inserted. -/
  | fanTrayInserted
  /-- DIGITAL_INPUT_ACCEPT (R378): An input level stable for the filter time is accepted. -/
  | digitalInputAccept (n : Fin 16) (level : Bool)
  /-- FIELD_SUPPLY_LOW (R378): The field supply falls below 18 V. -/
  | fieldSupplyLow
  /-- FIELD_SUPPLY_RESTORED (R378): The field supply returns. -/
  | fieldSupplyRestored (levels : BitVec 16)
  /-- OUTPUT_OVERLOAD (R379): An output overload switches the output off and sets FAULT. -/
  | outputOverload (o : Fin 16)
  /-- OUTPUT_RETRY (R379): An overloaded output retries every 100 ms. -/
  | outputRetry (o : Fin 16) (overload : Bool)
  /-- ENC_PWR_OVERLOAD (R376): An overloaded encoder supply folds back. -/
  | encPwrOverload (ch : Fin 4)
  /-- ENC_PWR_RETRY (R376): A folded encoder supply retries every 100 ms. -/
  | encPwrRetry (ch : Fin 4) (overload : Bool)
  /-- LIFECYCLE_REQUEST (R332): SEC_LC_CTL.GO checks a signed lifecycle request. -/
  | lifecycleRequest (a : Agent) (keyHashOk sigOk : Bool)
  /-- FUSES_BLOWN (R332): The fuses are blown and a die reset follows. -/
  | fusesBlown
  /-- DEBUG_LEVEL_REQUEST (R339): DBG_CTL.REQ asks for, or lowers, a debug level. -/
  | debugLevelRequest (a : Agent) (v : BitVec 32)
  /-- UNLOCK_CHALLENGE (R341): CHAL issues a fresh nonce. -/
  | unlockChallenge (a : Agent)
  /-- UNLOCK_GO (R342): GO starts verifying the unlock token. -/
  | unlockGo (a : Agent)
  /-- UNLOCK_VERIFY_COMPLETE (R341): Token verification ends, granting D2 or rejecting. -/
  | unlockVerifyComplete (sigOk : Bool)
  /-- NONCE_EXPIRY (R341): The nonce expires after 60 s. -/
  | nonceExpiry
  /-- DEBUG_SESSION_EXPIRY (R343): VALID_S expires, ending D2 with a die reset. -/
  | debugSessionExpiry
  /-- DEBUG_HALT (R347): DBG_HALT requests halts of the named cores. -/
  | debugHalt (a : Agent) (v : BitVec 32)
  /-- STEP (R347): Steps the named halted cores. -/
  | step (a : Agent) (v : BitVec 32)
  /-- DBG_RESUME (R347): Releases the named cores. -/
  | dbgResume (a : Agent) (v : BitVec 32)
  /-- DBG_REGISTER_READ (R340): DBG_ACCESS register read. -/
  | dbgRegisterRead (addr : BitVec 48)
  /-- DBG_REGISTER_WRITE (R340): DBG_ACCESS register write. -/
  | dbgRegisterWrite (addr : BitVec 48) (v : DWord)
  /-- DBG_MEMORY_READ (R340): DBG_ACCESS memory read at D2. -/
  | dbgMemoryRead (addr : BitVec 48)
  /-- DBG_MEMORY_WRITE (R340): DBG_ACCESS memory write at D2. -/
  | dbgMemoryWrite (addr : BitVec 48) (v : DWord)
  /-- BYPASS (R340): TAP BYPASS instruction. -/
  | bypass
  /-- IDCODE (R340): TAP IDCODE instruction. -/
  | idcode
  /-- SAMPLE_PRELOAD (R340): TAP SAMPLE/PRELOAD instruction. -/
  | samplePreload
  /-- EXTEST (R340): TAP EXTEST instruction, or BYPASS when not permitted. -/
  | extest
  /-- LOUPE_CLAIM (R349): LP_CTL.CLAIM = 1 claims the pins for the Loupe. -/
  | loupeClaim (a : Agent) (v : BitVec 32)
  /-- LOUPE_RELEASE (R349): CLAIM = 0 releases the Loupe pins. -/
  | loupeRelease (a : Agent) (v : BitVec 32)
  /-- CS_RECORD_WRITE (R365): A queued Contact Sheet record is written. -/
  | csRecordWrite
  /-- CS_MERGE_WINDOW_END (R365): At 1 ms, merged records are written with their count. -/
  | csMergeWindowEnd (ty : BitVec 16) (source : BitVec 8)
  /-- HOST_TRIGGER (R367): CS_CTL.TRIG triggers a trace freeze. -/
  | hostTrigger (a : Agent) (v : BitVec 32)
  /-- TRACE_COMMIT_COMPLETE (R366): The trace commit completes and recording restarts. -/
  | traceCommitComplete
  /-- IDLE (R169): An upstream IDLE block is received on a lane, giving character alignment and keeping the lane from the silence timeout. -/
  | idle (lane : Fin 16)
  /-- ILLEGAL_INSTRUCTION (R68): A fetched encoding that is reserved or unassigned raises the illegal-instruction exception. -/
  | illegalInstruction (h : Hdr)
  /-- CAMERA_LINK_UP (R214): A CoaXPress camera link comes up and its CAM_STATUS.UP bit is set. -/
  | cameraLinkUp (cam : Fin 4)
  /-- LINK_LEVEL_RETRY (R282): A flit fails its link CRC and is retried at link level, costing 4 NCLK; 16 failures within 1 us declare the link DOWN. -/
  | linkLevelRetry (router : Fin 36) (south : Bool)
  /-- LINK_RETRAINED (R284): A repaired network link retrains and becomes usable again at the next COMMIT. -/
  | linkRetrained (router : Fin 36) (south : Bool)
  /-- SLED_OVER_TEMPERATURE (R236): A sled reaching 70 C fails and SLED_FAULT is raised with KIND 5. -/
  | sledOverTemperature (sled : Fin 16)
  /-- PCIE_LINK_UP (R241): The PCI Express link trains and comes up, so the host can again reach the BARs and rings. -/
  | pcieLinkUp
deriving DecidableEq, Repr

end Sys2Proof
end

