-- ==== Sys2Proof/Decode.lean ====
section
/-!
DEFINITION. The commands that a word of the operation table spells, of which there are none, and the words of the Developer and
management cores (R66, R67, R69, R70, R107): what of an instruction its word settles. The function codes of forms R and V, the bit
that tells shri from sari, and the place of a store-conditional's data register are not given (log 108).
-/

namespace Sys2Proof

/-- The command spelt by a word whose bits are numbered as the operation table numbers them: the table numbers none, so
there is none. -/
def decodeTableWord (nbits w : Nat) : Option Instr :=
  match nbits, w with
  | _, _ => none

/-- What a core's word says: an instruction whole; an array instruction by its decode index; a word of form R or V, of which the
function code is left to name; the fields of another word that the formats leave open; or a reserved major, an illegal instruction. -/
inductive CoreWord where
  | instr (i : Instr)
  | array (index : Fin 256) (cond : Cond) (ra rb rd : Fin 32)
  | formR (maj : Fin 32) (cond : Cond) (fn : BitVec 6) (rs1 rs2 rd : Fin 32)
  | formV (maj : Fin 32) (cond : Cond) (fn : Fin 16) (ro : Bool) (esz grp : Fin 4) (vs1 vs2 vd : Fin 16)
  | unsettled (maj : Fin 32)
  | illegal
deriving DecidableEq, Repr

/-- Bytes of the instruction that starts with a halfword (R66). -/
def coreLength (first : BitVec 16) : Nat := if first.extractLsb' 14 2 = 3 then 4 else 2

/-- The condition of a code of R70. -/
def condOf (c : BitVec 4) : Cond :=
  ([.alw, .zs, .zc, .gor, .gnor, .cy, .ncy, .neg, .nneg, .ov, .ugt, .ule, .sge, .slt, .sgt, .sle] : List Cond).getD c.toNat .alw

/-- A register field at bit `lo`. -/
def field5 (w : BitVec 32) (lo : Nat) : Fin 32 := (w.extractLsb' lo 5).toFin

/-- A vector register field at bit `lo`. -/
def field4 (w : BitVec 32) (lo : Nat) : Fin 16 := (w.extractLsb' lo 4).toFin

/-- A 16-bit word: forms H-R, H-I and H-B. -/
def decodeShort (core : Fin 8) (w : BitVec 16) : CoreWord :=
  let x := w.setWidth 32
  let h : Hdr := { core := core, cond := condOf ((w.extractLsb' 10 2).setWidth 4), short := true }
  let rd := field5 x 5
  let rs := field5 x 0
  match (w.extractLsb' 12 4).toNat with
  | 0x0 => .instr (.mov h rd rs)
  | 0x1 => .instr (.add h rd rd rs)
  | 0x2 => .instr (.sub h rd rd rs)
  | 0x3 => .instr (.and h rd rd rs)
  | 0x4 => .instr (.or h rd rd rs)
  | 0x5 => .instr (.xor h rd rd rs)
  | 0x6 => .instr (.cmp h rd rs)
  | 0x7 => .instr (.addi h rd rd ((w.extractLsb' 0 5).signExtend 11))
  | 0x8 => .instr (.ldw h rd 1 rs 0)
  | 0x9 => .instr (.stw h rd 1 rs 0)
  | 0xA => .instr (.movi h rd (w.extractLsb' 0 5))
  | 0xB => .instr (.b h ((w.extractLsb' 0 10).signExtend 21))
  | _ => .unsettled 0

/-- A load, store or atomic: form M of majors 0x10 to 0x13. -/
def decodeMem (h : Hdr) (maj : Nat) (w : BitVec 32) : CoreWord :=
  let rd := field5 w 0
  let seg : Fin 8 := (w.extractLsb' 29 3).toFin
  let rb := field5 w 24
  let imm := w.extractLsb' 16 6
  match maj, (w.extractLsb' 22 2).toNat with
  | 0x10, 0 => .instr (.ldb h rd seg rb imm)
  | 0x10, 1 => .instr (.ldh h rd seg rb imm)
  | 0x10, 2 => .instr (.ldw h rd seg rb imm)
  | 0x10, 3 => .instr (.ldd h rd seg rb imm)
  | 0x11, 0 => .instr (.ldbu h rd seg rb imm)
  | 0x11, 1 => .instr (.ldhu h rd seg rb imm)
  | 0x12, 0 => .instr (.stb h rd seg rb imm)
  | 0x12, 1 => .instr (.sth h rd seg rb imm)
  | 0x12, 2 => .instr (.stw h rd seg rb imm)
  | 0x12, 3 => .instr (.std h rd seg rb imm)
  | 0x13, 2 => if imm = 0 then .instr (.lrw h rd seg rb) else .unsettled 0x13
  | 0x13, 3 => if imm = 0 then .instr (.lrd h rd seg rb) else .unsettled 0x13
  | m, _ => .unsettled (Fin.ofNat 32 m)

/-- A vector memory instruction: form VM, whose bit 4 must be 0 (R68). -/
def decodeVm (h : Hdr) (w : BitVec 32) : CoreWord :=
  let vd := field4 w 0
  let seg : Fin 8 := (w.extractLsb' 29 3).toFin
  let rb := field5 w 24
  let esz : Fin 4 := (w.extractLsb' 22 2).toFin
  let grp : Fin 4 := (w.extractLsb' 20 2).toFin
  let nf : Fin 8 := (w.extractLsb' 17 3).toFin
  let load := w.getLsbD 16
  if w.getLsbD 4 then .illegal
  else if nf = 0 then .instr (if load then .vld h seg rb esz grp vd else .vst h seg rb esz grp vd)
  else .instr (if load then .vsplit h seg rb esz grp nf vd else .vmerge h seg rb esz grp nf vd)

/-- A 32-bit word. -/
def decodeLong (core : Fin 8) (w : BitVec 32) : CoreWord :=
  let h : Hdr := { core := core, cond := condOf (w.extractLsb' 5 4), short := false }
  let maj := field5 w 9
  let rd := field5 w 0
  let rs1 := field5 w 27
  let rs2 := field5 w 22
  let imm := w.extractLsb' 16 11
  let off : BitVec 21 := w.extractLsb' 16 16 ++ w.extractLsb' 0 5
  match maj.val with
  | 0x01 => .instr (.addi h rd rs1 imm)
  | 0x02 => .instr (.andi h rd rs1 imm)
  | 0x03 => .instr (.ori h rd rs1 imm)
  | 0x04 => .instr (.xori h rd rs1 imm)
  | 0x05 => .instr (.shli h rd rs1 imm)
  | 0x07 => .instr (.cmpi h rs1 imm)
  | 0x08 => .instr (.movhi h rd (w.extractLsb' 16 16))
  | 0x09 => .instr (.movlo h rd (w.extractLsb' 16 16))
  | 0x10 | 0x11 | 0x12 | 0x13 => decodeMem h maj.val w
  | 0x14 => .instr (.b h off)
  | 0x15 => .instr (.bl h off)
  | 0x17 | 0x18 =>
    .formV maj h.cond (field4 w 16) (w.getLsbD 4) (w.extractLsb' 22 2).toFin (w.extractLsb' 20 2).toFin (field4 w 28) (field4 w 24)
      (field4 w 0)
  | 0x19 => decodeVm h w
  | 0x1A | 0x1B => .illegal
  | 0x1C | 0x1D | 0x1E | 0x1F => .array (Fin.ofNat 256 ((maj.val - 0x1C) * 64 + (w.extractLsb' 16 6).toNat)) h.cond rs1 rs2 rd
  | 0x06 => .unsettled 0x06
  | _ => .formR maj h.cond (w.extractLsb' 16 6) rs1 rs2 rd

/-- What a core reads from the halfword at the lower address and the one above it (R66): the first alone tells the length. -/
def decodeCore (core : Fin 8) (first second : BitVec 16) : CoreWord :=
  if coreLength first = 4 then decodeLong core (second ++ first) else decodeShort core first

end Sys2Proof
end

