-- ==== Sys2Proof/Config.lean ====
section
/-!
DEFINITION. What one implementation of the block fixes and the spec does not say, and the free values. Every constant
here is opaque: no proof can see its value, so a statement holds whatever it is.
-/

namespace Sys2Proof.Config

/-- The free bits of the n-th open value (assumption log 6). -/
opaque freeBits : Nat → (w : Nat) → BitVec w

/-- Base of the boot ROM in the internal address space, by core (R74 names the ROM and gives no place; log 3). -/
opaque bootRomBase : Fin 8 → BitVec 48
/-- Size of the boot ROM in bytes, by core (log 3). -/
opaque bootRomLimit : Fin 8 → BitVec 32
/-- ROM_VER of the microcode ROM (R138; log 3). -/
opaque romVersion : BitVec 16

/-- Places, in the 48-bit internal address space, of the units whose address the spec does not give (log 4): the Reserve, the
instruction and the data SRAMs of the Developers, the SRAMs of the management cores and the control register space of R243. -/
opaque reservePlace : BitVec 48
/-- See `reservePlace`. -/
opaque devInstrPlace : Fin 4 → BitVec 48
/-- See `reservePlace`. -/
opaque devDataPlace : Fin 4 → BitVec 48
/-- See `reservePlace`. -/
opaque mcSramPlace : Fin 4 → BitVec 48
/-- See `reservePlace`. -/
opaque registerPlace : BitVec 48

/-- The base of the Reserve. -/
def reserveBase : Nat := reservePlace.toNat
/-- The base of the instruction SRAM of a Developer. -/
def devInstrBase (d : Fin 4) : Nat := (devInstrPlace d).toNat
/-- The base of the data SRAM of a Developer. -/
def devDataBase (d : Fin 4) : Nat := (devDataPlace d).toNat
/-- The base of the SRAM of a management core. -/
def mcSramBase (d : Fin 4) : Nat := (mcSramPlace d).toNat
/-- The base of the control register space. -/
def registerBase : Nat := registerPlace.toNat

/-- ROM nanostore words (R130 gives no contents; log 10). -/
opaque romNano : Nat → BitVec 128
/-- ROM microstore words (log 10). -/
opaque romMicro : Nat → BitVec 32

/-- The reciprocal estimate of frecpe before the bound of R87 is applied (log 7). -/
opaque reciprocalEstimate : BitVec 32 → BitVec 32
/-- Whether tininess is judged before rounding (R89 says "IEEE default"; log 7). -/
opaque tininessBeforeRounding : Bool
/-- Whether fmin and fmax of one NaN and one number give the number (log 7). -/
opaque minMaxNumber : Bool
/-- Which of two zeros of unlike sign fmin gives, and fmax (log 7). -/
opaque minMaxZeroFirst : Bool

/-- Whether fused multiply-add of infinity, zero and a quiet NaN raises NV (log 7). -/
opaque fmaInvalidNaN : Bool
/-- NX, UF and the flags beside OF that frecpe raises for an operand (log 7). -/
opaque reciprocalFlags : BitVec 32 → BitVec 2
/-- Which way the generator of R79 shifts (log 22). -/
opaque lfsrLeft : Bool
/-- How DATA[23:0] of a Contact Sheet record lays out the values R364 and R366 name for its TYPE (log 18). -/
opaque csData : Nat → List Nat → List Byte

/-- Whether vext sign-extends the element it extracts (R69 does not say; log 20). -/
opaque vextSigned : Bool
/-- Whether vwiden sign-extends (R69 does not say; log 20). -/
opaque vwidenSigned : Bool

/-- What a codeword reads as after an injected pattern of three or more wrong bits, by memory code, data, data flips
and check flips: 0 good, 1 correctable, otherwise uncorrectable (R305, R298; log 8). -/
opaque eccManyFlips : Nat → DWord → DWord → BitVec 16 → Nat
/-- The data such a pattern decodes to when it decodes as correctable (log 8). -/
opaque eccMiscorrect : Nat → DWord → DWord → BitVec 16 → DWord
/-- The stored bits of a poisoned grain-memory plane (R52 gives no pattern; log 9). -/
opaque poisonPlane : Nat → Plane
/-- The stored bits of a poisoned or undefined word, by memory code and word index (R302; log 9). -/
opaque poisonWord : Nat → Nat → DWord
/-- Whether an undefined DDR5 word decodes as uncorrectable (R302; log 9). -/
opaque undefIsBad : Nat → Bool

/-- Whether vnarrow.satu reads its source elements as signed (R94 does not say; log 20). -/
opaque vnarrowSigned : Bool
/-- ENTRY of a ROM decode entry (R113 gives none; log 10). -/
opaque romEntry : Nat → BitVec 15
/-- The microstore (space 0) and nanostore (space 1) ROM words a ROM routine executes, which an overlay can replace
(R131; log 10). -/
opaque romUses : Nat → List (Nat × Nat)
/-- Where amov puts a scalar in an accumulator (R77 does not say; log 29). -/
opaque amovScalar : BitVec 32 → BitVec 72

/-- What the stripe unit geometry of R215 leaves to the store's firmware: the flash block of a sled that a codeword lies in (log 113). -/
opaque flashBlock : Nat → Nat → Nat
/-- The temperature of a sled in °C at a DEV_TIME (R230, R233; log 114). -/
opaque sledTemp : Nat → BitVec 64 → Int
/-- What a sled of a serial number brings with it: hours powered, blocks bad at manufacture, bytes programmed; and its WEAR_PCT after
so many bytes programmed (R233; log 114). -/
opaque sledHours : BitVec 128 → Nat
opaque sledBad : BitVec 128 → Nat
opaque sledWritten : BitVec 128 → Nat
opaque sledWear : BitVec 128 → Nat → Nat
/-- The key in an imported key blob, and a key wrapped under the store KEK (R223; log 115). -/
opaque importedKey : List (BitVec 8) → BitVec 256
opaque kekWrap : BitVec 256 → BitVec 320
/-- AES-256-GCM under a wrapped key: the sealed chunk and its tag, by key, IV and data (R223; log 115). -/
opaque gcmSeal : BitVec 320 → BitVec 96 → List (BitVec 8) → List (BitVec 8)
opaque gcmTag : BitVec 320 → BitVec 96 → List (BitVec 8) → BitVec 128

/-- GAIN of a pixel whose white lies so little above its dark that the quotient of R213 needs more than 16 bits (log 123). -/
opaque calGain : Nat → BitVec 16

/-- Whether ROT rotates left (R188 does not say; log 39). -/
opaque rotateLeft : Bool

end Sys2Proof.Config
end

