-- ==== Sys2Proof/Machine/SMap.lean ====
section
/-!
DEFINITION. Sparse data by key in one canonical form: a list of (key, value) pairs, keys strictly rising, no entry equal
to what an unlisted key reads as. Registers, memory words, grain planes and the Nozzle Map are held this way.
-/

namespace Sys2Proof.Machine

/-- A sparse map from Nat keys. -/
abbrev SMap (α : Type) := List (Nat × α)

/-- The value at a key; an unlisted key reads as `d k`. -/
def smGet {α : Type} (d : Nat → α) : SMap α → Nat → α
  | [], k => d k
  | (j, v) :: m, k => if j = k then v else smGet d m k

/-- Writes an entry, keeping the keys in rising order. -/
def smPut {α : Type} : SMap α → Nat → α → SMap α
  | [], k, v => [(k, v)]
  | (j, w) :: m, k, v =>
    if k < j then (k, v) :: (j, w) :: m
    else if k = j then (k, v) :: m
    else (j, w) :: smPut m k v

/-- Removes a key. -/
def smDel {α : Type} (m : SMap α) (k : Nat) : SMap α := m.filter (fun e => e.1 ≠ k)

/-- Writes a value; writing what an unlisted key reads as removes the entry. -/
def smSet {α : Type} [DecidableEq α] (d : Nat → α) (m : SMap α) (k : Nat) (v : α) : SMap α :=
  if v = d k then smDel m k else smPut m k v

/-- The keys rise strictly. -/
def smAscending {α : Type} : SMap α → Bool
  | [] => true
  | (j, _) :: m => m.all (fun e => j < e.1) && smAscending m

/-- The canonical form: keys strictly rising, no entry equal to what its unlisted key reads as. -/
def smWf {α : Type} [DecidableEq α] (d : Nat → α) (m : SMap α) : Bool :=
  smAscending m && m.all (fun e => e.2 ≠ d e.1)

/-- Keeps the entries whose key satisfies `p`: what a reset of the others does. -/
def smKeep {α : Type} (p : Nat → Bool) (m : SMap α) : SMap α := m.filter (fun e => p e.1)

end Sys2Proof.Machine
end

