-- ==== Sys2Proof/Machine/Regs.lean ====
section
/-!
DEFINITION. The control registers: every register of the spec's field maps, its place in BAR0 (R243), its fields with
their access codes (R9) and reset values, and the software read and write of a whole register by those codes
(R8-R11). The table is written from the field maps of R27, R64, R138, R167, R196, R214, R240, R275, R306, R329,
R352, R369, R387 and of SHT_STATUS under R7.
-/

namespace Sys2Proof.Machine

/-- The access codes of R9. -/
inductive Acc where
  | rw | rwh | ro | w1c | w1s | rc | cnt | db | wo
deriving DecidableEq, Repr

/-- The registers, by the manual's names; an index names the instance (SHT_GRP 3 is SHT_GRP3, HST_SQ_CFG 64f + n is
SQ n of function f). -/
inductive RegName where
  | SYS_MODE
  | SYS_REDUND
  | SYS_DEV_TIME
  | SYS_BAD_ACCESS
  | SYS_BOOT
  | SYS_CLK_CTL
  | SYS_CLK_STATUS
  | SYS_PPS_STAMP
  | PWR_CFG
  | PWR_STATUS
  | PWR_WAKE
  | PWR_THERM
  | SEC_STATE
  | SEC_LC_CTL
  | SEC_SERIAL
  | SEC_LC_BUF
  | DBG_CTL
  | DBG_STATUS
  | DBG_HALT
  | DBG_UNLOCK_CTL
  | DBG_CHAL
  | DBG_TOKEN
  | LP_CTL
  | LP_SEL
  | CS_SEQ
  | CS_CTL
  | CS_STATUS
  | HST_SQ_BASE
  | HST_SQ_CFG
  | HST_SQ_PTR
  | HST_CQ_BASE
  | HST_CQ_CFG
  | HST_CQ_PTR
  | HST_EQ_BASE
  | HST_EQ_CFG
  | HST_EQ_PTR
  | HST_FN_ERR
  | HST_EVT_MASK
  | HST_EVT_LOST
  | HST_PERM
  | HST_CTL
  | NOC_RT_CTL
  | NOC_LINK_FAIL
  | NOC_RT_IDX
  | NOC_RT_DATA
  | NOC_CRED
  | NOC_CRED1
  | NOC_CRED2
  | NOC_NI_STAT
  | NOC_NI_USEB
  | ECC_INIT
  | ECC_SCAN_CTL
  | ECC_SCAN_START
  | ECC_SCAN_SUM
  | ECC_SCAN_ADDR
  | ECC_FLIP_CTL
  | ECC_FLIP_MASK
  | ECC_SCRUB
  | ECC_SCRUB_RANGE
  | ECC_UE
  | DEV_UCODE_VER
  | DEV_UCODE_CUST
  | DEV_UCODE_CTL
  | DEV_UC_ADDR
  | DEV_UC_DATA
  | DEV_UC_PAR
  | DEV_AIQ_STATUS
  | DEV_WDT
  | DEV_INSP_SKIP
  | GRN_GANG
  | GRN_EDGE
  | GRN_STATUS
  | GRN_INIT
  | GRN_ECC
  | GRN_FOG_CTRL
  | GRN_FOG_FAIL
  | GRN_SLIP_CMD
  | GRN_SLIP_STATE
  | ENL_BAND_ADDR
  | ENL_BAND_PUSH
  | ENL_STATUS
  | ENL_CTL
  | SHT_CTL
  | SHT_STATUS
  | SHT_LINE_MISS_CNT
  | SHT_RESERVE
  | SHT_HOLD
  | SHT_PITCH
  | SHT_LINEPOS
  | SHT_SWATH
  | SHT_NMAP_IDX
  | SHT_NMAP_DATA
  | SHT_ENC_CTL
  | SHT_GRP
  | SHT_TIMER
  | SHT_TIMER_CFG
  | SHT_DIN_CTL
  | SHT_DOUT_CTL
  | HP_LANE_CTL
  | HP_LANE_STATUS
  | HP_WIRED
  | HP_TEL_BASE
  | HP_TEL_PTR
  | HP_TEL_RING
  | FAB_PIN_OWNER
  | FAB_REGION_CTL
  | CAM_CTL
  | CAM_STATUS
  | CAM_TSWAP
  | CAM_CAM_CFG
  | JS_REBUILD
  | JS_SLED_CTL
  | JS_QUOTA
  | JS_CAPQ
  | JS_MEDIA
  | DDR_MIRROR
  | DDR_STATUS
deriving DecidableEq, Repr

/-- A field of a register: its lowest bit and its width. -/
structure Fld where
  reg : RegName
  lo : Nat
  w : Nat
deriving DecidableEq, Repr

/-- A field of a field map with its access code. -/
structure FieldSpec where
  lo : Nat
  w : Nat
  acc : Acc
deriving DecidableEq, Repr

/-- A register's entry: its first BAR0 offset, instances, stride and width in bits, the reset value of an instance, and
its fields. An `addr` of 0 with no stride on a register of the HST_ pages is worked out by `regAddr`. -/
structure RegInfo where
  addr : Nat
  count : Nat
  stride : Nat
  width : Nat
  reset : DWord
  fields : List FieldSpec
deriving DecidableEq, Repr

/-- The register table. -/
def regInfo : RegName → RegInfo
  | .SYS_MODE => ⟨0x0, 1, 0x0, 32, 0x2,
      [⟨12, 4, .ro⟩, ⟨8, 1, .ro⟩, ⟨4, 4, .ro⟩, ⟨0, 4, .ro⟩]⟩
  | .SYS_REDUND => ⟨0x8, 1, 0x0, 32, 0x0,
      [⟨31, 1, .ro⟩, ⟨0, 8, .ro⟩]⟩
  | .SYS_DEV_TIME => ⟨0x10, 1, 0x0, 64, 0x0,
      [⟨0, 64, .ro⟩]⟩
  | .SYS_BAD_ACCESS => ⟨0x18, 1, 0x0, 32, 0x0,
      [⟨0, 32, .cnt⟩]⟩
  | .SYS_BOOT => ⟨0x20, 1, 0x0, 32, 0x10000,
      [⟨24, 8, .ro⟩, ⟨16, 8, .ro⟩, ⟨8, 8, .ro⟩, ⟨0, 3, .ro⟩]⟩
  | .SYS_CLK_CTL => ⟨0x100, 1, 0x0, 32, 0x0,
      [⟨2, 1, .rw⟩, ⟨1, 1, .rw⟩, ⟨0, 1, .rw⟩]⟩
  | .SYS_CLK_STATUS => ⟨0x108, 1, 0x0, 32, 0x0,
      [⟨16, 16, .ro⟩, ⟨4, 1, .w1c⟩, ⟨3, 1, .ro⟩, ⟨2, 1, .ro⟩, ⟨0, 2, .ro⟩]⟩
  | .SYS_PPS_STAMP => ⟨0x110, 1, 0x0, 64, 0x0,
      [⟨0, 64, .ro⟩]⟩
  | .PWR_CFG => ⟨0x8000, 1, 0x0, 32, 0x2801,
      [⟨21, 1, .rw⟩, ⟨20, 1, .rw⟩, ⟨16, 4, .rw⟩, ⟨8, 8, .rw⟩, ⟨0, 1, .rw⟩]⟩
  | .PWR_STATUS => ⟨0x8008, 1, 0x0, 32, 0x0,
      [⟨16, 16, .ro⟩, ⟨8, 8, .ro⟩, ⟨4, 1, .ro⟩, ⟨2, 2, .ro⟩, ⟨0, 2, .ro⟩]⟩
  | .PWR_WAKE => ⟨0x8010, 1, 0x0, 32, 0x0,
      [⟨0, 1, .w1s⟩]⟩
  | .PWR_THERM => ⟨0x8020, 1, 0x0, 64, 0x0,
      [⟨56, 8, .ro⟩, ⟨50, 6, .ro⟩, ⟨49, 1, .ro⟩, ⟨16, 16, .ro⟩, ⟨0, 16, .ro⟩]⟩
  | .SEC_STATE => ⟨0x100000, 1, 0x0, 64, 0x0,
      [⟨32, 6, .ro⟩, ⟨38, 6, .ro⟩, ⟨44, 6, .ro⟩, ⟨50, 6, .ro⟩, ⟨56, 6, .ro⟩, ⟨0, 2, .ro⟩]⟩
  | .SEC_LC_CTL => ⟨0x100008, 1, 0x0, 32, 0x0,
      [⟨4, 4, .ro⟩, ⟨0, 1, .w1s⟩]⟩
  | .SEC_SERIAL => ⟨0x100010, 1, 0x0, 64, 0x0,
      [⟨0, 64, .ro⟩]⟩
  | .SEC_LC_BUF => ⟨0x100100, 64, 0x8, 64, 0x0,
      [⟨0, 64, .rw⟩]⟩
  | .DBG_CTL => ⟨0x200000, 1, 0x0, 32, 0x0,
      [⟨4, 1, .rw⟩, ⟨3, 1, .rw⟩, ⟨2, 1, .rwh⟩, ⟨0, 2, .rw⟩]⟩
  | .DBG_STATUS => ⟨0x200008, 1, 0x0, 32, 0x0,
      [⟨3, 1, .w1c⟩, ⟨2, 1, .w1c⟩, ⟨0, 2, .ro⟩]⟩
  | .DBG_HALT => ⟨0x200010, 1, 0x0, 32, 0x0,
      [⟨25, 1, .w1s⟩, ⟨24, 1, .w1s⟩, ⟨16, 8, .ro⟩, ⟨0, 8, .rw⟩]⟩
  | .DBG_UNLOCK_CTL => ⟨0x200020, 1, 0x0, 32, 0x0,
      [⟨8, 4, .ro⟩, ⟨4, 4, .ro⟩, ⟨1, 1, .w1s⟩, ⟨0, 1, .w1s⟩]⟩
  | .DBG_CHAL => ⟨0x200040, 4, 0x8, 64, 0x0,
      [⟨0, 64, .ro⟩]⟩
  | .DBG_TOKEN => ⟨0x200100, 14, 0x8, 64, 0x0,
      [⟨0, 64, .rw⟩]⟩
  | .LP_CTL => ⟨0x208000, 1, 0x0, 32, 0x0,
      [⟨2, 6, .rw⟩, ⟨1, 1, .rw⟩, ⟨0, 1, .rw⟩]⟩
  | .LP_SEL => ⟨0x208100, 16, 0x4, 32, 0x0,
      [⟨8, 5, .rw⟩, ⟨0, 8, .rw⟩]⟩
  | .CS_SEQ => ⟨0x300000, 1, 0x0, 64, 0x0,
      [⟨32, 32, .ro⟩, ⟨0, 32, .ro⟩]⟩
  | .CS_CTL => ⟨0x300008, 1, 0x0, 32, 0x7FF,
      [⟨31, 1, .w1s⟩, ⟨0, 11, .rw⟩]⟩
  | .CS_STATUS => ⟨0x300010, 1, 0x0, 64, 0x0,
      [⟨48, 16, .cnt⟩, ⟨32, 16, .cnt⟩, ⟨16, 16, .ro⟩, ⟨0, 1, .ro⟩]⟩
  | .HST_SQ_BASE => ⟨0x0, 512, 0x0, 64, 0x0,
      [⟨12, 52, .rw⟩]⟩
  | .HST_SQ_CFG => ⟨0x0, 512, 0x0, 64, 0x0,
      [⟨63, 1, .rw⟩, ⟨62, 1, .ro⟩, ⟨61, 1, .w1c⟩, ⟨52, 4, .rw⟩, ⟨32, 6, .rw⟩, ⟨0, 16, .rw⟩]⟩
  | .HST_SQ_PTR => ⟨0x0, 512, 0x0, 64, 0x0,
      [⟨32, 1, .ro⟩, ⟨16, 16, .ro⟩, ⟨0, 16, .ro⟩]⟩
  | .HST_CQ_BASE => ⟨0x0, 512, 0x0, 64, 0x0,
      [⟨12, 52, .rw⟩]⟩
  | .HST_CQ_CFG => ⟨0x0, 512, 0x0, 64, 0x10000000000,
      [⟨63, 1, .rw⟩, ⟨62, 1, .ro⟩, ⟨61, 1, .w1c⟩, ⟨48, 6, .rw⟩, ⟨40, 8, .rw⟩, ⟨32, 8, .rw⟩, ⟨0, 16, .rw⟩]⟩
  | .HST_CQ_PTR => ⟨0x0, 512, 0x0, 64, 0x0,
      [⟨32, 1, .ro⟩, ⟨16, 16, .ro⟩, ⟨0, 16, .ro⟩]⟩
  | .HST_EQ_BASE => ⟨0x0, 8, 0x0, 64, 0x0,
      [⟨12, 52, .rw⟩]⟩
  | .HST_EQ_CFG => ⟨0x0, 8, 0x0, 64, 0x10000000000,
      [⟨63, 1, .rw⟩, ⟨62, 1, .ro⟩, ⟨61, 1, .w1c⟩, ⟨48, 6, .rw⟩, ⟨40, 8, .rw⟩, ⟨32, 8, .rw⟩, ⟨0, 16, .rw⟩]⟩
  | .HST_EQ_PTR => ⟨0x0, 8, 0x0, 64, 0x0,
      [⟨32, 1, .ro⟩, ⟨16, 16, .ro⟩, ⟨0, 16, .ro⟩]⟩
  | .HST_FN_ERR => ⟨0x0, 8, 0x0, 32, 0x0,
      [⟨16, 8, .ro⟩, ⟨8, 8, .ro⟩, ⟨0, 1, .w1c⟩]⟩
  | .HST_EVT_MASK => ⟨0x0, 8, 0x0, 64, 0x7FFFF,
      [⟨0, 19, .rw⟩]⟩
  | .HST_EVT_LOST => ⟨0x0, 8, 0x0, 32, 0x0,
      [⟨0, 32, .cnt⟩]⟩
  | .HST_PERM => ⟨0x480000, 8, 0x8, 32, 0x1,
      [⟨4, 1, .rw⟩, ⟨3, 1, .rw⟩, ⟨2, 1, .rw⟩, ⟨1, 1, .rw⟩, ⟨0, 1, .rw⟩]⟩
  | .HST_CTL => ⟨0x480040, 1, 0x0, 32, 0x2,
      [⟨1, 1, .rw⟩, ⟨0, 1, .rw⟩]⟩
  | .NOC_RT_CTL => ⟨0x500000, 1, 0x0, 32, 0x0,
      [⟨8, 12, .ro⟩, ⟨1, 1, .w1c⟩, ⟨0, 1, .w1s⟩]⟩
  | .NOC_LINK_FAIL => ⟨0x500008, 1, 0x0, 32, 0x0,
      [⟨31, 1, .w1c⟩, ⟨8, 6, .ro⟩, ⟨0, 2, .ro⟩]⟩
  | .NOC_RT_IDX => ⟨0x501000, 36, 0x100, 32, 0x0,
      [⟨31, 1, .rw⟩, ⟨0, 6, .rwh⟩]⟩
  | .NOC_RT_DATA => ⟨0x501008, 36, 0x100, 64, 0x0,
      [⟨32, 32, .rw⟩, ⟨0, 32, .rw⟩]⟩
  | .NOC_CRED => ⟨0x501010, 36, 0x100, 64, 0x0,
      [⟨60, 4, .rw⟩, ⟨56, 4, .rw⟩, ⟨52, 4, .rw⟩, ⟨48, 4, .rw⟩, ⟨44, 4, .rw⟩, ⟨40, 4, .rw⟩, ⟨36, 4, .rw⟩, ⟨32, 4, .rw⟩, ⟨28, 4, .rw⟩, ⟨24, 4, .rw⟩, ⟨20, 4, .rw⟩, ⟨16, 4, .rw⟩, ⟨12, 4, .rw⟩, ⟨8, 4, .rw⟩, ⟨4, 4, .rw⟩, ⟨0, 4, .rw⟩]⟩
  | .NOC_CRED1 => ⟨0x501018, 36, 0x100, 64, 0x0,
      [⟨60, 4, .rw⟩, ⟨56, 4, .rw⟩, ⟨52, 4, .rw⟩, ⟨48, 4, .rw⟩, ⟨44, 4, .rw⟩, ⟨40, 4, .rw⟩, ⟨36, 4, .rw⟩, ⟨32, 4, .rw⟩, ⟨28, 4, .rw⟩, ⟨24, 4, .rw⟩, ⟨20, 4, .rw⟩, ⟨16, 4, .rw⟩, ⟨12, 4, .rw⟩, ⟨8, 4, .rw⟩, ⟨4, 4, .rw⟩, ⟨0, 4, .rw⟩]⟩
  | .NOC_CRED2 => ⟨0x501020, 36, 0x100, 64, 0x0,
      [⟨12, 4, .rw⟩, ⟨8, 4, .rw⟩, ⟨4, 4, .rw⟩, ⟨0, 4, .rw⟩]⟩
  | .NOC_NI_STAT => ⟨0x501028, 36, 0x100, 64, 0x0,
      [⟨32, 32, .cnt⟩, ⟨16, 16, .cnt⟩, ⟨0, 4, .ro⟩]⟩
  | .NOC_NI_USEB => ⟨0x501030, 36, 0x100, 64, 0x0,
      [⟨0, 36, .ro⟩]⟩
  | .ECC_INIT => ⟨0x600010, 1, 0x0, 32, 0x0,
      [⟨1, 16, .w1s⟩]⟩
  | .ECC_SCAN_CTL => ⟨0x600020, 1, 0x0, 64, 0x0,
      [⟨32, 32, .rw⟩, ⟨31, 1, .w1s⟩, ⟨30, 1, .w1c⟩, ⟨0, 5, .rw⟩]⟩
  | .ECC_SCAN_START => ⟨0x600028, 1, 0x0, 32, 0x0,
      [⟨0, 32, .rw⟩]⟩
  | .ECC_SCAN_SUM => ⟨0x600030, 1, 0x0, 64, 0x0,
      [⟨32, 32, .ro⟩, ⟨0, 32, .ro⟩]⟩
  | .ECC_SCAN_ADDR => ⟨0x600040, 8, 0x8, 64, 0xFFFFFFFFFFFFFFFF,
      [⟨0, 64, .ro⟩]⟩
  | .ECC_FLIP_CTL => ⟨0x600080, 1, 0x0, 64, 0x0,
      [⟨32, 32, .rw⟩, ⟨31, 1, .w1s⟩, ⟨30, 1, .rw⟩, ⟨16, 5, .rw⟩, ⟨0, 16, .rw⟩]⟩
  | .ECC_FLIP_MASK => ⟨0x600088, 1, 0x0, 64, 0x0,
      [⟨0, 64, .rw⟩]⟩
  | .ECC_SCRUB => ⟨0x600100, 17, 0x100, 64, 0x0,
      [⟨48, 16, .cnt⟩, ⟨32, 16, .cnt⟩, ⟨0, 16, .rw⟩]⟩
  | .ECC_SCRUB_RANGE => ⟨0x600108, 17, 0x100, 64, 0xFFFFFFFF,
      [⟨32, 32, .rw⟩, ⟨0, 32, .rw⟩]⟩
  | .ECC_UE => ⟨0x600110, 17, 0x100, 64, 0x0,
      [⟨63, 1, .w1c⟩, ⟨0, 32, .ro⟩]⟩
  | .DEV_UCODE_VER => ⟨0x702000, 4, 0x40000, 64, 0x0,
      [⟨48, 16, .ro⟩, ⟨32, 16, .ro⟩, ⟨0, 32, .ro⟩]⟩
  | .DEV_UCODE_CUST => ⟨0x702008, 4, 0x40000, 64, 0x0,
      [⟨48, 16, .ro⟩, ⟨0, 32, .ro⟩]⟩
  | .DEV_UCODE_CTL => ⟨0x702010, 4, 0x40000, 32, 0x0,
      [⟨1, 1, .w1c⟩, ⟨0, 1, .w1s⟩]⟩
  | .DEV_UC_ADDR => ⟨0x702018, 4, 0x40000, 32, 0x0,
      [⟨30, 2, .rw⟩, ⟨29, 1, .rw⟩, ⟨0, 15, .rwh⟩]⟩
  | .DEV_UC_DATA => ⟨0x702020, 4, 0x40000, 64, 0x0,
      [⟨0, 64, .wo⟩]⟩
  | .DEV_UC_PAR => ⟨0x702028, 4, 0x40000, 64, 0x0,
      [⟨48, 16, .cnt⟩, ⟨47, 1, .w1c⟩, ⟨46, 1, .ro⟩, ⟨45, 1, .w1c⟩, ⟨44, 1, .w1c⟩, ⟨42, 2, .ro⟩, ⟨0, 15, .ro⟩]⟩
  | .DEV_AIQ_STATUS => ⟨0x702030, 4, 0x40000, 32, 0x0,
      [⟨15, 1, .ro⟩, ⟨14, 1, .ro⟩, ⟨6, 8, .ro⟩, ⟨0, 6, .ro⟩]⟩
  | .DEV_WDT => ⟨0x702040, 4, 0x40000, 32, 0x64,
      [⟨31, 1, .w1c⟩, ⟨30, 1, .rw⟩, ⟨0, 16, .rw⟩]⟩
  | .DEV_INSP_SKIP => ⟨0x702048, 4, 0x40000, 32, 0x0,
      [⟨0, 32, .cnt⟩]⟩
  | .GRN_GANG => ⟨0x800000, 1, 0x0, 32, 0x0,
      [⟨0, 2, .rw⟩]⟩
  | .GRN_EDGE => ⟨0x800008, 1, 0x0, 32, 0x0,
      [⟨30, 2, .rw⟩, ⟨28, 2, .rw⟩, ⟨26, 2, .rw⟩, ⟨24, 2, .rw⟩, ⟨22, 2, .rw⟩, ⟨20, 2, .rw⟩, ⟨18, 2, .rw⟩, ⟨16, 2, .rw⟩, ⟨14, 2, .rw⟩, ⟨12, 2, .rw⟩, ⟨10, 2, .rw⟩, ⟨8, 2, .rw⟩, ⟨6, 2, .rw⟩, ⟨4, 2, .rw⟩, ⟨2, 2, .rw⟩, ⟨0, 2, .rw⟩]⟩
  | .GRN_STATUS => ⟨0x800010, 1, 0x0, 32, 0x0,
      [⟨13, 1, .w1c⟩, ⟨12, 1, .ro⟩, ⟨8, 4, .ro⟩, ⟨7, 1, .w1c⟩, ⟨6, 1, .w1c⟩, ⟨5, 1, .w1c⟩, ⟨4, 1, .w1c⟩, ⟨0, 4, .w1c⟩]⟩
  | .GRN_INIT => ⟨0x800018, 1, 0x0, 32, 0x0,
      [⟨0, 4, .w1s⟩]⟩
  | .GRN_ECC => ⟨0x800020, 4, 0x8, 64, 0x0,
      [⟨48, 16, .cnt⟩, ⟨47, 1, .w1c⟩, ⟨24, 8, .ro⟩, ⟨21, 3, .ro⟩, ⟨0, 13, .ro⟩]⟩
  | .GRN_FOG_CTRL => ⟨0x800040, 1, 0x0, 32, 0x4,
      [⟨16, 16, .cnt⟩, ⟨2, 6, .rw⟩, ⟨0, 1, .rw⟩]⟩
  | .GRN_FOG_FAIL => ⟨0x800048, 1, 0x0, 32, 0x0,
      [⟨31, 1, .w1c⟩, ⟨25, 6, .ro⟩, ⟨17, 8, .ro⟩, ⟨9, 8, .ro⟩, ⟨3, 6, .ro⟩]⟩
  | .GRN_SLIP_CMD => ⟨0x800050, 1, 0x0, 32, 0x0,
      [⟨9, 1, .rw⟩, ⟨8, 1, .w1s⟩, ⟨5, 3, .rw⟩, ⟨0, 5, .rw⟩]⟩
  | .GRN_SLIP_STATE => ⟨0x800058, 1, 0x0, 64, 0x0,
      [⟨7, 1, .ro⟩, ⟨15, 1, .ro⟩, ⟨23, 1, .ro⟩, ⟨31, 1, .ro⟩, ⟨39, 1, .ro⟩, ⟨47, 1, .ro⟩, ⟨55, 1, .ro⟩, ⟨63, 1, .ro⟩, ⟨6, 1, .ro⟩, ⟨14, 1, .ro⟩, ⟨22, 1, .ro⟩, ⟨30, 1, .ro⟩, ⟨38, 1, .ro⟩, ⟨46, 1, .ro⟩, ⟨54, 1, .ro⟩, ⟨62, 1, .ro⟩, ⟨0, 5, .ro⟩, ⟨8, 5, .ro⟩, ⟨16, 5, .ro⟩, ⟨24, 5, .ro⟩, ⟨32, 5, .ro⟩, ⟨40, 5, .ro⟩, ⟨48, 5, .ro⟩, ⟨56, 5, .ro⟩]⟩
  | .ENL_BAND_ADDR => ⟨0x900000, 4, 0x1000, 64, 0x0,
      [⟨0, 25, .rw⟩]⟩
  | .ENL_BAND_PUSH => ⟨0x900008, 4, 0x1000, 64, 0x0,
      [⟨32, 32, .db⟩, ⟨8, 8, .db⟩, ⟨2, 2, .db⟩, ⟨1, 1, .db⟩]⟩
  | .ENL_STATUS => ⟨0x900010, 4, 0x1000, 64, 0x0,
      [⟨32, 32, .ro⟩, ⟨16, 4, .ro⟩, ⟨8, 6, .ro⟩, ⟨7, 1, .ro⟩, ⟨6, 1, .w1c⟩, ⟨0, 5, .ro⟩]⟩
  | .ENL_CTL => ⟨0x900018, 4, 0x1000, 32, 0x0,
      [⟨1, 1, .w1s⟩, ⟨0, 1, .w1s⟩]⟩
  | .SHT_CTL => ⟨0xA00000, 1, 0x0, 64, 0xF900000000,
      [⟨35, 5, .rw⟩, ⟨32, 3, .rw⟩, ⟨30, 2, .rw⟩, ⟨28, 2, .rw⟩, ⟨0, 28, .rw⟩]⟩
  | .SHT_STATUS => ⟨0xA00008, 1, 0x0, 32, 0x0,
      [⟨2, 1, .w1c⟩, ⟨1, 1, .w1c⟩, ⟨0, 1, .w1c⟩]⟩
  | .SHT_LINE_MISS_CNT => ⟨0xA00010, 1, 0x0, 32, 0x0,
      [⟨0, 32, .cnt⟩]⟩
  | .SHT_RESERVE => ⟨0xA00018, 1, 0x0, 64, 0x800020,
      [⟨32, 11, .ro⟩, ⟨16, 11, .rw⟩, ⟨0, 11, .rw⟩]⟩
  | .SHT_HOLD => ⟨0xA00020, 1, 0x0, 64, 0x0,
      [⟨63, 1, .w1s⟩, ⟨62, 1, .rw⟩, ⟨61, 1, .ro⟩, ⟨60, 1, .w1s⟩, ⟨32, 4, .ro⟩, ⟨0, 32, .rwh⟩]⟩
  | .SHT_PITCH => ⟨0xA00028, 1, 0x0, 64, 0x0,
      [⟨0, 64, .rw⟩]⟩
  | .SHT_LINEPOS => ⟨0xA00030, 1, 0x0, 64, 0x0,
      [⟨0, 64, .rwh⟩]⟩
  | .SHT_SWATH => ⟨0xA00038, 1, 0x0, 64, 0x0,
      [⟨62, 2, .rw⟩, ⟨61, 1, .rw⟩, ⟨56, 4, .rw⟩, ⟨32, 24, .rw⟩, ⟨0, 32, .rw⟩]⟩
  | .SHT_NMAP_IDX => ⟨0xA00040, 1, 0x0, 32, 0x0,
      [⟨31, 1, .rw⟩, ⟨0, 19, .rwh⟩]⟩
  | .SHT_NMAP_DATA => ⟨0xA00048, 1, 0x0, 32, 0x0,
      [⟨0, 32, .rw⟩]⟩
  | .SHT_ENC_CTL => ⟨0xA00100, 4, 0x8, 64, 0x3E8000000000200,
      [⟨48, 16, .rw⟩, ⟨32, 16, .rw⟩, ⟨24, 8, .cnt⟩, ⟨16, 8, .cnt⟩, ⟨8, 8, .rw⟩, ⟨3, 1, .rw⟩, ⟨2, 1, .rw⟩, ⟨0, 1, .rw⟩]⟩
  | .SHT_GRP => ⟨0xA01000, 64, 0x8, 64, 0x0,
      [⟨63, 1, .rw⟩, ⟨62, 1, .rw⟩, ⟨61, 1, .rw⟩, ⟨56, 4, .rw⟩, ⟨48, 8, .rw⟩, ⟨32, 16, .rw⟩, ⟨0, 16, .rw⟩]⟩
  | .SHT_TIMER => ⟨0xA02000, 64, 0x4, 32, 0x0,
      [⟨29, 3, .rw⟩, ⟨28, 1, .w1c⟩, ⟨22, 6, .rw⟩, ⟨0, 16, .cnt⟩]⟩
  | .SHT_TIMER_CFG => ⟨0xA02100, 64, 0x4, 32, 0x10000,
      [⟨16, 16, .rw⟩, ⟨0, 16, .rw⟩]⟩
  | .SHT_DIN_CTL => ⟨0xA03000, 16, 0x4, 32, 0x4000000A,
      [⟨31, 1, .ro⟩, ⟨30, 1, .ro⟩, ⟨0, 8, .rw⟩]⟩
  | .SHT_DOUT_CTL => ⟨0xA03100, 16, 0x4, 32, 0x0,
      [⟨3, 1, .w1c⟩, ⟨1, 2, .rw⟩, ⟨0, 1, .rw⟩]⟩
  | .HP_LANE_CTL => ⟨0xB00100, 16, 0x10, 32, 0xA0500,
      [⟨30, 2, .rw⟩, ⟨29, 1, .rw⟩, ⟨16, 8, .rw⟩, ⟨8, 8, .rw⟩, ⟨0, 8, .rw⟩]⟩
  | .HP_LANE_STATUS => ⟨0xB00108, 16, 0x10, 64, 0x0,
      [⟨48, 16, .cnt⟩, ⟨40, 8, .cnt⟩, ⟨32, 8, .cnt⟩, ⟨24, 8, .cnt⟩, ⟨16, 8, .cnt⟩, ⟨9, 1, .ro⟩, ⟨8, 1, .w1c⟩, ⟨7, 1, .ro⟩, ⟨0, 2, .ro⟩]⟩
  | .HP_WIRED => ⟨0xB00400, 16, 0x4, 32, 0x14,
      [⟨8, 1, .rw⟩, ⟨0, 8, .rw⟩]⟩
  | .HP_TEL_BASE => ⟨0xB00500, 1, 0x0, 64, 0xC00000000,
      [⟨63, 1, .rw⟩, ⟨32, 5, .rw⟩, ⟨0, 25, .rw⟩]⟩
  | .HP_TEL_PTR => ⟨0xB00508, 1, 0x0, 64, 0x0,
      [⟨32, 20, .rw⟩, ⟨0, 20, .ro⟩]⟩
  | .HP_TEL_RING => ⟨0xB00510, 1, 0x0, 32, 0x0,
      [⟨16, 16, .cnt⟩]⟩
  | .FAB_PIN_OWNER => ⟨0xC00008, 1, 0x0, 32, 0x0,
      [⟨2, 1, .w1c⟩, ⟨0, 2, .rw⟩]⟩
  | .FAB_REGION_CTL => ⟨0xC00100, 16, 0x10, 64, 0x0,
      [⟨32, 32, .rw⟩, ⟨16, 16, .cnt⟩, ⟨2, 1, .ro⟩, ⟨1, 1, .w1s⟩, ⟨0, 1, .rw⟩]⟩
  | .CAM_CTL => ⟨0xD00000, 1, 0x0, 32, 0x0,
      [⟨2, 1, .rw⟩, ⟨1, 1, .rw⟩, ⟨0, 1, .rw⟩]⟩
  | .CAM_STATUS => ⟨0xD00008, 1, 0x0, 64, 0x0,
      [⟨48, 16, .cnt⟩, ⟨32, 16, .cnt⟩, ⟨4, 4, .w1c⟩, ⟨0, 4, .ro⟩]⟩
  | .CAM_TSWAP => ⟨0xD00010, 1, 0x0, 64, 0x0,
      [⟨63, 1, .w1s⟩, ⟨62, 1, .w1c⟩, ⟨61, 1, .ro⟩, ⟨0, 32, .rwh⟩]⟩
  | .CAM_CAM_CFG => ⟨0xD00100, 4, 0x10, 64, 0x320000,
      [⟨63, 1, .rw⟩, ⟨61, 2, .rw⟩, ⟨60, 1, .rw⟩, ⟨58, 2, .rw⟩, ⟨56, 2, .rw⟩, ⟨52, 4, .rw⟩, ⟨49, 3, .rw⟩, ⟨32, 17, .rw⟩, ⟨15, 17, .rw⟩, ⟨0, 15, .rw⟩]⟩
  | .JS_REBUILD => ⟨0xE00000, 1, 0x0, 32, 0x0,
      [⟨8, 8, .ro⟩, ⟨4, 4, .ro⟩, ⟨3, 1, .ro⟩, ⟨1, 1, .rw⟩, ⟨0, 1, .rw⟩]⟩
  | .JS_SLED_CTL => ⟨0xE00100, 16, 0x8, 32, 0x0,
      [⟨9, 1, .w1c⟩, ⟨8, 1, .w1s⟩, ⟨0, 3, .ro⟩]⟩
  | .JS_QUOTA => ⟨0xE00200, 8, 0x8, 64, 0x40003E8,
      [⟨48, 16, .rw⟩, ⟨32, 16, .rw⟩, ⟨20, 12, .rw⟩, ⟨0, 20, .rw⟩]⟩
  | .JS_CAPQ => ⟨0xE00300, 8, 0x8, 64, 0x0,
      [⟨32, 32, .ro⟩, ⟨0, 32, .rw⟩]⟩
  | .JS_MEDIA => ⟨0xE00400, 1, 0x0, 32, 0x1E00B4,
      [⟨16, 8, .rw⟩, ⟨0, 16, .rw⟩]⟩
  | .DDR_MIRROR => ⟨0xF00000, 1, 0x0, 32, 0x0,
      [⟨0, 5, .rw⟩]⟩
  | .DDR_STATUS => ⟨0xF00008, 1, 0x0, 32, 0x0,
      [⟨4, 4, .w1c⟩, ⟨0, 4, .ro⟩]⟩

/-- Every register name, in the table's order. -/
def allRegs : List RegName :=
  [.SYS_MODE, .SYS_REDUND, .SYS_DEV_TIME, .SYS_BAD_ACCESS, .SYS_BOOT, .SYS_CLK_CTL,
   .SYS_CLK_STATUS, .SYS_PPS_STAMP, .PWR_CFG, .PWR_STATUS, .PWR_WAKE, .PWR_THERM,
   .SEC_STATE, .SEC_LC_CTL, .SEC_SERIAL, .SEC_LC_BUF, .DBG_CTL, .DBG_STATUS,
   .DBG_HALT, .DBG_UNLOCK_CTL, .DBG_CHAL, .DBG_TOKEN, .LP_CTL, .LP_SEL,
   .CS_SEQ, .CS_CTL, .CS_STATUS, .HST_SQ_BASE, .HST_SQ_CFG, .HST_SQ_PTR,
   .HST_CQ_BASE, .HST_CQ_CFG, .HST_CQ_PTR, .HST_EQ_BASE, .HST_EQ_CFG, .HST_EQ_PTR,
   .HST_FN_ERR, .HST_EVT_MASK, .HST_EVT_LOST, .HST_PERM, .HST_CTL, .NOC_RT_CTL,
   .NOC_LINK_FAIL, .NOC_RT_IDX, .NOC_RT_DATA, .NOC_CRED, .NOC_CRED1, .NOC_CRED2,
   .NOC_NI_STAT, .NOC_NI_USEB, .ECC_INIT, .ECC_SCAN_CTL, .ECC_SCAN_START, .ECC_SCAN_SUM,
   .ECC_SCAN_ADDR, .ECC_FLIP_CTL, .ECC_FLIP_MASK, .ECC_SCRUB, .ECC_SCRUB_RANGE, .ECC_UE,
   .DEV_UCODE_VER, .DEV_UCODE_CUST, .DEV_UCODE_CTL, .DEV_UC_ADDR, .DEV_UC_DATA, .DEV_UC_PAR,
   .DEV_AIQ_STATUS, .DEV_WDT, .DEV_INSP_SKIP, .GRN_GANG, .GRN_EDGE, .GRN_STATUS,
   .GRN_INIT, .GRN_ECC, .GRN_FOG_CTRL, .GRN_FOG_FAIL, .GRN_SLIP_CMD, .GRN_SLIP_STATE,
   .ENL_BAND_ADDR, .ENL_BAND_PUSH, .ENL_STATUS, .ENL_CTL, .SHT_CTL, .SHT_STATUS,
   .SHT_LINE_MISS_CNT, .SHT_RESERVE, .SHT_HOLD, .SHT_PITCH, .SHT_LINEPOS, .SHT_SWATH,
   .SHT_NMAP_IDX, .SHT_NMAP_DATA, .SHT_ENC_CTL, .SHT_GRP, .SHT_TIMER, .SHT_TIMER_CFG,
   .SHT_DIN_CTL, .SHT_DOUT_CTL, .HP_LANE_CTL, .HP_LANE_STATUS, .HP_WIRED, .HP_TEL_BASE,
   .HP_TEL_PTR, .HP_TEL_RING, .FAB_PIN_OWNER, .FAB_REGION_CTL, .CAM_CTL, .CAM_STATUS,
   .CAM_TSWAP, .CAM_CAM_CFG, .JS_REBUILD, .JS_SLED_CTL, .JS_QUOTA, .JS_CAPQ,
   .JS_MEDIA, .DDR_MIRROR, .DDR_STATUS]

end Sys2Proof.Machine

/-! The fields by name. -/

namespace Sys2Proof.Machine.F

/-- SYS_MODE.SAFE_CAUSE, [15:12] (R329). -/
abbrev SYS_MODE_SAFE_CAUSE : Fld := ⟨.SYS_MODE, 12, 4⟩
/-- SYS_MODE.TRANS, [8:8] (R329). -/
abbrev SYS_MODE_TRANS : Fld := ⟨.SYS_MODE, 8, 1⟩
/-- SYS_MODE.PREV, [7:4] (R329). -/
abbrev SYS_MODE_PREV : Fld := ⟨.SYS_MODE, 4, 4⟩
/-- SYS_MODE.STATE, [3:0] (R329). -/
abbrev SYS_MODE_STATE : Fld := ⟨.SYS_MODE, 0, 4⟩
/-- SYS_REDUND.REDUCED, [31:31] (R329). -/
abbrev SYS_REDUND_REDUCED : Fld := ⟨.SYS_REDUND, 31, 1⟩
/-- SYS_REDUND.CAUSE, [7:0] (R329). -/
abbrev SYS_REDUND_CAUSE : Fld := ⟨.SYS_REDUND, 0, 8⟩
/-- SYS_DEV_TIME.TIME, [63:0] (R329). -/
abbrev SYS_DEV_TIME_TIME : Fld := ⟨.SYS_DEV_TIME, 0, 64⟩
/-- SYS_BAD_ACCESS.COUNT, [31:0] (R329). -/
abbrev SYS_BAD_ACCESS_COUNT : Fld := ⟨.SYS_BAD_ACCESS, 0, 32⟩
/-- SYS_BOOT.FAIL, [31:24] (R329). -/
abbrev SYS_BOOT_FAIL : Fld := ⟨.SYS_BOOT, 24, 8⟩
/-- SYS_BOOT.STAGE, [23:16] (R329). -/
abbrev SYS_BOOT_STAGE : Fld := ⟨.SYS_BOOT, 16, 8⟩
/-- SYS_BOOT.FALLBACK, [15:8] (R329). -/
abbrev SYS_BOOT_FALLBACK : Fld := ⟨.SYS_BOOT, 8, 8⟩
/-- SYS_BOOT.LAST_RESET, [2:0] (R329). -/
abbrev SYS_BOOT_LAST_RESET : Fld := ⟨.SYS_BOOT, 0, 3⟩
/-- SYS_CLK_CTL.REFOUT_EN, [2:2] (R329). -/
abbrev SYS_CLK_CTL_REFOUT_EN : Fld := ⟨.SYS_CLK_CTL, 2, 1⟩
/-- SYS_CLK_CTL.PPS_EN, [1:1] (R329). -/
abbrev SYS_CLK_CTL_PPS_EN : Fld := ⟨.SYS_CLK_CTL, 1, 1⟩
/-- SYS_CLK_CTL.SRC, [0:0] (R329). -/
abbrev SYS_CLK_CTL_SRC : Fld := ⟨.SYS_CLK_CTL, 0, 1⟩
/-- SYS_CLK_STATUS.STEER, [31:16] (R329). -/
abbrev SYS_CLK_STATUS_STEER : Fld := ⟨.SYS_CLK_STATUS, 16, 16⟩
/-- SYS_CLK_STATUS.LOST, [4:4] (R329). -/
abbrev SYS_CLK_STATUS_LOST : Fld := ⟨.SYS_CLK_STATUS, 4, 1⟩
/-- SYS_CLK_STATUS.PPS_PRESENT, [3:3] (R329). -/
abbrev SYS_CLK_STATUS_PPS_PRESENT : Fld := ⟨.SYS_CLK_STATUS, 3, 1⟩
/-- SYS_CLK_STATUS.EXT_PRESENT, [2:2] (R329). -/
abbrev SYS_CLK_STATUS_EXT_PRESENT : Fld := ⟨.SYS_CLK_STATUS, 2, 1⟩
/-- SYS_CLK_STATUS.STATE, [1:0] (R329). -/
abbrev SYS_CLK_STATUS_STATE : Fld := ⟨.SYS_CLK_STATUS, 0, 2⟩
/-- SYS_PPS_STAMP.STAMP, [63:0] (R329). -/
abbrev SYS_PPS_STAMP_STAMP : Fld := ⟨.SYS_PPS_STAMP, 0, 64⟩
/-- PWR_CFG.WOL_EN, [21:21] (R329). -/
abbrev PWR_CFG_WOL_EN : Fld := ⟨.PWR_CFG, 21, 1⟩
/-- PWR_CFG.WAKE_IN_EN, [20:20] (R329). -/
abbrev PWR_CFG_WAKE_IN_EN : Fld := ⟨.PWR_CFG, 20, 1⟩
/-- PWR_CFG.WAKE_IN, [19:16] (R329). -/
abbrev PWR_CFG_WAKE_IN : Fld := ⟨.PWR_CFG, 16, 4⟩
/-- PWR_CFG.SHUT_MS, [15:8] (R329). -/
abbrev PWR_CFG_SHUT_MS : Fld := ⟨.PWR_CFG, 8, 8⟩
/-- PWR_CFG.AUTO_ON, [0:0] (R329). -/
abbrev PWR_CFG_AUTO_ON : Fld := ⟨.PWR_CFG, 0, 1⟩
/-- PWR_STATUS.INPUT_W, [31:16] (R329). -/
abbrev PWR_STATUS_INPUT_W : Fld := ⟨.PWR_STATUS, 16, 16⟩
/-- PWR_STATUS.HOLDUP_MS, [15:8] (R329). -/
abbrev PWR_STATUS_HOLDUP_MS : Fld := ⟨.PWR_STATUS, 8, 8⟩
/-- PWR_STATUS.HOLDUP_READY, [4:4] (R329). -/
abbrev PWR_STATUS_HOLDUP_READY : Fld := ⟨.PWR_STATUS, 4, 1⟩
/-- PWR_STATUS.CART_OK, [3:2] (R329). -/
abbrev PWR_STATUS_CART_OK : Fld := ⟨.PWR_STATUS, 2, 2⟩
/-- PWR_STATUS.INLET, [1:0] (R329). -/
abbrev PWR_STATUS_INLET : Fld := ⟨.PWR_STATUS, 0, 2⟩
/-- PWR_WAKE.WAKE, [0:0] (R329). -/
abbrev PWR_WAKE_WAKE : Fld := ⟨.PWR_WAKE, 0, 1⟩
/-- PWR_THERM.FAN_PCT, [63:56] (R387). -/
abbrev PWR_THERM_FAN_PCT : Fld := ⟨.PWR_THERM, 56, 8⟩
/-- PWR_THERM.FAN_FAIL, [55:50] (R387). -/
abbrev PWR_THERM_FAN_FAIL : Fld := ⟨.PWR_THERM, 50, 6⟩
/-- PWR_THERM.TRAY, [49:49] (R387). -/
abbrev PWR_THERM_TRAY : Fld := ⟨.PWR_THERM, 49, 1⟩
/-- PWR_THERM.JUNCTION_C, [31:16] (R387). -/
abbrev PWR_THERM_JUNCTION_C : Fld := ⟨.PWR_THERM, 16, 16⟩
/-- PWR_THERM.INTAKE_C, [15:0] (R387). -/
abbrev PWR_THERM_INTAKE_C : Fld := ⟨.PWR_THERM, 0, 16⟩
/-- SEC_STATE.MIN0, [37:32] (R352). -/
abbrev SEC_STATE_MIN0 : Fld := ⟨.SEC_STATE, 32, 6⟩
/-- SEC_STATE.MIN1, [43:38] (R352). -/
abbrev SEC_STATE_MIN1 : Fld := ⟨.SEC_STATE, 38, 6⟩
/-- SEC_STATE.MIN2, [49:44] (R352). -/
abbrev SEC_STATE_MIN2 : Fld := ⟨.SEC_STATE, 44, 6⟩
/-- SEC_STATE.MIN3, [55:50] (R352). -/
abbrev SEC_STATE_MIN3 : Fld := ⟨.SEC_STATE, 50, 6⟩
/-- SEC_STATE.MIN4, [61:56] (R352). -/
abbrev SEC_STATE_MIN4 : Fld := ⟨.SEC_STATE, 56, 6⟩
/-- SEC_STATE.LC, [1:0] (R352). -/
abbrev SEC_STATE_LC : Fld := ⟨.SEC_STATE, 0, 2⟩
/-- SEC_LC_CTL.STATUS, [7:4] (R352). -/
abbrev SEC_LC_CTL_STATUS : Fld := ⟨.SEC_LC_CTL, 4, 4⟩
/-- SEC_LC_CTL.GO, [0:0] (R352). -/
abbrev SEC_LC_CTL_GO : Fld := ⟨.SEC_LC_CTL, 0, 1⟩
/-- SEC_SERIAL.SERIAL, [63:0] (R352). -/
abbrev SEC_SERIAL_SERIAL : Fld := ⟨.SEC_SERIAL, 0, 64⟩
/-- SEC_LC_BUF.BUF, [63:0] (R332). -/
abbrev SEC_LC_BUF_BUF : Fld := ⟨.SEC_LC_BUF, 0, 64⟩
/-- DBG_CTL.HALT_BOOT, [4:4] (R352). -/
abbrev DBG_CTL_HALT_BOOT : Fld := ⟨.DBG_CTL, 4, 1⟩
/-- DBG_CTL.DBG_KEEP, [3:3] (R352). -/
abbrev DBG_CTL_DBG_KEEP : Fld := ⟨.DBG_CTL, 3, 1⟩
/-- DBG_CTL.READ_ACT, [2:2] (R352). -/
abbrev DBG_CTL_READ_ACT : Fld := ⟨.DBG_CTL, 2, 1⟩
/-- DBG_CTL.REQ, [1:0] (R352). -/
abbrev DBG_CTL_REQ : Fld := ⟨.DBG_CTL, 0, 2⟩
/-- DBG_STATUS.HALT_REJ, [3:3] (R352). -/
abbrev DBG_STATUS_HALT_REJ : Fld := ⟨.DBG_STATUS, 3, 1⟩
/-- DBG_STATUS.CLAIM_REJ, [2:2] (R352). -/
abbrev DBG_STATUS_CLAIM_REJ : Fld := ⟨.DBG_STATUS, 2, 1⟩
/-- DBG_STATUS.LEVEL, [1:0] (R352). -/
abbrev DBG_STATUS_LEVEL : Fld := ⟨.DBG_STATUS, 0, 2⟩
/-- DBG_HALT.STEP, [25:25] (R352). -/
abbrev DBG_HALT_STEP : Fld := ⟨.DBG_HALT, 25, 1⟩
/-- DBG_HALT.DBG_RESUME, [24:24] (R352). -/
abbrev DBG_HALT_DBG_RESUME : Fld := ⟨.DBG_HALT, 24, 1⟩
/-- DBG_HALT.HALTED, [23:16] (R352). -/
abbrev DBG_HALT_HALTED : Fld := ⟨.DBG_HALT, 16, 8⟩
/-- DBG_HALT.CORES, [7:0] (R352). -/
abbrev DBG_HALT_CORES : Fld := ⟨.DBG_HALT, 0, 8⟩
/-- DBG_UNLOCK_CTL.FAILS, [11:8] (R352). -/
abbrev DBG_UNLOCK_CTL_FAILS : Fld := ⟨.DBG_UNLOCK_CTL, 8, 4⟩
/-- DBG_UNLOCK_CTL.STATUS, [7:4] (R352). -/
abbrev DBG_UNLOCK_CTL_STATUS : Fld := ⟨.DBG_UNLOCK_CTL, 4, 4⟩
/-- DBG_UNLOCK_CTL.GO, [1:1] (R352). -/
abbrev DBG_UNLOCK_CTL_GO : Fld := ⟨.DBG_UNLOCK_CTL, 1, 1⟩
/-- DBG_UNLOCK_CTL.CHAL, [0:0] (R352). -/
abbrev DBG_UNLOCK_CTL_CHAL : Fld := ⟨.DBG_UNLOCK_CTL, 0, 1⟩
/-- DBG_CHAL.NONCE, [63:0] (R341). -/
abbrev DBG_CHAL_NONCE : Fld := ⟨.DBG_CHAL, 0, 64⟩
/-- DBG_TOKEN.TOKEN, [63:0] (R341). -/
abbrev DBG_TOKEN_TOKEN : Fld := ⟨.DBG_TOKEN, 0, 64⟩
/-- LP_CTL.TRACK, [7:2] (R352). -/
abbrev LP_CTL_TRACK : Fld := ⟨.LP_CTL, 2, 6⟩
/-- LP_CTL.STRETCH, [1:1] (R352). -/
abbrev LP_CTL_STRETCH : Fld := ⟨.LP_CTL, 1, 1⟩
/-- LP_CTL.CLAIM, [0:0] (R352). -/
abbrev LP_CTL_CLAIM : Fld := ⟨.LP_CTL, 0, 1⟩
/-- LP_SEL.SKEW, [12:8] (R352). -/
abbrev LP_SEL_SKEW : Fld := ⟨.LP_SEL, 8, 5⟩
/-- LP_SEL.SRC, [7:0] (R352). -/
abbrev LP_SEL_SRC : Fld := ⟨.LP_SEL, 0, 8⟩
/-- CS_SEQ.OLDEST, [63:32] (R369). -/
abbrev CS_SEQ_OLDEST : Fld := ⟨.CS_SEQ, 32, 32⟩
/-- CS_SEQ.NEXT, [31:0] (R369). -/
abbrev CS_SEQ_NEXT : Fld := ⟨.CS_SEQ, 0, 32⟩
/-- CS_CTL.TRIG, [31:31] (R369). -/
abbrev CS_CTL_TRIG : Fld := ⟨.CS_CTL, 31, 1⟩
/-- CS_CTL.TRIG_MASK, [10:0] (R369). -/
abbrev CS_CTL_TRIG_MASK : Fld := ⟨.CS_CTL, 0, 11⟩
/-- CS_STATUS.DROPPED, [63:48] (R369). -/
abbrev CS_STATUS_DROPPED : Fld := ⟨.CS_STATUS, 48, 16⟩
/-- CS_STATUS.SUPPRESSED, [47:32] (R369). -/
abbrev CS_STATUS_SUPPRESSED : Fld := ⟨.CS_STATUS, 32, 16⟩
/-- CS_STATUS.TORN, [31:16] (R369). -/
abbrev CS_STATUS_TORN : Fld := ⟨.CS_STATUS, 16, 16⟩
/-- CS_STATUS.COMMIT, [0:0] (R369). -/
abbrev CS_STATUS_COMMIT : Fld := ⟨.CS_STATUS, 0, 1⟩
/-- HST_SQ_BASE.BASE, [63:12] (R275). -/
abbrev HST_SQ_BASE_BASE : Fld := ⟨.HST_SQ_BASE, 12, 52⟩
/-- HST_SQ_CFG.ENABLE, [63:63] (R275). -/
abbrev HST_SQ_CFG_ENABLE : Fld := ⟨.HST_SQ_CFG, 63, 1⟩
/-- HST_SQ_CFG.ENABLED, [62:62] (R275). -/
abbrev HST_SQ_CFG_ENABLED : Fld := ⟨.HST_SQ_CFG, 62, 1⟩
/-- HST_SQ_CFG.ERR, [61:61] (R275). -/
abbrev HST_SQ_CFG_ERR : Fld := ⟨.HST_SQ_CFG, 61, 1⟩
/-- HST_SQ_CFG.ARB, [55:52] (R275). -/
abbrev HST_SQ_CFG_ARB : Fld := ⟨.HST_SQ_CFG, 52, 4⟩
/-- HST_SQ_CFG.CQ, [37:32] (R275). -/
abbrev HST_SQ_CFG_CQ : Fld := ⟨.HST_SQ_CFG, 32, 6⟩
/-- HST_SQ_CFG.SIZE_M1, [15:0] (R275). -/
abbrev HST_SQ_CFG_SIZE_M1 : Fld := ⟨.HST_SQ_CFG, 0, 16⟩
/-- HST_SQ_PTR.PHASE, [32:32] (R275). -/
abbrev HST_SQ_PTR_PHASE : Fld := ⟨.HST_SQ_PTR, 32, 1⟩
/-- HST_SQ_PTR.DB_INDEX, [31:16] (R275). -/
abbrev HST_SQ_PTR_DB_INDEX : Fld := ⟨.HST_SQ_PTR, 16, 16⟩
/-- HST_SQ_PTR.INDEX, [15:0] (R275). -/
abbrev HST_SQ_PTR_INDEX : Fld := ⟨.HST_SQ_PTR, 0, 16⟩
/-- HST_CQ_BASE.BASE, [63:12] (R275). -/
abbrev HST_CQ_BASE_BASE : Fld := ⟨.HST_CQ_BASE, 12, 52⟩
/-- HST_CQ_CFG.ENABLE, [63:63] (R275). -/
abbrev HST_CQ_CFG_ENABLE : Fld := ⟨.HST_CQ_CFG, 63, 1⟩
/-- HST_CQ_CFG.ENABLED, [62:62] (R275). -/
abbrev HST_CQ_CFG_ENABLED : Fld := ⟨.HST_CQ_CFG, 62, 1⟩
/-- HST_CQ_CFG.ERR, [61:61] (R275). -/
abbrev HST_CQ_CFG_ERR : Fld := ⟨.HST_CQ_CFG, 61, 1⟩
/-- HST_CQ_CFG.VECTOR, [53:48] (R275). -/
abbrev HST_CQ_CFG_VECTOR : Fld := ⟨.HST_CQ_CFG, 48, 6⟩
/-- HST_CQ_CFG.COAL_CNT, [47:40] (R275). -/
abbrev HST_CQ_CFG_COAL_CNT : Fld := ⟨.HST_CQ_CFG, 40, 8⟩
/-- HST_CQ_CFG.COAL_US, [39:32] (R275). -/
abbrev HST_CQ_CFG_COAL_US : Fld := ⟨.HST_CQ_CFG, 32, 8⟩
/-- HST_CQ_CFG.SIZE_M1, [15:0] (R275). -/
abbrev HST_CQ_CFG_SIZE_M1 : Fld := ⟨.HST_CQ_CFG, 0, 16⟩
/-- HST_CQ_PTR.PHASE, [32:32] (R275). -/
abbrev HST_CQ_PTR_PHASE : Fld := ⟨.HST_CQ_PTR, 32, 1⟩
/-- HST_CQ_PTR.DB_INDEX, [31:16] (R275). -/
abbrev HST_CQ_PTR_DB_INDEX : Fld := ⟨.HST_CQ_PTR, 16, 16⟩
/-- HST_CQ_PTR.INDEX, [15:0] (R275). -/
abbrev HST_CQ_PTR_INDEX : Fld := ⟨.HST_CQ_PTR, 0, 16⟩
/-- HST_EQ_BASE.BASE, [63:12] (R275). -/
abbrev HST_EQ_BASE_BASE : Fld := ⟨.HST_EQ_BASE, 12, 52⟩
/-- HST_EQ_CFG.ENABLE, [63:63] (R275). -/
abbrev HST_EQ_CFG_ENABLE : Fld := ⟨.HST_EQ_CFG, 63, 1⟩
/-- HST_EQ_CFG.ENABLED, [62:62] (R275). -/
abbrev HST_EQ_CFG_ENABLED : Fld := ⟨.HST_EQ_CFG, 62, 1⟩
/-- HST_EQ_CFG.ERR, [61:61] (R275). -/
abbrev HST_EQ_CFG_ERR : Fld := ⟨.HST_EQ_CFG, 61, 1⟩
/-- HST_EQ_CFG.VECTOR, [53:48] (R275). -/
abbrev HST_EQ_CFG_VECTOR : Fld := ⟨.HST_EQ_CFG, 48, 6⟩
/-- HST_EQ_CFG.COAL_CNT, [47:40] (R275). -/
abbrev HST_EQ_CFG_COAL_CNT : Fld := ⟨.HST_EQ_CFG, 40, 8⟩
/-- HST_EQ_CFG.COAL_US, [39:32] (R275). -/
abbrev HST_EQ_CFG_COAL_US : Fld := ⟨.HST_EQ_CFG, 32, 8⟩
/-- HST_EQ_CFG.SIZE_M1, [15:0] (R275). -/
abbrev HST_EQ_CFG_SIZE_M1 : Fld := ⟨.HST_EQ_CFG, 0, 16⟩
/-- HST_EQ_PTR.PHASE, [32:32] (R275). -/
abbrev HST_EQ_PTR_PHASE : Fld := ⟨.HST_EQ_PTR, 32, 1⟩
/-- HST_EQ_PTR.DB_INDEX, [31:16] (R275). -/
abbrev HST_EQ_PTR_DB_INDEX : Fld := ⟨.HST_EQ_PTR, 16, 16⟩
/-- HST_EQ_PTR.INDEX, [15:0] (R275). -/
abbrev HST_EQ_PTR_INDEX : Fld := ⟨.HST_EQ_PTR, 0, 16⟩
/-- HST_FN_ERR.RING, [23:16] (R275). -/
abbrev HST_FN_ERR_RING : Fld := ⟨.HST_FN_ERR, 16, 8⟩
/-- HST_FN_ERR.CODE, [15:8] (R275). -/
abbrev HST_FN_ERR_CODE : Fld := ⟨.HST_FN_ERR, 8, 8⟩
/-- HST_FN_ERR.VALID, [0:0] (R275). -/
abbrev HST_FN_ERR_VALID : Fld := ⟨.HST_FN_ERR, 0, 1⟩
/-- HST_EVT_MASK.MASK, [18:0] (R275). -/
abbrev HST_EVT_MASK_MASK : Fld := ⟨.HST_EVT_MASK, 0, 19⟩
/-- HST_EVT_LOST.COUNT, [31:0] (R275). -/
abbrev HST_EVT_LOST_COUNT : Fld := ⟨.HST_EVT_LOST, 0, 32⟩
/-- HST_PERM.FW, [4:4] (R275). -/
abbrev HST_PERM_FW : Fld := ⟨.HST_PERM, 4, 1⟩
/-- HST_PERM.DIAG, [3:3] (R275). -/
abbrev HST_PERM_DIAG : Fld := ⟨.HST_PERM, 3, 1⟩
/-- HST_PERM.CONFIG, [2:2] (R275). -/
abbrev HST_PERM_CONFIG : Fld := ⟨.HST_PERM, 2, 1⟩
/-- HST_PERM.PRINT, [1:1] (R275). -/
abbrev HST_PERM_PRINT : Fld := ⟨.HST_PERM, 1, 1⟩
/-- HST_PERM.STORE, [0:0] (R275). -/
abbrev HST_PERM_STORE : Fld := ⟨.HST_PERM, 0, 1⟩
/-- HST_CTL.ETH_EN, [1:1] (R275). -/
abbrev HST_CTL_ETH_EN : Fld := ⟨.HST_CTL, 1, 1⟩
/-- HST_CTL.BAR4_EN, [0:0] (R275). -/
abbrev HST_CTL_BAR4_EN : Fld := ⟨.HST_CTL, 0, 1⟩
/-- NOC_RT_CTL.BAD_IDX, [19:8] (R306). -/
abbrev NOC_RT_CTL_BAD_IDX : Fld := ⟨.NOC_RT_CTL, 8, 12⟩
/-- NOC_RT_CTL.BAD, [1:1] (R306). -/
abbrev NOC_RT_CTL_BAD : Fld := ⟨.NOC_RT_CTL, 1, 1⟩
/-- NOC_RT_CTL.COMMIT, [0:0] (R306). -/
abbrev NOC_RT_CTL_COMMIT : Fld := ⟨.NOC_RT_CTL, 0, 1⟩
/-- NOC_LINK_FAIL.VALID, [31:31] (R306). -/
abbrev NOC_LINK_FAIL_VALID : Fld := ⟨.NOC_LINK_FAIL, 31, 1⟩
/-- NOC_LINK_FAIL.ROUTER, [13:8] (R306). -/
abbrev NOC_LINK_FAIL_ROUTER : Fld := ⟨.NOC_LINK_FAIL, 8, 6⟩
/-- NOC_LINK_FAIL.DIR, [1:0] (R306). -/
abbrev NOC_LINK_FAIL_DIR : Fld := ⟨.NOC_LINK_FAIL, 0, 2⟩
/-- NOC_RT_IDX.INC, [31:31] (R306). -/
abbrev NOC_RT_IDX_INC : Fld := ⟨.NOC_RT_IDX, 31, 1⟩
/-- NOC_RT_IDX.IDX, [5:0] (R306). -/
abbrev NOC_RT_IDX_IDX : Fld := ⟨.NOC_RT_IDX, 0, 6⟩
/-- NOC_RT_DATA.ROUTE_B, [63:32] (R306). -/
abbrev NOC_RT_DATA_ROUTE_B : Fld := ⟨.NOC_RT_DATA, 32, 32⟩
/-- NOC_RT_DATA.ROUTE_A, [31:0] (R306). -/
abbrev NOC_RT_DATA_ROUTE_A : Fld := ⟨.NOC_RT_DATA, 0, 32⟩
/-- NOC_NI_STAT.LATE, [63:32] (R306). -/
abbrev NOC_NI_STAT_LATE : Fld := ⟨.NOC_NI_STAT, 32, 32⟩
/-- NOC_NI_STAT.PROXY, [31:16] (R306). -/
abbrev NOC_NI_STAT_PROXY : Fld := ⟨.NOC_NI_STAT, 16, 16⟩
/-- NOC_NI_STAT.EPOCH, [3:0] (R306). -/
abbrev NOC_NI_STAT_EPOCH : Fld := ⟨.NOC_NI_STAT, 0, 4⟩
/-- NOC_NI_USEB.USE_B, [35:0] (R306). -/
abbrev NOC_NI_USEB_USE_B : Fld := ⟨.NOC_NI_USEB, 0, 36⟩
/-- ECC_INIT.MEM, [16:1] (R306). -/
abbrev ECC_INIT_MEM : Fld := ⟨.ECC_INIT, 1, 16⟩
/-- ECC_SCAN_CTL.LENGTH, [63:32] (R306). -/
abbrev ECC_SCAN_CTL_LENGTH : Fld := ⟨.ECC_SCAN_CTL, 32, 32⟩
/-- ECC_SCAN_CTL.GO, [31:31] (R306). -/
abbrev ECC_SCAN_CTL_GO : Fld := ⟨.ECC_SCAN_CTL, 31, 1⟩
/-- ECC_SCAN_CTL.REJ, [30:30] (R306). -/
abbrev ECC_SCAN_CTL_REJ : Fld := ⟨.ECC_SCAN_CTL, 30, 1⟩
/-- ECC_SCAN_CTL.MEM, [4:0] (R306). -/
abbrev ECC_SCAN_CTL_MEM : Fld := ⟨.ECC_SCAN_CTL, 0, 5⟩
/-- ECC_SCAN_START.START, [31:0] (R306). -/
abbrev ECC_SCAN_START_START : Fld := ⟨.ECC_SCAN_START, 0, 32⟩
/-- ECC_SCAN_SUM.UE, [63:32] (R306). -/
abbrev ECC_SCAN_SUM_UE : Fld := ⟨.ECC_SCAN_SUM, 32, 32⟩
/-- ECC_SCAN_SUM.CE, [31:0] (R306). -/
abbrev ECC_SCAN_SUM_CE : Fld := ⟨.ECC_SCAN_SUM, 0, 32⟩
/-- ECC_SCAN_ADDR.WORD, [63:0] (R306). -/
abbrev ECC_SCAN_ADDR_WORD : Fld := ⟨.ECC_SCAN_ADDR, 0, 64⟩
/-- ECC_FLIP_CTL.ADDR, [63:32] (R306). -/
abbrev ECC_FLIP_CTL_ADDR : Fld := ⟨.ECC_FLIP_CTL, 32, 32⟩
/-- ECC_FLIP_CTL.ARM, [31:31] (R306). -/
abbrev ECC_FLIP_CTL_ARM : Fld := ⟨.ECC_FLIP_CTL, 31, 1⟩
/-- ECC_FLIP_CTL.ANY, [30:30] (R306). -/
abbrev ECC_FLIP_CTL_ANY : Fld := ⟨.ECC_FLIP_CTL, 30, 1⟩
/-- ECC_FLIP_CTL.MEM, [20:16] (R306). -/
abbrev ECC_FLIP_CTL_MEM : Fld := ⟨.ECC_FLIP_CTL, 16, 5⟩
/-- ECC_FLIP_CTL.CHK, [15:0] (R306). -/
abbrev ECC_FLIP_CTL_CHK : Fld := ⟨.ECC_FLIP_CTL, 0, 16⟩
/-- ECC_FLIP_MASK.DATA, [63:0] (R306). -/
abbrev ECC_FLIP_MASK_DATA : Fld := ⟨.ECC_FLIP_MASK, 0, 64⟩
/-- ECC_SCRUB.CE_COUNT, [63:48] (R306). -/
abbrev ECC_SCRUB_CE_COUNT : Fld := ⟨.ECC_SCRUB, 48, 16⟩
/-- ECC_SCRUB.UE_COUNT, [47:32] (R306). -/
abbrev ECC_SCRUB_UE_COUNT : Fld := ⟨.ECC_SCRUB, 32, 16⟩
/-- ECC_SCRUB.RATE, [15:0] (R306). -/
abbrev ECC_SCRUB_RATE : Fld := ⟨.ECC_SCRUB, 0, 16⟩
/-- ECC_SCRUB_RANGE.HI, [63:32] (R306). -/
abbrev ECC_SCRUB_RANGE_HI : Fld := ⟨.ECC_SCRUB_RANGE, 32, 32⟩
/-- ECC_SCRUB_RANGE.LO, [31:0] (R306). -/
abbrev ECC_SCRUB_RANGE_LO : Fld := ⟨.ECC_SCRUB_RANGE, 0, 32⟩
/-- ECC_UE.VALID, [63:63] (R306). -/
abbrev ECC_UE_VALID : Fld := ⟨.ECC_UE, 63, 1⟩
/-- ECC_UE.WORD, [31:0] (R306). -/
abbrev ECC_UE_WORD : Fld := ⟨.ECC_UE, 0, 32⟩
/-- DEV_UCODE_VER.ROM_VER, [63:48] (R138). -/
abbrev DEV_UCODE_VER_ROM_VER : Fld := ⟨.DEV_UCODE_VER, 48, 16⟩
/-- DEV_UCODE_VER.PATCH_VER, [47:32] (R138). -/
abbrev DEV_UCODE_VER_PATCH_VER : Fld := ⟨.DEV_UCODE_VER, 32, 16⟩
/-- DEV_UCODE_VER.PATCH_HASH, [31:0] (R138). -/
abbrev DEV_UCODE_VER_PATCH_HASH : Fld := ⟨.DEV_UCODE_VER, 0, 32⟩
/-- DEV_UCODE_CUST.CUST_VER, [63:48] (R138). -/
abbrev DEV_UCODE_CUST_CUST_VER : Fld := ⟨.DEV_UCODE_CUST, 48, 16⟩
/-- DEV_UCODE_CUST.CUST_HASH, [31:0] (R138). -/
abbrev DEV_UCODE_CUST_CUST_HASH : Fld := ⟨.DEV_UCODE_CUST, 0, 32⟩
/-- DEV_UCODE_CTL.WREJ, [1:1] (R138). -/
abbrev DEV_UCODE_CTL_WREJ : Fld := ⟨.DEV_UCODE_CTL, 1, 1⟩
/-- DEV_UCODE_CTL.LOCK, [0:0] (R138). -/
abbrev DEV_UCODE_CTL_LOCK : Fld := ⟨.DEV_UCODE_CTL, 0, 1⟩
/-- DEV_UC_ADDR.SPACE, [31:30] (R138). -/
abbrev DEV_UC_ADDR_SPACE : Fld := ⟨.DEV_UC_ADDR, 30, 2⟩
/-- DEV_UC_ADDR.INC, [29:29] (R138). -/
abbrev DEV_UC_ADDR_INC : Fld := ⟨.DEV_UC_ADDR, 29, 1⟩
/-- DEV_UC_ADDR.INDEX, [14:0] (R138). -/
abbrev DEV_UC_ADDR_INDEX : Fld := ⟨.DEV_UC_ADDR, 0, 15⟩
/-- DEV_UC_DATA.DATA, [63:0] (R138). -/
abbrev DEV_UC_DATA_DATA : Fld := ⟨.DEV_UC_DATA, 0, 64⟩
/-- DEV_UC_PAR.COUNT, [63:48] (R138). -/
abbrev DEV_UC_PAR_COUNT : Fld := ⟨.DEV_UC_PAR, 48, 16⟩
/-- DEV_UC_PAR.VALID, [47:47] (R138). -/
abbrev DEV_UC_PAR_VALID : Fld := ⟨.DEV_UC_PAR, 47, 1⟩
/-- DEV_UC_PAR.HALT, [46:46] (R138). -/
abbrev DEV_UC_PAR_HALT : Fld := ⟨.DEV_UC_PAR, 46, 1⟩
/-- DEV_UC_PAR.SHADOW, [45:45] (R138). -/
abbrev DEV_UC_PAR_SHADOW : Fld := ⟨.DEV_UC_PAR, 45, 1⟩
/-- DEV_UC_PAR.OVERRUN, [44:44] (R138). -/
abbrev DEV_UC_PAR_OVERRUN : Fld := ⟨.DEV_UC_PAR, 44, 1⟩
/-- DEV_UC_PAR.SPACE, [43:42] (R138). -/
abbrev DEV_UC_PAR_SPACE : Fld := ⟨.DEV_UC_PAR, 42, 2⟩
/-- DEV_UC_PAR.ADDR, [14:0] (R138). -/
abbrev DEV_UC_PAR_ADDR : Fld := ⟨.DEV_UC_PAR, 0, 15⟩
/-- DEV_AIQ_STATUS.STOPPED, [15:15] (R138). -/
abbrev DEV_AIQ_STATUS_STOPPED : Fld := ⟨.DEV_AIQ_STATUS, 15, 1⟩
/-- DEV_AIQ_STATUS.COMMITTED, [14:14] (R138). -/
abbrev DEV_AIQ_STATUS_COMMITTED : Fld := ⟨.DEV_AIQ_STATUS, 14, 1⟩
/-- DEV_AIQ_STATUS.INDEX, [13:6] (R138). -/
abbrev DEV_AIQ_STATUS_INDEX : Fld := ⟨.DEV_AIQ_STATUS, 6, 8⟩
/-- DEV_AIQ_STATUS.DEPTH, [5:0] (R138). -/
abbrev DEV_AIQ_STATUS_DEPTH : Fld := ⟨.DEV_AIQ_STATUS, 0, 6⟩
/-- DEV_WDT.FIRED, [31:31] (R369). -/
abbrev DEV_WDT_FIRED : Fld := ⟨.DEV_WDT, 31, 1⟩
/-- DEV_WDT.ENABLE, [30:30] (R369). -/
abbrev DEV_WDT_ENABLE : Fld := ⟨.DEV_WDT, 30, 1⟩
/-- DEV_WDT.TIMEOUT_US, [15:0] (R369). -/
abbrev DEV_WDT_TIMEOUT_US : Fld := ⟨.DEV_WDT, 0, 16⟩
/-- DEV_INSP_SKIP.COUNT, [31:0] (R27). -/
abbrev DEV_INSP_SKIP_COUNT : Fld := ⟨.DEV_INSP_SKIP, 0, 32⟩
/-- GRN_GANG.MODE, [1:0] (R64). -/
abbrev GRN_GANG_MODE : Fld := ⟨.GRN_GANG, 0, 2⟩
/-- GRN_EDGE.P3_WEST, [31:30] (R64). -/
abbrev GRN_EDGE_P3_WEST : Fld := ⟨.GRN_EDGE, 30, 2⟩
/-- GRN_EDGE.P3_EAST, [29:28] (R64). -/
abbrev GRN_EDGE_P3_EAST : Fld := ⟨.GRN_EDGE, 28, 2⟩
/-- GRN_EDGE.P3_SOUTH, [27:26] (R64). -/
abbrev GRN_EDGE_P3_SOUTH : Fld := ⟨.GRN_EDGE, 26, 2⟩
/-- GRN_EDGE.P3_NORTH, [25:24] (R64). -/
abbrev GRN_EDGE_P3_NORTH : Fld := ⟨.GRN_EDGE, 24, 2⟩
/-- GRN_EDGE.P2_WEST, [23:22] (R64). -/
abbrev GRN_EDGE_P2_WEST : Fld := ⟨.GRN_EDGE, 22, 2⟩
/-- GRN_EDGE.P2_EAST, [21:20] (R64). -/
abbrev GRN_EDGE_P2_EAST : Fld := ⟨.GRN_EDGE, 20, 2⟩
/-- GRN_EDGE.P2_SOUTH, [19:18] (R64). -/
abbrev GRN_EDGE_P2_SOUTH : Fld := ⟨.GRN_EDGE, 18, 2⟩
/-- GRN_EDGE.P2_NORTH, [17:16] (R64). -/
abbrev GRN_EDGE_P2_NORTH : Fld := ⟨.GRN_EDGE, 16, 2⟩
/-- GRN_EDGE.P1_WEST, [15:14] (R64). -/
abbrev GRN_EDGE_P1_WEST : Fld := ⟨.GRN_EDGE, 14, 2⟩
/-- GRN_EDGE.P1_EAST, [13:12] (R64). -/
abbrev GRN_EDGE_P1_EAST : Fld := ⟨.GRN_EDGE, 12, 2⟩
/-- GRN_EDGE.P1_SOUTH, [11:10] (R64). -/
abbrev GRN_EDGE_P1_SOUTH : Fld := ⟨.GRN_EDGE, 10, 2⟩
/-- GRN_EDGE.P1_NORTH, [9:8] (R64). -/
abbrev GRN_EDGE_P1_NORTH : Fld := ⟨.GRN_EDGE, 8, 2⟩
/-- GRN_EDGE.P0_WEST, [7:6] (R64). -/
abbrev GRN_EDGE_P0_WEST : Fld := ⟨.GRN_EDGE, 6, 2⟩
/-- GRN_EDGE.P0_EAST, [5:4] (R64). -/
abbrev GRN_EDGE_P0_EAST : Fld := ⟨.GRN_EDGE, 4, 2⟩
/-- GRN_EDGE.P0_SOUTH, [3:2] (R64). -/
abbrev GRN_EDGE_P0_SOUTH : Fld := ⟨.GRN_EDGE, 2, 2⟩
/-- GRN_EDGE.P0_NORTH, [1:0] (R64). -/
abbrev GRN_EDGE_P0_NORTH : Fld := ⟨.GRN_EDGE, 0, 2⟩
/-- GRN_STATUS.SLIP_FAIL, [13:13] (R64). -/
abbrev GRN_STATUS_SLIP_FAIL : Fld := ⟨.GRN_STATUS, 13, 1⟩
/-- GRN_STATUS.SLIP_BUSY, [12:12] (R64). -/
abbrev GRN_STATUS_SLIP_BUSY : Fld := ⟨.GRN_STATUS, 12, 1⟩
/-- GRN_STATUS.INIT_BUSY, [11:8] (R64). -/
abbrev GRN_STATUS_INIT_BUSY : Fld := ⟨.GRN_STATUS, 8, 4⟩
/-- GRN_STATUS.INIT_REJ, [7:7] (R64). -/
abbrev GRN_STATUS_INIT_REJ : Fld := ⟨.GRN_STATUS, 7, 1⟩
/-- GRN_STATUS.GANG_REJ, [6:6] (R64). -/
abbrev GRN_STATUS_GANG_REJ : Fld := ⟨.GRN_STATUS, 6, 1⟩
/-- GRN_STATUS.JOIN_MIS, [5:5] (R64). -/
abbrev GRN_STATUS_JOIN_MIS : Fld := ⟨.GRN_STATUS, 5, 1⟩
/-- GRN_STATUS.FOG_FAIL, [4:4] (R64). -/
abbrev GRN_STATUS_FOG_FAIL : Fld := ⟨.GRN_STATUS, 4, 1⟩
/-- GRN_STATUS.UE, [3:0] (R64). -/
abbrev GRN_STATUS_UE : Fld := ⟨.GRN_STATUS, 0, 4⟩
/-- GRN_INIT.PART, [3:0] (R64). -/
abbrev GRN_INIT_PART : Fld := ⟨.GRN_INIT, 0, 4⟩
/-- GRN_ECC.CE_COUNT, [63:48] (R64). -/
abbrev GRN_ECC_CE_COUNT : Fld := ⟨.GRN_ECC, 48, 16⟩
/-- GRN_ECC.UE_VALID, [47:47] (R64). -/
abbrev GRN_ECC_UE_VALID : Fld := ⟨.GRN_ECC, 47, 1⟩
/-- GRN_ECC.UE_ROW, [31:24] (R64). -/
abbrev GRN_ECC_UE_ROW : Fld := ⟨.GRN_ECC, 24, 8⟩
/-- GRN_ECC.UE_TCOL, [23:21] (R64). -/
abbrev GRN_ECC_UE_TCOL : Fld := ⟨.GRN_ECC, 21, 3⟩
/-- GRN_ECC.UE_ADDR, [12:0] (R64). -/
abbrev GRN_ECC_UE_ADDR : Fld := ⟨.GRN_ECC, 0, 13⟩
/-- GRN_FOG_CTRL.BATTERY_CNT, [31:16] (R64). -/
abbrev GRN_FOG_CTRL_BATTERY_CNT : Fld := ⟨.GRN_FOG_CTRL, 16, 16⟩
/-- GRN_FOG_CTRL.MIN_GAP, [7:2] (R64). -/
abbrev GRN_FOG_CTRL_MIN_GAP : Fld := ⟨.GRN_FOG_CTRL, 2, 6⟩
/-- GRN_FOG_CTRL.ENABLE, [0:0] (R64). -/
abbrev GRN_FOG_CTRL_ENABLE : Fld := ⟨.GRN_FOG_CTRL, 0, 1⟩
/-- GRN_FOG_FAIL.VALID, [31:31] (R64). -/
abbrev GRN_FOG_FAIL_VALID : Fld := ⟨.GRN_FOG_FAIL, 31, 1⟩
/-- GRN_FOG_FAIL.PROBE, [30:25] (R64). -/
abbrev GRN_FOG_FAIL_PROBE : Fld := ⟨.GRN_FOG_FAIL, 25, 6⟩
/-- GRN_FOG_FAIL.ROW, [24:17] (R64). -/
abbrev GRN_FOG_FAIL_ROW : Fld := ⟨.GRN_FOG_FAIL, 17, 8⟩
/-- GRN_FOG_FAIL.COL, [16:9] (R64). -/
abbrev GRN_FOG_FAIL_COL : Fld := ⟨.GRN_FOG_FAIL, 9, 8⟩
/-- GRN_FOG_FAIL.PHYS, [8:3] (R64). -/
abbrev GRN_FOG_FAIL_PHYS : Fld := ⟨.GRN_FOG_FAIL, 3, 6⟩
/-- GRN_SLIP_CMD.BOOT, [9:9] (R64). -/
abbrev GRN_SLIP_CMD_BOOT : Fld := ⟨.GRN_SLIP_CMD, 9, 1⟩
/-- GRN_SLIP_CMD.GO, [8:8] (R64). -/
abbrev GRN_SLIP_CMD_GO : Fld := ⟨.GRN_SLIP_CMD, 8, 1⟩
/-- GRN_SLIP_CMD.TCOL, [7:5] (R64). -/
abbrev GRN_SLIP_CMD_TCOL : Fld := ⟨.GRN_SLIP_CMD, 5, 3⟩
/-- GRN_SLIP_CMD.PHYS, [4:0] (R64). -/
abbrev GRN_SLIP_CMD_PHYS : Fld := ⟨.GRN_SLIP_CMD, 0, 5⟩
/-- GRN_SLIP_STATE.SLIPPED0, [7:7] (R64). -/
abbrev GRN_SLIP_STATE_SLIPPED0 : Fld := ⟨.GRN_SLIP_STATE, 7, 1⟩
/-- GRN_SLIP_STATE.SLIPPED1, [15:15] (R64). -/
abbrev GRN_SLIP_STATE_SLIPPED1 : Fld := ⟨.GRN_SLIP_STATE, 15, 1⟩
/-- GRN_SLIP_STATE.SLIPPED2, [23:23] (R64). -/
abbrev GRN_SLIP_STATE_SLIPPED2 : Fld := ⟨.GRN_SLIP_STATE, 23, 1⟩
/-- GRN_SLIP_STATE.SLIPPED3, [31:31] (R64). -/
abbrev GRN_SLIP_STATE_SLIPPED3 : Fld := ⟨.GRN_SLIP_STATE, 31, 1⟩
/-- GRN_SLIP_STATE.SLIPPED4, [39:39] (R64). -/
abbrev GRN_SLIP_STATE_SLIPPED4 : Fld := ⟨.GRN_SLIP_STATE, 39, 1⟩
/-- GRN_SLIP_STATE.SLIPPED5, [47:47] (R64). -/
abbrev GRN_SLIP_STATE_SLIPPED5 : Fld := ⟨.GRN_SLIP_STATE, 47, 1⟩
/-- GRN_SLIP_STATE.SLIPPED6, [55:55] (R64). -/
abbrev GRN_SLIP_STATE_SLIPPED6 : Fld := ⟨.GRN_SLIP_STATE, 55, 1⟩
/-- GRN_SLIP_STATE.SLIPPED7, [63:63] (R64). -/
abbrev GRN_SLIP_STATE_SLIPPED7 : Fld := ⟨.GRN_SLIP_STATE, 63, 1⟩
/-- GRN_SLIP_STATE.SPARE_BAD0, [6:6] (R64). -/
abbrev GRN_SLIP_STATE_SPARE_BAD0 : Fld := ⟨.GRN_SLIP_STATE, 6, 1⟩
/-- GRN_SLIP_STATE.SPARE_BAD1, [14:14] (R64). -/
abbrev GRN_SLIP_STATE_SPARE_BAD1 : Fld := ⟨.GRN_SLIP_STATE, 14, 1⟩
/-- GRN_SLIP_STATE.SPARE_BAD2, [22:22] (R64). -/
abbrev GRN_SLIP_STATE_SPARE_BAD2 : Fld := ⟨.GRN_SLIP_STATE, 22, 1⟩
/-- GRN_SLIP_STATE.SPARE_BAD3, [30:30] (R64). -/
abbrev GRN_SLIP_STATE_SPARE_BAD3 : Fld := ⟨.GRN_SLIP_STATE, 30, 1⟩
/-- GRN_SLIP_STATE.SPARE_BAD4, [38:38] (R64). -/
abbrev GRN_SLIP_STATE_SPARE_BAD4 : Fld := ⟨.GRN_SLIP_STATE, 38, 1⟩
/-- GRN_SLIP_STATE.SPARE_BAD5, [46:46] (R64). -/
abbrev GRN_SLIP_STATE_SPARE_BAD5 : Fld := ⟨.GRN_SLIP_STATE, 46, 1⟩
/-- GRN_SLIP_STATE.SPARE_BAD6, [54:54] (R64). -/
abbrev GRN_SLIP_STATE_SPARE_BAD6 : Fld := ⟨.GRN_SLIP_STATE, 54, 1⟩
/-- GRN_SLIP_STATE.SPARE_BAD7, [62:62] (R64). -/
abbrev GRN_SLIP_STATE_SPARE_BAD7 : Fld := ⟨.GRN_SLIP_STATE, 62, 1⟩
/-- GRN_SLIP_STATE.POS0, [4:0] (R64). -/
abbrev GRN_SLIP_STATE_POS0 : Fld := ⟨.GRN_SLIP_STATE, 0, 5⟩
/-- GRN_SLIP_STATE.POS1, [12:8] (R64). -/
abbrev GRN_SLIP_STATE_POS1 : Fld := ⟨.GRN_SLIP_STATE, 8, 5⟩
/-- GRN_SLIP_STATE.POS2, [20:16] (R64). -/
abbrev GRN_SLIP_STATE_POS2 : Fld := ⟨.GRN_SLIP_STATE, 16, 5⟩
/-- GRN_SLIP_STATE.POS3, [28:24] (R64). -/
abbrev GRN_SLIP_STATE_POS3 : Fld := ⟨.GRN_SLIP_STATE, 24, 5⟩
/-- GRN_SLIP_STATE.POS4, [36:32] (R64). -/
abbrev GRN_SLIP_STATE_POS4 : Fld := ⟨.GRN_SLIP_STATE, 32, 5⟩
/-- GRN_SLIP_STATE.POS5, [44:40] (R64). -/
abbrev GRN_SLIP_STATE_POS5 : Fld := ⟨.GRN_SLIP_STATE, 40, 5⟩
/-- GRN_SLIP_STATE.POS6, [52:48] (R64). -/
abbrev GRN_SLIP_STATE_POS6 : Fld := ⟨.GRN_SLIP_STATE, 48, 5⟩
/-- GRN_SLIP_STATE.POS7, [60:56] (R64). -/
abbrev GRN_SLIP_STATE_POS7 : Fld := ⟨.GRN_SLIP_STATE, 56, 5⟩
/-- ENL_BAND_ADDR.ADDR, [24:0] (R167). -/
abbrev ENL_BAND_ADDR_ADDR : Fld := ⟨.ENL_BAND_ADDR, 0, 25⟩
/-- ENL_BAND_PUSH.FIRST_LINE, [63:32] (R167). -/
abbrev ENL_BAND_PUSH_FIRST_LINE : Fld := ⟨.ENL_BAND_PUSH, 32, 32⟩
/-- ENL_BAND_PUSH.LINES, [15:8] (R167). -/
abbrev ENL_BAND_PUSH_LINES : Fld := ⟨.ENL_BAND_PUSH, 8, 8⟩
/-- ENL_BAND_PUSH.FACTOR, [3:2] (R167). -/
abbrev ENL_BAND_PUSH_FACTOR : Fld := ⟨.ENL_BAND_PUSH, 2, 2⟩
/-- ENL_BAND_PUSH.LINEAR, [1:1] (R167). -/
abbrev ENL_BAND_PUSH_LINEAR : Fld := ⟨.ENL_BAND_PUSH, 1, 1⟩
/-- ENL_STATUS.ERR_LINE, [63:32] (R167). -/
abbrev ENL_STATUS_ERR_LINE : Fld := ⟨.ENL_STATUS, 32, 32⟩
/-- ENL_STATUS.ERR, [19:16] (R167). -/
abbrev ENL_STATUS_ERR : Fld := ⟨.ENL_STATUS, 16, 4⟩
/-- ENL_STATUS.ERR_ROW, [13:8] (R167). -/
abbrev ENL_STATUS_ERR_ROW : Fld := ⟨.ENL_STATUS, 8, 6⟩
/-- ENL_STATUS.HALTED, [7:7] (R167). -/
abbrev ENL_STATUS_HALTED : Fld := ⟨.ENL_STATUS, 7, 1⟩
/-- ENL_STATUS.FAULT, [6:6] (R167). -/
abbrev ENL_STATUS_FAULT : Fld := ⟨.ENL_STATUS, 6, 1⟩
/-- ENL_STATUS.QDEPTH, [4:0] (R167). -/
abbrev ENL_STATUS_QDEPTH : Fld := ⟨.ENL_STATUS, 0, 5⟩
/-- ENL_CTL.FLUSH, [1:1] (R167). -/
abbrev ENL_CTL_FLUSH : Fld := ⟨.ENL_CTL, 1, 1⟩
/-- ENL_CTL.RESTART, [0:0] (R167). -/
abbrev ENL_CTL_RESTART : Fld := ⟨.ENL_CTL, 0, 1⟩
/-- SHT_CTL.EVT_SHIFT, [39:35] (R167). -/
abbrev SHT_CTL_EVT_SHIFT : Fld := ⟨.SHT_CTL, 35, 5⟩
/-- SHT_CTL.LEAD, [34:32] (R167). -/
abbrev SHT_CTL_LEAD : Fld := ⟨.SHT_CTL, 32, 3⟩
/-- SHT_CTL.SRC, [31:30] (R167). -/
abbrev SHT_CTL_SRC : Fld := ⟨.SHT_CTL, 30, 2⟩
/-- SHT_CTL.ENC_SEL, [29:28] (R167). -/
abbrev SHT_CTL_ENC_SEL : Fld := ⟨.SHT_CTL, 28, 2⟩
/-- SHT_CTL.PACE, [27:0] (R167). -/
abbrev SHT_CTL_PACE : Fld := ⟨.SHT_CTL, 0, 28⟩
/-- SHT_STATUS.STALL, [2:2] (R7). -/
abbrev SHT_STATUS_STALL : Fld := ⟨.SHT_STATUS, 2, 1⟩
/-- SHT_STATUS.MISSED, [1:1] (R7). -/
abbrev SHT_STATUS_MISSED : Fld := ⟨.SHT_STATUS, 1, 1⟩
/-- SHT_STATUS.STARVE, [0:0] (R7). -/
abbrev SHT_STATUS_STARVE : Fld := ⟨.SHT_STATUS, 0, 1⟩
/-- SHT_LINE_MISS_CNT.COUNT, [31:0] (R167). -/
abbrev SHT_LINE_MISS_CNT_COUNT : Fld := ⟨.SHT_LINE_MISS_CNT, 0, 32⟩
/-- SHT_RESERVE.DEPTH, [42:32] (R167). -/
abbrev SHT_RESERVE_DEPTH : Fld := ⟨.SHT_RESERVE, 32, 11⟩
/-- SHT_RESERVE.TARGET, [26:16] (R167). -/
abbrev SHT_RESERVE_TARGET : Fld := ⟨.SHT_RESERVE, 16, 11⟩
/-- SHT_RESERVE.LOW_WATER, [10:0] (R167). -/
abbrev SHT_RESERVE_LOW_WATER : Fld := ⟨.SHT_RESERVE, 0, 11⟩
/-- SHT_HOLD.REQ, [63:63] (R167). -/
abbrev SHT_HOLD_REQ : Fld := ⟨.SHT_HOLD, 63, 1⟩
/-- SHT_HOLD.ABRUPT, [62:62] (R167). -/
abbrev SHT_HOLD_ABRUPT : Fld := ⟨.SHT_HOLD, 62, 1⟩
/-- SHT_HOLD.HELD, [61:61] (R167). -/
abbrev SHT_HOLD_HELD : Fld := ⟨.SHT_HOLD, 61, 1⟩
/-- SHT_HOLD.RESUME, [60:60] (R167). -/
abbrev SHT_HOLD_RESUME : Fld := ⟨.SHT_HOLD, 60, 1⟩
/-- SHT_HOLD.CAUSE, [35:32] (R167). -/
abbrev SHT_HOLD_CAUSE : Fld := ⟨.SHT_HOLD, 32, 4⟩
/-- SHT_HOLD.AT_LINE, [31:0] (R167). -/
abbrev SHT_HOLD_AT_LINE : Fld := ⟨.SHT_HOLD, 0, 32⟩
/-- SHT_PITCH.PITCH, [63:0] (R167). -/
abbrev SHT_PITCH_PITCH : Fld := ⟨.SHT_PITCH, 0, 64⟩
/-- SHT_LINEPOS.LINEPOS, [63:0] (R167). -/
abbrev SHT_LINEPOS_LINEPOS : Fld := ⟨.SHT_LINEPOS, 0, 64⟩
/-- SHT_SWATH.MODE, [63:62] (R167). -/
abbrev SHT_SWATH_MODE : Fld := ⟨.SHT_SWATH, 62, 2⟩
/-- SHT_SWATH.GATE_EN, [61:61] (R167). -/
abbrev SHT_SWATH_GATE_EN : Fld := ⟨.SHT_SWATH, 61, 1⟩
/-- SHT_SWATH.GATE_IN, [59:56] (R167). -/
abbrev SHT_SWATH_GATE_IN : Fld := ⟨.SHT_SWATH, 56, 4⟩
/-- SHT_SWATH.LEN, [55:32] (R167). -/
abbrev SHT_SWATH_LEN : Fld := ⟨.SHT_SWATH, 32, 24⟩
/-- SHT_SWATH.REV_OFS, [31:0] (R167). -/
abbrev SHT_SWATH_REV_OFS : Fld := ⟨.SHT_SWATH, 0, 32⟩
/-- SHT_NMAP_IDX.INC, [31:31] (R167). -/
abbrev SHT_NMAP_IDX_INC : Fld := ⟨.SHT_NMAP_IDX, 31, 1⟩
/-- SHT_NMAP_IDX.IDX, [18:0] (R167). -/
abbrev SHT_NMAP_IDX_IDX : Fld := ⟨.SHT_NMAP_IDX, 0, 19⟩
/-- SHT_NMAP_DATA.DATA, [31:0] (R167). -/
abbrev SHT_NMAP_DATA_DATA : Fld := ⟨.SHT_NMAP_DATA, 0, 32⟩
/-- SHT_ENC_CTL.STALL_US, [63:48] (R167). -/
abbrev SHT_ENC_CTL_STALL_US : Fld := ⟨.SHT_ENC_CTL, 48, 16⟩
/-- SHT_ENC_CTL.MIN_INT, [47:32] (R167). -/
abbrev SHT_ENC_CTL_MIN_INT : Fld := ⟨.SHT_ENC_CTL, 32, 16⟩
/-- SHT_ENC_CTL.QERR, [31:24] (R167). -/
abbrev SHT_ENC_CTL_QERR : Fld := ⟨.SHT_ENC_CTL, 24, 8⟩
/-- SHT_ENC_CTL.OVERSPEED, [23:16] (R167). -/
abbrev SHT_ENC_CTL_OVERSPEED : Fld := ⟨.SHT_ENC_CTL, 16, 8⟩
/-- SHT_ENC_CTL.FILT, [15:8] (R167). -/
abbrev SHT_ENC_CTL_FILT : Fld := ⟨.SHT_ENC_CTL, 8, 8⟩
/-- SHT_ENC_CTL.IDX_ORG, [3:3] (R167). -/
abbrev SHT_ENC_CTL_IDX_ORG : Fld := ⟨.SHT_ENC_CTL, 3, 1⟩
/-- SHT_ENC_CTL.INV, [2:2] (R167). -/
abbrev SHT_ENC_CTL_INV : Fld := ⟨.SHT_ENC_CTL, 2, 1⟩
/-- SHT_ENC_CTL.ENABLE, [0:0] (R167). -/
abbrev SHT_ENC_CTL_ENABLE : Fld := ⟨.SHT_ENC_CTL, 0, 1⟩
/-- SHT_GRP.ENABLE, [63:63] (R167). -/
abbrev SHT_GRP_ENABLE : Fld := ⟨.SHT_GRP, 63, 1⟩
/-- SHT_GRP.INBAND, [62:62] (R167). -/
abbrev SHT_GRP_INBAND : Fld := ⟨.SHT_GRP, 62, 1⟩
/-- SHT_GRP.WIRED_EN, [61:61] (R167). -/
abbrev SHT_GRP_WIRED_EN : Fld := ⟨.SHT_GRP, 61, 1⟩
/-- SHT_GRP.WIRED, [59:56] (R167). -/
abbrev SHT_GRP_WIRED : Fld := ⟨.SHT_GRP, 56, 4⟩
/-- SHT_GRP.DELAY, [55:48] (R167). -/
abbrev SHT_GRP_DELAY : Fld := ⟨.SHT_GRP, 48, 8⟩
/-- SHT_GRP.PHASE_REV, [47:32] (R167). -/
abbrev SHT_GRP_PHASE_REV : Fld := ⟨.SHT_GRP, 32, 16⟩
/-- SHT_GRP.PHASE, [15:0] (R167). -/
abbrev SHT_GRP_PHASE : Fld := ⟨.SHT_GRP, 0, 16⟩
/-- SHT_TIMER.OWNER, [31:29] (R167). -/
abbrev SHT_TIMER_OWNER : Fld := ⟨.SHT_TIMER, 29, 3⟩
/-- SHT_TIMER.CLAIM_REJ, [28:28] (R167). -/
abbrev SHT_TIMER_CLAIM_REJ : Fld := ⟨.SHT_TIMER, 28, 1⟩
/-- SHT_TIMER.TARGET, [27:22] (R167). -/
abbrev SHT_TIMER_TARGET : Fld := ⟨.SHT_TIMER, 22, 6⟩
/-- SHT_TIMER.LATE, [15:0] (R167). -/
abbrev SHT_TIMER_LATE : Fld := ⟨.SHT_TIMER, 0, 16⟩
/-- SHT_TIMER_CFG.WIDTH, [31:16] (R167). -/
abbrev SHT_TIMER_CFG_WIDTH : Fld := ⟨.SHT_TIMER_CFG, 16, 16⟩
/-- SHT_TIMER_CFG.PHASE, [15:0] (R167). -/
abbrev SHT_TIMER_CFG_PHASE : Fld := ⟨.SHT_TIMER_CFG, 0, 16⟩
/-- SHT_DIN_CTL.LEVEL, [31:31] (R387). -/
abbrev SHT_DIN_CTL_LEVEL : Fld := ⟨.SHT_DIN_CTL, 31, 1⟩
/-- SHT_DIN_CTL.FIELD_LOW, [30:30] (R387). -/
abbrev SHT_DIN_CTL_FIELD_LOW : Fld := ⟨.SHT_DIN_CTL, 30, 1⟩
/-- SHT_DIN_CTL.FILT, [7:0] (R387). -/
abbrev SHT_DIN_CTL_FILT : Fld := ⟨.SHT_DIN_CTL, 0, 8⟩
/-- SHT_DOUT_CTL.FAULT, [3:3] (R387). -/
abbrev SHT_DOUT_CTL_FAULT : Fld := ⟨.SHT_DOUT_CTL, 3, 1⟩
/-- SHT_DOUT_CTL.SRC, [2:1] (R387). -/
abbrev SHT_DOUT_CTL_SRC : Fld := ⟨.SHT_DOUT_CTL, 1, 2⟩
/-- SHT_DOUT_CTL.LEVEL, [0:0] (R387). -/
abbrev SHT_DOUT_CTL_LEVEL : Fld := ⟨.SHT_DOUT_CTL, 0, 1⟩
/-- HP_LANE_CTL.GEN, [31:30] (R196). -/
abbrev HP_LANE_CTL_GEN : Fld := ⟨.HP_LANE_CTL, 30, 2⟩
/-- HP_LANE_CTL.PAIR, [29:29] (R196). -/
abbrev HP_LANE_CTL_PAIR : Fld := ⟨.HP_LANE_CTL, 29, 1⟩
/-- HP_LANE_CTL.ACK_TO, [23:16] (R196). -/
abbrev HP_LANE_CTL_ACK_TO : Fld := ⟨.HP_LANE_CTL, 16, 8⟩
/-- HP_LANE_CTL.LINK_TO, [15:8] (R196). -/
abbrev HP_LANE_CTL_LINK_TO : Fld := ⟨.HP_LANE_CTL, 8, 8⟩
/-- HP_LANE_CTL.TEL_TO, [7:0] (R196). -/
abbrev HP_LANE_CTL_TEL_TO : Fld := ⟨.HP_LANE_CTL, 0, 8⟩
/-- HP_LANE_STATUS.RETX, [63:48] (R196). -/
abbrev HP_LANE_STATUS_RETX : Fld := ⟨.HP_LANE_STATUS, 48, 16⟩
/-- HP_LANE_STATUS.STALE, [47:40] (R196). -/
abbrev HP_LANE_STATUS_STALE : Fld := ⟨.HP_LANE_STATUS, 40, 8⟩
/-- HP_LANE_STATUS.LATE_FIRE, [39:32] (R196). -/
abbrev HP_LANE_STATUS_LATE_FIRE : Fld := ⟨.HP_LANE_STATUS, 32, 8⟩
/-- HP_LANE_STATUS.CRC_ERR, [31:24] (R196). -/
abbrev HP_LANE_STATUS_CRC_ERR : Fld := ⟨.HP_LANE_STATUS, 24, 8⟩
/-- HP_LANE_STATUS.TEL_BAD, [23:16] (R196). -/
abbrev HP_LANE_STATUS_TEL_BAD : Fld := ⟨.HP_LANE_STATUS, 16, 8⟩
/-- HP_LANE_STATUS.TEL_STALE, [9:9] (R196). -/
abbrev HP_LANE_STATUS_TEL_STALE : Fld := ⟨.HP_LANE_STATUS, 9, 1⟩
/-- HP_LANE_STATUS.FAULT, [8:8] (R196). -/
abbrev HP_LANE_STATUS_FAULT : Fld := ⟨.HP_LANE_STATUS, 8, 1⟩
/-- HP_LANE_STATUS.PRESENT, [7:7] (R196). -/
abbrev HP_LANE_STATUS_PRESENT : Fld := ⟨.HP_LANE_STATUS, 7, 1⟩
/-- HP_LANE_STATUS.STATE, [1:0] (R196). -/
abbrev HP_LANE_STATUS_STATE : Fld := ⟨.HP_LANE_STATUS, 0, 2⟩
/-- HP_WIRED.POL, [8:8] (R196). -/
abbrev HP_WIRED_POL : Fld := ⟨.HP_WIRED, 8, 1⟩
/-- HP_WIRED.WIDTH, [7:0] (R196). -/
abbrev HP_WIRED_WIDTH : Fld := ⟨.HP_WIRED, 0, 8⟩
/-- HP_TEL_BASE.ENABLE, [63:63] (R196). -/
abbrev HP_TEL_BASE_ENABLE : Fld := ⟨.HP_TEL_BASE, 63, 1⟩
/-- HP_TEL_BASE.SIZE_LOG2, [36:32] (R196). -/
abbrev HP_TEL_BASE_SIZE_LOG2 : Fld := ⟨.HP_TEL_BASE, 32, 5⟩
/-- HP_TEL_BASE.BASE, [24:0] (R196). -/
abbrev HP_TEL_BASE_BASE : Fld := ⟨.HP_TEL_BASE, 0, 25⟩
/-- HP_TEL_PTR.RD, [51:32] (R196). -/
abbrev HP_TEL_PTR_RD : Fld := ⟨.HP_TEL_PTR, 32, 20⟩
/-- HP_TEL_PTR.WR, [19:0] (R196). -/
abbrev HP_TEL_PTR_WR : Fld := ⟨.HP_TEL_PTR, 0, 20⟩
/-- HP_TEL_RING.DROP, [31:16] (R196). -/
abbrev HP_TEL_RING_DROP : Fld := ⟨.HP_TEL_RING, 16, 16⟩
/-- FAB_PIN_OWNER.CLAIM_REJ, [2:2] (R196). -/
abbrev FAB_PIN_OWNER_CLAIM_REJ : Fld := ⟨.FAB_PIN_OWNER, 2, 1⟩
/-- FAB_PIN_OWNER.OWNER, [1:0] (R196). -/
abbrev FAB_PIN_OWNER_OWNER : Fld := ⟨.FAB_PIN_OWNER, 0, 2⟩
/-- FAB_REGION_CTL.AT_LINE, [63:32] (R196). -/
abbrev FAB_REGION_CTL_AT_LINE : Fld := ⟨.FAB_REGION_CTL, 32, 32⟩
/-- FAB_REGION_CTL.FI_LATE, [31:16] (R196). -/
abbrev FAB_REGION_CTL_FI_LATE : Fld := ⟨.FAB_REGION_CTL, 16, 16⟩
/-- FAB_REGION_CTL.SHADOW_OK, [2:2] (R196). -/
abbrev FAB_REGION_CTL_SHADOW_OK : Fld := ⟨.FAB_REGION_CTL, 2, 1⟩
/-- FAB_REGION_CTL.SWAP, [1:1] (R196). -/
abbrev FAB_REGION_CTL_SWAP : Fld := ⟨.FAB_REGION_CTL, 1, 1⟩
/-- FAB_REGION_CTL.IMMED, [0:0] (R196). -/
abbrev FAB_REGION_CTL_IMMED : Fld := ⟨.FAB_REGION_CTL, 0, 1⟩
/-- CAM_CTL.SWAP_EVT, [2:2] (R214). -/
abbrev CAM_CTL_SWAP_EVT : Fld := ⟨.CAM_CTL, 2, 1⟩
/-- CAM_CTL.LOOP_EN, [1:1] (R214). -/
abbrev CAM_CTL_LOOP_EN : Fld := ⟨.CAM_CTL, 1, 1⟩
/-- CAM_CTL.ENABLE, [0:0] (R214). -/
abbrev CAM_CTL_ENABLE : Fld := ⟨.CAM_CTL, 0, 1⟩
/-- CAM_STATUS.DROP, [63:48] (R214). -/
abbrev CAM_STATUS_DROP : Fld := ⟨.CAM_STATUS, 48, 16⟩
/-- CAM_STATUS.TIMEOUT, [47:32] (R214). -/
abbrev CAM_STATUS_TIMEOUT : Fld := ⟨.CAM_STATUS, 32, 16⟩
/-- CAM_STATUS.LOST, [7:4] (R214). -/
abbrev CAM_STATUS_LOST : Fld := ⟨.CAM_STATUS, 4, 4⟩
/-- CAM_STATUS.UP, [3:0] (R214). -/
abbrev CAM_STATUS_UP : Fld := ⟨.CAM_STATUS, 0, 4⟩
/-- CAM_TSWAP.REQ, [63:63] (R214). -/
abbrev CAM_TSWAP_REQ : Fld := ⟨.CAM_TSWAP, 63, 1⟩
/-- CAM_TSWAP.REJ, [62:62] (R214). -/
abbrev CAM_TSWAP_REJ : Fld := ⟨.CAM_TSWAP, 62, 1⟩
/-- CAM_TSWAP.ACTIVE, [61:61] (R214). -/
abbrev CAM_TSWAP_ACTIVE : Fld := ⟨.CAM_TSWAP, 61, 1⟩
/-- CAM_TSWAP.AT_LINE, [31:0] (R214). -/
abbrev CAM_TSWAP_AT_LINE : Fld := ⟨.CAM_TSWAP, 0, 32⟩
/-- CAM_CAM_CFG.ENABLE, [63:63] (R214). -/
abbrev CAM_CAM_CFG_ENABLE : Fld := ⟨.CAM_CAM_CFG, 63, 1⟩
/-- CAM_CAM_CFG.TRIG, [62:61] (R214). -/
abbrev CAM_CAM_CFG_TRIG : Fld := ⟨.CAM_CAM_CFG, 61, 2⟩
/-- CAM_CAM_CFG.CORR_BYP, [60:60] (R214). -/
abbrev CAM_CAM_CFG_CORR_BYP : Fld := ⟨.CAM_CAM_CFG, 60, 1⟩
/-- CAM_CAM_CFG.PLANES, [59:58] (R214). -/
abbrev CAM_CAM_CFG_PLANES : Fld := ⟨.CAM_CAM_CFG, 58, 2⟩
/-- CAM_CAM_CFG.LINKS, [57:56] (R214). -/
abbrev CAM_CAM_CFG_LINKS : Fld := ⟨.CAM_CAM_CFG, 56, 2⟩
/-- CAM_CAM_CFG.SPEED, [55:52] (R214). -/
abbrev CAM_CAM_CFG_SPEED : Fld := ⟨.CAM_CAM_CFG, 52, 4⟩
/-- CAM_CAM_CFG.FMT, [51:49] (R214). -/
abbrev CAM_CAM_CFG_FMT : Fld := ⟨.CAM_CAM_CFG, 49, 3⟩
/-- CAM_CAM_CFG.DIST_LINES, [48:32] (R214). -/
abbrev CAM_CAM_CFG_DIST_LINES : Fld := ⟨.CAM_CAM_CFG, 32, 17⟩
/-- CAM_CAM_CFG.LINE_TO, [31:15] (R214). -/
abbrev CAM_CAM_CFG_LINE_TO : Fld := ⟨.CAM_CAM_CFG, 15, 17⟩
/-- CAM_CAM_CFG.PIXELS, [14:0] (R214). -/
abbrev CAM_CAM_CFG_PIXELS : Fld := ⟨.CAM_CAM_CFG, 0, 15⟩
/-- JS_REBUILD.PCT, [15:8] (R240). -/
abbrev JS_REBUILD_PCT : Fld := ⟨.JS_REBUILD, 8, 8⟩
/-- JS_REBUILD.SLOT, [7:4] (R240). -/
abbrev JS_REBUILD_SLOT : Fld := ⟨.JS_REBUILD, 4, 4⟩
/-- JS_REBUILD.RUNNING, [3:3] (R240). -/
abbrev JS_REBUILD_RUNNING : Fld := ⟨.JS_REBUILD, 3, 1⟩
/-- JS_REBUILD.PAUSE, [1:1] (R240). -/
abbrev JS_REBUILD_PAUSE : Fld := ⟨.JS_REBUILD, 1, 1⟩
/-- JS_REBUILD.DEFER, [0:0] (R240). -/
abbrev JS_REBUILD_DEFER : Fld := ⟨.JS_REBUILD, 0, 1⟩
/-- JS_SLED_CTL.REJ, [9:9] (R240). -/
abbrev JS_SLED_CTL_REJ : Fld := ⟨.JS_SLED_CTL, 9, 1⟩
/-- JS_SLED_CTL.OFFLINE, [8:8] (R240). -/
abbrev JS_SLED_CTL_OFFLINE : Fld := ⟨.JS_SLED_CTL, 8, 1⟩
/-- JS_SLED_CTL.STATE, [2:0] (R240). -/
abbrev JS_SLED_CTL_STATE : Fld := ⟨.JS_SLED_CTL, 0, 3⟩
/-- JS_QUOTA.RD_RATE, [63:48] (R240). -/
abbrev JS_QUOTA_RD_RATE : Fld := ⟨.JS_QUOTA, 48, 16⟩
/-- JS_QUOTA.WR_RATE, [47:32] (R240). -/
abbrev JS_QUOTA_WR_RATE : Fld := ⟨.JS_QUOTA, 32, 16⟩
/-- JS_QUOTA.BURST, [31:20] (R240). -/
abbrev JS_QUOTA_BURST : Fld := ⟨.JS_QUOTA, 20, 12⟩
/-- JS_QUOTA.LATE_US, [19:0] (R240). -/
abbrev JS_QUOTA_LATE_US : Fld := ⟨.JS_QUOTA, 0, 20⟩
/-- JS_CAPQ.USED_GB, [63:32] (R240). -/
abbrev JS_CAPQ_USED_GB : Fld := ⟨.JS_CAPQ, 32, 32⟩
/-- JS_CAPQ.LIMIT_GB, [31:0] (R240). -/
abbrev JS_CAPQ_LIMIT_GB : Fld := ⟨.JS_CAPQ, 0, 32⟩
/-- JS_MEDIA.PATROL_D, [23:16] (R240). -/
abbrev JS_MEDIA_PATROL_D : Fld := ⟨.JS_MEDIA, 16, 8⟩
/-- JS_MEDIA.REFRESH_AGE_D, [15:0] (R240). -/
abbrev JS_MEDIA_REFRESH_AGE_D : Fld := ⟨.JS_MEDIA, 0, 16⟩
/-- DDR_MIRROR.SIZE, [4:0] (R306). -/
abbrev DDR_MIRROR_SIZE : Fld := ⟨.DDR_MIRROR, 0, 5⟩
/-- DDR_STATUS.LOST, [7:4] (R306). -/
abbrev DDR_STATUS_LOST : Fld := ⟨.DDR_STATUS, 4, 4⟩
/-- DDR_STATUS.UP, [3:0] (R306). -/
abbrev DDR_STATUS_UP : Fld := ⟨.DDR_STATUS, 0, 4⟩

end Sys2Proof.Machine.F

namespace Sys2Proof.Machine

/-- The key of an instance in the register file. -/
def regKey (r : RegName) (i : Nat) : Nat := r.ctorIdx * 1024 + i

/-- The reset value of an instance: the table's, and PF rights for HST_PERM0 (R275). -/
def regReset (r : RegName) (i : Nat) : DWord :=
  if r = .HST_PERM ∧ i = 0 then 0x1F else (regInfo r).reset

/-- The reset value by key. -/
def regResetKey (k : Nat) : DWord :=
  match allRegs[k / 1024]? with
  | some r => regReset r (k % 1024)
  | none => 0

/-- The BAR0 offset of an instance (R243, R275). -/
def regAddr (r : RegName) (i : Nat) : Nat :=
  let page := 0x400000 + 0x10000 * (i / 64)
  let ring := 0x20 * (i % 64)
  match r with
  | .HST_SQ_BASE => page + ring
  | .HST_SQ_CFG => page + ring + 0x8
  | .HST_SQ_PTR => page + ring + 0x10
  | .HST_CQ_BASE => page + 0x800 + ring
  | .HST_CQ_CFG => page + 0x808 + ring
  | .HST_CQ_PTR => page + 0x810 + ring
  | .HST_EQ_BASE => 0x401000 + 0x10000 * i
  | .HST_EQ_CFG => 0x401008 + 0x10000 * i
  | .HST_EQ_PTR => 0x401010 + 0x10000 * i
  | .HST_FN_ERR => 0x401100 + 0x10000 * i
  | .HST_EVT_MASK => 0x401108 + 0x10000 * i
  | .HST_EVT_LOST => 0x401110 + 0x10000 * i
  | r => (regInfo r).addr + (regInfo r).stride * i

/-- The instance index of a register that the offset `a` falls into, if the register lies there. -/
def regIndexAt (r : RegName) (a : Nat) : Option Nat :=
  let b := (regInfo r).width / 8
  let n := (regInfo r).count
  let guess :=
    match r with
    | .HST_SQ_BASE | .HST_SQ_CFG | .HST_SQ_PTR | .HST_CQ_BASE | .HST_CQ_CFG | .HST_CQ_PTR =>
      (a - 0x400000) / 0x10000 * 64 + (a % 0x800) / 0x20
    | .HST_EQ_BASE | .HST_EQ_CFG | .HST_EQ_PTR | .HST_FN_ERR | .HST_EVT_MASK | .HST_EVT_LOST =>
      (a - 0x400000) / 0x10000
    | r => if (regInfo r).stride = 0 then 0 else (a - (regInfo r).addr) / (regInfo r).stride
  if guess < n ∧ regAddr r guess ≤ a ∧ a < regAddr r guess + b then some guess else none

/-- The register at a BAR0 offset, with the instance, and whether the offset lies in its high half. -/
def regAt (a : Nat) : Option (RegName × Nat × Bool) :=
  allRegs.findSome? (fun r => (regIndexAt r a).map (fun i => (r, i, decide (regAddr r i + 4 ≤ a))))

/-- The bits [lo + w - 1:lo] of a register. -/
def getBits (v : DWord) (lo w : Nat) : Nat := v.toNat / 2 ^ lo % 2 ^ w

/-- Puts `x` mod 2^w into bits [lo + w - 1:lo]. -/
def setBits (v : DWord) (lo w x : Nat) : DWord :=
  let mask : DWord := BitVec.ofNat 64 ((2 ^ w - 1) * 2 ^ lo)
  (v &&& ~~~mask) ||| (BitVec.ofNat 64 (x % 2 ^ w * 2 ^ lo))

/-- What a software write does to one field (R9, R11). -/
def swField (old new : DWord) (f : FieldSpec) : Nat :=
  let o := getBits old f.lo f.w
  let n := getBits new f.lo f.w
  match f.acc with
  | .rw | .rwh | .cnt | .db => n
  | .w1c => o &&& (n ^^^ (2 ^ f.w - 1))
  | .w1s => o ||| n
  | .ro | .rc => o
  | .wo => n

/-- A software write of a register: each field by its own code, reserved bits kept at 0 (R8, R11). `mask` holds the bits
the access carries (a 32-bit half of a 64-bit register, R7); a field the access does not reach is left alone. -/
def swWrite (fields : List FieldSpec) (mask old new : DWord) : DWord :=
  fields.foldl (fun acc f =>
    let m := getBits mask f.lo f.w
    let merged := (getBits old f.lo f.w &&& (m ^^^ (2 ^ f.w - 1))) ||| (swField old new f &&& m)
    setBits acc f.lo f.w merged) 0

/-- What a software read returns: WO fields read 0 (R9). -/
def swRead (fields : List FieldSpec) (v : DWord) : DWord :=
  fields.foldl (fun acc f => if f.acc = .wo then acc else setBits acc f.lo f.w (getBits v f.lo f.w)) 0

/-- What a read leaves behind: RC fields the read reached are cleared (R9). -/
def swAfterRead (fields : List FieldSpec) (mask v : DWord) : DWord :=
  fields.foldl (fun acc f =>
    if f.acc = .rc ∧ getBits mask f.lo f.w ≠ 0 then setBits acc f.lo f.w 0 else acc) v

end Sys2Proof.Machine
end

