-- ==== Sys2Proof/Machine/State.lean ====
section
/-!
DEFINITION. The state of the block, as plain data: every register, memory, queue and mode the spec gives it, the queue
of waiting commands, and the state right after the power-on reset. Every field's default value is its reset value.
-/

namespace Sys2Proof.Machine

/-- The pieces of a host buffer, as addresses and lengths (R257). -/
abbrev Segs := List (DWord × Nat)

/-! ## Memories (R298) -/

/-- One 8-byte word of a protected memory, with what its check bits say of it (R299-R302): poison never written since
wake, undefined DDR5 contents, a good word, a word with a correctable error and its true data, an uncorrectable word
and its stored bits, or a word of the mirrored region one of whose copies is uncorrectable, with its data (R296). -/
inductive Cell where
  | poison
  | undef
  | ok (d : DWord)
  | ce (d : DWord)
  | ue (d : DWord)
  | mir (d : DWord)
deriving DecidableEq, Repr

/-- A memory of 8-byte words: what an unlisted word is, the index below which unlisted words are undefined instead (the
normal region of DDR5 after the loss of a channel, R297), and the listed words. -/
structure Mem where
  base : Cell
  lost : Nat
  words : SMap Cell
deriving DecidableEq, Repr

/-- A memory with nothing listed. -/
def Mem.of (b : Cell) : Mem := { base := b, lost := 0, words := [] }

/-- What an unlisted word of a memory is. -/
def Mem.dflt (m : Mem) (i : Nat) : Cell := if i < m.lost then .undef else m.base

/-- A plane of grain memory (R61): one bit of each grain, and per Tray-row word (2,048 of them, word 32-bit index in the
plane) whether it is poison, uncorrectable with the stored bits in `data`, or carries a correctable error (R49-R52). -/
structure GPlane where
  data : Plane
  poison : BitVec 2048
  bad : BitVec 2048
  ce : BitVec 2048
deriving DecidableEq, Repr

/-! ## Cores (R72-R74) -/

/-- A segment register (R74). -/
structure Seg where
  base : BitVec 48 := 0
  limit : BitVec 32 := 0
  r : Bool := false
  w : Bool := false
  x : Bool := false
  u : Bool := false
deriving DecidableEq, Repr

/-- What a core is doing. `wfi`: waiting for an interrupt (R99); `sync`: waiting in a.sync (R112); `mcHalt`: machine-check
halt (R99, R136); `stopped`: stopped by a slip, Safe or a restart (R57, R310, R358). -/
inductive Run where
  | running | wfi | sync | mcHalt | stopped
deriving DecidableEq, Repr

/-- A core's registers and state (R72, R73). Registers the spec leaves unpredictable after reset start at 0, CORE_LFSR
at 1 (log 2). -/
structure Core where
  s : Vector Word 32 := Vector.replicate 32 0
  a : Vector (BitVec 72) 4 := Vector.replicate 4 0
  v : Vector (BitVec 128) 16 := Vector.replicate 16 0
  seg : Vector Seg 8 := Vector.replicate 8 {}
  ctl : Word := 2
  flags : Word := 0
  fpstat : Word := 0
  lfsr : Word := 1
  crcpoly : Word := 0
  vstart : Word := 0
  status : Word := 0x11
  tpc : Word := 0
  cause : Word := 0
  faddr : Word := 0
  fppc : Word := 0
  thandler : Word := 0
  scratch : Word := 0
  tstat : Word := 1
  /-- Root PLL count at the core's reset, from which CORE_CYCLE counts (R73, R313). -/
  cycleBase : Nat := 0
  /-- The latched high half of CORE_CYCLE (R7, R73). -/
  cycleLatch : Option Word := none
  pc : Word := 0
  /-- The reserved 8-byte granule: its internal address divided by 8 (R100). -/
  resv : Option Nat := none
  /-- A pending floating-point trap: instructions started since the raising one (R89). -/
  fpPend : Option Nat := none
  /-- A pending machine check (R98). -/
  mcPend : Bool := false
  /-- Pending interrupts, oldest first (R98). -/
  ints : List (BitVec 8) := []
  run : Run := .running
  /-- What the core was doing when a slip stopped it (R57). -/
  was : Run := .running
  /-- Halted by debug (R347), and whether one STEP is granted. -/
  halted : Bool := false
  stepping : Bool := false
deriving DecidableEq, Repr

/-! ## Array sequencers (R111, R116, R130) -/

/-- An AIQ entry (R111): decode index, the values of RD, RA and RB at issue, and the register a scalar result goes to. -/
structure AiqEntry where
  index : Nat
  rd : Word
  ra : Word
  rb : Word
  rdNum : Fin 32
  scalar : Bool
  /-- GRN_EDGE in force at issue (R41). -/
  edge : DWord
  /-- seg1 of the issuing core at issue, for the key list of a.assoc (R113). -/
  keySeg : Seg
deriving DecidableEq, Repr

/-- What the expander is doing with the head entry. `waitg m`: stalled in WAITG MODE m (R44, R117); `done`: the routine
has reached DONE and waits to retire. -/
inductive ExpState where
  | idle | running | waitg (m : Fin 4) | done | abandoned
deriving DecidableEq, Repr

/-- The expander's working state (R116). -/
structure Expander where
  st : ExpState := .idle
  stopped : Bool := false
  upc : Nat := 0
  ar : Vector (BitVec 13) 4 := Vector.replicate 4 0
  ar0 : Vector (BitVec 13) 4 := Vector.replicate 4 0
  wd : Nat := 0
  wa : Nat := 0
  nb : Nat := 0
  stride : Nat := 0
  bcast : DWord := 0
  lc0 : Nat := 0
  lc1 : Nat := 0
  ls0 : Nat := 0
  ls1 : Nat := 0
  ret : Option Nat := none
  result : Word := 0
  issued : Nat := 0
  committed : Bool := false
  key : Nat := 0
  /-- A window has completed since WAITG MODE 0 began (R44). -/
  winSeen : Bool := false
  /-- Tree results on their way: the GCLK each arrives in, whether it is a sum, and its value (R119). -/
  arriving : List (Nat × Bool × Nat) := []
  /-- GCLK spent in R46's interlock beside the issued cycles, and the GCLK of the last nano-word that named F. -/
  held : Nat := 0
  lastF : Option Nat := none
  /-- Indexed reads on their way: the GCLK each is delivered in, whether the A and the B latch take it, and its bits (R38). -/
  reads : List (Nat × Bool × Bool × Plane) := []
  /-- A word failed its parity in the tail: a machine check follows DONE (R135). -/
  tailCheck : Bool := false
  /-- Parity errors met by the running routine: (space, address) (R136). -/
  parity : List (Nat × Nat) := []
deriving DecidableEq, Repr

/-- A G window in progress (R42, R43): its index in the slot, the line leaving in it if it is an output window, whether
it carries camera data, the bits entering and the bits leaving, and whether it has passed its 255th shift and holds. -/
structure Window where
  index : Nat
  outLine : Option Nat
  camera : Bool
  in0 : Plane
  in1 : Plane
  out0 : Plane
  out1 : Plane
deriving DecidableEq, Repr

/-- A processing slot in progress (R22): its number (the line it loads), windows completed, whether it carries inspection
work of a camera line. -/
structure Slot where
  n : Nat
  win : Nat
  inspecting : Bool
deriving DecidableEq, Repr

/-- One Developer's array side. -/
structure Dev where
  aiq : List AiqEntry := []
  ex : Expander := {}
  extMicro : SMap (Option (BitVec 32)) := []
  extNano : SMap (Option (BitVec 128)) := []
  decodeRam : SMap (Option DWord) := []
  cam : SMap (Option DWord) := []
  /-- Decode entries whose last issue met a parity error (R135, R136). -/
  decPar : List Nat := []
  /-- First half of a nano-word being written (R138). -/
  half : Option DWord := none
  win : Option Window := none
  slot : Option Slot := none
  /-- Windows completed of the camera line in feed. -/
  camWin : Nat := 0
  /-- Fog check: next probe, whether a slice runs, lines since a slice (R53, R54). -/
  fogProbe : Nat := 0
  fogRunning : Bool := false
  fogLines : Nat := 0
  /-- Last line checkpoint of R359 and whether a warm restart runs (R358) with its cause. -/
  checkpoint : Option Nat := none
  restarting : Option (Fin 4) := none
  /-- The last 1,024 instruction offsets, newest first, bit 0 set for level S (R366). -/
  pcTrace : List Word := []
deriving DecidableEq, Repr

/-! ## The Emulsion (R30, R31) -/

/-- A plane nothing has been written to since wake: every word holds poison (R52). -/
def GPlane.poisoned : GPlane := { data := 0, poison := BitVec.allOnes 2048, bad := 0, ce := 0 }

/-- The grains' registers and memory (R31). GC and GP bookkeeping of R42 and R117 is kept per partition; `base` is what an
unlisted address holds. -/
structure Grains where
  A : Plane := 0
  B : Plane := 0
  C : Plane := 0
  F : Plane := 0
  M : Plane := BitVec.allOnes 65536
  X : Plane := 0
  G0 : Plane := 0
  G1 : Plane := 0
  GC0 : Plane := 0
  GC1 : Plane := 0
  GP0 : Plane := 0
  GP1 : Plane := 0
  I : Vector Plane 13 := Vector.replicate 13 0
  base : GPlane := GPlane.poisoned
  mem : SMap GPlane := []
  /-- GC bits captured and not yet stored, bit p for partition p. -/
  unstored0 : BitVec 4 := 0
  unstored1 : BitVec 4 := 0
  /-- GP bits loaded since the previous output window opened. -/
  loaded0 : BitVec 4 := 0
  loaded1 : BitVec 4 := 0
  /-- A deferred GRN_GANG write (R48). -/
  gangDeferred : Option (BitVec 2) := none
  /-- A slip in progress: Tray column and physical column (R57). -/
  slip : Option (Fin 8 × Fin 32) := none
deriving DecidableEq, Repr

/-! ## Line input (R141) -/

/-- A band as pushed (R141). -/
structure Band where
  table : Nat
  first : Nat
  lines : Nat
  factor : Nat
  linear : Bool
deriving DecidableEq, Repr

/-- A write of ENL_Pn_BAND_PUSH held for room (R294): the Enlarger, the band as pushed, and who wrote it. -/
structure HeldPush where
  p : Fin 4
  band : Band
  by_ : Agent
deriving DecidableEq, Repr

/-- One Enlarger: queued bands, the band being fed with its next line, the FIRST_LINE the next band must have after a
FLUSH (R388), whether the fed band has passed its check (R147), restarts since the fault, the first line not fed, the
decoded values of the line being fed by row, bands fed whose last line is not complete (R359), the camera queue and the
camera lines fed (R202). -/
structure Enl where
  queue : List Band := []
  cur : Option (Band × Nat) := none
  expect : Option Nat := none
  started : Bool := false
  attempts : Nat := 0
  fed : Nat := 0
  feed : List (List Nat) := []
  past : List Band := []
  camQueue : List Band := []
  camFed : Nat := 0
deriving DecidableEq, Repr

/-! ## Jobs, Hold and the Shutter -/

/-- Who is owed a completion (R249, R250, R255): the source, the function it acts for, CMD_ID, NO_IRQ, QUEUE_WAIT, the
reset generation of its source at acceptance, its number in the acceptance order, and DEV_TIME at the doorbell that made its
descriptor visible (R258). -/
structure CmdRef where
  src : Src
  fn : Fin 8
  cmdId : BitVec 32
  noIrq : Bool
  waitUs : Nat
  gen : Nat
  acc : Nat
  bell : DWord := 0
deriving DecidableEq, Repr

/-- A pending Hold request (R162, R163): the effective boundary, the one asked for, its cause, the HOLD command behind it
with its DURATION_US, ABRUPT, and the Enlarger whose strip fault it is (R147). -/
structure HoldReq where
  b : Nat
  asked : Nat
  cause : Nat
  cmd : Option CmdRef
  dur : Nat
  abrupt : Bool
  strip : Option (Fin 4)
deriving DecidableEq, Repr

/-- A Hold in effect (R162, R163): its boundary, whether every request it merged was a HOLD command, its timer in
microseconds, the Enlargers whose strip faults hold back its end (R147), RESUMEs that wait for them, whether the
timer's end waits, and ABRUPT. -/
structure Held where
  b : Nat
  onlyHold : Bool
  timer : Option Nat
  gated : List (Fin 4)
  waiting : List CmdRef
  endWaits : Bool
  abrupt : Bool
deriving DecidableEq, Repr

/-- One firing group's place in the job (R159, R166): the next line it may arm, the line its timer is armed for, and the
line after the last it fired. -/
structure GroupSt where
  nextArm : Nat := 0
  armed : Option Nat := none
  nextFire : Nat := 0
deriving DecidableEq, Repr

/-- How far a job has come (R265). -/
inductive JobPhase where
  | filling | awaitStart | running
deriving DecidableEq, Repr

/-- A job (R263): the PRINT_START fields and its progress through R22, R149, R152, R166 and R176. -/
structure Job where
  number : Nat
  fn : Fin 8
  cmd : CmdRef
  phase : JobPhase
  reel : BitVec 32
  offset : Nat
  length : Nat
  npgCode : Fin 4
  interleaved : Bool
  inspect : Bool
  channels : Nat
  startMode : Fin 4
  startIn : Fin 16
  printProg : Nat
  inspProg : Nat
  rateMax : Nat
  /-- Its store rate in MB/s (R239). -/
  storeRate : Nat
  milestones : List Nat
  /-- PRINT_START's completion has been posted. -/
  posted : Bool
  /-- The next processing slot, which is the line it loads (R22). -/
  nextSlot : Nat
  /-- Lines 0 to complete − 1 have left the array. -/
  complete : Nat
  /-- Lines 0 to claimed − 1 have been claimed. -/
  claimed : Nat
  /-- Lines that fire blank: missed at their claim, or superseded for unreadable Reserve words (R152, R153). -/
  missed : List Nat
  /-- Lines with a stale frame (R176), and lines some wired group has strobed (R176). -/
  stale : List Nat
  strobed : List Nat
  groups : Vector GroupSt 64
  /-- Lines fired on all groups: 0 to fired − 1. -/
  fired : Nat
  /-- The open run of blank lines and of stale lines: first line and length (R152, R176). -/
  blankRun : Option (Nat × Nat)
  staleRun : Option (Nat × Nat)
  /-- The declarations of the print and inspection programs in force (R165). -/
  image : ProgramImage
  inspImage : Option ProgramImage
  /-- The boundary an ABORT waits for, and the ABORTs (R262). -/
  abortAt : Option Nat
  aborts : List CmdRef
  /-- Lines counted as inspected or skipped: the group of four slots of R26 that a camera line is bound to. -/
  camGroup : Option Nat
  /-- The camera line of the group has begun to enter (R26). -/
  camOpened : Bool := false
deriving DecidableEq, Repr

/-- An encoder channel's accepted levels and time since its last count (R156). -/
structure EncSt where
  a : Bool := false
  b : Bool := false
  counted : Bool := false
  /-- Its supply is folded back (R376). -/
  folded : Bool := false
deriving DecidableEq, Repr

/-- An industrial output (R379): its timer pulse is on, it is overloaded, it is held off since Safe. -/
structure DoutSt where
  pulse : Bool := false
  overload : Bool := false
  heldOff : Bool := false
  /-- CALIBRATE drives it (R212): the level. -/
  calib : Option Bool := none
deriving DecidableEq, Repr

/-- A scanning swath (R161): its number in the job and whether it is armed. -/
structure SwathSt where
  number : Nat := 0
  armed : Bool := true
deriving DecidableEq, Repr

/-- The Shutter's state beside its registers. HIGH is that of R158. -/
structure Sht where
  high : Int := 0
  enc : Vector EncSt 4 := Vector.replicate 4 {}
  holdReqs : List HoldReq := []
  held : Option Held := none
  /-- STARVE_WARN is armed, and HOLD_REQ is driven (R151). -/
  warnArmed : Bool := true
  holdReqDriven : Bool := false
  swath : SwathSt := {}
  dout : Vector DoutSt 16 := Vector.replicate 16 {}
  /-- Wired outputs pulsing (R185). -/
  wired : BitVec 16 := 0
  /-- DEV_TIME at which each wired output's pulse ends (R185). -/
  wiredEnd : Vector DWord 16 := Vector.replicate 16 0
  /-- Jobs started since power-on (R265). -/
  jobs : Nat := 0
deriving DecidableEq, Repr

/-! ## Head ports and fabric -/

/-- A frame of R171 as kept in a lane's window. -/
structure Frame where
  seq : BitVec 8
  line : Nat
  head : Nat
  group : Nat
  first : Nat
  count : Nat
  sends : Nat
  stale : Bool
deriving DecidableEq, Repr

/-- A serial lane (R174, R181). -/
structure Lane where
  present : Bool := false
  rated : Bool := false
  readyRx : Nat := 0
  readyTx : Nat := 0
  heads : Nat := 0
  maxnoz : Nat := 0
  next : BitVec 8 := 0
  window : List Frame := []
  /-- The line whose frames are being sent, and how many of them have gone. -/
  line : Nat := 0
  frame : Nat := 0
  timeouts : Nat := 0
  /-- Lines some frame of which has been sent and which have not fired on all groups. -/
  sentLines : List Nat := []
  /-- When its pending blocks begin, in fifths of a nanosecond of DEV_TIME, and the time of each with whether it is a FIRE (R177). -/
  at_ : Nat := 0
  blocks : List (Nat × Bool) := []
  /-- It has failed as a lane of a pair and has not come UP since (R184). -/
  broken : Bool := false
deriving DecidableEq, Repr

/-- A fabric cell (R187): registers, and the values OUT took at the ends of its last cycles with the cycle numbers, newest
first (R189). -/
structure CellSt where
  da : BitVec 16 := 0
  db : BitVec 16 := 0
  out : BitVec 16 := 0
  h : BitVec 16 := 0
  fl : Bool := false
  ep : Nat := 0
  cyc : Nat := 0
  hist : List (Nat × BitVec 16) := []
deriving DecidableEq, Repr

/-- A MAC slice (R190): ACC, and the values it took with the cycle of the MACW, newest first. -/
structure MacSt where
  acc : BitVec 48 := 0
  hist : List (Nat × BitVec 48) := []
deriving DecidableEq, Repr

/-- A fabric region (R187, R194): images, cells, slices, the head stream, the fire input, and its pins. -/
structure Region where
  active : Option RegionImage := none
  shadow : Option RegionImage := none
  cells : SMap CellSt := []
  macs : SMap MacSt := []
  hs : List (BitVec 16 × Bool) := []
  /-- The word at the fire input and the cycle it shows in (R186). -/
  fi : BitVec 16 := 0
  fiAt : Nat := 0
  stopped : Bool := false
  /-- Output enables of the port's pins (R188, R191). -/
  pinOe : BitVec 20 := 0
  /-- The level that each pin was last driven to (R191). -/
  pinHeld : BitVec 20 := 0
  /-- Words left of the Gen A run in delivery (R186). -/
  run : Nat := 0
deriving DecidableEq, Repr

/-! ## Camera loop -/

/-- A camera line held in its ring (R199): its tag and its corrected planes. -/
structure CamLine where
  tag : Nat
  /-- Where it begins in its ring, and the pixels of each plane. -/
  at_ : Nat
  sizes : List Nat
deriving DecidableEq, Repr

/-- Camera state beside the registers (R198-R202, R207, R212, R213). -/
structure CamSt where
  rings : Vector (List CamLine) 4 := Vector.replicate 4 []
  /-- Where the next line of each ring begins. -/
  heads : Vector Nat 4 := Vector.replicate 4 0
  /-- Tags whose trigger has been sent and whose line has not arrived, by camera. -/
  due : Vector (List Nat) 4 := Vector.replicate 4 []
  /-- Tags with a discarded line, which the loop does not evaluate (R199). -/
  dropped : List Nat := []
  /-- Registration table (R201): per registered column the camera and the 16.16 position. -/
  regTable : List (Fin 4 × Nat) := []
  /-- CH_OFS by channel × 64 + head (R201). -/
  chOfs : SMap Int := []
  moverLine : Nat := 0
  rotate : Nat := 0
  outHold : Nat := 0
  /-- The line that the pending bank swap was requested for (R207). -/
  swapAt : Nat := 0
  /-- The landing-error map, and the initial class and gain of each nozzle, that the last calibration run found (R213). -/
  landing : List Int := []
  classes : List (Nat × Fin 4 × BitVec 6) := []
deriving DecidableEq, Repr

/-! ## Job store -/

inductive ReelState where
  | open | closed | inUse
deriving DecidableEq, Repr

/-- A Reel (R217-R223). `holder` is the function whose JOB_LOAD or job holds it. -/
structure Reel where
  gen : Nat
  state : ReelState
  owner : Fin 8
  length : Nat
  data : SMap Byte
  imported : Bool
  /-- Its key as the store keeps it: wrapped under the store KEK (R223). -/
  key : BitVec 320
  chunkWrites : SMap Nat
  /-- The tag of each chunk (R223). -/
  tags : SMap (BitVec 128)
  /-- The stripe of the store that each 960 KiB of it lies on, once it is programmed (R215, R235). -/
  stripes : SMap (Option Nat)
  loaded : Bool
  /-- The lines that JOB_LOAD has prefetched: the first and how many (R266). -/
  prefetched : Nat × Nat := (0, 0)
deriving DecidableEq, Repr

/-- A write accepted and not yet durable, a read admitted and not yet served, or a store command that waits for its bucket
(R219, R226, R227, R235). For a REEL_READ: the host address, how the media serves those of the Reel's codewords that the hard
decode does not, and, of the chunks whose first tag check fails, whether the rebuilt chunk passes (R224, R228). -/
structure PendWrite where
  cmd : CmdRef
  handle : BitVec 32
  offset : Nat
  length : Nat
  data : List Byte
  close : Bool
  read : Bool
  deadline : Nat
  /-- PRIORITY of its descriptor (R249). -/
  prio : Nat
  host : Segs
  media : List (Nat × MediaVerdict)
  tags : List (Nat × Bool)
deriving DecidableEq, Repr

inductive StoreState where
  | full | degraded | rebuilding | failed
deriving DecidableEq, Repr

/-- A sled (R233, R237): state 0 empty, 1 online, 2 offline, 3 rebuilding, 4 failed. Of what needed step 2 and step 3, and of what
refresh rewrote, the times are kept (R233: a sliding window of 24 hours). -/
structure Sled where
  state : Fin 5 := 1
  retired : Nat := 0
  sparePct : Nat := 100
  serial : BitVec 128 := 0
  retries : List DWord := []
  soft : List DWord := []
  rebuilt : Nat := 0
  lost : Nat := 0
  /-- By block: patrols that found it needing step 3 (R232). -/
  step3 : SMap Nat := []
  /-- When refresh rewrote a stripe unit, and the bytes programmed since the sled came in. -/
  refreshed : List DWord := []
  written : Nat := 0
  /-- DEV_TIME when it came in. -/
  since : DWord := 0
  /-- A replacement accepted for rebuild (R237). -/
  accepted : Bool := false
deriving DecidableEq, Repr

/-- A programmed stripe unit (R215, R230): its sled and stripe, its temperature-weighted age and, for each of its 16 codewords, the
time since it was last read, in TCLK periods. -/
structure FlashUnit where
  sled : Fin 16
  stripe : Nat
  age : Nat
  unread : List Nat
deriving DecidableEq, Repr

/-- The job store: `waiting` holds the store commands that wait for their buckets, `writes` the admitted writes that are not
durable, `reads` the admitted reads that are not served. The buckets of R226 count two-hundredths of a byte, so that a TCLK period
adds RATE to them. -/
structure Store where
  reels : SMap (Option Reel) := []
  gens : SMap Nat := []
  waiting : List PendWrite := []
  writes : List PendWrite := []
  reads : List PendWrite := []
  readTok : Vector Int 8 := Vector.replicate 8 0
  writeTok : Vector Int 8 := Vector.replicate 8 0
  state : StoreState := .full
  prior : StoreState := .full
  lostHealthy : Option (Fin 16) := none
  sleds : Vector Sled 16 := Vector.replicate 16 {}
  rebuildSlot : Option (Fin 16) := none
  deferred : Bool := false
  checkpointGB : Nat := 0
  reclaim : Nat := 0
  /-- Stripes of deleted Reels that are not erased (R220). -/
  unerased : List Nat := []
  /-- The programmed stripe units (R230). -/
  units : List FlashUnit := []
  /-- Stripe units that wait for refresh by error trend: sled and stripe; whether refresh stands ahead of the host classes (R230). -/
  refresh : List (Fin 16 × Nat) := []
  refreshFirst : Bool := false
  /-- What the power-on patrol has still to read, oldest data first, and what PATROL_D has made overdue: sled and codeword (R230). -/
  toPatrol : List (Fin 16 × Nat) := []
  overdue : List (Fin 16 × Nat) := []
  writesBarred : Bool := false
  /-- Strips of a class 0 read that could not be delivered: first line, and the boundary of the Hold (R229). -/
  undelivered : List (Nat × Nat) := []
  /-- The partial stripes that the power-loss-protected buffer holds (R235, R323): Reel handle, stripe of the Reel, and its written
  blocks of 4 KiB. -/
  buffered : List (BitVec 32 × Nat × BitVec 240) := []
deriving DecidableEq, Repr

/-! ## Host interface -/

/-- A completion or event entry (R259) without its PHASE; `acc` is the acceptance number of the command it completes. -/
structure Entry where
  acc : Nat
  event : Bool
  code : BitVec 32
  status : BitVec 8
  sqId : BitVec 8
  sqHead : BitVec 16
  result : DWord
  waitUs : Nat
  time : BitVec 48
  noIrq : Bool
deriving DecidableEq, Repr

/-- A ring's state beside its registers (R246-R255): entries posted and not consumed with their PHASE (oldest first),
entries waiting for room, entries counted for R252, whether its coalescing time runs, whether it drains towards
ENABLED = 0, whether an error has stopped it (R254), the acceptance numbers of its commands whose completions are not
posted, the last value written to its doorbell (R9, R248), and DEV_TIME at the doorbell of each descriptor not yet fetched (R258). -/
structure Ring where
  slots : List (Entry × Bool) := []
  waiting : List Entry := []
  pend : Nat := 0
  timing : Bool := false
  draining : Bool := false
  stopped : Bool := false
  owed : List Nat := []
  door : DWord := 0
  bells : List DWord := []
deriving DecidableEq, Repr

/-- A function (R242-R255): event sequence number and backlog; MSI-X vectors masked and pending (R244, R252; log 50) and the
table's other dwords; FIRST_LINE its next host-form load must have, and the host-form loads it has submitted, by source and
acceptance number (R391); its reset generation (R255). -/
structure Fn where
  evSeq : BitVec 16 := 0
  backlog : List Entry := []
  masked : BitVec 64 := BitVec.allOnes 64
  pendingVec : BitVec 64 := 0
  msixTable : SMap Word := []
  nextLoad : Nat := 0
  loadAccs : List (Src × Nat) := []
  gen : Nat := 0
deriving DecidableEq, Repr

/-- A host-form load that waits (R266, R389-R391): its place in the print region once it is being read (log 23). -/
structure HostLoad where
  cmd : CmdRef
  fn : Fin 8
  first : Nat
  lines : Nat
  linear : Bool
  data : List Byte
  dataErr : Bool
  reading : Option Nat
  /-- DEADLINE_US and PRIORITY of its descriptor (R249, R258). -/
  deadline : Nat := 0
  prio : Nat := 0
deriving DecidableEq, Repr

/-- A host-form load that has completed and whose lines are not all fed: its place in the print region, and whether its
bands have been pushed (R389, log 23). -/
structure Staged where
  fn : Fin 8
  first : Nat
  lines : Nat
  linear : Bool
  data : List Byte
  place : Nat
  pushed : Bool
deriving DecidableEq, Repr

/-- A TABLE_UPDATE or PROGRAM_CHANGE that waits for its line (R165, R268). -/
structure Pending where
  cmd : CmdRef
  fn : Fin 8
  line : Nat
  /-- A program change (print slot, inspection slot), or none for a table update. -/
  change : Option (Nat × Nat)
  table : Nat
  insp : Bool
  plane : Nat
  data : List Byte
  arrived : Bool
  late : Bool
  /-- Held in Ready for the function's next PRINT_START (R268). -/
  held : Bool
deriving DecidableEq, Repr

/-- A command accepted and not started (R249). -/
structure Accepted where
  cmd : CmdRef
  desc : Desc
  /-- The data that followed it in its SUBMIT (R274). -/
  data : List Byte := []
deriving DecidableEq, Repr

/-- An Ethernet session (R272-R274); `room` says whether its connection takes events, which otherwise wait in `backlog` (R253). -/
structure Session where
  port : Fin 2
  fn : Option (Fin 8)
  mask : DWord
  owed : List Nat
  accepted : Nat
  evSeq : BitVec 16
  seqOut : Nat
  room : Bool := true
  backlog : List Entry := []
deriving DecidableEq, Repr

/-- A block on a lane, a pulse, a message: what the module drives on its connectors (log 14). -/
inductive Out where
  | entry (fn : Nat) (ring : Nat) (e : Entry) (addr : DWord) (data : List Byte)
  | capsule (session : Nat) (kind : Nat) (e : Option Entry) (data : List Byte)
  | hostRead (fn : Nat) (addr : DWord) (n : Nat)
  | hostWrite (fn : Nat) (addr : DWord) (data : List Byte)
  | msix (fn : Nat) (vec : Nat)
  | value (v : DWord)
  | bytes (b : List Byte)
  | poisoned
  | idle (lane : Nat)
  | fire (lane : Nat) (group : Nat) (line : Nat) (blank rev : Bool) (delay : Nat)
  | cancel (lane : Nat) (line : Nat)
  | frame (lane port : Nat) (f : Frame) (retx : Bool) (codes : List (BitVec 2))
  | link (lane : Nat) (state : Nat)
  | wired (w : Nat) (level : Bool) (ticks : Nat)
  | pins (region : Nat) (driven level : BitVec 20)
  | dout (o : Nat) (on : Bool)
  | camTrigger (cam : Nat) (tag : Int)
  | camControl (a : CamAccess)
  | calibStep (step : Nat) (channel : Nat) (band : Nat) (lines : Nat)
  | fabEvent (event : Nat)
  | fifoHead (valid : Bool) (v : DWord)
  | encPower (ch : Nat) (on : Bool)
  | tap (status : Nat) (v : DWord)
  | tapInstr (name : String)
  | loupe (pin : Nat) (src : Nat)
  | slipHook (d : Nat)
  | refetch (p : Nat) (line : Nat)
  | refused (status : Nat)
  | netRequest (p : Packet)
  | netResponse (p : Packet) (status : Nat) (waitUs : Nat) (poison : Bool)
  | linkDown (router : Nat) (dir : Nat)
  | uart (ok : Bool)
  | led (sled : Nat) (code : Nat)
deriving DecidableEq, Repr

/-- The host interface. Rings are keyed 129f + n: SQ n at n, CQ n at 64 + n, the event ring at 128. -/
structure Hst where
  fns : Vector Fn 8 := Vector.replicate 8 {}
  rings : SMap Ring := []
  linkUp : Bool := false
  /-- The generation, 1 to 5, and the width in lanes that the link trained to (R241). -/
  linkGen : Fin 6 := 0
  linkLanes : Nat := 0
  accepted : List Accepted := []
  loads : List HostLoad := []
  pending : List Pending := []
  sessions : SMap (Option Session) := []
  sessGen : Vector Nat 8 := Vector.replicate 8 0
  /-- Commands accepted so far (R249). -/
  accCount : Nat := 0
  programs : SMap (Option ProgramImage) := []
  /-- Images of kinds 0-4 by kind × 16 + slot (R327, R328): the copy that boots first (`bootImages`) and the other (`stagedImages`), with
  the state of the other (0 the previous copy, 1 staged, 2 marked to boot first), and of regions the contents of each copy. -/
  stagedImages : SMap (Option ImageVerdict) := []
  activated : SMap Nat := []
  bootImages : SMap (Option ImageVerdict) := []
  regionImages : SMap (Option RegionImage) := []
  regionReady : SMap (Option RegionImage) := []
  staged : List Staged := []
  /-- Band tables placed so far (log 23). -/
  tables : Nat := 0
deriving DecidableEq, Repr

/-! ## Network and memory -/

/-- An outstanding request of an NI (R283): `held` while no route can carry it (R284), `early` once a link has failed after it was
sent; `pkt` is the request as it is sent again. -/
structure NetReq where
  dst : Nat
  seq : BitVec 8
  epoch : BitVec 4
  read : Bool
  held : Bool
  early : Bool := false
  pkt : Packet
deriving DecidableEq, Repr

/-- A packet on its way (R285-R287): its head flit with the URG it has reached, the router it stands at, the input it came in by
(0-3 the N, E, S, W link, 4 the local port), the hops it has taken, the NCLK until it competes, how long it has waited at this
output and in all, and whether it has reached the NI of its destination. -/
structure Flight where
  pkt : Packet
  at_ : Nat
  input : Nat
  hop : Nat
  ready : Nat
  waited : Nat
  total : Nat
  arrived : Bool
deriving DecidableEq, Repr

/-- An outcome a target recorded (R283). -/
structure Outcome8 where
  src : Nat
  seq : BitVec 8
  status : Nat
  data : List Byte
deriving DecidableEq, Repr

/-- A network interface (R280-R292). `credits` holds the credits left by destination, 1 where no COMMIT has set them (R288);
`waitReqs` the requests that wait at this source for a route, a credit or earlier responses (R283, R284, R288); `heldReqs` the
requests this target holds while its domain is off, with DEV_TIME at their arrival (R290). -/
structure Ni where
  written : SMap DWord := []
  inForce : SMap DWord := []
  credits : SMap Nat := []
  seq : SMap (BitVec 8) := []
  reqs : List NetReq := []
  recorded : List Outcome8 := []
  heldReqs : List (Packet × DWord) := []
  waitReqs : List Packet := []
  powered : Bool := true
  resetting : Bool := false
deriving DecidableEq, Repr

/-- A range pass in progress (R304). -/
structure ScanPass where
  mem : Nat
  start : Nat
  length : Nat
  cmd : Option (CmdRef × Segs)
deriving DecidableEq, Repr

/-- The network and the memory controllers. Link 2r is router r's E link, link 2r + 1 its S link (R276). -/
structure Net where
  nis : Vector Ni 36 := Vector.replicate 36 {}
  down : List Nat := []
  /-- Times in TCLK of a link's last failed retries, newest first (R282). -/
  retries : SMap (List Nat) := []
  /-- Links repaired and retrained, which the next COMMIT that uses them returns to service (R284). -/
  retrained : List Nat := []
  scrubPos : SMap Nat := []
  scan : Option ScanPass := none
  /-- A second ARM kept for the write after the pending one (R305). -/
  armAgain : Bool := false
  /-- Packets the module has injected that have not arrived, in the order of their injection (R285-R287). -/
  flights : List Flight := []
  /-- By router output 5r + o (0-3 the N, E, S, W link, 4 the local port): the input granted last, and the NCLK period from which
  the output is free again (R287). -/
  outputs : SMap (Nat × Nat) := []
deriving DecidableEq, Repr

/-- The word-organised memories (R298). -/
structure Mems where
  staging : Mem := (Mem.of .poison)
  reserve : Mem := (Mem.of .poison)
  ddr : Mem := (Mem.of .undef)
  /-- DDR5 channels lost (R297), one bit each. -/
  ddrLost : Nat := 0
  devI : Vector Mem 4 := Vector.replicate 4 (Mem.of .poison)
  devD : Vector Mem 4 := Vector.replicate 4 (Mem.of .poison)
  mc : Vector Mem 4 := Vector.replicate 4 (Mem.of .poison)
  camCorr : Mem := (Mem.of .poison)
  nmap : SMap (BitVec 32) := []
deriving DecidableEq, Repr

/-! ## Modes, power, security -/

/-- A draining MODE_SET (R311). -/
structure Drain where
  target : Nat
  cmd : CmdRef
deriving DecidableEq, Repr

/-- Power, reference and thermal state (R307-R323, R384). -/
structure Pwr where
  drain : Option Drain := none
  bootFrom : Nat := 0
  shortBoot : Bool := false
  /-- A D2 session in SEALED ended at the power-down: the wake boots in full (R344). -/
  fullBoot : Bool := false
  lost : BitVec 2 := 0
  cartOut : BitVec 2 := 0
  cartFault : BitVec 2 := 0
  holdingUp : Bool := false
  trayOut : Bool := false
  fieldLow : Bool := true
  /-- Fabric regions both of whose images failed at boot (R325). -/
  fabFailed : BitVec 16 := 0
deriving DecidableEq, Repr

/-- The fuse array (R331): lifecycle fields, serial, hashes, minimum versions, and whether DEV_SECRET is destroyed. -/
structure Fuses where
  lcOpen : BitVec 8 := 0
  lcSealed : BitVec 8 := 0
  lcReturned : BitVec 8 := 0
  serial : DWord := 0
  kgRootHash : BitVec 384 := 0
  oemHash : BitVec 384 := 0
  minSvn : Vector (BitVec 32) 5 := Vector.replicate 5 0
  secretDestroyed : Bool := false
deriving DecidableEq, Repr

/-- Who owns the debug session (R339). -/
inductive DbgOwner where
  | jtag | pf
deriving DecidableEq, Repr

/-- Security and debug state (R332-R349). -/
structure SecSt where
  lcPending : Option (Fin 4) := none
  lcHash : BitVec 384 := 0
  keySlots : BitVec 16 := 0
  /-- The imported keys that the slots hold, wrapped under the store KEK (R223). -/
  keys : Vector (BitVec 320) 16 := Vector.replicate 16 0
  kekWithheld : Bool := false
  owner : Option DbgOwner := none
  readActAllowed : Bool := false
  nonce : Bool := false
  verifying : Bool := false
  /-- Who wrote GO for the token being verified. -/
  asker : Option DbgOwner := none
  /-- Print-gang Developers whose halt waits for HOLD_REACHED (R348), one bit each. -/
  haltPending : BitVec 4 := 0
  tapLast : Option (Nat × DWord) := none
deriving DecidableEq, Repr

/-- A Contact Sheet record (R363) without its CRC, which is computed from the rest. `data` holds the values R364 names for
the TYPE, in its order (their places in DATA are not given, log 18); `merged` is the count at DATA[31:28]. -/
structure CsRecord where
  seq : BitVec 32
  ty : Nat
  source : Nat
  flags : BitVec 8
  time : DWord
  line : BitVec 32
  mode : Nat
  redund : Nat
  powerOn : BitVec 16
  data : List Nat
  merged : Option Nat
  job : Nat
deriving DecidableEq, Repr

/-- A network transaction of the trace (R366). -/
structure NetTrace where
  time : BitVec 32
  src : Nat
  dst : Nat
  vn : Nat
  op : Nat
  bclass : Nat
  seq : BitVec 8
  status : Nat
  addr : BitVec 48
  bytes : Nat
deriving DecidableEq, Repr

/-- A Shutter line record of the trace (R366). -/
structure ShtTrace where
  line : Nat
  tick : Int
  time : DWord
  groups : BitVec 64
  depth : Nat
  inflight : Nat
  flags : BitVec 5
deriving DecidableEq, Repr

/-- The Contact Sheet (R363-R367): records newest first, the queue oldest first, merge windows (type, source, others), the
trace buffers newest first, the record of the trigger being committed, and the power-on count. -/
structure Cs where
  records : List CsRecord := []
  queue : List CsRecord := []
  merging : List (Nat × Nat × Nat) := []
  net : List NetTrace := []
  sht : List ShtTrace := []
  trigger : Option CsRecord := none
  powerOns : Nat := 0
deriving DecidableEq, Repr

/-! ## The whole state -/

/-- The state of the block. `free` (log 6), `out` (log 14) and `rootTicks` (log 1) are the model's own fields. -/
structure State where
  pending : List Instr := []
  free : Nat := 0
  out : List Out := []
  devTime : DWord := 0
  rootTicks : Nat := 0
  regs : SMap DWord := []
  /-- Latched high halves of 64-bit registers by register key (R7). -/
  latches : SMap (Option Word) := []
  /-- ENL_Pn_BAND_PUSH writes held for room (R294), in the order they came. -/
  heldPush : List HeldPush := []
  cores : Vector Core 8 := Vector.replicate 8 {}
  devs : Vector Dev 4 := Vector.replicate 4 {}
  grains : Grains := {}
  mems : Mems := {}
  enl : Vector Enl 4 := Vector.replicate 4 {}
  job : Option Job := none
  sht : Sht := {}
  lanes : Vector Lane 16 := Vector.replicate 16 {}
  fab : Vector Region 16 := Vector.replicate 16 {}
  /-- The shared pins are between owners (R195). -/
  handover : Bool := false
  cam : CamSt := {}
  store : Store := {}
  hst : Hst := {}
  net : Net := {}
  pwr : Pwr := {}
  fuses : Fuses := {}
  sec : SecSt := {}
  cs : Cs := {}
deriving DecidableEq, Repr

/-- Why the block stops: no command stops it (log 4). -/
inductive Fault where
deriving DecidableEq, Repr

/-- Why a command is refused. -/
inductive Refusal where
  /-- The command has no meaning yet (raised by exec's refused arms; safe). -/
  | notModelled (mnemonic : String)
deriving DecidableEq, Repr

/-- A core right after reset: seg7 is the boot ROM with X and R (R74). -/
def Core.atReset (i : Fin 8) : Core :=
  { seg := (Vector.replicate 8 ({} : Seg)).set 7
      { base := Config.bootRomBase i, limit := Config.bootRomLimit i, r := true, x := true } }

/-- The block right after the power-on reset (R320), with the mode at Boot (SYS_MODE, R329). -/
def State.reset : State :=
  { cores := Vector.ofFn Core.atReset }

end Sys2Proof.Machine
end

