-- ==== Sys2Proof/Machine/Ops.lean ====
section
/-!
DEFINITION. The named operations every family shares: registers and their fields, free values, the mode, the Contact
Sheet, completions and events, and the redundancy flag.
-/

namespace Sys2Proof.Machine

/-- What a meaning answers. -/
abbrev Ans := Host.Outcome State Fault Refusal

/-- A command's effect on everything but the queue of waiting commands, the fuses (R331: only a carried-out lifecycle
request or FLOOR image blows them) and DEV_TIME (R315: only time moves it). -/
def State.effect (s : State) (f : State → State) : Ans :=
  .next { f s with pending := s.pending, fuses := s.fuses, devTime := s.devTime }

/-- Bytes as a little-endian number (R4), and back. -/
def leNat (b : List Byte) : Nat := b.foldr (fun x n => x.toNat + 256 * n) 0
def leBytes (n len : Nat) : List Byte := (List.range len).map (fun k => BitVec.ofNat 8 (n / 256 ^ k))

/-! ## Registers (R7-R11) -/

/-- A register's value as the module holds it. -/
def State.reg (s : State) (r : RegName) (i : Nat := 0) : DWord := smGet regResetKey s.regs (regKey r i)

/-- A hardware update of a register. -/
def State.setReg (s : State) (r : RegName) (v : DWord) (i : Nat := 0) : State :=
  { s with regs := smSet regResetKey s.regs (regKey r i) v }

/-- A field's value. -/
def State.fv (s : State) (f : Fld) (i : Nat := 0) : Nat := getBits (s.reg f.reg i) f.lo f.w

/-- A field is nonzero. -/
def State.on (s : State) (f : Fld) (i : Nat := 0) : Bool := decide (s.fv f i ≠ 0)

/-- A hardware update of a field. -/
def State.fset (s : State) (f : Fld) (v : Nat) (i : Nat := 0) : State :=
  s.setReg f.reg (setBits (s.reg f.reg i) f.lo f.w v) i

/-- A counter rises by `n` and saturates at all ones (R10). -/
def State.finc (s : State) (f : Fld) (i : Nat := 0) (n : Nat := 1) : State :=
  s.fset f (Nat.min (s.fv f i + n) (2 ^ f.w - 1)) i

/-- A refused access is counted (R7, R243, R248). -/
def State.badAccess (s : State) : State := s.finc F.SYS_BAD_ACCESS_COUNT

/-! ## Free values (log 6) -/

/-- A value the spec leaves open. -/
def State.free_ (s : State) (w : Nat) : BitVec w := Config.freeBits s.free w

/-- The next open value is another one. -/
def State.used (s : State) : State := { s with free := s.free + 1 }

/-! ## Modes (R307) -/

/-- MODE_STATE. -/
def State.mode (s : State) : Nat := s.fv F.SYS_MODE_STATE

/-- The module is in P-Active (R307). -/
def State.active (s : State) : Bool := decide (2 ≤ s.mode ∧ s.mode ≠ 10)

/-- A job is in Print or Hold. -/
def State.printing (s : State) : Bool := decide (s.mode = 4 ∨ s.mode = 5)

/-- The lifecycle state: the highest field with 5 or more of its 8 bits blown (R330, R331). -/
def Fuses.lc (f : Fuses) : Nat :=
  let blown (b : BitVec 8) : Bool := decide (5 ≤ (List.range 8).countP (fun i => b.getLsbD i))
  if blown f.lcReturned then 3 else if blown f.lcSealed then 2 else if blown f.lcOpen then 1 else 0

/-- The fused minimum of a kind: the number of blown MIN_SVN bits (R334). -/
def Fuses.svnMin (f : Fuses) (k : Nat) : Nat :=
  let v : BitVec 32 := f.minSvn.toList.getD k 0
  (List.range 32).countP (fun i => v.getLsbD i)

/-- The debug level (R339). -/
def State.dbgLevel (s : State) : Nat := s.fv F.DBG_STATUS_LEVEL

/-- D2 stands in SEALED: the store is locked (R343). -/
def State.storeLocked (s : State) : Bool := decide (s.fuses.lc = 2 ∧ s.dbgLevel = 2)

/-- Bit `b` of a natural number. -/
def natBit (n b : Nat) : Bool := n.testBit b

/-- Sets or clears bit `b`. -/
def natSetBit (n b : Nat) (v : Bool) : Nat :=
  if v = n.testBit b then n else if v then n + 2 ^ b else n - 2 ^ b

/-! ## Updates of indexed parts -/

def State.modCore (s : State) (c : Fin 8) (f : Core → Core) : State := { s with cores := s.cores.set c (f s.cores[c]) }
def State.modDev (s : State) (d : Fin 4) (f : Dev → Dev) : State := { s with devs := s.devs.set d (f s.devs[d]) }
def State.modEnl (s : State) (p : Fin 4) (f : Enl → Enl) : State := { s with enl := s.enl.set p (f s.enl[p]) }
def State.modLane (s : State) (l : Fin 16) (f : Lane → Lane) : State := { s with lanes := s.lanes.set l (f s.lanes[l]) }
def State.modFab (s : State) (r : Fin 16) (f : Region → Region) : State := { s with fab := s.fab.set r (f s.fab[r]) }
def State.modNi (s : State) (n : Fin 36) (f : Ni → Ni) : State :=
  { s with net := { s.net with nis := s.net.nis.set n (f s.net.nis[n]) } }
def State.modJob (s : State) (f : Job → Job) : State := { s with job := s.job.map f }
def State.modFn (s : State) (i : Fin 8) (f : Fn → Fn) : State :=
  { s with hst := { s.hst with fns := s.hst.fns.set i (f s.hst.fns[i]) } }
def State.emit (s : State) (o : Out) : State := { s with out := o :: s.out }

/-- Does `f` for each `i` below `n`, in rising order. -/
def State.forFin (s : State) (n : Nat) (f : Fin n → State → State) : State :=
  (List.finRange n).foldl (fun s i => f i s) s

/-! ## The Contact Sheet (R363-R367) -/

/-- The record the module would write now (R363), with its flags. With a job in progress none of whose lines has fired,
the spec states no LINE: a free value. -/
def State.csRecord (s : State) (ty source : Nat) (data : List Nat) (flags : BitVec 8) : CsRecord :=
  { seq := 0, ty := ty, source := source, flags := flags, time := s.devTime,
    line := match s.job with
      | none => 0xFFFFFFFF
      | some j => if j.fired = 0 then s.free_ 32 else BitVec.ofNat 32 (j.fired - 1),
    mode := s.mode, redund := s.fv F.SYS_REDUND_CAUSE, powerOn := BitVec.ofNat 16 s.cs.powerOns, data := data,
    merged := none, job := match s.job with | none => 0 | some j => j.number }

/-- A record joins the queue of 64, or displaces, or is dropped (R365). -/
def State.csEnqueue (s : State) (r : CsRecord) : State :=
  let q := s.cs.queue
  if q.length < 64 then { s with cs := { s.cs with queue := q ++ [r] } }
  else
    let s := s.finc F.CS_STATUS_DROPPED
    match decide (r.ty < 0x10), (q.reverse.findIdx? (fun x => decide (0x10 ≤ x.ty))) with
    | true, some k =>
      let kept := (q.reverse.eraseIdx k).reverse
      { s with cs := { s.cs with queue := kept ++ [r] } }
    | _, _ => s

/-- A trigger during a commit is counted and freezes nothing (R366, R367). -/
def State.csSuppressed (s : State) (on : Bool) : State := if on then s.finc F.CS_STATUS_SUPPRESSED else s

/-- A trigger freezes the trace: the commit of record `r` begins (R366, R367). -/
def State.csFrozen (s : State) (on : Bool) (r : CsRecord) : State :=
  if on then { (s.fset F.CS_STATUS_COMMIT 1).fset F.CS_CTL_TRIG 0 with cs := { s.cs with trigger := some r } } else s

/-- A record joins the merge window of its TYPE and SOURCE, or opens one and joins the queue (R365). -/
def State.csMerged (s : State) (ty source : Nat) (r : CsRecord) : State :=
  match s.cs.merging.findIdx? (fun e => e.1 == ty && e.2.1 == source) with
  | some k =>
    { s with cs := { s.cs with merging := s.cs.merging.modify k (fun e => (e.1, e.2.1, e.2.2 + 1)) } }
  | none => { s with cs := { s.cs with merging := s.cs.merging ++ [(ty, source, 0)] } }.csEnqueue r

/-- Reports a happening to the Contact Sheet: merged within its millisecond (R365), otherwise queued; `trig` says
whether it is an enabled trigger, which freezes the trace unless a commit runs (R366, R367). -/
def State.csReport (s : State) (ty source : Nat) (data : List Nat) (trig : Bool) : State :=
  let busy := s.on F.CS_STATUS_COMMIT
  let r := s.csRecord ty source data (if trig then (if busy then 8 else 1) else 0)
  ((s.used.csSuppressed (trig && busy)).csFrozen (trig && !busy) r).csMerged ty source r

/-- Reports a happening that bit `b` of CS_CTL.TRIG_MASK makes a trigger (R367, R369). -/
def State.csMasked (s : State) (ty source : Nat) (data : List Nat) (b : Nat) : State :=
  s.csReport ty source data (natBit (s.fv F.CS_CTL_TRIG_MASK) b)

/-! ## Rings the module writes (R246-R253) -/

/-- A ring the module writes: a function with the number of a completion ring, or none for its event ring. -/
abbrev WRing := Fin 8 × Option (Fin 64)

/-- The register instance of the ring. -/
def WRing.idx : WRing → Nat
  | (f, some n) => 64 * f + n
  | (f, none) => f

/-- The completion ring's field or the event ring's. -/
def WRing.fld : WRing → Fld → Fld → Fld
  | (_, some _), c, _ => c
  | (_, none), _, e => e

/-- The key of a submission ring. -/
def sqKey (f : Fin 8) (n : Fin 64) : Nat := 129 * f + n

/-- The key of a ring the module writes. -/
def WRing.key : WRing → Nat
  | (f, some n) => 129 * f + 64 + n
  | (f, none) => 129 * f + 128

/-- HST_FN_ERR.RING of a ring (R275). -/
def WRing.code : WRing → Nat
  | (_, some n) => 0x40 + n
  | (_, none) => 0x80

def State.ring (s : State) (k : Nat) : Ring := smGet (fun _ => {}) s.hst.rings k
def State.setRing (s : State) (k : Nat) (r : Ring) : State :=
  { s with hst := { s.hst with rings := smSet (fun _ => {}) s.hst.rings k r } }

def State.wfv (s : State) (w : WRing) (c e : Fld) : Nat := s.fv (w.fld c e) w.idx
def State.wset (s : State) (w : WRing) (c e : Fld) (v : Nat) : State := s.fset (w.fld c e) v w.idx

/-- SIZE of the ring (R246). -/
def State.wSize (s : State) (w : WRing) : Nat := s.wfv w F.HST_CQ_CFG_SIZE_M1 F.HST_EQ_CFG_SIZE_M1 + 1

/-- The ring takes another entry: enabled, not stopped, holding fewer than SIZE - 1 entries. -/
def State.wOpen (s : State) (w : WRing) : Bool :=
  decide (s.wfv w F.HST_CQ_CFG_ENABLED F.HST_EQ_CFG_ENABLED = 1 ∧ ¬ (s.ring w.key).stopped ∧
    (s.ring w.key).slots.length < s.wSize w - 1)

/-- Sends an MSI-X vector, or marks it pending while it is masked (R244, R252). -/
def State.sendVector (s : State) (f : Fin 8) (v : Nat) : State :=
  if (s.hst.fns[f]).masked.getLsbD v then
    s.modFn f (fun fn => { fn with pendingVec := fn.pendingVec ||| (1 <<< v) })
  else s.emit (.msix f v)

/-- Sends the ring's vector and starts R252 afresh. -/
def State.wVector (s : State) (w : WRing) : State :=
  (s.setRing w.key { s.ring w.key with pend := 0, timing := false }).sendVector w.1
    (s.wfv w F.HST_CQ_CFG_VECTOR F.HST_EQ_CFG_VECTOR)

/-- Judges R252 with `n` entries pending. -/
def State.wCoalesce (s : State) (w : WRing) (n : Nat) : State :=
  let cnt := Nat.max 1 (s.wfv w F.HST_CQ_CFG_COAL_CNT F.HST_EQ_CFG_COAL_CNT)
  let us := s.wfv w F.HST_CQ_CFG_COAL_US F.HST_EQ_CFG_COAL_US
  if n = 0 then s.setRing w.key { s.ring w.key with pend := 0, timing := false }
  else if cnt ≤ n ∨ us = 0 then s.wVector w
  else s.setRing w.key { s.ring w.key with pend := n, timing := true }

/-- A command's completion is posted: its ring owes one fewer, and a draining submission ring that owes none is no
longer ENABLED (R255). -/
def State.unowe (s : State) (f : Fin 8) (e : Entry) : State :=
  if e.event ∨ 64 ≤ e.sqId.toNat then s
  else
    let k := 129 * f + e.sqId.toNat
    let r := s.ring k
    let left := r.owed.erase e.acc
    let i := 64 * f + e.sqId.toNat
    if r.draining ∧ left = [] then
      (s.setRing k { r with owed := left, draining := false }).fset F.HST_SQ_CFG_ENABLED 0 i
    else s.setRing k { r with owed := left }

/-- The 32 bytes of an entry (R259). -/
def Entry.bytes (e : Entry) (phase : Bool) : List Byte :=
  leBytes e.code.toNat 4 ++ leBytes e.status.toNat 1 ++ leBytes e.sqId.toNat 1 ++ leBytes e.sqHead.toNat 2 ++ leBytes e.result.toNat 8 ++
    leBytes e.waitUs 3 ++ leBytes 0 1 ++ leBytes e.time.toNat 6 ++ leBytes 0 5 ++
    leBytes ((if phase then 0x80 else 0) + (if e.event then 0x40 else 0)) 1

/-- The host address of a slot of a ring whose entries have `n` bytes (R246). -/
def slotAddr (base n slot : Nat) : DWord := BitVec.ofNat 64 (4096 * base + n * slot)

/-- Writes an entry into the ring's next slot (R250): PHASE is the ring's, TAIL moves on, the phase inverts when it
wraps. -/
def State.wPost (s : State) (w : WRing) (e : Entry) : State :=
  let tail := s.wfv w F.HST_CQ_PTR_INDEX F.HST_EQ_PTR_INDEX
  let ph := s.wfv w F.HST_CQ_PTR_PHASE F.HST_EQ_PTR_PHASE
  let next := if s.wSize w ≤ tail + 1 then 0 else tail + 1
  let r := s.ring w.key
  let s := s.setRing w.key { r with slots := r.slots ++ [(e, decide (ph = 1))] }
  let s := s.wset w F.HST_CQ_PTR_INDEX F.HST_EQ_PTR_INDEX next
  let s := if next = 0 then s.wset w F.HST_CQ_PTR_PHASE F.HST_EQ_PTR_PHASE (1 - ph) else s
  let s := s.emit (.entry w.1 w.code e (slotAddr (s.wfv w F.HST_CQ_BASE_BASE F.HST_EQ_BASE_BASE) 32 tail) (e.bytes (decide (ph = 1))))
  let s := if e.noIrq then s else s.wCoalesce w ((s.ring w.key).pend + 1)
  s.unowe w.1 e

/-- Entries waiting for a completion ring (R251) or in a function's event backlog (R253). -/
def State.wWaiting (s : State) (w : WRing) : List Entry :=
  match w.2 with
  | some _ => (s.ring w.key).waiting
  | none => (s.hst.fns[w.1]).backlog

def State.wSetWaiting (s : State) (w : WRing) (l : List Entry) : State :=
  match w.2 with
  | some _ => s.setRing w.key { s.ring w.key with waiting := l }
  | none => s.modFn w.1 (fun f => { f with backlog := l })

/-- Posts waiting entries in order while the ring has room (R251, R253). -/
def State.wDrain (s : State) (w : WRing) : State :=
  (s.wWaiting w).foldl (fun s e =>
    if s.wOpen w then (s.wPost w e).wSetWaiting w ((s.wWaiting w).drop 1) else s) s

/-- Code of LINE_FIRED (R270). -/
def evLineFired : Nat := 1

/-- A backlog of 256 takes an event (R253): when full, the oldest LINE_FIRED entry goes, otherwise the new one. Whether one is lost is
the second answer. -/
def backlogPush (b : List Entry) (e : Entry) : List Entry × Bool :=
  if b.length < 256 then (b ++ [e], false)
  else
    match b.findIdx? (fun x => decide (x.code.toNat = evLineFired)) with
    | some k => (b.eraseIdx k ++ [e], true)
    | none => (b, true)

/-- An event of a function is dropped, and counted. -/
def State.eventLost (s : State) (f : Fin 8) (lost : Bool) : State := if lost then s.finc F.HST_EVT_LOST_COUNT f else s

/-- An event joins its function's backlog. -/
def State.backlogAdd (s : State) (f : Fin 8) (e : Entry) : State :=
  let x := backlogPush (s.hst.fns[f]).backlog e
  (s.modFn f (fun fn => { fn with backlog := x.1 })).eventLost f x.2

/-- An event entry (R259). -/
def State.eventEntry (s : State) (code : Nat) (result : DWord) (seq : BitVec 16) : Entry :=
  { acc := 0, event := true, code := BitVec.ofNat 32 code, status := 0, sqId := 0xFF, sqHead := seq, result := result,
    waitUs := 0, time := s.devTime.setWidth 48, noIrq := false }

/-- An event addressed to a function: it takes the next sequence number, dropped or not (R253). -/
def State.eventTo (s : State) (f : Fin 8) (code : Nat) (result : DWord) : State :=
  let fn := s.hst.fns[f]
  let e := s.eventEntry code result fn.evSeq
  let s := s.modFn f (fun fn => { fn with evSeq := fn.evSeq + 1 })
  if s.wOpen (f, none) ∧ fn.backlog = [] then s.wPost (f, none) e else s.backlogAdd f e

def State.session (s : State) (k : Fin 8) : Option Session := smGet (fun _ => none) s.hst.sessions k
def State.setSession (s : State) (k : Fin 8) (x : Option Session) : State :=
  { s with hst := { s.hst with sessions := smSet (fun _ => none) s.hst.sessions k x } }

/-- A capsule (R273): its 16-byte header and its body. -/
def capsuleBytes (kind seq : Nat) (body : List Byte) : List Byte :=
  leBytes 0x4B47 2 ++ leBytes 1 1 ++ leBytes kind 1 ++ leBytes body.length 4 ++ leBytes seq 4 ++ leBytes 0 4 ++ body

/-- The module sends a capsule in a session (R273): an entry, whose PHASE is 1 (R274), and the data behind it. -/
def State.capsule (s : State) (k : Fin 8) (kind : Nat) (e : Option Entry) (data : List Byte := []) : State :=
  match s.session k with
  | none => s
  | some x =>
    let body := (e.map (fun e => e.bytes true)).getD [] ++ data
    (s.setSession k (some { x with seqOut := x.seqOut + 1 })).emit (.capsule k kind e (capsuleBytes kind x.seqOut body))

/-- An event addressed to a session takes its next sequence number, and goes or waits in the session's backlog (R253, R274). -/
def State.eventSession (s : State) (k f : Fin 8) (x : Session) (code : Nat) (result : DWord) : State :=
  let e : Entry := { s.eventEntry code result x.evSeq with sqId := BitVec.ofNat 8 (0x80 + k) }
  let x : Session := { x with evSeq := x.evSeq + 1 }
  if x.room ∧ x.backlog = [] then (s.setSession k (some x)).capsule k 4 (some e)
  else
    let b := backlogPush x.backlog e
    (s.setSession k (some { x with backlog := b.1 })).eventLost f b.2

/-- An event goes to the sessions bound to a function of the set whose mask subscribes to it (R270, R273, R274). -/
def State.eventSessions (s : State) (bit code : Nat) (result : DWord) (sel : Fin 8 → Bool) : State :=
  s.forFin 8 (fun k s =>
    match s.session k with
    | none => s
    | some x =>
      match x.fn with
      | none => s
      | some f => if sel f && x.mask.getLsbD bit then s.eventSession k f x code result else s)

/-- Raises an event to the subscribing functions of a set (R270). -/
def State.raiseTo (s : State) (bit code : Nat) (result : Nat) (sel : Fin 8 → Bool) : State :=
  let r := BitVec.ofNat 64 result
  (s.forFin 8 (fun f s => if sel f && natBit (s.fv F.HST_EVT_MASK_MASK f) bit then s.eventTo f code r else s)).eventSessions
    bit code r sel

/-- The events of R270: their subscription bit and code. -/
inductive Ev where
  | lineFired | lineMilestone | holdReached | starveWarn | lineMissed | encoderStall | nozzleOut | nozzleRecovered
  | tableSwapped | sledFault | sledRebuilt | columnSlipped | linkRerouted | developerRestart | modeChange | thermal
  | psuEvent | mainsLoss | securityAlert
deriving DecidableEq, Repr

/-- EVENT_CODE by subscription bit (R270). -/
def Ev.code (e : Ev) : Nat :=
  [0x1, 0x2, 0x3, 0x4, 0x5, 0x6, 0x10, 0x11, 0x12, 0x20, 0x21, 0x30, 0x31, 0x32, 0x40, 0x41, 0x42, 0x43,
   0x50].getD e.ctorIdx 0

/-- Raises a module event: to each function that subscribes. -/
def State.raise (s : State) (e : Ev) (result : Nat) : State := s.raiseTo e.ctorIdx e.code result (fun _ => true)

/-- Raises a job event: to the function that started the job and to the PF. -/
def State.raiseJob (s : State) (e : Ev) (result : Nat) : State :=
  match s.job with
  | none => s
  | some j => s.raiseTo e.ctorIdx e.code result (fun f => f == j.fn || f == 0)

/-! ## Completions (R250, R251, R259, R260) -/

/-- The reset generation of a command's source. -/
def State.genOf (s : State) : Src → Nat
  | .sq f _ => (s.hst.fns[f]).gen
  | .session k => s.hst.sessGen[k]

/-- QUEUE_WAIT of a command that starts now, in microseconds (R258). -/
def State.starting (s : State) (c : CmdRef) : CmdRef := { c with waitUs := (s.devTime - c.bell).toNat / 200 }

/-- A command's DEADLINE_US has passed since its doorbell (R258). -/
def State.pastDeadline (s : State) (c : CmdRef) (us : Nat) : Bool := decide (us ≠ 0 ∧ 200 * us < (s.devTime - c.bell).toNat)

/-- Forms a command's completion and posts it: into its completion ring or behind the entries waiting for it, or into
its session. The completions of a function or session reset since are discarded (R255, R272). -/
def State.complete (s : State) (c : CmdRef) (status : Nat) (result : Nat) (data : List Byte := []) : State :=
  if s.genOf c.src ≠ c.gen then s
  else
    match c.src with
    | .sq f n =>
      let cq : Fin 64 := Fin.ofNat 64 (s.fv F.HST_SQ_CFG_CQ (64 * f + n))
      let w : WRing := (f, some cq)
      let e : Entry :=
        { acc := c.acc, event := false, code := c.cmdId, status := BitVec.ofNat 8 status, sqId := BitVec.ofNat 8 n,
          sqHead := BitVec.ofNat 16 (s.fv F.HST_SQ_PTR_INDEX (64 * f + n)), result := BitVec.ofNat 64 result,
          waitUs := Nat.min c.waitUs 0xFFFFFF, time := s.devTime.setWidth 48, noIrq := c.noIrq }
      if s.wOpen w ∧ (s.ring w.key).waiting = [] then s.wPost w e
      else s.setRing w.key { s.ring w.key with waiting := (s.ring w.key).waiting ++ [e] }
    | .session k =>
      match s.session k with
      | none => s
      | some x =>
        let e : Entry :=
          { acc := c.acc, event := false, code := c.cmdId, status := BitVec.ofNat 8 status,
            sqId := BitVec.ofNat 8 (0x80 + k), sqHead := BitVec.ofNat 16 x.accepted, result := BitVec.ofNat 64 result,
            waitUs := Nat.min c.waitUs 0xFFFFFF, time := s.devTime.setWidth 48, noIrq := c.noIrq }
        (s.setSession k (some { x with owed := x.owed.erase c.acc })).capsule k 3 (some e) data

/-- Status codes of R260. -/
def stOK : Nat := 0x00
def stDELAYED : Nat := 0x01
def stBUSY : Nat := 0x10
def stCONFLICT : Nat := 0x11
def stMODE : Nat := 0x12
def stQUOTA : Nat := 0x13
def stMEDIA : Nat := 0x20
def stNODE : Nat := 0x21
def stINTEGRITY : Nat := 0x22
def stDENIED : Nat := 0x30
def stABORTED : Nat := 0x3F

/-- A completion for which no rule states a RESULT: it is a free value. -/
def State.completeOpen (s : State) (c : CmdRef) (status : Nat) : State := s.used.complete c status (s.free_ 64).toNat

/-- A completion of which the rules state RESULT[7:0]: the rest is a free value. -/
def State.completeReason (s : State) (c : CmdRef) (status code : Nat) : State :=
  s.used.complete c status (code % 256 + 256 * (s.free_ 56).toNat)

/-- A completion of which the rules state RESULT[7:0] and RESULT[63:32]. -/
def State.completeDetail (s : State) (c : CmdRef) (status code detail : Nat) : State :=
  s.used.complete c status (code % 256 + 256 * (s.free_ 24).toNat + detail % 2 ^ 32 * 2 ^ 32)

/-- Puts two 32-bit halves together. -/
def pair (hi lo : Nat) : Nat := hi % 2 ^ 32 * 2 ^ 32 + lo % 2 ^ 32

/-! ## Redundancy (R312) -/

/-- Sets or clears a cause bit of SYS_REDUND; REDUCED is 1 while any stands. -/
def State.redund (s : State) (bit : Nat) (v : Bool) : State :=
  let c := natSetBit (s.fv F.SYS_REDUND_CAUSE) bit v
  (s.fset F.SYS_REDUND_CAUSE c).fset F.SYS_REDUND_REDUCED (if c = 0 then 0 else 1)

/-! ## Mode changes (R308) and alerts (R351) -/

/-- An unlock under way ends: STATUS ABORTED, and nothing is zeroised (R342). -/
def State.abortUnlock (s : State) : State :=
  if s.sec.verifying then
    let s := (s.fset F.DBG_UNLOCK_CTL_STATUS 6).fset F.DBG_UNLOCK_CTL_GO 0
    { s with sec := { s.sec with verifying := false } }
  else s

/-- The module changes its mode: an unlock under way ends, and SYS_MODE, the Contact Sheet record and MODE_CHANGE, with the number
of the job that ended or 0, tell of it. -/
def State.toMode (s : State) (m : Nat) (job : Nat := 0) : State :=
  let prev := s.mode
  let s := ((s.abortUnlock).fset F.SYS_MODE_PREV prev).fset F.SYS_MODE_STATE m
  (s.csReport 0x01 0xFF [prev, s.fv F.SYS_MODE_SAFE_CAUSE] false).raise .modeChange (pair job (m + 256 * prev))

/-- SECURITY_ALERT with its Contact Sheet record (R351). -/
def State.alert (s : State) (cause kind detail : Nat) : State :=
  let r := pair detail (cause + 256 * kind)
  (s.csMasked 0x20 10 [r] 9).raise .securityAlert r

end Sys2Proof.Machine
end

