-- ==== Sys2Proof/Machine/Flags.lean ====
section
/-!
DEFINITION. The flags of a core (R71, R73) and the conditions on them (R70).
-/

namespace Sys2Proof.Machine

/-- Bit `i` of CORE_FLAGS. -/
def Core.flag (c : Core) (i : Nat) : Bool := c.flags.getLsbD i

/-- V, overflow. -/
def Core.fV (c : Core) : Bool := c.flag 0
/-- C, carry or no borrow. -/
def Core.fC (c : Core) : Bool := c.flag 1
/-- Z, zero. -/
def Core.fZ (c : Core) : Bool := c.flag 2
/-- N, negative. -/
def Core.fN (c : Core) : Bool := c.flag 3
/-- Q, the sticky saturation flag. -/
def Core.fQ (c : Core) : Bool := c.flag 4

/-- A Bool as a bit of a word. -/
def bitAt (b : Bool) (i : Nat) : Word := if b then 1 <<< i else 0

/-- N, Z, C and V take new values; Q stays (R71). -/
def Core.setNZCV (k : Core) (n z c v : Bool) : Core :=
  { k with flags := (k.flags &&& 0x10) ||| bitAt n 3 ||| bitAt z 2 ||| bitAt c 1 ||| bitAt v 0 }

/-- C alone takes a new value (R82). -/
def Core.setC (k : Core) (c : Bool) : Core := { k with flags := (k.flags &&& 0x1D) ||| bitAt c 1 }

/-- Q is set when `q` holds, and otherwise stays (R80). -/
def Core.setQ (k : Core) (q : Bool) : Core := if q then { k with flags := k.flags ||| 0x10 } else k

/-- The flags of a + b. -/
def Core.addFlags (k : Core) (a b : Word) : Core :=
  let r := a + b
  k.setNZCV r.msb (r == 0) (decide (2 ^ 32 ≤ a.toNat + b.toNat)) (decide (r.toInt ≠ a.toInt + b.toInt))

/-- The flags of a - b: C = 1 means no borrow (R70). -/
def Core.subFlags (k : Core) (a b : Word) : Core :=
  let r := a - b
  k.setNZCV r.msb (r == 0) (decide (b.toNat ≤ a.toNat)) (decide (r.toInt ≠ a.toInt - b.toInt))

/-- The flags of tst: N and Z of a AND b. The spec states no value for C and V: free bits (log 21). -/
def Core.tstFlags (k : Core) (a b : Word) (open_ : BitVec 2) : Core :=
  let r := a &&& b
  k.setNZCV r.msb (r == 0) (open_.getLsbD 1) (open_.getLsbD 0)

/-- A condition on the flags (R70); `gor` is the global OR as R71 judges it. -/
def Core.holds (k : Core) (gor : Bool) : Cond → Bool
  | .alw => true
  | .zs => k.fZ
  | .zc => !k.fZ
  | .gor => gor
  | .gnor => !gor
  | .cy => k.fC
  | .ncy => !k.fC
  | .neg => k.fN
  | .nneg => !k.fN
  | .ov => k.fV
  | .ugt => k.fC && !k.fZ
  | .ule => !k.fC || k.fZ
  | .sge => k.fN == k.fV
  | .slt => k.fN != k.fV
  | .sgt => !k.fZ && (k.fN == k.fV)
  | .sle => k.fZ || (k.fN != k.fV)

end Sys2Proof.Machine
end

