-- ==== Sys2Proof/Machine/Fixed.lean ====
section
/-!
DEFINITION. Fixed-point arithmetic: rounding (R78), the stochastic generator (R79) and saturation (R80).
-/

namespace Sys2Proof.Machine

/-- One step of the Galois LFSR with polynomial x^32 + x^22 + x^2 + x + 1 (R79), shifting toward the high bits or, in
the mirrored form, toward the low bits; the spec does not say which (log 22). -/
def lfsrStep (v : Word) : Word :=
  if Config.lfsrLeft then
    let w := v <<< 1
    if v.msb then w ^^^ 0x00400007 else w
  else
    let w := v >>> 1
    if v.getLsbD 0 then w ^^^ 0x80200003 else w

/-- The generator advanced by 32 steps. -/
def lfsrNext (v : Word) : Word := (List.range 32).foldl (fun v _ => lfsrStep v) v

/-- The rounding modes of R78: 0 truncate, 1 half-up, 2 half-even, 3 stochastic. The exact value `x` drops its low `d`
bits; `l` is the generator's word. -/
def roundDrop (mode : Nat) (x : Int) (d : Nat) (l : Word) : Int :=
  let p : Int := 2 ^ d
  match mode with
  | 0 => x.fdiv p
  | 1 => if d = 0 then x else (x + 2 ^ (d - 1)).fdiv p
  | 2 =>
    let q := x.fdiv p
    let r := x - q * p
    if 2 * r < p then q else if p < 2 * r then q + 1 else if q.fmod 2 = 0 then q else q + 1
  | _ =>
    let a : Int := if d ≤ 32 then (l.toNat / 2 ^ (32 - d) : Nat) else (l.toNat * 2 ^ (d - 32) : Nat)
    (x + a).fdiv p

/-- Clamps to a signed `w`-bit range; the flag says whether it had to (R80). -/
def clampS (w : Nat) (x : Int) : Int × Bool :=
  let hi : Int := 2 ^ (w - 1) - 1
  let lo : Int := -(2 ^ (w - 1))
  if hi < x then (hi, true) else if x < lo then (lo, true) else (x, false)

/-- Clamps to an unsigned `w`-bit range. -/
def clampU (w : Nat) (x : Int) : Int × Bool :=
  let hi : Int := 2 ^ w - 1
  if hi < x then (hi, true) else if x < 0 then (0, true) else (x, false)

/-- The effective mode of a 32-bit form: FN[2:0] = 0 takes CORE_CTL.RND, 1-4 override it, 5-7 are reserved (R78). -/
def Core.roundMode (k : Core) (fn : Nat) : Option Nat :=
  if fn = 0 then some (k.ctl.toNat % 4) else if fn ≤ 4 then some (fn - 1) else none

/-- A stochastic rounding advances the generator (R79), one that drops no bits too (DESIGN CHOICE, log 105). -/
def Core.rounded (k : Core) (mode : Nat) : Core := if mode = 3 then { k with lfsr := lfsrNext k.lfsr } else k

/-- Rounds an exact value to a signed `w`-bit destination: the result, with Q set when it was clamped and the generator
advanced in stochastic mode. -/
def Core.roundSat (k : Core) (mode : Nat) (x : Int) (d w : Nat) : Int × Core :=
  let r := clampS w (roundDrop mode x d k.lfsr)
  (r.1, (k.rounded mode).setQ r.2)

/-- The Q1.15 value in the low half of a register. -/
def half (v : Word) : Int := (v.setWidth 16).toInt

end Sys2Proof.Machine
end

