-- ==== Sys2Proof/Machine/Float.lean ====
section
/-!
DEFINITION. IEEE 754 binary32 arithmetic with exact intermediate results (R86-R89).
-/

namespace Sys2Proof.Machine

/-- A binary32 value; a finite one is (-1)^s m 2^e. -/
inductive FVal where
  | nan (signalling : Bool)
  | inf (s : Bool)
  | fin (s : Bool) (m : Nat) (e : Int)
deriving DecidableEq, Repr

/-- A floating-point result and the flags it raises, in CORE_FPSTAT's order: NV DZ OF UF NX at bits 4 to 0. -/
structure FRes where
  val : Word
  flags : BitVec 5
deriving DecidableEq, Repr

def fNV : BitVec 5 := 16
def fDZ : BitVec 5 := 8
def fOF : BitVec 5 := 4
def fUF : BitVec 5 := 2
def fNX : BitVec 5 := 1

/-- The default quiet NaN (R86). -/
def qNaN : Word := 0x7FC00000

def fSign (s : Bool) (v : Nat) : Word := BitVec.ofNat 32 (v + if s then 2 ^ 31 else 0)

def fInf (s : Bool) : Word := fSign s 0x7F800000

/-- Reads a word as binary32. -/
def fDecode (w : Word) : FVal :=
  let ex : Nat := w.toNat / 2 ^ 23 % 256
  let fr : Nat := w.toNat % 2 ^ 23
  if ex = 255 then (if fr = 0 then .inf w.msb else .nan (decide (fr < 2 ^ 22)))
  else if ex = 0 then .fin w.msb fr (-149)
  else .fin w.msb (2 ^ 23 + fr) ((ex : Int) - 150)

def FVal.isNan : FVal → Bool
  | .nan _ => true
  | _ => false

/-- A signalling NaN input raises NV (R86). -/
def FVal.sig : FVal → BitVec 5
  | .nan true => fNV
  | _ => 0

/-- Rounds n 2^d' to d = 0, nearest with ties to even; `sticky` says that a nonzero part below was dropped. The flag
says whether the result is inexact. -/
def rne (n : Nat) (d : Nat) (sticky : Bool) : Nat × Bool :=
  let q := n / 2 ^ d
  let r := n % 2 ^ d
  let up := decide (2 ^ d < 2 * r) || (decide (2 * r = 2 ^ d) && (sticky || decide (q % 2 = 1)))
  (if up then q + 1 else q, sticky || decide (r ≠ 0))

/-- Rounds the exact value (-1)^s n 2^e, or one just above it when `sticky`, to binary32 (R86). -/
def fRound (s : Bool) (n : Nat) (e : Int) (sticky : Bool) : FRes :=
  if n = 0 ∧ ¬ sticky then ⟨fSign s 0, 0⟩
  else
    let top : Int := n.log2 + e
    let q : Int := if top - 23 < -149 then -149 else top - 23
    let shifted (q : Int) : Nat × Bool :=
      if q ≤ e then (n * 2 ^ (e - q).toNat, sticky) else rne n (q - e).toNat sticky
    let r := shifted q
    let after := (shifted (top - 23)).1
    let tiny := if Config.tininessBeforeRounding then decide (top < -126)
      else decide ((if after = 2 ^ 24 then top + 1 else top) < -126)
    let bits := (q + 149).toNat * 2 ^ 23 + r.1
    if 0x7F800000 ≤ bits then ⟨fInf s, fOF ||| fNX⟩
    else ⟨fSign s bits, (if r.2 then fNX else 0) ||| (if tiny && r.2 then fUF else 0)⟩

/-- Rounds the exact sum of two finite values; an exact zero is positive unless both are negative zeros. -/
def fAddFin (sa : Bool) (ma : Nat) (ea : Int) (sb : Bool) (mb : Nat) (eb : Int) : FRes :=
  let e := if ea ≤ eb then ea else eb
  let va : Int := (ma * 2 ^ (ea - e).toNat : Nat)
  let vb : Int := (mb * 2 ^ (eb - e).toNat : Nat)
  let t := (if sa then -va else va) + (if sb then -vb else vb)
  if t = 0 then ⟨fSign (sa && sb) 0, 0⟩ else fRound (decide (t < 0)) t.natAbs e false

/-- a + b. -/
def fAdd (a b : Word) : FRes :=
  let x := fDecode a
  let y := fDecode b
  let nv := x.sig ||| y.sig
  match x, y with
  | .nan _, _ => ⟨qNaN, nv⟩
  | _, .nan _ => ⟨qNaN, nv⟩
  | .inf s, .inf t => if s = t then ⟨fInf s, 0⟩ else ⟨qNaN, fNV⟩
  | .inf s, .fin .. => ⟨fInf s, 0⟩
  | .fin .., .inf t => ⟨fInf t, 0⟩
  | .fin s m e, .fin t n f => fAddFin s m e t n f

/-- The word with its sign inverted. -/
def fFlip (a : Word) : Word := a ^^^ 0x80000000

/-- a - b; a signalling NaN keeps its kind under the sign change. -/
def fSub (a b : Word) : FRes := fAdd a (fFlip b)

/-- a b. -/
def fMul (a b : Word) : FRes :=
  let x := fDecode a
  let y := fDecode b
  let nv := x.sig ||| y.sig
  match x, y with
  | .nan _, _ => ⟨qNaN, nv⟩
  | _, .nan _ => ⟨qNaN, nv⟩
  | .inf s, .inf t => ⟨fInf (s != t), 0⟩
  | .inf s, .fin t n _ => if n = 0 then ⟨qNaN, fNV⟩ else ⟨fInf (s != t), 0⟩
  | .fin s m _, .inf t => if m = 0 then ⟨qNaN, fNV⟩ else ⟨fInf (s != t), 0⟩
  | .fin s m e, .fin t n f => fRound (s != t) (m * n) (e + f) false

/-- a b + c with one rounding. -/
def fFma (a b c : Word) : FRes :=
  let x := fDecode a
  let y := fDecode b
  let z := fDecode c
  let nv := x.sig ||| y.sig ||| z.sig
  let bad : Bool := match x, y with
    | .inf _, .fin _ n _ => decide (n = 0)
    | .fin _ n _, .inf _ => decide (n = 0)
    | _, _ => false
  if x.isNan || y.isNan then ⟨qNaN, nv⟩
  else if bad then
    ⟨qNaN, if z.isNan && !Config.fmaInvalidNaN then nv else fNV⟩
  else
    match z with
    | .nan _ => ⟨qNaN, nv⟩
    | z =>
      match x, y, z with
      | .fin s m e, .fin t n f, .fin u k g => fAddFin (s != t) (m * n) (e + f) u k g
      | .fin .., .fin .., .inf u => ⟨fInf u, 0⟩
      | x, y, z =>
        let sign (v : FVal) : Bool := match v with
          | .inf s => s
          | .fin s _ _ => s
          | .nan _ => false
        let p := sign x != sign y
        match z with
        | .inf u => if p = u then ⟨fInf p, 0⟩ else ⟨qNaN, fNV⟩
        | _ => ⟨fInf p, 0⟩

/-- How two values that are not NaN stand: as integers on one scale. -/
def fCmpInt (x y : FVal) : Int × Int :=
  let key (v : FVal) : Int := match v with
    | .nan _ => 0
    | .inf s => if s then -(2 ^ 300) else 2 ^ 300
    | .fin s m e => (if s then -1 else 1) * (m * 2 ^ (e + 149).toNat : Nat)
  (key x, key y)

/-- fcmp: N, Z, C, V and the flags raised (R86). -/
def fCmp (a b : Word) : Bool × Bool × Bool × Bool × BitVec 5 :=
  let x := fDecode a
  let y := fDecode b
  if x.isNan || y.isNan then (false, false, false, true, x.sig ||| y.sig)
  else
    let k := fCmpInt x y
    (decide (k.1 < k.2), decide (k.1 = k.2), decide (k.2 ≤ k.1), false, 0)

/-- fmin, or fmax when `big`. What one NaN gives, and which of two zeros of unlike sign, are open (log 7). -/
def fMinMax (big : Bool) (a b : Word) : FRes :=
  let x := fDecode a
  let y := fDecode b
  let nv := x.sig ||| y.sig
  match x.isNan, y.isNan with
  | true, true => ⟨qNaN, nv⟩
  | true, false => ⟨if Config.minMaxNumber then b else qNaN, nv⟩
  | false, true => ⟨if Config.minMaxNumber then a else qNaN, nv⟩
  | false, false =>
    let k := fCmpInt x y
    if k.1 = k.2 then ⟨if a = b ∨ Config.minMaxZeroFirst then a else b, 0⟩
    else ⟨if decide (k.1 < k.2) = big then b else a, 0⟩

/-- fabs and fneg: the sign cleared or inverted; a NaN gives the default NaN. -/
def fSignOp (neg : Bool) (a : Word) : FRes :=
  let x := fDecode a
  if x.isNan then ⟨qNaN, x.sig⟩ else ⟨if neg then fFlip a else a &&& 0x7FFFFFFF, 0⟩

/-- fcvt.ws: to a signed integer, rounded to nearest even; NaN gives 0, out of range the nearest limit, both with NV. -/
def fToInt (a : Word) : FRes :=
  match fDecode a with
  | .nan _ => ⟨0, fNV⟩
  | .inf s => ⟨if s then 0x80000000 else 0x7FFFFFFF, fNV⟩
  | .fin s m e =>
    let r := if 0 ≤ e then (m * 2 ^ e.toNat, false) else rne m (-e).toNat false
    if s then
      if 2 ^ 31 < r.1 then ⟨0x80000000, fNV⟩ else ⟨BitVec.ofInt 32 (-(r.1 : Int)), if r.2 then fNX else 0⟩
    else if 2 ^ 31 ≤ r.1 then ⟨0x7FFFFFFF, fNV⟩ else ⟨BitVec.ofNat 32 r.1, if r.2 then fNX else 0⟩

/-- fcvt.sw: from a signed integer. -/
def fFromInt (a : Word) : FRes := fRound (decide (a.toInt < 0)) a.toInt.natAbs 0 false

/-- The estimate's relative error lies below 2^-12 (R87): |m n 2^(e+f) - 1| 2^12 < 1. -/
def recipClose (m : Nat) (e : Int) (n : Nat) (f : Int) : Bool :=
  let p := m * n
  let k := e + f
  if 0 ≤ k then false
  else
    let one := 2 ^ (-k).toNat
    decide (((p : Int) - one).natAbs * 2 ^ 12 < one)

/-- frecpe (R87): an estimate within the bound. The estimate itself is open (log 7). -/
def fRecip (a : Word) : FRes :=
  match fDecode a with
  | .nan s => ⟨qNaN, if s then fNV else 0⟩
  | .inf s => ⟨fSign s 0, 0⟩
  | .fin s m e =>
    if m = 0 then ⟨fInf s, fDZ⟩
    else
      let ulp := Config.reciprocalFlags a
      let r := fRound s (2 ^ 64 / m) (-e - 64) (decide (2 ^ 64 % m ≠ 0))
      if r.flags &&& fOF ≠ 0 then ⟨fInf s, fOF ||| (ulp.setWidth 5 &&& fNX)⟩
      else
        let est := Config.reciprocalEstimate a
        match fDecode est with
        | .fin t n f => if t = s && recipClose m e n f then ⟨est, ulp.setWidth 5⟩ else ⟨r.val, ulp.setWidth 5⟩
        | _ => ⟨r.val, ulp.setWidth 5⟩

end Sys2Proof.Machine
end

