-- ==== Sys2Proof/Machine/Mem.lean ====
section
/-!
DEFINITION. The word-organised memories and their protection (R298-R305), the internal address map (R62, R139, R295), and
reads and writes of bytes in them.
-/

namespace Sys2Proof.Machine

/-! ## Memories by the codes of R304 -/

/-- The memory of a code (1 Staging RAM, 2 Reserve, 3 DDR5, 4-7 instruction and 8-11 data SRAM of D0-D3, 12-15 SRAM of
MC0-MC3, 16 camera correction memory); grain memory, code 0, is held apart. -/
def Mems.at_ (ms : Mems) (code : Nat) : Mem :=
  if code = 1 then ms.staging
  else if code = 2 then ms.reserve
  else if code = 3 then ms.ddr
  else if code < 8 then ms.devI.toList.getD (code - 4) (Mem.of .poison)
  else if code < 12 then ms.devD.toList.getD (code - 8) (Mem.of .poison)
  else if code < 16 then ms.mc.toList.getD (code - 12) (Mem.of .poison)
  else ms.camCorr

/-- Replaces the memory of a code. -/
def Mems.put (ms : Mems) (code : Nat) (m : Mem) : Mems :=
  if code = 1 then { ms with staging := m }
  else if code = 2 then { ms with reserve := m }
  else if code = 3 then { ms with ddr := m }
  else if code < 8 then { ms with devI := ms.devI.set (Fin.ofNat 4 (code - 4)) m }
  else if code < 12 then { ms with devD := ms.devD.set (Fin.ofNat 4 (code - 8)) m }
  else if code < 16 then { ms with mc := ms.mc.set (Fin.ofNat 4 (code - 12)) m }
  else { ms with camCorr := m }

/-- Codewords of a memory (R2, R61, R295, R302). -/
def memWords (code : Nat) : Nat :=
  if code = 0 then 16777216
  else if code = 1 then 4194304
  else if code = 2 then 2097152
  else if code = 3 then 2147483648
  else if code < 16 then 32768
  else 262144

/-- 8-byte words of a codeword (R298): a DDR5 codeword holds 64 data bytes. -/
def memSpan (code : Nat) : Nat := if code = 3 then 8 else 1

/-- The router of a memory's unit (R277): the SOURCE of its Contact Sheet records. -/
def memRouter (code word : Nat) : Nat :=
  if code = 0 then [2, 3, 32, 33].getD (word / 4194304) 2
  else if code = 1 then 7
  else if code = 2 then 9
  else if code = 3 then [0, 5, 30, 35].getD (word / 4 % 4) 0
  else if code < 12 then [1, 4, 31, 34].getD (code % 4) 1
  else if code < 16 then [13, 16, 19, 22].getD (code % 4) 13
  else 25

/-- A word of a memory. -/
def Mem.cell (m : Mem) (i : Nat) : Cell := smGet m.dflt m.words i

/-- Stores a word. -/
def Mem.setCell (m : Mem) (i : Nat) (c : Cell) : Mem := { m with words := smSet m.dflt m.words i c }

def State.cell (s : State) (code i : Nat) : Cell := (s.mems.at_ code).cell i
def State.setCell (s : State) (code i : Nat) (c : Cell) : State :=
  { s with mems := s.mems.put code ((s.mems.at_ code).setCell i c) }

/-- A word's reads meet an uncorrectable error: poison always (R302), undefined DDR5 contents where Config says so. -/
def Cell.bad (i : Nat) : Cell → Bool
  | .poison => true
  | .undef => Config.undefIsBad (i / 8)
  | .ue _ => true
  | _ => false

/-- The data of a word. The stored bits of a poisoned or undefined word are open (log 9). -/
def Cell.data (code i : Nat) : Cell → DWord
  | .poison => Config.poisonWord code i
  | .undef => Config.poisonWord code i
  | .ok d => d
  | .ce d => d
  | .ue d => d
  | .mir d => d

/-! ## Reads (R296, R300, R301) -/

/-- Records an uncorrectable word: the ECC_ record, its counter and the Contact Sheet (R301). -/
def State.ueRecord (s : State) (code word requester : Nat) : State :=
  let s := s.finc F.ECC_SCRUB_UE_COUNT code
  let s := if s.on F.ECC_UE_VALID code then s
    else (s.fset F.ECC_UE_VALID 1 code).fset F.ECC_UE_WORD word code
  s.csMasked 0x10 (memRouter code word) [code, word, requester] 1

/-- The words of a codeword. -/
def cwWords (code cw : Nat) : List Nat := (List.range (memSpan code)).map (memSpan code * cw + ·)

/-- A corrected word is written back (R300). -/
def State.fixCe (s : State) (code i : Nat) : State :=
  match s.cell code i with
  | .ce d => s.setCell code i (.ok d)
  | _ => s

/-- A mirrored word is rewritten from its good copy (R296). -/
def State.fixMir (s : State) (code i : Nat) : State :=
  match s.cell code i with
  | .mir d => s.setCell code i (.ok d)
  | _ => s

/-- The word carries a correctable error, or one copy of it is uncorrectable. -/
def Cell.isCe : Cell → Bool
  | .ce _ => true
  | _ => false
def Cell.isMir : Cell → Bool
  | .mir _ => true
  | _ => false

/-- One read of a codeword: a correctable error is written back and counted (R300); a mirrored word one of whose copies
is uncorrectable is served from the other, and when the read met the bad copy (the copies alternate: a free value)
that is recorded and rewritten (R296); an uncorrectable one is recorded. The flag says that it is uncorrectable. -/
def State.readCw (s : State) (requester code cw : Nat) : Bool × State :=
  let ws := cwWords code cw
  if ws.any (fun i => (s.cell code i).bad i) then (true, s.ueRecord code cw requester)
  else if ws.any (fun i => (s.cell code i).isCe) then
    (false, (ws.foldl (fun s i => s.fixCe code i) s).finc F.ECC_SCRUB_CE_COUNT code)
  else if ws.any (fun i => (s.cell code i).isMir) then
    if s.free_ 1 = 1 then (false, (ws.foldl (fun s i => s.fixMir code i) s.used).ueRecord code cw requester)
    else (false, s.used)
  else (false, s)

/-- The codewords that hold bytes off to off + n - 1. -/
def cwRange (code off n : Nat) : List Nat :=
  if n = 0 then []
  else
    let k := 8 * memSpan code
    (List.range ((off + n - 1) / k - off / k + 1)).map (off / k + ·)

/-- Reads every codeword of a range; the flag says that one was uncorrectable. -/
def State.readRange (s : State) (requester code off n : Nat) : Bool × State :=
  (cwRange code off n).foldl (fun r cw =>
    let x := r.2.readCw requester code cw
    (r.1 || x.1, x.2)) (false, s)

/-- A byte of a memory as stored. -/
def State.memByte (s : State) (code off : Nat) : Byte :=
  ((s.cell code (off / 8)).data code (off / 8) >>> (8 * (off % 8))).setWidth 8

/-- The bytes of a memory as stored. -/
def State.memBytes (s : State) (code off n : Nat) : List Byte := (List.range n).map (fun k => s.memByte code (off + k))

/-! ## Writes (R299, R305) -/

/-- A word under an injection of the given masks (R305): one wrong bit is correctable, two are not (R298); a pattern of
three or more, and any pattern in a DDR5 codeword, decodes as Config says. In the mirrored region a wrong copy leaves
the other good (R296). -/
def flipped (code : Nat) (mirrored : Bool) (d : DWord) (dm : DWord) (cm : BitVec 16) : Cell :=
  let cm : BitVec 16 := if code = 3 then cm else cm &&& 0xFF
  let w := (List.range 64).countP (fun i => dm.getLsbD i) + (List.range 16).countP (fun i => cm.getLsbD i)
  if w = 0 then .ok d
  else
    let kind := if code = 3 then Config.eccManyFlips code d dm cm
      else if w = 1 then 1 else if w = 2 then 2 else Config.eccManyFlips code d dm cm
    if kind = 0 then .ok (d ^^^ dm)
    else if kind = 1 then .ce (if w = 1 then d else Config.eccMiscorrect code d dm cm)
    else if mirrored then .mir d
    else .ue (d ^^^ dm)

/-- The injection armed for a word of a memory. -/
def State.flipArmed (s : State) (code word : Nat) : Bool :=
  s.on F.ECC_FLIP_CTL_ARM && decide (s.fv F.ECC_FLIP_CTL_MEM = code) &&
    (s.on F.ECC_FLIP_CTL_ANY || decide (s.fv F.ECC_FLIP_CTL_ADDR = word))

/-- The armed injection has been used: ARM clears, or stays for a second ARM that was kept (R305). -/
def State.flipUsed (s : State) : State :=
  if s.net.armAgain then { s with net := { s.net with armAgain := false } } else s.fset F.ECC_FLIP_CTL_ARM 0

/-- First byte of the DDR5 mirrored region and of the second copies below it (R295). -/
def State.mirrorStart (s : State) : Nat := (128 - s.fv F.DDR_MIRROR_SIZE) * 2 ^ 30
def State.copyStart (s : State) : Nat := (128 - 2 * s.fv F.DDR_MIRROR_SIZE) * 2 ^ 30

/-- A word with the given bytes of memory put into it. -/
def State.mergedWord (s : State) (code i : Nat) (put : Nat → Option Byte) : DWord :=
  (List.range 8).foldl (fun (d : DWord) k => match put (8 * i + k) with
    | some b => (d &&& ~~~((0xFF : DWord) <<< (8 * k))) ||| (b.setWidth 64 <<< (8 * k))
    | none => d) ((s.cell code i).data code i)

/-- The injection in force for a codeword's write: its data mask and check mask (R305). -/
structure Flip where
  dm : DWord
  cm : BitVec 16
  mirrored : Bool

/-- One word of a codeword is stored. `bad`: the read before the merge was uncorrectable; `inj`: the injection that falls on this
word. -/
def State.storeWord (s : State) (code i : Nat) (put : Nat → Option Byte) (bad : Bool) (inj : Option Flip) : State :=
  let d := s.mergedWord code i put
  let touched : Bool := (List.range 8).any (fun k => (put (8 * i + k)).isSome)
  match bad, inj, touched with
  | true, some f, true => s.setCell code i (.ue (d ^^^ f.dm))
  | true, none, true => s.setCell code i (.ue d)
  | true, _, false => s
  | false, some f, _ => s.setCell code i (flipped code f.mirrored d f.dm f.cm)
  | false, none, true => s.setCell code i (.ok d)
  | false, none, false => s

/-- The read that a write narrower than the codeword makes first. -/
def State.readFirst (s : State) (whole : Bool) (requester code cw : Nat) : Bool × State :=
  if whole then (false, s) else s.readCw requester code cw

/-- The injection armed for the codeword, and the state after it is used. -/
def State.takeFlip (s : State) (code cw : Nat) : Option Flip × State :=
  if s.flipArmed code cw then
    (some { dm := s.reg .ECC_FLIP_MASK, cm := BitVec.ofNat 16 (s.fv F.ECC_FLIP_CTL_CHK), mirrored := decide (code = 3 ∧ s.mirrorStart ≤ 64 * cw) },
      s.flipUsed)
  else (none, s)

/-- A write of bytes into one codeword: a write of the whole codeword stores a valid one; a narrower one merges, and
when its read finds an uncorrectable word the merged word stays uncorrectable (R299). An injection falls on the codeword's first
word. -/
def State.writeCw (s : State) (requester code cw : Nat) (put : Nat → Option Byte) : State :=
  let bytes := 8 * memSpan code
  let whole := (List.range bytes).all (fun k => (put (bytes * cw + k)).isSome)
  let r := s.readFirst whole requester code cw
  let f := r.2.takeFlip code cw
  (cwWords code cw).foldl (fun s i =>
    s.storeWord code i put r.1 (if i = memSpan code * cw then f.1 else none)) f.2

/-- A write of consecutive bytes. -/
def State.writeBytes (s : State) (requester code off : Nat) (data : List Byte) : State :=
  (cwRange code off data.length).foldl (fun s cw =>
    s.writeCw requester code cw (fun a => if off ≤ a then data[a - off]? else none)) s

/-! ## The internal address map (log 4) -/

/-- What stands at an internal physical address. `refused`: a DDR5 address the module refuses (R295, R297). -/
inductive Place where
  | mem (code off : Nat)
  | grain (off : Nat)
  | regs (off : Nat)
  | rom
  | refused
  | hole
deriving DecidableEq, Repr

/-- The unit whose window holds an address: a base, a size and what it is. -/
def inWindow (a base size : Nat) : Bool := decide (base ≤ a ∧ a < base + size)

/-- DDR5 addresses the module refuses: the second copies of the mirrored region, and the normal region above three
quarters of its size once a channel is lost. -/
def State.ddrRefused (s : State) (a : Nat) : Bool :=
  (decide (s.copyStart ≤ a) && decide (a < s.mirrorStart)) ||
    (decide (s.mems.ddrLost ≠ 0) && decide (s.copyStart * 3 / 4 ≤ a) && decide (a < s.mirrorStart))

/-- The place of an internal physical address. -/
def State.place (s : State) (a : Nat) : Place :=
  if a < 0x20_0000_0000 then (if s.ddrRefused a then .refused else .mem 3 a)
  else if inWindow a 0x20_0000_0000 0x200_0000 then .mem 1 (a - 0x20_0000_0000)
  else if inWindow a 0x20_0800_0000 0x400_0000 then .grain (a - 0x20_0800_0000)
  else if inWindow a Config.reserveBase 0x100_0000 then .mem 2 (a - Config.reserveBase)
  else
    match (List.finRange 4).find? (fun d => inWindow a (Config.devInstrBase d) 0x4_0000) with
    | some d => .mem (4 + d) (a - Config.devInstrBase d)
    | none =>
      match (List.finRange 4).find? (fun d => inWindow a (Config.devDataBase d) 0x4_0000) with
      | some d => .mem (8 + d) (a - Config.devDataBase d)
      | none =>
        match (List.finRange 4).find? (fun d => inWindow a (Config.mcSramBase d) 0x4_0000) with
        | some d => .mem (12 + d) (a - Config.mcSramBase d)
        | none =>
          if inWindow a Config.registerBase 0x100_0000 then .regs (a - Config.registerBase)
          else if (List.finRange 8).any
              (fun c => inWindow a (Config.bootRomBase c).toNat (Config.bootRomLimit c).toNat) then .rom
          else .hole

/-! ## Reservations (R100, R101) -/

/-- A store to a granule by an agent other than core `by_` ends the reservations that others hold on it. -/
def State.breakResv (s : State) (by_ : Option (Fin 8)) (granule : Nat) : State :=
  s.forFin 8 (fun c s =>
    if by_ ≠ some c ∧ (s.cores[c]).resv = some granule then s.modCore c (fun k => { k with resv := none }) else s)

/-- The granules of a byte range end their reservations. -/
def State.breakRange (s : State) (by_ : Option (Fin 8)) (a n : Nat) : State :=
  if n = 0 then s
  else (List.range ((a + n - 1) / 8 - a / 8 + 1)).foldl (fun s k => s.breakResv by_ (a / 8 + k)) s

/-- A reset of a memory ends every reservation on it (R101). -/
def State.endResvOn (s : State) (code : Nat) : State :=
  { s with cores := s.cores.map (fun k => match k.resv with
      | some g => (match s.place (8 * g) with
        | .mem m _ => if m = code then { k with resv := none } else k
        | _ => k)
      | none => k) }

/-- A write by a unit that is not a core, through an internal address inside one memory. -/
def State.dmaWrite (s : State) (requester addr : Nat) (data : List Byte) : State :=
  match s.place addr with
  | .mem code off => (s.breakRange none addr data.length).writeBytes requester code off data
  | _ => s

/-! ## Initialisation (R302) -/

/-- Every word of the memory becomes a zero codeword, and the reservations on it end (R101). -/
def State.memZero (s : State) (code : Nat) : State :=
  { s.endResvOn code with mems := s.mems.put code (Mem.of (.ok 0)) }

/-- Every die SRAM holds poison. -/
def Mems.poisoned (ms : Mems) : Mems :=
  { ms with
    staging := (Mem.of .poison), reserve := (Mem.of .poison), devI := Vector.replicate 4 (Mem.of .poison),
    devD := Vector.replicate 4 (Mem.of .poison), mc := Vector.replicate 4 (Mem.of .poison), camCorr := (Mem.of .poison) }

/-! ## Staging regions (R139) -/

/-- The camera strip area is in use. -/
def State.stripAreaUsed (s : State) : Bool := s.on F.CAM_CTL_ENABLE

/-- The Staging region of an offset: 0 Print, 1 camera strip area, 2 Camera, 3 General. -/
def State.stagingRegion (s : State) (off : Nat) : Nat :=
  if off < 0x160_0000 then 0
  else if off < 0x180_0000 then (if s.stripAreaUsed then 1 else 0)
  else if off < 0x1C0_0000 then 2
  else 3

end Sys2Proof.Machine
end

