-- ==== Sys2Proof/Machine/Grain.lean ====
section
/-!
DEFINITION. Grain memory and the grain array: gangs (R47), words and their protection (R49-R52), the neighbour links
(R39, R40), the trees (R45), the backdoor (R61, R62) and one cycle of every grain of a gang (R32-R35).
-/

namespace Sys2Proof.Machine

/-! ## Gangs (R47) -/

/-- The Developer that drives a partition under a GRN_GANG.MODE. -/
def gangDriver (mode : Nat) (p : Fin 4) : Fin 4 :=
  if mode = 0 then p
  else if mode = 1 then (if p.val < 2 then 0 else 2)
  else if mode = 2 then (if p.val < 3 then 0 else 3)
  else 0

/-- The partitions a Developer drives, one bit each; none when it drives no gang. -/
def gangParts (mode : Nat) (d : Fin 4) : BitVec 4 :=
  BitVec.ofFnLE (fun p => decide (gangDriver mode p = d))

def State.gangMode (s : State) : Nat := s.fv F.GRN_GANG_MODE
def State.partsOf (s : State) (d : Fin 4) : BitVec 4 := gangParts s.gangMode d
def State.drives (s : State) (d : Fin 4) : Bool := decide (s.partsOf d ≠ 0)

/-- The grains of a set of partitions: partition p holds bits 16,384p on (R30). -/
def gangMask (parts : BitVec 4) : Plane :=
  (List.finRange 4).foldl (fun (m : Plane) (p : Fin 4) =>
    if parts.getLsbD p.val then m ||| ((BitVec.allOnes 16384).setWidth 65536 <<< (16384 * p.val)) else m) 0

/-- The Tray-row words of a set of partitions: partition p holds words 512p on (R61). -/
def gangWords (parts : BitVec 4) : BitVec 2048 :=
  (List.finRange 4).foldl (fun (m : BitVec 2048) (p : Fin 4) =>
    if parts.getLsbD p.val then m ||| ((BitVec.allOnes 512).setWidth 2048 <<< (512 * p.val)) else m) 0

/-- The grains of a set of Tray-row words. -/
def wordPlane (ws : BitVec 2048) : Plane :=
  (List.range 2048).foldl (fun (m : Plane) w =>
    if ws.getLsbD w then m ||| ((0xFFFFFFFF : Plane) <<< (32 * w)) else m) 0

/-- The members of a set of words, in rising order. -/
def wordList (ws : BitVec 2048) : List Nat := (List.range 2048).filter (fun w => ws.getLsbD w)

/-- One word alone. -/
def oneWord (w : Nat) : BitVec 2048 := 1 <<< w

/-- Keeps `old` outside a set of grains and takes `new` inside. -/
def merge (m new old : Plane) : Plane := (new &&& m) ||| (old &&& ~~~m)
def mergeW (m new old : BitVec 2048) : BitVec 2048 := (new &&& m) ||| (old &&& ~~~m)

/-! ## Words and their protection -/

def Grains.plane (g : Grains) (a : Nat) : GPlane := smGet (fun _ => g.base) g.mem a

def Grains.setPlane (g : Grains) (a : Nat) (p : GPlane) : Grains :=
  { g with mem := smSet (fun _ => g.base) g.mem a p }

def State.setGrains (s : State) (g : Grains) : State := { s with grains := g }

/-- The stored bits of a plane; those of a poisoned word are open (log 9). -/
def GPlane.stored (p : GPlane) (a : Nat) : Plane :=
  if p.poison = 0 then p.data else merge (wordPlane p.poison) (Config.poisonPlane a) p.data

/-- The word index of R304 for word `w` at address `a`. -/
def grainWord (a w : Nat) : Nat := a * 2048 + w

/-- The Developer's core: cores 0-3 are D0-D3 (R73). -/
def devCore (d : Fin 4) : Fin 8 := ⟨d.val, by omega⟩

/-- Uncorrectable words of grain memory: GRN_STATUS.UE and GRN_ECC_Pn for each partition, the ECC_ record and the
Contact Sheet (R50, R301). When several words fail in one cycle the record takes one of them (log 9). -/
def State.grainUE (s : State) (a : Nat) (ws : BitVec 2048) (requester : Nat) : State :=
  s.forFin 4 (fun p s =>
    let l := (wordList ws).filter (fun w => decide (w / 512 = p.val))
    match l[(s.free_ 16).toNat % l.length]? with
    | none => s
    | some w =>
      let s := s.used
      let s := s.fset F.GRN_STATUS_UE (natSetBit (s.fv F.GRN_STATUS_UE) p.val true)
      let s := if s.on F.GRN_ECC_UE_VALID p then s
        else (((s.fset F.GRN_ECC_UE_VALID 1 p).fset F.GRN_ECC_UE_ROW (w / 8) p).fset F.GRN_ECC_UE_TCOL (w % 8) p).fset
          F.GRN_ECC_UE_ADDR a p
      s.ueRecord 0 (grainWord a w) requester)

/-- The machine check of R50: taken by the Developer that drives a partition with a failing word. -/
def State.grainMC (s : State) (ws : BitVec 2048) : State :=
  s.forFin 4 (fun p s =>
    if ws &&& gangWords (1 <<< p.val) = 0 then s
    else s.modCore (devCore (gangDriver s.gangMode p)) (fun k => { k with mcPend := true }))

/-- A protected read of words of one address: corrected words are written back and counted (R50); the uncorrectable ones
are recorded. Answers those words. -/
def State.grainRead (s : State) (a : Nat) (ws : BitVec 2048) (requester : Nat) : BitVec 2048 × State :=
  let p := s.grains.plane a
  let ce := p.ce &&& ws
  let ue := (p.bad ||| p.poison) &&& ws
  let s := if ce = 0 then s
    else
      let s := s.setGrains (s.grains.setPlane a { p with ce := p.ce &&& ~~~ce })
      (wordList ce).foldl (fun s w => (s.finc F.GRN_ECC_CE_COUNT (w / 512)).finc F.ECC_SCRUB_CE_COUNT 0) s
  if ue = 0 then (0, s) else (ue, s.grainUE a ue requester)

/-- What an injection of R305 makes of a word written at one address. With ANY = 1 and several words written in one
cycle, the spec does not say which takes it: a free choice (log 8). -/
def State.grainFlip (s : State) (a : Nat) (ws : BitVec 2048) : State :=
  let l := wordList ws
  let hit : Option Nat :=
    if s.on F.ECC_FLIP_CTL_ARM && decide (s.fv F.ECC_FLIP_CTL_MEM = 0) then
      if s.on F.ECC_FLIP_CTL_ANY then l[(s.free_ 16).toNat % l.length]?
      else l.find? (fun w => decide (grainWord a w = s.fv F.ECC_FLIP_CTL_ADDR))
    else none
  match hit with
  | none => s
  | some w =>
    let s := s.used.flipUsed
    let p := s.grains.plane a
    let dm : DWord := s.reg .ECC_FLIP_MASK &&& 0xFFFFFFFF
    let cm : BitVec 16 := BitVec.ofNat 16 (s.fv F.ECC_FLIP_CTL_CHK % 128)
    let old : DWord := (p.data >>> (32 * w)).setWidth 64 &&& 0xFFFFFFFF
    let put (x : DWord) : Plane := merge (wordPlane (oneWord w)) (x.setWidth 65536 <<< (32 * w)) p.data
    let p' : GPlane := match flipped 0 false old dm cm with
      | .ce d => { p with data := put (d &&& 0xFFFFFFFF), ce := p.ce ||| oneWord w }
      | .ue d => { p with data := put (d &&& 0xFFFFFFFF), bad := p.bad ||| oneWord w }
      | .ok d => { p with data := put (d &&& 0xFFFFFFFF) }
      | _ => p
    s.setGrains (s.grains.setPlane a p')

/-- A full-word write of words of one address: it stores valid codewords whatever was there. -/
def State.grainWrite (s : State) (a : Nat) (ws : BitVec 2048) (data : Plane) : State :=
  let p := s.grains.plane a
  let m := wordPlane ws
  let p' : GPlane := { data := merge m data p.data, poison := p.poison &&& ~~~ws, bad := p.bad &&& ~~~ws, ce := p.ce &&& ~~~ws }
  (s.setGrains (s.grains.setPlane a p')).grainFlip a ws

/-- A masked write: the words are read with correction, the bits of `m` are merged and the words written; a word whose
read was uncorrectable stays so (R35, R51). Answers the uncorrectable words. -/
def State.grainMerge (s : State) (a : Nat) (ws : BitVec 2048) (m data : Plane) (requester : Nat) : BitVec 2048 × State :=
  let r := s.grainRead a ws requester
  let p := r.2.grains.plane a
  let wp := wordPlane ws
  let old := p.stored a
  let p' : GPlane :=
    { data := merge wp (merge m data old) p.data, poison := p.poison &&& ~~~ws, bad := p.bad ||| r.1, ce := p.ce &&& ~~~ws }
  (r.1, (r.2.setGrains (r.2.grains.setPlane a p')).grainFlip a ws)

/-- Every word of the partitions becomes a zero codeword at every address (R52). -/
def Grains.zeroed (g : Grains) (parts : BitVec 4) : Grains :=
  let ws := gangWords parts
  let z (p : GPlane) : GPlane :=
    { data := p.data &&& ~~~(gangMask parts), poison := p.poison &&& ~~~ws, bad := p.bad &&& ~~~ws, ce := p.ce &&& ~~~ws }
  let base := z g.base
  { g with base := base, mem := (g.mem.map (fun e => (e.1, z e.2))).filter (fun e => e.2 ≠ base) }

/-! ## NEWS links and edges (R39, R40) -/

/-- An edge setting of GRN_EDGE: 0 north, 1 south, 2 east, 3 west of a partition (R64). Encoding 3 acts as ZERO. -/
def edgeOf (e : DWord) (p side : Nat) : Nat :=
  let v := e.toNat / 2 ^ (8 * p + 2 * side) % 4
  if v = 3 then 0 else v

/-- JOIN takes effect between two partitions of one gang (R40). -/
def joined (mode p q : Nat) : Bool :=
  decide (gangDriver mode (Fin.ofNat 4 p) = gangDriver mode (Fin.ofNat 4 q))

/-- The row a grain of row `r` reads across the north edge (up) or the south edge of its partition, or none for 0. -/
def rowAcross (mode : Nat) (e : DWord) (r : Nat) (up : Bool) : Option Nat :=
  let p := r / 64
  let inside := if up then decide (r % 64 ≠ 0) else decide (r % 64 ≠ 63)
  if inside then some (if up then r - 1 else r + 1)
  else
    let q := if up then (p + 3) % 4 else (p + 1) % 4
    match edgeOf e p (if up then 0 else 1) with
    | 1 => some (if up then 64 * p + 63 else 64 * p)
    | 2 => if joined mode p q then some (if up then 64 * q + 63 else 64 * q) else none
    | _ => none

/-- The grain whose X the grain `g` reads in a direction (0 N, 1 E, 2 S, 3 W), or none for 0. -/
def neighbour (mode : Nat) (e : DWord) (dir g : Nat) : Option Nat :=
  let r := g / 256
  let c := g % 256
  let p := r / 64
  match dir with
  | 0 => (rowAcross mode e r true).map (fun q => 256 * q + c)
  | 2 => (rowAcross mode e r false).map (fun q => 256 * q + c)
  | 3 =>
    if c ≠ 0 then some (g - 1)
    else
      match edgeOf e p 3 with
      | 1 => some (256 * r + 255)
      | 2 => (rowAcross mode e r true).map (fun q => 256 * q + 255)
      | _ => none
  | _ =>
    if c ≠ 255 then some (g + 1)
    else
      match edgeOf e p 2 with
      | 1 => some (256 * r)
      | 2 => (rowAcross mode e r false).map (fun q => 256 * q)
      | _ => none

/-- What every grain receives from its neighbour in a direction. -/
def newsPlane (mode : Nat) (e : DWord) (dir : Nat) (x : Plane) : Plane :=
  BitVec.ofFnLE (fun g : Fin 65536 =>
    match neighbour mode e dir g.val with
    | some k => x.getLsbD k
    | none => false)

/-- A direction's reads cross a JOIN edge whose partition lies outside the gang, so that it acts as ZERO (R40). -/
def joinMis (mode : Nat) (e : DWord) (parts : BitVec 4) (dir : Nat) : Bool :=
  (List.range 4).any (fun p =>
    let north := edgeOf e p 0 = 2 ∧ ¬ joined mode p ((p + 3) % 4)
    let south := edgeOf e p 1 = 2 ∧ ¬ joined mode p ((p + 1) % 4)
    parts.getLsbD p && (match dir with
      | 0 => decide north
      | 2 => decide south
      | 3 => decide (edgeOf e p 3 = 2 ∧ north)
      | _ => decide (edgeOf e p 2 = 2 ∧ south)))

/-! ## Trees (R45) -/

/-- The contributing grains of a gang: F AND M. -/
def Grains.tree (g : Grains) (parts : BitVec 4) : Plane := g.F &&& g.M &&& gangMask parts

/-- The number of set bits. -/
def popPlane (x : Plane) : Nat := (List.range 65536).countP (fun i => x.getLsbD i)

/-- The global OR a Developer sees; false where it drives no gang (R71). -/
def State.globalOr (s : State) (d : Fin 4) : Bool := decide (s.grains.tree (s.partsOf d) ≠ 0)

/-! ## One cycle (R32-R35) -/

/-- The fields of a nano-word (R120). -/
structure Nano where
  gcap : Bool
  sum : Bool
  bshr : Bool
  cmt : Bool
  bsel : Nat
  mup : Nat
  gsel : Bool
  gop : Nat
  news : Nat
  wall : Bool
  idx : Nat
  ari : Bool
  adr : Nat
  dM : Bool
  dX : Bool
  dC : Bool
  dF : Bool
  dMem : Bool
  bsrc : Nat
  asrc : Nat
  tt : Nat
  alu : Nat
deriving DecidableEq, Repr

/-- Reads a nano-word's fields. -/
def nanoOf (w : BitVec 128) : Nano :=
  let f (lo n : Nat) : Nat := w.toNat / 2 ^ lo % 2 ^ n
  let b (i : Nat) : Bool := w.getLsbD i
  { gcap := b 39, sum := b 38, bshr := b 37, cmt := b 36, bsel := f 30 6, mup := f 28 2, gsel := b 27, gop := f 25 2,
    news := f 23 2, wall := b 22, idx := f 20 2, ari := b 19, adr := f 17 2, dM := b 16, dX := b 15, dC := b 14,
    dF := b 13, dMem := b 12, bsrc := f 9 3, asrc := f 6 3, tt := f 2 4, alu := f 0 2 }

/-- A nano-word that breaks R121 or R33: a reserved encoding, nonzero high bits, a read and a write of memory, an indexed
address with a write, STORE with a MEM destination or a MEM source. -/
def nanoBroken (w : BitVec 128) : Bool :=
  let n := nanoOf w
  let reads := decide (n.asrc = 1) || decide (n.bsrc = 1) || n.ari
  let store := decide (n.gop = 3)
  decide (n.alu = 3) || decide (n.idx = 3) || decide (w >>> 40 ≠ 0) || (reads && (n.dMem || store)) || (store && n.dMem)

/-- The plane of an indexed read: grain g reads address (ar + its I) mod 8,192, unchecked (R34, R38). -/
def Grains.indexed (g : Grains) (ar : Nat) : Plane :=
  BitVec.ofFnLE (fun k : Fin 65536 =>
    let i := (List.range 13).foldl (fun n b => if (g.I.toList.getD b 0).getLsbD k then n + 2 ^ b else n) 0
    let a := (ar + i) % 8192
    ((g.plane a).stored a).getLsbD k)

/-- One nano-word on every grain of a gang: `ar` is the address register's value and `bcast` the selected broadcast bit.
Answers the state after the cycle and the uncorrectable words met. -/
def State.nanoCycle (s : State) (parts : BitVec 4) (n : Nano) (ar : Nat) (bcast : Bool) (edge : DWord)
    (inWindow : Bool) (requester : Nat) : BitVec 2048 × State :=
  let gm := gangMask parts
  let ws := gangWords parts
  let memSrc := decide (n.asrc = 1) || decide (n.bsrc = 1)
  let r := if memSrc && !n.ari then s.grainRead ar ws requester else (0, s)
  let s := r.2
  let newsSrc := decide (n.asrc = 4) || decide (n.bsrc = 4)
  let s := if newsSrc && joinMis s.gangMode edge parts n.news then s.fset F.GRN_STATUS_JOIN_MIS 1 else s
  let g := s.grains
  let mem : Plane := (g.plane ar).stored ar
  let src (k : Nat) (latch : Plane) : Plane :=
    match k with
    | 0 => latch
    | 1 => if n.ari then latch else mem
    | 2 => g.GC0
    | 3 => g.GC1
    | 4 => newsPlane s.gangMode edge n.news g.X
    | 5 => if bcast then BitVec.allOnes 65536 else 0
    | 6 => g.F
    | _ => g.C
  let a := src n.asrc g.A
  let b := src n.bsrc g.B
  let bb := if n.alu = 2 then ~~~b else b
  let t (i : Nat) : Bool := n.tt.testBit i
  let logic : Plane :=
    (if t 0 then ~~~a &&& ~~~b else 0) ||| (if t 1 then ~~~a &&& b else 0) ||| (if t 2 then a &&& ~~~b else 0) |||
      (if t 3 then a &&& b else 0)
  let res : Plane := if n.alu = 0 then logic else a ^^^ bb ^^^ g.C
  let carry : Plane := if n.alu = 0 then logic else (a &&& bb) ||| (a &&& g.C) ||| (bb &&& g.C)
  let east (x : Plane) : Plane :=
    (x <<< 1) &&& ~~~((List.range 256).foldl (fun (m : Plane) r => m ||| (1 <<< (256 * r))) 0)
  let shift := decide (n.gop = 1) && !inWindow
  let mNew : Plane :=
    match n.mup with
    | 0 => res
    | 1 => g.M &&& res
    | 2 => g.M ||| res
    | _ => BitVec.allOnes 65536
  let idx (k : Fin 13) : Plane :=
    let old := g.I[k]
    match n.idx with
    | 1 => merge gm (if k.val = 0 then a else g.I.toList.getD (k.val - 1) 0) old
    | 2 => old &&& ~~~gm
    | _ => old
  let load (sel : Bool) : Bool := decide (n.gop = 2) && decide (n.gsel = sel)
  let g' : Grains :=
    { g with
      A := if n.asrc = 0 then g.A else merge gm a g.A,
      B := if n.bsrc = 0 then g.B else merge gm b g.B,
      C := if n.dC then merge gm carry g.C else g.C,
      F := if n.dF then merge (gm &&& g.M) res g.F else g.F,
      X := if n.dX then merge gm res g.X else g.X,
      M := if n.dM then merge gm mNew g.M else g.M,
      G0 := if shift then merge gm (east g.G0) g.G0 else g.G0,
      G1 := if shift then merge gm (east g.G1) g.G1 else g.G1,
      GP0 := if load false then merge gm res g.GP0 else g.GP0,
      GP1 := if load true then merge gm res g.GP1 else g.GP1,
      loaded0 := if load false then g.loaded0 ||| parts else g.loaded0,
      loaded1 := if load true then g.loaded1 ||| parts else g.loaded1,
      I := Vector.ofFn idx,
      unstored0 := if n.gop = 3 ∧ ¬ n.gsel then g.unstored0 &&& ~~~parts else g.unstored0,
      unstored1 := if n.gop = 3 ∧ n.gsel then g.unstored1 &&& ~~~parts else g.unstored1 }
  let s := s.setGrains g'
  if n.gop = 3 then (r.1, s.grainWrite ar ws (if n.gsel then g.GC1 else g.GC0))
  else if n.dMem then
    if n.wall then (r.1, s.grainWrite ar ws res)
    else
      let w := s.grainMerge ar ws (gm &&& g.M) res requester
      (r.1 ||| w.1, w.2)
  else (r.1, s)

/-! ## The backdoor (R61, R62) -/

/-- The (address, word) pairs that a byte range of the window touches. -/
def backdoorWords (off n : Nat) : List (Nat × Nat) :=
  if n = 0 then []
  else (List.range ((off + n - 1) / 4 - off / 4 + 1)).map (fun k => ((off / 4 + k) / 2048, (off / 4 + k) % 2048))

/-- A backdoor read: each word is read with correction; the flag says that one was uncorrectable. -/
def State.backdoorRead (s : State) (off n requester : Nat) : Bool × State :=
  (backdoorWords off n).foldl (fun r aw =>
    let x := r.2.grainRead aw.1 (oneWord aw.2) requester
    (r.1 || decide (x.1 ≠ 0), x.2)) (false, s)

/-- Bytes of the window as stored. -/
def State.backdoorBytes (s : State) (off n : Nat) : List Byte :=
  (List.range n).map (fun k =>
    let o := off + k
    let a := o / 8192
    (((s.grains.plane a).stored a) >>> (8 * (o % 8192))).setWidth 8)

/-- A backdoor write: a group of 4 bytes written completely is a full-word write, a narrower one a read-merge-write whose
uncorrectable outcome is R50's, the Developer's machine check included (R51, R62). -/
def State.backdoorWrite (s : State) (off : Nat) (data : List Byte) (requester : Nat) : State :=
  (backdoorWords off data.length).foldl (fun s aw =>
    let start := aw.1 * 8192 + aw.2 * 4
    let byte (k : Nat) : Option Byte := if off ≤ start + k then data[start + k - off]? else none
    let bits : Plane := (List.range 4).foldl (fun (x : Plane) k => match byte k with
      | some b => x ||| (b.setWidth 65536 <<< (32 * aw.2 + 8 * k))
      | none => x) 0
    let m : Plane := (List.range 4).foldl (fun (x : Plane) k =>
      if (byte k).isSome then x ||| ((0xFF : Plane) <<< (32 * aw.2 + 8 * k)) else x) 0
    if (List.range 4).all (fun k => (byte k).isSome) then s.grainWrite aw.1 (oneWord aw.2) bits
    else
      let r := s.grainMerge aw.1 (oneWord aw.2) m bits requester
      r.2.grainMC r.1) s

end Sys2Proof.Machine
end

