-- ==== Sys2Proof/Machine/Ghl.lean ====
section
/-!
DEFINITION. The Garorloth Head Link: its blocks and frames byte by byte, their coding on a lane of either generation, and the time
they take there (R169-R173, R177, R179).
-/

namespace Sys2Proof.Machine

/-! ## CRC-32C (R84) -/

/-- Folds the low byte of `b` into the reflected CRC `c` with a reflected polynomial (R84). -/
def crcFold (poly c b : Word) : Word :=
  (List.range 8).foldl (fun (c : Word) _ => if c.getLsbD 0 then (c >>> 1) ^^^ poly else c >>> 1) (c ^^^ (b &&& 0xFF))

/-- CRC-32C with initial value and final exclusive-OR of all ones (R84). -/
def crc32c (b : List Byte) : Nat :=
  (b.foldl (fun (c : Word) x => crcFold 0x82F63B78 c (x.setWidth 32)) 0xFFFFFFFF ^^^ 0xFFFFFFFF).toNat

/-! ## Blocks (R169, R170) -/

/-- A block: eight bytes, byte 0 first; byte 0 of a control block is its TYPE. -/
structure Block where
  ctl : Bool
  bytes : List Byte
deriving DecidableEq, Repr

/-- CHK of a FIRE or CANCEL: the exclusive-OR of its bytes but byte 3. -/
def blockChk (b : List Byte) : Byte := (b.eraseIdx 3).foldl (fun x y => x ^^^ y) 0

/-- A control block whose byte 3 is its CHK. -/
def checkedBlock (b : List Byte) : Block := { ctl := true, bytes := b.set 3 (blockChk b) }

/-- IDLE. -/
def idleBlock : Block := { ctl := true, bytes := 0x1E :: List.replicate 7 0 }

/-- FIRE of a line on a group. -/
def fireBlock (group line : Nat) (blank rev : Bool) (delay : Nat) : Block :=
  checkedBlock ([0x2D, BitVec.ofNat 8 ((if blank then 128 else 0) + (if rev then 64 else 0) + group % 64), BitVec.ofNat 8 delay, 0] ++
    leBytes line 4)

/-- CANCEL of a line. -/
def cancelBlock (line : Nat) : Block := checkedBlock ([0x4B, 0, 0, 0] ++ leBytes line 4)

/-- LINK from the module: VERSION 1, HEADS and MAXNOZ 0. -/
def linkBlock (state : Nat) : Block := { ctl := true, bytes := [0x33, BitVec.ofNat 8 state, 1, 0, 0, 0, 0, 0] }

/-! ## Frames (R171-R173) -/

/-- SOF of a frame. -/
def sofBlock (f : Frame) (retx : Bool) : Block :=
  { ctl := true,
    bytes := [0x78, f.seq, BitVec.ofNat 8 ((if retx then 128 else 0) + (if f.stale then 64 else 0) + f.group % 64),
      BitVec.ofNat 8 (f.head % 64)] ++ leBytes f.line 4 }

/-- The header data block: FIRST, COUNT, PORT and VERSION 1. -/
def headerBlock (port : Nat) (f : Frame) : Block :=
  { ctl := false, bytes := leBytes (f.first % 2 ^ 14) 2 ++ leBytes f.count 2 ++ [BitVec.ofNat 8 (port % 16), 1, 0, 0] }

/-- Four drop codes as a payload byte. -/
def codesByte (c : List (BitVec 2)) : Byte :=
  BitVec.ofNat 8 ((List.range 4).foldl (fun n i => n + (c.getD i 0).toNat * 4 ^ i) 0)

/-- The payload blocks of drop codes, 32 a block, the last padded with zero bytes. -/
def payloadBlocks (codes : List (BitVec 2)) : List Block :=
  (List.range ((codes.length + 31) / 32)).map (fun k =>
    { ctl := false, bytes := (List.range 8).map (fun i => codesByte ((codes.drop (32 * k + 4 * i)).take 4)) })

/-- EOF with the CRC of a frame. -/
def eofBlock (crc : Nat) : Block := { ctl := true, bytes := [0x87, 0, 0, 0] ++ leBytes crc 4 }

/-- The bytes that the CRC of R173 covers: those of SOF or TSOF but its TYPE, and of every data block. -/
def crcCovers (blocks : List Block) : List Byte := (blocks.flatMap (fun b => b.bytes)).drop 1

/-- The blocks of a frame. -/
def frameBlocks (port : Nat) (f : Frame) (retx : Bool) (codes : List (BitVec 2)) : List Block :=
  let body := sofBlock f retx :: headerBlock port f :: payloadBlocks codes
  body ++ [eofBlock (crc32c (crcCovers body))]

/-- The GHL blocks that an event on a lane stands for. -/
def Out.blocks : Out → List Block
  | .idle _ => [idleBlock]
  | .fire _ group line blank rev delay => [fireBlock group line blank rev delay]
  | .cancel _ line => [cancelBlock line]
  | .link _ state => [linkBlock state]
  | .frame _ port f retx codes => frameBlocks port f retx codes
  | _ => []

/-! ## Coding on the lane (R169) -/

/-- A character of Gen B: a control or a data character, by its byte. -/
structure LaneChar where
  k : Bool
  byte : Byte
deriving DecidableEq, Repr

/-- K27.7, which begins a control block, and K28.5, which begins IDLE. -/
def k27_7 : LaneChar := { k := true, byte := 0xFB }
def k28_5 : LaneChar := { k := true, byte := 0xBC }

/-- The characters of a block on Gen B; IDLE is K28.5 and seven D0.0. -/
def Block.genB (b : Block) : List LaneChar :=
  let data := b.bytes.map (fun x => { k := false, byte := x })
  if b = idleBlock then k28_5 :: List.replicate 7 { k := false, byte := 0 } else if b.ctl then k27_7 :: data else data

/-- One bit through the scrambler of Clause 49, whose polynomial is 1 + x^39 + x^58 (PRESUMED, log 126). -/
def scrambleBit (s : BitVec 58) (b : Bool) : Bool × BitVec 58 :=
  let o := b ^^ s.getLsbD 38 ^^ s.getLsbD 57
  (o, (s <<< 1) ||| (if o then 1 else 0))

/-- The 66-bit unit of a block on Gen C: its sync header and its scrambled bits, byte 0 and bit 0 first, with the scrambler after it. -/
def Block.genC (b : Block) (s : BitVec 58) : (BitVec 2 × List Bool) × BitVec 58 :=
  let bits := b.bytes.flatMap (fun x => (List.range 8).map (fun i => x.getLsbD i))
  let r := bits.foldl (fun (r : List Bool × BitVec 58) x => let y := scrambleBit r.2 x; (r.1 ++ [y.1], y.2)) ([], s)
  ((if b.ctl then 2 else 1, r.1), r.2)

/-! ## Block times (R169, R177), in fifths of a nanosecond -/

/-- The time of a block on a lane of a generation. -/
def blockTime (gen : Nat) (ctl : Bool) : Nat := if gen = 2 then 32 else if ctl then 144 else 128

/-- The time of an IDLE. -/
def idleTime (gen : Nat) : Nat := if gen = 2 then 32 else 128

/-- The first block boundary at or after `t` of a lane whose pending blocks begin at `at_`, and the blocks left then; IDLEs follow the
last. -/
def boundaryFrom (idle : Nat) (t : Nat) : Nat → List (Nat × Bool) → Nat × List (Nat × Bool)
  | at_, [] => (if t ≤ at_ then at_ else at_ + (t - at_ + idle - 1) / idle * idle, [])
  | at_, b :: q => if t ≤ at_ then (at_, b :: q) else boundaryFrom idle t (at_ + b.1) q

/-- The boundary behind the FIRE blocks already queued. -/
def behindFires : Nat → List (Nat × Bool) → Nat × List (Nat × Bool)
  | at_, [] => (at_, [])
  | at_, b :: q => if (b :: q).any (fun x => x.2) then behindFires (at_ + b.1) q else (at_, b :: q)

/-- DELAY of a FIRE copy that starts `d` after its fire: 256 ns less that, to the nearest nanosecond, a half rounding up; 0 where it
cannot start in time. -/
def fireDelay (d : Nat) : Nat := (1280 - d + 2) / 5

end Sys2Proof.Machine
end

