-- ==== Sys2Proof/Machine/Print.lean ====
section
/-!
DEFINITION. The Shutter's part of a job: depth, claims, line ticks, arming and firing, runs of lost lines, Holds and the end
of the job (R148-R166, R176, R177, R185, R186).
-/

namespace Sys2Proof.Machine

/-! ## Developers -/

/-- A gang write put off while Fog check slices ran takes effect once none runs (R48). -/
def State.gangDue (s : State) : State :=
  match s.grains.gangDeferred with
  | some m =>
    if (List.finRange 4).any (fun e => (s.devs[e]).fogRunning) then s
    else (s.setGrains { s.grains with gangDeferred := none }).fset F.GRN_GANG_MODE m.toNat
  | none => s

/-- The expander is reached by an interrupt, a trap, a halt or a slip: a routine short of its commit point, or a Fog check slice,
is abandoned; a committed routine runs to DONE; and the expander stops (R53, R123). -/
def State.abandon (s : State) (d : Fin 4) : State :=
  (s.modDev d (fun x =>
    let st : ExpState := match x.ex.st with
      | .waitg _ => if x.ex.committed then x.ex.st else .abandoned
      | .running => if x.ex.committed then x.ex.st else .abandoned
      | st => st
    { x with fogRunning := false, ex := { x.ex with st := st, stopped := true } })).gangDue

/-- The Developer drives the gang of the job (R47, R263: D0 drives it in both arrangements). -/
def State.drivesPrint (s : State) (d : Fin 4) : Bool := s.job.isSome && decide (d = 0)

/-- A debug halt takes effect (R347): the reservation ends, and a Developer's routine is abandoned before its commit point. -/
def State.haltCore (s : State) (c : Fin 8) : State :=
  let s := s.modCore c (fun k => { k with halted := true, stepping := false, resv := none })
  if h : c.val < 4 then s.abandon ⟨c.val, h⟩ else s

/-- Halts that waited for a boundary take effect (R348). -/
def State.applyHalts (s : State) : State :=
  let s := s.forFin 4 (fun d s => if s.sec.haltPending.getLsbD d.val then s.haltCore (devCore d) else s)
  { s with sec := { s.sec with haltPending := 0 } }

/-! ## Settings -/

/-- LEAD (R167): values outside 1-4 act as 1. -/
def State.lead (s : State) : Nat :=
  let v := s.fv F.SHT_CTL_LEAD
  if 1 ≤ v ∧ v ≤ 4 then v else 1

/-- The enabled groups. -/
def State.groupsOn (s : State) : List (Fin 64) := (List.finRange 64).filter (fun g => s.on F.SHT_GRP_ENABLE g)

def State.delay (s : State) (g : Fin 64) : Nat := s.fv F.SHT_GRP_DELAY g

/-- DMIN and DMAX over the enabled groups (R150). -/
def State.dmin (s : State) : Nat := (s.groupsOn.map s.delay).foldl Nat.min 255
def State.dmax (s : State) : Nat := (s.groupsOn.map s.delay).foldl Nat.max 0

/-- NPG of a code. -/
def npgOf (c : Fin 4) : Nat := 2 ^ c.val

/-- C_R, the Reserve's line slots (R148). -/
def Job.slots (j : Job) : Nat := 1024 / npgOf j.npgCode

/-- D (R149). -/
def Job.depth (j : Job) : Nat := j.complete - j.claimed

/-- The in-flight count (R149). -/
def Job.inflight (j : Job) : Nat := j.claimed - j.fired

/-- The module scans (R161). -/
def State.scanning (s : State) : Bool := decide (s.fv F.SHT_SWATH_MODE = 1 ∨ s.fv F.SHT_SWATH_MODE = 2)

def State.swathLen (s : State) : Nat := s.fv F.SHT_SWATH_LEN

/-- Swath k is a reverse swath. -/
def State.reverseSwath (s : State) (k : Nat) : Bool := decide (s.fv F.SHT_SWATH_MODE = 2 ∧ k % 2 = 1)

/-- Line n lies in a reverse swath. -/
def State.reverseLine (s : State) (n : Nat) : Bool :=
  s.scanning && decide (s.swathLen ≠ 0) && s.reverseSwath (n / s.swathLen)

/-- LINEPOS, signed 32.32. -/
def State.linepos (s : State) : Int := (s.reg .SHT_LINEPOS).toInt

/-- The tick index a position stands at: its integer part, or in a reverse swath the highest i with
(LEN - 1 - i) + REV_OFS at or above it (R158, R161). -/
def State.posIndex (s : State) (pos : Int) : Int :=
  if s.scanning && s.reverseSwath s.sht.swath.number then
    let ofs : Int := (BitVec.ofNat 32 (s.fv F.SHT_SWATH_REV_OFS)).toInt * 2 ^ 16
    (s.swathLen : Int) - 1 + (ofs - pos).fdiv (2 ^ 32)
  else pos.fdiv (2 ^ 32)

/-- The line tick of index 0 of the present swath. -/
def State.tickBase (s : State) : Int := if s.scanning then (s.sht.swath.number * s.swathLen : Nat) else 0

/-! ## Nozzle Map (R154) -/

/-- An entry of the Nozzle Map. -/
structure NEntry where
  slot : Nat
  group : Fin 64
  port : Nat
  head : Nat
  nozzle : Nat
deriving DecidableEq, Repr

/-- The valid entries, in slot order. -/
def State.entries (s : State) : List NEntry :=
  (s.mems.nmap.filter (fun e => e.2.getLsbD 31)).map (fun e =>
    let v := e.2.toNat
    { slot := e.1, group := Fin.ofNat 64 (v / 2 ^ 25), port := v / 2 ^ 20 % 32, head := v / 2 ^ 14 % 64,
      nozzle := v % 2 ^ 14 })

/-- Lanes 2i and 2i + 1 form a pair (R183). -/
def State.paired (s : State) (l : Nat) : Bool := s.on F.HP_LANE_CTL_PAIR (l / 2 * 2)

/-- The lane whose entries a lane carries: the even one of a pair. -/
def State.laneHome (s : State) (l : Nat) : Nat := if s.paired l then l / 2 * 2 else l

/-- A lane carries one of a group's heads. -/
def State.laneCarries (s : State) (l : Nat) (g : Fin 64) : Bool :=
  s.entries.any (fun e => decide (e.port = s.laneHome l ∧ e.group = g))

/-- The frames of a line on a port (R171), as (head, group, first nozzle, count). -/
def State.portFrames (s : State) (port : Nat) : List (Nat × Nat × Nat × Nat) :=
  let es := s.entries.filter (fun e => decide (e.port = port))
  (List.range 64).flatMap (fun h => (List.range 64).flatMap (fun g =>
    let ns := (es.filter (fun e => decide (e.head = h ∧ e.group.val = g))).map (fun e => e.nozzle)
    match ns with
    | [] => []
    | n :: _ =>
      let lo := ns.foldl Nat.min n
      let hi := ns.foldl Nat.max n
      (List.range ((hi - lo) / 4096 + 1)).map (fun k => (h, g, lo + 4096 * k, Nat.min 4096 (hi - lo + 1 - 4096 * k)))))

/-- The slot whose drop code a nozzle of a port and head takes. -/
def State.nozzleSlot (s : State) (port head nozzle : Nat) : Option Nat :=
  (s.entries.find? (fun e => decide (e.port = port ∧ e.head = head ∧ e.nozzle = nozzle))).map (fun e => e.slot)

/-- The Reserve byte and bit of the drop code of line n at output slot `slot` (R148). -/
def Job.codePlace (j : Job) (n slot : Nat) : Nat × Nat :=
  let g := slot / 8
  (n % j.slots * (npgOf j.npgCode * 16384) + slot % 8 * 16384 + g / 4, 2 * (g % 4))

/-- The drop codes of a frame of line n read from the Reserve's head side (R153), and whether a word was uncorrectable. -/
def State.frameCodes (s : State) (j : Job) (n port head first count : Nat) : List (BitVec 2) × Bool × State :=
  (List.range count).foldl (fun r i =>
    match r.2.2.nozzleSlot port head (first + i) with
    | none => (r.1 ++ [0], r.2.1, r.2.2)
    | some k =>
      if npgOf j.npgCode ≤ k % 8 then (r.1 ++ [0], r.2.1, r.2.2)
      else
        let p := j.codePlace n k
        let x := r.2.2.readRange 20 2 p.1 1
        (r.1 ++ [((x.2.memByte 2 p.1) >>> p.2).setWidth 2], r.2.1 || x.1, x.2)) ([], false, s)

/-! ## Blocks on a lane (R169, R177) -/

/-- DEV_TIME in fifths of a nanosecond. -/
def State.nowFifths (s : State) : Nat := 25 * s.devTime.toNat

/-- The blocks of a lane, from the first boundary at or after a time. -/
def State.blocksFrom (s : State) (l : Fin 16) (t : Nat) : Nat × List (Nat × Bool) :=
  boundaryFrom (idleTime (s.fv F.HP_LANE_CTL_GEN l)) t (s.lanes[l]).at_ (s.lanes[l]).blocks

/-- Sends an event's blocks on a lane, behind those that are pending. -/
def State.sendBlocks (s : State) (l : Fin 16) (o : Out) : State :=
  let q := s.blocksFrom l s.nowFifths
  let mine := o.blocks.map (fun b => (blockTime (s.fv F.HP_LANE_CTL_GEN l) b.ctl, false))
  (s.modLane l (fun x => { x with at_ := q.1, blocks := q.2 ++ mine })).emit o

/-- A FIRE goes out twice, in consecutive block slots: ready 20 ns after the fire, from the first boundary then, behind FIRE blocks
already queued and before everything else. A copy that cannot start within 256 ns counts in LATE_FIRE (R177). -/
def State.sendFire (s : State) (l : Fin 16) (group line : Nat) (blank rev : Bool) : State :=
  let now := s.nowFifths
  let len := blockTime (s.fv F.HP_LANE_CTL_GEN l) true
  let q := s.blocksFrom l (now + 100)
  let q := behindFires q.1 q.2
  let s := s.modLane l (fun x => { x with at_ := q.1, blocks := (len, true) :: (len, true) :: q.2 })
  ([q.1, q.1 + len] : List Nat).foldl (fun s start =>
    let s := s.emit (.fire l group line blank rev (fireDelay (start - now)))
    if 1280 < start - now then s.finc F.HP_LANE_STATUS_LATE_FIRE l else s) s

/-! ## Runs of lost lines (R152, R176) -/

/-- LINE_MISSED for a run: `stale` puts 1 in RESULT[31]. -/
def State.reportRun (s : State) (stale : Bool) (run : Nat × Nat) : State :=
  let r := pair run.1 (run.2 % 2 ^ 31 + if stale then 2 ^ 31 else 0)
  (s.csMasked 0x17 21 [run.1, run.2, 0xFF] 2).raiseJob .lineMissed r

/-- Closes the open run of blank or of stale lines, reporting it. -/
def State.closeRun (s : State) (stale : Bool) : State :=
  match s.job.bind (fun j => if stale then j.staleRun else j.blankRun) with
  | none => s
  | some run =>
    (s.reportRun stale run).modJob (fun j => if stale then { j with staleRun := none } else { j with blankRun := none })

/-- Counts a lost line and adds it to its run; a run of 64 is reported at once. -/
def State.lostLine (s : State) (stale : Bool) (n : Nat) : State :=
  let s := (s.fset F.SHT_STATUS_MISSED 1).finc F.SHT_LINE_MISS_CNT_COUNT
  match s.job with
  | none => s
  | some j =>
    let run := if stale then j.staleRun else j.blankRun
    let contiguous : Bool := match run with
      | some r => decide (r.1 + r.2 = n)
      | none => false
    let s := if run.isSome && !contiguous then s.closeRun stale else s
    let run' : Nat × Nat := match run with
      | some r => if contiguous then (r.1, r.2 + 1) else (n, 1)
      | none => (n, 1)
    let s := s.modJob (fun j => if stale then { j with staleRun := some run' } else { j with blankRun := some run' })
    if 64 ≤ run'.2 then s.closeRun stale else s

/-! ## Claims (R152) -/

/-- What an industrial output drives (R379): nothing while an overload, the field supply or an entry to Safe holds it
off, otherwise its source. -/
def State.doutOn (s : State) (o : Fin 16) : Bool :=
  let x := s.sht.dout[o]
  if x.heldOff || x.overload || s.pwr.fieldLow then false
  else
    match s.fv F.SHT_DOUT_CTL_SRC o with
    | 0 => s.on F.SHT_DOUT_CTL_LEVEL o
    | 1 => s.sht.holdReqDriven
    | 2 => x.pulse
    | _ => x.calib.getD (s.on F.SHT_DOUT_CTL_LEVEL o)

/-- Traces the outputs whose level differs from that in `old`. -/
def State.doutChanges (s old : State) : State :=
  s.forFin 16 (fun o t => if t.doutOn o = old.doutOn o then t else t.emit (.dout o (t.doutOn o)))

/-- HOLD_REQ is driven (R151). -/
def State.driveHoldReq (s : State) (v : Bool) : State :=
  ({ s with sht := { s.sht with holdReqDriven := v } } : State).doutChanges s

/-- A fall of D to LOW_WATER (R151). -/
def State.starve (s : State) (nextDue depth : Nat) : State :=
  let s := (s.fset F.SHT_STATUS_STARVE 1).driveHoldReq true
  if s.sht.warnArmed && s.sht.held.isNone then
    ({ s with sht := { s.sht with warnArmed := false } }).raiseJob .starveWarn (pair depth nextDue)
  else s

/-- Appends a run to a Gen A head stream (R186): tagged words, then data words. -/
def State.genARun (s : State) (r : Fin 16) (tagged data : List (BitVec 16)) : State :=
  s.modFab r (fun x => { x with hs := x.hs ++ tagged.map (·, true) ++ data.map (·, false) })

/-- The first tagged words of a Gen A run: KIND, GROUP, HEAD and the line. -/
def genAHead (kind group head n : Nat) : List (BitVec 16) :=
  [BitVec.ofNat 16 (kind * 2 ^ 14 + group * 64 + head), BitVec.ofNat 16 (n % 2 ^ 16), BitVec.ofNat 16 (n / 2 ^ 16)]

/-- Eight drop codes as a Gen A data word. -/
def codesWord (cs : List (BitVec 2)) : BitVec 16 :=
  BitVec.ofNat 16 ((List.range 8).foldl (fun n i => n + (cs.getD i 0).toNat * 4 ^ i) 0)

/-- A claimed line reaches the Gen A ports in frame order: KIND 0 runs, or KIND 1 for a blank line, one for each head and
group (R186). -/
def State.genALine (s : State) (j : Job) (n : Nat) (blank : Bool) : Bool × State :=
  (List.range 8).foldl (fun r p =>
    (r.2.portFrames (16 + p)).foldl (fun r f =>
      let region : Fin 16 := Fin.ofNat 16 p
      if blank then (r.1, r.2.genARun region (genAHead 1 f.2.1 f.1 n) [])
      else
        let c := r.2.frameCodes j n (16 + p) f.1 f.2.2.1 f.2.2.2
        let words := (List.range ((f.2.2.2 + 7) / 8)).map (fun k => codesWord ((c.1.drop (8 * k)).take 8))
        (r.1 || c.2.1, c.2.2.genARun region (genAHead 0 f.2.1 f.1 n ++ [BitVec.ofNat 16 f.2.2.1, BitVec.ofNat 16 f.2.2.2]) words))
      r) (false, s)

/-- The lanes that carry what lane `l` does: itself, or both of its pair (R183). -/
def State.lanesWith (s : State) (l : Nat) : List Nat := if s.paired l then [l / 2 * 2, l / 2 * 2 + 1] else [l]

/-- Those of them that are UP. -/
def State.lanesUp (s : State) (l : Nat) : List Nat := (s.lanesWith l).filter (fun m => decide (s.fv F.HP_LANE_STATUS_STATE m = 2))

/-- CANCEL on each lane in UP that has sent frames of a line that will not fire its data, both of a pair, and KIND 2 on the Gen A
ports that carry it (R176, R183, R186). -/
def State.cancelLine (s : State) (n : Nat) : State :=
  let s := s.forFin 16 (fun l s =>
    if (s.lanes[l]).sentLines.contains n then
      (s.lanesUp l).foldl (fun s m => s.sendBlocks (Fin.ofNat 16 m) (.cancel m n))
        (s.modLane l (fun x => { x with sentLines := x.sentLines.erase n }))
    else s)
  (List.range 8).foldl (fun s p =>
    ((s.portFrames (16 + p)).map (fun f => (f.1, f.2.1))).dedup.foldl (fun s f =>
      s.genARun (Fin.ofNat 16 p) (genAHead 2 f.2 f.1 n) []) s) s

/-- A claimed line counts as not in the Reserve: it fires blank, and what was delivered of it is superseded (R153, R176). If a wired
strobe of it has been issued, the line is recorded. -/
def State.supersede (s : State) (n : Nat) : State :=
  match s.job with
  | none => s
  | some j =>
    if j.missed.contains n ∨ n < j.fired then s
    else
      let s := if j.strobed.contains n then s.csMasked 0x17 21 [n, 1, 0xFF] 2 else s
      let s := (s.lostLine false n).modJob (fun j => { j with missed := n :: j.missed })
      let s := s.forFin 16 (fun l s => s.modLane l (fun x =>
        { x with window := x.window.map (fun f => if f.line = n then { f with stale := true } else f) }))
      s.cancelLine n

/-- Claims the next line of the job. -/
def State.claimOne (s : State) : State :=
  match s.job with
  | none => s
  | some j =>
    let n := j.claimed
    if n < j.complete then
      let s := s.closeRun false
      let d := j.depth
      let s := s.modJob (fun j => { j with claimed := n + 1 })
      let s := if s.fv F.SHT_RESERVE_LOW_WATER < d ∧ d - 1 = s.fv F.SHT_RESERVE_LOW_WATER ∧ j.complete < j.length then
          s.starve (n + 1) (d - 1)
        else s
      let r := s.genALine j n false
      if r.1 then r.2.supersede n else r.2
    else
      let s := (s.modJob (fun j => { j with claimed := n + 1, missed := n :: j.missed })).lostLine false n
      (s.genALine j n true).2

/-- Claims every line whose claim tick lies at or below line tick `t`. -/
def State.claimTo (s : State) (t : Int) : State :=
  match s.job with
  | none => s
  | some j =>
    let due := (t + s.lead - s.dmin + 1).toNat
    (List.range (Nat.min due j.length - j.claimed)).foldl (fun s _ => s.claimOne) s

/-! ## Boundaries (R162, R163) -/

/-- The first line that a Hold in effect, a pending request or a waiting ABORT bars. -/
def State.barAt (s : State) : Option Nat :=
  let l := (s.sht.holdReqs.map (fun r => r.b)) ++ (s.sht.held.map (fun h => h.b)).toList ++
    (s.job.bind (fun j => j.abortAt)).toList
  l.min?

def State.barred (s : State) (n : Nat) : Bool :=
  match s.barAt with
  | some b => decide (b ≤ n)
  | none => false

/-- The next boundary: one past the highest line fired on any group. -/
def State.nextBoundary (s : State) : Nat :=
  match s.job with
  | none => 0
  | some j => (s.groupsOn.map (fun g => (j.groups[g]).nextFire)).foldl Nat.max 0

/-! ## Firing (R159, R166, R176, R177, R185) -/

/-- The timer of a group: the lowest-numbered one that it owns. -/
def State.groupTimer (s : State) (g : Fin 64) : Option (Fin 64) :=
  (List.finRange 64).find? (fun t => decide (s.fv F.SHT_TIMER_OWNER t = 1 ∧ s.fv F.SHT_TIMER_TARGET t = g.val))

def Job.setGroup (j : Job) (g : Fin 64) (x : GroupSt) : Job := { j with groups := j.groups.set g x }

/-- The present cycle of a fabric region: that of its most advanced cell. -/
def Region.now (r : Region) : Nat := (r.cells.map (fun e => e.2.cyc)).foldl Nat.max 0

/-- Frames of (line, group) that a lane has not delivered when the group fires it go stale; the flag says there was one
(R176). -/
def State.staleFrames (s : State) (l : Fin 16) (n : Nat) (g : Fin 64) : Bool × State :=
  let x := s.lanes[l]
  let frames := s.portFrames (s.laneHome l)
  let unsent := frames.zipIdx.any (fun f => decide (f.1.2.1 = g.val) &&
    (decide (x.line < n) || (decide (x.line = n) && decide (x.frame ≤ f.2))))
  let held := x.window.any (fun f => decide (f.line = n ∧ f.group = g.val))
  (unsent || held, s.modLane l (fun x =>
    { x with window := x.window.map (fun f => if f.line = n ∧ f.group = g.val then { f with stale := true } else f) }))

/-- A group's line that fires while the lane that carries its heads is FAILED, with no lane of a pair left, is lost there (R182). -/
def State.laneDead (s : State) (l : Nat) : Bool := (s.lanesWith l).all (fun m => decide (s.fv F.HP_LANE_STATUS_STATE m = 3))

/-- The reports of a line fired on all groups, in the order of R166 and R176. -/
def State.lineFired (s : State) (n : Nat) : State :=
  match s.job with
  | none => s
  | some j =>
    let shift := s.fv F.SHT_CTL_EVT_SHIFT
    let s := if shift ≠ 31 ∧ n % 2 ^ shift = 0 then s.raiseJob .lineFired n else s
    let s := match j.milestones.findIdx? (fun m => decide (m = n)) with
      | some k => s.raiseJob .lineMilestone (pair k n)
      | none => s
    let stale := j.stale.contains n && !j.missed.contains n
    let s := if stale then s.lostLine true n else s.closeRun true
    let t : ShtTrace :=
      { line := n, tick := s.tickBase + s.sht.high, time := s.devTime,
        groups := BitVec.ofFnLE (fun g => s.on F.SHT_GRP_ENABLE g.val), depth := j.depth, inflight := j.inflight,
        flags := BitVec.ofFnLE (fun i => match i with
          | 0 => j.missed.contains n
          | 1 => j.missed.contains n
          | 2 => false
          | 3 => stale
          | _ => s.sht.held.isSome) }
    let s := if s.on F.CS_STATUS_COMMIT then s else { s with cs := { s.cs with sht := (t :: s.cs.sht).take 256 } }
    let s := s.forFin 16 (fun l s => s.modLane l (fun x => { x with sentLines := x.sentLines.erase n }))
    s.modJob (fun j => { j with fired := n + 1 })

/-- Lines that have now fired on every enabled group count as fired, in order (R166). -/
def State.countFired (s : State) : State :=
  match s.job with
  | none => s
  | some j =>
    let k := (s.groupsOn.map (fun g => (j.groups[g]).nextFire)).foldl Nat.min j.length
    (List.range (k - j.fired)).foldl (fun s i => s.lineFired (j.fired + i)) s

/-- WIDTH of a wired output in TCLK ticks: values below 5 act as 5 (R196). -/
def State.wiredWidth (s : State) (w : Fin 16) : Nat := Nat.max 5 (s.fv F.HP_WIRED_WIDTH w)

/-- The level of a wired output that is active or not, by its polarity (R185). -/
def State.wiredLevel (s : State) (w : Fin 16) (on : Bool) : Bool := on ^^ s.on F.HP_WIRED_POL w

/-- A wired output pulses for WIDTH ticks, or its pulse is prolonged (R185). -/
def State.wiredPulse (s : State) (w : Fin 16) : State :=
  let n := s.wiredWidth w
  ({ s with sht := { s.sht with
    wired := s.sht.wired ||| (1 <<< w.val), wiredEnd := s.sht.wiredEnd.set w (s.devTime + BitVec.ofNat 64 n) } } : State).emit
    (.wired w (s.wiredLevel w true) n)

/-- A group fires a line: in-band on each lane that carries its heads, two blocks each, on its wired output unless the
line is blank, and on the fire input of the Gen A ports that carry its heads. -/
def State.fireGroup (s : State) (g : Fin 64) (n : Nat) : State :=
  match s.job with
  | none => s
  | some j =>
    let blank := j.missed.contains n
    let rev := s.reverseLine n
    let r := (List.finRange 16).foldl (fun (r : Bool × State) (l : Fin 16) =>
      if r.2.laneCarries l g then
        -- the even lane of a pair keeps the window of both (R183)
        let x := if blank ∨ s.laneHome l ≠ l.val then (false, r.2) else
          let y := r.2.staleFrames l n g
          (y.1 || r.2.laneDead l, y.2)
        let s := if r.2.on F.SHT_GRP_INBAND g ∧ r.2.fv F.HP_LANE_STATUS_STATE l = 2 then
            x.2.sendFire l g n blank rev
          else x.2
        (r.1 || x.1, s)
      else r) (false, s)
    let s := r.2
    let w := s.fv F.SHT_GRP_WIRED g
    let strobe := s.on F.SHT_GRP_WIRED_EN g && !blank
    let s := if strobe then s.wiredPulse (Fin.ofNat 16 w) else s
    let s := s.forFin 8 (fun p s =>
      if s.entries.any (fun e => decide (e.port = 16 + p.val ∧ e.group = g)) then
        s.modFab ⟨p.val, by omega⟩ (fun x =>
          { x with fi := BitVec.ofNat 16 (0x8000 + (if blank then 64 else 0) + g.val), fiAt := x.now })
      else s)
    let s := s.modJob (fun j =>
      { j.setGroup g { j.groups[g] with armed := none, nextFire := n + 1 } with
        stale := if r.1 ∧ ¬ j.stale.contains n then n :: j.stale else j.stale,
        strobed := if strobe ∧ ¬ j.strobed.contains n then n :: j.strobed else j.strobed })
    s.countFired

/-- A group's timer is armed for a line; a pending fire is issued at once and counted in LATE (R159). -/
def State.armGroup (s : State) (g : Fin 64) (n : Nat) : State :=
  match s.job with
  | none => s
  | some j =>
    let s := match (j.groups[g]).armed with
      | none => s
      | some m =>
        let s := match s.groupTimer g with
          | some t => s.finc F.SHT_TIMER_LATE t
          | none => s
        s.fireGroup g m
    s.modJob (fun j => j.setGroup g { j.groups[g] with armed := some n, nextArm := n + 1 })

/-- Line tick `t` arms each enabled group for line t - DELAY (R159). -/
def State.armAt (s : State) (t : Int) : State :=
  s.groupsOn.foldl (fun s g =>
    match s.job with
    | none => s
    | some j =>
      let n := t - s.delay g
      if 0 ≤ n ∧ n.toNat < j.length ∧ (j.groups[g]).nextArm ≤ n.toNat ∧ ¬ s.barred n.toNat then s.armGroup g n.toNat
      else s) s

/-- At a load of LINEPOS each enabled group arms, in line order, every line it has not armed whose tick lies at or below
`t` (R159). -/
def State.armLoaded (s : State) (t : Int) : State :=
  s.groupsOn.foldl (fun s g =>
    match s.job with
    | none => s
    | some j =>
      let first := (j.groups[g]).nextArm
      (List.range (Nat.min (t - s.delay g + 1).toNat j.length - first)).foldl (fun s i =>
        if s.barred (first + i) then s else s.armGroup g (first + i)) s) s

/-- A job claims and arms lines once its LINEPOS has been loaded (R265). -/
def State.jobRunning (s : State) : Bool :=
  match s.job with
  | some j => decide (j.phase = .running)
  | none => false

/-! ## The end of a job (R151, R163, R262, R265, R310) -/

/-- The slot of a Reel handle and its Reel (R217). -/
def State.reelAt (s : State) (h : BitVec 32) : Option Reel :=
  match smGet (fun _ => none) s.store.reels (h.toNat % 4096) with
  | some r => if r.gen = h.toNat / 4096 then some r else none
  | none => none

def State.setReel (s : State) (h : BitVec 32) (r : Option Reel) : State :=
  { s with store := { s.store with reels := smSet (fun _ => none) s.store.reels (h.toNat % 4096) r } }

/-- A Reel in use returns to CLOSED (R218). -/
def State.releaseReel (s : State) (h : BitVec 32) : State :=
  match s.reelAt h with
  | some r => if r.state = .inUse then s.setReel h (some { r with state := .closed, loaded := false, prefetched := (0, 0) }) else s
  | none => s

/-- The Enlargers discard their bands, fed and queued. -/
def State.dropBands (s : State) : State :=
  s.forFin 4 (fun p s =>
    let s := s.modEnl p (fun _ => {})
    (s.fset F.ENL_STATUS_QDEPTH 0 p).fset F.ENL_STATUS_HALTED 0 p)

/-- The job is fed from host memory (R263). -/
def State.hostFed (s : State) : Bool :=
  match s.job with
  | some j => decide (j.reel = 0)
  | none => false

/-- Staged lines of a function's host loads from line `n` onward are discarded (R391). -/
def State.dropStaged (s : State) (fn : Fin 8) (n : Nat) : State :=
  { s with hst := { s.hst with staged := s.hst.staged.filter (fun l => !(decide (l.fn = fn) && decide (n < l.first + l.lines))) } }

/-- The function's next host-form load must start at line `n` (R391). -/
def State.setNextLoad (s : State) (fn : Fin 8) (n : Nat) : State := s.modFn fn (fun f => { f with nextLoad := n })

/-- Commands of the job that wait complete with ABORTED: HOLDs and RESUMEs, the host loads of a job fed from them, and table
updates and program changes not held in Ready (R163, R262, R310). -/
def State.abortWaiting (s : State) (fn : Fin 8) : State :=
  let holds := s.sht.holdReqs.filterMap (fun r => r.cmd)
  let resumes := (s.sht.held.map (fun h => h.waiting)).getD []
  let mine (l : HostLoad) : Bool := decide (l.fn = fn) && s.hostFed
  let loads := s.hst.loads.filter mine
  let pend := s.hst.pending.filter (fun p => !p.held)
  let s := { s with
    sht := { s.sht with holdReqs := [], held := none },
    hst := { s.hst with
      loads := s.hst.loads.filter (fun l => !mine l),
      pending := s.hst.pending.filter (fun p => p.held) } }
  let s := ((s.fset F.SHT_HOLD_REQ 0).fset F.SHT_HOLD_HELD 0).fset F.SHT_HOLD_RESUME 0
  let s := holds.foldl (fun s c => s.complete c stABORTED 0) s
  (resumes ++ loads.map (fun l => l.cmd) ++ pend.map (fun p => p.cmd)).foldl (fun s c => s.completeOpen c stABORTED) s

/-- Everything the end of a job does but the mode: `ok` says that its last line has fired. -/
def State.endJob (s : State) : State :=
  match s.job with
  | none => s
  | some j =>
    let s := (s.closeRun false).closeRun true
    let s := s.abortWaiting j.fn
    let s := if j.posted then s else s.completeOpen j.cmd stABORTED
    let s := j.aborts.foldl (fun s c => s.complete c stOK j.fired) s
    let s := { s.driveHoldReq false with sht := { (s.driveHoldReq false).sht with warnArmed := true, swath := {} } }
    let s := s.forFin 16 (fun l s => s.modLane l (fun x =>
      { x with window := x.window.map (fun f => { f with stale := true }), line := 0, frame := 0, sentLines := [] }))
    let s := s.forFin 4 (fun d s => s.modDev d (fun x => { x with win := none, slot := none }))
    let s := (s.dropBands).releaseReel j.reel
    let s := if j.reel = 0 then (s.setNextLoad j.fn 0).dropStaged j.fn 0 else s
    ({ s with job := none, store := { s.store with undelivered := [] } } : State).applyHalts

/-- The job ends with the module in Print or Hold: Ready, and MODE_CHANGE with its number (R265), before the completions that its end
brings (R271). -/
def State.finishJob (s : State) : State :=
  match s.job with
  | none => s
  | some j => (((s.closeRun false).closeRun true).toMode 3 j.number).endJob

/-! ## Reaching a boundary (R162, R163) -/

/-- The Hold takes effect at boundary `b`. -/
def State.reachHold (s : State) (b : Nat) : State :=
  let here := s.sht.holdReqs.filter (fun r => decide (r.b = b))
  let cause := (here.map (fun r => r.cause)).foldl Nat.min 15
  let keep (r : HoldReq) : Bool := r.strip.isSome && decide (r.b ≠ b)
  let merged := s.sht.holdReqs.filter (fun r => !keep r)
  let allHold := merged.all (fun r => r.cmd.isSome)
  let s := (s.closeRun false).closeRun true
  let s : State := { s with sht := { s.sht with
    holdReqs := s.sht.holdReqs.filter keep,
    held := some
      { b := b, onlyHold := allHold,
        timer := if allHold && merged.all (fun r => decide (r.dur ≠ 0)) then some ((merged.map HoldReq.dur).foldl Nat.max 0)
          else none,
        gated := here.filterMap HoldReq.strip, waiting := [], endWaits := false,
        abrupt := s.scanning && merged.any (fun r => r.abrupt) } } }
  let s := (((s.fset F.SHT_HOLD_REQ 0).fset F.SHT_HOLD_HELD 1).fset F.SHT_HOLD_CAUSE cause).fset F.SHT_HOLD_AT_LINE b
  let s := s.toMode 5
  let s := (s.raiseJob .holdReached (pair cause b)).applyHalts
  merged.foldl (fun s r => match r.cmd with
    | some c => s.complete c (if r.asked < b then stDELAYED else stOK) b
    | none => s) s

/-- Judges the end of the job, then a waiting ABORT, then the pending requests (R163). -/
def State.checkBoundary (s : State) : State :=
  match s.job with
  | none => s
  | some j =>
    let aborting : Bool := match j.abortAt with
      | some a => decide (a ≤ j.fired)
      | none => false
    if (j.phase = .running ∧ j.length ≤ j.fired) ∨ aborting then s.finishJob
    else if s.sht.held.isSome then s
    else
      match (s.sht.holdReqs.map (fun r => r.b)).min? with
      | some b => if b ≤ j.fired then s.reachHold b else s
      | none => s

/-- The effective boundary of a request that names AT_LINE (R162). -/
def State.effectiveBoundary (s : State) (atLine : Nat) (abrupt : Bool) : Nat :=
  let nb := s.nextBoundary
  let b := if atLine = 0 ∨ atLine < nb then nb else atLine
  if s.scanning ∧ ¬ abrupt ∧ s.swathLen ≠ 0 then (b / s.swathLen + 1) * s.swathLen else b

/-- Registers a Hold request and judges the boundaries. -/
def State.requestHold (s : State) (atLine cause : Nat) (cmd : Option CmdRef) (dur : Nat) (abrupt : Bool)
    (strip : Option (Fin 4)) : State :=
  let b := s.effectiveBoundary atLine abrupt
  let asked := if atLine = 0 then s.nextBoundary else atLine
  let s : State := { s with sht := { s.sht with
    holdReqs := s.sht.holdReqs ++
      [{ b := b, asked := asked, cause := cause, cmd := cmd, dur := dur, abrupt := abrupt, strip := strip }] } }
  s.checkBoundary

/-! ## LINEPOS (R158) -/

/-- A camera's trigger leaves at line tick `t`, whose number tags its line (R198, R199). In the interleaved arrangement only
every fourth tick triggers. -/
def State.triggerCam (s : State) (c : Fin 4) (t : Int) : State :=
  let every4 : Bool := match s.job with
    | some j => j.inspect && j.interleaved
    | none => false
  if ¬ s.on F.CAM_CTL_ENABLE ∨ ¬ s.on F.CAM_CAM_CFG_ENABLE c ∨ (every4 ∧ t % 4 ≠ 0) then s
  else
    ({ s with cam := { s.cam with due := s.cam.due.set c (s.cam.due[c] ++ [t.toNat]) } } : State).emit (.camTrigger c t)

/-- The cameras triggered at each line tick. -/
def State.tickTriggers (s : State) (t : Int) : State :=
  s.forFin 4 (fun c s => if s.fv F.CAM_CAM_CFG_TRIG c = 1 then s.triggerCam c t else s)

/-- Past the last line of a swath the position still arms, for the groups whose DELAY it has come to, the swath's lines, and makes no
other tick (R159, R161). -/
def State.tailTick (s : State) (i : Int) : State :=
  if ¬ s.jobRunning ∨ (s.swathLen : Int) + s.dmax ≤ i then s
  else
    let t := s.tickBase + i
    let last := s.tickBase + s.swathLen - 1
    let s := if s.sht.held.isSome then s else s.claimTo (min t (last + s.dmin - s.lead))
    ((s.groupsOn.filter (fun g => decide (t - s.delay g ≤ last))).foldl (fun s g =>
      match s.job with
      | none => s
      | some j =>
        let n := t - s.delay g
        if 0 ≤ n ∧ n.toNat < j.length ∧ (j.groups[g]).nextArm ≤ n.toNat ∧ ¬ s.barred n.toNat then s.armGroup g n.toNat
        else s) s).checkBoundary

/-- Line tick of index `i`: it triggers cameras, claims (outside a Hold) and arms lines. Outside the armed swath there is none. -/
def State.lineTick (s : State) (i : Int) : State :=
  let t := s.tickBase + i
  if s.scanning && (!s.sht.swath.armed || decide (i < 0)) then s
  else if s.scanning && decide ((s.swathLen : Int) ≤ i) then s.tailTick i
  else if s.jobRunning then
    let s := s.tickTriggers t
    let s := if s.sht.held.isSome then s else s.claimTo t
    (s.armAt t).checkBoundary
  else s.tickTriggers t

/-- LINEPOS moves to a value: each new highest index makes a line tick. -/
def State.moveLinepos (s : State) (pos : Int) : State :=
  let old := s.posIndex s.linepos
  let s := s.setReg .SHT_LINEPOS (BitVec.ofInt 64 pos)
  let i := s.posIndex s.linepos
  if s.sht.high < i ∧ old < i then ({ s with sht := { s.sht with high := i } }).lineTick i else s

/-- A load of LINEPOS: HIGH takes the loaded index, and due lines are claimed and armed (R152, R158, R159). -/
def State.loadLinepos (s : State) (pos : Int) : State :=
  let s := s.setReg .SHT_LINEPOS (BitVec.ofInt 64 pos)
  let i := s.posIndex s.linepos
  let s := { s with sht := { s.sht with high := i } }
  if s.jobRunning then
    let t := s.tickBase + i
    ((s.claimTo t).armLoaded t).checkBoundary
  else s

/-! ## Prefill (R151, R265) -/

/-- The prefill depth min(TARGET, LENGTH). -/
def State.prefill (s : State) (j : Job) : Nat := Nat.min (s.fv F.SHT_RESERVE_TARGET) j.length

/-- The job starts to fire: LINEPOS is loaded with DMIN - 1, and PRINT_START completes (R265). -/
def State.startJob (s : State) : State :=
  match s.job with
  | none => s
  | some j =>
    let s := s.modJob (fun j => { j with phase := .running, posted := true })
    let d := j.depth
    let s := s.loadLinepos (((s.dmin : Int) - 1) * 2 ^ 32)
    s.complete j.cmd stOK (pair d j.number)

/-- D reaching TARGET releases HOLD_REQ and rearms the warning; a job that fills waits for its start event or starts once
D reaches the prefill. -/
def State.depthRose (s : State) : State :=
  match s.job with
  | none => s
  | some j =>
    let s := if s.fv F.SHT_RESERVE_TARGET ≤ j.depth then
        { s.driveHoldReq false with sht := { (s.driveHoldReq false).sht with warnArmed := true } }
      else s
    if j.phase = .filling ∧ s.prefill j ≤ j.depth then
      if j.startMode = 1 ∨ j.startMode = 2 then s.modJob (fun j => { j with phase := .awaitStart }) else s.startJob
    else s

/-- A Hold ends: the module returns to Print; in single-pass operation LINEPOS is loaded with b + DMIN - 1 (R163). In a
scanning mode an abrupt Hold arms the re-lay pass of the interrupted swath (R164): lines before b have fired and do not
arm again. The RESUMEs given, and those that waited, complete with b. -/
def State.endHold (s : State) (resumes : List CmdRef) : State :=
  match s.sht.held with
  | none => s
  | some h =>
    let s : State := { s with sht := { s.sht with held := none } }
    let s := (s.fset F.SHT_HOLD_HELD 0).fset F.SHT_HOLD_RESUME 0
    let s := s.toMode 4
    let s := if s.scanning then
        (if h.abrupt then { s with sht := { s.sht with high := -1, swath := { s.sht.swath with armed := true } } } else s)
      else if s.jobRunning then s.loadLinepos (((h.b : Int) + s.dmin - 1) * 2 ^ 32)
      else s
    let s := (h.waiting ++ resumes).foldl (fun s c => s.complete c stOK h.b) s
    s.checkBoundary

/-- The end of a Hold waits: a strip fault of its boundary stands, or a strip that the store could not deliver bars it (R147,
R229). -/
def State.heldBack (s : State) (h : Held) : Bool :=
  !h.gated.isEmpty || s.store.undelivered.any (fun l => decide (l.2 = h.b))

/-- A Hold that was waiting for a mended fault ends (R147). -/
def State.endWaiting (s : State) : State :=
  match s.sht.held with
  | some h => if ¬ s.heldBack h ∧ (h.endWaits ∨ h.waiting ≠ []) then s.endHold [] else s
  | none => s

/-- A strip fault has been mended: its pending request is withdrawn, and a Hold that waits only for it may end (R147). -/
def State.stripMended (s : State) (p : Fin 4) : State :=
  let s : State := { s with sht := { s.sht with
    holdReqs := s.sht.holdReqs.filter (fun r => decide (r.strip ≠ some p)),
    held := s.sht.held.map (fun h => { h with gated := h.gated.filter (fun q => decide (q ≠ p)) }) } }
  s.endWaiting

end Sys2Proof.Machine
end

