-- ==== Sys2Proof/Machine/Safe.lean ====
section
/-!
DEFINITION. Stopping: abandoned routines (R123), machine-check halts (R136), Safe (R310), the die reset (R320), power-down
and the end of a debug session (R343, R344).
-/

namespace Sys2Proof.Machine

/-- Every Developer stops (R57, R310). -/
def State.stopDevelopers (s : State) : State :=
  s.forFin 4 (fun d s => (s.abandon d).modCore (devCore d) (fun k => { k with run := .stopped }))

/-- The pins leave the Loupe (R349). -/
def State.releaseLoupe (s : State) : State :=
  let s := s.fset F.LP_CTL_CLAIM 0
  if s.fv F.FAB_PIN_OWNER_OWNER = 2 then { s.fset F.FAB_PIN_OWNER_OWNER 0 with handover := true } else s

/-- Table updates held in Ready complete with ABORTED (R268). -/
def State.abortHeld (s : State) (sel : Fin 8 → Bool) : State :=
  let l := s.hst.pending.filter (fun p => p.held && sel p.fn)
  let s := { s with hst := { s.hst with pending := s.hst.pending.filter (fun p => !(p.held && sel p.fn)) } }
  l.foldl (fun s p => s.completeOpen p.cmd stABORTED) s

/-- Reels held by JOB_LOAD return to CLOSED (R266). -/
def State.releaseLoaded (s : State) (sel : Fin 8 → Bool) : State :=
  { s with store := { s.store with
    reels := s.store.reels.map (fun e => (e.1, e.2.map (fun r =>
      if r.loaded ∧ r.state = .inUse ∧ sel r.owner then { r with state := .closed, loaded := false, prefetched := (0, 0) } else r))) } }

/-! ## Safe (R310) -/

/-- Entry to Safe, in the order of R310; outside modes 2-9 and 11 there is no Safe. A cause in Safe is recorded. -/
def State.safeEntry (s : State) (cause : Nat) : State :=
  if ¬ s.active then s
  else if s.mode = 9 then s.fset F.SYS_MODE_SAFE_CAUSE cause
  else
    let number := match s.job with
      | some j => j.number
      | none => 0
    -- 1, 2: no further fire; CANCEL for every line sent and not fired; fabric regions 0-7 stop
    let s := s.modJob (fun j => { j with groups := j.groups.map (fun g => { g with armed := none }) })
    let s := { s with sht := { s.sht with wired := 0 } }
    let s := s.forFin 16 (fun l s =>
      ((s.lanes[l]).sentLines.foldl (fun s n => (s.lanesUp l).foldl (fun s m => s.sendBlocks (Fin.ofNat 16 m) (.cancel m n)) s) s).modLane l (fun x => { x with sentLines := [] }))
    let s := s.forFin 8 (fun r s => s.modFab ⟨r.val, by omega⟩ (fun x => { x with stopped := true }))
    -- 3: every industrial output is de-energised
    let s := s.forFin 16 (fun o s =>
      ({ s with sht := { s.sht with dout := s.sht.dout.set o { s.sht.dout[o] with pulse := false, heldOff := true, calib := none } } }).emit
        (.dout o false))
    -- 4, 5: the Developers stop, the Enlargers discard, the job's commands end and its Reel is closed
    let s := (s.stopDevelopers).dropBands
    let s := s.endJob
    let s := s.abortHeld (fun _ => true)
    let s := s.releaseLoaded (fun _ => true)
    let s := match s.pwr.drain with
      | some d =>
        let t := (s.completeOpen d.cmd stABORTED).fset F.SYS_MODE_TRANS 0
        { t with pwr := { t.pwr with drain := none } }
      | none => s
    let s := (s.abortUnlock).releaseLoupe
    -- 6: the trace freezes and the mode changes
    let prev := s.mode
    let s := ((s.fset F.SYS_MODE_SAFE_CAUSE cause).fset F.SYS_MODE_PREV prev).fset F.SYS_MODE_STATE 9
    (s.csReport 0x01 0xFF [prev, cause] true).raise .modeChange (pair number (9 + 256 * prev))

/-- A machine-check halt of a core (R99, R136). A Developer's is reported, and goes to Safe when it drives the print gang.
R136 gives the event a cause and no number for it: a free value. -/
def State.machineHalt (s : State) (c : Fin 8) : State :=
  let s := s.modCore c (fun k => { k with run := .mcHalt, resv := none })
  if h : c.val < 4 then
    let d : Fin 4 := ⟨c.val, h⟩
    let cause := (s.free_ 8).toNat
    let s := (s.used.abandon d).fset F.DEV_UC_PAR_HALT 1 d
    let line := match s.job with
      | some j => j.complete - 1
      | none => 0
    let s := s.csMasked 0x13 ([1, 4, 31, 34].getD d.val 1) [d.val, cause, line] 0
    let s := s.raise .developerRestart (d.val + 256 * cause)
    if s.drivesPrint d then s.safeEntry 2 else s
  else s

/-! ## Die reset (R320) -/

/-- The registers of the always-on domain and of the configuration that a die reset keeps (R317, R352): SYS_, PWR_,
DBG_CTL, DBG_STATUS and CS_SEQ. -/
def keptInDieReset (k : Nat) : Bool :=
  ([.SYS_MODE, .SYS_REDUND, .SYS_BAD_ACCESS, .SYS_BOOT, .SYS_CLK_CTL, .SYS_CLK_STATUS, .SYS_PPS_STAMP, .PWR_CFG, .PWR_STATUS,
    .PWR_WAKE, .PWR_THERM, .DBG_CTL, .DBG_STATUS, .CS_SEQ] : List RegName).any (fun r => decide (regKey r 0 = k))

/-- A lane after a die reset: its SFP+ module is still there. -/
def Lane.atReset (l : Lane) : Lane := { present := l.present, rated := l.rated }

/-- The die core loses everything it holds (R317, R319, R320): registers outside the always-on domain, memories (DDR5 unless
`keepDdr`), jobs, rings and sessions. The NI epochs, the MRAM and the flash keep what they hold. -/
def State.wipeDie (s : State) (keepDdr : Bool) : State :=
  let mems := { s.mems.poisoned with ddr := if keepDdr then s.mems.ddr else (Mem.of .undef), ddrLost := 0, nmap := [] }
  let s1 : State := { s with
    regs := smKeep keptInDieReset s.regs, latches := [], heldPush := [],
    cores := Vector.ofFn (fun c => { Core.atReset c with cycleBase := s.rootTicks }),
    devs := Vector.replicate 4 {}, grains := {}, mems := mems, enl := Vector.replicate 4 {}, job := none,
    sht := { jobs := s.sht.jobs }, lanes := s.lanes.map Lane.atReset, fab := Vector.replicate 16 {}, handover := false,
    cam := {},
    store := { s.store with
      reels := s.store.reels.map (fun e => (e.1, e.2.map (fun r => if r.state = .inUse then { r with state := .closed, loaded := false, prefetched := (0, 0) } else r))),
      waiting := [], writes := [], reads := [], undelivered := [], writesBarred := false,
      state := if s.store.state = .rebuilding then .degraded else s.store.state },
    hst := {
      fns := s.hst.fns.map (fun f => { gen := f.gen + 1 }), linkUp := s.hst.linkUp,
      linkGen := s.hst.linkGen, linkLanes := s.hst.linkLanes,
      sessGen := s.hst.sessGen.map (· + 1), accCount := s.hst.accCount,
      programs := s.hst.programs, stagedImages := s.hst.stagedImages, activated := s.hst.activated, bootImages := s.hst.bootImages,
      regionImages := s.hst.regionImages, regionReady := s.hst.regionReady },
    net := { down := s.net.down },
    pwr := { s.pwr with drain := none },
    sec := { owner := s.sec.owner, readActAllowed := s.sec.readActAllowed, tapLast := s.sec.tapLast },
    cs := { s.cs with merging := [], net := [], sht := [], trigger := none } }
  let s2 := (s1.fset F.SYS_MODE_TRANS 0).forFin 36 (fun n t => t.fset F.NOC_NI_STAT_EPOCH (s.fv F.NOC_NI_STAT_EPOCH n) n)
  let s3 := s2.forFin 16 (fun l t => t.fset F.HP_LANE_STATUS_PRESENT (if (s.lanes[l]).present then 1 else 0) l)
  s3.forFin 16 (fun n t => t.fset F.SHT_DIN_CTL_FIELD_LOW (if s.pwr.fieldLow then 1 else 0) n)

/-- A die reset from the present mode (R320, R324): the die core returns to its reset state, slips and LOCK are cleared, epochs
advance, and Boot begins. `short` is the short boot. -/
def State.dieReset (s : State) (last : Nat) (keepDdr short : Bool) : State :=
  let from_ := s.mode
  let s1 := s.wipeDie keepDdr
  let s4 := s1.forFin 36 (fun n t => t.fset F.NOC_NI_STAT_EPOCH ((t.fv F.NOC_NI_STAT_EPOCH n + 1) % 16) n)
  let s4 : State := { s4 with pwr := { s4.pwr with bootFrom := from_, shortBoot := short, fullBoot := false } }
  let s5 := ((s4.fset F.SYS_BOOT_LAST_RESET last).fset F.SYS_BOOT_STAGE 1).fset F.SYS_BOOT_FAIL 0
  let s6 := s5.fset F.PWR_WAKE_WAKE 0
  -- slips are gone, so the grain-spare cause falls until firmware reapplies the slip map (R60, R312)
  let s7 := (s6.redund 6 false).redund 5 false
  let s8 := (s7.fset F.SYS_MODE_PREV from_).fset F.SYS_MODE_STATE 2
  let s9 := s8.csReport 0x01 0xFF [from_, s8.fv F.SYS_MODE_SAFE_CAUSE] false
  -- a surviving D2 session outside SEALED with HALT_BOOT halts MC0 before its first instruction (R344)
  if s9.on F.DBG_CTL_HALT_BOOT ∧ s9.dbgLevel = 2 ∧ s9.fuses.lc ≠ 2 then s9.modCore 4 (fun k => { k with halted := true }) else s9

/-- A die reset for a reason that R329 gives no LAST_RESET code: the code is a free value. -/
def State.dieResetOther (s : State) : State := s.used.dieReset (s.free_ 3).toNat false false

/-! ## Debug sessions (R339, R343, R344, R346) -/

/-- The level falls to D0: the session has no owner, READ_ACT clears, and the Loupe's pins are released. -/
def State.dropDebug (s : State) : State :=
  let s := (s.fset F.DBG_STATUS_LEVEL 0).fset F.DBG_CTL_READ_ACT 0
  ({ s with sec := { s.sec with owner := none, readActAllowed := false } } : State).releaseLoupe

/-- The end of a debug session: at D2 in SEALED a die reset follows (R343). -/
def State.endDebug (s : State) : State :=
  if s.storeLocked then s.dropDebug.dieResetOther else s.dropDebug

/-! ## Power-down (R311, R317, R344) -/

/-- The die powers down into mode `m` (0 Off, 1 Standby, 10 Sleep) and loses what it holds. D1 survives Standby and Sleep; D2 survives them outside
SEALED with DBG_KEEP; Off ends every session. -/
def State.powerDown (s : State) (m : Nat) : State :=
  let sealedD2 := s.storeLocked
  let keep := decide (m ≠ 0) && (decide (s.dbgLevel ≤ 1) || (decide (s.fuses.lc ≠ 2) && s.on F.DBG_CTL_DBG_KEEP))
  let s := if keep then s else s.dropDebug
  let s : State := { s with pwr := { s.pwr with drain := none, fullBoot := sealedD2 } }
  let number := match s.job with
    | some j => j.number
    | none => 0
  let s := (s.toMode m number).wipeDie (decide (m = 10))
  { s with
    cores := s.cores.map (fun k => { k with run := .stopped }),
    hst := { s.hst with linkUp := s.hst.linkUp && decide (m ≠ 0) } }

/-- A wake from Standby or Sleep (R318): a die reset, with the short boot from Sleep unless the boot must be full. -/
def State.wakeUp (s : State) : State :=
  let short := decide (s.mode = 10) && !s.pwr.fullBoot
  s.dieReset 1 short short

end Sys2Proof.Machine
end

