-- ==== Sys2Proof/Machine/Issue.lean ====
section
/-!
DEFINITION. How a core takes an instruction: boundaries, fetch checks, conditions, exceptions and trap entry (R66, R68,
R70, R71, R75, R89, R97-R99, R347).
-/

namespace Sys2Proof.Machine

/-- A precise exception: its code, the segment named and CORE_FADDR, where it is a memory fault (R97, R99). -/
structure Exc where
  code : Nat
  seg : Nat := 0
  faddr : Option Word := none
deriving DecidableEq, Repr

def excFetch : Nat := 0x01
def excIllegal : Nat := 0x02
def excPrivileged : Nat := 0x03
def excMisaligned : Nat := 0x04
def excRights : Nat := 0x05
def excLimit : Nat := 0x06
def excLoad : Nat := 0x07
def excAtomic : Nat := 0x08
def excArray : Nat := 0x09
def excNoGang : Nat := 0x0A
def excBreak : Nat := 0x0B
def excSys : Nat := 0x0C
def excFp : Nat := 0x0D
def excMachine : Nat := 0x0E

/-- The illegal-instruction exception. -/
def illegal : Exc := { code := excIllegal }

/-- What an instruction's body does: it completes; it raises a precise exception, with what had completed before (R96); or it
stalls, without effect (R110, R112). -/
inductive Res where
  | done (s : State)
  | trap (s : State) (e : Exc)
  | stall

/-! ## Levels -/

/-- The core runs at level S. -/
def Core.sLevel (k : Core) : Bool := k.status.getLsbD 0
/-- CORE_STATUS.IE. -/
def Core.ie (k : Core) : Bool := k.status.getLsbD 1
/-- CORE_STATUS.TRAP. -/
def Core.trap (k : Core) : Bool := k.status.getLsbD 4

/-- The segment instruction fetch uses: seg7 at level S, seg0 at level U (R74). -/
def Core.codeSeg (k : Core) : Fin 8 := if k.sLevel then 7 else 0

/-- The router of a core's NI (R277). -/
def coreRouter (c : Fin 8) : Nat := [1, 4, 31, 34, 13, 16, 19, 22].getD c.val 0

/-! ## Trap entry (R99) -/

/-- Taking a trap: CORE_TPC, CORE_CAUSE and, for memory faults, CORE_FADDR are written, IE and PRIV go to CORE_TSTAT,
CORE_STATUS becomes TRAP = 1, IE = 0, PRIV = 1, the reservation ends, and the core continues at CORE_THANDLER in seg7. A
Developer's routine in progress is abandoned. -/
def State.enter (s : State) (c : Fin 8) (cause : Word) (faddr : Option Word) (tpc : Word) : State :=
  let s := s.modCore c (fun k =>
    { k with
      tpc := tpc, cause := cause, faddr := faddr.getD k.faddr, tstat := k.status &&& 3, status := 0x11, resv := none,
      pc := k.thandler })
  if h : c.val < 4 then s.abandon ⟨c.val, h⟩ else s

/-- The pending floating-point trap is taken (R89): CORE_TPC holds the instruction that was next to start. -/
def State.takeFp (s : State) (c : Fin 8) (tpc : Word) : State :=
  (s.modCore c (fun k => { k with fpPend := none })).enter c (BitVec.ofNat 32 excFp) none tpc

/-- The pending machine check is taken; a pending floating-point trap is due at the next boundary (R89, R98). -/
def State.takeMc (s : State) (c : Fin 8) : State :=
  let k := s.cores[c]
  (s.modCore c (fun k => { k with mcPend := false, fpPend := k.fpPend.map (fun _ => 15) })).enter c
    (BitVec.ofNat 32 excMachine) none k.pc

/-- A precise exception of the instruction at `pc`. A pending floating-point trap goes first (R89, R98); with TRAP = 1 it
is a double fault and the core enters machine-check halt (R99). -/
def State.precise (s : State) (c : Fin 8) (e : Exc) (pc : Word) : State :=
  let k := s.cores[c]
  if k.fpPend.isSome then s.takeFp c pc
  else if k.trap then s.machineHalt c
  else s.enter c (BitVec.ofNat 32 (e.code + 256 * e.seg)) e.faddr pc

/-- What the core takes at this instruction boundary in place of the next instruction (R89, R98): a machine check, a due
floating-point trap, or an enabled interrupt, before which a pending floating-point trap goes. Of several pending interrupts the
oldest is taken, and one number is pending once (DESIGN CHOICE, log 103). -/
def State.boundary (s : State) (c : Fin 8) : Option State :=
  let k := s.cores[c]
  if k.mcPend then some (s.takeMc c)
  else
    let due : Bool := match k.fpPend with
      | some n => decide (15 ≤ n)
      | none => false
    if due then some (s.takeFp c k.pc)
    else if k.ie then
      match k.ints with
      | [] => none
      | n :: rest =>
        if k.fpPend.isSome then some (s.takeFp c k.pc)
        else some ((s.modCore c (fun k => { k with ints := rest })).enter c (BitVec.ofNat 32 (2 ^ 31 + n.toNat)) none k.pc)
    else none

/-! ## Segments (R75) -/

/-- The checks of an access of `n` bytes at the 33-bit sum `o`: rights before limit. -/
def Core.segCheck (k : Core) (seg : Fin 8) (o n : Nat) (needR needW needX : Bool) : Option Exc :=
  let g := k.seg[seg]
  let bad (code : Nat) : Option Exc := some { code := code, seg := seg, faddr := some (BitVec.ofNat 32 o) }
  if (needR && !g.r) || (needW && !g.w) || (needX && !g.x) || (!k.sLevel && !g.u) then bad excRights
  else if 2 ^ 32 ≤ o ∨ g.limit.toNat < o + n then bad excLimit
  else none

/-- The internal physical address of an offset. -/
def Core.phys (k : Core) (seg : Fin 8) (o : Nat) : Nat := k.seg[seg].base.toNat + o

/-! ## Fetch (R66, R68, R98) -/

/-- The fetch of the instruction of `len` bytes at the core's pc: the exception it raises, and the state after the reads of
its words. -/
def State.fetch (s : State) (c : Fin 8) (len : Nat) : Option Exc × State :=
  let k := s.cores[c]
  let o := k.pc.toNat
  if o % 2 = 1 then (some { code := excMisaligned, seg := k.codeSeg, faddr := some k.pc }, s)
  else
    match k.segCheck k.codeSeg o len false false true with
    | some e => (some e, s)
    | none =>
      let ue : Exc := { code := excFetch, seg := k.codeSeg, faddr := some k.pc }
      match s.place (k.phys k.codeSeg o) with
      | .mem code off =>
        let r := s.readRange (coreRouter c) code off len
        (if r.1 then some ue else none, r.2)
      | .grain off =>
        let r := s.backdoorRead off len (coreRouter c)
        (if r.1 then some ue else none, r.2)
      | .refused => (some ue, s)
      | _ => (none, s)

/-! ## Issue -/

/-- Bytes of an instruction (R66). -/
def hdrLen (h : Hdr) : Nat := if h.short then 2 else 4

/-- The core is executing instructions. -/
def Core.executes (k : Core) : Bool := decide (k.run = .running) && (!k.halted || k.stepping)

/-- A Developer's instruction offset enters its trace, with bit 0 for level S (R366). -/
def State.tracePc (s : State) (c : Fin 8) : State :=
  if h : c.val < 4 then
    let k := s.cores[c]
    if s.on F.CS_STATUS_COMMIT then s
    else s.modDev ⟨c.val, h⟩ (fun d =>
      { d with pcTrace := ((k.pc &&& 0xFFFFFFFE) ||| (if k.sLevel then 1 else 0)) :: d.pcTrace.take 1023 })
  else s

/-- The instruction starts: its offset is traced, the pc moves past it, and one more instruction has started since a
pending floating-point trap was raised. -/
def State.begin_ (s : State) (h : Hdr) : State :=
  (s.tracePc h.core).modCore h.core (fun k =>
    { k with pc := k.pc + BitVec.ofNat 32 (hdrLen h), fpPend := k.fpPend.map (· + 1) })

/-- A granted STEP has been used: the core stands halted again (R347). -/
def State.stepped (s : State) (c : Fin 8) : State :=
  if (s.cores[c]).stepping then
    let s := s.modCore c (fun k => { k with stepping := false })
    if s.cores.toList.any (fun k => k.stepping) then s else s.fset F.DBG_HALT_STEP 0
  else s

/-- The condition holds; GOR and GNOR read the global OR the Developer sees (R70, R71). -/
def State.condHolds (s : State) (h : Hdr) : Bool :=
  let gor : Bool := if hc : h.core.val < 4 then s.globalOr ⟨h.core.val, hc⟩ else false
  (s.cores[h.core]).holds gor h.cond

/-- An entry whose routine may name F as a destination: the ROM instructions that write F (R113), and every routine whose words the
spec does not give. -/
def writesF (i : Nat) : Bool := decide (i < 10 ∨ i = 11 ∨ i = 12 ∨ i = 76 ∨ i = 79 ∨ 88 ≤ i)

/-- GOR and GNOR wait for the tree interlock (R46, R71): an array instruction issued before may still write F. The overlay may give
any routine other words. -/
def State.gorWaits (s : State) (h : Hdr) : Bool :=
  if hc : h.core.val < 4 then
    let x := s.devs[(⟨h.core.val, hc⟩ : Fin 4)]
    decide (h.cond = .gor ∨ h.cond = .gnor) && x.aiq.any (fun e => writesF e.index || decide (x.cam ≠ []))
  else false

/-- GOR and GNOR are illegal on a management core (R65). -/
def condIllegal (h : Hdr) : Bool := decide (4 ≤ h.core.val) && decide (h.cond = .gor ∨ h.cond = .gnor)

/-- The core runs: the die is powered, its node is neither powered down nor being reset (R290, R291, R317), and it executes. -/
def State.coreRuns (s : State) (c : Fin 8) : Bool :=
  let n : Ni := s.net.nis.toList.getD (coreRouter c) {}
  s.active && n.powered && !n.resetting && (s.cores[c]).executes

/-- Issues an instruction with a body. A core that does not run takes none. -/
def State.issue (s : State) (h : Hdr) (body : State → Res) : Ans :=
  let c := h.core
  let pc := (s.cores[c]).pc
  if ¬ s.coreRuns c then .next s
  else
    match s.boundary c with
    | some t => s.effect (fun _ => t)
    | none =>
      match s.fetch c (hdrLen h) with
      | (some e, t) => s.effect (fun _ => (t.precise c e pc).stepped c)
      | (none, t) =>
        if condIllegal h then s.effect (fun _ => (t.precise c illegal pc).stepped c)
        else if t.gorWaits h then .next s
        else if ¬ t.condHolds h then s.effect (fun _ => (t.begin_ h).stepped c)
        else
          match body (t.begin_ h) with
          | .done u => s.effect (fun _ => u.stepped c)
          | .trap u e => s.effect (fun _ => (u.precise c e pc).stepped c)
          | .stall => .next s

/-- The register is the destination of an array scalar result that has not been written (R112). -/
def State.interlocked (s : State) (c : Fin 8) (r : Fin 32) : Bool :=
  if h : c.val < 4 then (s.devs[(⟨c.val, h⟩ : Fin 4)]).aiq.any (fun e => e.scalar && decide (e.rdNum = r)) else false

/-- Issues an instruction that reads or writes the scalar registers `rs`: it stalls while one of them awaits an array
result (R112). -/
def State.issueRegs (s : State) (h : Hdr) (rs : List (Fin 32)) (body : State → Res) : Ans :=
  s.issue h (fun t => if rs.any (fun r => t.interlocked h.core r) then .stall else body t)

/-- Registers and core alone. -/
def State.issueAlu (s : State) (h : Hdr) (rs : List (Fin 32)) (f : Core → Core) : Ans :=
  s.issueRegs h rs (fun t => .done (t.modCore h.core f))

/-- Registers and core, or an exception. -/
def State.issueExc (s : State) (h : Hdr) (rs : List (Fin 32)) (f : Core → Except Exc Core) : Ans :=
  s.issueRegs h rs (fun t => match f t.cores[h.core] with
    | .ok k => .done (t.modCore h.core (fun _ => k))
    | .error e => .trap t e)

/-! ## Scalar registers -/

/-- A scalar register. -/
def Core.x (k : Core) (r : Fin 32) : Word := k.s[r]
/-- Writes a scalar register. -/
def Core.setX (k : Core) (r : Fin 32) (v : Word) : Core := { k with s := k.s.set r v }

/-- The second register of a pair (R69): the number is even where this is used. -/
def pairHi (r : Fin 32) : Fin 32 := Fin.ofNat 32 (r.val + 1)

/-- The 64-bit value of a pair, its low word in the named register. -/
def Core.x2 (k : Core) (r : Fin 32) : DWord := k.x (pairHi r) ++ k.x r

/-- Writes a pair. -/
def Core.setX2 (k : Core) (r : Fin 32) (v : DWord) : Core :=
  (k.setX r (v.setWidth 32)).setX (pairHi r) ((v >>> 32).setWidth 32)

/-- A doubleword field must name an even register (R69). -/
def oddPair (r : Fin 32) : Bool := decide (r.val % 2 = 1)

end Sys2Proof.Machine
end

