-- ==== Sys2Proof/Machine/Operands.lean ====
section
/-!
DEFINITION. The operand forms of the core instructions and the scalar operations on them (R67, R69, R81, R84, R85).
-/

namespace Sys2Proof.Machine

/-- Registers and core, with one open word: `f` is given it. -/
def State.issueFree (s : State) (h : Hdr) (rs : List (Fin 32)) (f : Core → Word → Core) : Ans :=
  s.issueRegs h rs (fun t => .done (t.modCore h.core (fun k => f k (t.free_ 32))).used)

/-- Shifts by a count; the spec states no result for a count of 32 or more (log 28). -/
def shlWord (a : Word) (n : Nat) (open_ : Word) : Word := if n < 32 then a <<< n else open_
def shrWord (a : Word) (n : Nat) (open_ : Word) : Word := if n < 32 then a >>> n else open_
def sarWord (a : Word) (n : Nat) (open_ : Word) : Word := if n < 32 then a.sshiftRight n else open_

def minS (a b : Word) : Word := if a.toInt ≤ b.toInt then a else b
def maxS (a b : Word) : Word := if a.toInt ≤ b.toInt then b else a
def minU (a b : Word) : Word := if a.toNat ≤ b.toNat then a else b
def maxU (a b : Word) : Word := if a.toNat ≤ b.toNat then b else a

/-- The absolute value, wrapping at the most negative one (log 26). -/
def absWord (a : Word) : Word := if a.msb then -a else a

/-- The signed and unsigned 64-bit products (R81). -/
def mulS (a b : Word) : DWord := BitVec.ofInt 64 (a.toInt * b.toInt)
def mulU (a b : Word) : DWord := BitVec.ofNat 64 (a.toNat * b.toNat)

/-- One restoring division step: remainder, quotient, and C (R82). -/
def divStep (r q d : Word) : Word × Word × Bool :=
  let t : Nat := r.toNat * 2 + q.toNat / 2 ^ 31
  if d.toNat ≤ t then (BitVec.ofNat 32 (t - d.toNat), (q <<< 1) ||| 1, true) else (BitVec.ofNat 32 t, q <<< 1, false)

/-- The exclusive-OR of the bits of a word, in bit 0 (R85). -/
def parity (a : Word) : Word := if (List.range 32).countP (fun i => a.getLsbD i) % 2 = 1 then 1 else 0

/-- The low `w` bits reversed, the rest clear (R85). -/
def reverseBits (a : Word) (w : Nat) : Word :=
  BitVec.ofFnLE (fun i : Fin 32 => decide (i.val < w) && a.getLsbD (w - 1 - i.val))

end Sys2Proof.Machine
end

