-- ==== Sys2Proof/Machine/CoreSystem.lean ====
section
/-!
DEFINITION. The system instructions, core registers and segments, and the traps that are no instruction (R68, R73, R74,
R89, R97-R99, R104).
-/

namespace Sys2Proof.Machine

/-- The privileged-instruction exception. -/
def privileged : Exc := { code := excPrivileged }

/-- The expander resumes once TRAP is 0, the core is not halted and no slip runs; it dispatches an abandoned entry again
(R57, R123). -/
def State.resumeExpander (s : State) (d : Fin 4) : State :=
  let k := s.cores[devCore d]
  if k.trap ∨ k.halted ∨ s.grains.slip.isSome ∨ k.run = .mcHalt then s
  else s.modDev d (fun x =>
    { x with ex := { x.ex with stopped := false, st := if x.ex.st = .abandoned then .idle else x.ex.st } })

/-- Resumes the expander of a core that is a Developer. -/
def State.resumeCore (s : State) (c : Fin 8) : State := if h : c.val < 4 then s.resumeExpander ⟨c.val, h⟩ else s

/-- Cycles of the core's clock since its reset: 1,000 MHz or 666.7 MHz from the 4 GHz PLL (R65, R73, R313). -/
def State.coreCycles (s : State) (c : Fin 8) : Nat :=
  (s.rootTicks - (s.cores[c]).cycleBase) / (if c.val < 4 then 4 else 6) % 2 ^ 64

/-- Core registers marked S (R73). -/
def coreRegS (n : Nat) : Bool := decide (6 ≤ n ∧ n ≤ 12) || decide (n = 16)

/-- A core register's value. -/
def State.coreReg (s : State) (c : Fin 8) (n : Nat) : Word :=
  let k := s.cores[c]
  match n with
  | 0 => k.ctl
  | 1 => k.flags
  | 2 => k.fpstat
  | 3 => k.lfsr
  | 4 => k.crcpoly
  | 5 => k.vstart
  | 6 => k.status
  | 7 => k.tpc
  | 8 => k.cause
  | 9 => k.faddr
  | 10 => k.fppc
  | 11 => k.thandler
  | 12 => k.scratch
  | 13 => BitVec.ofNat 32 c.val
  | 14 => BitVec.ofNat 32 (s.coreCycles c)
  | 15 => k.cycleLatch.getD (BitVec.ofNat 32 (s.coreCycles c / 2 ^ 32))
  | _ => k.tstat

/-- What a read of a core register leaves behind: the CYCLE pair latches as R7 says. -/
def State.coreRegRead (s : State) (c : Fin 8) (n : Nat) : State :=
  if n = 14 then s.modCore c (fun k => { k with cycleLatch := some (BitVec.ofNat 32 (s.coreCycles c / 2 ^ 32)) })
  else if n = 15 then s.modCore c (fun k => { k with cycleLatch := none })
  else s

/-- A write of a core register: reserved bits stay 0, read-only registers ignore it, either half of CORE_CYCLE releases the latch
(R7), 0 loads 1 into CORE_LFSR (R8, R73, R79). -/
def Core.writeReg (k : Core) (n : Nat) (v : Word) : Core :=
  match n with
  | 0 => { k with ctl := v &&& 0x1F07 }
  | 1 => { k with flags := v &&& 0x1F }
  | 2 => { k with fpstat := v &&& 0x1F }
  | 3 => { k with lfsr := if v = 0 then 1 else v }
  | 4 => { k with crcpoly := v }
  | 5 => { k with vstart := v }
  | 6 => { k with status := v &&& 0x13 }
  | 7 => { k with tpc := v }
  | 8 => { k with cause := v &&& 0x800007FF }
  | 9 => { k with faddr := v }
  | 10 => { k with fppc := v }
  | 11 => { k with thandler := v }
  | 12 => { k with scratch := v }
  | 14 => { k with cycleLatch := none }
  | 15 => { k with cycleLatch := none }
  | 16 => { k with tstat := v &&& 3 }
  | _ => k

/-- A write of a core register by its own core or by debug; clearing TRAP restarts the expander (R123, R129). -/
def State.coreRegWrite (s : State) (c : Fin 8) (n : Nat) (v : Word) : State :=
  let s := s.modCore c (fun k => k.writeReg n v)
  if n = 6 ∧ (v.getLsbD 4) = false then s.resumeCore c else s

/-- Why an access to core register `n` raises an exception, if it does: no such register, or level U on one marked S. -/
def Core.regExc (k : Core) (n : Nat) : Option Exc :=
  if 16 < n then some illegal else if coreRegS n && !k.sLevel then some privileged else none

/-- The trap an fbar meets (R89): the instruction at `pc` has not completed. -/
def State.fbarTrap (s : State) (h : Hdr) : State :=
  s.takeFp h.core ((s.cores[h.core]).pc - BitVec.ofNat 32 (hdrLen h))

/-- mfc (R73). A read of CORE_FPSTAT first acts as fbar. -/
def execMfc (h : Hdr) (rd : Fin 32) (n : Fin 64) (s : State) : Ans :=
  s.issueRegs h [rd] (fun t =>
    match (t.cores[h.core]).regExc n.val with
    | some e => .trap t e
    | none =>
      if n = 2 ∧ (t.cores[h.core]).fpPend.isSome then .done (t.fbarTrap h)
      else
        let v := t.coreReg h.core n.val
        .done ((t.coreRegRead h.core n.val).modCore h.core (fun k => k.setX rd v)))

/-- mtc (R73). A write of CORE_FPSTAT first acts as fbar. -/
def execMtc (h : Hdr) (n : Fin 64) (rs : Fin 32) (s : State) : Ans :=
  s.issueRegs h [rs] (fun t =>
    match (t.cores[h.core]).regExc n.val with
    | some e => .trap t e
    | none =>
      if n = 2 ∧ (t.cores[h.core]).fpPend.isSome then .done (t.fbarTrap h)
      else .done (t.coreRegWrite h.core n.val ((t.cores[h.core]).x rs)))

/-- The segment that a pair and a limit spell (R74). -/
def segOf (p : DWord) (l : Word) : Seg :=
  { base := p.setWidth 48 &&& 0xFFFFFFFFFFC0, limit := l, r := p.getLsbD 0, w := p.getLsbD 1, x := p.getLsbD 2,
    u := p.getLsbD 3 }

/-- The pair that a segment reads as. -/
def segPair (g : Seg) : DWord :=
  g.base.setWidth 64 ||| (if g.u then 8 else 0) ||| (if g.x then 4 else 0) ||| (if g.w then 2 else 0) |||
    (if g.r then 1 else 0)

/-- mtseg, at level S (R74). -/
def execMtseg (h : Hdr) (seg : Fin 8) (sP sL : Fin 32) (s : State) : Ans :=
  s.issueExc h [sP, pairHi sP, sL] (fun k =>
    if oddPair sP then .error illegal
    else if ¬ k.sLevel then .error privileged
    else .ok { k with seg := k.seg.set seg (segOf (k.x2 sP) (k.x sL)) })

/-- mfseg (R74). A limit register inside the pair takes an open value (log 30). -/
def execMfseg (h : Hdr) (sP sL : Fin 32) (seg : Fin 8) (s : State) : Ans :=
  s.issueRegs h [sP, pairHi sP, sL] (fun t =>
    if oddPair sP then .trap t illegal
    else
      let g := (t.cores[h.core]).seg[seg]
      let lim := if sL = sP ∨ sL = pairHi sP then t.free_ 32 else g.limit
      .done (t.modCore h.core (fun k => (k.setX2 sP (segPair g)).setX sL lim)).used)

/-- A store of the core to a FIFO register is held for room (R294): it has not been performed (R103). -/
def State.storeHeld (s : State) (c : Fin 8) : Bool := s.heldPush.any (fun h => h.by_ == .core c)

/-- A fence that orders earlier stores waits until each has been performed; every other access is performed with its command
(R103, R104, log 32). -/
def State.fence (s : State) (h : Hdr) : Ans := s.issue h (fun t => if t.storeHeld h.core then .stall else .done t)

/-- fence.rw (R104). -/
def execFenceRw (h : Hdr) (s : State) : Ans := s.fence h

/-- fence.r: earlier loads alone, and each has been performed with its command (R104, log 32). -/
def execFenceR (h : Hdr) (s : State) : Ans := s.issue h .done

/-- fence.w (R104). -/
def execFenceW (h : Hdr) (s : State) : Ans := s.fence h

/-- fence.i: earlier stores are visible to the fetches after it (R104). -/
def execFenceI (h : Hdr) (s : State) : Ans := s.fence h

/-- fbar: a pending floating-point trap is taken before it completes (R89). -/
def execFbar (h : Hdr) (s : State) : Ans :=
  s.issue h (fun t => if (t.cores[h.core]).fpPend.isSome then .done (t.fbarTrap h) else .done t)

/-- rett (R99): IE and PRIV come back from CORE_TSTAT, TRAP clears, and the core continues at CORE_TPC. It uses registers
marked S, so at level U it is privileged (R73, R97, log 33). -/
def execRett (h : Hdr) (s : State) : Ans :=
  s.issue h (fun t =>
    if ¬ (t.cores[h.core]).sLevel then .trap t privileged
    else .done ((t.modCore h.core (fun k => { k with status := k.tstat &&& 3, pc := k.tpc })).resumeCore h.core))

/-- brk (R97). -/
def execBrk (h : Hdr) (s : State) : Ans := s.issue h (fun t => .trap t { code := excBreak })

/-- wfi (R99): waits until an interrupt is pending, whatever IE holds. It waits at level S; at level U it is privileged
(log 33). -/
def execWfi (h : Hdr) (s : State) : Ans :=
  s.issue h (fun t =>
    let k := t.cores[h.core]
    if ¬ k.sLevel then .trap t privileged
    else if k.ints = [] then .done (t.modCore h.core (fun k => { k with run := .wfi }))
    else .done t)

/-- A reserved or unassigned encoding (R68). -/
def execIllegalInstruction (h : Hdr) (s : State) : Ans := s.issue h (fun t => .trap t illegal)

/-- Takes what is due at the core's boundary, if the core is at one. -/
def State.atBoundary (s : State) (c : Fin 8) : State :=
  if s.coreRuns c then (s.boundary c).getD s else s

/-- An interrupt of a core becomes pending, ends a wfi, and is taken at the boundary when enabled (R98, R99). -/
def State.interruptCore (s : State) (c : Fin 8) (num : BitVec 8) : State :=
  let s := s.modCore c (fun k =>
    { k with
      ints := if k.ints.contains num then k.ints else k.ints ++ [num],
      run := if k.run = .wfi then .running else k.run })
  s.atBoundary c

/-- INTERRUPT (R98). -/
def execInterrupt (core : Fin 8) (num : BitVec 8) (s : State) : Ans := s.effect (fun s => s.interruptCore core num)

/-- FP_TRAP (R89): the pending floating-point trap is taken once it is due. -/
def execFpTrap (core : Fin 8) (s : State) : Ans :=
  s.effect (fun s =>
    let k := s.cores[core]
    match k.fpPend with
    | some n => if s.coreRuns core ∧ 15 ≤ n ∧ ¬ k.mcPend then s.takeFp core k.pc else s
    | none => s)

/-- MACHINE_CHECK (R98): a pending machine check is taken; it ends a wfi, and the wait of an a.sync, which the core issues again
after its return (DESIGN CHOICE, log 109). -/
def execMachineCheck (core : Fin 8) (s : State) : Ans :=
  s.effect (fun s =>
    let k := s.cores[core]
    let waits := decide (k.run = .wfi) || decide (k.run = .sync)
    if k.mcPend ∧ (s.coreRuns core ∨ (waits ∧ ¬ k.halted)) then
      (s.modCore core (fun k => match k.run with
        | .wfi => { k with run := .running }
        | .sync => { k with run := .running, pc := k.pc - 4 }
        | _ => k)).takeMc core
    else s)

end Sys2Proof.Machine
end

