-- ==== Sys2Proof/Machine/Array.lean ====
section
/-!
DEFINITION. Array instructions as they issue: decode entries, field descriptors, the checks at issue, and entry into the
AIQ (R107-R115, R129, R135).
-/

namespace Sys2Proof.Machine

/-! ## Decode entries (R113, R115) -/

/-- A decode entry's fields. `amax` is the largest width of RA's field (12 for a.lut, R113). -/
structure DecEnt where
  valid : Bool := true
  ip : Bool := false
  sys : Bool := false
  dk : Nat := 0
  ak : Nat := 0
  bk : Nat := 0
  eqw : Bool := false
  sumw : Bool := false
  wmax : Nat := 64
  wmin : Nat := 1
  amax : Nat := 64
  k0 : Nat := 0
  ka : Nat := 0
  kb : Nat := 0
  kd : Nat := 0
  kab : Nat := 0
  entry : Nat := 0
deriving DecidableEq, Repr

/-- A decode entry as it lies in the table (R115). -/
def decEnt (v : DWord) : DecEnt :=
  let f (lo w : Nat) : Nat := getBits v lo w
  { valid := v.getLsbD 63, ip := v.getLsbD 62, sys := v.getLsbD 61, dk := f 58 2, ak := f 56 2, bk := f 54 2,
    eqw := v.getLsbD 53, sumw := v.getLsbD 52, wmax := if f 46 6 = 0 then 64 else f 46 6,
    wmin := if f 40 6 = 0 then 1 else f 40 6, k0 := f 32 8, ka := f 28 4, kb := f 24 4, kd := f 20 4, kab := f 16 4,
    entry := f 0 15 }

/-- The ROM entries 0-127, from the instruction list of R113; an index it does not list is invalid. -/
def romDec (i : Nat) : DecEnt :=
  let e : DecEnt :=
    if i < 6 then { dk := 1, ak := 1, bk := 1, eqw := true, k0 := 2, kd := 3 + i % 2 }
    else if i < 10 then
      { dk := 1, bk := 1, ip := true, eqw := true, wmax := if i % 2 = 0 then 32 else 21, k0 := 2, kd := 5 + i % 2 }
    else if i = 10 then { dk := 1, ak := 1, bk := 1, sumw := true, ka := 4, kab := 3 }
    else if i < 13 then { ak := 1, bk := 1, eqw := true, k0 := 2, ka := 2 }
    else if i < 15 then { dk := 1, ak := 1, eqw := true, kd := 2 + (i + 1) % 2 }
    else if i < 17 then { dk := 1, bk := 2, wmax := 32, kd := 1 + (i + 1) % 2 }
    else if i < 19 then { dk := 1, ak := 1, eqw := true, kd := 2 + (i + 1) % 2 }
    else if i = 19 then { valid := false }
    else if i < 28 then { dk := 1, ak := 1, bk := 1, eqw := true, kd := 3 + i % 2 }
    else if i < 64 then { valid := false }
    else if i < 68 then { dk := 1, ak := 1, eqw := true, k0 := 1, kd := 2 }
    else if i < 72 then { dk := 1, ak := 1, eqw := true, k0 := 1, kd := 3 }
    else if i < 74 then { dk := 1, ak := 1, bk := 3, amax := 12, k0 := 2, ka := 1, kd := 2 + i % 2 }
    else if i = 74 then { dk := 1, ak := 1, bk := 2, wmax := 1, kb := 3, kab := 1 }
    else if i = 75 then { dk := 2, ak := 1, k0 := 20, ka := 1 }
    else if i = 76 then { dk := 2, ak := 1, wmax := 1, k0 := 8 }
    else if i = 77 then { dk := 1, wmax := 2, wmin := 2, k0 := 2 }
    else if i = 78 then { ak := 1, wmax := 2, wmin := 2, k0 := 2 }
    else if i = 79 then { ak := 1, wmax := 1, k0 := 1 }
    else if i < 82 then { dk := 1, wmax := 1, k0 := 1 + i % 2 }
    else if i < 84 then { ak := 1, wmax := 1, k0 := 1 }
    else if i = 84 then { k0 := 1 }
    else if i = 85 then { dk := 1, wmax := 1, k0 := 1 }
    else if i < 88 then { k0 := 1 }
    else { valid := false }
  { e with entry := (Config.romEntry i).toNat }

/-- The system routines' entries: SYS is 1, and their operands are taken as scalar values (log 10). -/
def sysDec (i : Nat) : DecEnt := { sys := true, ak := 2, bk := 2, dk := 3, entry := (Config.romEntry i).toNat }

/-- A decode entry of a Developer; none where an unwritten RAM entry fails its parity (R115, R135). -/
def Dev.decode (x : Dev) (i : Nat) : Option DecEnt :=
  if i < 128 then some (romDec i)
  else if i < 192 then some (sysDec i)
  else (smGet (fun _ => none) x.decodeRam i).map (fun v =>
    let e := decEnt v
    -- DK and AK of 3 are reserved: such an entry is taken as not valid (log 35)
    if e.dk = 3 ∨ e.ak = 3 then { e with valid := false } else e)

/-! ## Field descriptors (R108) -/

def fieldBase (v : Word) : Nat := v.toNat % 2 ^ 13

/-- The width a descriptor names: 0 means 64. -/
def fieldWidth (v : Word) : Nat :=
  let w := v.toNat / 2 ^ 16 % 64
  if w = 0 then 64 else w

/-- The bits that must be 0 are. -/
def fieldOk (v : Word) : Bool := decide (v.toNat / 2 ^ 22 = 0 ∧ v.toNat / 2 ^ 13 % 8 = 0)

/-- wD, wA and nB of an issue; an unused operand gives 0 (R115, R116). -/
def DecEnt.wD (e : DecEnt) (rd : Word) : Nat := if e.dk = 1 then fieldWidth rd else 0
def DecEnt.wA (e : DecEnt) (ra : Word) : Nat := if e.ak = 1 then fieldWidth ra else 0
def DecEnt.nB (e : DecEnt) (rb : Word) : Nat :=
  if e.bk = 1 ∨ e.bk = 3 then fieldWidth rb else if e.bk = 2 then rb.toNat % 512 else 0

/-- The cycle count of the entry's formula (R115). -/
def DecEnt.cycles (e : DecEnt) (rd ra rb : Word) : Nat :=
  e.k0 + e.ka * e.wA ra + e.kb * e.nB rb + e.kd * e.wD rd + e.kab * e.wA ra * e.nB rb

/-- CORE_FADDR of an array address exception (R110). -/
def arrayFaddr (reason operand : Nat) (v : Word) : Word := BitVec.ofNat 32 (reason * 2 ^ 29 + operand * 2 ^ 14 + fieldBase v)

def arrayExc (reason operand : Nat) (v : Word) : Exc := { code := excArray, faddr := some (arrayFaddr reason operand v) }

/-- The first operand that breaks R108, a width rule or a count's range, in the order RD, RA, RB (R109, log 34). -/
def DecEnt.badOperand (e : DecEnt) (idx : Nat) (rd ra rb : Word) : Option (Nat × Word) :=
  let isF (k : Nat) : Bool := decide (k = 1)
  let bField := isF e.bk || decide (e.bk = 3)
  let ref := if e.dk = 1 then e.wD rd else e.wA ra
  let refBad := (isF e.dk || isF e.ak) && (decide (e.wmax < ref) || decide (ref < e.wmin))
  let sumBad := e.sumw && decide (e.wD rd ≠ e.wA ra + e.nB rb)
  if isF e.dk && !fieldOk rd then some (0, rd)
  else if isF e.ak && !fieldOk ra then some (1, ra)
  else if bField && !fieldOk rb then some (2, rb)
  else if isF e.dk && (refBad || sumBad) then some (0, rd)
  else if isF e.ak && ((!isF e.dk && refBad) || (e.eqw && decide (e.wA ra ≠ ref)) || decide (e.amax < e.wA ra)) then some (1, ra)
  else if isF e.bk && e.eqw && decide (e.nB rb ≠ ref) then some (2, rb)
  else if decide (e.bk = 3) && decide (e.nB rb ≠ e.wD rd) then some (2, rb)
  else if decide (idx = 74) && (decide (e.nB rb = 0 ∨ 256 < e.nB rb) || decide (rb.toNat / 512 % 128 ≠ 0)) then some (2, rb)
  else none

/-- The addresses a field covers lie in program memory; an in-place routine's may lie in SCR (R37, R109, log 34). -/
def DecEnt.inRange (e : DecEnt) (base n : Nat) : Bool :=
  decide (base + n ≤ 7680) || (e.ip && decide (7936 ≤ base ∧ base + n ≤ 8192))

/-- Size of RB's field or table. -/
def DecEnt.bSize (e : DecEnt) (rd ra rb : Word) : Nat :=
  if e.bk = 1 then e.nB rb else if e.bk = 3 then 2 ^ e.wA ra * e.wD rd else 0

/-- The operand that extends too far. -/
def DecEnt.farOperand (e : DecEnt) (rd ra rb : Word) : Option (Nat × Word) :=
  if e.dk = 1 ∧ ¬ e.inRange (fieldBase rd) (e.wD rd) then some (0, rd)
  else if e.ak = 1 ∧ ¬ e.inRange (fieldBase ra) (e.wA ra) then some (1, ra)
  else if (e.bk = 1 ∨ e.bk = 3) ∧ ¬ e.inRange (fieldBase rb) (e.bSize rd ra rb) then some (2, rb)
  else none

/-- Two address ranges share an address. -/
def overlaps (a n b m : Nat) : Bool := decide (0 < n ∧ 0 < m ∧ a < b + m ∧ b < a + n)

/-- The destination shares an address with a source field or table. -/
def DecEnt.clashes (e : DecEnt) (rd ra rb : Word) : Bool :=
  decide (e.dk = 1) && !e.ip &&
    (overlaps (fieldBase rd) (e.wD rd) (fieldBase ra) (e.wA ra) || overlaps (fieldBase rd) (e.wD rd) (fieldBase rb) (e.bSize rd ra rb))

/-- The checks of R109, in its order; the system routines in ROM are exempt from the range check (R37). An exception of reason 2 names no operand: its operand and BASE are open (log 34). -/
def State.arrayCheck (s : State) (c : Fin 8) (d : Fin 4) (e : DecEnt) (idx : Nat) (rd ra rb : Fin 32) : Option Exc :=
  let k := s.cores[c]
  let vd := k.x rd
  let va := k.x ra
  let vb := k.x rb
  let unused := (e.dk = 0 ∧ rd ≠ 0) ∨ (e.ak = 0 ∧ ra ≠ 0) ∨ (e.bk = 0 ∧ rb ≠ 0)
  let keys : Option Exc :=
    if idx = 74 then k.segCheck 1 (vb.toNat / 2 ^ 16 * 8) (8 * e.nB vb) true false false else none
  if ¬ e.valid ∨ unused ∨ k.trap then some illegal
  else if e.sys ∧ ¬ k.sLevel then some privileged
  else if ¬ s.drives d then some { code := excNoGang }
  else
    match keys with
    | some x => some x
    | none =>
      match e.badOperand idx vd va vb with
      | some o => some (arrayExc 3 o.1 o.2)
      | none =>
        match (if e.sys ∧ idx < 192 then none else e.farOperand vd va vb) with
        | some o => some (arrayExc 0 o.1 o.2)
        | none =>
          if e.clashes vd va vb then some (arrayExc 1 0 vd)
          else if 2048 < e.cycles vd va vb then
            some { code := excArray, faddr := some (BitVec.ofNat 32 (2 * 2 ^ 29) ||| (s.free_ 32 &&& 0xDFFF)) }
          else none

/-! ## Parity (R135, R136) -/

/-- A parity event: counted, recorded if the record is free, and written to the Contact Sheet. -/
def State.parityEvent (s : State) (d : Fin 4) (space addr : Nat) : State :=
  let s := s.finc F.DEV_UC_PAR_COUNT d
  let s := if s.on F.DEV_UC_PAR_VALID d then s
    else ((s.fset F.DEV_UC_PAR_VALID 1 d).fset F.DEV_UC_PAR_SPACE space d).fset F.DEV_UC_PAR_ADDR addr d
  s.csReport 0x11 ([1, 4, 31, 34].getD d.val 1) [(s.reg .DEV_UC_PAR d).toNat] false

/-- A machine check is pending in a Developer. -/
def State.mcPending (s : State) (d : Fin 4) : State := s.modCore (devCore d) (fun k => { k with mcPend := true })

/-- A decode entry fails its parity at issue: the instruction does not issue and a machine check is pending; a repeat
halts (R135, R136). The pc stays at the instruction, so that it issues again (log 25). -/
def State.decodeParity (s : State) (d : Fin 4) (idx : Nat) : State :=
  let s := s.parityEvent d 2 idx
  if (s.devs[d]).decPar.contains idx then s.machineHalt (devCore d)
  else (s.modDev d (fun x => { x with decPar := idx :: x.decPar })).mcPending d

/-! ## Issue (R109-R112) -/

/-- The instruction enters the AIQ with the values of its registers (R111). A stepped one lets the expander run (R347). -/
def State.enqueueAiq (s : State) (c : Fin 8) (d : Fin 4) (e : DecEnt) (idx : Nat) (rd ra rb : Fin 32) : State :=
  let k := s.cores[c]
  let entry : AiqEntry :=
    { index := idx, rd := k.x rd, ra := k.x ra, rb := k.x rb, rdNum := rd, scalar := decide (e.dk = 2),
      edge := s.reg .GRN_EDGE, keySeg := k.seg[(1 : Fin 8)] }
  s.modDev d (fun x =>
    { x with
      aiq := x.aiq ++ [entry], decPar := x.decPar.filter (fun i => decide (i ≠ idx)),
      ex := if k.halted then { x.ex with stopped := false } else x.ex })

/-- Issues an array instruction of decode index `idx`; illegal on a management core (R65). -/
def State.issueArray (s : State) (h : Hdr) (idx : Nat) (rd ra rb : Fin 32) : Ans :=
  s.issue h (fun t =>
    if hc : h.core.val < 4 then
      let d : Fin 4 := ⟨h.core.val, hc⟩
      match (t.devs[d]).decode idx with
      | none => .done ((t.decodeParity d idx).modCore h.core (fun k =>
          if k.run = .mcHalt then k else { k with pc := k.pc - BitVec.ofNat 32 (hdrLen h) }))
      | some e =>
        let used := (if e.dk ≠ 0 then [rd] else []) ++ (if e.ak ≠ 0 then [ra] else []) ++ (if e.bk ≠ 0 then [rb] else [])
        if used.any (fun r => t.interlocked h.core r) then .stall
        else
          match t.arrayCheck h.core d e idx rd ra rb with
          | some x => .trap t.used x
          | none =>
            if 32 ≤ (t.devs[d]).aiq.length then .stall
            else
              let t := t.enqueueAiq h.core d e idx rd ra rb
              .done (if idx = 87 then t.modCore h.core (fun k => { k with run := .sync }) else t)
    else .trap t illegal)

/-- The index of a form: the masked one follows the plain one; 127, which is invalid, where R113 lists no masked form. -/
def pairIdx (base : Nat) (m : Bool) : Nat := if m then base + 1 else base
def soleIdx (base : Nat) (m : Bool) : Nat := if m then 127 else base

/-- a.add (R113). -/
def execAAdd (h : Hdr) (m : Bool) (rd ra rb : Fin 32) (s : State) : Ans := s.issueArray h (pairIdx 0 m) rd ra rb

/-- a.sub (R113). -/
def execASub (h : Hdr) (m : Bool) (rd ra rb : Fin 32) (s : State) : Ans := s.issueArray h (pairIdx 2 m) rd ra rb

/-- a.adds (R113). -/
def execAAdds (h : Hdr) (m : Bool) (rd ra rb : Fin 32) (s : State) : Ans := s.issueArray h (pairIdx 4 m) rd ra rb

/-- a.add.ip (R113). -/
def execAAddIp (h : Hdr) (m : Bool) (rd ra rb : Fin 32) (s : State) : Ans := s.issueArray h (pairIdx 6 m) rd ra rb

/-- a.sub.ip (R113). -/
def execASubIp (h : Hdr) (m : Bool) (rd ra rb : Fin 32) (s : State) : Ans := s.issueArray h (pairIdx 8 m) rd ra rb

/-- a.mulu (R113). -/
def execAMulu (h : Hdr) (m : Bool) (rd ra rb : Fin 32) (s : State) : Ans := s.issueArray h (soleIdx 10 m) rd ra rb

/-- a.cmp (R113). -/
def execACmp (h : Hdr) (m : Bool) (rd ra rb : Fin 32) (s : State) : Ans := s.issueArray h (soleIdx 11 m) rd ra rb

/-- a.cmpu (R113). -/
def execACmpu (h : Hdr) (m : Bool) (rd ra rb : Fin 32) (s : State) : Ans := s.issueArray h (soleIdx 12 m) rd ra rb

/-- a.mov (R113). -/
def execAMov (h : Hdr) (m : Bool) (rd ra rb : Fin 32) (s : State) : Ans := s.issueArray h (pairIdx 13 m) rd ra rb

/-- a.movi (R113). -/
def execAMovi (h : Hdr) (m : Bool) (rd ra rb : Fin 32) (s : State) : Ans := s.issueArray h (pairIdx 15 m) rd ra rb

/-- a.not (R113). -/
def execANot (h : Hdr) (m : Bool) (rd ra rb : Fin 32) (s : State) : Ans := s.issueArray h (pairIdx 17 m) rd ra rb

/-- a.and (R113). -/
def execAAnd (h : Hdr) (m : Bool) (rd ra rb : Fin 32) (s : State) : Ans := s.issueArray h (pairIdx 20 m) rd ra rb

/-- a.or (R113). -/
def execAOr (h : Hdr) (m : Bool) (rd ra rb : Fin 32) (s : State) : Ans := s.issueArray h (pairIdx 22 m) rd ra rb

/-- a.xor (R113). -/
def execAXor (h : Hdr) (m : Bool) (rd ra rb : Fin 32) (s : State) : Ans := s.issueArray h (pairIdx 24 m) rd ra rb

/-- a.andn (R113). -/
def execAAndn (h : Hdr) (m : Bool) (rd ra rb : Fin 32) (s : State) : Ans := s.issueArray h (pairIdx 26 m) rd ra rb

/-- a.lut (R113). -/
def execALut (h : Hdr) (m : Bool) (rd ra rb : Fin 32) (s : State) : Ans := s.issueArray h (pairIdx 72 m) rd ra rb

/-- a.assoc (R113). -/
def execAAssoc (h : Hdr) (m : Bool) (rd ra rb : Fin 32) (s : State) : Ans := s.issueArray h (soleIdx 74 m) rd ra rb

/-- a.pop (R113). -/
def execAPop (h : Hdr) (m : Bool) (rd ra rb : Fin 32) (s : State) : Ans := s.issueArray h (soleIdx 75 m) rd ra rb

/-- a.gor (R113). -/
def execAGor (h : Hdr) (m : Bool) (rd ra rb : Fin 32) (s : State) : Ans := s.issueArray h (soleIdx 76 m) rd ra rb

/-- a.gld (R113). -/
def execAGld (h : Hdr) (m : Bool) (rd ra rb : Fin 32) (s : State) : Ans := s.issueArray h (soleIdx 77 m) rd ra rb

/-- a.gst (R113). -/
def execAGst (h : Hdr) (m : Bool) (rd ra rb : Fin 32) (s : State) : Ans := s.issueArray h (soleIdx 78 m) rd ra rb

/-- a.ldf (R113). -/
def execALdf (h : Hdr) (m : Bool) (rd ra rb : Fin 32) (s : State) : Ans := s.issueArray h (soleIdx 79 m) rd ra rb

/-- a.stf (R113). -/
def execAStf (h : Hdr) (m : Bool) (rd ra rb : Fin 32) (s : State) : Ans := s.issueArray h (pairIdx 80 m) rd ra rb

/-- a.ldm (R113). -/
def execALdm (h : Hdr) (m : Bool) (rd ra rb : Fin 32) (s : State) : Ans := s.issueArray h (soleIdx 82 m) rd ra rb

/-- a.andm (R113). -/
def execAAndm (h : Hdr) (m : Bool) (rd ra rb : Fin 32) (s : State) : Ans := s.issueArray h (soleIdx 83 m) rd ra rb

/-- a.setm (R113). -/
def execASetm (h : Hdr) (m : Bool) (rd ra rb : Fin 32) (s : State) : Ans := s.issueArray h (soleIdx 84 m) rd ra rb

/-- a.stm (R113). -/
def execAStm (h : Hdr) (m : Bool) (rd ra rb : Fin 32) (s : State) : Ans := s.issueArray h (soleIdx 85 m) rd ra rb

/-- a.nop (R113). -/
def execANop (h : Hdr) (m : Bool) (rd ra rb : Fin 32) (s : State) : Ans := s.issueArray h (soleIdx 86 m) rd ra rb

/-- a.sync (R113). -/
def execASync (h : Hdr) (m : Bool) (rd ra rb : Fin 32) (s : State) : Ans := s.issueArray h (soleIdx 87 m) rd ra rb

/-- a.shift in a direction (R113). -/
def execAShift (h : Hdr) (dir : Dir) (m : Bool) (rd ra rb : Fin 32) (s : State) : Ans :=
  s.issueArray h ((if m then 68 else 64) + dir.ctorIdx) rd ra rb

/-- A customer array instruction: decode entry 192 + k (R115). -/
def execCustomerInstruction (h : Hdr) (k : Fin 64) (rd ra rb : Fin 32) (s : State) : Ans :=
  s.issueArray h (192 + k) rd ra rb

/-- A system routine: decode entry 128 + k, at level S (R113). -/
def execSystemRoutine (h : Hdr) (k : Fin 64) (rd ra rb : Fin 32) (s : State) : Ans := s.issueArray h (128 + k) rd ra rb

end Sys2Proof.Machine
end

