-- ==== Sys2Proof/Machine/CoreVector.lean ====
section
/-!
DEFINITION. The vector integer and fixed-point instructions (R69, R78, R92-R94, R96).
-/

namespace Sys2Proof.Machine

/-! ## Elements and groups (R92) -/

/-- Element size in bits, and registers of a group. -/
def esBits (esz : Fin 4) : Nat := 8 * 2 ^ esz.val
def grpRegs (grp : Fin 4) : Nat := 2 ^ grp.val

/-- Element `i` of `w` bits of the group at `b`, unsigned. -/
def Core.elemU (k : Core) (b w i : Nat) : Nat :=
  let v := k.v[(Fin.ofNat 16 (b + i * w / 128))]
  v.toNat / 2 ^ (i * w % 128) % 2 ^ w

/-- An unsigned `w`-bit value read as signed. -/
def signedOf (w x : Nat) : Int := if 2 ^ (w - 1) ≤ x then (x : Int) - 2 ^ w else x

/-- Element `i`, signed. -/
def Core.elemS (k : Core) (b w i : Nat) : Int := signedOf w (k.elemU b w i)

/-- Writes element `i` with the low `w` bits of a value. -/
def Core.setElem (k : Core) (b w i : Nat) (x : Int) : Core :=
  let r : Fin 16 := Fin.ofNat 16 (b + i * w / 128)
  let sh := i * w % 128
  let mask : BitVec 128 := BitVec.ofNat 128 ((2 ^ w - 1) * 2 ^ sh)
  { k with v := k.v.set r ((k.v[r] &&& ~~~mask) ||| BitVec.ofNat 128 ((x % 2 ^ w).toNat * 2 ^ sh)) }

/-- The bits of an open value that stand for element `i`. -/
def sliceOf (open_ : BitVec 512) (w i : Nat) : Int := (open_.toNat / 2 ^ (w * i) % 2 ^ w : Nat)

/-- Elements CORE_VSTART to `n` - 1 in ascending order, each by `f` on the core as the elements before left it; then
CORE_VSTART is 0 (R79, R96). -/
def Core.vrun (k : Core) (n : Nat) (f : Core → Nat → Core) : Core :=
  let first := k.vstart.toNat
  { (List.range (n - first)).foldl (fun c i => f c (first + i)) k with vstart := 0 }

/-- Issues a vector instruction: ESZ or GRP of 3, RO outside major 0x18, a group base that is no multiple of its size, or
an element size the operation does not have is illegal (R68, R78, R92). The body has an open value. -/
def State.issueVec (s : State) (h : Hdr) (esz grp : Fin 4) (roBad : Bool) (bases : List (Fin 16 × Nat)) (sizeOk : Bool)
    (rs : List (Fin 32)) (f : Core → BitVec 512 → Core) : Ans :=
  s.issueRegs h rs (fun t =>
    if esz = 3 ∨ grp = 3 ∨ roBad ∨ bases.any (fun b => decide (b.1.val % b.2 ≠ 0)) ∨ ¬ sizeOk then .trap t illegal
    else .done (t.modCore h.core (fun k => f k (t.free_ 512))).used)

/-- An operation of two groups on elements of one size: `op` gives the element from the unsigned operands' indices. -/
def State.issueVec3 (s : State) (h : Hdr) (esz grp : Fin 4) (ro : Bool) (vd vs1 vs2 : Fin 16)
    (op : Nat → Nat → Nat → Int × Bool) : Ans :=
  let w := esBits esz
  let g := grpRegs grp
  s.issueVec h esz grp ro [(vd, g), (vs1, g), (vs2, g)] true [] (fun k _ =>
    k.vrun (g * 128 / w) (fun c i =>
      let r := op w (k.elemU vs1 w i) (k.elemU vs2 w i)
      (c.setElem vd w i r.1).setQ r.2))

/-- The rounding mode of a form V instruction: RO = 1 selects the one it carries (R78). -/
def Core.vmode (k : Core) (ro : Bool) (mode : Fin 4) : Nat := if ro then mode.val else k.ctl.toNat % 4

/-! ## Instructions -/

/-- vadd (R94). -/
def execVadd (h : Hdr) (esz grp : Fin 4) (ro : Bool) (vd vs1 vs2 : Fin 16) (s : State) : Ans :=
  s.issueVec3 h esz grp ro vd vs1 vs2 (fun _ a b => ((a + b : Nat), false))

/-- vsub (R94). -/
def execVsub (h : Hdr) (esz grp : Fin 4) (ro : Bool) (vd vs1 vs2 : Fin 16) (s : State) : Ans :=
  s.issueVec3 h esz grp ro vd vs1 vs2 (fun _ a b => ((a : Int) - b, false))

/-- vaddsat (R94). -/
def execVaddsat (h : Hdr) (esz grp : Fin 4) (ro : Bool) (vd vs1 vs2 : Fin 16) (s : State) : Ans :=
  s.issueVec3 h esz grp ro vd vs1 vs2 (fun w a b => clampS w (signedOf w a + signedOf w b))

/-- vsubsat (R94). -/
def execVsubsat (h : Hdr) (esz grp : Fin 4) (ro : Bool) (vd vs1 vs2 : Fin 16) (s : State) : Ans :=
  s.issueVec3 h esz grp ro vd vs1 vs2 (fun w a b => clampS w (signedOf w a - signedOf w b))

/-- vaddsatu (R94). -/
def execVaddsatu (h : Hdr) (esz grp : Fin 4) (ro : Bool) (vd vs1 vs2 : Fin 16) (s : State) : Ans :=
  s.issueVec3 h esz grp ro vd vs1 vs2 (fun w a b => clampU w (a + b : Nat))

/-- vsubsatu (R94). -/
def execVsubsatu (h : Hdr) (esz grp : Fin 4) (ro : Bool) (vd vs1 vs2 : Fin 16) (s : State) : Ans :=
  s.issueVec3 h esz grp ro vd vs1 vs2 (fun w a b => clampU w ((a : Int) - b))

/-- vmul (R94). -/
def execVmul (h : Hdr) (esz grp : Fin 4) (ro : Bool) (vd vs1 vs2 : Fin 16) (s : State) : Ans :=
  s.issueVec3 h esz grp ro vd vs1 vs2 (fun _ a b => ((a * b : Nat), false))

/-- vmin, signed (R69). -/
def execVmin (h : Hdr) (esz grp : Fin 4) (ro : Bool) (vd vs1 vs2 : Fin 16) (s : State) : Ans :=
  s.issueVec3 h esz grp ro vd vs1 vs2 (fun w a b => ((if signedOf w a ≤ signedOf w b then a else b : Nat), false))

/-- vmax, signed (R69). -/
def execVmax (h : Hdr) (esz grp : Fin 4) (ro : Bool) (vd vs1 vs2 : Fin 16) (s : State) : Ans :=
  s.issueVec3 h esz grp ro vd vs1 vs2 (fun w a b => ((if signedOf w a ≤ signedOf w b then b else a : Nat), false))

/-- vminu (R69). -/
def execVminu (h : Hdr) (esz grp : Fin 4) (ro : Bool) (vd vs1 vs2 : Fin 16) (s : State) : Ans :=
  s.issueVec3 h esz grp ro vd vs1 vs2 (fun _ a b => ((Nat.min a b : Nat), false))

/-- vmaxu (R69). -/
def execVmaxu (h : Hdr) (esz grp : Fin 4) (ro : Bool) (vd vs1 vs2 : Fin 16) (s : State) : Ans :=
  s.issueVec3 h esz grp ro vd vs1 vs2 (fun _ a b => ((Nat.max a b : Nat), false))

/-- vabs (R69); the most negative element has no stated result (log 20). -/
def execVabs (h : Hdr) (esz grp : Fin 4) (ro : Bool) (vd vs1 : Fin 16) (s : State) : Ans :=
  let w := esBits esz
  let g := grpRegs grp
  s.issueVec h esz grp ro [(vd, g), (vs1, g)] true [] (fun k open_ =>
    k.vrun (g * 128 / w) (fun c i =>
      let a := k.elemS vs1 w i
      c.setElem vd w i (if a = -(2 ^ (w - 1)) then sliceOf open_ w i else a.natAbs)))

/-- vdup: the low bits of a scalar to every element (R69, log 20). -/
def execVdup (h : Hdr) (esz grp : Fin 4) (ro : Bool) (vd : Fin 16) (rs : Fin 32) (s : State) : Ans :=
  let w := esBits esz
  let g := grpRegs grp
  s.issueVec h esz grp ro [(vd, g)] true [rs] (fun k _ =>
    k.vrun (g * 128 / w) (fun c i => c.setElem vd w i (k.x rs).toNat))

/-- vext: one element to a scalar; its extension is open, and so is an element outside the group (R69, log 20). It acts on the
element it names whatever CORE_VSTART holds, and leaves CORE_VSTART 0 (DESIGN CHOICE, log 106). -/
def execVext (h : Hdr) (esz grp : Fin 4) (ro : Bool) (rd : Fin 32) (vs1 : Fin 16) (idx : Fin 64) (s : State) : Ans :=
  let w := esBits esz
  let g := grpRegs grp
  s.issueVec h esz grp ro [(vs1, g)] true [rd] (fun k open_ =>
    { k.setX rd (if idx.val < g * 128 / w then
        (if Config.vextSigned then BitVec.ofInt 32 (k.elemS vs1 w idx) else BitVec.ofNat 32 (k.elemU vs1 w idx))
      else open_.setWidth 32) with vstart := 0 })

/-- vins: the low bits of a scalar to one element; an element outside the group leaves an open group (R69, log 20). CORE_VSTART as
in vext (DESIGN CHOICE, log 106). -/
def execVins (h : Hdr) (esz grp : Fin 4) (ro : Bool) (vd : Fin 16) (rs : Fin 32) (idx : Fin 64) (s : State) : Ans :=
  let w := esBits esz
  let g := grpRegs grp
  s.issueVec h esz grp ro [(vd, g)] true [rs] (fun k open_ =>
    { (if idx.val < g * 128 / w then k.setElem vd w idx (k.x rs).toNat
      else (List.range (g * 128 / w)).foldl (fun c i => c.setElem vd w i (sliceOf open_ w i)) k) with vstart := 0 })

/-- vwiden: elements of ESZ to a group of elements of twice the size; .w has no wider size (R69, log 20). GRP is the destination's
group and ESZ the source's element size; the source group is half as large, and for a single register its low half (DESIGN CHOICE,
log 104). -/
def execVwiden (h : Hdr) (esz grp : Fin 4) (ro : Bool) (vd vs1 : Fin 16) (s : State) : Ans :=
  let w := esBits esz
  let g := grpRegs grp
  s.issueVec h esz grp ro [(vd, g), (vs1, Nat.max 1 (g / 2))] (decide (esz.val < 2)) [] (fun k _ =>
    k.vrun (g * 128 / (2 * w)) (fun c i =>
      c.setElem vd (2 * w) i (if Config.vwidenSigned then k.elemS vs1 w i else k.elemU vs1 w i)))

/-- vmulq: fixed-point products rounded to the element format (R78, R94). -/
def execVmulq (h : Hdr) (esz grp : Fin 4) (ro : Bool) (mode : Fin 4) (vd vs1 vs2 : Fin 16) (s : State) : Ans :=
  let w := esBits esz
  let g := grpRegs grp
  s.issueVec h esz grp false [(vd, g), (vs1, g), (vs2, g)] true [] (fun k _ =>
    k.vrun (g * 128 / w) (fun c i =>
      let r := c.roundSat (k.vmode ro mode) (k.elemS vs1 w i * k.elemS vs2 w i) (w - 1) w
      r.2.setElem vd w i r.1))

/-- vsra.rnd: rounded arithmetic right shifts; a count of the element width or more has no stated result (R94, log 28). Each element's
count is the element of VS2 (DESIGN CHOICE, log 104). -/
def execVsraRnd (h : Hdr) (esz grp : Fin 4) (ro : Bool) (mode : Fin 4) (vd vs1 vs2 : Fin 16) (s : State) : Ans :=
  let w := esBits esz
  let g := grpRegs grp
  s.issueVec h esz grp false [(vd, g), (vs1, g), (vs2, g)] true [] (fun k open_ =>
    k.vrun (g * 128 / w) (fun c i =>
      let n := k.elemU vs2 w i
      let m := k.vmode ro mode
      if n < w then
        let r := c.roundSat m (k.elemS vs1 w i) n w
        r.2.setElem vd w i r.1
      else (c.rounded m).setElem vd w i (sliceOf open_ w i)))

/-- vnarrow.sat: signed saturation to half the width; with a single register the upper half of the destination is open (R94, log 20).
GRP and ESZ are the source's, and the destination group is half as large (DESIGN CHOICE, log 104). -/
def execVnarrowSat (h : Hdr) (esz grp : Fin 4) (_ro : Bool) (vd vs1 : Fin 16) (s : State) : Ans :=
  let w := esBits esz
  let g := grpRegs grp
  let n := g * 128 / w
  s.issueVec h esz grp false [(vd, Nat.max 1 (g / 2)), (vs1, g)] (decide (1 ≤ esz.val)) [] (fun k open_ =>
    let k' := if g = 1 then (List.range n).foldl (fun c i => c.setElem vd (w / 2) (n + i) (sliceOf open_ (w / 2) i)) k else k
    k'.vrun n (fun c i =>
      let r := clampS (w / 2) (k.elemS vs1 w i)
      (c.setElem vd (w / 2) i r.1).setQ r.2))

/-- vnarrow.satu: unsigned saturation to half the width; with a single register the upper half of the destination is open (R94, log 20).
GRP and ESZ are the source's, and the destination group is half as large (DESIGN CHOICE, log 104). -/
def execVnarrowSatu (h : Hdr) (esz grp : Fin 4) (_ro : Bool) (vd vs1 : Fin 16) (s : State) : Ans :=
  let w := esBits esz
  let g := grpRegs grp
  let n := g * 128 / w
  s.issueVec h esz grp false [(vd, Nat.max 1 (g / 2)), (vs1, g)] (decide (1 ≤ esz.val)) [] (fun k open_ =>
    let k' := if g = 1 then (List.range n).foldl (fun c i => c.setElem vd (w / 2) (n + i) (sliceOf open_ (w / 2) i)) k else k
    k'.vrun n (fun c i =>
      let r := clampU (w / 2) (if Config.vnarrowSigned then k.elemS vs1 w i else k.elemU vs1 w i)
      (c.setElem vd (w / 2) i r.1).setQ r.2))

end Sys2Proof.Machine
end

