-- ==== Sys2Proof/Machine/Expand.lean ====
section
/-!
DEFINITION. The microcode expander: the ROM instructions' effects (R113), the microword interpreter for extension stores
(R116-R127, R131, R135, R136), dispatch and retirement.
-/

namespace Sys2Proof.Machine

/-! ## Fields of a gang -/

/-- Reads the `w` bits of a field in every grain of the gang; an uncorrectable word leaves a machine check pending and its
stored bits in use (R50). -/
def State.readField (s : State) (parts : BitVec 4) (base w requester : Nat) : List Plane × State :=
  (List.range w).foldl (fun r j =>
    let x := r.2.grainRead (base + j) (gangWords parts) requester
    let s := x.2.grainMC x.1
    (r.1 ++ [(s.grains.plane (base + j)).stored (base + j)], s)) ([], s)

/-- Writes planes to a field: every grain of the gang, or where M = 1 (R113). -/
def State.writeField (s : State) (parts : BitVec 4) (base : Nat) (masked : Bool) (ps : List Plane) (requester : Nat) :
    State :=
  ps.zipIdx.foldl (fun s p =>
    let a := base + p.2
    if masked then
      let r := s.grainMerge a (gangWords parts) (gangMask parts &&& s.grains.M) p.1 requester
      r.2.grainMC r.1
    else s.grainWrite a (gangWords parts) p.1) s

/-- Addition of two bit-plane numbers with a carry in: the sum's planes, the last carry, and the carry into the last bit. -/
def addPlanes (a b : List Plane) (cin : Plane) : List Plane × Plane × Plane :=
  (a.zip b).foldl (fun (r : List Plane × Plane × Plane) x =>
    let c := r.2.1
    (r.1 ++ [x.1 ^^^ x.2 ^^^ c], (x.1 &&& x.2) ||| (x.1 &&& c) ||| (x.2 &&& c), c)) ([], cin, cin)

/-- a - b: the difference and where a < b. -/
def subPlanes (a b : List Plane) : List Plane × Plane :=
  let r := addPlanes a (b.map (fun p => ~~~p)) (BitVec.allOnes 65536)
  (r.1, ~~~r.2.1)

/-- The planes of a constant. -/
def constPlanes (v : DWord) (w : Nat) : List Plane :=
  (List.range w).map (fun j => if v.getLsbD j then BitVec.allOnes 65536 else 0)

/-- Multiplication: shifted partial sums, to `w` planes. -/
def mulPlanes (a b : List Plane) (w : Nat) : List Plane :=
  a.zipIdx.foldl (fun (acc : List Plane) p =>
    let part := List.replicate p.2 0 ++ b.map (· &&& p.1)
    (addPlanes acc ((part ++ List.replicate w 0).take w) 0).1) (List.replicate w 0)

/-- F takes a value where M = 1 (R35). -/
def State.setF (s : State) (parts : BitVec 4) (v : Plane) : State :=
  let g := s.grains
  s.setGrains { g with F := merge (gangMask parts &&& g.M) v g.F }

/-- M takes a value in every grain of the gang. -/
def State.setM (s : State) (parts : BitVec 4) (v : Plane) : State :=
  let g := s.grains
  s.setGrains { g with M := merge (gangMask parts) v g.M }

/-- A plane nothing constrains, for open grain contents (log 10). -/
def State.openPlane (s : State) : Plane × State := (s.free_ 65536, s.used)

/-- A, B, C, X and I of the gang, which the instruction list gives no value, are open (log 10). -/
def State.openLatches (s : State) (parts : BitVec 4) : State :=
  let m := gangMask parts
  let f (k : Nat) (old : Plane) : Plane := merge m (Config.freeBits (s.free + k) 65536) old
  let g := s.grains
  let g' : Grains :=
    { g with A := f 0 g.A, B := f 1 g.B, C := f 2 g.C, X := f 3 g.X, I := Vector.ofFn (fun i => f (4 + i.val) g.I[i]) }
  { s.setGrains g' with free := s.free + 17 }

/-- The good words of `n` planes from `lo` hold open data in the gang: SCR after an in-place routine, the system area
after a system routine (R36, R125, log 10). -/
def State.openPlanes (s : State) (parts : BitVec 4) (lo n : Nat) : State :=
  (List.range n).foldl (fun s k =>
    let p := s.grains.plane (lo + k)
    let good := gangWords parts &&& ~~~(p.poison ||| p.bad)
    s.used.setGrains (s.grains.setPlane (lo + k) { p with data := merge (wordPlane good) (s.free_ 65536) p.data })) s

/-! ## The ROM instructions (R113) -/

/-- The keys of an a.assoc, read from the Developer's data through seg1 as it stood at issue (R113). -/
def State.assocKey (s : State) (e : AiqEntry) (requester j : Nat) : DWord × State :=
  let a := e.keySeg.base.toNat + e.rb.toNat / 2 ^ 16 * 8 + 8 * j
  match s.place a with
  | .mem code off =>
    let r := s.readRange requester code off 8
    (BitVec.ofNat 64 (leNat (r.2.memBytes code off 8)), r.2)
  | .grain off =>
    let r := s.backdoorRead off 8 requester
    (BitVec.ofNat 64 (leNat (r.2.backdoorBytes off 8)), r.2)
  | _ => (s.free_ 64, s.used)

/-- Where a field equals a key. -/
def matchPlane (a : List Plane) (key : DWord) : Plane :=
  a.zipIdx.foldl (fun (m : Plane) p => m &&& (if key.getLsbD p.2 then p.1 else ~~~p.1)) (BitVec.allOnes 65536)

/-- Entry `field` of a table in bit-plane order, bit `b` (R38). -/
def State.lookPlane (s : State) (a : List Plane) (base b : Nat) : Plane :=
  let mem := (List.range (2 ^ a.length)).map (fun j =>
    let ad := base + b * 2 ^ a.length + j
    (s.grains.plane ad).stored ad)
  BitVec.ofFnLE (fun g : Fin 65536 =>
    let j := a.zipIdx.foldl (fun n p => if p.1.getLsbD g then n + 2 ^ p.2 else n) 0
    (mem.getD j 0).getLsbD g)

/-- What a ROM instruction does to the grains, and its scalar result. -/
def State.romEffect (s : State) (d : Fin 4) (e : AiqEntry) : Word × State :=
  let parts := s.partsOf d
  let q := coreRouter (devCore d)
  let x := romDec e.index
  let wd := x.wD e.rd
  let bd := fieldBase e.rd
  let ra := s.readField parts (fieldBase e.ra) (if x.ak = 1 then x.wA e.ra else 0) q
  let rb := ra.2.readField parts (fieldBase e.rb) (if x.bk = 1 then x.nB e.rb else 0) q
  let s := rb.2
  let a := ra.1
  let b := rb.1
  let put (masked : Bool) (ps : List Plane) (s : State) : State := s.writeField parts bd masked ps q
  let only (s : State) : Word × State := (0, s)
  let odd := decide (e.index % 2 = 1)
  let oddW := decide (e.index % 2 = 0)
  let inPlace (f : List Plane → List Plane × Plane) (s : State) : State :=
    let old := s.readField parts bd wd q
    let r := f old.1
    ((put odd r.1 old.2).setF parts r.2).openPlanes parts 7936 256
  let logic (f : Plane → Plane → Plane) : List Plane := (a.zip b).map (fun p => f p.1 p.2)
  if e.index < 2 then
    let r := addPlanes a b 0
    only ((put odd r.1 s).setF parts r.2.1)
  else if e.index < 4 then
    let r := subPlanes a b
    only ((put odd r.1 s).setF parts r.2)
  else if e.index < 6 then
    let r := addPlanes a b 0
    only ((put odd r.1 s).setF parts (r.2.1 ^^^ r.2.2))
  else if e.index < 8 then only (inPlace (fun o => let r := addPlanes o b 0; (r.1, r.2.1)) s)
  else if e.index < 10 then only (inPlace (fun o => subPlanes o b) s)
  else if e.index = 10 then only (put false (mulPlanes a b wd) s)
  else if e.index = 11 then
    -- signed: invert both sign planes and compare unsigned
    let flip (l : List Plane) : List Plane := l.dropLast ++ (l.getLast?.map (fun p => ~~~p)).toList
    only (s.setF parts (subPlanes (flip a) (flip b)).2)
  else if e.index = 12 then only (s.setF parts (subPlanes a b).2)
  else if e.index < 15 then only (put oddW a s)
  else if e.index < 17 then only (put oddW (constPlanes (e.rb.setWidth 64) wd) s)
  else if e.index < 19 then only (put oddW (a.map (fun p => ~~~p)) s)
  else if e.index < 22 then only (put odd (logic (· &&& ·)) s)
  else if e.index < 24 then only (put odd (logic (· ||| ·)) s)
  else if e.index < 26 then only (put odd (logic (· ^^^ ·)) s)
  else if e.index < 28 then only (put odd (logic (fun p r => p &&& ~~~r)) s)
  else if 64 ≤ e.index ∧ e.index < 72 then
    let dir := e.index % 4
    let s := if joinMis s.gangMode e.edge parts dir then s.fset F.GRN_STATUS_JOIN_MIS 1 else s
    only (put (decide (68 ≤ e.index)) (a.map (newsPlane s.gangMode e.edge dir)) s)
  else if e.index = 72 ∨ e.index = 73 then
    only (put odd ((List.range wd).map (s.lookPlane a (fieldBase e.rb))) s)
  else if e.index = 74 then
    only ((List.range (x.nB e.rb)).foldl (fun s j =>
      let k := s.assocKey e q j
      let s := k.2.setM parts (matchPlane a k.1)
      put true [BitVec.allOnes 65536] s) s)
  else if e.index = 75 then
    let m := s.grains.M &&& gangMask parts
    let n := a.foldl (fun n p => n + popPlane (p &&& m)) 0
    let o := s.openPlane
    (BitVec.ofNat 32 n, o.2.setF parts o.1)
  else if e.index = 76 then
    let s := s.setF parts (a.headD 0)
    (if s.globalOr d then 1 else 0, s)
  else if e.index = 77 then
    let g := s.grains
    let s := s.writeField parts bd false [g.GC0, g.GC1] q
    only (s.setGrains { s.grains with
      unstored0 := g.unstored0 &&& ~~~parts, unstored1 := g.unstored1 &&& ~~~parts })
  else if e.index = 78 then
    let g := s.grains
    let m := gangMask parts
    only (s.setGrains { g with
      GP0 := merge m (a.headD 0) g.GP0, GP1 := merge m (a.getD 1 0) g.GP1,
      loaded0 := g.loaded0 ||| parts, loaded1 := g.loaded1 ||| parts })
  else if e.index = 79 then only (s.setF parts (a.headD 0))
  else if e.index < 82 then only (put odd [s.grains.F] s)
  else if e.index = 82 then only (s.setM parts (a.headD 0))
  else if e.index = 83 then only (s.setM parts (s.grains.M &&& a.headD 0))
  else if e.index = 84 then only (s.setM parts (BitVec.allOnes 65536))
  else if e.index = 85 then only (put false [s.grains.M] s)
  else only s

/-- A ROM instruction runs: its effect, and open latches unless it has no grain effect. -/
def State.runRom (s : State) (d : Fin 4) (e : AiqEntry) : State :=
  let r := s.romEffect d e
  let s := if e.index = 86 ∨ e.index = 87 then r.2 else r.2.openLatches (r.2.partsOf d)
  s.modDev d (fun x => { x with ex := { x.ex with st := .done, committed := true, result := r.1 } })

/-- A system routine runs: the spec gives no effect but its purpose, so the gang's A, B, C, F, M, X and I and the words of
the system and Fog areas are open (R36, R113, log 10). -/
def State.runSystem (s : State) (d : Fin 4) : State :=
  let parts := s.partsOf d
  let o := s.openPlane
  let s := o.2.setM parts o.1
  let p := s.openPlane
  let s := p.2.setGrains { p.2.grains with F := merge (gangMask parts) p.1 p.2.grains.F }
  let s := (s.openLatches parts).openPlanes parts 7680 256
  s.modDev d (fun x => { x with ex := { x.ex with st := .done, committed := true, result := 0 } })

/-! ## The stores (R130, R131) -/

/-- A microword, or none where an unwritten extension word fails its parity. Other addresses hold ROM contents. -/
def Dev.microAt (x : Dev) (a : Nat) : Option (BitVec 32) :=
  if 0x4000 ≤ a ∧ a < 0x4800 then smGet (fun _ => none) x.extMicro a else some (Config.romMicro a)

/-- A nano-word. -/
def Dev.nanoAt (x : Dev) (a : Nat) : Option (BitVec 128) :=
  if 0x1000 ≤ a ∧ a < 0x1200 then smGet (fun _ => none) x.extNano a else some (Config.romNano a)

/-- The overlay CAM entries, in order. -/
def Dev.camEntries (x : Dev) : List (Option DWord) := (List.range 64).map (fun i => smGet (fun _ => none) x.cam i)

/-- The first CAM entry whose parity fails (unwritten since wake). -/
def Dev.camBad (x : Dev) : Option Nat := (x.camEntries.zipIdx.find? (fun e => e.1.isNone)).map (fun e => e.2)

/-- A CAM entry names an address of a space, as a shadow or not. -/
def camNames (v : DWord) (shadow : Bool) (space a : Nat) : Bool :=
  v.getLsbD 63 && (v.getLsbD 62 == shadow) && decide (getBits v 61 1 = space) && decide (getBits v 16 15 = a)

/-- The address whose word is used in the place of one: the lowest-numbered active entry's REPL. -/
def Dev.overlay (x : Dev) (space a : Nat) : Nat :=
  match x.camEntries.find? (fun e => match e with
      | some v => camNames v false space a
      | none => false) with
  | some (some v) => getBits v 0 15
  | _ => a

/-- An active CAM entry replaces a word that a ROM routine executes. -/
def Dev.patched (x : Dev) (idx : Nat) : Bool :=
  (Config.romUses idx).any (fun u => decide (x.overlay u.1 u.2 ≠ u.2))

/-! ## Stops of a running routine -/

/-- The running routine is abandoned with a machine check pending. -/
def State.exMachineCheck (s : State) (d : Fin 4) : State :=
  (s.modDev d (fun x => { x with ex := { x.ex with st := .abandoned, stopped := true } })).mcPending d

/-- A repeated parity error: a shadow entry is activated and the routine retries, from ENTRY or, once committed, from the word, or
the Developer halts (R136). -/
def State.parityRepeat (s : State) (d : Fin 4) (space addr : Nat) : State :=
  match (s.devs[d]).camEntries.zipIdx.find? (fun e => match e.1 with
      | some v => camNames v true space addr
      | none => false) with
  | some (some v, i) =>
    let s := s.modDev d (fun x =>
      { x with cam := smPut x.cam i (some (v &&& 0xBFFFFFFFFFFFFFFF)), ex := { x.ex with st := if x.ex.committed then .running else .idle } })
    s.fset F.DEV_UC_PAR_SHADOW 1 d
  | _ => s.machineHalt (devCore d)

/-- A word the expander fetches fails its parity (R135), at `addr` where the routine names `orig`: short of the commit point the
routine is abandoned with a machine check pending; in the tail the word is fetched again, and the machine check follows DONE. A
second error at one place is a repeat, and so, with no shadow left, is one in an activated copy (R136). -/
def State.parityStop (s : State) (d : Fin 4) (space orig addr : Nat) : State :=
  let s := s.parityEvent d space addr
  let x := (s.devs[d]).ex
  let copy := decide (orig ≠ addr) && x.parity.contains (space, orig)
  let seen := x.parity.contains (space, addr)
  let s := s.modDev d (fun x => { x with ex := { x.ex with parity := (space, addr) :: x.ex.parity } })
  if copy then s.machineHalt (devCore d)
  else if seen then s.parityRepeat d space addr
  else if x.committed then s.modDev d (fun x => { x with ex := { x.ex with tailCheck := true } })
  else s.exMachineCheck d

/-! ## One microword (R117-R121) -/

/-- Tree results that have arrived by a cycle go to the result register, in the order of arrival (R119). -/
def Expander.settle (x : Expander) (now : Option Nat) : Expander :=
  let due := x.arriving.filter (fun e => match now with
    | some n => decide (e.1 ≤ n)
    | none => true)
  let sorted := due.mergeSort (fun a b => decide (a.1 ≤ b.1))
  { x with
    arriving := x.arriving.filter (fun e => match now with
      | some n => decide (n < e.1)
      | none => false),
    result := sorted.foldl (fun (r : Word) e => if e.2.1 then r + BitVec.ofNat 32 e.2.2 else BitVec.ofNat 32 e.2.2) x.result }

/-- A WAITG mode's wait is over (R44, R117). -/
def State.waitOver (s : State) (d : Fin 4) (mode : Nat) : Bool :=
  let g := s.grains
  let p := s.partsOf d
  match mode with
  | 0 => (s.devs[d]).ex.winSeen
  | 1 => decide ((g.unstored0 ||| g.unstored1) &&& p ≠ 0)
  | 2 => decide ((g.loaded0 ||| g.loaded1) &&& p = 0)
  | _ => true

/-- A loop count by its SRC and IMM; a source the spec reserves gives an open one (R117). -/
def Expander.loopCount (x : Expander) (src imm open_ : Nat) : Nat :=
  match src with
  | 0 => x.wd
  | 1 => x.wa
  | 2 => x.nb
  | 3 => x.wd - 1
  | 4 => x.wa - 1
  | 5 => x.nb - 1
  | 6 => if imm = 0 then 16 else imm
  | _ => open_ % 512

/-- One address register after a cycle that updates it by ARU. -/
def aruStep (v : BitVec 13) (op stride : Nat) : BitVec 13 :=
  match op with
  | 0 => v
  | 1 => v + 1
  | 2 => v - 1
  | _ => v + BitVec.ofNat 13 stride

/-- The expander's state after the sequencing of a microword whose nano-word has issued: next address, loops, address and
broadcast registers. `gor` is the global OR, `key` the next a.assoc key, `open_` stands for what the spec leaves open. -/
def Expander.sequence (x : Expander) (mw : BitVec 32) (bshr gor : Bool) (key : DWord) (open_ : BitVec 64) : Expander :=
  let m := mw.toNat
  let seq := m / 2 ^ 15 % 16
  let target := m % 2 ^ 15
  let jump := decide (seq = 1 ∨ seq = 2 ∨ seq = 8 ∨ seq = 9)
  let next := (x.upc + 1) % 2 ^ 15
  let spec := m / 2 ^ 8 % 128
  let ar : Vector (BitVec 13) 4 :=
    if jump then x.ar
    else if seq = 11 then
      Vector.ofFn (fun i => if (spec / 8).testBit i.val then
          (match spec % 8 with
          | 0 => x.ar0[i]
          | 1 => 7936
          | 2 => x.ar[(3 : Fin 4)]
          | _ => (open_ >>> (13 * i.val)).setWidth 13)
        else x.ar[i])
    else Vector.ofFn (fun i => aruStep x.ar[i] (m / 2 ^ (2 * i.val) % 4) x.stride)
  let count := Nat.max 1 (x.loopCount (spec / 16) (spec % 16) open_.toNat)
  let less (n : Nat) : Nat := if n = 0 then open_.toNat % 65536 else n - 1
  let x : Expander := { x with ar := ar, bcast := if bshr then x.bcast >>> 1 else x.bcast }
  match seq with
  | 1 => { x with upc := target }
  | 2 => { x with upc := target, ret := some next }
  | 3 => { x with upc := x.ret.getD next, ret := none }
  | 4 => { x with upc := next, lc0 := count, ls0 := next }
  | 5 => { x with upc := if less x.lc0 = 0 then next else x.ls0, lc0 := less x.lc0 }
  | 6 => { x with upc := next, lc1 := count, ls1 := next }
  | 7 => { x with upc := if less x.lc1 = 0 then next else x.ls1, lc1 := less x.lc1 }
  | 8 => { x with upc := if gor then target else next }
  | 9 => { x with upc := if gor then next else target }
  | 12 => { x with upc := next, bcast := key, key := x.key + 1 }
  | _ => { x with upc := next }

/-- A microword that may not execute: reserved SEQ, a CALL while a return address is held, a RET with none (R117). -/
def Expander.seqBad (x : Expander) (mw : BitVec 32) : Bool :=
  let seq := mw.toNat / 2 ^ 15 % 16
  decide (14 ≤ seq) || (decide (seq = 2) && x.ret.isSome) || (decide (seq = 3) && x.ret.isNone)

/-- The GCLK, counted from dispatch, in which the next microword issues: BRGOR and BRNGOR wait until 6 have passed since the last
nano-word that named F (R46). -/
def Expander.branchAt (x : Expander) (seq : Nat) : Nat :=
  let now := x.issued + x.held
  match x.lastF, decide (seq = 8 ∨ seq = 9) with
  | some t, true => Nat.max now (t + 6)
  | _, _ => now

/-- Indexed reads that are due by a GCLK, or all of them, reach the latches that asked for them (R38; log 110). -/
def State.delivered (s : State) (d : Fin 4) (now : Option Nat) : State :=
  let late (e : Nat × Bool × Bool × Plane) : Bool := match now with
    | some n => decide (n < e.1)
    | none => false
  let x := (s.devs[d]).ex
  let gm := gangMask (s.partsOf d)
  (x.reads.foldl (fun (s : State) e =>
    if late e then s
    else
      let g := s.grains
      s.setGrains { g with A := if e.2.1 then merge gm e.2.2.2 g.A else g.A, B := if e.2.2.1 then merge gm e.2.2.2 g.B else g.B }) s).modDev d
    (fun v => { v with ex := { v.ex with reads := x.reads.filter late } })

/-- One cycle of the running routine of Developer `d`, whose head entry is `e`. -/
def State.microStep (s : State) (d : Fin 4) (e : AiqEntry) : State :=
  let dev := s.devs[d]
  let x := dev.ex
  if x.st ≠ .running ∨ (¬ x.committed ∧ 2048 ≤ x.issued) then s
  else
    match dev.camBad with
    | some i => s.parityStop d 3 i i
    | none =>
      let ma := dev.overlay 0 x.upc
      match dev.microAt ma with
      | none => s.parityStop d 0 x.upc ma
      | some mw =>
        let na := dev.overlay 1 (mw.toNat / 2 ^ 19)
        match dev.nanoAt na with
        | none => s.parityStop d 1 (mw.toNat / 2 ^ 19) na
        | some nw =>
          if x.seqBad mw ∨ nanoBroken nw then s.exMachineCheck d
          else
            let seq := mw.toNat / 2 ^ 15 % 16
            let mode : Fin 4 := Fin.ofNat 4 (mw.toNat / 2 ^ 13 % 4)
            if seq = 10 ∧ ¬ s.waitOver d mode.val then
              s.modDev d (fun v => { v with ex := { (v.ex.settle none) with st := .waitg mode } })
            else
              let parts := s.partsOf d
              let n := nanoOf nw
              let ar := x.ar[(Fin.ofNat 4 n.adr)]
              let gorBefore := s.globalOr d
              let now := x.branchAt seq
              let s := s.delivered d (some now)
              let fetched := s.grains.indexed ar.toNat
              let r := s.nanoCycle parts n ar.toNat (x.bcast.getLsbD n.bsel) e.edge dev.win.isSome (coreRouter (devCore d))
              let s := r.2.grainMC r.1
              let key := if seq = 12 then s.assocKey e (coreRouter (devCore d)) x.key else (0, s)
              let s := key.2
              let kv := if x.wa < 64 then key.1 &&& BitVec.ofNat 64 (2 ^ x.wa - 1) else key.1
              let sum := popPlane (s.grains.tree parts)
              let gor := s.globalOr d
              let cost := if n.dMem && !n.wall then 2 else 1
              let x := (s.devs[d]).ex.settle (some now)
              let x := x.sequence mw n.bshr gorBefore kv (s.free_ 64)
              let x : Expander :=
                { x with
                  issued := x.issued + cost, held := now - x.issued,
                  lastF := if n.dF then some (now + cost) else x.lastF,
                  reads := if n.ari ∧ (n.asrc = 1 ∨ n.bsrc = 1) then
                      x.reads ++ [(now + 2, decide (n.asrc = 1), decide (n.bsrc = 1), fetched)] else x.reads,
                  committed := x.committed || n.cmt, winSeen := false,
                  arriving := x.arriving ++ (if n.sum then [(now + 20, true, sum)] else []) ++
                    (if n.gcap then [(now + 7, false, if gor then 1 else 0)] else []) }
              let x := if seq = 13 then { x.settle none with st := .done, committed := true } else x
              let s := s.used.modDev d (fun v => { v with ex := x })
              if seq = 13 then s.delivered d none else s

/-- Runs the routine on by an open number of microwords, so that an interrupt, a halt or a slip may find it at any (R123); what is
left of it goes on at a later dispatch (log 10). -/
def State.microRun (s : State) (d : Fin 4) (e : AiqEntry) : State :=
  (List.range (1 + (s.free_ 12).toNat)).foldl (fun s _ => s.microStep d e) s.used

/-! ## Dispatch (R116) -/

/-- The expander's state loaded for an entry. -/
def loadEx (x : Expander) (dec : DecEnt) (e : AiqEntry) : Expander :=
  let b (k : Nat) (v : Word) : BitVec 13 := if k = 1 ∨ k = 3 then BitVec.ofNat 13 (fieldBase v) else 0
  let ar : Vector (BitVec 13) 4 := #v[b dec.dk e.rd, b dec.ak e.ra, b dec.bk e.rb, 0]
  { st := .running, upc := dec.entry, ar := ar, ar0 := ar, wd := dec.wD e.rd, wa := dec.wA e.ra, nb := dec.nB e.rb,
    stride := 2 ^ dec.wA e.ra,
    bcast := if dec.ak = 2 then e.ra.setWidth 64 else if dec.bk = 2 then e.rb.setWidth 64 else 0, parity := x.parity,
    stopped := x.stopped }

/-- A stalled routine whose wait is over goes on. -/
def State.resumeWait (s : State) (d : Fin 4) : State :=
  match (s.devs[d]).ex.st, (s.devs[d]).aiq with
  | .waitg m, e :: _ =>
    if s.waitOver d m.val ∧ (¬ (s.devs[d]).ex.stopped ∨ (s.devs[d]).ex.committed) then
      if e.index < 128 ∧ ¬ (s.devs[d]).patched e.index then s.runRom d e
      else (s.modDev d (fun x => { x with ex := { x.ex with st := .running } })).microRun d e
    else s
  | _, _ => s

/-- A Developer may start a Fog check slice: checks are enabled, it drives a gang, its expander is idle, and no gang write or slip
waits (R48, R54, R57). -/
def State.fogReady (s : State) (d : Fin 4) : Bool :=
  let x := s.devs[d]
  s.active && s.on F.GRN_FOG_CTRL_ENABLE && s.drives d && decide (x.ex.st = .idle) && !x.ex.stopped && !x.fogRunning &&
    s.grains.gangDeferred.isNone && s.grains.slip.isNone

/-- MIN_GAP lines have passed without a slice: one goes ahead of the next array instruction (R54). -/
def State.fogDue (s : State) (d : Fin 4) : Bool :=
  let gap := s.fv F.GRN_FOG_CTRL_MIN_GAP
  s.fogReady d && decide ((s.devs[d]).aiq ≠ [] ∧ gap ≠ 0 ∧ gap ≤ (s.devs[d]).fogLines)

/-- The head entry dispatches and its routine runs. a.gld and a.gst wait at their first word (R127). A slice that is due goes first
(R54); a stopped expander runs a committed routine on to DONE (R123). -/
def State.dispatch (s : State) (d : Fin 4) : State :=
  let dev := s.devs[d]
  match dev.aiq with
  | [] => s
  | e :: _ =>
    if (dev.ex.stopped ∧ ¬ dev.ex.committed) ∨ dev.fogRunning ∨ s.fogDue d then s
    else
      match dev.ex.st with
      | .idle =>
        match dev.camBad with
        | some i => s.parityStop d 3 i i
        | none =>
          match dev.decode e.index with
          | none => s.parityStop d 2 e.index e.index
          | some dec =>
            let s := s.modDev d (fun x => { x with ex := loadEx x.ex dec e })
            if e.index < 192 ∧ ¬ dev.patched e.index then
              if 128 ≤ e.index then s.runSystem d
              else if e.index = 77 ∨ e.index = 78 then
                let m : Fin 4 := if e.index = 77 then 1 else 2
                (s.modDev d (fun x => { x with ex := { x.ex with st := .waitg m } })).resumeWait d
              else s.runRom d e
            else s.microRun d e
      | .running => s.microRun d e
      | .waitg _ => s.resumeWait d
      | _ => s

/-- AIQ_DISPATCH (R116). -/
def execAiqDispatch (d : Fin 4) (s : State) : Ans := s.effect (fun s => s.dispatch d)

/-- The head entry's routine has ended: its scalar result is written and it retires (R111, R112, R119); an a.sync's core goes
on, and a stepped core's expander stops once the AIQ is empty (R347). -/
def State.retire (s : State) (d : Fin 4) : State :=
  let dev := s.devs[d]
  match dev.aiq with
  | [] => s
  | e :: rest =>
    if dev.ex.st ≠ .done then s
    else
      let k := s.cores[devCore d]
      let s := s.modDev d (fun x =>
        { x with aiq := rest, ex := { stopped := x.ex.stopped || (k.halted && rest.isEmpty) } })
      let s := if dev.ex.tailCheck then s.mcPending d else s
      s.modCore (devCore d) (fun k =>
        let k := if e.scalar then k.setX e.rdNum dev.ex.result else k
        if e.index = 87 ∧ k.run = .sync then { k with run := .running } else k)

/-- AIQ_ENTRY_RETIRE (R111). -/
def execAiqEntryRetire (d : Fin 4) (s : State) : Ans := s.effect (fun s => s.retire d)

/-- ROUTINE_OVERRUN (R126): the routine that has not committed by its 2,049th cycle stops with a machine check. -/
def execRoutineOverrun (d : Fin 4) (s : State) : Ans :=
  s.effect (fun s =>
    let x := (s.devs[d]).ex
    if x.st = .running ∧ ¬ x.committed ∧ 2048 ≤ x.issued then (s.exMachineCheck d).fset F.DEV_UC_PAR_OVERRUN 1 d else s)

end Sys2Proof.Machine
end

