-- ==== Sys2Proof/Machine/Strip.lean ====
section
/-!
DEFINITION. Strips: header, checks, raw and Rice decoding, and resampling (R141-R145, R147). An error is the ERR value of
R147.
-/

namespace Sys2Proof.Machine

/-- A strip header's fields (R142). -/
structure StripHdr where
  rice : Bool
  pred : Nat
  width : Nat
  lines : Nat
  first : Nat
  payload : Nat
  crc : Nat
  channel : Nat
  segment : Nat
deriving DecidableEq, Repr

/-- Reads the little-endian field of `n` bytes at an offset. -/
def fieldAt (b : List Byte) (off n : Nat) : Nat := leNat ((b.drop off).take n)

/-- The header's fields. -/
def stripHdr (b : List Byte) : StripHdr :=
  { rice := decide (fieldAt b 3 1 % 4 = 1), pred := fieldAt b 3 1 / 4 % 4, width := fieldAt b 4 2, lines := fieldAt b 6 2,
    first := fieldAt b 8 4, payload := fieldAt b 12 4, crc := fieldAt b 16 4, channel := fieldAt b 20 1, segment := fieldAt b 21 1 }

/-- The header is valid in itself (R142). -/
def stripHdrOk (b : List Byte) : Bool :=
  let h := stripHdr b
  decide (fieldAt b 0 2 = 0x4146 ∧ fieldAt b 2 1 = 1 ∧ fieldAt b 3 1 % 4 < 2 ∧ fieldAt b 3 1 / 16 = 0 ∧ fieldAt b 22 10 = 0 ∧
    1 ≤ h.width ∧ h.width ≤ 2048 ∧ 1 ≤ h.lines ∧ h.lines ≤ 256)

/-! ## Raw lines (R143) -/

/-- Bytes of a raw line with its padding. -/
def rawBytes (width : Nat) : Nat := (2 * width + 31) / 32 * 32

/-- Line `y` of a raw payload. -/
def rawLine (width : Nat) (payload : List Byte) (y : Nat) : Except Nat (List Nat) :=
  let b := (payload.drop (y * rawBytes width)).take (rawBytes width)
  if b.length < rawBytes width ∨ ¬ (b.drop (2 * width)).all (fun x => decide (x = 0)) then .error 5
  else .ok ((List.range width).map (fun x => fieldAt b (2 * x) 2))

/-! ## Rice lines (R144) -/

/-- The bits of a payload, bit 7 of each byte first. -/
def bitsOf (b : List Byte) : List Bool := b.flatMap (fun x => (List.range 8).map (fun i => x.getLsbD (7 - i)))

/-- The number that bits spell, most significant first. -/
def bitsNat (b : List Bool) : Nat := b.foldl (fun n x => 2 * n + if x then 1 else 0) 0

/-- Takes `n` bits, or runs past the payload (ERR 5). -/
def takeBits (n : Nat) (b : List Bool) : Except Nat (Nat × List Bool) :=
  if b.length < n then .error 5 else .ok (bitsNat (b.take n), b.drop n)

/-- One code with parameter `k`: u and the rest. -/
def riceCode (k : Nat) (b : List Bool) : Except Nat (Nat × List Bool) :=
  let q := ((b.take 24).takeWhile id).length
  if q = 24 then takeBits 16 (b.drop 24)
  else
    match takeBits k (b.drop (q + 1)) with
    | .error e => .error e
    | .ok r =>
      if b.length ≤ q then .error 5
      else if 65535 < q * 2 ^ k + r.1 then .error 8
      else .ok (q * 2 ^ k + r.1, r.2)

/-- The predictor (R144). -/
def predict (pred a b : Nat) : Nat :=
  match pred with
  | 0 => 0
  | 1 => a
  | 2 => b
  | _ => (a + b) / 2

/-- Inverts the coder's residual. -/
def unfoldResidual (p u : Nat) : Nat :=
  let e : Int := if u % 2 = 0 then (u / 2 : Nat) else -(((u + 1) / 2 : Nat) : Int)
  ((p + e) % 65536).toNat

/-- Where the decoder of a line stands: the bits left, the block's parameter, and the values so far, latest first. -/
structure RiceSt where
  bits : List Bool
  k : Nat
  vals : List Nat
deriving DecidableEq, Repr

/-- Decodes the value at position `x`, given the line above. -/
def riceValue (pred : Nat) (above : Option (List Nat)) (s : RiceSt) (x : Nat) : Except Nat RiceSt :=
  let head : Except Nat (Nat × List Bool) := if x % 32 = 0 then takeBits 4 s.bits else .ok (s.k, s.bits)
  match head with
  | .error e => .error e
  | .ok h =>
    match riceCode h.1 h.2 with
    | .error e => .error e
    | .ok c =>
      let up : Option Nat := above.map (fun l => l.getD x 0)
      let a : Nat := match s.vals with
        | v :: _ => v
        | [] => up.getD 0
      let b : Nat := up.getD a
      .ok { bits := c.2, k := h.1, vals := unfoldResidual (predict pred a b) c.1 :: s.vals }

/-- Decodes one line: its values and the bits after its padding. -/
def riceLine (pred width : Nat) (above : Option (List Nat)) (bits : List Bool) : Except Nat (List Nat × List Bool) :=
  match (List.range width).foldlM (riceValue pred above) { bits := bits, k := 0, vals := [] } with
  | .error e => .error e
  | .ok s =>
    let pad := (32 - (bits.length - s.bits.length) % 32) % 32
    if s.bits.length < pad ∨ (s.bits.take pad).any id then .error 5 else .ok (s.vals.reverse, s.bits.drop pad)

/-- The decoder before line `y` of a Rice-coded payload: the line above and the bits left. -/
def riceBefore (pred width : Nat) (payload : List Byte) (y : Nat) : Except Nat (Option (List Nat) × List Bool) :=
  (List.range y).foldlM (fun (s : Option (List Nat) × List Bool) _ => do
    let r ← riceLine pred width s.1 s.2
    pure (some r.1, r.2)) (none, bitsOf payload)

/-- The most bytes a coded line takes: 40 bits a value, 4 bits a block and the padding. -/
def riceMost (width : Nat) : Nat := 5 * width + width / 32 + 8

/-! ## Resampling (R145) -/

/-- Widens a line by the factor `f` to `n` values. -/
def resample (f n : Nat) (linear : Bool) (s : List Nat) : List Nat :=
  (List.range n).map (fun x =>
    let i := x / f
    let fr := x % f
    let v := s.getD i 0
    if linear then (v * (f - fr) + s.getD (i + 1) (s.getLast?.getD 0) * fr + f / 2) / f else v)

/-! ## A band's strips (R141, R147) -/

/-- The end of the print region. -/
def printEnd : Nat := 0x180_0000

/-- Router of an Enlarger's reads of the Staging RAM. -/
def enlRouter (p : Fin 4) : Nat := [2, 3, 32, 33].getD p.val 2

/-- A row's entry of the band table: the strip's offset, or none for a row fed zeros; ERR 6 where it cannot be read. -/
def State.bandRow (s : State) (p : Fin 4) (b : Band) (row : Nat) : Except Nat (Option Nat) × State :=
  let a := b.table + 8 * row
  let r := s.readRange (enlRouter p) 1 a 8
  if r.1 then (.error 6, r.2)
  else
    let v := leNat (r.2.memBytes 1 a 8)
    (.ok (if v.testBit 63 then some (v % 2 ^ 25) else none), r.2)

/-- Reads a strip's header. -/
def State.stripHead (s : State) (p : Fin 4) (off : Nat) : Except Nat (List Byte) × State :=
  if printEnd ≤ off then (.error 7, s)
  else
    let r := s.readRange (enlRouter p) 1 off 32
    if r.1 then (.error 6, r.2) else (.ok (r.2.memBytes 1 off 32), r.2)

/-- The check of one strip before its band is fed: header, band values, extent and CRC. `npg` sets the width. -/
def State.checkStrip (s : State) (p : Fin 4) (b : Band) (npg off : Nat) : Option Nat × State :=
  let h := s.stripHead p off
  match h.1 with
  | .error e => (some e, h.2)
  | .ok bytes =>
    let hd := stripHdr bytes
    if ¬ stripHdrOk bytes then (some 1, h.2)
    else if hd.width ≠ (256 * npg + b.factor - 1) / b.factor then (some 2, h.2)
    else if hd.first ≠ b.first ∨ hd.lines ≠ b.lines then (some 3, h.2)
    else if printEnd < off + 32 + hd.payload then (some 7, h.2)
    else
      let r := h.2.readRange (enlRouter p) 1 (off + 32) hd.payload
      if r.1 then (some 6, r.2)
      else if crc32c (r.2.memBytes 1 (off + 32) hd.payload) ≠ hd.crc then (some 4, r.2)
      else (none, r.2)

/-- The check of every strip of a band: the first fault found, with its row (R147). -/
def State.checkBand (s : State) (p : Fin 4) (b : Band) (npg : Nat) : Option (Nat × Nat) × State :=
  (List.range 64).foldl (fun r row =>
    match r.1 with
    | some _ => r
    | none =>
      let e := r.2.bandRow p b row
      match e.1 with
      | .error x => (some (x, row), e.2)
      | .ok none => (none, e.2)
      | .ok (some off) =>
        let c := e.2.checkStrip p b npg off
        (c.1.map (fun x => (x, row)), c.2)) (none, s)

/-- The bytes from `off` on, at most `n`, that lie before the first uncorrectable codeword. -/
def State.soundLen (s : State) (p : Fin 4) (off n : Nat) : Nat :=
  ((List.range n).takeWhile (fun i => !(s.readRange (enlRouter p) 1 (off + i) 1).1)).length

/-- Line `y` of a raw payload at `off`: the bytes of that line alone are read (R143, R147). -/
def State.rawStripLine (s : State) (p : Fin 4) (hd : StripHdr) (off y : Nat) : Except Nat (List Nat) × State :=
  let at_ := y * rawBytes hd.width
  let n := min (rawBytes hd.width) (hd.payload - at_)
  let q := s.readRange (enlRouter p) 1 (off + at_) n
  if q.1 then (.error 6, q.2) else (rawLine hd.width (q.2.memBytes 1 (off + at_) n) 0, q.2)

/-- Line `y` of a Rice-coded payload at `off`: the bytes the line's codes and padding take are read, up to the first uncorrectable
word; a decoder that needs bytes from there on meets ERR 6 (R144, R147). -/
def State.riceStripLine (s : State) (p : Fin 4) (hd : StripHdr) (off y : Nat) : Except Nat (List Nat) × State :=
  match riceBefore hd.pred hd.width (s.memBytes 1 off hd.payload) y with
  | .error e => (.error e, s)
  | .ok d =>
    let at_ := hd.payload - d.2.length / 8
    let most := min (riceMost hd.width) (hd.payload - at_)
    let sound := s.soundLen p (off + at_) most
    match riceLine hd.pred hd.width d.1 (d.2.take (8 * sound)) with
    | .ok r => (.ok r.1, (s.readRange (enlRouter p) 1 (off + at_) (sound - r.2.length / 8)).2)
    | .error e =>
      if e = 5 ∧ sound < most then (.error 6, (s.readRange (enlRouter p) 1 (off + at_) (sound + 1)).2)
      else (.error e, (s.readRange (enlRouter p) 1 (off + at_) sound).2)

/-- Decodes line `n` of every row of a band to `count` values, or finds a fault. -/
def State.bandLine (s : State) (p : Fin 4) (b : Band) (n count : Nat) : Except (Nat × Nat) (List (List Nat)) × State :=
  (List.range 64).foldl (fun (r : Except (Nat × Nat) (List (List Nat)) × State) row =>
    match r.1 with
    | .error _ => r
    | .ok acc =>
      let e := r.2.bandRow p b row
      match e.1 with
      | .error x => (.error (x, row), e.2)
      | .ok none => (.ok (acc ++ [List.replicate count 0]), e.2)
      | .ok (some off) =>
        let h := e.2.stripHead p off
        match h.1 with
        | .error x => (.error (x, row), h.2)
        | .ok bytes =>
          let hd := stripHdr bytes
          let q := if hd.rice then h.2.riceStripLine p hd (off + 32) (n - b.first) else h.2.rawStripLine p hd (off + 32) (n - b.first)
          match q.1 with
          | .error x => (.error (x, row), q.2)
          | .ok vals => (.ok (acc ++ [resample b.factor count b.linear vals]), q.2)) (.ok [], s)

end Sys2Proof.Machine
end

