-- ==== Sys2Proof/Machine/Window.lean ====
section
/-!
DEFINITION. Processing slots, G windows, the feeding of bands, and the switch points of programs and tables (R22, R26, R42,
R43, R141-R149, R165, R202, R206, R268, R388).
-/

namespace Sys2Proof.Machine

/-! ## Enlargers -/

/-- The inspecting arrangement is the dedicated one: P3 is D3's own (R25, R48). -/
def State.dedicated (s : State) : Bool :=
  match s.job with
  | some j => j.inspect && !j.interleaved
  | none => false

/-- Planes a registered camera line carries: those of the enabled camera with most. -/
def State.camPlanes (s : State) : Nat :=
  ((List.range 4).map (fun c => if s.on F.CAM_CAM_CFG_ENABLE c then s.fv F.CAM_CAM_CFG_PLANES c + 1 else 1)).foldl Nat.max 1

/-- Inspecting rows: the 64 rows of P3, or the 256 of the gang (R202). -/
def State.inspRows (s : State) : Nat := if s.dedicated then 64 else 256

/-- The layout period Q of C channels (R18). -/
def layoutPeriod (c : Nat) : Nat := if c ≤ 1 then 1 else if c ≤ 2 then 2 else if c ≤ 4 then 4 else 8

/-- W_R: the pixel columns per channel of the job (R19, R201). -/
def State.regWidth (s : State) : Nat :=
  match s.job with
  | some j =>
    64 * (List.finRange 4).countP (fun p => (s.partsOf 0).getLsbD p.val) / layoutPeriod j.channels * 256 * npgOf j.npgCode
  | none => 0

/-- All planes of a registered line fit in the inspecting rows at NPG_I = 4; otherwise they rotate (R202). -/
def State.planesFit (s : State) : Bool := decide (s.regWidth * s.camPlanes ≤ s.inspRows * 256 * 4)

/-- NPG_I (R202). -/
def State.npgI (s : State) : Nat :=
  let n := s.regWidth * (if s.planesFit then s.camPlanes else 1)
  if n ≤ s.inspRows * 256 then 1 else if n ≤ s.inspRows * 256 * 2 then 2 else 4

/-- The Enlarger feeds camera bands from its own queue: P3 in the dedicated arrangement (R202). -/
def State.inspecting (s : State) (p : Fin 4) : Bool := s.dedicated && decide (p = 3)

/-- NPG of the bands of an Enlarger. -/
def State.bandNpg (s : State) (p : Fin 4) : Nat :=
  if s.inspecting p then s.npgI
  else
    match s.job with
    | some j => npgOf j.npgCode
    | none => 1

/-- The partition belongs to the job's print gang, which D0 drives. -/
def State.printPart (s : State) (p : Fin 4) : Bool := s.job.isSome && (s.partsOf 0).getLsbD p.val

/-- The partitions ganged with partition p. -/
def State.gangOf (s : State) (p : Fin 4) : BitVec 4 := s.partsOf (gangDriver s.gangMode p)

/-- QDEPTH follows the queue. -/
def State.setQueue (s : State) (p : Fin 4) (q : List Band) : State :=
  (s.modEnl p (fun e => { e with queue := q })).fset F.ENL_STATUS_QDEPTH q.length p

/-- A band push word, with the table that ENL_Pn_BAND_ADDR names (R141). -/
def State.bandOf (s : State) (p : Fin 4) (v : DWord) : Band :=
  { table := s.fv F.ENL_BAND_ADDR_ADDR p, first := getBits v 32 32, lines := getBits v 8 8 + 1, factor := getBits v 2 2 + 1,
    linear := v.getLsbD 1 }

/-- Held pushes enter the queue while it has room (R294). -/
def State.admitHeld (s : State) (p : Fin 4) : State :=
  s.heldPush.foldl (fun s h =>
    if h.p = p ∧ (s.enl[p]).queue.length < 16 then
      ({ s with heldPush := s.heldPush.erase h } : State).setQueue p ((s.enl[p]).queue ++ [h.band])
    else s) s

/-- Every Enlarger of the gang of `p` discards its queued bands and the lines not fed; the next band must start at the first
line not fed, and so must the next host load of the job's function (R388, R391). -/
def State.discardLines (s : State) (p : Fin 4) : State :=
  let parts := s.gangOf p
  let s := s.forFin 4 (fun q s =>
    if parts.getLsbD q.val then
      ((s.setQueue q []).modEnl q (fun e => { e with cur := none, started := false, expect := some e.fed })).admitHeld q
    else s)
  match s.job with
  | some j =>
    if s.printPart p ∧ j.reel = 0 then (s.setNextLoad j.fn (s.enl[p]).fed).dropStaged j.fn (s.enl[p]).fed else s
  | none => s

/-- An Enlarger halts with a fault in row `row` at line `n` (R147): its status, the Contact Sheet, and for the print gang a
Hold request at boundary max(n - 2, 0) with cause 2; the staged lines of a host-fed job from n on are discarded (R391), and of a job
printed from a Reel firmware fetches the strip again, up to three attempts for one band. One whose boundary is that of a Hold in
effect holds back its end. -/
def State.enlFault (s : State) (p : Fin 4) (err row n : Nat) : State :=
  let s := (((s.fset F.ENL_STATUS_HALTED 1 p).fset F.ENL_STATUS_FAULT 1 p).fset F.ENL_STATUS_ERR err p).fset
    F.ENL_STATUS_ERR_ROW row p
  let s := s.fset F.ENL_STATUS_ERR_LINE n p
  let s := s.csReport 0x18 (enlRouter p) [(s.reg .ENL_STATUS p).toNat] false
  if ¬ s.printPart p then s
  else
    let s := if s.hostFed then s.discardLines p else if (s.enl[p]).attempts < 3 then s.emit (.refetch p.val n) else s
    let standing := s.sht.holdReqs.any (fun r => decide (r.strip = some p)) ||
      (match s.sht.held with
      | some h => h.gated.contains p
      | none => false)
    if standing then s
    else
      let b := s.effectiveBoundary (n - 2) false
      match s.sht.held with
      | some h => if h.b = b then { s with sht := { s.sht with held := some { h with gated := h.gated ++ [p] } } }
        else s.requestHold (n - 2) 2 none 0 false (some p)
      | none => s.requestHold (n - 2) 2 none 0 false (some p)

/-- Line `m` of the band in feed has been fed with the values `rows`: a fault that stood on it is mended (R147). -/
def State.lineFed (s : State) (p : Fin 4) (b : Band) (m : Nat) (rows : List (List Nat)) : State :=
  let last := decide (b.first + b.lines ≤ m + 1)
  let s := s.modEnl p (fun e =>
    { e with
      cur := if last then none else some (b, m + 1), fed := m + 1, feed := rows,
      past := if last then e.past ++ [b] else e.past })
  if s.fv F.ENL_STATUS_ERR_LINE p ≤ m then s.stripMended p else s

/-- The band in feed of an Enlarger that may feed its next line. -/
def Enl.ready (e : Enl) (halted : Bool) : Option (Band × Nat) := if e.started ∧ ¬ halted then e.cur else none

/-- Decodes the next line of each Enlarger of a set of partitions: none of them feeds unless all can. The flag says that
all have fed. A fault halts its Enlarger. -/
def State.feedLines (s : State) (parts : BitVec 4) : Bool × State :=
  let ps := (List.finRange 4).filter (fun p => parts.getLsbD p.val)
  if ¬ ps.all (fun p => ((s.enl[p]).ready (s.on F.ENL_STATUS_HALTED p)).isSome) then (false, s)
  else
    let r := ps.foldl (fun (r : List (Fin 4 × Band × Nat × List (List Nat)) × Bool × State) p =>
      match (r.2.2.enl[p]).cur with
      | none => r
      | some (b, m) =>
        let x := r.2.2.bandLine p b m (256 * r.2.2.bandNpg p)
        match x.1 with
        | .error e => (r.1, false, x.2.enlFault p e.1 e.2 m)
        | .ok rows => (r.1 ++ [(p, b, m, rows)], r.2.1, x.2)) ([], true, s)
    if r.2.1 then (true, r.1.foldl (fun s f => s.lineFed f.1 f.2.1 f.2.2.1 f.2.2.2) r.2.2) else (false, r.2.2)

/-- BAND_FEED_START (R147): the next band comes to the front of its Enlarger, and every strip of it is checked. -/
def State.bandFeed (s : State) (p : Fin 4) : State :=
  let e := s.enl[p]
  if s.on F.ENL_STATUS_HALTED p ∨ e.started ∧ e.cur.isSome then s
  else
    let s := match e.cur, e.queue with
      | none, b :: rest =>
        ((s.modEnl p (fun e => { e with cur := some (b, b.first), started := false, attempts := 0 })).setQueue p rest).admitHeld p
      | _, _ => s
    match (s.enl[p]).cur with
    | none => s
    | some (b, _) =>
      let wrong : Bool := match e.expect with
        | some l => decide (b.first ≠ l)
        | none => false
      let r : Option (Nat × Nat) × State := if wrong then (some (3, 0), s) else s.checkBand p b (s.bandNpg p)
      match r.1 with
      | some f => r.2.enlFault p f.1 f.2 b.first
      | none => r.2.modEnl p (fun e => { e with started := true, expect := none })

/-- ENL_Pn_CTL.RESTART (R147): the halted Enlarger resumes at the failing band. -/
def State.enlRestart (s : State) (p : Fin 4) : State :=
  let s := s.fset F.ENL_CTL_RESTART 0 p
  if s.on F.ENL_STATUS_HALTED p then
    (s.modEnl p (fun e => { e with attempts := e.attempts + 1 })).fset F.ENL_STATUS_HALTED 0 p
  else s

/-- ENL_Pn_CTL.FLUSH (R388). -/
def State.enlFlush (s : State) (p : Fin 4) : State := (s.discardLines p).fset F.ENL_CTL_FLUSH 0 p

/-! ## Window contents (R43, R146) -/

/-- The bits that enter a gang in window `j` of a line: for each grain bits 2m + 1 and 2m of the value of slot j div 8. -/
def State.inPlanes (s : State) (parts : BitVec 4) (npg j : Nat) : Plane × Plane :=
  let bit (i : Nat) : Plane := BitVec.ofFnLE (fun g : Fin 65536 =>
    let p : Fin 4 := Fin.ofNat 4 (g.val / 16384)
    parts.getLsbD p.val &&
      (((s.enl[p]).feed.getD (g.val / 256 % 64) []).getD (g.val % 256 * npg + j / 8) 0).testBit (2 * (j % 8) + i))
  (bit 0, bit 1)

/-- The Reserve bytes of an output window: the 2-bit codes of the grains of the print gang's rows (R148). -/
def codeBytes (parts : BitVec 4) (out0 out1 : Plane) : List Byte :=
  let np := (List.range 4).countP (fun p => parts.getLsbD p)
  (List.range (4096 * np)).map (fun b =>
    BitVec.ofNat 8 ((List.range 4).foldl (fun n i =>
      n + ((if out0.getLsbD (4 * b + i) then 1 else 0) + (if out1.getLsbD (4 * b + i) then 2 else 0)) * 4 ^ i) 0))

/-- Router of the Reserve's write side. -/
def reserveRouter : Nat := 9

/-! ## Opening and completing windows (R42) -/

/-- The window opens: G takes GP in an output window. -/
def State.putWindow (s : State) (d : Fin 4) (index : Nat) (out : Bool) (line : Option Nat) (camera : Bool) (npg : Nat) :
    State :=
  let parts := s.partsOf d
  let m := gangMask parts
  let g := s.grains
  let inp := s.inPlanes parts npg (index % (8 * npg))
  let w : Window := { index := index, outLine := line, camera := camera, in0 := inp.1, in1 := inp.2, out0 := g.GP0, out1 := g.GP1 }
  let g := if out then
      { g with
        G0 := merge m g.GP0 g.G0, G1 := merge m g.GP1 g.G1, loaded0 := g.loaded0 &&& ~~~parts,
        loaded1 := g.loaded1 &&& ~~~parts }
    else g
  ((s.setGrains g).modDev d (fun x => { x with win := some w })).resumeWait d

/-- The next window of a camera line of Developer `d`. `queued` takes the bands from the camera queues. -/
def State.openCamera (s : State) (d : Fin 4) (queued : Bool) : State :=
  let parts := s.partsOf d
  let npg := s.npgI
  let i := (s.devs[d]).camWin
  if i = 0 then
    if queued then
      let ps := (List.finRange 4).filter (fun p => parts.getLsbD p.val)
      if ¬ ps.all (fun p => (s.enl[p]).camQueue ≠ []) then s
      else
        let r := ps.foldl (fun (r : Bool × State) p =>
          match (r.2.enl[p]).camQueue with
          | [] => r
          | b :: rest =>
            let x := r.2.bandLine p b b.first (256 * npg)
            match x.1 with
            | .error e => (false, x.2.enlFault p e.1 e.2 b.first)
            | .ok rows => (r.1, x.2.modEnl p (fun e => { e with camQueue := rest, camFed := e.camFed + 1, feed := rows }))) (true, s)
        if r.1 then r.2.putWindow d 0 false none true npg else r.2
    else
      let r := s.feedLines parts
      if r.1 then r.2.putWindow d 0 false none true npg else r.2
  else s.putWindow d i false none true npg

/-- The slot is the first of its group, and the group's one camera line has not begun to enter (R26). -/
def State.camDue (s : State) (j : Job) (sl : Slot) : Bool :=
  decide (j.camGroup = some (sl.n - 1)) && !j.camOpened &&
    (List.finRange 4).all (fun p => !(s.partsOf 0).getLsbD p.val || decide ((s.enl[p]).camQueue ≠ []))

/-- The next window of the print gang's slot. The windows of the two slots after the job's last line, in which its last lines leave,
take in the last fed line's bits again (DESIGN CHOICE, log 101); a camera line's windows follow the slot's last print window (DESIGN
CHOICE, log 100). -/
def State.openPrint (s : State) (d : Fin 4) (j : Job) : State :=
  match (s.devs[d]).slot with
  | none => s
  | some sl =>
    let npg := npgOf j.npgCode
    let parts := s.partsOf d
    if sl.win < 8 * npg then
      let line : Option Nat :=
        if sl.win < npg ∧ 2 ≤ sl.n ∧ sl.n - 2 < j.length ∧ j.complete ≤ sl.n - 2 then some (sl.n - 2) else none
      let g := s.grains
      if line.isSome ∧ g.loaded0 &&& g.loaded1 &&& parts ≠ parts then s
      else if sl.win = 0 ∧ sl.n < j.length then
        let r := s.feedLines parts
        if r.1 then r.2.putWindow d sl.win line.isSome line false npg else r.2
      else s.putWindow d sl.win line.isSome line false npg
    else if sl.inspecting ∧ (s.camDue j sl ∨ (s.devs[d]).camWin ≠ 0) then
      let s := s.openCamera d true
      if (s.devs[d]).win.isSome then s.modJob (fun j => { j with camOpened := true }) else s
    else s

/-- G_WINDOW_OPEN (R42). -/
def execGWindowOpen (d : Fin 4) (s : State) : Ans :=
  s.effect (fun s =>
    if (s.devs[d]).win.isSome ∨ s.grains.slip.isSome ∨ ¬ s.drives d then s
    else
      match s.job with
      | some j => if d = 0 then s.openPrint d j else s.openCamera d false
      | none => s)

/-- The line leaves the array: its codes go to the Reserve, unless it was missed, and with its last window it is complete
(R148, R149, R152). -/
def State.lineOut (s : State) (parts : BitVec 4) (w : Window) (n : Nat) : State :=
  match s.job with
  | none => s
  | some j =>
    let npg := npgOf j.npgCode
    let s := if j.missed.contains n then s
      else s.writeBytes reserveRouter 2 (n % j.slots * (npg * 16384) + w.index * 16384) (codeBytes parts w.out0 w.out1)
    if w.index + 1 = npg then
      let s := s.modJob (fun j => { j with complete := n + 1 })
      let s := s.forFin 4 (fun p s => s.modEnl p (fun e => { e with past := e.past.filter (fun b => decide (n + 1 < b.first + b.lines)) }))
      s.depthRose
    else s

/-- G_WINDOW_COMPLETE (R42): the 256th shift, which waits until GC holds no unstored bits. -/
def execGWindowComplete (d : Fin 4) (s : State) : Ans :=
  s.effect (fun s =>
    match (s.devs[d]).win with
    | none => s
    | some w =>
      let parts := s.partsOf d
      let g := s.grains
      if s.grains.slip.isSome ∨ (g.unstored0 ||| g.unstored1) &&& parts ≠ 0 then s
      else
        let m := gangMask parts
        let s := s.setGrains
          { g with
            G0 := merge m w.in0 g.G0, G1 := merge m w.in1 g.G1, GC0 := merge m w.in0 g.GC0, GC1 := merge m w.in1 g.GC1,
            unstored0 := g.unstored0 ||| parts, unstored1 := g.unstored1 ||| parts }
        let s := s.modDev d (fun x =>
          { x with
            win := none,
            camWin := if w.camera then (if 8 * s.npgI ≤ x.camWin + 1 then 0 else x.camWin + 1) else x.camWin,
            slot := if w.camera then x.slot else x.slot.map (fun sl => { sl with win := sl.win + 1 }),
            ex := { x.ex with winSeen := true } })
        let s := match w.outLine with
          | some n => s.lineOut parts w n
          | none => s
        s.resumeWait d)

/-! ## Switch points (R165, R206, R207, R268) -/

/-- Writes planes of a table into the grains of a gang. -/
def State.loadTable (s : State) (parts : BitVec 4) (base : Nat) (data : List Byte) : State :=
  (List.range (data.length / 8192)).foldl (fun s k =>
    s.grainWrite (base + k) (gangWords parts) (BitVec.ofNat 65536 (leNat ((data.drop (8192 * k)).take 8192)))) s

/-- The image that runs on a side. -/
def Job.side (j : Job) (insp : Bool) : Option ProgramImage := if insp then j.inspImage else some j.image

/-- The gang whose grains a side's tables lie in. -/
def State.sideParts (s : State) (insp : Bool) : BitVec 4 := if insp ∧ s.dedicated then s.partsOf 3 else s.partsOf 0

/-- The reason a table update fails against an image, if it does (R268). -/
def tableReason (im : Option ProgramImage) (p : Pending) : Option Nat :=
  match im.bind (fun i => i.tables.find? (fun t => decide (t.number = p.table))) with
  | none => some 0x20
  | some t => if t.planes < p.plane + p.data.length / 8192 then some 0x21 else none

/-- A table update takes effect with line `n` its first. -/
def State.applyTable (s : State) (p : Pending) (n : Nat) (delayed event : Bool) : State :=
  match s.job with
  | none => s
  | some j =>
    match tableReason (j.side p.insp) p with
    | some r => s.completeReason p.cmd stABORTED r
    | none =>
      match (j.side p.insp).bind (fun i => i.tables.find? (fun t => decide (t.number = p.table))) with
      | none => s
      | some t =>
        let s := s.loadTable (s.sideParts p.insp) (t.base + p.plane) p.data
        let s := if event then
            s.raiseJob .tableSwapped (n + 2 ^ 32 * p.table + 2 ^ 62 * s.fv F.CAM_TSWAP_ACTIVE)
          else s
        s.complete p.cmd (if delayed then stDELAYED else stOK) n

/-- A program slot's verified image. -/
def State.program (s : State) (k : Nat) : Option ProgramImage := smGet (fun _ => none) s.hst.programs k

/-- Tables for which a new image carries data take it (R165). -/
def State.imageTables (s : State) (parts : BitVec 4) (im : ProgramImage) : State :=
  im.tables.foldl (fun s t => match t.data with
    | some d => s.loadTable parts t.base d
    | none => s) s

/-- A program change takes effect. -/
def State.applyChange (s : State) (p : Pending) (pr ins n : Nat) (delayed : Bool) : State :=
  match s.program pr with
  | none => s.completeOpen p.cmd stABORTED
  | some im =>
    let insp := s.program ins
    let s := s.modJob (fun j => { j with image := im, inspImage := insp, printProg := pr, inspProg := ins })
    let s := s.imageTables (s.sideParts false) im
    let s := match insp with
      | some i => s.imageTables (s.sideParts true) i
      | none => s
    s.complete p.cmd (if delayed then stDELAYED else stOK) n

/-- The bank word of the running print program in the driving Developer's seg1 takes the active bank (R206). -/
def State.writeBank (s : State) : State :=
  match s.job with
  | none => s
  | some j =>
    let a := (s.cores[(0 : Fin 8)]).seg[(1 : Fin 8)].base.toNat + j.image.bankWord
    s.dmaWrite (coreRouter 0) a (leBytes (s.fv F.CAM_TSWAP_ACTIVE) 4)

/-- The switches at the start of the slot that computes line `l`: program changes, then a loop swap, then table updates in
acceptance order. An update whose data has not arrived switches at the first slot after it has; when that is, is open, drawn anew at
each slot (log 112). -/
def State.switches (s : State) (l : Nat) : State :=
  let due (p : Pending) : Bool := !p.held && decide (p.line ≤ l)
  let changes := s.hst.pending.filter (fun p => due p && p.change.isSome)
  let tables := s.hst.pending.filter (fun p => due p && p.change.isNone && p.arrived)
  let came : BitVec 64 := s.free_ 64
  let kept := ((s.hst.pending.filter (fun p => !(due p && (p.change.isSome || p.arrived)))).zipIdx).map (fun p =>
    if due p.1 then { p.1 with arrived := came.getLsbD (p.2 % 64), late := true } else p.1)
  let s : State := { s with free := s.free + 1, hst := { s.hst with pending := kept } }
  let delayed (p : Pending) : Bool := p.late || (decide (p.line ≠ 0) && decide (p.line < l))
  let s := changes.foldl (fun s p => match p.change with
    | some c => s.applyChange p c.1 c.2 l (delayed p)
    | none => s) s
  let s := if s.on F.CAM_TSWAP_REQ ∧ s.on F.CAM_CTL_LOOP_EN ∧ s.cam.swapAt ≤ l then
      let a := 1 - s.fv F.CAM_TSWAP_ACTIVE
      let s := ((s.fset F.CAM_TSWAP_ACTIVE a).fset F.CAM_TSWAP_REQ 0).fset F.CAM_TSWAP_AT_LINE l
      let s := s.writeBank
      if s.on F.CAM_CTL_SWAP_EVT then s.raiseJob .tableSwapped (l + 2 ^ 62 * a + 2 ^ 63) else s
    else s
  tables.foldl (fun s p => s.applyTable p l (delayed p) true) s

/-! ## Processing slots (R22, R26) -/

/-- The Developer's present slot has run all its windows, a camera line's among them. -/
def State.slotDone (s : State) (d : Fin 4) (j : Job) : Bool :=
  match (s.devs[d]).slot with
  | none => true
  | some sl => decide (8 * npgOf j.npgCode ≤ sl.win) && decide ((s.devs[d]).camWin = 0) && !(sl.inspecting && s.camDue j sl)

/-- The Reserve has room for the slot `n` (R22, R149): a slot in which no line leaves, or a missed one, needs none. -/
def State.slotRoom (s : State) (j : Job) (n : Nat) : Bool :=
  decide (n < 2 + j.complete) || j.missed.contains (n - 2) ||
    (decide (j.depth + 1 ≤ s.fv F.SHT_RESERVE_TARGET) && decide (j.depth + j.inflight + 1 ≤ j.slots))

/-- The camera line of the interleaved arrangement at the start of the slot that computes line `l` (R26): a new group of
four binds the next one; below the depth target the work is skipped, its band dropped if its window has not opened. -/
def State.cameraGroup (s : State) (j : Job) (l : Nat) : State :=
  if ¬ (j.inspect ∧ j.interleaved) then s
  else
    let queued := (s.enl[(0 : Fin 4)]).camQueue ≠ []
    let s := if l % 4 = 0 then s.modJob (fun j => { j with camGroup := if queued then some l else none, camOpened := false }) else s
    match s.job with
    | none => s
    | some j =>
      if j.camGroup.isSome ∧ j.depth < s.fv F.SHT_RESERVE_TARGET then
        let s := if ¬ j.camOpened then s.forFin 4 (fun p s => s.modEnl p (fun e => { e with camQueue := e.camQueue.drop 1 })) else s
        (s.modJob (fun j => { j with camGroup := none })).finc F.DEV_INSP_SKIP_COUNT 0
      else s

/-- PROCESSING_SLOT_START (R22): the driving Developer of the print gang starts the slot that loads the next line. -/
def State.slotStart (s : State) (d : Fin 4) : State :=
  match s.job with
  | none => s
  | some j =>
    let n := j.nextSlot
    let k := s.cores[devCore d]
    if d ≠ 0 ∨ ¬ s.slotDone d j ∨ j.length + 2 ≤ n ∨ ¬ s.slotRoom j n ∨ (s.devs[d]).restarting.isSome ∨ s.grains.slip.isSome ∨
        k.run = .mcHalt ∨ k.run = .stopped ∨ (s.devs[d]).win.isSome then s
    else
      let s := s.modJob (fun j => { j with nextSlot := n + 1 })
      let s := if 1 ≤ n then (s.switches (n - 1)).cameraGroup j (n - 1) else s
      let insp : Bool := match s.job with
        | some j => j.camGroup.isSome
        | none => false
      let s := s.modDev d (fun x => { x with slot := some { n := n, win := 0, inspecting := insp }, checkpoint := some n })
      s.forFin 4 (fun e s => s.modDev e (fun x => { x with fogLines := x.fogLines + 1 }))

/-- PROCESSING_SLOT_START. -/
def execProcessingSlotStart (d : Fin 4) (s : State) : Ans := s.effect (fun s => s.slotStart d)

end Sys2Proof.Machine
end

