-- ==== Sys2Proof/Machine/Access.lean ====
section
/-!
DEFINITION. Who may write which register (R7, R240, R243, R305, R309, R345), and the plain software write of a register.
-/

namespace Sys2Proof.Machine

/-- The BAR0 block of a register: bits [23:20] of its offset (R243). -/
def regBlock (r : RegName) (i : Nat) : Nat := regAddr r i / 0x100000

/-- The page of the HST_ block that a register lies in: functions 0-7 (R243). -/
def regPage (r : RegName) (i : Nat) : Option Nat :=
  let a := regAddr r i
  if 0x400000 ≤ a ∧ a < 0x480000 then some ((a - 0x400000) / 0x10000) else none

/-- The registers the PF writes in SEALED below D2 (R345). -/
def pfSealed (r : RegName) (i : Nat) : Bool :=
  ([0x0, 0x4, 0xA, 0xB, 0xD, 0xE] : List Nat).contains (regBlock r i) ||
    ([.SEC_LC_BUF, .SEC_LC_CTL, .DBG_CTL, .DBG_UNLOCK_CTL, .DBG_TOKEN, .LP_CTL, .LP_SEL] : List RegName).contains r

/-- The agent is a management core. -/
def agentIsMc : Agent → Bool
  | .core c => decide (4 ≤ c.val)
  | _ => false

/-- The agent is a debug access. -/
def agentIsDebug : Agent → Bool
  | .jtag => true
  | .pfDebug => true
  | _ => false

/-- The router behind an agent's accesses (R277): the requester of their Contact Sheet records. -/
def agentRouter : Agent → Nat
  | .pf => 12
  | .vf _ => 12
  | .core c => coreRouter c
  | .dma n => [14, 15, 17].getD n 14
  | .flash n => [6, 11, 24, 29].getD n 6
  | .jtag => 10
  | .pfDebug => 12
  | .unit r => r

/-- The agent's access rights to a register (R340, R345): debug below D2 writes DBG_ and LP_ alone, the TAP at every level; the PF
writes a restricted set in SEALED below D2; a VF writes its own page; R240's and R305's registers belong to the PF and
the management cores, and the injection registers to no one in SEALED below D2. -/
def State.mayWrite (s : State) (a : Agent) (r : RegName) (i : Nat) : Bool :=
  let locked := decide (s.fuses.lc = 2) && decide (s.dbgLevel < 2)
  let quota := ([.JS_QUOTA, .JS_CAPQ] : List RegName).contains r
  let injection := ([.ECC_FLIP_CTL, .ECC_FLIP_MASK] : List RegName).contains r
  let owner := !(quota || injection) || a == .pf || agentIsMc a || (injection && agentIsDebug a)
  let inject := !(locked && injection)
  let rights : Bool := match a with
    | .pf => !locked || pfSealed r i
    | .vf k => decide (regPage r i = some (k.val + 1))
    | .jtag => decide (2 ≤ s.dbgLevel) || decide (regBlock r i = 2)
    | .pfDebug => decide (2 ≤ s.dbgLevel) || (decide (s.dbgLevel = 1) && decide (regBlock r i = 2))
    | _ => true
  (s.active || decide (regBlock r i = 0) || (a == .jtag && decide (regBlock r i = 2))) && owner && inject && rights

/-- The agent may read the register (R243, R345): a VF its own page alone, debug from D1 on. -/
def State.mayRead (s : State) (a : Agent) (r : RegName) (i : Nat) : Bool :=
  let rights : Bool := match a with
    | .vf k => decide (regPage r i = some (k.val + 1))
    | .jtag => decide (1 ≤ s.dbgLevel) || decide (regBlock r i = 2)
    | .pfDebug => decide (1 ≤ s.dbgLevel)
    | _ => true
  (s.active || decide (regBlock r i = 0) || (a == .jtag && decide (regBlock r i = 2))) && rights

/-- A read has its side effects: always, but for a debug read without READ_ACT (R12, R346). -/
def State.readActs (s : State) (a : Agent) : Bool := !agentIsDebug a || s.on F.DBG_CTL_READ_ACT

/-- The agent's accesses reach the module: the host's through a link that is up, the die's own while the die is powered, and the
TAP's in every state but Off (R241, R317, R340). -/
def State.reaches (s : State) : Agent → Bool
  | .pf => s.hst.linkUp && decide (s.mode ≠ 0)
  | .vf _ => s.hst.linkUp && decide (s.mode ≠ 0)
  | .pfDebug => s.hst.linkUp && decide (s.mode ≠ 0)
  | .jtag => decide (s.mode ≠ 0)
  | _ => s.active

/-- Releases a register's latched high half (R7). -/
def State.unlatch (s : State) (r : RegName) (i : Nat) : State :=
  { s with latches := smSet (fun _ => none) s.latches (regKey r i) none }

/-- Does `f` where the agent may write the register; a refused write is ignored and counted (R345). A write releases the
register's latch (R7). -/
def State.guarded (s : State) (a : Agent) (r : RegName) (i : Nat) (f : State → State) : State :=
  if ¬ s.reaches a then s else if s.mayWrite a r i then f (s.unlatch r i) else s.badAccess

/-- The whole register. -/
def fullMask : DWord := BitVec.allOnes 64

/-- The plain software write of a register by its access codes (R8-R11). -/
def State.plainWrite (s : State) (r : RegName) (i : Nat) (mask v : DWord) : State :=
  s.setReg r (swWrite (regInfo r).fields mask (s.reg r i) v) i

/-- A bit field of a written value. -/
def wField (v : DWord) (f : Fld) : Nat := getBits v f.lo f.w

end Sys2Proof.Machine
end

