-- ==== Sys2Proof/Machine/Emulsion.lean ====
section
/-!
DEFINITION. The grain array's housekeeping: gangs, initialisation, the Fog check, column slip, the backdoor and the loading of
the microcode stores (R48, R52-R63, R133, R138).
-/

namespace Sys2Proof.Machine

/-- A Developer has array work: its AIQ holds an entry or its expander runs a routine (R48). -/
def State.arrayWork (s : State) (d : Fin 4) : Bool :=
  decide ((s.devs[d]).aiq ≠ []) || decide ((s.devs[d]).ex.st ≠ .idle)

/-! ## Gangs (R48) -/

/-- The gang arrangement takes a value: windows and counts of the old gangs are left as they stand. -/
def State.setGang (s : State) (m : Nat) : State := s.fset F.GRN_GANG_MODE m

/-- A write of GRN_GANG: ignored in Print, in Hold and while array work stands; put off while a Fog check slice runs. -/
def State.writeGang (s : State) (v : DWord) : State :=
  let m := wField v F.GRN_GANG_MODE
  if s.printing ∨ (List.finRange 4).any (fun d => s.arrayWork d) then s.fset F.GRN_STATUS_GANG_REJ 1
  else if (List.finRange 4).any (fun d => (s.devs[d]).fogRunning) then
    s.setGrains { s.grains with gangDeferred := some (BitVec.ofNat 2 m) }
  else s.setGang m

/-- GRN_GANG_WRITE. -/
def execGrnGangWrite (a : Agent) (v : BitVec 32) (s : State) : Ans :=
  s.effect (fun s => s.guarded a .GRN_GANG 0 (fun s => s.writeGang (v.setWidth 64)))

/-! ## Initialisation (R52) -/

/-- GRN_INIT of one partition may run: its Developer has no array work and drives no printing gang. -/
def State.mayInit (s : State) (p : Fin 4) : Bool :=
  let d := gangDriver s.gangMode p
  !s.arrayWork d && !s.arrayWork p && !(s.printing && s.printPart p)

/-- A write of GRN_INIT: each selected partition starts, or sets INIT_REJ. -/
def State.writeInit (s : State) (v : DWord) : State :=
  s.forFin 4 (fun p s =>
    if (wField v F.GRN_INIT_PART).testBit p.val then
      if s.mayInit p then
        (s.fset F.GRN_INIT_PART (natSetBit (s.fv F.GRN_INIT_PART) p.val true)).fset F.GRN_STATUS_INIT_BUSY
          (natSetBit (s.fv F.GRN_STATUS_INIT_BUSY) p.val true)
      else s.fset F.GRN_STATUS_INIT_REJ 1
    else s)

/-- GRN_INIT. -/
def execGrnInit (a : Agent) (v : BitVec 32) (s : State) : Ans :=
  s.effect (fun s => s.guarded a .GRN_INIT 0 (fun s => s.writeInit (v.setWidth 64)))

/-- GRN_INIT_COMPLETE: zero codewords stand at every address of the partition. -/
def execGrnInitComplete (p : Fin 4) (s : State) : Ans :=
  s.effect (fun s =>
    if (s.fv F.GRN_STATUS_INIT_BUSY).testBit p.val then
      let s := s.setGrains (s.grains.zeroed (1 <<< p.val))
      (s.fset F.GRN_STATUS_INIT_BUSY (natSetBit (s.fv F.GRN_STATUS_INIT_BUSY) p.val false)).fset F.GRN_INIT_PART
        (natSetBit (s.fv F.GRN_INIT_PART) p.val false)
    else s)

/-! ## The Fog check (R53-R55) -/

/-- A slice starts. -/
def State.fogStart (s : State) (d : Fin 4) : State := s.modDev d (fun x => { x with fogRunning := true, fogLines := 0 })

/-- FOG_SLICE: with the AIQ empty. -/
def execFogSlice (d : Fin 4) (s : State) : Ans :=
  s.effect (fun s => if s.fogReady d ∧ (s.devs[d]).aiq = [] then s.fogStart d else s)

/-- FOG_SLICE_INSERT: after MIN_GAP lines without a slice, ahead of the next array instruction. -/
def execFogSliceInsert (d : Fin 4) (s : State) : Ans :=
  s.effect (fun s =>
    if s.fogDue d then s.fogStart d else s)

/-- SPARE_BAD of Tray column `t`. -/
def State.setSpareBad (s : State) (t : Nat) : State := s.fset ⟨.GRN_SLIP_STATE, 8 * t + 6, 1⟩ 1

/-- SLIPPED and SPARE_BAD of a Tray column. -/
def State.slipped (s : State) (t : Nat) : Bool := s.on ⟨.GRN_SLIP_STATE, 8 * t + 7, 1⟩
def State.spareBad (s : State) (t : Nat) : Bool := s.on ⟨.GRN_SLIP_STATE, 8 * t + 6, 1⟩

/-- A mismatch is localised (R55): row, column and physical column, and the probe. One in a Tray column that has already slipped takes
the module to Safe where it affects the print gang (R59). -/
def State.fogFailure (s : State) (d : Fin 4) (probe row col phys : Nat) : State :=
  let s := if s.on F.GRN_FOG_FAIL_VALID then s
    else ((((s.fset F.GRN_FOG_FAIL_VALID 1).fset F.GRN_FOG_FAIL_PROBE probe).fset F.GRN_FOG_FAIL_ROW row).fset
      F.GRN_FOG_FAIL_COL col).fset F.GRN_FOG_FAIL_PHYS phys
  let s := s.fset F.GRN_STATUS_FOG_FAIL 1
  let s := s.csReport 0x12 (coreRouter (devCore d)) [(s.reg .GRN_FOG_FAIL).toNat, col / 32, phys] false
  if s.slipped (col / 32) then
    (if s.job.isSome && (s.partsOf 0).getLsbD (row / 64) then s.safeEntry 1 else s)
  else if phys = 32 then (s.setSpareBad (col / 32)).redund 6 true
  else s

/-- FOG_SLICE_END: the grains' registers are as they were, the Fog and system areas hold the slice's data, and the probe number
moves on; a battery of 48 is counted, and a gang write that waited takes effect once no slice runs. -/
def execFogSliceEnd (d : Fin 4) (found : Option (Fin 256 × Fin 256 × Fin 33)) (s : State) : Ans :=
  s.effect (fun s =>
    if ¬ (s.devs[d]).fogRunning then s
    else
      let probe := (s.devs[d]).fogProbe
      let s := s.openPlanes (s.partsOf d) 7680 256
      let s := s.modDev d (fun x => { x with fogRunning := false, fogProbe := (probe + 1) % 48 })
      let s := if probe = 47 then s.fset F.GRN_FOG_CTRL_BATTERY_CNT (s.fv F.GRN_FOG_CTRL_BATTERY_CNT + 1) else s
      let s := match found with
        | some f => s.fogFailure d probe f.1 f.2.1 f.2.2
        | none => s
      s.gangDue)

/-! ## Column slip (R56-R60) -/

/-- The mapping of R56 is recorded: SLIPPED and POS. -/
def State.setSlipped (s : State) (t p : Nat) : State :=
  ((s.fset ⟨.GRN_SLIP_STATE, 8 * t + 7, 1⟩ 1).fset ⟨.GRN_SLIP_STATE, 8 * t, 5⟩ p).redund 6 true

/-- The Tray-row words of Tray column `t`. -/
def columnWords (t : Nat) : BitVec 2048 := BitVec.ofFnLE (fun w => decide (w.val % 8 = t))

/-- The Developers stop for a slip; those in machine-check halt stay in it (R57). -/
def State.slipStop (s : State) : State :=
  s.forFin 4 (fun d s => (s.abandon d).modCore (devCore d) (fun k =>
    if k.run = .mcHalt then k else { k with was := k.run, run := .stopped }))

/-- The Developer's program has registered a slip hook: D0's the job's print program, the driver of the inspection gang's the
inspection program. -/
def State.hasHook (s : State) (d : Fin 4) : Bool :=
  match s.job with
  | some j => if d = 0 then j.image.hasSlipHook else s.drives d && (match j.inspImage with
    | some i => i.hasSlipHook
    | none => false)
  | none => false

/-- The Developers resume after a slip as they were stopped, run their slip hooks, and restart their abandoned routines (R57). The
hook is the program's own code, whose place is not given: that it runs is told by an event (log 111). -/
def State.slipResume (s : State) : State :=
  s.forFin 4 (fun d s =>
    let sync := (s.devs[d]).aiq.any (fun e => decide (e.index = 87))
    let s := if s.hasHook d ∧ (s.cores[devCore d]).run = .stopped then s.emit (.slipHook d) else s
    (s.modCore (devCore d) (fun k =>
      if k.run = .stopped then { k with run := if k.was = .sync ∧ ¬ sync then .running else k.was } else k)).resumeExpander d)

/-- R59 refuses the command. -/
def State.slipRefused (s : State) (t : Nat) (boot : Bool) : Bool :=
  s.slipped t || s.spareBad t || s.grains.slip.isSome ||
    (boot && ((List.finRange 4).any (fun d => s.arrayWork d) || s.on F.GRN_FOG_CTRL_ENABLE))

/-- A write of GRN_SLIP_CMD: only a management core's counts; without GO it sets the other fields, and with GO it starts a
slip, or sets a mapping in the boot form. -/
def State.writeSlip (s : State) (a : Agent) (v : DWord) : State :=
  if ¬ agentIsMc a then s
  else
    let t := wField v F.GRN_SLIP_CMD_TCOL
    let p := wField v F.GRN_SLIP_CMD_PHYS
    let boot := decide (wField v F.GRN_SLIP_CMD_BOOT = 1)
    let set (s : State) : State := ((s.fset F.GRN_SLIP_CMD_BOOT (if boot then 1 else 0)).fset F.GRN_SLIP_CMD_TCOL t).fset F.GRN_SLIP_CMD_PHYS p
    if wField v F.GRN_SLIP_CMD_GO = 0 then set s
    else if s.slipRefused t boot then s.fset F.GRN_STATUS_SLIP_FAIL 1
    else if boot then (set s).setSlipped t p
    else
      let s := (((set s).fset F.GRN_SLIP_CMD_GO 1).fset F.GRN_STATUS_SLIP_BUSY 1).slipStop
      s.setGrains { s.grains with slip := some (Fin.ofNat 8 t, Fin.ofNat 32 p) }

/-- SLIP_GO. -/
def execSlipGo (a : Agent) (v : BitVec 32) (s : State) : Ans :=
  s.effect (fun s => s.guarded a .GRN_SLIP_CMD 0 (fun s => s.writeSlip a (v.setWidth 64)))

/-- BOOT_SLIP: the same register's write in its boot form. -/
def execBootSlip (a : Agent) (v : BitVec 32) (s : State) : Ans :=
  s.effect (fun s => s.guarded a .GRN_SLIP_CMD 0 (fun s => s.writeSlip a (v.setWidth 64)))

/-- The words of a Tray column are rewritten with correction, so none carries a correctable error. -/
def Grains.migrated (g : Grains) (t : Nat) : Grains :=
  let ws := columnWords t
  let f (p : GPlane) : GPlane := { p with ce := p.ce &&& ~~~ws }
  let base := f g.base
  { g with base := base, mem := (g.mem.map (fun e => (e.1, f e.2))).filter (fun e => e.2 ≠ base) }

/-- The partitions with an uncorrectable word in a Tray column: what the verify pass finds. -/
def Grains.badParts (g : Grains) (t : Nat) : BitVec 4 :=
  let bad := ((g.base.bad ||| g.base.poison) ::
    g.mem.map (fun e => e.2.bad ||| e.2.poison)).foldl (fun (x : BitVec 2048) b => x ||| b) 0 &&& columnWords t
  BitVec.ofFnLE (fun p => decide (bad &&& gangWords (1 <<< p.val) ≠ 0))

/-- The logical grains of physical column `p` of Tray column `t`: a bit of every row. -/
def columnGrains (t p : Nat) : Plane :=
  (List.range 256).foldl (fun (m : Plane) r => m ||| (1 <<< (256 * r + 32 * t + p))) 0

/-- The system area of the grains that now carry logical column `p` of Tray column `t` is re-seeded: open data (R57, log 10). -/
def State.reseeded (s : State) (t p : Nat) : State :=
  (List.range 128).foldl (fun s k =>
    let a := 7808 + k
    let q := s.grains.plane a
    let good := columnWords t &&& ~~~(q.poison ||| q.bad)
    s.used.setGrains (s.grains.setPlane a { q with data := merge (wordPlane good &&& columnGrains t p) (s.free_ 65536) q.data })) s

/-- The first line computed after the slip: the one in the slot now in progress; without a job the spec gives none, a free
value. -/
def State.slipLine (s : State) : Nat :=
  match s.job with
  | some j => j.nextSlot - 1
  | none => (s.free_ 32).toNat

/-- SLIP_COMPLETE: the Developers resume, which clears GO, or, where the verify pass or the battery failed, stay stopped, with Safe
when the print gang is affected (R57, R59, R64). A failure that the memory's own state does not show falls in a partition the spec
does not name: a free value. A slip that fails leaves the mapping of R56 in place, with SLIPPED, POS and the redundancy cause set,
which the spec does not say (DESIGN CHOICE, log 102). -/
def execSlipComplete (verifyOk batteryOk : Bool) (s : State) : Ans :=
  s.effect (fun s =>
    match s.grains.slip with
    | none => s
    | some (t, p) =>
      let s := s.setGrains { s.grains.migrated t with slip := none }
      let s := s.fset F.GRN_STATUS_SLIP_BUSY 0
      let found := s.grains.badParts t
      let failed := !verifyOk || !batteryOk || decide (found ≠ 0)
      let s := s.setSlipped t p
      if failed then
        let parts : BitVec 4 := if found ≠ 0 then found else 1 <<< (s.free_ 2).toNat
        let s := s.used.fset F.GRN_STATUS_SLIP_FAIL 1
        let s := s.fset F.GRN_STATUS_UE ((BitVec.ofNat 4 (s.fv F.GRN_STATUS_UE) ||| parts).toNat)
        if s.job.isSome ∧ s.partsOf 0 &&& parts ≠ 0 then s.safeEntry 1 else s
      else
        let line := s.slipLine
        let s := (((s.used.reseeded t p).fset F.GRN_SLIP_CMD_GO 0).csMasked 0x12 (coreRouter 0) [(s.reg .GRN_FOG_FAIL).toNat, t, p] 4).slipResume
        s.raise .columnSlipped (pair line (t.val + 256 * p.val)))

/-! ## The backdoor (R62, R63, R345) -/

/-- The agent may use the window: management cores, Developers and network DMA; the debug agent at D2. -/
def State.mayBackdoor (s : State) (a : Agent) : Bool :=
  match a with
  | .core _ => true
  | .dma _ => true
  | .jtag => decide (s.dbgLevel = 2)
  | .pfDebug => decide (s.dbgLevel = 2)
  | _ => false

/-- Bytes of the window. -/
def backdoorSize : Nat := 0x400_0000

/-- The Developer drives the gang of a partition that the `n` bytes at an offset of the window touch, and array instructions it issued
before are still to retire: its access waits for them (R62). -/
def State.arrayOwn (s : State) (d : Fin 4) (off n : Nat) : Bool :=
  let first := off % 8192 / 2048
  let last := (off % 8192 + (n - 1)) / 2048
  decide ((s.devs[d]).aiq ≠ []) && (List.range (Nat.min 4 (last + 1 - first))).any (fun k => (s.partsOf d).getLsbD ((first + k) % 4))

/-- The agent is a Developer whose backdoor access waits (R62). -/
def State.backdoorWaits (s : State) (a : Agent) (off n : Nat) : Bool :=
  match a with
  | .core c => if h : c.val < 4 then s.arrayOwn ⟨c.val, h⟩ off n else false
  | _ => false

/-- BACKDOOR_READ: the bytes go to the agent; an uncorrectable word gives a core a precise load trap and halts a DMA
requester with status. A driving Developer's access waits for its earlier array instructions. -/
def execBackdoorRead (a : Agent) (off n : Nat) (s : State) : Ans :=
  s.effect (fun s =>
    if ¬ s.mayBackdoor a ∨ backdoorSize < off + n then s.emit (.refused stDENIED)
    else if s.backdoorWaits a off n then s
    else
      let r := s.backdoorRead off n (agentRouter a)
      match r.1, a with
      | true, .core c => r.2.precise c { code := excLoad } (r.2.cores[c]).pc
      | true, .dma _ => r.2.emit (.refused stMEDIA)
      | _, _ => r.2.emit (.bytes (s.backdoorBytes off n)))

/-- BACKDOOR_WRITE: a driving Developer's access waits for its earlier array instructions. -/
def execBackdoorWrite (a : Agent) (off : Nat) (data : List Byte) (s : State) : Ans :=
  s.effect (fun s =>
    if ¬ s.mayBackdoor a ∨ backdoorSize < off + data.length then s.emit (.refused stDENIED)
    else if s.backdoorWaits a off data.length then s
    else s.backdoorWrite off data (agentRouter a))

/-! ## Microcode stores (R130, R132, R133, R138) -/

/-- The agent may write the stores now: a management core, before LOCK. -/
def State.ucOpen (s : State) (a : Agent) (d : Fin 4) : Bool := agentIsMc a && !s.on F.DEV_UCODE_CTL_LOCK d

/-- A write of DEVn_UC_ADDR; it resets the half pointer. -/
def State.writeUcAddr (s : State) (a : Agent) (d : Fin 4) (v : DWord) : State :=
  if s.ucOpen a d then
    (s.plainWrite .DEV_UC_ADDR d fullMask v).modDev d (fun x => { x with half := none })
  else s.fset F.DEV_UCODE_CTL_WREJ 1 d

/-- UC_ADDR_WRITE. -/
def execUcAddrWrite (a : Agent) (d : Fin 4) (v : BitVec 32) (s : State) : Ans :=
  s.effect (fun s => s.guarded a .DEV_UC_ADDR d (fun s => s.writeUcAddr a d (v.setWidth 64)))

/-- A store of a Developer takes a word; the flag says that a word was completed. -/
def Dev.storeWord (x : Dev) (space idx : Nat) (v : DWord) : Bool × Dev :=
  match space with
  | 0 =>
    if 0x4000 ≤ idx ∧ idx < 0x4800 then
      (true, { x with extMicro := smSet (fun _ => none) x.extMicro idx (some (v.setWidth 32)) })
    else (false, x)
  | 1 =>
    match x.half with
    | none => (false, { x with half := some v })
    | some lo =>
      if 0x1000 ≤ idx ∧ idx < 0x1200 then
        (true, { x with half := none, extNano := smSet (fun _ => none) x.extNano idx (some (v ++ lo)) })
      else (false, { x with half := none })
  | 2 =>
    if 192 ≤ idx ∧ idx < 256 then
      (true, { x with decodeRam := smSet (fun _ => none) x.decodeRam idx (some v) })
    else (false, x)
  | _ =>
    if idx < 64 then (true, { x with cam := smSet (fun _ => none) x.cam idx (some v) }) else (false, x)

/-- A write of DEVn_UC_DATA: INDEX advances after a completed word when INC is 1. -/
def State.writeUcData (s : State) (a : Agent) (d : Fin 4) (v : DWord) : State :=
  if s.ucOpen a d then
    let idx := s.fv F.DEV_UC_ADDR_INDEX d
    let r := (s.devs[d]).storeWord (s.fv F.DEV_UC_ADDR_SPACE d) idx v
    let s := s.modDev d (fun _ => r.2)
    if r.1 ∧ s.on F.DEV_UC_ADDR_INC d then s.fset F.DEV_UC_ADDR_INDEX (idx + 1) d else s
  else s.fset F.DEV_UCODE_CTL_WREJ 1 d

/-- UC_DATA_WRITE. -/
def execUcDataWrite (a : Agent) (d : Fin 4) (v : DWord) (s : State) : Ans :=
  s.effect (fun s => s.guarded a .DEV_UC_DATA d (fun s => s.writeUcData a d v))

/-- UCODE_LOCK: LOCK closes the stores until a die reset. -/
def execUcodeLock (a : Agent) (d : Fin 4) (s : State) : Ans :=
  s.effect (fun s => s.guarded a .DEV_UCODE_CTL d (fun s => s.fset F.DEV_UCODE_CTL_LOCK 1 d))

end Sys2Proof.Machine
end

