-- ==== Sys2Proof/Machine/LineIO.lean ====
section
/-!
DEFINITION. The line input's registers, the encoders, the Shutter's timers and fires, Hold and resume, swaths and the Nozzle
Map, as commands (R141, R147, R154-R164, R185, R294, R388).
-/

namespace Sys2Proof.Machine

/-! ## Bands (R141, R147, R294, R388) -/

/-- A write of ENL_Pn_BAND_PUSH: the band, with the table ENL_Pn_BAND_ADDR names at the push (R141), is queued, or the write is
held while the queue is full (R294); a 32-bit write is ignored. -/
def State.pushBand (s : State) (a : Agent) (p : Fin 4) (bits : Nat) (v : DWord) : State :=
  if bits ≠ 64 then s
  else
    ({ s.plainWrite .ENL_BAND_PUSH p fullMask v with
      heldPush := s.heldPush ++ [{ p := p, band := s.bandOf p v, by_ := a }] } : State).admitHeld p

/-- BAND_PUSH. -/
def execBandPush (a : Agent) (p : Fin 4) (bits : Nat) (v : DWord) (s : State) : Ans :=
  s.effect (fun s => s.guarded a .ENL_BAND_PUSH p (fun s => s.pushBand a p bits v))

/-- FIFO_REGISTER_WRITE: the register that software pushes into is ENL_Pn_BAND_PUSH. -/
def execFifoRegisterWrite (a : Agent) (p : Fin 4) (bits : Nat) (v : DWord) (s : State) : Ans :=
  s.effect (fun s => s.guarded a .ENL_BAND_PUSH p (fun s => s.pushBand a p bits v))

/-- A band as the word that pushes it. -/
def Band.word (b : Band) : DWord :=
  BitVec.ofNat 64 (b.first * 2 ^ 32 + (b.lines - 1) * 2 ^ 8 + (b.factor - 1) * 4 + if b.linear then 2 else 0)

/-- FIFO_REGISTER_READ: the head of the queue with VALID = 1, popped unless the read is free of side effects; at depth 0 the
last value written, with VALID = 0. -/
def execFifoRegisterRead (a : Agent) (p : Fin 4) (s : State) : Ans :=
  s.effect (fun s =>
    if ¬ s.mayRead a .ENL_BAND_PUSH p then s.emit (.fifoHead false 0)
    else
      match (s.enl[p]).queue with
      | [] => s.emit (.fifoHead false (s.reg .ENL_BAND_PUSH p))
      | b :: rest =>
        let s := s.emit (.fifoHead true b.word)
        if s.readActs a then (s.setQueue p rest).admitHeld p else s)

/-- FIFO_WRITE_DISCARD: the oldest write held for the Enlarger has waited 64 us; it is lost and counted. -/
def execFifoWriteDiscard (p : Fin 4) (s : State) : Ans :=
  s.effect (fun s =>
    match s.heldPush.find? (fun h => decide (h.p = p)) with
    | some h => ({ s with heldPush := s.heldPush.erase h } : State).badAccess
    | none => s)

/-- ENL_FLUSH. -/
def execEnlFlush (a : Agent) (p : Fin 4) (s : State) : Ans :=
  s.effect (fun s => s.guarded a .ENL_CTL p (fun s => s.enlFlush p))

/-- ENL_RESTART. -/
def execEnlRestart (a : Agent) (p : Fin 4) (s : State) : Ans :=
  s.effect (fun s => s.guarded a .ENL_CTL p (fun s => s.enlRestart p))

/-! ## Encoders and LINEPOS (R156-R158) -/

/-- PITCH (R158). -/
def State.pitch (s : State) : Int := (s.reg .SHT_PITCH).toNat

/-- The channel drives LINEPOS. -/
def State.lineChannel (s : State) (ch : Fin 4) : Bool :=
  decide (s.fv F.SHT_CTL_SRC = 0) && decide (s.fv F.SHT_CTL_ENC_SEL = ch.val)

/-- A step of quadrature from (A, B) to (A', B') goes forward: 00, 10, 11, 01, 00. -/
def quadForward (a b a' b' : Bool) : Bool := if a ≠ a' then decide (b ≠ a') else decide (a = b')

/-- ENCODER_COUNT: new accepted levels, `dt` ticks after the previous count. -/
def execEncoderCount (ch : Fin 4) (a b : Bool) (dt : Nat) (s : State) : Ans :=
  s.effect (fun s =>
    if ¬ s.active then s
    else
      let e := s.sht.enc[ch]
      let put (x : EncSt) (s : State) : State := { s with sht := { s.sht with enc := s.sht.enc.set ch x } }
      let levels := put { e with a := a, b := b } s
      if ¬ s.on F.SHT_ENC_CTL_ENABLE ch ∨ (e.a = a ∧ e.b = b) then levels
      else if e.a ≠ a ∧ e.b ≠ b then levels.finc F.SHT_ENC_CTL_QERR ch
      else
        let s := put { a := a, b := b, counted := true } s
        let s := if e.counted ∧ dt < s.fv F.SHT_ENC_CTL_MIN_INT ch then s.finc F.SHT_ENC_CTL_OVERSPEED ch else s
        let fwd := quadForward e.a e.b a b != s.on F.SHT_ENC_CTL_INV ch
        if s.lineChannel ch then s.moveLinepos (if fwd then s.linepos + s.pitch else s.linepos - s.pitch) else s)

/-- ENCODER_INDEX: the start event of START_MODE 1, or a load of LINEPOS with 0 under IDX_ORG. -/
def execEncoderIndex (ch : Fin 4) (s : State) : Ans :=
  s.effect (fun s =>
    let waits : Bool := match s.job with
      | some j => decide (j.phase = .awaitStart) && decide (j.startMode = 1)
      | none => false
    if ¬ s.active ∨ s.fv F.SHT_CTL_ENC_SEL ≠ ch.val then s
    else if waits then s.startJob
    else if s.lineChannel ch ∧ s.on F.SHT_ENC_CTL_IDX_ORG ch then s.loadLinepos 0
    else s)

/-- ENCODER_STALL: in Print outside Hold, the line channel has accepted no count for STALL_US. -/
def execEncoderStall (ch : Fin 4) (s : State) : Ans :=
  s.effect (fun s =>
    if s.mode = 4 ∧ s.lineChannel ch ∧ s.fv F.SHT_ENC_CTL_STALL_US ch ≠ 0 then
      let due := match s.job with
        | some j => j.claimed
        | none => 0
      ((s.fset F.SHT_STATUS_STALL 1).raiseJob .encoderStall (pair due ch)).requestHold 0 1 none 0 false none
    else s)

/-- PACER_TICK: PACE ticks have passed. -/
def execPacerTick (s : State) : Ans :=
  s.effect (fun s =>
    if s.active ∧ s.fv F.SHT_CTL_SRC = 1 ∧ s.fv F.SHT_CTL_PACE ≠ 0 then s.moveLinepos (s.linepos + 2 ^ 32) else s)

/-- A software write of LINEPOS is a load. -/
def State.writeLinepos (s : State) (v : DWord) : State := s.loadLinepos v.toInt

/-- LINEPOS_WRITE. -/
def execLineposWrite (a : Agent) (v : DWord) (s : State) : Ans :=
  s.effect (fun s => s.guarded a .SHT_LINEPOS 0 (fun s => s.writeLinepos v))

/-- A write of PITCH; one above 1.0 is ignored. -/
def State.writePitch (s : State) (v : DWord) : State := if v.toNat ≤ 2 ^ 32 then s.plainWrite .SHT_PITCH 0 fullMask v else s

/-! ## Fires and timers (R159, R160, R185) -/

/-- The head-side reads of line `n` failed (R153, R176): it fires blank from now on. -/
def State.headReadsFailed (s : State) (n : Nat) : State := s.supersede n

/-- GROUP_FIRE: the group's timer expires. A line that a Hold has come to bar is not fired, and may be armed again. -/
def execGroupFire (g : Fin 64) (headReadsFail : Bool) (s : State) : Ans :=
  s.effect (fun s =>
    match s.job with
    | none => s
    | some j =>
      match (j.groups[g]).armed with
      | none => s
      | some n =>
        if s.barred n then s.modJob (fun j => j.setGroup g { j.groups[g] with armed := none, nextArm := n })
        else
          let s := if headReadsFail then s.headReadsFailed n else s
          (s.fireGroup g n).checkBoundary)

/-- WIRED_PULSE_END: the pulse has lasted WIDTH ticks from the last strobe that it merged. -/
def execWiredPulseEnd (w : Fin 16) (s : State) : Ans :=
  s.effect (fun s =>
    if s.sht.wired.getLsbD w.val ∧ s.sht.wiredEnd[w].toNat ≤ s.devTime.toNat then
      ({ s with sht := { s.sht with wired := s.sht.wired &&& ~~~((1 : BitVec 16) <<< w.val) } } : State).emit
        (.wired w (s.wiredLevel w false) 0)
    else s)

/-- FABRIC_TIMER_EXPIRY: the event the timer names goes out; the spec gives the fabric no input it reaches. -/
def execFabricTimerExpiry (t : Fin 64) (s : State) : Ans :=
  s.effect (fun s => if s.active ∧ s.fv F.SHT_TIMER_OWNER t = 3 then s.emit (.fabEvent (s.fv F.SHT_TIMER_TARGET t)) else s)

/-- An output's pulse begins or ends. -/
def State.setPulse (s : State) (o : Fin 16) (v : Bool) : State :=
  ({ s with sht := { s.sht with dout := s.sht.dout.set o { s.sht.dout[o] with pulse := v } } } : State).doutChanges s

/-- OUTPUT_TIMER_EXPIRY: the output that the timer names turns on (R379). -/
def execOutputTimerExpiry (t : Fin 64) (s : State) : Ans :=
  s.effect (fun s =>
    if s.active ∧ s.fv F.SHT_TIMER_OWNER t = 4 then s.setPulse (Fin.ofNat 16 (s.fv F.SHT_TIMER_TARGET t)) true else s)

/-- OUTPUT_PULSE_END. -/
def execOutputPulseEnd (o : Fin 16) (s : State) : Ans := s.effect (fun s => s.setPulse o false)

/-- A write of SHT_TIMERn claims, keeps or releases the timer (R160). -/
def State.writeTimer (s : State) (t : Fin 64) (v : DWord) : State :=
  let owner := s.fv F.SHT_TIMER_OWNER t
  let target := s.fv F.SHT_TIMER_TARGET t
  if wField v F.SHT_TIMER_OWNER = 0 then
    if s.printing ∧ owner = 1 ∧ s.on F.SHT_GRP_ENABLE target then s else s.plainWrite .SHT_TIMER t fullMask v
  else if owner ≠ 0 ∧ (owner ≠ wField v F.SHT_TIMER_OWNER ∨ target ≠ wField v F.SHT_TIMER_TARGET) then
    s.fset F.SHT_TIMER_CLAIM_REJ 1 t
  else s.plainWrite .SHT_TIMER t fullMask v

/-- TIMER_CLAIM. -/
def execTimerClaim (a : Agent) (t : Fin 64) (v : BitVec 32) (s : State) : Ans :=
  s.effect (fun s => s.guarded a .SHT_TIMER t (fun s => s.writeTimer t (v.setWidth 64)))

/-- TIMER_RELEASE. -/
def execTimerRelease (a : Agent) (t : Fin 64) (v : BitVec 32) (s : State) : Ans :=
  s.effect (fun s => s.guarded a .SHT_TIMER t (fun s => s.writeTimer t (v.setWidth 64)))

/-- A write of SHT_GRPn: in Print and Hold only the phases (R159). -/
def State.writeGrp (s : State) (g : Fin 64) (v : DWord) : State :=
  if s.printing then
    (s.fset F.SHT_GRP_PHASE (wField v F.SHT_GRP_PHASE) g).fset F.SHT_GRP_PHASE_REV (wField v F.SHT_GRP_PHASE_REV) g
  else s.plainWrite .SHT_GRP g fullMask v

/-! ## Hold and resume (R155, R162, R163, R348) -/

/-- The lowest slot of the Nozzle Map at fault: a reserved port, a disabled group, or a nozzle of a lower slot (R155). -/
def State.mapFault (s : State) : Option Nat :=
  let r := s.entries.foldl (fun (r : Option Nat × List (Nat × Nat × Nat)) e =>
    let key := (e.port, e.head, e.nozzle)
    match r.1 with
    | some _ => r
    | none =>
      if 24 ≤ e.port ∨ ¬ s.on F.SHT_GRP_ENABLE e.group ∨ r.2.contains key then (some e.slot, r.2) else (none, key :: r.2))
    (none, [])
  r.1

/-- A Developer that drives the print gang is halted by debug (R348). -/
def State.printHalted (s : State) : Bool :=
  (List.finRange 4).any (fun d => s.drivesPrint d && ((s.cores[devCore d]).halted || s.sec.haltPending.getLsbD d.val))

/-- RESUME in Print: the pending requests of cause 0 and 1 are withdrawn; answers the earliest boundary withdrawn. -/
def State.withdrawHolds (s : State) : Nat × State :=
  let out := s.sht.holdReqs.filter (fun r => decide (r.cause ≤ 1))
  let s : State := { s with sht := { s.sht with holdReqs := s.sht.holdReqs.filter (fun r => decide (¬ r.cause ≤ 1)) } }
  let s := s.fset F.SHT_HOLD_REQ 0
  let s := out.foldl (fun s r => match r.cmd with
    | some c => s.completeOpen c stABORTED
    | none => s) s
  (((out.map (fun r => r.b)).min?).getD 0xFFFFFFFF, s)

/-- A RESUME arrives: for each halted Enlarger of the print gang of a job printed from a Reel, whose three attempts are over, firmware
makes one more (R147). -/
def State.refetchAgain (s : State) : State :=
  s.forFin 4 (fun p s =>
    if s.job.isSome ∧ ¬ s.hostFed ∧ s.printPart p ∧ s.on F.ENL_STATUS_HALTED p ∧ 3 ≤ (s.enl[p]).attempts then
      s.emit (.refetch p.val (s.fv F.ENL_STATUS_ERR_LINE p))
    else s)

/-- The register's RESUME: it withdraws in Print, and in Hold ends the Hold or waits for a strip fault to be mended; a check
that would refuse the command leaves it without effect. -/
def State.resumeReg (s : State) : State :=
  let s := s.refetchAgain
  if s.mode = 4 then s.withdrawHolds.2
  else
    match s.sht.held with
    | none => s
    | some h =>
      if s.mapFault.isSome ∨ s.printHalted then s
      else if ¬ s.heldBack h then s.endHold []
      else { s.fset F.SHT_HOLD_RESUME 1 with sht := { s.sht with held := some { h with endWaits := true } } }

/-- A write of SHT_HOLD (R167): ABRUPT and AT_LINE are stored; REQ is registered first, then RESUME acts. -/
def State.writeHold (s : State) (v : DWord) : State :=
  let at_ := wField v F.SHT_HOLD_AT_LINE
  let abrupt := wField v F.SHT_HOLD_ABRUPT
  let s := (s.fset F.SHT_HOLD_ABRUPT abrupt).fset F.SHT_HOLD_AT_LINE at_
  let s :=
    if wField v F.SHT_HOLD_REQ = 0 ∨ ¬ s.printing then s
    else
      match s.sht.held with
      | some h => s.fset F.SHT_HOLD_AT_LINE h.b
      | none => (s.fset F.SHT_HOLD_REQ 1).requestHold at_ 0 none 0 (decide (abrupt = 1)) none
  if wField v F.SHT_HOLD_RESUME = 0 then s else s.resumeReg

/-- HOLD_REQ_WRITE. -/
def execHoldReqWrite (a : Agent) (v : DWord) (s : State) : Ans :=
  s.effect (fun s => s.guarded a .SHT_HOLD 0 (fun s => s.writeHold v))

/-- HOLD_RESUME_WRITE. -/
def execHoldResumeWrite (a : Agent) (v : DWord) (s : State) : Ans :=
  s.effect (fun s => s.guarded a .SHT_HOLD 0 (fun s => s.writeHold v))

/-- HOLD_TIMER_EXPIRY: the Hold ends as if a RESUME had arrived. -/
def execHoldTimerExpiry (s : State) : Ans :=
  s.effect (fun s =>
    match s.sht.held with
    | none => s
    | some h =>
      if h.timer.isNone then s
      else
        let s : State := { s with sht := { s.sht with held := some { h with timer := none } } }
        if s.mapFault.isSome ∨ s.printHalted then s
        else if ¬ s.heldBack h then s.endHold []
        else { s with sht := { s.sht with held := some { h with timer := none, endWaits := true } } })

/-! ## Swaths (R161) -/

/-- The carriage stands before the first position of the present swath in its direction. -/
def State.beforeSwath (s : State) : Bool := decide (s.posIndex s.linepos < 0)

/-- The accepted level of an industrial input; none is active while the field supply is low (R378). -/
def State.dinActive (s : State) (n : Nat) : Bool := s.on F.SHT_DIN_CTL_LEVEL n && !s.pwr.fieldLow

/-- SWATH_ARM: after the last line of a swath has fired, the next one arms. -/
def execSwathArm (s : State) : Ans :=
  s.effect (fun s =>
    match s.job with
    | none => s
    | some j =>
      let k := s.sht.swath.number + 1
      let next : State := { s with sht := { s.sht with high := -1, swath := { number := k, armed := true } } }
      if s.printing ∧ s.scanning ∧ s.swathLen ≠ 0 ∧ k * s.swathLen ≤ j.fired ∧ k * s.swathLen < j.length ∧ next.beforeSwath ∧
          (¬ s.on F.SHT_SWATH_GATE_EN ∨ s.dinActive (s.fv F.SHT_SWATH_GATE_IN)) then next
      else s)

/-! ## Nozzle Map (R154, R155) -/

/-- The modes that write the Nozzle Map. -/
def State.nmapOpen (s : State) : Bool := ([3, 5, 6, 7, 11] : List Nat).contains s.mode

/-- An entry of the Nozzle Map takes a value. -/
def State.setNozzle (s : State) (slot : Nat) (v : BitVec 32) : State :=
  { s with mems := { s.mems with nmap := smSet (fun _ => 0) s.mems.nmap slot v } }

/-- A write of SHT_NMAP_DATA: the entry at IDX, which advances with INC. -/
def State.writeNmap (s : State) (v : DWord) : State :=
  if s.nmapOpen then
    let i := s.fv F.SHT_NMAP_IDX_IDX
    let s := (s.setReg .SHT_NMAP_DATA (v &&& 0xFFFFFFFF)).setNozzle i (v.setWidth 32)
    if s.on F.SHT_NMAP_IDX_INC then s.fset F.SHT_NMAP_IDX_IDX (i + 1) else s
  else s

/-- NOZZLE_MAP_WRITE. -/
def execNozzleMapWrite (a : Agent) (v : BitVec 32) (s : State) : Ans :=
  s.effect (fun s => s.guarded a .SHT_NMAP_DATA 0 (fun s => s.writeNmap (v.setWidth 64)))

end Sys2Proof.Machine
end

