-- ==== Sys2Proof/Machine/HeadPorts.lean ====
section
/-!
DEFINITION. The head ports: GHL frames and their acknowledgement, telemetry, bring-up, failure and pairs of lanes (R168-R184).
-/

namespace Sys2Proof.Machine

/-! ## Lanes (R168, R181-R184) -/

/-- STATE of a lane: 0 DOWN, 1 TRAINING, 2 UP, 3 FAILED. -/
def State.laneState (s : State) (l : Nat) : Nat := s.fv F.HP_LANE_STATUS_STATE l

/-- The other lane of a lane's pair. -/
def sibling (l : Nat) : Nat := if l % 2 = 0 then l + 1 else l - 1

/-- The lane that keeps the sequence number and the window: the even one of a pair. -/
def State.homeOf (s : State) (l : Fin 16) : Fin 16 := Fin.ofNat 16 (s.laneHome l)

/-- The generation is set; 3 acts as 0. -/
def State.laneSet (s : State) (l : Nat) : Bool := decide (s.fv F.HP_LANE_CTL_GEN l = 1 ∨ s.fv F.HP_LANE_CTL_GEN l = 2)

/-- The lane starts TRAINING. -/
def State.startTraining (s : State) (l : Fin 16) : State :=
  ((s.modLane l (fun x => { x with readyRx := 0, readyTx := 0, at_ := 0, blocks := [] })).fset F.HP_LANE_STATUS_STATE 1 l).sendBlocks l
    (.link l 1)

/-- A lane of a pair has failed and is not back: the cause bit of R184. -/
def State.pairsReduced (s : State) : Bool := (List.finRange 16).any (fun l : Fin 16 => s.paired l.val && (s.lanes[l]).broken)

/-- An UP lane fails (R182, R184): FAULT, LINK_REROUTED, the Contact Sheet, and the redundancy flag for a lane of a pair. -/
def State.failLane (s : State) (l : Fin 16) : State :=
  if s.laneState l ≠ 2 then s
  else
    let s := (s.fset F.HP_LANE_STATUS_STATE 3 l).fset F.HP_LANE_STATUS_FAULT 1 l
    let carries := s.paired l && decide (s.laneState (sibling l) = 2)
    let r := 2 ^ 63 + (if carries then 2 ^ 62 else 0) + l.val
    let s := s.raise .linkRerouted r
    let s := s.csMasked 0x14 20 [r] 5
    if s.paired l then (s.modLane l (fun x => { x with broken := true })).redund 5 true else s

/-- A lane comes UP: its SEQ starts at 0, its unacknowledged frames taking the first numbers, unless a sibling that is UP
carries the pair's SEQ on. -/
def State.laneUp (s : State) (l : Fin 16) (heads maxnoz : Nat) : State :=
  let joins := s.paired l && decide (s.laneState (sibling l) = 2)
  let s := s.modLane l (fun x => { x with heads := heads, maxnoz := maxnoz, broken := false })
  let s := if joins then s
    else s.modLane (s.homeOf l) (fun x =>
      { x with
        window := x.window.zipIdx.map (fun f => { f.1 with seq := BitVec.ofNat 8 f.2 }), next := BitVec.ofNat 8 x.window.length,
        timeouts := 0 })
  let s := s.fset F.HP_LANE_STATUS_STATE 2 l
  if s.pairsReduced then s else s.redund 5 false

/-- A write of HP_LANEn_CTL (R168): ignored in Print and Hold; PAIR reads 0 on odd lanes. A new generation restarts the lane. -/
def State.writeLaneCtl (s : State) (l : Fin 16) (v : DWord) : State :=
  if s.printing then s
  else
    let old := s.fv F.HP_LANE_CTL_GEN l
    let s := s.plainWrite .HP_LANE_CTL l fullMask v
    let s := if l.val % 2 = 1 then s.fset F.HP_LANE_CTL_PAIR 0 l else s
    if ¬ s.laneSet l then s.fset F.HP_LANE_STATUS_STATE 0 l
    else if s.fv F.HP_LANE_CTL_GEN l ≠ old ∧ (s.lanes[l]).present then s.startTraining l
    else s

/-- LINK: a valid block is answered with READY; 16 consecutive READY blocks received, and 16 sent, bring the lane UP. -/
def execLink (lane : Fin 16) (st : BitVec 8) (version : BitVec 8) (heads : BitVec 8) (maxnoz : BitVec 16) (s : State) : Ans :=
  s.effect (fun s =>
    let valid := version = 1 ∧ st.toNat ≤ 2 ∧ 1 ≤ heads.toNat ∧ heads.toNat ≤ 64 ∧ 1 ≤ maxnoz.toNat ∧ maxnoz.toNat ≤ 16384
    if s.laneState lane ≠ 1 then s
    else if ¬ valid then s.modLane lane (fun x => { x with readyRx := 0 })
    else
      let s := (s.modLane lane (fun x =>
        { x with readyRx := if st = 2 then x.readyRx + 1 else 0, readyTx := x.readyTx + 1 })).sendBlocks lane (.link lane 2)
      if 16 ≤ (s.lanes[lane]).readyRx ∧ 16 ≤ (s.lanes[lane]).readyTx then s.laneUp lane heads.toNat maxnoz.toNat else s)

/-- IDLE: it gives alignment and holds off the silence timeout, which come as commands of their own. -/
def execIdle (_lane : Fin 16) (s : State) : Ans := s.effect (fun s => s)

/-- SFP_INSERT: TRAINING starts once the generation is set. -/
def execSfpInsert (lane : Fin 16) (rated : Bool) (s : State) : Ans :=
  s.effect (fun s =>
    let s := (s.modLane lane (fun x => { x with present := true, rated := rated })).fset F.HP_LANE_STATUS_PRESENT 1 lane
    if s.active ∧ s.laneSet lane ∧ s.laneState lane ≠ 2 then s.startTraining lane else s)

/-- SFP_REMOVE: removal fails an UP lane, and takes any other DOWN. -/
def execSfpRemove (lane : Fin 16) (s : State) : Ans :=
  s.effect (fun s =>
    let s := (s.modLane lane (fun x => { x with present := false, rated := false })).fset F.HP_LANE_STATUS_PRESENT 0 lane
    if s.laneState lane = 2 then s.failLane lane else s.fset F.HP_LANE_STATUS_STATE 0 lane)

/-- LOSS_OF_SIGNAL. -/
def execLossOfSignal (lane : Fin 16) (s : State) : Ans := s.effect (fun s => s.failLane lane)

/-- LOSS_OF_ALIGNMENT. -/
def execLossOfAlignment (lane : Fin 16) (s : State) : Ans := s.effect (fun s => s.failLane lane)

/-- LINK_SILENCE_TIMEOUT. -/
def execLinkSilenceTimeout (lane : Fin 16) (s : State) : Ans := s.effect (fun s => s.failLane lane)

/-- LANE_RETRAIN: 1 ms after the failure; with no module present the lane is DOWN. -/
def execLaneRetrain (lane : Fin 16) (s : State) : Ans :=
  s.effect (fun s =>
    if s.laneState lane ≠ 3 then s
    else if (s.lanes[lane]).present ∧ s.laneSet lane then s.startTraining lane
    else s.fset F.HP_LANE_STATUS_STATE 0 lane)

/-! ## Frames (R171-R176, R183) -/

/-- The lanes that send for a window: both lanes of a pair, where they are UP. -/
def State.sendersOf (s : State) (home : Fin 16) : List (Fin 16) :=
  (List.finRange 16).filter (fun l : Fin 16 => decide (s.laneHome l.val = home.val) && decide (s.laneState l.val = 2))

/-- A frame goes out on each lane of its window: its drop codes, or STALE = 1 and COUNT = 0. -/
def State.sendFrame (s : State) (home : Fin 16) (f : Frame) (retx : Bool) (codes : List (BitVec 2)) : State :=
  (s.sendersOf home).foldl (fun s l =>
    let s := s.sendBlocks l (.frame l home (if f.stale then { f with count := 0 } else f) retx (if f.stale then [] else codes))
    let s := if f.stale then s.finc F.HP_LANE_STATUS_STALE l else s
    if retx then s.finc F.HP_LANE_STATUS_RETX l else s) s

/-- The frame of the line read from the Reserve, and sent; a line whose reads fail is superseded, and the frame is stale. -/
def State.readAndSend (s : State) (home : Fin 16) (f : Frame) (retx : Bool) : State :=
  match s.job with
  | none => s.sendFrame home { f with stale := true } retx []
  | some j =>
    if f.stale then s.sendFrame home f retx []
    else
      let r := s.frameCodes j f.line home.val f.head f.first f.count
      if r.2.1 then (r.2.2.supersede f.line).sendFrame home { f with stale := true } retx []
      else r.2.2.sendFrame home f retx r.1

/-- The next frame to send: the line and its place, past lines that fire blank and lines whose frames have all gone. -/
def State.nextFrame (s : State) (j : Job) (port line frame : Nat) : Nat × Nat :=
  let n := (s.portFrames port).length
  (List.range (j.claimed - line + 1)).foldl (fun (r : Nat × Nat) _ =>
    if r.1 < j.claimed ∧ (j.missed.contains r.1 ∨ n ≤ r.2) then (r.1 + 1, 0) else r) (line, frame)

/-- FRAME_SEND: the next frame of the claimed lines, in line order, while the window of 8 has room. A frame whose line has
fired on its group goes out stale. -/
def execFrameSend (lane : Fin 16) (s : State) : Ans :=
  s.effect (fun s =>
    let home := s.homeOf lane
    let x := s.lanes[home]
    match s.job with
    | none => s
    | some j =>
      if s.sendersOf home = [] ∨ 8 ≤ x.window.length then s
      else
        let p := s.nextFrame j home.val x.line x.frame
        if j.claimed ≤ p.1 then s.modLane home (fun x => { x with line := p.1, frame := p.2 })
        else
          match (s.portFrames home.val)[p.2]? with
          | none => s
          | some (head, group, first, count) =>
            let fired := decide (p.1 < (j.groups[Fin.ofNat 64 group]).nextFire)
            let f : Frame :=
              { seq := x.next, line := p.1, head := head, group := group, first := first, count := count, sends := 1, stale := fired }
            let s := s.modLane home (fun x =>
              { x with
                next := x.next + 1, window := x.window ++ [f], line := p.1, frame := p.2 + 1,
                sentLines := if x.sentLines.contains p.1 then x.sentLines else x.sentLines ++ [p.1] })
            s.readAndSend home f false)

/-- Resends every unacknowledged frame from sequence number `q`. -/
def State.resendFrom (s : State) (home : Fin 16) (q : BitVec 8) : State :=
  match (s.lanes[home]).window.findIdx? (fun f => decide (f.seq = q)) with
  | none => s
  | some k =>
    let s := s.modLane home (fun x =>
      { x with window := x.window.zipIdx.map (fun f => if k ≤ f.2 then { f.1 with sends := f.1.sends + 1 } else f.1) })
    ((List.range ((s.lanes[home]).window.length - k))).foldl (fun s i =>
      match (s.lanes[home]).window[k + i]? with
      | some f => s.readAndSend home f true
      | none => s) s

/-- ACK: frames up to the named one are retired; a retired number changes nothing. -/
def execAck (lane : Fin 16) (seq : BitVec 8) (s : State) : Ans :=
  s.effect (fun s =>
    let home := s.homeOf lane
    if s.laneState lane ≠ 2 then s
    else
      match (s.lanes[home]).window.findIdx? (fun f => decide (f.seq = seq)) with
      | some k => s.modLane home (fun x => { x with window := x.window.drop (k + 1), timeouts := 0 })
      | none => s)

/-- NAK. -/
def execNak (lane : Fin 16) (seq : BitVec 8) (s : State) : Ans :=
  s.effect (fun s => if s.laneState lane ≠ 2 then s else s.resendFrom (s.homeOf lane) seq)

/-- ACK_TIMEOUT: the oldest frame is resent with those after it; at the eighth in a row the lane fails. -/
def execAckTimeout (lane : Fin 16) (s : State) : Ans :=
  s.effect (fun s =>
    let home := s.homeOf lane
    if s.laneState lane ≠ 2 then s
    else
      match (s.lanes[home]).window with
      | [] => s
      | f :: _ =>
        let s := s.modLane home (fun x => { x with timeouts := x.timeouts + 1 })
        if 8 ≤ (s.lanes[home]).timeouts then (s.modLane home (fun x => { x with timeouts := 0 })).failLane lane
        else s.resendFrom home f.seq)

/-! ## Telemetry (R179, R180) -/

/-- Bytes of the telemetry ring; a SIZE_LOG2 outside 12-20 acts as 12. -/
def State.telSize (s : State) : Nat :=
  let k := s.fv F.HP_TEL_BASE_SIZE_LOG2
  if 12 ≤ k ∧ k ≤ 20 then 2 ^ k else 2 ^ 12

/-- The ring lies within the general region, aligned to its size. -/
def State.telPlaced (s : State) : Bool :=
  let b := s.fv F.HP_TEL_BASE_BASE
  decide (0x1C0_0000 ≤ b ∧ b + s.telSize ≤ 0x200_0000 ∧ b % s.telSize = 0)

/-- A record header; a pad record has TTYPE 0 and LEN 0. -/
def telHeader (lane ttype head len time : Nat) : List Byte :=
  leBytes lane 1 ++ leBytes ttype 1 ++ leBytes head 1 ++ [0] ++ leBytes len 2 ++ [0, 0] ++ leBytes time 6 ++ [0, 0]

/-- The record goes into the ring, after a pad record where it would pass the end, or is dropped. -/
def State.telWrite (s : State) (lane ttype head len : Nat) (payload : List Byte) : State :=
  let size := s.telSize
  let wr := s.fv F.HP_TEL_PTR_WR
  let rd := s.fv F.HP_TEL_PTR_RD
  let body := telHeader lane ttype head len (s.devTime.toNat % 2 ^ 48) ++ payload
  let rec_ := body ++ List.replicate ((16 - body.length % 16) % 16) (0 : Byte)
  let pad := if size - wr < rec_.length then size - wr else 0
  let used := (wr + size - rd) % size
  if ¬ s.on F.HP_TEL_BASE_ENABLE ∨ ¬ s.telPlaced ∨ size < rec_.length + 16 ∨ size ≤ used + pad + rec_.length then
    s.finc F.HP_TEL_RING_DROP
  else
    let base := 0x20_0000_0000 + s.fv F.HP_TEL_BASE_BASE
    let s := if pad = 0 then s
      else s.dmaWrite 20 (base + wr) (telHeader lane 0 head 0 (s.devTime.toNat % 2 ^ 48))
    let at_ := if pad = 0 then wr else 0
    (s.dmaWrite 20 (base + at_) rec_).fset F.HP_TEL_PTR_WR ((at_ + rec_.length) % size)

/-- The blocks of a telemetry frame before its EOF (R170, R179). -/
def telBlocks (ttype head : BitVec 8) (len : Nat) (payload : List Byte) : List Block :=
  { ctl := true, bytes := [0x99, ttype, head, 0] ++ leBytes len 2 ++ [0, 0] } :: [{ ctl := false, bytes := payload }]

/-- TSOF: a telemetry frame with the CRC of its EOF: discarded and counted where R179 says so, otherwise written to the ring. -/
def execTsof (lane : Fin 16) (ttype : BitVec 8) (head : BitVec 8) (len : Nat) (crc : BitVec 32) (payload : List Byte) (s : State) : Ans :=
  s.effect (fun s =>
    let named := s.entries.any (fun e => decide (e.port = s.laneHome lane ∧ e.head = head.toNat))
    let sense := ttype = 2 ∧ len ≠ ((s.lanes[lane]).maxnoz + 63) / 64
    let crcOk := decide (crc32c (crcCovers (telBlocks ttype head len payload)) = crc.toNat)
    if s.laneState lane ≠ 2 then s
    else
      let s := if crcOk then s else s.finc F.HP_LANE_STATUS_CRC_ERR lane
      if ¬ crcOk ∨ ¬ named ∨ 1024 < len ∨ len = 0 ∨ sense ∨ ttype = 0 ∨ 4 < ttype.toNat then s.finc F.HP_LANE_STATUS_TEL_BAD lane
      else
        let s := if ttype = 1 then s.fset F.HP_LANE_STATUS_TEL_STALE 0 lane else s
        s.telWrite lane ttype.toNat head.toNat len payload)

/-- What a lane can receive (R170): the operands of IDLE, LINK, ACK, NAK and TSOF. -/
inductive LaneIn where
  | idle
  | link (st version heads : BitVec 8) (maxnoz : BitVec 16)
  | ack (seq : BitVec 8)
  | nak (seq : BitVec 8)
  | tsof (ttype head : BitVec 8) (len : Nat) (crc : BitVec 32) (payload : List Byte)
deriving DecidableEq, Repr

/-- What the blocks received on a lane spell (R170): a control block of another TYPE, or one that the table gives the other direction,
is discarded. -/
def received (blocks : List Block) : Option LaneIn :=
  match blocks with
  | [] => none
  | b :: rest =>
    let byte (i : Nat) : Byte := b.bytes.getD i 0
    if ¬ b.ctl then none
    else if byte 0 = 0x1E then some .idle
    else if byte 0 = 0x33 then some (.link (byte 1) (byte 2) (byte 3) (byte 5 ++ byte 4))
    else if byte 0 = 0x55 then some (.ack (byte 1))
    else if byte 0 = 0x66 then some (.nak (byte 1))
    else if byte 0 = 0x99 then
      match rest.getLast? with
      | some e =>
        if e.ctl ∧ e.bytes.getD 0 0 = 0x87 ∧ rest.dropLast.all (fun x => !x.ctl) then
          some (.tsof (byte 1) (byte 2) (leNat [byte 4, byte 5]) (BitVec.ofNat 32 (leNat (e.bytes.drop 4)))
            (rest.dropLast.flatMap (fun x => x.bytes)))
        else none
      | none => none
    else none

/-- TEL_STALE: no STATUS frame within TEL_TO. -/
def execTelStale (lane : Fin 16) (s : State) : Ans :=
  s.effect (fun s => if s.fv F.HP_LANE_CTL_TEL_TO lane ≠ 0 then s.fset F.HP_LANE_STATUS_TEL_STALE 1 lane else s)

/-- A write of HP_TEL_PTR: RD moves forward within the records; any other value is ignored and counted. -/
def State.writeTelRd (s : State) (v : DWord) : State :=
  let size := s.telSize
  let wr := s.fv F.HP_TEL_PTR_WR
  let rd := s.fv F.HP_TEL_PTR_RD
  let x := wField v F.HP_TEL_PTR_RD
  if x < size ∧ x % 16 = 0 ∧ (x + size - rd) % size ≤ (wr + size - rd) % size then s.fset F.HP_TEL_PTR_RD x else s.badAccess

/-- TEL_RD_WRITE. -/
def execTelRdWrite (a : Agent) (v : DWord) (s : State) : Ans :=
  s.effect (fun s => s.guarded a .HP_TEL_PTR 0 (fun s => s.writeTelRd v))

/-- A write of HP_TEL_BASE: BASE and SIZE_LOG2 keep their values while ENABLE is 1; with ENABLE = 0 the pointers read 0. -/
def State.writeTelBase (s : State) (v : DWord) : State :=
  let en := wField v F.HP_TEL_BASE_ENABLE
  let s := if s.on F.HP_TEL_BASE_ENABLE then s.fset F.HP_TEL_BASE_ENABLE en else s.plainWrite .HP_TEL_BASE 0 fullMask v
  if en = 0 then s.setReg .HP_TEL_PTR 0 else s

end Sys2Proof.Machine
end

