-- ==== Sys2Proof/Machine/Fabric.lean ====
section
/-!
DEFINITION. The Adaptation Fabric: what a cell does in one cycle of its region, the MAC slices, region exchange, and the pins
shared with the Loupe (R186-R196).
-/

namespace Sys2Proof.Machine

/-! ## Configuration -/

def Region.cell (r : Region) (c : Nat) : CellSt := smGet (fun _ => {}) r.cells c
def Region.setCell (r : Region) (c : Nat) (x : CellSt) : Region := { r with cells := smSet (fun _ => {}) r.cells c x }
def Region.mac (r : Region) (m : Nat) : MacSt := smGet (fun _ => {}) r.macs m
def Region.setMac (r : Region) (m : Nat) (x : MacSt) : Region := { r with macs := smSet (fun _ => {}) r.macs m x }

/-- A cell's configuration in an image. -/
def imCell (im : RegionImage) (c : Nat) : Option CellConf :=
  (im.cells.find? (fun e => decide (e.1.val = c))).map (fun e => e.2)

/-- A MAC slice's settings; one the image leaves out is unsigned with no shift and no cascade. -/
def imMac (im : RegionImage) (m : Nat) : MacConf :=
  match im.macs.find? (fun e => decide (e.1.val = m)) with
  | some e => e.2
  | none => { signed := false, shift := 0, cascade := false, retain := false }

/-! ## Routing (R189) -/

/-- The newest value a cell's OUT took in a cycle that lies `k` or more before cycle `t`. -/
def seenOut (x : CellSt) (t k : Nat) : BitVec 16 :=
  match x.hist.find? (fun e => decide (e.1 + k ≤ t)) with
  | some e => e.2
  | none => 0

/-- The value on a cluster track of a region, `k` cycles old at cycle `t`; an undriven track reads 0. -/
def Region.track (r : Region) (track t k : Nat) : BitVec 16 :=
  match r.active.bind (fun im => im.clusterTracks.find? (fun e => decide (e.1.val = track))) with
  | some e => seenOut (r.cell (16 * (track / 4) + e.2.val)) t k
  | none => 0

/-- The value on a global track: the region that drives it is read at its own present cycle. -/
def State.globalTrack (s : State) (reader : Fin 16) (track t : Nat) : BitVec 16 :=
  let r : Fin 16 := Fin.ofNat 16 (track / 4)
  match (s.fab[r]).active.bind (fun im => im.globalTracks.find? (fun e => decide (e.1.val = track % 4))) with
  | some e => (s.fab[r]).track e.2 (if r = reader then t else (s.fab[r]).now) 3
  | none => 0

/-- The output of a MAC slice that a cell reads in cycle `t`: rounded, shifted and saturated, 3 cycles after its MACW (R190). -/
def Region.macOut (r : Region) (im : RegionImage) (m t : Nat) : BitVec 16 :=
  let c := imMac im m
  let acc : BitVec 48 := match (r.mac m).hist.find? (fun e => decide (e.1 + 3 ≤ t)) with
    | some e => e.2
    | none => 0
  let v : Int := if c.signed then acc.toInt else acc.toNat
  let x := if c.shift = 0 then v else (v + 2 ^ (c.shift.val - 1)).fdiv (2 ^ c.shift.val)
  if c.signed then BitVec.ofInt 16 (Max.max (-32768) (Min.min 32767 x)) else BitVec.ofInt 16 (Min.min 65535 x)

/-! ## Sources (R187) -/

/-- The MODE and PULL of a port's pin; one that the image leaves out is an input without a pull. -/
def Region.pinConf (r : Region) (i : Nat) : PinConf :=
  ((r.active.bind (fun im => im.pins.find? (fun e => decide (e.1.val = i)))).map (fun e => e.2)).getD
    { mode := 0, pull := 0, drive := 0, slew := 0, schmitt := false }

/-- What the I/O-facing cells put on a port's pins. -/
def Region.pinOut (r : Region) : BitVec 20 := ((r.cell 1).out.setWidth 4) ++ (r.cell 0).out

/-- The fabric drives the port's pin: the output is enabled in an output MODE, and the pins shared with the Loupe are its own and
not between owners (R191, R195). -/
def State.pinDriven (s : State) (rg : Fin 16) (i : Nat) : Bool :=
  let r := s.fab[rg]
  let mode := (r.pinConf i).mode
  (decide (mode = 1) || decide (mode = 2)) && r.pinOe.getLsbD (if mode = 2 then i / 2 * 2 else i) &&
    !(decide (rg = 7 ∧ i < 16) && (s.handover || decide (s.fv F.FAB_PIN_OWNER_OWNER ≠ 1)))

/-- The bits of the pins that the fabric drives. -/
def State.drivenPins (s : State) (rg : Fin 16) : BitVec 20 := BitVec.ofFnLE (fun i : Fin 20 => s.pinDriven rg i.val)

/-- The level of a port's pin as the region reads it. The even pin of an LVDS pair carries its bit, and the odd one's is ignored. A pin
that the fabric does not drive shows what its keeper holds or its pull gives where it is an output, and otherwise what stands outside, a
free value (R191). -/
def State.pinLevel (s : State) (rg : Fin 16) (i : Nat) : Bool :=
  let r := s.fab[rg]
  let c := r.pinConf i
  if 2 ≤ c.mode.val ∧ i % 2 = 1 then false
  else if s.pinDriven rg i then r.pinOut.getLsbD i
  else if c.mode.val = 1 ∧ c.pull.val = 3 then r.pinHeld.getLsbD i
  else if c.mode.val = 1 ∧ c.pull.val = 1 then true
  else if c.mode.val = 1 ∧ c.pull.val = 2 then false
  else (s.free_ 20).getLsbD i

/-- The pins that a region's I/O-facing cell reads. While the Loupe owns its shared pins region 7 reads 0 from them (R191, R195). -/
def State.pinRead (s : State) (rg : Fin 16) (c : Nat) : BitVec 16 :=
  if 8 ≤ rg.val then 0
  else if c = 0 then
    if rg = 7 ∧ s.fv F.FAB_PIN_OWNER_OWNER = 2 then 0 else BitVec.ofFnLE (fun i : Fin 16 => s.pinLevel rg i.val)
  else if c = 1 then BitVec.ofFnLE (fun i : Fin 16 => decide (i.val < 4) && s.pinLevel rg (16 + i.val))
  else 0

/-- What the fabric drives on a port's pins changes: the pins keep the levels they were last driven to, and the connector shows the
change. -/
def State.drivePins (s old : State) (rg : Fin 16) : State :=
  let d := s.drivenPins rg
  let level := d &&& (s.fab[rg]).pinOut
  let s := s.modFab rg (fun r => { r with pinHeld := level ||| (r.pinHeld &&& ~~~d) })
  if 8 ≤ rg.val ∨ (d = old.drivenPins rg ∧ level = old.drivenPins rg &&& (old.fab[rg]).pinOut) then s else s.emit (.pins rg d level)

/-- A source of a cell in its present cycle. With no head-stream word the spec gives HS no value: a free one. -/
def State.fabSource (s : State) (rg : Fin 16) (c : Nat) (im : RegionImage) (conf : CellConf) (x : CellSt) (imm : BitVec 16)
    (sel : Nat) : BitVec 16 :=
  let r := s.fab[rg]
  let t := x.cyc
  match sel with
  | 0 => x.da
  | 1 => x.db
  | 2 => x.out
  | 3 => imm
  | 8 => r.track conf.c0 t 2
  | 9 => r.track conf.c1 t 2
  | 10 => s.globalTrack rg conf.gs t
  | 11 => r.macOut im conf.mac t
  | 12 => s.pinRead rg c
  | 13 =>
    if c = 2 then
      match r.hs with
      | w :: _ => w.1
      | [] => s.free_ 16
    else 0
  | 14 => if r.fiAt = t then r.fi else 0
  | 15 =>
    let hs (p : BitVec 16 × Bool → Bool) : Bool := decide (c = 2) && r.hs.head?.any p
    BitVec.ofNat 16 ((if x.fl then 1 else 0) + (if hs (fun _ => true) then 2 else 0) + (if hs (fun w => w.2) then 4 else 0))
  | k =>
    if 4 ≤ k ∧ k ≤ 7 then
      -- cells of a block are 16 in a row
      seenOut (r.cell (c / 16 * 16 + (conf.l.getD (k - 4) 0).val)) t 1
    else 0

/-! ## One cycle (R187, R188) -/

/-- What an operation answers: its result, its flag, and the entry pointer of a taken SKIP. -/
structure FabRes where
  val : Option (BitVec 16)
  flag : Bool
  jump : Option Nat := none
  h : Option (BitVec 16) := none

/-- An instruction entry holds an operation with the fields given (R187): OP, SA, SB, DST, SETF and IMM. -/
def entryIs (w : BitVec 32) (op : Nat) (o : CellOp) : Bool :=
  decide (w.toNat / 2 ^ 27 = op ∧ w.toNat / 2 ^ 23 % 16 = o.sa.val ∧ w.toNat / 2 ^ 19 % 16 = o.sb.val ∧ w.toNat / 2 ^ 17 % 4 = o.dst.val) &&
    (w.getLsbD 16 == o.setf) && decide (w.setWidth 16 = o.imm)

/-- A cell of a running region executes one entry: sources are sampled, destinations are written at the end, and EP moves on
(R187). The entry is the one that EP names in the active image: a cell whose entry is another does not execute this one. A region that
has stopped or holds no configuration executes nothing. -/
def State.fabCycle (s : State) (op : Nat) (o : CellOp) (f : CellSt → BitVec 16 → BitVec 16 → FabRes) (after : BitVec 16 → BitVec 16 → State → State) :
    State :=
  let r := s.fab[o.region]
  match r.active with
  | none => s
  | some im =>
    match imCell im o.cell with
    | none => s
    | some conf =>
      let x := r.cell o.cell
      if r.stopped ∨ conf.len = 0 ∨ ¬ entryIs (conf.entries.getD x.ep 0) op o then s
      else
        let a := s.fabSource o.region o.cell im conf x o.imm o.sa
        let b := s.fabSource o.region o.cell im conf x o.imm o.sb
        let y := f x a b
        let out := match y.val with
          | some v => if o.dst = 3 then v else x.out
          | none => x.out
        let x' : CellSt :=
          { x with
            da := match y.val with
              | some v => if o.dst = 1 then v else x.da
              | none => x.da,
            db := match y.val with
              | some v => if o.dst = 2 then v else x.db
              | none => x.db,
            out := out, fl := if o.setf then y.flag else x.fl, h := y.h.getD x.h,
            ep := match y.jump with
              | some e => e
              | none => (x.ep + 1) % conf.len.val,
            cyc := x.cyc + 1, hist := ((x.cyc, out) :: x.hist).take 8 }
        (after a b (s.used.modFab o.region (fun r => r.setCell o.cell x'))).drivePins s o.region

/-- An operation on the two sources alone. -/
def State.fabOp (s : State) (op : Nat) (o : CellOp) (f : BitVec 16 → BitVec 16 → BitVec 16 × Bool) : Ans :=
  s.effect (fun s => s.fabCycle op o (fun _ a b => { val := some (f a b).1, flag := (f a b).2 }) (fun _ _ s => s))

/-- FAB_PASS. -/
def execFabPass (c : CellOp) (s : State) : Ans := s.fabOp 0 c (fun a _ => (a, decide (a ≠ 0)))

/-- FAB_ADD. -/
def execFabAdd (c : CellOp) (s : State) : Ans := s.fabOp 1 c (fun a b => (a + b, decide (2 ^ 16 ≤ a.toNat + b.toNat)))

/-- FAB_SUB. -/
def execFabSub (c : CellOp) (s : State) : Ans := s.fabOp 2 c (fun a b => (a - b, decide (b.toNat ≤ a.toNat)))

/-- FAB_AND. -/
def execFabAnd (c : CellOp) (s : State) : Ans := s.fabOp 3 c (fun a b => (a &&& b, decide (a &&& b ≠ 0)))

/-- FAB_OR. -/
def execFabOr (c : CellOp) (s : State) : Ans := s.fabOp 4 c (fun a b => (a ||| b, decide (a ||| b ≠ 0)))

/-- FAB_XOR. -/
def execFabXor (c : CellOp) (s : State) : Ans := s.fabOp 5 c (fun a b => (a ^^^ b, decide (a ^^^ b ≠ 0)))

/-- FAB_ANDN. -/
def execFabAndn (c : CellOp) (s : State) : Ans := s.fabOp 6 c (fun a b => (a &&& ~~~b, decide (a &&& ~~~b ≠ 0)))

/-- Shift counts. -/
def shiftBy (b : BitVec 16) : Nat := b.toNat % 16

/-- The flag of a shift by 0, which moves no bit out: a free value. -/
def State.noBitOut (s : State) : Bool := decide (s.free_ 1 = 1)

/-- FAB_SHL. -/
def execFabShl (c : CellOp) (s : State) : Ans :=
  s.fabOp 7 c (fun a b =>
    let k := shiftBy b
    (a <<< k, if k = 0 then s.noBitOut else a.getLsbD (16 - k)))

/-- FAB_SHR. -/
def execFabShr (c : CellOp) (s : State) : Ans :=
  s.fabOp 8 c (fun a b =>
    let k := shiftBy b
    (a >>> k, if k = 0 then s.noBitOut else a.getLsbD (k - 1)))

/-- FAB_SAR. -/
def execFabSar (c : CellOp) (s : State) : Ans :=
  s.fabOp 9 c (fun a b =>
    let k := shiftBy b
    (a.sshiftRight k, if k = 0 then s.noBitOut else a.getLsbD (k - 1)))

/-- FAB_ROT: the spec does not name the direction (log 39). -/
def execFabRot (c : CellOp) (s : State) : Ans :=
  s.fabOp 10 c (fun a b =>
    let k := shiftBy b
    if Config.rotateLeft then (a.rotateLeft k, if k = 0 then s.noBitOut else a.getLsbD (16 - k))
    else (a.rotateRight k, if k = 0 then s.noBitOut else a.getLsbD (k - 1)))

/-- FAB_MUX. -/
def execFabMux (c : CellOp) (s : State) : Ans :=
  s.effect (fun s => s.fabCycle 11 c (fun x a b => { val := some (if x.fl then a else b), flag := x.fl }) (fun _ _ s => s))

/-- FAB_LTU. -/
def execFabLtu (c : CellOp) (s : State) : Ans := s.fabOp 12 c (fun a b => (a, decide (a.toNat < b.toNat)))

/-- FAB_EQ. -/
def execFabEq (c : CellOp) (s : State) : Ans := s.fabOp 13 c (fun a b => (a, decide (a = b)))

/-- FAB_MIN. -/
def execFabMin (c : CellOp) (s : State) : Ans :=
  s.fabOp 14 c (fun a b => (if a.toNat < b.toNat then a else b, decide (a.toNat < b.toNat)))

/-- FAB_MAX. -/
def execFabMax (c : CellOp) (s : State) : Ans :=
  s.fabOp 15 c (fun a b => (if a.toNat < b.toNat then b else a, decide (a.toNat < b.toNat)))

/-- FAB_CNT. -/
def execFabCnt (c : CellOp) (s : State) : Ans :=
  s.fabOp 16 c (fun a _ => (if a = c.imm then 0 else a + 1, decide (a = c.imm)))

/-- FAB_EDGE: IMM[1:0] of 3 names no edge, so its result is open. -/
def execFabEdge (c : CellOp) (s : State) : Ans :=
  s.effect (fun s => s.fabCycle 17 c (fun x a _ =>
    let k := c.imm.toNat % 4
    let e : BitVec 16 :=
      if k = 0 then a &&& ~~~x.h else if k = 1 then x.h &&& ~~~a else if k = 2 then a ^^^ x.h else s.free_ 16
    { val := some e, flag := decide (e ≠ 0), h := some a }) (fun _ _ s => s))

/-- FAB_BIT. -/
def execFabBit (c : CellOp) (s : State) : Ans :=
  s.fabOp 18 c (fun a b => ((a >>> shiftBy b) &&& 1, a.getLsbD (shiftBy b)))

/-- Words of a Gen A run after its first (R186): 2 for KIND 1 and 2, otherwise 4 and one for each eight nozzles. -/
def runLeft (hs : List (BitVec 16 × Bool)) : Nat :=
  match hs with
  | w0 :: _ =>
    if w0.1.toNat / 2 ^ 14 = 0 then 4 + (((hs.getD 4 (0, false)).1.toNat + 7) / 8) else 2
  | [] => 0

/-- The head stream moves on by a word. -/
def Region.popHs (r : Region) : Region :=
  { r with run := if r.run = 0 then runLeft r.hs else r.run - 1, hs := r.hs.drop 1 }

/-- FAB_HSPOP: the region's cell 2 consumes the head-stream word. -/
def execFabHspop (c : CellOp) (s : State) : Ans :=
  s.effect (fun s =>
    let r := s.fab[c.region]
    let w : Option (BitVec 16) := if c.cell = 2 then r.hs.head?.map (fun w => w.1) else none
    s.fabCycle 19 c (fun _ _ _ => { val := some (w.getD (s.free_ 16)), flag := w.isSome })
      (fun _ _ s => if w.isSome then s.modFab c.region Region.popHs else s))

/-- The accumulator of a slice as it stood at the start of cycle `t`. -/
def MacSt.before (m : MacSt) (t : Nat) : BitVec 48 := ((m.hist.find? (fun e => decide (e.1 < t))).map (fun e => e.2)).getD 0

/-- The accumulator that a slice's cascade brings in, as it stood at the start of the cycle: that of the slice before it, in this cluster
or the one before. A chain that fills the cluster before and goes on behind it would cross two boundaries, and brings in nothing
(R190; log 128). -/
def State.cascadeIn (s : State) (rg : Fin 16) (m t : Nat) : BitVec 48 :=
  if m ≠ 0 then ((s.fab[rg]).mac (m - 1)).before t
  else if rg.val = 0 then 0
  else
    let p : Fin 16 := Fin.ofNat 16 (rg.val - 1)
    let full := (s.fab[p]).active.any (fun im => (List.range 4).all (fun k => (imMac im k).cascade))
    if full then 0 else ((s.fab[p]).mac 3).before ((s.fab[p]).now)

/-- FAB_MACW: slice IMM[3:2] takes the sources. IMM[0] clears its accumulator, and with IMM[1] the product and the cascade are
accumulated (R188, R190; log 125). -/
def execFabMacw (c : CellOp) (s : State) : Ans :=
  s.effect (fun s =>
    let m := c.imm.toNat / 4 % 4
    s.fabCycle 20 c (fun _ a _ => { val := some a, flag := decide (a ≠ 0) }) (fun a b t =>
      match (s.fab[c.region]).active with
      | none => t
      | some im =>
        let cf := imMac im m
        let ext (v : BitVec 16) : Int := if cf.signed then v.toInt else v.toNat
        let at_ := ((s.fab[c.region]).cell c.cell).cyc
        let cin := if cf.cascade then s.cascadeIn c.region m at_ else 0
        let old := ((s.fab[c.region]).mac m)
        let kept := if c.imm.getLsbD 0 then 0 else old.acc
        let acc : BitVec 48 := if c.imm.getLsbD 1 then kept + BitVec.ofInt 48 (ext a * ext b) + cin else kept
        t.modFab c.region (fun r => r.setMac m { acc := acc, hist := ((at_, acc) :: old.hist).take 8 })))

/-- FAB_SKIP: with FL = 1 EP takes IMM[2:0] in place of the advance; it has no result and no flag. -/
def execFabSkip (c : CellOp) (s : State) : Ans :=
  s.effect (fun s => s.fabCycle 21 c (fun x _ _ =>
    { val := none, flag := x.fl, jump := if x.fl then some (c.imm.toNat % 8) else none }) (fun _ _ s => s))

/-- FAB_IOOE: the output enables of the cell's pins (I/O-facing cells only). -/
def execFabIooe (c : CellOp) (s : State) : Ans :=
  s.effect (fun s => s.fabCycle 22 c (fun _ a _ => { val := some a, flag := decide (a ≠ 0) }) (fun a _ s =>
    if 8 ≤ c.region.val then s
    else if c.cell = 0 then
      s.modFab c.region (fun r => { r with pinOe := (r.pinOe &&& 0xF0000) ||| a.setWidth 20 })
    else if c.cell = 1 then
      s.modFab c.region (fun r => { r with pinOe := (r.pinOe &&& 0xFFFF) ||| ((a &&& 0xF).setWidth 20 <<< 16) })
    else s))

/-! ## Images and exchange (R192-R194) -/

/-- The image holds a reserved encoding: OP 23-31 (R188, R193). -/
def imReserved (im : RegionImage) : Bool :=
  im.cells.any (fun e => e.2.entries.any (fun w => decide (23 ≤ w.toNat / 2 ^ 27)) || decide (e.2.len = 0))

/-- The image configures pins 0-15 of the port. -/
def imLowPins (im : RegionImage) : Bool := im.pins.any (fun e => decide (e.1.val < 16))

/-- The module refuses the image for a region (R193). -/
def State.imageRefused (s : State) (r : Fin 16) (im : RegionImage) : Bool :=
  decide (im.region ≠ r) || imReserved im || (decide (r = 7) && imLowPins im && decide (s.fv F.FAB_PIN_OWNER_OWNER = 2))

/-- A verified image waits in the region's shadow. -/
def State.setShadow (s : State) (r : Fin 16) (im : RegionImage) : State :=
  (s.modFab r (fun x => { x with shadow := some im })).fset F.FAB_REGION_CTL_SHADOW_OK 1 r

/-- A cell under a new configuration: its RETAIN registers keep their values, and EP is 0. Its history starts with OUT, which
every selector sees from the first cycle, numbered 3. -/
def freshCell (conf : CellConf) (x : CellSt) : CellSt :=
  let out := if conf.retOUT then x.out else conf.initOUT
  { da := if conf.retDA then x.da else conf.initDA, db := if conf.retDB then x.db else conf.initDB, out := out,
    h := if conf.retH then x.h else conf.initH, fl := x.fl, ep := 0, cyc := 3, hist := [(0, out)] }

/-- The entry with which a cell detects edges, if it has one. -/
def edgeEntry (conf : CellConf) : Option (BitVec 32) :=
  (conf.entries.take conf.len).find? (fun w => decide (w.toNat / 2 ^ 27 = 17))

/-- The exchange of R194: the shadow becomes the active configuration; retained registers keep their values, H of the others
takes the present value of the cell's EDGE source, and an FI pulse that fell in its cycles shows in the first cycle after it. -/
def State.exchange (s : State) (r : Fin 16) (fiPulse : Option (BitVec 16)) : State :=
  match (s.fab[r]).shadow with
  | none => s
  | some im =>
    let old := s
    -- a pulse not yet presented falls in the exchange too
    let fiPulse := if fiPulse.isNone ∧ (s.fab[r]).fi ≠ 0 ∧ (s.fab[r]).now ≤ (s.fab[r]).fiAt then some (s.fab[r]).fi else fiPulse
    let s := s.modFab r (fun x =>
      { x with
        active := some im, shadow := none, stopped := false,
        cells := im.cells.foldl (fun (cs : SMap CellSt) e => smSet (fun _ => {}) cs e.1.val (freshCell e.2 (x.cell e.1.val))) [],
        macs := (List.range 4).foldl (fun (ms : SMap MacSt) m =>
          if (imMac im m).retain then smSet (fun _ => {}) ms m { acc := (x.mac m).acc, hist := [(0, (x.mac m).acc)] } else ms) [],
        fi := fiPulse.getD 0, fiAt := if fiPulse.isSome then 3 else 0 })
    let s := im.cells.foldl (fun s e =>
      match edgeEntry e.2 with
      | some w =>
        if e.2.retH then s
        else
          let x := (s.fab[r]).cell e.1
          let h := s.fabSource r e.1 im e.2 x (w.setWidth 16) (w.toNat / 2 ^ 23 % 16)
          s.used.modFab r (fun g => g.setCell e.1 { x with h := h })
      | none => s) s
    let s := ((s.fset F.FAB_REGION_CTL_SHADOW_OK 0 r).fset F.FAB_REGION_CTL_SWAP 0 r).drivePins old r
    if fiPulse.isSome then s.finc F.FAB_REGION_CTL_FI_LATE r else s

/-- A write of FAB_REGIONn_CTL: SWAP is ignored while SHADOW_OK is 0, and exchanges at once with IMMED. -/
def State.writeRegion (s : State) (r : Fin 16) (v : DWord) : State :=
  let swap := decide (wField v F.FAB_REGION_CTL_SWAP = 1) && s.on F.FAB_REGION_CTL_SHADOW_OK r
  let s := s.plainWrite .FAB_REGION_CTL r fullMask (setBits v 1 1 0)
  if ¬ swap then s
  else if s.on F.FAB_REGION_CTL_IMMED r then s.exchange r none
  else s.fset F.FAB_REGION_CTL_SWAP 1 r

/-- REGION_SWAP_REQUEST. -/
def execRegionSwapRequest (a : Agent) (r : Fin 16) (v : DWord) (s : State) : Ans :=
  s.effect (fun s => s.guarded a .FAB_REGION_CTL r (fun s => s.writeRegion r v))

/-- The switch point of line `n` (R194): the port engine holds the first word of a run of that line or a later one; a camera
region's line has started its slot. -/
def State.switchPoint (s : State) (r : Fin 16) (n : Nat) : Bool :=
  if r.val < 8 then
    let x := s.fab[r]
    match x.hs with
    | _ :: w1 :: w2 :: _ => decide (x.run = 0) && decide (n ≤ w1.1.toNat + w2.1.toNat * 2 ^ 16)
    | _ => false
  else
    match s.job with
    | some j => decide (n < j.nextSlot)
    | none => false

/-- REGION_EXCHANGE: the requested exchange at AT_LINE. -/
def execRegionExchange (r : Fin 16) (fiPulse : Option (BitVec 16)) (s : State) : Ans :=
  s.effect (fun s =>
    if s.on F.FAB_REGION_CTL_SWAP r ∧ s.switchPoint r (s.fv F.FAB_REGION_CTL_AT_LINE r) then s.exchange r fiPulse else s)

/-! ## Shared pins (R195) -/

/-- The pins change owner: they are undriven until the handover ends. -/
def State.setPinOwner (s : State) (o : Nat) : State :=
  if s.fv F.FAB_PIN_OWNER_OWNER = o then s
  else ({ s.fset F.FAB_PIN_OWNER_OWNER o with handover := true } : State).drivePins s 7

/-- A claim by owner `o`; the flag says that it was refused. -/
def State.claimPins (s : State) (o : Nat) : Bool × State :=
  let now := s.fv F.FAB_PIN_OWNER_OWNER
  if now ≠ 0 ∧ now ≠ o then (true, s.fset F.FAB_PIN_OWNER_CLAIM_REJ 1) else (false, s.setPinOwner o)

/-- A write of FAB_PIN_OWNER; OWNER = 3 is ignored. -/
def State.writePins (s : State) (v : DWord) : State :=
  let o := wField v F.FAB_PIN_OWNER_OWNER
  let s := if wField v F.FAB_PIN_OWNER_CLAIM_REJ = 1 then s.fset F.FAB_PIN_OWNER_CLAIM_REJ 0 else s
  match o with
  | 0 => s.setPinOwner 0
  | 3 => s
  | _ => (s.claimPins o).2

/-- PIN_OWNER_CLAIM. -/
def execPinOwnerClaim (a : Agent) (v : BitVec 32) (s : State) : Ans :=
  s.effect (fun s => s.guarded a .FAB_PIN_OWNER 0 (fun s => s.writePins (v.setWidth 64)))

/-- PIN_OWNER_RELEASE. -/
def execPinOwnerRelease (a : Agent) (v : BitVec 32) (s : State) : Ans :=
  s.effect (fun s => s.guarded a .FAB_PIN_OWNER 0 (fun s => s.writePins (v.setWidth 64)))

/-- The handover ends: the pins take the new owner's configuration. -/
def State.endHandover (s : State) : State := ({ s with handover := false } : State).drivePins s 7

end Sys2Proof.Machine
end

