-- ==== Sys2Proof/Machine/Camera.lean ====
section
/-!
DEFINITION. The camera loop: triggers, the correction and the ring of camera lines, the mover, and the request of a bank swap
(R197-R202, R206, R207).
-/

namespace Sys2Proof.Machine

/-- The line tick most recently made (R158). -/
def State.lastTick (s : State) : Int := s.tickBase + s.sht.high

/-- CAMERA_TRIGGER: a timer that a camera trigger owns expires. -/
def execCameraTrigger (t : Fin 64) (s : State) : Ans :=
  s.effect (fun s =>
    let c : Fin 4 := Fin.ofNat 4 (s.fv F.SHT_TIMER_TARGET t)
    if s.active ∧ s.fv F.SHT_TIMER_OWNER t = 2 ∧ s.fv F.CAM_CAM_CFG_TRIG c = 0 then s.triggerCam c s.lastTick else s)

/-! ## Correction (R200) -/

/-- The word of the correction memory for a pixel: 65,536 entries a camera, 16,384 a plane. -/
def corrWord (cam : Fin 4) (q p : Nat) : Nat := cam * 65536 + q % 4 * 16384 + p % 16384

/-- A corrected pixel, or none for a dead one: DARK lies in bits [15:0] of its word and GAIN in [31:16] (log 40). -/
def State.corrected (s : State) (cam : Fin 4) (q p : Nat) (raw : BitVec 16) : Option (BitVec 16) :=
  let w := corrWord cam q p
  let v := (s.cell 16 w).data 16 w
  let dark := v.toNat % 2 ^ 16
  let gain := v.toNat / 2 ^ 16 % 2 ^ 16
  if gain = 0 then none
  else some (BitVec.ofNat 16 (Nat.min 65535 (((raw.toNat - dark) * gain + 2 ^ 13) / 2 ^ 14)))

/-- The value that stands for a dead pixel: its nearer live neighbour, the left one on a tie; where no pixel lives, open. -/
def nearestLive (vs : List (Option (BitVec 16))) (p : Nat) (open_ : BitVec 16) : BitVec 16 :=
  ((List.range (vs.length + 1)).findSome? (fun d =>
    match (if d ≤ p then vs.getD (p - d) none else none) with
    | some v => some v
    | none => vs.getD (p + d) none)).getD open_

/-- Bits of a pixel of a plane in the camera's FMT (R197, R214); the two reserved codes as Mono16. -/
def fmtBits (n : Nat) : Nat := [8, 10, 12, 16, 8, 10].getD n 16

/-- A pixel left-aligned to 16 bits (R200). -/
def State.leftAligned (s : State) (cam : Fin 4) (p : BitVec 16) : BitVec 16 := p <<< (16 - fmtBits (s.fv F.CAM_CAM_CFG_FMT cam))

/-- A plane after correction and the substitution of dead pixels. The correction memory is read with its check: the errors
met are recorded (R301). -/
def State.correctPlane (s : State) (cam : Fin 4) (q : Nat) (raw : List (BitVec 16)) : List (BitVec 16) × State :=
  let raw := raw.map (s.leftAligned cam)
  if s.on F.CAM_CAM_CFG_CORR_BYP cam then (raw, s)
  else
    let s := (s.readRange 25 16 (8 * corrWord cam q 0) (8 * raw.length)).2
    let vs := raw.zipIdx.map (fun e => s.corrected cam q e.2 e.1)
    (vs.zipIdx.map (fun e => nearestLive vs e.2 (s.free_ 16)), s.used)

/-! ## The ring (R199) -/

/-- Bytes of a camera line: 16 bits a pixel. -/
def CamLine.bytes (l : CamLine) : Nat := 2 * l.sizes.foldl (· + ·) 0

/-- Bytes of a ring. -/
def ringBytes : Nat := 2 ^ 20

/-- First byte in the Staging RAM of the ring of a camera, in the camera region (R139; log 121). -/
def ringBase (c : Fin 4) : Nat := 0x180_0000 + ringBytes * c.val

/-- The stretches, as (offset in the Staging RAM, bytes), that `n` bytes from place `o` of a ring take: the second after its end. -/
def ringParts (c : Fin 4) (o n : Nat) : List (Nat × Nat) :=
  [(ringBase c + o % ringBytes, Nat.min n (ringBytes - o % ringBytes)), (ringBase c, n - Nat.min n (ringBytes - o % ringBytes))]

/-- A line is written to its camera's ring. -/
def State.ringWrite (s : State) (c : Fin 4) (o : Nat) (b : List Byte) : State :=
  ((ringParts c o b.length).foldl (fun (r : List Byte × State) p =>
    (r.1.drop p.2, if p.2 = 0 then r.2 else r.2.dmaWrite 25 (0x20_0000_0000 + p.1) (r.1.take p.2))) (b, s)).2

/-- Pixel `k` of plane `q` of a line in its ring, or none past the plane's end. -/
def State.ringPixel (s : State) (c : Fin 4) (l : CamLine) (q k : Nat) : Option Nat :=
  if l.sizes.getD q 0 ≤ k then none
  else
    let o := l.at_ + 2 * ((l.sizes.take q).foldl (· + ·) 0 + k)
    some (leNat (s.memBytes 1 (ringBase c + o % ringBytes) 2))

/-- The tag is no longer awaited. -/
def State.undue (s : State) (c : Fin 4) (tag : Nat) : State :=
  { s with cam := { s.cam with due := s.cam.due.set c (s.cam.due[c].erase tag) } }

/-- A line of the tag is discarded: the loop does not evaluate it. -/
def State.dropTag (s : State) (tag : Nat) : State := { s with cam := { s.cam with dropped := tag :: s.cam.dropped } }

/-- CAMERA_LINE_ARRIVAL: the line takes the tag of its trigger, or of the tick most recently passed when the camera runs free;
it is corrected and written to the ring of 1 MiB, or is discarded. -/
def execCameraLineArrival (cam : Fin 4) (tag : Nat) (planes : List (List (BitVec 16))) (s : State) : Ans :=
  s.effect (fun s =>
    let free := decide (s.fv F.CAM_CAM_CFG_TRIG cam = 2)
    if ¬ s.on F.CAM_CTL_ENABLE ∨ ¬ s.on F.CAM_CAM_CFG_ENABLE cam ∨ (¬ free ∧ tag ∉ s.cam.due[cam]) then s
    else
      let tag := if free then s.lastTick.toNat else tag
      let s := s.undue cam tag
      let r := planes.zipIdx.foldl (fun (r : List (List (BitVec 16)) × State) e =>
        let x := r.2.correctPlane cam e.2 e.1
        (r.1 ++ [x.1], x.2)) ([], s)
      let s := r.2
      let o := s.cam.heads[cam]
      let line : CamLine := { tag := tag, at_ := o, sizes := r.1.map (fun p => p.length) }
      let held := (s.cam.rings[cam].map CamLine.bytes).foldl (· + ·) 0
      if ringBytes < held + line.bytes then (s.dropTag tag).finc F.CAM_STATUS_DROP
      else
        let s := s.ringWrite cam o (r.1.flatten.flatMap (fun v => leBytes v.toNat 2))
        { s with cam := { s.cam with
          rings := s.cam.rings.set cam (s.cam.rings[cam] ++ [line]), heads := s.cam.heads.set cam ((o + line.bytes) % ringBytes) } })

/-- CAMERA_LINE_TIMEOUT. -/
def execCameraLineTimeout (cam : Fin 4) (tag : Nat) (s : State) : Ans :=
  s.effect (fun s =>
    if tag ∈ s.cam.due[cam] then ((s.undue cam tag).dropTag tag).finc F.CAM_STATUS_TIMEOUT else s)

/-- CAMERA_LINK_LOST. -/
def execCameraLinkLost (cam : Fin 4) (connector : Fin 4) (s : State) : Ans :=
  s.effect (fun s =>
    let s := s.fset F.CAM_STATUS_LOST (natSetBit (s.fv F.CAM_STATUS_LOST) cam.val true)
    let s := s.fset F.CAM_STATUS_UP (natSetBit (s.fv F.CAM_STATUS_UP) cam.val false)
    let r := 2 ^ 61 + connector.val
    (s.raise .linkRerouted r).csMasked 0x14 25 [r] 5)

/-- CAMERA_LINK_UP. -/
def execCameraLinkUp (cam : Fin 4) (s : State) : Ans :=
  s.effect (fun s => s.fset F.CAM_STATUS_UP (natSetBit (s.fv F.CAM_STATUS_UP) cam.val true))

/-! ## The mover (R201, R202) -/

/-- The corrected line of a camera with a tag. -/
def State.camLine (s : State) (c : Fin 4) (tag : Nat) : Option CamLine := s.cam.rings[c].find? (fun l => decide (l.tag = tag))

/-- A line of the tag has arrived, and every enabled camera whose link is up has delivered its line; a tag with a discarded line is
not evaluated (R199). -/
def State.tagReady (s : State) (tag : Nat) : Bool :=
  let on := (List.finRange 4).filter (fun c : Fin 4 => s.on F.CAM_CAM_CFG_ENABLE c.val)
  !s.cam.dropped.contains tag && on.any (fun c => (s.camLine c tag).isSome) &&
    on.all (fun c => (s.camLine c tag).isSome || !(s.fv F.CAM_STATUS_UP).testBit c.val)

/-- Plane `q` of registered column `x`; a column that the registration table lacks, or whose camera has no line, goes unjudged, and its
value is open. -/
def State.registered (s : State) (tag q x : Nat) : Nat :=
  match s.cam.regTable[x]? with
  | none => (s.free_ 16).toNat
  | some e =>
    match s.camLine e.1 tag with
    | none => (s.free_ 16).toNat
    | some l =>
      let i := e.2 / 65536
      let f := e.2 % 65536
      let at_ (k : Nat) : Nat := (s.ringPixel e.1 l q k).getD (s.free_ 16).toNat
      if f = 0 then at_ i else (at_ i * (65536 - f) + at_ (i + 1) * f + 32768) / 65536

/-- The mover reads the tag's lines from their rings: the errors met are recorded (R301). -/
def State.readLines (s : State) (tag : Nat) : State :=
  s.forFin 4 (fun c s =>
    match s.camLine c tag with
    | some l => (ringParts c l.at_ l.bytes).foldl (fun s p => (s.readRange 25 1 p.1 p.2).2) s
    | none => s)

/-- The values of a registered camera line in order: all planes, or the one whose turn it is. -/
def State.moverValues (s : State) (tag : Nat) : List Nat :=
  let w := s.regWidth
  let qs := if s.planesFit then List.range s.camPlanes else [s.cam.rotate % s.camPlanes]
  qs.flatMap (fun q => (List.range w).map (fun x => s.registered tag q x))

/-- A raw strip of one line (R142, R143). -/
def rawStrip (first : Nat) (vs : List Nat) : List Byte :=
  let body := vs.flatMap (fun v => leBytes v 2)
  let payload := body ++ List.replicate (rawBytes vs.length - body.length) (0 : Byte)
  leBytes 0x4146 2 ++ [1, 0] ++ leBytes vs.length 2 ++ leBytes 1 2 ++ leBytes first 4 ++ leBytes payload.length 4 ++
    leBytes (crc32c payload) 4 ++ List.replicate 12 (0 : Byte) ++ payload

/-- First byte of the camera strip area, and the bytes a camera line takes in it: band tables, then a strip a row, rounded up
to 512 (the places are the model's, log 40). -/
def stripArea : Nat := 0x160_0000
def lineSpan (rows npg : Nat) : Nat := (512 * (rows / 64) + rows * (32 + 512 * npg) + 511) / 512 * 512
def lineSlots (rows npg : Nat) : Nat := 0x20_0000 / lineSpan rows npg

/-- Writes the strips and band tables of a camera line of number `n` and answers the table's offset for each partition. -/
def State.writeStrips (s : State) (n : Nat) (vs : List Nat) : State :=
  let rows := s.inspRows
  let npg := s.npgI
  let base := stripArea + n % lineSlots rows npg * lineSpan rows npg
  let strips := base + 512 * (rows / 64)
  let size := 32 + 512 * npg
  let s := (List.range rows).foldl (fun s r =>
    let row := (List.range (256 * npg)).map (fun k => vs.getD (r * (256 * npg) + k) 0)
    s.dmaWrite 25 (0x20_0000_0000 + strips + r * size) (rawStrip n row)) s
  (List.range rows).foldl (fun s r =>
    s.dmaWrite 25 (0x20_0000_0000 + base + 8 * r) (leBytes (2 ^ 63 + strips + r * size) 8)) s

/-- The band of a camera line for the `k`-th partition that inspects. -/
def State.camBand (s : State) (n k : Nat) : Band :=
  let base := stripArea + n % lineSlots s.inspRows s.npgI * lineSpan s.inspRows s.npgI
  { table := base + 512 * k, first := n, lines := 1, factor := 1, linear := false }

/-- The queues have room for a camera line: that of P3, or the camera queues of 4. Where the strip area holds fewer lines, the line in
feed counts with those that wait, so that no strip still to be read is overwritten (log 40). -/
def State.moverRoom (s : State) : Bool :=
  if s.dedicated then
    let e := s.enl[(3 : Fin 4)]
    decide (e.queue.length < 16) && decide (e.queue.length + (if e.cur.isSome then 1 else 0) < lineSlots 64 s.npgI)
  else (List.finRange 4).all (fun p =>
    !(s.partsOf 0).getLsbD p.val || decide ((s.enl[p]).camQueue.length < Nat.min 4 (lineSlots 256 s.npgI)))

/-- CAMERA_MOVER_LINE: the lines that share a tag are registered, written as strips, and pushed as camera bands. -/
def execCameraMoverLine (tag : Nat) (s : State) : Ans :=
  s.effect (fun s =>
    let inspects : Bool := match s.job with
      | some j => j.inspect
      | none => false
    if ¬ s.on F.CAM_CTL_ENABLE ∨ ¬ inspects ∨ s.cam.regTable = [] ∨ ¬ s.tagReady tag ∨ ¬ s.moverRoom then s
    else
      let n := s.cam.moverLine
      let s := s.readLines tag
      let s := (s.writeStrips n (s.moverValues tag)).used
      let s := if s.dedicated then s.setQueue 3 ((s.enl[(3 : Fin 4)]).queue ++ [s.camBand n 0])
        else s.forFin 4 (fun p t =>
          if (s.partsOf 0).getLsbD p.val then t.modEnl p (fun e => { e with camQueue := e.camQueue ++ [s.camBand n p] }) else t)
      { s with cam := { s.cam with
        moverLine := n + 1, rotate := if s.planesFit then s.cam.rotate else s.cam.rotate + 1,
        rings := s.cam.rings.map (fun r => r.filter (fun l => decide (tag < l.tag))),
        dropped := s.cam.dropped.filter (fun t => decide (tag < t)) } })

/-! ## Bank swaps (R207, R214) -/

/-- A write of CAM_TSWAP: AT_LINE takes the value, and a request is taken at it; one made while LOOP_EN is 0 or another is pending is
ignored and sets REJ. -/
def State.writeTswap (s : State) (v : DWord) : State :=
  let line := wField v F.CAM_TSWAP_AT_LINE
  let taken := decide (wField v F.CAM_TSWAP_REQ = 1) && !s.on F.CAM_TSWAP_REQ && s.on F.CAM_CTL_LOOP_EN
  let s := if wField v F.CAM_TSWAP_REJ = 1 then s.fset F.CAM_TSWAP_REJ 0 else s
  let s := s.fset F.CAM_TSWAP_AT_LINE line
  if wField v F.CAM_TSWAP_REQ = 0 then s
  else if taken then { s.fset F.CAM_TSWAP_REQ 1 with cam := { s.cam with swapAt := line } }
  else s.fset F.CAM_TSWAP_REJ 1

/-- TABLE_SWAP_REQUEST. -/
def execTableSwapRequest (a : Agent) (v : DWord) (s : State) : Ans :=
  s.effect (fun s => s.guarded a .CAM_TSWAP 0 (fun s => s.writeTswap v))

/-- A speed of R197. -/
def speedOk (n : Nat) : Bool := ([1, 2, 3, 5, 6, 10, 12] : List Nat).contains n

/-- The line rate of a link of speed CXP-n in bits a second: those of the CoaXPress standard (PRESUMED, log 122). -/
def cxpRate (n : Nat) : Nat :=
  match n with
  | 1 => 1250000000
  | 2 => 2500000000
  | 3 => 3125000000
  | 5 => 5000000000
  | 6 => 6250000000
  | 10 => 10000000000
  | 12 => 12500000000
  | _ => 0

/-- The payload rate of the links that a CAM_CAMn_CFG value names: 8 bits in 10 carry payload (PRESUMED, log 122). -/
def camPayload (v : DWord) : Nat := cxpRate (wField v F.CAM_CAM_CFG_SPEED) * 8 / 10 * 2 ^ Nat.min 2 (wField v F.CAM_CAM_CFG_LINKS)

/-- The bits a second of a camera: pixels × bits per pixel × trigger rate (R197). -/
def camBits (v : DWord) (rate : Nat) : Nat :=
  let fmt := wField v F.CAM_CAM_CFG_FMT
  let planes := if fmt = 4 ∨ fmt = 5 then 3 else wField v F.CAM_CAM_CFG_PLANES + 1
  (wField v F.CAM_CAM_CFG_PIXELS + 1) * (fmtBits fmt * planes) * rate

/-- The camera exceeds 90 % of the payload rate of its links. -/
def camOver (v : DWord) (rate : Nat) : Bool := wField v F.CAM_CAM_CFG_ENABLE = 1 && decide (9 * camPayload v < 10 * camBits v rate)

/-- A write of CAM_CAMn_CFG: ignored in Print and Hold, and refused with a SPEED that is none. -/
def State.writeCamCfg (s : State) (c : Fin 4) (v : DWord) : State :=
  if s.printing ∨ ¬ speedOk (wField v F.CAM_CAM_CFG_SPEED) then s else s.plainWrite .CAM_CAM_CFG c fullMask v

end Sys2Proof.Machine
end

