-- ==== Sys2Proof/Machine/HostRings.lean ====
section
/-!
DEFINITION. The host link, its rings and their doorbells, the functions' resets, BAR4, the Ethernet sessions, and how an
accepted command starts (R241-R262, R272-R274, R311, R343).
-/

namespace Sys2Proof.Machine

/-! ## The host's reach -/

/-- The agent of a function's accesses through its BARs. -/
def fnAgent (fn : Fin 8) : Agent := if h : fn.val = 0 then .pf else .vf ⟨fn.val - 1, by omega⟩

/-- The host reaches the rings: the link is up and the die is powered (R241, R307). -/
def State.hostReaches (s : State) : Bool := s.hst.linkUp && s.active

/-- A submission ring's register instance. -/
def sqIdx (fn : Fin 8) (n : Fin 64) : Nat := 64 * fn + n

/-- The ring the module writes behind a ring number of 64 or more: completion rings 64-127, the event ring 128. -/
def wRingOf (fn : Fin 8) (ring : Nat) : WRing := if 128 ≤ ring then (fn, none) else (fn, some (Fin.ofNat 64 ring))

/-! ## Ring errors (R254) -/

/-- The first error of a function is recorded and sends vector 0. -/
def State.ringError (s : State) (fn : Fin 8) (ring code : Nat) : State :=
  if s.on F.HST_FN_ERR_VALID fn then s
  else (((s.fset F.HST_FN_ERR_RING ring fn).fset F.HST_FN_ERR_CODE code fn).fset F.HST_FN_ERR_VALID 1 fn).sendVector fn 0

/-! ## Doorbells (R248, R252, R253) -/

/-- The INDEX of a doorbell write. -/
def doorIndex (v : DWord) : Nat := getBits v 0 16

/-- The value written to a doorbell is what its reads return (R9). -/
def State.setDoor (s : State) (k : Nat) (v : DWord) : State := s.setRing k { s.ring k with door := v }

/-- The descriptors of a submission ring that are visible and not fetched. -/
def State.sqVisible (s : State) (i : Nat) : Nat :=
  let size := s.fv F.HST_SQ_CFG_SIZE_M1 i + 1
  (s.fv F.HST_SQ_PTR_DB_INDEX i + size - s.fv F.HST_SQ_PTR_INDEX i) % size

/-- A submission doorbell sets TAIL, and the time of the doorbell is kept for each descriptor it makes visible. -/
def State.ringSq (s : State) (fn : Fin 8) (n : Fin 64) (v : DWord) : State :=
  let i := sqIdx fn n
  let s := s.setDoor (sqKey fn n) v
  if ¬ s.on F.HST_SQ_CFG_ENABLED i then s.ringError fn n 4
  else if s.fv F.HST_SQ_CFG_SIZE_M1 i < doorIndex v then s.ringError fn n 1
  else
    let s := s.fset F.HST_SQ_PTR_DB_INDEX (doorIndex v) i
    let m := s.sqVisible i
    let r := s.ring (sqKey fn n)
    s.setRing (sqKey fn n) { r with bells := (r.bells ++ List.replicate (m - r.bells.length) s.devTime).take m }

/-- A head doorbell of a ring the module writes: slots before INDEX are free, R252 starts afresh over the entries left, and
entries that wait are posted. -/
def State.ringHead (s : State) (w : WRing) (v : DWord) : State :=
  let s := s.setDoor w.key v
  let size := s.wSize w
  let tail := s.wfv w F.HST_CQ_PTR_INDEX F.HST_EQ_PTR_INDEX
  let r := s.ring w.key
  let held := r.slots.length
  let advance := (doorIndex v + 2 * size - (tail + size - held)) % size
  if s.wfv w F.HST_CQ_CFG_ENABLED F.HST_EQ_CFG_ENABLED = 0 then s.ringError w.1 w.code 4
  else if size ≤ doorIndex v then s.ringError w.1 w.code 1
  else if held < advance then s.ringError w.1 w.code 2
  else
    let left := r.slots.drop advance
    let s := s.setRing w.key { r with slots := left }
    let s := s.wset w F.HST_CQ_PTR_DB_INDEX F.HST_EQ_PTR_DB_INDEX (doorIndex v)
    (s.wCoalesce w (left.countP (fun e => !e.1.noIrq))).wDrain w

/-- The submission ring, or the ring the module writes, whose doorbell lies at a BAR2 offset. -/
def doorbellAt (fn : Fin 8) (off : Nat) : Option (Fin 64 ⊕ WRing) :=
  if off % 8 ≠ 0 then none
  else if off < 0x200 then some (.inl (Fin.ofNat 64 (off / 8)))
  else if 0x400 ≤ off ∧ off < 0x600 then some (.inr (fn, some (Fin.ofNat 64 (off / 8 - 128))))
  else if off = 0x800 then some (.inr (fn, none))
  else none

/-- A host write to BAR2: one that is to no doorbell is ignored and counted. -/
def State.bar2Write (s : State) (fn : Fin 8) (off : Nat) (v : DWord) : State :=
  match doorbellAt fn off with
  | some (.inl n) => s.ringSq fn n v
  | some (.inr w) => s.ringHead w v
  | none => s.badAccess

/-- A host read of BAR2: the value last written to the doorbell (R9, R248). No row of the command table carries such a read
(log 132). -/
def State.bar2Read (s : State) (fn : Fin 8) (off : Nat) : DWord :=
  match doorbellAt fn off with
  | some (.inl n) => (s.ring (sqKey fn n)).door
  | some (.inr w) => (s.ring w.key).door
  | none => 0

/-- SQ_DOORBELL. -/
def execSqDoorbell (fn : Fin 8) (off : BitVec 16) (v : DWord) (s : State) : Ans :=
  s.effect (fun s => if s.hostReaches then s.bar2Write fn off.toNat v else s)

/-- CQ_DOORBELL. -/
def execCqDoorbell (fn : Fin 8) (n : Fin 64) (v : DWord) (s : State) : Ans :=
  s.effect (fun s => if s.hostReaches then s.ringHead (fn, some n) v else s)

/-- EQ_DOORBELL. -/
def execEqDoorbell (fn : Fin 8) (v : DWord) (s : State) : Ans :=
  s.effect (fun s => if s.hostReaches then s.ringHead (fn, none) v else s)

/-- A ring the module writes stops on an error of host memory (R254); its entries wait, as R251 and R253 describe. -/
def State.wStop (s : State) (w : WRing) : State :=
  if s.wfv w F.HST_CQ_CFG_ENABLED F.HST_EQ_CFG_ENABLED = 0 then s
  else ((s.setRing w.key { s.ring w.key with stopped := true }).wset w F.HST_CQ_CFG_ERR F.HST_EQ_CFG_ERR 1).ringError w.1 w.code 3

/-- COALESCE_TIMEOUT: COAL_US after the first pending entry the vector of the ring `r.1` is sent. An error that answered the write of an
entry, which `r.2` tells, stops the ring (log 129). -/
def execCoalesceTimeout (fn : Fin 8) (r : Fin 129 × Bool) (s : State) : Ans :=
  s.effect (fun s =>
    let w := wRingOf fn r.1
    if r.1.val < 64 then s
    else if r.2 then (if s.hostReaches then s.wStop w else s)
    else if (s.ring w.key).timing then s.wVector w else s)

/-! ## Commands that have not started (R255, R391) -/

/-- Bytes `off` to `off + n - 1` of P1, which starts at byte 40. -/
def descP1 (d : Desc) (off n : Nat) : Nat := d.p1.toNat / 2 ^ (8 * (off - 40)) % 2 ^ (8 * n)

/-- A JOB_LOAD of the host form. -/
def hostForm (d : Desc) : Bool := decide (d.opcode = 0x10 ∧ d.reel = 0)

/-- The commands of a set that have not started: accepted, waiting for their bucket, or loads that wait for room. -/
def State.unstarted (s : State) (mine : CmdRef → Bool) : List CmdRef :=
  ((s.hst.accepted.map (fun a => a.cmd)) ++ (s.store.waiting.map (fun w => w.cmd)) ++
    ((s.hst.loads.filter (fun l => l.reading.isNone)).map (fun l => l.cmd))).filter mine

/-- They are gone. -/
def State.dropUnstarted (s : State) (mine : CmdRef → Bool) : State :=
  { s with
    hst := { s.hst with
      accepted := s.hst.accepted.filter (fun a => !mine a.cmd),
      loads := s.hst.loads.filter (fun l => l.reading.isSome || !mine l.cmd) },
    store := { s.store with waiting := s.store.waiting.filter (fun w => !mine w.cmd) } }

/-- The first host-form load among them: its acceptance number and its FIRST_LINE. -/
def State.firstLoad (s : State) (mine : CmdRef → Bool) : Option (Nat × Nat) :=
  let l := ((s.hst.accepted.filter (fun a => mine a.cmd && hostForm a.desc)).map (fun a => (a.cmd.acc, descP1 a.desc 40 4))) ++
    ((s.hst.loads.filter (fun l => mine l.cmd && l.reading.isNone)).map (fun l => (l.cmd.acc, l.first)))
  l.find? (fun e => l.all (fun x => decide (e.1 ≤ x.1)))

/-- Every later load of the function completes ABORTED, and the next must start at `first` (R391). -/
def State.abortLoads (s : State) (fn : Fin 8) (acc first : Nat) : State :=
  let out := s.hst.loads.filter (fun l => decide (l.fn = fn ∧ acc < l.cmd.acc))
  let mine (a : Accepted) : Bool := decide (a.cmd.fn = fn ∧ acc < a.cmd.acc) && hostForm a.desc
  let out' := s.hst.accepted.filter mine
  let s : State := { s with hst := { s.hst with
    loads := s.hst.loads.filter (fun l => !decide (l.fn = fn ∧ acc < l.cmd.acc)),
    accepted := s.hst.accepted.filter (fun a => !mine a) } }
  (out.map (fun l => l.cmd) ++ out'.map (fun a => a.cmd)).foldl (fun s c => s.completeReason c stABORTED 0) (s.setNextLoad fn first)

/-! ## Enabling and disabling rings (R247, R254, R255) -/

/-- SIZE obeys R246: a power of two from 16 to 65,536. -/
def sizeOk (m1 : Nat) : Bool := ((List.range 13).map (fun k => 2 ^ (k + 4))).contains (m1 + 1)

/-- A write of HST_SQn_CFG. The fields that only a ring out of service takes are kept while it is ENABLED. -/
def State.writeSqCfg (s : State) (fn : Fin 8) (n : Fin 64) (mask v : DWord) : State :=
  let i := sqIdx fn n
  let old := s.reg .HST_SQ_CFG i
  let enabled := s.on F.HST_SQ_CFG_ENABLED i
  let s := (s.plainWrite .HST_SQ_CFG i mask v).fset F.HST_SQ_CFG_ENABLE (wField old F.HST_SQ_CFG_ENABLE) i
  let s := if enabled then
      (s.fset F.HST_SQ_CFG_SIZE_M1 (wField old F.HST_SQ_CFG_SIZE_M1) i).fset F.HST_SQ_CFG_CQ (wField old F.HST_SQ_CFG_CQ) i
    else s
  if ¬ mask.getLsbD 63 then s
  else if v.getLsbD 63 then
    if enabled then s
    else if ¬ sizeOk (s.fv F.HST_SQ_CFG_SIZE_M1 i) then s.ringError fn n 5
    else if ¬ s.on F.HST_CQ_CFG_ENABLED (64 * fn + s.fv F.HST_SQ_CFG_CQ i) then s.ringError fn n 6
    else
      ((((s.setRing (sqKey fn n) { door := (s.ring (sqKey fn n)).door }).setReg .HST_SQ_PTR 0 i).fset F.HST_SQ_CFG_ENABLE 1 i).fset F.HST_SQ_CFG_ENABLED 1 i)
  else if enabled then
    let mine (c : CmdRef) : Bool := decide (c.src = .sq fn n)
    let out := s.unstarted mine
    let load := s.firstLoad mine
    let s := (s.dropUnstarted mine).fset F.HST_SQ_CFG_ENABLE 0 i
    let s := if (s.ring (sqKey fn n)).owed = [] then s.fset F.HST_SQ_CFG_ENABLED 0 i
      else s.setRing (sqKey fn n) { s.ring (sqKey fn n) with draining := true }
    let s := out.foldl (fun s c => s.completeOpen c stABORTED) s
    match load with
    | some x => s.abortLoads fn x.1 x.2
    | none => s
  else s.fset F.HST_SQ_CFG_ENABLE 0 i

/-- A completion ring some ENABLED submission ring is bound to. -/
def State.cqBound (s : State) (fn : Fin 8) (n : Nat) : Bool :=
  (List.range 64).any (fun q => s.on F.HST_SQ_CFG_ENABLED (64 * fn + q) && decide (s.fv F.HST_SQ_CFG_CQ (64 * fn + q) = n))

/-- A write of HST_CQn_CFG or HST_EQ_CFG. -/
def State.writeWCfg (s : State) (w : WRing) (mask v : DWord) : State :=
  let r : RegName := (w.fld F.HST_CQ_CFG_ENABLE F.HST_EQ_CFG_ENABLE).reg
  let ptr : RegName := (w.fld F.HST_CQ_PTR_INDEX F.HST_EQ_PTR_INDEX).reg
  let old := s.reg r w.idx
  let enabled := decide (s.wfv w F.HST_CQ_CFG_ENABLED F.HST_EQ_CFG_ENABLED = 1)
  let bound : Bool := match w.2 with
    | some n => s.cqBound w.1 n
    | none => false
  if mask.getLsbD 63 ∧ ¬ v.getLsbD 63 ∧ enabled ∧ bound then s.ringError w.1 w.code 7
  else
    let s := (s.plainWrite r w.idx mask v).wset w F.HST_CQ_CFG_ENABLE F.HST_EQ_CFG_ENABLE (wField old F.HST_CQ_CFG_ENABLE)
    let s := if enabled then
        (s.wset w F.HST_CQ_CFG_SIZE_M1 F.HST_EQ_CFG_SIZE_M1 (wField old F.HST_CQ_CFG_SIZE_M1)).wset w F.HST_CQ_CFG_VECTOR
          F.HST_EQ_CFG_VECTOR (wField old F.HST_CQ_CFG_VECTOR)
      else s
    if ¬ mask.getLsbD 63 then s
    else if v.getLsbD 63 then
      if enabled then s
      else if ¬ sizeOk (s.wfv w F.HST_CQ_CFG_SIZE_M1 F.HST_EQ_CFG_SIZE_M1) then s.ringError w.1 w.code 5
      else
        let s := (s.setRing w.key { door := (s.ring w.key).door }).setReg ptr (2 ^ 32) w.idx
        ((s.wset w F.HST_CQ_CFG_ENABLE F.HST_EQ_CFG_ENABLE 1).wset w F.HST_CQ_CFG_ENABLED F.HST_EQ_CFG_ENABLED 1).wDrain w
    else
      let s := (s.wset w F.HST_CQ_CFG_ENABLE F.HST_EQ_CFG_ENABLE 0).wset w F.HST_CQ_CFG_ENABLED F.HST_EQ_CFG_ENABLED 0
      s.setRing w.key { s.ring w.key with slots := [], waiting := [], pend := 0, timing := false }

/-- A write of a ring's CFG register: rings 0-63 submission, 64-127 completion, 128 event. -/
def State.writeRingCfg (s : State) (fn : Fin 8) (ring : Nat) (mask v : DWord) : State :=
  if ring < 64 then s.writeSqCfg fn (Fin.ofNat 64 ring) mask v else s.writeWCfg (wRingOf fn ring) mask v

/-- The CFG register of a ring and its instance. -/
def ringCfg (fn : Fin 8) (ring : Nat) : RegName × Nat :=
  if ring < 64 then (.HST_SQ_CFG, 64 * fn + ring) else if ring < 128 then (.HST_CQ_CFG, 64 * fn + (ring - 64)) else (.HST_EQ_CFG, fn)

/-- The agent's write of a ring's CFG register with ENABLE as given. -/
def State.hostRingCfg (s : State) (fn : Fin 8) (ring : Nat) (v : DWord) : State :=
  if ¬ s.hostReaches then s
  else s.guarded (fnAgent fn) (ringCfg fn ring).1 (ringCfg fn ring).2 (fun s => s.writeRingCfg fn ring fullMask v)

/-- RING_ENABLE: the write carries ENABLE = 1. -/
def execRingEnable (fn : Fin 8) (ring : Fin 129) (v : DWord) (s : State) : Ans :=
  s.effect (fun s => s.hostRingCfg fn ring (v ||| 0x8000000000000000))

/-- RING_DISABLE: the write carries ENABLE = 0. -/
def execRingDisable (fn : Fin 8) (ring : Fin 129) (v : DWord) (s : State) : Ans :=
  s.effect (fun s => s.hostRingCfg fn ring (v &&& 0x7FFFFFFFFFFFFFFF))

/-- A write of a ring's BASE is ignored while the ring is ENABLED (R247). -/
def State.writeRingBase (s : State) (r : RegName) (i : Nat) (enabled : Fld) (mask v : DWord) : State :=
  if s.on enabled i then s else s.plainWrite r i mask v

/-! ## Function resets (R255) -/

/-- The key of a register of a function's HST_ page. -/
def fnPageKey (fn : Nat) (k : Nat) : Bool :=
  ([.HST_SQ_BASE, .HST_SQ_CFG, .HST_SQ_PTR, .HST_CQ_BASE, .HST_CQ_CFG, .HST_CQ_PTR] : List RegName).any (fun r =>
      decide (regKey r 0 + 64 * fn ≤ k ∧ k < regKey r 0 + 64 * fn + 64)) ||
    ([.HST_EQ_BASE, .HST_EQ_CFG, .HST_EQ_PTR, .HST_FN_ERR, .HST_EVT_MASK, .HST_EVT_LOST] : List RegName).any (fun r =>
      decide (regKey r fn = k))

/-- A function is reset: its rings fall without drain, its commands not started are gone, the completions of the others are
discarded, and its events wait in its backlog. Its next host-form load follows those that are left. -/
def State.resetFn (s : State) (fn : Fin 8) : State :=
  let mine (c : CmdRef) : Bool := match c.src with
    | .sq f _ => decide (f = fn)
    | .session _ => false
  let load := s.firstLoad mine
  let s := s.dropUnstarted mine
  let s : State := { s with
    regs := s.regs.filter (fun e => !fnPageKey fn e.1),
    hst := { s.hst with rings := s.hst.rings.filter (fun e => !decide (129 * fn.val ≤ e.1 ∧ e.1 < 129 * fn.val + 129)) } }
  s.modFn fn (fun f =>
    { evSeq := f.evSeq, backlog := f.backlog, nextLoad := (load.map (fun x => x.2)).getD f.nextLoad, gen := f.gen + 1 })

/-- Every function is reset. -/
def State.resetAllFns (s : State) : State := s.forFin 8 (fun f s => s.resetFn f)

/-- FUNCTION_LEVEL_RESET: that of the physical function resets every function. -/
def execFunctionLevelReset (fn : Fin 8) (s : State) : Ans :=
  s.effect (fun s => if ¬ s.hst.linkUp then s else if fn.val = 0 then s.resetAllFns else s.resetFn fn)

/-- HOT_RESET. -/
def execHotReset (s : State) : Ans := s.effect (fun s => s.resetAllFns)

/-- A load that a ring brought and that is being read when the link falls meets an error of host memory. -/
def HostLoad.cut (l : HostLoad) : HostLoad :=
  match l.cmd.src with
  | .sq _ _ => { l with dataErr := l.dataErr || l.reading.isSome }
  | .session _ => l

/-- PCIE_LINK_DOWN. -/
def execPcieLinkDown (s : State) : Ans :=
  s.effect (fun s =>
    let s := s.resetAllFns
    { s with hst := { s.hst with linkUp := false, loads := s.hst.loads.map HostLoad.cut } })

/-- The generation, 1 to 5, that a link trains to with a host that allows `n` of the 25 outcomes, and its width. -/
def trainedGen (n : Nat) : Fin 6 := Fin.ofNat 6 (1 + n % 5)
def trainedLanes (n : Nat) : Nat := 2 ^ (n / 5 % 5)

/-- PCIE_LINK_UP (R241): the link trains to a generation and a width that the host allows, which are free (log 135). The module is no
endpoint while it is Off. -/
def execPcieLinkUp (s : State) : Ans :=
  s.effect (fun s =>
    if s.mode = 0 then s
    else
      let n := (s.free_ 8).toNat
      { s.used with hst := { s.hst with linkUp := true, linkGen := trainedGen n, linkLanes := trainedLanes n } })

/-! ## BAR4 (R139, R242, R301) -/

/-- Staging offset of a BAR4 offset: the general region comes first. -/
def bar4Offset (off : Nat) : Nat := (0x1C0_0000 + off) % 0x200_0000

/-- BAR4 responds. -/
def State.bar4Open (s : State) : Bool := s.hostReaches && s.on F.HST_CTL_BAR4_EN

/-- BAR4_READ: an uncorrectable word makes the completion a poisoned TLP. -/
def execBar4Read (off n : Nat) (s : State) : Ans :=
  s.effect (fun s =>
    if ¬ s.hst.linkUp then s
    else if ¬ s.bar4Open ∨ 0x200_0000 < off + n then s.emit (.bytes (List.replicate n 0))
    else
      let offs := (List.range n).map (fun k => bar4Offset (off + k))
      let r := (offs.map (fun o => o / 8)).dedup.foldl (fun (r : Bool × State) w =>
        let x := r.2.readRange 12 1 (8 * w) 8
        (r.1 || x.1, x.2)) (false, s)
      if r.1 then r.2.emit .poisoned else r.2.emit (.bytes (offs.map (fun o => r.2.memByte 1 o))))

/-- BAR4_WRITE: it is performed in the general region alone, and otherwise discarded and counted. -/
def execBar4Write (off : Nat) (data : List Byte) (s : State) : Ans :=
  s.effect (fun s =>
    if ¬ s.hst.linkUp then s
    else if s.bar4Open ∧ off + data.length ≤ 0x40_0000 then s.dmaWrite 12 (0x20_0000_0000 + bar4Offset off) data
    else s.badAccess)

/-! ## What each opcode is (R245, R249, R262) -/

/-- The opcodes of R262. -/
def opcodes : List Nat :=
  [0x01, 0x02, 0x03, 0x04, 0x10, 0x11, 0x12, 0x13, 0x14, 0x15, 0x16, 0x17, 0x20, 0x21, 0x30, 0x31, 0x32, 0x40, 0x41, 0x42, 0x50]

/-- The permission bit of an opcode's family. -/
def opFamily (op : Nat) : Option Fld :=
  if op ≤ 0x04 then some F.HST_PERM_STORE
  else if op = 0x15 ∨ op = 0x20 ∨ op = 0x21 ∨ op = 0x50 then some F.HST_PERM_CONFIG
  else if op ≤ 0x17 then some F.HST_PERM_PRINT
  else if op = 0x31 then none
  else if op ≤ 0x32 then some F.HST_PERM_DIAG
  else some F.HST_PERM_FW

/-- The modes in which an opcode is accepted (R262, R309). -/
def opModes (op : Nat) : List Nat :=
  if op ≤ 0x04 ∨ op = 0x42 then [3, 4, 5, 6, 7, 8, 11]
  else if op = 0x10 ∨ op = 0x14 ∨ op = 0x16 then [3, 4, 5]
  else if op = 0x11 then [3]
  else if op = 0x12 ∨ op = 0x13 ∨ op = 0x17 then [4, 5]
  else if op = 0x15 then [6]
  else if op = 0x20 ∨ op = 0x21 then [3, 6, 7, 11]
  else if op ≤ 0x32 then [2, 3, 4, 5, 6, 7, 8, 9, 11]
  else if op ≤ 0x41 then [3, 8]
  else [3, 6, 7, 8, 9, 11]

/-- A control command, applied in acceptance order (R249). -/
def opControl (op : Nat) : Bool := (decide (0x10 ≤ op) && decide (op ≤ 0x21)) || decide (op = 0x50)

/-! ## Descriptor fields (R256) -/

/-- The descriptor that 64 bytes hold; byte `k` is bits [8k + 7:8k]. -/
def descOf (w : BitVec 512) : Desc :=
  { opcode := w.extractLsb' 0 8, flags := w.extractLsb' 8 8, priority := w.extractLsb' 16 8, byte3 := w.extractLsb' 24 8,
    cmdId := w.extractLsb' 32 32, deadline := w.extractLsb' 64 32, reel := w.extractLsb' 96 32, offset := w.extractLsb' 128 64,
    length := w.extractLsb' 192 32, p0 := w.extractLsb' 224 32, hostAddr := w.extractLsb' 256 64, p1 := w.extractLsb' 320 192 }

def descSgl (d : Desc) : Bool := d.flags.getLsbD 0
def descNoIrq (d : Desc) : Bool := d.flags.getLsbD 1
def descFence (d : Desc) : Bool := d.flags.getLsbD 2

/-- The fields an opcode uses: FLAGS bits beyond NO_IRQ and FENCE, REEL, OFFSET, LENGTH, P0 bits, HOST_ADDR, P1 bits. -/
structure Used where
  flags : BitVec 8 := 0
  reel : Bool := false
  offset : Bool := false
  length : Bool := false
  p0 : BitVec 32 := 0
  host : Bool := false
  p1 : BitVec 192 := 0
deriving DecidableEq, Repr

/-- Every field the opcode does not use is 0. -/
def descClean (d : Desc) (u : Used) : Bool :=
  let flags : BitVec 8 := 6 ||| u.flags ||| (if u.host then 1 else 0)
  decide (d.flags &&& ~~~flags = 0 ∧ d.priority.toNat < 4 ∧ d.byte3 = 0) && (u.reel || decide (d.reel = 0)) &&
    (u.offset || decide (d.offset = 0)) && (u.length || decide (d.length = 0)) && decide (d.p0 &&& ~~~u.p0 = 0) &&
    (u.host || decide (d.hostAddr = 0)) && decide (d.p1 &&& ~~~u.p1 = 0)

/-- The P1 bits of `n` bytes from byte `off`. -/
def p1Bits (off n : Nat) : BitVec 192 := BitVec.ofNat 192 ((2 ^ (8 * n) - 1) * 2 ^ (8 * (off - 40)))

/-! ## Acceptance (R249, R251, R272) -/

/-- A source owes the completion of the command with an acceptance number. -/
def State.owes (s : State) (src : Src) (n : Nat) : Bool :=
  match src with
  | .sq f q => (s.ring (sqKey f q)).owed.contains n
  | .session k => ((s.session k).map (fun x : Session => x.owed.contains n)).getD false

/-- A descriptor that a doorbell, or a capsule, made visible at a time is taken: it takes the next acceptance number, and its source owes
a completion. Its QUEUE_WAIT is open until it starts (log 133). -/
def State.accept (s : State) (src : Src) (fn : Fin 8) (d : Desc) (bell : DWord) : CmdRef × State :=
  let n := s.hst.accCount + 1
  let c : CmdRef :=
    { src := src, fn := fn, cmdId := d.cmdId, noIrq := descNoIrq d, waitUs := (s.free_ 24).toNat, gen := s.genOf src, acc := n,
      bell := bell }
  let s : State := { s.used with hst := { s.hst with accCount := n } }
  let s := if hostForm d then s.modFn fn (fun f => { f with loadAccs := f.loadAccs.filter (fun e => s.owes e.1 e.2) ++ [(src, n)] }) else s
  (c, match src with
    | .sq f q => s.setRing (sqKey f q) { s.ring (sqKey f q) with owed := (s.ring (sqKey f q)).owed ++ [n] }
    | .session k =>
      match s.session k with
      | some x => s.setSession k (some { x with owed := x.owed ++ [n], accepted := x.accepted + 1 })
      | none => s)

/-- Takes a descriptor: one with an unknown opcode, or during a drain (R311), is refused; others wait for their start. -/
def State.take (s : State) (src : Src) (fn : Fin 8) (d : Desc) (bell : DWord) (data : List Byte) : State :=
  let a := s.accept src fn d bell
  if ¬ opcodes.contains d.opcode.toNat then a.2.completeReason a.1 stCONFLICT 0xF0
  else if s.pwr.drain.isSome then a.2.completeOpen a.1 stMODE
  else { a.2 with hst := { a.2.hst with accepted := a.2.hst.accepted ++ [{ cmd := a.1, desc := d, data := data }] } }

/-- The descriptor at the head of a submission ring is read and taken. -/
def State.fetchOne (s : State) (fn : Fin 8) (n : Fin 64) (w : BitVec 512) : State :=
  let i := sqIdx fn n
  let r := s.ring (sqKey fn n)
  let head := s.fv F.HST_SQ_PTR_INDEX i
  let s := s.emit (.hostRead fn (slotAddr (s.fv F.HST_SQ_BASE_BASE i) 64 head) 64)
  let s := s.setRing (sqKey fn n) { r with bells := r.bells.drop 1 }
  (s.fset F.HST_SQ_PTR_INDEX ((head + 1) % (s.fv F.HST_SQ_CFG_SIZE_M1 i + 1)) i).take (.sq fn n) fn (descOf w) (r.bells.headD s.devTime) []

/-- DESCRIPTOR_FETCH: up to ARB + 1 of the ring's descriptors, as host memory holds them, unless its completion ring is full (R251); a
host error stops the ring (R254). -/
def execDescriptorFetch (fn : Fin 8) (n : Fin 64) (ds : List (BitVec 512)) (hostErr : Bool) (s : State) : Ans :=
  s.effect (fun s =>
    let i := sqIdx fn n
    let r := s.ring (sqKey fn n)
    let avail := s.sqVisible i
    let w : WRing := (fn, some (Fin.ofNat 64 (s.fv F.HST_SQ_CFG_CQ i)))
    let cqFull : Bool := !s.wOpen w || !(s.ring w.key).waiting.isEmpty
    if ¬ s.hostReaches ∨ ¬ s.on F.HST_SQ_CFG_ENABLED i ∨ ¬ s.on F.HST_SQ_CFG_ENABLE i ∨ r.stopped ∨ cqFull ∨ avail = 0 then s
    else if hostErr then
      ((s.setRing (sqKey fn n) { r with stopped := true }).fset F.HST_SQ_CFG_ERR 1 i).ringError fn n 3
    else (ds.take (Nat.min avail (s.fv F.HST_SQ_CFG_ARB i + 1))).foldl (fun s d => s.fetchOne fn n d) s)

/-- COMMAND_DEADLINE: a command that has not started within DEADLINE_US of its doorbell is refused with the module's estimate. A host
load that waits for room is one (log 134). -/
def execCommandDeadline (src : Src) (cmdId : BitVec 32) (estUs : BitVec 32) (s : State) : Ans :=
  s.effect (fun s =>
    let hit (c : CmdRef) (us : Nat) : Bool := decide (c.src = src ∧ c.cmdId = cmdId) && s.pastDeadline c us
    match s.hst.accepted.find? (fun a => hit a.cmd a.desc.deadline.toNat) with
    | some a =>
      let s : State := { s with hst := { s.hst with accepted := s.hst.accepted.erase a } }
      s.completeDetail a.cmd stBUSY (s.free_ 8).toNat estUs.toNat
    | none =>
      match s.hst.loads.find? (fun l => l.reading.isNone && hit l.cmd l.deadline) with
      | some l =>
        let s : State := { s with hst := { s.hst with loads := s.hst.loads.erase l } }
        (s.setNextLoad l.fn (Nat.min (s.hst.fns[l.fn]).nextLoad l.first)).completeDetail l.cmd stBUSY (s.free_ 8).toNat estUs.toNat
      | none => s)

/-! ## Starting a command (R245, R249, R258, R262) -/

/-- What stops a command before its own checks: 0x30 with RESULT[7:0] where the rules give it. -/
inductive Denial where
  | none
  | open_
  | reason (code : Nat)
deriving DecidableEq, Repr

/-- The completions that a command's source owes, as far as the command belongs to it: after a reset of the source, none. -/
def State.owedOf (s : State) (c : CmdRef) : List Nat :=
  if s.genOf c.src ≠ c.gen then []
  else
    match c.src with
    | .sq f q => (s.ring (sqKey f q)).owed
    | .session k => ((s.session k).map (fun x : Session => x.owed)).getD []

/-- The command waits for its turn: an earlier control command has not been applied, or a FENCE has commands of its source
before it whose completions are not posted (R249). -/
def State.mustWait (s : State) (op : Nat) (a : Accepted) : Bool :=
  (opControl op && s.hst.accepted.any (fun b => opControl b.desc.opcode.toNat && decide (b.cmd.acc < a.cmd.acc))) ||
    (descFence a.desc && (s.owedOf a.cmd).any (fun n => decide (n < a.cmd.acc)))

/-- The accepted command that a source's descriptor stands for: the oldest such. -/
def State.found (s : State) (c : CmdIn) : Option Accepted :=
  s.hst.accepted.find? (fun a => decide (a.cmd.src = c.src ∧ a.desc = c.desc))

/-- What a command works on: of a session's command, the data that came behind its descriptor (R274). -/
def Accepted.input (a : Accepted) (c : CmdIn) : CmdIn :=
  match c.src with
  | .sq _ _ => c
  | .session _ => { c with host := { list := [], listErr := false, dataErr := false, data := a.data } }

/-- An accepted command of opcode `op` starts, once it has its turn: the deadline, the family, the owner (`denied`), the mode and the
unused fields are judged, and `body` does the rest. -/
def State.start (s : State) (c : CmdIn) (op : Nat) (u : Used) (denied : State → Fin 8 → Denial)
    (body : CmdIn → CmdRef → State → State) : State :=
  match s.found c with
  | none => s
  | some a =>
    if ¬ s.active ∨ c.desc.opcode.toNat ≠ op ∨ s.mustWait op a then s
    else
      let t : State := { s with hst := { s.hst with accepted := s.hst.accepted.erase a } }
      let r := s.starting a.cmd
      let family : Bool := match opFamily op with
        | some f => t.on f r.fn
        | none => true
      if s.pastDeadline a.cmd c.desc.deadline.toNat then t.completeDetail a.cmd stBUSY (t.free_ 8).toNat (t.free_ 32).toNat
      else if ¬ family then t.completeReason r stDENIED 0xF4
      else
        match denied t r.fn with
        | .open_ => t.completeOpen r stDENIED
        | .reason code => t.completeReason r stDENIED code
        | .none =>
          if ¬ (opModes op).contains t.mode then t.completeOpen r stMODE
          else if ¬ descClean c.desc u then t.completeReason r stCONFLICT 0xF1
          else body (a.input c) r t

/-- No rule denies the command. -/
def notDenied (_ : State) (_ : Fin 8) : Denial := .none

/-- The data entries of the list whose entries stand at `at_` and on, as the walk reads them; none where the list breaks R257. -/
def sglWalk (at_ : DWord) : List (BitVec 128) → Option Segs
  | [] => none
  | e :: rest =>
    let addr := e.extractLsb' 0 64
    let len := (e.extractLsb' 64 32).toNat
    if at_.toNat % 16 ≠ 0 then none
    else if e.getLsbD 127 then sglWalk addr rest
    else if addr.toNat % 4 ≠ 0 ∨ len % 4 ≠ 0 ∨ len = 0 then none
    else if e.getLsbD 126 then some [(addr, len)]
    else (sglWalk (at_ + 16) rest).map (fun l => (addr, len) :: l)

/-- The pieces of a command's host buffer of `n` bytes, or none where its list breaks R257. -/
def hostSegs (c : CmdIn) (n : Nat) : Option Segs :=
  if descSgl c.desc then
    (sglWalk c.desc.hostAddr (c.host.list.take 4096)).filter (fun l => decide ((l.map (fun e => e.2)).foldl (· + ·) 0 = n))
  else some [(c.desc.hostAddr, n)]

/-- What R257 finds in the host's list, or in the `n` bytes of data, before the command acts: the completion, or none. -/
def State.hostFault (s : State) (c : CmdIn) (r : CmdRef) (n : Nat) : Option State :=
  if descSgl c.desc ∧ c.host.listErr then some (s.completeReason r stABORTED 0xF2)
  else if (hostSegs c n).isNone then some (s.completeReason r stCONFLICT 0xF2)
  else if c.host.dataErr then some (s.completeReason r stABORTED 0xF2)
  else none

/-- Data over the pieces of a buffer. -/
def scatter : Segs → List Byte → List (DWord × List Byte)
  | [], _ => []
  | e :: l, b => if b = [] then [] else (e.1, b.take e.2) :: scatter l (b.drop e.2)

/-- A ring's command returns data into its host buffer; a session's data goes behind its completion (R274). -/
def State.deliver (s : State) (r : CmdRef) (host : Segs) (data : List Byte) : State :=
  match r.src with
  | .sq _ _ => (scatter host data).foldl (fun s e => s.emit (.hostWrite r.fn e.1 e.2)) s
  | .session _ => s

/-- The most a capsule's body holds (R273). -/
def capsuleLimit : Nat := 0x100_0000

/-- Data too long for the capsule of a session's completion entry. -/
def tooLong (c : CmdIn) (n : Nat) : Bool :=
  match c.src with
  | .session _ => decide (capsuleLimit < 32 + n)
  | .sq _ _ => false

/-! ## Ethernet sessions (R272-R274) -/

/-- A session closes: its commands run on, and nothing more is sent in it. -/
def State.closeSession (s : State) (k : Fin 8) : State :=
  match s.session k with
  | none => s
  | some _ =>
    let s := s.setSession k none
    { s with hst := { s.hst with sessGen := s.hst.sessGen.set k (s.hst.sessGen[k] + 1) } }

/-- SESSION_CONNECT: a rejected handshake raises alert 8 (R338, R351), and in BLANK and RETURNED none is accepted; a ninth session is closed after its handshake. -/
def execSessionConnect (port : Fin 2) (certOk : Bool) (s : State) : Ans :=
  s.effect (fun s =>
    if ¬ s.active ∨ ¬ s.on F.HST_CTL_ETH_EN ∨ s.pwr.drain.isSome then s
    else if ¬ certOk ∨ s.fuses.lc = 0 ∨ s.fuses.lc = 3 then s.alert 8 0 port
    else
      match (List.finRange 8).find? (fun k => (s.session k).isNone) with
      | none => s
      | some k => s.setSession k (some { port := port, fn := none, mask := 0, owed := [], accepted := 0, evSeq := 0, seqOut := 0 }))

/-- The COMPLETE capsule that answers BIND. -/
def State.bindAnswer (s : State) (k : Fin 8) (status : Nat) : State :=
  s.capsule k 3 (some
    { acc := 0, event := false, code := 0, status := BitVec.ofNat 8 status, sqId := BitVec.ofNat 8 (0x80 + k), sqHead := 0,
      result := s.free_ 64, waitUs := 0, time := s.devTime.setWidth 48, noIrq := false })

/-- A BIND capsule: the first of a session; a further one is answered and changes nothing. A function that does not exist is not
permitted. -/
def State.bindCapsule (s : State) (k : Fin 8) (x : Session) (body : List Byte) (permitted : Bool) : State :=
  let fn := fieldAt body 0 1
  if x.fn.isSome ∨ ¬ permitted ∨ 8 ≤ fn then (s.bindAnswer k stDENIED).used
  else
    ((s.setSession k (some { x with fn := some (Fin.ofNat 8 fn), mask := BitVec.ofNat 64 (fieldAt body 8 8) })).bindAnswer k stOK).used

/-- The length of the data a SUBMIT must carry; none where the descriptor does not give it. -/
def submitData (d : Desc) : Option Nat :=
  let op := d.opcode.toNat
  if op = 0x02 ∨ op = 0x16 ∨ op = 0x20 ∨ op = 0x21 ∨ op = 0x40 then some d.length.toNat
  else if op = 0x10 then some (if d.reel = 0 then d.length.toNat else 0)
  else if op = 0x11 then some (4 * descP1 d 52 2)
  else if op = 0x42 then none
  else some 0

/-- A SUBMIT capsule of a session bound to `fn`: its descriptor and the data behind it. What it may carry is judged by the length that
the descriptor declares. -/
def State.submitCapsule (s : State) (k fn : Fin 8) (x : Session) (body : List Byte) : State :=
  let d := descOf (BitVec.ofNat 512 (leNat (body.take 64)))
  let data := body.drop 64
  let a := s.accept (.session k) fn d s.devTime
  let wrong : Bool := match submitData d with
    | some n => decide (n ≠ data.length)
    | none => false
  if 256 ≤ x.owed.length then a.2.completeDetail a.1 stBUSY (a.2.free_ 8).toNat (a.2.free_ 32).toNat
  else if d.hostAddr ≠ 0 ∨ descSgl d then a.2.completeReason a.1 stCONFLICT 0xF1
  else if opcodes.contains d.opcode.toNat ∧ capsuleLimit < 64 + (submitData d).getD 0 then a.2.completeReason a.1 stCONFLICT 0xF3
  else if opcodes.contains d.opcode.toNat ∧ wrong then a.2.completeReason a.1 stCONFLICT 0xF5
  else s.take (.session k) fn d s.devTime data

/-- The events that wait in a session go, once its connection takes them. -/
def State.sessionRoom (s : State) (k : Fin 8) (x : Session) (room : Bool) : State :=
  if room then
    x.backlog.foldl (fun s e => s.capsule k 4 (some e)) (s.setSession k (some { x with room := true, backlog := [] }))
  else s.setSession k (some { x with room := false })

/-- A capsule's KIND. -/
def capsuleKind (h : BitVec 128) : Nat := (h.extractLsb' 24 8).toNat

/-- A header as R273 lays it out, with the length of its body. -/
def headerOk (h : BitVec 128) (body : List Byte) : Bool :=
  decide ((h.extractLsb' 0 16).toNat = 0x4B47 ∧ (h.extractLsb' 16 8).toNat = 1 ∧ (h.extractLsb' 32 32).toNat = body.length ∧
    body.length ≤ capsuleLimit)

/-- A session receives a capsule: BIND must come first, and any other KIND than R273 lists, or a header that is none (log 131), closes
the session. -/
def State.receive (s : State) (k : Fin 8) (h : BitVec 128) (body : List Byte) (permitted : Bool) (room : Option Bool) : State :=
  match s.session k with
  | none => s
  | some x =>
    if ¬ headerOk h body then s.closeSession k
    else if capsuleKind h = 1 then s.bindCapsule k x body permitted
    else
      match x.fn with
      | none => s.closeSession k
      | some fn =>
        if capsuleKind h = 2 then s.submitCapsule k fn x body
        else if capsuleKind h = 5 then s.sessionRoom k x (room.getD x.room)
        else s.closeSession k

/-- BIND: a capsule with the client's permission for the function it names. -/
def execBind (k : Fin 8) (h : BitVec 128) (body : List Byte) (permitted : Bool) (s : State) : Ans :=
  s.effect (fun s => s.receive k h body permitted none)

/-- SUBMIT: a capsule with a descriptor and its data. -/
def execSubmit (k : Fin 8) (h : BitVec 128) (body : List Byte) (s : State) : Ans :=
  s.effect (fun s => s.receive k h body false none)

/-- KEEPALIVE: a capsule that also tells whether the connection takes the module's (log 130). -/
def execKeepalive (k : KeepaliveIn) (s : State) : Ans :=
  s.effect (fun s => s.receive k.session k.head k.body false (some k.room))

/-- KEEPALIVE_SEND. -/
def execKeepaliveSend (k : Fin 8) (s : State) : Ans := s.effect (fun s => s.capsule k 5 none)

/-- SESSION_TIMEOUT. -/
def execSessionTimeout (k : Fin 8) (s : State) : Ans := s.effect (fun s => s.closeSession k)

/-- SESSION_CLOSE. -/
def execSessionClose (k : Fin 8) (s : State) : Ans := s.effect (fun s => s.closeSession k)

end Sys2Proof.Machine
end

