-- ==== Sys2Proof/Machine/Store.lean ====
section
/-!
DEFINITION. The job store: Reels, quotas, media, sleds and rebuild (R215-R240, R343).
-/

namespace Sys2Proof.Machine

def State.setStore (s : State) (x : Store) : State := { s with store := x }

/-! ## Capacity (R216, R219, R240) -/

/-- The Reels in existence, with their slots. -/
def State.reelList (s : State) : List (Nat × Reel) :=
  s.store.reels.filterMap (fun e => e.2.map (fun r => (e.1, r)))

/-- User bytes held by the Reels of a set of functions. -/
def State.heldBytes (s : State) (sel : Fin 8 → Bool) : Nat :=
  ((s.reelList.filter (fun e => sel e.2.owner)).map (fun e => e.2.length)).foldl (· + ·) 0

/-- JS_CAPQn.USED_GB follows the function's Reels (log 41). -/
def State.syncUsed (s : State) (f : Fin 8) : State :=
  s.fset F.JS_CAPQ_USED_GB (s.heldBytes (fun g => decide (g = f)) / 10 ^ 9) f

/-- User capacity (R216). -/
def userCapacity : Nat := 256 * 10 ^ 12

/-- Where a Reel will end once its pending writes are durable. -/
def State.pendingEnd (s : State) (k : Nat) (r : Reel) : Nat :=
  (((s.store.writes ++ s.store.waiting).filter (fun w => !w.read && decide (w.handle.toNat = r.gen * 4096 + k))).map
    (fun w => if w.length = 0 then 0 else w.offset + w.length)).foldl Nat.max r.length

/-- How far the pending writes of a set of functions will lengthen their Reels. -/
def State.pendingGrowth (s : State) (sel : Fin 8 → Bool) : Nat :=
  (s.reelList.map (fun e => if sel e.2.owner then s.pendingEnd e.1 e.2 - e.2.length else 0)).foldl (· + ·) 0

/-- A write that would make its Reel `n` bytes longer than its pending writes will exceeds the function's quota or the free user
capacity. -/
def State.overCapacity (s : State) (f : Fin 8) (n : Nat) : Bool :=
  let mine (g : Fin 8) : Bool := decide (g = f)
  let limit := s.fv F.JS_CAPQ_LIMIT_GB f
  decide (limit ≠ 0 ∧ limit * 10 ^ 9 < s.heldBytes mine + s.pendingGrowth mine + n) ||
    decide (userCapacity < s.heldBytes (fun _ => true) + s.pendingGrowth (fun _ => true) + s.store.reclaim + n)

/-! ## Completion (R227) -/

/-- A store command that succeeds: OK_DELAYED when its QUEUE_WAIT exceeds the function's LATE_US. -/
def State.storeDone (s : State) (c : CmdRef) (result : Nat) (data : List Byte := []) : State :=
  s.complete c (if s.fv F.JS_QUOTA_LATE_US c.fn < c.waitUs then stDELAYED else stOK) result data

/-! ## Contents of Reels (R219, R223) -/

/-- The chunks of 64 KiB that a range touches. -/
def chunksOf (off n : Nat) : List Nat := if n = 0 then [] else (List.range ((off + n - 1) / 65536 - off / 65536 + 1)).map (off / 65536 + ·)

/-- The bytes of a Reel; space never written reads as zeros. -/
def Reel.read (r : Reel) (off n : Nat) : List Byte := (List.range n).map (fun k => smGet (fun _ => 0) r.data (off + k))

/-- The IV of a chunk: the handle, the chunk index and the count of its writes (R223). -/
def chunkIv (h : BitVec 32) (idx count : Nat) : BitVec 96 := (h ++ BitVec.ofNat 32 idx) ++ BitVec.ofNat 32 count

/-- The handle of the Reel in slot `k` (R217). -/
def Reel.handle (r : Reel) (k : Nat) : BitVec 32 := BitVec.ofNat 32 (r.gen * 4096 + k)

/-- A chunk as the media hold it: sealed under the Reel's key (R223). -/
def Reel.sealed (r : Reel) (k idx : Nat) : List Byte :=
  Config.gcmSeal r.key (chunkIv (r.handle k) idx (smGet (fun _ => 0) r.chunkWrites idx)) (r.read (65536 * idx) 65536)

/-- The Reel in slot `k` after a write: its data, the count and the tag of each chunk it touches, its length and its state. -/
def Reel.write (r : Reel) (k off : Nat) (data : List Byte) (close : Bool) : Reel :=
  let chunks := chunksOf off data.length
  let m : Reel := { r with
    data := data.zipIdx.foldl (fun m e => smSet (fun _ => 0) m (off + e.2) e.1) r.data,
    chunkWrites := chunks.foldl (fun m i => smSet (fun _ => 0) m i (smGet (fun _ => 0) m i + 1)) r.chunkWrites,
    length := if data.length = 0 then r.length else Nat.max r.length (off + data.length),
    state := if close then .closed else r.state }
  { m with tags := chunks.foldl (fun t i => smSet (fun _ => 0) t i
      (Config.gcmTag m.key (chunkIv (m.handle k) i (smGet (fun _ => 0) m.chunkWrites i)) (m.read (65536 * i) 65536))) m.tags }

/-- A chunk of the range has used up its count of writes (R223), those that pending writes of the Reel will add among them. -/
def State.worn (s : State) (h : BitVec 32) (r : Reel) (off n : Nat) : Bool :=
  (chunksOf off n).any (fun i =>
    decide (2 ^ 32 - 1 ≤ smGet (fun _ => 0) r.chunkWrites i + (s.store.writes ++ s.store.waiting).countP (fun w =>
      !w.read && decide (w.handle = h) && (chunksOf w.offset w.length).contains i)))

/-! ## Stripes (R215) -/

/-- Data of one stripe: a unit of 64 KiB on each of 15 sleds. -/
def stripeBytes : Nat := 983040

/-- The sled that holds stripe `i`'s parity. -/
def paritySled (i : Nat) : Nat := 15 - i % 16

/-- The sled of data unit `u` of stripe `i`: the data units follow the parity unit in ascending order, wrapping at 15. -/
def dataSled (i u : Nat) : Fin 16 := Fin.ofNat 16 (paritySled i + 1 + u)

/-- The data unit that a sled holds of stripe `i`, or none for the parity unit. -/
def unitOn (i : Nat) (n : Fin 16) : Option Nat :=
  if n.val = paritySled i then none else some ((n.val + 15 - paritySled i) % 16)

/-- Where a chunk of a Reel lies: the stripe of the store and its data unit, or none while its stripe is not programmed. -/
def Reel.place (r : Reel) (idx : Nat) : Option (Nat × Nat) :=
  (smGet (fun _ => none) r.stripes (idx / 15)).map (fun i => (i, idx % 15))

/-- The bytes that data unit `u` of stripe `i` holds. -/
def State.dataUnit (s : State) (i u : Nat) : List Byte :=
  match s.reelList.findSome? (fun e => (e.2.stripes.find? (fun m => decide (m.2 = some i))).map (fun m => (e, m.1))) with
  | some x => x.1.2.sealed x.1.1 (15 * x.2 + u)
  | none => List.replicate 65536 0

/-- The bytewise exclusive-OR of the units of a stripe on a set of sleds, each as `unit` gives it. -/
def xorUnits (unit : Fin 16 → List Byte) (sleds : List (Fin 16)) : List Byte :=
  sleds.foldl (fun a n => a.zipWith (fun x y => x ^^^ y) (unit n)) (List.replicate 65536 0)

/-- The unit of stripe `i` on a sled: data, or the exclusive-OR of the fifteen data units. -/
def State.unitBytes (s : State) (i : Nat) (n : Fin 16) : List Byte :=
  match unitOn i n with
  | some u => s.dataUnit i u
  | none => xorUnits (fun k => s.dataUnit i ((unitOn i k).getD 0)) ((List.finRange 16).filter (fun k => decide (k ≠ n)))

/-- The parity rebuild of the unit of stripe `i` on a sled: the exclusive-OR of the other fifteen (R231). -/
def State.rebuiltUnit (s : State) (i : Nat) (n : Fin 16) : List Byte :=
  xorUnits (s.unitBytes i) ((List.finRange 16).filter (fun k => decide (k ≠ n)))

/-- The stripe that the next programmed one takes: the first unused from a free value on. -/
def State.freeStripe (s : State) : Nat :=
  let taken := s.store.units.map (fun u => u.stripe) ++ s.store.unerased
  (((List.range (taken.length + 1)).map ((s.free_ 32).toNat + ·)).find? (fun i => !taken.contains i)).getD (s.free_ 32).toNat

/-- One stripe of a Reel is programmed with its parity (R215, R235): a unit on each sled, freshly written. A stripe already
programmed is written elsewhere. -/
def State.programStripe (s : State) (h : BitVec 32) (n : Nat) : State :=
  match s.reelAt h with
  | none => s.setStore { s.store with buffered := s.store.buffered.filter (fun b => decide (b.1 ≠ h ∨ b.2.1 ≠ n)) }
  | some r =>
    let old := smGet (fun _ => none) r.stripes n
    let i := s.freeStripe
    let x := s.store
    let s := s.used.setStore { x with
      units := x.units.filter (fun u => decide (some u.stripe ≠ old)) ++
        (List.finRange 16).map (fun k => { sled := k, stripe := i, age := 0, unread := List.replicate 16 0 }),
      sleds := x.sleds.map (fun d => { d with written := d.written + 65536 }),
      buffered := x.buffered.filter (fun b => decide (b.1 ≠ h ∨ b.2.1 ≠ n)) }
    s.setReel h (some { r with stripes := smSet (fun _ => none) r.stripes n (some i) })

/-- Every buffered stripe of a set of Reels is programmed, partial ones padded. -/
def State.flushBuffer (s : State) (sel : BitVec 32 → Bool) : State :=
  (s.store.buffered.filter (fun b => sel b.1)).foldl (fun s b => s.programStripe b.1 b.2.1) s

/-- The blocks of 4 KiB of a Reel's stripe `n` that a range writes. -/
def blocksOf (off len n : Nat) : BitVec 240 :=
  BitVec.ofFnLE (fun b : Fin 240 =>
    let a := stripeBytes * n + 4096 * b.val
    decide (0 < len ∧ a < off + len ∧ off < a + 4096))

/-- The blocks of a stripe that the buffer holds. -/
def Store.blocks (x : Store) (h : BitVec 32) (n : Nat) : BitVec 240 :=
  ((x.buffered.find? (fun b => decide (b.1 = h ∧ b.2.1 = n))).map (fun b => b.2.2)).getD 0

/-- Bytes that the buffer holds. -/
def Store.bufferedBytes (x : Store) : Nat :=
  (x.buffered.map (fun b => 4096 * (List.range 240).countP (fun k => b.2.2.getLsbD k))).foldl (· + ·) 0

/-- A durable write enters the write buffer of 512 MiB (R235), stripe by stripe: a stripe that is full is programmed, and so is one
for which the buffer has no room; a CLOSE has the Reel's partial stripes programmed. -/
def State.bufferWrite (s : State) (w : PendWrite) : State :=
  let last := if w.length = 0 then 0 else (w.offset + w.length - 1) / stripeBytes - w.offset / stripeBytes + 1
  let s := ((List.range last).map (w.offset / stripeBytes + ·)).foldl (fun s n =>
    let b := s.store.blocks w.handle n ||| blocksOf w.offset w.length n
    let rest := s.store.buffered.filter (fun e => decide (e.1 ≠ w.handle ∨ e.2.1 ≠ n))
    let t : State := s.setStore { s.store with buffered := rest ++ [(w.handle, n, b)] }
    if b = BitVec.allOnes 240 ∨ 0x2000_0000 < t.store.bufferedBytes then t.programStripe w.handle n else t) s
  if w.close then s.flushBuffer (fun h => decide (h = w.handle)) else s

/-! ## Ownership (R221, R343) -/

/-- The command needs a Reel key or the store KEK while D2 in SEALED withholds it. -/
def State.keyDenied (s : State) : Denial := if s.storeLocked then .reason 0x02 else .none

/-- The function may not name the Reel. -/
def State.notOwner (s : State) (h : BitVec 32) (fn : Fin 8) : Bool :=
  match s.reelAt h with
  | some r => decide (r.owner ≠ fn)
  | none => false

/-! ## REEL_CREATE (R217, R218, R223) -/

/-- The slot a new Reel takes: the spec names none, so the search begins at a free value. -/
def State.emptySlot (s : State) : Option Nat :=
  ((List.range 4096).map (fun k => (k + (s.free_ 12).toNat) % 4096)).find? (fun k => (smGet (fun _ => none) s.store.reels k).isNone)

/-- REEL_CREATE: the TRNG makes the Reel's key, a free value; a KEY_REF uses its imported key up; one that names an empty slot is out of range. -/
def execReelCreate (c : CmdIn) (s : State) : Ans :=
  s.effect (fun s => s.start c 0x01 { p1 := 0xF } (fun s _ => s.keyDenied) (fun c r s =>
    let ref := descP1 c.desc 40 1 % 16
    if ref ≠ 0 ∧ ¬ s.sec.keySlots.getLsbD ref then s.completeReason r stCONFLICT 0xF3
    else
      match s.emptySlot with
      | none => s.used.completeReason r stQUOTA 3
      | some k =>
        let gen := smGet (fun _ => 0) s.store.gens k % 0xFFFFF + 1
        let reel : Reel :=
          { gen := gen, state := .open, owner := r.fn, length := 0, data := [], imported := decide (ref ≠ 0),
            key := if ref = 0 then Config.kekWrap (s.free_ 256) else s.sec.keys.toList.getD ref 0, chunkWrites := [], tags := [],
            stripes := [], loaded := false }
        let s : State := { s.used with
          store := { s.store with
            reels := smSet (fun _ => none) s.store.reels k (some reel),
            gens := smSet (fun _ => 0) s.store.gens k gen },
          sec := { s.sec with keySlots := if ref = 0 then s.sec.keySlots else s.sec.keySlots &&& ~~~((1 : BitVec 16) <<< ref) } }
        s.storeDone r (gen * 4096 + k)))

/-! ## Admission (R226) -/

def State.bucket (s : State) (write : Bool) (f : Fin 8) : Int :=
  if write then s.store.writeTok[f] else s.store.readTok[f]

def bucketRate (write : Bool) : Fld := if write then F.JS_QUOTA_WR_RATE else F.JS_QUOTA_RD_RATE

/-- A command is admitted: its bucket pays for LENGTH. -/
def State.pay (s : State) (write : Bool) (f : Fin 8) (length : Nat) : State :=
  let t := s.bucket write f - 200 * (length : Int)
  s.setStore (if write then { s.store with writeTok := s.store.writeTok.set f t }
    else { s.store with readTok := s.store.readTok.set f t })

/-- The wait predicted from the deficit and RATE, in microseconds: until the bucket stands at 0. -/
def State.predictedWait (s : State) (write : Bool) (f : Fin 8) : Nat :=
  let rate := 200 * Nat.max 1 (s.fv (bucketRate write) f)
  ((-(s.bucket write f)).toNat + rate - 1) / rate

/-- The function's commands that wait for their buckets. -/
def State.storeWaiting (s : State) (f : Fin 8) : List PendWrite := s.store.waiting.filter (fun w => decide (w.cmd.fn = f))

/-- What the bucket says of a new command. -/
inductive Admission where
  | now | later | refused
deriving DecidableEq, Repr

/-- A command of a class with RATE 0 is refused; one that finds others of its class waiting, or its bucket below 0, waits. -/
def State.admission (s : State) (write : Bool) (f : Fin 8) (deadline : Nat) : Admission :=
  let ahead := (s.storeWaiting f).any (fun w => w.read != write)
  if s.fv (bucketRate write) f = 0 then .refused
  else if 0 ≤ s.bucket write f ∧ ¬ ahead then .now
  else if (deadline ≠ 0 ∧ deadline < s.predictedWait write f) ∨ 1024 ≤ (s.storeWaiting f).length then .refused
  else .later

/-- An admitted command runs: a read until it is served, a write until it is durable. QUEUE_WAIT ends with the start of the media
access (R227): of a write here, of a read when it is served. -/
def State.runStore (s : State) (w : PendWrite) : State :=
  let s := s.pay (!w.read) w.cmd.fn w.length
  let w : PendWrite := { w with cmd := s.starting w.cmd }
  if s.store.state = .failed then s.completeOpen w.cmd stMEDIA
  else if w.read then s.setStore { s.store with reads := s.store.reads ++ [w] }
  else s.setStore { s.store with writes := s.store.writes ++ [w], lostHealthy := none }

/-- A store command meets its bucket. -/
def State.meetBucket (s : State) (w : PendWrite) : State :=
  match s.admission (!w.read) w.cmd.fn w.deadline with
  | .refused => s.completeReason w.cmd stQUOTA 1
  | .now => s.runStore w
  | .later => s.setStore { s.store with waiting := s.store.waiting ++ [w] }

/-- The one of some waiting commands that is served first: the oldest of the highest PRIORITY (R249). -/
def firstServed (l : List PendWrite) : Option PendWrite := l.find? (fun w => l.all (fun x => decide (x.prio ≤ w.prio)))

/-- STORE_COMMAND_ADMIT: the first of the function's waiting commands of the class, once its bucket is at 0 or above and refresh does
not stand ahead of the host classes (R230). -/
def execStoreCommandAdmit (fn : Fin 8) (write : Bool) (s : State) : Ans :=
  s.effect (fun s =>
    match firstServed ((s.storeWaiting fn).filter (fun w => w.read != write)) with
    | none => s
    | some w =>
      if s.bucket write fn < 0 ∨ ¬ s.active ∨ s.store.refreshFirst then s
      else (s.setStore { s.store with waiting := s.store.waiting.erase w }).runStore w)

/-- STORE_DEADLINE_MISS: an admitted or waiting command whose deadline class 0 takes away is refused, with the hint. -/
def execStoreDeadlineMiss (src : Src) (cmdId : BitVec 32) (hintUs : BitVec 32) (s : State) : Ans :=
  s.effect (fun s =>
    let hit (w : PendWrite) : Bool := decide (w.cmd.src = src ∧ w.cmd.cmdId = cmdId ∧ w.deadline ≠ 0)
    match (s.store.writes ++ s.store.reads ++ s.store.waiting).find? hit with
    | none => s
    | some w =>
      (s.setStore { s.store with
        writes := s.store.writes.erase w, reads := s.store.reads.erase w, waiting := s.store.waiting.erase w }).completeDetail w.cmd stBUSY 0
        hintUs.toNat)

/-! ## REEL_WRITE (R218, R219, R235, R269) -/

/-- CRC-32C as R269 asks for it. -/
def reelCrc (data : List Byte) : Nat := crc32c data

/-- REEL_WRITE. -/
def execReelWrite (c : CmdIn) (s : State) : Ans :=
  let d := c.desc
  let close := d.flags.getLsbD 3
  let check := d.flags.getLsbD 4
  let n := d.length.toNat
  let off := d.offset.toNat
  s.effect (fun s => s.start c 0x02
    { flags := 0x18, reel := true, offset := true, length := true, host := true, p1 := if check then p1Bits 40 4 else 0 }
    (fun s fn => if s.notOwner d.reel fn then .open_ else s.keyDenied) (fun c r s =>
    match s.reelAt d.reel with
    | none => s.completeReason r stCONFLICT 1
    | some reel =>
      if s.store.writesBarred then s.completeDetail r stBUSY 0 (s.free_ 32).toNat
      else if reel.state ≠ .open then s.completeReason r stCONFLICT 2
      else if off % 4096 ≠ 0 ∨ (n % 4096 ≠ 0 ∧ ¬ close) then s.completeReason r stCONFLICT 6
      else if 0xFFFFF000 < n ∨ (n = 0 ∧ ¬ close) then s.completeReason r stCONFLICT 0xF3
      else if 2 ^ 45 < off + n then s.completeReason r stCONFLICT 5
      else if s.worn d.reel reel off n ∨
          s.overCapacity r.fn (if n = 0 then 0 else off + n - s.pendingEnd (d.reel.toNat % 4096) reel) then s.completeReason r stQUOTA 2
      else
        match s.hostFault c r n with
        | some t => t
        | none =>
          if check ∧ reelCrc c.host.data ≠ descP1 d 40 4 then s.completeOpen r stINTEGRITY
          else s.meetBucket
            { cmd := r, handle := d.reel, offset := off, length := n, data := c.host.data.take n, close := close, read := false,
              deadline := d.deadline.toNat, prio := d.priority.toNat, host := [], media := [], tags := [] }))

/-- A pending write that must land before another: earlier to the same Reel, from the same source and overlapping, or any
earlier one before a CLOSE. -/
def PendWrite.before (a b : PendWrite) : Bool :=
  !a.read && decide (a.handle = b.handle ∧ a.cmd.acc < b.cmd.acc) &&
    (b.close || (decide (a.cmd.src = b.cmd.src) && decide (a.offset < b.offset + b.length) && decide (b.offset < a.offset + a.length)))

/-- A REEL_WRITE accepted before command `n` and not started. -/
def State.writeAhead (s : State) (h : BitVec 32) (n : Nat) : Bool :=
  s.hst.accepted.any (fun a => decide (a.desc.opcode = 2 ∧ a.desc.reel = h ∧ a.cmd.acc < n))

/-- REEL_WRITE_DURABLE. A write that a CLOSE accepted before it has overtaken finds its Reel CLOSED and is refused (log 116); in a
FAILED store it ends with FAILED_MEDIA (R234). -/
def execReelWriteDurable (src : Src) (cmdId : BitVec 32) (s : State) : Ans :=
  s.effect (fun s =>
    match s.store.writes.find? (fun w => decide (w.cmd.src = src ∧ w.cmd.cmdId = cmdId)) with
    | none => s
    | some w =>
      if (s.store.writes ++ s.store.waiting).any (fun a => a.before w) ∨ (w.close ∧ s.writeAhead w.handle w.cmd.acc) ∨ ¬ s.active then s
      else
        let s := s.setStore { s.store with writes := s.store.writes.erase w }
        match s.reelAt w.handle with
        | none => s.completeOpen w.cmd stABORTED
        | some r =>
          if s.store.state = .failed then s.completeOpen w.cmd stMEDIA
          else if r.state ≠ .open then s.completeReason w.cmd stCONFLICT 2
          else
            let r := r.write (w.handle.toNat % 4096) w.offset w.data w.close
            (((s.setReel w.handle (some r)).bufferWrite w).syncUsed r.owner).storeDone w.cmd r.length)

/-! ## REEL_READ and REEL_DELETE (R218, R220-R222) -/

/-- REEL_READ: the media and the tags are found as the operands say when it is served. -/
def execReelRead (c : CmdIn) (media : List (Nat × MediaVerdict)) (tags : List (Nat × Bool)) (s : State) : Ans :=
  let d := c.desc
  s.effect (fun s => s.start c 0x03 { reel := true, offset := true, length := true, host := true }
    (fun s fn => if s.notOwner d.reel fn then .open_ else s.keyDenied) (fun c r s =>
    match s.reelAt d.reel with
    | none => s.completeReason r stCONFLICT 1
    | some reel =>
      if reel.length < d.offset.toNat + d.length.toNat then s.completeReason r stCONFLICT 5
      else if tooLong c d.length.toNat then s.completeReason r stCONFLICT 0xF3
      else
        match s.hostFault c r d.length.toNat with
        | some t => t
        | none => s.meetBucket
          { cmd := r, handle := d.reel, offset := d.offset.toNat, length := d.length.toNat, data := [], close := false, read := true,
            deadline := d.deadline.toNat, prio := d.priority.toNat, host := (hostSegs c d.length.toNat).getD [], media := media, tags := tags }))

/-- The commands on a Reel accepted before a REEL_DELETE have not all completed. -/
def State.reelBusy (s : State) (c : CmdIn) : Bool :=
  (s.store.writes ++ s.store.reads ++ s.store.waiting).any (fun w => decide (w.handle = c.desc.reel)) ||
    (match s.found c with
    | some me => s.hst.accepted.any (fun a => decide (a.desc.reel = c.desc.reel ∧ c.desc.reel ≠ 0 ∧ a.cmd.acc < me.cmd.acc))
    | none => false)

/-- REEL_DELETE: it waits for the commands before it; then the key and the handle are gone. -/
def execReelDelete (c : CmdIn) (s : State) : Ans :=
  let h := c.desc.reel
  s.effect (fun s =>
    if s.reelBusy c then s
    else s.start c 0x04 { reel := true } (fun s fn => if s.notOwner h fn ∧ fn.val ≠ 0 then .open_ else .none) (fun _ r s =>
      match s.reelAt h with
      | none => s.completeReason r stCONFLICT 1
      | some reel =>
        if reel.state = .inUse then s.completeReason r stCONFLICT 4
        else
          let s := (s.setReel h none).syncUsed reel.owner
          let gone := reel.stripes.filterMap (fun e => e.2)
          (s.setStore { s.store with
            reclaim := s.store.reclaim + reel.length, unerased := s.store.unerased ++ gone,
            units := s.store.units.filter (fun u => !gone.contains u.stripe),
            buffered := s.store.buffered.filter (fun b => decide (b.1 ≠ h)) }).storeDone r 0))

/-- RECLAIM_ERASE: blocks of deleted Reels are erased and become free. -/
def execReclaimErase (bytes : Nat) (s : State) : Ans :=
  s.effect (fun s =>
    if s.active then
      s.setStore { s.store with reclaim := s.store.reclaim - bytes, unerased := s.store.unerased.drop (bytes / stripeBytes) }
    else s)

/-! ## Sleds (R232-R237) -/

def State.sled (s : State) (n : Fin 16) : Sled := s.store.sleds[n]
def State.setSled (s : State) (n : Fin 16) (x : Sled) : State := s.setStore { s.store with sleds := s.store.sleds.set n x }

/-- SLED_FAULT with its record: the bay and KIND (R236). -/
def State.sledFault (s : State) (n : Fin 16) (kind : Nat) : State :=
  let r := n.val + 256 * kind
  (s.csMasked 0x15 ([6, 11, 24, 29].getD (n.val / 4) 6) [r] 7).raise .sledFault r

/-- The store changes its state; SYS_REDUND's store cause stands outside FULL (R234). -/
def State.setStoreState (s : State) (x : StoreState) : State :=
  (s.setStore { s.store with state := x }).redund 2 (decide (x ≠ .full))

/-- The running rebuild stops. -/
def State.stopRebuild (s : State) : State := s.fset F.JS_REBUILD_RUNNING 0

/-- A sled is lost to the store: the first makes it DEGRADED, a second makes it FAILED; the one being rebuilt starts again
(R234, R237). -/
def State.loseSled (s : State) (n : Fin 16) (healthy : Bool) : State :=
  if s.store.rebuildSlot = some n then
    let s := s.stopRebuild
    let s := s.setStore { s.store with checkpointGB := 0 }
    let s := s.fset F.JS_REBUILD_PCT 0
    if s.store.state = .failed then s else s.setStoreState .degraded
  else if s.store.state = .full then (s.setStore { s.store with rebuildSlot := some n }).setStoreState .degraded
  else if s.store.state = .failed then s
  else ((s.setStore { s.store with prior := s.store.state, lostHealthy := if healthy then some n else none }).stopRebuild).setStoreState
    .failed

/-- The sled serves the store: online or being rebuilt. -/
def Sled.serving (x : Sled) : Bool := decide (x.state = 1 ∨ x.state = 3)

/-- A sled fails (R236). -/
def State.failSled (s : State) (n : Fin 16) (kind : Nat) : State :=
  if (s.sled n).serving then (((s.setSled n { s.sled n with state := 4 }).loseSled n false).sledFault n kind) else s

/-- SLED_REMOVED: removal without OFFLINE is a failure; OFFLINE clears. -/
def execSledRemoved (sled : Fin 16) (s : State) : Ans :=
  s.effect (fun s =>
    let x := s.sled sled
    if ¬ s.active then s
    else
      let s := (s.setSled sled { x with state := 0 }).fset F.JS_SLED_CTL_OFFLINE 0 sled
      if x.serving then (s.loseSled sled (decide (x.state = 1))).sledFault sled 2 else s)

/-- SLED_NO_ANSWER. -/
def execSledNoAnswer (sled : Fin 16) (s : State) : Ans := s.effect (fun s => if s.active then s.failSled sled 1 else s)

/-- SLED_INTERNAL_FAULT. -/
def execSledInternalFault (sled : Fin 16) (s : State) : Ans := s.effect (fun s => if s.active then s.failSled sled 1 else s)

/-- SLED_OVER_TEMPERATURE. -/
def execSledOverTemperature (sled : Fin 16) (s : State) : Ans := s.effect (fun s => if s.active then s.failSled sled 5 else s)

/-- A block of the sled is retired. The spec gives no count of spare blocks: SPARE_PCT falls to a free value. -/
def State.retireBlock (s : State) (n : Fin 16) : State :=
  let x := s.sled n
  let left := Nat.min x.sparePct (s.free_ 7).toNat
  let s := s.used.setSled n { x with retired := x.retired + 1, sparePct := left }
  if ¬ x.serving then s
  else if left = 0 then s.failSled n 4
  else if left ≤ 10 ∧ 10 < x.sparePct then s.sledFault n 3
  else s

/-- FLASH_PROGRAM_FAIL: the program is repeated from the write buffer. -/
def execFlashProgramFail (sled : Fin 16) (s : State) : Ans := s.effect (fun s => if s.active then s.retireBlock sled else s)

/-! ## Reading codewords (R228-R231) -/

/-- Every other sled of the stripe is there for a rebuild (R231). -/
def State.othersOnline (s : State) (n : Fin 16) : Bool :=
  (List.finRange 16).all (fun k : Fin 16 => decide (k = n) || decide ((s.sled k).state = 1))

/-- How a read ended: by the hard decode, a retry, the soft decode, the rebuild, or not at all. -/
inductive ReadEnd where
  | hard | retry | soft | rebuild | lost
deriving DecidableEq, Repr

/-- The escalation of R228. For class 0 the retry and the rebuild race, and where both would succeed a free value decides. In a FAILED
store every read of the classes 0 to 2 is lost (R234). -/
def State.readEnd (s : State) (n : Fin 16) (cls : Nat) (m : MediaVerdict) : ReadEnd :=
  let here := decide ((s.sled n).state = 1)
  let rebuild := (List.finRange 16).all (fun k : Fin 16 => decide (k = n) || m.others.getLsbD k.val) && s.othersOnline n &&
    decide (s.store.state ≠ .failed)
  let retry := here && m.retry
  if s.store.state = .failed ∧ cls ≠ 3 then .lost
  else if here && m.hard then .hard
  else if cls = 0 then
    if retry && rebuild then (if s.free_ 1 = 1 then .retry else .rebuild)
    else if retry then .retry
    else if rebuild then .rebuild
    else .lost
  else if retry then .retry
  else if here && m.soft then .soft
  else if rebuild then .rebuild
  else .lost

/-- A stripe unit is queued for refresh (R230). -/
def State.queueRefresh (s : State) (n : Fin 16) (stripe : Nat) : State :=
  if s.store.refresh.contains (n, stripe) then s else s.setStore { s.store with refresh := s.store.refresh ++ [(n, stripe)] }

/-- A read of a codeword has ended: the sled's counters, the time since the codeword was read, and the refresh of its stripe unit where
it needed more than the hard decode or shows many errors (R228, R230, R233). -/
def State.countRead (s : State) (n : Fin 16) (cw cls : Nat) (e : ReadEnd) (many : Bool) : State :=
  let x := s.sled n
  let past3 := decide (cls ≠ 0) && decide (e = .soft ∨ e = .rebuild ∨ e = .lost)
  let s := s.setSled n { x with
    retries := if e = .hard then x.retries else s.devTime :: x.retries, soft := if past3 then s.devTime :: x.soft else x.soft,
    rebuilt := x.rebuilt + (if e = .rebuild then 1 else 0), lost := x.lost + (if e = .lost then 1 else 0) }
  let s := s.setStore { s.store with
    units := s.store.units.map (fun u =>
      if u.sled = n ∧ u.stripe = cw / 16 then { u with unread := u.unread.set (cw % 16) 0 } else u),
    toPatrol := s.store.toPatrol.filter (fun c => decide (c ≠ (n, cw))),
    overdue := s.store.overdue.filter (fun c => decide (c ≠ (n, cw))) }
  if (e = .hard ∧ ¬ many) ∨ e = .lost then s else s.queueRefresh n (cw / 16)

/-- What the hard decode finds where nothing is wrong. -/
def MediaVerdict.good : MediaVerdict := { hard := true, manyErrors := false, retry := true, soft := true, others := BitVec.allOnes 16 }

/-- One codeword of a Reel is read for the host (class 1): whether it was lost. A codeword that is not programmed is in the buffer. -/
def State.readCodeword (s : State) (r : Reel) (w : PendWrite) (c : Nat) : Bool × State :=
  match r.place (c / 16) with
  | none => (false, s)
  | some p =>
    let n := dataSled p.1 p.2
    let m := ((w.media.find? (fun x => decide (x.1 = c))).map (fun x => x.2)).getD MediaVerdict.good
    if m = MediaVerdict.good ∧ (s.sled n).state = 1 ∧ s.store.state ≠ .failed then (false, s)
    else
      let e := s.readEnd n 1 m
      (decide (e = .lost), s.countRead n (16 * p.1 + c % 16) 1 e m.manyErrors)

/-- A chunk whose tag check failed is rebuilt from parity and checked again: whether it may be delivered; its codewords are then
rewritten (R224). -/
def State.rebuildChunk (s : State) (r : Reel) (t : Nat × Bool) : Bool × State :=
  match r.place t.1 with
  | none => (false, s)
  | some p =>
    let n := dataSled p.1 p.2
    if t.2 ∧ s.othersOnline n then (true, s.queueRefresh n p.1) else (false, s)

/-- An admitted read is served: it delivers its data, or the failure that it meets (R224, R228). -/
def State.serveReel (s : State) (w : PendWrite) : State :=
  let w : PendWrite := { w with cmd := s.starting w.cmd }
  match s.reelAt w.handle with
  | none => s.completeOpen w.cmd stABORTED
  | some r =>
    if s.store.state = .failed then s.completeOpen w.cmd stMEDIA
    else
      let cws := if w.length = 0 then [] else
        (List.range ((w.offset + w.length - 1) / 4096 - w.offset / 4096 + 1)).map (w.offset / 4096 + ·)
      let x := cws.foldl (fun (x : Bool × State) c =>
        let y := x.2.readCodeword r w c
        (x.1 || y.1, y.2)) (false, s)
      if x.1 then x.2.completeOpen w.cmd stMEDIA
      else
        let bad := w.tags.filter (fun t => (chunksOf w.offset w.length).contains t.1)
        let y := bad.foldl (fun (y : Option Nat × State) t =>
          let z := y.2.rebuildChunk r t
          (if y.1.isSome ∨ z.1 then y.1 else some t.1, z.2)) (none, x.2)
        match y.1 with
        | some k => (y.2.csMasked 0x16 0xFF [w.handle.toNat, k] 3).completeOpen w.cmd stINTEGRITY
        | none =>
          let data := r.read w.offset w.length
          (y.2.deliver w.cmd w.host data).storeDone w.cmd w.length data

/-- A TCLK period with no command serves the oldest admitted read, unless refresh stands ahead of it (R227, R230; log 117). -/
def State.serveReels (s : State) : State :=
  match s.store.reads with
  | [] => s
  | w :: rest => if s.store.refreshFirst then s else (s.setStore { s.store with reads := rest }).serveReel w

/-- A strip that could not be delivered has been: what waits for it goes on. -/
def State.stripDelivered (s : State) (l : Nat) : State :=
  let s := s.setStore { s.store with undelivered := s.store.undelivered.filter (fun x => decide (x.1 ≠ l)) }
  let s : State := { s with sht := { s.sht with
    holdReqs := s.sht.holdReqs.filter (fun r => !(decide (r.cause = 2 ∧ r.asked = l - 2) && r.strip.isNone && r.cmd.isNone)) } }
  s.endWaiting

/-- A class 0 read of a strip that begins at line `l` has failed: the module requests a Hold (R229), also while a Hold at another
boundary stands. -/
def State.stripLost (s : State) (l : Nat) : State :=
  if s.job.isNone ∨ s.store.undelivered.any (fun x => decide (x.1 = l)) then s
  else
    let b := s.effectiveBoundary (l - 2) false
    let s := s.setStore { s.store with undelivered := (l, b) :: s.store.undelivered }
    if s.sht.held.any (fun h => decide (h.b = b)) then s else s.requestHold (l - 2) 2 none 0 false none

/-- CODEWORD_READ: `line` is the first line of the strip that a class 0 read serves. -/
def execCodewordRead (sled : Fin 16) (cw : Nat) (cls : Fin 4) (line : Option Nat) (m : MediaVerdict) (s : State) : Ans :=
  s.effect (fun s =>
    if ¬ s.active then s
    else
      let e := s.readEnd sled cls m
      let s := s.used.countRead sled cw cls e m.manyErrors
      match line with
      | none => s
      | some l => if cls.val ≠ 0 then s else if e = .lost then s.stripLost l else s.stripDelivered l)

/-- PATROL_READ: class 3; a block that patrol finds needing step 3 for the second time is retired (R232). -/
def execPatrolRead (sled : Fin 16) (cw : Nat) (m : MediaVerdict) (s : State) : Ans :=
  s.effect (fun s =>
    if ¬ s.active then s
    else
      let e := s.readEnd sled 3 m
      let s := s.countRead sled cw 3 e m.manyErrors
      if e = .soft ∨ e = .rebuild ∨ e = .lost then
        let x := s.sled sled
        let b := Config.flashBlock sled cw
        let k := smGet (fun _ => 0) x.step3 b + 1
        let s := s.setSled sled { x with step3 := smSet (fun _ => 0) x.step3 b (if 2 ≤ k then 0 else k) }
        if 2 ≤ k then s.retireBlock sled else s
      else s)

/-- REFRESH: the stripe unit of a sled and a stripe is rewritten elsewhere (R230). -/
def execRefresh (u : Fin 16 × Nat) (s : State) : Ans :=
  s.effect (fun s =>
    let sled := u.1
    let mine (x : FlashUnit) : Bool := decide (x.sled = sled ∧ x.stripe = u.2)
    if ¬ s.active ∨ ¬ s.store.units.any mine then s
    else
      let x := s.sled sled
      let s := s.setSled sled { x with refreshed := s.devTime :: x.refreshed, written := x.written + 65536 }
      s.setStore { s.store with
        units := s.store.units.map (fun u => if mine u then { u with age := 0, unread := List.replicate 16 0 } else u),
        refresh := s.store.refresh.erase u })

/-! ## The ageing of the media (R230) -/

/-- One day in TCLK periods. -/
def day : Nat := 86400 * 200000000

/-- A days field whose 0 acts as its default. -/
def State.days (s : State) (f : Fld) (dflt : Nat) : Nat := if s.fv f = 0 then dflt else s.fv f

/-- How much a unit on a sled ages in a TCLK period: once up to 40 °C, twice as much for each 10 °C above (log 114). -/
def ageRate (t : Int) : Nat := 2 ^ ((t - 40).toNat / 10)

/-- The stripe units that wait for refresh: by error trend, and by age. -/
def State.refreshDue (s : State) : List (Fin 16 × Nat) :=
  s.store.refresh ++ (s.store.units.filter (fun u =>
    decide (s.days F.JS_MEDIA_REFRESH_AGE_D 180 * day < u.age) && !s.store.refresh.contains (u.sled, u.stripe))).map (fun u => (u.sled, u.stripe))

/-- Bytes that wait for refresh. -/
def State.refreshBacklog (s : State) : Nat := 65536 * s.refreshDue.length

/-- The codewords whose patrol is overdue: not read within PATROL_D days. -/
def State.patrolDue (s : State) : List (Fin 16 × Nat) :=
  s.store.units.flatMap (fun u => (u.unread.zipIdx.filter (fun e => decide (s.days F.JS_MEDIA_PATROL_D 30 * day < e.1))).map
    (fun e => (u.sled, 16 * u.stripe + e.2)))

/-- The units by age, the oldest first. -/
def byAge (l : List FlashUnit) : List FlashUnit :=
  l.foldl (fun a u => a.takeWhile (fun v => decide (u.age ≤ v.age)) ++ u :: a.dropWhile (fun v => decide (u.age ≤ v.age))) []

/-- The power-on patrol begins: it reads every written codeword, oldest data first. -/
def State.startPatrol (s : State) : State :=
  s.setStore { s.store with
    toPatrol := (byAge s.store.units).flatMap (fun u => (List.range 16).map (fun c => (u.sled, 16 * u.stripe + c))) }

/-- A TCLK period passes over the media. A codeword that is overdue stands on the patrol's list until PATROL_READ reads it. Refresh is placed ahead of the host classes above 1 % of user capacity, until below 0.5 %. -/
def State.ageMedia (s : State) : State :=
  if s.store.units = [] then s
  else
    let s := s.setStore { s.store with
      units := s.store.units.map (fun u =>
        { u with age := u.age + ageRate (Config.sledTemp u.sled s.devTime), unread := u.unread.map (· + 1) }) }
    let s := s.setStore { s.store with
      overdue := s.store.overdue ++ s.patrolDue.filter (fun c => !s.store.overdue.contains c) }
    s.setStore { s.store with
      refreshFirst := if userCapacity < 100 * s.refreshBacklog then true
        else if 200 * s.refreshBacklog < userCapacity then false else s.store.refreshFirst }

/-! ## The strip index of a Reel (R239, R263, R264; log 118) -/

/-- The strips of a Reel from offset `o` on, one after another as R389 lays them out; data that does not begin a strip ends the index. -/
def Reel.stripsFrom (r : Reel) : Nat → Nat → List StripHdr
  | 0, _ => []
  | fuel + 1, o =>
    if r.length < o + 32 ∨ ¬ r.data.any (fun e => decide (o ≤ e.1)) then []
    else
      let b := r.read o 32
      if fieldAt b 0 2 ≠ 0x4146 then []
      else
        let h := stripHdr b
        h :: r.stripsFrom fuel (o + (32 + h.payload + 31) / 32 * 32)

/-- The strip index of a Reel. -/
def Reel.strips (r : Reel) : List StripHdr := r.stripsFrom (r.data.length + 1) 0

/-- The lines of a Reel. -/
def Reel.lines (r : Reel) : Nat := (r.strips.map (fun h => h.first + h.lines)).foldl Nat.max 0

/-- The stored bytes of the 32 lines from line `l` on: of each strip, the share that its lines have of its payload. -/
def windowBytes (strips : List StripHdr) (l : Nat) : Nat :=
  (strips.map (fun h =>
    let part := Nat.min (h.first + h.lines) (l + 32) - Nat.max h.first l
    (h.payload * part + h.lines - 1) / Nat.max 1 h.lines)).foldl (· + ·) 0

/-- The highest stored bytes of any 32 consecutive lines of lines `lo` to `hi` - 1. The sum grows and falls evenly between the places
where a strip enters or leaves the 32 lines, so one of those has the highest. -/
def worstWindow (strips : List StripHdr) (lo hi : Nat) : Nat :=
  let clamp (l : Nat) : Nat := Nat.max lo (Nat.min l (hi - 32))
  ((lo :: strips.flatMap (fun h => [clamp h.first, clamp (h.first - 32), clamp (h.first + h.lines), clamp (h.first + h.lines - 32)])).map
    (windowBytes strips)).foldl Nat.max 0

/-- The store rate in MB/s, rounded up, of lines `lo` to `hi` - 1 at a line rate. -/
def Reel.storeRate (r : Reel) (lo hi rate : Nat) : Nat := (worstWindow r.strips lo hi * rate + 32 * 10 ^ 6 - 1) / (32 * 10 ^ 6)

/-! ## Replacement and rebuild (R237-R239) -/

/-- The LED of a bay: 1 amber flashing, 2 amber steady, 3 green flashing, 0 dark. -/
def State.led (s : State) (n : Fin 16) (code : Nat) : State := s.emit (.led n code)

/-- A write of JS_SLEDn_CTL that sets OFFLINE. -/
def State.takeOffline (s : State) (n : Fin 16) : State :=
  if s.store.state ≠ .full then s.fset F.JS_SLED_CTL_REJ 1 n
  else
    let s := (s.setSled n { s.sled n with state := 2 }).fset F.JS_SLED_CTL_OFFLINE 1 n
    ((s.setStore { s.store with rebuildSlot := some n }).setStoreState .degraded).led n 1

/-- SLED_OFFLINE. -/
def execSledOffline (a : Agent) (sled : Fin 16) (s : State) : Ans :=
  s.effect (fun s => s.guarded a .JS_SLED_CTL sled (fun s => s.takeOffline sled))

/-- SLED_INSERTED: the second sled of a FAILED store put back healthy, with no write since, restores it; a sled below 20 TB is
refused; any other waits for its rebuild (log 42). -/
def execSledInserted (sled : Fin 16) (rawTB : Nat) (serial : BitVec 128) (healthyReinsert : Bool) (s : State) : Ans :=
  s.effect (fun s =>
    let x := s.sled sled
    if ¬ s.active ∨ x.state ≠ 0 then s
    else if s.store.state = .failed ∧ s.store.lostHealthy = some sled ∧ healthyReinsert then
      let s := s.setSled sled { x with state := 1 }
      let s := (s.setStore { s.store with lostHealthy := none }).setStoreState s.store.prior
      if s.store.state = .rebuilding then s.fset F.JS_REBUILD_RUNNING 1 else s
    else if rawTB < 20 then s.led sled 2
    else
      let s := s.setSled sled { state := 2, serial := serial, since := s.devTime, accepted := true }
      s.csReport 0x03 ([6, 11, 24, 29].getD (sled.val / 4) 6) [sled, serial.toNat] false)

/-- Rebuild is put off: a job loaded or printing from the store needs more than 22.4 GB/s, or DEFER is set while a Reel is loaded or
printed (R238). A Reel only loaded has no line rate yet: it is judged at 64 kHz, the highest there is (log 119). -/
def State.rebuildDeferred (s : State) : Bool :=
  (match s.job with
    | some j => decide (j.reel ≠ 0 ∧ 22400 < j.storeRate)
    | none => false) ||
    s.reelList.any (fun e => e.2.loaded && decide (22400 < e.2.storeRate e.2.prefetched.1 e.2.lines 64000)) ||
    (s.on F.JS_REBUILD_DEFER && s.reelList.any (fun e => decide (e.2.state = .inUse)))

/-- REBUILD_START: an accepted replacement is rebuilt, from its last checkpoint. -/
def execRebuildStart (s : State) : Ans :=
  s.effect (fun s =>
    match s.store.rebuildSlot with
    | none => s
    | some n =>
      if ¬ s.active ∨ s.store.state ≠ .degraded ∨ s.on F.JS_REBUILD_PAUSE ∨ ¬ (s.sled n).accepted ∨
          ¬ ((s.sled n).state = 2 ∨ (s.sled n).state = 3) then s
      else if s.rebuildDeferred then s.setStore { s.store with deferred := true }
      else
        let s := (s.setStore { s.store with deferred := false }).setSled n { s.sled n with state := 3 }
        let s := ((s.setStoreState .rebuilding).fset F.JS_REBUILD_RUNNING 1).fset F.JS_REBUILD_SLOT n
        (s.fset F.JS_REBUILD_PCT (s.store.checkpointGB / 200)).led n 3)

/-- REBUILD_CHECKPOINT: `gb` GB of the sled's 20,000 are rebuilt. -/
def execRebuildCheckpoint (gb : Nat) (s : State) : Ans :=
  s.effect (fun s =>
    if s.store.state = .rebuilding then
      (s.setStore { s.store with checkpointGB := Nat.max gb s.store.checkpointGB }).fset F.JS_REBUILD_PCT
        (Nat.min 100 (Nat.max gb s.store.checkpointGB / 200))
    else s)

/-- SLED_REBUILT. -/
def execSledRebuilt (s : State) : Ans :=
  s.effect (fun s =>
    match s.store.rebuildSlot with
    | none => s
    | some n =>
      if s.store.state ≠ .rebuilding then s
      else
        let s := s.setSled n { s.sled n with state := 1, accepted := false }
        let s := (s.setStore { s.store with
          rebuildSlot := none, checkpointGB := 0,
          units := s.store.units.map (fun u =>
            if u.sled = n then { u with age := 0, unread := List.replicate 16 0 } else u) }).setStoreState .full
        (((s.stopRebuild.fset F.JS_REBUILD_PCT 100).led n 0).raise .sledRebuilt n))

/-- PAUSE is set: a running rebuild stops. -/
def State.pauseRebuild (s : State) : State :=
  let s := s.fset F.JS_REBUILD_PAUSE 1
  if s.store.state = .rebuilding then s.stopRebuild.setStoreState .degraded else s

/-- PAUSE is cleared: the rebuild it stopped runs again. -/
def State.resumeRebuild (s : State) : State :=
  let paused := s.on F.JS_REBUILD_PAUSE
  let s := s.fset F.JS_REBUILD_PAUSE 0
  match s.store.rebuildSlot with
  | some n =>
    if paused ∧ s.store.state = .degraded ∧ (s.sled n).state = 3 then (s.setStoreState .rebuilding).fset F.JS_REBUILD_RUNNING 1 else s
  | none => s

/-- REBUILD_PAUSE. -/
def execRebuildPause (a : Agent) (s : State) : Ans :=
  s.effect (fun s => s.guarded a .JS_REBUILD 0 (fun s => s.pauseRebuild))

/-- REBUILD_RESUME. -/
def execRebuildResume (a : Agent) (s : State) : Ans :=
  s.effect (fun s => s.guarded a .JS_REBUILD 0 (fun s => s.resumeRebuild))

/-- A software write of JS_REBUILD. -/
def State.writeRebuild (s : State) (v : DWord) : State :=
  let s := s.fset F.JS_REBUILD_DEFER (wField v F.JS_REBUILD_DEFER)
  if wField v F.JS_REBUILD_PAUSE = 1 then (if s.on F.JS_REBUILD_PAUSE then s else s.pauseRebuild) else s.resumeRebuild

/-- A software write of JS_SLEDn_CTL: OFFLINE sets, REJ clears. -/
def State.writeSledCtl (s : State) (n : Fin 16) (v : DWord) : State :=
  let s := if wField v F.JS_SLED_CTL_REJ = 1 then s.fset F.JS_SLED_CTL_REJ 0 n else s
  if wField v F.JS_SLED_CTL_OFFLINE = 1 then s.takeOffline n else s

end Sys2Proof.Machine
end

