-- ==== Sys2Proof/Machine/HostLoads.lean ====
section
/-!
DEFINITION. JOB_LOAD and the host-form loads: their place in the Staging RAM, the walk of their buffers and the bands they become
(R141, R266, R389-R391; log 23).
-/

namespace Sys2Proof.Machine

/-! ## The walk of a buffer (R389) -/

/-- The offsets of the strips of a buffer from offset `o` on, or none where the walk's checks fail. -/
def walkFrom : Nat → List Byte → Nat → Option (List Nat)
  | 0, _, _ => none
  | fuel + 1, b, o =>
    let rest := b.drop o
    if rest.all (fun x => decide (x = 0)) then some []
    else if rest.length < 32 ∨ fieldAt rest 0 2 ≠ 0x4146 ∨ rest.length < 32 + fieldAt rest 12 4 then none
    else (walkFrom fuel b (o + (32 + fieldAt rest 12 4 + 31) / 32 * 32)).map (fun l => o :: l)

/-- The strips of a buffer. -/
def walkStrips (b : List Byte) : Option (List Nat) := walkFrom (b.length / 32 + 2) b 0

/-- The row of the strip at an offset of a buffer; none where it is ignored (R266, R389). -/
def stripRow (channels rows : Nat) (b : List Byte) (o : Nat) : Option Nat :=
  let h := stripHdr ((b.drop o).take 32)
  let r := h.segment * layoutPeriod channels + h.channel
  if channels ≤ h.channel ∨ rows ≤ r then none else some r

/-- The width factor of a load: F from 1 to 4 with SRC_WIDTH = ⌈256 × NPG / F⌉, or 1 where there is none, which the Enlarger
finds as a width mismatch (R266). -/
def widthFactor (npg width : Nat) : Nat := (([1, 2, 3, 4] : List Nat).find? (fun f => decide (width = (256 * npg + f - 1) / f))).getD 1

/-- The band-table entries of partition `p`: the later of two strips of a row counts (R389). -/
def bandEntries (channels rows : Nat) (b : List Byte) (place : Nat) (strips : List Nat) (p : Nat) : List Nat :=
  (List.range 64).map (fun i =>
    match strips.reverse.find? (fun o => decide (stripRow channels rows b o = some (64 * p + i))) with
    | some o => 2 ^ 63 + (place + o)
    | none => 0)

/-! ## Room in the print region (R390; log 23) -/

/-- The part of the print region that print strips may use. -/
def State.stripRoom (s : State) : Nat := if s.on F.CAM_CTL_ENABLE then 0x160_0000 else 0x180_0000

/-- The line up to which the print gang has been fed. -/
def State.fedLine (s : State) : Nat := (s.enl[(0 : Fin 4)]).fed

/-- The staged load still holds lines that are not fed. -/
def State.stagedLive (s : State) (l : Staged) : Bool :=
  match s.job with
  | some j => !(decide (j.reel = 0 ∧ j.fn = l.fn) && l.pushed && decide (l.first + l.lines ≤ s.fedLine))
  | none => true

/-- The buffers in the print region, as (place, length). -/
def State.stagingUsed (s : State) : List (Nat × Nat) :=
  (s.hst.loads.filterMap (fun l => l.reading.map (fun p => (p, l.data.length)))) ++
    ((s.hst.staged.filter s.stagedLive).map (fun l => (l.place, l.data.length)))

/-- The first place for `n` bytes that overlaps no other buffer: the start of the region, or the end of a buffer. -/
def State.findRoom (s : State) (n : Nat) : Option Nat :=
  let used := s.stagingUsed
  (0 :: used.map (fun u => (u.1 + u.2 + 31) / 32 * 32)).find? (fun o =>
    decide (o + n ≤ s.stripRoom) && used.all (fun u => decide (o + n ≤ u.1 ∨ u.1 + u.2 ≤ o)))

/-! ## Bands of a staged load -/

/-- The place of a band table: the top 64 KiB of the Staging RAM's general region, in turn (log 23). -/
def tablePlace (k : Nat) (p : Fin 4) : Nat := 0x1FF_0000 + 2048 * (k % 32) + 512 * p

/-- A staged load's strips become one band for each partition of the gang; a halted Enlarger restarts on them (R147). -/
def State.pushStaged (s : State) (j : Job) (l : Staged) : State :=
  let parts := s.partsOf 0
  let rows := 64 * ((List.range 4).countP (fun p => parts.getLsbD p))
  let strips := (walkStrips l.data).getD []
  let width := match strips with
    | [] => 0
    | o :: _ => (stripHdr ((l.data.drop o).take 32)).width
  let k := s.hst.tables
  let s : State := { s with hst := { s.hst with
    tables := k + 1, staged := s.hst.staged.map (fun x => if x = l then { x with pushed := true } else x) } }
  s.forFin 4 (fun p s =>
    if ¬ parts.getLsbD p.val then s
    else
      let entries := bandEntries j.channels rows l.data l.place strips p
      let s := s.dmaWrite 13 (0x20_0000_0000 + tablePlace k p) (entries.flatMap (fun e => leBytes e 8))
      let band : Band :=
        { table := tablePlace k p, first := l.first, lines := l.lines, factor := widthFactor (npgOf j.npgCode) width,
          linear := l.linear }
      (s.setQueue p ((s.enl[p]).queue ++ [band])).enlRestart p)

/-- The staged load of a function whose lines come next: the one with the lowest first line that has no bands yet, unless a load that
has not completed comes before it. -/
def State.nextStaged (s : State) (fn : Fin 8) : Option Staged :=
  let mine := s.hst.staged.filter (fun l => decide (l.fn = fn) && !l.pushed)
  let before (n : Nat) : Bool := s.hst.loads.any (fun l => decide (l.fn = fn ∧ l.first < n))
  mine.find? (fun l => mine.all (fun x => decide (l.first ≤ x.first)) && !before l.first)

/-- Pushes the next staged load of the job's function, if every Enlarger of the gang has room. -/
def State.stageNext (s : State) : State :=
  match s.job with
  | none => s
  | some j =>
    if j.reel ≠ 0 then s
    else
      match s.nextStaged j.fn with
      | none => s
      | some l =>
        if (List.finRange 4).all (fun p => !(s.partsOf 0).getLsbD p.val || decide ((s.enl[p]).queue.length < 16)) then s.pushStaged j l
        else s

/-- Pushes staged loads while there is room, and forgets those whose lines are all fed. -/
def State.stageLoads (s : State) : State :=
  let s := (List.range s.hst.staged.length).foldl (fun s _ => s.stageNext) s
  { s with hst := { s.hst with staged := s.hst.staged.filter s.stagedLive } }

/-- BAND_FEED_START: the room it makes in its queue lets a staged load in. -/
def execBandFeedStart (p : Fin 4) (s : State) : Ans := s.effect (fun s => (s.bandFeed p).stageLoads)

/-! ## JOB_LOAD (R266, R390, R391) -/

/-- The Reel form: the Reel is held for the function's next PRINT_START, and strips are prefetched from line OFFSET on. How many of the
lines have been prefetched when the completion is posted is open (log 120). -/
def State.loadReel (s : State) (r : CmdRef) (h : BitVec 32) (offset : Nat) : State :=
  match s.reelAt h with
  | none => s.completeReason r stCONFLICT 1
  | some reel =>
    match reel.state with
    | .open => s.completeReason r stCONFLICT 3
    | .inUse => s.completeReason r stCONFLICT 4
    | .closed =>
      let n := (s.free_ 32).toNat % (reel.lines - offset + 1)
      (s.setReel h (some { reel with state := .inUse, loaded := true, prefetched := (offset, n) })).used.complete r stOK n

/-- The function's host loads accepted before a load whose completions are not posted (R391). -/
def State.loadsBefore (s : State) (r : CmdRef) : Nat :=
  (s.hst.fns[r.fn]).loadAccs.countP (fun e => decide (e.2 < r.acc) && s.owes e.1 e.2)

/-- The host form: the load waits for room. -/
def State.loadHost (s : State) (c : CmdIn) (r : CmdRef) : State :=
  let first := descP1 c.desc 40 4
  let lines := descP1 c.desc 44 4
  let n := c.desc.length.toNat
  if s.stripRoom < n ∨ lines = 0 ∨ 256 < lines then s.completeReason r stCONFLICT 0xF3
  else if 64 ≤ s.loadsBefore r then
    s.completeDetail r stBUSY (s.free_ 8).toNat (s.free_ 32).toNat
  else if first ≠ (s.hst.fns[r.fn]).nextLoad then s.completeReason r stCONFLICT 0xF3
  else if descSgl c.desc ∧ c.host.listErr then (s.completeReason r stABORTED 0xF2).abortLoads r.fn r.acc first
  else if (hostSegs c n).isNone then s.completeReason r stCONFLICT 0xF2
  else
    let l : HostLoad :=
      { cmd := r, fn := r.fn, first := first, lines := lines, linear := (descP1 c.desc 48 1).testBit 0,
        data := c.host.data.take n, dataErr := c.host.dataErr, reading := none, deadline := c.desc.deadline.toNat,
        prio := c.desc.priority.toNat }
    ({ s with hst := { s.hst with loads := s.hst.loads ++ [l] } } : State).setNextLoad r.fn (first + lines)

/-- JOB_LOAD. -/
def execJobLoad (c : CmdIn) (s : State) : Ans :=
  let d := c.desc
  let reel := decide (d.reel ≠ 0)
  s.effect (fun s => s.start c 0x10
    { reel := true, offset := reel, length := !reel, host := !reel, p1 := if reel then 0 else p1Bits 40 8 ||| (1 <<< 64) }
    (fun s fn => if reel ∧ s.notOwner d.reel fn then .open_ else if reel then s.keyDenied else .none)
    (fun c r s => if reel then s.loadReel r d.reel d.offset.toNat else s.loadHost c r))

/-- The one of a function's loads that wait for room which is read first: the oldest of the highest PRIORITY (R249). -/
def State.nextRead (s : State) (fn : Fin 8) : Option HostLoad :=
  let l := s.hst.loads.filter (fun l => decide (l.fn = fn) && l.reading.isNone)
  l.find? (fun x => l.all (fun y => decide (y.prio ≤ x.prio)))

/-- The module can read a load's buffer: one in host memory, while the link is up; a session's came with its capsule. -/
def State.bufferReaches (s : State) (l : HostLoad) : Bool :=
  match l.cmd.src with
  | .sq _ _ => s.hostReaches
  | .session _ => s.active

/-- HOST_LOAD_READ: the first load that waits is read, once there is room for its whole buffer; its QUEUE_WAIT ends. -/
def execHostLoadRead (fn : Fin 8) (s : State) : Ans :=
  s.effect (fun s =>
    match s.nextRead fn with
    | none => s
    | some l =>
      match s.findRoom l.data.length with
      | none => s
      | some p =>
        if ¬ s.bufferReaches l then s
        else
          let x : HostLoad := { l with reading := some p, cmd := s.starting l.cmd }
          { s with hst := { s.hst with loads := s.hst.loads.map (fun y => if y = l then x else y) } })

/-- HOST_LOAD_COMPLETE: the first of the function's loads that are being read has been read and walked. -/
def execHostLoadComplete (fn : Fin 8) (s : State) : Ans :=
  s.effect (fun s =>
    match s.hst.loads.find? (fun l => decide (l.fn = fn) && l.reading.isSome) with
    | none => s
    | some l =>
      match l.reading with
      | none => s
      | some p =>
        let s : State := { s with hst := { s.hst with loads := s.hst.loads.erase l } }
        if l.dataErr ∨ (walkStrips l.data).isNone then
          (s.completeReason l.cmd stABORTED 0xF2).abortLoads fn l.cmd.acc l.first
        else
          let s := s.dmaWrite 8 (0x20_0000_0000 + p) l.data
          let x : Staged :=
            { fn := fn, first := l.first, lines := l.lines, linear := l.linear, data := l.data, place := p, pushed := false }
          let s := s.complete l.cmd stOK l.lines
          ({ s with hst := { s.hst with staged := s.hst.staged ++ [x] } } : State).stageLoads)

end Sys2Proof.Machine
end

