-- ==== Sys2Proof/Machine/Commands.lean ====
section
/-!
DEFINITION. The commands of a job and of its set-up: PRINT_START, HOLD, RESUME, ABORT, TABLE_UPDATE, PROGRAM_CHANGE, HEAD_CONFIG,
CAMERA_CONFIG and CALIBRATE (R28, R134, R150, R155, R163, R165, R168, R178, R181, R183, R197, R212, R213, R239, R262-R268).
-/

namespace Sys2Proof.Machine

/-! ## Checks shared by PRINT_START and PROGRAM_CHANGE (R20, R28, R134, R264) -/

/-- A program slot holds a verified image of the kind wanted. -/
def State.slotHolds (s : State) (slot : Nat) (insp : Bool) : Bool :=
  match s.program slot with
  | some im => im.inspection == insp
  | none => false

/-- The first of the two slots that does not hold its image (check 0x1B). -/
def State.badSlot (s : State) (pr ins : Nat) (inspect : Bool) : Option Nat :=
  if ¬ s.slotHolds pr false then some pr else if inspect ∧ ¬ s.slotHolds ins true then some ins else none

/-- The declared cycles per line: the print program's, and in the interleaved arrangement a quarter of the inspection
program's, in quarters. -/
def cycleQuarters (im : ProgramImage) (insp : Option ProgramImage) (interleaved : Bool) : Nat :=
  4 * im.declaredCycles + (if interleaved then (insp.map (fun i => i.declaredCycles)).getD 0 else 0)

/-- The declared cycles exceed the line period at the rate (check 0x10). -/
def overBudget (im : ProgramImage) (insp : Option ProgramImage) (interleaved : Bool) (rate : Nat) : Bool :=
  decide (4 * 10 ^ 9 < cycleQuarters im insp interleaved * rate)

/-- The Developer whose customer microcode differs from the one an image was built against (check 0x12). -/
def State.hashMismatch (s : State) (im : ProgramImage) (insp : Option ProgramImage) (dedicated : Bool) : Option Nat :=
  let differs (i : ProgramImage) (d : Nat) : Bool := match i.custHash with
    | some h => decide (s.fv F.DEV_UCODE_CUST_CUST_HASH d ≠ h.toNat)
    | none => false
  let d2 := if dedicated then 3 else 0
  if differs im 0 then some 0
  else
    match insp with
    | some i => if differs i d2 then some d2 else none
    | none => none

/-! ## Checks of the print path (R150, R160, R178, R181, R183) -/

/-- The slots the Reserve must have (R150). -/
def State.slotsRequired (s : State) : Nat := s.fv F.SHT_RESERVE_TARGET + (s.dmax - s.dmin) + s.lead + 1

/-- The enabled group without a timer, or all ones where no group is enabled (check 0x15). -/
def State.groupFault (s : State) : Option Nat :=
  if s.groupsOn = [] then some 0xFFFFFFFF else (s.groupsOn.find? (fun g => (s.groupTimer g).isNone)).map (fun g => g.val)

/-- The bits of the blocks a lane carries for one line: its frames, and two FIRE blocks for each in-band group (R169, R171,
R178). -/
def State.laneBits (s : State) (l : Fin 16) : Nat :=
  let genC := decide (s.fv F.HP_LANE_CTL_GEN l = 2)
  let data := if genC then 66 else 80
  let ctl := if genC then 66 else 90
  let frames := (s.portFrames (s.laneHome l)).map (fun f => 2 * ctl + (1 + (f.2.2.2 + 31) / 32) * data)
  let groups := s.groupsOn.countP (fun g : Fin 64 => s.on F.SHT_GRP_INBAND g && s.laneCarries l g)
  frames.foldl (· + ·) 0 + groups * 2 * ctl

/-- The line rate of a lane in bits per second (R168). -/
def State.laneRate (s : State) (l : Fin 16) : Nat := if s.fv F.HP_LANE_CTL_GEN l = 2 then 10312500000 else 3125000000

/-- The lane whose load exceeds 90 % of its line rate (check 0x16). -/
def State.overLoaded (s : State) (rate : Nat) : Option Nat :=
  ((List.finRange 16).find? (fun l : Fin 16 => s.laneSet l && decide (9 * s.laneRate l < 10 * s.laneBits l * rate))).map (fun l : Fin 16 => l.val)

/-- The lane that a valid entry names and that is not UP, or whose heads the entry exceeds (check 0x17); a pair is named by its even
lane (R181, R183). -/
def State.laneUnfit (s : State) : Option Nat :=
  let fits (e : NEntry) : Bool :=
    let x := s.lanes.toList.getD e.port {}
    decide (s.laneState e.port = 2) && decide (e.head < x.heads) && decide (e.nozzle < x.maxnoz)
  (s.entries.find? (fun e => decide (e.port < 16) && !fits e)).map (fun e => e.port)

/-- The slot of an entry that names the odd lane of a pair (check 0x18). -/
def State.oddLane (s : State) : Option Nat :=
  (s.entries.find? (fun e => decide (e.port < 16 ∧ e.port % 2 = 1) && s.paired e.port)).map (fun e => e.slot)

/-! ## PRINT_START (R263-R265) -/

/-- The fields of PRINT_START (R263). -/
structure PrintReq where
  reel : BitVec 32
  offset : Nat
  length : Nat
  npg : Fin 4
  interleaved : Bool
  inspect : Bool
  channels : Nat
  startMode : Fin 4
  startIn : Fin 16
  evtShift : Nat
  printProg : Nat
  inspProg : Nat
  rate : Nat
  hostBytes : Nat
  milestones : Nat
deriving DecidableEq, Repr

def printReq (d : Desc) : PrintReq :=
  let p := d.p0
  { reel := d.reel, offset := d.offset.toNat, length := d.length.toNat, npg := (p.extractLsb' 0 2).toFin,
    interleaved := p.getLsbD 2, inspect := p.getLsbD 3, channels := (p.extractLsb' 8 3).toNat + 1,
    startMode := (p.extractLsb' 12 2).toFin, startIn := (p.extractLsb' 16 4).toFin, evtShift := (p.extractLsb' 20 5).toNat,
    printProg := descP1 d 40 2, inspProg := descP1 d 42 2, rate := descP1 d 44 4, hostBytes := descP1 d 48 4,
    milestones := descP1 d 52 2 }

/-- A milestone list: ascending 32-bit line numbers. -/
def milestoneList (b : List Byte) (n : Nat) : List Nat := (List.range n).map (fun k => fieldAt b (4 * k) 4)

def ascending : List Nat → Bool
  | a :: b :: l => decide (a < b) && ascending (b :: l)
  | _ => true

/-- A parameter of PRINT_START is out of range. -/
def PrintReq.bad (q : PrintReq) : Bool :=
  decide (q.startMode = 3) || (!q.inspect && decide (q.inspProg ≠ 0xFFFF)) || decide (1024 < q.milestones) ||
    (if q.reel = 0 then decide (q.length = 0) else decide (q.hostBytes ≠ 0))

/-- The lines of the job: LENGTH, or up to the Reel's last line. -/
def PrintReq.lines (q : PrintReq) (reelLines : Nat) : Nat := if q.length = 0 then reelLines - q.offset else q.length

/-- The lines of the Reel that a handle names. -/
def State.reelLines (s : State) (h : BitVec 32) : Nat := ((s.reelAt h).map Reel.lines).getD 0

/-- The store rate of the job in MB/s (R239); 0 for a job fed from host memory. -/
def State.storeRateOf (s : State) (q : PrintReq) : Nat :=
  if q.reel = 0 then 0
  else ((s.reelAt q.reel).map (fun r => r.storeRate q.offset (q.offset + q.lines (s.reelLines q.reel)) q.rate)).getD 0

/-- The data rate of the PCI Express link in bits a second (R241); 0 while it is down. -/
def State.linkBits (s : State) : Nat :=
  if s.hst.linkUp then ([0, 2000000000, 4000000000, 7877000000, 15754000000, 31508000000].getD s.hst.linkGen.val 0) * s.hst.linkLanes else 0

/-- The checks of R264 in their order: the code of the first that fails with its detail, if it has one. -/
def State.printRefusal (s : State) (q : PrintReq) : Option (Nat × Option Nat) :=
  let fromReel := decide (q.reel ≠ 0)
  let reel := s.reelAt q.reel
  let reelLines := s.reelLines q.reel
  let dedicated := q.inspect && !q.interleaved
  let insp := if q.inspect then s.program q.inspProg else none
  if fromReel ∧ reel.isNone then some (1, none)
  else if fromReel ∧ reel.any (fun r => decide (r.state = .open)) then some (3, none)
  else if fromReel ∧ reel.any (fun r => decide (r.state = .inUse) && !r.loaded) then some (4, none)
  else if fromReel ∧ (reelLines ≤ q.offset ∨ reelLines < q.offset + q.length) then some (0x19, some reelLines)
  else
    match s.badSlot q.printProg q.inspProg q.inspect, s.program q.printProg with
    | some k, _ => some (0x1B, some k)
    | none, none => some (0x1B, some q.printProg)
    | none, some im =>
      if (if q.npg = 3 then 32000 else 64000) < q.rate ∨ im.npgDeclared.any (fun n => decide (n ≠ q.npg)) then some (0x11, none)
      else if overBudget im insp (q.inspect && q.interleaved) q.rate then
        some (0x10, some (cycleQuarters im insp (q.inspect && q.interleaved) / 4))
      else
        match s.hashMismatch im insp dedicated with
        | some d => some (0x12, some d)
        | none =>
          if 1024 / npgOf q.npg < s.slotsRequired then some (0x13, some s.slotsRequired)
          else
            match s.mapFault, s.groupFault, s.overLoaded q.rate, s.laneUnfit, s.oddLane with
            | some k, _, _, _, _ => some (0x14, some k)
            | none, some g, _, _, _ => some (0x15, some g)
            | none, none, some l, _, _ => some (0x16, some l)
            | none, none, none, some l, _ => some (0x17, some l)
            | none, none, none, none, some k => some (0x18, some k)
            | none, none, none, none, none =>
              let hostRate := q.hostBytes * q.rate
              if fromReel ∧ 40000 < s.storeRateOf q then some (5, some (s.storeRateOf q))
              else if ¬ fromReel ∧ s.linkBits < 10 * hostRate then some (0x1A, some (hostRate / 10 ^ 6))
              else none

/-- The job that a PRINT_START begins. -/
def State.newJob (s : State) (q : PrintReq) (r : CmdRef) (im : ProgramImage) (lines storeRate : Nat) (ms : List Nat) : Job :=
  { number := s.sht.jobs + 1, fn := r.fn, cmd := r, phase := .filling, reel := q.reel, offset := q.offset, length := lines,
    npgCode := q.npg, interleaved := q.interleaved, inspect := q.inspect, channels := q.channels, startMode := q.startMode,
    startIn := q.startIn, printProg := q.printProg, inspProg := q.inspProg, rateMax := q.rate, storeRate := storeRate,
    milestones := ms, posted := false, nextSlot := 0, complete := 0, claimed := 0, missed := [], stale := [], strobed := [],
    groups := Vector.replicate 64 {}, fired := 0, blankRun := none, staleRun := none, image := im,
    inspImage := if q.inspect then s.program q.inspProg else none, abortAt := none, aborts := [], camGroup := none }

/-- Table updates held in Ready for the function are checked against the job's image and applied before line 0 (R268). -/
def State.applyHeld (s : State) (fn : Fin 8) : State :=
  let mine (p : Pending) : Bool := p.held && decide (p.fn = fn)
  let l := s.hst.pending.filter mine
  let s : State := { s with hst := { s.hst with pending := s.hst.pending.filter (fun p => !mine p) } }
  l.foldl (fun s p => s.applyTable p 0 false false) s

/-- A PRINT_START that passes its checks (R265): the Reel is IN USE, the gang is arranged (R48), the module enters Print and
the Reserve begins to fill. -/
def State.beginJob (s : State) (q : PrintReq) (r : CmdRef) (im : ProgramImage) (lines storeRate : Nat) (ms : List Nat) : State :=
  let j := s.newJob q r im lines storeRate ms
  let s := match s.reelAt q.reel with
    | some x => if q.reel = 0 then s else s.setReel q.reel (some { x with state := .inUse, loaded := false, prefetched := (0, 0) })
    | none => s
  let s := s.setGang (if q.inspect ∧ ¬ q.interleaved then 2 else 3)
  let s := s.fset F.SHT_CTL_EVT_SHIFT q.evtShift
  let s := s.forFin 4 (fun p s => s.modEnl p (fun e =>
    { e with expect := none, attempts := 0, fed := 0, feed := [], past := [], camFed := 0 }))
  let s : State := { s with
    job := some j, cam := { s.cam with moverLine := 0, rotate := 0 },
    sht := { s.sht with jobs := j.number, held := none, holdReqs := [], warnArmed := true, swath := {} } }
  let s := (s.toMode 4).imageTables (s.sideParts false) im
  let s := match j.inspImage with
    | some i => s.imageTables (s.sideParts true) i
    | none => s
  ((s.applyHeld r.fn).stageLoads).depthRose

/-- A Reel that the function's JOB_LOAD holds is released by a PRINT_START that does not name it (R266). -/
def State.releaseOthers (s : State) (fn : Fin 8) (h : BitVec 32) : State :=
  let slot := h.toNat % 4096
  { s with store := { s.store with
    reels := s.store.reels.map (fun e => (e.1, e.2.map (fun r =>
      if r.loaded ∧ r.state = .inUse ∧ r.owner = fn ∧ (e.1 ≠ slot ∨ h = 0) then { r with state := .closed, loaded := false, prefetched := (0, 0) } else r))) } }

/-- Firmware cannot set the gang arrangement while array work or a Fog check slice stands (R48). -/
def State.gangBusy (s : State) : Bool := (List.finRange 4).any (fun d => s.arrayWork d || (s.devs[d]).fogRunning)

/-- PRINT_START, with the seconds that a running rebuild will still take (R234). It waits until the gang can be arranged. -/
def execPrintStart (src : Src) (desc : Desc) (host : HostIn) (restS : BitVec 32) (s : State) : Ans :=
  let c : CmdIn := ⟨src, desc, host⟩
  let q := printReq c.desc
  s.effect (fun s =>
    if s.gangBusy then s
    else s.start c 0x11
      { reel := true, offset := decide (q.reel ≠ 0), length := true, p0 := 0x01FF370F, host := decide (q.milestones ≠ 0), p1 := p1Bits 40 14 }
      (fun s fn => if q.reel = 0 then .none else if s.notOwner q.reel fn then .open_ else s.keyDenied) (fun c r s =>
      if q.bad then s.completeReason r stCONFLICT 0xF3
      else
        match s.hostFault c r (4 * q.milestones) with
        | some t => t
        | none =>
          let ms := milestoneList c.host.data q.milestones
          if ¬ ascending ms then s.completeReason r stCONFLICT 0xF3
          else
            let s := s.releaseOthers r.fn q.reel
            match s.printRefusal q, s.program q.printProg with
            | some (code, some detail), _ => s.completeDetail r stCONFLICT code detail
            | some (code, none), _ => s.completeReason r stCONFLICT code
            | none, none => s.completeDetail r stCONFLICT 0x1B q.printProg
            | none, some im =>
              if q.reel ≠ 0 ∧ s.store.state = .rebuilding ∧ 22400 < s.storeRateOf q then
                s.completeDetail r stBUSY 1 restS.toNat
              else s.beginJob q r im (q.lines (s.reelLines q.reel)) (s.storeRateOf q) ms))

/-! ## HOLD, RESUME and ABORT (R162, R163, R262, R267) -/

/-- HOLD: a request in Print; in Hold it completes at once and acts on the timer. -/
def execHold (c : CmdIn) (s : State) : Ans :=
  let d := c.desc
  s.effect (fun s => s.start c 0x12 { flags := 8, p1 := p1Bits 40 8 } notDenied (fun _ r s =>
    let dur := descP1 d 44 4
    match s.sht.held with
    | some h =>
      let timer := if h.onlyHold then (if dur = 0 then none else some dur) else h.timer
      ({ s with sht := { s.sht with held := some { h with timer := timer } } } : State).complete r stOK h.b
    | none => s.requestHold (descP1 d 40 4) 0 (some r) dur (d.flags.getLsbD 3) none))

/-- RESUME: it withdraws in Print; in Hold it is refused for a fault of the Nozzle Map (R155) or a halted Developer (R348), waits
for a strip fault, or ends the Hold. -/
def execResume (c : CmdIn) (s : State) : Ans :=
  s.effect (fun s => s.start c 0x13 {} notDenied (fun _ r s =>
    let s := s.refetchAgain
    match s.sht.held with
    | none =>
      let x := s.withdrawHolds
      x.2.complete r stOK x.1
    | some h =>
      match s.mapFault with
      | some k => s.completeDetail r stCONFLICT 0x14 k
      | none =>
        if s.printHalted then s.completeReason r stCONFLICT 0x30
        else if s.heldBack h then
          { s with sht := { s.sht with held := some { h with waiting := h.waiting ++ [r] } } }
        else s.endHold [r]))

/-- ABORT in Ready: the function's loads and held updates are released (R262, R266). -/
def State.abortReady (s : State) (fn : Fin 8) : State :=
  let out := s.hst.loads.filter (fun l => decide (l.fn = fn))
  let s : State := { s with hst := { s.hst with loads := s.hst.loads.filter (fun l => decide (l.fn ≠ fn)) } }
  let s := out.foldl (fun s l => s.completeOpen l.cmd stABORTED) s
  let s := ((s.setNextLoad fn 0).dropStaged fn 0).releaseLoaded (fun g => decide (g = fn))
  s.abortHeld (fun g => decide (g = fn))

/-- ABORT: at the next boundary the job ends. -/
def execAbort (c : CmdIn) (s : State) : Ans :=
  s.effect (fun s => s.start c 0x14 {} notDenied (fun _ r s =>
    if s.job.isNone then (s.abortReady r.fn).complete r stOK 0
    else
      let b := s.nextBoundary
      (s.modJob (fun j =>
        { j with abortAt := some (Nat.min b (j.abortAt.getD b)), aborts := j.aborts ++ [r] })).checkBoundary))

/-! ## TABLE_UPDATE and PROGRAM_CHANGE (R165, R209, R268) -/

/-- The next line to be computed. -/
def Job.nextComputed (j : Job) : Nat := j.nextSlot - 1

/-- The image that runs on a side at line `l`: that of the last change that switches at or before it, or the running one. -/
def State.imageAt (s : State) (j : Job) (insp : Bool) (l : Nat) : Option ProgramImage :=
  let eff := Nat.max l j.nextComputed
  let ch := s.hst.pending.filter (fun p => p.change.isSome && decide (p.line ≤ eff))
  match ch.reverse.findSome? (fun p => p.change) with
  | some x => s.program (if insp then x.2 else x.1)
  | none => j.side insp

/-- The module reads a gain or out-flag table: kind 1 or 2. -/
def gainTable (im : Option ProgramImage) (t : Nat) : Bool :=
  im.any (fun i => i.tables.any (fun d => decide (d.number = t ∧ d.kind ≠ 0)))

/-- TABLE_UPDATE; `arrived` says whether its data has been read by now. -/
def execTableUpdate (c : CmdIn) (arrived : Bool) (s : State) : Ans :=
  let d := c.desc
  s.effect (fun s => s.start c 0x16
    { offset := true, length := true, p0 := 0x13F, host := true, p1 := p1Bits 40 4 } notDenied (fun c r s =>
    let p : Pending :=
      { cmd := r, fn := r.fn, line := descP1 d 40 4, change := none, table := d.p0.toNat % 64, insp := d.p0.getLsbD 8,
        plane := d.offset.toNat, data := c.host.data.take d.length.toNat, arrived := arrived, late := false, held := s.job.isNone }
    if d.length.toNat % 8192 ≠ 0 ∨ d.length = 0 then s.completeReason r stCONFLICT 0xF3
    else
      let im : Option ProgramImage := match s.job with
        | some j => s.imageAt j p.insp p.line
        | none => none
      let reason := if s.job.isNone then none else tableReason im p
      match reason with
      | some code => s.completeReason r stCONFLICT code
      | none =>
        if s.job.isSome ∧ s.on F.CAM_CTL_LOOP_EN ∧ gainTable im p.table then s.completeReason r stCONFLICT 0x22
        else if 8 ≤ s.hst.pending.countP (fun p => p.change.isNone) then s.completeDetail r stBUSY (s.free_ 8).toNat (s.free_ 32).toNat
        else
          match s.hostFault c r c.desc.length.toNat with
          | some t => t
          | none => { s with hst := { s.hst with pending := s.hst.pending ++ [p] } }))

/-- PROGRAM_CHANGE. -/
def execProgramChange (c : CmdIn) (s : State) : Ans :=
  let d := c.desc
  let pr := descP1 d 40 2
  let ins := descP1 d 42 2
  s.effect (fun s => s.start c 0x17 { p1 := p1Bits 40 8 } notDenied (fun _ r s =>
    match s.job with
    | none => s.completeOpen r stMODE
    | some j =>
      let insp := if j.inspect then s.program ins else none
      if ¬ j.inspect ∧ ins ≠ 0xFFFF then s.completeReason r stCONFLICT 0xF3
      else
        match s.badSlot pr ins j.inspect, s.program pr with
        | some k, _ => s.completeDetail r stCONFLICT 0x1B k
        | none, none => s.completeDetail r stCONFLICT 0x1B pr
        | none, some im =>
          if im.npgDeclared.any (fun n => decide (n ≠ j.npgCode)) ∨ im.layoutId ≠ j.image.layoutId ∨
              insp.map (fun i => i.layoutId) ≠ j.inspImage.map (fun i => i.layoutId) then
            s.completeReason r stCONFLICT 0x11
          else if overBudget im insp (j.inspect && j.interleaved) j.rateMax then
            s.completeDetail r stCONFLICT 0x10 (cycleQuarters im insp (j.inspect && j.interleaved) / 4)
          else
            match s.hashMismatch im insp (j.inspect && !j.interleaved) with
            | some k => s.completeDetail r stCONFLICT 0x12 k
            | none =>
              let p : Pending :=
                { cmd := r, fn := r.fn, line := descP1 d 44 4, change := some (pr, ins), table := 0, insp := false, plane := 0,
                  data := [], arrived := true, late := false, held := false }
              { s with hst := { s.hst with pending := s.hst.pending ++ [p] } }))

/-! ## HEAD_CONFIG and CAMERA_CONFIG (R155, R168, R195, R197, R325) -/

/-- HEAD_CONFIG: lane settings, Nozzle Map entries, and the Gen A ports it enables, as its buffer holds them. A port whose
region's images failed, and pins that another owner holds, refuse it; the spec gives neither refusal a reason. -/
def execHeadConfig (c : CmdIn) (lanes : List (Fin 16 × BitVec 32)) (nmap : List (Nat × BitVec 32)) (ports : BitVec 8) (s : State) : Ans :=
  s.effect (fun s => s.start c 0x20 { length := true, host := true } notDenied (fun c r s =>
    match s.hostFault c r c.desc.length.toNat with
    | some t => t
    | none =>
      if ports.setWidth 16 &&& s.pwr.fabFailed ≠ 0 then s.completeOpen r stCONFLICT
      else
        let x : Bool × State := if ports.getLsbD 7 then s.claimPins 1 else (false, s)
        if x.1 then x.2.completeOpen r stCONFLICT
        else
          let s := lanes.foldl (fun s e => s.writeLaneCtl e.1 (e.2.setWidth 64)) x.2
          (nmap.foldl (fun s e => if e.1 < 524288 then s.setNozzle e.1 e.2 else s) s).complete r stOK 0))

/-- CAMERA_CONFIG: camera settings, what it sets of the loop, and GenICam accesses to the cameras, as its
buffer holds them. -/
def execCameraConfig (c : CmdIn) (cams : List (Fin 4 × DWord)) (loop : LoopConf) (access : List CamAccess) (s : State) : Ans :=
  s.effect (fun s => s.start c 0x21 { length := true, host := true } notDenied (fun c r s =>
    match s.hostFault c r c.desc.length.toNat with
    | some t => t
    | none =>
      if cams.any (fun e => !speedOk (wField e.2 F.CAM_CAM_CFG_SPEED) || camOver e.2 loop.rate) then s.completeOpen r stCONFLICT
      else
        let s := cams.foldl (fun s e => s.writeCamCfg e.1 e.2) s
        let s := access.foldl (fun s a => s.emit (.camControl a)) s
        ({ s with cam := { s.cam with outHold := loop.outHold } } : State).complete r stOK 0))

/-! ## CALIBRATE (R212, R213, R379) -/

/-- The output that CALIBRATE names, when its source is 3, goes to a level. -/
def State.illuminate (s : State) (o : Fin 16) (v : Option Bool) : State :=
  if s.fv F.SHT_DOUT_CTL_SRC o = 3 then
    ({ s with sht := { s.sht with dout := s.sht.dout.set o { s.sht.dout[o] with calib := v } } } : State).doutChanges s
  else s

/-- GAIN of a pixel: round(0xE000 × 2^14 / (white - dark)), and 0 for a dead one, or one whose white is not above its dark. A quotient
of 16 bits or more has no stated value. -/
def calGain (dark white : Nat) (dead : Bool) : Nat :=
  if dead ∨ white ≤ dark then 0
  else
    let n := white - dark
    let q := (0xE000 * 2 ^ 14 + n / 2) / n
    if q < 2 ^ 16 then q else (Config.calGain n).toNat

/-- The correction word of a pixel: DARK in bits [15:0] and GAIN in [31:16] (log 40). -/
def corrValue (e : CalPixel) : Nat :=
  e.2.1.toNat + 2 ^ 16 * calGain e.2.1.toNat e.2.2.1.toNat e.2.2.2

/-- The products of a run come into force; both banks receive the same gains and flags. -/
def State.applyProducts (s : State) (pixels : List CalPixel) (p : CalProducts) : State :=
  let s := pixels.foldl (fun s e => s.writeBytes 25 16 (8 * e.1) (leBytes (corrValue e) 8)) s
  let s := p.dist.foldl (fun s e => s.fset F.CAM_CAM_CFG_DIST_LINES e.2.toNat e.1) s
  let s := p.planes.foldl (fun s e =>
    (s.grainWrite e.1 (BitVec.allOnes 2048) e.2.2).grainWrite e.2.1 (BitVec.allOnes 2048) e.2.2) s
  { s with cam := { s.cam with
    regTable := p.regTable, chOfs := p.chOfs.foldl (fun m e => smSet (fun _ => 0) m e.1 e.2) s.cam.chOfs,
    landing := p.landing, classes := p.classes } }

/-- The steps of a run in their order (R212): 1,024 dark camera lines with the illumination off, on the internal pacer with the
substrate at rest; then, with it on, 1,024 lines of white, a bar of 64 lines, in each channel the 16 bands of the ladder, and in each
channel 256 lines of tint. -/
def State.calibSteps (s : State) (channels : Nat) (illum : Fin 16) : State :=
  let s := (s.illuminate illum (some false)).emit (.calibStep 1 0 0 1024)
  let s := (s.illuminate illum (some true)).emit (.calibStep 2 0 0 1024)
  let s := s.emit (.calibStep 3 0 0 64)
  let s := (List.range channels).foldl (fun s ch => (List.range 16).foldl (fun s k => s.emit (.calibStep 4 ch k 64)) s) s
  (List.range channels).foldl (fun s ch => s.emit (.calibStep 5 ch 0 256)) s

/-- CALIBRATE, with what the run measured, the channels and the illumination output. The layout of the descriptor is not given, so its
fields are free. A run that fails ends ABORTED, and its products are not applied (log 43). -/
def execCalibrate (c : CmdIn) (ok : Bool) (channels : Fin 8) (illum : Fin 16) (pixels : List CalPixel) (p : CalProducts)
    (s : State) : Ans :=
  let all : Used :=
    { flags := 0xF9, reel := true, offset := true, length := true, p0 := BitVec.allOnes 32, host := true, p1 := BitVec.allOnes 192 }
  s.effect (fun s => s.start c 0x15 all notDenied (fun _ r s =>
    let s := (s.calibSteps (channels.val + 1) illum).illuminate illum none
    let dead := pixels.countP (fun e => decide (calGain e.2.1.toNat e.2.2.1.toNat e.2.2.2 = 0))
    let classed := p.classes.countP (fun e => decide (2 ≤ e.2.1.val))
    if ok then (s.applyProducts pixels p).complete r stOK (pair (dead % 2 ^ 32) (classed % 2 ^ 32))
    else s.complete r stABORTED (pair (dead % 2 ^ 32) (classed % 2 ^ 32))))

end Sys2Proof.Machine
end

