-- ==== Sys2Proof/Machine/Network.lean ====
section
/-!
DEFINITION. The on-chip network's routes, links and nodes, DDR5 channel loss, scrubbing, range passes, initialisation and error
injection (R276-R305).
-/

namespace Sys2Proof.Machine

/-! ## Routes (R276, R280) -/

/-- The router reached from router `r` in a direction: 0 N, 1 E, 2 S, 3 W. -/
def hopTo (r dir : Nat) : Nat :=
  let x := r % 6
  let y := r / 6
  match dir with
  | 0 => 6 * ((y + 5) % 6) + x
  | 1 => 6 * y + (x + 1) % 6
  | 2 => 6 * ((y + 1) % 6) + x
  | _ => 6 * y + (x + 5) % 6

/-- The link a hop crosses: 2r is router r's E link, 2r + 1 its S link. -/
def hopLink (r dir : Nat) : Nat :=
  match dir with
  | 0 => 2 * hopTo r 0 + 1
  | 1 => 2 * r
  | 2 => 2 * r + 1
  | _ => 2 * hopTo r 3

/-- A route of a table entry: whether it is VALID, and its hops. -/
def routeHops (w : Nat) : List Nat := (List.range (w / 2 ^ 24 % 16)).map (fun k => w / 4 ^ k % 4)

def routeValid (w : Nat) : Bool := w.testBit 31

/-- Where a route from a router ends, and the links it crosses. -/
def routeWalk (r : Nat) (hops : List Nat) : Nat × List Nat :=
  hops.foldl (fun p h => (hopTo p.1 h, hopLink p.1 h :: p.2)) (r, [])

/-- Route A and route B of an entry. -/
def entryA (e : DWord) : Nat := e.toNat % 2 ^ 32
def entryB (e : DWord) : Nat := e.toNat / 2 ^ 32

/-- An entry for destination `d` at NI `n` passes COMMIT: A and B share no link, end at `d`, and have at most 12 hops. -/
def entryOk (n d : Nat) (e : DWord) : Bool :=
  let a := routeWalk n (routeHops (entryA e))
  let b := routeWalk n (routeHops (entryB e))
  decide (a.1 = d ∧ b.1 = d) && decide ((routeHops (entryA e)).length ≤ 12 ∧ (routeHops (entryB e)).length ≤ 12) &&
    a.2.all (fun l => !b.2.contains l)

/-- A table's entry. -/
def Ni.entry (t : SMap DWord) (d : Nat) : DWord := smGet (fun _ => 0) t d

/-- The agent's write of NOC_RT_DATA at an NI (R280): entries 36-63 take nothing. Bits [30:28] and [62:60], of which R280 says
"write 0", are kept as written and read back so (DESIGN CHOICE, log 98). -/
def State.writeRoute (s : State) (n : Fin 36) (v : DWord) : State :=
  let i := s.fv F.NOC_RT_IDX_IDX n
  let s := s.setReg .NOC_RT_DATA v n
  let s := if i < 36 then s.modNi n (fun x => { x with written := smSet (fun _ => 0) x.written i v }) else s
  if s.on F.NOC_RT_IDX_INC n then s.fset F.NOC_RT_IDX_IDX ((i + 1) % 64) n else s

/-- ROUTE_DATA_WRITE. -/
def execRouteDataWrite (a : Agent) (ni : Fin 36) (v : DWord) (s : State) : Ans :=
  s.effect (fun s => s.guarded a .NOC_RT_DATA ni (fun s => s.writeRoute ni v))

/-! ## COMMIT (R280, R281, R284, R288) -/

/-- The credits of a (source, destination) pair: 0 acts as 1, and values above 8 as 8. -/
def State.credit (s : State) (n d : Nat) : Nat :=
  let r : RegName := if d < 16 then .NOC_CRED else if d < 32 then .NOC_CRED1 else .NOC_CRED2
  Nat.min 8 (Nat.max 1 (getBits (s.reg r n) (4 * (d % 16)) 4))

/-- The first check of a COMMIT that fails, as BAD_IDX. -/
def State.commitFault (s : State) : Option Nat :=
  match (List.finRange 36).findSome? (fun n : Fin 36 =>
      ((List.range 36).find? (fun d => !entryOk n d (Ni.entry (s.net.nis[n]).written d))).map (fun d => 64 * n.val + d)) with
  | some k => some k
  | none =>
    ((List.range 36).find? (fun d => decide (256 < ((List.range 36).map (fun n => s.credit n d)).foldl (· + ·) 0))).map (fun d => 0xF00 + d)

/-- The links that the routes in force cross. -/
def Ni.crosses (x : Ni) (n : Nat) (l : Nat) : Bool :=
  (List.range 36).any (fun d =>
    let e := Ni.entry x.inForce d
    (routeWalk n (routeHops (entryA e))).2.contains l || (routeWalk n (routeHops (entryB e))).2.contains l)

/-- Links that are down, from a list: a route crosses one. -/
def hitsDown (down : List Nat) (n w : Nat) : Bool := (routeWalk n (routeHops w)).2.any (fun l => down.contains l)

/-! ## Packets under way (R278, R285-R287) -/

/-- The URG a packet is injected with (R286): 2 for bandwidth class 0 and for the head ports, the Reserve, the Shutter and the
Contact Sheet, otherwise 0. -/
def injectUrg (p : Packet) : Fin 4 :=
  if p.bclass = 0 ∨ ([20, 9, 21, 23] : List Nat).contains p.src.val then 2 else 0

/-- The route an NI sends to a destination by: route B while the entry's USE_B is set (R281). -/
def State.routeWord (s : State) (n d : Nat) : Nat :=
  let e := Ni.entry (s.net.nis.toList.getD n {}).inForce d
  if (s.fv F.NOC_NI_USEB_USE_B n).testBit d then entryB e else entryA e

/-- A packet with ROUTE, HOPS, VN and URG as its source NI fills them in. -/
def State.packed (s : State) (vn : Bool) (p : Packet) : Packet :=
  let w := s.routeWord p.src p.dst
  { p with route := BitVec.ofNat 24 w, hops := BitVec.ofNat 4 (w / 2 ^ 24), vn := vn, urg := injectUrg p }

/-- The NI injects a packet: it is under way where its route is VALID, and competes after the 3 NCLK of injection (R279). -/
def State.inject (s : State) (p : Packet) : State :=
  if routeValid (s.routeWord p.src p.dst) then
    { s with net := { s.net with flights := s.net.flights ++
      [{ pkt := p, at_ := p.src, input := 4, hop := 0, ready := 3, waited := 0, total := 0, arrived := false }] } }
  else s

/-- A request leaves its source. -/
def State.sendRequest (s : State) (p : Packet) : State :=
  let q := s.packed false p
  (s.emit (.netRequest q)).inject q

/-- The packets of one VN and pair under way. -/
def Net.between (n : Net) (vn : Bool) (src dst : Nat) : List Packet :=
  (n.flights.filter (fun f => f.pkt.vn == vn && decide (f.pkt.src.val = src ∧ f.pkt.dst.val = dst))).map (fun f => f.pkt)

/-- Packets of one VN and pair arrive in the order sent (R285): the arrival of the packet that `is` names is that of every packet
of the pair sent before it, which are these; where none under way is named, `all` says whether it was sent after them all. -/
def Net.ahead (n : Net) (vn : Bool) (src dst : Nat) (is : Packet → Bool) (all : Bool) : List Packet :=
  let mine := n.between vn src dst
  match mine.findIdx? is with
  | some k => mine.take k
  | none => if all then mine else []

/-- Packets that have arrived are no longer under way. -/
def State.landed (s : State) (l : List Packet) : State :=
  { s with net := { s.net with flights := s.net.flights.filter (fun f => !l.contains f.pkt) } }

/-! ## Waiting at the source (R283, R284, R288) -/

/-- The credits an NI holds for a destination: 1 before any COMMIT, where every NOC_CRED entry is 0 (R288). -/
def Ni.credit (x : Ni) (d : Nat) : Nat := smGet (fun _ => 1) x.credits d

/-- An NI's credits for a destination change. -/
def Ni.setCredit (x : Ni) (d v : Nat) : Ni := { x with credits := smSet (fun _ => 1) x.credits d v }

/-- Neither route of an entry can be used, and a failed link is among the reasons (R284). -/
def State.stranded (s : State) (n d : Nat) : Bool :=
  let e := Ni.entry (s.net.nis.toList.getD n {}).inForce d
  let broken (w : Nat) : Bool := hitsDown s.net.down n w
  let lost (w : Nat) : Bool := !routeValid w || broken w
  lost (entryA e) && lost (entryB e) && (broken (entryA e) || broken (entryB e))

/-- A request sent before a link failure to a destination that has turned to route B is unanswered (R283). -/
def State.switching (s : State) (n d : Nat) : Bool :=
  (s.fv F.NOC_NI_USEB_USE_B n).testBit d &&
    (s.net.nis.toList.getD n {}).reqs.any (fun r => decide (r.dst = d) && r.early)

/-- A new request may leave its source: it has a route (R284) and a credit (R288), and no earlier request to its destination has
to be answered first (R283) or waits before it (R285). -/
def State.maySend (s : State) (p : Packet) : Bool :=
  let x := s.net.nis[p.src]
  !s.stranded p.src p.dst && decide (1 ≤ x.credit p.dst) && !s.switching p.src p.dst &&
    !x.waitReqs.any (fun q => q.dst == p.dst)

/-- The request is outstanding: its source has sent it. -/
def State.outstanding (s : State) (p : Packet) : Bool :=
  (s.net.nis[p.src]).reqs.any (fun r => decide (r.dst = p.dst.val ∧ r.seq = p.seq))

/-- The source holds the request, and the credit it took, until the response (R283, R288). -/
def State.sent (s : State) (p : Packet) : State :=
  if s.outstanding p then s
  else s.modNi p.src (fun x =>
    { (x.setCredit p.dst (x.credit p.dst - 1)) with
      reqs := x.reqs ++ [{ dst := p.dst, seq := p.seq, epoch := p.epoch, read := decide (p.op = 0), held := false, pkt := p }] })

/-- The requests waiting at an NI leave, in order, as far as they may. -/
def State.releaseAt (s : State) (n : Fin 36) : State :=
  let all := (s.net.nis[n]).waitReqs
  all.foldl (fun s p => if s.maySend p then (s.sent p).sendRequest p else s.modNi n (fun x => { x with waitReqs := x.waitReqs ++ [p] }))
    (s.modNi n (fun x => { x with waitReqs := [] }))

/-- Requests that waited for a route are released where the tables now give one (R284). -/
def State.releaseWaits (s : State) : State :=
  s.forFin 36 (fun n s => (s.modNi n (fun x => { x with reqs := x.reqs.map (fun r =>
    let e := Ni.entry x.inForce r.dst
    let lost (w : Nat) : Bool := !routeValid w || hitsDown s.net.down n w
    if r.held ∧ ¬ (lost (entryA e) ∧ lost (entryB e)) then { r with held := false } else r) })).releaseAt n)

/-- COMMIT: the written tables come into force and every USE_B clears; retrained links that they use return to service. -/
def State.commitRoutes (s : State) : State :=
  match s.commitFault with
  | some k => (s.fset F.NOC_RT_CTL_BAD 1).fset F.NOC_RT_CTL_BAD_IDX k
  | none =>
    let s := s.forFin 36 (fun n s =>
      (s.modNi n (fun x => { x with
        inForce := x.written,
        credits := (List.range 36).foldl (fun m d =>
          smSet (fun _ => 1) m d (s.credit n d - x.reqs.countP (fun r => decide (r.dst = d)))) [] })).fset F.NOC_NI_USEB_USE_B 0 n)
    let back := s.net.retrained.filter (fun l => (List.finRange 36).any (fun n : Fin 36 => (s.net.nis[n]).crosses n l))
    let s : State := { s with net := { s.net with
      down := s.net.down.filter (fun l => !back.contains l), retrained := s.net.retrained.filter (fun l => !back.contains l) } }
    (if s.net.down = [] then s.redund 3 false else s).releaseWaits

/-- COMMIT. -/
def execCommit (a : Agent) (s : State) : Ans := s.effect (fun s => s.guarded a .NOC_RT_CTL 0 (fun s => s.commitRoutes))

/-! ## Link failure (R282-R284) -/

/-- A link is declared DOWN: every NI whose route A crosses it turns to route B, and requests with no route wait. -/
def State.linkFails (s : State) (router : Fin 36) (south : Bool) : State :=
  let l := 2 * router.val + (if south then 1 else 0)
  let dir := if south then 2 else 1
  if s.net.down.contains l ∨ ¬ s.active then s
  else
    let s : State := { s with net := { s.net with
      down := l :: s.net.down, retrained := s.net.retrained.erase l, retries := smSet (fun _ => []) s.net.retries l [] } }
    let s := s.emit (.linkDown router dir)
    let s := if s.on F.NOC_LINK_FAIL_VALID then s
      else ((s.fset F.NOC_LINK_FAIL_ROUTER router).fset F.NOC_LINK_FAIL_DIR dir).fset F.NOC_LINK_FAIL_VALID 1
    let s := s.forFin 36 (fun n s =>
      let x := s.net.nis[n]
      let hit := (List.range 36).filter (fun d => hitsDown [l] n (entryA (Ni.entry x.inForce d)))
      let s := s.fset F.NOC_NI_USEB_USE_B (hit.foldl (fun u d => natSetBit u d true) (s.fv F.NOC_NI_USEB_USE_B n)) n
      s.modNi n (fun x => { x with reqs := x.reqs.map (fun r =>
        let e := Ni.entry x.inForce r.dst
        { r with early := true, held := r.held || (hitsDown s.net.down n (entryA e) && hitsDown s.net.down n (entryB e)) }) }))
    let r := 2 ^ 62 + 256 * router.val + dir
    ((s.redund 3 true).csMasked 0x14 router [r] 5).raise .linkRerouted r

/-- LINK_DOWN. -/
def execLinkDown (router : Fin 36) (south : Bool) (s : State) : Ans := s.effect (fun s => s.linkFails router south)

/-- LINK_LEVEL_RETRY: 16 failed retries within 1 us, 200 TCLK, declare the link DOWN. -/
def execLinkLevelRetry (router : Fin 36) (south : Bool) (s : State) : Ans :=
  s.effect (fun s =>
    let l := 2 * router.val + (if south then 1 else 0)
    let now := s.devTime.toNat
    let times := (now :: smGet (fun _ => []) s.net.retries l).filter (fun t => decide (now - t < 200))
    if 16 ≤ times.length then s.linkFails router south
    else { s with net := { s.net with retries := smSet (fun _ => []) s.net.retries l times } })

/-- LINK_RETRAINED: the link returns to service at the next COMMIT that uses it. -/
def execLinkRetrained (router : Fin 36) (south : Bool) (s : State) : Ans :=
  s.effect (fun s =>
    let l := 2 * router.val + (if south then 1 else 0)
    if s.net.down.contains l ∧ ¬ s.net.retrained.contains l then { s with net := { s.net with retrained := l :: s.net.retrained } } else s)

/-- REQUEST_REPLAY: every unanswered request of the NI that was sent before a link failed and has a route is sent again with its
SEQ (R283). -/
def execRequestReplay (ni : Fin 36) (s : State) : Ans :=
  s.effect (fun s => (s.net.nis[ni]).reqs.foldl (fun s r => if r.held ∨ ¬ r.early then s else s.sendRequest r.pkt) s)

/-- The response packet to a request (R278): it carries the request's SEQ, EPOCH and class back to its source. -/
def State.answer (s : State) (p : Packet) (data : List Byte) : Packet :=
  s.packed true { p with
    src := p.dst, ssub := p.dsub, dst := p.src, dsub := p.ssub, op := 5, bytes := BitVec.ofNat 10 data.length, data := data }

/-- ROUTE_WAIT_TIMEOUT: a request that has waited 2 ms for a route completes FAILED_NODE_RESET (R284); one that had been sent gives
its credit back. -/
def execRouteWaitTimeout (ni : Fin 36) (dst : Fin 36) (seq : BitVec 8) (s : State) : Ans :=
  s.effect (fun s =>
    match (s.net.nis[ni]).reqs.find? (fun r => decide (r.dst = dst.val ∧ r.seq = seq) && r.held),
        (s.net.nis[ni]).waitReqs.find? (fun p => decide (p.dst = dst ∧ p.seq = seq)) with
    | some r, _ =>
      ((s.modNi ni (fun x => { (x.setCredit dst (x.credit dst + 1)) with reqs := x.reqs.erase r })).emit
        (.netResponse (s.answer r.pkt []) stNODE 0 false)).releaseAt ni
    | none, some p =>
      if s.stranded ni dst then
        ((s.modNi ni (fun x => { x with waitReqs := x.waitReqs.erase p })).emit
          (.netResponse (s.answer p []) stNODE 0 false)).releaseAt ni
      else s
    | none, none => s)

/-- A response reaches the NI of its source (R288, R292): it returns the credit of its request, and one of an old epoch is dropped
and counted. -/
def State.responseIn (s : State) (ni : Fin 36) (dst : Nat) (epoch : BitVec 4) (seq : BitVec 8) : State :=
  let s := if epoch.toNat ≠ s.fv F.NOC_NI_STAT_EPOCH ni then s.finc F.NOC_NI_STAT_LATE ni else s
  match (s.net.nis[ni]).reqs.find? (fun r => decide (r.dst = dst ∧ r.seq = seq ∧ r.epoch = epoch)) with
  | some r => s.modNi ni (fun x => { (x.setCredit dst (x.credit dst + 1)) with reqs := x.reqs.erase r })
  | none => s

/-- NOC_RESPONSE_ARRIVAL: the responses sent before it arrive first (R285); credits that return release waiting requests. -/
def execNocResponseArrival (ni : Fin 36) (dst : Fin 36) (epoch : BitVec 4) (seq : BitVec 8) (s : State) : Ans :=
  s.effect (fun s =>
    let is (p : Packet) : Bool := decide (p.epoch = epoch ∧ p.seq = seq)
    let first := s.net.ahead true dst ni is false
    let here := (s.net.between true dst ni).filter is
    let s := first.foldl (fun s p => s.responseIn ni dst p.epoch p.seq) (s.landed (first ++ here))
    (s.responseIn ni dst epoch seq).releaseAt ni)

/-! ## Nodes (R291, R292) -/

/-- The core attached to a router. -/
def routerCore (n : Nat) : Option (Fin 8) := (List.finRange 8).find? (fun c => decide (coreRouter c = n))

/-- A core and its array side return to their reset state, and the reservations on its memories end (R101). -/
def State.resetCore (s : State) (c : Fin 8) : State :=
  let s := if c.val < 4 then (s.endResvOn (4 + c)).endResvOn (8 + c) else s.endResvOn (8 + c)
  let s := s.modCore c (fun _ => { Core.atReset c with cycleBase := s.rootTicks })
  if h : c.val < 4 then
    s.modDev ⟨c.val, h⟩ (fun x => { x with aiq := [], ex := {}, half := none, fogRunning := false })
  else s

/-- The response leaves its target (R278): OK becomes OK_DELAYED, and WAIT tells the microseconds, for a request held since DEV_TIME
`since` (R290). -/
def State.respond (s : State) (p : Packet) (since : Option DWord) (status : Nat) (data : List Byte) (poison : Bool) : State :=
  let q := s.answer p data
  let st := if since.isSome ∧ status = stOK then stDELAYED else status
  let wait : Nat := match since with
    | some t => (s.devTime - t).toNat / 200 % 2 ^ 24
    | none => 0
  (s.emit (.netResponse q st wait poison)).inject q

/-- A node's NI answers what it holds with FAILED_NODE_RESET, forgets its recorded outcomes, and its epoch rises; the node is
being reset. -/
def State.resetNi (s : State) (n : Fin 36) : State :=
  let s := (s.net.nis[n]).heldReqs.foldl (fun s h => s.respond h.1 none stNODE [] false) s
  (s.modNi n (fun x => { x with heldReqs := [], waitReqs := [], recorded := [], resetting := true, powered := true })).fset
    F.NOC_NI_STAT_EPOCH ((s.fv F.NOC_NI_STAT_EPOCH n + 1) % 16) n

/-- NODE_RESET: the NI and its agents. -/
def execNodeReset (ni : Fin 36) (s : State) : Ans :=
  s.effect (fun s =>
    if ¬ s.active then s
    else
      let s := s.resetNi ni
      match routerCore ni with
      | some c => s.resetCore c
      | none => s)

/-- NODE_RESET_END. -/
def execNodeResetEnd (ni : Fin 36) (s : State) : Ans := s.effect (fun s => s.modNi ni (fun x => { x with resetting := false }))

/-! ## DDR5 (R295, R297) -/

/-- The router of a DDR5 channel (R277). -/
def ddrRouter (ch : Fin 4) : Fin 36 := [0, 5, 30, 35].getD ch.val 0

/-- Requests in flight to a lost DDR5 channel complete with FAILED_NODE_RESET (R297). -/
def State.failInFlight (s : State) (n : Fin 36) : State :=
  let coming := (s.net.flights.filter (fun f => !f.pkt.vn && f.pkt.dst == n)).map (fun f => f.pkt)
  let held := (s.net.nis[n]).heldReqs.map (·.1)
  (held ++ coming).foldl (fun s p => s.respond p none stNODE [] false)
    ((s.landed coming).modNi n (fun x => { x with heldReqs := [] }))

/-- DDR_CHANNEL_LOSS: the normal region loses its contents and shrinks; the mirrored region is served from the survivors. -/
def execDdrChannelLoss (ch : Fin 4) (s : State) : Ans :=
  s.effect (fun s =>
    if s.mems.ddrLost.testBit ch.val ∨ ¬ s.active then s
    else
      let d := s.mems.ddr
      let words := Nat.max d.lost (s.copyStart / 8)
      let s : State := { s with mems := { s.mems with
        ddrLost := natSetBit s.mems.ddrLost ch true,
        ddr := { d with lost := words, words := d.words.filter (fun e => decide (words ≤ e.1)) } } }
      let s := s.fset F.DDR_STATUS_LOST (natSetBit (s.fv F.DDR_STATUS_LOST) ch true)
      let s := s.fset F.DDR_STATUS_UP (natSetBit (s.fv F.DDR_STATUS_UP) ch false)
      ((s.redund 4 true).csMasked 0x14 (ddrRouter ch) [ch] 6).failInFlight (ddrRouter ch))

/-- A software write of DDR_MIRROR: SIZE is written in Boot alone, up to 16. -/
def State.writeMirror (s : State) (v : DWord) : State :=
  if s.mode = 2 ∧ wField v F.DDR_MIRROR_SIZE ≤ 16 then s.fset F.DDR_MIRROR_SIZE (wField v F.DDR_MIRROR_SIZE) else s

/-! ## Scrubbing and range passes (R303, R304) -/

/-- A word of a memory holds a correctable error. -/
def State.wordCe (s : State) (code w : Nat) : Bool :=
  if code = 0 then (s.grains.plane (w / 2048)).ce.getLsbD (w % 2048)
  else (cwWords code w).any (fun i => match s.cell code i with
    | .ce _ => true
    | _ => false)

/-- Reads one word by its index of R304; the flag says that it is uncorrectable. -/
def State.readWord (s : State) (requester code w : Nat) : Bool × State :=
  if code = 0 then
    let r := s.grainRead (w / 2048) (oneWord (w % 2048)) requester
    (decide (r.1 ≠ 0), r.2)
  else s.readCw requester code w

/-- SCRUB_READ: the scrubber reads the next word of its range; grain memory in idle cycles alone (R50). -/
def execScrubRead (m : Fin 17) (s : State) : Ans :=
  s.effect (fun s =>
    let lo := s.fv F.ECC_SCRUB_RANGE_LO m
    let hi := s.fv F.ECC_SCRUB_RANGE_HI m
    let at_ := smGet (fun _ => 0) s.net.scrubPos m
    let w := if at_ < lo ∨ hi < at_ then lo else at_
    if ¬ s.active ∨ ¬ s.on F.ECC_SCRUB_RATE m ∨ hi < lo ∨ memWords m ≤ w ∨ (m.val = 0 ∧ (List.finRange 4).any (fun d : Fin 4 => s.arrayWork d)) then s
    else
      let s : State := { s with net := { s.net with scrubPos := smSet (fun _ => 0) s.net.scrubPos m (if w = hi then lo else w + 1) } }
      (s.readWord (memRouter m w) m w).2)

/-- A software write of ECC_SCAN_CTL: a GO during a pass, or of an unlisted memory, is ignored and sets REJ; the other fields take the
write as their codes say (R11). -/
def State.writeScan (s : State) (mask v : DWord) : State :=
  let go := decide (wField v F.ECC_SCAN_CTL_GO = 1) && mask.getLsbD 31
  let busy := s.net.scan.isSome
  let t := s.plainWrite .ECC_SCAN_CTL 0 mask (v &&& ~~~0x80000000)
  if ¬ go then t
  else if busy ∨ 16 < t.fv F.ECC_SCAN_CTL_MEM then t.fset F.ECC_SCAN_CTL_REJ 1
  else
    let t := t.fset F.ECC_SCAN_CTL_GO 1
    { t with net := { t.net with
      scan := some { mem := t.fv F.ECC_SCAN_CTL_MEM, start := t.fv F.ECC_SCAN_START_START, length := t.fv F.ECC_SCAN_CTL_LENGTH, cmd := none } } }

/-- SCAN_GO. -/
def execScanGo (a : Agent) (v : DWord) (s : State) : Ans :=
  s.effect (fun s => s.guarded a .ECC_SCAN_CTL 0 (fun s => s.writeScan fullMask (v ||| 0x80000000)))

/-- The length of the summary that SCAN_RANGE returns (R304). -/
def scanBytes : Nat := 72

/-- SCAN_RANGE: the range pass starts, and the command completes with it. -/
def execScanRange (c : CmdIn) (s : State) : Ans :=
  let d := c.desc
  s.effect (fun s => s.start c 0x30 { offset := true, length := true, p0 := 0x1F, host := true } notDenied (fun c r s =>
    let code := d.p0.toNat % 32
    if 16 < code then s.completeReason r stCONFLICT 0xF3
    else if s.net.scan.isSome then s.completeDetail r stBUSY (s.free_ 8).toNat (s.free_ 32).toNat
    else
      match s.hostFault c r scanBytes with
      | some t => t
      | none => { s with net := { s.net with
          scan := some { mem := code, start := d.offset.toNat, length := d.length.toNat, cmd := some (r, (hostSegs c scanBytes).getD []) } } }))

/-- The pass over the words: corrected and uncorrectable counts, and the failing indices. -/
def State.scanWords (s : State) (p : ScanPass) : Nat × List Nat × State :=
  (List.range (Nat.min p.length (memWords p.mem - p.start))).foldl (fun (r : Nat × List Nat × State) i =>
    let w := p.start + i
    let ce := r.2.2.wordCe p.mem w
    let x := r.2.2.readWord (memRouter p.mem w) p.mem w
    (if ce && !x.1 then r.1 + 1 else r.1, if x.1 then r.2.1 ++ [w] else r.2.1, x.2)) (0, [], s)

/-- SCAN_PASS_COMPLETE. -/
def execScanPassComplete (s : State) : Ans :=
  s.effect (fun s =>
    match s.net.scan with
    | none => s
    | some p =>
      let r := s.scanWords p
      let ce := Nat.min r.1 (2 ^ 32 - 1)
      let ue := Nat.min r.2.1.length (2 ^ 32 - 1)
      let s : State := { r.2.2 with net := { r.2.2.net with scan := none } }
      let none64 := 2 ^ 64 - 1
      match p.cmd with
      | some (c, host) =>
        let out := leBytes ce 4 ++ leBytes ue 4 ++ (List.range 8).flatMap (fun k => leBytes (r.2.1.getD k none64) 8)
        (s.deliver c host out).complete c stOK (pair ue ce) out
      | none =>
        let s := ((s.fset F.ECC_SCAN_CTL_GO 0).fset F.ECC_SCAN_SUM_CE ce).fset F.ECC_SCAN_SUM_UE ue
        s.forFin 8 (fun k s => s.fset F.ECC_SCAN_ADDR_WORD (r.2.1.getD k none64) k))

/-! ## Initialisation and injection (R302, R305) -/

/-- A software write of ECC_INIT: each bit starts its memory. -/
def State.writeEccInit (s : State) (v : DWord) : State := s.plainWrite .ECC_INIT 0 fullMask v

/-- ECC_INIT. -/
def execEccInit (a : Agent) (v : BitVec 32) (s : State) : Ans :=
  s.effect (fun s => s.guarded a .ECC_INIT 0 (fun s => s.writeEccInit (v.setWidth 64)))

/-- ECC_INIT_COMPLETE: the memory holds zero codewords. -/
def execEccInitComplete (m : Fin 17) (s : State) : Ans :=
  s.effect (fun s =>
    let bits := s.fv F.ECC_INIT_MEM
    if 1 ≤ m.val ∧ bits.testBit (m.val - 1) then (s.memZero m).fset F.ECC_INIT_MEM (natSetBit bits (m.val - 1) false) else s)

/-- A software write of ECC_FLIP_CTL: an ARM while one is pending is kept for the write after it (R13, R305). -/
def State.writeFlip (s : State) (mask v : DWord) : State :=
  let again := s.on F.ECC_FLIP_CTL_ARM && decide (wField v F.ECC_FLIP_CTL_ARM = 1) && mask.getLsbD 31
  let s := s.plainWrite .ECC_FLIP_CTL 0 mask v
  if again then { s with net := { s.net with armAgain := true } } else s

/-- FLIP_ARM. -/
def execFlipArm (a : Agent) (v : DWord) (s : State) : Ans :=
  s.effect (fun s => s.guarded a .ECC_FLIP_CTL 0 (fun s => s.writeFlip fullMask (v ||| 0x80000000)))

end Sys2Proof.Machine
end

