-- ==== Sys2Proof/Machine/ContactSheet.lean ====
section
/-!
DEFINITION. The Contact Sheet: its records, the trace and its commit, and what BLACKBOX_READ and STATUS_QUERY return (R233,
R363-R369).
-/

namespace Sys2Proof.Machine

/-! ## Records (R363, R365) -/

/-- Records of the ring. -/
def csRing : Nat := 131072

/-- A record is written: it takes the next SEQ, and the ring's oldest gives way. -/
def State.csWrite (s : State) (r : CsRecord) : State :=
  let n := s.fv F.CS_SEQ_NEXT
  let records := ({ r with seq := BitVec.ofNat 32 n } :: s.cs.records).take csRing
  let s : State := { s with cs := { s.cs with records := records } }
  (s.fset F.CS_SEQ_NEXT ((n + 1) % 2 ^ 32)).fset F.CS_SEQ_OLDEST ((n + 1 + 2 ^ 32 - records.length) % 2 ^ 32)

/-- The oldest queued record is written. -/
def State.csWriteNext (s : State) : State :=
  match s.cs.queue with
  | [] => s
  | r :: rest => ({ s with cs := { s.cs with queue := rest } } : State).csWrite r

/-- Every queued record is written. -/
def State.csFlush (s : State) : State := s.cs.queue.foldl (fun s _ => s.csWriteNext) s

/-- CS_RECORD_WRITE. -/
def execCsRecordWrite (s : State) : Ans := s.effect (fun s => if s.active then s.csWriteNext else s)

/-- CS_MERGE_WINDOW_END: a millisecond after the first record of a TYPE and SOURCE, the others leave one record with their
count. What else that record holds is not stated: it is that of the moment it is written, with open values. -/
def execCsMergeWindowEnd (ty : BitVec 16) (source : BitVec 8) (s : State) : Ans :=
  s.effect (fun s =>
    match s.cs.merging.find? (fun e => e.1 == ty.toNat && e.2.1 == source.toNat) with
    | none => s
    | some e =>
      let s : State := { s with cs := { s.cs with merging := s.cs.merging.erase e } }
      if e.2.2 = 0 then s
      else
        let r := s.csRecord ty.toNat source.toNat [(s.free_ 224).toNat] 4
        s.used.csEnqueue { r with merged := some e.2.2 })

/-- The 64 bytes of a record. Where the layout of DATA is not given, it is the one `Config.csData` names (log 18). -/
def csBytes (r : CsRecord) : List Byte :=
  let raw := if r.ty = 0x82 then r.data.flatMap (fun w => leBytes w 4) else Config.csData r.ty r.data
  let padded := (raw ++ List.replicate 32 0).take 32
  let data := match r.merged with
    | some n => padded.take 28 ++ leBytes n 4
    | none => padded
  let body := leBytes r.seq.toNat 4 ++ leBytes r.ty 2 ++ leBytes r.source 1 ++ leBytes r.flags.toNat 1 ++ leBytes r.time.toNat 8 ++
    leBytes r.line.toNat 4 ++ leBytes r.mode 1 ++ leBytes r.redund 1 ++ leBytes r.powerOn.toNat 2 ++ data ++ leBytes r.job 4
  body ++ leBytes (crc32c body) 4

/-! ## The trace (R366, R367) -/

/-- The values of a network entry. -/
def netValues (t : NetTrace) : List Nat :=
  [t.time.toNat, t.src, t.dst, t.vn, t.op, t.bclass, t.seq.toNat, t.status, t.addr.toNat, t.bytes]

/-- The values of a Shutter entry. -/
def shtValues (t : ShtTrace) : List Nat :=
  [t.line, (BitVec.ofInt 64 t.tick).toNat, t.time.toNat, t.groups.toNat, t.depth, t.inflight, t.flags.toNat]

/-- The trace records of a trigger, oldest entry first: 2,048 of 2 network entries, 512 of 8 offsets, 256 Shutter entries. -/
def State.traceRecords (s : State) (t : CsRecord) : List CsRecord :=
  let rec_ (ty : Nat) (data : List Nat) : CsRecord := { t with ty := ty, flags := 2, data := data, merged := none }
  let net := s.cs.net.reverse
  let sht := s.cs.sht.reverse
  (List.range 2048).map (fun k => rec_ 0x81 (((net.drop (2 * k)).take 2).flatMap netValues)) ++
    (List.finRange 4).flatMap (fun d : Fin 4 =>
      let pc := (s.devs[d]).pcTrace.reverse
      (List.range 128).map (fun k => rec_ 0x82 (((pc.drop (8 * k)).take 8).map (fun w => w.toNat)))) ++
    (List.range 256).map (fun k => rec_ 0x83 (((sht.drop k).take 1).flatMap shtValues))

/-- The frozen trace of a trigger is written, behind the records queued before it, and recording restarts with the buffers
emptied. The SEQ of a trigger whose record was merged away is a free value. -/
def State.traceCommit (s : State) : State :=
  match s.cs.trigger with
  | none => s
  | some t =>
    let s := s.csFlush
    let seq := match s.cs.records.find? (fun r => decide ({ r with seq := 0 } = t)) with
      | some r => r.seq.toNat
      | none => (s.free_ 32).toNat
    let counts := [s.cs.net.length, ((List.finRange 4).map (fun d : Fin 4 => (s.devs[d]).pcTrace.length)).foldl (· + ·) 0, s.cs.sht.length]
    let header : CsRecord := { t with ty := 0x80, flags := 2, data := [seq, t.ty] ++ counts, merged := none }
    let s := s.used.csWrite header
    let s := (s.traceRecords t).foldl (fun s r => s.csWrite r) s
    let s := s.forFin 4 (fun d s => s.modDev d (fun x => { x with pcTrace := [] }))
    ({ s with cs := { s.cs with net := [], sht := [], trigger := none } } : State).fset F.CS_STATUS_COMMIT 0

/-- TRACE_COMMIT_COMPLETE. -/
def execTraceCommitComplete (s : State) : Ans := s.effect (fun s => if s.active then s.traceCommit else s)

/-- CS_CTL.TRIG is written with 1: an enabled host trigger freezes the trace, or is suppressed by a commit. R364 gives its record no
TYPE and no DATA: both are free values. TRIG clears as the freeze starts or at once (log 44). -/
def State.hostTrig (s : State) : State :=
  if natBit (s.fv F.CS_CTL_TRIG_MASK) 10 then
    s.used.csReport (s.free_ 16).toNat 0xFF [(s.free_ 64).toNat] true
  else s

/-- A software write of CS_CTL. -/
def State.writeCsCtl (s : State) (mask v : DWord) : State :=
  let s := (s.plainWrite .CS_CTL 0 mask v).fset F.CS_CTL_TRIG 0
  if wField (v &&& mask) F.CS_CTL_TRIG = 1 then s.hostTrig else s

/-- HOST_TRIGGER: the write carries TRIG = 1. -/
def execHostTrigger (a : Agent) (v : BitVec 32) (s : State) : Ans :=
  s.effect (fun s => s.guarded a .CS_CTL 0 (fun s => s.writeCsCtl fullMask (v.setWidth 64 ||| 0x80000000)))

/-! ## BLACKBOX_READ (R368) -/

/-- The records a BLACKBOX_READ returns, in ascending SEQ order. -/
def State.csSelect (s : State) (offset : DWord) (n : Nat) : List CsRecord :=
  let all := s.cs.records.reverse
  let next := s.fv F.CS_SEQ_NEXT
  let oldest := s.fv F.CS_SEQ_OLDEST
  let start := if offset.getLsbD 63 then (next + 2 ^ 32 - n % 2 ^ 32) % 2 ^ 32 else offset.toNat % 2 ^ 32
  let ahead := (start + 2 ^ 32 - oldest) % 2 ^ 32
  (if ahead < 2 ^ 31 then all.drop ahead else all).take n

/-- BLACKBOX_READ. With no record returned, the first SEQ is a free value. -/
def execBlackboxRead (c : CmdIn) (s : State) : Ans :=
  let d := c.desc
  let n := d.length.toNat
  s.effect (fun s => s.start c 0x32 { offset := true, length := true, host := true } notDenied (fun c r s =>
    if n = 0 ∨ csRing < n then s.completeReason r stCONFLICT 0xF3
    else if tooLong c (64 * n) then s.completeReason r stCONFLICT 0xF3
    else
      match s.hostFault c r (64 * n) with
      | some t => t
      | none =>
        let l := s.csSelect d.offset n
        let first := match l with
          | x :: _ => x.seq.toNat
          | [] => (s.free_ 32).toNat
        let data := l.flatMap csBytes
        (s.used.deliver r ((hostSegs c (64 * n)).getD []) data).complete r stOK (pair first l.length) data))

/-! ## STATUS_QUERY (R233, R331, R337) -/

/-- A counter of `n` bytes, which saturates. -/
def satBytes (v n : Nat) : List Byte := leBytes (Nat.min v (2 ^ (8 * n) - 1)) n

def storeCode : StoreState → Nat
  | .full => 0
  | .degraded => 1
  | .rebuilding => 2
  | .failed => 3

/-- The store summary, page 0x10. The remaining rebuild time is the media's own: a free value. -/
def State.storePage (s : State) : List Byte :=
  let flags := (if s.on F.JS_REBUILD_PAUSE then 1 else 0) + (if s.store.deferred then 2 else 0) + (if s.store.toPatrol ≠ [] then 4 else 0)
  let used := s.heldBytes (fun _ => true)
  leBytes (storeCode s.store.state) 1 ++
    leBytes ((s.store.rebuildSlot.map (fun n => n.val)).getD 0xFF) 1 ++ leBytes (s.fv F.JS_REBUILD_PCT) 1 ++ leBytes flags 1 ++
    satBytes s.reelList.length 4 ++ satBytes used 8 ++ satBytes (userCapacity - used - s.store.reclaim) 8 ++ satBytes s.store.reclaim 8 ++
    satBytes s.refreshBacklog 8 ++ satBytes ((s.store.units.map (fun u => u.age)).foldl Nat.max 0 / day) 4 ++
    satBytes ((s.store.units.flatMap (fun u => u.unread)).foldl Nat.max 0 / day) 4 ++ leBytes (s.free_ 32).toNat 4 ++
    List.replicate 12 0

/-- How many of some times lie in the last 24 hours. -/
def State.lastDay (s : State) (l : List DWord) : Nat := l.countP (fun t => decide ((s.devTime - t).toNat < day))

/-- A sled's entry of page 0x11. What the sled itself reports is `Config`'s (log 114). -/
def State.sledPage (s : State) (n : Fin 16) : List Byte :=
  let x := s.sled n
  leBytes x.state 1 ++ leBytes (Config.sledTemp n s.devTime % 256).toNat 1 ++ leBytes (Config.sledWear x.serial x.written) 1 ++
    leBytes x.sparePct 1 ++ satBytes (Config.sledHours x.serial + 24 * (s.devTime - x.since).toNat / day) 4 ++
    satBytes (Config.sledBad x.serial) 4 ++ satBytes x.retired 4 ++ satBytes (s.lastDay x.retries) 4 ++ satBytes (s.lastDay x.soft) 4 ++
    satBytes x.rebuilt 4 ++ satBytes x.lost 4 ++ satBytes (65536 * s.lastDay x.refreshed / 10 ^ 9) 4 ++
    satBytes ((Config.sledWritten x.serial + x.written) / 10 ^ 12) 4 ++ List.replicate 8 0 ++ leBytes x.serial.toNat 16

/-- The identity page 0x20: it returns the two fused hashes and the agreement key's certificate chain, in a layout and length that
the spec does not give. -/
def State.identityPage (s : State) (n : Nat) : List Byte := leBytes (s.free_ (8 * n)).toNat n

/-- A page cut to the length asked for. -/
def State.statusPage (s : State) (page n : Nat) : Option (List Byte) :=
  match page with
  | 0x10 => some (s.storePage.take n)
  | 0x11 => some (((List.finRange 16).flatMap (fun k : Fin 16 => s.sledPage k)).take n)
  | 0x20 => some (s.identityPage n)
  | _ => none

/-- STATUS_QUERY. An unlisted page is a value out of range. -/
def execStatusQuery (c : CmdIn) (s : State) : Ans :=
  let d := c.desc
  s.effect (fun s => s.start c 0x31 { length := true, p0 := 0xFF, host := true } notDenied (fun c r s =>
    if tooLong c d.length.toNat then s.completeReason r stCONFLICT 0xF3
    else
      match s.hostFault c r d.length.toNat, s.statusPage (d.p0.toNat % 256) d.length.toNat with
      | some t, _ => t
      | none, none => s.completeReason r stCONFLICT 0xF3
      | none, some page =>
        (({ s with free := s.free + 16 } : State).deliver r ((hostSegs c d.length.toNat).getD []) page).complete r stOK page.length page))

end Sys2Proof.Machine
end

