-- ==== Sys2Proof/Machine/Power.lean ====
section
/-!
DEFINITION. Modes, the drain, wakes and resets, mains and holdup, boot, the reference, thermal events and the industrial inputs and
outputs (R307-R326, R376-R384).
-/

namespace Sys2Proof.Machine

/-! ## Power-on (R315, R320, R329) -/

/-- The power cause of SYS_REDUND stands while an inlet is lost or a cartridge is out or faulted. -/
def State.powerCause (s : State) : State := s.redund 0 (decide (s.pwr.lost ≠ 0 ∨ s.pwr.cartOut ≠ 0 ∨ s.pwr.cartFault ≠ 0))

/-- The module right after always-on power is applied: everything resets but the MRAM (PWR_CFG and the Contact Sheet), the flash and
the fuses, in which the protected write buffer has been programmed (R235). What is plugged in stays plugged in. DEV_TIME is set by the
commands that do this. -/
def State.powerOn (s : State) : State :=
  let s := s.flushBuffer (fun _ => true)
  let t : State := { (State.reset : State) with
    free := s.free, out := s.out, fuses := s.fuses,
    regs := smKeep (fun k => decide (k = regKey .PWR_CFG 0) || decide (k = regKey .CS_SEQ 0)) s.regs,
    lanes := s.lanes.map Lane.atReset,
    store := { reels := s.store.reels, gens := s.store.gens,
               state := if s.store.state = .rebuilding then .degraded else s.store.state, rebuildSlot := s.store.rebuildSlot,
               sleds := s.store.sleds, checkpointGB := s.store.checkpointGB, reclaim := s.store.reclaim, unerased := s.store.unerased,
               units := s.store.units, refresh := s.store.refresh },
    hst := { programs := s.hst.programs, stagedImages := s.hst.stagedImages, activated := s.hst.activated,
             bootImages := s.hst.bootImages, regionImages := s.hst.regionImages, regionReady := s.hst.regionReady, accCount := s.hst.accCount,
             fns := s.hst.fns.map (fun f => { gen := f.gen + 1 }), sessGen := s.hst.sessGen.map (· + 1) },
    net := { down := s.net.down },
    pwr := { lost := s.pwr.lost, cartOut := s.pwr.cartOut, cartFault := s.pwr.cartFault, trayOut := s.pwr.trayOut,
             fieldLow := s.pwr.fieldLow },
    cs := { records := s.cs.records, powerOns := s.cs.powerOns + 1 } }
  let t := t.forFin 16 (fun l t => t.fset F.HP_LANE_STATUS_PRESENT (if (s.lanes[l]).present then 1 else 0) l)
  let t := t.forFin 16 (fun n t => t.fset F.SHT_DIN_CTL_FIELD_LOW (if s.pwr.fieldLow then 1 else 0) n)
  t.powerCause.csReport 0x01 0xFF [0, 0] false

/-- A command that starts the module from Off. -/
def State.startFromOff (s : State) : Ans :=
  .next { s.powerOn with pending := s.pending, fuses := s.fuses, devTime := 0 }

/-- POWER_ON_RESET. -/
def execPowerOnReset (s : State) : Ans := s.startFromOff

/-- MAINS_APPLIED: both inlets have mains, and with AUTO_ON a module that is Off boots (log 45). -/
def execMainsApplied (s : State) : Ans :=
  if s.mode ≠ 0 then .next s
  else
    let t : State := { s with pwr := { s.pwr with lost := 0 } }
    if t.on F.PWR_CFG_AUTO_ON then t.startFromOff else .next t

/-! ## The drain of MODE_SET and the wakes (R309, R311, R318) -/

/-- The targets of MODE_SET by mode (R308). -/
def modeTargets (m : Nat) : List Nat :=
  if m = 3 then [0, 1, 6, 7, 8, 10, 11] else if m = 6 ∨ m = 7 ∨ m = 11 ∨ m = 8 then [3] else if m = 9 then [3, 0, 1, 11] else []

/-- MODE_SET. To Ready from Update and Safe it is a die reset, ahead of which the completion is posted (log 46); to Off, Standby and
Sleep it drains. -/
def execModeSet (c : CmdIn) (s : State) : Ans :=
  s.effect (fun s => s.start c 0x50 { p0 := 0xF } notDenied (fun c r s =>
    let t := c.desc.p0.toNat % 16
    if t = s.mode then s.complete r stOK t
    else if ¬ (modeTargets s.mode).contains t then s.completeOpen r stMODE
    else if t = 3 ∧ (s.mode = 8 ∨ s.mode = 9) then (s.complete r stOK 3).dieReset 2 false false
    else if t = 0 ∨ t = 1 ∨ t = 10 then
      { s.fset F.SYS_MODE_TRANS 1 with pwr := { s.pwr with drain := some { target := t, cmd := r } } }
    else ((if s.mode = 3 then s.abortHeld (fun _ => true) else s).toMode t).complete r stOK t))

/-- The commands that a drain waits for: accepted, or started and not completed. -/
def State.runningCmds (s : State) : List CmdRef :=
  s.hst.accepted.map (fun a => a.cmd) ++ s.store.waiting.map (fun w => w.cmd) ++ s.store.writes.map (fun w => w.cmd) ++
    s.store.reads.map (fun w => w.cmd) ++
    s.hst.loads.map (fun l => l.cmd) ++ (s.hst.pending.filter (fun p => !p.held)).map (fun p => p.cmd) ++
    (s.net.scan.bind (fun p => p.cmd.map (fun e => e.1))).toList

/-- DRAIN_TIMEOUT: after 10 s the commands still running are ABORTED. -/
def execDrainTimeout (s : State) : Ans :=
  s.effect (fun s =>
    if s.pwr.drain.isNone then s
    else
      let l := s.runningCmds
      let s : State := { s with
        hst := { s.hst with accepted := [], loads := [], pending := s.hst.pending.filter (fun p => p.held) },
        store := { s.store with waiting := [], writes := [], reads := [] },
        net := { s.net with scan := s.net.scan.bind (fun p => if p.cmd.isSome then none else some p) } }
      l.foldl (fun s r => s.completeOpen r stABORTED) s)

/-- The write buffer is programmed (R235) and a running rebuild is checkpointed (R237). -/
def State.settleStore (s : State) : State :=
  let s := s.flushBuffer (fun _ => true)
  if s.store.state = .rebuilding then s.stopRebuild.setStoreState .degraded else s

/-- DRAIN_COMPLETE: no command is running; the sessions close, the completion is posted and the module powers down. A wake source
that comes after the completion finds the module powered down (log 47). -/
def execDrainComplete (s : State) : Ans :=
  s.effect (fun s =>
    match s.pwr.drain with
    | none => s
    | some d =>
      if s.runningCmds ≠ [] then s
      else
        let s := (s.abortHeld (fun _ => true)).settleStore
        let s := s.forFin 8 (fun k s => s.closeSession k)
        (s.complete d.cmd stOK d.target).powerDown d.target)

/-- The drain is abandoned: the module stays in the mode it is in. -/
def State.abandonDrain (s : State) : State :=
  match s.pwr.drain with
  | none => s
  | some d =>
    let t := (s.completeOpen d.cmd stABORTED).fset F.SYS_MODE_TRANS 0
    { t with pwr := { t.pwr with drain := none } }

/-- A wake source (R318): it abandons a drain, or wakes the module from Standby or Sleep. -/
def State.wakeSource (s : State) : State :=
  if s.pwr.drain.isSome then s.abandonDrain else if s.mode = 1 ∨ s.mode = 10 then s.wakeUp else s

/-- WAKE: the write of PWR_WAKE.WAKE. -/
def execWake (a : Agent) (s : State) : Ans := s.effect (fun s => s.guarded a .PWR_WAKE 0 (fun s => s.wakeSource))

/-- WAKE_ON_LAN. -/
def execWakeOnLan (s : State) : Ans := s.effect (fun s => if s.on F.PWR_CFG_WOL_EN then s.wakeSource else s)

/-- WAKE_IN: the input PWR_CFG.WAKE_IN is activated. -/
def execWakeIn (s : State) : Ans :=
  s.effect (fun s => if s.on F.PWR_CFG_WAKE_IN_EN ∧ ¬ s.pwr.fieldLow then s.wakeSource else s)

/-- POWER_BUTTON_PRESS: it boots a module that is Off and has mains, and is a wake source. -/
def execPowerButtonPress (s : State) : Ans :=
  if s.mode = 0 then (if s.pwr.lost = 3 then .next s else s.startFromOff) else s.effect (fun s => s.wakeSource)

/-- POWER_BUTTON_HOLD. -/
def execPowerButtonHold (s : State) : Ans := s.effect (fun s => if s.mode = 0 then s else s.powerDown 0)

/-! ## Resets (R320) -/

/-- DIE_RESET: a full boot, from Standby and Sleep as well. -/
def execDieReset (s : State) : Ans := s.effect (fun s => if s.mode = 0 then s else s.dieReset 4 false false)

/-- MC_WATCHDOG_EXPIRY: the watchdog of a management core halted by debug is paused (R347). -/
def execMcWatchdogExpiry (s : State) : Ans :=
  s.effect (fun s =>
    let halted := (List.finRange 8).all (fun c : Fin 8 => decide (c.val < 4) || (s.cores[c]).halted)
    if s.active ∧ ¬ halted then s.dieReset 3 false false else s)

/-! ## Mains, cartridges and holdup (R321-R323) -/

/-- PSU_EVENT with its record; the die is off in Standby and Sleep and reports nothing. -/
def State.psu (s : State) (kind unit : Nat) : State :=
  let r := kind + 256 * unit
  if s.active then (s.csReport 0x02 0xFF [r] false).raise .psuEvent r else s

/-- A PSU_EVENT whose KIND has no UNIT: the field is a free value. -/
def State.psuOpen (s : State) (kind : Nat) : State := s.used.psu kind (s.free_ 4).toNat

/-- MAINS_LOSS with its record: 1 lost, which is a trigger, 2 returned. The estimate of the holdup is a measurement: a free value. -/
def State.mainsLoss (s : State) (kind : Nat) : State :=
  let r := kind + (s.free_ 16).toNat * 2 ^ 32
  let s := s.used
  if ¬ s.active then s
  else (if kind = 1 then s.csMasked 0x02 0xFF [r] 8 else s.csReport 0x02 0xFF [r] false).raise .mainsLoss r

/-- Sets or clears bit `u` of a pair. -/
def setUnit (b : BitVec 2) (u : Fin 2) (v : Bool) : BitVec 2 :=
  if v then b ||| BitVec.ofNat 2 (2 ^ u.val) else b &&& ~~~(BitVec.ofNat 2 (2 ^ u.val))

/-- A loss of all power with the holdup cartridge not ready: what the write buffer held may be lost (R323). Which writes are lost and
what then stands in their place are free values. -/
def State.loseBuffer (s : State) : State :=
  let l := s.store.buffered.flatMap (fun e => ((List.range 240).filter (fun b => e.2.2.getLsbD b)).map (fun b => (e.1, stripeBytes * e.2.1 + 4096 * b)))
  let s := s.setStore { s.store with buffered := [] }
  l.foldl (fun s e =>
    let lost := decide (s.free_ 1 = 1)
    let s := s.used
    match s.reelAt e.1 with
    | some r =>
      if lost then
        let bytes := leBytes (s.free_ (8 * 4096)).toNat 4096
        s.used.setReel e.1 (some { r with
          data := (bytes.zipIdx.filter (fun b => decide (e.2 + b.2 < r.length))).foldl (fun m b => smSet (fun _ => 0) m (e.2 + b.2) b.1) r.data })
      else s
    | none => s) s

/-- Both inlets are lost: the holdup cartridge carries the module, or the module is Off. -/
def State.bothLost (s : State) : State :=
  if s.on F.PWR_STATUS_HOLDUP_READY then
    let s := s.mainsLoss 1
    let s := s.flushBuffer (fun _ => true)
    { s with store := { s.store with writesBarred := true }, pwr := { s.pwr with holdingUp := true } }
  else s.loseBuffer.powerDown 0

/-- INLET_LOST. -/
def execInletLost (u : Fin 2) (s : State) : Ans :=
  s.effect (fun s =>
    if s.pwr.lost.getLsbD u.val then s
    else
      let s : State := { s with pwr := { s.pwr with lost := setUnit s.pwr.lost u true } }
      if s.mode = 0 then s
      else
        let s := s.fset F.PWR_STATUS_INLET (natSetBit (s.fv F.PWR_STATUS_INLET) u false)
        let s := (s.powerCause).psu 1 u
        if s.pwr.lost = 3 then s.bothLost else s)

/-- INLET_RESTORED: before the holdup shutdown it ends the holdup. -/
def execInletRestored (u : Fin 2) (s : State) : Ans :=
  s.effect (fun s =>
    let s : State := { s with pwr := { s.pwr with lost := setUnit s.pwr.lost u false } }
    if s.mode = 0 then s
    else
      let s := s.fset F.PWR_STATUS_INLET (natSetBit (s.fv F.PWR_STATUS_INLET) u true)
      let s := (s.powerCause).psu 2 u
      if s.pwr.holdingUp then
        let s := s.mainsLoss 2
        { s with store := { s.store with writesBarred := false }, pwr := { s.pwr with holdingUp := false } }
      else s)

/-- CART_OK of a cartridge. -/
def State.cartOk (s : State) (u : Fin 2) (v : Bool) : State :=
  s.fset F.PWR_STATUS_CART_OK (natSetBit (s.fv F.PWR_STATUS_CART_OK) u v)

/-- CARTRIDGE_FAULT. -/
def execCartridgeFault (u : Fin 2) (s : State) : Ans :=
  s.effect (fun s =>
    let s : State := { s with pwr := { s.pwr with cartFault := setUnit s.pwr.cartFault u true } }
    if s.mode = 0 then s else ((s.cartOk u false).powerCause).psu 3 u)

/-- CARTRIDGE_REMOVED. -/
def execCartridgeRemoved (u : Fin 2) (s : State) : Ans :=
  s.effect (fun s =>
    let s : State := { s with pwr := { s.pwr with cartOut := setUnit s.pwr.cartOut u true } }
    if s.mode = 0 then s else ((s.cartOk u false).powerCause).psu 4 u)

/-- The record of a replacement (R361): the bay, and the unit's serial number, which no command tells: a free value. -/
def State.unitReplaced (s : State) (bay : Nat) : State :=
  if s.active then s.used.csReport 0x03 0xFF [bay, (s.free_ 128).toNat] false else s

/-- CARTRIDGE_INSERTED. -/
def execCartridgeInserted (u : Fin 2) (s : State) : Ans :=
  s.effect (fun s =>
    let s : State := { s with pwr := { s.pwr with
      cartOut := setUnit s.pwr.cartOut u false, cartFault := setUnit s.pwr.cartFault u false } }
    if s.mode = 0 then s else (((s.cartOk u true).powerCause).psu 5 u).unitReplaced u)

/-- HOLDUP_SHUTDOWN: mains is still absent at SHUT_MS: Safe, the commits, then Off. -/
def execHoldupShutdown (s : State) : Ans :=
  s.effect (fun s =>
    if s.pwr.holdingUp then
      let s := ((s.safeEntry 5).settleStore.traceCommit).csFlush
      ({ s with pwr := { s.pwr with holdingUp := false } } : State).powerDown 0
    else s)

/-- HOLDUP_READY. -/
def execHoldupReady (s : State) : Ans :=
  s.effect (fun s => if s.mode = 0 then s else ((s.fset F.PWR_STATUS_HOLDUP_READY 1).redund 7 false).psuOpen 7)

/-- HOLDUP_NOT_READY. -/
def execHoldupNotReady (s : State) : Ans :=
  s.effect (fun s => if s.mode = 0 then s else ((s.fset F.PWR_STATUS_HOLDUP_READY 0).redund 7 true).psuOpen 6)

/-! ## Boot (R132, R324-R328, R334) -/

/-- Words that still hold poison or undefined data become zero codewords (log 48). -/
def Mem.initialised (m : Mem) : Mem :=
  { base := .ok 0, lost := 0, words := m.words.filter (fun e => decide (e.2 ≠ .ok 0)) }

/-- Words of a plane that hold poison become zeros. -/
def GPlane.initialised (p : GPlane) : GPlane :=
  { p with poison := 0, data := BitVec.ofFnLE (fun i : Fin 65536 => p.data.getLsbD i && !p.poison.getLsbD (i.val / 32)) }

/-- Grain memory of which every word has been written. -/
def Grains.initialised (g : Grains) : Grains :=
  let base := g.base.initialised
  { g with base := base, mem := (g.mem.map (fun e => (e.1, e.2.initialised))).filter (fun e => decide (e.2 ≠ base)) }

/-- The memories that stage 5 initialises: all but those of the management cores and DDR5. -/
def State.initDieMemories (s : State) : State :=
  { s with
    mems := { s.mems with
      staging := s.mems.staging.initialised, reserve := s.mems.reserve.initialised,
      devI := s.mems.devI.map Mem.initialised, devD := s.mems.devD.map Mem.initialised, camCorr := s.mems.camCorr.initialised },
    grains := s.grains.initialised }

/-- The microcode steps of R132 before the images: customer decode entries and CAM entries are written as 0. -/
def State.clearMicrocode (s : State) : State :=
  s.forFin 4 (fun d s => s.modDev d (fun x =>
    { x with
      decodeRam := (List.range 64).map (fun k => (192 + k, some 0)),
      cam := (List.range 64).map (fun k => (k, some 0)) }))

/-- A record lies in the part of its image (R130): the Kilgegus patch's, or the customer's, whose CAM entries are SHADOW only. -/
def recInPart (r : MicroRec) (cust : Bool) : Bool :=
  let within (lo hi : Nat) : Bool := decide (lo ≤ r.index ∧ r.index < hi)
  match r.space with
  | 0 => if cust then within 0x4400 0x4800 else within 0x4000 0x4400
  | 1 => if cust then within 0x1100 0x1200 else within 0x1000 0x1100
  | 2 => cust && within 192 256
  | 3 => if cust then within 48 64 && r.word.getLsbD 62 else within 0 48

/-- The copy of an image that is loaded, of its A and B copies in that order: the first that passes every check. -/
def chosenImage (copies : List MicroImage) (cust : Bool) : Option MicroImage :=
  copies.find? (fun x => x.verified && decide (x.target = Config.romVersion) && x.records.all (fun r => recInPart r cust))

/-- A record is written through DEVn_UC_ADDR and DEVn_UC_DATA. -/
def Dev.storeRec (x : Dev) (r : MicroRec) : Dev :=
  let lo := (({ x with half := none } : Dev).storeWord r.space.val r.index (r.word.setWidth 64)).2
  if r.space = 1 then (lo.storeWord 1 r.index (r.word.extractLsb' 64 64)).2 else lo

/-- An image's records are written; where no copy passed, its part of the CAM and, of the customer's, every decode entry is 0. -/
def Dev.loadImage (x : Dev) (image : Option MicroImage) (cust : Bool) : Dev :=
  match image with
  | some i => i.records.foldl Dev.storeRec x
  | none =>
    let zero (m : SMap (Option DWord)) (l : List Nat) : SMap (Option DWord) := l.foldl (fun m k => smSet (fun _ => none) m k (some 0)) m
    if cust then { x with decodeRam := zero x.decodeRam ((List.range 64).map (192 + ·)), cam := zero x.cam ((List.range 16).map (48 + ·)) }
    else { x with cam := zero x.cam (List.range 48) }

/-- The images' records, versions and hashes, and LOCK; a kind both of whose copies failed has version and hash 0, and raises alert 1. -/
def State.lockMicrocode (s : State) (patch cust : List MicroImage) : State :=
  let p := chosenImage patch false
  let q := chosenImage cust true
  let ver (i : Option MicroImage) : Nat := (i.map (fun x => x.version.toNat)).getD 0
  let hash (i : Option MicroImage) : Nat := (i.map (fun x => x.hash.toNat)).getD 0
  s.forFin 4 (fun d s =>
    let s := (s.fset F.DEV_UCODE_VER_PATCH_VER (ver p) d).fset F.DEV_UCODE_VER_PATCH_HASH (hash p) d
    let s := (s.fset F.DEV_UCODE_CUST_CUST_VER (ver q) d).fset F.DEV_UCODE_CUST_CUST_HASH (hash q) d
    let s := if p.isNone then s.alert 1 2 d else s
    let s := if q.isNone then s.alert 1 3 d else s
    (s.modDev d (fun x => (x.loadImage p false).loadImage q true)).fset F.DEV_UCODE_CTL_LOCK 1 d)

/-- Kinds booted in a stage: a copy marked to boot first changes places with the other (R328). -/
def State.activateImages (s : State) (kinds : List Nat) : State :=
  (kinds.flatMap (fun k => (List.range 16).map (fun slot => 16 * k + slot))).foldl (fun s key =>
    if smGet (fun _ => 0) s.hst.activated key ≠ 2 then s
    else
      let h := s.hst
      let h : Hst := { h with
        activated := smSet (fun _ => 0) h.activated key 0,
        bootImages := smSet (fun _ => none) h.bootImages key (smGet (fun _ => none) h.stagedImages key),
        stagedImages := smSet (fun _ => none) h.stagedImages key (smGet (fun _ => none) h.bootImages key) }
      let h : Hst := if key < 64 then h
        else { h with
          regionImages := smSet (fun _ => none) h.regionImages (key - 64) (smGet (fun _ => none) h.regionReady (key - 64)),
          regionReady := smSet (fun _ => none) h.regionReady (key - 64) (smGet (fun _ => none) h.regionImages (key - 64)) }
      { s with hst := h }) s

/-- The verdicts of a kind's images in a table. -/
def imagesOf (t : SMap (Option ImageVerdict)) (k : Nat) : List ImageVerdict :=
  (List.range 16).filterMap (fun slot => smGet (fun _ => none) t (16 * k + slot))

/-- The images of a kind that run: those that boot first, or after a fallback the others. -/
def State.runningImages (s : State) (k : Nat) : List ImageVerdict :=
  imagesOf (if (s.fv F.SYS_BOOT_FALLBACK).testBit k then s.hst.stagedImages else s.hst.bootImages) k

/-- The SVNs of a kind's first copies that lie below its fused minimum. -/
def State.oldImages (s : State) (k : Nat) : List Nat :=
  ((imagesOf s.hst.bootImages k).map (fun v => v.svn)).filter (fun n => decide (n < s.fuses.svnMin k))

/-- The kinds, of those booted in a stage, that fall back to their other copy: those reported, and first copies below the fused
minimum. -/
def State.fellBack (s : State) (fallback : BitVec 8) (kinds : List Nat) : List Nat :=
  kinds.filter (fun k => fallback.getLsbD k || !(s.oldImages k).isEmpty)

/-- Of the kinds booted in a stage, one booted from its other copy sets its bit and raises alert 3; a first copy below the
fused minimum raises alert 9 (R325, R328, R334). -/
def State.reportFallback (s : State) (fallback : BitVec 8) (kinds : List Nat) : State :=
  let back := s.fellBack fallback kinds
  kinds.foldl (fun s k =>
    let s := (s.oldImages k).foldl (fun s svn => s.alert 9 k svn) s
    let s := s.fset F.SYS_BOOT_FALLBACK (natSetBit (s.fv F.SYS_BOOT_FALLBACK) k (back.contains k))
    if back.contains k then s.alert 3 k k else s) s

/-- The fabric regions take their initial images; one both of whose copies failed stays unconfigured and raises alert 2. -/
def State.loadFabric (s : State) (failed : BitVec 16) : State :=
  let s : State := { s with pwr := { s.pwr with fabFailed := failed } }
  s.forFin 16 (fun r s =>
    if failed.getLsbD r.val then s.alert 2 r r
    else
      match smGet (fun _ => none) (if (s.fv F.SYS_BOOT_FALLBACK).testBit 4 then s.hst.regionReady else s.hst.regionImages) r.val with
      | some im => if s.imageRefused r im then s else (s.setShadow r im).exchange r none
      | none => s)

/-- Ready is reached: MODE_CHANGE reports the mode before Boot. -/
def State.bootReady (s : State) : State :=
  let m := s.pwr.bootFrom
  let s := (s.fset F.SYS_MODE_PREV m).fset F.SYS_MODE_STATE 3
  (s.csReport 0x01 0xFF [m, s.fv F.SYS_MODE_SAFE_CAUSE] false).raise .modeChange (3 + 256 * m)

/-- The store is mounted, or stands FAILED; the power-on patrol starts after a full boot. The registers that follow the Reels
follow them again. -/
def State.mountStore (s : State) (ok short : Bool) : State :=
  let s := if ok then s.setStoreState (if s.store.state = .rebuilding then .degraded else s.store.state) else s.setStoreState .failed
  let s := s.forFin 8 (fun f s => s.syncUsed f)
  if short then s else s.startPatrol

/-- The fuses blown as Ready is reached (R334): the bits up to the SVN of each running image with FLOOR. -/
def State.floorFuses (s : State) : Fuses :=
  (List.range 5).foldl (fun f k =>
    let svns := ((s.runningImages k).filter (fun v => v.floor)).map (fun v => v.svn)
    let top := Nat.min 32 (svns.foldl Nat.max 0)
    if f.svnMin k < top then { f with minSvn := f.minSvn.setIfInBounds k ((f.minSvn.toList.getD k 0) ||| BitVec.ofNat 32 (2 ^ top - 1)) }
    else f) s.fuses

/-- What the end of a boot stage does. The short boot trains no DDR5 and mounts no store. -/
def State.bootStage (s : State) (ok : Bool) (fallback : BitVec 8) (patch cust : List MicroImage)
    (fabFailed : BitVec 16) : State :=
  let stage := s.fv F.SYS_BOOT_STAGE
  let short := s.pwr.shortBoot
  let next (s : State) : State := s.fset F.SYS_BOOT_STAGE (stage + 1)
  if ¬ ok ∧ stage = 3 then s.fset F.SYS_BOOT_FAIL 3
  else if ¬ ok ∧ 4 ≤ stage ∧ stage ≤ 7 then (s.fset F.SYS_BOOT_FAIL stage).safeEntry 3
  else if ¬ ok ∧ stage < 3 then s
  else if stage = 3 then
    next ((({ s with mems := { s.mems with mc := s.mems.mc.map Mem.initialised } } : State).activateImages [0]).reportFallback fallback [0])
  else if stage = 4 then
    let s := s.fset F.DDR_STATUS_UP (15 - s.mems.ddrLost % 16)
    next (if short then s else { s with mems := { s.mems with ddr := s.mems.ddr.initialised } })
  else if stage = 5 then next s.initDieMemories
  else if stage = 6 then next s.clearMicrocode
  else if stage = 7 then
    next ((((s.activateImages [1, 2, 3, 4]).reportFallback fallback [1, 2, 3, 4]).lockMicrocode patch cust).loadFabric fabFailed)
  else if stage = 8 then (s.mountStore (ok || short) short).bootReady
  else next s

/-- BOOT_STAGE_COMPLETE. -/
def execBootStageComplete (ok : Bool) (fallback : BitVec 8) (patch cust : List MicroImage) (fabFailed : BitVec 16)
    (s : State) : Ans :=
  if s.mode ≠ 2 then .next s
  else
    let t := s.bootStage ok fallback patch cust fabFailed
    .next { t with pending := s.pending, devTime := s.devTime, fuses := if t.mode = 3 then s.floorFuses else s.fuses }

/-- UART_IMAGE_RECEIVED: in the boot ROM's recovery an image that verifies is written to copy A, and a die reset follows. -/
def execUartImageReceived (ok : Bool) (s : State) : Ans :=
  s.effect (fun s =>
    if s.mode = 2 ∧ s.fv F.SYS_BOOT_FAIL = 3 then (if ok then (s.emit (.uart true)).dieResetOther else s.emit (.uart false)) else s)

/-! ## Reference and 1PPS (R314, R316) -/

/-- A software write of SYS_CLK_CTL: SRC = 1 starts the steering, SRC = 0 ends it. -/
def State.writeClkCtl (s : State) (mask v : DWord) : State :=
  let was := s.on F.SYS_CLK_CTL_SRC
  let s := s.plainWrite .SYS_CLK_CTL 0 mask v
  if s.on F.SYS_CLK_CTL_SRC = was then s
  else if was then s.fset F.SYS_CLK_STATUS_STATE 0
  else s.fset F.SYS_CLK_STATUS_STATE 1

/-- REFERENCE_HOLDOVER. -/
def execReferenceHoldover (s : State) : Ans :=
  s.effect (fun s =>
    if s.mode = 0 then s
    else
      let s := s.fset F.SYS_CLK_STATUS_EXT_PRESENT 0
      if s.on F.SYS_CLK_CTL_SRC then ((s.fset F.SYS_CLK_STATUS_STATE 3).fset F.SYS_CLK_STATUS_LOST 1).psuOpen 8 else s)

/-- REFERENCE_RETURN. -/
def execReferenceReturn (s : State) : Ans :=
  s.effect (fun s =>
    if s.mode = 0 then s
    else
      let s := s.fset F.SYS_CLK_STATUS_EXT_PRESENT 1
      if s.on F.SYS_CLK_CTL_SRC ∧ s.fv F.SYS_CLK_STATUS_STATE = 3 then s.fset F.SYS_CLK_STATUS_STATE 1 else s)

/-- REFERENCE_LOCKED. -/
def execReferenceLocked (s : State) : Ans :=
  s.effect (fun s =>
    if s.mode ≠ 0 ∧ s.on F.SYS_CLK_CTL_SRC ∧ s.fv F.SYS_CLK_STATUS_STATE = 1 then (s.fset F.SYS_CLK_STATUS_STATE 2).psuOpen 9 else s)

/-- PPS_EDGE. -/
def execPpsEdge (s : State) : Ans :=
  s.effect (fun s =>
    if s.mode = 0 then s
    else
      let s := s.fset F.SYS_CLK_STATUS_PPS_PRESENT 1
      if s.on F.SYS_CLK_CTL_PPS_EN then s.setReg .SYS_PPS_STAMP s.devTime else s)

/-! ## Thermal (R384) -/

/-- THERMAL. -/
def State.thermal (s : State) (kind unit temp : Nat) : State :=
  if s.active then s.raise .thermal (kind + 256 * unit + 2 ^ 16 * temp) else s

/-- A THERMAL event for which no temperature is told: a free value. -/
def State.thermalFan (s : State) (kind fan : Nat) : State := s.used.thermal kind fan (s.free_ 16).toNat

/-- A THERMAL event that names no fan or sensor either. -/
def State.thermalOpen (s : State) (kind : Nat) : State := s.used.thermal kind ((s.free_ 32).toNat % 16) ((s.free_ 32).toNat / 2 ^ 16)

/-- FAN_FAILED. -/
def execFanFailed (fan : Fin 6) (s : State) : Ans :=
  s.effect (fun s =>
    if s.mode = 0 then s
    else ((s.fset F.PWR_THERM_FAN_FAIL (natSetBit (s.fv F.PWR_THERM_FAN_FAIL) fan true)).redund 1 true).thermalFan 1 fan)

/-- FAN_RESTORED. -/
def execFanRestored (fan : Fin 6) (s : State) : Ans :=
  s.effect (fun s =>
    if s.mode = 0 then s
    else
      let left := natSetBit (s.fv F.PWR_THERM_FAN_FAIL) fan false
      ((s.fset F.PWR_THERM_FAN_FAIL left).redund 1 (decide (left ≠ 0))).thermalFan 2 fan)

/-- THERMAL_WARNING. -/
def execThermalWarning (sensor : Fin 16) (tempC : BitVec 16) (s : State) : Ans :=
  s.effect (fun s => s.thermal 3 sensor tempC.toNat)

/-- THERMAL_CRITICAL: Safe with cause 4. -/
def execThermalCritical (sensor : Fin 16) (tempC : BitVec 16) (s : State) : Ans :=
  s.effect (fun s => (s.thermal 4 sensor tempC.toNat).safeEntry 4)

/-- THERMAL_CUTOFF: Off, with no drain. -/
def execThermalCutoff (s : State) : Ans := s.effect (fun s => if s.mode = 0 then s else s.powerDown 0)

/-- FILTER_WARNING. -/
def execFilterWarning (s : State) : Ans := s.effect (fun s => s.thermalOpen 5)

/-- FAN_TRAY_REMOVED. -/
def execFanTrayRemoved (s : State) : Ans :=
  s.effect (fun s =>
    let s : State := { s with pwr := { s.pwr with trayOut := true } }
    if s.mode = 0 then s else (s.fset F.PWR_THERM_TRAY 0).thermalOpen 6)

/-- FAN_TRAY_INSERTED. The spec gives the tray no bay number: a free value. -/
def execFanTrayInserted (s : State) : Ans :=
  s.effect (fun s =>
    let s : State := { s with pwr := { s.pwr with trayOut := false } }
    if s.mode = 0 then s
    else
      let s := (s.fset F.PWR_THERM_TRAY 1).thermalOpen 7
      s.used.unitReplaced (s.free_ 8).toNat)

/-! ## Industrial inputs and outputs (R376-R379) -/

/-- An accepted level of an input. Activation starts a job that waits for the input, and WAKE_IN is a wake source; with the die off
the always-on domain watches WAKE_IN alone. -/
def State.acceptInput (s : State) (n : Fin 16) (level : Bool) : State :=
  let wakes := level && s.on F.PWR_CFG_WAKE_IN_EN && decide (s.fv F.PWR_CFG_WAKE_IN = n.val)
  let rises := level && !s.on F.SHT_DIN_CTL_LEVEL n
  let s := if s.active then s.fset F.SHT_DIN_CTL_LEVEL (if level then 1 else 0) n else s
  let starts : Bool := match s.job with
    | some j => rises && decide (j.phase = .awaitStart) && decide (j.startMode = 2 ∧ j.startIn = n)
    | none => false
  let s := if starts then s.startJob else s
  if wakes then s.wakeSource else s

/-- DIGITAL_INPUT_ACCEPT. -/
def execDigitalInputAccept (n : Fin 16) (level : Bool) (s : State) : Ans :=
  s.effect (fun s => if s.mode = 0 ∨ s.pwr.fieldLow then s else s.acceptInput n level)

/-- FIELD_SUPPLY_LOW: every input reads inactive and every output is off. -/
def execFieldSupplyLow (s : State) : Ans :=
  s.effect (fun s =>
    let t : State := { s with pwr := { s.pwr with fieldLow := true } }
    if ¬ s.active then t
    else (t.forFin 16 (fun n t => (t.fset F.SHT_DIN_CTL_FIELD_LOW 1 n).fset F.SHT_DIN_CTL_LEVEL 0 n)).doutChanges s)

/-- FIELD_SUPPLY_RESTORED: the inputs stand at the levels given. -/
def execFieldSupplyRestored (levels : BitVec 16) (s : State) : Ans :=
  s.effect (fun s =>
    let t : State := { s with pwr := { s.pwr with fieldLow := false } }
    if s.mode = 0 then t
    else
      let t := (if s.active then t.forFin 16 (fun n t => t.fset F.SHT_DIN_CTL_FIELD_LOW 0 n) else t).doutChanges s
      t.forFin 16 (fun n t => t.acceptInput n (levels.getLsbD n)))

/-- An output's overload stands or not. -/
def State.overload (s : State) (o : Fin 16) (v : Bool) : State :=
  let t : State := { s with sht := { s.sht with dout := s.sht.dout.set o { s.sht.dout[o] with overload := v } } }
  (if v then t.fset F.SHT_DOUT_CTL_FAULT 1 o else t).doutChanges s

/-- OUTPUT_OVERLOAD. -/
def execOutputOverload (o : Fin 16) (s : State) : Ans := s.effect (fun s => if s.active then s.overload o true else s)

/-- OUTPUT_RETRY: the output is on again unless the overload still stands. -/
def execOutputRetry (o : Fin 16) (overload : Bool) (s : State) : Ans :=
  s.effect (fun s => if s.active ∧ (s.sht.dout[o]).overload then s.overload o overload else s)

/-- A software write of SHT_DOUTn_CTL; after Safe it releases the output (R379). -/
def State.writeDout (s : State) (o : Fin 16) (v : DWord) : State :=
  let t := s.plainWrite .SHT_DOUT_CTL o fullMask v
  let t : State := if s.mode = 9 then t
    else { t with sht := { t.sht with dout := t.sht.dout.set o { t.sht.dout[o] with heldOff := false } } }
  t.doutChanges s

/-- An encoder supply is folded back to 0 V, or is on. -/
def State.encPower (s : State) (ch : Fin 4) (folded : Bool) : State :=
  ({ s with sht := { s.sht with enc := s.sht.enc.set ch { s.sht.enc[ch] with folded := folded } } } : State).emit (.encPower ch (!folded))

/-- ENC_PWR_OVERLOAD: the supply folds back to 0 V. -/
def execEncPwrOverload (ch : Fin 4) (s : State) : Ans := s.effect (fun s => if s.active then s.encPower ch true else s)

/-- ENC_PWR_RETRY: a folded supply is tried again. -/
def execEncPwrRetry (ch : Fin 4) (overload : Bool) (s : State) : Ans :=
  s.effect (fun s => if s.active ∧ (s.sht.enc[ch]).folded then s.encPower ch overload else s)

end Sys2Proof.Machine
end

