-- ==== Sys2Proof/Machine/Security.lean ====
section
/-!
DEFINITION. Lifecycle, keys and images, debug sessions and the unlock, halts and steps, and the Loupe (R327-R349).
-/

namespace Sys2Proof.Machine

/-- Bytes `off` to `off + n - 1` of a buffer of 8-byte registers, little-endian. -/
def State.bufNat (s : State) (r : RegName) (off n : Nat) : Nat :=
  (List.range n).foldl (fun v k => v + getBits (s.reg r ((off + k) / 8)) (8 * ((off + k) % 8)) 8 * 256 ^ k) 0

/-! ## Lifecycle requests (R330-R333) -/

/-- TYPE is allowed from a lifecycle state. -/
def lcAllowed (ty lc : Nat) : Bool := decide (ty = 1 ∧ lc = 0 ∨ ty = 2 ∧ lc = 1 ∨ ty = 3 ∧ lc ≠ 3)

/-- The STATUS of a request: the first check that fails, or 1 in progress. The bytes that must be 0 are judged with the signature,
for which they are signed or stand beside the key (log 49). -/
def State.lcJudge (s : State) (keyHashOk sigOk : Bool) : Nat :=
  let zero := decide (s.bufNat .SEC_LC_BUF 1 7 = 0 ∧ s.bufNat .SEC_LC_BUF 257 255 = 0)
  if s.mode ≠ 3 ∧ s.mode ≠ 9 then 6
  else if ¬ lcAllowed (s.bufNat .SEC_LC_BUF 0 1) s.fuses.lc then 3
  else if s.bufNat .SEC_LC_BUF 8 8 ≠ s.fuses.serial.toNat then 4
  else if ¬ (keyHashOk && sigOk && zero) then 5
  else 1

/-- SEC_LC_CTL.GO is written by the PF or a management core. -/
def State.lcGo (s : State) (keyHashOk sigOk : Bool) : State :=
  if s.sec.lcPending.isSome then s
  else
    let st := s.lcJudge keyHashOk sigOk
    let s := s.fset F.SEC_LC_CTL_STATUS st
    if st = 1 then
      { s.fset F.SEC_LC_CTL_GO 1 with sec := { s.sec with
        lcPending := some (Fin.ofNat 4 (s.bufNat .SEC_LC_BUF 0 1)), lcHash := BitVec.ofNat 384 (s.bufNat .SEC_LC_BUF 16 48) } }
    else s.alert 7 0 st

/-- The agents from which a lifecycle request is taken. -/
def lcAgent (a : Agent) : Bool := a == .pf || agentIsMc a

/-- LIFECYCLE_REQUEST. -/
def execLifecycleRequest (a : Agent) (keyHashOk sigOk : Bool) (s : State) : Ans :=
  s.effect (fun s => s.guarded a .SEC_LC_CTL 0 (fun s => if lcAgent a then s.lcGo keyHashOk sigOk else s.badAccess))

/-- The fuses after a request is carried out. -/
def Fuses.blow (f : Fuses) (ty : Nat) (hash : BitVec 384) : Fuses :=
  if ty = 1 then { f with oemHash := f.oemHash ||| hash, lcOpen := 0xFF }
  else if ty = 2 then { f with lcSealed := 0xFF }
  else { f with secretDestroyed := true, lcReturned := 0xFF }

/-- RETURN: every Reel is erased, and the old blocks await erasure. -/
def State.eraseReels (s : State) : State :=
  s.setStore { s.store with reclaim := s.store.reclaim + s.heldBytes (fun _ => true), reels := s.store.reels.map (fun e => (e.1, none)) |>.filter (fun _ => false) }

/-- FUSES_BLOWN: the request is carried out, and a die reset follows. -/
def execFusesBlown (s : State) : Ans :=
  match s.sec.lcPending with
  | none => .next s
  | some ty =>
    if ¬ s.active then .next s
    else
      let t := if ty = 3 then s.eraseReels else s
      let t := ((t.fset F.SEC_LC_CTL_STATUS 2).alert 7 0 2)
      let f := s.fuses.blow ty s.sec.lcHash
      let t : State := { t with fuses := f }
      .next { t.dieResetOther with pending := s.pending, devTime := s.devTime, fuses := f }

/-! ## Images and imported keys (R327, R328, R334, R335, R337) -/

/-- KIND and SLOT of FW_STAGE and FW_ACTIVATE. -/
def fwKind (d : Desc) : Nat := d.p0.toNat % 256
def fwSlot (d : Desc) : Nat := d.p0.toNat / 256 % 256

/-- The table of R327 lists the pair. -/
def fwListed (kind slot : Nat) : Bool := decide (kind ≤ 3 ∧ slot = 0 ∨ kind = 4 ∧ slot < 16 ∨ (kind = 5 ∨ kind = 6) ∧ slot < 16)

/-- FW_STAGE, with what the signature, decryption and header checks found. -/
def execFwStage (c : CmdIn) (v : ImageVerdict) (prog : Option ProgramImage) (region : Option RegionImage) (s : State) : Ans :=
  let d := c.desc
  s.effect (fun s => s.start c 0x40 { length := true, p0 := 0xFFFF, host := true } notDenied (fun c r s =>
    let kind := fwKind d
    let slot := fwSlot d
    let key := 16 * kind + slot
    if ¬ fwListed kind slot then s.completeReason r stCONFLICT 0xF3
    else
      match s.hostFault c r c.desc.length.toNat with
      | some t => t
      | none =>
        if ¬ (v.signatureOk && v.contentOk) then s.completeOpen r stINTEGRITY
        else if kind ≤ 4 then
          if v.svn < s.fuses.svnMin kind then (s.completeReason r stDENIED 1).alert 9 kind v.svn
          else
            let bad := if kind = 4 then region.any (fun im => s.imageRefused (Fin.ofNat 16 slot) im) else false
            if bad then s.completeOpen r stCONFLICT
            else
            let h : Hst := { s.hst with
              stagedImages := smSet (fun _ => none) s.hst.stagedImages key (some v), activated := smSet (fun _ => 0) s.hst.activated key 1 }
            let h : Hst := if kind = 4 then { h with regionReady := smSet (fun _ => none) h.regionReady slot region } else h
            let s : State := { s with hst := h }
            let s := match (if kind = 4 then region else none) with
              | some im => s.setShadow (Fin.ofNat 16 slot) im
              | none => s
            s.complete r stOK 0
        else
          match prog with
          | none => s.completeOpen r stINTEGRITY
          | some im => ({ s with hst := { s.hst with programs := smSet (fun _ => none) s.hst.programs slot (some im) } } : State).complete r stOK 0))

/-- FW_ACTIVATE. -/
def execFwActivate (c : CmdIn) (s : State) : Ans :=
  let d := c.desc
  s.effect (fun s => s.start c 0x41 { p0 := 0xFFFF } notDenied (fun _ r s =>
    let key := 16 * fwKind d + fwSlot d
    if ¬ fwListed (fwKind d) (fwSlot d) ∨ 4 < fwKind d ∨ smGet (fun _ => 0) s.hst.activated key = 0 then
      s.completeReason r stCONFLICT 0xF3
    else ({ s with hst := { s.hst with activated := smSet (fun _ => 0) s.hst.activated key 2 } } : State).complete r stOK 0))

/-- A free slot for an imported key: the spec names none, so the search begins at a free value. -/
def State.freeKeySlot (s : State) : Option Nat :=
  ((List.range 15).map (fun k => 1 + (k + (s.free_ 8).toNat) % 15)).find? (fun k => !s.sec.keySlots.getLsbD k)

/-- KEY_WRAP, with whether the tag verified. -/
def execKeyWrap (c : CmdIn) (tagOk : Bool) (s : State) : Ans :=
  s.effect (fun s => s.start c 0x42 { length := true, host := true }
    (fun s _ => if s.fuses.lc = 0 ∨ s.fuses.lc = 3 then .open_ else s.keyDenied) (fun c r s =>
    match s.hostFault c r c.desc.length.toNat with
    | some t => t
    | none =>
      if ¬ tagOk then s.completeOpen r stINTEGRITY
      else
        match s.freeKeySlot with
        | none => s.completeDetail r stBUSY (s.free_ 8).toNat (s.free_ 32).toNat
        | some k => ({ s with free := s.free + 1, sec := { s.sec with
            keySlots := s.sec.keySlots ||| BitVec.ofNat 16 (2 ^ k),
            keys := s.sec.keys.set (Fin.ofNat 16 k) (Config.kekWrap (Config.importedKey c.host.data)) } } : State).complete r stOK k))

/-! ## Debug sessions (R339, R343-R346) -/

/-- The session owner an agent can be. -/
def agentOwner : Agent → Option DbgOwner
  | .jtag => some .jtag
  | .pf => some .pf
  | .pfDebug => some .pf
  | _ => none

/-- Another owner holds the session. -/
def State.otherOwner (s : State) (a : Agent) : Bool := s.sec.owner.isSome && decide (s.sec.owner ≠ agentOwner a)

/-- READ_ACT may be set (R346). -/
def State.readActOpen (s : State) : Bool := decide (s.dbgLevel = 2) && (decide (s.fuses.lc ≠ 2) || s.sec.readActAllowed)

/-- A software write of DBG_CTL: the level asked for is entered or lowered; a request against another owner's session is ignored. -/
def State.writeDbgCtl (s : State) (a : Agent) (v : DWord) : State :=
  let req := if wField v F.DBG_CTL_REQ = 3 then 0 else wField v F.DBG_CTL_REQ
  let level := s.dbgLevel
  if s.otherOwner a ∨ (agentOwner a).isNone then s.fset F.DBG_STATUS_CLAIM_REJ 1
  else
    let s := s.plainWrite .DBG_CTL 0 fullMask (setBits v 2 1 0)
    let s :=
      if req < level then
        if s.storeLocked ∨ req = 0 then s.endDebug
        else s.fset F.DBG_STATUS_LEVEL req
      else if req = level ∨ (req = 2 ∧ s.fuses.lc = 2) then s
      else ({ s with sec := { s.sec with owner := agentOwner a } } : State).fset F.DBG_STATUS_LEVEL req
    if wField v F.DBG_CTL_READ_ACT = 1 ∧ s.readActOpen then s.fset F.DBG_CTL_READ_ACT 1 else s

/-- DEBUG_LEVEL_REQUEST. -/
def execDebugLevelRequest (a : Agent) (v : BitVec 32) (s : State) : Ans :=
  s.effect (fun s => s.guarded a .DBG_CTL 0 (fun s => s.writeDbgCtl a (v.setWidth 64)))

/-- DEBUG_SESSION_EXPIRY: VALID_S has passed, which ends D2 in SEALED with a die reset. -/
def execDebugSessionExpiry (s : State) : Ans := s.effect (fun s => if s.storeLocked then s.endDebug else s)

/-! ## Unlock (R341, R342) -/

/-- CHAL: a fresh nonce stands in DBG_CHAL, unless 8 tokens have failed since the die reset. -/
def State.issueNonce (s : State) : State :=
  if 8 ≤ s.fv F.DBG_UNLOCK_CTL_FAILS ∨ ¬ s.active then s
  else
    let n := s.free_ 256
    let s := s.used.forFin 4 (fun i s => s.setReg .DBG_CHAL ((n >>> (64 * i.val)).setWidth 64) i)
    { s.fset F.DBG_UNLOCK_CTL_CHAL 0 with sec := { s.sec with nonce := true } }

/-- UNLOCK_CHALLENGE. -/
def execUnlockChallenge (a : Agent) (s : State) : Ans :=
  s.effect (fun s => s.guarded a .DBG_UNLOCK_CTL 0 (fun s =>
    if s.otherOwner a ∨ (agentOwner a).isNone then s else s.issueNonce))

/-- GO: verification of the token starts. -/
def State.unlockStart (s : State) (o : Option DbgOwner) : State :=
  if s.sec.verifying ∨ ¬ s.active then s
  else if s.mode ≠ 3 ∧ s.mode ≠ 9 ∧ s.mode ≠ 11 then s.fset F.DBG_UNLOCK_CTL_STATUS 5
  else
    let s := (s.fset F.DBG_UNLOCK_CTL_STATUS 1).fset F.DBG_UNLOCK_CTL_GO 1
    { s with sec := { s.sec with verifying := true, asker := o } }

/-- UNLOCK_GO. -/
def execUnlockGo (a : Agent) (s : State) : Ans :=
  s.effect (fun s => s.guarded a .DBG_UNLOCK_CTL 0 (fun s =>
    if s.otherOwner a ∨ (agentOwner a).isNone then s else s.unlockStart (agentOwner a)))

/-- A token fails: the nonce is used up, and the eighth failure locks the unlock out. -/
def State.tokenFails (s : State) : State :=
  let n := Nat.min 15 (s.fv F.DBG_UNLOCK_CTL_FAILS + 1)
  let s := (s.fset F.DBG_UNLOCK_CTL_FAILS n).fset F.DBG_UNLOCK_CTL_STATUS (if 8 ≤ n then 4 else 3)
  let s := s.alert 4 0 n
  if n = 8 then s.used.alert 5 0 (s.free_ 32).toNat else s

/-- The code of an owner in alert 6. -/
def ownerCode : Option DbgOwner → Nat
  | some .jtag => 1
  | some .pf => 2
  | none => 0

/-- A token is accepted: keys are zeroised, the store KEK is withheld, the Emulsion, the Staging RAM and the Reserve are initialised,
and the level is D2. -/
def State.unlock (s : State) : State :=
  let flags := s.bufNat .DBG_TOKEN 1 1
  let s := ((s.setGrains (s.grains.zeroed 15)).memZero 1).memZero 2
  let o := s.sec.asker
  let s : State := { s with sec := { s.sec with
    keySlots := 0, keys := Vector.replicate 16 0, kekWithheld := true, owner := o, readActAllowed := flags.testBit 0 } }
  ((s.fset F.DBG_STATUS_LEVEL 2).fset F.DBG_UNLOCK_CTL_STATUS 2).alert 6 0 (ownerCode o)

/-- UNLOCK_VERIFY_COMPLETE, with whether the signature verified. -/
def execUnlockVerifyComplete (sigOk : Bool) (s : State) : Ans :=
  s.effect (fun s =>
    if ¬ s.sec.verifying then s
    else
      let good := sigOk && s.sec.nonce && decide (s.bufNat .DBG_TOKEN 0 1 = 2) && decide (s.bufNat .DBG_TOKEN 8 8 = s.fuses.serial.toNat)
      let s := ({ s with sec := { s.sec with verifying := false, nonce := false } } : State).fset F.DBG_UNLOCK_CTL_GO 0
      if good then s.unlock else s.tokenFails)

/-- NONCE_EXPIRY. -/
def execNonceExpiry (s : State) : Ans := s.effect (fun s => { s with sec := { s.sec with nonce := false } })

/-- A software write of DBG_UNLOCK_CTL. -/
def State.writeUnlock (s : State) (a : Agent) (v : DWord) : State :=
  if s.otherOwner a ∨ (agentOwner a).isNone then s
  else
    let s := if wField v F.DBG_UNLOCK_CTL_CHAL = 1 then s.issueNonce else s
    if wField v F.DBG_UNLOCK_CTL_GO = 1 then s.unlockStart (agentOwner a) else s

/-! ## Halts and steps (R347, R348) -/

/-- A halt request of one core. -/
def State.requestHalt (s : State) (c : Fin 8) : State :=
  if (s.cores[c]).halted then s
  else if h : c.val < 4 then
    let d : Fin 4 := ⟨c.val, h⟩
    if s.mode = 4 ∧ s.drivesPrint d then
      if s.sec.haltPending.getLsbD d.val then s
      else
        let s : State := { s with sec := { s.sec with haltPending := s.sec.haltPending ||| BitVec.ofNat 4 (2 ^ d.val) } }
        s.requestHold 0 3 none 0 false none
    else s.haltCore c
  else if s.printing then s.fset F.DBG_STATUS_HALT_REJ 1
  else s.haltCore c

/-- A core named by CORES steps: it executes one instruction, and a Developer's expander runs until its AIQ is empty. -/
def State.stepCore (s : State) (c : Fin 8) : State :=
  if (s.cores[c]).halted then
    let s := (s.modCore c (fun k => { k with stepping := true })).fset F.DBG_HALT_STEP 1
    if h : c.val < 4 then
      s.modDev ⟨c.val, h⟩ (fun x => { x with ex := { x.ex with stopped := false, st := if x.ex.st = .abandoned then .idle else x.ex.st } })
    else s
  else s

/-- A core named by CORES is released. -/
def State.releaseCore (s : State) (c : Fin 8) : State :=
  if (s.cores[c]).halted then (s.modCore c (fun k => { k with halted := false, stepping := false })).resumeCore c else s

/-- A software write of DBG_HALT: CORES is stored, and at D2 it requests halts, steps or releases the named cores. A write that steps or
releases requests no halt. -/
def State.writeHalt (s : State) (v : DWord) : State :=
  let s := s.fset F.DBG_HALT_CORES (wField v F.DBG_HALT_CORES)
  let named (c : Fin 8) : Bool := (wField v F.DBG_HALT_CORES).testBit c.val
  if s.dbgLevel ≠ 2 ∨ ¬ s.active then s
  else if wField v F.DBG_HALT_DBG_RESUME = 1 then s.forFin 8 (fun c s => if named c then s.releaseCore c else s)
  else if wField v F.DBG_HALT_STEP = 1 then s.forFin 8 (fun c s => if named c then s.stepCore c else s)
  else s.forFin 8 (fun c s => if named c then s.requestHalt c else s)

/-- DEBUG_HALT. -/
def execDebugHalt (a : Agent) (v : BitVec 32) (s : State) : Ans :=
  s.effect (fun s => s.guarded a .DBG_HALT 0 (fun s => s.writeHalt (v.setWidth 64)))

/-- STEP: the write carries STEP = 1. -/
def execStep (a : Agent) (v : BitVec 32) (s : State) : Ans :=
  s.effect (fun s => s.guarded a .DBG_HALT 0 (fun s => s.writeHalt (v.setWidth 64 ||| 0x2000000)))

/-- DBG_RESUME: the write carries DBG_RESUME = 1. -/
def execDbgResume (a : Agent) (v : BitVec 32) (s : State) : Ans :=
  s.effect (fun s => s.guarded a .DBG_HALT 0 (fun s => s.writeHalt (v.setWidth 64 ||| 0x1000000)))

/-! ## The Loupe (R349) -/

/-- A source of the restricted set. -/
def loupeRestricted (c : Nat) : Bool :=
  decide (c ≤ 0x0E) || decide (0x10 ≤ c ∧ c ≤ 0x5A) || decide (0x60 ≤ c ∧ c ≤ 0x7F) || decide (0xC0 ≤ c ∧ c ≤ 0xCF)

/-- A listed source. -/
def loupeListed (c : Nat) : Bool := loupeRestricted c || decide (0x80 ≤ c ∧ c ≤ 0x97) || decide (0xD0 ≤ c ∧ c ≤ 0xDF)

/-- The source that a pin drives at the present level: constant 0 for one that is reserved, or not for D1. -/
def State.loupeSource (s : State) (n : Nat) : Nat :=
  let c := s.fv F.LP_SEL_SRC n
  if (s.dbgLevel = 2 ∧ loupeListed c) ∨ loupeRestricted c then c else 0

/-- The sources of the pins, while the Loupe owns them. -/
def State.showLoupe (s : State) : State :=
  if s.fv F.FAB_PIN_OWNER_OWNER = 2 ∧ ¬ s.handover then s.forFin 16 (fun n s => s.emit (.loupe n (s.loupeSource n))) else s

/-- A software write of LP_CTL: CLAIM = 1 at D1 or D2 claims the pins, and CLAIM = 0 releases them. -/
def State.writeLpCtl (s : State) (v : DWord) : State :=
  let s := s.plainWrite .LP_CTL 0 fullMask (setBits v 0 1 0)
  if wField v F.LP_CTL_CLAIM = 0 then s.releaseLoupe
  else if s.dbgLevel = 0 ∨ ¬ s.active then s
  else
    let r := s.claimPins 2
    if r.1 then r.2 else (r.2.fset F.LP_CTL_CLAIM 1).showLoupe

/-- LOUPE_CLAIM: the write carries CLAIM = 1. -/
def execLoupeClaim (a : Agent) (v : BitVec 32) (s : State) : Ans :=
  s.effect (fun s => s.guarded a .LP_CTL 0 (fun s => s.writeLpCtl (v.setWidth 64 ||| 1)))

/-- LOUPE_RELEASE: the write carries CLAIM = 0. -/
def execLoupeRelease (a : Agent) (v : BitVec 32) (s : State) : Ans :=
  s.effect (fun s => s.guarded a .LP_CTL 0 (fun s => s.writeLpCtl (v.setWidth 64 &&& 0xFFFFFFFE)))

/-- PIN_HANDOVER_END: the new owner drives the pins. -/
def execPinHandoverEnd (s : State) : Ans := s.effect (fun s => if s.handover then s.endHandover.showLoupe else s)

/-! ## TAP instructions (R340) -/

/-- The TAP answers in every power state but Off. -/
def State.tapInstr (s : State) (name : String) : State := if s.mode = 0 then s else s.emit (.tapInstr name)

/-- BYPASS. -/
def execBypass (s : State) : Ans := s.effect (fun s => s.tapInstr "BYPASS")

/-- IDCODE: the TAP shifts out 0x1A9F00DB. -/
def execIdcode (s : State) : Ans :=
  s.effect (fun s => if s.mode = 0 then s else (s.tapInstr "IDCODE").emit (.value 0x1A9F00DB))

/-- SAMPLE/PRELOAD. -/
def execSamplePreload (s : State) : Ans := s.effect (fun s => s.tapInstr "SAMPLE/PRELOAD")

/-- EXTEST: only in Safe or Diagnostic, at D2 or outside SEALED; otherwise it acts as BYPASS. -/
def execExtest (s : State) : Ans :=
  s.effect (fun s =>
    if (s.mode = 9 ∨ s.mode = 11) ∧ (s.dbgLevel = 2 ∨ s.fuses.lc ≠ 2) then s.tapInstr "EXTEST" else s.tapInstr "BYPASS")

end Sys2Proof.Machine
end

