-- ==== Sys2Proof/Machine/RegAccess.lean ====
section
/-!
DEFINITION. Reads and writes of the control registers by their places: alignment and widths, the two halves and the latch
(R7), the access codes and what a write of each register does (R8-R12), and what the read-only fields show.
-/

namespace Sys2Proof.Machine

/-! ## Places (R7, R243) -/

/-- What one access of BAR0 meets: a register with the bits the access carries, the word's place in the access, and whether it is
the high half of a 64-bit register. -/
structure RegHit where
  r : RegName
  i : Nat
  /-- The access carries the whole register. -/
  whole : Bool
  high : Bool
  /-- The lowest bit of the access that belongs to this register. -/
  at_ : Nat
deriving DecidableEq, Repr

/-- The BAR0 offset an agent's address stands for: a VF sees its own page alone. -/
def agentAddr (a : Agent) (addr : Nat) : Option Nat :=
  match a with
  | .vf k => if addr < 0x10000 then some (0x400000 + 0x10000 * (k.val + 1) + addr) else none
  | _ => some addr

/-- A 32-bit access. -/
def hit32 (addr at_ : Nat) : List RegHit :=
  match regAt addr with
  | some (r, i, high) => [{ r := r, i := i, whole := decide ((regInfo r).width = 32), high := high, at_ := at_ }]
  | none => []

/-- The registers an aligned access meets, the low word's first (R7). -/
def regHits (addr bits : Nat) : List RegHit :=
  if bits = 64 then
    match regAt addr with
    | some (r, i, _) =>
      if (regInfo r).width = 64 then [{ r := r, i := i, whole := true, high := false, at_ := 0 }]
      else hit32 addr 0 ++ hit32 (addr + 4) 32
    | none => hit32 (addr + 4) 32
  else hit32 addr 0

/-- The access is 32 or 64 bits wide and naturally aligned (R7). -/
def accessOk (addr bits : Nat) : Bool := decide (bits = 32 ∨ bits = 64) && decide (addr % (bits / 8) = 0)

/-- The bits of the register that the access carries. -/
def RegHit.mask (h : RegHit) : DWord :=
  if (regInfo h.r).width = 32 then 0xFFFFFFFF else if h.whole then fullMask else if h.high then 0xFFFFFFFF00000000 else 0xFFFFFFFF

/-- The value of the access at the register's own bit places. -/
def RegHit.value (h : RegHit) (v : DWord) : DWord :=
  let w := v >>> h.at_
  if h.whole then w else if h.high then w <<< (32 : Nat) else w &&& 0xFFFFFFFF

/-! ## Writes -/

/-- The bits of a register that a write leaves as they are when the access does not carry them. -/
def heldBits (fields : List FieldSpec) : DWord :=
  fields.foldl (fun m f =>
    if f.acc = .rw ∨ f.acc = .rwh ∨ f.acc = .cnt ∨ f.acc = .wo then setBits m f.lo f.w (2 ^ f.w - 1) else m) 0

/-- A register's fields as a write that does not carry them leaves them: NOC_RT_DATA stands for the entry at IDX (R280). -/
def State.standing (s : State) (r : RegName) (i : Nat) : DWord :=
  match r with
  | .NOC_RT_DATA => Ni.entry (s.net.nis[(Fin.ofNat 36 i : Fin 36)]).written (s.fv F.NOC_RT_IDX_IDX i)
  | _ => s.reg r i

/-- The written value with the fields the access does not carry as they stand, and no action bit outside it. -/
def State.merged (s : State) (r : RegName) (i : Nat) (mask v : DWord) : DWord :=
  (v &&& mask) ||| (s.standing r i &&& ~~~mask &&& heldBits (regInfo r).fields)

/-- A write of NOC_RT_CTL: BAD clears, COMMIT acts. -/
def State.writeRtCtl (s : State) (v : DWord) : State :=
  let s := if wField v F.NOC_RT_CTL_BAD = 1 then s.fset F.NOC_RT_CTL_BAD 0 else s
  if wField v F.NOC_RT_CTL_COMMIT = 1 then s.commitRoutes else s

/-- A write of SEC_LC_CTL: GO acts; what the request's signature and key hash prove to be is open here (log 15). -/
def State.writeLcCtl (s : State) (a : Agent) (v : DWord) : State :=
  if wField v F.SEC_LC_CTL_GO = 0 then s
  else if lcAgent a then
    let f : BitVec 2 := s.free_ 2
    s.used.lcGo (f.getLsbD 0) (f.getLsbD 1)
  else s.badAccess

/-- A write of ENL_Pn_CTL. -/
def State.writeEnlCtl (s : State) (p : Fin 4) (v : DWord) : State :=
  let s := if wField v F.ENL_CTL_FLUSH = 1 then s.enlFlush p else s
  if wField v F.ENL_CTL_RESTART = 1 then s.enlRestart p else s

/-- What a write of a register does that the agent may write: its own rule where a register has one, its fields' access codes
everywhere else. `v` stands at the register's own bit places and `mask` holds the bits the access carries. -/
def State.writeEffect (s : State) (a : Agent) (r : RegName) (i bits : Nat) (mask v : DWord) : State :=
  let m := s.merged r i mask v
  match r with
  | .GRN_GANG => s.writeGang m
  | .GRN_INIT => s.writeInit m
  | .GRN_SLIP_CMD => s.writeSlip a m
  | .DEV_UC_ADDR => s.writeUcAddr a (Fin.ofNat 4 i) m
  | .DEV_UC_DATA => s.writeUcData a (Fin.ofNat 4 i) m
  | .ENL_BAND_PUSH => s.pushBand a (Fin.ofNat 4 i) bits m
  | .ENL_CTL => s.writeEnlCtl (Fin.ofNat 4 i) m
  | .SHT_LINEPOS => s.writeLinepos m
  | .SHT_PITCH => s.writePitch m
  | .SHT_TIMER => s.writeTimer (Fin.ofNat 64 i) m
  | .SHT_GRP => s.writeGrp (Fin.ofNat 64 i) m
  | .SHT_HOLD => s.writeHold m
  | .SHT_NMAP_DATA => s.writeNmap m
  | .SHT_DOUT_CTL => s.writeDout (Fin.ofNat 16 i) m
  | .HP_LANE_CTL => s.writeLaneCtl (Fin.ofNat 16 i) m
  | .HP_TEL_PTR => s.writeTelRd m
  | .HP_TEL_BASE => s.writeTelBase m
  | .FAB_REGION_CTL => s.writeRegion (Fin.ofNat 16 i) m
  | .FAB_PIN_OWNER => s.writePins m
  | .CAM_TSWAP => s.writeTswap m
  | .CAM_CAM_CFG => s.writeCamCfg (Fin.ofNat 4 i) m
  | .HST_SQ_CFG => s.writeSqCfg (Fin.ofNat 8 (i / 64)) (Fin.ofNat 64 i) mask v
  | .HST_CQ_CFG => s.writeWCfg (Fin.ofNat 8 (i / 64), some (Fin.ofNat 64 i)) mask v
  | .HST_EQ_CFG => s.writeWCfg (Fin.ofNat 8 i, none) mask v
  | .HST_SQ_BASE => s.writeRingBase .HST_SQ_BASE i F.HST_SQ_CFG_ENABLED mask v
  | .HST_CQ_BASE => s.writeRingBase .HST_CQ_BASE i F.HST_CQ_CFG_ENABLED mask v
  | .HST_EQ_BASE => s.writeRingBase .HST_EQ_BASE i F.HST_EQ_CFG_ENABLED mask v
  | .HST_PERM => if a = .pf ∧ i ≠ 0 then s.plainWrite r i mask v else s
  | .HST_CTL => if a = .pf then s.plainWrite r i mask v else s
  | .JS_REBUILD => s.writeRebuild m
  | .JS_SLED_CTL => s.writeSledCtl (Fin.ofNat 16 i) m
  | .NOC_RT_DATA => s.writeRoute (Fin.ofNat 36 i) m
  | .NOC_RT_CTL => s.writeRtCtl m
  | .DDR_MIRROR => s.writeMirror m
  | .ECC_SCAN_CTL => s.writeScan mask v
  | .ECC_INIT => s.writeEccInit m
  | .ECC_FLIP_CTL => s.writeFlip mask v
  | .SYS_CLK_CTL => s.writeClkCtl mask v
  | .PWR_WAKE => if wField m F.PWR_WAKE_WAKE = 1 then s.wakeSource else s
  | .SEC_LC_CTL => s.writeLcCtl a m
  | .DBG_CTL => s.writeDbgCtl a m
  | .DBG_HALT => s.writeHalt m
  | .DBG_UNLOCK_CTL => s.writeUnlock a m
  | .LP_CTL => s.writeLpCtl m
  | .LP_SEL => (s.plainWrite r i mask v).showLoupe
  | .CS_CTL => s.writeCsCtl mask v
  | _ => s.plainWrite r i mask v

/-! ## MSI-X tables (R244, R252; log 50) -/

/-- The dword at a BAR0 offset of a function's MSI-X table (0 to 255) or pending-bit array (256, 257). -/
def msixAt (o : Nat) : Option (Fin 8 × Nat) :=
  let p := o % 0x10000
  if o < 0x400000 ∨ 0x480000 ≤ o then none
  else if 0x2000 ≤ p ∧ p < 0x2400 then some (Fin.ofNat 8 ((o - 0x400000) / 0x10000), (p - 0x2000) / 4)
  else if 0x3000 ≤ p ∧ p < 0x3008 then some (Fin.ofNat 8 ((o - 0x400000) / 0x10000), 256 + (p - 0x3000) / 4)
  else none

/-- The dwords of the tables that an access meets, each with its place in the access. -/
def msixHits (o bits : Nat) : List ((Fin 8 × Nat) × Nat) :=
  ((o, 0) :: if bits = 64 then [(o + 4, 32)] else []).filterMap (fun e => (msixAt e.1).map (fun h => (h, e.2)))

/-- The mask bit of a vector: one that is pending when its mask falls is sent, and is no longer pending. -/
def State.setVectorMask (s : State) (f : Fin 8) (v : Nat) (m : Bool) : State :=
  let bit : BitVec 64 := 1 <<< v
  let due := !m && (s.hst.fns[f]).pendingVec.getLsbD v
  let s := s.modFn f (fun x => { x with
    masked := if m then x.masked ||| bit else x.masked &&& ~~~bit, pendingVec := if due then x.pendingVec &&& ~~~bit else x.pendingVec })
  if due then s.sendVector f v else s

/-- A write of a dword of the tables: the mask, the message address or data, or the pending bits, which take nothing. -/
def State.msixWrite (s : State) (a : Agent) (f : Fin 8) (k : Nat) (v : Word) : State :=
  if ¬ s.mayWrite a .HST_FN_ERR f then s.badAccess
  else if 256 ≤ k then s
  else if k % 4 = 3 then s.setVectorMask f (k / 4) (v.getLsbD 0)
  else s.modFn f (fun x => { x with msixTable := smSet (fun _ => 0) x.msixTable k v })

/-- A dword of the tables as it reads. -/
def State.msixRead (s : State) (a : Agent) (f : Fin 8) (k : Nat) : Word :=
  let x := s.hst.fns[f]
  if ¬ s.mayRead a .HST_FN_ERR f then 0
  else if 256 ≤ k then (x.pendingVec >>> (32 * (k - 256))).setWidth 32
  else if k % 4 = 3 then (if x.masked.getLsbD (k / 4) then 1 else 0)
  else smGet (fun _ => 0) x.msixTable k

/-- A write of the registers at a BAR0 offset by an agent (R7, R243, R345). -/
def State.regWrite (s : State) (a : Agent) (addr bits : Nat) (v : DWord) : State :=
  if ¬ s.reaches a then s
  else if ¬ accessOk addr bits then s.badAccess
  else
    match agentAddr a addr with
    | none => s
    | some o =>
      if 0x1000000 ≤ o then s.badAccess
      else
        match regHits o bits with
        | [] => (msixHits o bits).foldl (fun s h => s.msixWrite a h.1.1 h.1.2 ((v >>> h.2).setWidth 32)) s
        | hits => hits.foldl (fun s h => s.guarded a h.r h.i (fun s => s.writeEffect a h.r h.i bits h.mask (h.value v))) s

/-- REGISTER_WRITE. -/
def execRegisterWrite (a : Agent) (addr bits : Nat) (v : DWord) (s : State) : Ans :=
  s.effect (fun s => s.regWrite a addr bits v)

/-! ## Reads -/

/-- The minimum security versions by kind, as fused (R334). -/
def State.secState (s : State) : DWord :=
  (List.range 5).foldl (fun v k => setBits v (32 + 6 * k) 6 (s.fuses.svnMin k)) (BitVec.ofNat 64 s.fuses.lc)

/-- Cores halted by debug (R347). -/
def State.haltedCores (s : State) : Nat :=
  (List.finRange 8).foldl (fun n c => if (s.cores[c]).halted && !(s.cores[c]).stepping then n + 2 ^ c.val else n) 0

/-- DEVn_AIQ_STATUS (R138). -/
def Dev.aiqStatus (x : Dev) : DWord :=
  let idx : Nat := match x.aiq with
    | e :: _ => e.index
    | [] => 0
  BitVec.ofNat 64 (x.aiq.length + 64 * idx + (if x.ex.committed then 2 ^ 14 else 0) + (if x.ex.stopped then 2 ^ 15 else 0))

/-- The register with the fields that show another part of the state; physical readings and what no rule states are the free bits
`f` (log 6, log 15). -/
def State.shown (s : State) (r : RegName) (i : Nat) (f : DWord) : DWord :=
  let v := s.reg r i
  let put (v : DWord) (x : Fld) (n : Nat) : DWord := setBits v x.lo x.w n
  match r with
  | .SYS_DEV_TIME => s.devTime
  | .SYS_CLK_STATUS => put v F.SYS_CLK_STATUS_STEER f.toNat
  | .PWR_STATUS => put (put v F.PWR_STATUS_INPUT_W f.toNat) F.PWR_STATUS_HOLDUP_MS (f.toNat / 2 ^ 16)
  | .PWR_THERM =>
    put (put (put v F.PWR_THERM_INTAKE_C f.toNat) F.PWR_THERM_JUNCTION_C (f.toNat / 2 ^ 16)) F.PWR_THERM_FAN_PCT (f.toNat / 2 ^ 32)
  | .SEC_STATE => s.secState
  | .SEC_SERIAL => s.fuses.serial
  | .DBG_HALT => put v F.DBG_HALT_HALTED s.haltedCores
  | .DEV_UCODE_VER => put v F.DEV_UCODE_VER_ROM_VER Config.romVersion.toNat
  | .DEV_AIQ_STATUS => (s.devs[(Fin.ofNat 4 i : Fin 4)]).aiqStatus
  | .SHT_RESERVE => put v F.SHT_RESERVE_DEPTH (match s.job with
    | some j => j.depth
    | none => 0)
  | .SHT_NMAP_DATA => BitVec.ofNat 64 (smGet (fun _ => (0 : BitVec 32)) s.mems.nmap (s.fv F.SHT_NMAP_IDX_IDX)).toNat
  | .NOC_RT_DATA => s.standing r i
  | .JS_SLED_CTL => put v F.JS_SLED_CTL_STATE (if s.mode = 2 then 0 else (s.store.sleds[(Fin.ofNat 16 i : Fin 16)]).state.val)
  | _ => v

/-- The value software reads (R8, R9). -/
def State.readValue (s : State) (r : RegName) (i : Nat) : DWord := swRead (regInfo r).fields (s.shown r i (s.free_ 64))

/-- One register is read: the value at the access's bit places, with the latch (R7), and RC fields (R9) where the read has its
side effects (R12). -/
def State.readHit (s : State) (a : Agent) (h : RegHit) : DWord × State :=
  if ¬ s.mayRead a h.r h.i then (0, s)
  else
    let v := s.readValue h.r h.i
    let w := decide ((regInfo h.r).width = 64)
    let latched : Option Word := smGet (fun _ => none) s.latches (regKey h.r h.i)
    let put (x : Option Word) (s : State) : State := { s with latches := smSet (fun _ => none) s.latches (regKey h.r h.i) x }
    let value : DWord :=
      if h.whole then v
      else if h.high then (match latched with
        | some x => x.setWidth 64
        | none => v >>> (32 : Nat))
      else v &&& 0xFFFFFFFF
    let s := s.used
    let s := if h.whole || !w then s else if h.high then put none s else put (some ((v >>> (32 : Nat)).setWidth 32)) s
    let s := if s.readActs a then s.setReg h.r (swAfterRead (regInfo h.r).fields h.mask (s.reg h.r h.i)) h.i else s
    (value <<< h.at_, s)

/-- A read of the registers at a BAR0 offset by an agent: the value and the state after. -/
def State.regRead (s : State) (a : Agent) (addr bits : Nat) : DWord × State :=
  if ¬ s.reaches a then (0, s)
  else if ¬ accessOk addr bits then (0, s.badAccess)
  else
    match agentAddr a addr with
    | none => (0, s)
    | some o =>
      if 0x1000000 ≤ o then (0, s)
      else
        match regHits o bits with
        | [] => ((msixHits o bits).foldl (fun v h => v ||| ((s.msixRead a h.1.1 h.1.2).setWidth 64 <<< h.2)) 0, s)
        | hits => hits.foldl (fun r h =>
            let x := r.2.readHit a h
            (r.1 ||| x.1, x.2)) (0, s)

/-- HALF_READ_LATCH: a read of the registers at a BAR0 offset; its value goes to the agent. -/
def execHalfReadLatch (a : Agent) (addr bits : Nat) (s : State) : Ans :=
  s.effect (fun s =>
    let r := s.regRead a addr bits
    r.2.emit (.value r.1))

end Sys2Proof.Machine
end

