-- ==== Sys2Proof/Machine/Bus.lean ====
section
/-!
DEFINITION. Accesses through an internal physical address: the memories, the grain backdoor, the registers and the boot ROMs
behind it (R61-R63, R139, R295, R298-R301), and the debug accesses of the TAP (R340).
-/

namespace Sys2Proof.Machine

/-- What a read through an internal address answers: the data, with whether a word of it was uncorrectable; the module's refusal;
or no unit at all. -/
inductive BusRead where
  | data (bad : Bool) (b : List Byte) (s : State)
  | refused (s : State)
  | hole

/-- What a write through an internal address answers. -/
inductive BusWrite where
  | done (s : State)
  | refused (s : State)
  | hole

/-- The router at which a Staging writer sits may write the region (R139): the print region is for network DMA of class 0, the
camera regions for the camera inputs, the general region for the management cores, network DMA of other classes and the host. -/
def State.mayStage (s : State) (router bclass off : Nat) : Bool :=
  let dma := ([14, 15, 17] : List Nat).contains router
  match s.stagingRegion off with
  | 0 => dma && decide (bclass = 0)
  | 1 => decide (router = 25)
  | 2 => decide (router = 25)
  | _ => ([13, 16, 19, 22, 12] : List Nat).contains router || (dma && decide (bclass ≠ 0))

/-- The first and the last byte of an access lie in one unit. -/
def State.placeOf (s : State) (addr n : Nat) : Place :=
  match s.place addr, s.place (addr + (n - 1)) with
  | .mem a off, .mem b _ => if a = b then .mem a off else .hole
  | .grain off, .grain _ => .grain off
  | .regs off, .regs _ => .regs off
  | .rom, .rom => .rom
  | .refused, .hole => .hole
  | .refused, _ => .refused
  | .mem _ _, .refused => .refused
  | _, _ => .hole

/-- A read of `n` bytes by an agent behind a router. A read of the boot ROM returns contents the spec does not give (log 3). -/
def State.busRead (s : State) (a : Agent) (router addr n : Nat) : BusRead :=
  match s.placeOf addr n with
  | .mem code off =>
    let r := s.readRange router code off n
    .data r.1 (s.memBytes code off n) r.2
  | .grain off =>
    if s.mayBackdoor a then
      let r := s.backdoorRead off n router
      .data r.1 (s.backdoorBytes off n) r.2
    else .refused s
  | .regs off =>
    let r := s.regRead a off (8 * n)
    .data false (leBytes r.1.toNat n) r.2
  | .rom => .data false (leBytes (s.free_ 4096).toNat n) s.used
  | .refused => .refused s
  | .hole => .hole

/-- A write by an agent behind a router, with the core it comes from, if any, and its bandwidth class. -/
def State.busWrite (s : State) (a : Agent) (by_ : Option (Fin 8)) (router bclass addr : Nat) (data : List Byte) : BusWrite :=
  match s.placeOf addr data.length with
  | .mem code off =>
    if code = 1 ∧ ¬ (s.mayStage router bclass off && s.mayStage router bclass (off + (data.length - 1))) then .refused s
    else .done ((s.breakRange by_ addr data.length).writeBytes router code off data)
  | .grain off => if s.mayBackdoor a then .done (s.backdoorWrite off data router) else .refused s
  | .regs off => .done (s.regWrite a off (8 * data.length) (BitVec.ofNat 64 (leNat data)))
  | .rom => .done s
  | .refused => .refused s
  | .hole => .hole

/-! ## The TAP (R340) -/

/-- The scan of a DBG_ACCESS command shifts out the outcome of the command before it. -/
def State.tapScan (s : State) : State :=
  match s.sec.tapLast with
  | some (st, v) => s.emit (.tap st v)
  | none => s

/-- The outcome a later scan captures: 0 done, 2 refused at the present level, 3 error. -/
def State.tapResult (s : State) (status : Nat) (v : DWord) : State := { s with sec := { s.sec with tapLast := some (status, v) } }

/-- A register address of DBG_ACCESS lies in the DBG_ and LP_ blocks. -/
def tapReg (addr : BitVec 48) : Bool := decide (addr.toNat < 0x100000)

/-- DBG_REGISTER_READ. -/
def execDbgRegisterRead (addr : BitVec 48) (s : State) : Ans :=
  s.effect (fun s =>
    if s.mode = 0 then s
    else
      let s := s.tapScan
      if tapReg addr then
        let r := s.regRead .jtag (0x200000 + addr.toNat) 64
        r.2.tapResult 0 r.1
      else s.used.tapResult 3 (s.free_ 64))

/-- DBG_REGISTER_WRITE. -/
def execDbgRegisterWrite (addr : BitVec 48) (v : DWord) (s : State) : Ans :=
  s.effect (fun s =>
    if s.mode = 0 then s
    else
      let s := s.tapScan
      if tapReg addr then (s.regWrite .jtag (0x200000 + addr.toNat) 64 v).used.tapResult 0 (s.free_ 64)
      else s.used.tapResult 3 (s.free_ 64))

/-- DBG_MEMORY_READ: at D2, 8 bytes; an uncorrectable word, a refused address or a die without power is an error. -/
def execDbgMemoryRead (addr : BitVec 48) (s : State) : Ans :=
  s.effect (fun s =>
    if s.mode = 0 then s
    else
      let s := s.tapScan
      if s.dbgLevel ≠ 2 then s.used.tapResult 2 (s.free_ 64)
      else if ¬ s.active then s.used.tapResult 3 (s.free_ 64)
      else
        match s.busRead .jtag 10 addr.toNat 8 with
        | .data false b t => t.tapResult 0 (BitVec.ofNat 64 (leNat b))
        | .data true _ t => t.used.tapResult 3 (t.free_ 64)
        | .refused t => t.used.tapResult 3 (t.free_ 64)
        | .hole => s.used.tapResult 3 (s.free_ 64))

/-- DBG_MEMORY_WRITE: at D2, 8 bytes. -/
def execDbgMemoryWrite (addr : BitVec 48) (v : DWord) (s : State) : Ans :=
  s.effect (fun s =>
    if s.mode = 0 then s
    else
      let s := s.tapScan
      if s.dbgLevel ≠ 2 then s.used.tapResult 2 (s.free_ 64)
      else if ¬ s.active then s.used.tapResult 3 (s.free_ 64)
      else
        match s.busWrite .jtag none 10 0 addr.toNat (leBytes v.toNat 8) with
        | .done t => t.used.tapResult 0 (t.free_ 64)
        | .refused t => t.used.tapResult 3 (t.free_ 64)
        | .hole => s.used.tapResult 3 (s.free_ 64))

end Sys2Proof.Machine
end

