-- ==== Sys2Proof/Machine/NetTarget.lean ====
section
/-!
DEFINITION. Requests at their targets (R278, R283, R288, R291), reservations over the network (R100), and the domains that power
down (R290).
-/

namespace Sys2Proof.Machine

/-- The agent behind a source router (R277). -/
def srcAgent (r : Fin 36) : Agent :=
  if r.val = 12 then .pf
  else
    match routerCore r, ([6, 11, 24, 29] : List Nat).findIdx? (fun x => decide (x = r.val)),
        ([14, 15, 17] : List Nat).findIdx? (fun x => decide (x = r.val)) with
    | some c, _, _ => .core c
    | _, some k, _ => .flash (Fin.ofNat 4 k)
    | _, _, some k => .dma (Fin.ofNat 3 k)
    | _, _, _ => .unit r

/-- What performing a request answers: its status, its data, whether a word was uncorrectable, and the state after. -/
structure Served where
  status : Nat
  data : List Byte
  poison : Bool
  s : State

/-- A status no rule states. -/
def State.openStatus (s : State) : Served := { status := (s.free_ 8).toNat, data := [], poison := false, s := s.used }

/-- A place that serves LR and SC (R100): the core and Developer SRAMs and DDR5. -/
def Place.atomic : Place → Bool
  | .mem code _ => decide (3 ≤ code ∧ code < 16)
  | _ => false

/-- A read of a request. -/
def State.serveRead (s : State) (p : Packet) : Served :=
  match s.busRead (srcAgent p.src) p.src p.addr.toNat p.bytes.toNat with
  | .data bad b t => { status := stOK, data := b, poison := bad, s := t }
  | .refused t => t.openStatus
  | .hole => s.openStatus

/-- A write of a request; one into a Staging region by an agent that is no writer of it is refused (R139). -/
def State.serveWrite (s : State) (p : Packet) : Served :=
  match s.busWrite (srcAgent p.src) (routerCore p.src) p.src p.bclass p.addr.toNat p.data with
  | .done t => { status := stOK, data := [], poison := false, s := t }
  | .refused t => match s.place p.addr.toNat with
    | .mem 1 _ => { status := stQUOTA, data := [], poison := false, s := t }
    | _ => t.openStatus
  | .hole => s.openStatus

/-- The request is performed at its target: a plain read leaves the registers as they are; LR sets its core's reservation, and SC
writes while the reservation holds. -/
def State.serve (s : State) (p : Packet) : Served :=
  let granule := p.addr.toNat / 8
  match p.op.val with
  | 0 => match s.place p.addr.toNat with
    | .regs _ => { s.serveRead p with s := s }
    | _ => s.serveRead p
  | 1 => s.serveWrite p
  | 2 => match routerCore p.src, (s.place p.addr.toNat).atomic with
    | some c, true =>
      let r := s.serveRead p
      if r.poison then r else { r with s := r.s.modCore c (fun k => { k with resv := some granule }) }
    | _, _ => s.openStatus
  | 3 => match routerCore p.src, (s.place p.addr.toNat).atomic with
    | some c, true =>
      let held := decide ((s.cores[c]).resv = some granule)
      let s := s.modCore c (fun k => { k with resv := none })
      if held then { s.serveWrite p with data := [0] } else { status := stOK, data := [1], poison := false, s := s }
    | _, _ => s.openStatus
  | _ => s.serveRead p

/-- The outcome is recorded with its source's last 8 (R283). -/
def State.record (s : State) (p : Packet) (status : Nat) (data : List Byte) : State :=
  s.modNi p.dst (fun x =>
    let mine := x.recorded.filter (fun o => decide (o.src = p.src.val))
    let rest := x.recorded.filter (fun o => !decide (o.src = p.src.val))
    { x with recorded := { src := p.src, seq := p.seq, status := status, data := data.take 8 } :: mine.take 7 ++ rest })

/-- A target takes a request: one already performed is answered from the record, unless it is a plain read (R283). -/
def State.takeRequest (s : State) (p : Packet) (since : Option DWord) : State :=
  match (s.net.nis[p.dst]).recorded.find? (fun o => decide (o.src = p.src.val ∧ o.seq = p.seq)), decide (p.op = 0) with
  | some o, false => s.respond p since o.status o.data false
  | _, _ =>
    let r := s.serve p
    (r.s.record p r.status r.data).respond p since r.status r.data r.poison

/-- A request enters the trace of the last 4,096 network transactions (R366). -/
def State.traceNet (s : State) (p : Packet) : State :=
  if s.on F.CS_STATUS_COMMIT then s
  else
    { s with cs := { s.cs with net :=
      { time := s.devTime.setWidth 32, src := p.src, dst := p.dst, vn := 0, op := p.op, bclass := p.bclass, seq := p.seq, status := 0,
        addr := p.addr, bytes := p.bytes.toNat } :: s.cs.net.take 4095 } }

/-- A request reaches its target: the proxy answers for a node being reset (R291); a node powered down holds the request (R290). -/
def State.requestIn (s : State) (p : Packet) : State :=
  let x := s.net.nis[p.dst]
  let s := (s.traceNet p).sent p
  if x.resetting then (s.finc F.NOC_NI_STAT_PROXY p.dst).respond p none stNODE [] false
  else if ¬ x.powered then s.modNi p.dst (fun x => { x with heldReqs := x.heldReqs ++ [(p, s.devTime)] })
  else s.takeRequest p none

/-- NOC_REQUEST_ARRIVAL: a request that may not leave its source yet waits there (R283, R284, R288); the requests of its pair that
were sent before it arrive first (R285). -/
def execNocRequestArrival (p : Packet) (s : State) : Ans :=
  if ¬ s.active ∨ p.op = 5 then .next s
  else
    s.effect (fun s =>
      if ¬ (s.outstanding p || s.maySend p) then s.modNi p.src (fun x => { x with waitReqs := x.waitReqs ++ [p] })
      else
        let is (q : Packet) : Bool := decide (q.seq = p.seq)
        let first := s.net.ahead false p.src p.dst is (!s.outstanding p)
        let here := (s.net.between false p.src p.dst).filter is
        (first.foldl (fun s q => s.requestIn q) (s.landed (first ++ here))).requestIn p)

/-! ## Domains (R290) -/

/-- The NIs of the domain an NI belongs to: a partition with its Developer, a flash node, the camera inputs, or a DDR5 channel. -/
def domainOf (n : Nat) : List (Fin 36) :=
  ([[2, 1], [3, 4], [32, 31], [33, 34], [6], [11], [24], [29], [25], [0], [5], [30], [35]] : List (List (Fin 36))).findSome?
    (fun d => if d.any (fun x => decide (x.val = n)) then some d else none) |>.getD []

/-- DOMAIN_POWER_DOWN. -/
def execDomainPowerDown (ni : Fin 36) (s : State) : Ans :=
  s.effect (fun s =>
    if ¬ s.active then s else (domainOf ni).foldl (fun s n => s.modNi n (fun x => { x with powered := false })) s)

/-- DOMAIN_WAKE_COMPLETE: the domain is powered again and serves what it held, in the order of arrival. -/
def execDomainWakeComplete (ni : Fin 36) (s : State) : Ans :=
  s.effect (fun s =>
    if ¬ s.active then s
    else
      (domainOf ni).foldl (fun s n =>
        let reqs := (s.net.nis[n]).heldReqs
        reqs.foldl (fun s h => s.takeRequest h.1 (some h.2)) (s.modNi n (fun x => { x with powered := true, heldReqs := [] }))) s)

end Sys2Proof.Machine
end

