-- ==== Sys2Proof/Machine/CoreMem.lean ====
section
/-!
DEFINITION. The core instructions that access memory, and the branches (R62, R67, R69, R72, R75, R76, R95, R96, R100, R101).
-/

namespace Sys2Proof.Machine

/-! ## One access -/

/-- What one access of a core does: it goes through, it raises an exception, or it waits. -/
inductive MemRes (α : Type) where
  | ok (x : α) (s : State)
  | exc (s : State) (e : Exc)
  | wait

/-- The 33-bit sum of the RB register and a scaled immediate. -/
def memOffset (base : Word) (disp : Nat) : Nat := base.toNat + disp

/-- The exception of a memory access: its code, its segment, and the offset in CORE_FADDR. -/
def memExc (code : Nat) (seg : Fin 8) (o : Nat) : Exc := { code := code, seg := seg, faddr := some (BitVec.ofNat 32 o) }

/-- Alignment to `align` bytes, then the segment's checks (R75, R76). -/
def Core.memCheck (k : Core) (seg : Fin 8) (o n align : Nat) (r w : Bool) : Option Exc :=
  if o % align ≠ 0 then some (memExc excMisaligned seg o) else k.segCheck seg o n r w false

/-- A Developer's access to grain memory of the gang it drives waits for the array instructions it has issued (R62). -/
def State.arrayFirst (s : State) (c : Fin 8) (addr n : Nat) : Bool :=
  match s.place addr with
  | .grain off => s.backdoorWaits (.core c) off n
  | _ => false

/-- A core reads `n` bytes at an offset of a segment. An uncorrectable word, or a DDR5 address the module refuses, raises the load
uncorrectable-error exception (R76, R295). What an address that no unit answers reads as is open (log 4). -/
def State.coreRead (s : State) (c : Fin 8) (seg : Fin 8) (o n align : Nat) (needW : Bool) : MemRes (List Byte) :=
  match (s.cores[c]).memCheck seg o n align true needW with
  | some e => .exc s e
  | none =>
    let a := (s.cores[c]).phys seg o
    if s.arrayFirst c a n then .wait
    else
      match s.busRead (.core c) (coreRouter c) a n with
      | .data false b t => .ok b t
      | .data true _ t => .exc t (memExc excLoad seg o)
      | .refused t => .exc t (memExc excLoad seg o)
      | .hole => .ok (leBytes (s.free_ (8 * n)).toNat n) s.used

/-- A core writes bytes at an offset of a segment; the store is posted, so a refused one, or one that no unit answers (log 4), is
only not performed (R139, R301). -/
def State.coreWrite (s : State) (c : Fin 8) (seg : Fin 8) (o align : Nat) (data : List Byte) : MemRes Unit :=
  match (s.cores[c]).memCheck seg o data.length align false true with
  | some e => .exc s e
  | none =>
    let a := (s.cores[c]).phys seg o
    if s.arrayFirst c a data.length then .wait
    else
      match s.busWrite (.core c) (some c) (coreRouter c) 0 a data with
      | .done t => .ok () t
      | .refused t => .ok () t
      | .hole => .ok () s

/-- What an instruction's body answers for an access. -/
def MemRes.res {α : Type} (r : MemRes α) (f : α → State → State) : Res :=
  match r with
  | .ok x s => .done (f x s)
  | .exc s e => .trap s e
  | .wait => .stall

/-! ## Scalar loads and stores (R67, R69, R76) -/

/-- A load of `n` bytes: the word put into the register comes from the value read. -/
def State.load (s : State) (h : Hdr) (rd : Fin 32) (seg : Fin 8) (rb : Fin 32) (imm : BitVec 6) (n : Nat) (ext : Nat → Word) : Ans :=
  s.issueRegs h [rd, rb] (fun t =>
    (t.coreRead h.core seg (memOffset ((t.cores[h.core]).x rb) (imm.toNat * n)) n n false).res
      (fun b t => t.modCore h.core (fun k => k.setX rd (ext (leNat b)))))

/-- ldb: sign-extended. -/
def execLdb (h : Hdr) (rd : Fin 32) (seg : Fin 8) (rb : Fin 32) (imm : BitVec 6) (s : State) : Ans :=
  s.load h rd seg rb imm 1 (fun v => (BitVec.ofNat 8 v).signExtend 32)

/-- ldh: sign-extended. -/
def execLdh (h : Hdr) (rd : Fin 32) (seg : Fin 8) (rb : Fin 32) (imm : BitVec 6) (s : State) : Ans :=
  s.load h rd seg rb imm 2 (fun v => (BitVec.ofNat 16 v).signExtend 32)

/-- ldw. -/
def execLdw (h : Hdr) (rd : Fin 32) (seg : Fin 8) (rb : Fin 32) (imm : BitVec 6) (s : State) : Ans :=
  s.load h rd seg rb imm 4 (fun v => BitVec.ofNat 32 v)

/-- ldbu. -/
def execLdbu (h : Hdr) (rd : Fin 32) (seg : Fin 8) (rb : Fin 32) (imm : BitVec 6) (s : State) : Ans :=
  s.load h rd seg rb imm 1 (fun v => BitVec.ofNat 32 v)

/-- ldhu. -/
def execLdhu (h : Hdr) (rd : Fin 32) (seg : Fin 8) (rb : Fin 32) (imm : BitVec 6) (s : State) : Ans :=
  s.load h rd seg rb imm 2 (fun v => BitVec.ofNat 32 v)

/-- ldd: an even pair. -/
def execLdd (h : Hdr) (rd : Fin 32) (seg : Fin 8) (rb : Fin 32) (imm : BitVec 6) (s : State) : Ans :=
  s.issueRegs h [rd, pairHi rd, rb] (fun t =>
    if oddPair rd then .trap t illegal
    else
      (t.coreRead h.core seg (memOffset ((t.cores[h.core]).x rb) (imm.toNat * 8)) 8 8 false).res
        (fun b t => t.modCore h.core (fun k => k.setX2 rd (BitVec.ofNat 64 (leNat b)))))

/-- A store of the low `n` bytes of a register. -/
def State.store_ (s : State) (h : Hdr) (rs : Fin 32) (seg : Fin 8) (rb : Fin 32) (imm : BitVec 6) (n : Nat) : Ans :=
  s.issueRegs h [rs, rb] (fun t =>
    let k := t.cores[h.core]
    (t.coreWrite h.core seg (memOffset (k.x rb) (imm.toNat * n)) n (leBytes (k.x rs).toNat n)).res (fun _ t => t))

/-- stb. -/
def execStb (h : Hdr) (rs : Fin 32) (seg : Fin 8) (rb : Fin 32) (imm : BitVec 6) (s : State) : Ans := s.store_ h rs seg rb imm 1

/-- sth. -/
def execSth (h : Hdr) (rs : Fin 32) (seg : Fin 8) (rb : Fin 32) (imm : BitVec 6) (s : State) : Ans := s.store_ h rs seg rb imm 2

/-- stw. -/
def execStw (h : Hdr) (rs : Fin 32) (seg : Fin 8) (rb : Fin 32) (imm : BitVec 6) (s : State) : Ans := s.store_ h rs seg rb imm 4

/-- std: an even pair. -/
def execStd (h : Hdr) (rs : Fin 32) (seg : Fin 8) (rb : Fin 32) (imm : BitVec 6) (s : State) : Ans :=
  s.issueRegs h [rs, pairHi rs, rb] (fun t =>
    let k := t.cores[h.core]
    if oddPair rs then .trap t illegal
    else (t.coreWrite h.core seg (memOffset (k.x rb) (imm.toNat * 8)) 8 (leBytes (k.x2 rs).toNat 8)).res (fun _ t => t))

/-! ## Atomics (R100, R101) -/

/-- LR and SC are checked as accesses with R and W; another target than the core and Developer SRAMs and DDR5 raises the
atomic-not-supported exception. -/
def State.atomicCheck (s : State) (c : Fin 8) (seg : Fin 8) (o n : Nat) : Option Exc :=
  let k := s.cores[c]
  match k.memCheck seg o n n true true with
  | some e => some e
  | none => match s.place (k.phys seg o) with
    | .refused => none
    | p => if p.atomic then none else some (memExc excAtomic seg o)

/-- LR: the load sets the reservation of its granule. -/
def State.loadReserve (s : State) (h : Hdr) (seg : Fin 8) (ra : Fin 32) (n : Nat) (put : Nat → Core → Core) : Res :=
  let k := s.cores[h.core]
  let o := (k.x ra).toNat
  match s.atomicCheck h.core seg o n with
  | some e => .trap s e
  | none =>
    (s.coreRead h.core seg o n n true).res
      (fun b t => t.modCore h.core (fun x => { put (leNat b) x with resv := some (k.phys seg o / 8) }))

/-- SC: the store takes place while the reservation of its granule is held; sD takes 0 or 1, and the reservation ends. -/
def State.storeConditional (s : State) (h : Hdr) (rd : Fin 32) (seg : Fin 8) (ra : Fin 32) (n v : Nat) : Res :=
  let k := s.cores[h.core]
  let o := (k.x ra).toNat
  match s.atomicCheck h.core seg o n with
  | some e => .trap s e
  | none =>
    let a := k.phys seg o
    let s := s.modCore h.core (fun x => { x with resv := none })
    if k.resv = some (a / 8) then
      (s.coreWrite h.core seg o n (leBytes v n)).res (fun _ t => t.modCore h.core (fun x => x.setX rd 0))
    else .done (s.modCore h.core (fun x => x.setX rd 1))

/-- lrw. -/
def execLrw (h : Hdr) (rd : Fin 32) (seg : Fin 8) (ra : Fin 32) (s : State) : Ans :=
  s.issueRegs h [rd, ra] (fun t => t.loadReserve h seg ra 4 (fun v k => k.setX rd (BitVec.ofNat 32 v)))

/-- lrd: an even pair. -/
def execLrd (h : Hdr) (rd : Fin 32) (seg : Fin 8) (ra : Fin 32) (s : State) : Ans :=
  s.issueRegs h [rd, pairHi rd, ra] (fun t =>
    if oddPair rd then .trap t illegal else t.loadReserve h seg ra 8 (fun v k => k.setX2 rd (BitVec.ofNat 64 v)))

/-- scw. -/
def execScw (h : Hdr) (rd rs : Fin 32) (seg : Fin 8) (ra : Fin 32) (s : State) : Ans :=
  s.issueRegs h [rd, rs, ra] (fun t => t.storeConditional h rd seg ra 4 ((t.cores[h.core]).x rs).toNat)

/-- scd: the stored register names an even pair. -/
def execScd (h : Hdr) (rd rs : Fin 32) (seg : Fin 8) (ra : Fin 32) (s : State) : Ans :=
  s.issueRegs h [rd, rs, pairHi rs, ra] (fun t =>
    if oddPair rs then .trap t illegal else t.storeConditional h rd seg ra 8 ((t.cores[h.core]).x2 rs).toNat)

/-! ## Branches (R67, R69, R72) -/

/-- The address of the instruction that has begun. -/
def Core.ownPc (k : Core) (h : Hdr) : Word := k.pc - BitVec.ofNat 32 (hdrLen h)

/-- A branch target: the branch's own address plus twice the sign-extended offset. -/
def Core.target (k : Core) (h : Hdr) (off : BitVec 21) : Word := k.ownPc h + off.signExtend 32 * 2

/-- b. -/
def execB (h : Hdr) (off : BitVec 21) (s : State) : Ans := s.issueAlu h [] (fun k => { k with pc := k.target h off })

/-- bl: s31 takes the address of the next instruction. -/
def execBl (h : Hdr) (off : BitVec 21) (s : State) : Ans :=
  s.issueAlu h [31] (fun k => { k.setX 31 k.pc with pc := k.target h off })

/-- jr. -/
def execJr (h : Hdr) (rs1 : Fin 32) (s : State) : Ans := s.issueAlu h [rs1] (fun k => { k with pc := k.x rs1 })

/-- jalr: the register is read before s31 is written. -/
def execJalr (h : Hdr) (rs1 : Fin 32) (s : State) : Ans :=
  s.issueAlu h [rs1, 31] (fun k => { k.setX 31 k.pc with pc := k.x rs1 })

/-! ## Vector memory (R92, R95, R96) -/

/-- The register group and element that memory element `e` belongs to, with `f` planes of `g` registers based at `vd`: plane e mod f,
element e div f. -/
def planeElem (vd f g e : Nat) : Nat × Nat := (vd + e % f * g, e / f)

/-- ESZ or GRP of 3, a base that is no multiple of the group, or planes past v15 are illegal (R92, R95). -/
def vmIllegal (esz grp : Fin 4) (f : Nat) (vd : Fin 16) : Bool :=
  decide (esz = 3 ∨ grp = 3 ∨ 16 < vd.val + f * grpRegs grp ∨ vd.val % grpRegs grp ≠ 0)

/-- One element of a vector transfer, in a run that has not met an exception. -/
def State.vmElem (s : State) (c : Fin 8) (seg : Fin 8) (o n : Nat) (load : Bool) (b i : Nat) : MemRes Unit :=
  if load then
    match s.coreRead c seg o n n false with
    | .ok x t => .ok () (t.modCore c (fun k => k.setElem b (8 * n) i (leNat x)))
    | .exc t e => .exc t e
    | .wait => .wait
  else s.coreWrite c seg o n (leBytes ((s.cores[c]).elemU b (8 * n) i) n)

/-- The elements from CORE_VSTART on, in ascending address order; an exception at element e leaves e in CORE_VSTART, and the elements
below it stay done (R96). -/
def State.vmRun (s : State) (c : Fin 8) (seg : Fin 8) (base n : Nat) (load : Bool) (vd f g : Nat) : List Nat → Res
  | [] => .done (s.modCore c (fun k => { k with vstart := 0 }))
  | e :: es =>
    let pe := planeElem vd f g e
    match s.vmElem c seg (base + e * n) n load pe.1 pe.2 with
    | .ok _ t => t.vmRun c seg base n load vd f g es
    | .exc t x => .trap (t.modCore c (fun k => { k with vstart := BitVec.ofNat 32 e })) x
    | .wait => .stall

/-- A vector memory instruction of `f` planes. -/
def State.vmIssue (s : State) (h : Hdr) (seg : Fin 8) (rb : Fin 32) (esz grp : Fin 4) (f : Nat) (vd : Fin 16) (load : Bool) : Ans :=
  s.issueRegs h [rb] (fun t =>
    if vmIllegal esz grp f vd then .trap t illegal
    else
      let k := t.cores[h.core]
      let n := esBits esz / 8
      let count := f * grpRegs grp * 16 / n
      let first := k.vstart.toNat
      t.vmRun h.core seg (k.x rb).toNat n load vd f (grpRegs grp) ((List.range (count - first)).map (first + ·)))

/-- vld. -/
def execVld (h : Hdr) (seg : Fin 8) (rb : Fin 32) (esz grp : Fin 4) (vd : Fin 16) (s : State) : Ans :=
  s.vmIssue h seg rb esz grp 1 vd true

/-- vst. -/
def execVst (h : Hdr) (seg : Fin 8) (rb : Fin 32) (esz grp : Fin 4) (vd : Fin 16) (s : State) : Ans :=
  s.vmIssue h seg rb esz grp 1 vd false

/-- vsplitF: F is NF + 1. -/
def execVsplit (h : Hdr) (seg : Fin 8) (rb : Fin 32) (esz grp : Fin 4) (nf : Fin 8) (vd : Fin 16) (s : State) : Ans :=
  s.vmIssue h seg rb esz grp (nf.val + 1) vd true

/-- vmergeF. -/
def execVmerge (h : Hdr) (seg : Fin 8) (rb : Fin 32) (esz grp : Fin 4) (nf : Fin 8) (vd : Fin 16) (s : State) : Ans :=
  s.vmIssue h seg rb esz grp (nf.val + 1) vd false

end Sys2Proof.Machine
end

