-- ==== Sys2Proof/Machine/Availability.lean ====
section
/-!
DEFINITION. The Developer watchdog and the warm restart (R357-R359), and `sys`, which may ask for one.
-/

namespace Sys2Proof.Machine

/-! ## The watchdog (R357) -/

/-- The Developer drives a gang that has work for the job: D0 the print gang, D3 dedicated inspection (R25). -/
def State.worksFor (s : State) (d : Fin 4) : Bool :=
  match s.job with
  | none => false
  | some j => decide (d = 0) || (decide (d = 3) && j.inspect && !j.interleaved)

/-- The Enlargers of the gang have ready the next window the slot needs, or it needs none. -/
def State.windowReady (s : State) (d : Fin 4) : Bool :=
  let fed := (List.finRange 4).all (fun p : Fin 4 =>
    !(s.partsOf d).getLsbD p.val || ((s.enl[p]).ready (s.on F.ENL_STATUS_HALTED p)).isSome)
  match s.job with
  | none => fed
  | some j =>
    match (s.devs[d]).slot with
    | some sl => if s.slotDone d j then decide (j.length ≤ j.nextSlot) || fed else decide (0 < sl.win) || decide (j.length ≤ sl.n) || fed
    | none => decide (j.length ≤ j.nextSlot) || fed

/-- The Developer is expected to make progress. -/
def State.expected (s : State) (d : Fin 4) : Bool :=
  match s.job with
  | none => false
  | some j =>
    s.printing && s.worksFor d && s.slotRoom j j.nextSlot && s.windowReady d && !(s.cores[devCore d]).halted && decide ((s.cores[devCore d]).run ≠ .mcHalt)

/-! ## Warm restart (R358, R359) -/

/-- The bands of an Enlarger from line `l` on: those fed since, the one in feed, and those queued. -/
def Enl.rewound (e : Enl) (l : Nat) : Enl :=
  let fed := (e.past ++ (e.cur.map (fun c => c.1)).toList).filter (fun b => decide (l < b.first + b.lines))
  match fed with
  | [] => { e with cur := none, started := false, past := [], fed := l, feed := [], expect := none }
  | b :: rest =>
    { e with
      cur := some (b, Nat.max b.first l), started := true, past := [], fed := l, feed := [], queue := rest ++ e.queue }

/-- The router of a Developer's node. -/
def devNode (d : Fin 4) : Fin 36 := ([1, 4, 31, 34] : List (Fin 36)).getD d.val 1

/-- The print gang starts again at the line after the last complete one: its Enlargers rewind to it, and the first slot loads it. -/
def State.rewindPrint (s : State) (d : Fin 4) : State :=
  match s.job with
  | none => s
  | some j =>
    if d ≠ 0 then s
    else
      let parts := s.partsOf d
      let s := s.forFin 4 (fun p s =>
        if parts.getLsbD p.val then
          let e := (s.enl[p]).rewound j.complete
          (s.modEnl p (fun _ => e)).setQueue p e.queue
        else s)
      let s := s.modJob (fun j => { j with nextSlot := j.complete + 1 })
      s.modDev d (fun x => { x with slot := some { n := j.complete, win := 0, inspecting := false }, camWin := 0 })

/-- A warm restart begins (cause 1 the watchdog, 2 an SRAM error): MC0 is interrupted, by a number the spec does not give, the Contact Sheet
is triggered, the node is reset, and the SRAMs are written again with contents the image gives and the spec does not. -/
def State.beginRestart (s : State) (d : Fin 4) (cause : Fin 4) : State :=
  let s := s.used.interruptCore 4 (s.free_ 8)
  let s := s.csMasked 0x13 (coreRouter (devCore d)) [d, cause, (match s.job with
    | some j => j.complete
    | none => 0)] 0
  let s := ((s.resetNi (devNode d)).modNi (devNode d) (fun x => { x with resetting := false })).resetCore (devCore d)
  let s : State := { s with mems := { s.mems with
    devI := s.mems.devI.set d (Mem.of .undef), devD := s.mems.devD.set d (Mem.of .undef) } }
  let s := s.modDev d (fun x => { x with win := none, camWin := 0, restarting := some cause })
  s.rewindPrint d

/-- DEVELOPER_WATCHDOG: the count reaches TIMEOUT_US. -/
def execDeveloperWatchdog (d : Fin 4) (s : State) : Ans :=
  s.effect (fun s =>
    if s.on F.DEV_WDT_ENABLE d ∧ s.expected d ∧ (s.devs[d]).restarting.isNone then
      (s.fset F.DEV_WDT_FIRED 1 d).beginRestart d 1
    else s)

/-- WARM_RESTART_COMPLETE: the first slot is done, or the Developer drives no slot. -/
def execWarmRestartComplete (d : Fin 4) (s : State) : Ans :=
  s.effect (fun s =>
    match (s.devs[d]).restarting with
    | none => s
    | some cause =>
      let done : Bool := match s.job with
        | some j => s.slotDone d j
        | none => true
      if ¬ done then s
      else
        (s.modDev d (fun x => { x with restarting := none })).raise .developerRestart (d.val + 256 * cause.val))

/-! ## sys (R97, R357) -/

/-- The core is a Developer's, in its trap handler after a fetch or load uncorrectable error in its own SRAM. -/
def State.ownSramError (s : State) (d : Fin 4) : Bool :=
  let k := s.cores[devCore d]
  let code := k.cause.toNat % 256
  let seg : Fin 8 := Fin.ofNat 8 (k.cause.toNat / 256)
  let a := k.phys seg k.faddr.toNat
  k.sLevel && k.trap && decide (code = excFetch ∨ code = excLoad) &&
    (inWindow a (Config.devInstrBase d) 0x4_0000 || inWindow a (Config.devDataBase d) 0x4_0000)

/-- sys: the system call exception; from a Developer's handler of an error in its own SRAM, the request for a warm restart. -/
def execSys (h : Hdr) (s : State) : Ans :=
  s.issue h (fun t =>
    if hc : h.core.val < 4 then
      let d : Fin 4 := ⟨h.core.val, hc⟩
      if t.ownSramError d then .done (t.beginRestart d 2) else .trap t { code := excSys }
    else .trap t { code := excSys })

end Sys2Proof.Machine
end

