-- ==== Sys2Proof/Machine/CoreAlu.lean ====
section
/-!
DEFINITION. The integer ALU instructions, register and immediate forms, the constants, and the flag-setting compares and
additions (R69-R71).
-/

namespace Sys2Proof.Machine

/-- add (R69). -/
def execAdd (h : Hdr) (rd rs1 rs2 : Fin 32) (s : State) : Ans :=
  s.issueAlu h [rd, rs1, rs2] (fun k => k.setX rd (k.x rs1 + k.x rs2))

/-- sub (R69). -/
def execSub (h : Hdr) (rd rs1 rs2 : Fin 32) (s : State) : Ans :=
  s.issueAlu h [rd, rs1, rs2] (fun k => k.setX rd (k.x rs1 - k.x rs2))

/-- and (R69). -/
def execAnd (h : Hdr) (rd rs1 rs2 : Fin 32) (s : State) : Ans :=
  s.issueAlu h [rd, rs1, rs2] (fun k => k.setX rd (k.x rs1 &&& k.x rs2))

/-- or (R69). -/
def execOr (h : Hdr) (rd rs1 rs2 : Fin 32) (s : State) : Ans :=
  s.issueAlu h [rd, rs1, rs2] (fun k => k.setX rd (k.x rs1 ||| k.x rs2))

/-- xor (R69). -/
def execXor (h : Hdr) (rd rs1 rs2 : Fin 32) (s : State) : Ans :=
  s.issueAlu h [rd, rs1, rs2] (fun k => k.setX rd (k.x rs1 ^^^ k.x rs2))

/-- andn: a AND NOT b (R69). -/
def execAndn (h : Hdr) (rd rs1 rs2 : Fin 32) (s : State) : Ans :=
  s.issueAlu h [rd, rs1, rs2] (fun k => k.setX rd (k.x rs1 &&& ~~~(k.x rs2)))

/-- shl by a register (R69). -/
def execShl (h : Hdr) (rd rs1 rs2 : Fin 32) (s : State) : Ans :=
  s.issueFree h [rd, rs1, rs2] (fun k open_ => k.setX rd (shlWord (k.x rs1) (k.x rs2).toNat open_))

/-- shr by a register (R69). -/
def execShr (h : Hdr) (rd rs1 rs2 : Fin 32) (s : State) : Ans :=
  s.issueFree h [rd, rs1, rs2] (fun k open_ => k.setX rd (shrWord (k.x rs1) (k.x rs2).toNat open_))

/-- sar by a register (R69). -/
def execSar (h : Hdr) (rd rs1 rs2 : Fin 32) (s : State) : Ans :=
  s.issueFree h [rd, rs1, rs2] (fun k open_ => k.setX rd (sarWord (k.x rs1) (k.x rs2).toNat open_))

/-- min, signed (R69). -/
def execMin (h : Hdr) (rd rs1 rs2 : Fin 32) (s : State) : Ans :=
  s.issueAlu h [rd, rs1, rs2] (fun k => k.setX rd (minS (k.x rs1) (k.x rs2)))

/-- max, signed (R69). -/
def execMax (h : Hdr) (rd rs1 rs2 : Fin 32) (s : State) : Ans :=
  s.issueAlu h [rd, rs1, rs2] (fun k => k.setX rd (maxS (k.x rs1) (k.x rs2)))

/-- minu (R69). -/
def execMinu (h : Hdr) (rd rs1 rs2 : Fin 32) (s : State) : Ans :=
  s.issueAlu h [rd, rs1, rs2] (fun k => k.setX rd (minU (k.x rs1) (k.x rs2)))

/-- maxu (R69). -/
def execMaxu (h : Hdr) (rd rs1 rs2 : Fin 32) (s : State) : Ans :=
  s.issueAlu h [rd, rs1, rs2] (fun k => k.setX rd (maxU (k.x rs1) (k.x rs2)))

/-- abs (R69); the most negative value wraps to itself (log 26). -/
def execAbs (h : Hdr) (rd rs1 : Fin 32) (s : State) : Ans :=
  s.issueAlu h [rd, rs1] (fun k => k.setX rd (absWord (k.x rs1)))

/-- neg (R69). -/
def execNeg (h : Hdr) (rd rs1 : Fin 32) (s : State) : Ans :=
  s.issueAlu h [rd, rs1] (fun k => k.setX rd (-(k.x rs1)))

/-- mov (R69). -/
def execMov (h : Hdr) (rd rs1 : Fin 32) (s : State) : Ans :=
  s.issueAlu h [rd, rs1] (fun k => k.setX rd (k.x rs1))

/-- cmp (R71). -/
def execCmp (h : Hdr) (rs1 rs2 : Fin 32) (s : State) : Ans :=
  s.issueAlu h [rs1, rs2] (fun k => k.subFlags (k.x rs1) (k.x rs2))

/-- cmn (R71). -/
def execCmn (h : Hdr) (rs1 rs2 : Fin 32) (s : State) : Ans :=
  s.issueAlu h [rs1, rs2] (fun k => k.addFlags (k.x rs1) (k.x rs2))

/-- tst (R71); C and V are open (log 21). -/
def execTst (h : Hdr) (rs1 rs2 : Fin 32) (s : State) : Ans :=
  s.issueFree h [rs1, rs2] (fun k open_ => k.tstFlags (k.x rs1) (k.x rs2) (open_.setWidth 2))

/-- addf (R71). -/
def execAddf (h : Hdr) (rd rs1 rs2 : Fin 32) (s : State) : Ans :=
  s.issueAlu h [rd, rs1, rs2] (fun k => (k.addFlags (k.x rs1) (k.x rs2)).setX rd (k.x rs1 + k.x rs2))

/-- subf (R71). -/
def execSubf (h : Hdr) (rd rs1 rs2 : Fin 32) (s : State) : Ans :=
  s.issueAlu h [rd, rs1, rs2] (fun k => (k.subFlags (k.x rs1) (k.x rs2)).setX rd (k.x rs1 - k.x rs2))

/-- addi (R69). -/
def execAddi (h : Hdr) (rd rs1 : Fin 32) (imm : BitVec 11) (s : State) : Ans :=
  s.issueAlu h [rd, rs1] (fun k => k.setX rd (k.x rs1 + imm.signExtend 32))

/-- andi (R69). -/
def execAndi (h : Hdr) (rd rs1 : Fin 32) (imm : BitVec 11) (s : State) : Ans :=
  s.issueAlu h [rd, rs1] (fun k => k.setX rd (k.x rs1 &&& imm.signExtend 32))

/-- ori (R69). -/
def execOri (h : Hdr) (rd rs1 : Fin 32) (imm : BitVec 11) (s : State) : Ans :=
  s.issueAlu h [rd, rs1] (fun k => k.setX rd (k.x rs1 ||| imm.signExtend 32))

/-- xori (R69). -/
def execXori (h : Hdr) (rd rs1 : Fin 32) (imm : BitVec 11) (s : State) : Ans :=
  s.issueAlu h [rd, rs1] (fun k => k.setX rd (k.x rs1 ^^^ imm.signExtend 32))

/-- shli by an immediate (R69). -/
def execShli (h : Hdr) (rd rs1 : Fin 32) (imm : BitVec 11) (s : State) : Ans :=
  s.issueFree h [rd, rs1] (fun k open_ => k.setX rd (shlWord (k.x rs1) (imm.signExtend 32).toNat open_))

/-- shri by an immediate (R69). -/
def execShri (h : Hdr) (rd rs1 : Fin 32) (imm : BitVec 11) (s : State) : Ans :=
  s.issueFree h [rd, rs1] (fun k open_ => k.setX rd (shrWord (k.x rs1) (imm.signExtend 32).toNat open_))

/-- sari by an immediate (R69). -/
def execSari (h : Hdr) (rd rs1 : Fin 32) (imm : BitVec 11) (s : State) : Ans :=
  s.issueFree h [rd, rs1] (fun k open_ => k.setX rd (sarWord (k.x rs1) (imm.signExtend 32).toNat open_))

/-- cmpi (R71). -/
def execCmpi (h : Hdr) (rs1 : Fin 32) (imm : BitVec 11) (s : State) : Ans :=
  s.issueAlu h [rs1] (fun k => k.subFlags (k.x rs1) (imm.signExtend 32))

/-- movhi: the constant goes to the high half; the low half is open (R69, log 27). -/
def execMovhi (h : Hdr) (rd : Fin 32) (imm : BitVec 16) (s : State) : Ans :=
  s.issueFree h [rd] (fun k open_ => k.setX rd (imm ++ open_.setWidth 16))

/-- movlo: the zero-extended constant (R69). -/
def execMovlo (h : Hdr) (rd : Fin 32) (imm : BitVec 16) (s : State) : Ans :=
  s.issueAlu h [rd] (fun k => k.setX rd (imm.setWidth 32))

/-- movi, the 16-bit form (R67, R69). -/
def execMovi (h : Hdr) (rd : Fin 32) (imm : BitVec 5) (s : State) : Ans :=
  s.issueAlu h [rd] (fun k => k.setX rd (imm.signExtend 32))

end Sys2Proof.Machine
end

