-- ==== Sys2Proof/Machine/CoreFixed.lean ====
section
/-!
DEFINITION. The accumulator and scalar fixed-point instructions (R77-R80).
-/

namespace Sys2Proof.Machine

/-- The exact value goes to an accumulator, saturated at 72 bits with Q (R77). -/
def Core.setAcc (k : Core) (a : Fin 4) (x : Int) : Core :=
  let r := clampS 72 x
  ({ k with a := k.a.set a (BitVec.ofInt 72 r.1) }).setQ r.2

/-- Products shifted to Q1.63 (R77). -/
def macProduct (a b : Word) : Int := a.toInt * b.toInt * 2
def machProduct (a b : Word) : Int := half a * half b * 2 ^ 33

/-- A rounded, saturated result of `w` bits, sign-extended, goes to a register; reserved modes are illegal (R78, R80). -/
def Core.fixed (k : Core) (rd : Fin 32) (fn : Fin 8) (x : Int) (d w : Nat) : Except Exc Core :=
  match k.roundMode fn.val with
  | none => .error illegal
  | some m =>
    let r := k.roundSat m x d w
    .ok (r.2.setX rd (BitVec.ofInt 32 r.1))

/-- A saturated result without rounding. -/
def Core.saturated (k : Core) (rd : Fin 32) (x : Int) (w : Nat) : Core :=
  let r := clampS w x
  (k.setX rd (BitVec.ofInt 32 r.1)).setQ r.2

/-- mac (R77). -/
def execMac (h : Hdr) (acc : Fin 4) (rs1 rs2 : Fin 32) (s : State) : Ans :=
  s.issueAlu h [rs1, rs2] (fun k => k.setAcc acc ((k.a[acc]).toInt + macProduct (k.x rs1) (k.x rs2)))

/-- mach (R77). -/
def execMach (h : Hdr) (acc : Fin 4) (rs1 rs2 : Fin 32) (s : State) : Ans :=
  s.issueAlu h [rs1, rs2] (fun k => k.setAcc acc ((k.a[acc]).toInt + machProduct (k.x rs1) (k.x rs2)))

/-- msb (R77). -/
def execMsb (h : Hdr) (acc : Fin 4) (rs1 rs2 : Fin 32) (s : State) : Ans :=
  s.issueAlu h [rs1, rs2] (fun k => k.setAcc acc ((k.a[acc]).toInt - macProduct (k.x rs1) (k.x rs2)))

/-- msbh (R77). -/
def execMsbh (h : Hdr) (acc : Fin 4) (rs1 rs2 : Fin 32) (s : State) : Ans :=
  s.issueAlu h [rs1, rs2] (fun k => k.setAcc acc ((k.a[acc]).toInt - machProduct (k.x rs1) (k.x rs2)))

/-- aclr (R77). -/
def execAclr (h : Hdr) (acc : Fin 4) (s : State) : Ans :=
  s.issueAlu h [] (fun k => { k with a := k.a.set acc 0 })

/-- amov: from an accumulator, or from a scalar register at a place the spec does not give (R77, log 29). -/
def execAmov (h : Hdr) (acc : Fin 4) (src : AmovSrc) (s : State) : Ans :=
  match src with
  | .acc b => s.issueAlu h [] (fun k => { k with a := k.a.set acc k.a[b] })
  | .scalar r => s.issueAlu h [r] (fun k => { k with a := k.a.set acc (Config.amovScalar (k.x r)) })

/-- ashr: an arithmetic right shift of an accumulator; a count of 72 or more has no stated result (R77, log 28). -/
def execAshr (h : Hdr) (acc : Fin 4) (rs2 : Fin 32) (s : State) : Ans :=
  s.issueRegs h [rs2] (fun t =>
    .done (t.modCore h.core (fun k =>
      let n := (k.x rs2).toNat
      { k with a := k.a.set acc (if n < 72 then (k.a[acc]).sshiftRight n else t.free_ 72) })).used)

/-- sat: to Q1.31 (R80). -/
def execSat (h : Hdr) (rd : Fin 32) (acc : Fin 4) (fn : Fin 8) (s : State) : Ans :=
  s.issueExc h [rd] (fun k => k.fixed rd fn (k.a[acc]).toInt 32 32)

/-- sath: to Q1.15, sign-extended (R80). -/
def execSath (h : Hdr) (rd : Fin 32) (acc : Fin 4) (fn : Fin 8) (s : State) : Ans :=
  s.issueExc h [rd] (fun k => k.fixed rd fn (k.a[acc]).toInt 48 16)

/-- qadd (R80). -/
def execQadd (h : Hdr) (rd rs1 rs2 : Fin 32) (s : State) : Ans :=
  s.issueAlu h [rd, rs1, rs2] (fun k => k.saturated rd ((k.x rs1).toInt + (k.x rs2).toInt) 32)

/-- qaddh: the low halves, sign-extended (R77, R80, log 31). -/
def execQaddh (h : Hdr) (rd rs1 rs2 : Fin 32) (s : State) : Ans :=
  s.issueAlu h [rd, rs1, rs2] (fun k => k.saturated rd (half (k.x rs1) + half (k.x rs2)) 16)

/-- qsub (R80). -/
def execQsub (h : Hdr) (rd rs1 rs2 : Fin 32) (s : State) : Ans :=
  s.issueAlu h [rd, rs1, rs2] (fun k => k.saturated rd ((k.x rs1).toInt - (k.x rs2).toInt) 32)

/-- qsubh: the low halves, sign-extended (R77, R80, log 31). -/
def execQsubh (h : Hdr) (rd rs1 rs2 : Fin 32) (s : State) : Ans :=
  s.issueAlu h [rd, rs1, rs2] (fun k => k.saturated rd (half (k.x rs1) - half (k.x rs2)) 16)

/-- qmul (R80). -/
def execQmul (h : Hdr) (rd rs1 rs2 : Fin 32) (fn : Fin 8) (s : State) : Ans :=
  s.issueExc h [rd, rs1, rs2] (fun k => k.fixed rd fn ((k.x rs1).toInt * (k.x rs2).toInt) 31 32)

/-- qmulh: the low halves, sign-extended (R77, R80, log 31). -/
def execQmulh (h : Hdr) (rd rs1 rs2 : Fin 32) (fn : Fin 8) (s : State) : Ans :=
  s.issueExc h [rd, rs1, rs2] (fun k => k.fixed rd fn (half (k.x rs1) * half (k.x rs2)) 15 16)

/-- qsra: a rounded arithmetic right shift; a count of 32 or more has no stated result (R80, log 28). R78 speaks of a form I of major
0x0D, and R69 gives the major form R alone: the count is a register's (DESIGN CHOICE, log 107). -/
def execQsra (h : Hdr) (rd rs1 rs2 : Fin 32) (fn : Fin 8) (s : State) : Ans :=
  s.issueRegs h [rd, rs1, rs2] (fun t =>
    let k := t.cores[h.core]
    let n := (k.x rs2).toNat
    match k.roundMode fn.val with
    | none => .trap t illegal
    | some m =>
      if n < 32 then
        match k.fixed rd fn (k.x rs1).toInt n 32 with
        | .ok k' => .done (t.modCore h.core (fun _ => k'))
        | .error e => .trap t e
      else .done (t.modCore h.core (fun k => (k.rounded m).setX rd (t.free_ 32))).used)

end Sys2Proof.Machine
end

