-- ==== Sys2Proof/Machine/CoreFloat.lean ====
section
/-!
DEFINITION. The floating-point instructions (R86-R89).
-/

namespace Sys2Proof.Machine

/-- Flags raised by the instruction that began at `pc`: they are set in CORE_FPSTAT, and an enabled one makes a trap pending
and records CORE_FPPC, unless one is pending already (R89). -/
def Core.raiseFp (k : Core) (pc : Word) (fl : BitVec 5) : Core :=
  let k := { k with fpstat := k.fpstat ||| fl.setWidth 32 }
  if fl &&& BitVec.setWidth 5 (BitVec.ushiftRight k.ctl 8) ≠ 0 ∧ k.fpPend = none then { k with fpPend := some 0, fppc := pc } else k

/-- A result with its flags; `h` gives the length by which the pc has moved on. -/
def Core.fpResult (k : Core) (h : Hdr) (rd : Fin 32) (r : FRes) : Core :=
  (k.setX rd r.val).raiseFp (k.pc - BitVec.ofNat 32 (hdrLen h)) r.flags

/-- fadd (R86). -/
def execFadd (h : Hdr) (rd ra rb : Fin 32) (s : State) : Ans :=
  s.issueAlu h [rd, ra, rb] (fun k => k.fpResult h rd (fAdd (k.x ra) (k.x rb)))

/-- fsub (R86). -/
def execFsub (h : Hdr) (rd ra rb : Fin 32) (s : State) : Ans :=
  s.issueAlu h [rd, ra, rb] (fun k => k.fpResult h rd (fSub (k.x ra) (k.x rb)))

/-- fmul (R86). -/
def execFmul (h : Hdr) (rd ra rb : Fin 32) (s : State) : Ans :=
  s.issueAlu h [rd, ra, rb] (fun k => k.fpResult h rd (fMul (k.x ra) (k.x rb)))

/-- ffma: a b + c (R86). -/
def execFfma (h : Hdr) (rd ra rb rc : Fin 32) (s : State) : Ans :=
  s.issueAlu h [rd, ra, rb, rc] (fun k => k.fpResult h rd (fFma (k.x ra) (k.x rb) (k.x rc)))

/-- ffnma: c - a b, as the sequence of R87 uses it (log 7). -/
def execFfnma (h : Hdr) (rd ra rb rc : Fin 32) (s : State) : Ans :=
  s.issueAlu h [rd, ra, rb, rc] (fun k => k.fpResult h rd (fFma (fFlip (k.x ra)) (k.x rb) (k.x rc)))

/-- fcmp (R86). -/
def execFcmp (h : Hdr) (ra rb : Fin 32) (s : State) : Ans :=
  s.issueAlu h [ra, rb] (fun k =>
    let r := fCmp (k.x ra) (k.x rb)
    (k.setNZCV r.1 r.2.1 r.2.2.1 r.2.2.2.1).raiseFp (k.pc - BitVec.ofNat 32 (hdrLen h)) r.2.2.2.2)

/-- fmin (R86, log 7). -/
def execFmin (h : Hdr) (rd ra rb : Fin 32) (s : State) : Ans :=
  s.issueAlu h [rd, ra, rb] (fun k => k.fpResult h rd (fMinMax false (k.x ra) (k.x rb)))

/-- fmax (R86, log 7). -/
def execFmax (h : Hdr) (rd ra rb : Fin 32) (s : State) : Ans :=
  s.issueAlu h [rd, ra, rb] (fun k => k.fpResult h rd (fMinMax true (k.x ra) (k.x rb)))

/-- fabs (R86). -/
def execFabs (h : Hdr) (rd ra : Fin 32) (s : State) : Ans :=
  s.issueAlu h [rd, ra] (fun k => k.fpResult h rd (fSignOp false (k.x ra)))

/-- fneg (R86). -/
def execFneg (h : Hdr) (rd ra : Fin 32) (s : State) : Ans :=
  s.issueAlu h [rd, ra] (fun k => k.fpResult h rd (fSignOp true (k.x ra)))

/-- fcvt.ws (R86). -/
def execFcvtWs (h : Hdr) (rd ra : Fin 32) (s : State) : Ans :=
  s.issueAlu h [rd, ra] (fun k => k.fpResult h rd (fToInt (k.x ra)))

/-- fcvt.sw (R86). -/
def execFcvtSw (h : Hdr) (rd ra : Fin 32) (s : State) : Ans :=
  s.issueAlu h [rd, ra] (fun k => k.fpResult h rd (fFromInt (k.x ra)))

/-- frecpe (R87). -/
def execFrecpe (h : Hdr) (rd ra : Fin 32) (s : State) : Ans :=
  s.issueAlu h [rd, ra] (fun k => k.fpResult h rd (fRecip (k.x ra)))

end Sys2Proof.Machine
end

