-- ==== Sys2Proof/Machine/CoreMul.lean ====
section
/-!
DEFINITION. Multiplication, division steps, CRC steps, parity and bit reversal (R81-R85).
-/

namespace Sys2Proof.Machine

/-- mul: the low word (R81). -/
def execMul (h : Hdr) (rd rs1 rs2 : Fin 32) (s : State) : Ans :=
  s.issueAlu h [rd, rs1, rs2] (fun k => k.setX rd ((mulU (k.x rs1) (k.x rs2)).setWidth 32))

/-- mulh: the signed high word (R81). -/
def execMulh (h : Hdr) (rd rs1 rs2 : Fin 32) (s : State) : Ans :=
  s.issueAlu h [rd, rs1, rs2] (fun k => k.setX rd ((mulS (k.x rs1) (k.x rs2) >>> 32).setWidth 32))

/-- mulhu: the unsigned high word (R81). -/
def execMulhu (h : Hdr) (rd rs1 rs2 : Fin 32) (s : State) : Ans :=
  s.issueAlu h [rd, rs1, rs2] (fun k => k.setX rd ((mulU (k.x rs1) (k.x rs2) >>> 32).setWidth 32))

/-- mull: the product to an even pair (R69, R81). -/
def execMull (h : Hdr) (rd rs1 rs2 : Fin 32) (s : State) : Ans :=
  s.issueExc h [rd, pairHi rd, rs1, rs2] (fun k =>
    if oddPair rd then .error illegal else .ok (k.setX2 rd (mulS (k.x rs1) (k.x rs2))))

/-- mullu: the product to an even pair (R69, R81). -/
def execMullu (h : Hdr) (rd rs1 rs2 : Fin 32) (s : State) : Ans :=
  s.issueExc h [rd, pairHi rd, rs1, rs2] (fun k =>
    if oddPair rd then .error illegal else .ok (k.setX2 rd (mulU (k.x rs1) (k.x rs2))))

/-- dstep (R82). With one register for remainder and quotient its value is open (log 30). -/
def execDstep (h : Hdr) (sR sQ sD : Fin 32) (s : State) : Ans :=
  s.issueFree h [sR, sQ, sD] (fun k open_ =>
    let t := divStep (k.x sR) (k.x sQ) (k.x sD)
    (if sR = sQ then k.setX sR open_ else (k.setX sR t.1).setX sQ t.2.1).setC t.2.2)

/-- crcc: CRC-32C (R84). -/
def execCrcc (h : Hdr) (sC sB : Fin 32) (s : State) : Ans :=
  s.issueAlu h [sC, sB] (fun k => k.setX sC (crcFold 0x82F63B78 (k.x sC) (k.x sB)))

/-- crcp: the polynomial of CORE_CRCPOLY (R84). -/
def execCrcp (h : Hdr) (sC sB : Fin 32) (s : State) : Ans :=
  s.issueAlu h [sC, sB] (fun k => k.setX sC (crcFold k.crcpoly (k.x sC) (k.x sB)))

/-- par (R85). -/
def execPar (h : Hdr) (rd rs1 : Fin 32) (s : State) : Ans :=
  s.issueAlu h [rd, rs1] (fun k => k.setX rd (parity (k.x rs1)))

/-- brev; a width outside 1 to 32 is no instruction (R68, R85). -/
def execBrev (h : Hdr) (rd rs1 : Fin 32) (w : Fin 64) (s : State) : Ans :=
  s.issueExc h [rd, rs1] (fun k =>
    if w.val = 0 ∨ 32 < w.val then .error illegal else .ok (k.setX rd (reverseBits (k.x rs1) w.val)))

end Sys2Proof.Machine
end

