-- ==== Sys2Proof/Machine/Dispatch.lean ====
section
/-!
DEFINITION. The meaning of each command: one arm per constructor.
-/

namespace Sys2Proof.Machine

/-- The effect of one command. -/
def exec (i : Instr) (s : State) : Host.Outcome State Fault Refusal :=
  match i with
  | .registerWrite a addr bits v => Sys2Proof.Machine.execRegisterWrite a addr bits v s
  | .halfReadLatch a addr bits => Sys2Proof.Machine.execHalfReadLatch a addr bits s
  | .fifoRegisterRead a p => Sys2Proof.Machine.execFifoRegisterRead a p s
  | .fifoRegisterWrite a p bits v => Sys2Proof.Machine.execFifoRegisterWrite a p bits v s
  | .fifoWriteDiscard p => Sys2Proof.Machine.execFifoWriteDiscard p s
  | .add h rd rs1 rs2 => Sys2Proof.Machine.execAdd h rd rs1 rs2 s
  | .sub h rd rs1 rs2 => Sys2Proof.Machine.execSub h rd rs1 rs2 s
  | .and h rd rs1 rs2 => Sys2Proof.Machine.execAnd h rd rs1 rs2 s
  | .or h rd rs1 rs2 => Sys2Proof.Machine.execOr h rd rs1 rs2 s
  | .xor h rd rs1 rs2 => Sys2Proof.Machine.execXor h rd rs1 rs2 s
  | .andn h rd rs1 rs2 => Sys2Proof.Machine.execAndn h rd rs1 rs2 s
  | .shl h rd rs1 rs2 => Sys2Proof.Machine.execShl h rd rs1 rs2 s
  | .shr h rd rs1 rs2 => Sys2Proof.Machine.execShr h rd rs1 rs2 s
  | .sar h rd rs1 rs2 => Sys2Proof.Machine.execSar h rd rs1 rs2 s
  | .min h rd rs1 rs2 => Sys2Proof.Machine.execMin h rd rs1 rs2 s
  | .max h rd rs1 rs2 => Sys2Proof.Machine.execMax h rd rs1 rs2 s
  | .minu h rd rs1 rs2 => Sys2Proof.Machine.execMinu h rd rs1 rs2 s
  | .maxu h rd rs1 rs2 => Sys2Proof.Machine.execMaxu h rd rs1 rs2 s
  | .abs h rd rs1 => Sys2Proof.Machine.execAbs h rd rs1 s
  | .neg h rd rs1 => Sys2Proof.Machine.execNeg h rd rs1 s
  | .mov h rd rs1 => Sys2Proof.Machine.execMov h rd rs1 s
  | .cmp h rs1 rs2 => Sys2Proof.Machine.execCmp h rs1 rs2 s
  | .cmn h rs1 rs2 => Sys2Proof.Machine.execCmn h rs1 rs2 s
  | .tst h rs1 rs2 => Sys2Proof.Machine.execTst h rs1 rs2 s
  | .addf h rd rs1 rs2 => Sys2Proof.Machine.execAddf h rd rs1 rs2 s
  | .subf h rd rs1 rs2 => Sys2Proof.Machine.execSubf h rd rs1 rs2 s
  | .addi h rd rs1 imm => Sys2Proof.Machine.execAddi h rd rs1 imm s
  | .andi h rd rs1 imm => Sys2Proof.Machine.execAndi h rd rs1 imm s
  | .ori h rd rs1 imm => Sys2Proof.Machine.execOri h rd rs1 imm s
  | .xori h rd rs1 imm => Sys2Proof.Machine.execXori h rd rs1 imm s
  | .shli h rd rs1 imm => Sys2Proof.Machine.execShli h rd rs1 imm s
  | .shri h rd rs1 imm => Sys2Proof.Machine.execShri h rd rs1 imm s
  | .sari h rd rs1 imm => Sys2Proof.Machine.execSari h rd rs1 imm s
  | .cmpi h rs1 imm => Sys2Proof.Machine.execCmpi h rs1 imm s
  | .movhi h rd imm => Sys2Proof.Machine.execMovhi h rd imm s
  | .movlo h rd imm => Sys2Proof.Machine.execMovlo h rd imm s
  | .movi h rd imm => Sys2Proof.Machine.execMovi h rd imm s
  | .mul h rd rs1 rs2 => Sys2Proof.Machine.execMul h rd rs1 rs2 s
  | .mulh h rd rs1 rs2 => Sys2Proof.Machine.execMulh h rd rs1 rs2 s
  | .mulhu h rd rs1 rs2 => Sys2Proof.Machine.execMulhu h rd rs1 rs2 s
  | .mull h rd rs1 rs2 => Sys2Proof.Machine.execMull h rd rs1 rs2 s
  | .mullu h rd rs1 rs2 => Sys2Proof.Machine.execMullu h rd rs1 rs2 s
  | .dstep h sR sQ sD => Sys2Proof.Machine.execDstep h sR sQ sD s
  | .crcc h sC sB => Sys2Proof.Machine.execCrcc h sC sB s
  | .crcp h sC sB => Sys2Proof.Machine.execCrcp h sC sB s
  | .par h rd rs1 => Sys2Proof.Machine.execPar h rd rs1 s
  | .brev h rd rs1 w => Sys2Proof.Machine.execBrev h rd rs1 w s
  | .mac h acc rs1 rs2 => Sys2Proof.Machine.execMac h acc rs1 rs2 s
  | .mach h acc rs1 rs2 => Sys2Proof.Machine.execMach h acc rs1 rs2 s
  | .msb h acc rs1 rs2 => Sys2Proof.Machine.execMsb h acc rs1 rs2 s
  | .msbh h acc rs1 rs2 => Sys2Proof.Machine.execMsbh h acc rs1 rs2 s
  | .aclr h acc => Sys2Proof.Machine.execAclr h acc s
  | .amov h acc src => Sys2Proof.Machine.execAmov h acc src s
  | .ashr h acc rs2 => Sys2Proof.Machine.execAshr h acc rs2 s
  | .sat h rd acc fn => Sys2Proof.Machine.execSat h rd acc fn s
  | .sath h rd acc fn => Sys2Proof.Machine.execSath h rd acc fn s
  | .qadd h rd rs1 rs2 => Sys2Proof.Machine.execQadd h rd rs1 rs2 s
  | .qsub h rd rs1 rs2 => Sys2Proof.Machine.execQsub h rd rs1 rs2 s
  | .qaddh h rd rs1 rs2 => Sys2Proof.Machine.execQaddh h rd rs1 rs2 s
  | .qsubh h rd rs1 rs2 => Sys2Proof.Machine.execQsubh h rd rs1 rs2 s
  | .qmul h rd rs1 rs2 fn => Sys2Proof.Machine.execQmul h rd rs1 rs2 fn s
  | .qmulh h rd rs1 rs2 fn => Sys2Proof.Machine.execQmulh h rd rs1 rs2 fn s
  | .qsra h rd rs1 rs2 fn => Sys2Proof.Machine.execQsra h rd rs1 rs2 fn s
  | .fadd h rd ra rb => Sys2Proof.Machine.execFadd h rd ra rb s
  | .fsub h rd ra rb => Sys2Proof.Machine.execFsub h rd ra rb s
  | .fmul h rd ra rb => Sys2Proof.Machine.execFmul h rd ra rb s
  | .ffma h rd ra rb rc => Sys2Proof.Machine.execFfma h rd ra rb rc s
  | .ffnma h rd ra rb rc => Sys2Proof.Machine.execFfnma h rd ra rb rc s
  | .fcmp h ra rb => Sys2Proof.Machine.execFcmp h ra rb s
  | .fmin h rd ra rb => Sys2Proof.Machine.execFmin h rd ra rb s
  | .fmax h rd ra rb => Sys2Proof.Machine.execFmax h rd ra rb s
  | .fabs h rd ra => Sys2Proof.Machine.execFabs h rd ra s
  | .fneg h rd ra => Sys2Proof.Machine.execFneg h rd ra s
  | .fcvtWs h rd ra => Sys2Proof.Machine.execFcvtWs h rd ra s
  | .fcvtSw h rd ra => Sys2Proof.Machine.execFcvtSw h rd ra s
  | .frecpe h rd ra => Sys2Proof.Machine.execFrecpe h rd ra s
  | .mfc h rd n => Sys2Proof.Machine.execMfc h rd n s
  | .mtc h n rs => Sys2Proof.Machine.execMtc h n rs s
  | .mtseg h seg sP sL => Sys2Proof.Machine.execMtseg h seg sP sL s
  | .mfseg h sP sL seg => Sys2Proof.Machine.execMfseg h sP sL seg s
  | .fenceRw h => Sys2Proof.Machine.execFenceRw h s
  | .fenceR h => Sys2Proof.Machine.execFenceR h s
  | .fenceW h => Sys2Proof.Machine.execFenceW h s
  | .fenceI h => Sys2Proof.Machine.execFenceI h s
  | .fbar h => Sys2Proof.Machine.execFbar h s
  | .rett h => Sys2Proof.Machine.execRett h s
  | .sys h => Sys2Proof.Machine.execSys h s
  | .brk h => Sys2Proof.Machine.execBrk h s
  | .wfi h => Sys2Proof.Machine.execWfi h s
  | .ldb h rd seg rb imm => Sys2Proof.Machine.execLdb h rd seg rb imm s
  | .ldh h rd seg rb imm => Sys2Proof.Machine.execLdh h rd seg rb imm s
  | .ldw h rd seg rb imm => Sys2Proof.Machine.execLdw h rd seg rb imm s
  | .ldd h rd seg rb imm => Sys2Proof.Machine.execLdd h rd seg rb imm s
  | .ldbu h rd seg rb imm => Sys2Proof.Machine.execLdbu h rd seg rb imm s
  | .ldhu h rd seg rb imm => Sys2Proof.Machine.execLdhu h rd seg rb imm s
  | .stb h rs seg rb imm => Sys2Proof.Machine.execStb h rs seg rb imm s
  | .sth h rs seg rb imm => Sys2Proof.Machine.execSth h rs seg rb imm s
  | .stw h rs seg rb imm => Sys2Proof.Machine.execStw h rs seg rb imm s
  | .std h rs seg rb imm => Sys2Proof.Machine.execStd h rs seg rb imm s
  | .lrw h rd seg ra => Sys2Proof.Machine.execLrw h rd seg ra s
  | .lrd h rd seg ra => Sys2Proof.Machine.execLrd h rd seg ra s
  | .scw h rd rs seg ra => Sys2Proof.Machine.execScw h rd rs seg ra s
  | .scd h rd rs seg ra => Sys2Proof.Machine.execScd h rd rs seg ra s
  | .b h off => Sys2Proof.Machine.execB h off s
  | .bl h off => Sys2Proof.Machine.execBl h off s
  | .jr h rs1 => Sys2Proof.Machine.execJr h rs1 s
  | .jalr h rs1 => Sys2Proof.Machine.execJalr h rs1 s
  | .vadd h esz grp ro vd vs1 vs2 => Sys2Proof.Machine.execVadd h esz grp ro vd vs1 vs2 s
  | .vsub h esz grp ro vd vs1 vs2 => Sys2Proof.Machine.execVsub h esz grp ro vd vs1 vs2 s
  | .vaddsat h esz grp ro vd vs1 vs2 => Sys2Proof.Machine.execVaddsat h esz grp ro vd vs1 vs2 s
  | .vsubsat h esz grp ro vd vs1 vs2 => Sys2Proof.Machine.execVsubsat h esz grp ro vd vs1 vs2 s
  | .vaddsatu h esz grp ro vd vs1 vs2 => Sys2Proof.Machine.execVaddsatu h esz grp ro vd vs1 vs2 s
  | .vsubsatu h esz grp ro vd vs1 vs2 => Sys2Proof.Machine.execVsubsatu h esz grp ro vd vs1 vs2 s
  | .vmul h esz grp ro vd vs1 vs2 => Sys2Proof.Machine.execVmul h esz grp ro vd vs1 vs2 s
  | .vmin h esz grp ro vd vs1 vs2 => Sys2Proof.Machine.execVmin h esz grp ro vd vs1 vs2 s
  | .vmax h esz grp ro vd vs1 vs2 => Sys2Proof.Machine.execVmax h esz grp ro vd vs1 vs2 s
  | .vminu h esz grp ro vd vs1 vs2 => Sys2Proof.Machine.execVminu h esz grp ro vd vs1 vs2 s
  | .vmaxu h esz grp ro vd vs1 vs2 => Sys2Proof.Machine.execVmaxu h esz grp ro vd vs1 vs2 s
  | .vabs h esz grp ro vd vs1 => Sys2Proof.Machine.execVabs h esz grp ro vd vs1 s
  | .vdup h esz grp ro vd rs => Sys2Proof.Machine.execVdup h esz grp ro vd rs s
  | .vext h esz grp ro rd vs1 idx => Sys2Proof.Machine.execVext h esz grp ro rd vs1 idx s
  | .vins h esz grp ro vd rs idx => Sys2Proof.Machine.execVins h esz grp ro vd rs idx s
  | .vwiden h esz grp ro vd vs1 => Sys2Proof.Machine.execVwiden h esz grp ro vd vs1 s
  | .vmulq h esz grp ro mode vd vs1 vs2 => Sys2Proof.Machine.execVmulq h esz grp ro mode vd vs1 vs2 s
  | .vsraRnd h esz grp ro mode vd vs1 vs2 => Sys2Proof.Machine.execVsraRnd h esz grp ro mode vd vs1 vs2 s
  | .vnarrowSat h esz grp ro vd vs1 => Sys2Proof.Machine.execVnarrowSat h esz grp ro vd vs1 s
  | .vnarrowSatu h esz grp ro vd vs1 => Sys2Proof.Machine.execVnarrowSatu h esz grp ro vd vs1 s
  | .vld h seg rb esz grp vd => Sys2Proof.Machine.execVld h seg rb esz grp vd s
  | .vst h seg rb esz grp vd => Sys2Proof.Machine.execVst h seg rb esz grp vd s
  | .vsplit h seg rb esz grp nf vd => Sys2Proof.Machine.execVsplit h seg rb esz grp nf vd s
  | .vmerge h seg rb esz grp nf vd => Sys2Proof.Machine.execVmerge h seg rb esz grp nf vd s
  | .interrupt core num => Sys2Proof.Machine.execInterrupt core num s
  | .fpTrap core => Sys2Proof.Machine.execFpTrap core s
  | .machineCheck core => Sys2Proof.Machine.execMachineCheck core s
  | .aAdd h m rd ra rb => Sys2Proof.Machine.execAAdd h m rd ra rb s
  | .aSub h m rd ra rb => Sys2Proof.Machine.execASub h m rd ra rb s
  | .aAdds h m rd ra rb => Sys2Proof.Machine.execAAdds h m rd ra rb s
  | .aAddIp h m rd ra rb => Sys2Proof.Machine.execAAddIp h m rd ra rb s
  | .aSubIp h m rd ra rb => Sys2Proof.Machine.execASubIp h m rd ra rb s
  | .aMulu h m rd ra rb => Sys2Proof.Machine.execAMulu h m rd ra rb s
  | .aCmp h m rd ra rb => Sys2Proof.Machine.execACmp h m rd ra rb s
  | .aCmpu h m rd ra rb => Sys2Proof.Machine.execACmpu h m rd ra rb s
  | .aMov h m rd ra rb => Sys2Proof.Machine.execAMov h m rd ra rb s
  | .aMovi h m rd ra rb => Sys2Proof.Machine.execAMovi h m rd ra rb s
  | .aNot h m rd ra rb => Sys2Proof.Machine.execANot h m rd ra rb s
  | .aAnd h m rd ra rb => Sys2Proof.Machine.execAAnd h m rd ra rb s
  | .aOr h m rd ra rb => Sys2Proof.Machine.execAOr h m rd ra rb s
  | .aXor h m rd ra rb => Sys2Proof.Machine.execAXor h m rd ra rb s
  | .aAndn h m rd ra rb => Sys2Proof.Machine.execAAndn h m rd ra rb s
  | .aShift h dir m rd ra rb => Sys2Proof.Machine.execAShift h dir m rd ra rb s
  | .aLut h m rd ra rb => Sys2Proof.Machine.execALut h m rd ra rb s
  | .aAssoc h m rd ra rb => Sys2Proof.Machine.execAAssoc h m rd ra rb s
  | .aPop h m rd ra rb => Sys2Proof.Machine.execAPop h m rd ra rb s
  | .aGor h m rd ra rb => Sys2Proof.Machine.execAGor h m rd ra rb s
  | .aGld h m rd ra rb => Sys2Proof.Machine.execAGld h m rd ra rb s
  | .aGst h m rd ra rb => Sys2Proof.Machine.execAGst h m rd ra rb s
  | .aLdf h m rd ra rb => Sys2Proof.Machine.execALdf h m rd ra rb s
  | .aStf h m rd ra rb => Sys2Proof.Machine.execAStf h m rd ra rb s
  | .aLdm h m rd ra rb => Sys2Proof.Machine.execALdm h m rd ra rb s
  | .aAndm h m rd ra rb => Sys2Proof.Machine.execAAndm h m rd ra rb s
  | .aSetm h m rd ra rb => Sys2Proof.Machine.execASetm h m rd ra rb s
  | .aStm h m rd ra rb => Sys2Proof.Machine.execAStm h m rd ra rb s
  | .aNop h m rd ra rb => Sys2Proof.Machine.execANop h m rd ra rb s
  | .aSync h m rd ra rb => Sys2Proof.Machine.execASync h m rd ra rb s
  | .customerInstruction h k rd ra rb => Sys2Proof.Machine.execCustomerInstruction h k rd ra rb s
  | .systemRoutine h k rd ra rb => Sys2Proof.Machine.execSystemRoutine h k rd ra rb s
  | .aiqDispatch d => Sys2Proof.Machine.execAiqDispatch d s
  | .aiqEntryRetire d => Sys2Proof.Machine.execAiqEntryRetire d s
  | .routineOverrun d => Sys2Proof.Machine.execRoutineOverrun d s
  | .gWindowOpen d => Sys2Proof.Machine.execGWindowOpen d s
  | .gWindowComplete d => Sys2Proof.Machine.execGWindowComplete d s
  | .processingSlotStart d => Sys2Proof.Machine.execProcessingSlotStart d s
  | .fogSlice d => Sys2Proof.Machine.execFogSlice d s
  | .fogSliceInsert d => Sys2Proof.Machine.execFogSliceInsert d s
  | .fogSliceEnd d found => Sys2Proof.Machine.execFogSliceEnd d found s
  | .grnGangWrite a v => Sys2Proof.Machine.execGrnGangWrite a v s
  | .grnInit a v => Sys2Proof.Machine.execGrnInit a v s
  | .grnInitComplete p => Sys2Proof.Machine.execGrnInitComplete p s
  | .slipGo a v => Sys2Proof.Machine.execSlipGo a v s
  | .slipComplete verifyOk batteryOk => Sys2Proof.Machine.execSlipComplete verifyOk batteryOk s
  | .bootSlip a v => Sys2Proof.Machine.execBootSlip a v s
  | .backdoorRead a off n => Sys2Proof.Machine.execBackdoorRead a off n s
  | .backdoorWrite a off data => Sys2Proof.Machine.execBackdoorWrite a off data s
  | .ucAddrWrite a d v => Sys2Proof.Machine.execUcAddrWrite a d v s
  | .ucDataWrite a d v => Sys2Proof.Machine.execUcDataWrite a d v s
  | .ucodeLock a d => Sys2Proof.Machine.execUcodeLock a d s
  | .bandPush a p bits v => Sys2Proof.Machine.execBandPush a p bits v s
  | .bandFeedStart p => Sys2Proof.Machine.execBandFeedStart p s
  | .enlFlush a p => Sys2Proof.Machine.execEnlFlush a p s
  | .enlRestart a p => Sys2Proof.Machine.execEnlRestart a p s
  | .encoderCount ch a b dt => Sys2Proof.Machine.execEncoderCount ch a b dt s
  | .encoderIndex ch => Sys2Proof.Machine.execEncoderIndex ch s
  | .encoderStall ch => Sys2Proof.Machine.execEncoderStall ch s
  | .pacerTick => Sys2Proof.Machine.execPacerTick s
  | .lineposWrite a v => Sys2Proof.Machine.execLineposWrite a v s
  | .groupFire g headReadsFail => Sys2Proof.Machine.execGroupFire g headReadsFail s
  | .wiredPulseEnd w => Sys2Proof.Machine.execWiredPulseEnd w s
  | .cameraTrigger t => Sys2Proof.Machine.execCameraTrigger t s
  | .fabricTimerExpiry t => Sys2Proof.Machine.execFabricTimerExpiry t s
  | .outputTimerExpiry t => Sys2Proof.Machine.execOutputTimerExpiry t s
  | .outputPulseEnd o => Sys2Proof.Machine.execOutputPulseEnd o s
  | .timerClaim a t v => Sys2Proof.Machine.execTimerClaim a t v s
  | .timerRelease a t v => Sys2Proof.Machine.execTimerRelease a t v s
  | .holdReqWrite a v => Sys2Proof.Machine.execHoldReqWrite a v s
  | .holdResumeWrite a v => Sys2Proof.Machine.execHoldResumeWrite a v s
  | .holdTimerExpiry => Sys2Proof.Machine.execHoldTimerExpiry s
  | .swathArm => Sys2Proof.Machine.execSwathArm s
  | .nozzleMapWrite a v => Sys2Proof.Machine.execNozzleMapWrite a v s
  | .frameSend lane => Sys2Proof.Machine.execFrameSend lane s
  | .ack lane seq => Sys2Proof.Machine.execAck lane seq s
  | .nak lane seq => Sys2Proof.Machine.execNak lane seq s
  | .ackTimeout lane => Sys2Proof.Machine.execAckTimeout lane s
  | .link lane st version heads maxnoz => Sys2Proof.Machine.execLink lane st version heads maxnoz s
  | .tsof lane ttype head len crc payload => Sys2Proof.Machine.execTsof lane ttype head len crc payload s
  | .telStale lane => Sys2Proof.Machine.execTelStale lane s
  | .telRdWrite a v => Sys2Proof.Machine.execTelRdWrite a v s
  | .sfpInsert lane rated => Sys2Proof.Machine.execSfpInsert lane rated s
  | .sfpRemove lane => Sys2Proof.Machine.execSfpRemove lane s
  | .lossOfSignal lane => Sys2Proof.Machine.execLossOfSignal lane s
  | .lossOfAlignment lane => Sys2Proof.Machine.execLossOfAlignment lane s
  | .linkSilenceTimeout lane => Sys2Proof.Machine.execLinkSilenceTimeout lane s
  | .laneRetrain lane => Sys2Proof.Machine.execLaneRetrain lane s
  | .regionSwapRequest a r v => Sys2Proof.Machine.execRegionSwapRequest a r v s
  | .regionExchange r fiPulse => Sys2Proof.Machine.execRegionExchange r fiPulse s
  | .pinOwnerClaim a v => Sys2Proof.Machine.execPinOwnerClaim a v s
  | .pinOwnerRelease a v => Sys2Proof.Machine.execPinOwnerRelease a v s
  | .pinHandoverEnd => Sys2Proof.Machine.execPinHandoverEnd s
  | .fabPass c => Sys2Proof.Machine.execFabPass c s
  | .fabAdd c => Sys2Proof.Machine.execFabAdd c s
  | .fabSub c => Sys2Proof.Machine.execFabSub c s
  | .fabAnd c => Sys2Proof.Machine.execFabAnd c s
  | .fabOr c => Sys2Proof.Machine.execFabOr c s
  | .fabXor c => Sys2Proof.Machine.execFabXor c s
  | .fabAndn c => Sys2Proof.Machine.execFabAndn c s
  | .fabShl c => Sys2Proof.Machine.execFabShl c s
  | .fabShr c => Sys2Proof.Machine.execFabShr c s
  | .fabSar c => Sys2Proof.Machine.execFabSar c s
  | .fabRot c => Sys2Proof.Machine.execFabRot c s
  | .fabMux c => Sys2Proof.Machine.execFabMux c s
  | .fabLtu c => Sys2Proof.Machine.execFabLtu c s
  | .fabEq c => Sys2Proof.Machine.execFabEq c s
  | .fabMin c => Sys2Proof.Machine.execFabMin c s
  | .fabMax c => Sys2Proof.Machine.execFabMax c s
  | .fabCnt c => Sys2Proof.Machine.execFabCnt c s
  | .fabEdge c => Sys2Proof.Machine.execFabEdge c s
  | .fabBit c => Sys2Proof.Machine.execFabBit c s
  | .fabHspop c => Sys2Proof.Machine.execFabHspop c s
  | .fabMacw c => Sys2Proof.Machine.execFabMacw c s
  | .fabSkip c => Sys2Proof.Machine.execFabSkip c s
  | .fabIooe c => Sys2Proof.Machine.execFabIooe c s
  | .cameraLineArrival cam tag planes => Sys2Proof.Machine.execCameraLineArrival cam tag planes s
  | .cameraLineTimeout cam tag => Sys2Proof.Machine.execCameraLineTimeout cam tag s
  | .cameraLinkLost cam connector => Sys2Proof.Machine.execCameraLinkLost cam connector s
  | .cameraMoverLine tag => Sys2Proof.Machine.execCameraMoverLine tag s
  | .tableSwapRequest a v => Sys2Proof.Machine.execTableSwapRequest a v s
  | .reelCreate c => Sys2Proof.Machine.execReelCreate c s
  | .reelWrite c => Sys2Proof.Machine.execReelWrite c s
  | .reelWriteDurable src cmdId => Sys2Proof.Machine.execReelWriteDurable src cmdId s
  | .reelRead c media tags => Sys2Proof.Machine.execReelRead c media tags s
  | .reelDelete c => Sys2Proof.Machine.execReelDelete c s
  | .storeCommandAdmit fn write => Sys2Proof.Machine.execStoreCommandAdmit fn write s
  | .storeDeadlineMiss src cmdId hintUs => Sys2Proof.Machine.execStoreDeadlineMiss src cmdId hintUs s
  | .codewordRead sled cw cls line m => Sys2Proof.Machine.execCodewordRead sled cw cls line m s
  | .flashProgramFail sled => Sys2Proof.Machine.execFlashProgramFail sled s
  | .patrolRead sled cw m => Sys2Proof.Machine.execPatrolRead sled cw m s
  | .refresh u => Sys2Proof.Machine.execRefresh u s
  | .reclaimErase bytes => Sys2Proof.Machine.execReclaimErase bytes s
  | .sledRemoved sled => Sys2Proof.Machine.execSledRemoved sled s
  | .sledNoAnswer sled => Sys2Proof.Machine.execSledNoAnswer sled s
  | .sledInternalFault sled => Sys2Proof.Machine.execSledInternalFault sled s
  | .sledInserted sled rawTB serial healthyReinsert => Sys2Proof.Machine.execSledInserted sled rawTB serial healthyReinsert s
  | .sledOffline a sled => Sys2Proof.Machine.execSledOffline a sled s
  | .rebuildStart => Sys2Proof.Machine.execRebuildStart s
  | .rebuildCheckpoint gb => Sys2Proof.Machine.execRebuildCheckpoint gb s
  | .sledRebuilt => Sys2Proof.Machine.execSledRebuilt s
  | .rebuildPause a => Sys2Proof.Machine.execRebuildPause a s
  | .rebuildResume a => Sys2Proof.Machine.execRebuildResume a s
  | .sqDoorbell fn off v => Sys2Proof.Machine.execSqDoorbell fn off v s
  | .cqDoorbell fn n v => Sys2Proof.Machine.execCqDoorbell fn n v s
  | .eqDoorbell fn v => Sys2Proof.Machine.execEqDoorbell fn v s
  | .ringEnable fn ring v => Sys2Proof.Machine.execRingEnable fn ring v s
  | .ringDisable fn ring v => Sys2Proof.Machine.execRingDisable fn ring v s
  | .descriptorFetch fn n ds hostErr => Sys2Proof.Machine.execDescriptorFetch fn n ds hostErr s
  | .coalesceTimeout fn w => Sys2Proof.Machine.execCoalesceTimeout fn w s
  | .commandDeadline src cmdId estUs => Sys2Proof.Machine.execCommandDeadline src cmdId estUs s
  | .functionLevelReset fn => Sys2Proof.Machine.execFunctionLevelReset fn s
  | .hotReset => Sys2Proof.Machine.execHotReset s
  | .pcieLinkDown => Sys2Proof.Machine.execPcieLinkDown s
  | .bar4Read off n => Sys2Proof.Machine.execBar4Read off n s
  | .bar4Write off data => Sys2Proof.Machine.execBar4Write off data s
  | .jobLoad c => Sys2Proof.Machine.execJobLoad c s
  | .hostLoadRead fn => Sys2Proof.Machine.execHostLoadRead fn s
  | .hostLoadComplete fn => Sys2Proof.Machine.execHostLoadComplete fn s
  | .printStart src desc host restS => Sys2Proof.Machine.execPrintStart src desc host restS s
  | .hold c => Sys2Proof.Machine.execHold c s
  | .resume c => Sys2Proof.Machine.execResume c s
  | .abort c => Sys2Proof.Machine.execAbort c s
  | .calibrate c ok channels illum pixels p => Sys2Proof.Machine.execCalibrate c ok channels illum pixels p s
  | .tableUpdate c arrived => Sys2Proof.Machine.execTableUpdate c arrived s
  | .programChange c => Sys2Proof.Machine.execProgramChange c s
  | .headConfig c lanes nmap port7 => Sys2Proof.Machine.execHeadConfig c lanes nmap port7 s
  | .cameraConfig c cams loop access => Sys2Proof.Machine.execCameraConfig c cams loop access s
  | .scanRange c => Sys2Proof.Machine.execScanRange c s
  | .statusQuery c => Sys2Proof.Machine.execStatusQuery c s
  | .blackboxRead c => Sys2Proof.Machine.execBlackboxRead c s
  | .fwStage c v prog region => Sys2Proof.Machine.execFwStage c v prog region s
  | .fwActivate c => Sys2Proof.Machine.execFwActivate c s
  | .keyWrap c tagOk => Sys2Proof.Machine.execKeyWrap c tagOk s
  | .modeSet c => Sys2Proof.Machine.execModeSet c s
  | .sessionConnect port certOk => Sys2Proof.Machine.execSessionConnect port certOk s
  | .bind k h body permitted => Sys2Proof.Machine.execBind k h body permitted s
  | .submit k h body => Sys2Proof.Machine.execSubmit k h body s
  | .keepalive k => Sys2Proof.Machine.execKeepalive k s
  | .keepaliveSend k => Sys2Proof.Machine.execKeepaliveSend k s
  | .sessionTimeout k => Sys2Proof.Machine.execSessionTimeout k s
  | .sessionClose k => Sys2Proof.Machine.execSessionClose k s
  | .nocRequestArrival p => Sys2Proof.Machine.execNocRequestArrival p s
  | .nocResponseArrival ni dst epoch seq => Sys2Proof.Machine.execNocResponseArrival ni dst epoch seq s
  | .linkDown router south => Sys2Proof.Machine.execLinkDown router south s
  | .requestReplay ni => Sys2Proof.Machine.execRequestReplay ni s
  | .routeWaitTimeout ni dst seq => Sys2Proof.Machine.execRouteWaitTimeout ni dst seq s
  | .routeDataWrite a ni v => Sys2Proof.Machine.execRouteDataWrite a ni v s
  | .commit a => Sys2Proof.Machine.execCommit a s
  | .domainPowerDown ni => Sys2Proof.Machine.execDomainPowerDown ni s
  | .domainWakeComplete ni => Sys2Proof.Machine.execDomainWakeComplete ni s
  | .nodeReset ni => Sys2Proof.Machine.execNodeReset ni s
  | .nodeResetEnd ni => Sys2Proof.Machine.execNodeResetEnd ni s
  | .ddrChannelLoss ch => Sys2Proof.Machine.execDdrChannelLoss ch s
  | .scrubRead m => Sys2Proof.Machine.execScrubRead m s
  | .scanGo a v => Sys2Proof.Machine.execScanGo a v s
  | .scanPassComplete => Sys2Proof.Machine.execScanPassComplete s
  | .eccInit a v => Sys2Proof.Machine.execEccInit a v s
  | .eccInitComplete m => Sys2Proof.Machine.execEccInitComplete m s
  | .flipArm a v => Sys2Proof.Machine.execFlipArm a v s
  | .developerWatchdog d => Sys2Proof.Machine.execDeveloperWatchdog d s
  | .warmRestartComplete d => Sys2Proof.Machine.execWarmRestartComplete d s
  | .drainComplete => Sys2Proof.Machine.execDrainComplete s
  | .drainTimeout => Sys2Proof.Machine.execDrainTimeout s
  | .wake a => Sys2Proof.Machine.execWake a s
  | .wakeOnLan => Sys2Proof.Machine.execWakeOnLan s
  | .wakeIn => Sys2Proof.Machine.execWakeIn s
  | .powerButtonPress => Sys2Proof.Machine.execPowerButtonPress s
  | .powerButtonHold => Sys2Proof.Machine.execPowerButtonHold s
  | .mainsApplied => Sys2Proof.Machine.execMainsApplied s
  | .powerOnReset => Sys2Proof.Machine.execPowerOnReset s
  | .dieReset => Sys2Proof.Machine.execDieReset s
  | .mcWatchdogExpiry => Sys2Proof.Machine.execMcWatchdogExpiry s
  | .bootStageComplete ok fallback patch cust fabFailed => Sys2Proof.Machine.execBootStageComplete ok fallback patch cust fabFailed s
  | .uartImageReceived ok => Sys2Proof.Machine.execUartImageReceived ok s
  | .inletLost u => Sys2Proof.Machine.execInletLost u s
  | .inletRestored u => Sys2Proof.Machine.execInletRestored u s
  | .cartridgeFault u => Sys2Proof.Machine.execCartridgeFault u s
  | .cartridgeRemoved u => Sys2Proof.Machine.execCartridgeRemoved u s
  | .cartridgeInserted u => Sys2Proof.Machine.execCartridgeInserted u s
  | .holdupShutdown => Sys2Proof.Machine.execHoldupShutdown s
  | .holdupReady => Sys2Proof.Machine.execHoldupReady s
  | .holdupNotReady => Sys2Proof.Machine.execHoldupNotReady s
  | .referenceHoldover => Sys2Proof.Machine.execReferenceHoldover s
  | .referenceReturn => Sys2Proof.Machine.execReferenceReturn s
  | .referenceLocked => Sys2Proof.Machine.execReferenceLocked s
  | .ppsEdge => Sys2Proof.Machine.execPpsEdge s
  | .fanFailed fan => Sys2Proof.Machine.execFanFailed fan s
  | .fanRestored fan => Sys2Proof.Machine.execFanRestored fan s
  | .thermalWarning sensor tempC => Sys2Proof.Machine.execThermalWarning sensor tempC s
  | .thermalCritical sensor tempC => Sys2Proof.Machine.execThermalCritical sensor tempC s
  | .thermalCutoff => Sys2Proof.Machine.execThermalCutoff s
  | .filterWarning => Sys2Proof.Machine.execFilterWarning s
  | .fanTrayRemoved => Sys2Proof.Machine.execFanTrayRemoved s
  | .fanTrayInserted => Sys2Proof.Machine.execFanTrayInserted s
  | .digitalInputAccept n level => Sys2Proof.Machine.execDigitalInputAccept n level s
  | .fieldSupplyLow => Sys2Proof.Machine.execFieldSupplyLow s
  | .fieldSupplyRestored levels => Sys2Proof.Machine.execFieldSupplyRestored levels s
  | .outputOverload o => Sys2Proof.Machine.execOutputOverload o s
  | .outputRetry o overload => Sys2Proof.Machine.execOutputRetry o overload s
  | .encPwrOverload ch => Sys2Proof.Machine.execEncPwrOverload ch s
  | .encPwrRetry ch overload => Sys2Proof.Machine.execEncPwrRetry ch overload s
  | .lifecycleRequest a keyHashOk sigOk => Sys2Proof.Machine.execLifecycleRequest a keyHashOk sigOk s
  | .fusesBlown => Sys2Proof.Machine.execFusesBlown s
  | .debugLevelRequest a v => Sys2Proof.Machine.execDebugLevelRequest a v s
  | .unlockChallenge a => Sys2Proof.Machine.execUnlockChallenge a s
  | .unlockGo a => Sys2Proof.Machine.execUnlockGo a s
  | .unlockVerifyComplete sigOk => Sys2Proof.Machine.execUnlockVerifyComplete sigOk s
  | .nonceExpiry => Sys2Proof.Machine.execNonceExpiry s
  | .debugSessionExpiry => Sys2Proof.Machine.execDebugSessionExpiry s
  | .debugHalt a v => Sys2Proof.Machine.execDebugHalt a v s
  | .step a v => Sys2Proof.Machine.execStep a v s
  | .dbgResume a v => Sys2Proof.Machine.execDbgResume a v s
  | .dbgRegisterRead addr => Sys2Proof.Machine.execDbgRegisterRead addr s
  | .dbgRegisterWrite addr v => Sys2Proof.Machine.execDbgRegisterWrite addr v s
  | .dbgMemoryRead addr => Sys2Proof.Machine.execDbgMemoryRead addr s
  | .dbgMemoryWrite addr v => Sys2Proof.Machine.execDbgMemoryWrite addr v s
  | .bypass => Sys2Proof.Machine.execBypass s
  | .idcode => Sys2Proof.Machine.execIdcode s
  | .samplePreload => Sys2Proof.Machine.execSamplePreload s
  | .extest => Sys2Proof.Machine.execExtest s
  | .loupeClaim a v => Sys2Proof.Machine.execLoupeClaim a v s
  | .loupeRelease a v => Sys2Proof.Machine.execLoupeRelease a v s
  | .csRecordWrite => Sys2Proof.Machine.execCsRecordWrite s
  | .csMergeWindowEnd ty source => Sys2Proof.Machine.execCsMergeWindowEnd ty source s
  | .hostTrigger a v => Sys2Proof.Machine.execHostTrigger a v s
  | .traceCommitComplete => Sys2Proof.Machine.execTraceCommitComplete s
  | .idle lane => Sys2Proof.Machine.execIdle lane s
  | .illegalInstruction h => Sys2Proof.Machine.execIllegalInstruction h s
  | .cameraLinkUp cam => Sys2Proof.Machine.execCameraLinkUp cam s
  | .linkLevelRetry router south => Sys2Proof.Machine.execLinkLevelRetry router south s
  | .linkRetrained router south => Sys2Proof.Machine.execLinkRetrained router south s
  | .sledOverTemperature sled => Sys2Proof.Machine.execSledOverTemperature sled s
  | .pcieLinkUp => Sys2Proof.Machine.execPcieLinkUp s

end Sys2Proof.Machine
end

