-- ==== Sys2Proof/Machine/Tick.lean ====
section
/-!
DEFINITION. The passing of time: what one TCLK period with no command does (R313, R315; log 1), and the arbitration of the
on-chip network in its NCLK cycles (R285-R287).
-/

namespace Sys2Proof.Machine

/-- A bucket of R226 fills at RATE MB/s, RATE / 200 bytes a TCLK period, up to BURST MiB. -/
def State.fillBucket (s : State) (rate : Fld) (f : Fin 8) (tok : Int) : Int :=
  min (tok + s.fv rate f) ((Nat.max 1 (s.fv F.JS_QUOTA_BURST f) * 0x10_0000 * 200 : Nat) : Int)

/-! ## Arbitration (R285-R287) -/

/-- The output a packet wants at the router where it stands: its next hop, or the local port at the end of its route. -/
def Flight.output (f : Flight) : Nat :=
  if f.hop < f.pkt.hops.toNat then f.pkt.route.toNat / 4 ^ f.hop % 4 else 4

/-- Flits of a packet: its head, and one for every 32 bytes of data (R278). -/
def Flight.flits (f : Flight) : Nat := 1 + (f.pkt.data.length + 31) / 32

/-- Two packets stand in one buffer: each input of a router has one for each virtual network (R285). -/
def Flight.mate (f g : Flight) : Bool :=
  decide (f.at_ = g.at_ ∧ f.input = g.input) && f.pkt.vn == g.pkt.vn && !g.arrived

/-- A packet competes: it is injected, has not arrived, and stands first in its buffer. -/
def Net.competes (n : Net) (i : Nat) (f : Flight) : Bool :=
  decide (f.ready = 0) && !f.arrived && !(n.flights.take i).any f.mate

/-- How a packet ranks at its output: by highest URG, then by longest wait, then in round robin after the input granted last. -/
def Net.rank (n : Net) (f : Flight) : Nat :=
  let last := (smGet (fun _ => (4, 0)) n.outputs (5 * f.at_ + f.output)).1
  (f.pkt.urg.val * 2 ^ 64 + Nat.min f.waited (2 ^ 64 - 1)) * 8 + (4 - (f.input + 4 - last) % 5)

/-- The output is free in the NCLK period `t`, and the packet outranks every other that competes for it. -/
def Net.granted (n : Net) (t i : Nat) (f : Flight) : Bool :=
  n.competes i f && decide ((smGet (fun _ => (4, 0)) n.outputs (5 * f.at_ + f.output)).2 ≤ t) &&
    (n.flights.zipIdx).all (fun g =>
      g.2 == i || !n.competes g.2 g.1 || decide (g.1.at_ ≠ f.at_ ∨ g.1.output ≠ f.output) ||
        decide (n.rank g.1 < n.rank f) || (decide (n.rank g.1 = n.rank f) && decide (i < g.2)))

/-- A granted packet crosses its link into the opposite input of the next router, is lost with a link that is down (R283), or
arrives through the local port. -/
def Net.crossed (n : Net) (f : Flight) : Option Flight :=
  if f.output = 4 then some { f with arrived := true }
  else if n.down.contains (hopLink f.at_ f.output) then none
  else some { f with at_ := hopTo f.at_ f.output, input := (f.output + 2) % 4, hop := f.hop + 1, waited := 0 }

/-- A packet that is not granted waits: its URG rises by one for every 256 NCLK it has waited, up to 3 (R286). -/
def Flight.waits (f : Flight) : Flight :=
  if f.arrived then f
  else if 0 < f.ready then { f with ready := f.ready - 1 }
  else
    { f with waited := f.waited + 1, total := f.total + 1,
             pkt := if (f.total + 1) % 256 = 0 ∧ f.pkt.urg.val < 3 then { f.pkt with urg := f.pkt.urg + 1 } else f.pkt }

/-- The NCLK period `t`: each router output grants one packet, and holds for the packet's flits (R287). -/
def Net.cycle (n : Net) (t : Nat) : Net :=
  let marked := n.flights.zipIdx.map (fun x => (x.1, n.granted t x.2 x.1))
  { n with
    flights := marked.filterMap (fun x => if x.2 then n.crossed x.1 else some x.1.waits),
    outputs := (marked.filter (fun x => x.2)).foldl (fun m x =>
      smSet (fun _ => (4, 0)) m (5 * x.1.at_ + x.1.output) (x.1.input, t + x.1.flits)) n.outputs }

/-- The NCLK periods, of 3 root PLL periods, that begin within a TCLK period of 20 (R313). -/
def Net.cycles (n : Net) (root : Nat) : Net :=
  if n.flights = [] then n
  else (List.range ((root + 20) / 3 - root / 3)).foldl (fun n k => n.cycle (root / 3 + k)) n

/-- One TCLK period of 5 ns: DEV_TIME counts it in every state but P-Off; in P-Active the root PLL makes 20 periods, the
buckets of the store fill, and packets cross the network (R226, R287, R313, R315, R317). -/
def State.clock (s : State) : State :=
  { s with
    devTime := if s.mode = 0 then s.devTime else s.devTime + 1,
    rootTicks := if s.active then s.rootTicks + 20 else s.rootTicks,
    store := if s.active then
        { s.store with
          readTok := Vector.ofFn (fun f => s.fillBucket F.JS_QUOTA_RD_RATE f s.store.readTok[f]),
          writeTok := Vector.ofFn (fun f => s.fillBucket F.JS_QUOTA_WR_RATE f s.store.writeTok[f]) }
      else s.store,
    net := if s.active then s.net.cycles s.rootTicks else s.net }

/-- A lane that has nothing else to send in the period sends IDLE, and one in TRAINING sends LINK with TRAIN between IDLEs (R169,
R181). -/
def State.laneIdles (s : State) : State :=
  s.forFin 16 (fun l s =>
    let q := s.blocksFrom l s.nowFifths
    if s.laneState l = 1 then ((s.emit (.idle l)).modLane l (fun x => { x with at_ := q.1, blocks := q.2 })).sendBlocks l (.link l 1)
    else if s.laneState l = 2 ∧ q.2 = [] then (s.emit (.idle l)).modLane l (fun x => { x with at_ := q.1, blocks := [] })
    else s)

/-- A tick of the block: the clock, and in P-Active the idle lanes send IDLE, the media age and the oldest admitted read is served (R227, R230). -/
def State.tick (s : State) : State := if s.active then s.clock.laneIdles.ageMedia.serveReels else s.clock

end Sys2Proof.Machine
end

