-- ==== Sys2Proof/Safety.lean ====
section
/-!
DEFINITION. What counts as a safe step and as a well-formed state: the module stops only where a command names an address no unit
has, and every sparse part of its state is in its one canonical form.
-/

namespace Sys2Proof.Machine

/-- The step answers a next state. -/
def safeStep (s : State) : Prop := ∃ t, step s = .next t

/-- A memory is in canonical form. -/
def Mem.wf (m : Mem) : Bool := smWf m.dflt m.words

/-- Every word-organised memory is in canonical form. -/
def Mems.wf (m : Mems) : Bool :=
  m.staging.wf && m.reserve.wf && m.ddr.wf && m.camCorr.wf && m.devI.toList.all Mem.wf && m.devD.toList.all Mem.wf &&
    m.mc.toList.all Mem.wf && smWf (fun _ => (0 : BitVec 32)) m.nmap

/-- The registers are in canonical form. -/
def State.regsWf (s : State) : Bool := smWf regResetKey s.regs

/-- The grain memory's listed planes are in canonical form. -/
def Grains.wf (g : Grains) : Bool := smWf (fun _ => g.base) g.mem

/-- The fuses of `t` are those of `s` with none cleared: every blown bit of the lifecycle fields and minimum versions stays (R330, R331,
R334). -/
def Fuses.kept (s t : Fuses) : Bool :=
  decide (s.lcOpen &&& ~~~t.lcOpen = 0 ∧ s.lcSealed &&& ~~~t.lcSealed = 0 ∧ s.lcReturned &&& ~~~t.lcReturned = 0) &&
    (List.finRange 5).all (fun k : Fin 5 => decide (s.minSvn[k] &&& ~~~t.minSvn[k] = 0))

end Sys2Proof.Machine
end

