-- ==== Sys2Proof/WellFormed.lean ====
section
/-!
DEFINITION. Well-formed commands: a core instruction has an encoding with the operands it carries (R66-R70, R113), a command
descriptor carries its command's opcode (R261), and a command's lengths agree with its data.
-/

namespace Sys2Proof

/-- The conditions that the 2-bit field of a 16-bit form can name (R70). -/
def condShort (c : Cond) : Bool := decide (c = .alw ∨ c = .zs ∨ c = .zc ∨ c = .gor)

/-- The instruction is 32 bits long. -/
def onlyWide (h : Hdr) : Bool := !h.short

/-- The instruction is 32 bits long, or its 16-bit form can carry the operands. -/
def wideOr (h : Hdr) (fits : Bool) : Bool := !h.short || (condShort h.cond && fits)

/-- A signed immediate fits a field of `w` bits. -/
def fitsSigned (w n : Nat) (v : BitVec n) : Bool := decide (-(2 ^ (w - 1) : Int) ≤ v.toInt ∧ v.toInt < 2 ^ (w - 1))

/-- An array instruction that has no masked form carries no `.m` (R113). -/
def unmasked (h : Hdr) (m : Bool) : Bool := onlyWide h && !m

/-- The 16-bit forms of loads and stores go through seg1 with no immediate (R69). -/
def shortMem (h : Hdr) (seg : Fin 8) (imm : BitVec 6) : Bool := wideOr h (decide (seg = 1) && decide (imm = 0))

/-- The descriptor carries the command's opcode (R261). -/
def opcodeIs (c : CmdIn) (n : Nat) : Bool := decide (c.desc.opcode.toNat = n)

/-- The command has an encoding, or is one the outside world can give. -/
def Instr.wellFormed : Instr → Bool
  | .registerWrite _ _ _ _ => true
  | .halfReadLatch _ _ _ => true
  | .fifoRegisterRead _ _ => true
  | .fifoRegisterWrite _ _ _ _ => true
  | .fifoWriteDiscard _ => true
  | .add h rd rs1 _ => wideOr h (decide (rd = rs1))
  | .sub h rd rs1 _ => wideOr h (decide (rd = rs1))
  | .and h rd rs1 _ => wideOr h (decide (rd = rs1))
  | .or h rd rs1 _ => wideOr h (decide (rd = rs1))
  | .xor h rd rs1 _ => wideOr h (decide (rd = rs1))
  | .andn h _ _ _ => onlyWide h
  | .shl h _ _ _ => onlyWide h
  | .shr h _ _ _ => onlyWide h
  | .sar h _ _ _ => onlyWide h
  | .min h _ _ _ => onlyWide h
  | .max h _ _ _ => onlyWide h
  | .minu h _ _ _ => onlyWide h
  | .maxu h _ _ _ => onlyWide h
  | .abs h _ _ => onlyWide h
  | .neg h _ _ => onlyWide h
  | .mov h _ _ => wideOr h true
  | .cmp h _ _ => wideOr h true
  | .cmn h _ _ => onlyWide h
  | .tst h _ _ => onlyWide h
  | .addf h _ _ _ => onlyWide h
  | .subf h _ _ _ => onlyWide h
  | .addi h rd rs1 imm => wideOr h (decide (rd = rs1) && fitsSigned 5 11 imm)
  | .andi h _ _ _ => onlyWide h
  | .ori h _ _ _ => onlyWide h
  | .xori h _ _ _ => onlyWide h
  | .shli h _ _ _ => onlyWide h
  | .shri h _ _ _ => onlyWide h
  | .sari h _ _ _ => onlyWide h
  | .cmpi h _ _ => onlyWide h
  | .movhi h _ _ => onlyWide h
  | .movlo h _ _ => onlyWide h
  | .movi h _ _ => h.short && condShort h.cond
  | .mul h _ _ _ => onlyWide h
  | .mulh h _ _ _ => onlyWide h
  | .mulhu h _ _ _ => onlyWide h
  | .mull h _ _ _ => onlyWide h
  | .mullu h _ _ _ => onlyWide h
  | .dstep h _ _ _ => onlyWide h
  | .crcc h _ _ => onlyWide h
  | .crcp h _ _ => onlyWide h
  | .par h _ _ => onlyWide h
  | .brev h _ _ _ => onlyWide h
  | .mac h _ _ _ => onlyWide h
  | .mach h _ _ _ => onlyWide h
  | .msb h _ _ _ => onlyWide h
  | .msbh h _ _ _ => onlyWide h
  | .aclr h _ => onlyWide h
  | .amov h _ _ => onlyWide h
  | .ashr h _ _ => onlyWide h
  | .sat h _ _ _ => onlyWide h
  | .sath h _ _ _ => onlyWide h
  | .qadd h _ _ _ => onlyWide h
  | .qsub h _ _ _ => onlyWide h
  | .qaddh h _ _ _ => onlyWide h
  | .qsubh h _ _ _ => onlyWide h
  | .qmul h _ _ _ _ => onlyWide h
  | .qmulh h _ _ _ _ => onlyWide h
  | .qsra h _ _ _ _ => onlyWide h
  | .fadd h _ _ _ => onlyWide h
  | .fsub h _ _ _ => onlyWide h
  | .fmul h _ _ _ => onlyWide h
  | .ffma h _ _ _ _ => onlyWide h
  | .ffnma h _ _ _ _ => onlyWide h
  | .fcmp h _ _ => onlyWide h
  | .fmin h _ _ _ => onlyWide h
  | .fmax h _ _ _ => onlyWide h
  | .fabs h _ _ => onlyWide h
  | .fneg h _ _ => onlyWide h
  | .fcvtWs h _ _ => onlyWide h
  | .fcvtSw h _ _ => onlyWide h
  | .frecpe h _ _ => onlyWide h
  | .mfc h _ _ => onlyWide h
  | .mtc h _ _ => onlyWide h
  | .mtseg h _ _ _ => onlyWide h
  | .mfseg h _ _ _ => onlyWide h
  | .fenceRw h => onlyWide h
  | .fenceR h => onlyWide h
  | .fenceW h => onlyWide h
  | .fenceI h => onlyWide h
  | .fbar h => onlyWide h
  | .rett h => onlyWide h
  | .sys h => onlyWide h
  | .brk h => onlyWide h
  | .wfi h => onlyWide h
  | .ldb h _ _ _ _ => onlyWide h
  | .ldh h _ _ _ _ => onlyWide h
  | .ldw h _ seg _ imm => shortMem h seg imm
  | .ldd h _ _ _ _ => onlyWide h
  | .ldbu h _ _ _ _ => onlyWide h
  | .ldhu h _ _ _ _ => onlyWide h
  | .stb h _ _ _ _ => onlyWide h
  | .sth h _ _ _ _ => onlyWide h
  | .stw h _ seg _ imm => shortMem h seg imm
  | .std h _ _ _ _ => onlyWide h
  | .lrw h _ _ _ => onlyWide h
  | .lrd h _ _ _ => onlyWide h
  | .scw h _ _ _ _ => onlyWide h
  | .scd h _ _ _ _ => onlyWide h
  | .b h off => wideOr h (fitsSigned 10 21 off)
  | .bl h _ => onlyWide h
  | .jr h _ => onlyWide h
  | .jalr h _ => onlyWide h
  | .vadd h _ _ _ _ _ _ => onlyWide h
  | .vsub h _ _ _ _ _ _ => onlyWide h
  | .vaddsat h _ _ _ _ _ _ => onlyWide h
  | .vsubsat h _ _ _ _ _ _ => onlyWide h
  | .vaddsatu h _ _ _ _ _ _ => onlyWide h
  | .vsubsatu h _ _ _ _ _ _ => onlyWide h
  | .vmul h _ _ _ _ _ _ => onlyWide h
  | .vmin h _ _ _ _ _ _ => onlyWide h
  | .vmax h _ _ _ _ _ _ => onlyWide h
  | .vminu h _ _ _ _ _ _ => onlyWide h
  | .vmaxu h _ _ _ _ _ _ => onlyWide h
  | .vabs h _ _ _ _ _ => onlyWide h
  | .vdup h _ _ _ _ _ => onlyWide h
  | .vext h _ _ _ _ _ _ => onlyWide h
  | .vins h _ _ _ _ _ _ => onlyWide h
  | .vwiden h _ _ _ _ _ => onlyWide h
  | .vmulq h _ _ _ _ _ _ _ => onlyWide h
  | .vsraRnd h _ _ _ _ _ _ _ => onlyWide h
  | .vnarrowSat h _ _ _ _ _ => onlyWide h
  | .vnarrowSatu h _ _ _ _ _ => onlyWide h
  | .vld h _ _ _ _ _ => onlyWide h
  | .vst h _ _ _ _ _ => onlyWide h
  | .vsplit h _ _ _ _ _ _ => onlyWide h
  | .vmerge h _ _ _ _ _ _ => onlyWide h
  | .interrupt _ _ => true
  | .fpTrap _ => true
  | .machineCheck _ => true
  | .aAdd h _ _ _ _ => onlyWide h
  | .aSub h _ _ _ _ => onlyWide h
  | .aAdds h _ _ _ _ => onlyWide h
  | .aAddIp h _ _ _ _ => onlyWide h
  | .aSubIp h _ _ _ _ => onlyWide h
  | .aMulu h m _ _ _ => unmasked h m
  | .aCmp h m _ _ _ => unmasked h m
  | .aCmpu h m _ _ _ => unmasked h m
  | .aMov h _ _ _ _ => onlyWide h
  | .aMovi h _ _ _ _ => onlyWide h
  | .aNot h _ _ _ _ => onlyWide h
  | .aAnd h _ _ _ _ => onlyWide h
  | .aOr h _ _ _ _ => onlyWide h
  | .aXor h _ _ _ _ => onlyWide h
  | .aAndn h _ _ _ _ => onlyWide h
  | .aShift h _ _ _ _ _ => onlyWide h
  | .aLut h _ _ _ _ => onlyWide h
  | .aAssoc h m _ _ _ => unmasked h m
  | .aPop h m _ _ _ => unmasked h m
  | .aGor h m _ _ _ => unmasked h m
  | .aGld h m _ _ _ => unmasked h m
  | .aGst h m _ _ _ => unmasked h m
  | .aLdf h m _ _ _ => unmasked h m
  | .aStf h _ _ _ _ => onlyWide h
  | .aLdm h m _ _ _ => unmasked h m
  | .aAndm h m _ _ _ => unmasked h m
  | .aSetm h m _ _ _ => unmasked h m
  | .aStm h m _ _ _ => unmasked h m
  | .aNop h m _ _ _ => unmasked h m
  | .aSync h m _ _ _ => unmasked h m
  | .customerInstruction h _ _ _ _ => onlyWide h
  | .systemRoutine h _ _ _ _ => onlyWide h
  | .aiqDispatch _ => true
  | .aiqEntryRetire _ => true
  | .routineOverrun _ => true
  | .gWindowOpen _ => true
  | .gWindowComplete _ => true
  | .processingSlotStart _ => true
  | .fogSlice _ => true
  | .fogSliceInsert _ => true
  | .fogSliceEnd _ _ => true
  | .grnGangWrite _ _ => true
  | .grnInit _ _ => true
  | .grnInitComplete _ => true
  | .slipGo _ _ => true
  | .slipComplete _ _ => true
  | .bootSlip _ _ => true
  | .backdoorRead _ _ n => decide (0 < n)
  | .backdoorWrite _ _ data => decide (data ≠ [])
  | .ucAddrWrite _ _ _ => true
  | .ucDataWrite _ _ _ => true
  | .ucodeLock _ _ => true
  | .bandPush _ _ _ _ => true
  | .bandFeedStart _ => true
  | .enlFlush _ _ => true
  | .enlRestart _ _ => true
  | .encoderCount _ _ _ _ => true
  | .encoderIndex _ => true
  | .encoderStall _ => true
  | .pacerTick => true
  | .lineposWrite _ _ => true
  | .groupFire _ _ => true
  | .wiredPulseEnd _ => true
  | .cameraTrigger _ => true
  | .fabricTimerExpiry _ => true
  | .outputTimerExpiry _ => true
  | .outputPulseEnd _ => true
  | .timerClaim _ _ _ => true
  | .timerRelease _ _ _ => true
  | .holdReqWrite _ _ => true
  | .holdResumeWrite _ _ => true
  | .holdTimerExpiry => true
  | .swathArm => true
  | .nozzleMapWrite _ _ => true
  | .frameSend _ => true
  | .ack _ _ => true
  | .nak _ _ => true
  | .ackTimeout _ => true
  | .link _ _ _ _ _ => true
  | .tsof _ _ _ len _ payload => decide (len < 2 ^ 16 ∧ payload.length = 8 * len)
  | .telStale _ => true
  | .telRdWrite _ _ => true
  | .sfpInsert _ _ => true
  | .sfpRemove _ => true
  | .lossOfSignal _ => true
  | .lossOfAlignment _ => true
  | .linkSilenceTimeout _ => true
  | .laneRetrain _ => true
  | .regionSwapRequest _ _ _ => true
  | .regionExchange _ _ => true
  | .pinOwnerClaim _ _ => true
  | .pinOwnerRelease _ _ => true
  | .pinHandoverEnd => true
  | .fabPass _ => true
  | .fabAdd _ => true
  | .fabSub _ => true
  | .fabAnd _ => true
  | .fabOr _ => true
  | .fabXor _ => true
  | .fabAndn _ => true
  | .fabShl _ => true
  | .fabShr _ => true
  | .fabSar _ => true
  | .fabRot _ => true
  | .fabMux _ => true
  | .fabLtu _ => true
  | .fabEq _ => true
  | .fabMin _ => true
  | .fabMax _ => true
  | .fabCnt _ => true
  | .fabEdge _ => true
  | .fabBit _ => true
  | .fabHspop _ => true
  | .fabMacw _ => true
  | .fabSkip _ => true
  | .fabIooe _ => true
  | .cameraLineArrival _ _ _ => true
  | .cameraLineTimeout _ _ => true
  | .cameraLinkLost _ _ => true
  | .cameraMoverLine _ => true
  | .tableSwapRequest _ _ => true
  | .reelCreate c => opcodeIs c 0x01
  | .reelWrite c => opcodeIs c 0x02
  | .reelWriteDurable _ _ => true
  | .reelRead c _ _ => opcodeIs c 0x03
  | .reelDelete c => opcodeIs c 0x04
  | .storeCommandAdmit _ _ => true
  | .storeDeadlineMiss _ _ _ => true
  | .codewordRead _ _ _ _ _ => true
  | .flashProgramFail _ => true
  | .patrolRead _ _ _ => true
  | .refresh _ => true
  | .reclaimErase _ => true
  | .sledRemoved _ => true
  | .sledNoAnswer _ => true
  | .sledInternalFault _ => true
  | .sledInserted _ _ _ _ => true
  | .sledOffline _ _ => true
  | .rebuildStart => true
  | .rebuildCheckpoint _ => true
  | .sledRebuilt => true
  | .rebuildPause _ => true
  | .rebuildResume _ => true
  | .sqDoorbell _ _ _ => true
  | .cqDoorbell _ _ _ => true
  | .eqDoorbell _ _ => true
  | .ringEnable _ _ _ => true
  | .ringDisable _ _ _ => true
  | .descriptorFetch _ _ _ _ => true
  | .coalesceTimeout _ _ => true
  | .commandDeadline _ _ _ => true
  | .functionLevelReset _ => true
  | .hotReset => true
  | .pcieLinkDown => true
  | .bar4Read _ n => decide (0 < n)
  | .bar4Write _ data => decide (data ≠ [])
  | .jobLoad c => opcodeIs c 0x10
  | .hostLoadRead _ => true
  | .hostLoadComplete _ => true
  | .printStart src d h _ => opcodeIs ⟨src, d, h⟩ 0x11
  | .hold c => opcodeIs c 0x12
  | .resume c => opcodeIs c 0x13
  | .abort c => opcodeIs c 0x14
  | .calibrate c _ _ _ _ _ => opcodeIs c 0x15
  | .tableUpdate c _ => opcodeIs c 0x16
  | .programChange c => opcodeIs c 0x17
  | .headConfig c _ _ _ => opcodeIs c 0x20
  | .cameraConfig c _ _ _ => opcodeIs c 0x21
  | .scanRange c => opcodeIs c 0x30
  | .statusQuery c => opcodeIs c 0x31
  | .blackboxRead c => opcodeIs c 0x32
  | .fwStage c _ _ _ => opcodeIs c 0x40
  | .fwActivate c => opcodeIs c 0x41
  | .keyWrap c _ => opcodeIs c 0x42
  | .modeSet c => opcodeIs c 0x50
  | .sessionConnect _ _ => true
  | .bind _ _ _ _ => true
  | .submit _ _ _ => true
  | .keepalive _ => true
  | .keepaliveSend _ => true
  | .sessionTimeout _ => true
  | .sessionClose _ => true
  | .nocRequestArrival p => decide (p.op ≠ 5) && decide (p.bytes.toNat ≤ 512) && (decide (p.op ≠ 1 ∧ p.op ≠ 3) || decide (p.data.length = p.bytes.toNat))
  | .nocResponseArrival _ _ _ _ => true
  | .linkDown _ _ => true
  | .requestReplay _ => true
  | .routeWaitTimeout _ _ _ => true
  | .routeDataWrite _ _ _ => true
  | .commit _ => true
  | .domainPowerDown _ => true
  | .domainWakeComplete _ => true
  | .nodeReset _ => true
  | .nodeResetEnd _ => true
  | .ddrChannelLoss _ => true
  | .scrubRead _ => true
  | .scanGo _ _ => true
  | .scanPassComplete => true
  | .eccInit _ _ => true
  | .eccInitComplete _ => true
  | .flipArm _ _ => true
  | .developerWatchdog _ => true
  | .warmRestartComplete _ => true
  | .drainComplete => true
  | .drainTimeout => true
  | .wake _ => true
  | .wakeOnLan => true
  | .wakeIn => true
  | .powerButtonPress => true
  | .powerButtonHold => true
  | .mainsApplied => true
  | .powerOnReset => true
  | .dieReset => true
  | .mcWatchdogExpiry => true
  | .bootStageComplete _ _ _ _ _ => true
  | .uartImageReceived _ => true
  | .inletLost _ => true
  | .inletRestored _ => true
  | .cartridgeFault _ => true
  | .cartridgeRemoved _ => true
  | .cartridgeInserted _ => true
  | .holdupShutdown => true
  | .holdupReady => true
  | .holdupNotReady => true
  | .referenceHoldover => true
  | .referenceReturn => true
  | .referenceLocked => true
  | .ppsEdge => true
  | .fanFailed _ => true
  | .fanRestored _ => true
  | .thermalWarning _ _ => true
  | .thermalCritical _ _ => true
  | .thermalCutoff => true
  | .filterWarning => true
  | .fanTrayRemoved => true
  | .fanTrayInserted => true
  | .digitalInputAccept _ _ => true
  | .fieldSupplyLow => true
  | .fieldSupplyRestored _ => true
  | .outputOverload _ => true
  | .outputRetry _ _ => true
  | .encPwrOverload _ => true
  | .encPwrRetry _ _ => true
  | .lifecycleRequest _ _ _ => true
  | .fusesBlown => true
  | .debugLevelRequest _ _ => true
  | .unlockChallenge _ => true
  | .unlockGo _ => true
  | .unlockVerifyComplete _ => true
  | .nonceExpiry => true
  | .debugSessionExpiry => true
  | .debugHalt _ _ => true
  | .step _ _ => true
  | .dbgResume _ _ => true
  | .dbgRegisterRead _ => true
  | .dbgRegisterWrite _ _ => true
  | .dbgMemoryRead _ => true
  | .dbgMemoryWrite _ _ => true
  | .bypass => true
  | .idcode => true
  | .samplePreload => true
  | .extest => true
  | .loupeClaim _ _ => true
  | .loupeRelease _ _ => true
  | .csRecordWrite => true
  | .csMergeWindowEnd _ _ => true
  | .hostTrigger _ _ => true
  | .traceCommitComplete => true
  | .idle _ => true
  | .illegalInstruction _ => true
  | .cameraLinkUp _ => true
  | .linkLevelRetry _ _ => true
  | .linkRetrained _ _ => true
  | .sledOverTemperature _ => true
  | .pcieLinkUp => true

/-- What a core instruction carries; the other commands are none (R66-R70). -/
def Instr.hdr : Instr → Option Hdr
  | .registerWrite _ _ _ _ => none
  | .halfReadLatch _ _ _ => none
  | .fifoRegisterRead _ _ => none
  | .fifoRegisterWrite _ _ _ _ => none
  | .fifoWriteDiscard _ => none
  | .add h _ _ _ => some h
  | .sub h _ _ _ => some h
  | .and h _ _ _ => some h
  | .or h _ _ _ => some h
  | .xor h _ _ _ => some h
  | .andn h _ _ _ => some h
  | .shl h _ _ _ => some h
  | .shr h _ _ _ => some h
  | .sar h _ _ _ => some h
  | .min h _ _ _ => some h
  | .max h _ _ _ => some h
  | .minu h _ _ _ => some h
  | .maxu h _ _ _ => some h
  | .abs h _ _ => some h
  | .neg h _ _ => some h
  | .mov h _ _ => some h
  | .cmp h _ _ => some h
  | .cmn h _ _ => some h
  | .tst h _ _ => some h
  | .addf h _ _ _ => some h
  | .subf h _ _ _ => some h
  | .addi h _ _ _ => some h
  | .andi h _ _ _ => some h
  | .ori h _ _ _ => some h
  | .xori h _ _ _ => some h
  | .shli h _ _ _ => some h
  | .shri h _ _ _ => some h
  | .sari h _ _ _ => some h
  | .cmpi h _ _ => some h
  | .movhi h _ _ => some h
  | .movlo h _ _ => some h
  | .movi h _ _ => some h
  | .mul h _ _ _ => some h
  | .mulh h _ _ _ => some h
  | .mulhu h _ _ _ => some h
  | .mull h _ _ _ => some h
  | .mullu h _ _ _ => some h
  | .dstep h _ _ _ => some h
  | .crcc h _ _ => some h
  | .crcp h _ _ => some h
  | .par h _ _ => some h
  | .brev h _ _ _ => some h
  | .mac h _ _ _ => some h
  | .mach h _ _ _ => some h
  | .msb h _ _ _ => some h
  | .msbh h _ _ _ => some h
  | .aclr h _ => some h
  | .amov h _ _ => some h
  | .ashr h _ _ => some h
  | .sat h _ _ _ => some h
  | .sath h _ _ _ => some h
  | .qadd h _ _ _ => some h
  | .qsub h _ _ _ => some h
  | .qaddh h _ _ _ => some h
  | .qsubh h _ _ _ => some h
  | .qmul h _ _ _ _ => some h
  | .qmulh h _ _ _ _ => some h
  | .qsra h _ _ _ _ => some h
  | .fadd h _ _ _ => some h
  | .fsub h _ _ _ => some h
  | .fmul h _ _ _ => some h
  | .ffma h _ _ _ _ => some h
  | .ffnma h _ _ _ _ => some h
  | .fcmp h _ _ => some h
  | .fmin h _ _ _ => some h
  | .fmax h _ _ _ => some h
  | .fabs h _ _ => some h
  | .fneg h _ _ => some h
  | .fcvtWs h _ _ => some h
  | .fcvtSw h _ _ => some h
  | .frecpe h _ _ => some h
  | .mfc h _ _ => some h
  | .mtc h _ _ => some h
  | .mtseg h _ _ _ => some h
  | .mfseg h _ _ _ => some h
  | .fenceRw h => some h
  | .fenceR h => some h
  | .fenceW h => some h
  | .fenceI h => some h
  | .fbar h => some h
  | .rett h => some h
  | .sys h => some h
  | .brk h => some h
  | .wfi h => some h
  | .ldb h _ _ _ _ => some h
  | .ldh h _ _ _ _ => some h
  | .ldw h _ _ _ _ => some h
  | .ldd h _ _ _ _ => some h
  | .ldbu h _ _ _ _ => some h
  | .ldhu h _ _ _ _ => some h
  | .stb h _ _ _ _ => some h
  | .sth h _ _ _ _ => some h
  | .stw h _ _ _ _ => some h
  | .std h _ _ _ _ => some h
  | .lrw h _ _ _ => some h
  | .lrd h _ _ _ => some h
  | .scw h _ _ _ _ => some h
  | .scd h _ _ _ _ => some h
  | .b h _ => some h
  | .bl h _ => some h
  | .jr h _ => some h
  | .jalr h _ => some h
  | .vadd h _ _ _ _ _ _ => some h
  | .vsub h _ _ _ _ _ _ => some h
  | .vaddsat h _ _ _ _ _ _ => some h
  | .vsubsat h _ _ _ _ _ _ => some h
  | .vaddsatu h _ _ _ _ _ _ => some h
  | .vsubsatu h _ _ _ _ _ _ => some h
  | .vmul h _ _ _ _ _ _ => some h
  | .vmin h _ _ _ _ _ _ => some h
  | .vmax h _ _ _ _ _ _ => some h
  | .vminu h _ _ _ _ _ _ => some h
  | .vmaxu h _ _ _ _ _ _ => some h
  | .vabs h _ _ _ _ _ => some h
  | .vdup h _ _ _ _ _ => some h
  | .vext h _ _ _ _ _ _ => some h
  | .vins h _ _ _ _ _ _ => some h
  | .vwiden h _ _ _ _ _ => some h
  | .vmulq h _ _ _ _ _ _ _ => some h
  | .vsraRnd h _ _ _ _ _ _ _ => some h
  | .vnarrowSat h _ _ _ _ _ => some h
  | .vnarrowSatu h _ _ _ _ _ => some h
  | .vld h _ _ _ _ _ => some h
  | .vst h _ _ _ _ _ => some h
  | .vsplit h _ _ _ _ _ _ => some h
  | .vmerge h _ _ _ _ _ _ => some h
  | .interrupt _ _ => none
  | .fpTrap _ => none
  | .machineCheck _ => none
  | .aAdd h _ _ _ _ => some h
  | .aSub h _ _ _ _ => some h
  | .aAdds h _ _ _ _ => some h
  | .aAddIp h _ _ _ _ => some h
  | .aSubIp h _ _ _ _ => some h
  | .aMulu h _ _ _ _ => some h
  | .aCmp h _ _ _ _ => some h
  | .aCmpu h _ _ _ _ => some h
  | .aMov h _ _ _ _ => some h
  | .aMovi h _ _ _ _ => some h
  | .aNot h _ _ _ _ => some h
  | .aAnd h _ _ _ _ => some h
  | .aOr h _ _ _ _ => some h
  | .aXor h _ _ _ _ => some h
  | .aAndn h _ _ _ _ => some h
  | .aShift h _ _ _ _ _ => some h
  | .aLut h _ _ _ _ => some h
  | .aAssoc h _ _ _ _ => some h
  | .aPop h _ _ _ _ => some h
  | .aGor h _ _ _ _ => some h
  | .aGld h _ _ _ _ => some h
  | .aGst h _ _ _ _ => some h
  | .aLdf h _ _ _ _ => some h
  | .aStf h _ _ _ _ => some h
  | .aLdm h _ _ _ _ => some h
  | .aAndm h _ _ _ _ => some h
  | .aSetm h _ _ _ _ => some h
  | .aStm h _ _ _ _ => some h
  | .aNop h _ _ _ _ => some h
  | .aSync h _ _ _ _ => some h
  | .customerInstruction h _ _ _ _ => some h
  | .systemRoutine h _ _ _ _ => some h
  | .aiqDispatch _ => none
  | .aiqEntryRetire _ => none
  | .routineOverrun _ => none
  | .gWindowOpen _ => none
  | .gWindowComplete _ => none
  | .processingSlotStart _ => none
  | .fogSlice _ => none
  | .fogSliceInsert _ => none
  | .fogSliceEnd _ _ => none
  | .grnGangWrite _ _ => none
  | .grnInit _ _ => none
  | .grnInitComplete _ => none
  | .slipGo _ _ => none
  | .slipComplete _ _ => none
  | .bootSlip _ _ => none
  | .backdoorRead _ _ _ => none
  | .backdoorWrite _ _ _ => none
  | .ucAddrWrite _ _ _ => none
  | .ucDataWrite _ _ _ => none
  | .ucodeLock _ _ => none
  | .bandPush _ _ _ _ => none
  | .bandFeedStart _ => none
  | .enlFlush _ _ => none
  | .enlRestart _ _ => none
  | .encoderCount _ _ _ _ => none
  | .encoderIndex _ => none
  | .encoderStall _ => none
  | .pacerTick => none
  | .lineposWrite _ _ => none
  | .groupFire _ _ => none
  | .wiredPulseEnd _ => none
  | .cameraTrigger _ => none
  | .fabricTimerExpiry _ => none
  | .outputTimerExpiry _ => none
  | .outputPulseEnd _ => none
  | .timerClaim _ _ _ => none
  | .timerRelease _ _ _ => none
  | .holdReqWrite _ _ => none
  | .holdResumeWrite _ _ => none
  | .holdTimerExpiry => none
  | .swathArm => none
  | .nozzleMapWrite _ _ => none
  | .frameSend _ => none
  | .ack _ _ => none
  | .nak _ _ => none
  | .ackTimeout _ => none
  | .link _ _ _ _ _ => none
  | .tsof _ _ _ _ _ _ => none
  | .telStale _ => none
  | .telRdWrite _ _ => none
  | .sfpInsert _ _ => none
  | .sfpRemove _ => none
  | .lossOfSignal _ => none
  | .lossOfAlignment _ => none
  | .linkSilenceTimeout _ => none
  | .laneRetrain _ => none
  | .regionSwapRequest _ _ _ => none
  | .regionExchange _ _ => none
  | .pinOwnerClaim _ _ => none
  | .pinOwnerRelease _ _ => none
  | .pinHandoverEnd => none
  | .fabPass _ => none
  | .fabAdd _ => none
  | .fabSub _ => none
  | .fabAnd _ => none
  | .fabOr _ => none
  | .fabXor _ => none
  | .fabAndn _ => none
  | .fabShl _ => none
  | .fabShr _ => none
  | .fabSar _ => none
  | .fabRot _ => none
  | .fabMux _ => none
  | .fabLtu _ => none
  | .fabEq _ => none
  | .fabMin _ => none
  | .fabMax _ => none
  | .fabCnt _ => none
  | .fabEdge _ => none
  | .fabBit _ => none
  | .fabHspop _ => none
  | .fabMacw _ => none
  | .fabSkip _ => none
  | .fabIooe _ => none
  | .cameraLineArrival _ _ _ => none
  | .cameraLineTimeout _ _ => none
  | .cameraLinkLost _ _ => none
  | .cameraMoverLine _ => none
  | .tableSwapRequest _ _ => none
  | .reelCreate _ => none
  | .reelWrite _ => none
  | .reelWriteDurable _ _ => none
  | .reelRead _ _ _ => none
  | .reelDelete _ => none
  | .storeCommandAdmit _ _ => none
  | .storeDeadlineMiss _ _ _ => none
  | .codewordRead _ _ _ _ _ => none
  | .flashProgramFail _ => none
  | .patrolRead _ _ _ => none
  | .refresh _ => none
  | .reclaimErase _ => none
  | .sledRemoved _ => none
  | .sledNoAnswer _ => none
  | .sledInternalFault _ => none
  | .sledInserted _ _ _ _ => none
  | .sledOffline _ _ => none
  | .rebuildStart => none
  | .rebuildCheckpoint _ => none
  | .sledRebuilt => none
  | .rebuildPause _ => none
  | .rebuildResume _ => none
  | .sqDoorbell _ _ _ => none
  | .cqDoorbell _ _ _ => none
  | .eqDoorbell _ _ => none
  | .ringEnable _ _ _ => none
  | .ringDisable _ _ _ => none
  | .descriptorFetch _ _ _ _ => none
  | .coalesceTimeout _ _ => none
  | .commandDeadline _ _ _ => none
  | .functionLevelReset _ => none
  | .hotReset => none
  | .pcieLinkDown => none
  | .bar4Read _ _ => none
  | .bar4Write _ _ => none
  | .jobLoad _ => none
  | .hostLoadRead _ => none
  | .hostLoadComplete _ => none
  | .printStart _ _ _ _ => none
  | .hold _ => none
  | .resume _ => none
  | .abort _ => none
  | .calibrate _ _ _ _ _ _ => none
  | .tableUpdate _ _ => none
  | .programChange _ => none
  | .headConfig _ _ _ _ => none
  | .cameraConfig _ _ _ _ => none
  | .scanRange _ => none
  | .statusQuery _ => none
  | .blackboxRead _ => none
  | .fwStage _ _ _ _ => none
  | .fwActivate _ => none
  | .keyWrap _ _ => none
  | .modeSet _ => none
  | .sessionConnect _ _ => none
  | .bind _ _ _ _ => none
  | .submit _ _ _ => none
  | .keepalive _ => none
  | .keepaliveSend _ => none
  | .sessionTimeout _ => none
  | .sessionClose _ => none
  | .nocRequestArrival _ => none
  | .nocResponseArrival _ _ _ _ => none
  | .linkDown _ _ => none
  | .requestReplay _ => none
  | .routeWaitTimeout _ _ _ => none
  | .routeDataWrite _ _ _ => none
  | .commit _ => none
  | .domainPowerDown _ => none
  | .domainWakeComplete _ => none
  | .nodeReset _ => none
  | .nodeResetEnd _ => none
  | .ddrChannelLoss _ => none
  | .scrubRead _ => none
  | .scanGo _ _ => none
  | .scanPassComplete => none
  | .eccInit _ _ => none
  | .eccInitComplete _ => none
  | .flipArm _ _ => none
  | .developerWatchdog _ => none
  | .warmRestartComplete _ => none
  | .drainComplete => none
  | .drainTimeout => none
  | .wake _ => none
  | .wakeOnLan => none
  | .wakeIn => none
  | .powerButtonPress => none
  | .powerButtonHold => none
  | .mainsApplied => none
  | .powerOnReset => none
  | .dieReset => none
  | .mcWatchdogExpiry => none
  | .bootStageComplete _ _ _ _ _ => none
  | .uartImageReceived _ => none
  | .inletLost _ => none
  | .inletRestored _ => none
  | .cartridgeFault _ => none
  | .cartridgeRemoved _ => none
  | .cartridgeInserted _ => none
  | .holdupShutdown => none
  | .holdupReady => none
  | .holdupNotReady => none
  | .referenceHoldover => none
  | .referenceReturn => none
  | .referenceLocked => none
  | .ppsEdge => none
  | .fanFailed _ => none
  | .fanRestored _ => none
  | .thermalWarning _ _ => none
  | .thermalCritical _ _ => none
  | .thermalCutoff => none
  | .filterWarning => none
  | .fanTrayRemoved => none
  | .fanTrayInserted => none
  | .digitalInputAccept _ _ => none
  | .fieldSupplyLow => none
  | .fieldSupplyRestored _ => none
  | .outputOverload _ => none
  | .outputRetry _ _ => none
  | .encPwrOverload _ => none
  | .encPwrRetry _ _ => none
  | .lifecycleRequest _ _ _ => none
  | .fusesBlown => none
  | .debugLevelRequest _ _ => none
  | .unlockChallenge _ => none
  | .unlockGo _ => none
  | .unlockVerifyComplete _ => none
  | .nonceExpiry => none
  | .debugSessionExpiry => none
  | .debugHalt _ _ => none
  | .step _ _ => none
  | .dbgResume _ _ => none
  | .dbgRegisterRead _ => none
  | .dbgRegisterWrite _ _ => none
  | .dbgMemoryRead _ => none
  | .dbgMemoryWrite _ _ => none
  | .bypass => none
  | .idcode => none
  | .samplePreload => none
  | .extest => none
  | .loupeClaim _ _ => none
  | .loupeRelease _ _ => none
  | .csRecordWrite => none
  | .csMergeWindowEnd _ _ => none
  | .hostTrigger _ _ => none
  | .traceCommitComplete => none
  | .idle _ => none
  | .illegalInstruction h => some h
  | .cameraLinkUp _ => none
  | .linkLevelRetry _ _ => none
  | .linkRetrained _ _ => none
  | .sledOverTemperature _ => none
  | .pcieLinkUp => none

end Sys2Proof
end

