-- ==== Sys2Proof/Certificates/Slice0/Obligations.lean ====
section
/-!
DEFINITION. The statements for the provers, and the few notions they are stated with.
-/

namespace Sys2Proof.Claims

open Sys2Proof.Machine

/-! ## What the statements are stated with -/

/-- The command answers a next state that has the property. -/
def Answers (c : Instr) (s : State) (p : State → Prop) : Prop := ∃ t, exec c s = .next t ∧ p t

/-- The parts of the state that a frame speaks of. -/
inductive Part where
  | free | out | regs | latches | heldPush | cores | devs | grains | mems | enl | job | sht | lanes | fab | handover | cam
  | store | hst | net | pwr | sec | cs
deriving DecidableEq, Repr

/-- The part is unchanged. -/
def Part.same : Part → State → State → Prop
  | .free, s, t => t.free = s.free
  | .out, s, t => t.out = s.out
  | .regs, s, t => t.regs = s.regs
  | .latches, s, t => t.latches = s.latches
  | .heldPush, s, t => t.heldPush = s.heldPush
  | .cores, s, t => t.cores = s.cores
  | .devs, s, t => t.devs = s.devs
  | .grains, s, t => t.grains = s.grains
  | .mems, s, t => t.mems = s.mems
  | .enl, s, t => t.enl = s.enl
  | .job, s, t => t.job = s.job
  | .sht, s, t => t.sht = s.sht
  | .lanes, s, t => t.lanes = s.lanes
  | .fab, s, t => t.fab = s.fab
  | .handover, s, t => t.handover = s.handover
  | .cam, s, t => t.cam = s.cam
  | .store, s, t => t.store = s.store
  | .hst, s, t => t.hst = s.hst
  | .net, s, t => t.net = s.net
  | .pwr, s, t => t.pwr = s.pwr
  | .sec, s, t => t.sec = s.sec
  | .cs, s, t => t.cs = s.cs

/-- Only the named parts may have changed; the queue, the fuses, DEV_TIME and the clock count have not. -/
def Only (ps : List Part) (s t : State) : Prop :=
  t.pending = s.pending ∧ t.fuses = s.fuses ∧ t.devTime = s.devTime ∧ t.rootTicks = s.rootTicks ∧ ∀ p, p ∉ ps → p.same s t

/-- Only the named registers may have changed. -/
def OnlyRegs (rs : List (RegName × Nat)) (s t : State) : Prop := ∀ r i, i < 1024 → (r, i) ∉ rs → t.reg r i = s.reg r i

/-- The core takes the instruction (R46, R66, R68, R70, R71, R89, R98, R112, R347): it runs, nothing is due at its boundary, the fetch raises nothing and leaves
`t`, the condition is one its kind of core has, waits for no global OR and is true, and none of the registers waits for an array result. -/
structure Takes (s : State) (h : Hdr) (rs : List (Fin 32)) (t : State) : Prop where
  runs : s.coreRuns h.core = true
  boundary : s.boundary h.core = none
  fetch : s.fetch h.core (hdrLen h) = (none, t)
  legal : condIllegal h = false
  settled : t.gorWaits h = false
  holds : t.condHolds h = true
  ready : rs.any (fun r => (t.begin_ h).interlocked h.core r) = false

/-- The state `u` with the queue, the fuses and DEV_TIME of `s`. -/
def settle (s u : State) : State := { u with pending := s.pending, fuses := s.fuses, devTime := s.devTime }

/-- The state after an instruction that has done `f` to its core and nothing else: its offset is traced, the pc has moved past it, and a granted
STEP is used up. -/
def after (s t : State) (h : Hdr) (f : Core → Core) : State := settle s (((t.begin_ h).modCore h.core f).stepped h.core)

/-- The same, where the spec leaves a value open. -/
def afterOpen (s t : State) (h : Hdr) (f : Core → Core) : State :=
  settle s ((((t.begin_ h).modCore h.core f).used).stepped h.core)

/-- The state after an instruction that raised a precise exception before it did anything (R97). -/
def afterTrap (s t : State) (h : Hdr) (e : Exc) : State :=
  settle s (((t.begin_ h).precise h.core e (s.cores[h.core]).pc).stepped h.core)

/-- The core as the instruction finds it, its pc already past it. -/
def coreOf (t : State) (h : Hdr) : Core := (t.begin_ h).cores[h.core]

end Sys2Proof.Claims

open Sys2Proof Sys2Proof.Machine Sys2Proof.Claims

/-! ## The block's step and queue -/

/-- A step with a command at the front of the queue is exec of that command on the state with the queue's rest. -/
def Obligations.StepRunsFront : Prop :=
  ∀ (c : Instr) (rest : List Instr) (s : State),
    step { s with pending := c :: rest } = exec c { s with pending := rest }

/-- R330: the lifecycle state never goes back, whatever command is given, and only the completion of a lifecycle request or a boot stage changes the
fuses at all. -/
def Obligations.LifecycleNeverGoesBack : Prop :=
  ∀ (c : Instr) (s t : State), exec c s = .next t →
    s.fuses.lc ≤ t.fuses.lc ∧ Fuses.kept s.fuses t.fuses = true ∧
    (t.fuses ≠ s.fuses → c = .fusesBlown ∨ ∃ ok fb p cu ff, c = .bootStageComplete ok fb p cu ff)

/-- Every command answers a next state; what no command does to the queue and DEV_TIME; what a step does on an empty queue. -/
def Obligations.EveryCommandAndTheEmptyQueue : Prop :=
  -- Every command answers a next state, whatever the state and its operands: none stops the block by a fault or a refusal.
  (∀ (c : Instr) (s : State), ∃ t, exec c s = .next t) ∧
  -- With nothing waiting a step is one TCLK period (log 1): DEV_TIME counts one unless the die is without power, the queue stays empty and the fuses
  -- stay; outside P-Active nothing else moves, and unless an admitted read is served in it, no register, memory or core changes.
  (∀ s : State, s.pending = [] → ∃ t, step s = .next t ∧ t.pending = [] ∧
    (s.mode ≠ 0 → t.devTime = s.devTime + 1) ∧ (s.mode = 0 → t.devTime = s.devTime) ∧ t.fuses = s.fuses ∧
    (s.active = false → t = { s with devTime := t.devTime }) ∧
    (s.store.reads = [] → t.regs = s.regs ∧ t.mems = s.mems ∧ t.grains = s.grains ∧ t.cores = s.cores ∧ t.devs = s.devs ∧ t.hst = s.hst)) ∧
  -- No command changes the queue of waiting commands.
  (∀ (c : Instr) (s t : State), exec c s = .next t → t.pending = s.pending) ∧
  -- DEV_TIME is moved by no command but those that start the module from P-Off (R315).
  (∀ (c : Instr) (s t : State), exec c s = .next t →
    t.devTime = s.devTime ∨ c = .powerOnReset ∨ c = .mainsApplied ∨ c = .powerButtonPress)

/-! ## Core instructions: integers -/

/-- Comparisons set N, Z, C and V, and the sixteen conditions read them. -/
def Obligations.FlagsAndConditions : Prop :=
  -- R70, R71: the instructions that compare and set flags. N, Z, C and V take the flags of the sum or difference, C meaning no borrow after a
  -- subtraction, Q stays, and no other instruction of this group writes a flag; `tst` leaves C and V open (log 21).
  (let subF (k : Core) (a b : Word) : Core := k.setNZCV (a - b).msb (decide (a = b)) (decide (b ≤ a)) ((a.msb != b.msb) && ((a - b).msb != a.msb))
  let addF (k : Core) (a b : Word) : Core :=
    k.setNZCV (a + b).msb (decide (a + b = 0)) (decide (a + b < a)) ((a.msb == b.msb) && ((a + b).msb != a.msb))
  (∀ (s t : State) (h : Hdr) (a b : Fin 32), Takes s h [a, b] t →
    exec (.cmp h a b) s = .next (after s t h fun k => subF k (k.x a) (k.x b)) ∧
    exec (.cmn h a b) s = .next (after s t h fun k => addF k (k.x a) (k.x b)) ∧
    (∃ c v, exec (.tst h a b) s =
      .next (afterOpen s t h fun k => k.setNZCV (k.x a &&& k.x b).msb (decide (k.x a &&& k.x b = 0)) c v))) ∧
  (∀ (s t : State) (h : Hdr) (a : Fin 32) (imm : BitVec 11), Takes s h [a] t →
    exec (.cmpi h a imm) s = .next (after s t h fun k => subF k (k.x a) (imm.signExtend 32))) ∧
  (∀ (s t : State) (h : Hdr) (rd a b : Fin 32), Takes s h [rd, a, b] t →
    exec (.addf h rd a b) s = .next (after s t h fun k => (addF k (k.x a) (k.x b)).setX rd (k.x a + k.x b)) ∧
    exec (.subf h rd a b) s = .next (after s t h fun k => (subF k (k.x a) (k.x b)).setX rd (k.x a - k.x b)))) ∧
  -- R70: after a comparison of `a` with `b` the sixteen conditions read as the relations of the operands, and GOR and GNOR as the global OR.
  (∀ (k : Core) (a b : Word) (gor : Bool),
    let f := (k.subFlags a b).holds gor
    f .alw = true ∧ f .gor = gor ∧ f .gnor = !gor ∧
    (f .zs = true ↔ a = b) ∧ (f .zc = true ↔ a ≠ b) ∧
    (f .cy = true ↔ b.toNat ≤ a.toNat) ∧ (f .ncy = true ↔ a.toNat < b.toNat) ∧
    (f .ugt = true ↔ b.toNat < a.toNat) ∧ (f .ule = true ↔ a.toNat ≤ b.toNat) ∧
    (f .sge = true ↔ b.toInt ≤ a.toInt) ∧ (f .slt = true ↔ a.toInt < b.toInt) ∧
    (f .sgt = true ↔ b.toInt < a.toInt) ∧ (f .sle = true ↔ a.toInt ≤ b.toInt) ∧
    (f .neg = true ↔ (a - b).toInt < 0) ∧ (f .nneg = true ↔ 0 ≤ (a - b).toInt) ∧
    (f .ov = true ↔ (a - b).toInt ≠ a.toInt - b.toInt))

/-- R82: dstep is one restoring division step, with a 33-bit partial remainder, and C alone of the flags is written; 32 steps from remainder 0 leave
the quotient and the remainder, and with divisor 0 the quotient 0xFFFF_FFFF and the dividend, with no exception. -/
def Obligations.RestoringDivision : Prop :=
  let one (r q d : Word) : Word × Word × Bool :=
    let p : BitVec 33 := (r.setWidth 33 <<< 1) ||| (q >>> 31).setWidth 33
    if d.setWidth 33 ≤ p then ((p - d.setWidth 33).setWidth 32, (q <<< 1) ||| 1, true) else (p.setWidth 32, q <<< 1, false)
  (∀ (s t : State) (h : Hdr) (r q d : Fin 32), Takes s h [r, q, d] t → r ≠ q →
    exec (.dstep h r q d) s = .next (afterOpen s t h fun k =>
      let x := one (k.x r) (k.x q) (k.x d)
      ((k.setX r x.1).setX q x.2.1).setC x.2.2)) ∧
  (∀ n d : Word,
    let x := (List.range 32).foldl (fun (p : Word × Word) _ => ((one p.1 p.2 d).1, (one p.1 p.2 d).2.1)) (0, n)
    (d ≠ 0 → x = (n % d, n / d)) ∧ (d = 0 → x = (n, 0xFFFFFFFF)))

/-- R85: par gives the exclusive-OR of all bits of its operand; brev reverses the low `w` bits, for `w` from 1 to 32, and clears the rest; the spec's
example, 0b0011 with w = 4, gives 0b1100. -/
def Obligations.ParityAndBitReversal : Prop :=
  ∀ (s t : State) (h : Hdr) (rd a : Fin 32) (w : Fin 64), Takes s h [rd, a] t →
    exec (.par h rd a) s = .next (after s t h fun k =>
      k.setX rd (BitVec.ofBool ((List.range 32).foldl (fun p i => p ^^ (k.x a).getLsbD i) false) |>.setWidth 32)) ∧
    (1 ≤ w.val → w.val ≤ 32 → ∃ f : Core → Word, exec (.brev h rd a w) s = .next (after s t h fun k => k.setX rd (f k)) ∧
      (∀ (k : Core) (i : Nat), (f k).getLsbD i = (decide (i < w.val) && (k.x a).getLsbD (w.val - 1 - i))) ∧
      (w.val = 4 → ∀ k : Core, k.x a = 3 → f k = 12))

/-- Integer, immediate, constant, multiply and CRC instructions complete with the result the spec gives. -/
def Obligations.IntegerInstructions : Prop :=
  -- R69: the integer ALU instructions on registers that write one register and no flag. Shifts by 32 or more leave an open value (log 28), `andn` is
  -- a AND NOT b and `abs` wraps at the most negative number (log 26).
  ((∀ (s t : State) (h : Hdr) (rd a b : Fin 32), Takes s h [rd, a, b] t →
    exec (.add h rd a b) s = .next (after s t h fun k => k.setX rd (k.x a + k.x b)) ∧
    exec (.sub h rd a b) s = .next (after s t h fun k => k.setX rd (k.x a - k.x b)) ∧
    exec (.and h rd a b) s = .next (after s t h fun k => k.setX rd (k.x a &&& k.x b)) ∧
    exec (.or h rd a b) s = .next (after s t h fun k => k.setX rd (k.x a ||| k.x b)) ∧
    exec (.xor h rd a b) s = .next (after s t h fun k => k.setX rd (k.x a ^^^ k.x b)) ∧
    exec (.andn h rd a b) s = .next (after s t h fun k => k.setX rd (k.x a &&& ~~~(k.x b))) ∧
    exec (.min h rd a b) s = .next (after s t h fun k => k.setX rd (if (k.x b).toInt < (k.x a).toInt then k.x b else k.x a)) ∧
    exec (.max h rd a b) s = .next (after s t h fun k => k.setX rd (if (k.x a).toInt < (k.x b).toInt then k.x b else k.x a)) ∧
    exec (.minu h rd a b) s = .next (after s t h fun k => k.setX rd (if k.x b < k.x a then k.x b else k.x a)) ∧
    exec (.maxu h rd a b) s = .next (after s t h fun k => k.setX rd (if k.x a < k.x b then k.x b else k.x a)) ∧
    (∃ v, exec (.shl h rd a b) s = .next (afterOpen s t h fun k => k.setX rd (if (k.x b).toNat < 32 then k.x a <<< k.x b else v))) ∧
    (∃ v, exec (.shr h rd a b) s = .next (afterOpen s t h fun k => k.setX rd (if (k.x b).toNat < 32 then k.x a >>> k.x b else v))) ∧
    (∃ v, exec (.sar h rd a b) s =
      .next (afterOpen s t h fun k => k.setX rd (if (k.x b).toNat < 32 then (k.x a).sshiftRight' (k.x b) else v)))) ∧
  (∀ (s t : State) (h : Hdr) (rd a : Fin 32), Takes s h [rd, a] t →
    exec (.abs h rd a) s = .next (after s t h fun k => k.setX rd (BitVec.ofNat 32 (k.x a).toInt.natAbs)) ∧
    exec (.neg h rd a) s = .next (after s t h fun k => k.setX rd (0 - k.x a)) ∧
    exec (.mov h rd a) s = .next (after s t h fun k => k.setX rd (k.x a)))) ∧
  -- R67, R69: the immediate forms, whose immediates are sign-extended, and the constants; movhi leaves the low half open (log 27).
  ((∀ (s t : State) (h : Hdr) (rd a : Fin 32) (imm : BitVec 11), Takes s h [rd, a] t →
    exec (.addi h rd a imm) s = .next (after s t h fun k => k.setX rd (k.x a + imm.signExtend 32)) ∧
    exec (.andi h rd a imm) s = .next (after s t h fun k => k.setX rd (k.x a &&& imm.signExtend 32)) ∧
    exec (.ori h rd a imm) s = .next (after s t h fun k => k.setX rd (k.x a ||| imm.signExtend 32)) ∧
    exec (.xori h rd a imm) s = .next (after s t h fun k => k.setX rd (k.x a ^^^ imm.signExtend 32)) ∧
    (∃ v, exec (.shli h rd a imm) s =
      .next (afterOpen s t h fun k => k.setX rd (if imm.toNat < 32 then k.x a <<< imm.toNat else v))) ∧
    (∃ v, exec (.shri h rd a imm) s =
      .next (afterOpen s t h fun k => k.setX rd (if imm.toNat < 32 then k.x a >>> imm.toNat else v))) ∧
    (∃ v, exec (.sari h rd a imm) s =
      .next (afterOpen s t h fun k => k.setX rd (if imm.toNat < 32 then (k.x a).sshiftRight imm.toNat else v)))) ∧
  (∀ (s t : State) (h : Hdr) (rd : Fin 32) (imm : BitVec 16) (i5 : BitVec 5), Takes s h [rd] t →
    (∃ low : BitVec 16, exec (.movhi h rd imm) s = .next (afterOpen s t h fun k => k.setX rd (imm ++ low))) ∧
    exec (.movlo h rd imm) s = .next (after s t h fun k => k.setX rd (BitVec.ofNat 32 imm.toNat)) ∧
    exec (.movi h rd i5) s = .next (after s t h fun k => k.setX rd (BitVec.ofInt 32 i5.toInt)))) ∧
  -- R69, R81: the multiplications; a doubleword result goes to an even pair, its low word in the named register, and an odd register is illegal.
  ((∀ (s t : State) (h : Hdr) (rd a b : Fin 32), Takes s h [rd, a, b] t →
    exec (.mul h rd a b) s = .next (after s t h fun k => k.setX rd (k.x a * k.x b)) ∧
    exec (.mulh h rd a b) s =
      .next (after s t h fun k => k.setX rd (BitVec.ofInt 32 ((k.x a).toInt * (k.x b).toInt / 2 ^ 32))) ∧
    exec (.mulhu h rd a b) s =
      .next (after s t h fun k => k.setX rd (BitVec.ofNat 32 ((k.x a).toNat * (k.x b).toNat / 2 ^ 32)))) ∧
  (∀ (s t : State) (h : Hdr) (rd hi a b : Fin 32), hi.val = rd.val + 1 → rd.val % 2 = 0 → Takes s h [rd, hi, a, b] t →
    exec (.mull h rd a b) s = .next (after s t h fun k =>
      (k.setX rd (k.x a * k.x b)).setX hi (BitVec.ofInt 32 ((k.x a).toInt * (k.x b).toInt / 2 ^ 32))) ∧
    exec (.mullu h rd a b) s = .next (after s t h fun k =>
      (k.setX rd (k.x a * k.x b)).setX hi (BitVec.ofNat 32 ((k.x a).toNat * (k.x b).toNat / 2 ^ 32)))) ∧
  (∀ (s t : State) (h : Hdr) (rd a b : Fin 32), rd.val % 2 = 1 → Takes s h [rd, rd + 1, a, b] t →
    exec (.mull h rd a b) s = .next (afterTrap s t h { code := 0x02 }) ∧ exec (.mullu h rd a b) s = .next (afterTrap s t h { code := 0x02 }))) ∧
  -- R84: the CRC steps fold the low byte, bit by bit, with the CRC-32C polynomial or that of CORE_CRCPOLY.
  (let bit (poly c : Word) : Word := if c.getLsbD 0 then (c >>> 1) ^^^ poly else c >>> 1
  let crc (poly c b : Word) : Word := Nat.repeat (bit poly) 8 (c ^^^ (b &&& 0xFF))
  ∀ (s t : State) (h : Hdr) (c b : Fin 32), Takes s h [c, b] t →
    exec (.crcc h c b) s = .next (after s t h fun k => k.setX c (crc 0x82F63B78 (k.x c) (k.x b))) ∧
    exec (.crcp h c b) s = .next (after s t h fun k => k.setX c (crc k.crcpoly (k.x c) (k.x b)))) ∧
  -- R84: with initial value and final exclusive-OR 0xFFFF_FFFF, the bytes of "123456789" give 0xE306_9283.
  ((([0x31, 0x32, 0x33, 0x34, 0x35, 0x36, 0x37, 0x38, 0x39] : List Word).foldl (crcFold 0x82F63B78) 0xFFFFFFFF) ^^^ 0xFFFFFFFF = 0xE3069283) ∧
  -- A division step with one register for remainder and quotient runs, and leaves an open value there (log 30).
  (∀ (s t : State) (h : Hdr) (r d : Fin 32), Takes s h [r, d] t →
    ∃ (v : Word) (c : Bool), exec (.dstep h r r d) s = .next (afterOpen s t h fun k => (k.setX r v).setC c)) ∧
  -- A brev whose width is 0 or above 32, which R85 gives no result, is an illegal instruction (log 51).
  (∀ (s t : State) (h : Hdr) (rd a : Fin 32) (w : Fin 64), Takes s h [rd, a] t → w.val = 0 ∨ 32 < w.val →
    exec (.brev h rd a w) s = .next (afterTrap s t h { code := 0x02 }))

/-! ## Core instructions: accumulators, fixed point and floating point -/

/-- A value clamped to a signed range of `w` bits, and whether it lay outside. -/
def Sys2Proof.Claims.clamped (w : Nat) (x : Int) : Int × Bool :=
  (Max.max (-(2 ^ (w - 1))) (Min.min (2 ^ (w - 1) - 1) x), decide (x < -(2 ^ (w - 1)) ∨ 2 ^ (w - 1) ≤ x))

/-- Accumulator and fixed-point instructions: exact, rounded in the effective mode, saturated. -/
def Obligations.FixedPointInstructions : Prop :=
  -- R77: the accumulator instructions. Products of Q1.31 registers, or of the Q1.15 low halves, are shifted into Q1.63 and added or subtracted, with
  -- saturation at 72 bits that sets Q. The spec gives no place to a scalar that amov moves (log 29) and no result of a shift by 72 or more (log 28).
  (let low (v : Word) : Int := (v.setWidth 16).toInt
  let put (k : Core) (a : Fin 4) (x : Int) : Core := Core.setQ { k with a := k.a.set a (BitVec.ofInt 72 (clamped 72 x).1) } (clamped 72 x).2
  (∀ (s t : State) (h : Hdr) (acc : Fin 4) (a b : Fin 32), Takes s h [a, b] t →
    exec (.mac h acc a b) s = .next (after s t h fun k => put k acc ((k.a[acc]).toInt + (k.x a).toInt * (k.x b).toInt * 2)) ∧
    exec (.mach h acc a b) s = .next (after s t h fun k => put k acc ((k.a[acc]).toInt + low (k.x a) * low (k.x b) * 2 ^ 33)) ∧
    exec (.msb h acc a b) s = .next (after s t h fun k => put k acc ((k.a[acc]).toInt - (k.x a).toInt * (k.x b).toInt * 2)) ∧
    exec (.msbh h acc a b) s = .next (after s t h fun k => put k acc ((k.a[acc]).toInt - low (k.x a) * low (k.x b) * 2 ^ 33))) ∧
  (∀ (s t : State) (h : Hdr) (acc b : Fin 4), Takes s h [] t →
    exec (.aclr h acc) s = .next (after s t h fun k => { k with a := k.a.set acc 0 }) ∧
    exec (.amov h acc (.acc b)) s = .next (after s t h fun k => { k with a := k.a.set acc k.a[b] })) ∧
  (∀ (s t : State) (h : Hdr) (acc : Fin 4) (r : Fin 32), Takes s h [r] t →
    (∃ f : Word → BitVec 72, exec (.amov h acc (.scalar r)) s = .next (after s t h fun k => { k with a := k.a.set acc (f (k.x r)) })) ∧
    (∃ v : BitVec 72, exec (.ashr h acc r) s = .next (afterOpen s t h fun k =>
      { k with a := k.a.set acc (if (k.x r).toNat < 72 then (k.a[acc]).sshiftRight (k.x r).toNat else v) })))) ∧
  -- R77: 255 full-scale products of either sign never saturate a cleared accumulator.
  (∀ (k : Core) (acc : Fin 4) (ps : List (Word × Word)), ps.length ≤ 255 → k.a[acc] = 0 →
    let r := ps.foldl (fun (c : Core) p => c.setAcc acc ((c.a[acc]).toInt + macProduct p.1 p.2)) k
    (r.a[acc]).toInt = (ps.map (fun p => macProduct p.1 p.2)).sum ∧ r.flags = k.flags) ∧
  -- R78: the rounding modes. Truncation goes toward minus infinity; half-up and half-even round to nearest, a tie going toward plus infinity or to
  -- the even result; stochastic rounding adds the generator's word with its top bit at dropped bit d - 1.
  (∀ (x : Int) (d : Nat) (l : Word),
    (roundDrop 0 x d l * 2 ^ d ≤ x ∧ x < (roundDrop 0 x d l + 1) * 2 ^ d) ∧
    (let r := roundDrop 1 x d l
     0 ≤ 2 * (x - r * 2 ^ d) + 2 ^ d ∧ 2 * (x - r * 2 ^ d) < 2 ^ d) ∧
    (let r := roundDrop 2 x d l
     0 ≤ 2 * (x - r * 2 ^ d) + 2 ^ d ∧ 2 * (x - r * 2 ^ d) ≤ 2 ^ d ∧ (1 ≤ d → (2 * (x - r * 2 ^ d)).natAbs = 2 ^ d → r % 2 = 0)) ∧
    (1 ≤ d → d ≤ 32 → roundDrop 3 x d l = (x + (l.toNat >>> (32 - d) : Nat)) / 2 ^ d) ∧
    (32 < d → roundDrop 3 x d l = (x + (l.toNat : Int) * 2 ^ (d - 32)) / 2 ^ d)) ∧
  -- R78, R80: the fixed-point instructions: the exact result is rounded in the effective mode (FN 0: CORE_CTL.RND; 1 to 4: truncate, half-up, half-
  -- even, stochastic; 5 to 7 reserved), clamped to its destination, and Q is set when it had to be; a stochastic rounding advances the generator. The
  -- halfword forms work on the low halves (log 31); a qsra by 32 or more leaves an open value (log 28).
  (let low (v : Word) : Int := (v.setWidth 16).toInt
  let put (k : Core) (rd : Fin 32) (w : Nat) (x : Int) : Core := (k.setX rd (BitVec.ofInt 32 (clamped w x).1)).setQ (clamped w x).2
  let modeOf (k : Core) (fn : Fin 8) : Nat := if fn.val = 0 then (k.ctl &&& 3).toNat else fn.val - 1
  let gen (k : Core) (fn : Fin 8) : Core := if modeOf k fn = 3 then { k with lfsr := Nat.repeat lfsrStep 32 k.lfsr } else k
  let rnd (k : Core) (fn : Fin 8) (x : Int) (d : Nat) : Int := roundDrop (modeOf k fn) x d k.lfsr
  (∀ (s t : State) (h : Hdr) (rd a b : Fin 32), Takes s h [rd, a, b] t →
    exec (.qadd h rd a b) s = .next (after s t h fun k => put k rd 32 ((k.x a).toInt + (k.x b).toInt)) ∧
    exec (.qsub h rd a b) s = .next (after s t h fun k => put k rd 32 ((k.x a).toInt - (k.x b).toInt)) ∧
    exec (.qaddh h rd a b) s = .next (after s t h fun k => put k rd 16 (low (k.x a) + low (k.x b))) ∧
    exec (.qsubh h rd a b) s = .next (after s t h fun k => put k rd 16 (low (k.x a) - low (k.x b)))) ∧
  (∀ (s t : State) (h : Hdr) (rd a b : Fin 32) (fn : Fin 8), Takes s h [rd, a, b] t → fn.val ≤ 4 →
    exec (.qmul h rd a b fn) s = .next (after s t h fun k => put (gen k fn) rd 32 (rnd k fn ((k.x a).toInt * (k.x b).toInt) 31)) ∧
    exec (.qmulh h rd a b fn) s = .next (after s t h fun k => put (gen k fn) rd 16 (rnd k fn (low (k.x a) * low (k.x b)) 15)) ∧
    (((coreOf t h).x b).toNat < 32 →
      exec (.qsra h rd a b fn) s = .next (after s t h fun k => put (gen k fn) rd 32 (rnd k fn (k.x a).toInt (k.x b).toNat))) ∧
    (32 ≤ ((coreOf t h).x b).toNat → ∃ v, exec (.qsra h rd a b fn) s = .next (afterOpen s t h fun k => (gen k fn).setX rd v))) ∧
  (∀ (s t : State) (h : Hdr) (rd : Fin 32) (acc : Fin 4) (fn : Fin 8), Takes s h [rd] t → fn.val ≤ 4 →
    exec (.sat h rd acc fn) s = .next (after s t h fun k => put (gen k fn) rd 32 (rnd k fn (k.a[acc]).toInt 32)) ∧
    exec (.sath h rd acc fn) s = .next (after s t h fun k => put (gen k fn) rd 16 (rnd k fn (k.a[acc]).toInt 48))) ∧
  (∀ (s t : State) (h : Hdr) (rd a b : Fin 32) (acc : Fin 4) (fn : Fin 8), 5 ≤ fn.val →
    (Takes s h [rd, a, b] t → exec (.qmul h rd a b fn) s = .next (afterTrap s t h { code := 0x02 }) ∧
      exec (.qmulh h rd a b fn) s = .next (afterTrap s t h { code := 0x02 }) ∧
      exec (.qsra h rd a b fn) s = .next (afterTrap s t h { code := 0x02 })) ∧
    (Takes s h [rd] t → exec (.sat h rd acc fn) s = .next (afterTrap s t h { code := 0x02 }) ∧
      exec (.sath h rd acc fn) s = .next (afterTrap s t h { code := 0x02 }))))

/-- Floating-point instructions complete, accumulate their flags and give the spec's special results. -/
def Obligations.FloatingPointInstructions : Prop :=
  -- R86, R87, R89: every floating-point instruction delivers its IEEE result and sets its flags in CORE_FPSTAT; an enabled one makes a trap pending,
  -- with CORE_FPPC at the instruction, unless one is pending already. ffnma is c - a b (log 7).
  (let raise (k : Core) (h : Hdr) (fl : BitVec 5) : Core :=
    if fl &&& (k.ctl.extractLsb' 8 5) ≠ 0 ∧ k.fpPend = none then
      { k with fpstat := k.fpstat ||| fl.setWidth 32, fpPend := some 0, fppc := k.pc - BitVec.ofNat 32 (hdrLen h) }
    else { k with fpstat := k.fpstat ||| fl.setWidth 32 }
  let put (k : Core) (h : Hdr) (rd : Fin 32) (r : FRes) : Core := raise (k.setX rd r.val) h r.flags
  (∀ (s t : State) (h : Hdr) (rd a b : Fin 32), Takes s h [rd, a, b] t →
    exec (.fadd h rd a b) s = .next (after s t h fun k => put k h rd (fAdd (k.x a) (k.x b))) ∧
    exec (.fsub h rd a b) s = .next (after s t h fun k => put k h rd (fAdd (k.x a) (k.x b ^^^ 0x80000000))) ∧
    exec (.fmul h rd a b) s = .next (after s t h fun k => put k h rd (fMul (k.x a) (k.x b))) ∧
    exec (.fmin h rd a b) s = .next (after s t h fun k => put k h rd (fMinMax false (k.x a) (k.x b))) ∧
    exec (.fmax h rd a b) s = .next (after s t h fun k => put k h rd (fMinMax true (k.x a) (k.x b)))) ∧
  (∀ (s t : State) (h : Hdr) (rd a b c : Fin 32), Takes s h [rd, a, b, c] t →
    exec (.ffma h rd a b c) s = .next (after s t h fun k => put k h rd (fFma (k.x a) (k.x b) (k.x c))) ∧
    exec (.ffnma h rd a b c) s = .next (after s t h fun k => put k h rd (fFma (k.x a ^^^ 0x80000000) (k.x b) (k.x c)))) ∧
  (∀ (s t : State) (h : Hdr) (a b : Fin 32), Takes s h [a, b] t →
    exec (.fcmp h a b) s = .next (after s t h fun k =>
      let r := fCmp (k.x a) (k.x b)
      raise (k.setNZCV r.1 r.2.1 r.2.2.1 r.2.2.2.1) h r.2.2.2.2)) ∧
  (∀ (s t : State) (h : Hdr) (rd a : Fin 32), Takes s h [rd, a] t →
    exec (.fabs h rd a) s = .next (after s t h fun k => put k h rd (fSignOp false (k.x a))) ∧
    exec (.fneg h rd a) s = .next (after s t h fun k => put k h rd (fSignOp true (k.x a))) ∧
    exec (.fcvtWs h rd a) s = .next (after s t h fun k => put k h rd (fToInt (k.x a))) ∧
    exec (.fcvtSw h rd a) s = .next (after s t h fun k => put k h rd (fFromInt (k.x a))) ∧
    exec (.frecpe h rd a) s = .next (after s t h fun k => put k h rd (fRecip (k.x a))))) ∧
  -- R86, R87: a NaN operand gives the default quiet NaN, and a signalling one raises NV; of N, C and V an fcmp sets exactly one, V for unordered
  -- operands, Z only beside C; fcvt.ws gives the nearest limit, or 0 for a NaN, with NV; an integer that binary32 holds exactly converts without a
  -- flag; frecpe gives an infinity with DZ for a zero, a zero for an infinity, of the operand's sign.
  (∀ a b c : Word,
    let isNan (w : Word) : Bool := decide (0x7F800000 < (w &&& 0x7FFFFFFF).toNat)
    let isSig (w : Word) : Bool := isNan w && !(w.getLsbD 22)
    (isNan a ∨ isNan b →
      (fAdd a b).val = 0x7FC00000 ∧ (fMul a b).val = 0x7FC00000 ∧ (fFma a b c).val = 0x7FC00000 ∧
      (fAdd a b).flags = (if isSig a ∨ isSig b then 16 else 0) ∧ (fMul a b).flags = (if isSig a ∨ isSig b then 16 else 0)) ∧
    (isNan c → (fFma a b c).val = 0x7FC00000) ∧
    (isNan a → (fSignOp true a).val = 0x7FC00000 ∧ (fSignOp false a).val = 0x7FC00000 ∧ (fRecip a).val = 0x7FC00000 ∧
      fToInt a = ⟨0, 16⟩) ∧
    (let r := fCmp a b
     (r.2.2.2.1 = true ↔ isNan a ∨ isNan b) ∧ (r.2.1 = true → r.2.2.1 = true) ∧
     ((r.1, r.2.2.1, r.2.2.2.1) = (true, false, false) ∨ (r.1, r.2.2.1, r.2.2.2.1) = (false, true, false) ∨
       (r.1, r.2.2.1, r.2.2.2.1) = (false, false, true))) ∧
    (fToInt 0x7F800000 = ⟨0x7FFFFFFF, 16⟩ ∧ fToInt 0xFF800000 = ⟨0x80000000, 16⟩ ∧ fToInt 0x4F000000 = ⟨0x7FFFFFFF, 16⟩ ∧
      fToInt 0xCF000000 = ⟨0x80000000, 0⟩) ∧
    (a.toInt.natAbs < 2 ^ 24 → (fFromInt a).flags = 0 ∧ fToInt (fFromInt a).val = ⟨a, 0⟩) ∧
    (fRecip 0 = ⟨0x7F800000, 8⟩ ∧ fRecip 0x80000000 = ⟨0xFF800000, 8⟩ ∧ fRecip 0x7F800000 = ⟨0, 0⟩ ∧ fRecip 0xFF800000 = ⟨0x80000000, 0⟩))

/-! ## Core instructions: issue, traps, the system -/

/-- mfc, mtc, mtseg and mfseg, and what each core register holds after a write. -/
def Obligations.CoreRegisters : Prop :=
  -- R73, R74: mfc and mtc of the core registers, by number; a number with no register is illegal, one marked S at level U privileged, and an access
  -- of CORE_FPSTAT with a floating-point trap pending takes that trap first. mtseg and mfseg move a segment's base, limit and rights.
  ((∀ (s t : State) (h : Hdr) (r : Fin 32) (n : Fin 64), Takes s h [r] t →
    let k := coreOf t h
    let sReg : Prop := (6 ≤ n.val ∧ n.val ≤ 12) ∨ n.val = 16
    (16 < n.val → exec (.mfc h r n) s = .next (afterTrap s t h { code := 0x02 }) ∧
      exec (.mtc h n r) s = .next (afterTrap s t h { code := 0x02 })) ∧
    (sReg → k.status.getLsbD 0 = false → exec (.mfc h r n) s = .next (afterTrap s t h { code := 0x03 }) ∧
      exec (.mtc h n r) s = .next (afterTrap s t h { code := 0x03 })) ∧
    (n.val ≤ 16 → (sReg → k.status.getLsbD 0 = true) → (n.val = 2 → k.fpPend = none) →
      exec (.mfc h r n) s = .next (settle s (((((t.begin_ h).coreRegRead h.core n).modCore h.core fun x =>
        x.setX r ((t.begin_ h).coreReg h.core n))).stepped h.core)) ∧
      (n.val ≠ 6 → exec (.mtc h n r) s = .next (after s t h fun x => x.writeReg n (x.x r))) ∧
      (n.val = 6 → ∃ u, exec (.mtc h n r) s = .next u ∧ (u.cores[h.core]).status = (k.x r) &&& 0x13)) ∧
    (n.val = 2 → k.fpPend ≠ none → ∃ u v, exec (.mfc h r n) s = .next u ∧ exec (.mtc h n r) s = .next v ∧
      (u.cores[h.core]).cause = 0x0D ∧ (v.cores[h.core]).cause = 0x0D ∧ (u.cores[h.core]).tpc = (t.cores[h.core]).pc)) ∧
  (∀ (s t : State) (h : Hdr) (seg : Fin 8) (p hi l : Fin 32), hi.val = p.val + 1 → p.val % 2 = 0 → Takes s h [p, hi, l] t →
    let k := coreOf t h
    let pair : DWord := k.x hi ++ k.x p
    (k.status.getLsbD 0 = true → exec (.mtseg h seg p l) s = .next (after s t h fun k => { k with seg := k.seg.set seg (Seg.mk ((pair.setWidth 48 >>> 6) <<< 6) (k.x l)
      (pair.getLsbD 0) (pair.getLsbD 1) (pair.getLsbD 2) (pair.getLsbD 3)) })) ∧
    (k.status.getLsbD 0 = false → exec (.mtseg h seg p l) s = .next (afterTrap s t h { code := 0x03 })) ∧
    (∃ v, exec (.mfseg h p l seg) s = .next (afterOpen s t h fun k =>
      let g := (k.seg[seg] : Seg)
      ((k.setX2 p (segPair g)).setX l (if l = p ∨ l = hi then v else g.limit))))) ∧
  (∀ (s t : State) (h : Hdr) (seg : Fin 8) (p l : Fin 32), p.val % 2 = 1 → Takes s h [p, p + 1, l] t →
    exec (.mtseg h seg p l) s = .next (afterTrap s t h { code := 0x02 }) ∧ exec (.mfseg h p l seg) s = .next (afterTrap s t h { code := 0x02 }))) ∧
  -- R8, R73, R79: what a write of each core register leaves there, and what a read of it gives; reserved bits stay 0, a write of 0 to CORE_LFSR loads
  -- 1, CORE_ID and CORE_CYCLE ignore writes, and a write of either half of CORE_CYCLE ends the hold of its high half (R7). mfseg of what mtseg wrote
  -- gives the pair back, with its reserved bits 0 (R74).
  ((∀ (s : State) (c : Fin 8) (v : Word) (n : Nat),
    let t := s.modCore c (fun k => k.writeReg n v)
    (n = 0 → t.coreReg c 0 = v &&& 0x1F07) ∧ (n = 1 → t.coreReg c 1 = v &&& 0x1F) ∧ (n = 2 → t.coreReg c 2 = v &&& 0x1F) ∧
    (n = 3 → t.coreReg c 3 = if v = 0 then 1 else v) ∧ (n = 4 → t.coreReg c 4 = v) ∧ (n = 5 → t.coreReg c 5 = v) ∧
    (n = 6 → t.coreReg c 6 = v &&& 0x13) ∧ (n = 7 → t.coreReg c 7 = v) ∧ (n = 8 → t.coreReg c 8 = v &&& 0x800007FF) ∧
    (n = 9 → t.coreReg c 9 = v) ∧ (n = 10 → t.coreReg c 10 = v) ∧ (n = 11 → t.coreReg c 11 = v) ∧ (n = 12 → t.coreReg c 12 = v) ∧
    (n = 16 → t.coreReg c 16 = v &&& 3) ∧ (n = 13 → t = s) ∧
    (n = 14 ∨ n = 15 → t = s.modCore c (fun k => { k with cycleLatch := none }) ∧
      t.coreReg c 15 = BitVec.ofNat 32 (s.coreCycles c / 2 ^ 32)) ∧
    (∀ m, m ≤ 16 → m ≠ n → (m = 15 → n ≠ 14) → t.coreReg c m = s.coreReg c m)) ∧
  (∀ (p : DWord) (l : Word), segPair (segOf p l) = p &&& 0x0000FFFFFFFFFFCF ∧ (segOf p l).limit = l))

/-- Trap entry and return, interrupts, machine checks and the system instructions. -/
def Obligations.TrapsAndSystemInstructions : Prop :=
  -- R99: trap entry. CORE_TPC, CORE_CAUSE and for memory faults CORE_FADDR are written, IE and PRIV go to CORE_TSTAT, CORE_STATUS becomes TRAP and
  -- PRIV with interrupts off, the reservation ends, and the core continues at CORE_THANDLER; a Developer's expander stops and its Fog check slice
  -- ends (R53, R123), which lets a gang write put off take effect (R48); a precise exception with TRAP = 1 is machine-check halt; rett brings IE,
  -- PRIV and the pc back and clears TRAP.
  ((∀ (s : State) (c : Fin 8) (e : Exc) (pc : Word), (s.cores[c]).fpPend = none →
    ((s.cores[c]).status.getLsbD 4 = false →
      let t := s.precise c e pc
      let k : Core := s.cores[c]
      t.cores[c] = { k with
        tpc := pc, cause := BitVec.ofNat 32 (e.code + 2 ^ 8 * e.seg), faddr := e.faddr.getD k.faddr, tstat := k.status &&& 3, status := 0x11,
        resv := none, pc := k.thandler } ∧
      (∀ c' : Fin 8, c' ≠ c → t.cores[c'] = s.cores[c']) ∧ Only [.cores, .devs, .grains, .regs] s t ∧ OnlyRegs [(.GRN_GANG, 0)] s t ∧
      (s.grains.gangDeferred = none → Only [.cores, .devs] s t) ∧
      (∀ d : Fin 4, d.val = c.val → ((t.devs[d]).ex.stopped = true ∧ (t.devs[d]).fogRunning = false ∧ (t.devs[d]).aiq = (s.devs[d]).aiq)) ∧
      (4 ≤ c.val → t.devs = s.devs)) ∧
    ((s.cores[c]).status.getLsbD 4 = true →
      ((s.precise c e pc).cores[c]).run ≠ .running ∧ ((s.precise c e pc).cores[c]).resv = none)) ∧
  (∀ (s t : State) (h : Hdr), Takes s h [] t → (coreOf t h).status.getLsbD 0 = true →
    exec (.rett h) s = .next (settle s (((((t.begin_ h).modCore h.core (fun k =>
      { k with status := k.tstat &&& 3, pc := k.tpc })).resumeCore h.core)).stepped h.core))) ∧
  (∀ (s t : State) (h : Hdr), Takes s h [] t → (coreOf t h).status.getLsbD 0 = false →
    exec (.rett h) s = .next (afterTrap s t h { code := 0x03 }) ∧ exec (.wfi h) s = .next (afterTrap s t h { code := 0x03 }))) ∧
  -- R89, R98, R99: INTERRUPT makes the number pending once and ends a wfi; at the boundary of a running core with IE set and nothing else due the
  -- oldest pending interrupt is taken, its number in CORE_CAUSE with INT. FP_TRAP takes a pending trap from the 16th instruction on; MACHINE_CHECK
  -- takes a pending machine check, ahead of everything else, also in the wait of an a.sync, which it leaves to be issued again (R126, log 109).
  (∀ (s : State) (c : Fin 8) (n : BitVec 8),
    let k := (s.cores[c] : Core)
    let entered (u : State) (cause : Word) (tpc : Word) : Prop :=
      (u.cores[c]).cause = cause ∧ (u.cores[c]).tpc = tpc ∧ (u.cores[c]).pc = k.thandler ∧ (u.cores[c]).status = 0x11 ∧
      (u.cores[c]).tstat = k.status &&& 3 ∧ (u.cores[c]).resv = none
    (s.coreRuns c = true → k.mcPend = false → k.fpPend = none → k.status.getLsbD 1 = true → k.ints = [] →
      Answers (.interrupt c n) s fun t => entered t (0x80000000 ||| n.setWidth 32) k.pc ∧ (t.cores[c]).ints = [] ∧
        Only [.cores, .devs, .grains, .regs] s t ∧ OnlyRegs [(.GRN_GANG, 0)] s t) ∧
    (k.run ≠ .wfi → s.coreRuns c = false ∨ (k.mcPend = false ∧ k.fpPend = none ∧ k.status.getLsbD 1 = false) → n ∉ k.ints →
      exec (.interrupt c n) s = .next (s.modCore c fun x => { x with ints := x.ints ++ [n] })) ∧
    (k.run = .wfi → k.mcPend = false → k.fpPend = none → k.status.getLsbD 1 = false → n ∉ k.ints →
      exec (.interrupt c n) s = .next (s.modCore c fun x => { x with ints := x.ints ++ [n], run := .running })) ∧
    (∀ m, k.fpPend = some m → 15 ≤ m → s.coreRuns c = true → k.mcPend = false →
      Answers (.fpTrap c) s fun t => entered t 0x0D k.pc ∧ (t.cores[c]).fpPend = none ∧
        Only [.cores, .devs, .grains, .regs] s t ∧ OnlyRegs [(.GRN_GANG, 0)] s t) ∧
    ((∀ m, k.fpPend = some m → m < 15) → exec (.fpTrap c) s = .next s) ∧
    (k.mcPend = true → s.coreRuns c = true → Answers (.machineCheck c) s fun t => entered t 0x0E k.pc ∧ (t.cores[c]).mcPend = false ∧
      Only [.cores, .devs, .grains, .regs] s t ∧ OnlyRegs [(.GRN_GANG, 0)] s t) ∧
    (k.mcPend = true → k.run = .sync → k.halted = false → Answers (.machineCheck c) s fun t => entered t 0x0E (k.pc - 4) ∧
      (t.cores[c]).mcPend = false ∧ (t.cores[c]).run = .running) ∧
    (k.mcPend = false → exec (.machineCheck c) s = .next s)) ∧
  -- R68, R89, R97, R99, R104: the other system instructions. brk, sys and an unassigned encoding raise their exceptions, sys unless a Developer's
  -- handler asks for a warm restart with it (R357); fence.r completes, and the fences that order stores complete once no store of the core to a FIFO
  -- register waits for room (R103, R294), each other earlier access having been performed with its command (log 32); fbar takes a pending floating-
  -- point trap before it completes; wfi waits at level S until an interrupt is pending.
  (∀ (s t : State) (h : Hdr), Takes s h [] t →
    exec (.brk h) s = .next (afterTrap s t h { code := 0x0B }) ∧
    exec (.illegalInstruction h) s = .next (afterTrap s t h { code := 0x02 }) ∧
    (4 ≤ h.core.val → exec (.sys h) s = .next (afterTrap s t h { code := 0x0C })) ∧
    (∀ hd : h.core.val < 4,
      ((t.begin_ h).ownSramError ⟨h.core.val, hd⟩ = false → exec (.sys h) s = .next (afterTrap s t h { code := 0x0C })) ∧
      ((t.begin_ h).ownSramError ⟨h.core.val, hd⟩ = true →
        exec (.sys h) s = .next (settle s (((t.begin_ h).beginRestart ⟨h.core.val, hd⟩ 2).stepped h.core)))) ∧
    exec (.fenceR h) s = .next (after s t h id) ∧
    ((∀ p ∈ t.heldPush, p.by_ ≠ .core h.core) → exec (.fenceRw h) s = .next (after s t h id) ∧
      exec (.fenceW h) s = .next (after s t h id) ∧ exec (.fenceI h) s = .next (after s t h id)) ∧
    (∀ p ∈ t.heldPush, p.by_ = .core h.core → exec (.fenceRw h) s = .next s ∧ exec (.fenceW h) s = .next s ∧ exec (.fenceI h) s = .next s) ∧
    ((coreOf t h).fpPend = none → exec (.fbar h) s = .next (after s t h id)) ∧
    ((coreOf t h).fpPend ≠ none → ∃ u, exec (.fbar h) s = .next u ∧ (u.cores[h.core]).fpPend = none ∧
      (u.cores[h.core]).cause = 0x0D ∧ (u.cores[h.core]).tpc = (t.cores[h.core]).pc ∧ (u.cores[h.core]).pc = (t.cores[h.core]).thandler) ∧
    ((coreOf t h).status.getLsbD 0 = true →
      exec (.wfi h) s = .next (after s t h fun k => if k.ints = [] then { k with run := .wfi } else k)))

/-! ## Core instructions: memory, branches, vectors -/

namespace Sys2Proof.Claims

/-- An access of `n` bytes at offset `o` passes the checks of R75 and R76, waits for no array instruction, and lies in one memory, at byte `off`
of memory `code`. -/
structure Lands (u : State) (c seg : Fin 8) (o n align : Nat) (r w : Bool) (code off : Nat) : Prop where
  aligned : o % align = 0
  rights : (r = true → (u.cores[c].seg[seg]).r = true) ∧ (w = true → (u.cores[c].seg[seg]).w = true) ∧
    ((u.cores[c]).status.getLsbD 0 = true ∨ (u.cores[c].seg[seg]).u = true)
  limit : o < 2 ^ 32 ∧ o + n ≤ (u.cores[c].seg[seg]).limit.toNat
  order : u.arrayFirst c ((u.cores[c]).phys seg o) n = false
  place : u.placeOf ((u.cores[c]).phys seg o) n = .mem code off

/-- The core's store of `n` bytes is performed: it goes to no Staging region that the core may not write (R139). -/
def MayStore (u : State) (c : Fin 8) (code off n : Nat) : Prop :=
  code = 1 → u.mayStage (coreRouter c) 0 off = true ∧ u.mayStage (coreRouter c) 0 (off + (n - 1)) = true

/-- The state after a core's store of `data` at an internal address that lies at byte `off` of memory `code`: the reservations that others hold on
its granules end, and the bytes are written. -/
def storeAt (u : State) (c : Fin 8) (a code off : Nat) (data : List Byte) : State :=
  (u.breakRange (some c) a data.length).writeBytes (coreRouter c) code off data

end Sys2Proof.Claims

/-- R299: bytes written to a memory with no injection armed for it read back, and every other byte of every memory reads as before; the registers it
touches are the ECC records and their counters. -/
def Obligations.MemoryWrites : Prop :=
  ∀ (s : State) (requester code off : Nat) (data : List Byte), 1 ≤ code → code ≤ 16 → (∀ w, s.flipArmed code w = false) →
    let t := s.writeBytes requester code off data
    (∀ k, k < data.length → t.memByte code (off + k) = data.getD k 0) ∧
    (∀ c a, 1 ≤ c → c ≤ 16 → (c ≠ code ∨ a < off ∨ off + data.length ≤ a) → t.memByte c a = s.memByte c a) ∧
    Only [.mems, .regs, .cs, .free] s t

/-- Loads and stores of every width, their addresses, frames and exceptions. -/
def Obligations.LoadsAndStores : Prop :=
  -- R67, R69, R76: the scalar loads. The offset is RB plus the scaled immediate; the bytes are read little-endian (R4) and sign- or zero-extended; a
  -- doubleword goes to an even pair.
  ((∀ (s t v : State) (h : Hdr) (rd : Fin 32) (seg : Fin 8) (rb : Fin 32) (imm : BitVec 6) (n code off : Nat) (b : List Byte),
    let u := t.begin_ h
    let o := ((coreOf t h).x rb).toNat + n * imm.toNat
    let put (w : Word) : Host.Outcome State Fault Refusal := .next (settle s ((v.modCore h.core fun k => k.setX rd w).stepped h.core))
    Takes s h [rd, rb] t → Lands u h.core seg o n n true false code off → u.readRange (coreRouter h.core) code off n = (false, v) →
    u.memBytes code off n = b →
    (∀ x : BitVec 8, n = 1 → b = [x] → exec (.ldb h rd seg rb imm) s = put (x.signExtend 32) ∧
      exec (.ldbu h rd seg rb imm) s = put (x.setWidth 32)) ∧
    (∀ x y : BitVec 8, n = 2 → b = [x, y] → exec (.ldh h rd seg rb imm) s = put ((y ++ x).signExtend 32) ∧
      exec (.ldhu h rd seg rb imm) s = put ((y ++ x).setWidth 32)) ∧
    (∀ w x y z : BitVec 8, n = 4 → b = [w, x, y, z] → exec (.ldw h rd seg rb imm) s = put (z ++ y ++ x ++ w))) ∧
  (∀ (s t v : State) (h : Hdr) (rd hi : Fin 32) (seg : Fin 8) (rb : Fin 32) (imm : BitVec 6) (code off : Nat),
    let u := t.begin_ h
    hi.val = rd.val + 1 → rd.val % 2 = 0 → Takes s h [rd, hi, rb] t →
    Lands u h.core seg (((coreOf t h).x rb).toNat + 8 * imm.toNat) 8 8 true false code off →
    u.readRange (coreRouter h.core) code off 8 = (false, v) →
    exec (.ldd h rd seg rb imm) s = .next (settle s ((v.modCore h.core fun k =>
      (k.setX rd (BitVec.ofNat 32 (leNat (u.memBytes code off 4)))).setX hi (BitVec.ofNat 32 (leNat (u.memBytes code (off + 4) 4)))).stepped
        h.core)))) ∧
  -- R67, R69, R76, R101: the scalar stores. The low bytes of the register go to memory little-endian, and nothing else of the core changes; what the
  -- write does to the memory is MemoryWrites.
  ((∀ (s t : State) (h : Hdr) (rs : Fin 32) (seg : Fin 8) (rb : Fin 32) (imm : BitVec 6) (n code off : Nat),
    let u := t.begin_ h
    let k := coreOf t h
    let o := (k.x rb).toNat + n * imm.toNat
    let put (data : List Byte) : Host.Outcome State Fault Refusal :=
      .next (settle s ((storeAt u h.core ((u.cores[h.core]).phys seg o) code off data).stepped h.core))
    let byte (j : Nat) : Byte := (k.x rs).extractLsb' (8 * j) 8
    Takes s h [rs, rb] t → Lands u h.core seg o n n false true code off → MayStore u h.core code off n →
    (n = 1 → exec (.stb h rs seg rb imm) s = put [byte 0]) ∧
    (n = 2 → exec (.sth h rs seg rb imm) s = put [byte 0, byte 1]) ∧
    (n = 4 → exec (.stw h rs seg rb imm) s = put [byte 0, byte 1, byte 2, byte 3])) ∧
  (∀ (s t : State) (h : Hdr) (rs hi : Fin 32) (seg : Fin 8) (rb : Fin 32) (imm : BitVec 6) (code off : Nat),
    let u := t.begin_ h
    let k := coreOf t h
    let o := (k.x rb).toNat + 8 * imm.toNat
    hi.val = rs.val + 1 → rs.val % 2 = 0 → Takes s h [rs, hi, rb] t → Lands u h.core seg o 8 8 false true code off → MayStore u h.core code off 8 →
    exec (.std h rs seg rb imm) s = .next (settle s ((storeAt u h.core ((u.cores[h.core]).phys seg o) code off
      ((List.range 4).map (fun j => (k.x rs).extractLsb' (8 * j) 8) ++ (List.range 4).map (fun j => (k.x hi).extractLsb' (8 * j) 8))).stepped
        h.core)))) ∧
  -- R75, R76, R97: what a load or store that fails its checks raises, with no byte read or written: misaligned, then rights, then limit, the segment
  -- in CORE_CAUSE and the offset in CORE_FADDR; an uncorrectable word raises the load exception; at an address no unit has a load's value is open and
  -- a store does nothing (log 4).
  (∀ (s t v : State) (h : Hdr) (rd : Fin 32) (seg : Fin 8) (rb : Fin 32) (imm : BitVec 6) (code off : Nat), Takes s h [rd, rb] t →
    let u := t.begin_ h
    let k := coreOf t h
    let o := (k.x rb).toNat + 4 * imm.toNat
    let g : Seg := k.seg[seg]
    let bad (code : Nat) : Exc := { code := code, seg := seg, faddr := some (BitVec.ofNat 32 o) }
    let usable := (k.status.getLsbD 0 = true ∨ g.u = true)
    (o % 4 ≠ 0 → exec (.ldw h rd seg rb imm) s = .next (afterTrap s t h (bad 0x04)) ∧
      exec (.stw h rd seg rb imm) s = .next (afterTrap s t h (bad 0x04))) ∧
    (o % 4 = 0 → g.r = false ∨ ¬ usable → exec (.ldw h rd seg rb imm) s = .next (afterTrap s t h (bad 0x05))) ∧
    (o % 4 = 0 → g.w = false ∨ ¬ usable → exec (.stw h rd seg rb imm) s = .next (afterTrap s t h (bad 0x05))) ∧
    (o % 4 = 0 → usable → 2 ^ 32 ≤ o ∨ g.limit.toNat < o + 4 →
      (g.r = true → exec (.ldw h rd seg rb imm) s = .next (afterTrap s t h (bad 0x06))) ∧
      (g.w = true → exec (.stw h rd seg rb imm) s = .next (afterTrap s t h (bad 0x06)))) ∧
    (Lands u h.core seg o 4 4 true false code off → u.readRange (coreRouter h.core) code off 4 = (true, v) →
      exec (.ldw h rd seg rb imm) s = .next (settle s ((v.precise h.core (bad 0x07) (s.cores[h.core]).pc).stepped h.core))) ∧
    (o % 4 = 0 → usable → o + 4 ≤ g.limit.toNat → o < 2 ^ 32 → u.arrayFirst h.core (k.phys seg o) 4 = false → u.placeOf (k.phys seg o) 4 = .hole →
      (g.r = true → ∃ x, exec (.ldw h rd seg rb imm) s = .next (afterOpen s t h fun k => k.setX rd x)) ∧
      (g.w = true → exec (.stw h rd seg rb imm) s = .next (after s t h id))) ∧
    (rd.val % 2 = 1 → Takes s h [rd, rd + 1, rb] t → exec (.ldd h rd seg rb imm) s = .next (afterTrap s t h { code := 0x02 }) ∧
      exec (.std h rd seg rb imm) s = .next (afterTrap s t h { code := 0x02 })))

/-- Load-reserved and store-conditional, and what ends a reservation. -/
def Obligations.Atomics : Prop :=
  -- R100: a load-reserve loads and sets the reservation of the aligned 8-byte granule; a store-conditional stores and writes 0 while that reservation
  -- is held, and otherwise writes 1 and stores nothing; the reservation ends in either case. Both are supported on the core and Developer SRAMs and
  -- DDR5.
  ((∀ (s t v : State) (h : Hdr) (rd : Fin 32) (seg : Fin 8) (ra : Fin 32) (code off : Nat), Takes s h [rd, ra] t →
    let u := t.begin_ h
    let k := coreOf t h
    let o := (k.x ra).toNat
    Lands u h.core seg o 4 4 true true code off → code = 3 ∨ (4 ≤ code ∧ code ≤ 15) → u.readRange (coreRouter h.core) code off 4 = (false, v) →
    exec (.lrw h rd seg ra) s = .next (settle s ((v.modCore h.core fun x =>
      { x.setX rd (BitVec.ofNat 32 (leNat (u.memBytes code off 4))) with resv := some (k.phys seg o / 8) }).stepped h.core))) ∧
  (∀ (s t v : State) (h : Hdr) (rd hi : Fin 32) (seg : Fin 8) (ra : Fin 32) (code off : Nat), hi.val = rd.val + 1 → rd.val % 2 = 0 →
    Takes s h [rd, hi, ra] t →
    let u := t.begin_ h
    let k := coreOf t h
    let o := (k.x ra).toNat
    Lands u h.core seg o 8 8 true true code off → code = 3 ∨ (4 ≤ code ∧ code ≤ 15) → u.readRange (coreRouter h.core) code off 8 = (false, v) →
    exec (.lrd h rd seg ra) s = .next (settle s ((v.modCore h.core fun x =>
      { x.setX2 rd (BitVec.ofNat 64 (leNat (u.memBytes code off 8))) with resv := some (k.phys seg o / 8) }).stepped h.core))) ∧
  (∀ (s t : State) (h : Hdr) (rd rs hi : Fin 32) (seg : Fin 8) (ra : Fin 32) (code off : Nat),
    let u := (t.begin_ h).modCore h.core fun x => { x with resv := none }
    let k := coreOf t h
    let o := (k.x ra).toNat
    let a := k.phys seg o
    let fail : Host.Outcome State Fault Refusal := .next (settle s ((u.modCore h.core fun x => x.setX rd 1).stepped h.core))
    let succeed (data : List Byte) : Host.Outcome State Fault Refusal :=
      .next (settle s (((storeAt u h.core a code off data).modCore h.core fun x => x.setX rd 0).stepped h.core))
    code = 3 ∨ (4 ≤ code ∧ code ≤ 15) →
    (Takes s h [rd, rs, ra] t → Lands u h.core seg o 4 4 true true code off →
      (k.resv ≠ some (a / 8) → exec (.scw h rd rs seg ra) s = fail) ∧
      (k.resv = some (a / 8) → exec (.scw h rd rs seg ra) s = succeed (leBytes (k.x rs).toNat 4))) ∧
    (hi.val = rs.val + 1 → rs.val % 2 = 0 → Takes s h [rd, rs, hi, ra] t → Lands u h.core seg o 8 8 true true code off →
      (k.resv ≠ some (a / 8) → exec (.scd h rd rs seg ra) s = fail) ∧
      (k.resv = some (a / 8) → exec (.scd h rd rs seg ra) s = succeed (leBytes (k.x2 rs).toNat 8)))) ∧
  (∀ (s t : State) (h : Hdr) (rd rs : Fin 32) (seg : Fin 8) (ra : Fin 32), 
    let u := t.begin_ h
    let o := ((coreOf t h).x ra).toNat
    ∀ code off, Lands u h.core seg o 4 4 true true code off → code = 1 ∨ code = 2 →
    (Takes s h [rd, ra] t → exec (.lrw h rd seg ra) s = .next (afterTrap s t h { code := 0x08, seg := seg, faddr := some (BitVec.ofNat 32 o) })) ∧
    (Takes s h [rd, rs, ra] t →
      exec (.scw h rd rs seg ra) s = .next (afterTrap s t h { code := 0x08, seg := seg, faddr := some (BitVec.ofNat 32 o) })))) ∧
  -- R101: what ends a reservation beside a load-reserve and a store-conditional of the same core: a store by another agent to the granule, trap and
  -- interrupt entry, a debug halt, and a reset of the node; a core's own plain store does not.
  ((∀ (s : State) (by_ : Option (Fin 8)) (a n : Nat) (c : Fin 8) (g : Nat), (s.cores[c]).resv = some g →
    (by_ ≠ some c → a / 8 ≤ g → g ≤ (a + n - 1) / 8 → 0 < n → ((s.breakRange by_ a n).cores[c]).resv = none) ∧
    (by_ = some c ∨ n = 0 ∨ g < a / 8 ∨ (a + n - 1) / 8 < g → ((s.breakRange by_ a n).cores[c]).resv = some g)) ∧
  (∀ (s : State) (c : Fin 8) (cause : Word) (f : Option Word) (tpc : Word), ((s.enter c cause f tpc).cores[c]).resv = none) ∧
  (∀ (s : State) (c : Fin 8), ((s.haltCore c).cores[c]).resv = none ∧ ((s.resetCore c).cores[c]).resv = none))

/-- Branches, the return address, and what a fetch checks. -/
def Obligations.BranchesAndFetch : Prop :=
  -- R67, R69, R72: the branches. A target is the branch's own address plus twice the sign-extended offset; bl and jalr write the address of the next
  -- instruction to s31, and jalr reads its register before that.
  ((∀ (s t : State) (h : Hdr) (off : BitVec 21), Takes s h [] t →
    exec (.b h off) s = .next (after s t h fun k => { k with pc := (t.cores[h.core]).pc + BitVec.ofInt 32 (2 * off.toInt) })) ∧
  (∀ (s t : State) (h : Hdr) (off : BitVec 21), Takes s h [31] t →
    exec (.bl h off) s = .next (after s t h fun k =>
      { k.setX 31 ((t.cores[h.core]).pc + (if h.short then 2 else 4)) with pc := (t.cores[h.core]).pc + BitVec.ofInt 32 (2 * off.toInt) })) ∧
  (∀ (s t : State) (h : Hdr) (r : Fin 32), Takes s h [r] t →
    exec (.jr h r) s = .next (after s t h fun k => { k with pc := k.x r })) ∧
  (∀ (s t : State) (h : Hdr) (r : Fin 32), Takes s h [r, 31] t →
    exec (.jalr h r) s = .next (after s t h fun k =>
      { k.setX 31 ((t.cores[h.core]).pc + (if h.short then 2 else 4)) with pc := k.x r }))) ∧
  -- R66, R68, R74, R75, R98: the fetch. An odd address is misaligned; the code segment is seg7 at level S and seg0 at level U; rights come before the
  -- limit, which the whole instruction must keep; an uncorrectable word raises the fetch exception.
  (∀ (s : State) (c : Fin 8) (len code off : Nat),
    let k : Core := s.cores[c]
    let i : Fin 8 := if k.status.getLsbD 0 then 7 else 0
    let g : Seg := k.seg[i]
    let bad (code : Nat) : Option Exc := some { code := code, seg := i, faddr := some k.pc }
    (k.pc.toNat % 2 = 1 → s.fetch c len = (bad 0x04, s)) ∧
    (k.pc.toNat % 2 = 0 → g.x = false ∨ (k.status.getLsbD 0 = false ∧ g.u = false) → s.fetch c len = (bad 0x05, s)) ∧
    (k.pc.toNat % 2 = 0 → g.x = true → k.status.getLsbD 0 = true ∨ g.u = true →
      (g.limit.toNat < k.pc.toNat + len → s.fetch c len = (bad 0x06, s)) ∧
      (k.pc.toNat + len ≤ g.limit.toNat → s.place (g.base.toNat + k.pc.toNat) = .mem code off →
        s.fetch c len = (if (s.readRange (coreRouter c) code off len).1 then bad 0x01 else none, (s.readRange (coreRouter c) code off len).2))))

/-- Vector integer and fixed-point instructions, element by element, and their illegal forms. -/
def Obligations.VectorInstructions : Prop :=
  -- R69, R92, R94: the element-wise vector instructions on two groups, in a form that R92 allows, started at CORE_VSTART 0: every element of the
  -- destination group takes its result modulo its size, Q is set when an element saturated, the registers outside the group stay, and CORE_VSTART is
  -- 0.
  (∀ (s t : State) (h : Hdr) (esz grp : Fin 4) (vd a b : Fin 16), Takes s h [] t → esz.val ≤ 2 → grp.val ≤ 2 →
    vd.val % 2 ^ grp.val = 0 → a.val % 2 ^ grp.val = 0 → b.val % 2 ^ grp.val = 0 → (coreOf t h).vstart = 0 →
    let w := 8 * 2 ^ esz.val
    let k := coreOf t h
    let sat (x : Int) : Int × Bool := clamped w x
    let satu (x : Int) : Int × Bool := (Max.max 0 (Min.min (2 ^ w - 1) x), decide (x < 0 ∨ 2 ^ w ≤ x))
    let does (c : Instr) (op : Nat → Int × Bool) : Prop := Answers c s fun u => ∃ k' : Core,
      u = afterOpen s t h (fun _ => k') ∧ k' = { k with v := k'.v, flags := k'.flags, vstart := 0 } ∧
      (∀ i, i < 2 ^ grp.val * 128 / w → (k'.elemU vd w i : Int) = (op i).1 % 2 ^ w) ∧
      (∀ r : Fin 16, r.val < vd.val ∨ vd.val + 2 ^ grp.val ≤ r.val → k'.v[r] = k.v[r]) ∧
      k'.flags = (if (List.range (2 ^ grp.val * 128 / w)).any (fun i => (op i).2) then k.flags ||| 0x10 else k.flags)
    let x (i : Nat) : Int := k.elemS a w i
    let y (i : Nat) : Int := k.elemS b w i
    let xu (i : Nat) : Int := k.elemU a w i
    let yu (i : Nat) : Int := k.elemU b w i
    does (.vadd h esz grp false vd a b) (fun i => (xu i + yu i, false)) ∧
    does (.vsub h esz grp false vd a b) (fun i => (xu i - yu i, false)) ∧
    does (.vmul h esz grp false vd a b) (fun i => (xu i * yu i, false)) ∧
    does (.vaddsat h esz grp false vd a b) (fun i => sat (x i + y i)) ∧
    does (.vsubsat h esz grp false vd a b) (fun i => sat (x i - y i)) ∧
    does (.vaddsatu h esz grp false vd a b) (fun i => satu (xu i + yu i)) ∧
    does (.vsubsatu h esz grp false vd a b) (fun i => satu (xu i - yu i)) ∧
    does (.vmin h esz grp false vd a b) (fun i => (Min.min (x i) (y i), false)) ∧
    does (.vmax h esz grp false vd a b) (fun i => (Max.max (x i) (y i), false)) ∧
    does (.vminu h esz grp false vd a b) (fun i => (Min.min (xu i) (yu i), false)) ∧
    does (.vmaxu h esz grp false vd a b) (fun i => (Max.max (xu i) (yu i), false))) ∧
  -- R69, R78, R92, R94, R96: the other vector instructions complete in every form that R92 allows, from any CORE_VSTART, and leave CORE_VSTART 0; of
  -- the core they change the vector registers of their destination group (vext: one scalar register), and the flag Q and the stochastic generator
  -- where they saturate or round. Results the spec does not state are open (log 20, log 28).
  (∀ (s t : State) (h : Hdr) (esz grp mode : Fin 4) (ro : Bool) (vd a b : Fin 16) (r : Fin 32) (idx : Fin 64), esz.val ≤ 2 → grp.val ≤ 2 →
    vd.val % 2 ^ grp.val = 0 → a.val % 2 ^ grp.val = 0 → b.val % 2 ^ grp.val = 0 →
    let k := coreOf t h
    let g := 2 ^ grp.val
    let does (c : Instr) (n : Nat) (p : Core → Prop) : Prop := ∃ k' : Core,
      exec c s = .next (afterOpen s t h (fun _ => k')) ∧ k' = { k with v := k'.v, flags := k'.flags, lfsr := k'.lfsr, s := k'.s, vstart := 0 } ∧
      k'.flags ||| 0x10 = k.flags ||| 0x10 ∧ (∀ x : Fin 16, x.val < vd.val ∨ vd.val + n ≤ x.val → k'.v[x] = k.v[x]) ∧ p k'
    let scalarsSame (k' : Core) : Prop := k'.s = k.s
    (Takes s h [] t →
      does (.vabs h esz grp false vd a) g scalarsSame ∧
      does (.vmulq h esz grp ro mode vd a b) g scalarsSame ∧ does (.vsraRnd h esz grp ro mode vd a b) g scalarsSame ∧
      (esz.val < 2 → does (.vwiden h esz grp false vd a) g scalarsSame) ∧
      (1 ≤ esz.val → does (.vnarrowSat h esz grp ro vd a) ((g + 1) / 2) scalarsSame ∧ does (.vnarrowSatu h esz grp ro vd a) ((g + 1) / 2) scalarsSame)) ∧
    (Takes s h [r] t →
      does (.vdup h esz grp false vd r) g (fun k' => scalarsSame k' ∧
        (k.vstart = 0 → ∀ i, i < g * 128 / (8 * 2 ^ esz.val) → k'.elemU vd (8 * 2 ^ esz.val) i = (k.x r).toNat % 2 ^ (8 * 2 ^ esz.val))) ∧
      does (.vins h esz grp false vd r idx) g (fun k' => scalarsSame k' ∧
        (idx.val < g * 128 / (8 * 2 ^ esz.val) → k'.elemU vd (8 * 2 ^ esz.val) idx = (k.x r).toNat % 2 ^ (8 * 2 ^ esz.val))) ∧
      does (.vext h esz grp false r a idx) 0 (fun k' => k'.v = k.v ∧ k'.flags = k.flags ∧ (∀ q, q ≠ r → k'.x q = k.x q) ∧
        (idx.val < g * 128 / (8 * 2 ^ esz.val) →
          (k'.x r).toNat % 2 ^ (8 * 2 ^ esz.val) = k.elemU a (8 * 2 ^ esz.val) idx)))) ∧
  -- R68, R78, R92, R95: the vector forms that are no instruction: an element size or group code of 3, RO set outside the fixed-point forms, a base
  -- that is no multiple of the group, and planes past v15.
  (∀ (s t : State) (h : Hdr) (esz grp : Fin 4) (ro : Bool) (mode : Fin 4) (vd a b : Fin 16) (seg : Fin 8) (rb : Fin 32) (nf : Fin 8),
    let ill : Host.Outcome State Fault Refusal := .next (afterTrap s t h { code := 0x02 })
    (esz = 3 ∨ grp = 3 ∨ vd.val % 2 ^ grp.val ≠ 0 ∨ a.val % 2 ^ grp.val ≠ 0 ∨ b.val % 2 ^ grp.val ≠ 0 → Takes s h [] t →
      exec (.vadd h esz grp ro vd a b) s = ill ∧ exec (.vmulq h esz grp ro mode vd a b) s = ill ∧
      exec (.vsraRnd h esz grp ro mode vd a b) s = ill) ∧
    (Takes s h [] t → exec (.vadd h esz grp true vd a b) s = ill ∧ exec (.vmin h esz grp true vd a b) s = ill ∧
      exec (.vwiden h 2 grp false vd a) s = ill ∧ exec (.vnarrowSat h 0 grp false vd a) s = ill) ∧
    (esz = 3 ∨ grp = 3 ∨ vd.val % 2 ^ grp.val ≠ 0 ∨ 16 < vd.val + (nf.val + 1) * 2 ^ grp.val → Takes s h [rb] t →
      exec (.vsplit h seg rb esz grp nf vd) s = ill ∧ exec (.vmerge h seg rb esz grp nf vd) s = ill))

/-- R95, R96: the vector memory instructions transfer elements CORE_VSTART to F g 16 / n - 1, in ascending address order, element e being element e
div F of plane e mod F, and leave CORE_VSTART 0; an exception at element e leaves e there, with the elements below it done, and CORE_TPC at the
instruction. -/
def Obligations.VectorMemory : Prop :=
  (∀ (s t v : State) (h : Hdr) (seg : Fin 8) (rb : Fin 32) (esz grp : Fin 4) (nf : Fin 8) (vd : Fin 16), Takes s h [rb] t →
    esz.val ≤ 2 → grp.val ≤ 2 → vd.val % 2 ^ grp.val = 0 → vd.val + (nf.val + 1) * 2 ^ grp.val ≤ 16 →
    let u := t.begin_ h
    let n := 2 ^ esz.val
    let g := 2 ^ grp.val
    let base := ((coreOf t h).x rb).toNat
    let es (f : Nat) : List Nat := (List.range (f * g * 16 / n - (coreOf t h).vstart.toNat)).map ((coreOf t h).vstart.toNat + ·)
    (u.vmRun h.core seg base n true vd 1 g (es 1) = .done v → exec (.vld h seg rb esz grp vd) s = .next (settle s (v.stepped h.core))) ∧
    (u.vmRun h.core seg base n false vd 1 g (es 1) = .done v → exec (.vst h seg rb esz grp vd) s = .next (settle s (v.stepped h.core))) ∧
    (u.vmRun h.core seg base n true vd (nf.val + 1) g (es (nf.val + 1)) = .done v →
      exec (.vsplit h seg rb esz grp nf vd) s = .next (settle s (v.stepped h.core))) ∧
    (u.vmRun h.core seg base n false vd (nf.val + 1) g (es (nf.val + 1)) = .done v →
      exec (.vmerge h seg rb esz grp nf vd) s = .next (settle s (v.stepped h.core))) ∧
    (∀ e, u.vmRun h.core seg base n true vd (nf.val + 1) g (es (nf.val + 1)) = .trap v e →
      exec (.vsplit h seg rb esz grp nf vd) s = .next (settle s ((v.precise h.core e (s.cores[h.core]).pc).stepped h.core)))) ∧
  (∀ (s : State) (c seg : Fin 8) (base n vd f g e : Nat) (load : Bool) (es : List Nat),
    (s.vmRun c seg base n load vd f g [] = .done (s.modCore c fun k => { k with vstart := 0 })) ∧
    (∀ v, s.vmElem c seg (base + e * n) n load (vd + e % f * g) (e / f) = .ok () v →
      s.vmRun c seg base n load vd f g (e :: es) = v.vmRun c seg base n load vd f g es) ∧
    (∀ v x, s.vmElem c seg (base + e * n) n load (vd + e % f * g) (e / f) = .exc v x →
      s.vmRun c seg base n load vd f g (e :: es) = .trap (v.modCore c fun k => { k with vstart := BitVec.ofNat 32 e }) x)) ∧
  (∀ (s v : State) (c seg : Fin 8) (o n b i code off : Nat), n = 1 ∨ n = 2 ∨ n = 4 →
    (Lands s c seg o n n true false code off → s.readRange (coreRouter c) code off n = (false, v) →
      s.vmElem c seg o n true b i = .ok () (v.modCore c fun k => k.setElem b (8 * n) i (leNat (s.memBytes code off n)))) ∧
    (Lands s c seg o n n false true code off → MayStore s c code off n →
      s.vmElem c seg o n false b i = .ok () (storeAt s c ((s.cores[c]).phys seg o) code off
        (leBytes ((s.cores[c]).elemU b (8 * n) i) n))))

/-! ## Array instructions and the expander -/

namespace Sys2Proof.Claims

/-- The AIQ entry of an instruction: its index, the values of its registers, and the edge settings and key segment at issue (R41, R111). -/
def issued (k : Core) (idx : Nat) (rd ra rb : Fin 32) (scalar : Bool) (edge : DWord) : AiqEntry :=
  { index := idx, rd := k.x rd, ra := k.x ra, rb := k.x rb, rdNum := rd, scalar := scalar, edge := edge, keySeg := k.seg[(1 : Fin 8)] }

/-- The command is the array instruction of decode index `idx` with registers RD, RA and RB: taken by a Developer whose decode entry `e` for it
passes the checks of R109, with no register of it awaiting a result and room in the AIQ, it enters the AIQ (R107, R111); one that fails a check
raises its exception (R109); with 32 entries in the AIQ it stalls (R110); on a management core it is illegal (R65). -/
def IsArray (c : Instr) (h : Hdr) (idx : Nat) (rd ra rb : Fin 32) : Prop :=
  ∀ (s t : State), Takes s h [] t →
    (4 ≤ h.core.val → exec c s = .next (afterTrap s t h { code := 0x02 })) ∧
    (∀ (d : Fin 4) (e : DecEnt), d.val = h.core.val → ((t.begin_ h).devs[d]).decode idx = some e →
      [rd, ra, rb].any (fun r => (t.begin_ h).interlocked h.core r) = false →
      (∀ x, (t.begin_ h).arrayCheck h.core d e idx rd ra rb = some x →
        exec c s = .next (settle s (((t.begin_ h).used.precise h.core x (s.cores[h.core]).pc).stepped h.core))) ∧
      ((t.begin_ h).arrayCheck h.core d e idx rd ra rb = none →
        (32 ≤ (t.devs[d]).aiq.length → exec c s = .next s) ∧
        ((t.devs[d]).aiq.length < 32 → Answers c s fun u =>
          (u.devs[d]).aiq = (t.devs[d]).aiq ++ [issued (coreOf t h) idx rd ra rb (decide (e.dk = 2)) (t.reg .GRN_EDGE)] ∧
          (u.cores[h.core]).pc = (t.cores[h.core]).pc + (if h.short then 2 else 4) ∧ (u.cores[h.core]).s = (t.cores[h.core]).s ∧
          (u.cores[h.core]).run = (if idx = 87 then .sync else (t.cores[h.core]).run) ∧
          (∀ c' : Fin 8, c' ≠ h.core → u.cores[c'] = t.cores[c']) ∧ (∀ d' : Fin 4, d' ≠ d → u.devs[d'] = t.devs[d']) ∧
          Only [.cores, .devs, .regs] t (settle t u) ∧ OnlyRegs [(.DBG_HALT, 0)] t u)))

end Sys2Proof.Claims

/-- An array instruction enters the Array Issue Queue, waits, or raises the exception of its check. -/
def Obligations.ArrayInstructionIssue : Prop :=
  -- R107, R109-R115: the array instructions by their decode indices; a masked form follows its plain one, and a form the list does not have is
  -- invalid.
  (∀ (h : Hdr) (rd ra rb : Fin 32) (k : Fin 64),
    let is (c : Bool → Instr) (plain masked : Nat) : Prop := IsArray (c false) h plain rd ra rb ∧ IsArray (c true) h masked rd ra rb
    let sole (c : Bool → Instr) (plain : Nat) : Prop := is c plain 127
    is (.aAdd h · rd ra rb) 0 1 ∧ is (.aSub h · rd ra rb) 2 3 ∧ is (.aAdds h · rd ra rb) 4 5 ∧ is (.aAddIp h · rd ra rb) 6 7 ∧
    is (.aSubIp h · rd ra rb) 8 9 ∧ sole (.aMulu h · rd ra rb) 10 ∧ sole (.aCmp h · rd ra rb) 11 ∧ sole (.aCmpu h · rd ra rb) 12 ∧
    is (.aMov h · rd ra rb) 13 14 ∧ is (.aMovi h · rd ra rb) 15 16 ∧ is (.aNot h · rd ra rb) 17 18 ∧ is (.aAnd h · rd ra rb) 20 21 ∧
    is (.aOr h · rd ra rb) 22 23 ∧ is (.aXor h · rd ra rb) 24 25 ∧ is (.aAndn h · rd ra rb) 26 27 ∧
    is (.aShift h .n · rd ra rb) 64 68 ∧ is (.aShift h .e · rd ra rb) 65 69 ∧ is (.aShift h .s · rd ra rb) 66 70 ∧
    is (.aShift h .w · rd ra rb) 67 71 ∧ is (.aLut h · rd ra rb) 72 73 ∧ sole (.aAssoc h · rd ra rb) 74 ∧ sole (.aPop h · rd ra rb) 75 ∧
    sole (.aGor h · rd ra rb) 76 ∧ sole (.aGld h · rd ra rb) 77 ∧ sole (.aGst h · rd ra rb) 78 ∧ sole (.aLdf h · rd ra rb) 79 ∧
    is (.aStf h · rd ra rb) 80 81 ∧ sole (.aLdm h · rd ra rb) 82 ∧ sole (.aAndm h · rd ra rb) 83 ∧ sole (.aSetm h · rd ra rb) 84 ∧
    sole (.aStm h · rd ra rb) 85 ∧ sole (.aNop h · rd ra rb) 86 ∧ sole (.aSync h · rd ra rb) 87 ∧
    IsArray (.systemRoutine h k rd ra rb) h (128 + k.val) rd ra rb ∧ IsArray (.customerInstruction h k rd ra rb) h (192 + k.val) rd ra rb) ∧
  -- R37, R47, R108-R110: what the checks at issue answer for a.add: TRAP or no gang first; then a descriptor that breaks R108 or the widths (reason
  -- 3), a field beyond address 7,679 (reason 0), a destination that shares an address with a source (reason 1), each with the operand's number and
  -- BASE in CORE_FADDR; and nothing otherwise. An invalid entry and a nonzero unused register field are illegal, a system routine at level U is
  -- privileged.
  ((∀ (s : State) (c : Fin 8) (d : Fin 4) (rd ra rb : Fin 32),
    let k : Core := s.cores[c]
    let base (r : Fin 32) : Nat := ((k.x r).extractLsb' 0 13).toNat
    let width (r : Fin 32) : Nat := if (k.x r).extractLsb' 16 6 = 0 then 64 else ((k.x r).extractLsb' 16 6).toNat
    let ok (r : Fin 32) : Prop := (k.x r).extractLsb' 22 10 = 0 ∧ (k.x r).extractLsb' 13 3 = 0
    let fault (reason op : Nat) (r : Fin 32) : Option Exc :=
      some { code := 0x09, faddr := some (BitVec.ofNat 32 (2 ^ 29 * reason + 2 ^ 14 * op + base r)) }
    let apart (r : Fin 32) : Prop := base rd + width rd ≤ base r ∨ base r + width r ≤ base rd
    let check := s.arrayCheck c d (romDec 0) 0 rd ra rb
    (k.status.getLsbD 4 = true → check = some { code := 0x02 }) ∧
    (k.status.getLsbD 4 = false → s.partsOf d = 0 → check = some { code := 0x0A }) ∧
    (k.status.getLsbD 4 = false → s.partsOf d ≠ 0 →
      (¬ ok rd → check = fault 3 0 rd) ∧ (ok rd → ¬ ok ra → check = fault 3 1 ra) ∧ (ok rd → ok ra → ¬ ok rb → check = fault 3 2 rb) ∧
      (ok rd → ok ra → ok rb →
        (width ra ≠ width rd → check = fault 3 1 ra) ∧ (width ra = width rd → width rb ≠ width rd → check = fault 3 2 rb) ∧
        (width ra = width rd → width rb = width rd →
          (7680 < base rd + width rd → check = fault 0 0 rd) ∧
          (base rd + width rd ≤ 7680 → 7680 < base ra + width ra → check = fault 0 1 ra) ∧
          (base rd + width rd ≤ 7680 → base ra + width ra ≤ 7680 → 7680 < base rb + width rb → check = fault 0 2 rb) ∧
          (base rd + width rd ≤ 7680 → base ra + width ra ≤ 7680 → base rb + width rb ≤ 7680 →
            (¬ (apart ra ∧ apart rb) → check = fault 1 0 rd) ∧ (apart ra → apart rb → check = none)))))) ∧
  (∀ (s : State) (c : Fin 8) (d : Fin 4) (e : DecEnt) (idx : Nat) (rd ra rb : Fin 32),
    (e.valid = false ∨ (e.dk = 0 ∧ rd ≠ 0) ∨ (e.ak = 0 ∧ ra ≠ 0) ∨ (e.bk = 0 ∧ rb ≠ 0) →
      s.arrayCheck c d e idx rd ra rb = some { code := 0x02 }) ∧
    (e.valid = true → e.dk ≠ 0 → e.ak ≠ 0 → e.bk ≠ 0 → (s.cores[c]).status.getLsbD 4 = false → e.sys = true →
      (s.cores[c]).status.getLsbD 0 = false → s.arrayCheck c d e idx rd ra rb = some { code := 0x03 })))

/-- The number that bit planes hold in a grain, bit 0 first. -/
def Sys2Proof.Claims.grainNum (ps : List Plane) (g : Nat) : Nat := ps.foldr (fun p n => (if p.getLsbD g then 1 else 0) + 2 * n) 0

/-- R113: what the bit-serial arithmetic gives in every grain: sums with their carry, differences with their borrow, products, and equality with a
key. -/
def Obligations.GrainArithmetic : Prop :=
  ∀ (a b : List Plane) (cin : Plane) (g : Nat), g < 65536 →
    let bit (p : Plane) : Nat := if p.getLsbD g then 1 else 0
    (a.length = b.length →
      (grainNum (addPlanes a b cin).1 g + 2 ^ a.length * bit (addPlanes a b cin).2.1 = grainNum a g + grainNum b g + bit cin) ∧
      (addPlanes a b cin).1.length = a.length ∧
      ((subPlanes a b).2.getLsbD g = true ↔ grainNum a g < grainNum b g) ∧
      ((grainNum (subPlanes a b).1 g : Int) = (grainNum a g : Int) - grainNum b g + 2 ^ a.length * bit (subPlanes a b).2) ∧
      (0 < a.length → (((addPlanes a b 0).2.1 ^^^ (addPlanes a b 0).2.2).getLsbD g = true ↔
        signedOf a.length (grainNum (addPlanes a b 0).1 g) ≠ signedOf a.length (grainNum a g) + signedOf a.length (grainNum b g)))) ∧
    (grainNum (mulPlanes a b (a.length + b.length)) g = grainNum a g * grainNum b g) ∧
    (∀ key : DWord, a.length ≤ 64 → ((matchPlane a key).getLsbD g = true ↔ grainNum a g = key.toNat % 2 ^ a.length))

/-- Cycle formulas of the ROM routines, and what the expander's commands do. -/
def Obligations.ArrayTimingAndExpander : Prop :=
  -- R113, R115: the cycle formulas of the instruction list, which R109 holds to 2,048.
  (∀ (rd ra rb : Word),
    let w := fieldWidth rd
    let k := fieldWidth ra
    let cyc (i : Nat) : Nat := (romDec i).cycles rd ra rb
    cyc 0 = 3 * w + 2 ∧ cyc 1 = 4 * w + 2 ∧ cyc 2 = 3 * w + 2 ∧ cyc 3 = 4 * w + 2 ∧ cyc 4 = 3 * w + 2 ∧ cyc 5 = 4 * w + 2 ∧
    cyc 6 = 5 * w + 2 ∧ cyc 7 = 6 * w + 2 ∧ cyc 8 = 5 * w + 2 ∧ cyc 9 = 6 * w + 2 ∧ cyc 10 = k * (3 * fieldWidth rb + 4) ∧
    cyc 11 = 2 * k + 2 ∧ cyc 12 = 2 * k + 2 ∧ cyc 13 = 2 * w ∧ cyc 14 = 3 * w ∧ cyc 15 = w ∧ cyc 16 = 2 * w ∧ cyc 17 = 2 * w ∧ cyc 18 = 3 * w ∧
    (∀ i, 20 ≤ i → i ≤ 27 → cyc i = (if i % 2 = 0 then 3 * w else 4 * w)) ∧ (∀ i, 64 ≤ i → i ≤ 67 → cyc i = 2 * w + 1) ∧
    (∀ i, 68 ≤ i → i ≤ 71 → cyc i = 3 * w + 1) ∧ cyc 72 = k + 2 * w + 2 ∧ cyc 73 = k + 3 * w + 2 ∧ cyc 74 = rb.toNat % 512 * (k + 3) ∧
    cyc 75 = k + 20 ∧ cyc 76 = 8 ∧ cyc 77 = 2 ∧ cyc 78 = 2 ∧ cyc 79 = 1 ∧ cyc 80 = 1 ∧ cyc 81 = 2 ∧ cyc 82 = 1 ∧ cyc 83 = 1 ∧
    cyc 84 = 1 ∧ cyc 85 = 1 ∧ cyc 86 = 1 ∧ cyc 87 = 1) ∧
  -- R111, R112, R116, R119, R126, R131, R136: the expander. AIQ_DISPATCH starts the head entry when the expander is idle and runs it: a ROM
  -- instruction by its listed effect, a system routine with open results, a customer or patched one by its microwords; with nothing to dispatch,
  -- while a Fog check slice runs or is due (R54), or stopped short of a commit point (R123), it does nothing; a committed routine goes on although
  -- the expander is stopped. AIQ_ENTRY_RETIRE removes a done entry, writes its scalar result, lets an a.sync's core go on, and makes the machine
  -- check of an error in the routine's tail pending (R135). ROUTINE_OVERRUN stops a routine that has issued 2,048 cycles short of its commit point.
  (∀ (s : State) (d : Fin 4) (e : AiqEntry) (rest : List AiqEntry) (dec : DecEnt) (i : Nat),
    let dev : Dev := s.devs[d]
    (dev.aiq = [] ∨ (dev.ex.stopped = true ∧ dev.ex.committed = false) ∨ dev.fogRunning = true ∨ s.fogDue d = true ∨ dev.ex.st = .done ∨
      dev.ex.st = .abandoned → exec (.aiqDispatch d) s = .next s) ∧
    (dev.aiq = e :: rest → dev.ex.committed = true ∨ dev.ex.stopped = false → dev.fogRunning = false → s.fogDue d = false →
      dev.ex.st = .running → exec (.aiqDispatch d) s = .next (settle s (s.microRun d e))) ∧
    (dev.aiq = e :: rest → dev.ex.stopped = false → dev.fogRunning = false → s.fogDue d = false →
      dev.ex.st = .idle → dev.camBad = none → dev.decode e.index = some dec →
      let loaded := s.modDev d (fun x => { x with ex := loadEx x.ex dec e })
      (e.index < 128 → e.index ≠ 77 → e.index ≠ 78 → dev.patched e.index = false →
        exec (.aiqDispatch d) s = .next (settle s (loaded.runRom d e))) ∧
      (128 ≤ e.index → e.index < 192 → dev.patched e.index = false → exec (.aiqDispatch d) s = .next (settle s (loaded.runSystem d))) ∧
      (∀ m : Fin 4, (e.index = 77 ∧ m = 1) ∨ (e.index = 78 ∧ m = 2) → dev.patched e.index = false →
        exec (.aiqDispatch d) s =
          .next (settle s ((loaded.modDev d (fun x => { x with ex := { x.ex with st := .waitg m } })).resumeWait d))) ∧
      (e.index < 192 → Only [.devs, .grains, .regs, .mems, .free, .cs, .cores] s (loaded.runRom d e) ∧
        Only [.devs, .grains, .free] s (loaded.runSystem d)) ∧
      (192 ≤ e.index ∨ dev.patched e.index = true → exec (.aiqDispatch d) s = .next (settle s (loaded.microRun d e)))) ∧
    (dev.aiq = e :: rest → dev.ex.stopped = false → dev.fogRunning = false → s.fogDue d = false →
      dev.ex.st = .idle → dev.camBad = some i → exec (.aiqDispatch d) s = .next (settle s (s.parityStop d 3 i i))) ∧
    (dev.aiq = [] ∨ dev.ex.st ≠ .done → exec (.aiqEntryRetire d) s = .next s) ∧
    (dev.aiq = e :: rest → dev.ex.st = .done → Answers (.aiqEntryRetire d) s fun t =>
      (t.devs[d]).aiq = rest ∧ (t.devs[d]).ex.st = .idle ∧
      (t.cores[devCore d]).mcPend = (dev.ex.tailCheck || (s.cores[devCore d]).mcPend) ∧
      (t.cores[devCore d]).s = (if e.scalar then (s.cores[devCore d]).s.set e.rdNum dev.ex.result else (s.cores[devCore d]).s) ∧
      (t.cores[devCore d]).run =
        (if e.index = 87 ∧ (s.cores[devCore d]).run = .sync then .running else (s.cores[devCore d]).run) ∧
      (∀ c : Fin 8, c ≠ devCore d → t.cores[c] = s.cores[c]) ∧ (∀ x : Fin 4, x ≠ d → t.devs[x] = s.devs[x]) ∧ Only [.devs, .cores] s t) ∧
    (dev.ex.st = .running → dev.ex.committed = false → 2048 ≤ dev.ex.issued → Answers (.routineOverrun d) s fun t =>
      (t.devs[d]).ex.st = .abandoned ∧ (t.devs[d]).ex.stopped = true ∧ (t.devs[d]).aiq = dev.aiq ∧
      (t.cores[devCore d]).mcPend = true ∧ t.on F.DEV_UC_PAR_OVERRUN d.val = true ∧
      Only [.devs, .cores, .regs] s t ∧ OnlyRegs [(.DEV_UC_PAR, d.val)] s t) ∧
    (dev.ex.st ≠ .running ∨ dev.ex.committed = true ∨ dev.ex.issued < 2048 → exec (.routineOverrun d) s = .next s))

/-! ## Words and completion -/

/-- How a core takes an instruction, which complete, when it stalls, what one leaves unchanged, and how its words read. -/
def Obligations.InstructionIssue : Prop :=
  -- R65, R70, R98, R99, R109, R112: how a core takes any instruction. A core that does not run takes none; what is due at its boundary comes first,
  -- then what the fetch raises, then GOR and GNOR on a management core; GOR and GNOR wait for the array instructions issued before them that may
  -- write F (R46, R71); an instruction whose condition is false has no effect; one whose core is in a trap and that raises an exception is a double
  -- fault (TrapEntry).
  (∀ (c : Instr) (h : Hdr) (s : State), c.hdr = some h →
    (s.coreRuns h.core = false → exec c s = .next s) ∧
    (s.coreRuns h.core = true →
      (∀ t, s.boundary h.core = some t → exec c s = .next (settle s t)) ∧
      (s.boundary h.core = none →
        (∀ e t, s.fetch h.core (hdrLen h) = (some e, t) →
          exec c s = .next (settle s ((t.precise h.core e (s.cores[h.core]).pc).stepped h.core))) ∧
        (∀ t, s.fetch h.core (hdrLen h) = (none, t) →
          (4 ≤ h.core.val → h.cond = .gor ∨ h.cond = .gnor →
            exec c s = .next (settle s ((t.precise h.core { code := 0x02 } (s.cores[h.core]).pc).stepped h.core))) ∧
          (condIllegal h = false → t.gorWaits h = true → exec c s = .next s) ∧
          (condIllegal h = false → t.gorWaits h = false → t.condHolds h = false →
            exec c s = .next (settle s ((t.begin_ h).stepped h.core))))))) ∧
  -- R68-R70, R77-R79, R85-R87: every integer, fixed-point and floating-point instruction on registers completes whenever its core takes it: the pc
  -- has moved past it, and no memory, grain or other core has changed.
  (∀ (s t : State) (h : Hdr) (rd a b c : Fin 32) (acc : Fin 4) (fn : Fin 8) (imm : BitVec 11) (up : BitVec 16) (i5 : BitVec 5) (i : Instr),
    Takes s h [rd, a, b, c] t →
    i ∈ [.add h rd a b, .sub h rd a b, .and h rd a b, .or h rd a b, .xor h rd a b, .andn h rd a b, .shl h rd a b, .shr h rd a b, .sar h rd a b,
        .min h rd a b, .max h rd a b, .minu h rd a b, .maxu h rd a b, .abs h rd a, .neg h rd a, .mov h rd a, .cmp h a b, .cmn h a b, .tst h a b,
        .addf h rd a b, .subf h rd a b] ++
      [.addi h rd a imm, .andi h rd a imm, .ori h rd a imm, .xori h rd a imm, .shli h rd a imm, .shri h rd a imm, .sari h rd a imm, .cmpi h a imm,
        .movhi h rd up, .movlo h rd up, .movi h rd i5, .mul h rd a b, .mulh h rd a b, .mulhu h rd a b, .crcc h a b, .crcp h a b, .par h rd a] ++
      [.mac h acc a b, .mach h acc a b, .msb h acc a b, .msbh h acc a b, .aclr h acc, .ashr h acc b, .qadd h rd a b, .qsub h rd a b, .qaddh h rd a b,
        .qsubh h rd a b, .fadd h rd a b, .fsub h rd a b, .fmul h rd a b, .ffma h rd a b c, .ffnma h rd a b c, .fcmp h a b, .fmin h rd a b,
        .fmax h rd a b, .fabs h rd a, .fneg h rd a, .fcvtWs h rd a, .fcvtSw h rd a, .frecpe h rd a] →
    Answers i s fun u => (u.cores[h.core]).pc = (t.cores[h.core]).pc + BitVec.ofNat 32 (hdrLen h) ∧
      u.mems = t.mems ∧ u.grains = t.grains ∧ u.out = t.out ∧ (∀ k : Fin 8, k ≠ h.core → u.cores[k] = t.cores[k])) ∧
  -- R67, R69, R112: an instruction that names a register still awaiting an array result stalls and changes nothing.
  (∀ (s t : State) (h : Hdr) (rd a b r : Fin 32) (imm : BitVec 11), s.coreRuns h.core = true → s.boundary h.core = none →
    s.fetch h.core (hdrLen h) = (none, t) → condIllegal h = false → t.gorWaits h = false → t.condHolds h = true → h.core.val < 4 → r = rd ∨ r = a ∨ r = b →
    (∃ d : Fin 4, d.val = h.core.val ∧ ∃ e ∈ (s.devs[d]).aiq, e.scalar = true ∧ e.rdNum = r) → t.devs = s.devs →
    exec (.add h rd a b) s = .next s ∧ exec (.qadd h rd a b) s = .next s ∧ exec (.fadd h rd a b) s = .next s ∧
    exec (.mul h rd a b) s = .next s ∧ (r ≠ b → exec (.addi h rd a imm) s = .next s)) ∧
  -- The frame of an instruction that changes its core alone: of that core what the change says, its pc, and the count of instructions since a raised
  -- floating-point trap; of the rest of the machine only the instruction trace of a Developer, and DBG_HALT.STEP when a granted STEP is used up.
  (∀ (t : State) (h : Hdr) (f : Core → Core),
    let u := after t t h f
    let k : Core := t.cores[h.core]
    Only [.cores, .devs, .regs] t u ∧ OnlyRegs [(.DBG_HALT, 0)] t u ∧
    (∀ c : Fin 8, c ≠ h.core → u.cores[c] = t.cores[c]) ∧
    (∀ d : Fin 4, ∃ l, u.devs[d] = (let x : Dev := t.devs[d]; { x with pcTrace := l })) ∧
    coreOf t h = { k with pc := k.pc + (if h.short then 2 else 4), fpPend := k.fpPend.map (· + 1) } ∧
    ((f (coreOf t h)).stepping = k.stepping → u.cores[h.core] = { f (coreOf t h) with stepping := false })) ∧
  -- R66-R70, R107: the length, the fields and the major of a core's words, with every operand at every value: forms H-R, H-B, I, U, M, B and A, the
  -- reserved majors, which are illegal, and the bit of form VM that must be 0.
  (∀ (core : Fin 8) (c : Fin 16) (c2 : Fin 4) (rd a b : Fin 32) (seg : Fin 8) (imm6 : BitVec 6) (imm11 : BitVec 11) (x y : BitVec 16),
    let conds : List Cond := [.alw, .zs, .zc, .gor, .gnor, .cy, .ncy, .neg, .nneg, .ov, .ugt, .ule, .sge, .slt, .sgt, .sle]
    let h : Hdr := { core := core, cond := conds.getD c.val .alw, short := false }
    let h2 : Hdr := { core := core, cond := conds.getD c2.val .alw, short := true }
    let first (maj lo : Nat) : BitVec 16 := BitVec.ofNat 16 (0xC000 + maj * 2 ^ 9 + c.val * 2 ^ 5 + lo)
    let short (op lo : Nat) : BitVec 16 := BitVec.ofNat 16 (op * 2 ^ 12 + c2.val * 2 ^ 10 + lo)
    (coreLength x = if 0xC000 ≤ x.toNat then 4 else 2) ∧
    decodeCore core (short 1 (rd.val * 2 ^ 5 + a.val)) y = .instr (.add h2 rd rd a) ∧
    decodeCore core (short 6 (rd.val * 2 ^ 5 + a.val)) y = .instr (.cmp h2 rd a) ∧
    decodeCore core (short 8 (rd.val * 2 ^ 5 + a.val)) y = .instr (.ldw h2 rd 1 a 0) ∧
    decodeCore core (short 11 (x.toNat % 2 ^ 10)) y = .instr (.b h2 ((x.setWidth 10).signExtend 21)) ∧
    decodeCore core (first 1 rd.val) (BitVec.ofNat 16 (a.val * 2 ^ 11 + imm11.toNat)) = .instr (.addi h rd a imm11) ∧
    decodeCore core (first 8 rd.val) y = .instr (.movhi h rd y) ∧
    decodeCore core (first 0x10 rd.val) (BitVec.ofNat 16 (seg.val * 2 ^ 13 + b.val * 2 ^ 8 + 3 * 2 ^ 6 + imm6.toNat)) = .instr (.ldd h rd seg b imm6) ∧
    decodeCore core (first 0x12 rd.val) (BitVec.ofNat 16 (seg.val * 2 ^ 13 + b.val * 2 ^ 8 + imm6.toNat)) = .instr (.stb h rd seg b imm6) ∧
    decodeCore core (first 0x15 rd.val) y = .instr (.bl h (y ++ BitVec.ofNat 5 rd.val)) ∧
    (16 ≤ rd.val → decodeCore core (first 0x19 rd.val) y = .illegal) ∧
    decodeCore core (first 0x1A rd.val) y = .illegal ∧ decodeCore core (first 0x1B rd.val) y = .illegal ∧
    decodeCore core (first 0x1D rd.val) (BitVec.ofNat 16 (a.val * 2 ^ 11 + b.val * 2 ^ 6 + imm6.toNat)) =
      .array (Fin.ofNat 256 (64 + imm6.toNat)) h.cond a b rd)

/-! ## The grain array -/

namespace Sys2Proof.Claims

/-- The agent's access reaches the module, and the agent may write the register (R345). -/
def Permits (s : State) (a : Agent) (r : RegName) (i : Nat) : Prop := s.reaches a = true ∧ s.mayWrite a r i = true

/-- A register-write command changes nothing but the listed registers (and the register's read latch, R7). -/
def RegsOnly (rs : List (RegName × Nat)) (s t : State) : Prop := Only [.regs, .latches] s t ∧ OnlyRegs rs s t

/-- The command changes nothing but a read latch. -/
def Ignored (s t : State) : Prop := Only [.latches] s t

/-- The band that a 64-bit push names, with the table of ENL_Pn_BAND_ADDR (R141). -/
def pushed (table : Nat) (v : DWord) : Band :=
  { table := table, first := v.toNat / 2 ^ 32, lines := v.toNat / 2 ^ 8 % 2 ^ 8 + 1, factor := v.toNat / 2 ^ 2 % 4 + 1, linear := v.getLsbD 1 }

end Sys2Proof.Claims

/-- Gang changes, grain initialisation and the fog check. -/
def Obligations.GangsAndFog : Prop :=
  -- R48, R52: a GRN_GANG write takes effect unless the module prints or array work stands, and waits for a running Fog slice; a GRN_INIT request
  -- starts the partitions that may be initialised and sets INIT_REJ for the others; when one completes, zero codewords stand at all its addresses and
  -- nowhere else.
  ((∀ (s : State) (a : Agent) (v : BitVec 32), Permits s a .GRN_GANG 0 →
    let busy : Prop := s.mode = 4 ∨ s.mode = 5 ∨ ∃ d : Fin 4, (s.devs[d]).aiq ≠ [] ∨ (s.devs[d]).ex.st ≠ .idle
    let fog : Prop := ∃ d : Fin 4, (s.devs[d]).fogRunning = true
    (busy → Answers (.grnGangWrite a v) s fun t => t.on F.GRN_STATUS_GANG_REJ = true ∧ RegsOnly [(.GRN_STATUS, 0)] s t) ∧
    (¬ busy → ¬ fog → Answers (.grnGangWrite a v) s fun t => t.gangMode = (v.extractLsb' 0 2).toNat ∧ RegsOnly [(.GRN_GANG, 0)] s t) ∧
    (¬ busy → fog → Answers (.grnGangWrite a v) s fun t =>
      t.grains = (let g := s.grains; { g with gangDeferred := some (v.extractLsb' 0 2) }) ∧ Only [.grains, .latches] s t)) ∧
  (∀ (s : State) (a : Agent) (v : BitVec 32), Permits s a .GRN_INIT 0 → Answers (.grnInit a v) s fun t =>
    (∀ p : Fin 4, (t.fv F.GRN_STATUS_INIT_BUSY).testBit p.val = ((s.fv F.GRN_STATUS_INIT_BUSY).testBit p.val || (v.getLsbD p.val && s.mayInit p))) ∧
    (t.on F.GRN_STATUS_INIT_REJ = true ↔ s.on F.GRN_STATUS_INIT_REJ = true ∨ ∃ p : Fin 4, v.getLsbD p.val = true ∧ s.mayInit p = false) ∧
    RegsOnly [(.GRN_STATUS, 0), (.GRN_INIT, 0)] s t) ∧
  (∀ (s : State) (p : Fin 4),
    ((s.fv F.GRN_STATUS_INIT_BUSY).testBit p.val = false → exec (.grnInitComplete p) s = .next s) ∧
    ((s.fv F.GRN_STATUS_INIT_BUSY).testBit p.val = true → Grains.wf s.grains = true → Answers (.grnInitComplete p) s fun t =>
      (∀ a g, (t.grains.plane a).data.getLsbD g = (decide (g / 16384 ≠ p.val) && (s.grains.plane a).data.getLsbD g)) ∧
      (∀ a w, let inside := decide (w / 512 ≠ p.val)
        (t.grains.plane a).poison.getLsbD w = (inside && (s.grains.plane a).poison.getLsbD w) ∧
        (t.grains.plane a).bad.getLsbD w = (inside && (s.grains.plane a).bad.getLsbD w) ∧
        (t.grains.plane a).ce.getLsbD w = (inside && (s.grains.plane a).ce.getLsbD w)) ∧
      (t.fv F.GRN_STATUS_INIT_BUSY).testBit p.val = false ∧ Only [.grains, .regs] s t ∧ OnlyRegs [(.GRN_STATUS, 0), (.GRN_INIT, 0)] s t))) ∧
  -- R53-R55: a Fog slice starts with the AIQ empty, or ahead of the next array instruction after MIN_GAP lines without one; its end moves the probe
  -- number on, counts a battery of 48, opens the Fog and system areas' data, and lets a waiting GRN_GANG write take effect; a mismatch it localised
  -- is recorded and, in a spare column, marks the spare and the redundancy; in a Tray column that has slipped before it marks neither, and takes the
  -- module to Safe where it affects the print gang (R59).
  (∀ (s : State) (d : Fin 4),
    let x : Dev := s.devs[d]
    let started (t : State) : Prop := t = s.modDev d fun x => { x with fogRunning := true, fogLines := 0 }
    let gap := s.fv F.GRN_FOG_CTRL_MIN_GAP
    (s.fogReady d = true → x.aiq = [] → Answers (.fogSlice d) s started) ∧
    (s.fogReady d = false ∨ x.aiq ≠ [] → exec (.fogSlice d) s = .next s) ∧
    (s.fogReady d = true → x.aiq ≠ [] → gap ≠ 0 → gap ≤ x.fogLines → Answers (.fogSliceInsert d) s started) ∧
    (s.fogReady d = false ∨ x.aiq = [] ∨ gap = 0 ∨ x.fogLines < gap → exec (.fogSliceInsert d) s = .next s) ∧
    (s.fogReady d = true → s.on F.GRN_FOG_CTRL_ENABLE = true ∧ s.partsOf d ≠ 0 ∧ x.ex.st = .idle ∧ s.grains.slip = none ∧
      s.grains.gangDeferred = none) ∧
    (∀ f, x.fogRunning = false → exec (.fogSliceEnd d f) s = .next s) ∧
    (x.fogRunning = true → s.grains.gangDeferred = none → Answers (.fogSliceEnd d none) s fun t =>
      t.devs = s.devs.set d { x with fogRunning := false, fogProbe := (x.fogProbe + 1) % 48 } ∧
      t.fv F.GRN_FOG_CTRL_BATTERY_CNT = (if x.fogProbe = 47 then (s.fv F.GRN_FOG_CTRL_BATTERY_CNT + 1) % 65536 else s.fv F.GRN_FOG_CTRL_BATTERY_CNT) ∧
      Only [.devs, .grains, .regs, .free] s t ∧ OnlyRegs [(.GRN_FOG_CTRL, 0)] s t) ∧
    (∀ row col phys, x.fogRunning = true → s.grains.gangDeferred = none → s.on F.GRN_FOG_FAIL_VALID = false → x.fogProbe < 48 →
      s.slipped (col.val / 32) = false ∨ s.job = none ∨ (s.partsOf 0).getLsbD (row.val / 64) = false →
      Answers (.fogSliceEnd d (some (row, col, phys))) s fun t =>
        t.on F.GRN_FOG_FAIL_VALID = true ∧ t.fv F.GRN_FOG_FAIL_PROBE = x.fogProbe ∧ t.fv F.GRN_FOG_FAIL_ROW = row.val ∧
        t.fv F.GRN_FOG_FAIL_COL = col.val ∧ t.fv F.GRN_FOG_FAIL_PHYS = phys.val ∧ t.on F.GRN_STATUS_FOG_FAIL = true ∧
        (phys.val = 32 → s.slipped (col.val / 32) = false → t.spareBad (col.val / 32) = true ∧ t.on F.SYS_REDUND_REDUCED = true) ∧
        (phys.val < 32 ∨ s.slipped (col.val / 32) = true → t.reg .GRN_SLIP_STATE = s.reg .GRN_SLIP_STATE) ∧
        Only [.devs, .grains, .regs, .free, .cs] s t) ∧
    (∀ probe row col phys, s.slipped (col / 32) = true → s.job ≠ none → (s.partsOf 0).getLsbD (row / 64) = true →
      s.fogFailure d probe row col phys = (let u := if s.on F.GRN_FOG_FAIL_VALID then s else ((((s.fset F.GRN_FOG_FAIL_VALID 1).fset
          F.GRN_FOG_FAIL_PROBE probe).fset F.GRN_FOG_FAIL_ROW row).fset F.GRN_FOG_FAIL_COL col).fset F.GRN_FOG_FAIL_PHYS phys
        let v := u.fset F.GRN_STATUS_FOG_FAIL 1
        (v.csReport 0x12 ([1, 4, 31, 34].getD d.val 0) [(v.reg .GRN_FOG_FAIL).toNat, col / 32, phys] false).safeEntry 1)))

/-- Slip requests are checked, carried out and completed. -/
def Obligations.GrainSlip : Prop :=
  -- R57, R59, R60: GRN_SLIP_CMD counts from a management core alone; GO is refused with SLIP_FAIL, and nothing else changes, for a slipped column, a
  -- bad spare, a slip in progress, or a boot slip beside array work or enabled Fog checks; a boot slip records the mapping at once; a live slip stops
  -- every Developer. Both forms of the command are the same register's.
  (∀ (s : State) (a : Agent) (v : BitVec 32) (c : Instr), Permits s a .GRN_SLIP_CMD 0 → c = .slipGo a v ∨ c = .bootSlip a v →
    let t := (v.extractLsb' 5 3).toNat
    let p := (v.extractLsb' 0 5).toNat
    let go := v.getLsbD 8
    let boot := v.getLsbD 9
    let mc : Prop := ∃ k : Fin 8, a = .core k ∧ 4 ≤ k.val
    let refused : Prop := s.slipped t = true ∨ s.spareBad t = true ∨ s.grains.slip ≠ none ∨
      (boot = true ∧ ((∃ d : Fin 4, (s.devs[d]).aiq ≠ [] ∨ (s.devs[d]).ex.st ≠ .idle) ∨ s.on F.GRN_FOG_CTRL_ENABLE = true))
    (¬ mc → Answers c s (Ignored s)) ∧
    (mc → go = false → Answers c s fun u => u.fv F.GRN_SLIP_CMD_TCOL = t ∧ u.fv F.GRN_SLIP_CMD_PHYS = p ∧
      u.on F.GRN_SLIP_CMD_BOOT = boot ∧ RegsOnly [(.GRN_SLIP_CMD, 0)] s u) ∧
    (mc → go = true → refused → Answers c s fun u => u.on F.GRN_STATUS_SLIP_FAIL = true ∧ RegsOnly [(.GRN_STATUS, 0)] s u) ∧
    (mc → go = true → ¬ refused → boot = true → Answers c s fun u => u.slipped t = true ∧ u.fv ⟨.GRN_SLIP_STATE, 8 * t, 5⟩ = p ∧
      u.on F.SYS_REDUND_REDUCED = true ∧ (∀ t', t' < 8 → t' ≠ t → u.slipped t' = s.slipped t') ∧
      RegsOnly [(.GRN_SLIP_CMD, 0), (.GRN_SLIP_STATE, 0), (.SYS_REDUND, 0)] s u) ∧
    (mc → go = true → ¬ refused → boot = false → Answers c s fun u => u.grains.slip = some (Fin.ofNat 8 t, Fin.ofNat 32 p) ∧
      u.on F.GRN_STATUS_SLIP_BUSY = true ∧ u.on F.GRN_SLIP_CMD_GO = true ∧
      (∀ d : Fin 4, (u.devs[d]).ex.stopped = true ∧ (u.devs[d]).aiq = (s.devs[d]).aiq ∧
        ((s.cores[devCore d]).run ≠ .mcHalt → (u.cores[devCore d]).run = .stopped)) ∧
      (∀ k : Fin 8, 4 ≤ k.val → u.cores[k] = s.cores[k]) ∧
      Only [.devs, .cores, .grains, .regs, .latches] s u ∧ OnlyRegs [(.GRN_SLIP_CMD, 0), (.GRN_STATUS, 0), (.GRN_GANG, 0)] s u)) ∧
  -- R57, R59, R64: a slip that verifies ends with SLIP_BUSY and GO clear, the mapping recorded, the Developers in the state in which they were
  -- stopped, the slip hook of each whose program has one (log 111), and COLUMN_SLIPPED raised; one that fails sets SLIP_FAIL and the partitions' UE
  -- and leaves the Developers stopped and GO set.
  (∀ (s : State) (v b : Bool),
    (s.grains.slip = none → exec (.slipComplete v b) s = .next s) ∧
    (∀ t p, s.grains.slip = some (t, p) →
      (v = true → b = true → ((s.grains.migrated t).badParts t) = 0 → Answers (.slipComplete v b) s fun u =>
        u.grains.slip = none ∧ u.on F.GRN_STATUS_SLIP_BUSY = false ∧ u.on F.GRN_SLIP_CMD_GO = false ∧ u.slipped t.val = true ∧
        u.fv ⟨.GRN_SLIP_STATE, 8 * t.val, 5⟩ = p.val ∧ u.on F.GRN_STATUS_SLIP_FAIL = s.on F.GRN_STATUS_SLIP_FAIL ∧
        (∀ d : Fin 4, ((s.cores[devCore d]).run ≠ .stopped → (u.cores[devCore d]).run = (s.cores[devCore d]).run) ∧
          ((s.cores[devCore d]).run = .stopped → (s.cores[devCore d]).was ≠ .sync → (u.cores[devCore d]).run = (s.cores[devCore d]).was) ∧
          (s.hasHook d = true → (s.cores[devCore d]).run = .stopped → Out.slipHook d.val ∈ u.out)) ∧
        Only [.grains, .regs, .free, .cs, .devs, .cores, .hst, .out] s u) ∧
      (v = false ∨ b = false ∨ ((s.grains.migrated t).badParts t) ≠ 0 → s.job = none → Answers (.slipComplete v b) s fun u =>
        u.grains.slip = none ∧ u.on F.GRN_STATUS_SLIP_BUSY = false ∧ u.on F.GRN_STATUS_SLIP_FAIL = true ∧ u.on F.GRN_SLIP_CMD_GO = s.on F.GRN_SLIP_CMD_GO ∧
        u.slipped t.val = true ∧ u.fv F.GRN_STATUS_UE ≠ 0 ∧ u.cores = s.cores ∧ Only [.grains, .regs, .free] s u)))

/-- The grain backdoor window and the microcode stores. -/
def Obligations.BackdoorAndMicrocode : Prop :=
  -- R61-R63: the backdoor is refused to the host and to debug below D2; a write of whole Tray-row words stores its bytes as the plane order has them
  -- and nothing else; a read gives the stored bytes, or for an uncorrectable word a core's load exception or a DMA's status. An access of the
  -- Developer that drives a partition it touches waits while array instructions that Developer issued are to retire.
  ((∀ (s : State) (a : Agent) (off n : Nat) (data : List Byte),
    (match a with | .pf => True | .vf _ => True | .flash _ => True | .jtag => s.dbgLevel ≠ 2 | .pfDebug => s.dbgLevel ≠ 2 | _ => False) →
      exec (.backdoorRead a off n) s = .next (s.emit (.refused 0x30)) ∧ exec (.backdoorWrite a off data) s = .next (s.emit (.refused 0x30))) ∧
  (∀ (s : State) (a : Agent) (off n : Nat), (match a with | .core _ => True | .dma _ => True | _ => False) → off + n ≤ 0x4000000 →
    s.backdoorWaits a off n = false →
    let r := s.backdoorRead off n (agentRouter a)
    (r.1 = false → exec (.backdoorRead a off n) s = .next (settle s (r.2.emit (.bytes (s.backdoorBytes off n))))) ∧
    (∀ k, r.1 = true → a = .core k → exec (.backdoorRead a off n) s =
      .next (settle s (r.2.precise k { code := 0x07 } (r.2.cores[k]).pc))) ∧
    (∀ k, r.1 = true → a = .dma k → exec (.backdoorRead a off n) s = .next (settle s (r.2.emit (.refused 0x20))))) ∧
  (∀ (s : State) (a : Agent) (off : Nat) (data : List Byte), (match a with | .core _ => True | .dma _ => True | _ => False) →
    off % 4 = 0 → data.length % 4 = 0 → off + data.length ≤ 0x4000000 → Grains.wf s.grains = true → s.backdoorWaits a off data.length = false →
    Answers (.backdoorWrite a off data) s fun t =>
      t.backdoorBytes off data.length = data ∧
      (∀ o, o < off ∨ off + data.length ≤ o → t.backdoorBytes o 1 = s.backdoorBytes o 1) ∧ Only [.grains] s t) ∧
  (∀ (s : State) (a : Agent) (off : Nat) (data : List Byte), off + data.length ≤ 0x4000000 →
    (s.backdoorWaits a off data.length = true → exec (.backdoorRead a off data.length) s = .next s ∧ exec (.backdoorWrite a off data) s = .next s) ∧
    (∀ (k : Fin 8) (d : Fin 4) (j : Nat), a = .core k → d.val = k.val → (s.devs[d]).aiq ≠ [] → j < data.length →
      (s.partsOf d).getLsbD ((off + j) % 8192 / 2048) = true → s.backdoorWaits a off data.length = true) ∧
    ((match a with | .core k => 4 ≤ k.val ∨ ∀ d : Fin 4, d.val = k.val → (s.devs[d]).aiq = [] | _ => True) →
      s.backdoorWaits a off data.length = false))) ∧
  -- R130, R133, R138: the microcode stores take words from a management core before LOCK alone; every other write is ignored with WREJ. A microword,
  -- a decode entry or a CAM entry takes one write, a nano-word two, low half first, only at the addresses that are RAM; INDEX advances after a
  -- completed word when INC is 1; UCODE_LOCK sets LOCK.
  ((∀ (s : State) (a : Agent) (d : Fin 4) (v : BitVec 32), Permits s a .DEV_UC_ADDR d →
    let opens : Prop := (∃ k : Fin 8, a = .core k ∧ 4 ≤ k.val) ∧ s.on F.DEV_UCODE_CTL_LOCK d = false
    (opens → Answers (.ucAddrWrite a d v) s fun t => t.fv F.DEV_UC_ADDR_SPACE d = (v.extractLsb' 30 2).toNat ∧
      t.on F.DEV_UC_ADDR_INC d = v.getLsbD 29 ∧ t.fv F.DEV_UC_ADDR_INDEX d = (v.extractLsb' 0 15).toNat ∧ (t.devs[d]).half = none ∧
      Only [.regs, .devs, .latches] s t ∧ OnlyRegs [(.DEV_UC_ADDR, d.val)] s t) ∧
    (¬ opens → Answers (.ucAddrWrite a d v) s fun t => t.on F.DEV_UCODE_CTL_WREJ d = true ∧ RegsOnly [(.DEV_UCODE_CTL, d.val)] s t)) ∧
  (∀ (s : State) (a : Agent) (d : Fin 4) (v : DWord), Permits s a .DEV_UC_DATA d →
    let opens : Prop := (∃ k : Fin 8, a = .core k ∧ 4 ≤ k.val) ∧ s.on F.DEV_UCODE_CTL_LOCK d = false
    let x : Dev := s.devs[d]
    let idx := s.fv F.DEV_UC_ADDR_INDEX d
    let space := s.fv F.DEV_UC_ADDR_SPACE d
    let stays (t : State) : Prop := Only [.regs, .devs, .latches] s t ∧ OnlyRegs [(.DEV_UC_ADDR, d.val)] s t ∧
      (t.fv F.DEV_UC_ADDR_INDEX d = (if s.on F.DEV_UC_ADDR_INC d then (idx + 1) % 32768 else idx))
    (¬ opens → Answers (.ucDataWrite a d v) s fun t => t.on F.DEV_UCODE_CTL_WREJ d = true ∧ RegsOnly [(.DEV_UCODE_CTL, d.val)] s t) ∧
    (opens → space = 0 → 0x4000 ≤ idx → idx < 0x4800 → Answers (.ucDataWrite a d v) s fun t =>
      (t.devs[d]).microAt idx = some (v.setWidth 32) ∧ (∀ i, i ≠ idx → (t.devs[d]).microAt i = x.microAt i) ∧ stays t) ∧
    (opens → space = 1 → x.half = none → Answers (.ucDataWrite a d v) s fun t => t.devs = s.devs.set d { x with half := some v } ∧ Only [.devs, .latches] s t) ∧
    (∀ lo, opens → space = 1 → x.half = some lo → 0x1000 ≤ idx → idx < 0x1200 → Answers (.ucDataWrite a d v) s fun t =>
      (t.devs[d]).nanoAt idx = some (v ++ lo) ∧ (t.devs[d]).half = none ∧ (∀ i, i ≠ idx → (t.devs[d]).nanoAt i = x.nanoAt i) ∧ stays t) ∧
    (opens → space = 2 → 192 ≤ idx → idx < 256 → Answers (.ucDataWrite a d v) s fun t =>
      smGet (fun _ => none) (t.devs[d]).decodeRam idx = some v ∧ stays t) ∧
    (opens → space = 3 → idx < 64 → Answers (.ucDataWrite a d v) s fun t =>
      smGet (fun _ => none) (t.devs[d]).cam idx = some v ∧ stays t) ∧
    (opens → (space = 0 ∧ (idx < 0x4000 ∨ 0x4800 ≤ idx)) ∨ (space = 2 ∧ (idx < 192 ∨ 256 ≤ idx)) ∨ (space = 3 ∧ 64 ≤ idx) →
      Answers (.ucDataWrite a d v) s (Ignored s))) ∧
  (∀ (s : State) (a : Agent) (d : Fin 4), Permits s a .DEV_UCODE_CTL d →
    Answers (.ucodeLock a d) s fun t => t.on F.DEV_UCODE_CTL_LOCK d = true ∧ RegsOnly [(.DEV_UCODE_CTL, d.val)] s t))

/-! ## Line input, encoders, the Shutter and Holds -/

/-- Windows, Reserve slots, FIFO registers and the Enlargers. -/
def Obligations.WindowsAndFifos : Prop :=
  -- R26, R42, R43, R148, R149: the windows. A slot starts when the present one is done, the Reserve has room and the Developer runs, and then
  -- switches programs and tables for the line it computes; a window opens from the slot, an output window taking GP into G and using it up; its 256th
  -- shift waits until GC holds no unstored bits, then GC takes G, and an output window's codes go to the Reserve, the last one completing the line.
  ((∀ (s : State) (d : Fin 4), (s.devs[d]).win ≠ none ∨ s.grains.slip ≠ none ∨ s.partsOf d = 0 ∨ s.job = none → exec (.gWindowOpen d) s = .next s) ∧
  (∀ (s : State) (j : Job) (sl : Slot), s.job = some j → (s.devs[(0 : Fin 4)]).win = none → s.grains.slip = none → s.partsOf 0 ≠ 0 →
    (s.devs[(0 : Fin 4)]).slot = some sl → sl.win < 8 * npgOf j.npgCode →
    let parts := s.partsOf 0
    let out : Prop := sl.win < npgOf j.npgCode ∧ 2 ≤ sl.n ∧ sl.n - 2 < j.length ∧ j.complete ≤ sl.n - 2
    (out → s.grains.loaded0 &&& s.grains.loaded1 &&& parts ≠ parts → exec (.gWindowOpen 0) s = .next s) ∧
    (sl.win ≠ 0 ∨ j.length ≤ sl.n → (out → s.grains.loaded0 &&& s.grains.loaded1 &&& parts = parts) →
      (∀ m, (s.devs[(0 : Fin 4)]).ex.st ≠ .waitg m) → Answers (.gWindowOpen 0) s fun t =>
        (∃ w, (t.devs[(0 : Fin 4)]).win = some w ∧ w.index = sl.win ∧ (out → w.outLine = some (sl.n - 2)) ∧ (¬ out → w.outLine = none)) ∧
        (out → t.grains.loaded0 &&& parts = 0 ∧ t.grains.loaded1 &&& parts = 0 ∧
          ∀ g, (gangMask parts).getLsbD g = true → t.grains.G0.getLsbD g = s.grains.GP0.getLsbD g ∧ t.grains.G1.getLsbD g = s.grains.GP1.getLsbD g) ∧
        (¬ out → t.grains = s.grains) ∧ Only [.devs, .grains] s t)) ∧
  (∀ (s : State) (d : Fin 4),
    ((s.devs[d]).win = none → exec (.gWindowComplete d) s = .next s) ∧
    (∀ w, (s.devs[d]).win = some w →
      ((s.grains.unstored0 ||| s.grains.unstored1) &&& s.partsOf d ≠ 0 → exec (.gWindowComplete d) s = .next s) ∧
      ((s.grains.unstored0 ||| s.grains.unstored1) &&& s.partsOf d = 0 → s.grains.slip = none → (∀ m, (s.devs[d]).ex.st ≠ .waitg m) →
        (∀ n, w.outLine = some n → ∃ j, s.job = some j) →
        Answers (.gWindowComplete d) s fun t =>
          (t.devs[d]).win = none ∧ (t.devs[d]).ex.winSeen = true ∧
          t.grains.unstored0 &&& s.partsOf d = s.partsOf d ∧ t.grains.unstored1 &&& s.partsOf d = s.partsOf d ∧
          (∀ g, (gangMask (s.partsOf d)).getLsbD g = true →
            t.grains.GC0.getLsbD g = w.in0.getLsbD g ∧ t.grains.GC1.getLsbD g = w.in1.getLsbD g) ∧
          (∀ g, (gangMask (s.partsOf d)).getLsbD g = false →
            t.grains.GC0.getLsbD g = s.grains.GC0.getLsbD g ∧ t.grains.GC1.getLsbD g = s.grains.GC1.getLsbD g) ∧
          (w.outLine = none → t.mems = s.mems ∧ t.job = s.job)))) ∧
  (∀ (s : State) (d : Fin 4),
    (s.job = none ∨ d ≠ 0 ∨ (s.devs[d]).win ≠ none ∨ s.grains.slip ≠ none ∨ (s.cores[devCore d]).run = .mcHalt →
      exec (.processingSlotStart d) s = .next s) ∧
    (∀ j, s.job = some j → j.nextSlot = 0 → d = 0 → s.slotDone 0 j = true → (s.devs[d]).restarting = none → s.grains.slip = none →
      (s.cores[devCore d]).run = .running → (s.devs[d]).win = none → Answers (.processingSlotStart d) s fun t =>
        t.job = some { j with nextSlot := 1 } ∧
        (t.devs[d]).slot = some { n := 0, win := 0, inspecting := j.camGroup.isSome } ∧ Only [.job, .devs] s t))) ∧
  -- R294: a FIFO register is read with VALID = 1 and its head while it holds one, which a read with side effects pops; empty, it reads with VALID = 0
  -- as last written. A push finds room or is held; a held one that has waited 64 us is lost and counted. A 32-bit push is ignored (R141).
  (∀ (s : State) (a : Agent) (p : Fin 4) (v : DWord) (c : Instr) (b : Band) (rest : List Band), c = .fifoRegisterWrite a p 64 v ∨ c = .bandPush a p 64 v →
    (Permits s a .ENL_BAND_PUSH p → s.heldPush = [] → (s.enl[p]).queue.length < 16 → Answers c s fun t =>
      (t.enl[p]).queue = (s.enl[p]).queue ++ [pushed (s.fv F.ENL_BAND_ADDR_ADDR p) v] ∧
      t.heldPush = [] ∧ t.fv F.ENL_STATUS_QDEPTH p = (s.enl[p]).queue.length + 1 ∧
      (∀ q : Fin 4, q ≠ p → t.enl[q] = s.enl[q]) ∧
      Only [.enl, .regs, .latches] s t ∧ OnlyRegs [(.ENL_BAND_PUSH, p.val), (.ENL_STATUS, p.val)] s t) ∧
    (Permits s a .ENL_BAND_PUSH p → s.heldPush = [] → 16 ≤ (s.enl[p]).queue.length → Answers c s fun t =>
      t.heldPush = [{ p := p, band := pushed (s.fv F.ENL_BAND_ADDR_ADDR p) v, by_ := a }] ∧ t.enl = s.enl ∧ Only [.heldPush, .regs, .latches] s t ∧ OnlyRegs [(.ENL_BAND_PUSH, p.val)] s t) ∧
    (Permits s a .ENL_BAND_PUSH p → Answers (.bandPush a p 32 v) s (Ignored s) ∧ Answers (.fifoRegisterWrite a p 32 v) s (Ignored s)) ∧
    (s.heldPush = [{ p := p, band := b, by_ := a }] → Answers (.fifoWriteDiscard p) s fun t => t.heldPush = [] ∧
      t.fv F.SYS_BAD_ACCESS_COUNT = Nat.min (2 ^ 32 - 1) (s.fv F.SYS_BAD_ACCESS_COUNT + 1) ∧ Only [.heldPush, .regs] s t ∧ OnlyRegs [(.SYS_BAD_ACCESS, 0)] s t) ∧
    (s.heldPush = [] → exec (.fifoWriteDiscard p) s = .next s) ∧
    (s.mayRead a .ENL_BAND_PUSH p = true → (s.enl[p]).queue = [] →
      exec (.fifoRegisterRead a p) s = .next (s.emit (.fifoHead false (s.reg .ENL_BAND_PUSH p)))) ∧
    (s.mayRead a .ENL_BAND_PUSH p = true → (s.enl[p]).queue = b :: rest → s.heldPush = [] → Answers (.fifoRegisterRead a p) s fun t =>
      t.out = .fifoHead true b.word :: s.out ∧ (s.readActs a = true → (t.enl[p]).queue = rest) ∧ (s.readActs a = false → t.enl = s.enl) ∧
      Only [.out, .enl, .regs] s t)) ∧
  -- R147, R388: BAND_FEED_START brings the next queued band to the front and checks it: a band in order whose strips pass starts, one that does not
  -- start where FLUSH left the job is ERR 3, and a fault halts the Enlarger with its record. A halted Enlarger, or one already feeding, does not
  -- move. RESTART resumes the halted one at the failing band; FLUSH empties the queues of the gang.
  ((∀ (s u : State) (p : Fin 4) (b : Band) (rest : List Band) (l : Nat), s.hst.staged = [] →
    let e : Enl := s.enl[p]
    (s.on F.ENL_STATUS_HALTED p = true ∨ (e.started = true ∧ e.cur ≠ none) ∨ (e.cur = none ∧ e.queue = []) →
      exec (.bandFeedStart p) s = .next s) ∧
    (s.on F.ENL_STATUS_HALTED p = false → e.cur = none → e.queue = b :: rest → e.expect = none → s.heldPush = [] →
      (((s.modEnl p fun e => { e with cur := some (b, b.first), started := false }).setQueue p rest).checkBand p b (s.bandNpg p)) = (none, u) →
      Answers (.bandFeedStart p) s fun t => (t.enl[p]).cur = some (b, b.first) ∧ (t.enl[p]).started = true ∧ (t.enl[p]).queue = rest ∧
        t = settle s (u.modEnl p fun e => { e with started := true, expect := none })) ∧
    (s.on F.ENL_STATUS_HALTED p = false → e.cur = none → e.queue = b :: rest → e.expect = some l → b.first ≠ l → s.heldPush = [] →
      s.job = none → b.first < 2 ^ 32 → Answers (.bandFeedStart p) s fun t => t.on F.ENL_STATUS_HALTED p = true ∧ t.on F.ENL_STATUS_FAULT p = true ∧
        t.fv F.ENL_STATUS_ERR p = 3 ∧ t.fv F.ENL_STATUS_ERR_LINE p = b.first ∧ Only [.enl, .regs, .free, .cs] s t)) ∧
  (∀ (s : State) (a : Agent) (p : Fin 4), Permits s a .ENL_CTL p →
    (s.on F.ENL_STATUS_HALTED p = true → Answers (.enlRestart a p) s fun t => t.on F.ENL_STATUS_HALTED p = false ∧
      t.on F.ENL_STATUS_FAULT p = s.on F.ENL_STATUS_FAULT p ∧
      (∀ q : Fin 4, t.enl[q] = (if q = p then { (s.enl[q] : Enl) with attempts := (s.enl[q]).attempts + 1 } else s.enl[q])) ∧
      Only [.enl, .regs, .latches] s t ∧ OnlyRegs [(.ENL_CTL, p.val), (.ENL_STATUS, p.val)] s t) ∧
    (s.on F.ENL_STATUS_HALTED p = false → Answers (.enlRestart a p) s fun t => RegsOnly [(.ENL_CTL, p.val)] s t) ∧
    (s.job = none → s.heldPush = [] → Answers (.enlFlush a p) s fun t =>
      (∀ q : Fin 4, ((s.gangOf p).getLsbD q.val = true →
          (t.enl[q]).queue = [] ∧ (t.enl[q]).cur = none ∧ (t.enl[q]).expect = some (s.enl[q]).fed ∧ t.fv F.ENL_STATUS_QDEPTH q = 0) ∧
        ((s.gangOf p).getLsbD q.val = false → t.enl[q] = s.enl[q])) ∧
      Only [.enl, .regs, .latches] s t)))

/-- Encoder counts, the pacer, and how a line is claimed. -/
def Obligations.EncodersAndLines : Prop :=
  -- R156-R158: ENCODER_COUNT accepts new levels of a channel: a disabled channel counts nothing, a change of both levels is counted in QERR alone,
  -- and a count of the line channel moves LINEPOS by PITCH, forward through 00, 10, 11, 01 of (A, B) unless INV, and is counted in OVERSPEED when it
  -- comes too soon. The pacer adds 1.0. A rise of the integer part above HIGH makes the line tick and sets HIGH.
  ((∀ (s : State) (ch : Fin 4) (a b : Bool) (dt : Nat),
    let e : EncSt := s.sht.enc[ch]
    let inv := s.on F.SHT_ENC_CTL_INV ch
    let forward : Bool := [(false, false, true, false), (true, false, true, true), (true, true, false, true), (false, true, false, false)].contains
      (e.a, e.b, a, b)
    (s.active = false → exec (.encoderCount ch a b dt) s = .next s) ∧
    (s.active = true → s.on F.SHT_ENC_CTL_ENABLE ch = false ∨ (e.a = a ∧ e.b = b) → Answers (.encoderCount ch a b dt) s fun t =>
      (t.sht.enc[ch]).a = a ∧ (t.sht.enc[ch]).b = b ∧ Only [.sht] s t) ∧
    (s.active = true → s.on F.SHT_ENC_CTL_ENABLE ch = true → e.a ≠ a → e.b ≠ b → Answers (.encoderCount ch a b dt) s fun t =>
      t.fv F.SHT_ENC_CTL_QERR ch = Nat.min 255 (s.fv F.SHT_ENC_CTL_QERR ch + 1) ∧
      (t.sht.enc[ch]).a = a ∧ (t.sht.enc[ch]).b = b ∧ Only [.sht, .regs] s t ∧ OnlyRegs [(.SHT_ENC_CTL, ch.val)] s t) ∧
    (s.active = true → s.on F.SHT_ENC_CTL_ENABLE ch = true → (e.a ≠ a ∧ e.b = b) ∨ (e.a = a ∧ e.b ≠ b) →
      Answers (.encoderCount ch a b dt) s fun t =>
        ((s.fv F.SHT_CTL_SRC = 0 ∧ s.fv F.SHT_CTL_ENC_SEL = ch.val) → s.job = none → s.scanning = false →
          t.reg .SHT_LINEPOS = (if forward != inv then s.reg .SHT_LINEPOS + s.reg .SHT_PITCH else s.reg .SHT_LINEPOS - s.reg .SHT_PITCH)) ∧
        ((s.fv F.SHT_CTL_SRC ≠ 0 ∨ s.fv F.SHT_CTL_ENC_SEL ≠ ch.val) → Only [.sht, .regs] s t ∧ OnlyRegs [(.SHT_ENC_CTL, ch.val)] s t ∧
          t.fv F.SHT_ENC_CTL_OVERSPEED ch = (if e.counted = true ∧ dt < s.fv F.SHT_ENC_CTL_MIN_INT ch then
            Nat.min 255 (s.fv F.SHT_ENC_CTL_OVERSPEED ch + 1) else s.fv F.SHT_ENC_CTL_OVERSPEED ch)))) ∧
  (∀ s : State, (s.active = false ∨ s.fv F.SHT_CTL_SRC ≠ 1 ∨ s.fv F.SHT_CTL_PACE = 0 → exec .pacerTick s = .next s) ∧
    (s.active = true → s.fv F.SHT_CTL_SRC = 1 → s.fv F.SHT_CTL_PACE ≠ 0 → s.job = none → s.scanning = false → Answers .pacerTick s fun t =>
      t.reg .SHT_LINEPOS = s.reg .SHT_LINEPOS + 0x100000000 ∧ Only [.regs, .sht, .cam, .out] s t ∧ OnlyRegs [(.SHT_LINEPOS, 0)] s t)) ∧
  (∀ (s : State) (pos : Int), s.scanning = false → s.job = none → -(2 ^ 63) ≤ pos → pos < 2 ^ 63 →
    let t := s.moveLinepos pos
    let old := s.linepos / 2 ^ 32
    let new := pos / 2 ^ 32
    (s.sht.high < new → old < new → t.sht.high = new) ∧ (new ≤ s.sht.high ∨ new ≤ old → t = s.setReg .SHT_LINEPOS (BitVec.ofInt 64 pos)))) ∧
  -- R157, R158, R265: a software write of LINEPOS loads it, and HIGH takes its integer part; the index pulse of the line channel loads 0 under
  -- IDX_ORG, or starts the job that waits for it; a stall of the line channel in Print sets STALL and asks for a Hold with cause 1.
  ((∀ (s : State) (a : Agent) (v : DWord), Permits s a .SHT_LINEPOS 0 → s.scanning = false →
    (s.jobRunning = false → Answers (.lineposWrite a v) s fun t => t.reg .SHT_LINEPOS = v ∧ t.sht.high = v.toInt / 2 ^ 32 ∧
      Only [.regs, .sht, .latches] s t ∧ OnlyRegs [(.SHT_LINEPOS, 0)] s t) ∧
    (s.jobRunning = true → exec (.lineposWrite a v) s = .next (settle s
      (let u := { (s.unlatch .SHT_LINEPOS 0).setReg .SHT_LINEPOS v with sht := { s.sht with high := v.toInt / 2 ^ 32 } }
       (((u.claimTo (v.toInt / 2 ^ 32)).armLoaded (v.toInt / 2 ^ 32)).checkBoundary))))) ∧
  (∀ (s : State) (ch : Fin 4),
    (s.active = false ∨ s.fv F.SHT_CTL_ENC_SEL ≠ ch.val → exec (.encoderIndex ch) s = .next s) ∧
    (s.active = true → s.fv F.SHT_CTL_ENC_SEL = ch.val → s.job = none →
      (s.fv F.SHT_CTL_SRC = 0 → s.on F.SHT_ENC_CTL_IDX_ORG ch = true → s.scanning = false → Answers (.encoderIndex ch) s fun t =>
        t.reg .SHT_LINEPOS = 0 ∧ t.sht.high = 0 ∧ Only [.regs, .sht] s t) ∧
      (s.fv F.SHT_CTL_SRC ≠ 0 ∨ s.on F.SHT_ENC_CTL_IDX_ORG ch = false → exec (.encoderIndex ch) s = .next s)) ∧
    (∀ j, s.active = true → s.fv F.SHT_CTL_ENC_SEL = ch.val → s.job = some j → j.phase = .awaitStart → j.startMode = 1 →
      exec (.encoderIndex ch) s = .next (settle s s.startJob))) ∧
  (∀ (s : State) (ch : Fin 4),
    (s.mode ≠ 4 ∨ s.fv F.SHT_CTL_SRC ≠ 0 ∨ s.fv F.SHT_CTL_ENC_SEL ≠ ch.val ∨ s.fv F.SHT_ENC_CTL_STALL_US ch = 0 →
      exec (.encoderStall ch) s = .next s) ∧
    (s.mode = 4 → s.fv F.SHT_CTL_SRC = 0 → s.fv F.SHT_CTL_ENC_SEL = ch.val → s.fv F.SHT_ENC_CTL_STALL_US ch ≠ 0 →
      (∀ j, s.job = some j → exec (.encoderStall ch) s = .next (settle s
        (((s.fset F.SHT_STATUS_STALL 1).raiseJob .encoderStall (j.claimed * 2 ^ 32 % 2 ^ 64 + ch.val)).requestHold 0 1 none 0 false none))) ∧
      (s.job = none → Answers (.encoderStall ch) s fun t => t.on F.SHT_STATUS_STALL = true ∧
        t.sht.holdReqs.length = s.sht.holdReqs.length + 1 ∧ Only [.regs, .sht] s t ∧ OnlyRegs [(.SHT_STATUS, 0)] s t))))

/-- The FIRE blocks of a line on a lane. -/
def Sys2Proof.Claims.fires (out : List Out) (l : Fin 16) (g : Fin 64) (n : Nat) (blank rev : Bool) : Nat :=
  out.countP fun o => match o with
    | .fire l' g' n' b' r' _ => decide (l' = l.val ∧ g' = g.val ∧ n' = n ∧ b' = blank ∧ r' = rev)
    | _ => false

/-- Group fires and the timers. -/
def Obligations.FiresAndTimers : Prop :=
  -- R159, R166, R177, R185: a group's timer fires the line it is armed for, unless a Hold bars it; the fire is in-band, in two blocks, on the lanes
  -- that are UP and carry its heads, and on its wired output, active for at least 5 ticks, unless the line is blank; the line counts as fired when
  -- every enabled group has fired it. The two blocks go out back to back from a boundary no earlier than 20 ns after the fire, DELAY in each what is
  -- left of 256 ns; one that starts in time leaves LATE_FIRE as it was.
  ((∀ (s : State) (g : Fin 64) (r : Bool),
    (s.job = none → exec (.groupFire g r) s = .next s) ∧
    (∀ j, s.job = some j → (j.groups[g]).armed = none → exec (.groupFire g r) s = .next s) ∧
    (∀ j n, s.job = some j → (j.groups[g]).armed = some n → s.barred n = true → Answers (.groupFire g r) s fun t =>
      t = s.modJob (fun j => j.setGroup g (let x : GroupSt := j.groups[g]; { x with armed := none, nextArm := n }))) ∧
    (∀ j n, s.job = some j → (j.groups[g]).armed = some n → s.barred n = false →
      (r = false → exec (.groupFire g r) s = .next (settle s ((s.fireGroup g n).checkBoundary))) ∧
      (r = true → exec (.groupFire g r) s = .next (settle s (((s.headReadsFailed n).fireGroup g n).checkBoundary))))) ∧
  (∀ (s : State) (g : Fin 64) (n : Nat) (j : Job), s.job = some j →
    let t := s.fireGroup g n
    ∃ j', t.job = some j' ∧ (j'.groups[g]).armed = none ∧ (j'.groups[g]).nextFire = n + 1 ∧
      (∀ k : Fin 64, k ≠ g → j'.groups[k] = j.groups[k]) ∧
      (s.on F.SHT_GRP_WIRED_EN g = true → j.missed.contains n = false → t.sht.wired.getLsbD (s.fv F.SHT_GRP_WIRED g) = true ∧
        t.sht.wiredEnd = s.sht.wiredEnd.set (Fin.ofNat 16 (s.fv F.SHT_GRP_WIRED g))
          (s.devTime + BitVec.ofNat 64 (Nat.max 5 (s.fv F.HP_WIRED_WIDTH (s.fv F.SHT_GRP_WIRED g))))) ∧
      (s.on F.SHT_GRP_WIRED_EN g = false ∨ j.missed.contains n = true → t.sht.wired = s.sht.wired) ∧
      (∀ l : Fin 16, (s.on F.SHT_GRP_INBAND g = false ∨ s.fv F.HP_LANE_STATUS_STATE l ≠ 2 ∨ s.laneCarries l g = false) →
        fires t.out l g n (j.missed.contains n) (s.reverseLine n) = fires s.out l g n (j.missed.contains n) (s.reverseLine n)) ∧
      (∀ l : Fin 16, s.on F.SHT_GRP_INBAND g = true → s.fv F.HP_LANE_STATUS_STATE l = 2 → s.laneCarries l g = true →
        fires t.out l g n (j.missed.contains n) (s.reverseLine n) = fires s.out l g n (j.missed.contains n) (s.reverseLine n) + 2)) ∧
  (∀ (s : State) (l : Fin 16) (g n : Nat) (blank rev : Bool),
    let t := s.sendFire l g n blank rev
    let now := 25 * s.devTime.toNat
    let len := if s.fv F.HP_LANE_CTL_GEN l = 2 then 32 else 144
    ∃ q, now + 100 ≤ q ∧ t.out = .fire l g n blank rev ((1280 - (q + len - now) + 2) / 5) ::
        .fire l g n blank rev ((1280 - (q - now) + 2) / 5) :: s.out ∧
      (q + len ≤ now + 1280 → t.regs = s.regs) ∧ Only [.regs, .lanes, .out] s t ∧ OnlyRegs [(.HP_LANE_STATUS, l.val)] s t)) ∧
  -- R160, R185, R379: what timers of the other owners do when they expire, and the ends of pulses, a wired one not before its WIDTH has passed and by
  -- its polarity; TIMER_CLAIM and TIMER_RELEASE are the same register's: a claim of a timer owned otherwise changes nothing and sets CLAIM_REJ, and a
  -- release of one that serves an enabled group in Print or Hold is ignored.
  ((∀ (s : State) (t : Fin 64),
    (s.active = false ∨ s.fv F.SHT_TIMER_OWNER t ≠ 2 → exec (.cameraTrigger t) s = .next s) ∧
    (∀ c : Fin 4, s.active = true → s.fv F.SHT_TIMER_OWNER t = 2 → s.fv F.SHT_TIMER_TARGET t % 4 = c.val → s.fv F.CAM_CAM_CFG_TRIG c = 0 →
      s.on F.CAM_CTL_ENABLE = true → s.on F.CAM_CAM_CFG_ENABLE c = true → s.job = none → Answers (.cameraTrigger t) s fun u =>
        u.out = .camTrigger c (s.tickBase + s.sht.high) :: s.out ∧ u.cam.due[c] = s.cam.due[c] ++ [(s.tickBase + s.sht.high).toNat] ∧
        Only [.out, .cam] s u) ∧
    (s.active = false ∨ s.fv F.SHT_TIMER_OWNER t ≠ 3 → exec (.fabricTimerExpiry t) s = .next s) ∧
    (s.active = true → s.fv F.SHT_TIMER_OWNER t = 3 → exec (.fabricTimerExpiry t) s = .next (s.emit (.fabEvent (s.fv F.SHT_TIMER_TARGET t)))) ∧
    (s.active = false ∨ s.fv F.SHT_TIMER_OWNER t ≠ 4 → exec (.outputTimerExpiry t) s = .next s) ∧
    (∀ o : Fin 16, s.active = true → s.fv F.SHT_TIMER_OWNER t = 4 → s.fv F.SHT_TIMER_TARGET t = o.val → Answers (.outputTimerExpiry t) s fun u =>
      (u.sht.dout[o]).pulse = true ∧ (∀ k : Fin 16, k ≠ o → u.sht.dout[k] = s.sht.dout[k]) ∧ Only [.sht, .out] s u)) ∧
  (∀ (s : State) (o : Fin 16), (Answers (.outputPulseEnd o) s fun u => (u.sht.dout[o]).pulse = false ∧
      (∀ k : Fin 16, k ≠ o → u.sht.dout[k] = s.sht.dout[k]) ∧ Only [.sht, .out] s u) ∧
    (s.sht.wired.getLsbD o.val = false ∨ s.devTime.toNat < (s.sht.wiredEnd[o]).toNat → exec (.wiredPulseEnd o) s = .next s) ∧
    (s.sht.wired.getLsbD o.val = true → (s.sht.wiredEnd[o]).toNat ≤ s.devTime.toNat → Answers (.wiredPulseEnd o) s fun u => u.sht.wired.getLsbD o.val = false ∧
      (∀ k, k ≠ o.val → u.sht.wired.getLsbD k = s.sht.wired.getLsbD k) ∧ u.out = .wired o (s.on F.HP_WIRED_POL o) 0 :: s.out ∧ Only [.sht, .out] s u)) ∧
  (∀ (s : State) (a : Agent) (t : Fin 64) (v : BitVec 32) (c : Instr), Permits s a .SHT_TIMER t → c = .timerClaim a t v ∨ c = .timerRelease a t v →
    let owner := (v.extractLsb' 29 3).toNat
    let target := (v.extractLsb' 22 6).toNat
    let now := s.fv F.SHT_TIMER_OWNER t
    (owner ≠ 0 → now ≠ 0 → now ≠ owner ∨ s.fv F.SHT_TIMER_TARGET t ≠ target → Answers c s fun u =>
      u.on F.SHT_TIMER_CLAIM_REJ t = true ∧ u.fv F.SHT_TIMER_OWNER t = now ∧ u.fv F.SHT_TIMER_TARGET t = s.fv F.SHT_TIMER_TARGET t ∧
      RegsOnly [(.SHT_TIMER, t.val)] s u) ∧
    ((owner ≠ 0 ∧ (now = 0 ∨ (now = owner ∧ s.fv F.SHT_TIMER_TARGET t = target))) ∨ (owner = 0 ∧ s.mode ≠ 4 ∧ s.mode ≠ 5) → Answers c s fun u =>
      u.fv F.SHT_TIMER_OWNER t = owner ∧ u.fv F.SHT_TIMER_TARGET t = target ∧ RegsOnly [(.SHT_TIMER, t.val)] s u) ∧
    (owner = 0 → s.mode = 4 ∨ s.mode = 5 → now = 1 → s.on F.SHT_GRP_ENABLE (s.fv F.SHT_TIMER_TARGET t) = true → Answers c s (Ignored s))))

/-- The hold register, the Nozzle Map and swaths. -/
def Obligations.HoldAndNozzleMap : Prop :=
  -- R155, R162, R163, R167: SHT_HOLD. REQ in Print registers a request at its effective boundary and is ignored outside Print and Hold; in Hold it
  -- takes the present boundary and clears; RESUME in Hold ends it, unless the map is at fault or a print Developer is halted, or waits while it is
  -- held back, asking again for the strips of a print-gang Enlarger that has used its three attempts (R147); in Print it withdraws the requests of
  -- cause 0 and 1. The timer's end ends the Hold as a RESUME does.
  ((∀ (s : State) (a : Agent) (v : DWord) (c : Instr), Permits s a .SHT_HOLD 0 → c = .holdReqWrite a v ∨ c = .holdResumeWrite a v →
    let req := v.getLsbD 63
    let resume := v.getLsbD 60
    let line := v.toNat % 2 ^ 32
    (req = true → resume = false → s.mode ≠ 4 → s.mode ≠ 5 → Answers c s fun t =>
      t.on F.SHT_HOLD_REQ = s.on F.SHT_HOLD_REQ ∧ t.sht = s.sht ∧ RegsOnly [(.SHT_HOLD, 0)] s t) ∧
    (∀ h, req = true → resume = false → s.mode = 5 → s.sht.held = some h → h.b < 2 ^ 32 → Answers c s fun t =>
      t.fv F.SHT_HOLD_AT_LINE = h.b ∧ t.on F.SHT_HOLD_REQ = s.on F.SHT_HOLD_REQ ∧ t.sht = s.sht ∧ RegsOnly [(.SHT_HOLD, 0)] s t) ∧
    (∀ j, req = true → resume = false → s.mode = 4 → s.sht.held = none → s.sht.holdReqs = [] → s.scanning = false → s.job = some j →
      j.phase = .running → j.fired < j.length → j.abortAt = none → s.nextBoundary ≤ line → j.fired < line → Answers c s fun t =>
        t.sht.holdReqs.map (fun r => (r.b, r.asked, r.cause, r.strip, r.cmd)) = [(line, line, 0, none, none)] ∧ t.on F.SHT_HOLD_REQ = true ∧
        t.fv F.SHT_HOLD_AT_LINE = line ∧ t.on F.SHT_HOLD_ABRUPT = v.getLsbD 62 ∧
        Only [.sht, .regs, .latches] s t ∧ OnlyRegs [(.SHT_HOLD, 0)] s t) ∧
    (∀ h, req = false → resume = true → s.mode = 5 → s.sht.held = some h → s.mapFault = none → s.printHalted = false →
      let u := ((s.unlatch .SHT_HOLD 0).fset F.SHT_HOLD_ABRUPT (v.extractLsb' 62 1).toNat).fset F.SHT_HOLD_AT_LINE line
      (s.heldBack h = false → exec c s = .next (settle s (u.refetchAgain.endHold []))) ∧
      (s.heldBack h = true → Answers c s fun t => t.on F.SHT_HOLD_RESUME = true ∧
        t.sht = (let x := s.sht; { x with held := some { h with endWaits := true } }) ∧ t.out = s.refetchAgain.out ∧
        Only [.sht, .regs, .latches, .out] s t)) ∧
    (∀ h, req = false → resume = true → s.mode = 5 → s.sht.held = some h → s.mapFault ≠ none ∨ s.printHalted = true → Answers c s fun t =>
      t.sht = s.sht ∧ t.out = s.refetchAgain.out ∧ Only [.regs, .latches, .out] s t ∧ OnlyRegs [(.SHT_HOLD, 0)] s t) ∧
    (req = false → resume = true → s.mode = 4 → Answers c s fun t =>
      t.sht.holdReqs = s.sht.holdReqs.filter (fun r => decide (1 < r.cause)) ∧ t.on F.SHT_HOLD_REQ = false ∧ t.mode = 4)) ∧
  (∀ s : State,
    (s.sht.held = none → exec .holdTimerExpiry s = .next s) ∧
    (∀ h, s.sht.held = some h → h.timer = none → exec .holdTimerExpiry s = .next s) ∧
    (∀ h, s.sht.held = some h → h.timer ≠ none →
      let u : State := { s with sht := { s.sht with held := some { h with timer := none } } }
      (s.mapFault ≠ none ∨ s.printHalted = true → exec .holdTimerExpiry s = .next u) ∧
      (s.mapFault = none → s.printHalted = false → s.heldBack h = false → exec .holdTimerExpiry s = .next (settle s (u.endHold []))) ∧
      (s.mapFault = none → s.printHalted = false → s.heldBack h = true → exec .holdTimerExpiry s =
        .next { s with sht := { s.sht with held := some { h with timer := none, endWaits := true } } })))) ∧
  -- R154, R155, R161: a write of the Nozzle Map stores the entry at IDX, which advances with INC, in the modes that write it, and is ignored in the
  -- others; the next swath arms once the last line of the present one has fired and the carriage stands before it.
  ((∀ (s : State) (a : Agent) (v : BitVec 32), Permits s a .SHT_NMAP_DATA 0 →
    let i := s.fv F.SHT_NMAP_IDX_IDX
    let opens : Prop := s.mode = 3 ∨ s.mode = 5 ∨ s.mode = 6 ∨ s.mode = 7 ∨ s.mode = 11
    (¬ opens → Answers (.nozzleMapWrite a v) s (Ignored s)) ∧
    (opens → Answers (.nozzleMapWrite a v) s fun t =>
      smGet (fun _ => (0 : BitVec 32)) t.mems.nmap i = v ∧
      (∀ k, k ≠ i → smGet (fun _ => (0 : BitVec 32)) t.mems.nmap k = smGet (fun _ => (0 : BitVec 32)) s.mems.nmap k) ∧
      t.mems = (let m := s.mems; { m with nmap := t.mems.nmap }) ∧
      t.fv F.SHT_NMAP_IDX_IDX = (if s.on F.SHT_NMAP_IDX_INC then (i + 1) % 2 ^ 19 else i) ∧
      Only [.mems, .regs, .latches] s t ∧ OnlyRegs [(.SHT_NMAP_DATA, 0), (.SHT_NMAP_IDX, 0)] s t)) ∧
  (∀ s : State,
    (s.job = none ∨ (s.mode ≠ 4 ∧ s.mode ≠ 5) ∨ s.scanning = false → exec .swathArm s = .next s) ∧
    (∀ j, s.job = some j → s.mode = 4 ∨ s.mode = 5 → s.fv F.SHT_SWATH_MODE = 1 → s.swathLen ≠ 0 →
      (s.sht.swath.number + 1) * s.swathLen ≤ j.fired → (s.sht.swath.number + 1) * s.swathLen < j.length → s.linepos < 0 →
      s.on F.SHT_SWATH_GATE_EN = false → Answers .swathArm s fun t =>
        t.sht = (let x := s.sht; { x with high := -1, swath := { number := x.swath.number + 1, armed := true } }) ∧ Only [.sht] s t) ∧
    (∀ j, s.job = some j → j.fired < (s.sht.swath.number + 1) * s.swathLen → exec .swathArm s = .next s)))

/-! ## The control registers -/

namespace Sys2Proof.Claims

/-- The registers a write of which does more, or other, than its fields' access codes say. -/
def ownRule : List RegName :=
  [.GRN_GANG, .GRN_INIT, .GRN_SLIP_CMD, .DEV_UC_ADDR, .DEV_UC_DATA, .ENL_BAND_PUSH, .ENL_CTL, .SHT_LINEPOS, .SHT_PITCH, .SHT_TIMER, .SHT_GRP,
    .SHT_HOLD, .SHT_NMAP_DATA, .SHT_DOUT_CTL, .HP_LANE_CTL, .HP_TEL_PTR, .HP_TEL_BASE, .FAB_REGION_CTL, .FAB_PIN_OWNER, .CAM_TSWAP,
    .CAM_CAM_CFG, .HST_SQ_CFG, .HST_CQ_CFG, .HST_EQ_CFG, .HST_SQ_BASE, .HST_CQ_BASE, .HST_EQ_BASE, .HST_PERM, .HST_CTL, .JS_REBUILD,
    .JS_SLED_CTL, .NOC_RT_DATA, .NOC_RT_CTL, .DDR_MIRROR, .ECC_SCAN_CTL, .ECC_INIT, .ECC_FLIP_CTL, .SYS_CLK_CTL, .PWR_WAKE, .SEC_LC_CTL,
    .DBG_CTL, .DBG_HALT, .DBG_UNLOCK_CTL, .LP_CTL, .LP_SEL, .CS_CTL]

/-- The registers of which a read shows another part of the state. -/
def overlaid : List RegName :=
  [.SYS_DEV_TIME, .SYS_CLK_STATUS, .PWR_STATUS, .PWR_THERM, .SEC_STATE, .SEC_SERIAL, .DBG_HALT, .DEV_UCODE_VER, .DEV_AIQ_STATUS, .SHT_RESERVE,
    .SHT_NMAP_DATA, .NOC_RT_DATA, .ENL_BAND_PUSH, .JS_SLED_CTL]

/-- The table of access codes (R9) on one bit: the bit that stood and the bit written give the bit after. -/
def byCode : Acc → Bool → Bool → Bool
  | .rw, _, new => new
  | .rwh, _, new => new
  | .cnt, _, new => new
  | .db, _, new => new
  | .wo, _, new => new
  | .w1c, old, new => old && !new
  | .w1s, old, new => old || new
  | .ro, old, _ => old
  | .rc, old, _ => old

/-- Every field of the register has the bits that `new` gives it, by its code and its bit place; the bits of no field are 0. -/
def FieldsAre (r : RegName) (w : DWord) (new : Acc → Nat → Bool) : Prop :=
  (∀ f ∈ (regInfo r).fields, ∀ k, f.lo ≤ k → k < f.lo + f.w → w.getLsbD k = new f.acc k) ∧
  (∀ k, (∀ f ∈ (regInfo r).fields, k < f.lo ∨ f.lo + f.w ≤ k) → w.getLsbD k = false)

/-- The access lies in one register's word at this offset: the register, the instance, and whether it is the high half. -/
def Meets (s : State) (a : Agent) (addr : Nat) (r : RegName) (i : Nat) (high : Bool) : Prop :=
  s.reaches a = true ∧ ∃ o, agentAddr a addr = some o ∧ o < 0x1000000 ∧ regAt o = some (r, i, high)

/-- The register a write command writes, and the agent that writes it. -/
def writes : Instr → Option (Agent × RegName × Nat)
  | .grnGangWrite a _ => some (a, .GRN_GANG, 0)
  | .grnInit a _ => some (a, .GRN_INIT, 0)
  | .slipGo a _ => some (a, .GRN_SLIP_CMD, 0)
  | .bootSlip a _ => some (a, .GRN_SLIP_CMD, 0)
  | .ucAddrWrite a d _ => some (a, .DEV_UC_ADDR, d)
  | .ucDataWrite a d _ => some (a, .DEV_UC_DATA, d)
  | .ucodeLock a d => some (a, .DEV_UCODE_CTL, d)
  | .fifoRegisterWrite a p _ _ => some (a, .ENL_BAND_PUSH, p)
  | .bandPush a p _ _ => some (a, .ENL_BAND_PUSH, p)
  | .enlFlush a p => some (a, .ENL_CTL, p)
  | .enlRestart a p => some (a, .ENL_CTL, p)
  | .lineposWrite a _ => some (a, .SHT_LINEPOS, 0)
  | .timerClaim a t _ => some (a, .SHT_TIMER, t)
  | .timerRelease a t _ => some (a, .SHT_TIMER, t)
  | .holdReqWrite a _ => some (a, .SHT_HOLD, 0)
  | .holdResumeWrite a _ => some (a, .SHT_HOLD, 0)
  | .nozzleMapWrite a _ => some (a, .SHT_NMAP_DATA, 0)
  | .telRdWrite a _ => some (a, .HP_TEL_PTR, 0)
  | .regionSwapRequest a r _ => some (a, .FAB_REGION_CTL, r)
  | .pinOwnerClaim a _ => some (a, .FAB_PIN_OWNER, 0)
  | .pinOwnerRelease a _ => some (a, .FAB_PIN_OWNER, 0)
  | .tableSwapRequest a _ => some (a, .CAM_TSWAP, 0)
  | .sledOffline a k => some (a, .JS_SLED_CTL, k)
  | .rebuildPause a => some (a, .JS_REBUILD, 0)
  | .rebuildResume a => some (a, .JS_REBUILD, 0)
  | .routeDataWrite a ni _ => some (a, .NOC_RT_DATA, ni)
  | .commit a => some (a, .NOC_RT_CTL, 0)
  | .scanGo a _ => some (a, .ECC_SCAN_CTL, 0)
  | .eccInit a _ => some (a, .ECC_INIT, 0)
  | .flipArm a _ => some (a, .ECC_FLIP_CTL, 0)
  | .wake a => some (a, .PWR_WAKE, 0)
  | .lifecycleRequest a _ _ => some (a, .SEC_LC_CTL, 0)
  | .debugLevelRequest a _ => some (a, .DBG_CTL, 0)
  | .unlockChallenge a => some (a, .DBG_UNLOCK_CTL, 0)
  | .unlockGo a => some (a, .DBG_UNLOCK_CTL, 0)
  | .debugHalt a _ => some (a, .DBG_HALT, 0)
  | .step a _ => some (a, .DBG_HALT, 0)
  | .dbgResume a _ => some (a, .DBG_HALT, 0)
  | .loupeClaim a _ => some (a, .LP_CTL, 0)
  | .loupeRelease a _ => some (a, .LP_CTL, 0)
  | .hostTrigger a _ => some (a, .CS_CTL, 0)
  | _ => none

/-- The refused access is counted in SYS_BAD_ACCESS (R7, R10), and nothing else changes. -/
def Counted (s t : State) : Prop :=
  t.fv F.SYS_BAD_ACCESS_COUNT = Nat.min (2 ^ 32 - 1) (s.fv F.SYS_BAD_ACCESS_COUNT + 1) ∧ Only [.regs] s t ∧ OnlyRegs [(.SYS_BAD_ACCESS, 0)] s t

end Sys2Proof.Claims

/-- A write to a register acts on each field by its access code, and on nothing if it is refused. -/
def Obligations.RegisterWrites : Prop :=
  -- R7-R9, R11: a register with no rule of its own takes a write field by field, by the fields' access codes; a write of one half changes that half
  -- alone; a 64-bit access of two 32-bit registers is two accesses, the low one first; a narrow or misaligned write changes nothing and is counted.
  (∀ (s : State) (a : Agent) (addr : Nat) (v : DWord),
    (∀ r i high, Meets s a addr r i high → s.mayWrite a r i = true → r ∉ ownRule →
      ((regInfo r).width = 32 → addr % 4 = 0 → Answers (.registerWrite a addr 32 v) s fun t =>
        FieldsAre r (t.reg r i) (fun c k => byCode c ((s.reg r i).getLsbD k) (v.getLsbD k)) ∧ RegsOnly [(r, i)] s t) ∧
      ((regInfo r).width = 64 → addr % 8 = 0 → high = false → Answers (.registerWrite a addr 64 v) s fun t =>
        FieldsAre r (t.reg r i) (fun c k => byCode c ((s.reg r i).getLsbD k) (v.getLsbD k)) ∧ RegsOnly [(r, i)] s t) ∧
      ((regInfo r).width = 64 → addr % 4 = 0 → Answers (.registerWrite a addr 32 v) s fun t =>
        FieldsAre r (t.reg r i) (fun c k =>
          if decide (32 ≤ k) = high then byCode c ((s.reg r i).getLsbD k) (v.getLsbD (k % 32)) else (s.reg r i).getLsbD k) ∧
        smGet (fun _ => none) t.latches (regKey r i) = none ∧ RegsOnly [(r, i)] s t)) ∧
    (∀ r i r' i', addr % 8 = 0 → Meets s a addr r i false → Meets s a (addr + 4) r' i' false → (regInfo r).width = 32 → (regInfo r').width = 32 →
      r ∉ ownRule → r' ∉ ownRule → ∃ t u, exec (.registerWrite a addr 32 (v &&& 0xFFFFFFFF)) s = .next t ∧
        exec (.registerWrite a (addr + 4) 32 (v >>> (32 : Nat))) t = .next u ∧ exec (.registerWrite a addr 64 v) s = .next u) ∧
    (∀ bits, s.reaches a = true → ¬ (bits = 32 ∧ addr % 4 = 0) → ¬ (bits = 64 ∧ addr % 8 = 0) →
      Answers (.registerWrite a addr bits v) s (Counted s)) ∧
    (∀ bits, s.reaches a = false → exec (.registerWrite a addr bits v) s = .next s) ∧
    (∀ r i high, Meets s a addr r i high → s.mayWrite a r i = false → addr % 4 = 0 → Answers (.registerWrite a addr 32 v) s (Counted s))) ∧
  -- R345, R7: a write that its agent may not make is ignored and counted, whatever register command makes it, and one whose agent does not reach the
  -- module does nothing.
  (∀ (c : Instr) (a : Agent) (r : RegName) (i : Nat) (s : State), Claims.writes c = some (a, r, i) →
    (s.reaches a = true → s.mayWrite a r i = false → Answers c s (Counted s)) ∧ (s.reaches a = false → exec c s = .next s))

/-- R7, R9, R12: a 32-bit read of the low half of a 64-bit register latches its high half; the next 32-bit read of the high half returns the latched
half and releases it, and returns the live one where none is latched; a 64-bit read uses no latch. A read clears RC fields, but not a debug read
without READ_ACT, and shows WO fields as 0; a narrow or misaligned read returns 0 and is counted. -/
def Obligations.RegisterReads : Prop :=
  ∀ (s : State) (a : Agent) (addr : Nat),
    (∀ r i high, Meets s a addr r i high → s.mayRead a r i = true → r ∉ overlaid → FieldsAre r (s.reg r i) (fun _ k => (s.reg r i).getLsbD k) →
      let shown : DWord := s.readValue r i
      let latch : Option Word := smGet (fun _ => none) s.latches (regKey r i)
      let leaves (m : Nat → Bool) (t : State) : Prop :=
        FieldsAre r (t.reg r i) (fun c k => if c = .rc ∧ s.readActs a = true ∧ m k = true then false else (s.reg r i).getLsbD k) ∧
        Only [.regs, .latches, .out, .free] s t ∧ OnlyRegs [(r, i)] s t
      FieldsAre r shown (fun c k => if c = .wo then false else (s.reg r i).getLsbD k) ∧
      ((regInfo r).width = 32 → addr % 4 = 0 → Answers (.halfReadLatch a addr 32) s fun t =>
        t.out = .value shown :: s.out ∧ t.latches = s.latches ∧ leaves (fun _ => true) t) ∧
      ((regInfo r).width = 64 → addr % 8 = 0 → high = false → Answers (.halfReadLatch a addr 64) s fun t =>
        t.out = .value shown :: s.out ∧ t.latches = s.latches ∧ leaves (fun _ => true) t) ∧
      ((regInfo r).width = 64 → addr % 4 = 0 → high = false → Answers (.halfReadLatch a addr 32) s fun t =>
        t.out = .value (shown &&& 0xFFFFFFFF) :: s.out ∧
        smGet (fun _ => none) t.latches (regKey r i) = some ((shown >>> (32 : Nat)).setWidth 32) ∧ Only [.regs, .latches, .out, .free] s t) ∧
      ((regInfo r).width = 64 → addr % 4 = 0 → high = true → Answers (.halfReadLatch a addr 32) s fun t =>
        t.out = .value (match latch with | some x => x.setWidth 64 | none => shown >>> (32 : Nat)) :: s.out ∧
        smGet (fun _ => none) t.latches (regKey r i) = none ∧ Only [.regs, .latches, .out, .free] s t)) ∧
    (∀ bits, s.reaches a = true → ¬ (bits = 32 ∧ addr % 4 = 0) → ¬ (bits = 64 ∧ addr % 8 = 0) → Answers (.halfReadLatch a addr bits) s fun t =>
      t.out = .value 0 :: s.out ∧ t.fv F.SYS_BAD_ACCESS_COUNT = Nat.min (2 ^ 32 - 1) (s.fv F.SYS_BAD_ACCESS_COUNT + 1) ∧
      Only [.regs, .out] s t ∧ OnlyRegs [(.SYS_BAD_ACCESS, 0)] s t)

/-! ## Head ports -/

namespace Sys2Proof.Claims

/-- The command's whole effect is that the state becomes `u`. -/
def Does (c : Instr) (s u : State) : Prop := exec c s = .next (settle s u)

/-- Every lane but one is as it was. -/
def OtherLanes (l : Fin 16) (s t : State) : Prop := ∀ k : Fin 16, k ≠ l → t.lanes[k] = s.lanes[k]

end Sys2Proof.Claims

/-- Lanes: frames, acknowledgement, states and telemetry. -/
def Obligations.HeadPorts : Prop :=
  -- R174: a lane or pair sends a new frame with the next sequence number while fewer than 8 are unacknowledged; ACK retires every frame up to the one
  -- named, cumulatively; NAK sends again, in order, every unacknowledged frame from the one named; a frame already retired changes nothing;
  -- ACK_TIMEOUT acts as a NAK of the oldest, and the eighth in a row fails the lane.
  ((∀ (s : State) (l : Fin 16),
    let home := s.homeOf l
    let x : Lane := s.lanes[home]
    (s.job = none ∨ s.sendersOf home = [] ∨ 8 ≤ x.window.length → exec (.frameSend l) s = .next s) ∧
    (∀ j, s.job = some j → s.sendersOf home ≠ [] → x.window.length < 8 →
      let p := s.nextFrame j home.val x.line x.frame
      (j.claimed ≤ p.1 → Answers (.frameSend l) s fun t => (t.lanes[home]).window = x.window ∧ (t.lanes[home]).next = x.next ∧ Only [.lanes] s t) ∧
      (∀ head group first count, p.1 < j.claimed → (s.portFrames home.val)[p.2]? = some (head, group, first, count) →
        Answers (.frameSend l) s fun t =>
          (t.lanes[home]).window.map (fun f => (f.seq, f.line, f.head, f.first)) =
            x.window.map (fun f => (f.seq, f.line, f.head, f.first)) ++ [(x.next, p.1, head, first)] ∧
          (t.lanes[home]).next = x.next + 1 ∧ (t.lanes[home]).line = p.1 ∧ (t.lanes[home]).frame = p.2 + 1))) ∧
  (∀ (s : State) (l : Fin 16) (q : BitVec 8),
    let home := s.homeOf l
    let x : Lane := s.lanes[home]
    (s.laneState l ≠ 2 ∨ (∀ f ∈ x.window, f.seq ≠ q) → exec (.ack l q) s = .next s ∧ exec (.nak l q) s = .next s) ∧
    (∀ before f rest, s.laneState l = 2 → x.window = before ++ f :: rest → f.seq = q → (∀ g ∈ before, g.seq ≠ q) →
      (Answers (.ack l q) s fun t => (t.lanes[home]).window = rest ∧ (t.lanes[home]).timeouts = 0 ∧ (t.lanes[home]).next = x.next ∧
        OtherLanes home s t ∧ Only [.lanes] s t) ∧
      (Answers (.nak l q) s fun t =>
        (t.lanes[home]).window.map (fun f => (f.seq, f.line, f.head, f.first, f.sends)) =
          before.map (fun f => (f.seq, f.line, f.head, f.first, f.sends)) ++
            (f :: rest).map (fun f => (f.seq, f.line, f.head, f.first, f.sends + 1)) ∧
        (t.lanes[home]).next = x.next) ∧
      (s.job = none → Answers (.nak l q) s fun t =>
        (∀ k ∈ s.sendersOf home, t.fv F.HP_LANE_STATUS_RETX k = Nat.min (2 ^ F.HP_LANE_STATUS_RETX.w - 1)
          (s.fv F.HP_LANE_STATUS_RETX k + (rest.length + 1))) ∧
        (∀ k : Fin 16, k ≠ home → k ∉ s.sendersOf home → t.lanes[k] = s.lanes[k]) ∧ Only [.lanes, .regs, .out] s t))) ∧
  (∀ (s : State) (l : Fin 16),
    let home := s.homeOf l
    let x : Lane := s.lanes[home]
    (s.laneState l ≠ 2 ∨ x.window = [] → exec (.ackTimeout l) s = .next s) ∧
    (∀ f rest, s.laneState l = 2 → x.window = f :: rest → x.timeouts + 1 < 8 →
      Does (.ackTimeout l) s ((s.modLane home fun x => { x with timeouts := x.timeouts + 1 }).resendFrom home f.seq)) ∧
    (s.laneState l = 2 → x.window ≠ [] → 8 ≤ x.timeouts + 1 → Answers (.ackTimeout l) s fun t =>
      s.laneState l = 2 ∧ t.laneState l = 3 ∧ t.on F.HP_LANE_STATUS_FAULT l = true ∧ (t.lanes[home]).window = x.window ∧
      Only [.lanes, .regs, .free, .cs, .hst, .out] s t))) ∧
  -- R181, R182, R184: bring-up, failure and hot-plug of a lane. 16 READY blocks received, and 16 sent, in TRAINING bring it UP; loss of signal, of
  -- alignment or of every block, and removal, fail an UP lane, with FAULT and LINK_REROUTED, and reduce the redundancy of a pair; it retrains with a
  -- module present and its generation set, and is DOWN otherwise; the redundancy of the pairs is full again once every lane of a pair that failed has
  -- come UP. An IDLE block changes nothing.
  (∀ (s : State) (l : Fin 16),
    let x : Lane := s.lanes[l]
    let trains (t : State) : Prop := t.laneState l = 1 ∧ (t.lanes[l]).readyRx = 0 ∧ (t.lanes[l]).readyTx = 0 ∧ t.out = .link l 1 :: s.out ∧
      OtherLanes l s t ∧ Only [.lanes, .regs, .out] s t ∧ OnlyRegs [(.HP_LANE_STATUS, l.val)] s t
    let fails (c : Instr) : Prop := Answers c s fun t =>
      t.laneState l = 3 ∧ t.on F.HP_LANE_STATUS_FAULT l = true ∧ (∀ k : Fin 16, k ≠ l → t.laneState k = s.laneState k) ∧
      (s.paired l = true → natBit (t.fv F.SYS_REDUND_CAUSE) 5 = true ∧ t.on F.SYS_REDUND_REDUCED = true ∧ (t.lanes[l]).broken = true) ∧
      (s.paired l = false → t.reg .SYS_REDUND = s.reg .SYS_REDUND) ∧ Only [.lanes, .regs, .free, .cs, .hst, .out] s t
    exec (.idle l) s = .next s ∧
    (∀ c ∈ [Instr.lossOfSignal l, Instr.lossOfAlignment l, Instr.linkSilenceTimeout l],
      (s.laneState l ≠ 2 → exec c s = .next s) ∧
      (s.laneState l = 2 → fails c ∧
        (s.paired l = false → Does c s (((((s.fset F.HP_LANE_STATUS_STATE 3 l).fset F.HP_LANE_STATUS_FAULT 1 l).raise .linkRerouted
          (2 ^ 63 + l.val))).csMasked 0x14 20 [2 ^ 63 + l.val] 5)))) ∧
    (s.laneState l = 2 → fails (.sfpRemove l)) ∧
    (s.laneState l ≠ 2 → Answers (.sfpRemove l) s fun t => t.laneState l = 0 ∧ t.on F.HP_LANE_STATUS_PRESENT l = false ∧
      (t.lanes[l]).present = false ∧ OtherLanes l s t ∧ Only [.lanes, .regs] s t ∧ OnlyRegs [(.HP_LANE_STATUS, l.val)] s t) ∧
    (∀ r, (s.active = true → s.laneSet l = true → s.laneState l ≠ 2 → Answers (.sfpInsert l r) s fun t =>
        (t.lanes[l]).present = true ∧ (t.lanes[l]).rated = r ∧ t.on F.HP_LANE_STATUS_PRESENT l = true ∧ trains t) ∧
      (s.active = false ∨ s.laneSet l = false ∨ s.laneState l = 2 → Answers (.sfpInsert l r) s fun t =>
        (t.lanes[l]).present = true ∧ (t.lanes[l]).rated = r ∧ t.on F.HP_LANE_STATUS_PRESENT l = true ∧ t.laneState l = s.laneState l ∧
        OtherLanes l s t ∧ Only [.lanes, .regs] s t ∧ OnlyRegs [(.HP_LANE_STATUS, l.val)] s t)) ∧
    (s.laneState l ≠ 3 → exec (.laneRetrain l) s = .next s) ∧
    (s.laneState l = 3 → x.present = true → s.laneSet l = true → Answers (.laneRetrain l) s trains) ∧
    (s.laneState l = 3 → x.present = false ∨ s.laneSet l = false → Answers (.laneRetrain l) s fun t =>
      t.laneState l = 0 ∧ Only [.regs] s t ∧ OnlyRegs [(.HP_LANE_STATUS, l.val)] s t) ∧
    (∀ st ver hs mx,
      let valid : Prop := ver = 1 ∧ st.toNat ≤ 2 ∧ 1 ≤ hs.toNat ∧ hs.toNat ≤ 64 ∧ 1 ≤ mx.toNat ∧ mx.toNat ≤ 16384
      (s.laneState l ≠ 1 → exec (.link l st ver hs mx) s = .next s) ∧
      (s.laneState l = 1 → ¬ valid → Answers (.link l st ver hs mx) s fun t => (t.lanes[l]).readyRx = 0 ∧ t.laneState l = 1 ∧
        OtherLanes l s t ∧ Only [.lanes] s t) ∧
      (s.laneState l = 1 → valid → st ≠ 2 ∨ x.readyRx < 15 ∨ x.readyTx < 15 → Answers (.link l st ver hs mx) s fun t =>
        (t.lanes[l]).readyRx = (if st = 2 then x.readyRx + 1 else 0) ∧ (t.lanes[l]).readyTx = x.readyTx + 1 ∧ t.laneState l = 1 ∧
        t.out = .link l 2 :: s.out ∧ OtherLanes l s t ∧ Only [.lanes, .out] s t) ∧
      (s.laneState l = 1 → valid → st = 2 → 15 ≤ x.readyRx → 15 ≤ x.readyTx → Answers (.link l st ver hs mx) s fun t =>
        t.laneState l = 2 ∧ (t.lanes[l]).heads = hs.toNat ∧ (t.lanes[l]).maxnoz = mx.toNat ∧
        (x.window = [] → s.paired l = false → s.homeOf l = l → (t.lanes[l]).next = 0 ∧ (t.lanes[l]).window = []) ∧
        (t.lanes[l]).broken = false ∧ (∀ k : Fin 16, (t.lanes[k]).broken = ((s.lanes[k]).broken && decide (k ≠ l))) ∧
        natBit (t.fv F.SYS_REDUND_CAUSE) 5 = (natBit (s.fv F.SYS_REDUND_CAUSE) 5 &&
          (List.finRange 16).any fun k : Fin 16 => s.paired k.val && (s.lanes[k]).broken && decide (k ≠ l)) ∧
        Only [.lanes, .regs, .out] s t ∧ OnlyRegs [(.HP_LANE_STATUS, l.val), (.SYS_REDUND, 0)] s t))) ∧
  -- R179, R180: telemetry. A frame whose CRC-32C is not that of its fields and payload (R173), a head the Nozzle Map does not name, a wrong length or
  -- a TTYPE outside 1 to 4 is discarded and counted in TEL_BAD; an accepted one is written as one record at WR, which then moves past it, or, with
  -- the ring disabled or full, is dropped and counted; a STATUS frame clears TEL_STALE, which its absence sets. RD moves within the records alone.
  ((∀ (s : State) (l : Fin 16) (ty hd : BitVec 8) (n : Nat) (crc : BitVec 32) (p : List Byte),
    let c : Instr := .tsof l ty hd n crc p
    let right : Prop := crc32c ([ty, hd, 0] ++ leBytes n 2 ++ [0, 0] ++ p) = crc.toNat
    let named : Prop := ∃ e ∈ s.entries, e.port = s.laneHome l ∧ e.head = hd.toNat
    let bad : Prop := ¬ right ∨ ¬ named ∨ 1024 < n ∨ n = 0 ∨ (ty = 2 ∧ n ≠ ((s.lanes[l]).maxnoz + 63) / 64) ∨ ty = 0 ∨ 4 < ty.toNat
    let body := telHeader l ty.toNat hd.toNat n (s.devTime.toNat % 2 ^ 48) ++ p
    let size := s.telSize
    let wr := s.fv F.HP_TEL_PTR_WR
    let rd := s.fv F.HP_TEL_PTR_RD
    let full := body.length + (16 - body.length % 16) % 16
    let pad := if size - wr < full then size - wr else 0
    let fits : Prop := s.on F.HP_TEL_BASE_ENABLE = true ∧ s.telPlaced = true ∧ full + 16 ≤ size ∧ (wr + size - rd) % size + pad + full < size
    (s.laneState l ≠ 2 → exec c s = .next s) ∧
    (s.laneState l = 2 → bad → Answers c s fun t =>
      t.fv F.HP_LANE_STATUS_TEL_BAD l = Nat.min (2 ^ F.HP_LANE_STATUS_TEL_BAD.w - 1) (s.fv F.HP_LANE_STATUS_TEL_BAD l + 1) ∧
      (right → t.fv F.HP_LANE_STATUS_CRC_ERR l = s.fv F.HP_LANE_STATUS_CRC_ERR l) ∧
      (¬ right → t.fv F.HP_LANE_STATUS_CRC_ERR l = Nat.min (2 ^ F.HP_LANE_STATUS_CRC_ERR.w - 1) (s.fv F.HP_LANE_STATUS_CRC_ERR l + 1)) ∧
      Only [.regs] s t ∧ OnlyRegs [(.HP_LANE_STATUS, l.val)] s t) ∧
    (s.laneState l = 2 → ¬ bad → p.length = 8 * n → ¬ fits → Answers c s fun t =>
      t.fv F.HP_TEL_RING_DROP = Nat.min (2 ^ F.HP_TEL_RING_DROP.w - 1) (s.fv F.HP_TEL_RING_DROP + 1) ∧
      (ty = 1 → t.on F.HP_LANE_STATUS_TEL_STALE l = false) ∧
      Only [.regs] s t ∧ OnlyRegs [(.HP_TEL_RING, 0), (.HP_LANE_STATUS, l.val)] s t) ∧
    (s.laneState l = 2 → ¬ bad → p.length = 8 * n → fits → ty ≠ 1 → pad = 0 →
      Does c s ((s.dmaWrite 20 (0x2000000000 + s.fv F.HP_TEL_BASE_BASE + wr)
        (body ++ List.replicate ((16 - body.length % 16) % 16) 0)).fset F.HP_TEL_PTR_WR ((wr + full) % size))) ∧
    (s.laneState l = 2 → ¬ bad → p.length = 8 * n → fits → ty ≠ 1 → pad ≠ 0 →
      Does c s (((s.dmaWrite 20 (0x2000000000 + s.fv F.HP_TEL_BASE_BASE + wr)
        (telHeader l 0 hd.toNat 0 (s.devTime.toNat % 2 ^ 48))).dmaWrite 20 (0x2000000000 + s.fv F.HP_TEL_BASE_BASE)
          (body ++ List.replicate ((16 - body.length % 16) % 16) 0)).fset F.HP_TEL_PTR_WR (full % size)))) ∧
  (∀ (s : State) (l : Fin 16),
    (s.fv F.HP_LANE_CTL_TEL_TO l = 0 → exec (.telStale l) s = .next s) ∧
    (s.fv F.HP_LANE_CTL_TEL_TO l ≠ 0 → Answers (.telStale l) s fun t => t.on F.HP_LANE_STATUS_TEL_STALE l = true ∧ Only [.regs] s t ∧
      OnlyRegs [(.HP_LANE_STATUS, l.val)] s t)) ∧
  (∀ (s : State) (a : Agent) (v : DWord), Permits s a .HP_TEL_PTR 0 →
    let size := s.telSize
    let rd := s.fv F.HP_TEL_PTR_RD
    let x := wField v F.HP_TEL_PTR_RD
    let opens : Prop := x < size ∧ x % 16 = 0 ∧ (x + size - rd) % size ≤ (s.fv F.HP_TEL_PTR_WR + size - rd) % size
    (opens → Answers (.telRdWrite a v) s fun t => t.fv F.HP_TEL_PTR_RD = x ∧ t.fv F.HP_TEL_PTR_WR = s.fv F.HP_TEL_PTR_WR ∧
      RegsOnly [(.HP_TEL_PTR, 0)] s t) ∧
    (¬ opens → Answers (.telRdWrite a v) s fun t => t.fv F.SYS_BAD_ACCESS_COUNT = Nat.min (2 ^ 32 - 1) (s.fv F.SYS_BAD_ACCESS_COUNT + 1) ∧
      RegsOnly [(.SYS_BAD_ACCESS, 0)] s t)))

/-! ## Adaptation Fabric and camera loop -/

namespace Sys2Proof.Claims

/-- The instruction entry of an operation (R187): OP in bits [31:27], then SA, SB, DST, SETF and IMM. -/
def entryWord (op : Nat) (o : CellOp) : BitVec 32 :=
  BitVec.ofNat 32 (op * 2 ^ 27 + o.sa.val * 2 ^ 23 + o.sb.val * 2 ^ 19 + o.dst.val * 2 ^ 17 + (if o.setf then 2 ^ 16 else 0) + o.imm.toNat)

/-- The entry that EP names in the cell's active configuration. -/
def entryOf (s : State) (o : CellOp) (conf : CellConf) : BitVec 32 := conf.entries.getD ((s.fab[o.region]).cell o.cell).ep 0

/-- The cell's pins follow what the fabric drives on them: a change is shown on the connector of a port (R191). -/
def PinsFollow (s t : State) (rg : Fin 16) : Prop :=
  t.out = s.out ∨ (rg.val < 8 ∧ t.out = .pins rg (t.drivenPins rg) (t.drivenPins rg &&& (t.fab[rg]).pinOut) :: s.out)

/-- The cell of the operation runs (R187): its region holds a configuration, has not stopped, and gives the cell entries. -/
structure CellRuns (s : State) (o : CellOp) (im : RegionImage) (conf : CellConf) : Prop where
  active : (s.fab[o.region]).active = some im
  cell : imCell im o.cell = some conf
  going : (s.fab[o.region]).stopped = false
  entries : conf.len.val ≠ 0

/-- The cell after a cycle that gave `v` and, where the rules give it, the flag `fl`: the destination and FL take them, EP advances, and OUT's
history grows by the cycle (R187, R189). -/
def CellTook (s t : State) (o : CellOp) (conf : CellConf) (v : BitVec 16) (fl : Option Bool) : Prop :=
  let x := (s.fab[o.region]).cell o.cell
  let y := (t.fab[o.region]).cell o.cell
  y.da = (if o.dst = 1 then v else x.da) ∧ y.db = (if o.dst = 2 then v else x.db) ∧ y.out = (if o.dst = 3 then v else x.out) ∧
  (o.setf = false → y.fl = x.fl) ∧ (∀ b, fl = some b → o.setf = true → y.fl = b) ∧
  y.ep = (x.ep + 1) % conf.len.val ∧ y.cyc = x.cyc + 1 ∧ y.hist.head? = some (x.cyc, y.out) ∧
  (∀ k, k ≠ o.cell.val → (t.fab[o.region]).cell k = (s.fab[o.region]).cell k) ∧
  (∀ r : Fin 16, r ≠ o.region → t.fab[r] = s.fab[r]) ∧
  (let g := s.fab[o.region]; let g' := t.fab[o.region]; g'.active = g.active ∧ g'.shadow = g.shadow ∧ g'.fi = g.fi ∧ g'.stopped = g.stopped) ∧
  PinsFollow s t o.region ∧ Only [.fab, .free, .out] s t

end Sys2Proof.Claims

/-- Fabric cell operations and their effects. -/
def Obligations.FabricCells : Prop :=
  -- R187, R188: the results and flags of the cell operations that compute, each written to the entry's destination, where the entry that EP names is
  -- that operation's; a cell whose entry is another, or of a region that holds no configuration or has stopped, does nothing. CNT's IMM is the
  -- entry's own. A shift by 0 moves no bit out, and its flag is open; the direction of ROT is not named (log 39).
  ((∀ (s : State) (o : CellOp) (im : RegionImage) (conf : CellConf), CellRuns s o im conf →
    let x := (s.fab[o.region]).cell o.cell
    let a := s.fabSource o.region o.cell im conf x o.imm o.sa
    let b := s.fabSource o.region o.cell im conf x o.imm o.sb
    let k := b.toNat % 16
    (∀ op c v fl, (op, c, v, fl) ∈
      [(0, Instr.fabPass o, a, some (decide (a ≠ 0))),
       (1, .fabAdd o, a + b, some (decide (2 ^ 16 ≤ a.toNat + b.toNat))),
       (2, .fabSub o, a - b, some (decide (b.toNat ≤ a.toNat))),
       (3, .fabAnd o, a &&& b, some (decide (a &&& b ≠ 0))),
       (4, .fabOr o, a ||| b, some (decide (a ||| b ≠ 0))),
       (5, .fabXor o, a ^^^ b, some (decide (a ^^^ b ≠ 0))),
       (6, .fabAndn o, a &&& ~~~b, some (decide (a &&& ~~~b ≠ 0))),
       (7, .fabShl o, a <<< k, if k = 0 then none else some (a.getLsbD (16 - k))),
       (8, .fabShr o, a >>> k, if k = 0 then none else some (a.getLsbD (k - 1))),
       (9, .fabSar o, a.sshiftRight k, if k = 0 then none else some (a.getLsbD (k - 1))),
       (11, .fabMux o, if x.fl then a else b, some x.fl),
       (12, .fabLtu o, a, some (decide (a.toNat < b.toNat))),
       (13, .fabEq o, a, some (decide (a = b))),
       (14, .fabMin o, if a.toNat < b.toNat then a else b, some (decide (a.toNat < b.toNat))),
       (15, .fabMax o, if a.toNat < b.toNat then b else a, some (decide (a.toNat < b.toNat))),
       (16, .fabCnt o, if a = o.imm then 0 else a + 1, some (decide (a = o.imm))),
       (18, .fabBit o, (a >>> k) &&& 1, some (a.getLsbD k))] → entryOf s o conf = entryWord op o →
      Answers c s fun t => CellTook s t o conf v fl ∧ ((t.fab[o.region]).cell o.cell).h = x.h ∧
        (t.fab[o.region]).macs = (s.fab[o.region]).macs ∧ (t.fab[o.region]).hs = (s.fab[o.region]).hs ∧
        (t.fab[o.region]).pinOe = (s.fab[o.region]).pinOe) ∧
    (entryOf s o conf = entryWord 10 o → Answers (.fabRot o) s fun t =>
      CellTook s t o conf (a.rotateLeft k) (if k = 0 then none else some (a.getLsbD (16 - k))) ∨
      CellTook s t o conf (a.rotateRight k) (if k = 0 then none else some (a.getLsbD (k - 1)))) ∧
    (o.imm.toNat % 4 < 3 →
      let e : BitVec 16 := if o.imm.toNat % 4 = 0 then a &&& ~~~x.h else if o.imm.toNat % 4 = 1 then x.h &&& ~~~a else a ^^^ x.h
      entryOf s o conf = entryWord 17 o → Answers (.fabEdge o) s fun t => CellTook s t o conf e (some (decide (e ≠ 0))) ∧ ((t.fab[o.region]).cell o.cell).h = a) ∧
    (∀ c op, (c, op) ∈ ([.fabPass o, .fabAdd o, .fabSub o, .fabAnd o, .fabOr o, .fabXor o, .fabAndn o, .fabShl o, .fabShr o, .fabSar o, .fabRot o,
        .fabMux o, .fabLtu o, .fabEq o, .fabMin o, .fabMax o, .fabCnt o, .fabEdge o, .fabBit o, .fabHspop o, .fabMacw o, .fabSkip o,
        .fabIooe o] : List Instr).zipIdx → entryOf s o conf ≠ entryWord op o → exec c s = .next s) ∧
    (o.sa = 0 → a = x.da) ∧ (o.sa = 1 → a = x.db) ∧ (o.sa = 2 → a = x.out) ∧ (o.sa = 3 → a = o.imm)) ∧
  (∀ (s : State) (o : CellOp), (s.fab[o.region]).active = none ∨ (s.fab[o.region]).stopped = true →
    ∀ c ∈ [Instr.fabPass o, .fabAdd o, .fabSub o, .fabAnd o, .fabOr o, .fabXor o, .fabAndn o, .fabShl o, .fabShr o, .fabSar o, .fabRot o, .fabMux o,
        .fabLtu o, .fabEq o, .fabMin o, .fabMax o, .fabCnt o, .fabEdge o, .fabBit o, .fabHspop o, .fabMacw o, .fabSkip o, .fabIooe o],
      exec c s = .next s)) ∧
  -- R188, R190: the cell operations with a further effect. HSPOP gives and consumes the head-stream word in the port engine's cell; MACW forms the
  -- slice's accumulator, cleared first by IMM[0], adding with IMM[1] the product and what its cascade held when the cycle began, and it wraps; SKIP
  -- takes the entry pointer from IMM when FL is 1; IOOE sets the pins' output enables in the I/O-facing cells alone.
  (∀ (s : State) (o : CellOp) (im : RegionImage) (conf : CellConf), CellRuns s o im conf →
    let g := s.fab[o.region]
    let x := g.cell o.cell
    let a := s.fabSource o.region o.cell im conf x o.imm o.sa
    let b := s.fabSource o.region o.cell im conf x o.imm o.sb
    (∀ w rest, entryOf s o conf = entryWord 19 o → o.cell.val = 2 → g.hs = w :: rest → Answers (.fabHspop o) s fun t =>
      CellTook s t o conf w.1 (some true) ∧ (t.fab[o.region]).hs = rest ∧ (t.fab[o.region]).macs = g.macs ∧ (t.fab[o.region]).pinOe = g.pinOe) ∧
    (entryOf s o conf = entryWord 19 o → o.cell.val ≠ 2 ∨ g.hs = [] → Answers (.fabHspop o) s fun t => ∃ v, CellTook s t o conf v (some false) ∧ (t.fab[o.region]).hs = g.hs) ∧
    (let m := o.imm.toNat / 4 % 4
     let cf := imMac im m
     let ext (v : BitVec 16) : Int := if cf.signed then v.toInt else v.toNat
     entryOf s o conf = entryWord 20 o → Answers (.fabMacw o) s fun t => CellTook s t o conf a (some (decide (a ≠ 0))) ∧
      ((t.fab[o.region]).mac m).acc = (if o.imm.getLsbD 0 then 0 else (g.mac m).acc) +
        (if o.imm.getLsbD 1 then BitVec.ofInt 48 (ext a * ext b) + (if cf.cascade then s.cascadeIn o.region m x.cyc else 0) else 0) ∧
      (∀ k, k ≠ m → (t.fab[o.region]).mac k = g.mac k) ∧ (t.fab[o.region]).hs = g.hs) ∧
    (entryOf s o conf = entryWord 21 o → Answers (.fabSkip o) s fun t =>
      let y := (t.fab[o.region]).cell o.cell
      y.ep = (if x.fl then o.imm.toNat % 8 else (x.ep + 1) % conf.len.val) ∧ y.da = x.da ∧ y.db = x.db ∧ y.out = x.out ∧ y.fl = x.fl ∧ y.h = x.h ∧
      (∀ k, k ≠ o.cell.val → (t.fab[o.region]).cell k = g.cell k) ∧ (t.fab[o.region]).hs = g.hs ∧ (t.fab[o.region]).macs = g.macs ∧
      PinsFollow s t o.region ∧ Only [.fab, .free, .out] s t) ∧
    (entryOf s o conf = entryWord 22 o → Answers (.fabIooe o) s fun t => CellTook s t o conf a (some (decide (a ≠ 0))) ∧
      (∀ p, p < 20 → (t.fab[o.region]).pinOe.getLsbD p =
        (if o.region.val < 8 ∧ o.cell.val = 0 ∧ p < 16 then a.getLsbD p
         else if o.region.val < 8 ∧ o.cell.val = 1 ∧ 16 ≤ p then a.getLsbD (p - 16) else g.pinOe.getLsbD p))))

/-- The camera loop and the camera mover. -/
def Obligations.CameraCommands : Prop :=
  -- R198-R200, R207, R214: a camera line that was triggered, or any of a camera that runs free, joins its ring of 1 MiB, aligned to 16 bits and
  -- corrected plane by plane; one that finds the ring full is dropped and counted, and one too late is counted and awaited no longer. LOST and UP
  -- follow the links. A swap of banks is requested with REQ, and rejected while one is pending or the loop is off.
  ((∀ (s : State) (k : Fin 4) (tag : Nat) (planes : List (List (BitVec 16))),
    let free := decide (s.fv F.CAM_CAM_CFG_TRIG k = 2)
    let on : Prop := s.on F.CAM_CTL_ENABLE = true ∧ s.on F.CAM_CAM_CFG_ENABLE k = true
    let held := ((s.cam.rings[k]).map CamLine.bytes).foldl (· + ·) 0
    let size := 2 * (planes.map (fun p => p.length)).foldl (· + ·) 0
    (¬ on ∨ (free = false ∧ tag ∉ s.cam.due[k]) → exec (.cameraLineArrival k tag planes) s = .next s) ∧
    (on → s.on F.CAM_CAM_CFG_CORR_BYP k = true → free = true ∨ tag ∈ s.cam.due[k] → held + size ≤ 2 ^ 20 →
      Answers (.cameraLineArrival k tag planes) s fun t =>
        t.cam.rings[k] = s.cam.rings[k] ++ [{ tag := if free then s.lastTick.toNat else tag, at_ := s.cam.heads[k], sizes := planes.map (fun p => p.length) }] ∧
        t.cam.heads[k] = (s.cam.heads[k] + size) % 2 ^ 20 ∧ t.mems = (s.ringWrite k s.cam.heads[k]
          ((planes.map (fun p => p.map (s.leftAligned k))).flatten.flatMap (fun v => leBytes v.toNat 2))).mems ∧
        (∀ i : Fin 4, i ≠ k → t.cam.rings[i] = s.cam.rings[i] ∧ t.cam.due[i] = s.cam.due[i]) ∧
        Only [.cam, .mems, .regs, .cs, .cores, .free] s t) ∧
    (on → s.on F.CAM_CAM_CFG_CORR_BYP k = true → free = true ∨ tag ∈ s.cam.due[k] → 2 ^ 20 < held + size →
      Answers (.cameraLineArrival k tag planes) s fun t => t.cam.rings = s.cam.rings ∧
        t.cam.dropped = (if free then s.lastTick.toNat else tag) :: s.cam.dropped ∧ t.fv F.CAM_STATUS_DROP = Nat.min (2 ^ F.CAM_STATUS_DROP.w - 1) (s.fv F.CAM_STATUS_DROP + 1) ∧ Only [.cam, .regs] s t ∧
        OnlyRegs [(.CAM_STATUS, 0)] s t) ∧
    (tag ∉ s.cam.due[k] → exec (.cameraLineTimeout k tag) s = .next s) ∧
    (tag ∈ s.cam.due[k] → Answers (.cameraLineTimeout k tag) s fun t => t.cam.due[k] = (s.cam.due[k]).erase tag ∧ t.cam.rings = s.cam.rings ∧
      t.cam.dropped = tag :: s.cam.dropped ∧
      t.fv F.CAM_STATUS_TIMEOUT = Nat.min (2 ^ F.CAM_STATUS_TIMEOUT.w - 1) (s.fv F.CAM_STATUS_TIMEOUT + 1) ∧ Only [.cam, .regs] s t ∧
      OnlyRegs [(.CAM_STATUS, 0)] s t)) ∧
  (∀ (s : State) (k : Fin 4) (p : BitVec 16) (fmt bits : Nat), (fmt, bits) ∈ [(0, 8), (1, 10), (2, 12), (3, 16), (4, 8), (5, 10)] →
    s.fv F.CAM_CAM_CFG_FMT k = fmt → s.leftAligned k p = p <<< (16 - bits)) ∧
  (∀ (s : State) (k : Fin 4) (q p : Nat) (raw : BitVec 16),
    let v := ((s.cell 16 (corrWord k q p)).data 16 (corrWord k q p)).toNat
    s.corrected k q p raw = (if v / 2 ^ 16 % 2 ^ 16 = 0 then none
      else some (BitVec.ofNat 16 (Nat.min 65535 (((raw.toNat - v % 2 ^ 16) * (v / 2 ^ 16 % 2 ^ 16) + 2 ^ 13) / 2 ^ 14))))) ∧
  (∀ (s : State) (k n : Fin 4),
    (Answers (.cameraLinkLost k n) s fun t => natBit (t.fv F.CAM_STATUS_LOST) k.val = true ∧ natBit (t.fv F.CAM_STATUS_UP) k.val = false ∧
      (∀ i : Fin 4, i ≠ k → natBit (t.fv F.CAM_STATUS_LOST) i.val = natBit (s.fv F.CAM_STATUS_LOST) i.val) ∧ t.cam = s.cam ∧
      Only [.regs, .free, .cs, .hst, .out] s t) ∧
    (Answers (.cameraLinkUp k) s fun t => natBit (t.fv F.CAM_STATUS_UP) k.val = true ∧
      (∀ i : Fin 4, i ≠ k → natBit (t.fv F.CAM_STATUS_UP) i.val = natBit (s.fv F.CAM_STATUS_UP) i.val) ∧
      t.fv F.CAM_STATUS_LOST = s.fv F.CAM_STATUS_LOST ∧ Only [.regs] s t ∧ OnlyRegs [(.CAM_STATUS, 0)] s t)) ∧
  (∀ (s : State) (a : Agent) (v : DWord), Permits s a .CAM_TSWAP 0 → wField v F.CAM_TSWAP_REJ = 0 →
    let pending := s.on F.CAM_TSWAP_REQ
    (wField v F.CAM_TSWAP_REQ = 1 → pending = true ∨ s.on F.CAM_CTL_LOOP_EN = false → Answers (.tableSwapRequest a v) s fun t =>
      t.on F.CAM_TSWAP_REJ = true ∧ t.on F.CAM_TSWAP_REQ = pending ∧ t.fv F.CAM_TSWAP_AT_LINE = wField v F.CAM_TSWAP_AT_LINE ∧
      RegsOnly [(.CAM_TSWAP, 0)] s t) ∧
    (wField v F.CAM_TSWAP_REQ = 1 → pending = false → s.on F.CAM_CTL_LOOP_EN = true → Answers (.tableSwapRequest a v) s fun t =>
      t.on F.CAM_TSWAP_REQ = true ∧ t.fv F.CAM_TSWAP_AT_LINE = wField v F.CAM_TSWAP_AT_LINE ∧
      t.cam = (let x := s.cam; { x with swapAt := wField v F.CAM_TSWAP_AT_LINE }) ∧ Only [.regs, .latches, .cam] s t ∧ OnlyRegs [(.CAM_TSWAP, 0)] s t) ∧
    (wField v F.CAM_TSWAP_REQ = 0 → Answers (.tableSwapRequest a v) s fun t => t.fv F.CAM_TSWAP_AT_LINE = wField v F.CAM_TSWAP_AT_LINE ∧
      t.on F.CAM_TSWAP_REQ = pending ∧ RegsOnly [(.CAM_TSWAP, 0)] s t))) ∧
  -- R199, R201, R202: the mover waits for a line of the tag from every enabled camera whose link is up, and for room, and does not judge a tag of
  -- which a line was discarded; then the registered line is written as strips and pushed as a camera band, in the dedicated arrangement to the
  -- Enlarger of P3, and the lines up to the tag leave the rings.
  (∀ (s : State) (tag : Nat),
    (s.on F.CAM_CTL_ENABLE = false ∨ s.job = none ∨ s.cam.regTable = [] ∨ s.tagReady tag = false ∨ s.moverRoom = false ∨
      tag ∈ s.cam.dropped →
      exec (.cameraMoverLine tag) s = .next s) ∧
    (∀ j, s.on F.CAM_CTL_ENABLE = true → s.job = some j → j.inspect = true → s.cam.regTable ≠ [] → s.tagReady tag = true → s.moverRoom = true →
      Answers (.cameraMoverLine tag) s fun t =>
        t.cam.moverLine = s.cam.moverLine + 1 ∧ t.mems = ((s.readLines tag).writeStrips s.cam.moverLine ((s.readLines tag).moverValues tag)).mems ∧
        (∀ k : Fin 4, ∀ l ∈ t.cam.rings[k], tag < l.tag ∧ l ∈ s.cam.rings[k]) ∧
        (∀ k : Fin 4, ∀ l ∈ s.cam.rings[k], tag < l.tag → l ∈ t.cam.rings[k]) ∧
        (s.dedicated = true → s.heldPush = [] →
          (t.enl[(3 : Fin 4)]).queue.map (fun b => (b.first, b.lines, b.factor)) =
            (s.enl[(3 : Fin 4)]).queue.map (fun b => (b.first, b.lines, b.factor)) ++ [(s.cam.moverLine, 1, 1)] ∧
          ∀ p : Fin 4, p ≠ 3 → t.enl[p] = s.enl[p]) ∧
        (s.dedicated = false → ∀ p : Fin 4, (s.partsOf 0).getLsbD p.val = true →
          (t.enl[p]).camQueue.length = (s.enl[p]).camQueue.length + 1 ∧ (t.enl[p]).queue = (s.enl[p]).queue)))

/-! ## The host interface -/

namespace Sys2Proof.Claims

/-- The function records its first ring error and sends vector 0 (R254); a later one, while the first stands, changes nothing. -/
def RingErr (s : State) (fn : Fin 8) (ring code : Nat) (t : State) : Prop :=
  if s.on F.HST_FN_ERR_VALID fn = true then t = s
  else t.fv F.HST_FN_ERR_RING fn = ring ∧ t.fv F.HST_FN_ERR_CODE fn = code ∧ t.on F.HST_FN_ERR_VALID fn = true ∧
    (if (s.hst.fns[fn]).masked.getLsbD 0 then t.out = s.out ∧ (t.hst.fns[fn]).pendingVec.getLsbD 0 = true else t.out = .msix fn 0 :: s.out) ∧
    t.hst.rings = s.hst.rings ∧ t.hst.accepted = s.hst.accepted ∧ Only [.regs, .hst, .out, .latches] s t ∧ OnlyRegs [(.HST_FN_ERR, fn.val)] s t

/-- What a ring the module writes still has to deliver, in order: the entries posted and not consumed, then those that wait. -/
def toCome (s : State) (w : WRing) : List Entry := (s.ring w.key).slots.map (fun e => e.1) ++ s.wWaiting w

/-- The 32 bytes of an entry (R259), with its PHASE. -/
def entryBytes (e : Entry) (phase : Bool) : List Byte :=
  let flags : Byte := (if phase then 0x80 else 0) + (if e.event then 0x40 else 0)
  leBytes e.code.toNat 4 ++ [e.status, e.sqId] ++ leBytes e.sqHead.toNat 2 ++ leBytes e.result.toNat 8 ++ leBytes e.waitUs 3 ++
    ([0] : List Byte) ++ leBytes e.time.toNat 6 ++ ([0, 0, 0, 0, 0, flags] : List Byte)

/-- A capsule (R273): MAGIC, VERSION, KIND, the body's length, SEQ and zeros, then the body. -/
def capsuleOf (kind : Byte) (seq : Nat) (body : List Byte) : List Byte :=
  leBytes 0x4B47 2 ++ [1, kind] ++ leBytes body.length 4 ++ leBytes seq 4 ++ [0, 0, 0, 0] ++ body

/-- The header of a received capsule is one of KIND `kind` over this body (R273). -/
def Capsule (h : BitVec 128) (kind : Nat) (body : List Byte) : Prop :=
  (h.extractLsb' 0 16).toNat = 0x4B47 ∧ (h.extractLsb' 16 8).toNat = 1 ∧ (h.extractLsb' 24 8).toNat = kind ∧
    (h.extractLsb' 32 32).toNat = body.length ∧ body.length ≤ 0x1000000

end Sys2Proof.Claims

/-- Doorbells, ring service, descriptors and the MSI-X vectors. -/
def Obligations.RingsAndVectors : Prop :=
  -- R9, R248, R252-R254, R258: a submission doorbell sets TAIL, and DEV_TIME is kept for each descriptor it makes visible; a head doorbell frees the
  -- slots before it and lets waiting entries in, in order; one for a ring that is not ENABLED is error 4, one past SIZE error 1, and a head past the
  -- entries error 2. A doorbell's offset in BAR2 names its ring, its reads give the value last written to it, and a write to any other offset is
  -- ignored and counted. Without the host's reach nothing happens.
  ((∀ (s : State) (fn : Fin 8) (n : Fin 64) (off : BitVec 16) (v : DWord), s.hostReaches = false →
    exec (.sqDoorbell fn off v) s = .next s ∧ exec (.cqDoorbell fn n v) s = .next s ∧ exec (.eqDoorbell fn v) s = .next s) ∧
  (∀ (s : State) (fn : Fin 8) (n : Fin 64) (v : DWord), s.hostReaches = true →
    let i := sqIdx fn n
    let c : Instr := .sqDoorbell fn (BitVec.ofNat 16 (8 * n.val)) v
    let size := s.fv F.HST_SQ_CFG_SIZE_M1 i + 1
    let visible := (doorIndex v + size - s.fv F.HST_SQ_PTR_INDEX i) % size
    let x := s.ring (sqKey fn n)
    (s.on F.HST_SQ_CFG_ENABLED i = true → doorIndex v ≤ s.fv F.HST_SQ_CFG_SIZE_M1 i → Answers c s fun t =>
      t.fv F.HST_SQ_PTR_DB_INDEX i = doorIndex v ∧ t.fv F.HST_SQ_PTR_INDEX i = s.fv F.HST_SQ_PTR_INDEX i ∧
      t.ring (sqKey fn n) = { x with door := v, bells := (x.bells ++ List.replicate (visible - x.bells.length) s.devTime).take visible } ∧
      (∀ k, k ≠ sqKey fn n → t.ring k = s.ring k) ∧ Only [.regs, .hst] s t ∧ OnlyRegs [(.HST_SQ_PTR, i)] s t) ∧
    (s.on F.HST_SQ_CFG_ENABLED i = false → Answers c s (RingErr (s.setDoor (sqKey fn n) v) fn n 4)) ∧
    (s.on F.HST_SQ_CFG_ENABLED i = true → s.fv F.HST_SQ_CFG_SIZE_M1 i < doorIndex v →
      Answers c s (RingErr (s.setDoor (sqKey fn n) v) fn n 1)) ∧
    Answers c s fun t => t.bar2Read fn (8 * n.val) = v) ∧
  (∀ (s : State) (fn : Fin 8) (off : BitVec 16) (v : DWord), s.hostReaches = true →
    (∀ n : Fin 64, off.toNat = 0x400 + 8 * n.val → exec (.sqDoorbell fn off v) s = exec (.cqDoorbell fn n v) s) ∧
    (off.toNat = 0x800 → exec (.sqDoorbell fn off v) s = exec (.eqDoorbell fn v) s) ∧
    (off.toNat % 8 ≠ 0 ∨ (0x200 ≤ off.toNat ∧ off.toNat < 0x400) ∨ (0x600 ≤ off.toNat ∧ off.toNat ≠ 0x800) →
      Answers (.sqDoorbell fn off v) s (Counted s))) ∧
  (∀ (s : State) (w : WRing) (v : DWord) (c : Instr), s.hostReaches = true →
    (∃ n, w.2 = some n ∧ c = .cqDoorbell w.1 n v) ∨ (w.2 = none ∧ c = .eqDoorbell w.1 v) →
    let size := s.wSize w
    let tail := s.wfv w F.HST_CQ_PTR_INDEX F.HST_EQ_PTR_INDEX
    let held := (s.ring w.key).slots.length
    let advance := (doorIndex v + 2 * size - (tail + size - held)) % size
    let enabled : Prop := s.wfv w F.HST_CQ_CFG_ENABLED F.HST_EQ_CFG_ENABLED ≠ 0
    let rung := s.setDoor w.key v
    (¬ enabled → Answers c s (RingErr rung w.1 w.code 4)) ∧
    (enabled → size ≤ doorIndex v → Answers c s (RingErr rung w.1 w.code 1)) ∧
    (enabled → doorIndex v < size → held < advance → Answers c s (RingErr rung w.1 w.code 2)) ∧
    (enabled → doorIndex v < size → advance ≤ held → Answers c s fun t =>
      t.wfv w F.HST_CQ_PTR_DB_INDEX F.HST_EQ_PTR_DB_INDEX = doorIndex v ∧ (t.ring w.key).door = v ∧ toCome t w = (toCome s w).drop advance ∧
      (s.wWaiting w = [] → t.wfv w F.HST_CQ_PTR_INDEX F.HST_EQ_PTR_INDEX = tail) ∧
      Only [.regs, .hst, .out] s t))) ∧
  -- R246, R247, R254, R255: enabling a ring resets its pointers and its phase and puts it in service; a SIZE that is no power of two is error 5, a
  -- submission ring bound to a completion ring out of service error 6, and disabling a completion ring that is bound to error 7. A disabled
  -- completion or event ring drops its entries at once; a disabled submission ring is ENABLED until its last command has completed, and none of its
  -- commands that has not started, a store command that waits and a load without room among them, is left.
  ((∀ (s : State) (fn : Fin 8) (r : Fin 129) (v : DWord), s.hostReaches = false →
    exec (.ringEnable fn r v) s = .next s ∧ exec (.ringDisable fn r v) s = .next s) ∧
  (∀ (s : State) (fn : Fin 8) (n : Fin 64) (r : Fin 129) (v : DWord), r.val = n.val → s.hostReaches = true →
    Permits s (fnAgent fn) .HST_SQ_CFG (sqIdx fn n) →
    let i := sqIdx fn n
    let size := wField v F.HST_SQ_CFG_SIZE_M1
    let bound := s.on F.HST_CQ_CFG_ENABLED (64 * fn.val + wField v F.HST_SQ_CFG_CQ)
    (s.on F.HST_SQ_CFG_ENABLED i = false → sizeOk size = true → bound = true → Answers (.ringEnable fn r v) s fun t =>
      t.on F.HST_SQ_CFG_ENABLED i = true ∧ t.on F.HST_SQ_CFG_ENABLE i = true ∧ t.fv F.HST_SQ_CFG_SIZE_M1 i = size ∧
      t.fv F.HST_SQ_CFG_CQ i = wField v F.HST_SQ_CFG_CQ ∧ t.reg .HST_SQ_PTR i = 0 ∧
      t.ring (sqKey fn n) = { door := (s.ring (sqKey fn n)).door } ∧
      (∀ k, k ≠ sqKey fn n → t.ring k = s.ring k) ∧ Only [.regs, .hst, .latches] s t ∧ OnlyRegs [(.HST_SQ_CFG, i), (.HST_SQ_PTR, i)] s t) ∧
    (s.on F.HST_SQ_CFG_ENABLED i = false → sizeOk size = false ∨ bound = false → s.on F.HST_FN_ERR_VALID fn = false →
      Answers (.ringEnable fn r v) s fun t => t.on F.HST_SQ_CFG_ENABLED i = false ∧
        t.fv F.HST_FN_ERR_CODE fn = (if sizeOk size then 6 else 5) ∧ t.fv F.HST_FN_ERR_RING fn = n.val ∧ t.hst.rings = s.hst.rings) ∧
    (s.on F.HST_SQ_CFG_ENABLED i = true → Answers (.ringEnable fn r v) s fun t => t.on F.HST_SQ_CFG_ENABLED i = true ∧
      t.fv F.HST_SQ_CFG_SIZE_M1 i = s.fv F.HST_SQ_CFG_SIZE_M1 i ∧ t.fv F.HST_SQ_CFG_CQ i = s.fv F.HST_SQ_CFG_CQ i ∧
      t.reg .HST_SQ_PTR i = s.reg .HST_SQ_PTR i ∧ t.hst = s.hst) ∧
    (s.on F.HST_SQ_CFG_ENABLED i = true → s.unstarted (fun c => decide (c.src = .sq fn n)) = [] →
      Answers (.ringDisable fn r v) s fun t =>
      t.on F.HST_SQ_CFG_ENABLE i = false ∧ t.hst.accepted = s.hst.accepted ∧
      (let owed := (s.ring (sqKey fn n)).owed
       (owed = [] → t.on F.HST_SQ_CFG_ENABLED i = false) ∧
       (owed ≠ [] → t.on F.HST_SQ_CFG_ENABLED i = true ∧ (t.ring (sqKey fn n)).draining = true ∧ (t.ring (sqKey fn n)).owed = owed)) ∧
      Only [.regs, .hst, .latches] s t ∧ OnlyRegs [(.HST_SQ_CFG, i)] s t) ∧
    (s.on F.HST_SQ_CFG_ENABLED i = true → Answers (.ringDisable fn r v) s fun t =>
      (∀ a ∈ t.hst.accepted, a ∈ s.hst.accepted ∧ a.cmd.src ≠ .sq fn n) ∧
      (∀ a ∈ s.hst.accepted, a.cmd.src ≠ .sq fn n → hostForm a.desc = false → a ∈ t.hst.accepted) ∧
      t.store.waiting = s.store.waiting.filter (fun x => !decide (x.cmd.src = .sq fn n)) ∧
      (∀ l ∈ t.hst.loads, l ∈ s.hst.loads ∧ (l.reading = none → l.cmd.src ≠ .sq fn n)))) ∧
  (∀ (s : State) (fn : Fin 8) (r : Fin 129) (v : DWord), 64 ≤ r.val → s.hostReaches = true →
    Permits s (fnAgent fn) (ringCfg fn r).1 (ringCfg fn r).2 →
    let w := wRingOf fn r
    let size := wField v F.HST_CQ_CFG_SIZE_M1
    let enabled : Prop := s.wfv w F.HST_CQ_CFG_ENABLED F.HST_EQ_CFG_ENABLED = 1
    let bound : Prop := ∃ n, w.2 = some n ∧ s.cqBound w.1 n = true
    (¬ enabled → sizeOk size = true → (w.2 = none → (s.hst.fns[fn]).backlog = []) → Answers (.ringEnable fn r v) s fun t =>
      t.wfv w F.HST_CQ_CFG_ENABLED F.HST_EQ_CFG_ENABLED = 1 ∧ t.wSize w = size + 1 ∧ t.wfv w F.HST_CQ_PTR_INDEX F.HST_EQ_PTR_INDEX = 0 ∧
      t.wfv w F.HST_CQ_PTR_PHASE F.HST_EQ_PTR_PHASE = 1 ∧ toCome t w = [] ∧ Only [.regs, .hst, .latches] s t) ∧
    (¬ enabled → sizeOk size = false → s.on F.HST_FN_ERR_VALID fn = false → Answers (.ringEnable fn r v) s fun t =>
      t.wfv w F.HST_CQ_CFG_ENABLED F.HST_EQ_CFG_ENABLED ≠ 1 ∧ t.fv F.HST_FN_ERR_CODE fn = 5 ∧ t.fv F.HST_FN_ERR_RING fn = w.code) ∧
    (enabled → bound → Answers (.ringDisable fn r v) s fun t =>
      t.wfv w F.HST_CQ_CFG_ENABLED F.HST_EQ_CFG_ENABLED = 1 ∧ t.hst.rings = s.hst.rings ∧
      (s.on F.HST_FN_ERR_VALID fn = false → t.fv F.HST_FN_ERR_CODE fn = 7)) ∧
    (¬ bound → Answers (.ringDisable fn r v) s fun t =>
      t.wfv w F.HST_CQ_CFG_ENABLED F.HST_EQ_CFG_ENABLED = 0 ∧ (t.ring w.key).slots = [] ∧ (t.ring w.key).waiting = [] ∧
      Only [.regs, .hst, .latches] s t))) ∧
  -- R246, R249, R251, R252, R254, R256, R258: the module reads up to ARB + 1 descriptors of a ring in service whose completion ring has room, each
  -- from its slot's address, and HEAD moves past them; each keeps the time of its doorbell; a host error stops the ring with error 3. The coalescing
  -- time's end sends the ring's vector, or marks it pending while it is masked; an error that answers the module's write of an entry stops the ring
  -- (told with that command, log 129); a pending vector is sent when its mask falls (the table's layout is the model's, log 50). A command that has
  -- not started by its deadline completes REFUSED_BUSY with the module's estimate, a load that waits for room among them (log 134).
  ((∀ (s : State) (fn : Fin 8) (n : Fin 64) (ds : List (BitVec 512)) (e : Bool),
    let i := sqIdx fn n
    let x := s.ring (sqKey fn n)
    let size := s.fv F.HST_SQ_CFG_SIZE_M1 i + 1
    let head := s.fv F.HST_SQ_PTR_INDEX i
    let avail := (s.fv F.HST_SQ_PTR_DB_INDEX i + size - head) % size
    let w : WRing := (fn, some (Fin.ofNat 64 (s.fv F.HST_SQ_CFG_CQ i)))
    let opens : Prop := s.hostReaches = true ∧ s.on F.HST_SQ_CFG_ENABLED i = true ∧ s.on F.HST_SQ_CFG_ENABLE i = true ∧
      x.stopped = false ∧ s.wOpen w = true ∧ (s.ring w.key).waiting = [] ∧ avail ≠ 0
    let k := Nat.min ds.length (Nat.min avail (s.fv F.HST_SQ_CFG_ARB i + 1))
    let slot (j : Nat) : DWord := BitVec.ofNat 64 (4096 * s.fv F.HST_SQ_BASE_BASE i + 64 * (if j = 0 then head else (head + j) % size))
    (¬ opens → exec (.descriptorFetch fn n ds e) s = .next s) ∧
    (opens → e = true → Answers (.descriptorFetch fn n ds e) s fun t => (t.ring (sqKey fn n)).stopped = true ∧ t.on F.HST_SQ_CFG_ERR i = true ∧
      t.fv F.HST_SQ_PTR_INDEX i = head ∧ t.hst.accepted = s.hst.accepted ∧ (s.on F.HST_FN_ERR_VALID fn = false → t.fv F.HST_FN_ERR_CODE fn = 3) ∧
      Only [.regs, .hst, .out] s t) ∧
    (opens → e = false → ds ≠ [] → Answers (.descriptorFetch fn n ds e) s fun t => t.fv F.HST_SQ_PTR_INDEX i = (head + k) % size ∧
      (s.pwr.drain = none → (∀ d ∈ ds, opcodes.contains (d.extractLsb' 0 8).toNat = true) →
        t.hst.accepted.map (fun a => (a.cmd.src, a.cmd.cmdId, a.desc, a.cmd.bell)) =
          s.hst.accepted.map (fun a => (a.cmd.src, a.cmd.cmdId, a.desc, a.cmd.bell)) ++
            (ds.take k).zipIdx.map (fun d => (Src.sq fn n, d.1.extractLsb' 32 32, descOf d.1, x.bells.getD d.2 s.devTime)) ∧
        t.out = ((List.range k).map (fun j => Out.hostRead fn (slot j) 64)).reverse ++ s.out ∧ (t.ring (sqKey fn n)).bells = x.bells.drop k ∧
        Only [.regs, .hst, .out, .free] s t ∧ OnlyRegs [(.HST_SQ_PTR, i)] s t) ∧
      Only [.regs, .hst, .out, .free] s t)) ∧
  (∀ (w : BitVec 512), descOf w = ⟨w.extractLsb' 0 8, w.extractLsb' 8 8, w.extractLsb' 16 8, w.extractLsb' 24 8, w.extractLsb' 32 32,
    w.extractLsb' 64 32, w.extractLsb' 96 32, w.extractLsb' 128 64, w.extractLsb' 192 32, w.extractLsb' 224 32, w.extractLsb' 256 64,
    w.extractLsb' 320 192⟩) ∧
  (∀ (s : State) (fn : Fin 8) (r : Fin 129) (e : Bool),
    let w := wRingOf fn r
    let v := s.wfv w F.HST_CQ_CFG_VECTOR F.HST_EQ_CFG_VECTOR
    (r.val < 64 ∨ (e = false ∧ (s.ring w.key).timing = false) ∨ (e = true ∧ s.hostReaches = false) →
      exec (.coalesceTimeout fn (r, e)) s = .next s) ∧
    (64 ≤ r.val → e = false → (s.ring w.key).timing = true → Answers (.coalesceTimeout fn (r, e)) s fun t =>
      (t.ring w.key).pend = 0 ∧ (t.ring w.key).timing = false ∧ (t.ring w.key).slots = (s.ring w.key).slots ∧
      (if (s.hst.fns[fn]).masked.getLsbD v then t.out = s.out else t.out = .msix fn v :: s.out) ∧ Only [.hst, .out] s t) ∧
    (64 ≤ r.val → e = true → s.hostReaches = true → s.wfv w F.HST_CQ_CFG_ENABLED F.HST_EQ_CFG_ENABLED ≠ 0 →
      Answers (.coalesceTimeout fn (r, e)) s fun t => (t.ring w.key).stopped = true ∧ t.wfv w F.HST_CQ_CFG_ERR F.HST_EQ_CFG_ERR = 1 ∧
        (t.ring w.key).slots = (s.ring w.key).slots ∧ t.wOpen w = false ∧
        (s.on F.HST_FN_ERR_VALID fn = false → t.fv F.HST_FN_ERR_CODE fn = 3 ∧ t.fv F.HST_FN_ERR_RING fn = w.code) ∧
        Only [.regs, .hst, .out] s t)) ∧
  (∀ (s : State) (fn : Fin 8) (k : Fin 64) (v : BitVec 32), s.reaches .pf = true → s.active = true →
    let place := 0x402000 + 0x10000 * fn.val + 16 * k.val + 12
    let pends := (s.hst.fns[fn]).pendingVec.getLsbD k.val
    Answers (.registerWrite .pf place 32 (v.setWidth 64)) s fun t =>
      (t.hst.fns[fn]).masked.getLsbD k.val = v.getLsbD 0 ∧
      (∀ j : Fin 64, j ≠ k → (t.hst.fns[fn]).masked.getLsbD j.val = (s.hst.fns[fn]).masked.getLsbD j.val) ∧
      (v.getLsbD 0 = false → pends = true → t.out = .msix fn k :: s.out ∧ (t.hst.fns[fn]).pendingVec.getLsbD k.val = false) ∧
      (v.getLsbD 0 = true ∨ pends = false → t.out = s.out ∧ (t.hst.fns[fn]).pendingVec = (s.hst.fns[fn]).pendingVec) ∧ Only [.hst, .out] s t) ∧
  (∀ (s : State) (src : Src) (id est : BitVec 32),
    let late (c : CmdRef) (us : Nat) : Bool := decide (c.src = src ∧ c.cmdId = id ∧ us ≠ 0 ∧ 200 * us < (s.devTime - c.bell).toNat)
    let waits := s.hst.accepted.find? fun a => late a.cmd a.desc.deadline.toNat
    let loads := s.hst.loads.find? fun l => l.reading.isNone && late l.cmd l.deadline
    let ends (u : State) (c : CmdRef) : Prop := ∃ n, n / 2 ^ 32 = est.toNat ∧
      Does (.commandDeadline src id est) s (({ u with free := s.free + 1 } : State).complete c stBUSY n)
    (waits = none → loads = none → exec (.commandDeadline src id est) s = .next s) ∧
    (∀ a, waits = some a → ends { s with hst := { s.hst with accepted := s.hst.accepted.erase a } } a.cmd) ∧
    (∀ l, waits = none → loads = some l → ends (({ s with hst := { s.hst with loads := s.hst.loads.erase l } } : State).setNextLoad l.fn
      (Nat.min (s.hst.fns[l.fn]).nextLoad l.first)) l.cmd)))

/-- Completion entries and event entries. -/
def Obligations.CompletionsAndEvents : Prop :=
  -- R250, R251, R259, R260: a completion goes into the next slot of its submission ring's completion ring with the ring's phase, or behind the
  -- entries that wait for room there; in a session it goes as a COMPLETE capsule, with the data that the command returns behind it (R273, R274). Its
  -- 32 bytes are laid out as R259 says, at BASE + 32 × slot (R246). It carries the command's identifier, its status and its RESULT. One of a source
  -- reset since is discarded.
  (∀ (s : State) (r : CmdRef) (st result : Nat) (data : List Byte),
    (s.genOf r.src ≠ r.gen → s.complete r st result data = s) ∧
    (∀ f n, r.src = .sq f n → s.genOf r.src = r.gen →
      let w : WRing := (f, some (Fin.ofNat 64 (s.fv F.HST_SQ_CFG_CQ (64 * f + n))))
      let t := s.complete r st result data
      let ph := decide (s.wfv w F.HST_CQ_PTR_PHASE F.HST_EQ_PTR_PHASE = 1)
      (∃ e, toCome t w = toCome s w ++ [e] ∧ e.event = false ∧ e.code = r.cmdId ∧ e.status = BitVec.ofNat 8 st ∧
        e.result = BitVec.ofNat 64 result ∧ e.sqId = BitVec.ofNat 8 n ∧ e.time = s.devTime.setWidth 48 ∧ e.waitUs = Nat.min r.waitUs 0xFFFFFF ∧
        (s.wOpen w = true → (s.ring w.key).waiting = [] → (t.ring w.key).slots = (s.ring w.key).slots ++ [(e, ph)] ∧
          t.wfv w F.HST_CQ_PTR_INDEX F.HST_EQ_PTR_INDEX =
            (let tail := s.wfv w F.HST_CQ_PTR_INDEX F.HST_EQ_PTR_INDEX; if s.wSize w ≤ tail + 1 then 0 else tail + 1) ∧
          Out.entry f w.code e (BitVec.ofNat 64 (4096 * s.wfv w F.HST_CQ_BASE_BASE F.HST_EQ_BASE_BASE +
            32 * s.wfv w F.HST_CQ_PTR_INDEX F.HST_EQ_PTR_INDEX)) (entryBytes e ph) ∈ t.out) ∧
        (s.wOpen w = false ∨ (s.ring w.key).waiting ≠ [] → (t.ring w.key).slots = (s.ring w.key).slots ∧ t.regs = s.regs)) ∧
      Only [.regs, .hst, .out] s t) ∧
    (∀ k x, r.src = .session k → s.genOf r.src = r.gen → s.session k = some x →
      let t := s.complete r st result data
      (∃ e, t.out = .capsule k 3 (some e) (capsuleOf 3 x.seqOut (entryBytes e true ++ data)) :: s.out ∧ e.code = r.cmdId ∧ e.status = BitVec.ofNat 8 st ∧ e.result = BitVec.ofNat 64 result ∧
        e.sqId = BitVec.ofNat 8 (0x80 + k)) ∧
      (∃ y, t.session k = some y ∧ y.owed = x.owed.erase r.acc ∧ y.seqOut = x.seqOut + 1) ∧ Only [.hst, .out] s t)) ∧
  -- R253, R259, R270: an event goes to every function that subscribes to it, takes that function's next sequence number, and is posted to its event
  -- ring, or joins its backlog of 256, of which the oldest LINE_FIRED gives way, or is lost and counted. One addressed to a session goes in an EVENT
  -- capsule, or joins the session's backlog while its connection does not take it (R274; told with KEEPALIVE, log 130).
  ((∀ (s : State) (f : Fin 8) (code : Nat) (result : DWord),
    let w : WRing := (f, none)
    let x : Fn := s.hst.fns[f]
    let e := s.eventEntry code result x.evSeq
    let t := s.eventTo f code result
    e.event = true ∧ e.code = BitVec.ofNat 32 code ∧ e.result = result ∧ e.sqHead = x.evSeq ∧ e.status = 0 ∧
    (t.hst.fns[f]).evSeq = x.evSeq + 1 ∧ (∀ g : Fin 8, g ≠ f → t.hst.fns[g] = s.hst.fns[g]) ∧ Only [.regs, .hst, .out] s t ∧
    (s.wOpen w = true → x.backlog = [] → toCome t w = toCome s w ++ [e] ∧ (t.hst.fns[f]).backlog = []) ∧
    (s.wOpen w = false ∨ x.backlog ≠ [] → x.backlog.length < 256 → (t.hst.fns[f]).backlog = x.backlog ++ [e] ∧ t.regs = s.regs) ∧
    (s.wOpen w = false ∨ x.backlog ≠ [] → 256 ≤ x.backlog.length →
      t.fv F.HST_EVT_LOST_COUNT f = Nat.min (2 ^ F.HST_EVT_LOST_COUNT.w - 1) (s.fv F.HST_EVT_LOST_COUNT f + 1) ∧
      (∀ k, x.backlog.findIdx? (fun y => decide (y.code.toNat = 1)) = some k → (t.hst.fns[f]).backlog = x.backlog.eraseIdx k ++ [e]) ∧
      (x.backlog.findIdx? (fun y => decide (y.code.toNat = 1)) = none → (t.hst.fns[f]).backlog = x.backlog))) ∧
  (∀ (s : State) (e : Ev) (result : Nat),
    let t := s.raise e result
    (∀ f : Fin 8, (t.hst.fns[f]).evSeq =
      (s.hst.fns[f]).evSeq + (if natBit (s.fv F.HST_EVT_MASK_MASK f) e.ctorIdx then 1 else 0)) ∧
    (∀ f : Fin 8, natBit (s.fv F.HST_EVT_MASK_MASK f) e.ctorIdx = false → t.ring (WRing.key (f, none)) = s.ring (WRing.key (f, none)) ∧
      (t.hst.fns[f]).backlog = (s.hst.fns[f]).backlog) ∧
    Only [.regs, .hst, .out] s t) ∧
  (∀ (s : State) (k f : Fin 8) (x : Session) (code : Nat) (result : DWord), s.session k = some x →
    let t := s.eventSession k f x code result
    let goes : Prop := x.room = true ∧ x.backlog = []
    (goes → (∃ e, t.out = .capsule k 4 (some e) (capsuleOf 4 x.seqOut (entryBytes e true)) :: s.out ∧ e.event = true ∧
        e.code = BitVec.ofNat 32 code ∧ e.result = result ∧ e.sqHead = x.evSeq ∧ e.sqId = BitVec.ofNat 8 (0x80 + k)) ∧
      t.session k = some { x with evSeq := x.evSeq + 1, seqOut := x.seqOut + 1 }) ∧
    (¬ goes → t.out = s.out ∧ ∃ y, t.session k = some y ∧ y = { x with evSeq := x.evSeq + 1, backlog := y.backlog } ∧
      (x.backlog.length < 256 → ∃ e, y.backlog = x.backlog ++ [e] ∧ e.sqHead = x.evSeq ∧ t.regs = s.regs) ∧
      (256 ≤ x.backlog.length → y.backlog.length ≤ x.backlog.length ∧
        t.fv F.HST_EVT_LOST_COUNT f = Nat.min (2 ^ F.HST_EVT_LOST_COUNT.w - 1) (s.fv F.HST_EVT_LOST_COUNT f + 1))) ∧
    (∀ i : Fin 8, i ≠ k → t.session i = s.session i) ∧ Only [.regs, .hst, .out] s t))

/-- Function resets, the BAR4 window and Ethernet sessions. -/
def Obligations.FunctionsAndSessions : Prop :=
  -- R241, R255: a reset of a function takes its rings out of service without drain, forgets its commands and gives its HST_ registers their reset
  -- values, and leaves the other functions; of the physical function, a hot reset or a fall of the link it is every function's. The link comes up
  -- unless the module is Off, with the generation and the width it has trained to.
  ((∀ (s : State) (fn : Fin 8), s.hst.linkUp = false → exec (.functionLevelReset fn) s = .next s) ∧
  (∀ (s : State) (fn : Fin 8), s.hst.linkUp = true → fn.val ≠ 0 → Answers (.functionLevelReset fn) s fun t =>
    (∀ k, t.ring k = (if 129 * fn.val ≤ k ∧ k < 129 * fn.val + 129 then {} else s.ring k)) ∧
    (∀ r ∈ [RegName.HST_SQ_CFG, .HST_SQ_PTR, .HST_SQ_BASE, .HST_CQ_CFG, .HST_CQ_PTR, .HST_CQ_BASE], ∀ n, n < 512 →
      t.reg r n = (if n / 64 = fn.val then regReset r n else s.reg r n)) ∧
    (∀ r ∈ [RegName.HST_EQ_CFG, .HST_EQ_PTR, .HST_EQ_BASE, .HST_FN_ERR, .HST_EVT_MASK, .HST_EVT_LOST], ∀ n, n < 8 →
      t.reg r n = (if n = fn.val then regReset r n else s.reg r n)) ∧
    t.reg .HST_PERM = s.reg .HST_PERM ∧ t.reg .HST_CTL = s.reg .HST_CTL ∧ t.reg .SYS_MODE = s.reg .SYS_MODE ∧
    (∀ a ∈ t.hst.accepted, a ∈ s.hst.accepted ∧ ∀ n, a.cmd.src ≠ .sq fn n) ∧
    (∀ x ∈ t.store.waiting, x ∈ s.store.waiting ∧ ∀ n, x.cmd.src ≠ .sq fn n) ∧
    (∀ l ∈ t.hst.loads, l ∈ s.hst.loads ∧ (l.reading = none → ∀ n, l.cmd.src ≠ .sq fn n)) ∧
    (t.hst.fns[fn]).evSeq = (s.hst.fns[fn]).evSeq ∧ (t.hst.fns[fn]).gen = (s.hst.fns[fn]).gen + 1 ∧ (t.hst.fns[fn]).pendingVec = 0 ∧
    (∀ g : Fin 8, g ≠ fn → t.hst.fns[g] = s.hst.fns[g]) ∧ t.hst.sessions = s.hst.sessions ∧ Only [.regs, .hst, .store] s t) ∧
  (∀ (s : State) (c : Instr), (c = .functionLevelReset 0 ∧ s.hst.linkUp = true) ∨ c = .hotReset ∨ c = .pcieLinkDown → Answers c s fun t =>
    (∀ k, k < 1032 → t.ring k = {}) ∧ (∀ n, n < 512 → t.on F.HST_SQ_CFG_ENABLED n = false ∧ t.on F.HST_CQ_CFG_ENABLED n = false) ∧
    (∀ f : Fin 8, (t.hst.fns[f]).evSeq = (s.hst.fns[f]).evSeq ∧ (t.hst.fns[f]).gen = (s.hst.fns[f]).gen + 1) ∧
    (∀ a ∈ t.hst.accepted, ∃ k, a.cmd.src = .session k) ∧ (∀ x ∈ t.store.waiting, ∃ k, x.cmd.src = .session k) ∧ t.hst.sessions = s.hst.sessions ∧
    t.hst.linkUp = (if c = .pcieLinkDown then false else s.hst.linkUp) ∧ Only [.regs, .hst, .store] s t) ∧
  (∀ (s : State), (s.mode = 0 → exec .pcieLinkUp s = .next s) ∧
    (s.mode ≠ 0 → Answers .pcieLinkUp s fun t =>
      (∃ gen : Fin 6, ∃ lanes ∈ [1, 2, 4, 8, 16], gen ≠ 0 ∧
        t.hst = (let h := s.hst; { h with linkUp := true, linkGen := gen, linkLanes := lanes })) ∧ Only [.hst, .free] s t))) ∧
  -- R139, R242, R301: BAR4 gives the host the Staging RAM, the general region first. A read of uncorrectable words is poisoned, and one while BAR4 is
  -- closed gives zeros; a write lands in the general region alone and is otherwise discarded and counted.
  ((∀ (s : State) (off n : Nat) (data : List Byte), s.hst.linkUp = false →
    exec (.bar4Read off n) s = .next s ∧ exec (.bar4Write off data) s = .next s) ∧
  (∀ (s : State) (off n : Nat), s.hst.linkUp = true →
    (s.bar4Open = false ∨ 0x2000000 < off + n → exec (.bar4Read off n) s = .next (s.emit (.bytes (List.replicate n 0)))) ∧
    (s.bar4Open = true → off + n ≤ 0x2000000 → (∀ k, k < n → (s.cell 1 (bar4Offset (off + k) / 8)).isCe = false) →
      ((∀ k, k < n → (s.cell 1 (bar4Offset (off + k) / 8)).bad (bar4Offset (off + k) / 8) = false) → (∀ i d, s.cell 1 i ≠ .mir d) →
        exec (.bar4Read off n) s = .next (s.emit (.bytes ((List.range n).map (fun k => s.memByte 1 (bar4Offset (off + k))))))) ∧
      (∀ k, k < n → (s.cell 1 (bar4Offset (off + k) / 8)).bad (bar4Offset (off + k) / 8) = true → (∀ i d, s.cell 1 i ≠ .mir d) →
        Answers (.bar4Read off n) s fun t => t.out.head? = some .poisoned ∧ t.mems = s.mems))) ∧
  (∀ (s : State) (off : Nat) (data : List Byte), s.hst.linkUp = true →
    (s.bar4Open = true → off + data.length ≤ 0x400000 →
      Does (.bar4Write off data) s (s.dmaWrite 12 (0x2000000000 + bar4Offset off) data) ∧ (data ≠ [] → 0x1C00000 ≤ bar4Offset off)) ∧
    (s.bar4Open = false ∨ 0x400000 < off + data.length → Answers (.bar4Write off data) s (Counted s)))) ∧
  -- R272-R274, R338: Ethernet sessions. A handshake with a bad certificate raises alert 8, a good one opens the first free session of eight; BIND
  -- must come first, and binds it to a function once; any other first capsule closes it, and so does a KIND that is none, or a header that is none
  -- (log 131). A capsule's command is taken, with its data, or refused for more than 256 owed, a host address, too long a body, or data of the wrong
  -- length. KEEPALIVE also tells whether the connection takes events (log 130), and those that waited then go. Closing discards what is owed.
  ((∀ (s : State) (p : Fin 2) (ok : Bool),
    let opens : Prop := s.active = true ∧ s.on F.HST_CTL_ETH_EN = true ∧ s.pwr.drain = none
    let bad : Prop := ok = false ∨ s.fuses.lc = 0 ∨ s.fuses.lc = 3
    (¬ opens → exec (.sessionConnect p ok) s = .next s) ∧
    (opens → bad → Does (.sessionConnect p ok) s (s.alert 8 0 p)) ∧
    (opens → ¬ bad → (∀ k, (s.session k).isSome = true) → exec (.sessionConnect p ok) s = .next s) ∧
    (∀ k : Fin 8, opens → ¬ bad → s.session k = none → (∀ i : Fin 8, i < k → (s.session i).isSome = true) → Answers (.sessionConnect p ok) s fun t =>
      (∃ x, t.session k = some x ∧ x.port = p ∧ x.fn = none ∧ x.owed = []) ∧ (∀ i : Fin 8, i ≠ k → t.session i = s.session i) ∧ Only [.hst] s t)) ∧
  (∀ (s : State) (k : Fin 8) (h : BitVec 128) (body : List Byte) (ok : Bool),
    let fn := leNat (body.take 1)
    (s.session k = none → exec (.bind k h body ok) s = .next s) ∧
    (∀ x, s.session k = some x → Capsule h 1 body → ok = true → fn < 8 → x.fn = none → Answers (.bind k h body ok) s fun t =>
      (∃ y, t.session k = some y ∧ y.fn = some (Fin.ofNat 8 fn) ∧ y.mask = BitVec.ofNat 64 (leNat ((body.drop 8).take 8)) ∧ y.port = x.port) ∧
      (∃ e, t.out = .capsule k 3 (some e) (capsuleOf 3 x.seqOut (entryBytes e true)) :: s.out ∧ e.status = 0) ∧
      (∀ i : Fin 8, i ≠ k → t.session i = s.session i) ∧ Only [.hst, .out, .free] s t) ∧
    (∀ x, s.session k = some x → Capsule h 1 body → ok = false ∨ 8 ≤ fn ∨ x.fn ≠ none → Answers (.bind k h body ok) s fun t =>
      (∃ y, t.session k = some y ∧ y.fn = x.fn ∧ y.mask = x.mask) ∧
      (∃ e, t.out = .capsule k 3 (some e) (capsuleOf 3 x.seqOut (entryBytes e true)) :: s.out ∧ e.status = 0x30) ∧
      Only [.hst, .out, .free] s t)) ∧
  (∀ (s : State) (k : Fin 8) (h : BitVec 128) (body : List Byte) (ok room : Bool),
    let closed (t : State) : Prop := t.session k = none ∧ t.hst.sessGen[k] = s.hst.sessGen[k] + 1 ∧ (∀ i : Fin 8, i ≠ k → t.session i = s.session i) ∧
      t.hst.accepted = s.hst.accepted ∧ Only [.hst] s t
    (s.session k = none → ∀ c ∈ [Instr.submit k h body, .keepalive ⟨k, h, body, room⟩, .keepaliveSend k, .sessionTimeout k, .sessionClose k],
      exec c s = .next s) ∧
    (∀ x, s.session k = some x →
      (Answers (.sessionTimeout k) s closed) ∧ (Answers (.sessionClose k) s closed) ∧
      (∀ c ∈ [Instr.bind k h body ok, .submit k h body, .keepalive ⟨k, h, body, room⟩],
        ((∀ n, ¬ Capsule h n body) → Answers c s closed) ∧ (∀ n, Capsule h n body → n ≠ 1 → x.fn = none → Answers c s closed) ∧
        (∀ n, Capsule h n body → n ≠ 1 → n ≠ 2 → n ≠ 5 → Answers c s closed)) ∧
      (Capsule h 5 body → x.fn ≠ none → room = false →
        Does (.keepalive ⟨k, h, body, room⟩) s (s.setSession k (some { x with room := false }))) ∧
      (Capsule h 5 body → x.fn ≠ none → room = true → Answers (.keepalive ⟨k, h, body, room⟩) s fun t =>
        (∃ y, t.session k = some y ∧ y = { x with room := true, backlog := [], seqOut := x.seqOut + x.backlog.length }) ∧
        (∃ l : List Out, t.out = l ++ s.out ∧ l.map (fun o => match o with | .capsule _ _ e _ => e | _ => none) = (x.backlog.map some).reverse) ∧
        (∀ i : Fin 8, i ≠ k → t.session i = s.session i) ∧ Only [.hst, .out] s t) ∧
      (Answers (.keepaliveSend k) s fun t => t.out = .capsule k 5 none (capsuleOf 5 x.seqOut []) :: s.out ∧
        (∃ y, t.session k = some y ∧ y.seqOut = x.seqOut + 1) ∧ Only [.hst, .out] s t))) ∧
  (∀ (s : State) (k fn : Fin 8) (x : Session) (h : BitVec 128) (body : List Byte), s.session k = some x → x.fn = some fn → Capsule h 2 body →
    let d := descOf (BitVec.ofNat 512 (leNat (body.take 64)))
    let data := body.drop 64
    let c : Instr := .submit k h body
    let known := opcodes.contains d.opcode.toNat
    let refused (st code : Nat) : Prop := ∃ n, n % 256 = code ∧ Does c s
      (let a := s.accept (.session k) fn d s.devTime; a.2.used.complete a.1 st n)
    (256 ≤ x.owed.length → ∃ n, Does c s (let a := s.accept (.session k) fn d s.devTime; a.2.used.complete a.1 stBUSY n)) ∧
    (x.owed.length < 256 → d.hostAddr ≠ 0 ∨ descSgl d = true → refused stCONFLICT 0xF1) ∧
    (x.owed.length < 256 → d.hostAddr = 0 → descSgl d = false →
      (∀ n, known = true → submitData d = some n → capsuleLimit < 64 + n → refused stCONFLICT 0xF3) ∧
      (∀ n, known = true → submitData d = some n → 64 + n ≤ capsuleLimit → n ≠ data.length → refused stCONFLICT 0xF5) ∧
      (known = false → refused stCONFLICT 0xF0) ∧
      (known = true → (submitData d = none ∨ (submitData d = some data.length ∧ 64 + data.length ≤ capsuleLimit)) → s.pwr.drain = none →
        Answers c s fun t =>
          t.hst.accepted.map (fun a => (a.cmd.src, a.cmd.cmdId, a.desc, a.data)) =
            s.hst.accepted.map (fun a => (a.cmd.src, a.cmd.cmdId, a.desc, a.data)) ++ [(Src.session k, d.cmdId, d, data)] ∧
          Only [.hst, .free] s t))))

/-! ## Commands of the host: what every one is checked for -/

namespace Sys2Proof.Claims

/-- A host command: its operands, its opcode, the fields it uses, and what denies it beside its family (R245, R256, R262). -/
structure HostCmd where
  c : CmdIn
  op : Nat
  uses : Used
  denied : State → Fin 8 → Denial
  /-- It waits for something of its own before it is taken. -/
  waits : State → Bool

/-- What denies a command on a Reel: another function owns it, or the store is locked. -/
def reelDenied (h : BitVec 32) (s : State) (fn : Fin 8) : Denial := if s.notOwner h fn then .open_ else s.keyDenied

/-- The table of R262: the opcode of each command and the descriptor fields that it uses. -/
def hostCmd : Instr → Option HostCmd
  | .reelCreate c => some ⟨c, 0x01, { p1 := 0xF }, fun s _ => s.keyDenied, fun _ => false⟩
  | .reelWrite c => some ⟨c, 0x02,
      { flags := 0x18, reel := true, offset := true, length := true, host := true, p1 := if c.desc.flags.getLsbD 4 then p1Bits 40 4 else 0 },
      reelDenied c.desc.reel, fun _ => false⟩
  | .reelRead c _ _ => some ⟨c, 0x03, { reel := true, offset := true, length := true, host := true }, reelDenied c.desc.reel, fun _ => false⟩
  | .reelDelete c => some ⟨c, 0x04, { reel := true },
      fun s fn => if s.notOwner c.desc.reel fn = true ∧ fn.val ≠ 0 then .open_ else .none, fun s => s.reelBusy c⟩
  | .jobLoad c => some ⟨c, 0x10,
      (let reel := decide (c.desc.reel ≠ 0)
       { reel := true, offset := reel, length := !reel, host := !reel, p1 := if reel then 0 else p1Bits 40 8 ||| (1 <<< 64) }),
      fun s fn => if c.desc.reel = 0 then .none else reelDenied c.desc.reel s fn, fun _ => false⟩
  | .printStart src d host _ => some ⟨⟨src, d, host⟩, 0x11,
      (let q := printReq d
       { reel := true, offset := decide (q.reel ≠ 0), length := true, p0 := 0x01FF370F, host := decide (q.milestones ≠ 0), p1 := p1Bits 40 14 }),
      fun s fn => if d.reel = 0 then .none else reelDenied d.reel s fn, fun s => s.gangBusy⟩
  | .hold c => some ⟨c, 0x12, { flags := 8, p1 := p1Bits 40 8 }, notDenied, fun _ => false⟩
  | .resume c => some ⟨c, 0x13, {}, notDenied, fun _ => false⟩
  | .abort c => some ⟨c, 0x14, {}, notDenied, fun _ => false⟩
  | .calibrate c _ _ _ _ _ => some ⟨c, 0x15,
      { flags := 0xF9, reel := true, offset := true, length := true, p0 := BitVec.allOnes 32, host := true, p1 := BitVec.allOnes 192 }, notDenied,
      fun _ => false⟩
  | .tableUpdate c _ => some ⟨c, 0x16, { offset := true, length := true, p0 := 0x13F, host := true, p1 := p1Bits 40 4 }, notDenied, fun _ => false⟩
  | .programChange c => some ⟨c, 0x17, { p1 := p1Bits 40 8 }, notDenied, fun _ => false⟩
  | .headConfig c _ _ _ => some ⟨c, 0x20, { length := true, host := true }, notDenied, fun _ => false⟩
  | .cameraConfig c _ _ _ => some ⟨c, 0x21, { length := true, host := true }, notDenied, fun _ => false⟩
  | .scanRange c => some ⟨c, 0x30, { offset := true, length := true, p0 := 0x1F, host := true }, notDenied, fun _ => false⟩
  | .statusQuery c => some ⟨c, 0x31, { length := true, p0 := 0xFF, host := true }, notDenied, fun _ => false⟩
  | .blackboxRead c => some ⟨c, 0x32, { offset := true, length := true, host := true }, notDenied, fun _ => false⟩
  | .fwStage c _ _ _ => some ⟨c, 0x40, { length := true, p0 := 0xFFFF, host := true }, notDenied, fun _ => false⟩
  | .fwActivate c => some ⟨c, 0x41, { p0 := 0xFFFF }, notDenied, fun _ => false⟩
  | .keyWrap c _ => some ⟨c, 0x42, { length := true, host := true },
      fun s _ => if s.fuses.lc = 0 ∨ s.fuses.lc = 3 then .open_ else s.keyDenied, fun _ => false⟩
  | .modeSet c => some ⟨c, 0x50, { p0 := 0xF }, notDenied, fun _ => false⟩
  | _ => none

/-- The command, accepted before as `a`, has its turn (R249): its descriptor has the command's opcode, and it starts as `r`, whose QUEUE_WAIT
counts from the doorbell (R258), in the state `t`. -/
structure Taken (s : State) (k : HostCmd) (a : Accepted) (fn : Fin 8) (r : CmdRef) (t : State) : Prop where
  active : s.active = true
  ready : k.waits s = false
  found : s.found k.c = some a
  opcode : k.c.desc.opcode.toNat = k.op
  turn : s.mustWait k.op a = false
  asker : fn = a.cmd.fn
  ref : r = { a.cmd with waitUs := (s.devTime - a.cmd.bell).toNat / 200 }
  rest : t = { s with hst := { s.hst with accepted := s.hst.accepted.erase a } }

/-- The command passes what every command is checked for: its deadline, its family, its owner, the mode and its unused fields. -/
structure Starts (s : State) (i : Instr) (k : HostCmd) (fn : Fin 8) (r : CmdRef) (t : State) : Prop where
  row : hostCmd i = some k
  taken : ∃ a, Taken s k a fn r t
  inTime : k.c.desc.deadline = 0 ∨ (s.devTime - r.bell).toNat ≤ 200 * k.c.desc.deadline.toNat
  family : ∀ f, opFamily k.op = some f → t.on f fn = true
  allowed : k.denied t fn = .none
  mode : (opModes k.op).contains t.mode = true
  clean : descClean k.c.desc k.uses = true

/-- What the command finds of the host: a session's, the data that came behind its descriptor (R274). -/
def hostOf (s : State) (c : CmdIn) : HostIn :=
  match c.src, s.found c with
  | .session _, some a => { list := [], listErr := false, dataErr := false, data := a.data }
  | _, _ => c.host

/-- The command as it then works. -/
def inputOf (s : State) (c : CmdIn) : CmdIn := { c with host := hostOf s c }

/-- The command completes from the state `u` with a status and a RESULT that has the property; nothing else changes. -/
def Ends (i : Instr) (s u : State) (r : CmdRef) (st : Nat) (p : Nat → Prop) : Prop := ∃ n, p n ∧ Does i s (u.complete r st n)

/-- It completes with RESULT[7:0] as given. -/
def Refused (i : Instr) (s t : State) (r : CmdRef) (st code : Nat) : Prop := ∃ n, n % 256 = code ∧ Does i s (t.used.complete r st n)

/-- It completes with RESULT[7:0] and RESULT[63:32] as given. -/
def RefusedFor (i : Instr) (s t : State) (r : CmdRef) (st code detail : Nat) : Prop :=
  ∃ n, n % 256 = code ∧ n / 2 ^ 32 = detail % 2 ^ 32 ∧ Does i s (t.used.complete r st n)

/-- No fault in what the host gave: its list, where there is one, and its `n` bytes of data (R257). -/
def HostOk (c : CmdIn) (n : Nat) : Prop :=
  c.host.dataErr = false ∧ (descSgl c.desc = true → c.host.listErr = false) ∧ (hostSegs c n).isSome = true

/-- The pieces of the command's host buffer of `n` bytes. -/
def segsOf (c : CmdIn) (n : Nat) : Segs := (hostSegs c n).getD []

end Sys2Proof.Claims

/-- R245, R249, R257, R258, R262, R343: every command of the host. One that was not accepted, or whose descriptor has another opcode, or whose turn
has not come does nothing; then the first of these that holds ends it: too late is REFUSED_BUSY, a family the function may not use DENIED with 0xF4, a
Reel of another function or a locked store DENIED, a mode outside the opcode's REFUSED_MODE, and an unused field that is not 0 CONFLICT with 0xF1. A
list is walked as R257 says: an entry aligned to 16 bytes; a chain, or data at a multiple of 4, whose lengths add up. -/
def Obligations.CommandChecks : Prop :=
  (∀ (i : Instr) (k : HostCmd) (s : State), hostCmd i = some k →
    (s.active = false ∨ k.waits s = true ∨ s.found k.c = none ∨ k.c.desc.opcode.toNat ≠ k.op → exec i s = .next s) ∧
    (∀ a, s.found k.c = some a → s.mustWait k.op a = true → exec i s = .next s) ∧
    (∀ a fn r t, Taken s k a fn r t →
      let late : Prop := k.c.desc.deadline ≠ 0 ∧ 200 * k.c.desc.deadline.toNat < (s.devTime - a.cmd.bell).toNat
      let family : Prop := ∀ f, opFamily k.op = some f → t.on f fn = true
      (late → Ends i s t.used a.cmd 0x10 (fun _ => True)) ∧
      (¬ late → ¬ family → Refused i s t r 0x30 0xF4) ∧
      (¬ late → family → (∀ code, k.denied t fn = .reason code → code < 256 → Refused i s t r 0x30 code) ∧
        (k.denied t fn = .open_ → Ends i s t.used r 0x30 (fun _ => True)) ∧
        (k.denied t fn = .none →
          ((opModes k.op).contains t.mode = false → Ends i s t.used r 0x12 (fun _ => True)) ∧
          ((opModes k.op).contains t.mode = true → descClean k.c.desc k.uses = false → Refused i s t r 0x11 0xF1))))) ∧
  (∀ (c : CmdIn) (n : Nat), descSgl c.desc = false → hostSegs c n = some [(c.desc.hostAddr, n)]) ∧
  (∀ (at_ : DWord) (e : BitVec 128) (rest : List (BitVec 128)),
    let addr := e.extractLsb' 0 64
    let len := (e.extractLsb' 64 32).toNat
    let data : Prop := at_.toNat % 16 = 0 ∧ e.getLsbD 127 = false ∧ addr.toNat % 4 = 0 ∧ len % 4 = 0 ∧ len ≠ 0
    sglWalk at_ [] = none ∧ (at_.toNat % 16 ≠ 0 → sglWalk at_ (e :: rest) = none) ∧
    (at_.toNat % 16 = 0 → e.getLsbD 127 = true → sglWalk at_ (e :: rest) = sglWalk addr rest) ∧
    (data → e.getLsbD 126 = true → sglWalk at_ (e :: rest) = some [(addr, len)]) ∧
    (∀ l, data → e.getLsbD 126 = false → sglWalk (at_ + 16) rest = some l → sglWalk at_ (e :: rest) = some ((addr, len) :: l)) ∧
    (at_.toNat % 16 = 0 → e.getLsbD 127 = false → ¬ data → sglWalk at_ (e :: rest) = none))

/-! ## The job store -/

/-- Reels: created, written, closed, read, released and deleted. -/
def Obligations.ReelCommands : Prop :=
  -- R217-R223: REEL_CREATE gives an empty slot an OPEN Reel of a new generation, and uses an imported key up; REEL_DELETE destroys it, its handle
  -- being unknown from then on. A KEY_REF of an empty slot, a full store, an unknown handle and a Reel in use refuse them.
  ((∀ (s : State) (c : CmdIn) (k : HostCmd) (fn : Fin 8) (r : CmdRef) (t : State), Starts s (.reelCreate c) k fn r t →
    let ref := descP1 c.desc 40 1 % 16
    let keyOk : Prop := ref = 0 ∨ t.sec.keySlots.getLsbD ref = true
    (¬ keyOk → Refused (.reelCreate c) s t r 0x11 0xF3) ∧
    (keyOk → t.emptySlot = none → ∃ n, n % 256 = 3 ∧ Does (.reelCreate c) s (t.used.used.complete r 0x13 n)) ∧
    (keyOk → t.emptySlot ≠ none → Answers (.reelCreate c) s fun u => ∃ slot reel, slot < 4096 ∧
      smGet (fun _ => none) t.store.reels slot = none ∧ smGet (fun _ => none) u.store.reels slot = some reel ∧
      (ref ≠ 0 → reel.key = t.sec.keys.toList.getD ref 0) ∧ reel.tags = [] ∧ reel.chunkWrites = [] ∧ reel.stripes = [] ∧
      (∀ j, j ≠ slot → smGet (fun _ => none) u.store.reels j = smGet (fun _ => none) t.store.reels j) ∧
      reel.state = .open ∧ reel.owner = r.fn ∧ reel.length = 0 ∧ reel.imported = decide (ref ≠ 0) ∧
      reel.gen = smGet (fun _ => 0) t.store.gens slot % 0xFFFFF + 1 ∧
      (ref ≠ 0 → u.sec.keySlots.getLsbD ref = false) ∧ (∀ j, j ≠ ref ∨ ref = 0 → u.sec.keySlots.getLsbD j = t.sec.keySlots.getLsbD j) ∧
      Only [.store, .sec, .free, .hst, .regs, .out] s u)) ∧
  (∀ (s : State) (c : CmdIn) (k : HostCmd) (fn : Fin 8) (r : CmdRef) (t : State), Starts s (.reelDelete c) k fn r t →
    let h := c.desc.reel
    (t.reelAt h = none → Refused (.reelDelete c) s t r 0x11 1) ∧
    (∀ x, t.reelAt h = some x → x.state = .inUse → Refused (.reelDelete c) s t r 0x11 4) ∧
    (∀ x, t.reelAt h = some x → x.state ≠ .inUse → Answers (.reelDelete c) s fun u => u.reelAt h = none ∧
      u.store.reclaim = t.store.reclaim + x.length ∧ (∀ b ∈ u.store.buffered, b.1 ≠ h) ∧
      (∀ j, j ≠ h.toNat % 4096 → smGet (fun _ => none) u.store.reels j = smGet (fun _ => none) t.store.reels j) ∧
      Only [.store, .regs, .hst, .out] s u))) ∧
  -- R218, R219, R226, R227, R235, R269: a REEL_WRITE is checked in turn for its Reel, the Reel's state, its alignment and length, the quota, the
  -- host's data and its CRC, and then meets its bucket: it is admitted, waits or is refused. It becomes durable behind the writes it must follow:
  -- only then do the Reel's bytes and length change, and its completion is posted; in a FAILED store it ends with FAILED_MEDIA instead.
  ((∀ (s : State) (c : CmdIn) (k : HostCmd) (fn : Fin 8) (r : CmdRef) (t : State), Starts s (.reelWrite c) k fn r t →
    let g := inputOf s c
    let h := c.desc.reel
    let close := c.desc.flags.getLsbD 3
    let n := c.desc.length.toNat
    let off := c.desc.offset.toNat
    let w : PendWrite :=
      { cmd := r, handle := h, offset := off, length := n, data := g.host.data.take n, close := close, read := false,
        deadline := c.desc.deadline.toNat, prio := c.desc.priority.toNat, host := [], media := [], tags := [] }
    (t.reelAt h = none → Refused (.reelWrite c) s t r 0x11 1) ∧
    (∀ x, t.reelAt h = some x →
      let aligned : Prop := off % 4096 = 0 ∧ (n % 4096 = 0 ∨ close = true)
      let sized : Prop := n ≤ 0xFFFFF000 ∧ (n ≠ 0 ∨ close = true)
      let quota : Prop := t.worn h x off n = false ∧ t.overCapacity r.fn (if n = 0 then 0 else off + n - t.pendingEnd (h.toNat % 4096) x) = false
      let crc : Prop := c.desc.flags.getLsbD 4 = true → crc32c g.host.data = descP1 c.desc 40 4
      let fits : Prop := t.store.writesBarred = false ∧ x.state = .open ∧ aligned ∧ sized ∧ off + n ≤ 2 ^ 45
      let passes : Prop := fits ∧ quota ∧ HostOk g n ∧ crc
      (t.store.writesBarred = true → Ends (.reelWrite c) s t.used r 0x10 (fun n => n % 256 = 0)) ∧
      (t.store.writesBarred = false → x.state ≠ .open → Refused (.reelWrite c) s t r 0x11 2) ∧
      (t.store.writesBarred = false → x.state = .open → ¬ aligned → Refused (.reelWrite c) s t r 0x11 6) ∧
      (t.store.writesBarred = false → x.state = .open → aligned → sized → 2 ^ 45 < off + n → Refused (.reelWrite c) s t r 0x11 5) ∧
      (fits → ¬ quota → Refused (.reelWrite c) s t r 0x13 2) ∧
      (fits → quota → HostOk g n → ¬ crc → Ends (.reelWrite c) s t.used r 0x22 (fun _ => True)) ∧
      (passes → t.admission true r.fn w.deadline = .refused → Refused (.reelWrite c) s t r 0x13 1) ∧
      (passes → t.admission true r.fn w.deadline = .later → Answers (.reelWrite c) s fun u => u.store.waiting = t.store.waiting ++ [w] ∧
        u.store.writes = t.store.writes ∧ u.store.reels = t.store.reels ∧ Only [.store, .hst] s u) ∧
      (passes → t.admission true r.fn w.deadline = .now → t.store.state ≠ .failed → Answers (.reelWrite c) s fun u =>
        u.store.writes = t.store.writes ++ [w] ∧ u.store.reels = t.store.reels ∧ u.store.writeTok[r.fn] = t.store.writeTok[r.fn] - 200 * (n : Int) ∧
        u.hst.rings = t.hst.rings ∧ Only [.store, .hst] s u))) ∧
  (∀ (s : State) (src : Src) (id : BitVec 32),
    let hit (w : PendWrite) : Bool := decide (w.cmd.src = src ∧ w.cmd.cmdId = id)
    let landed (w : PendWrite) : State := s.setStore (let x := s.store; { x with writes := x.writes.erase w })
    (s.store.writes.find? hit = none → exec (.reelWriteDurable src id) s = .next s) ∧
    (∀ w, s.store.writes.find? hit = some w →
      let waits : Prop := (∃ a ∈ s.store.writes ++ s.store.waiting, a.before w = true) ∨ (w.close = true ∧ s.writeAhead w.handle w.cmd.acc = true)
      (waits ∨ s.active = false → exec (.reelWriteDurable src id) s = .next s) ∧
      (∀ x, ¬ waits → s.active = true → s.reelAt w.handle = some x →
        (s.store.state = .failed → Ends (.reelWriteDurable src id) s (landed w).used w.cmd 0x20 (fun _ => True)) ∧
        (s.store.state ≠ .failed → x.state ≠ .open → Ends (.reelWriteDurable src id) s (landed w).used w.cmd 0x11 (fun n => n % 256 = 2)) ∧
        (s.store.state ≠ .failed → x.state = .open → Answers (.reelWriteDurable src id) s fun u =>
          ∃ y, u.reelAt w.handle = some y ∧ y.gen = x.gen ∧ y.owner = x.owner ∧ y.key = x.key ∧
            (∀ k b, w.data[k]? = some b → smGet (fun _ => 0) y.data (w.offset + k) = b) ∧
            (∀ o, o < w.offset ∨ w.offset + w.data.length ≤ o → smGet (fun _ => 0) y.data o = smGet (fun _ => 0) x.data o) ∧
            (∀ j, j ∉ chunksOf w.offset w.data.length → smGet (fun _ => 0) y.chunkWrites j = smGet (fun _ => 0) x.chunkWrites j ∧
              smGet (fun _ => 0) y.tags j = smGet (fun _ => 0) x.tags j) ∧
            (∀ j ∈ chunksOf w.offset w.data.length, smGet (fun _ => 0) y.chunkWrites j = smGet (fun _ => 0) x.chunkWrites j + 1 ∧
              smGet (fun _ => 0) y.tags j = Config.gcmTag y.key (chunkIv (y.handle (w.handle.toNat % 4096)) j (smGet (fun _ => 0) y.chunkWrites j))
                (y.read (65536 * j) 65536)) ∧
            y.length = (if w.data.length = 0 then x.length else Nat.max x.length (w.offset + w.data.length)) ∧
            y.state = (if w.close then .closed else x.state) ∧ u.store.writes = s.store.writes.erase w ∧
            (∀ j, j ≠ w.handle.toNat % 4096 → smGet (fun _ => none) u.store.reels j = smGet (fun _ => none) s.store.reels j) ∧
            (w.close = true → ∀ b ∈ u.store.buffered, b.1 ≠ w.handle) ∧ Only [.store, .regs, .hst, .out, .free] s u))))) ∧
  -- R218, R224, R226-R228, R249: a REEL_READ within its Reel meets the bucket of class 1. Once admitted it is served at a tick (log 117): it delivers
  -- the bytes, unwritten space as zeros. A waiting command is admitted in its turn, by PRIORITY, when its bucket stands at 0 or above; one that can
  -- no longer meet its deadline is refused with the hint.
  ((∀ (s : State) (c : CmdIn) (media : List (Nat × MediaVerdict)) (tags : List (Nat × Bool)) (k : HostCmd) (fn : Fin 8) (r : CmdRef) (t : State),
    Starts s (.reelRead c media tags) k fn r t →
    let g := inputOf s c
    let h := c.desc.reel
    let n := c.desc.length.toNat
    let off := c.desc.offset.toNat
    let i := Instr.reelRead c media tags
    let w : PendWrite :=
      { cmd := r, handle := h, offset := off, length := n, data := [], close := false, read := true, deadline := c.desc.deadline.toNat,
        prio := c.desc.priority.toNat, host := segsOf g n, media := media, tags := tags }
    (t.reelAt h = none → Refused i s t r 0x11 1) ∧
    (∀ x, t.reelAt h = some x →
      (x.length < off + n → Refused i s t r 0x11 5) ∧
      (off + n ≤ x.length → tooLong c n = true → Refused i s t r 0x11 0xF3) ∧
      (off + n ≤ x.length → tooLong c n = false → HostOk g n →
        let adm := t.admission false r.fn c.desc.deadline.toNat
        let paid := t.pay false r.fn n
        (adm = .refused → Refused i s t r 0x13 1) ∧
        (adm = .later → Answers i s fun u => u.store.waiting = t.store.waiting ++ [w] ∧ u.store.reels = t.store.reels ∧
          Only [.store, .hst] s u) ∧
        (adm = .now → t.store.state = .failed → Ends i s paid.used r 0x20 (fun _ => True)) ∧
        (adm = .now → t.store.state ≠ .failed → Answers i s fun u => u.store.reads = t.store.reads ++ [w] ∧ u.store.reels = t.store.reels ∧
          u.store.readTok[r.fn] = t.store.readTok[r.fn] - 200 * (n : Int) ∧ u.out = s.out ∧ Only [.store, .hst] s u)))) ∧
  (∀ (s : State) (w : PendWrite) (rest : List PendWrite) (x : Reel), s.pending = [] → s.active = true → s.store.reads = w :: rest →
    s.store.units = [] → s.store.refreshFirst = false → (∀ l : Fin 16, s.laneState l ≠ 1 ∧ s.laneState l ≠ 2) →
    s.reelAt w.handle = some x → x.stripes = [] → w.tags = [] →
    let r : CmdRef := { w.cmd with waitUs := (s.devTime + 1 - w.cmd.bell).toNat / 200 }
    let u : State := s.clock.setStore (let x := s.clock.store; { x with reads := rest })
    (s.store.state = .failed → ∃ n, step s = .next (u.used.complete r 0x20 n)) ∧
    (s.store.state ≠ .failed → step s = .next ((u.deliver r w.host
        ((List.range w.length).map (fun k => smGet (fun _ => (0 : Byte)) x.data (w.offset + k)))).complete r
      (if s.fv F.JS_QUOTA_LATE_US r.fn < r.waitUs then 1 else 0) w.length
      ((List.range w.length).map (fun k => smGet (fun _ => (0 : Byte)) x.data (w.offset + k)))))) ∧
  (∀ (s : State) (fn : Fin 8) (write : Bool),
    let mine := (s.storeWaiting fn).filter (fun w => w.read != write)
    let first := mine.find? (fun w => mine.all (fun x => decide (x.prio ≤ w.prio)))
    let now (w : PendWrite) : PendWrite := { w with cmd := { w.cmd with waitUs := (s.devTime - w.cmd.bell).toNat / 200 } }
    (mine = [] ∨ s.bucket write fn < 0 ∨ s.active = false ∨ s.store.refreshFirst = true → exec (.storeCommandAdmit fn write) s = .next s) ∧
    (∀ w, first = some w → 0 ≤ s.bucket write fn → s.active = true → s.store.refreshFirst = false → s.store.state ≠ .failed → w.cmd.fn = fn →
      Answers (.storeCommandAdmit fn write) s fun u => u.store.waiting = s.store.waiting.erase w ∧ u.store.reels = s.store.reels ∧
        (write = true → u.store.writes = s.store.writes ++ [now w] ∧ u.store.reads = s.store.reads ∧
          u.store.writeTok[fn] = s.store.writeTok[fn] - 200 * (w.length : Int)) ∧
        (write = false → u.store.reads = s.store.reads ++ [now w] ∧ u.store.writes = s.store.writes ∧
          u.store.readTok[fn] = s.store.readTok[fn] - 200 * (w.length : Int)) ∧ Only [.store] s u)) ∧
  (∀ (s : State) (src : Src) (id hint : BitVec 32),
    let hit (w : PendWrite) : Bool := decide (w.cmd.src = src ∧ w.cmd.cmdId = id ∧ w.deadline ≠ 0)
    let all := s.store.writes ++ s.store.reads ++ s.store.waiting
    (all.find? hit = none → exec (.storeDeadlineMiss src id hint) s = .next s) ∧
    (∀ w, all.find? hit = some w → ∃ n, n % 256 = 0 ∧ n / 2 ^ 32 = hint.toNat ∧
      Does (.storeDeadlineMiss src id hint) s
        ((s.setStore (let x := s.store; { x with writes := x.writes.erase w, reads := x.reads.erase w, waiting := x.waiting.erase w })).used.complete
          w.cmd 0x10 n))))

/-- Media upkeep, sled failures and rebuilds. -/
def Obligations.MediaAndRebuild : Prop :=
  -- R215, R220, R228-R232, R235: the media. Stripe i has its parity on sled 15 - i mod 16 and its data behind it, and the exclusive-OR of fifteen
  -- units is the sixteenth. A codeword that the hard decode serves costs nothing; one that a later step serves is counted and refreshed; one of a
  -- strip that none serves asks for a Hold. A failed program, and a block with a codeword that needed step 3 in a second patrol, retire a block;
  -- refresh and erasure work their backlogs off.
  ((∀ i u : Nat, u < 15 → paritySled i = 15 - i % 16 ∧ (dataSled i u).val = (paritySled i + 1 + u) % 16 ∧ unitOn i (dataSled i u) = some u) ∧
  (∀ (i : Nat) (n : Fin 16), unitOn i n = none ↔ n.val = 15 - i % 16) ∧
  (∀ (s : State) (i : Nat) (n : Fin 16), (∀ u, u < 15 → (s.dataUnit i u).length = 65536) → s.rebuiltUnit i n = s.unitBytes i n) ∧
  (∀ (s : State) (n : Fin 16) (cw : Nat) (cls : Fin 4) (line : Option Nat) (m : MediaVerdict),
    let e := s.readEnd n cls m
    let failed : Prop := s.store.state = .failed ∧ cls.val ≠ 3
    let p := s.readEnd n 3 m
    let b := Config.flashBlock n cw
    (s.active = false → exec (.codewordRead n cw cls line m) s = .next s ∧ exec (.patrolRead n cw m) s = .next s) ∧
    (failed → e = .lost) ∧ (¬ failed → m.hard = true → (s.sled n).state = 1 → e = .hard) ∧
    ((s.sled n).state ≠ 1 → e = .rebuild ∨ e = .lost) ∧
    (m.hard = false → m.retry = false → (∃ k : Fin 16, k ≠ n ∧ m.others.getLsbD k.val = false) → (cls.val = 0 ∨ m.soft = false) → e = .lost) ∧
    (cls.val = 0 → e ≠ .soft) ∧
    (s.active = true → line = none → Answers (.codewordRead n cw cls line m) s fun t =>
      (t.sled n).retries = (if e = .hard then (s.sled n).retries else s.devTime :: (s.sled n).retries) ∧
      (t.sled n).rebuilt = (s.sled n).rebuilt + (if e = .rebuild then 1 else 0) ∧
      (t.sled n).lost = (s.sled n).lost + (if e = .lost then 1 else 0) ∧
      (e = .lost ∨ (e = .hard ∧ m.manyErrors = false) → t.store.refresh = s.store.refresh) ∧
      (e ≠ .lost → e ≠ .hard ∨ m.manyErrors = true → (n, cw / 16) ∈ t.store.refresh) ∧ (t.sled n).state = (s.sled n).state ∧
      (n, cw) ∉ t.store.toPatrol ∧ (n, cw) ∉ t.store.overdue ∧
      (∀ k : Fin 16, k ≠ n → t.sled k = s.sled k) ∧ t.store.reels = s.store.reels ∧ Only [.store, .free] s t) ∧
    (∀ l, s.active = true → line = some l → cls.val = 0 → e = .lost → s.job ≠ none → (∀ x ∈ s.store.undelivered, x.1 ≠ l) → s.sht.held = none →
      exec (.codewordRead n cw cls line m) s = .next (settle s
        (let u := s.used.countRead n cw cls e m.manyErrors
         ((u.setStore (let x := u.store; { x with undelivered := (l, u.effectiveBoundary (l - 2) false) :: x.undelivered })).requestHold
           (l - 2) 2 none 0 false none)))) ∧
    (s.active = true → p = .hard ∨ p = .retry → Answers (.patrolRead n cw m) s fun t =>
      (t.sled n).retired = (s.sled n).retired ∧ (t.sled n).step3 = (s.sled n).step3 ∧ Only [.store, .free] s t) ∧
    (s.active = true → p ≠ .hard → p ≠ .retry → smGet (fun _ => 0) (s.sled n).step3 b = 0 → Answers (.patrolRead n cw m) s fun t =>
      (t.sled n).retired = (s.sled n).retired ∧ smGet (fun _ => 0) (t.sled n).step3 b = 1 ∧ Only [.store, .free] s t) ∧
    (s.active = true → p ≠ .hard → p ≠ .retry → smGet (fun _ => 0) (s.sled n).step3 b = 1 → Answers (.patrolRead n cw m) s fun t =>
      (t.sled n).retired = (s.sled n).retired + 1 ∧ smGet (fun _ => 0) (t.sled n).step3 b = 0 ∧ Only [.store, .free, .regs, .cs, .hst, .out] s t)) ∧
  (∀ (s : State) (n : Fin 16), (s.active = false → exec (.flashProgramFail n) s = .next s) ∧
    (s.active = true → Answers (.flashProgramFail n) s fun t => (t.sled n).retired = (s.sled n).retired + 1 ∧
      (t.sled n).sparePct ≤ (s.sled n).sparePct ∧ (∀ k : Fin 16, k ≠ n → t.sled k = s.sled k) ∧ t.store.reels = s.store.reels ∧
      ((t.sled n).sparePct = 0 → (s.sled n).serving = true → (t.sled n).state = 4) ∧
      Only [.store, .free, .regs, .cs, .hst, .out] s t)) ∧
  (∀ (s : State) (n : Fin 16) (stripe b : Nat),
    let mine (u : FlashUnit) : Bool := decide (u.sled = n ∧ u.stripe = stripe)
    (s.active = false → exec (.refresh (n, stripe)) s = .next s ∧ exec (.reclaimErase b) s = .next s) ∧
    ((∀ u ∈ s.store.units, mine u = false) → exec (.refresh (n, stripe)) s = .next s) ∧
    (∀ u ∈ s.store.units, s.active = true → mine u = true → Answers (.refresh (n, stripe)) s fun t =>
      t.store.refresh = s.store.refresh.erase (n, stripe) ∧
      t.store.units = s.store.units.map (fun u => if mine u then ⟨u.1, u.2, 0, List.replicate 16 0⟩ else u) ∧
      (t.sled n).written = (s.sled n).written + 65536 ∧ t.store.reels = s.store.reels ∧
      (∀ k : Fin 16, k ≠ n → t.sled k = s.sled k) ∧ Only [.store] s t) ∧
    (s.active = true → Answers (.reclaimErase b) s fun t =>
      t.store = (let x := s.store; { x with reclaim := x.reclaim - b, unerased := x.unerased.drop (b / 983040) }) ∧ Only [.store] s t))) ∧
  -- R234, R236: a sled that is removed without OFFLINE, does not answer, faults or overheats fails: the store is DEGRADED, or FAILED if it was
  -- already without one, SYS_REDUND shows it and SLED_FAULT tells of it with its KIND. A sled that is not in service fails nothing.
  (∀ (s : State) (n : Fin 16) (i : Instr) (kind : Nat) (after : Fin 5),
    (i, kind, after) ∈ [(Instr.sledNoAnswer n, 1, (4 : Fin 5)), (.sledInternalFault n, 1, 4), (.sledOverTemperature n, 5, 4), (.sledRemoved n, 2, 0)] →
    (s.active = false → exec i s = .next s) ∧
    (s.active = true → (s.sled n).serving = false → kind ≠ 2 → exec i s = .next s) ∧
    (s.active = true → (s.sled n).serving = false → kind = 2 → Answers i s fun t => (t.sled n).state = 0 ∧ t.on F.JS_SLED_CTL_OFFLINE n = false ∧
      t.store.state = s.store.state ∧ Only [.store, .regs] s t) ∧
    (s.active = true → (s.sled n).serving = true → Answers i s fun t => (t.sled n).state = after ∧ (∀ k : Fin 16, k ≠ n → t.sled k = s.sled k) ∧
      (s.store.rebuildSlot = some n → s.store.state ≠ .failed → t.store.state = .degraded ∧ t.store.checkpointGB = 0) ∧
      (s.store.rebuildSlot ≠ some n → s.store.state = .full → t.store.state = .degraded ∧ t.store.rebuildSlot = some n) ∧
      (s.store.rebuildSlot ≠ some n → s.store.state = .degraded ∨ s.store.state = .rebuilding → t.store.state = .failed ∧
        t.on F.JS_REBUILD_RUNNING = false) ∧
      (s.store.state ≠ .failed → natBit (t.fv F.SYS_REDUND_CAUSE) 2 = true) ∧ t.store.reels = s.store.reels ∧
      Only [.store, .free, .regs, .cs, .hst, .out] s t)) ∧
  -- R237, R238: a planned replacement. OFFLINE takes a sled of a FULL store out of service, and is rejected otherwise; a new sled of at least 20 TB
  -- is accepted and waits; its rebuild starts unless it is paused or deferred, is checkpointed, is stopped and restarted by PAUSE, and ends with the
  -- store FULL and SLED_REBUILT.
  ((∀ (s : State) (a : Agent) (n : Fin 16), Permits s a .JS_SLED_CTL n →
    (s.store.state ≠ .full → Answers (.sledOffline a n) s fun t => t.on F.JS_SLED_CTL_REJ n = true ∧ RegsOnly [(.JS_SLED_CTL, n.val)] s t) ∧
    (s.store.state = .full → Answers (.sledOffline a n) s fun t => (t.sled n).state = 2 ∧ t.store.state = .degraded ∧
      t.store.rebuildSlot = some n ∧ t.on F.JS_SLED_CTL_OFFLINE n = true ∧ t.out = .led n 1 :: s.out ∧
      (∀ k : Fin 16, k ≠ n → t.sled k = s.sled k) ∧ Only [.store, .regs, .latches, .out] s t ∧ OnlyRegs [(.JS_SLED_CTL, n.val), (.SYS_REDUND, 0)] s t)) ∧
  (∀ (s : State) (n : Fin 16) (tb : Nat) (serial : BitVec 128) (again : Bool),
    let i := Instr.sledInserted n tb serial again
    let restores : Prop := s.store.state = .failed ∧ s.store.lostHealthy = some n ∧ again = true
    (s.active = false ∨ (s.sled n).state ≠ 0 → exec i s = .next s) ∧
    (s.active = true → (s.sled n).state = 0 → restores → Answers i s fun t => (t.sled n).state = 1 ∧ t.store.state = s.store.prior ∧
      t.store.lostHealthy = none ∧ t.store.reels = s.store.reels ∧ Only [.store, .regs] s t) ∧
    (s.active = true → (s.sled n).state = 0 → ¬ restores → tb < 20 → exec i s = .next (s.emit (.led n 2))) ∧
    (s.active = true → (s.sled n).state = 0 → ¬ restores → 20 ≤ tb → Answers i s fun t => (t.sled n).state = 2 ∧ (t.sled n).accepted = true ∧
      (t.sled n).serial = serial ∧ (∀ k : Fin 16, k ≠ n → t.sled k = s.sled k) ∧ t.store.state = s.store.state ∧
      Only [.store, .free, .regs, .cs] s t)) ∧
  (∀ s : State,
    let opens (n : Fin 16) : Prop := s.active = true ∧ s.store.state = .degraded ∧ s.on F.JS_REBUILD_PAUSE = false ∧ (s.sled n).accepted = true ∧
      ((s.sled n).state = 2 ∨ (s.sled n).state = 3)
    (s.store.rebuildSlot = none → exec .rebuildStart s = .next s ∧ exec .sledRebuilt s = .next s) ∧
    (∀ n, s.store.rebuildSlot = some n →
      (¬ opens n → exec .rebuildStart s = .next s) ∧
      (opens n → s.rebuildDeferred = true → Answers .rebuildStart s fun t =>
        t.store = (let x := s.store; { x with deferred := true }) ∧ Only [.store] s t) ∧
      (opens n → s.rebuildDeferred = false → Answers .rebuildStart s fun t => (t.sled n).state = 3 ∧ t.store.state = .rebuilding ∧
        t.on F.JS_REBUILD_RUNNING = true ∧ t.fv F.JS_REBUILD_SLOT = n.val ∧ t.out = .led n 3 :: s.out ∧ Only [.store, .regs, .out] s t) ∧
      (s.store.state ≠ .rebuilding → exec .sledRebuilt s = .next s) ∧
      (s.store.state = .rebuilding → Answers .sledRebuilt s fun t => (t.sled n).state = 1 ∧ t.store.state = .full ∧ t.store.rebuildSlot = none ∧
        natBit (t.fv F.SYS_REDUND_CAUSE) 2 = false ∧ t.on F.JS_REBUILD_RUNNING = false ∧ t.fv F.JS_REBUILD_PCT = 100 ∧
        Only [.store, .regs, .hst, .out] s t)) ∧
    (∀ gb, (s.store.state ≠ .rebuilding → exec (.rebuildCheckpoint gb) s = .next s) ∧
      (s.store.state = .rebuilding → Answers (.rebuildCheckpoint gb) s fun t => t.store.checkpointGB = Nat.max gb s.store.checkpointGB ∧
        t.fv F.JS_REBUILD_PCT = Nat.min 100 (Nat.max gb s.store.checkpointGB / 200) ∧ Only [.store, .regs] s t ∧ OnlyRegs [(.JS_REBUILD, 0)] s t))) ∧
  (∀ (s : State) (a : Agent), Permits s a .JS_REBUILD 0 →
    (Answers (.rebuildPause a) s fun t => t.on F.JS_REBUILD_PAUSE = true ∧
      (s.store.state = .rebuilding → t.store.state = .degraded ∧ t.on F.JS_REBUILD_RUNNING = false) ∧
      (s.store.state ≠ .rebuilding → t.store = s.store) ∧ Only [.store, .regs, .latches] s t ∧ OnlyRegs [(.JS_REBUILD, 0), (.SYS_REDUND, 0)] s t) ∧
    (Answers (.rebuildResume a) s fun t => t.on F.JS_REBUILD_PAUSE = false ∧
      (∀ n, s.store.rebuildSlot = some n → s.on F.JS_REBUILD_PAUSE = true → s.store.state = .degraded → (s.sled n).state = 3 →
        t.store.state = .rebuilding ∧ t.on F.JS_REBUILD_RUNNING = true) ∧
      (s.on F.JS_REBUILD_PAUSE = false ∨ s.store.state ≠ .degraded → t.store = s.store) ∧
      Only [.store, .regs, .latches] s t ∧ OnlyRegs [(.JS_REBUILD, 0), (.SYS_REDUND, 0)] s t)))

/-! ## Jobs -/

/-- R266, R390, R391: JOB_LOAD holds a CLOSED Reel for the function's next job, or takes a host-form load: it must fit, follow the last in line order
and be one of at most 64. The first by PRIORITY is read once the print region has room, and completes when its buffer has been walked; one that cannot
be read ends ABORTED, with every later one, and the line order goes back to it. -/
def Obligations.JobLoads : Prop :=
  (∀ (s : State) (c : CmdIn) (k : HostCmd) (fn : Fin 8) (r : CmdRef) (t : State), Starts s (.jobLoad c) k fn r t →
    let i := Instr.jobLoad c
    let h := c.desc.reel
    (h ≠ 0 → t.reelAt h = none → Refused i s t r 0x11 1) ∧
    (∀ x, h ≠ 0 → t.reelAt h = some x →
      (x.state = .open → Refused i s t r 0x11 3) ∧ (x.state = .inUse → Refused i s t r 0x11 4) ∧
      (x.state = .closed → ∃ n, n ≤ x.lines - c.desc.offset.toNat ∧
        Does i s ((t.setReel h (some { x with state := .inUse, loaded := true, prefetched := (c.desc.offset.toNat, n) })).used.complete r 0 n))) ∧
    (h = 0 →
      let g := inputOf s c
      let n := c.desc.length.toNat
      let first := descP1 c.desc 40 4
      let lines := descP1 c.desc 44 4
      let sized : Prop := n ≤ t.stripRoom ∧ 1 ≤ lines ∧ lines ≤ 256
      let waiting := (t.hst.fns[r.fn]).loadAccs.countP (fun e => decide (e.2 < r.acc) && t.owes e.1 e.2)
      (¬ sized → Refused i s t r 0x11 0xF3) ∧
      (sized → 64 ≤ waiting → Ends i s t.used r 0x10 (fun _ => True)) ∧
      (sized → waiting < 64 → first ≠ (t.hst.fns[r.fn]).nextLoad → Refused i s t r 0x11 0xF3) ∧
      (sized → waiting < 64 → first = (t.hst.fns[r.fn]).nextLoad → (descSgl c.desc = true → g.host.listErr = false) →
        (hostSegs g n = none → Refused i s t r 0x11 0xF2) ∧
        (hostSegs g n ≠ none → Answers i s fun u => u.hst.loads.map (fun l => (l.fn, l.first, l.lines, l.data, l.reading)) =
            t.hst.loads.map (fun l => (l.fn, l.first, l.lines, l.data, l.reading)) ++ [(r.fn, first, lines, g.host.data.take n, none)] ∧
          (u.hst.fns[r.fn]).nextLoad = first + lines ∧ Only [.hst] s u)))) ∧
  (∀ (s : State) (fn : Fin 8),
    let out := s.hst.loads.filter (fun l => decide (l.fn = fn) && l.reading.isNone)
    let next := out.find? (fun l => out.all (fun x => decide (x.prio ≤ l.prio)))
    let reaches (l : HostLoad) : Bool := match l.cmd.src with
      | .sq _ _ => s.hostReaches
      | .session _ => s.active
    (next = none → exec (.hostLoadRead fn) s = .next s) ∧
    (∀ l, next = some l → reaches l = false → exec (.hostLoadRead fn) s = .next s) ∧
    (∀ l, next = some l → s.findRoom l.data.length = none → exec (.hostLoadRead fn) s = .next s) ∧
    (∀ l p, next = some l → s.findRoom l.data.length = some p → reaches l = true → Answers (.hostLoadRead fn) s fun t =>
      { l with reading := some p, cmd := { l.cmd with waitUs := (s.devTime - l.cmd.bell).toNat / 200 } } ∈ t.hst.loads ∧ t.hst.loads.length = s.hst.loads.length ∧ p + l.data.length ≤ s.stripRoom ∧
      (∀ u ∈ s.stagingUsed, p + l.data.length ≤ u.1 ∨ u.1 + u.2 ≤ p) ∧ Only [.hst] s t)) ∧
  (∀ (s : State) (fn : Fin 8),
    let head := s.hst.loads.find? (fun l => decide (l.fn = fn) && l.reading.isSome)
    (head = none → exec (.hostLoadComplete fn) s = .next s) ∧
    (∀ l p, head = some l → l.reading = some p → l.dataErr = true ∨ walkStrips l.data = none → Answers (.hostLoadComplete fn) s fun t =>
      (∀ x ∈ t.hst.loads, x.fn = fn → ¬ l.cmd.acc < x.cmd.acc) ∧ (t.hst.fns[fn]).nextLoad = l.first ∧ t.mems = s.mems ∧
      t.hst.staged = s.hst.staged ∧ Only [.hst, .regs, .free, .out] s t) ∧
    (∀ l p, head = some l → l.reading = some p → l.dataErr = false → walkStrips l.data ≠ none → s.job = none → Answers (.hostLoadComplete fn) s fun t =>
      t.hst.loads = s.hst.loads.erase l ∧
      t.hst.staged.map (fun x => (x.fn, x.first, x.lines, x.place)) =
        s.hst.staged.map (fun x => (x.fn, x.first, x.lines, x.place)) ++ [(fn, l.first, l.lines, p)] ∧
      t.mems = (s.dmaWrite 8 (0x2000000000 + p) l.data).mems))

/-- PRINT_START: what it is refused for, and what it starts. -/
def Obligations.PrintStarts : Prop :=
  -- R264: the checks of PRINT_START in their order; the first that fails gives the reason and its detail.
  (∀ (s : State) (q : PrintReq) (im : ProgramImage), s.program q.printProg = some im →
    let fromReel := decide (q.reel ≠ 0)
    let reel := s.reelAt q.reel
    let reelLines := match reel with
      | some x => x.lines
      | none => 0
    let reelRate := match reel with
      | some x => x.storeRate q.offset (q.offset + (if q.length = 0 then reelLines - q.offset else q.length)) q.rate
      | none => 0
    let linkBits := if s.hst.linkUp then
        ([0, 2 * 10 ^ 9, 4 * 10 ^ 9, 7877 * 10 ^ 6, 15754 * 10 ^ 6, 31508 * 10 ^ 6].getD s.hst.linkGen.val 0) * s.hst.linkLanes
      else 0
    let inter := q.inspect && q.interleaved
    let insp := if q.inspect then s.program q.inspProg else none
    let hash := s.hashMismatch im insp (q.inspect && !q.interleaved)
    let detail (o : Option Nat) : Option Nat := o
    let checks : List (Bool × Nat × Option Nat) :=
      [(fromReel && reel.isNone, 1, none),
       (fromReel && reel.any (fun r => decide (r.state = .open)), 3, none),
       (fromReel && reel.any (fun r => decide (r.state = .inUse) && !r.loaded), 4, none),
       (fromReel && decide (reelLines ≤ q.offset ∨ reelLines < q.offset + q.length), 0x19, some reelLines),
       ((s.badSlot q.printProg q.inspProg q.inspect).isSome, 0x1B, detail (s.badSlot q.printProg q.inspProg q.inspect)),
       (decide ((if q.npg = 3 then 32000 else 64000) < q.rate) || im.npgDeclared.any (fun n => decide (n ≠ q.npg)), 0x11, none),
       (overBudget im insp inter q.rate, 0x10, some (cycleQuarters im insp inter / 4)),
       (hash.isSome, 0x12, detail hash),
       (decide (1024 / npgOf q.npg < s.slotsRequired), 0x13, some s.slotsRequired),
       (s.mapFault.isSome, 0x14, detail s.mapFault),
       (s.groupFault.isSome, 0x15, detail s.groupFault),
       ((s.overLoaded q.rate).isSome, 0x16, detail (s.overLoaded q.rate)),
       (s.laneUnfit.isSome, 0x17, detail s.laneUnfit),
       (s.oddLane.isSome, 0x18, detail s.oddLane),
       (fromReel && decide (40000 < reelRate), 5, some reelRate),
       (!fromReel && decide (linkBits < 10 * (q.hostBytes * q.rate)), 0x1A, some (q.hostBytes * q.rate / 10 ^ 6))]
    s.printRefusal q = (checks.find? (fun e => e.1)).map (fun e => e.2)) ∧
  -- R48, R264-R266: PRINT_START. A Reel that the function holds for another job is released first; a check that fails refuses it with its reason and
  -- detail; otherwise the Reel is IN USE, the job has the next number, the gang is arranged and the module enters Print to fill the Reserve.
  (∀ (s : State) (c : CmdIn) (rest : BitVec 32) (k : HostCmd) (fn : Fin 8) (r : CmdRef) (t : State),
      Starts s (.printStart c.src c.desc c.host rest) k fn r t →
    let i := Instr.printStart c.src c.desc c.host rest
    let q := printReq c.desc
    let g := inputOf s c
    let ms := milestoneList g.host.data q.milestones
    let u := t.releaseOthers r.fn q.reel
    let lines := u.reelLines q.reel
    let rate := u.storeRateOf q
    (q.bad = true → Refused i s t r 0x11 0xF3) ∧
    (q.bad = false → HostOk g (4 * q.milestones) → ascending ms = false → Refused i s t r 0x11 0xF3) ∧
    (q.bad = false → HostOk g (4 * q.milestones) → ascending ms = true →
      (∀ code detail, u.printRefusal q = some (code, some detail) → code < 256 → RefusedFor i s u r 0x11 code detail) ∧
      (∀ code, u.printRefusal q = some (code, none) → code < 256 → Refused i s u r 0x11 code) ∧
      (∀ im, u.printRefusal q = none → u.program q.printProg = some im →
        let bars : Prop := q.reel ≠ 0 ∧ u.store.state = .rebuilding ∧ 22400 < rate
        (bars → RefusedFor i s u r 0x10 1 rest.toNat) ∧
        (¬ bars → Does i s (u.beginJob q r im (q.lines lines) rate ms)) ∧
        (¬ bars → s.fv F.SHT_RESERVE_TARGET ≠ 0 → q.lines lines ≠ 0 → Answers i s fun v =>
          v.mode = 4 ∧ v.fv F.SYS_MODE_PREV = s.mode ∧ v.gangMode = (if q.inspect = true ∧ q.interleaved = false then 2 else 3) ∧
          (∃ j, v.job = some j ∧ j.number = s.sht.jobs + 1 ∧ j.fn = r.fn ∧ j.length = q.lines lines ∧ j.npgCode = q.npg ∧
            j.inspect = q.inspect ∧ j.phase = .filling ∧ j.claimed = 0 ∧ j.fired = 0 ∧ j.reel = q.reel ∧ j.milestones = ms ∧
            j.inspImage = (if q.inspect then u.program q.inspProg else none)) ∧
          (q.reel ≠ 0 → ∀ x, u.reelAt q.reel = some x → v.reelAt q.reel = some { x with state := .inUse, loaded := false, prefetched := (0, 0) })))))

/-- HOLD, RESUME and ABORT, the taking of a Hold and the end of a job. -/
def Obligations.HoldsAndJobEnds : Prop :=
  -- R162, R163, R262, R265-R267: HOLD asks for a Hold at its line, or in Hold completes with the present boundary; RESUME withdraws what is pending,
  -- or ends the Hold, unless the Nozzle Map is at fault or a Developer of the print gang is halted, or waits behind a strip fault; ABORT ends the job
  -- at the next boundary, and in Ready releases what the function has loaded.
  ((∀ (s : State) (c : CmdIn) (k : HostCmd) (fn : Fin 8) (r : CmdRef) (t : State), Starts s (.hold c) k fn r t →
    let dur := descP1 c.desc 44 4
    (t.sht.held = none → Does (.hold c) s (t.requestHold (descP1 c.desc 40 4) 0 (some r) dur (c.desc.flags.getLsbD 3) none)) ∧
    (∀ h, t.sht.held = some h → Answers (.hold c) s fun u =>
      (∃ v : State, u = settle s (v.complete r 0 h.b) ∧ v.sht.held.map (fun x => (x.b, x.timer)) =
        some (h.b, if h.onlyHold then (if dur = 0 then none else some dur) else h.timer)) ∧ Only [.sht, .hst, .regs, .out] s u)) ∧
  (∀ (s : State) (c : CmdIn) (k : HostCmd) (fn : Fin 8) (r : CmdRef) (t : State), Starts s (.resume c) k fn r t →
    let v := t.refetchAgain
    (v.sht.held = none → Answers (.resume c) s fun u => u.sht.holdReqs = v.sht.holdReqs.filter (fun x => decide (1 < x.cause)) ∧
      u.mode = s.mode ∧ Only [.sht, .hst, .regs, .out, .free] s u) ∧
    (∀ h, v.sht.held = some h →
      (∀ n, v.mapFault = some n → RefusedFor (.resume c) s v r 0x11 0x14 n) ∧
      (v.mapFault = none → v.printHalted = true → Refused (.resume c) s v r 0x11 0x30) ∧
      (v.mapFault = none → v.printHalted = false → v.heldBack h = true → Answers (.resume c) s fun u =>
        u.sht.held = some { h with waiting := h.waiting ++ [r] } ∧ Only [.sht, .hst, .out] s u) ∧
      (v.mapFault = none → v.printHalted = false → v.heldBack h = false → Does (.resume c) s (v.endHold [r])))) ∧
  (∀ (s : State) (c : CmdIn) (k : HostCmd) (fn : Fin 8) (r : CmdRef) (t : State), Starts s (.abort c) k fn r t →
    (∀ j, t.job = some j → Does (.abort c) s
      (({ t with job := some { j with abortAt := some (Nat.min t.nextBoundary (j.abortAt.getD t.nextBoundary)), aborts := j.aborts ++ [r] } }
        : State).checkBoundary)) ∧
    (t.job = none → Answers (.abort c) s fun u => (∀ l ∈ u.hst.loads, l.fn ≠ r.fn) ∧ (∀ p ∈ u.hst.pending, p.held = true → p.fn ≠ r.fn) ∧
      (u.hst.fns[r.fn]).nextLoad = 0 ∧
      (∀ e ∈ u.store.reels, ∀ x, e.2 = some x → x.loaded = true → x.state = .inUse → x.owner ≠ r.fn) ∧
      Only [.hst, .store, .regs, .free, .out] s u))) ∧
  -- R155, R162, R163, R265, R310: what a Hold, its end and the end of a job do. Reaching the boundary the module is in Hold with its cause, its line
  -- and HELD; its end returns it to Print and, in single-pass operation, puts LINEPOS at b + DMIN - 1; the last line's fire, or an ABORT's boundary,
  -- ends the job: Ready, with the Reel CLOSED, the bands and the windows gone and no line left to resend.
  ((∀ (s : State) (b : Nat) (q : HoldReq), s.sht.holdReqs = [q] → q.b = b → b < 2 ^ 32 → q.cause < 16 →
    let t := s.reachHold b
    t.mode = 5 ∧ t.on F.SHT_HOLD_HELD = true ∧ t.on F.SHT_HOLD_REQ = false ∧ t.fv F.SHT_HOLD_CAUSE = Nat.min 15 q.cause ∧ t.fv F.SHT_HOLD_AT_LINE = b ∧
    t.sht.held.map (fun h => (h.b, h.onlyHold, h.gated)) = some (b, q.cmd.isSome, q.strip.toList) ∧ t.sht.holdReqs = []) ∧
  (∀ (s : State) (h : Held) (j : Job), s.sht.held = some h → s.job = some j → j.phase = .running → s.scanning = false → s.sht.holdReqs = [] →
    j.abortAt = none → j.fired < j.length → j.complete = j.claimed → h.waiting = [] → h.b + 256 ≤ 2 ^ 31 →
    (∀ g ∈ s.groupsOn, h.b ≤ (j.groups[g]).nextArm) →
    let t := s.endHold []
    t.sht.held = none ∧ t.mode = 4 ∧ t.on F.SHT_HOLD_HELD = false ∧
    t.reg .SHT_LINEPOS = BitVec.ofInt 64 (((h.b : Int) + s.dmin - 1) * 2 ^ 32)) ∧
  (∀ (s : State) (j : Job), s.job = some j →
    let t := s.finishJob
    t.job = none ∧ t.mode = 3 ∧ t.sht.held = none ∧ t.sht.holdReqs = [] ∧
    (∀ p : Fin 4, t.enl[p] = {} ∧ t.fv F.ENL_STATUS_QDEPTH p = 0 ∧ t.on F.ENL_STATUS_HALTED p = false) ∧ (∀ d : Fin 4, (t.devs[d]).win = none ∧ (t.devs[d]).slot = none) ∧
    (∀ x, s.reelAt j.reel = some x → x.state = .inUse → t.reelAt j.reel = some { x with state := .closed, loaded := false, prefetched := (0, 0) })))

/-- Table updates, region swaps, gang changes and the configuration commands. -/
def Obligations.UpdatesAndConfiguration : Prop :=
  -- R165, R209, R264, R268: TABLE_UPDATE is checked against the image of its line and waits for the switch, at most 8 of them; in Ready it is held.
  -- PROGRAM_CHANGE is checked as a PRINT_START is, against the running job's layout, and waits for its line.
  ((∀ (s : State) (c : CmdIn) (arrived : Bool) (k : HostCmd) (fn : Fin 8) (r : CmdRef) (t : State), Starts s (.tableUpdate c arrived) k fn r t →
    let i := Instr.tableUpdate c arrived
    let line := descP1 c.desc 40 4
    let table := c.desc.p0.toNat % 64
    let plane := c.desc.offset.toNat
    let g := inputOf s c
    let data := g.host.data.take c.desc.length.toNat
    let sized : Prop := c.desc.length.toNat % 8192 = 0 ∧ c.desc.length ≠ 0
    let full : Prop := 8 ≤ t.hst.pending.countP (fun p => p.change.isNone)
    let kept (held : Bool) (u : State) : Prop :=
      u.hst.pending.map (fun p => (p.line, p.table, p.plane, p.data, p.held, p.change)) =
        t.hst.pending.map (fun p => (p.line, p.table, p.plane, p.data, p.held, p.change)) ++ [(line, table, plane, data, held, none)] ∧ Only [.hst] s u
    (¬ sized → Refused i s t r 0x11 0xF3) ∧
    (sized → t.job = none → full → Ends i s t.used r 0x10 (fun _ => True)) ∧
    (sized → t.job = none → ¬ full → HostOk g c.desc.length.toNat → Answers i s (kept true)) ∧
    (∀ j, sized → t.job = some j →
      let im := t.imageAt j (c.desc.p0.getLsbD 8) line
      let decl := im.bind (fun x => x.tables.find? (fun d => decide (d.number = table)))
      (decl = none → Refused i s t r 0x11 0x20) ∧
      (∀ d, decl = some d → d.planes < plane + data.length / 8192 → Refused i s t r 0x11 0x21) ∧
      (∀ d, decl = some d → plane + data.length / 8192 ≤ d.planes →
        let loop : Prop := t.on F.CAM_CTL_LOOP_EN = true ∧ gainTable im table = true
        (loop → Refused i s t r 0x11 0x22) ∧ (¬ loop → full → Ends i s t.used r 0x10 (fun _ => True)) ∧
        (¬ loop → ¬ full → HostOk g c.desc.length.toNat → Answers i s (kept false))))) ∧
  (∀ (s : State) (c : CmdIn) (k : HostCmd) (fn : Fin 8) (r : CmdRef) (t : State), Starts s (.programChange c) k fn r t →
    let i := Instr.programChange c
    let pr := descP1 c.desc 40 2
    let ins := descP1 c.desc 42 2
    (t.job = none → Ends i s t.used r 0x12 (fun _ => True)) ∧
    (∀ j, t.job = some j →
      let insp := if j.inspect then t.program ins else none
      (j.inspect = false → ins ≠ 0xFFFF → Refused i s t r 0x11 0xF3) ∧
      (j.inspect = true ∨ ins = 0xFFFF →
        (∀ n, t.badSlot pr ins j.inspect = some n → RefusedFor i s t r 0x11 0x1B n) ∧
        (∀ im, t.badSlot pr ins j.inspect = none → t.program pr = some im →
          let fits : Prop := (∀ n, im.npgDeclared = some n → n = j.npgCode) ∧ im.layoutId = j.image.layoutId ∧
            insp.map (fun x => x.layoutId) = j.inspImage.map (fun x => x.layoutId)
          let tooMuch := overBudget im insp (j.inspect && j.interleaved) j.rateMax
          let hash := t.hashMismatch im insp (j.inspect && !j.interleaved)
          (¬ fits → Refused i s t r 0x11 0x11) ∧
          (fits → tooMuch = true → RefusedFor i s t r 0x11 0x10 (cycleQuarters im insp (j.inspect && j.interleaved) / 4)) ∧
          (∀ d, fits → tooMuch = false → hash = some d → RefusedFor i s t r 0x11 0x12 d) ∧
          (fits → tooMuch = false → hash = none → Answers i s fun u =>
            u.hst.pending.map (fun p => (p.line, p.change)) =
              t.hst.pending.map (fun p => (p.line, p.change)) ++ [(descP1 c.desc 44 4, some (pr, ins))] ∧ Only [.hst] s u)))))) ∧
  -- R155, R168, R195, R197, R212, R213: HEAD_CONFIG sets lanes, Nozzle Map entries and ports, CAMERA_CONFIG the cameras, and CALIBRATE puts its
  -- products into force when it succeeds; each completes with OK or with the refusal the rules give.
  ((∀ (s : State) (c : CmdIn) (lanes : List (Fin 16 × BitVec 32)) (nm : List (Nat × BitVec 32)) (ports : BitVec 8) (k : HostCmd) (fn : Fin 8) (r : CmdRef)
      (t : State), Starts s (.headConfig c lanes nm ports) k fn r t → HostOk (inputOf s c) c.desc.length.toNat →
    let i := Instr.headConfig c lanes nm ports
    let owner := t.fv F.FAB_PIN_OWNER_OWNER
    let clash : Prop := ports.getLsbD 7 = true ∧ owner ≠ 0 ∧ owner ≠ 1
    (ports.setWidth 16 &&& t.pwr.fabFailed ≠ 0 → Ends i s t.used r 0x11 (fun _ => True)) ∧
    (ports.setWidth 16 &&& t.pwr.fabFailed = 0 → clash → Answers i s fun u => u.on F.FAB_PIN_OWNER_CLAIM_REJ = true ∧ u.mems = s.mems ∧
      u.lanes = s.lanes) ∧
    (ports.setWidth 16 &&& t.pwr.fabFailed = 0 → ¬ clash →
      (ports.getLsbD 7 = false → Ends i s (nm.foldl (fun s e => if e.1 < 524288 then s.setNozzle e.1 e.2 else s)
        (lanes.foldl (fun s e => s.writeLaneCtl e.1 (e.2.setWidth 64)) t)) r 0 (fun n => n = 0)) ∧
      (∀ n v, lanes = [] → nm = [(n, v)] → n < 524288 → Answers i s fun u =>
        smGet (fun _ => (0 : BitVec 32)) u.mems.nmap n = v ∧
        (∀ m, m ≠ n → smGet (fun _ => (0 : BitVec 32)) u.mems.nmap m = smGet (fun _ => (0 : BitVec 32)) s.mems.nmap m) ∧
        (ports.getLsbD 7 = true → u.fv F.FAB_PIN_OWNER_OWNER = 1) ∧ Only [.mems, .regs, .hst, .handover, .fab, .out] s u))) ∧
  (∀ (s : State) (c : CmdIn) (cams : List (Fin 4 × DWord)) (loop : LoopConf) (access : List CamAccess) (k : HostCmd) (fn : Fin 8) (r : CmdRef) (t : State),
      Starts s (.cameraConfig c cams loop access) k fn r t → HostOk (inputOf s c) c.desc.length.toNat →
    let i := Instr.cameraConfig c cams loop access
    let speeds : Prop := ∀ e ∈ cams, speedOk (wField e.2 F.CAM_CAM_CFG_SPEED) = true ∧
      (wField e.2 F.CAM_CAM_CFG_ENABLE = 1 → 10 * camBits e.2 loop.rate ≤ 9 * camPayload e.2)
    (¬ speeds → Ends i s t.used r 0x11 (fun _ => True)) ∧
    (speeds → Answers i s fun u => u.cam.outHold = loop.outHold ∧
      (∀ a ∈ access, Out.camControl a ∈ u.out) ∧ u.cam.rings = s.cam.rings ∧
      (∀ x v, cams = [(x, v)] → s.printing = false → u.fv F.CAM_CAM_CFG_SPEED x = wField v F.CAM_CAM_CFG_SPEED ∧
        u.fv F.CAM_CAM_CFG_TRIG x = wField v F.CAM_CAM_CFG_TRIG) ∧ Only [.cam, .regs, .hst, .out] s u)) ∧
  (∀ (s : State) (c : CmdIn) (ok : Bool) (channels : Fin 8) (il : Fin 16) (px : List CalPixel) (p : CalProducts) (k : HostCmd) (fn : Fin 8) (r : CmdRef) (t : State),
      Starts s (.calibrate c ok channels il px p) k fn r t →
    let i := Instr.calibrate c ok channels il px p
    let gain (e : CalPixel) : Nat := calGain e.2.1.toNat e.2.2.1.toNat e.2.2.2
    let dead := px.countP (fun e => decide (gain e = 0))
    let classed := p.classes.countP (fun e => decide (2 ≤ e.2.1.val))
    (ok = true → Answers i s fun u => u.cam.regTable = p.regTable ∧ u.cam.landing = p.landing ∧ u.cam.classes = p.classes ∧
      (∀ x d, p.dist = [(x, d)] → u.fv F.CAM_CAM_CFG_DIST_LINES x = d.toNat) ∧
      (∃ v : State, u = settle s (v.complete r 0 (pair (dead % 2 ^ 32) (classed % 2 ^ 32))))) ∧
    (ok = false → Answers i s fun u => u.cam = s.cam ∧ u.mems = s.mems ∧ u.grains = s.grains ∧
      (∃ v : State, u = settle s (v.complete r 0x3F (pair (dead % 2 ^ 32) (classed % 2 ^ 32)))))) ∧
  (∀ dark white : Nat, (dark < white → (0xE000 * 2 ^ 14 + (white - dark) / 2) / (white - dark) < 2 ^ 16 →
      calGain dark white false = (0xE000 * 2 ^ 14 + (white - dark) / 2) / (white - dark)) ∧
    calGain dark white true = 0))

/-- Reporting commands, firmware staging and activation, keys. -/
def Obligations.ReportsFirmwareAndKeys : Prop :=
  -- R233, R304, R331, R337, R368: the commands that report. SCAN_RANGE starts one range pass and completes with it; STATUS_QUERY returns a page it
  -- knows, cut to the length asked for; BLACKBOX_READ returns records of the Contact Sheet in SEQ order with the first SEQ and their count.
  ((∀ (s : State) (c : CmdIn) (k : HostCmd) (fn : Fin 8) (r : CmdRef) (t : State), Starts s (.scanRange c) k fn r t →
    let mem := c.desc.p0.toNat % 32
    (16 < mem → Refused (.scanRange c) s t r 0x11 0xF3) ∧
    (mem ≤ 16 → t.net.scan ≠ none → Ends (.scanRange c) s t.used r 0x10 (fun _ => True)) ∧
    (mem ≤ 16 → t.net.scan = none → HostOk (inputOf s c) 72 → Answers (.scanRange c) s fun u =>
      u.net.scan.map (fun p => (p.mem, p.start, p.length, p.cmd)) = some (mem, c.desc.offset.toNat, c.desc.length.toNat, some (r, segsOf (inputOf s c) 72)) ∧
      Only [.net, .hst] s u)) ∧
  (∀ (s : State) (c : CmdIn) (k : HostCmd) (fn : Fin 8) (r : CmdRef) (t : State), Starts s (.statusQuery c) k fn r t →
    tooLong c c.desc.length.toNat = false → HostOk (inputOf s c) c.desc.length.toNat →
    let page := c.desc.p0.toNat % 256
    (page ≠ 0x10 → page ≠ 0x11 → page ≠ 0x20 → Refused (.statusQuery c) s t r 0x11 0xF3) ∧
    (∀ b, t.statusPage page c.desc.length.toNat = some b → b.length ≤ c.desc.length.toNat ∧
      Does (.statusQuery c) s ((({ t with free := t.free + 16 } : State).deliver r (segsOf (inputOf s c) c.desc.length.toNat) b).complete r 0 b.length b)) ∧
    (t.storePage.length = 64 ∧ t.storePage.take 4 =
      [BitVec.ofNat 8 (match t.store.state with | .full => 0 | .degraded => 1 | .rebuilding => 2 | .failed => 3),
       (match t.store.rebuildSlot with | some n => BitVec.ofNat 8 n.val | none => 0xFF), BitVec.ofNat 8 (t.fv F.JS_REBUILD_PCT),
       BitVec.ofNat 8 ((if t.on F.JS_REBUILD_PAUSE then 1 else 0) + (if t.store.deferred then 2 else 0) + (if t.store.toPatrol ≠ [] then 4 else 0))])) ∧
  (∀ (s : State) (c : CmdIn) (k : HostCmd) (fn : Fin 8) (r : CmdRef) (t : State), Starts s (.blackboxRead c) k fn r t →
    let n := c.desc.length.toNat
    (n = 0 ∨ 131072 < n → Refused (.blackboxRead c) s t r 0x11 0xF3) ∧
    (∀ x rest, 0 < n → n ≤ 131072 → tooLong c (64 * n) = false → HostOk (inputOf s c) (64 * n) → t.csSelect c.desc.offset n = x :: rest →
      Does (.blackboxRead c) s ((t.used.deliver r (segsOf (inputOf s c) (64 * n)) ((x :: rest).flatMap csBytes)).complete r 0
        (pair x.seq.toNat (rest.length + 1)) ((x :: rest).flatMap csBytes))) ∧
    (∀ x, (csBytes x).length = 64))) ∧
  -- R327, R328, R334, R335, R337: FW_STAGE stores a verified image that is not older than the fuses allow, or a program in its slot; FW_ACTIVATE
  -- marks a staged one to boot first; KEY_WRAP puts a key whose tag verifies into a free slot.
  ((∀ (s : State) (c : CmdIn) (v : ImageVerdict) (prog : Option ProgramImage) (region : Option RegionImage) (k : HostCmd) (fn : Fin 8) (r : CmdRef)
      (t : State), Starts s (.fwStage c v prog region) k fn r t →
    let i := Instr.fwStage c v prog region
    let kind := fwKind c.desc
    let slot := fwSlot c.desc
    let listed : Prop := (kind ≤ 3 ∧ slot = 0) ∨ (4 ≤ kind ∧ kind ≤ 6 ∧ slot < 16)
    let good : Prop := v.signatureOk = true ∧ v.contentOk = true
    let bad := region.any (fun im => t.imageRefused (Fin.ofNat 16 slot) im)
    (¬ listed → Refused i s t r 0x11 0xF3) ∧
    (listed → HostOk (inputOf s c) c.desc.length.toNat → ¬ good → Ends i s t.used r 0x22 (fun _ => True)) ∧
    (listed → HostOk (inputOf s c) c.desc.length.toNat → good → kind ≤ 4 → v.svn < s.fuses.svnMin kind → ∃ n, n % 256 = 1 ∧ Does i s ((t.used.complete r 0x30 n).alert 9 kind v.svn)) ∧
    (listed → HostOk (inputOf s c) c.desc.length.toNat → good → kind ≤ 4 → s.fuses.svnMin kind ≤ v.svn → kind = 4 → bad = true →
      Ends i s t.used r 0x11 (fun _ => True)) ∧
    (listed → HostOk (inputOf s c) c.desc.length.toNat → good → kind ≤ 4 → s.fuses.svnMin kind ≤ v.svn → (kind = 4 → bad = false) → Answers i s fun u =>
      smGet (fun _ => none) u.hst.stagedImages (16 * kind + slot) = some v ∧ smGet (fun _ => 0) u.hst.activated (16 * kind + slot) = 1 ∧
      (∀ j, j ≠ 16 * kind + slot → smGet (fun _ => none) u.hst.stagedImages j = smGet (fun _ => none) t.hst.stagedImages j) ∧
      u.hst.programs = t.hst.programs ∧ u.hst.bootImages = t.hst.bootImages ∧
      (∀ im, region = some im → kind = 4 → (u.fab[Fin.ofNat 16 slot]).shadow = some im ∧ u.on F.FAB_REGION_CTL_SHADOW_OK (Fin.ofNat 16 slot).val = true) ∧
      (kind ≠ 4 → u.fab = t.fab) ∧ Only [.hst, .regs, .out, .fab] s u) ∧
    (∀ im, prog = some im → listed → HostOk (inputOf s c) c.desc.length.toNat → good → 5 ≤ kind → Answers i s fun u =>
      smGet (fun _ => none) u.hst.programs slot = some im ∧
      (∀ j, j ≠ slot → smGet (fun _ => none) u.hst.programs j = smGet (fun _ => none) t.hst.programs j) ∧ Only [.hst, .regs, .out] s u)) ∧
  (∀ (s : State) (c : CmdIn) (k : HostCmd) (fn : Fin 8) (r : CmdRef) (t : State), Starts s (.fwActivate c) k fn r t →
    let kind := fwKind c.desc
    let slot := fwSlot c.desc
    let ready : Prop := ((kind ≤ 3 ∧ slot = 0) ∨ (kind = 4 ∧ slot < 16)) ∧ smGet (fun _ => 0) t.hst.activated (16 * kind + slot) ≠ 0
    (¬ ready → Refused (.fwActivate c) s t r 0x11 0xF3) ∧
    (ready → Answers (.fwActivate c) s fun u => smGet (fun _ => 0) u.hst.activated (16 * kind + slot) = 2 ∧
      (∀ j, j ≠ 16 * kind + slot → smGet (fun _ => 0) u.hst.activated j = smGet (fun _ => 0) t.hst.activated j) ∧
      u.hst.stagedImages = t.hst.stagedImages ∧ Only [.hst, .regs, .out] s u)) ∧
  (∀ (s : State) (c : CmdIn) (tag : Bool) (k : HostCmd) (fn : Fin 8) (r : CmdRef) (t : State), Starts s (.keyWrap c tag) k fn r t → HostOk (inputOf s c) c.desc.length.toNat →
    (tag = false → Ends (.keyWrap c tag) s t.used r 0x22 (fun _ => True)) ∧
    (tag = true → t.freeKeySlot = none → Ends (.keyWrap c tag) s t.used r 0x10 (fun _ => True)) ∧
    (∀ n, tag = true → t.freeKeySlot = some n → 1 ≤ n ∧ n < 16 ∧ t.sec.keySlots.getLsbD n = false ∧ Answers (.keyWrap c tag) s fun u =>
      u.sec.keySlots.getLsbD n = true ∧ (∀ j, j ≠ n → u.sec.keySlots.getLsbD j = t.sec.keySlots.getLsbD j) ∧
      u.sec.keys.toList.getD n 0 = Config.kekWrap (Config.importedKey (hostOf s c).data) ∧
      Only [.sec, .hst, .regs, .free, .out] s u)))

/-! ## The network -/

/-- Route tables, COMMIT and link failures. -/
def Obligations.RoutesAndLinks : Prop :=
  -- R280, R281, R283, R284, R288, R292: the agent writes the shadow entry that NOC_RT_IDX names; COMMIT puts every table in force and clears USE_B,
  -- or sets BAD with the first entry that fails and changes nothing; a replay sends every request sent before the failure that does not wait for a
  -- route; one that has waited 2 ms completes FAILED_NODE_RESET; a response returns its request's credit, and one of an old epoch is dropped and
  -- counted.
  ((∀ (s : State) (a : Agent) (ni : Fin 36) (v : DWord), Permits s a .NOC_RT_DATA ni →
    let i := s.fv F.NOC_RT_IDX_IDX ni
    Answers (.routeDataWrite a ni v) s fun t =>
      (i < 36 → ∀ d, Ni.entry (t.net.nis[ni]).written d = if d = i then v else Ni.entry (s.net.nis[ni]).written d) ∧
      (36 ≤ i → t.net = s.net) ∧ (t.net.nis[ni]).inForce = (s.net.nis[ni]).inForce ∧
      (∀ n : Fin 36, n ≠ ni → t.net.nis[n] = s.net.nis[n]) ∧
      t.fv F.NOC_RT_IDX_IDX ni = (if s.on F.NOC_RT_IDX_INC ni then (i + 1) % 64 else i) ∧
      Only [.regs, .latches, .net] s t ∧ OnlyRegs [(.NOC_RT_DATA, ni.val), (.NOC_RT_IDX, ni.val)] s t) ∧
  (∀ (s : State) (a : Agent), Permits s a .NOC_RT_CTL 0 →
    (∀ k, s.commitFault = some k → k < 4096 → Answers (.commit a) s fun t => t.on F.NOC_RT_CTL_BAD = true ∧ t.fv F.NOC_RT_CTL_BAD_IDX = k ∧
      RegsOnly [(.NOC_RT_CTL, 0)] s t) ∧
    (s.commitFault = none → s.net.retrained = [] → (∀ n : Fin 36, (s.net.nis[n]).waitReqs = []) → Answers (.commit a) s fun t =>
      (∀ n : Fin 36, (t.net.nis[n]).inForce = (s.net.nis[n]).written ∧ (t.net.nis[n]).written = (s.net.nis[n]).written ∧
        t.fv F.NOC_NI_USEB_USE_B n = 0 ∧
        (∀ d, d < 36 → smGet (fun _ => 1) (t.net.nis[n]).credits d = s.credit n d - (s.net.nis[n]).reqs.countP (fun r => decide (r.dst = d)))) ∧
      t.net.down = s.net.down ∧ Only [.regs, .latches, .net] s t) ∧
    (s.commitFault = none → Answers (.commit a) s fun t => ∀ l ∈ t.net.down, l ∈ s.net.down ∧
      ¬ (l ∈ s.net.retrained ∧ ∃ n : Fin 36, (t.net.nis[n]).crosses n l = true))) ∧
  (∀ (s : State) (n d : Fin 36), entryOk n d (Ni.entry (s.net.nis[n]).written d) = false → s.commitFault ≠ none) ∧
  (∀ (s : State) (ni : Fin 36), Answers (.requestReplay ni) s fun t =>
    t.out = (((s.net.nis[ni]).reqs.filter (fun r => !r.held && r.early)).map (fun r => Out.netRequest (s.packed false r.pkt))).reverse ++ s.out ∧
    t.net.nis = s.net.nis ∧ Only [.out, .net] s t) ∧
  (∀ (s : State) (ni dst : Fin 36) (seq : BitVec 8),
    let find := (s.net.nis[ni]).reqs.find? (fun r => decide (r.dst = dst.val ∧ r.seq = seq) && r.held)
    let unsent := (s.net.nis[ni]).waitReqs.find? (fun p => decide (p.dst = dst ∧ p.seq = seq))
    (find = none → unsent = none ∨ s.stranded ni dst = false → exec (.routeWaitTimeout ni dst seq) s = .next s) ∧
    (∀ r, find = some r → (s.net.nis[ni]).waitReqs = [] → Answers (.routeWaitTimeout ni dst seq) s fun t =>
      t.out = .netResponse (s.answer r.pkt []) 0x21 0 false :: s.out ∧ (t.net.nis[ni]).reqs = (s.net.nis[ni]).reqs.erase r ∧
      smGet (fun _ => 1) (t.net.nis[ni]).credits dst = smGet (fun _ => 1) (s.net.nis[ni]).credits dst + 1 ∧
      (∀ n : Fin 36, n ≠ ni → t.net.nis[n] = s.net.nis[n]) ∧ Only [.out, .net] s t) ∧
    (∀ p, find = none → unsent = some p → (s.net.nis[ni]).waitReqs = [p] → s.stranded ni dst = true → Answers (.routeWaitTimeout ni dst seq) s fun t =>
      t.out = .netResponse (s.answer p []) 0x21 0 false :: s.out ∧ (t.net.nis[ni]).waitReqs = [] ∧ (t.net.nis[ni]).reqs = (s.net.nis[ni]).reqs ∧
      (∀ n : Fin 36, n ≠ ni → t.net.nis[n] = s.net.nis[n]) ∧ Only [.out, .net] s t)) ∧
  (∀ (s : State) (ni dst : Fin 36) (e : BitVec 4) (seq : BitVec 8), s.net.flights = [] → (s.net.nis[ni]).waitReqs = [] →
    let found := (s.net.nis[ni]).reqs.find? (fun r => decide (r.dst = dst.val ∧ r.seq = seq ∧ r.epoch = e))
    Answers (.nocResponseArrival ni dst e seq) s fun t =>
      (∀ n : Fin 36, n ≠ ni → t.net.nis[n] = s.net.nis[n]) ∧
      t.fv F.NOC_NI_STAT_LATE ni =
        (if e.toNat = s.fv F.NOC_NI_STAT_EPOCH ni then s.fv F.NOC_NI_STAT_LATE ni else Nat.min (s.fv F.NOC_NI_STAT_LATE ni + 1) (2 ^ 32 - 1)) ∧
      (∀ r, found = some r → (t.net.nis[ni]).reqs = (s.net.nis[ni]).reqs.erase r ∧
        smGet (fun _ => 1) (t.net.nis[ni]).credits dst = smGet (fun _ => 1) (s.net.nis[ni]).credits dst + 1) ∧
      (found = none → t.net = s.net) ∧
      Only [.net, .regs] s t ∧ OnlyRegs [(.NOC_NI_STAT, ni.val)] s t)) ∧
  -- R282, R284: a link declared DOWN turns to route B every destination whose route A crosses it, holds the requests whose two routes are both lost,
  -- and records the first failure; 16 failed retries within 200 TCLK declare it; a retrained link waits for the COMMIT that uses it.
  ((∀ (s : State) (router : Fin 36) (south : Bool) (c : Instr),
    let l := 2 * router.val + (if south then 1 else 0)
    let times := (s.devTime.toNat :: smGet (fun _ => []) s.net.retries l).filter (fun t => decide (s.devTime.toNat - t < 200))
    c = .linkDown router south ∨ (c = .linkLevelRetry router south ∧ 16 ≤ times.length) →
    (s.net.down.contains l = true ∨ s.active = false → exec c s = .next s) ∧
    (s.net.down.contains l = false → s.active = true → Answers c s fun t =>
      t.net.down = l :: s.net.down ∧ t.on F.SYS_REDUND_REDUCED = true ∧ t.on F.NOC_LINK_FAIL_VALID = true ∧
      (s.on F.NOC_LINK_FAIL_VALID = false → t.fv F.NOC_LINK_FAIL_ROUTER = router.val ∧ t.fv F.NOC_LINK_FAIL_DIR = (if south then 2 else 1)) ∧
      (s.on F.NOC_LINK_FAIL_VALID = true → t.reg .NOC_LINK_FAIL = s.reg .NOC_LINK_FAIL) ∧
      (∀ (n : Fin 36) (d : Nat), d < 36 → (t.fv F.NOC_NI_USEB_USE_B n).testBit d =
        ((s.fv F.NOC_NI_USEB_USE_B n).testBit d || (routeWalk n (routeHops (entryA (Ni.entry (s.net.nis[n]).inForce d)))).2.contains l)) ∧
      (∀ n : Fin 36, (t.net.nis[n]).inForce = (s.net.nis[n]).inForce ∧ (∀ r ∈ (t.net.nis[n]).reqs, r.early = true) ∧
        (t.net.nis[n]).reqs.map (fun r => (r.dst, r.seq)) = (s.net.nis[n]).reqs.map (fun r => (r.dst, r.seq))) ∧
      Only [.net, .regs, .cs, .free, .hst, .out] s t)) ∧
  (∀ (s : State) (router : Fin 36) (south : Bool),
    let l := 2 * router.val + (if south then 1 else 0)
    let times := (s.devTime.toNat :: smGet (fun _ => []) s.net.retries l).filter (fun t => decide (s.devTime.toNat - t < 200))
    (times.length < 16 → Answers (.linkLevelRetry router south) s fun t => smGet (fun _ => []) t.net.retries l = times ∧
      t.net.down = s.net.down ∧ t.net.nis = s.net.nis ∧ Only [.net] s t) ∧
    (Answers (.linkRetrained router south) s fun t =>
      (l ∈ t.net.retrained ↔ l ∈ s.net.retrained ∨ l ∈ s.net.down) ∧ t.net.down = s.net.down ∧ t.net.nis = s.net.nis ∧ Only [.net] s t)))

/-- R278, R283-R288, R290, R291: a request that may not leave its source waits there. One at its target is performed and answered, and its outcome
recorded; one already performed is answered from the record; a node being reset has its proxy answer FAILED_NODE_RESET, and one powered down holds the
request until its domain is awake. A node's reset answers what it holds, forgets its outcomes and advances its epoch. Under way, a packet is injected
with its class's URG, which rises for every 256 NCLK it waits, and a router's output goes to the highest URG, then the longest wait. -/
def Obligations.NetworkRequests : Prop :=
  (∀ (s : State) (p : Packet),
    let x : Ni := s.net.nis[p.dst]
    let i := Instr.nocRequestArrival p
    let comes : Prop := s.active = true ∧ p.op ≠ 5 ∧ s.net.flights = [] ∧ (s.outstanding p = true ∨ s.maySend p = true)
    let serves : Prop := comes ∧ x.resetting = false ∧ x.powered = true
    let known := x.recorded.find? (fun o => decide (o.src = p.src.val ∧ o.seq = p.seq))
    (s.active = false ∨ p.op = 5 → exec i s = .next s) ∧
    (s.active = true → p.op ≠ 5 → s.outstanding p = false → s.maySend p = false → Answers i s fun t =>
      (t.net.nis[p.src]).waitReqs = (s.net.nis[p.src]).waitReqs ++ [p] ∧ t.out = s.out ∧ Only [.net] s t) ∧
    (serves → s.place p.addr.toNat = .hole → p.op = 0 ∨ known = none → Answers i s fun t =>
      (∃ st, t.out.head? = some (.netResponse (s.answer p []) st 0 false)) ∧ t.mems = s.mems ∧ Only [.net, .cs, .out, .free, .cores] s t) ∧
    (comes → x.resetting = true → Answers i s fun t =>
      t.out = .netResponse (s.answer p []) 0x21 0 false :: s.out ∧
      t.fv F.NOC_NI_STAT_PROXY p.dst = Nat.min (s.fv F.NOC_NI_STAT_PROXY p.dst + 1) (2 ^ 16 - 1) ∧
      Only [.out, .regs, .net, .cs] s t ∧ OnlyRegs [(.NOC_NI_STAT, p.dst.val)] s t) ∧
    (comes → x.resetting = false → x.powered = false → Answers i s fun t =>
      (t.net.nis[p.dst]).heldReqs = x.heldReqs ++ [(p, s.devTime)] ∧ t.mems = s.mems ∧ Only [.net, .cs] s t) ∧
    (∀ o, serves → p.op ≠ 0 → known = some o → Answers i s fun t =>
        t.out = .netResponse (s.answer p o.data) o.status 0 false :: s.out ∧ Only [.out, .net, .cs] s t) ∧
    (∀ off, serves → p.op = 1 → s.placeOf p.addr.toNat p.data.length = .mem 3 off → p.data ≠ [] → known = none →
      Answers i s fun t => t.mems = (s.writeBytes p.src 3 off p.data).mems ∧ t.out = .netResponse (s.answer p []) 0 0 false :: s.out ∧
        (t.net.nis[p.dst]).recorded.head? = some { src := p.src, seq := p.seq, status := 0, data := [] }) ∧
    (∀ off, serves → p.op = 0 → s.placeOf p.addr.toNat p.bytes.toNat = .mem 3 off → (s.readRange p.src 3 off p.bytes.toNat).1 = false →
      Answers i s fun t => t.out.head? = some (.netResponse (s.answer p (s.memBytes 3 off p.bytes.toNat)) 0 0 false) ∧ t.out.tail = s.out)) ∧
  (∀ (s : State) (p : Packet) (vn : Bool),
    let w := s.routeWord p.src p.dst
    let q := s.packed vn p
    (q.urg = if p.bclass = 0 ∨ p.src = 20 ∨ p.src = 9 ∨ p.src = 21 ∨ p.src = 23 then 2 else 0) ∧ q.vn = vn ∧ q.route = BitVec.ofNat 24 w ∧
    q.hops = BitVec.ofNat 4 (w / 2 ^ 24) ∧
    (s.inject q).net.flights.length = s.net.flights.length + (if (s.routeWord q.src q.dst).testBit 31 then 1 else 0)) ∧
  (∀ (n : Net) (t : Nat) (f g : Flight), n.flights = [f, g] → f.ready = 0 → g.ready = 0 → f.arrived = false → g.arrived = false →
    f.at_ = g.at_ → f.input ≠ g.input → f.output = 4 → g.output = 4 → f.waited < 2 ^ 64 → g.waited < 2 ^ 64 →
    (smGet (fun _ => (4, 0)) n.outputs (5 * f.at_ + 4)).2 ≤ t →
    f.pkt.urg < g.pkt.urg ∨ (f.pkt.urg = g.pkt.urg ∧ f.waited < g.waited) →
    ∃ h : Flight, (n.cycle t).flights = [h, { g with arrived := true }] ∧ h.arrived = false ∧ h.waited = f.waited + 1 ∧ h.total = f.total + 1 ∧
      h.pkt.urg.val = (if (f.total + 1) % 256 = 0 then Nat.min 3 (f.pkt.urg.val + 1) else f.pkt.urg.val) ∧
      (smGet (fun _ => (4, 0)) (n.cycle t).outputs (5 * g.at_ + 4)) = (g.input, t + 1 + (g.pkt.data.length + 31) / 32)) ∧
  (∀ (s : State) (ni : Fin 36),
    (s.active = false → exec (.domainPowerDown ni) s = .next s ∧ exec (.domainWakeComplete ni) s = .next s ∧ exec (.nodeReset ni) s = .next s) ∧
    (s.active = true → Answers (.domainPowerDown ni) s fun t => (∀ n : Fin 36, (t.net.nis[n]).powered =
        ((s.net.nis[n]).powered && !(domainOf ni).contains n)) ∧
      (∀ n : Fin 36, (t.net.nis[n]).heldReqs = (s.net.nis[n]).heldReqs) ∧ Only [.net] s t) ∧
    (s.active = true → (∀ n ∈ domainOf ni, (s.net.nis[n]).heldReqs = []) → Answers (.domainWakeComplete ni) s fun t =>
      (∀ n : Fin 36, (t.net.nis[n]).powered = ((s.net.nis[n]).powered || (domainOf ni).contains n)) ∧ Only [.net] s t) ∧
    (s.active = true → Answers (.nodeReset ni) s fun t =>
      (t.net.nis[ni]).heldReqs = [] ∧ (t.net.nis[ni]).recorded = [] ∧ (t.net.nis[ni]).resetting = true ∧
      t.fv F.NOC_NI_STAT_EPOCH ni = (s.fv F.NOC_NI_STAT_EPOCH ni + 1) % 16 ∧
      t.out = (s.net.nis[ni]).heldReqs.reverse.map (fun h => Out.netResponse (s.answer h.1 []) 0x21 0 false) ++ s.out ∧
      (∀ n : Fin 36, n ≠ ni → t.net.nis[n] = s.net.nis[n]) ∧ (∀ c : Fin 8, coreRouter c ≠ ni.val → t.cores[c] = s.cores[c] ∨ t.cores[c] = (let k := s.cores[c]; { k with resv := none })) ∧
      (∀ c : Fin 8, coreRouter c = ni.val → (t.cores[c]).run = (Core.atReset c).run ∧ (t.cores[c]).pc = (Core.atReset c).pc ∧
        (t.cores[c]).resv = none) ∧ Only [.net, .regs, .out, .cores, .devs] s t ∧ OnlyRegs [(.NOC_NI_STAT, ni.val)] s t) ∧
    (Answers (.nodeResetEnd ni) s fun t => (t.net.nis[ni]).resetting = false ∧ (t.net.nis[ni]).heldReqs = (s.net.nis[ni]).heldReqs ∧
      (∀ n : Fin 36, n ≠ ni → t.net.nis[n] = s.net.nis[n]) ∧ Only [.net] s t))

/-! ## Memory protection -/

/-- R295, R297, R300-R305: the loss of a DDR5 channel; the scrubber's next word; range passes, initialisation and error injection; and the one read
and write of a codeword that they and every access share: a correctable error is written back and counted, an uncorrectable one counted and its first
place kept, and an armed injection is used up by the first write it matches. -/
def Obligations.MemoryProtection : Prop :=
  (∀ (s : State) (ch : Fin 4),
    (s.mems.ddrLost.testBit ch.val = true ∨ s.active = false → exec (.ddrChannelLoss ch) s = .next s) ∧
    (s.mems.ddrLost.testBit ch.val = false → s.active = true → Answers (.ddrChannelLoss ch) s fun t =>
      (t.fv F.DDR_STATUS_LOST).testBit ch.val = true ∧ (t.fv F.DDR_STATUS_UP).testBit ch.val = false ∧ t.on F.SYS_REDUND_REDUCED = true ∧
      t.mems = (let m := s.mems; { m with ddrLost := t.mems.ddrLost, ddr := t.mems.ddr }) ∧ t.mems.ddrLost.testBit ch.val = true ∧
      (∀ w, s.copyStart / 8 ≤ w → s.mems.ddr.lost ≤ w → smGet (fun _ => Cell.ok 0) t.mems.ddr.words w = smGet (fun _ => Cell.ok 0) s.mems.ddr.words w) ∧
      (∀ a, s.copyStart * 3 / 4 ≤ a → a < s.mirrorStart → t.ddrRefused a = true) ∧
      (t.net.nis[ddrRouter ch]).heldReqs = [] ∧ Only [.mems, .regs, .cs, .free, .net, .out] s t)) ∧
  (∀ (s : State) (m : Fin 17),
    let lo := s.fv F.ECC_SCRUB_RANGE_LO m
    let hi := s.fv F.ECC_SCRUB_RANGE_HI m
    let p := smGet (fun _ => 0) s.net.scrubPos m
    let w := if p < lo ∨ hi < p then lo else p
    let idle : Prop := s.active = false ∨ s.on F.ECC_SCRUB_RATE m = false ∨ hi < lo ∨ memWords m ≤ w ∨ (m = 0 ∧ ∃ d : Fin 4, s.arrayWork d = true)
    (idle → exec (.scrubRead m) s = .next s) ∧
    (¬ idle → Answers (.scrubRead m) s fun t => smGet (fun _ => 0) t.net.scrubPos m = (if w = hi then lo else w + 1) ∧
      (m ≠ 0 → t.mems = (s.readCw (memRouter m w) m w).2.mems) ∧ Only [.net, .mems, .grains, .regs, .cs, .free] s t)) ∧
  (∀ (s : State) (a : Agent) (v : DWord), Permits s a .ECC_SCAN_CTL 0 →
    let mem := v.toNat % 32
    (s.net.scan ≠ none ∨ 16 < mem → Answers (.scanGo a v) s fun t => t.on F.ECC_SCAN_CTL_REJ = true ∧ t.net = s.net ∧
      RegsOnly [(.ECC_SCAN_CTL, 0)] s t) ∧
    (s.net.scan = none → mem ≤ 16 → Answers (.scanGo a v) s fun t => t.on F.ECC_SCAN_CTL_GO = true ∧
      t.net.scan = some { mem := mem, start := s.fv F.ECC_SCAN_START_START, length := v.toNat / 2 ^ 32, cmd := none } ∧
      Only [.regs, .latches, .net] s t ∧ OnlyRegs [(.ECC_SCAN_CTL, 0)] s t)) ∧
  (∀ s : State, (s.net.scan = none → exec .scanPassComplete s = .next s) ∧
    (∀ p, s.net.scan = some p →
      let r := s.scanWords p
      (p.cmd = none → Answers .scanPassComplete s fun t => t.net.scan = none ∧ t.on F.ECC_SCAN_CTL_GO = false ∧
        t.fv F.ECC_SCAN_SUM_CE = Nat.min r.1 (2 ^ 32 - 1) ∧ t.fv F.ECC_SCAN_SUM_UE = Nat.min r.2.1.length (2 ^ 32 - 1) ∧
        (∀ k : Fin 8, t.reg .ECC_SCAN_ADDR k = BitVec.ofNat 64 (r.2.1.getD k.val (2 ^ 64 - 1))) ∧ t.mems = r.2.2.mems) ∧
      (∀ c host, p.cmd = some (c, host) → r.1 < 2 ^ 32 → r.2.1.length < 2 ^ 32 →
        ∃ v : State, Does .scanPassComplete s (v.complete c 0 (pair r.2.1.length r.1)) ∧ v.net.scan = none))) ∧
  (∀ (s : State) (a : Agent) (v : BitVec 32), Permits s a .ECC_INIT 0 → Answers (.eccInit a v) s fun t =>
    t.fv F.ECC_INIT_MEM = (s.fv F.ECC_INIT_MEM ||| v.toNat / 2 % 2 ^ 16) ∧ t.mems = s.mems ∧ RegsOnly [(.ECC_INIT, 0)] s t) ∧
  (∀ (s : State) (m : Fin 17),
    let set : Prop := m ≠ 0 ∧ (s.fv F.ECC_INIT_MEM).testBit (m.val - 1) = true
    (¬ set → exec (.eccInitComplete m) s = .next s) ∧
    (set → Answers (.eccInitComplete m) s fun t => (∀ i, t.cell m i = .ok 0) ∧ (∀ k : Fin 17, k ≠ 0 → k ≠ m → ∀ i, t.cell k i = s.cell k i) ∧
      (t.fv F.ECC_INIT_MEM).testBit (m.val - 1) = false ∧ Only [.mems, .regs, .cores] s t ∧ OnlyRegs [(.ECC_INIT, 0)] s t)) ∧
  (∀ (s : State) (a : Agent) (v : DWord), Permits s a .ECC_FLIP_CTL 0 → Answers (.flipArm a v) s fun t =>
    t.on F.ECC_FLIP_CTL_ARM = true ∧ t.fv F.ECC_FLIP_CTL_MEM = v.toNat / 2 ^ 16 % 32 ∧ t.fv F.ECC_FLIP_CTL_ADDR = v.toNat / 2 ^ 32 ∧
    t.fv F.ECC_FLIP_CTL_CHK = v.toNat % 2 ^ 16 ∧ t.on F.ECC_FLIP_CTL_ANY = v.getLsbD 30 ∧
    t.net.armAgain = (s.net.armAgain || s.on F.ECC_FLIP_CTL_ARM) ∧ Only [.regs, .latches, .net] s t ∧ OnlyRegs [(.ECC_FLIP_CTL, 0)] s t) ∧
  (∀ (s : State) (q m cw : Nat), 1 ≤ m → m ≤ 16 → m ≠ 3 →
    let r := s.readCw q m cw
    (∀ d, s.cell m cw = .ok d → r = (false, s)) ∧
    (∀ d, s.cell m cw = .ce d → r.1 = false ∧ r.2.cell m cw = .ok d ∧
      r.2.fv F.ECC_SCRUB_CE_COUNT m = Nat.min (s.fv F.ECC_SCRUB_CE_COUNT m + 1) (2 ^ 16 - 1) ∧ (∀ i, i ≠ cw → r.2.cell m i = s.cell m i)) ∧
    (∀ d, s.cell m cw = .ue d → cw < 2 ^ 32 → r.1 = true ∧ r.2.mems = s.mems ∧ r.2.on F.ECC_UE_VALID m = true ∧
      r.2.fv F.ECC_SCRUB_UE_COUNT m = Nat.min (s.fv F.ECC_SCRUB_UE_COUNT m + 1) (2 ^ 16 - 1) ∧
      r.2.fv F.ECC_UE_WORD m = (if s.on F.ECC_UE_VALID m then s.fv F.ECC_UE_WORD m else cw)) ∧
    (s.cell m cw = .poison → r.1 = true) ∧
    (∀ i j dw, i ≠ j → i < 64 → j < 64 → flipped m false dw (1 <<< i) 0 = .ce dw ∧
      flipped m false dw ((1 <<< i) ||| (1 <<< j)) 0 = .ue (dw ^^^ ((1 <<< i) ||| (1 <<< j)))))

/-! ## Availability -/

/-- R357-R359: a Developer expected to make progress that makes none for TIMEOUT_US sets FIRED and restarts: MC0 is interrupted, its node is reset,
and the print gang begins again at the line after the last complete one. DEVELOPER_RESTART follows the first slot that the restarted Developer
completes. -/
def Obligations.WarmRestarts : Prop :=
  (∀ (s : State) (d : Fin 4),
    let due : Prop := s.on F.DEV_WDT_ENABLE d = true ∧ s.expected d = true ∧ (s.devs[d]).restarting = none
    (¬ due → exec (.developerWatchdog d) s = .next s) ∧
    (due → Answers (.developerWatchdog d) s fun t => t.on F.DEV_WDT_FIRED d = true ∧ (t.devs[d]).restarting = some 1 ∧
      (t.devs[d]).aiq = [] ∧ (t.devs[d]).win = none ∧ (t.cores[devCore d]).run = (Core.atReset (devCore d)).run ∧
      (t.cores[devCore d]).pc = (Core.atReset (devCore d)).pc ∧ t.fv F.NOC_NI_STAT_EPOCH (devNode d) = (s.fv F.NOC_NI_STAT_EPOCH (devNode d) + 1) % 16 ∧
      t.mode = s.mode ∧ t.grains = s.grains ∧ t.mems.reserve = s.mems.reserve ∧ t.lanes = s.lanes ∧
      (∀ j, s.job = some j → d = 0 → ∃ k, t.job = some k ∧ k.nextSlot = j.complete + 1 ∧ k.complete = j.complete ∧ k.claimed = j.claimed ∧
        k.fired = j.fired ∧ ∃ sl, (t.devs[d]).slot = some sl ∧ sl.n = j.complete ∧ sl.win = 0) ∧
      (∀ c : Fin 8, c ≠ devCore d → c ≠ 4 → t.cores[c] = s.cores[c] ∨ t.cores[c] = (let k := s.cores[c]; { k with resv := none })))) ∧
  (∀ (s : State) (d : Fin 4),
    ((s.devs[d]).restarting = none → exec (.warmRestartComplete d) s = .next s) ∧
    (∀ j, (s.devs[d]).restarting ≠ none → s.job = some j → s.slotDone d j = false → exec (.warmRestartComplete d) s = .next s) ∧
    (∀ cause, (s.devs[d]).restarting = some cause → s.job = none ∨ (∃ j, s.job = some j ∧ s.slotDone d j = true) →
      Answers (.warmRestartComplete d) s fun t => (t.devs[d]).restarting = none ∧ (∀ k : Fin 4, k ≠ d → t.devs[k] = s.devs[k]) ∧
        (∃ u : State, t = settle s (u.raise .developerRestart (d.val + 256 * cause.val))) ∧ Only [.devs, .hst, .regs, .out] s t))

/-! ## Modes, power and boot -/

namespace Sys2Proof.Claims

/-- What happens with the outside and the reports of it: registers, the Contact Sheet, events and free values. -/
def reports : List Part := [.regs, .cs, .free, .hst, .out]

end Sys2Proof.Claims

/-- Entry to Safe, resets and power-down. -/
def Obligations.SafeEntryAndResets : Prop :=
  -- R310, R384: the entry to Safe. In Safe it records the cause alone. From the other modes of P-Active nothing fires any more, every output and
  -- fabric region 0-7 stops, the Developers stop, the bands, the job, its Holds and a drain are gone, the Reels are CLOSED, the pins leave the Loupe,
  -- and the memories and grains keep what they hold. THERMAL_CRITICAL enters with cause 4.
  ((∀ (s : State) (cause : Nat), s.active = true → cause < 16 →
    let t := s.safeEntry cause
    t.mode = 9 ∧ t.fv F.SYS_MODE_SAFE_CAUSE = cause ∧
    (s.mode = 9 → Only [.regs] s t ∧ OnlyRegs [(.SYS_MODE, 0)] s t) ∧
    (s.mode ≠ 9 → t.fv F.SYS_MODE_PREV = s.mode ∧ t.job = none ∧ (s.job ≠ none → t.sht.held = none ∧ t.sht.holdReqs = []) ∧ t.sht.wired = 0 ∧
      (∀ l : Fin 16, (t.lanes[l]).sentLines = []) ∧ (∀ r : Fin 16, r.val < 8 → (t.fab[r]).stopped = true) ∧
      (∀ o : Fin 16, t.doutOn o = false) ∧ (∀ d : Fin 4, (t.cores[devCore d]).run = .stopped) ∧
      (∀ p : Fin 4, t.enl[p] = {} ∧ t.fv F.ENL_STATUS_QDEPTH p = 0) ∧ t.pwr.drain = none ∧ t.sec.verifying = false ∧
      t.on F.LP_CTL_CLAIM = false ∧ t.fv F.FAB_PIN_OWNER_OWNER ≠ 2 ∧ (∀ p ∈ t.hst.pending, p.held = false) ∧
      (∀ e ∈ t.store.reels, ∀ x, e.2 = some x → ¬ (x.state = .inUse ∧ x.loaded = true)) ∧
      (∀ j x, s.job = some j → s.reelAt j.reel = some x → x.state = .inUse → t.reelAt j.reel = some { x with state := .closed, loaded := false, prefetched := (0, 0) }) ∧
      t.mems = s.mems ∧ t.grains = s.grains ∧ t.fuses = s.fuses)) ∧
  (∀ (s : State) (sensor : Fin 16) (c : BitVec 16), s.active = true → Answers (.thermalCritical sensor c) s fun t => t.mode = 9 ∧
    t.fv F.SYS_MODE_SAFE_CAUSE = 4 ∧ t.mems = s.mems) ∧
  (∀ (s : State) (sensor : Fin 16) (c : BitVec 16), s.active = false → exec (.thermalCritical sensor c) s = .next s)) ∧
  -- R317, R319, R320, R324, R329: a die reset returns the die to its reset state and begins Boot: registers outside the always-on domain, memories
  -- (but DDR5 under the short boot), jobs and sessions are gone, the epochs advance, and the flash, the records and the fuses stand. A power-down
  -- keeps the epochs and stops the cores.
  ((∀ (s : State) (last : Nat) (keepDdr short : Bool), last < 8 →
    let t := s.dieReset last keepDdr short
    t.mode = 2 ∧ t.fv F.SYS_MODE_PREV = s.mode ∧ t.fv F.SYS_BOOT_LAST_RESET = last ∧ t.fv F.SYS_BOOT_STAGE = 1 ∧ t.fv F.SYS_BOOT_FAIL = 0 ∧
    t.on F.SYS_MODE_TRANS = false ∧ t.on F.PWR_WAKE_WAKE = false ∧ t.job = none ∧ t.pwr.drain = none ∧ t.pwr.shortBoot = short ∧
    (∀ n : Fin 36, t.fv F.NOC_NI_STAT_EPOCH n = (s.fv F.NOC_NI_STAT_EPOCH n + 1) % 16) ∧
    t.mems.staging = Mem.of .poison ∧ t.mems.reserve = Mem.of .poison ∧ t.mems.ddr = (if keepDdr then s.mems.ddr else Mem.of .undef) ∧
    t.grains = {} ∧ (∀ d : Fin 4, t.devs[d] = {}) ∧ (∀ c : Fin 8, (t.cores[c]).run = (Core.atReset c).run ∧ (t.cores[c]).pc = (Core.atReset c).pc) ∧
    t.hst.sessions = [] ∧ t.hst.accepted = [] ∧ t.cs.records = s.cs.records ∧ t.reg .PWR_CFG = s.reg .PWR_CFG ∧
    t.reg .SHT_CTL = regResetKey (regKey .SHT_CTL 0) ∧ t.reg .HST_EVT_MASK 0 = regResetKey (regKey .HST_EVT_MASK 0) ∧ t.fuses = s.fuses) ∧
  (∀ (s : State) (m : Nat), m = 0 ∨ m = 1 ∨ m = 10 →
    let t := s.powerDown m
    t.mode = m ∧ t.fv F.SYS_MODE_PREV = s.mode ∧ t.on F.SYS_MODE_TRANS = false ∧ t.job = none ∧ t.pwr.drain = none ∧
    (∀ n : Fin 36, t.fv F.NOC_NI_STAT_EPOCH n = s.fv F.NOC_NI_STAT_EPOCH n) ∧ (∀ c : Fin 8, (t.cores[c]).run = .stopped) ∧
    t.mems.staging = Mem.of .poison ∧ t.mems.ddr = (if m = 10 then s.mems.ddr else Mem.of .undef) ∧ t.grains = {} ∧
    t.reg .PWR_CFG = s.reg .PWR_CFG ∧ t.cs.records = s.cs.records ∧ t.fuses = s.fuses ∧
    (m = 0 ∨ (s.dbgLevel = 2 ∧ (s.fuses.lc = 2 ∨ s.on F.DBG_CTL_DBG_KEEP = false)) → t.dbgLevel = 0) ∧
    (m ≠ 0 → s.dbgLevel ≤ 1 ∨ (s.fuses.lc ≠ 2 ∧ s.on F.DBG_CTL_DBG_KEEP = true) → t.dbgLevel = s.dbgLevel)) ∧
  (∀ s : State, (s.mode = 0 → exec .dieReset s = .next s ∧ exec .powerButtonHold s = .next s ∧ exec .thermalCutoff s = .next s) ∧
    (s.mode ≠ 0 → Does .dieReset s (s.dieReset 4 false false) ∧ Does .powerButtonHold s (s.powerDown 0) ∧ Does .thermalCutoff s (s.powerDown 0)) ∧
    (let halted : Prop := ∀ c : Fin 8, 4 ≤ c.val → (s.cores[c]).halted = true
     (s.active = true → ¬ halted → Does .mcWatchdogExpiry s (s.dieReset 3 false false)) ∧
     (s.active = false ∨ halted → exec .mcWatchdogExpiry s = .next s))))

/-- MODE_SET, drains, starts and wakes. -/
def Obligations.ModesDrainsAndWakes : Prop :=
  -- R308, R309, R311: MODE_SET reaches, from each mode, the modes that the table gives, and is refused for the others; its own mode is OK at once.
  -- Off, Standby and Sleep it drains for; Ready from Update or Safe is a die reset.
  (∀ (s : State) (c : CmdIn) (k : HostCmd) (fn : Fin 8) (r : CmdRef) (t : State), Starts s (.modeSet c) k fn r t →
    let m := c.desc.p0.toNat % 16
    let table : List (Nat × List Nat) := [(3, [0, 1, 6, 7, 8, 10, 11]), (6, [3]), (7, [3]), (11, [3]), (8, [3]), (9, [3, 0, 1, 11])]
    let allowed : Prop := ∃ l, (s.mode, l) ∈ table ∧ m ∈ l
    (m = s.mode → Ends (.modeSet c) s t r 0 (fun n => n = m)) ∧
    (m ≠ s.mode → ¬ allowed → Ends (.modeSet c) s t.used r 0x12 (fun _ => True)) ∧
    (m ≠ s.mode → allowed → m = 0 ∨ m = 1 ∨ m = 10 → Answers (.modeSet c) s fun u => u.on F.SYS_MODE_TRANS = true ∧ u.mode = s.mode ∧
      u.pwr.drain.map (fun d => (d.target, d.cmd)) = some (m, r) ∧ Only [.pwr, .hst, .regs] s u ∧ OnlyRegs [(.SYS_MODE, 0)] s u) ∧
    (m = 3 → s.mode = 8 ∨ s.mode = 9 → Does (.modeSet c) s ((t.complete r 0 3).dieReset 2 false false)) ∧
    (m ≠ s.mode → allowed → m = 6 ∨ m = 7 ∨ m = 8 ∨ m = 11 ∨ (m = 3 ∧ s.mode ≠ 8 ∧ s.mode ≠ 9) → Answers (.modeSet c) s fun u =>
      u.mode = m ∧ u.fv F.SYS_MODE_PREV = s.mode ∧ (∃ v : State, u = settle s (v.complete r 0 m)) ∧
      u.mems = s.mems ∧ u.store = s.store ∧ u.grains = s.grains ∧ Only [.regs, .sec, .cs, .hst, .free, .out] s u)) ∧
  -- R309, R311: a drain completes once no command is running: the sessions close, MODE_SET completes with OK and its mode, and the module powers down
  -- into it; after 10 s the commands that still run are ABORTED.
  ((∀ s : State, (s.pwr.drain = none ∨ s.runningCmds ≠ [] → exec .drainComplete s = .next s) ∧
    (∀ d, s.pwr.drain = some d → s.runningCmds = [] → d.target = 0 ∨ d.target = 1 ∨ d.target = 10 → Answers .drainComplete s fun t =>
      t.mode = d.target ∧ t.fv F.SYS_MODE_PREV = s.mode ∧ t.pwr.drain = none ∧ t.hst.sessions = [] ∧ t.store.buffered = [] ∧ t.cs.records = s.cs.records ∧
      (∃ u : State, t = settle s ((u.complete d.cmd 0 d.target).powerDown d.target)))) ∧
  (∀ s : State, (s.pwr.drain = none → exec .drainTimeout s = .next s) ∧
    (s.pwr.drain ≠ none → Answers .drainTimeout s fun t => t.runningCmds = [] ∧ t.pwr = s.pwr ∧ t.mode = s.mode ∧
      t.hst.pending = s.hst.pending.filter (fun p => p.held) ∧ Only [.hst, .store, .net, .regs, .free, .out] s t))) ∧
  -- R315, R318, R320, R321: what starts the module from Off (power applied, mains with AUTO_ON, the button with mains) and what wakes it. The start
  -- resets everything but the MRAM, the flash and the fuses, and DEV_TIME begins at 0; a wake source ends Standby and Sleep with a die reset,
  -- abandons a drain, and does nothing in the other modes.
  ((∀ (s : State) (c : Instr),
    c = .powerOnReset ∨ (c = .mainsApplied ∧ s.mode = 0 ∧ s.on F.PWR_CFG_AUTO_ON = true) ∨ (c = .powerButtonPress ∧ s.mode = 0 ∧ s.pwr.lost ≠ 3) →
    ∃ t, exec c s = .next t ∧ t.devTime = 0 ∧ t.fuses = s.fuses ∧ t.pending = s.pending ∧ t.mode = 2 ∧ t.job = none ∧
      t.reg .PWR_CFG = s.reg .PWR_CFG ∧ t.reg .CS_SEQ = s.reg .CS_SEQ ∧ (s.store.buffered = [] → t.store.reels = s.store.reels ∧ t.store.units = s.store.units) ∧ t.store.buffered = [] ∧ t.cs.records = s.cs.records ∧
      t.cs.powerOns = s.cs.powerOns + 1 ∧ t.hst.programs = s.hst.programs ∧ t.hst.bootImages = s.hst.bootImages ∧
      t.mems = State.reset.mems ∧ t.cores = State.reset.cores ∧ t.grains = State.reset.grains) ∧
  (∀ s : State, (s.mode ≠ 0 → exec .mainsApplied s = .next s) ∧ (s.mode = 0 → s.pwr.lost = 3 → exec .powerButtonPress s = .next s) ∧
    (s.mode = 0 → s.on F.PWR_CFG_AUTO_ON = false → exec .mainsApplied s = .next { s with pwr := { s.pwr with lost := 0 } }) ∧
    (s.on F.PWR_CFG_WOL_EN = false → exec .wakeOnLan s = .next s) ∧
    (s.on F.PWR_CFG_WAKE_IN_EN = false ∨ s.pwr.fieldLow = true → exec .wakeIn s = .next s)) ∧
  (∀ (s : State) (c : Instr) (u : State),
    (c = .wakeOnLan ∧ s.on F.PWR_CFG_WOL_EN = true ∧ u = s) ∨ (c = .wakeIn ∧ s.on F.PWR_CFG_WAKE_IN_EN = true ∧ s.pwr.fieldLow = false ∧ u = s) ∨
      (c = .powerButtonPress ∧ s.mode ≠ 0 ∧ u = s) ∨ (∃ a, c = .wake a ∧ Permits s a .PWR_WAKE 0 ∧ u = s.unlatch .PWR_WAKE 0) →
    (∀ d, s.pwr.drain = some d → Answers c s fun t => t.pwr = (let x := s.pwr; { x with drain := none }) ∧ t.on F.SYS_MODE_TRANS = false ∧ t.mode = s.mode ∧
      Only [.pwr, .hst, .regs, .latches, .free, .out] s t) ∧
    (s.pwr.drain = none → s.mode = 1 ∨ s.mode = 10 →
      let short := decide (s.mode = 10) && !s.pwr.fullBoot
      Does c s (u.dieReset 1 short short)) ∧
    (s.pwr.drain = none → s.mode ≠ 1 → s.mode ≠ 10 → exec c s = .next u)))

/-- R131, R132, R302, R324-R326, R329, R334: the stages of Boot. A failed stage 3 waits for the UART and stages 4-7 go to Safe with cause 3; the
others initialise DDR5, the memories and the microcode, lock it, and reach Ready. -/
def Obligations.BootStages : Prop :=
  (∀ (s : State) (ok : Bool) (fb : BitVec 8) (p cu : List MicroImage) (ff : BitVec 16),
    let c := Instr.bootStageComplete ok fb p cu ff
    let stage := s.fv F.SYS_BOOT_STAGE
    let chosen (l : List MicroImage) (cust : Bool) := l.find? (fun x =>
      x.verified && decide (x.target = Config.romVersion) && x.records.all (fun r => recInPart r cust))
    let ver (i : Option MicroImage) : Nat := match i with
      | some x => x.version.toNat
      | none => 0
    let hash (i : Option MicroImage) : Nat := match i with
      | some x => x.hash.toNat
      | none => 0
    (s.mode ≠ 2 → exec c s = .next s) ∧
    (s.mode = 2 → ok = false → stage = 3 → Answers c s fun t => t.fv F.SYS_BOOT_FAIL = 3 ∧ t.mode = 2 ∧ Only [.regs] s t ∧ OnlyRegs [(.SYS_BOOT, 0)] s t) ∧
    (s.mode = 2 → ok = false → 4 ≤ stage → stage ≤ 7 → Answers c s fun t => t.fv F.SYS_BOOT_FAIL = stage ∧ t.mode = 9 ∧ t.fv F.SYS_MODE_SAFE_CAUSE = 3) ∧
    (s.mode = 2 → ok = true → stage = 1 ∨ stage = 2 → Answers c s fun t => t.fv F.SYS_BOOT_STAGE = stage + 1 ∧ Only [.regs] s t ∧
      OnlyRegs [(.SYS_BOOT, 0)] s t) ∧
    (s.mode = 2 → ok = true → stage = 3 → Answers c s fun t => t.fv F.SYS_BOOT_STAGE = 4 ∧ t.mode = 2 ∧
      (∀ m : Fin 4, s.mems.mc[m] = Mem.of .poison → ∀ i, (t.mems.mc[m]).cell i = .ok 0)) ∧
    (s.mode = 2 → ok = true → stage = 4 → Answers c s fun t => t.fv F.SYS_BOOT_STAGE = 5 ∧ t.fv F.DDR_STATUS_UP = 15 - s.mems.ddrLost % 16 ∧
      (s.pwr.shortBoot = true → t.mems = s.mems) ∧ (s.pwr.shortBoot = false → s.mems.ddr = Mem.of .undef → ∀ i, t.cell 3 i = .ok 0) ∧
      Only [.regs, .mems] s t ∧ OnlyRegs [(.SYS_BOOT, 0), (.DDR_STATUS, 0)] s t) ∧
    (s.mode = 2 → ok = true → stage = 5 → Answers c s fun t => t.fv F.SYS_BOOT_STAGE = 6 ∧
      (s.mems.staging = Mem.of .poison → ∀ i, t.cell 1 i = .ok 0) ∧ (s.mems.reserve = Mem.of .poison → ∀ i, t.cell 2 i = .ok 0) ∧
      (∀ a w, (t.grains.plane a).poison.getLsbD w = false) ∧ Only [.regs, .mems, .grains] s t ∧ OnlyRegs [(.SYS_BOOT, 0)] s t) ∧
    (s.mode = 2 → ok = true → stage = 6 → Answers c s fun t => t.fv F.SYS_BOOT_STAGE = 7 ∧
      (∀ (d : Fin 4) (k : Nat), k < 64 → smGet (fun _ => none) (t.devs[d]).cam k = some 0 ∧ smGet (fun _ => none) (t.devs[d]).decodeRam (192 + k) = some 0) ∧
      Only [.regs, .devs] s t ∧ OnlyRegs [(.SYS_BOOT, 0)] s t) ∧
    (s.mode = 2 → ok = true → stage = 7 → Answers c s fun t => t.fv F.SYS_BOOT_STAGE = 8 ∧ t.mode = 2 ∧
      (∀ d : Fin 4, t.on F.DEV_UCODE_CTL_LOCK d = true ∧ t.fv F.DEV_UCODE_VER_PATCH_VER d = ver (chosen p false) ∧
        t.fv F.DEV_UCODE_VER_PATCH_HASH d = hash (chosen p false) ∧ t.fv F.DEV_UCODE_CUST_CUST_VER d = ver (chosen cu true) ∧
        t.fv F.DEV_UCODE_CUST_CUST_HASH d = hash (chosen cu true) ∧
        (chosen p false = none → ∀ k, k < 48 → smGet (fun _ => none) (t.devs[d]).cam k = some 0) ∧
        (chosen cu true = none → ∀ k, k < 64 → smGet (fun _ => none) (t.devs[d]).decodeRam (192 + k) = some 0)) ∧ t.pwr.fabFailed = ff) ∧
    (s.mode = 2 → stage = 8 → s.pwr.bootFrom < 16 → ∃ t, exec c s = .next t ∧ t.mode = 3 ∧ t.fv F.SYS_MODE_PREV = s.pwr.bootFrom ∧
      t.pending = s.pending ∧ t.devTime = s.devTime ∧
      (ok = false → s.pwr.shortBoot = false → t.store.state = .failed) ∧ (s.pwr.shortBoot = false → t.store.toPatrol.length = 16 * t.store.units.length) ∧
      (∀ k, k < 5 → ∀ v ∈ s.runningImages k, v.floor = true → v.svn ≤ 32 → v.svn ≤ t.fuses.svnMin k))) ∧
  (∀ (s : State) (ok : Bool),
    let opens : Prop := s.mode = 2 ∧ s.fv F.SYS_BOOT_FAIL = 3
    (¬ opens → exec (.uartImageReceived ok) s = .next s) ∧
    (opens → ok = false → exec (.uartImageReceived ok) s = .next (s.emit (.uart false))) ∧
    (opens → ok = true → Answers (.uartImageReceived ok) s fun t => t.mode = 2 ∧ t.fv F.SYS_BOOT_FAIL = 0 ∧ t.fv F.SYS_BOOT_STAGE = 1 ∧
      t.out = .uart true :: s.out))

/-! ## Supplies, the reference, cooling and the industrial inputs and outputs -/

/-- R316: an edge of the 1PPS input shows the input present; with PPS_EN set it latches DEV_TIME into SYS_PPS_STAMP, and without it the stamp stays.
DEV_TIME itself is never moved by it. -/
def Obligations.PulsePerSecondStamps : Prop :=
  ∀ s : State, s.mode ≠ 0 → Answers .ppsEdge s fun t =>
    (s.on F.SYS_CLK_CTL_PPS_EN = true → t.reg .SYS_PPS_STAMP = s.devTime) ∧
    (s.on F.SYS_CLK_CTL_PPS_EN = false → t.reg .SYS_PPS_STAMP = s.reg .SYS_PPS_STAMP) ∧
    t.on F.SYS_CLK_STATUS_PPS_PRESENT = true ∧ t.devTime = s.devTime ∧
    Only [.regs] s t ∧ OnlyRegs [(.SYS_CLK_STATUS, 0), (.SYS_PPS_STAMP, 0)] s t

/-- Mains and holdup, the reference clock, cooling and the industrial inputs and outputs. -/
def Obligations.PowerCoolingAndIndustrialIo : Prop :=
  -- R321-R323: inlets, cartridges and the holdup. A lost inlet is shown in PWR_STATUS; the loss of both with the holdup ready bars writes of the
  -- store until an inlet returns or SHUT_MS has passed, and without it the module is Off. A cartridge at fault or out is not CART_OK, and one put in
  -- is.
  ((∀ (s : State) (u : Fin 2),
    (s.pwr.lost.getLsbD u.val = true → exec (.inletLost u) s = .next s) ∧
    (s.pwr.lost.getLsbD u.val = false → s.mode = 0 → Answers (.inletLost u) s fun t => t.pwr.lost.getLsbD u.val = true ∧ Only [.pwr] s t) ∧
    (s.pwr.lost = 0 → s.mode ≠ 0 → Answers (.inletLost u) s fun t => (t.fv F.PWR_STATUS_INLET).testBit u.val = false ∧
      (∀ k : Fin 2, t.pwr.lost.getLsbD k.val = decide (k = u)) ∧ t.on F.SYS_REDUND_REDUCED = true ∧ (t.fv F.SYS_REDUND_CAUSE).testBit 0 = true ∧
      t.mode = s.mode ∧ Only (.pwr :: reports) s t) ∧
    (s.pwr.lost ≠ 0 → s.pwr.lost.getLsbD u.val = false → s.mode ≠ 0 →
      (s.on F.PWR_STATUS_HOLDUP_READY = true → Answers (.inletLost u) s fun t => t.pwr.holdingUp = true ∧ t.pwr.lost = 3 ∧ t.store.writesBarred = true ∧
        t.store.buffered = [] ∧ (∀ h, (t.reelAt h).map (fun r => (r.state, r.owner, r.length, r.data)) =
          (s.reelAt h).map (fun r => (r.state, r.owner, r.length, r.data))) ∧ t.mode = s.mode ∧ Only (.pwr :: .store :: reports) s t) ∧
      (s.on F.PWR_STATUS_HOLDUP_READY = false → Answers (.inletLost u) s fun t => t.mode = 0 ∧ t.pwr.lost = 3)) ∧
    (s.mode = 0 → Answers (.inletRestored u) s fun t => t.pwr.lost.getLsbD u.val = false ∧ Only [.pwr] s t) ∧
    (s.mode ≠ 0 → Answers (.inletRestored u) s fun t => t.pwr.lost.getLsbD u.val = false ∧ (t.fv F.PWR_STATUS_INLET).testBit u.val = true ∧
      t.pwr.holdingUp = false ∧ (s.pwr.holdingUp = true → t.store.writesBarred = false) ∧
      (s.pwr.holdingUp = false → t.store = s.store) ∧ t.mode = s.mode ∧ Only (.pwr :: .store :: reports) s t)) ∧
  (∀ (s : State) (u : Fin 2),
    let gone (v : Bool) (t : State) : Prop := (t.fv F.PWR_STATUS_CART_OK).testBit u.val = v ∧ t.mode = s.mode ∧ Only (.pwr :: reports) s t
    (s.mode ≠ 0 → Answers (.cartridgeFault u) s (fun t => t.pwr.cartFault.getLsbD u.val = true ∧ t.on F.SYS_REDUND_REDUCED = true ∧ gone false t) ∧
      Answers (.cartridgeRemoved u) s (fun t => t.pwr.cartOut.getLsbD u.val = true ∧ t.on F.SYS_REDUND_REDUCED = true ∧ gone false t) ∧
      Answers (.cartridgeInserted u) s (fun t => t.pwr.cartOut.getLsbD u.val = false ∧ t.pwr.cartFault.getLsbD u.val = false ∧ gone true t)) ∧
    (s.mode = 0 → Answers (.cartridgeFault u) s (fun t => t.pwr.cartFault.getLsbD u.val = true ∧ Only [.pwr] s t) ∧
      Answers (.cartridgeRemoved u) s (fun t => t.pwr.cartOut.getLsbD u.val = true ∧ Only [.pwr] s t) ∧
      Answers (.cartridgeInserted u) s (fun t => t.pwr.cartOut.getLsbD u.val = false ∧ Only [.pwr] s t))) ∧
  (∀ s : State, (s.pwr.holdingUp = false → exec .holdupShutdown s = .next s) ∧
    (s.pwr.holdingUp = true → Answers .holdupShutdown s fun t => t.mode = 0 ∧ t.pwr.holdingUp = false ∧ t.job = none ∧ t.store.buffered = [] ∧
      (s.active = true → s.mode ≠ 9 → t.fv F.SYS_MODE_SAFE_CAUSE = 5 ∧ t.fv F.SYS_MODE_PREV = 9)) ∧
    (s.mode = 0 → exec .holdupReady s = .next s ∧ exec .holdupNotReady s = .next s) ∧
    (s.mode ≠ 0 → Answers .holdupReady s (fun t => t.on F.PWR_STATUS_HOLDUP_READY = true ∧ (t.fv F.SYS_REDUND_CAUSE).testBit 7 = false ∧
        t.mode = s.mode ∧ Only reports s t) ∧
      Answers .holdupNotReady s (fun t => t.on F.PWR_STATUS_HOLDUP_READY = false ∧ (t.fv F.SYS_REDUND_CAUSE).testBit 7 = true ∧
        t.on F.SYS_REDUND_REDUCED = true ∧ t.mode = s.mode ∧ Only reports s t)))) ∧
  -- R312, R314, R384: the reference's presence, its loss and lock, fans, the tray and the thermal reports.
  ((∀ s : State,
    (s.mode = 0 → ∀ c ∈ [Instr.referenceHoldover, .referenceReturn, .referenceLocked, .ppsEdge], exec c s = .next s) ∧
    (s.mode ≠ 0 → s.on F.SYS_CLK_CTL_SRC = true → Answers .referenceHoldover s fun t => t.fv F.SYS_CLK_STATUS_STATE = 3 ∧ t.on F.SYS_CLK_STATUS_LOST = true ∧
      t.on F.SYS_CLK_STATUS_EXT_PRESENT = false ∧ t.mode = s.mode ∧ Only reports s t) ∧
    (s.mode ≠ 0 → s.on F.SYS_CLK_CTL_SRC = false → Answers .referenceHoldover s fun t => t.on F.SYS_CLK_STATUS_EXT_PRESENT = false ∧
      t.fv F.SYS_CLK_STATUS_STATE = s.fv F.SYS_CLK_STATUS_STATE ∧ Only [.regs] s t ∧ OnlyRegs [(.SYS_CLK_STATUS, 0)] s t) ∧
    (s.mode ≠ 0 → Answers .referenceReturn s fun t => t.on F.SYS_CLK_STATUS_EXT_PRESENT = true ∧
      t.fv F.SYS_CLK_STATUS_STATE = (if s.on F.SYS_CLK_CTL_SRC = true ∧ s.fv F.SYS_CLK_STATUS_STATE = 3 then 1 else s.fv F.SYS_CLK_STATUS_STATE) ∧
      Only [.regs] s t ∧ OnlyRegs [(.SYS_CLK_STATUS, 0)] s t) ∧
    (s.mode ≠ 0 → s.on F.SYS_CLK_CTL_SRC = true → s.fv F.SYS_CLK_STATUS_STATE = 1 → Answers .referenceLocked s fun t =>
      t.fv F.SYS_CLK_STATUS_STATE = 2 ∧ t.mode = s.mode ∧ Only reports s t) ∧
    (s.on F.SYS_CLK_CTL_SRC = false ∨ s.fv F.SYS_CLK_STATUS_STATE ≠ 1 → exec .referenceLocked s = .next s)) ∧
  (∀ (s : State) (fan : Fin 6),
    (s.mode = 0 → exec (.fanFailed fan) s = .next s ∧ exec (.fanRestored fan) s = .next s) ∧
    (s.mode ≠ 0 → Answers (.fanFailed fan) s (fun t => t.fv F.PWR_THERM_FAN_FAIL = s.fv F.PWR_THERM_FAN_FAIL ||| 2 ^ fan.val ∧
        (t.fv F.SYS_REDUND_CAUSE).testBit 1 = true ∧ t.on F.SYS_REDUND_REDUCED = true ∧ t.mode = s.mode ∧ Only [.regs, .free, .hst, .out] s t) ∧
      Answers (.fanRestored fan) s (fun t => (∀ k : Fin 6, (t.fv F.PWR_THERM_FAN_FAIL).testBit k.val = ((s.fv F.PWR_THERM_FAN_FAIL).testBit k.val && decide (k ≠ fan))) ∧
        (t.fv F.SYS_REDUND_CAUSE).testBit 1 = decide (t.fv F.PWR_THERM_FAN_FAIL ≠ 0) ∧ t.mode = s.mode ∧ Only [.regs, .free, .hst, .out] s t))) ∧
  (∀ (s : State) (sensor : Fin 16) (c : BitVec 16),
    (s.active = false → exec (.thermalWarning sensor c) s = .next s) ∧
    (s.active = true → Does (.thermalWarning sensor c) s (s.raise .thermal (3 + 256 * sensor.val + 2 ^ 16 * c.toNat)) ∧
      Answers .filterWarning s fun t => t.mode = s.mode ∧ Only [.free, .hst, .regs, .out] s t ∧
        ∃ n, n % 256 = 5 ∧ t = settle s (s.used.raise .thermal n)) ∧
    (s.active = false → Answers .filterWarning s fun t => Only [.free] s t)) ∧
  (∀ s : State,
    (Answers .fanTrayRemoved s fun t => t.pwr.trayOut = true ∧ (s.mode ≠ 0 → t.on F.PWR_THERM_TRAY = false) ∧ t.mode = s.mode ∧ Only (.pwr :: reports) s t) ∧
    (Answers .fanTrayInserted s fun t => t.pwr.trayOut = false ∧ (s.mode ≠ 0 → t.on F.PWR_THERM_TRAY = true) ∧ t.mode = s.mode ∧ Only (.pwr :: reports) s t))) ∧
  -- R376-R380: an accepted level shows in its register, starts the job that waits for its input, and may wake the module; with the field supply low
  -- every input reads inactive and every output is off; an overload turns its output off until a retry finds it gone, and an encoder's supply
  -- likewise.
  ((∀ (s : State) (n : Fin 16) (v : Bool),
    (s.mode = 0 ∨ s.pwr.fieldLow = true → exec (.digitalInputAccept n v) s = .next s) ∧
    (s.active = true → s.pwr.fieldLow = false → s.job = none → s.pwr.drain = none → Answers (.digitalInputAccept n v) s fun t =>
      t.on F.SHT_DIN_CTL_LEVEL n = v ∧ Only [.regs] s t ∧ OnlyRegs [(.SHT_DIN_CTL, n.val)] s t) ∧
    (∀ j, s.active = true → s.pwr.fieldLow = false → s.job = some j → j.phase = .awaitStart → j.startMode = 2 → j.startIn = n →
      s.on F.SHT_DIN_CTL_LEVEL n = false → s.on F.PWR_CFG_WAKE_IN_EN = false →
      Does (.digitalInputAccept n true) s ((s.fset F.SHT_DIN_CTL_LEVEL 1 n).startJob)) ∧
    (s.mode = 1 ∨ s.mode = 10 → s.pwr.fieldLow = false → s.job = none → s.pwr.drain = none → s.on F.PWR_CFG_WAKE_IN_EN = true →
      s.fv F.PWR_CFG_WAKE_IN = n.val →
      let short := decide (s.mode = 10) && !s.pwr.fullBoot
      Does (.digitalInputAccept n true) s (s.dieReset 1 short short))) ∧
  (∀ s : State,
    (s.active = false → Answers .fieldSupplyLow s fun t => t.pwr = (let x := s.pwr; { x with fieldLow := true }) ∧ Only [.pwr] s t) ∧
    (s.active = true → Answers .fieldSupplyLow s fun t => t.pwr = (let x := s.pwr; { x with fieldLow := true }) ∧
      (∀ n : Fin 16, t.on F.SHT_DIN_CTL_FIELD_LOW n = true ∧ t.on F.SHT_DIN_CTL_LEVEL n = false ∧ t.doutOn n = false) ∧ Only [.pwr, .regs, .out] s t) ∧
    (∀ v : BitVec 16, s.active = true → s.job = none → s.pwr.drain = none → Answers (.fieldSupplyRestored v) s fun t =>
      t.pwr = (let x := s.pwr; { x with fieldLow := false }) ∧
      (∀ n : Fin 16, t.on F.SHT_DIN_CTL_FIELD_LOW n = false ∧ t.on F.SHT_DIN_CTL_LEVEL n = v.getLsbD n.val) ∧ Only [.pwr, .regs, .out] s t)) ∧
  (∀ (s : State) (o : Fin 16) (v : Bool),
    (s.active = false → exec (.outputOverload o) s = .next s ∧ exec (.outputRetry o v) s = .next s) ∧
    (s.active = true → Answers (.outputOverload o) s fun t => t.doutOn o = false ∧ t.on F.SHT_DOUT_CTL_FAULT o = true ∧
      (∀ k : Fin 16, k ≠ o → t.sht.dout[k] = s.sht.dout[k]) ∧ Only [.sht, .regs, .out] s t ∧ OnlyRegs [(.SHT_DOUT_CTL, o.val)] s t) ∧
    ((s.sht.dout[o]).overload = false → exec (.outputRetry o v) s = .next s) ∧
    (s.active = true → (s.sht.dout[o]).overload = true → Answers (.outputRetry o v) s fun t => (t.sht.dout[o]).overload = v ∧
      (v = true → t.doutOn o = false ∧ t.on F.SHT_DOUT_CTL_FAULT o = true) ∧ (v = false → OnlyRegs [] s t) ∧
      (∀ k : Fin 16, k ≠ o → t.sht.dout[k] = s.sht.dout[k]) ∧ Only [.sht, .regs, .out] s t)) ∧
  (∀ (s : State) (ch : Fin 4) (v : Bool),
    (s.active = false → exec (.encPwrOverload ch) s = .next s) ∧
    (s.active = true → Answers (.encPwrOverload ch) s fun t => (t.sht.enc[ch]).folded = true ∧ t.out = .encPower ch false :: s.out ∧
      (∀ k : Fin 4, k ≠ ch → t.sht.enc[k] = s.sht.enc[k]) ∧ Only [.sht, .out] s t) ∧
    (s.active = false ∨ (s.sht.enc[ch]).folded = false → exec (.encPwrRetry ch v) s = .next s) ∧
    (s.active = true → (s.sht.enc[ch]).folded = true → Answers (.encPwrRetry ch v) s fun t => (t.sht.enc[ch]).folded = v ∧
      t.out = .encPower ch (!v) :: s.out ∧ (∀ k : Fin 4, k ≠ ch → t.sht.enc[k] = s.sht.enc[k]) ∧ Only [.sht, .out] s t)))

/-! ## Security and debug -/

/-- Lifecycle requests and debug sessions. -/
def Obligations.LifecycleAndDebugSessions : Prop :=
  -- R330-R333: a lifecycle request of the PF or a management core is judged in order (mode, TYPE, serial number, key and signature); a refused one
  -- sets STATUS and raises alert 7, an accepted one is pending until its fuses are blown, which a die reset follows.
  ((∀ (s : State) (a : Agent) (keyOk sigOk : Bool), Permits s a .SEC_LC_CTL 0 →
    let c := Instr.lifecycleRequest a keyOk sigOk
    let from_ : Prop := a = .pf ∨ ∃ k : Fin 8, a = .core k ∧ 4 ≤ k.val
    let ty := s.bufNat .SEC_LC_BUF 0 1
    let lc := s.fuses.lc
    let zero : Bool := decide (s.bufNat .SEC_LC_BUF 1 7 = 0 ∧ s.bufNat .SEC_LC_BUF 257 255 = 0)
    let checks : List (Bool × Nat) :=
      [(decide (s.mode ≠ 3 ∧ s.mode ≠ 9), 6), (decide (¬ ((ty = 1 ∧ lc = 0) ∨ (ty = 2 ∧ lc = 1) ∨ (ty = 3 ∧ lc ≠ 3))), 3),
       (decide (s.bufNat .SEC_LC_BUF 8 8 ≠ s.fuses.serial.toNat), 4), (!(keyOk && sigOk && zero), 5)]
    (¬ from_ → Answers c s fun t => RegsOnly [(.SYS_BAD_ACCESS, 0)] s t ∧ t.fv F.SYS_BAD_ACCESS_COUNT = Nat.min (s.fv F.SYS_BAD_ACCESS_COUNT + 1) (2 ^ 32 - 1)) ∧
    (from_ → s.sec.lcPending ≠ none → Answers c s (Ignored s)) ∧
    (∀ e, from_ → s.sec.lcPending = none → checks.find? (fun e => e.1) = some e → Answers c s fun t => t.fv F.SEC_LC_CTL_STATUS = e.2 ∧
      t.sec = s.sec ∧ t.mode = s.mode ∧ Only (.latches :: reports) s t) ∧
    (from_ → s.sec.lcPending = none → checks.find? (fun e => e.1) = none → Answers c s fun t => t.fv F.SEC_LC_CTL_STATUS = 1 ∧ t.on F.SEC_LC_CTL_GO = true ∧
      t.sec.lcPending = some (Fin.ofNat 4 ty) ∧ t.sec.lcHash = BitVec.ofNat 384 (s.bufNat .SEC_LC_BUF 16 48) ∧
      Only [.regs, .latches, .sec] s t ∧ OnlyRegs [(.SEC_LC_CTL, 0)] s t)) ∧
  (∀ s : State, (s.sec.lcPending = none ∨ s.active = false → exec .fusesBlown s = .next s) ∧
    (∀ ty : Fin 4, s.sec.lcPending = some ty → ty ≠ 0 → s.active = true → ∃ t, exec .fusesBlown s = .next t ∧ t.mode = 2 ∧ t.fv F.SYS_BOOT_STAGE = 1 ∧
      t.pending = s.pending ∧ t.devTime = s.devTime ∧ t.sec.lcPending = none ∧
      (ty = 1 → t.fuses = { s.fuses with oemHash := s.fuses.oemHash ||| s.sec.lcHash, lcOpen := 0xFF }) ∧
      (ty = 2 → t.fuses = { s.fuses with lcSealed := 0xFF }) ∧
      (ty = 3 → t.fuses = { s.fuses with secretDestroyed := true, lcReturned := 0xFF } ∧ t.fuses.lc = 3 ∧ ∀ h, t.reelAt h = none) ∧
      (ty ≠ 3 → ∀ h x, s.reelAt h = some x → x.state ≠ .inUse → t.reelAt h = some x)))) ∧
  -- R339-R346: the debug level. D1 is entered on request, D2 on request outside SEALED and by a token in it; a second owner is refused; the end of D2
  -- in SEALED is a die reset. CHAL issues a nonce unless 8 tokens have failed, GO verifies in Ready, Safe and Diagnostic, and a token that is
  -- accepted zeroises the keys and the memories and enters D2, while one that fails is counted.
  ((∀ (s : State) (a : Agent) (v : BitVec 32), Permits s a .DBG_CTL 0 →
    let c := Instr.debugLevelRequest a v
    let owner := agentOwner a
    let other : Prop := owner = none ∨ (s.sec.owner ≠ none ∧ s.sec.owner ≠ owner)
    let req := if v.toNat % 4 = 3 then 0 else v.toNat % 4
    (other → Answers c s fun t => t.on F.DBG_STATUS_CLAIM_REJ = true ∧ t.sec = s.sec ∧ t.dbgLevel = s.dbgLevel ∧ RegsOnly [(.DBG_STATUS, 0)] s t) ∧
    (¬ other → s.dbgLevel < req → req = 1 ∨ s.fuses.lc ≠ 2 → Answers c s fun t => t.dbgLevel = req ∧ t.sec = (let x := s.sec; { x with owner := owner }) ∧
      t.fv F.DBG_CTL_REQ = v.toNat % 4 ∧ Only [.regs, .latches, .sec] s t ∧ OnlyRegs [(.DBG_CTL, 0), (.DBG_STATUS, 0)] s t) ∧
    (¬ other → s.dbgLevel < 2 → req = 2 → s.fuses.lc = 2 → Answers c s fun t => t.dbgLevel = s.dbgLevel ∧ t.sec = s.sec ∧ RegsOnly [(.DBG_CTL, 0)] s t) ∧
    (¬ other → req = 0 → s.dbgLevel = 1 ∨ (s.dbgLevel = 2 ∧ s.fuses.lc ≠ 2) → Answers c s fun t => t.dbgLevel = 0 ∧ t.sec.owner = none ∧
      t.on F.DBG_CTL_READ_ACT = false ∧ t.on F.LP_CTL_CLAIM = false ∧ t.fv F.FAB_PIN_OWNER_OWNER ≠ 2 ∧ Only [.regs, .latches, .sec, .handover] s t) ∧
    (¬ other → req < 2 → s.storeLocked = true → Answers c s fun t => t.dbgLevel = 0 ∧ t.sec.owner = none ∧ t.mode = 2 ∧ t.fv F.SYS_BOOT_STAGE = 1)) ∧
  (∀ s : State, (s.storeLocked = false → exec .debugSessionExpiry s = .next s) ∧
    (s.storeLocked = true → Answers .debugSessionExpiry s fun t => t.dbgLevel = 0 ∧ t.sec.owner = none ∧ t.mode = 2 ∧ t.fv F.SYS_BOOT_STAGE = 1) ∧
    (Answers .nonceExpiry s fun t => t.sec = (let x := s.sec; { x with nonce := false }) ∧ Only [.sec] s t)) ∧
  (∀ (s : State) (a : Agent), Permits s a .DBG_UNLOCK_CTL 0 →
    let other : Prop := agentOwner a = none ∨ (s.sec.owner ≠ none ∧ s.sec.owner ≠ agentOwner a)
    (other → Answers (.unlockChallenge a) s (Ignored s) ∧ Answers (.unlockGo a) s (Ignored s)) ∧
    (8 ≤ s.fv F.DBG_UNLOCK_CTL_FAILS ∨ s.active = false → Answers (.unlockChallenge a) s (Ignored s)) ∧
    (¬ other → s.fv F.DBG_UNLOCK_CTL_FAILS < 8 → s.active = true → Answers (.unlockChallenge a) s fun t =>
      t.sec = (let x := s.sec; { x with nonce := true }) ∧ t.on F.DBG_UNLOCK_CTL_CHAL = false ∧ Only [.regs, .latches, .sec, .free] s t ∧
      OnlyRegs [(.DBG_CHAL, 0), (.DBG_CHAL, 1), (.DBG_CHAL, 2), (.DBG_CHAL, 3), (.DBG_UNLOCK_CTL, 0)] s t) ∧
    (s.sec.verifying = true ∨ s.active = false → Answers (.unlockGo a) s (Ignored s)) ∧
    (¬ other → s.sec.verifying = false → s.active = true → s.mode ≠ 3 → s.mode ≠ 9 → s.mode ≠ 11 → Answers (.unlockGo a) s fun t =>
      t.fv F.DBG_UNLOCK_CTL_STATUS = 5 ∧ RegsOnly [(.DBG_UNLOCK_CTL, 0)] s t) ∧
    (¬ other → s.sec.verifying = false → s.mode = 3 ∨ s.mode = 9 ∨ s.mode = 11 → Answers (.unlockGo a) s fun t =>
      t.fv F.DBG_UNLOCK_CTL_STATUS = 1 ∧ t.on F.DBG_UNLOCK_CTL_GO = true ∧ t.sec = (let x := s.sec; { x with verifying := true, asker := agentOwner a }) ∧
      Only [.regs, .latches, .sec] s t ∧ OnlyRegs [(.DBG_UNLOCK_CTL, 0)] s t)) ∧
  (∀ (s : State) (ok : Bool),
    let c := Instr.unlockVerifyComplete ok
    let good : Prop := ok = true ∧ s.sec.nonce = true ∧ s.bufNat .DBG_TOKEN 0 1 = 2 ∧ s.bufNat .DBG_TOKEN 8 8 = s.fuses.serial.toNat
    let fails := Nat.min 15 (s.fv F.DBG_UNLOCK_CTL_FAILS + 1)
    (s.sec.verifying = false → exec c s = .next s) ∧
    (s.sec.verifying = true → good → Answers c s fun t => t.dbgLevel = 2 ∧ t.fv F.DBG_UNLOCK_CTL_STATUS = 2 ∧ t.sec.keySlots = 0 ∧ t.sec.kekWithheld = true ∧
      t.sec.owner = s.sec.asker ∧ t.sec.nonce = false ∧ t.sec.verifying = false ∧ (∀ i, t.cell 1 i = .ok 0 ∧ t.cell 2 i = .ok 0) ∧
      (∀ k : Fin 17, 3 ≤ k.val → ∀ i, t.cell k i = s.cell k i) ∧ (∀ a g, (t.grains.plane a).data.getLsbD g = false) ∧ t.store = s.store ∧
      Only (.sec :: .mems :: .grains :: reports) s t) ∧
    (s.sec.verifying = true → ¬ good → Answers c s fun t => t.fv F.DBG_UNLOCK_CTL_FAILS = fails ∧ t.fv F.DBG_UNLOCK_CTL_STATUS = (if 8 ≤ fails then 4 else 3) ∧
      t.dbgLevel = s.dbgLevel ∧ t.sec = (let x := s.sec; { x with verifying := false, nonce := false }) ∧ Only (.sec :: reports) s t)))

/-- Halts, steps and the TAP's instructions. -/
def Obligations.HaltsAndTap : Prop :=
  -- R347, R348: DBG_HALT at D2. A write without STEP and DBG_RESUME halts the named cores, which lose their reservations; a management core in Print
  -- or Hold sets HALT_REJ, and the print gang's Developer in Print waits for a Hold with cause 3. STEP grants one instruction, DBG_RESUME releases.
  (∀ (s : State) (a : Agent) (v : BitVec 32), Permits s a .DBG_HALT 0 →
    let named (c : Fin 8) : Bool := v.getLsbD c.val
    (∀ c, c = .debugHalt a v ∨ c = .step a v ∨ c = .dbgResume a v → s.dbgLevel ≠ 2 ∨ s.active = false → Answers c s fun t =>
      t.fv F.DBG_HALT_CORES = v.toNat % 256 ∧ RegsOnly [(.DBG_HALT, 0)] s t) ∧
    (s.dbgLevel = 2 → s.active = true → v.getLsbD 24 = false → v.getLsbD 25 = false →
      (s.mode ≠ 4 → s.mode ≠ 5 → Answers (.debugHalt a v) s fun t =>
        (∀ c : Fin 8, (t.cores[c]).halted = ((s.cores[c]).halted || named c) ∧ (t.cores[c]).pc = (s.cores[c]).pc ∧ (t.cores[c]).s = (s.cores[c]).s ∧
          (named c = true → (s.cores[c]).halted = false → (t.cores[c]).resv = none ∧ (t.cores[c]).stepping = false) ∧
          (named c = false → t.cores[c] = s.cores[c])) ∧ Only [.cores, .devs, .regs, .latches] s t ∧ OnlyRegs [(.DBG_HALT, 0)] s t) ∧
      (∀ k : Fin 8, s.mode = 4 ∨ s.mode = 5 → 4 ≤ k.val → (∀ c, named c = decide (c = k)) → (s.cores[k]).halted = false →
        Answers (.debugHalt a v) s fun t => t.on F.DBG_STATUS_HALT_REJ = true ∧ RegsOnly [(.DBG_HALT, 0), (.DBG_STATUS, 0)] s t) ∧
      (s.mode = 4 → s.job ≠ none → (∀ c, named c = decide (c = 0)) → (s.cores[(0 : Fin 8)]).halted = false → s.sec.haltPending.getLsbD 0 = false →
        Does (.debugHalt a v) s
          ((let u := (s.unlatch .DBG_HALT 0).fset F.DBG_HALT_CORES 1
            ({ u with sec := { u.sec with haltPending := u.sec.haltPending ||| 1 } } : State)).requestHold 0 3 none 0 false none))) ∧
    (s.dbgLevel = 2 → s.active = true → v.getLsbD 24 = false → Answers (.step a v) s fun t =>
      (∀ c : Fin 8, (t.cores[c]).stepping = ((s.cores[c]).stepping || (named c && (s.cores[c]).halted)) ∧ (t.cores[c]).halted = (s.cores[c]).halted ∧
        (t.cores[c]).pc = (s.cores[c]).pc) ∧ Only [.cores, .devs, .regs, .latches] s t ∧ OnlyRegs [(.DBG_HALT, 0)] s t) ∧
    (s.dbgLevel = 2 → s.active = true → Answers (.dbgResume a v) s fun t =>
      (∀ c : Fin 8, (t.cores[c]).halted = ((s.cores[c]).halted && !named c) ∧ (t.cores[c]).pc = (s.cores[c]).pc ∧
        (named c = true → (s.cores[c]).halted = true → (t.cores[c]).stepping = false)) ∧ Only [.cores, .devs, .regs, .latches] s t ∧
      OnlyRegs [(.DBG_HALT, 0)] s t)) ∧
  -- R340, R345, R346: the TAP. It answers in every mode but Off; IDCODE shifts 0x1A9F00DB out; EXTEST is BYPASS outside Safe and Diagnostic or in
  -- SEALED below D2; a DBG_ACCESS reports the outcome of the one before it, and itself with 0 done, 2 refused at the level or 3 an error.
  ((∀ s : State,
    (s.mode = 0 → ∀ c ∈ [Instr.bypass, .idcode, .samplePreload, .extest], exec c s = .next s) ∧
    (s.mode ≠ 0 → exec .bypass s = .next (s.emit (.tapInstr "BYPASS")) ∧ exec .samplePreload s = .next (s.emit (.tapInstr "SAMPLE/PRELOAD")) ∧
      exec .idcode s = .next ((s.emit (.tapInstr "IDCODE")).emit (.value 0x1A9F00DB)) ∧
      exec .extest s = .next (s.emit (.tapInstr
        (if (s.mode = 9 ∨ s.mode = 11) ∧ (s.dbgLevel = 2 ∨ s.fuses.lc ≠ 2) then "EXTEST" else "BYPASS"))))) ∧
  (∀ (s : State) (addr : BitVec 48) (v : DWord) (c : Instr),
    c = .dbgRegisterRead addr ∨ c = .dbgRegisterWrite addr v ∨ c = .dbgMemoryRead addr ∨ c = .dbgMemoryWrite addr v →
    (s.mode = 0 → exec c s = .next s) ∧
    (s.mode ≠ 0 →
      let before := (match s.sec.tapLast with
        | some (st, x) => [Out.tap st x]
        | none => []) ++ s.out
      let ended (st : Nat) (t : State) : Prop := (∃ x, t.sec.tapLast = some (st, x)) ∧ t.mems = s.mems ∧ t.out = before ∧ Only [.out, .sec, .free] s t
      (c = .dbgRegisterRead addr ∨ c = .dbgRegisterWrite addr v → 0x100000 ≤ addr.toNat → Answers c s (ended 3)) ∧
      (c = .dbgMemoryRead addr ∨ c = .dbgMemoryWrite addr v → s.dbgLevel ≠ 2 → Answers c s (ended 2)) ∧
      (c = .dbgMemoryRead addr ∨ c = .dbgMemoryWrite addr v → s.dbgLevel = 2 → s.active = false → Answers c s (ended 3)) ∧
      (c = .dbgMemoryRead addr ∨ c = .dbgMemoryWrite addr v → s.dbgLevel = 2 → s.active = true → s.placeOf addr.toNat 8 = .hole → Answers c s (ended 3)) ∧
      (∀ off, c = .dbgMemoryRead addr → s.dbgLevel = 2 → s.active = true → s.placeOf addr.toNat 8 = .mem 3 off → (s.readRange 10 3 off 8).1 = false →
        Answers c s fun t => t.sec.tapLast = some (0, BitVec.ofNat 64 (leNat (s.memBytes 3 off 8))) ∧ t.out = before ∧ t.cores = s.cores) ∧
      (∀ off, c = .dbgMemoryWrite addr v → s.dbgLevel = 2 → s.active = true → s.placeOf addr.toNat 8 = .mem 3 off → Answers c s fun t =>
        (∃ x, t.sec.tapLast = some (0, x)) ∧ t.out = before ∧ t.mems = (s.writeBytes 10 3 off (leBytes v.toNat 8)).mems) ∧
      (addr.toNat < 0x100000 → s.reaches .jtag = true → addr.toNat % 8 = 0 →
        (∀ r i, c = .dbgRegisterRead addr → r ≠ .ENL_BAND_PUSH → regAt (0x200000 + addr.toNat) = some (r, i, false) → (regInfo r).width = 64 → s.mayRead .jtag r i = true →
          Answers c s fun t => t.sec.tapLast = some (0, s.readValue r i) ∧ t.out = before ∧ Only [.out, .sec, .free, .regs] s t) ∧
        (∀ r i, c = .dbgRegisterWrite addr v → regAt (0x200000 + addr.toNat) = some (r, i, false) → (regInfo r).width = 64 → s.mayWrite .jtag r i = true →
          r ∉ ownRule → Answers c s fun t => (∃ x, t.sec.tapLast = some (0, x)) ∧ t.out = before ∧
            t.reg r i = swWrite (regInfo r).fields (BitVec.allOnes 64) (s.reg r i) v ∧ OnlyRegs [(r, i)] s t ∧ Only [.out, .sec, .free, .regs, .latches] s t)))))

/-- Exchange of fabric regions, the shared pins and the Loupe. -/
def Obligations.RegionsAndPins : Prop :=
  -- R194: SWAP with no verified shadow is ignored; a request waits for AT_LINE, or with IMMED exchanges at once. The exchange makes the shadow the
  -- active configuration, restarts every cell with EP = 0 and its registers' initial values, or the old ones where RETAIN says so, and shows an FI
  -- pulse that fell in it, or that no cycle has yet shown, in the first cycle after, counted in FI_LATE.
  ((∀ (s : State) (a : Agent) (r : Fin 16) (v : DWord), Permits s a .FAB_REGION_CTL r →
    let ok := s.on F.FAB_REGION_CTL_SHADOW_OK r
    let swap := decide (wField v F.FAB_REGION_CTL_SWAP = 1)
    (ok = false ∨ swap = false → Answers (.regionSwapRequest a r v) s fun t =>
      t.on F.FAB_REGION_CTL_SWAP r = s.on F.FAB_REGION_CTL_SWAP r ∧ RegsOnly [(.FAB_REGION_CTL, r.val)] s t) ∧
    (ok = true → swap = true → wField v F.FAB_REGION_CTL_IMMED = 0 → Answers (.regionSwapRequest a r v) s fun t =>
      t.on F.FAB_REGION_CTL_SWAP r = true ∧ t.fv F.FAB_REGION_CTL_AT_LINE r = wField v F.FAB_REGION_CTL_AT_LINE ∧
      RegsOnly [(.FAB_REGION_CTL, r.val)] s t) ∧
    (∀ im, ok = true → swap = true → wField v F.FAB_REGION_CTL_IMMED = 1 → (s.fab[r]).shadow = some im → Answers (.regionSwapRequest a r v) s fun t =>
      (t.fab[r]).active = some im ∧ (t.fab[r]).shadow = none ∧ t.on F.FAB_REGION_CTL_SHADOW_OK r = false ∧ t.on F.FAB_REGION_CTL_SWAP r = false ∧
      PinsFollow s t r ∧ Only [.fab, .regs, .latches, .free, .out] s t)) ∧
  (∀ (s : State) (r : Fin 16) (fi : Option (BitVec 16)),
    let due := s.on F.FAB_REGION_CTL_SWAP r && s.switchPoint r (s.fv F.FAB_REGION_CTL_AT_LINE r)
    (due = false ∨ (s.fab[r]).shadow = none → exec (.regionExchange r fi) s = .next s) ∧
    (∀ im, due = true → (s.fab[r]).shadow = some im → Answers (.regionExchange r fi) s fun t =>
      (t.fab[r]).active = some im ∧ (t.fab[r]).shadow = none ∧ (t.fab[r]).stopped = false ∧
      (t.fab[r]).hs = (s.fab[r]).hs ∧ (t.fab[r]).pinOe = (s.fab[r]).pinOe ∧
      t.on F.FAB_REGION_CTL_SWAP r = false ∧ t.on F.FAB_REGION_CTL_SHADOW_OK r = false ∧
      (∀ p, fi = some p → (t.fab[r]).fi = p ∧ (t.fab[r]).fiAt = 3 ∧ t.fv F.FAB_REGION_CTL_FI_LATE r =
        Nat.min (2 ^ F.FAB_REGION_CTL_FI_LATE.w - 1) (s.fv F.FAB_REGION_CTL_FI_LATE r + 1)) ∧
      (fi = none → (s.fab[r]).fi = 0 ∨ (s.fab[r]).fiAt < (s.fab[r]).now → t.fv F.FAB_REGION_CTL_FI_LATE r = s.fv F.FAB_REGION_CTL_FI_LATE r) ∧
      (fi = none → (s.fab[r]).fi ≠ 0 → (s.fab[r]).now ≤ (s.fab[r]).fiAt → (t.fab[r]).fi = (s.fab[r]).fi ∧ (t.fab[r]).fiAt = 3 ∧
        t.fv F.FAB_REGION_CTL_FI_LATE r = Nat.min (2 ^ F.FAB_REGION_CTL_FI_LATE.w - 1) (s.fv F.FAB_REGION_CTL_FI_LATE r + 1)) ∧
      (∀ c conf, im.cells = [(c, conf)] →
        let x := (s.fab[r]).cell c
        let y := (t.fab[r]).cell c
        y.ep = 0 ∧ y.cyc = 3 ∧ y.fl = x.fl ∧ y.da = (if conf.retDA then x.da else conf.initDA) ∧ y.db = (if conf.retDB then x.db else conf.initDB) ∧
        y.out = (if conf.retOUT then x.out else conf.initOUT) ∧ (conf.retH = true → y.h = x.h)) ∧
      (∀ m, m < 4 → ((t.fab[r]).mac m).acc = (if (imMac im m).retain then ((s.fab[r]).mac m).acc else 0)) ∧
      (∀ q : Fin 16, q ≠ r → t.fab[q] = s.fab[q]) ∧ PinsFollow s t r ∧ Only [.fab, .regs, .free, .out] s t ∧
      OnlyRegs [(.FAB_REGION_CTL, r.val)] s t))) ∧
  -- R195, R349: pins 0-15 of port 7. A nonzero OWNER claims them, but not from another owner, which sets CLAIM_REJ; 0 releases them; a change of
  -- owner leaves them undriven until the handover ends. Both commands are writes of the one register.
  ((∀ (s : State) (a : Agent) (v : BitVec 32) (c : Instr), Permits s a .FAB_PIN_OWNER 0 → c = .pinOwnerClaim a v ∨ c = .pinOwnerRelease a v →
    let o := wField (v.setWidth 64) F.FAB_PIN_OWNER_OWNER
    let now := s.fv F.FAB_PIN_OWNER_OWNER
    (o = 1 ∨ o = 2 → now ≠ 0 → now ≠ o → Answers c s fun t => t.fv F.FAB_PIN_OWNER_OWNER = now ∧ t.on F.FAB_PIN_OWNER_CLAIM_REJ = true ∧
      RegsOnly [(.FAB_PIN_OWNER, 0)] s t) ∧
    (o = 0 ∨ ((o = 1 ∨ o = 2) ∧ (now = 0 ∨ now = o)) → Answers c s fun t => t.fv F.FAB_PIN_OWNER_OWNER = o ∧
      t.handover = (s.handover || decide (now ≠ o)) ∧ (now ≠ o → ∀ i, i < 16 → t.pinDriven 7 i = false) ∧ PinsFollow s t 7 ∧
      Only [.regs, .latches, .handover, .fab, .out] s t ∧ OnlyRegs [(.FAB_PIN_OWNER, 0)] s t) ∧
    (o = 3 → Answers c s fun t => t.fv F.FAB_PIN_OWNER_OWNER = now ∧ RegsOnly [(.FAB_PIN_OWNER, 0)] s t)) ∧
  (∀ s : State, Answers .pinHandoverEnd s fun t => t.handover = false ∧ Only [.handover, .fab, .out] s t ∧ (s.handover = false → t = s))) ∧
  -- R195, R349: the Loupe claims the shared pins at D1 and D2 unless another owner holds them, and once they are handed over each pin shows the
  -- source that LP_SEL gives it and the level allows; a write with CLAIM = 0 releases them.
  (∀ (s : State) (a : Agent) (v : BitVec 32), Permits s a .LP_CTL 0 →
    let owner := s.fv F.FAB_PIN_OWNER_OWNER
    let shown := ((List.finRange 16).map (fun n : Fin 16 => Out.loupe n (s.loupeSource n))).reverse
    (Answers (.loupeRelease a v) s fun t => t.on F.LP_CTL_CLAIM = false ∧ t.fv F.LP_CTL_TRACK = v.toNat / 4 % 64 ∧ t.on F.LP_CTL_STRETCH = v.getLsbD 1 ∧
      t.fv F.FAB_PIN_OWNER_OWNER = (if owner = 2 then 0 else owner) ∧ (owner = 2 → t.handover = true) ∧
      Only [.regs, .latches, .handover, .fab] s t ∧ OnlyRegs [(.LP_CTL, 0), (.FAB_PIN_OWNER, 0)] s t) ∧
    (s.dbgLevel = 0 ∨ s.active = false → Answers (.loupeClaim a v) s fun t => t.on F.LP_CTL_CLAIM = false ∧ t.fv F.FAB_PIN_OWNER_OWNER = owner ∧
      RegsOnly [(.LP_CTL, 0)] s t) ∧
    (s.dbgLevel ≠ 0 → s.active = true → owner = 1 → Answers (.loupeClaim a v) s fun t => t.on F.LP_CTL_CLAIM = false ∧ t.fv F.FAB_PIN_OWNER_OWNER = 1 ∧
      t.on F.FAB_PIN_OWNER_CLAIM_REJ = true ∧ RegsOnly [(.LP_CTL, 0), (.FAB_PIN_OWNER, 0)] s t) ∧
    (s.dbgLevel ≠ 0 → s.active = true → owner = 0 → Answers (.loupeClaim a v) s fun t => t.on F.LP_CTL_CLAIM = true ∧
      t.fv F.FAB_PIN_OWNER_OWNER = 2 ∧ t.handover = true ∧ t.out = s.out ∧ Only [.regs, .latches, .handover, .fab] s t ∧
      OnlyRegs [(.LP_CTL, 0), (.FAB_PIN_OWNER, 0)] s t) ∧
    (s.dbgLevel ≠ 0 → s.active = true → owner = 2 → s.handover = false → Answers (.loupeClaim a v) s fun t => t.on F.LP_CTL_CLAIM = true ∧
      t.fv F.FAB_PIN_OWNER_OWNER = 2 ∧ t.out = shown ++ s.out ∧ Only [.regs, .latches, .out] s t ∧ OnlyRegs [(.LP_CTL, 0)] s t) ∧
    (owner = 2 → s.handover = true → Answers .pinHandoverEnd s fun t => t.handover = false ∧ t.out = shown ++ s.out ∧
      Only [.handover, .fab, .out] s t) ∧
    (∀ n : Fin 16, let c := s.fv F.LP_SEL_SRC n
      (c = 0x81 → s.dbgLevel = 1 → s.loupeSource n = 0) ∧ (c = 0x81 → s.dbgLevel = 2 → s.loupeSource n = 0x81) ∧ (c = 0x0F → s.loupeSource n = 0) ∧
      (c = 0x20 → s.loupeSource n = 0x20)))

/-! ## The Contact Sheet -/

/-- R363-R367: records. A report joins its merge window or opens one and the queue of 64; the oldest queued record is written with the next SEQ into
the ring of 131,072; the end of a window leaves one record with the count; a trigger freezes the trace, or during a commit is counted; the commit
writes the header and the 2,816 trace records and empties the buffers. -/
def Obligations.ContactSheet : Prop :=
  (∀ (s : State) (ty src : Nat) (data : List Nat),
    let t := s.csReport ty src data false
    let open_ : Prop := ∃ n, (ty, src, n) ∈ s.cs.merging
    (open_ → t.cs.queue = s.cs.queue ∧ t.cs.merging.length = s.cs.merging.length) ∧
    (¬ open_ → s.cs.queue.length < 64 → t.cs.merging = s.cs.merging ++ [(ty, src, 0)] ∧ ∃ r, t.cs.queue = s.cs.queue ++ [r] ∧ r.ty = ty ∧ r.source = src ∧
      r.flags = 0 ∧ r.time = s.devTime ∧ r.mode = s.mode ∧ r.data = data ∧ r.redund = s.fv F.SYS_REDUND_CAUSE ∧ r.merged = none ∧
      (s.job = none → r.line = 0xFFFFFFFF ∧ r.job = 0)) ∧
    (¬ open_ → s.cs.queue.length = 64 → 0x10 ≤ ty → t.cs.queue = s.cs.queue ∧
      t.fv F.CS_STATUS_DROPPED = Nat.min (s.fv F.CS_STATUS_DROPPED + 1) (2 ^ 16 - 1)) ∧
    Only [.cs, .regs, .free] s t) ∧
  (∀ s : State, (s.active = false ∨ s.cs.queue = [] → exec .csRecordWrite s = .next s) ∧
    (∀ r rest, s.active = true → s.cs.queue = r :: rest → Answers .csRecordWrite s fun t =>
      let n := s.fv F.CS_SEQ_NEXT
      t.cs = (let x := s.cs; { x with queue := rest, records := ({ r with seq := BitVec.ofNat 32 n } :: x.records).take 131072 }) ∧
      t.fv F.CS_SEQ_NEXT = (n + 1) % 2 ^ 32 ∧ t.fv F.CS_SEQ_OLDEST = (n + 1 + 2 ^ 32 - t.cs.records.length) % 2 ^ 32 ∧
      Only [.cs, .regs] s t ∧ OnlyRegs [(.CS_SEQ, 0)] s t)) ∧
  (∀ (s : State) (ty : BitVec 16) (src : BitVec 8),
    let e := s.cs.merging.find? (fun e => e.1 == ty.toNat && e.2.1 == src.toNat)
    (e = none → exec (.csMergeWindowEnd ty src) s = .next s) ∧
    (∀ x, e = some x → x.2.2 = 0 → Answers (.csMergeWindowEnd ty src) s fun t => t.cs.merging = s.cs.merging.erase x ∧ t.cs.queue = s.cs.queue ∧
      Only [.cs] s t) ∧
    (∀ x, e = some x → x.2.2 ≠ 0 → s.cs.queue.length < 64 → Answers (.csMergeWindowEnd ty src) s fun t => t.cs.merging = s.cs.merging.erase x ∧
      (∃ r, t.cs.queue = s.cs.queue ++ [r] ∧ r.merged = some x.2.2 ∧ r.ty = ty.toNat ∧ r.source = src.toNat ∧ r.flags = 4) ∧ Only [.cs, .free] s t)) ∧
  (∀ (s : State) (a : Agent) (v : BitVec 32), Permits s a .CS_CTL 0 →
    (v.getLsbD 10 = false → Answers (.hostTrigger a v) s fun t => t.fv F.CS_CTL_TRIG_MASK = v.toNat % 2 ^ 11 ∧ t.on F.CS_CTL_TRIG = false ∧
      RegsOnly [(.CS_CTL, 0)] s t) ∧
    (v.getLsbD 10 = true → s.on F.CS_STATUS_COMMIT = false → Answers (.hostTrigger a v) s fun t => t.on F.CS_STATUS_COMMIT = true ∧
      (∃ r, t.cs.trigger = some r ∧ r.flags = 1 ∧ r.time = s.devTime) ∧ t.on F.CS_CTL_TRIG = false ∧ Only [.cs, .regs, .free, .latches] s t) ∧
    (v.getLsbD 10 = true → s.on F.CS_STATUS_COMMIT = true → Answers (.hostTrigger a v) s fun t => t.cs.trigger = s.cs.trigger ∧
      t.fv F.CS_STATUS_SUPPRESSED = Nat.min (s.fv F.CS_STATUS_SUPPRESSED + 1) (2 ^ 16 - 1) ∧ Only [.cs, .regs, .free, .latches] s t)) ∧
  (∀ s : State, (s.active = false ∨ s.cs.trigger = none → exec .traceCommitComplete s = .next s) ∧
    (s.active = true → s.cs.trigger ≠ none → Answers .traceCommitComplete s fun t => t.cs.trigger = none ∧ t.on F.CS_STATUS_COMMIT = false ∧
      t.cs.queue = [] ∧ t.cs.net = [] ∧ t.cs.sht = [] ∧ (∀ d : Fin 4, (t.devs[d]).pcTrace = []) ∧
      t.cs.records.length = Nat.min 131072 (s.cs.records.length + s.cs.queue.length + 2817) ∧
      t.fv F.CS_SEQ_NEXT = (s.fv F.CS_SEQ_NEXT + s.cs.queue.length + 2817) % 2 ^ 32 ∧ Only [.cs, .regs, .free, .devs] s t))

/-! ## Registers, reset and what every command keeps -/

/-- R10: a counter stays at all ones once it is there; a hardware update of a field changes that field alone. -/
def Obligations.CountersSaturate : Prop :=
  ∀ (s : State) (f : Fld) (i n : Nat), f.lo + f.w ≤ 64 → i < 1024 →
    (s.finc f i n).fv f i = Nat.min (s.fv f i + n) (2 ^ f.w - 1) ∧
    (s.fv f i = 2 ^ f.w - 1 → (s.finc f i n).fv f i = 2 ^ f.w - 1) ∧
    (∀ k, k < f.lo ∨ f.lo + f.w ≤ k → ((s.finc f i n).reg f.reg i).getLsbD k = (s.reg f.reg i).getLsbD k) ∧
    Only [.regs] s (s.finc f i n) ∧ OnlyRegs [(f.reg, i)] s (s.finc f i n)

/-- R74, R302, R329, R330: the state after the power-on reset. Every register reads its reset value, the module is in Boot, every die SRAM holds
poison and DDR5 is undefined, no job stands, and each core starts at 0 with its boot ROM in seg7 and no other segment usable. -/
def Obligations.ResetState : Prop :=
  let s := State.reset
  (∀ r i, s.reg r i = regResetKey (regKey r i)) ∧ s.mode = 2 ∧ s.fv F.SYS_BOOT_STAGE = 1 ∧ s.on F.SYS_REDUND_REDUCED = false ∧ s.pending = [] ∧ s.devTime = 0 ∧
  (∀ c : Fin 17, 1 ≤ c.val → c.val ≠ 3 → ∀ i, s.cell c i = .poison) ∧ (∀ i, s.cell 3 i = .undef) ∧ s.job = none ∧ s.hst.sessions = [] ∧ s.fuses.lc = 0 ∧
  (∀ (c : Fin 8) (n : Fin 8), let k : Core := s.cores[c]
    let g : Seg := k.seg[n]
    k.pc = 0 ∧ k.resv = none ∧ k.ints = [] ∧
    (n.val = 7 → g.base = Config.bootRomBase c ∧ g.limit = Config.bootRomLimit c ∧ g.r = true ∧ g.x = true ∧ g.w = false) ∧
    (n.val ≠ 7 → g.base = 0 ∧ g.limit = 0 ∧ g.r = false ∧ g.w = false ∧ g.x = false)) ∧
  State.regsWf s = true ∧ Mems.wf s.mems = true ∧ Grains.wf s.grains = true

/-- The registers and the memories stay in their canonical form, whatever step is taken from a state that has it: equal contents are equal data (the
model's own form). -/
def Obligations.CanonicalFormKept : Prop :=
  ∀ s t : State, State.regsWf s = true → Mems.wf s.mems = true → step s = .next t → State.regsWf t = true ∧ Mems.wf t.mems = true
end

