-- ==== Sys2Proof/Laws/SMap.lean ====
section
/-!
SUPPORT. The laws of the sparse maps: a read after a write, and that every operation keeps the canonical form.
-/

namespace Sys2Proof.Machine

variable {α : Type} (d : Nat → α)

theorem smGet_put_same (m : SMap α) (k : Nat) (v : α) : smGet d (smPut m k v) k = v := by
  induction m with
  | nil => simp [smPut, smGet]
  | cons e m ih =>
    obtain ⟨j, w⟩ := e
    unfold smPut
    split
    · simp [smGet]
    · split
      · simp [smGet]
      · rename_i h1 h2
        have : ¬ j = k := fun h => h2 h.symm
        simp [smGet, this, ih]

theorem smGet_put_ne (m : SMap α) {k k' : Nat} (v : α) (h : k ≠ k') :
    smGet d (smPut m k v) k' = smGet d m k' := by
  induction m with
  | nil => simp [smPut, smGet, h]
  | cons e m ih =>
    obtain ⟨j, w⟩ := e
    unfold smPut
    split
    · simp [smGet, h]
    · split
      · rename_i h1 h2
        subst h2
        simp [smGet, h]
      · simp [smGet, ih]

theorem smGet_del_same (m : SMap α) (k : Nat) : smGet d (smDel m k) k = d k := by
  induction m with
  | nil => simp [smDel, smGet]
  | cons e m ih =>
    obtain ⟨j, w⟩ := e
    by_cases hj : j = k
    · subst hj; simpa [smDel] using ih
    · simp only [smDel, List.filter_cons, ne_eq, hj, not_false_eq_true, decide_true, if_true, smGet, if_false]
      simpa [smDel] using ih

theorem smGet_del_ne (m : SMap α) {k k' : Nat} (h : k ≠ k') : smGet d (smDel m k) k' = smGet d m k' := by
  induction m with
  | nil => simp [smDel, smGet]
  | cons e m ih =>
    obtain ⟨j, w⟩ := e
    by_cases hj : j = k
    · subst hj
      have : ¬ j = k' := h
      simp only [smDel, List.filter_cons, ne_eq, not_true_eq_false, decide_false, smGet, this, if_false]
      simpa [smDel] using ih
    · simp only [smDel, List.filter_cons, ne_eq, hj, not_false_eq_true, decide_true, if_true, smGet]
      split
      · rfl
      · simpa [smDel] using ih

variable [DecidableEq α]

/-- A read of the key just written gives the value written. -/
@[simp] theorem smGet_set_same (m : SMap α) (k : Nat) (v : α) : smGet d (smSet d m k v) k = v := by
  unfold smSet
  split
  · rename_i h; rw [smGet_del_same, h]
  · exact smGet_put_same d m k v

/-- A write leaves every other key alone. -/
theorem smGet_set_ne (m : SMap α) {k k' : Nat} (v : α) (h : k ≠ k') :
    smGet d (smSet d m k v) k' = smGet d m k' := by
  unfold smSet
  split
  · exact smGet_del_ne d m h
  · exact smGet_put_ne d m v h

omit [DecidableEq α] in
theorem smAscending_filter (m : SMap α) (p : Nat × α → Bool) (h : smAscending m = true) :
    smAscending (m.filter p) = true := by
  induction m with
  | nil => rfl
  | cons e m ih =>
    obtain ⟨j, w⟩ := e
    simp only [smAscending, Bool.and_eq_true, List.all_eq_true, decide_eq_true_eq] at h
    simp only [List.filter_cons]
    split
    · simp only [smAscending, Bool.and_eq_true, List.all_eq_true, decide_eq_true_eq]
      exact ⟨fun x hx => h.1 x (List.mem_filter.mp hx).1, ih h.2⟩
    · exact ih h.2

omit [DecidableEq α] in
theorem mem_smPut {m : SMap α} {k : Nat} {v : α} {e : Nat × α} (h : e ∈ smPut m k v) : e = (k, v) ∨ e ∈ m := by
  induction m with
  | nil => simpa [smPut] using h
  | cons x m ih =>
    obtain ⟨j, w⟩ := x
    unfold smPut at h
    split at h
    · simpa using h
    · split at h
      · rcases List.mem_cons.mp h with h | h
        · exact .inl h
        · exact .inr (List.mem_cons_of_mem _ h)
      · rcases List.mem_cons.mp h with h | h
        · exact .inr (h ▸ List.mem_cons_self ..)
        · rcases ih h with h | h
          · exact .inl h
          · exact .inr (List.mem_cons_of_mem _ h)

omit [DecidableEq α] in
theorem smAscending_put (m : SMap α) (k : Nat) (v : α) (h : smAscending m = true) :
    smAscending (smPut m k v) = true := by
  induction m with
  | nil => rfl
  | cons x m ih =>
    obtain ⟨j, w⟩ := x
    have h0 := h
    simp only [smAscending, Bool.and_eq_true, List.all_eq_true, decide_eq_true_eq] at h
    unfold smPut
    split
    · rename_i hk
      have key : ∀ x ∈ (j, w) :: m, k < x.1 := by
        intro x hx
        rcases List.mem_cons.mp hx with e | e
        · subst e; exact hk
        · exact lt_trans hk (h.1 x e)
      rw [smAscending]
      simp only [Bool.and_eq_true, List.all_eq_true, decide_eq_true_eq]
      exact ⟨key, h0⟩
    · split
      · rename_i h1 h2
        subst h2
        simp only [smAscending, Bool.and_eq_true, List.all_eq_true, decide_eq_true_eq]
        exact h
      · rename_i h1 h2
        have hj : j < k := by omega
        simp only [smAscending, Bool.and_eq_true, List.all_eq_true, decide_eq_true_eq]
        refine ⟨fun x hx => ?_, ih h.2⟩
        rcases mem_smPut hx with e | e
        · subst e; exact hj
        · exact h.1 x e

/-- A write keeps the canonical form. -/
theorem smWf_set (m : SMap α) (k : Nat) (v : α) (h : smWf d m = true) : smWf d (smSet d m k v) = true := by
  simp only [smWf, Bool.and_eq_true, List.all_eq_true, ne_eq, decide_not, Bool.not_eq_true',
    decide_eq_false_iff_not] at h ⊢
  unfold smSet
  split
  · exact ⟨smAscending_filter m _ h.1, fun x hx => h.2 x (List.mem_filter.mp hx).1⟩
  · rename_i hv
    refine ⟨smAscending_put m k v h.1, fun x hx => ?_⟩
    rcases mem_smPut hx with e | e
    · subst e; exact hv
    · exact h.2 x e

/-- A reset of part of a map keeps the canonical form. -/
theorem smWf_keep (m : SMap α) (p : Nat → Bool) (h : smWf d m = true) : smWf d (smKeep p m) = true := by
  simp only [smWf, Bool.and_eq_true, List.all_eq_true] at h ⊢
  exact ⟨smAscending_filter m _ h.1, fun x hx => h.2 x (List.mem_filter.mp hx).1⟩

end Sys2Proof.Machine
end

