-- ==== Sys2Proof/Laws/State.lean ====
section
/-!
SUPPORT. What each update of the state leaves alone: one lemma for each field of State and each shared update.
-/

namespace Sys2Proof.Machine

/-! ## setReg -/

@[simp] theorem State.setReg_pending (s : State) (r : RegName) (v : DWord) (i : Nat) : (s.setReg r v i).pending = s.pending := rfl
@[simp] theorem State.setReg_free (s : State) (r : RegName) (v : DWord) (i : Nat) : (s.setReg r v i).free = s.free := rfl
@[simp] theorem State.setReg_out (s : State) (r : RegName) (v : DWord) (i : Nat) : (s.setReg r v i).out = s.out := rfl
@[simp] theorem State.setReg_devTime (s : State) (r : RegName) (v : DWord) (i : Nat) : (s.setReg r v i).devTime = s.devTime := rfl
@[simp] theorem State.setReg_rootTicks (s : State) (r : RegName) (v : DWord) (i : Nat) : (s.setReg r v i).rootTicks = s.rootTicks := rfl
@[simp] theorem State.setReg_latches (s : State) (r : RegName) (v : DWord) (i : Nat) : (s.setReg r v i).latches = s.latches := rfl
@[simp] theorem State.setReg_heldPush (s : State) (r : RegName) (v : DWord) (i : Nat) : (s.setReg r v i).heldPush = s.heldPush := rfl
@[simp] theorem State.setReg_cores (s : State) (r : RegName) (v : DWord) (i : Nat) : (s.setReg r v i).cores = s.cores := rfl
@[simp] theorem State.setReg_devs (s : State) (r : RegName) (v : DWord) (i : Nat) : (s.setReg r v i).devs = s.devs := rfl
@[simp] theorem State.setReg_grains (s : State) (r : RegName) (v : DWord) (i : Nat) : (s.setReg r v i).grains = s.grains := rfl
@[simp] theorem State.setReg_mems (s : State) (r : RegName) (v : DWord) (i : Nat) : (s.setReg r v i).mems = s.mems := rfl
@[simp] theorem State.setReg_enl (s : State) (r : RegName) (v : DWord) (i : Nat) : (s.setReg r v i).enl = s.enl := rfl
@[simp] theorem State.setReg_job (s : State) (r : RegName) (v : DWord) (i : Nat) : (s.setReg r v i).job = s.job := rfl
@[simp] theorem State.setReg_sht (s : State) (r : RegName) (v : DWord) (i : Nat) : (s.setReg r v i).sht = s.sht := rfl
@[simp] theorem State.setReg_lanes (s : State) (r : RegName) (v : DWord) (i : Nat) : (s.setReg r v i).lanes = s.lanes := rfl
@[simp] theorem State.setReg_fab (s : State) (r : RegName) (v : DWord) (i : Nat) : (s.setReg r v i).fab = s.fab := rfl
@[simp] theorem State.setReg_handover (s : State) (r : RegName) (v : DWord) (i : Nat) : (s.setReg r v i).handover = s.handover := rfl
@[simp] theorem State.setReg_cam (s : State) (r : RegName) (v : DWord) (i : Nat) : (s.setReg r v i).cam = s.cam := rfl
@[simp] theorem State.setReg_store (s : State) (r : RegName) (v : DWord) (i : Nat) : (s.setReg r v i).store = s.store := rfl
@[simp] theorem State.setReg_hst (s : State) (r : RegName) (v : DWord) (i : Nat) : (s.setReg r v i).hst = s.hst := rfl
@[simp] theorem State.setReg_net (s : State) (r : RegName) (v : DWord) (i : Nat) : (s.setReg r v i).net = s.net := rfl
@[simp] theorem State.setReg_pwr (s : State) (r : RegName) (v : DWord) (i : Nat) : (s.setReg r v i).pwr = s.pwr := rfl
@[simp] theorem State.setReg_fuses (s : State) (r : RegName) (v : DWord) (i : Nat) : (s.setReg r v i).fuses = s.fuses := rfl
@[simp] theorem State.setReg_sec (s : State) (r : RegName) (v : DWord) (i : Nat) : (s.setReg r v i).sec = s.sec := rfl
@[simp] theorem State.setReg_cs (s : State) (r : RegName) (v : DWord) (i : Nat) : (s.setReg r v i).cs = s.cs := rfl

/-! ## fset -/

@[simp] theorem State.fset_pending (s : State) (f : Fld) (v i : Nat) : (s.fset f v i).pending = s.pending := rfl
@[simp] theorem State.fset_free (s : State) (f : Fld) (v i : Nat) : (s.fset f v i).free = s.free := rfl
@[simp] theorem State.fset_out (s : State) (f : Fld) (v i : Nat) : (s.fset f v i).out = s.out := rfl
@[simp] theorem State.fset_devTime (s : State) (f : Fld) (v i : Nat) : (s.fset f v i).devTime = s.devTime := rfl
@[simp] theorem State.fset_rootTicks (s : State) (f : Fld) (v i : Nat) : (s.fset f v i).rootTicks = s.rootTicks := rfl
@[simp] theorem State.fset_latches (s : State) (f : Fld) (v i : Nat) : (s.fset f v i).latches = s.latches := rfl
@[simp] theorem State.fset_heldPush (s : State) (f : Fld) (v i : Nat) : (s.fset f v i).heldPush = s.heldPush := rfl
@[simp] theorem State.fset_cores (s : State) (f : Fld) (v i : Nat) : (s.fset f v i).cores = s.cores := rfl
@[simp] theorem State.fset_devs (s : State) (f : Fld) (v i : Nat) : (s.fset f v i).devs = s.devs := rfl
@[simp] theorem State.fset_grains (s : State) (f : Fld) (v i : Nat) : (s.fset f v i).grains = s.grains := rfl
@[simp] theorem State.fset_mems (s : State) (f : Fld) (v i : Nat) : (s.fset f v i).mems = s.mems := rfl
@[simp] theorem State.fset_enl (s : State) (f : Fld) (v i : Nat) : (s.fset f v i).enl = s.enl := rfl
@[simp] theorem State.fset_job (s : State) (f : Fld) (v i : Nat) : (s.fset f v i).job = s.job := rfl
@[simp] theorem State.fset_sht (s : State) (f : Fld) (v i : Nat) : (s.fset f v i).sht = s.sht := rfl
@[simp] theorem State.fset_lanes (s : State) (f : Fld) (v i : Nat) : (s.fset f v i).lanes = s.lanes := rfl
@[simp] theorem State.fset_fab (s : State) (f : Fld) (v i : Nat) : (s.fset f v i).fab = s.fab := rfl
@[simp] theorem State.fset_handover (s : State) (f : Fld) (v i : Nat) : (s.fset f v i).handover = s.handover := rfl
@[simp] theorem State.fset_cam (s : State) (f : Fld) (v i : Nat) : (s.fset f v i).cam = s.cam := rfl
@[simp] theorem State.fset_store (s : State) (f : Fld) (v i : Nat) : (s.fset f v i).store = s.store := rfl
@[simp] theorem State.fset_hst (s : State) (f : Fld) (v i : Nat) : (s.fset f v i).hst = s.hst := rfl
@[simp] theorem State.fset_net (s : State) (f : Fld) (v i : Nat) : (s.fset f v i).net = s.net := rfl
@[simp] theorem State.fset_pwr (s : State) (f : Fld) (v i : Nat) : (s.fset f v i).pwr = s.pwr := rfl
@[simp] theorem State.fset_fuses (s : State) (f : Fld) (v i : Nat) : (s.fset f v i).fuses = s.fuses := rfl
@[simp] theorem State.fset_sec (s : State) (f : Fld) (v i : Nat) : (s.fset f v i).sec = s.sec := rfl
@[simp] theorem State.fset_cs (s : State) (f : Fld) (v i : Nat) : (s.fset f v i).cs = s.cs := rfl

/-! ## finc -/

@[simp] theorem State.finc_pending (s : State) (f : Fld) (i n : Nat) : (s.finc f i n).pending = s.pending := rfl
@[simp] theorem State.finc_free (s : State) (f : Fld) (i n : Nat) : (s.finc f i n).free = s.free := rfl
@[simp] theorem State.finc_out (s : State) (f : Fld) (i n : Nat) : (s.finc f i n).out = s.out := rfl
@[simp] theorem State.finc_devTime (s : State) (f : Fld) (i n : Nat) : (s.finc f i n).devTime = s.devTime := rfl
@[simp] theorem State.finc_rootTicks (s : State) (f : Fld) (i n : Nat) : (s.finc f i n).rootTicks = s.rootTicks := rfl
@[simp] theorem State.finc_latches (s : State) (f : Fld) (i n : Nat) : (s.finc f i n).latches = s.latches := rfl
@[simp] theorem State.finc_heldPush (s : State) (f : Fld) (i n : Nat) : (s.finc f i n).heldPush = s.heldPush := rfl
@[simp] theorem State.finc_cores (s : State) (f : Fld) (i n : Nat) : (s.finc f i n).cores = s.cores := rfl
@[simp] theorem State.finc_devs (s : State) (f : Fld) (i n : Nat) : (s.finc f i n).devs = s.devs := rfl
@[simp] theorem State.finc_grains (s : State) (f : Fld) (i n : Nat) : (s.finc f i n).grains = s.grains := rfl
@[simp] theorem State.finc_mems (s : State) (f : Fld) (i n : Nat) : (s.finc f i n).mems = s.mems := rfl
@[simp] theorem State.finc_enl (s : State) (f : Fld) (i n : Nat) : (s.finc f i n).enl = s.enl := rfl
@[simp] theorem State.finc_job (s : State) (f : Fld) (i n : Nat) : (s.finc f i n).job = s.job := rfl
@[simp] theorem State.finc_sht (s : State) (f : Fld) (i n : Nat) : (s.finc f i n).sht = s.sht := rfl
@[simp] theorem State.finc_lanes (s : State) (f : Fld) (i n : Nat) : (s.finc f i n).lanes = s.lanes := rfl
@[simp] theorem State.finc_fab (s : State) (f : Fld) (i n : Nat) : (s.finc f i n).fab = s.fab := rfl
@[simp] theorem State.finc_handover (s : State) (f : Fld) (i n : Nat) : (s.finc f i n).handover = s.handover := rfl
@[simp] theorem State.finc_cam (s : State) (f : Fld) (i n : Nat) : (s.finc f i n).cam = s.cam := rfl
@[simp] theorem State.finc_store (s : State) (f : Fld) (i n : Nat) : (s.finc f i n).store = s.store := rfl
@[simp] theorem State.finc_hst (s : State) (f : Fld) (i n : Nat) : (s.finc f i n).hst = s.hst := rfl
@[simp] theorem State.finc_net (s : State) (f : Fld) (i n : Nat) : (s.finc f i n).net = s.net := rfl
@[simp] theorem State.finc_pwr (s : State) (f : Fld) (i n : Nat) : (s.finc f i n).pwr = s.pwr := rfl
@[simp] theorem State.finc_fuses (s : State) (f : Fld) (i n : Nat) : (s.finc f i n).fuses = s.fuses := rfl
@[simp] theorem State.finc_sec (s : State) (f : Fld) (i n : Nat) : (s.finc f i n).sec = s.sec := rfl
@[simp] theorem State.finc_cs (s : State) (f : Fld) (i n : Nat) : (s.finc f i n).cs = s.cs := rfl

/-! ## badAccess -/

@[simp] theorem State.badAccess_pending (s : State) : (s.badAccess).pending = s.pending := rfl
@[simp] theorem State.badAccess_free (s : State) : (s.badAccess).free = s.free := rfl
@[simp] theorem State.badAccess_out (s : State) : (s.badAccess).out = s.out := rfl
@[simp] theorem State.badAccess_devTime (s : State) : (s.badAccess).devTime = s.devTime := rfl
@[simp] theorem State.badAccess_rootTicks (s : State) : (s.badAccess).rootTicks = s.rootTicks := rfl
@[simp] theorem State.badAccess_latches (s : State) : (s.badAccess).latches = s.latches := rfl
@[simp] theorem State.badAccess_heldPush (s : State) : (s.badAccess).heldPush = s.heldPush := rfl
@[simp] theorem State.badAccess_cores (s : State) : (s.badAccess).cores = s.cores := rfl
@[simp] theorem State.badAccess_devs (s : State) : (s.badAccess).devs = s.devs := rfl
@[simp] theorem State.badAccess_grains (s : State) : (s.badAccess).grains = s.grains := rfl
@[simp] theorem State.badAccess_mems (s : State) : (s.badAccess).mems = s.mems := rfl
@[simp] theorem State.badAccess_enl (s : State) : (s.badAccess).enl = s.enl := rfl
@[simp] theorem State.badAccess_job (s : State) : (s.badAccess).job = s.job := rfl
@[simp] theorem State.badAccess_sht (s : State) : (s.badAccess).sht = s.sht := rfl
@[simp] theorem State.badAccess_lanes (s : State) : (s.badAccess).lanes = s.lanes := rfl
@[simp] theorem State.badAccess_fab (s : State) : (s.badAccess).fab = s.fab := rfl
@[simp] theorem State.badAccess_handover (s : State) : (s.badAccess).handover = s.handover := rfl
@[simp] theorem State.badAccess_cam (s : State) : (s.badAccess).cam = s.cam := rfl
@[simp] theorem State.badAccess_store (s : State) : (s.badAccess).store = s.store := rfl
@[simp] theorem State.badAccess_hst (s : State) : (s.badAccess).hst = s.hst := rfl
@[simp] theorem State.badAccess_net (s : State) : (s.badAccess).net = s.net := rfl
@[simp] theorem State.badAccess_pwr (s : State) : (s.badAccess).pwr = s.pwr := rfl
@[simp] theorem State.badAccess_fuses (s : State) : (s.badAccess).fuses = s.fuses := rfl
@[simp] theorem State.badAccess_sec (s : State) : (s.badAccess).sec = s.sec := rfl
@[simp] theorem State.badAccess_cs (s : State) : (s.badAccess).cs = s.cs := rfl

/-! ## used -/

@[simp] theorem State.used_pending (s : State) : (s.used).pending = s.pending := rfl
@[simp] theorem State.used_out (s : State) : (s.used).out = s.out := rfl
@[simp] theorem State.used_devTime (s : State) : (s.used).devTime = s.devTime := rfl
@[simp] theorem State.used_rootTicks (s : State) : (s.used).rootTicks = s.rootTicks := rfl
@[simp] theorem State.used_regs (s : State) : (s.used).regs = s.regs := rfl
@[simp] theorem State.used_latches (s : State) : (s.used).latches = s.latches := rfl
@[simp] theorem State.used_heldPush (s : State) : (s.used).heldPush = s.heldPush := rfl
@[simp] theorem State.used_cores (s : State) : (s.used).cores = s.cores := rfl
@[simp] theorem State.used_devs (s : State) : (s.used).devs = s.devs := rfl
@[simp] theorem State.used_grains (s : State) : (s.used).grains = s.grains := rfl
@[simp] theorem State.used_mems (s : State) : (s.used).mems = s.mems := rfl
@[simp] theorem State.used_enl (s : State) : (s.used).enl = s.enl := rfl
@[simp] theorem State.used_job (s : State) : (s.used).job = s.job := rfl
@[simp] theorem State.used_sht (s : State) : (s.used).sht = s.sht := rfl
@[simp] theorem State.used_lanes (s : State) : (s.used).lanes = s.lanes := rfl
@[simp] theorem State.used_fab (s : State) : (s.used).fab = s.fab := rfl
@[simp] theorem State.used_handover (s : State) : (s.used).handover = s.handover := rfl
@[simp] theorem State.used_cam (s : State) : (s.used).cam = s.cam := rfl
@[simp] theorem State.used_store (s : State) : (s.used).store = s.store := rfl
@[simp] theorem State.used_hst (s : State) : (s.used).hst = s.hst := rfl
@[simp] theorem State.used_net (s : State) : (s.used).net = s.net := rfl
@[simp] theorem State.used_pwr (s : State) : (s.used).pwr = s.pwr := rfl
@[simp] theorem State.used_fuses (s : State) : (s.used).fuses = s.fuses := rfl
@[simp] theorem State.used_sec (s : State) : (s.used).sec = s.sec := rfl
@[simp] theorem State.used_cs (s : State) : (s.used).cs = s.cs := rfl

/-! ## modCore -/

@[simp] theorem State.modCore_pending (s : State) (c : Fin 8) (f : Core → Core) : (s.modCore c f).pending = s.pending := rfl
@[simp] theorem State.modCore_free (s : State) (c : Fin 8) (f : Core → Core) : (s.modCore c f).free = s.free := rfl
@[simp] theorem State.modCore_out (s : State) (c : Fin 8) (f : Core → Core) : (s.modCore c f).out = s.out := rfl
@[simp] theorem State.modCore_devTime (s : State) (c : Fin 8) (f : Core → Core) : (s.modCore c f).devTime = s.devTime := rfl
@[simp] theorem State.modCore_rootTicks (s : State) (c : Fin 8) (f : Core → Core) : (s.modCore c f).rootTicks = s.rootTicks := rfl
@[simp] theorem State.modCore_regs (s : State) (c : Fin 8) (f : Core → Core) : (s.modCore c f).regs = s.regs := rfl
@[simp] theorem State.modCore_latches (s : State) (c : Fin 8) (f : Core → Core) : (s.modCore c f).latches = s.latches := rfl
@[simp] theorem State.modCore_heldPush (s : State) (c : Fin 8) (f : Core → Core) : (s.modCore c f).heldPush = s.heldPush := rfl
@[simp] theorem State.modCore_devs (s : State) (c : Fin 8) (f : Core → Core) : (s.modCore c f).devs = s.devs := rfl
@[simp] theorem State.modCore_grains (s : State) (c : Fin 8) (f : Core → Core) : (s.modCore c f).grains = s.grains := rfl
@[simp] theorem State.modCore_mems (s : State) (c : Fin 8) (f : Core → Core) : (s.modCore c f).mems = s.mems := rfl
@[simp] theorem State.modCore_enl (s : State) (c : Fin 8) (f : Core → Core) : (s.modCore c f).enl = s.enl := rfl
@[simp] theorem State.modCore_job (s : State) (c : Fin 8) (f : Core → Core) : (s.modCore c f).job = s.job := rfl
@[simp] theorem State.modCore_sht (s : State) (c : Fin 8) (f : Core → Core) : (s.modCore c f).sht = s.sht := rfl
@[simp] theorem State.modCore_lanes (s : State) (c : Fin 8) (f : Core → Core) : (s.modCore c f).lanes = s.lanes := rfl
@[simp] theorem State.modCore_fab (s : State) (c : Fin 8) (f : Core → Core) : (s.modCore c f).fab = s.fab := rfl
@[simp] theorem State.modCore_handover (s : State) (c : Fin 8) (f : Core → Core) : (s.modCore c f).handover = s.handover := rfl
@[simp] theorem State.modCore_cam (s : State) (c : Fin 8) (f : Core → Core) : (s.modCore c f).cam = s.cam := rfl
@[simp] theorem State.modCore_store (s : State) (c : Fin 8) (f : Core → Core) : (s.modCore c f).store = s.store := rfl
@[simp] theorem State.modCore_hst (s : State) (c : Fin 8) (f : Core → Core) : (s.modCore c f).hst = s.hst := rfl
@[simp] theorem State.modCore_net (s : State) (c : Fin 8) (f : Core → Core) : (s.modCore c f).net = s.net := rfl
@[simp] theorem State.modCore_pwr (s : State) (c : Fin 8) (f : Core → Core) : (s.modCore c f).pwr = s.pwr := rfl
@[simp] theorem State.modCore_fuses (s : State) (c : Fin 8) (f : Core → Core) : (s.modCore c f).fuses = s.fuses := rfl
@[simp] theorem State.modCore_sec (s : State) (c : Fin 8) (f : Core → Core) : (s.modCore c f).sec = s.sec := rfl
@[simp] theorem State.modCore_cs (s : State) (c : Fin 8) (f : Core → Core) : (s.modCore c f).cs = s.cs := rfl

/-! ## modDev -/

@[simp] theorem State.modDev_pending (s : State) (d : Fin 4) (f : Dev → Dev) : (s.modDev d f).pending = s.pending := rfl
@[simp] theorem State.modDev_free (s : State) (d : Fin 4) (f : Dev → Dev) : (s.modDev d f).free = s.free := rfl
@[simp] theorem State.modDev_out (s : State) (d : Fin 4) (f : Dev → Dev) : (s.modDev d f).out = s.out := rfl
@[simp] theorem State.modDev_devTime (s : State) (d : Fin 4) (f : Dev → Dev) : (s.modDev d f).devTime = s.devTime := rfl
@[simp] theorem State.modDev_rootTicks (s : State) (d : Fin 4) (f : Dev → Dev) : (s.modDev d f).rootTicks = s.rootTicks := rfl
@[simp] theorem State.modDev_regs (s : State) (d : Fin 4) (f : Dev → Dev) : (s.modDev d f).regs = s.regs := rfl
@[simp] theorem State.modDev_latches (s : State) (d : Fin 4) (f : Dev → Dev) : (s.modDev d f).latches = s.latches := rfl
@[simp] theorem State.modDev_heldPush (s : State) (d : Fin 4) (f : Dev → Dev) : (s.modDev d f).heldPush = s.heldPush := rfl
@[simp] theorem State.modDev_cores (s : State) (d : Fin 4) (f : Dev → Dev) : (s.modDev d f).cores = s.cores := rfl
@[simp] theorem State.modDev_grains (s : State) (d : Fin 4) (f : Dev → Dev) : (s.modDev d f).grains = s.grains := rfl
@[simp] theorem State.modDev_mems (s : State) (d : Fin 4) (f : Dev → Dev) : (s.modDev d f).mems = s.mems := rfl
@[simp] theorem State.modDev_enl (s : State) (d : Fin 4) (f : Dev → Dev) : (s.modDev d f).enl = s.enl := rfl
@[simp] theorem State.modDev_job (s : State) (d : Fin 4) (f : Dev → Dev) : (s.modDev d f).job = s.job := rfl
@[simp] theorem State.modDev_sht (s : State) (d : Fin 4) (f : Dev → Dev) : (s.modDev d f).sht = s.sht := rfl
@[simp] theorem State.modDev_lanes (s : State) (d : Fin 4) (f : Dev → Dev) : (s.modDev d f).lanes = s.lanes := rfl
@[simp] theorem State.modDev_fab (s : State) (d : Fin 4) (f : Dev → Dev) : (s.modDev d f).fab = s.fab := rfl
@[simp] theorem State.modDev_handover (s : State) (d : Fin 4) (f : Dev → Dev) : (s.modDev d f).handover = s.handover := rfl
@[simp] theorem State.modDev_cam (s : State) (d : Fin 4) (f : Dev → Dev) : (s.modDev d f).cam = s.cam := rfl
@[simp] theorem State.modDev_store (s : State) (d : Fin 4) (f : Dev → Dev) : (s.modDev d f).store = s.store := rfl
@[simp] theorem State.modDev_hst (s : State) (d : Fin 4) (f : Dev → Dev) : (s.modDev d f).hst = s.hst := rfl
@[simp] theorem State.modDev_net (s : State) (d : Fin 4) (f : Dev → Dev) : (s.modDev d f).net = s.net := rfl
@[simp] theorem State.modDev_pwr (s : State) (d : Fin 4) (f : Dev → Dev) : (s.modDev d f).pwr = s.pwr := rfl
@[simp] theorem State.modDev_fuses (s : State) (d : Fin 4) (f : Dev → Dev) : (s.modDev d f).fuses = s.fuses := rfl
@[simp] theorem State.modDev_sec (s : State) (d : Fin 4) (f : Dev → Dev) : (s.modDev d f).sec = s.sec := rfl
@[simp] theorem State.modDev_cs (s : State) (d : Fin 4) (f : Dev → Dev) : (s.modDev d f).cs = s.cs := rfl

/-! ## modEnl -/

@[simp] theorem State.modEnl_pending (s : State) (p : Fin 4) (f : Enl → Enl) : (s.modEnl p f).pending = s.pending := rfl
@[simp] theorem State.modEnl_free (s : State) (p : Fin 4) (f : Enl → Enl) : (s.modEnl p f).free = s.free := rfl
@[simp] theorem State.modEnl_out (s : State) (p : Fin 4) (f : Enl → Enl) : (s.modEnl p f).out = s.out := rfl
@[simp] theorem State.modEnl_devTime (s : State) (p : Fin 4) (f : Enl → Enl) : (s.modEnl p f).devTime = s.devTime := rfl
@[simp] theorem State.modEnl_rootTicks (s : State) (p : Fin 4) (f : Enl → Enl) : (s.modEnl p f).rootTicks = s.rootTicks := rfl
@[simp] theorem State.modEnl_regs (s : State) (p : Fin 4) (f : Enl → Enl) : (s.modEnl p f).regs = s.regs := rfl
@[simp] theorem State.modEnl_latches (s : State) (p : Fin 4) (f : Enl → Enl) : (s.modEnl p f).latches = s.latches := rfl
@[simp] theorem State.modEnl_heldPush (s : State) (p : Fin 4) (f : Enl → Enl) : (s.modEnl p f).heldPush = s.heldPush := rfl
@[simp] theorem State.modEnl_cores (s : State) (p : Fin 4) (f : Enl → Enl) : (s.modEnl p f).cores = s.cores := rfl
@[simp] theorem State.modEnl_devs (s : State) (p : Fin 4) (f : Enl → Enl) : (s.modEnl p f).devs = s.devs := rfl
@[simp] theorem State.modEnl_grains (s : State) (p : Fin 4) (f : Enl → Enl) : (s.modEnl p f).grains = s.grains := rfl
@[simp] theorem State.modEnl_mems (s : State) (p : Fin 4) (f : Enl → Enl) : (s.modEnl p f).mems = s.mems := rfl
@[simp] theorem State.modEnl_job (s : State) (p : Fin 4) (f : Enl → Enl) : (s.modEnl p f).job = s.job := rfl
@[simp] theorem State.modEnl_sht (s : State) (p : Fin 4) (f : Enl → Enl) : (s.modEnl p f).sht = s.sht := rfl
@[simp] theorem State.modEnl_lanes (s : State) (p : Fin 4) (f : Enl → Enl) : (s.modEnl p f).lanes = s.lanes := rfl
@[simp] theorem State.modEnl_fab (s : State) (p : Fin 4) (f : Enl → Enl) : (s.modEnl p f).fab = s.fab := rfl
@[simp] theorem State.modEnl_handover (s : State) (p : Fin 4) (f : Enl → Enl) : (s.modEnl p f).handover = s.handover := rfl
@[simp] theorem State.modEnl_cam (s : State) (p : Fin 4) (f : Enl → Enl) : (s.modEnl p f).cam = s.cam := rfl
@[simp] theorem State.modEnl_store (s : State) (p : Fin 4) (f : Enl → Enl) : (s.modEnl p f).store = s.store := rfl
@[simp] theorem State.modEnl_hst (s : State) (p : Fin 4) (f : Enl → Enl) : (s.modEnl p f).hst = s.hst := rfl
@[simp] theorem State.modEnl_net (s : State) (p : Fin 4) (f : Enl → Enl) : (s.modEnl p f).net = s.net := rfl
@[simp] theorem State.modEnl_pwr (s : State) (p : Fin 4) (f : Enl → Enl) : (s.modEnl p f).pwr = s.pwr := rfl
@[simp] theorem State.modEnl_fuses (s : State) (p : Fin 4) (f : Enl → Enl) : (s.modEnl p f).fuses = s.fuses := rfl
@[simp] theorem State.modEnl_sec (s : State) (p : Fin 4) (f : Enl → Enl) : (s.modEnl p f).sec = s.sec := rfl
@[simp] theorem State.modEnl_cs (s : State) (p : Fin 4) (f : Enl → Enl) : (s.modEnl p f).cs = s.cs := rfl

/-! ## modLane -/

@[simp] theorem State.modLane_pending (s : State) (l : Fin 16) (f : Lane → Lane) : (s.modLane l f).pending = s.pending := rfl
@[simp] theorem State.modLane_free (s : State) (l : Fin 16) (f : Lane → Lane) : (s.modLane l f).free = s.free := rfl
@[simp] theorem State.modLane_out (s : State) (l : Fin 16) (f : Lane → Lane) : (s.modLane l f).out = s.out := rfl
@[simp] theorem State.modLane_devTime (s : State) (l : Fin 16) (f : Lane → Lane) : (s.modLane l f).devTime = s.devTime := rfl
@[simp] theorem State.modLane_rootTicks (s : State) (l : Fin 16) (f : Lane → Lane) : (s.modLane l f).rootTicks = s.rootTicks := rfl
@[simp] theorem State.modLane_regs (s : State) (l : Fin 16) (f : Lane → Lane) : (s.modLane l f).regs = s.regs := rfl
@[simp] theorem State.modLane_latches (s : State) (l : Fin 16) (f : Lane → Lane) : (s.modLane l f).latches = s.latches := rfl
@[simp] theorem State.modLane_heldPush (s : State) (l : Fin 16) (f : Lane → Lane) : (s.modLane l f).heldPush = s.heldPush := rfl
@[simp] theorem State.modLane_cores (s : State) (l : Fin 16) (f : Lane → Lane) : (s.modLane l f).cores = s.cores := rfl
@[simp] theorem State.modLane_devs (s : State) (l : Fin 16) (f : Lane → Lane) : (s.modLane l f).devs = s.devs := rfl
@[simp] theorem State.modLane_grains (s : State) (l : Fin 16) (f : Lane → Lane) : (s.modLane l f).grains = s.grains := rfl
@[simp] theorem State.modLane_mems (s : State) (l : Fin 16) (f : Lane → Lane) : (s.modLane l f).mems = s.mems := rfl
@[simp] theorem State.modLane_enl (s : State) (l : Fin 16) (f : Lane → Lane) : (s.modLane l f).enl = s.enl := rfl
@[simp] theorem State.modLane_job (s : State) (l : Fin 16) (f : Lane → Lane) : (s.modLane l f).job = s.job := rfl
@[simp] theorem State.modLane_sht (s : State) (l : Fin 16) (f : Lane → Lane) : (s.modLane l f).sht = s.sht := rfl
@[simp] theorem State.modLane_fab (s : State) (l : Fin 16) (f : Lane → Lane) : (s.modLane l f).fab = s.fab := rfl
@[simp] theorem State.modLane_handover (s : State) (l : Fin 16) (f : Lane → Lane) : (s.modLane l f).handover = s.handover := rfl
@[simp] theorem State.modLane_cam (s : State) (l : Fin 16) (f : Lane → Lane) : (s.modLane l f).cam = s.cam := rfl
@[simp] theorem State.modLane_store (s : State) (l : Fin 16) (f : Lane → Lane) : (s.modLane l f).store = s.store := rfl
@[simp] theorem State.modLane_hst (s : State) (l : Fin 16) (f : Lane → Lane) : (s.modLane l f).hst = s.hst := rfl
@[simp] theorem State.modLane_net (s : State) (l : Fin 16) (f : Lane → Lane) : (s.modLane l f).net = s.net := rfl
@[simp] theorem State.modLane_pwr (s : State) (l : Fin 16) (f : Lane → Lane) : (s.modLane l f).pwr = s.pwr := rfl
@[simp] theorem State.modLane_fuses (s : State) (l : Fin 16) (f : Lane → Lane) : (s.modLane l f).fuses = s.fuses := rfl
@[simp] theorem State.modLane_sec (s : State) (l : Fin 16) (f : Lane → Lane) : (s.modLane l f).sec = s.sec := rfl
@[simp] theorem State.modLane_cs (s : State) (l : Fin 16) (f : Lane → Lane) : (s.modLane l f).cs = s.cs := rfl

/-! ## modFab -/

@[simp] theorem State.modFab_pending (s : State) (r : Fin 16) (f : Region → Region) : (s.modFab r f).pending = s.pending := rfl
@[simp] theorem State.modFab_free (s : State) (r : Fin 16) (f : Region → Region) : (s.modFab r f).free = s.free := rfl
@[simp] theorem State.modFab_out (s : State) (r : Fin 16) (f : Region → Region) : (s.modFab r f).out = s.out := rfl
@[simp] theorem State.modFab_devTime (s : State) (r : Fin 16) (f : Region → Region) : (s.modFab r f).devTime = s.devTime := rfl
@[simp] theorem State.modFab_rootTicks (s : State) (r : Fin 16) (f : Region → Region) : (s.modFab r f).rootTicks = s.rootTicks := rfl
@[simp] theorem State.modFab_regs (s : State) (r : Fin 16) (f : Region → Region) : (s.modFab r f).regs = s.regs := rfl
@[simp] theorem State.modFab_latches (s : State) (r : Fin 16) (f : Region → Region) : (s.modFab r f).latches = s.latches := rfl
@[simp] theorem State.modFab_heldPush (s : State) (r : Fin 16) (f : Region → Region) : (s.modFab r f).heldPush = s.heldPush := rfl
@[simp] theorem State.modFab_cores (s : State) (r : Fin 16) (f : Region → Region) : (s.modFab r f).cores = s.cores := rfl
@[simp] theorem State.modFab_devs (s : State) (r : Fin 16) (f : Region → Region) : (s.modFab r f).devs = s.devs := rfl
@[simp] theorem State.modFab_grains (s : State) (r : Fin 16) (f : Region → Region) : (s.modFab r f).grains = s.grains := rfl
@[simp] theorem State.modFab_mems (s : State) (r : Fin 16) (f : Region → Region) : (s.modFab r f).mems = s.mems := rfl
@[simp] theorem State.modFab_enl (s : State) (r : Fin 16) (f : Region → Region) : (s.modFab r f).enl = s.enl := rfl
@[simp] theorem State.modFab_job (s : State) (r : Fin 16) (f : Region → Region) : (s.modFab r f).job = s.job := rfl
@[simp] theorem State.modFab_sht (s : State) (r : Fin 16) (f : Region → Region) : (s.modFab r f).sht = s.sht := rfl
@[simp] theorem State.modFab_lanes (s : State) (r : Fin 16) (f : Region → Region) : (s.modFab r f).lanes = s.lanes := rfl
@[simp] theorem State.modFab_handover (s : State) (r : Fin 16) (f : Region → Region) : (s.modFab r f).handover = s.handover := rfl
@[simp] theorem State.modFab_cam (s : State) (r : Fin 16) (f : Region → Region) : (s.modFab r f).cam = s.cam := rfl
@[simp] theorem State.modFab_store (s : State) (r : Fin 16) (f : Region → Region) : (s.modFab r f).store = s.store := rfl
@[simp] theorem State.modFab_hst (s : State) (r : Fin 16) (f : Region → Region) : (s.modFab r f).hst = s.hst := rfl
@[simp] theorem State.modFab_net (s : State) (r : Fin 16) (f : Region → Region) : (s.modFab r f).net = s.net := rfl
@[simp] theorem State.modFab_pwr (s : State) (r : Fin 16) (f : Region → Region) : (s.modFab r f).pwr = s.pwr := rfl
@[simp] theorem State.modFab_fuses (s : State) (r : Fin 16) (f : Region → Region) : (s.modFab r f).fuses = s.fuses := rfl
@[simp] theorem State.modFab_sec (s : State) (r : Fin 16) (f : Region → Region) : (s.modFab r f).sec = s.sec := rfl
@[simp] theorem State.modFab_cs (s : State) (r : Fin 16) (f : Region → Region) : (s.modFab r f).cs = s.cs := rfl

/-! ## modNi -/

@[simp] theorem State.modNi_pending (s : State) (n : Fin 36) (f : Ni → Ni) : (s.modNi n f).pending = s.pending := rfl
@[simp] theorem State.modNi_free (s : State) (n : Fin 36) (f : Ni → Ni) : (s.modNi n f).free = s.free := rfl
@[simp] theorem State.modNi_out (s : State) (n : Fin 36) (f : Ni → Ni) : (s.modNi n f).out = s.out := rfl
@[simp] theorem State.modNi_devTime (s : State) (n : Fin 36) (f : Ni → Ni) : (s.modNi n f).devTime = s.devTime := rfl
@[simp] theorem State.modNi_rootTicks (s : State) (n : Fin 36) (f : Ni → Ni) : (s.modNi n f).rootTicks = s.rootTicks := rfl
@[simp] theorem State.modNi_regs (s : State) (n : Fin 36) (f : Ni → Ni) : (s.modNi n f).regs = s.regs := rfl
@[simp] theorem State.modNi_latches (s : State) (n : Fin 36) (f : Ni → Ni) : (s.modNi n f).latches = s.latches := rfl
@[simp] theorem State.modNi_heldPush (s : State) (n : Fin 36) (f : Ni → Ni) : (s.modNi n f).heldPush = s.heldPush := rfl
@[simp] theorem State.modNi_cores (s : State) (n : Fin 36) (f : Ni → Ni) : (s.modNi n f).cores = s.cores := rfl
@[simp] theorem State.modNi_devs (s : State) (n : Fin 36) (f : Ni → Ni) : (s.modNi n f).devs = s.devs := rfl
@[simp] theorem State.modNi_grains (s : State) (n : Fin 36) (f : Ni → Ni) : (s.modNi n f).grains = s.grains := rfl
@[simp] theorem State.modNi_mems (s : State) (n : Fin 36) (f : Ni → Ni) : (s.modNi n f).mems = s.mems := rfl
@[simp] theorem State.modNi_enl (s : State) (n : Fin 36) (f : Ni → Ni) : (s.modNi n f).enl = s.enl := rfl
@[simp] theorem State.modNi_job (s : State) (n : Fin 36) (f : Ni → Ni) : (s.modNi n f).job = s.job := rfl
@[simp] theorem State.modNi_sht (s : State) (n : Fin 36) (f : Ni → Ni) : (s.modNi n f).sht = s.sht := rfl
@[simp] theorem State.modNi_lanes (s : State) (n : Fin 36) (f : Ni → Ni) : (s.modNi n f).lanes = s.lanes := rfl
@[simp] theorem State.modNi_fab (s : State) (n : Fin 36) (f : Ni → Ni) : (s.modNi n f).fab = s.fab := rfl
@[simp] theorem State.modNi_handover (s : State) (n : Fin 36) (f : Ni → Ni) : (s.modNi n f).handover = s.handover := rfl
@[simp] theorem State.modNi_cam (s : State) (n : Fin 36) (f : Ni → Ni) : (s.modNi n f).cam = s.cam := rfl
@[simp] theorem State.modNi_store (s : State) (n : Fin 36) (f : Ni → Ni) : (s.modNi n f).store = s.store := rfl
@[simp] theorem State.modNi_hst (s : State) (n : Fin 36) (f : Ni → Ni) : (s.modNi n f).hst = s.hst := rfl
@[simp] theorem State.modNi_pwr (s : State) (n : Fin 36) (f : Ni → Ni) : (s.modNi n f).pwr = s.pwr := rfl
@[simp] theorem State.modNi_fuses (s : State) (n : Fin 36) (f : Ni → Ni) : (s.modNi n f).fuses = s.fuses := rfl
@[simp] theorem State.modNi_sec (s : State) (n : Fin 36) (f : Ni → Ni) : (s.modNi n f).sec = s.sec := rfl
@[simp] theorem State.modNi_cs (s : State) (n : Fin 36) (f : Ni → Ni) : (s.modNi n f).cs = s.cs := rfl

/-! ## modJob -/

@[simp] theorem State.modJob_pending (s : State) (f : Job → Job) : (s.modJob f).pending = s.pending := rfl
@[simp] theorem State.modJob_free (s : State) (f : Job → Job) : (s.modJob f).free = s.free := rfl
@[simp] theorem State.modJob_out (s : State) (f : Job → Job) : (s.modJob f).out = s.out := rfl
@[simp] theorem State.modJob_devTime (s : State) (f : Job → Job) : (s.modJob f).devTime = s.devTime := rfl
@[simp] theorem State.modJob_rootTicks (s : State) (f : Job → Job) : (s.modJob f).rootTicks = s.rootTicks := rfl
@[simp] theorem State.modJob_regs (s : State) (f : Job → Job) : (s.modJob f).regs = s.regs := rfl
@[simp] theorem State.modJob_latches (s : State) (f : Job → Job) : (s.modJob f).latches = s.latches := rfl
@[simp] theorem State.modJob_heldPush (s : State) (f : Job → Job) : (s.modJob f).heldPush = s.heldPush := rfl
@[simp] theorem State.modJob_cores (s : State) (f : Job → Job) : (s.modJob f).cores = s.cores := rfl
@[simp] theorem State.modJob_devs (s : State) (f : Job → Job) : (s.modJob f).devs = s.devs := rfl
@[simp] theorem State.modJob_grains (s : State) (f : Job → Job) : (s.modJob f).grains = s.grains := rfl
@[simp] theorem State.modJob_mems (s : State) (f : Job → Job) : (s.modJob f).mems = s.mems := rfl
@[simp] theorem State.modJob_enl (s : State) (f : Job → Job) : (s.modJob f).enl = s.enl := rfl
@[simp] theorem State.modJob_sht (s : State) (f : Job → Job) : (s.modJob f).sht = s.sht := rfl
@[simp] theorem State.modJob_lanes (s : State) (f : Job → Job) : (s.modJob f).lanes = s.lanes := rfl
@[simp] theorem State.modJob_fab (s : State) (f : Job → Job) : (s.modJob f).fab = s.fab := rfl
@[simp] theorem State.modJob_handover (s : State) (f : Job → Job) : (s.modJob f).handover = s.handover := rfl
@[simp] theorem State.modJob_cam (s : State) (f : Job → Job) : (s.modJob f).cam = s.cam := rfl
@[simp] theorem State.modJob_store (s : State) (f : Job → Job) : (s.modJob f).store = s.store := rfl
@[simp] theorem State.modJob_hst (s : State) (f : Job → Job) : (s.modJob f).hst = s.hst := rfl
@[simp] theorem State.modJob_net (s : State) (f : Job → Job) : (s.modJob f).net = s.net := rfl
@[simp] theorem State.modJob_pwr (s : State) (f : Job → Job) : (s.modJob f).pwr = s.pwr := rfl
@[simp] theorem State.modJob_fuses (s : State) (f : Job → Job) : (s.modJob f).fuses = s.fuses := rfl
@[simp] theorem State.modJob_sec (s : State) (f : Job → Job) : (s.modJob f).sec = s.sec := rfl
@[simp] theorem State.modJob_cs (s : State) (f : Job → Job) : (s.modJob f).cs = s.cs := rfl

/-! ## modFn -/

@[simp] theorem State.modFn_pending (s : State) (i : Fin 8) (f : Fn → Fn) : (s.modFn i f).pending = s.pending := rfl
@[simp] theorem State.modFn_free (s : State) (i : Fin 8) (f : Fn → Fn) : (s.modFn i f).free = s.free := rfl
@[simp] theorem State.modFn_out (s : State) (i : Fin 8) (f : Fn → Fn) : (s.modFn i f).out = s.out := rfl
@[simp] theorem State.modFn_devTime (s : State) (i : Fin 8) (f : Fn → Fn) : (s.modFn i f).devTime = s.devTime := rfl
@[simp] theorem State.modFn_rootTicks (s : State) (i : Fin 8) (f : Fn → Fn) : (s.modFn i f).rootTicks = s.rootTicks := rfl
@[simp] theorem State.modFn_regs (s : State) (i : Fin 8) (f : Fn → Fn) : (s.modFn i f).regs = s.regs := rfl
@[simp] theorem State.modFn_latches (s : State) (i : Fin 8) (f : Fn → Fn) : (s.modFn i f).latches = s.latches := rfl
@[simp] theorem State.modFn_heldPush (s : State) (i : Fin 8) (f : Fn → Fn) : (s.modFn i f).heldPush = s.heldPush := rfl
@[simp] theorem State.modFn_cores (s : State) (i : Fin 8) (f : Fn → Fn) : (s.modFn i f).cores = s.cores := rfl
@[simp] theorem State.modFn_devs (s : State) (i : Fin 8) (f : Fn → Fn) : (s.modFn i f).devs = s.devs := rfl
@[simp] theorem State.modFn_grains (s : State) (i : Fin 8) (f : Fn → Fn) : (s.modFn i f).grains = s.grains := rfl
@[simp] theorem State.modFn_mems (s : State) (i : Fin 8) (f : Fn → Fn) : (s.modFn i f).mems = s.mems := rfl
@[simp] theorem State.modFn_enl (s : State) (i : Fin 8) (f : Fn → Fn) : (s.modFn i f).enl = s.enl := rfl
@[simp] theorem State.modFn_job (s : State) (i : Fin 8) (f : Fn → Fn) : (s.modFn i f).job = s.job := rfl
@[simp] theorem State.modFn_sht (s : State) (i : Fin 8) (f : Fn → Fn) : (s.modFn i f).sht = s.sht := rfl
@[simp] theorem State.modFn_lanes (s : State) (i : Fin 8) (f : Fn → Fn) : (s.modFn i f).lanes = s.lanes := rfl
@[simp] theorem State.modFn_fab (s : State) (i : Fin 8) (f : Fn → Fn) : (s.modFn i f).fab = s.fab := rfl
@[simp] theorem State.modFn_handover (s : State) (i : Fin 8) (f : Fn → Fn) : (s.modFn i f).handover = s.handover := rfl
@[simp] theorem State.modFn_cam (s : State) (i : Fin 8) (f : Fn → Fn) : (s.modFn i f).cam = s.cam := rfl
@[simp] theorem State.modFn_store (s : State) (i : Fin 8) (f : Fn → Fn) : (s.modFn i f).store = s.store := rfl
@[simp] theorem State.modFn_net (s : State) (i : Fin 8) (f : Fn → Fn) : (s.modFn i f).net = s.net := rfl
@[simp] theorem State.modFn_pwr (s : State) (i : Fin 8) (f : Fn → Fn) : (s.modFn i f).pwr = s.pwr := rfl
@[simp] theorem State.modFn_fuses (s : State) (i : Fin 8) (f : Fn → Fn) : (s.modFn i f).fuses = s.fuses := rfl
@[simp] theorem State.modFn_sec (s : State) (i : Fin 8) (f : Fn → Fn) : (s.modFn i f).sec = s.sec := rfl
@[simp] theorem State.modFn_cs (s : State) (i : Fin 8) (f : Fn → Fn) : (s.modFn i f).cs = s.cs := rfl

/-! ## emit -/

@[simp] theorem State.emit_pending (s : State) (o : Out) : (s.emit o).pending = s.pending := rfl
@[simp] theorem State.emit_free (s : State) (o : Out) : (s.emit o).free = s.free := rfl
@[simp] theorem State.emit_devTime (s : State) (o : Out) : (s.emit o).devTime = s.devTime := rfl
@[simp] theorem State.emit_rootTicks (s : State) (o : Out) : (s.emit o).rootTicks = s.rootTicks := rfl
@[simp] theorem State.emit_regs (s : State) (o : Out) : (s.emit o).regs = s.regs := rfl
@[simp] theorem State.emit_latches (s : State) (o : Out) : (s.emit o).latches = s.latches := rfl
@[simp] theorem State.emit_heldPush (s : State) (o : Out) : (s.emit o).heldPush = s.heldPush := rfl
@[simp] theorem State.emit_cores (s : State) (o : Out) : (s.emit o).cores = s.cores := rfl
@[simp] theorem State.emit_devs (s : State) (o : Out) : (s.emit o).devs = s.devs := rfl
@[simp] theorem State.emit_grains (s : State) (o : Out) : (s.emit o).grains = s.grains := rfl
@[simp] theorem State.emit_mems (s : State) (o : Out) : (s.emit o).mems = s.mems := rfl
@[simp] theorem State.emit_enl (s : State) (o : Out) : (s.emit o).enl = s.enl := rfl
@[simp] theorem State.emit_job (s : State) (o : Out) : (s.emit o).job = s.job := rfl
@[simp] theorem State.emit_sht (s : State) (o : Out) : (s.emit o).sht = s.sht := rfl
@[simp] theorem State.emit_lanes (s : State) (o : Out) : (s.emit o).lanes = s.lanes := rfl
@[simp] theorem State.emit_fab (s : State) (o : Out) : (s.emit o).fab = s.fab := rfl
@[simp] theorem State.emit_handover (s : State) (o : Out) : (s.emit o).handover = s.handover := rfl
@[simp] theorem State.emit_cam (s : State) (o : Out) : (s.emit o).cam = s.cam := rfl
@[simp] theorem State.emit_store (s : State) (o : Out) : (s.emit o).store = s.store := rfl
@[simp] theorem State.emit_hst (s : State) (o : Out) : (s.emit o).hst = s.hst := rfl
@[simp] theorem State.emit_net (s : State) (o : Out) : (s.emit o).net = s.net := rfl
@[simp] theorem State.emit_pwr (s : State) (o : Out) : (s.emit o).pwr = s.pwr := rfl
@[simp] theorem State.emit_fuses (s : State) (o : Out) : (s.emit o).fuses = s.fuses := rfl
@[simp] theorem State.emit_sec (s : State) (o : Out) : (s.emit o).sec = s.sec := rfl
@[simp] theorem State.emit_cs (s : State) (o : Out) : (s.emit o).cs = s.cs := rfl

/-! ## setRing -/

@[simp] theorem State.setRing_pending (s : State) (k : Nat) (r : Ring) : (s.setRing k r).pending = s.pending := rfl
@[simp] theorem State.setRing_free (s : State) (k : Nat) (r : Ring) : (s.setRing k r).free = s.free := rfl
@[simp] theorem State.setRing_out (s : State) (k : Nat) (r : Ring) : (s.setRing k r).out = s.out := rfl
@[simp] theorem State.setRing_devTime (s : State) (k : Nat) (r : Ring) : (s.setRing k r).devTime = s.devTime := rfl
@[simp] theorem State.setRing_rootTicks (s : State) (k : Nat) (r : Ring) : (s.setRing k r).rootTicks = s.rootTicks := rfl
@[simp] theorem State.setRing_regs (s : State) (k : Nat) (r : Ring) : (s.setRing k r).regs = s.regs := rfl
@[simp] theorem State.setRing_latches (s : State) (k : Nat) (r : Ring) : (s.setRing k r).latches = s.latches := rfl
@[simp] theorem State.setRing_heldPush (s : State) (k : Nat) (r : Ring) : (s.setRing k r).heldPush = s.heldPush := rfl
@[simp] theorem State.setRing_cores (s : State) (k : Nat) (r : Ring) : (s.setRing k r).cores = s.cores := rfl
@[simp] theorem State.setRing_devs (s : State) (k : Nat) (r : Ring) : (s.setRing k r).devs = s.devs := rfl
@[simp] theorem State.setRing_grains (s : State) (k : Nat) (r : Ring) : (s.setRing k r).grains = s.grains := rfl
@[simp] theorem State.setRing_mems (s : State) (k : Nat) (r : Ring) : (s.setRing k r).mems = s.mems := rfl
@[simp] theorem State.setRing_enl (s : State) (k : Nat) (r : Ring) : (s.setRing k r).enl = s.enl := rfl
@[simp] theorem State.setRing_job (s : State) (k : Nat) (r : Ring) : (s.setRing k r).job = s.job := rfl
@[simp] theorem State.setRing_sht (s : State) (k : Nat) (r : Ring) : (s.setRing k r).sht = s.sht := rfl
@[simp] theorem State.setRing_lanes (s : State) (k : Nat) (r : Ring) : (s.setRing k r).lanes = s.lanes := rfl
@[simp] theorem State.setRing_fab (s : State) (k : Nat) (r : Ring) : (s.setRing k r).fab = s.fab := rfl
@[simp] theorem State.setRing_handover (s : State) (k : Nat) (r : Ring) : (s.setRing k r).handover = s.handover := rfl
@[simp] theorem State.setRing_cam (s : State) (k : Nat) (r : Ring) : (s.setRing k r).cam = s.cam := rfl
@[simp] theorem State.setRing_store (s : State) (k : Nat) (r : Ring) : (s.setRing k r).store = s.store := rfl
@[simp] theorem State.setRing_net (s : State) (k : Nat) (r : Ring) : (s.setRing k r).net = s.net := rfl
@[simp] theorem State.setRing_pwr (s : State) (k : Nat) (r : Ring) : (s.setRing k r).pwr = s.pwr := rfl
@[simp] theorem State.setRing_fuses (s : State) (k : Nat) (r : Ring) : (s.setRing k r).fuses = s.fuses := rfl
@[simp] theorem State.setRing_sec (s : State) (k : Nat) (r : Ring) : (s.setRing k r).sec = s.sec := rfl
@[simp] theorem State.setRing_cs (s : State) (k : Nat) (r : Ring) : (s.setRing k r).cs = s.cs := rfl

/-! ## setSession -/

@[simp] theorem State.setSession_pending (s : State) (k : Fin 8) (x : Option Session) : (s.setSession k x).pending = s.pending := rfl
@[simp] theorem State.setSession_free (s : State) (k : Fin 8) (x : Option Session) : (s.setSession k x).free = s.free := rfl
@[simp] theorem State.setSession_out (s : State) (k : Fin 8) (x : Option Session) : (s.setSession k x).out = s.out := rfl
@[simp] theorem State.setSession_devTime (s : State) (k : Fin 8) (x : Option Session) : (s.setSession k x).devTime = s.devTime := rfl
@[simp] theorem State.setSession_rootTicks (s : State) (k : Fin 8) (x : Option Session) : (s.setSession k x).rootTicks = s.rootTicks := rfl
@[simp] theorem State.setSession_regs (s : State) (k : Fin 8) (x : Option Session) : (s.setSession k x).regs = s.regs := rfl
@[simp] theorem State.setSession_latches (s : State) (k : Fin 8) (x : Option Session) : (s.setSession k x).latches = s.latches := rfl
@[simp] theorem State.setSession_heldPush (s : State) (k : Fin 8) (x : Option Session) : (s.setSession k x).heldPush = s.heldPush := rfl
@[simp] theorem State.setSession_cores (s : State) (k : Fin 8) (x : Option Session) : (s.setSession k x).cores = s.cores := rfl
@[simp] theorem State.setSession_devs (s : State) (k : Fin 8) (x : Option Session) : (s.setSession k x).devs = s.devs := rfl
@[simp] theorem State.setSession_grains (s : State) (k : Fin 8) (x : Option Session) : (s.setSession k x).grains = s.grains := rfl
@[simp] theorem State.setSession_mems (s : State) (k : Fin 8) (x : Option Session) : (s.setSession k x).mems = s.mems := rfl
@[simp] theorem State.setSession_enl (s : State) (k : Fin 8) (x : Option Session) : (s.setSession k x).enl = s.enl := rfl
@[simp] theorem State.setSession_job (s : State) (k : Fin 8) (x : Option Session) : (s.setSession k x).job = s.job := rfl
@[simp] theorem State.setSession_sht (s : State) (k : Fin 8) (x : Option Session) : (s.setSession k x).sht = s.sht := rfl
@[simp] theorem State.setSession_lanes (s : State) (k : Fin 8) (x : Option Session) : (s.setSession k x).lanes = s.lanes := rfl
@[simp] theorem State.setSession_fab (s : State) (k : Fin 8) (x : Option Session) : (s.setSession k x).fab = s.fab := rfl
@[simp] theorem State.setSession_handover (s : State) (k : Fin 8) (x : Option Session) : (s.setSession k x).handover = s.handover := rfl
@[simp] theorem State.setSession_cam (s : State) (k : Fin 8) (x : Option Session) : (s.setSession k x).cam = s.cam := rfl
@[simp] theorem State.setSession_store (s : State) (k : Fin 8) (x : Option Session) : (s.setSession k x).store = s.store := rfl
@[simp] theorem State.setSession_net (s : State) (k : Fin 8) (x : Option Session) : (s.setSession k x).net = s.net := rfl
@[simp] theorem State.setSession_pwr (s : State) (k : Fin 8) (x : Option Session) : (s.setSession k x).pwr = s.pwr := rfl
@[simp] theorem State.setSession_fuses (s : State) (k : Fin 8) (x : Option Session) : (s.setSession k x).fuses = s.fuses := rfl
@[simp] theorem State.setSession_sec (s : State) (k : Fin 8) (x : Option Session) : (s.setSession k x).sec = s.sec := rfl
@[simp] theorem State.setSession_cs (s : State) (k : Fin 8) (x : Option Session) : (s.setSession k x).cs = s.cs := rfl

/-! ## setGrains -/

@[simp] theorem State.setGrains_pending (s : State) (g : Grains) : (s.setGrains g).pending = s.pending := rfl
@[simp] theorem State.setGrains_free (s : State) (g : Grains) : (s.setGrains g).free = s.free := rfl
@[simp] theorem State.setGrains_out (s : State) (g : Grains) : (s.setGrains g).out = s.out := rfl
@[simp] theorem State.setGrains_devTime (s : State) (g : Grains) : (s.setGrains g).devTime = s.devTime := rfl
@[simp] theorem State.setGrains_rootTicks (s : State) (g : Grains) : (s.setGrains g).rootTicks = s.rootTicks := rfl
@[simp] theorem State.setGrains_regs (s : State) (g : Grains) : (s.setGrains g).regs = s.regs := rfl
@[simp] theorem State.setGrains_latches (s : State) (g : Grains) : (s.setGrains g).latches = s.latches := rfl
@[simp] theorem State.setGrains_heldPush (s : State) (g : Grains) : (s.setGrains g).heldPush = s.heldPush := rfl
@[simp] theorem State.setGrains_cores (s : State) (g : Grains) : (s.setGrains g).cores = s.cores := rfl
@[simp] theorem State.setGrains_devs (s : State) (g : Grains) : (s.setGrains g).devs = s.devs := rfl
@[simp] theorem State.setGrains_mems (s : State) (g : Grains) : (s.setGrains g).mems = s.mems := rfl
@[simp] theorem State.setGrains_enl (s : State) (g : Grains) : (s.setGrains g).enl = s.enl := rfl
@[simp] theorem State.setGrains_job (s : State) (g : Grains) : (s.setGrains g).job = s.job := rfl
@[simp] theorem State.setGrains_sht (s : State) (g : Grains) : (s.setGrains g).sht = s.sht := rfl
@[simp] theorem State.setGrains_lanes (s : State) (g : Grains) : (s.setGrains g).lanes = s.lanes := rfl
@[simp] theorem State.setGrains_fab (s : State) (g : Grains) : (s.setGrains g).fab = s.fab := rfl
@[simp] theorem State.setGrains_handover (s : State) (g : Grains) : (s.setGrains g).handover = s.handover := rfl
@[simp] theorem State.setGrains_cam (s : State) (g : Grains) : (s.setGrains g).cam = s.cam := rfl
@[simp] theorem State.setGrains_store (s : State) (g : Grains) : (s.setGrains g).store = s.store := rfl
@[simp] theorem State.setGrains_hst (s : State) (g : Grains) : (s.setGrains g).hst = s.hst := rfl
@[simp] theorem State.setGrains_net (s : State) (g : Grains) : (s.setGrains g).net = s.net := rfl
@[simp] theorem State.setGrains_pwr (s : State) (g : Grains) : (s.setGrains g).pwr = s.pwr := rfl
@[simp] theorem State.setGrains_fuses (s : State) (g : Grains) : (s.setGrains g).fuses = s.fuses := rfl
@[simp] theorem State.setGrains_sec (s : State) (g : Grains) : (s.setGrains g).sec = s.sec := rfl
@[simp] theorem State.setGrains_cs (s : State) (g : Grains) : (s.setGrains g).cs = s.cs := rfl

/-! ## unlatch -/

@[simp] theorem State.unlatch_pending (s : State) (r : RegName) (i : Nat) : (s.unlatch r i).pending = s.pending := rfl
@[simp] theorem State.unlatch_free (s : State) (r : RegName) (i : Nat) : (s.unlatch r i).free = s.free := rfl
@[simp] theorem State.unlatch_out (s : State) (r : RegName) (i : Nat) : (s.unlatch r i).out = s.out := rfl
@[simp] theorem State.unlatch_devTime (s : State) (r : RegName) (i : Nat) : (s.unlatch r i).devTime = s.devTime := rfl
@[simp] theorem State.unlatch_rootTicks (s : State) (r : RegName) (i : Nat) : (s.unlatch r i).rootTicks = s.rootTicks := rfl
@[simp] theorem State.unlatch_regs (s : State) (r : RegName) (i : Nat) : (s.unlatch r i).regs = s.regs := rfl
@[simp] theorem State.unlatch_heldPush (s : State) (r : RegName) (i : Nat) : (s.unlatch r i).heldPush = s.heldPush := rfl
@[simp] theorem State.unlatch_cores (s : State) (r : RegName) (i : Nat) : (s.unlatch r i).cores = s.cores := rfl
@[simp] theorem State.unlatch_devs (s : State) (r : RegName) (i : Nat) : (s.unlatch r i).devs = s.devs := rfl
@[simp] theorem State.unlatch_grains (s : State) (r : RegName) (i : Nat) : (s.unlatch r i).grains = s.grains := rfl
@[simp] theorem State.unlatch_mems (s : State) (r : RegName) (i : Nat) : (s.unlatch r i).mems = s.mems := rfl
@[simp] theorem State.unlatch_enl (s : State) (r : RegName) (i : Nat) : (s.unlatch r i).enl = s.enl := rfl
@[simp] theorem State.unlatch_job (s : State) (r : RegName) (i : Nat) : (s.unlatch r i).job = s.job := rfl
@[simp] theorem State.unlatch_sht (s : State) (r : RegName) (i : Nat) : (s.unlatch r i).sht = s.sht := rfl
@[simp] theorem State.unlatch_lanes (s : State) (r : RegName) (i : Nat) : (s.unlatch r i).lanes = s.lanes := rfl
@[simp] theorem State.unlatch_fab (s : State) (r : RegName) (i : Nat) : (s.unlatch r i).fab = s.fab := rfl
@[simp] theorem State.unlatch_handover (s : State) (r : RegName) (i : Nat) : (s.unlatch r i).handover = s.handover := rfl
@[simp] theorem State.unlatch_cam (s : State) (r : RegName) (i : Nat) : (s.unlatch r i).cam = s.cam := rfl
@[simp] theorem State.unlatch_store (s : State) (r : RegName) (i : Nat) : (s.unlatch r i).store = s.store := rfl
@[simp] theorem State.unlatch_hst (s : State) (r : RegName) (i : Nat) : (s.unlatch r i).hst = s.hst := rfl
@[simp] theorem State.unlatch_net (s : State) (r : RegName) (i : Nat) : (s.unlatch r i).net = s.net := rfl
@[simp] theorem State.unlatch_pwr (s : State) (r : RegName) (i : Nat) : (s.unlatch r i).pwr = s.pwr := rfl
@[simp] theorem State.unlatch_fuses (s : State) (r : RegName) (i : Nat) : (s.unlatch r i).fuses = s.fuses := rfl
@[simp] theorem State.unlatch_sec (s : State) (r : RegName) (i : Nat) : (s.unlatch r i).sec = s.sec := rfl
@[simp] theorem State.unlatch_cs (s : State) (r : RegName) (i : Nat) : (s.unlatch r i).cs = s.cs := rfl

/-! ## plainWrite -/

@[simp] theorem State.plainWrite_pending (s : State) (r : RegName) (i : Nat) (mask v : DWord) : (s.plainWrite r i mask v).pending = s.pending := rfl
@[simp] theorem State.plainWrite_free (s : State) (r : RegName) (i : Nat) (mask v : DWord) : (s.plainWrite r i mask v).free = s.free := rfl
@[simp] theorem State.plainWrite_out (s : State) (r : RegName) (i : Nat) (mask v : DWord) : (s.plainWrite r i mask v).out = s.out := rfl
@[simp] theorem State.plainWrite_devTime (s : State) (r : RegName) (i : Nat) (mask v : DWord) : (s.plainWrite r i mask v).devTime = s.devTime := rfl
@[simp] theorem State.plainWrite_rootTicks (s : State) (r : RegName) (i : Nat) (mask v : DWord) : (s.plainWrite r i mask v).rootTicks = s.rootTicks := rfl
@[simp] theorem State.plainWrite_latches (s : State) (r : RegName) (i : Nat) (mask v : DWord) : (s.plainWrite r i mask v).latches = s.latches := rfl
@[simp] theorem State.plainWrite_heldPush (s : State) (r : RegName) (i : Nat) (mask v : DWord) : (s.plainWrite r i mask v).heldPush = s.heldPush := rfl
@[simp] theorem State.plainWrite_cores (s : State) (r : RegName) (i : Nat) (mask v : DWord) : (s.plainWrite r i mask v).cores = s.cores := rfl
@[simp] theorem State.plainWrite_devs (s : State) (r : RegName) (i : Nat) (mask v : DWord) : (s.plainWrite r i mask v).devs = s.devs := rfl
@[simp] theorem State.plainWrite_grains (s : State) (r : RegName) (i : Nat) (mask v : DWord) : (s.plainWrite r i mask v).grains = s.grains := rfl
@[simp] theorem State.plainWrite_mems (s : State) (r : RegName) (i : Nat) (mask v : DWord) : (s.plainWrite r i mask v).mems = s.mems := rfl
@[simp] theorem State.plainWrite_enl (s : State) (r : RegName) (i : Nat) (mask v : DWord) : (s.plainWrite r i mask v).enl = s.enl := rfl
@[simp] theorem State.plainWrite_job (s : State) (r : RegName) (i : Nat) (mask v : DWord) : (s.plainWrite r i mask v).job = s.job := rfl
@[simp] theorem State.plainWrite_sht (s : State) (r : RegName) (i : Nat) (mask v : DWord) : (s.plainWrite r i mask v).sht = s.sht := rfl
@[simp] theorem State.plainWrite_lanes (s : State) (r : RegName) (i : Nat) (mask v : DWord) : (s.plainWrite r i mask v).lanes = s.lanes := rfl
@[simp] theorem State.plainWrite_fab (s : State) (r : RegName) (i : Nat) (mask v : DWord) : (s.plainWrite r i mask v).fab = s.fab := rfl
@[simp] theorem State.plainWrite_handover (s : State) (r : RegName) (i : Nat) (mask v : DWord) : (s.plainWrite r i mask v).handover = s.handover := rfl
@[simp] theorem State.plainWrite_cam (s : State) (r : RegName) (i : Nat) (mask v : DWord) : (s.plainWrite r i mask v).cam = s.cam := rfl
@[simp] theorem State.plainWrite_store (s : State) (r : RegName) (i : Nat) (mask v : DWord) : (s.plainWrite r i mask v).store = s.store := rfl
@[simp] theorem State.plainWrite_hst (s : State) (r : RegName) (i : Nat) (mask v : DWord) : (s.plainWrite r i mask v).hst = s.hst := rfl
@[simp] theorem State.plainWrite_net (s : State) (r : RegName) (i : Nat) (mask v : DWord) : (s.plainWrite r i mask v).net = s.net := rfl
@[simp] theorem State.plainWrite_pwr (s : State) (r : RegName) (i : Nat) (mask v : DWord) : (s.plainWrite r i mask v).pwr = s.pwr := rfl
@[simp] theorem State.plainWrite_fuses (s : State) (r : RegName) (i : Nat) (mask v : DWord) : (s.plainWrite r i mask v).fuses = s.fuses := rfl
@[simp] theorem State.plainWrite_sec (s : State) (r : RegName) (i : Nat) (mask v : DWord) : (s.plainWrite r i mask v).sec = s.sec := rfl
@[simp] theorem State.plainWrite_cs (s : State) (r : RegName) (i : Nat) (mask v : DWord) : (s.plainWrite r i mask v).cs = s.cs := rfl

/-! ## setCell -/

@[simp] theorem State.setCell_pending (s : State) (code i : Nat) (c : Cell) : (s.setCell code i c).pending = s.pending := rfl
@[simp] theorem State.setCell_free (s : State) (code i : Nat) (c : Cell) : (s.setCell code i c).free = s.free := rfl
@[simp] theorem State.setCell_out (s : State) (code i : Nat) (c : Cell) : (s.setCell code i c).out = s.out := rfl
@[simp] theorem State.setCell_devTime (s : State) (code i : Nat) (c : Cell) : (s.setCell code i c).devTime = s.devTime := rfl
@[simp] theorem State.setCell_rootTicks (s : State) (code i : Nat) (c : Cell) : (s.setCell code i c).rootTicks = s.rootTicks := rfl
@[simp] theorem State.setCell_regs (s : State) (code i : Nat) (c : Cell) : (s.setCell code i c).regs = s.regs := rfl
@[simp] theorem State.setCell_latches (s : State) (code i : Nat) (c : Cell) : (s.setCell code i c).latches = s.latches := rfl
@[simp] theorem State.setCell_heldPush (s : State) (code i : Nat) (c : Cell) : (s.setCell code i c).heldPush = s.heldPush := rfl
@[simp] theorem State.setCell_cores (s : State) (code i : Nat) (c : Cell) : (s.setCell code i c).cores = s.cores := rfl
@[simp] theorem State.setCell_devs (s : State) (code i : Nat) (c : Cell) : (s.setCell code i c).devs = s.devs := rfl
@[simp] theorem State.setCell_grains (s : State) (code i : Nat) (c : Cell) : (s.setCell code i c).grains = s.grains := rfl
@[simp] theorem State.setCell_enl (s : State) (code i : Nat) (c : Cell) : (s.setCell code i c).enl = s.enl := rfl
@[simp] theorem State.setCell_job (s : State) (code i : Nat) (c : Cell) : (s.setCell code i c).job = s.job := rfl
@[simp] theorem State.setCell_sht (s : State) (code i : Nat) (c : Cell) : (s.setCell code i c).sht = s.sht := rfl
@[simp] theorem State.setCell_lanes (s : State) (code i : Nat) (c : Cell) : (s.setCell code i c).lanes = s.lanes := rfl
@[simp] theorem State.setCell_fab (s : State) (code i : Nat) (c : Cell) : (s.setCell code i c).fab = s.fab := rfl
@[simp] theorem State.setCell_handover (s : State) (code i : Nat) (c : Cell) : (s.setCell code i c).handover = s.handover := rfl
@[simp] theorem State.setCell_cam (s : State) (code i : Nat) (c : Cell) : (s.setCell code i c).cam = s.cam := rfl
@[simp] theorem State.setCell_store (s : State) (code i : Nat) (c : Cell) : (s.setCell code i c).store = s.store := rfl
@[simp] theorem State.setCell_hst (s : State) (code i : Nat) (c : Cell) : (s.setCell code i c).hst = s.hst := rfl
@[simp] theorem State.setCell_net (s : State) (code i : Nat) (c : Cell) : (s.setCell code i c).net = s.net := rfl
@[simp] theorem State.setCell_pwr (s : State) (code i : Nat) (c : Cell) : (s.setCell code i c).pwr = s.pwr := rfl
@[simp] theorem State.setCell_fuses (s : State) (code i : Nat) (c : Cell) : (s.setCell code i c).fuses = s.fuses := rfl
@[simp] theorem State.setCell_sec (s : State) (code i : Nat) (c : Cell) : (s.setCell code i c).sec = s.sec := rfl
@[simp] theorem State.setCell_cs (s : State) (code i : Nat) (c : Cell) : (s.setCell code i c).cs = s.cs := rfl

/-- A fold of steps that each keep a property keeps it. -/
theorem foldl_keeps {α β : Type} {p : β → Prop} (l : List α) (f : β → α → β) (hf : ∀ b a, p b → p (f b a)) (b : β) (h : p b) :
    p (l.foldl f b) := by
  induction l generalizing b with
  | nil => exact h
  | cons a l ih => exact ih _ (hf b a h)

/-- Steps over a range of indices that each keep a property keep it. -/
theorem forFin_keeps {p : State → Prop} (n : Nat) (f : Fin n → State → State) (hf : ∀ s i, p s → p (f i s)) (s : State) (h : p s) :
    p (s.forFin n f) := foldl_keeps _ _ hf s h

/-! ## csEnqueue -/

@[simp] theorem State.csEnqueue_pending (s : State) (r : CsRecord) : (s.csEnqueue r).pending = s.pending := by
  unfold State.csEnqueue; dsimp only; split; · rfl
  · split <;> rfl
@[simp] theorem State.csEnqueue_free (s : State) (r : CsRecord) : (s.csEnqueue r).free = s.free := by
  unfold State.csEnqueue; dsimp only; split; · rfl
  · split <;> rfl
@[simp] theorem State.csEnqueue_out (s : State) (r : CsRecord) : (s.csEnqueue r).out = s.out := by
  unfold State.csEnqueue; dsimp only; split; · rfl
  · split <;> rfl
@[simp] theorem State.csEnqueue_devTime (s : State) (r : CsRecord) : (s.csEnqueue r).devTime = s.devTime := by
  unfold State.csEnqueue; dsimp only; split; · rfl
  · split <;> rfl
@[simp] theorem State.csEnqueue_rootTicks (s : State) (r : CsRecord) : (s.csEnqueue r).rootTicks = s.rootTicks := by
  unfold State.csEnqueue; dsimp only; split; · rfl
  · split <;> rfl
@[simp] theorem State.csEnqueue_latches (s : State) (r : CsRecord) : (s.csEnqueue r).latches = s.latches := by
  unfold State.csEnqueue; dsimp only; split; · rfl
  · split <;> rfl
@[simp] theorem State.csEnqueue_heldPush (s : State) (r : CsRecord) : (s.csEnqueue r).heldPush = s.heldPush := by
  unfold State.csEnqueue; dsimp only; split; · rfl
  · split <;> rfl
@[simp] theorem State.csEnqueue_cores (s : State) (r : CsRecord) : (s.csEnqueue r).cores = s.cores := by
  unfold State.csEnqueue; dsimp only; split; · rfl
  · split <;> rfl
@[simp] theorem State.csEnqueue_devs (s : State) (r : CsRecord) : (s.csEnqueue r).devs = s.devs := by
  unfold State.csEnqueue; dsimp only; split; · rfl
  · split <;> rfl
@[simp] theorem State.csEnqueue_grains (s : State) (r : CsRecord) : (s.csEnqueue r).grains = s.grains := by
  unfold State.csEnqueue; dsimp only; split; · rfl
  · split <;> rfl
@[simp] theorem State.csEnqueue_mems (s : State) (r : CsRecord) : (s.csEnqueue r).mems = s.mems := by
  unfold State.csEnqueue; dsimp only; split; · rfl
  · split <;> rfl
@[simp] theorem State.csEnqueue_enl (s : State) (r : CsRecord) : (s.csEnqueue r).enl = s.enl := by
  unfold State.csEnqueue; dsimp only; split; · rfl
  · split <;> rfl
@[simp] theorem State.csEnqueue_job (s : State) (r : CsRecord) : (s.csEnqueue r).job = s.job := by
  unfold State.csEnqueue; dsimp only; split; · rfl
  · split <;> rfl
@[simp] theorem State.csEnqueue_sht (s : State) (r : CsRecord) : (s.csEnqueue r).sht = s.sht := by
  unfold State.csEnqueue; dsimp only; split; · rfl
  · split <;> rfl
@[simp] theorem State.csEnqueue_lanes (s : State) (r : CsRecord) : (s.csEnqueue r).lanes = s.lanes := by
  unfold State.csEnqueue; dsimp only; split; · rfl
  · split <;> rfl
@[simp] theorem State.csEnqueue_fab (s : State) (r : CsRecord) : (s.csEnqueue r).fab = s.fab := by
  unfold State.csEnqueue; dsimp only; split; · rfl
  · split <;> rfl
@[simp] theorem State.csEnqueue_handover (s : State) (r : CsRecord) : (s.csEnqueue r).handover = s.handover := by
  unfold State.csEnqueue; dsimp only; split; · rfl
  · split <;> rfl
@[simp] theorem State.csEnqueue_cam (s : State) (r : CsRecord) : (s.csEnqueue r).cam = s.cam := by
  unfold State.csEnqueue; dsimp only; split; · rfl
  · split <;> rfl
@[simp] theorem State.csEnqueue_store (s : State) (r : CsRecord) : (s.csEnqueue r).store = s.store := by
  unfold State.csEnqueue; dsimp only; split; · rfl
  · split <;> rfl
@[simp] theorem State.csEnqueue_hst (s : State) (r : CsRecord) : (s.csEnqueue r).hst = s.hst := by
  unfold State.csEnqueue; dsimp only; split; · rfl
  · split <;> rfl
@[simp] theorem State.csEnqueue_net (s : State) (r : CsRecord) : (s.csEnqueue r).net = s.net := by
  unfold State.csEnqueue; dsimp only; split; · rfl
  · split <;> rfl
@[simp] theorem State.csEnqueue_pwr (s : State) (r : CsRecord) : (s.csEnqueue r).pwr = s.pwr := by
  unfold State.csEnqueue; dsimp only; split; · rfl
  · split <;> rfl
@[simp] theorem State.csEnqueue_fuses (s : State) (r : CsRecord) : (s.csEnqueue r).fuses = s.fuses := by
  unfold State.csEnqueue; dsimp only; split; · rfl
  · split <;> rfl
@[simp] theorem State.csEnqueue_sec (s : State) (r : CsRecord) : (s.csEnqueue r).sec = s.sec := by
  unfold State.csEnqueue; dsimp only; split; · rfl
  · split <;> rfl

/-! ## csSuppressed -/

@[simp] theorem State.csSuppressed_pending (s : State) (on : Bool) : (s.csSuppressed on).pending = s.pending := by
  unfold State.csSuppressed; split <;> rfl
@[simp] theorem State.csSuppressed_free (s : State) (on : Bool) : (s.csSuppressed on).free = s.free := by
  unfold State.csSuppressed; split <;> rfl
@[simp] theorem State.csSuppressed_out (s : State) (on : Bool) : (s.csSuppressed on).out = s.out := by
  unfold State.csSuppressed; split <;> rfl
@[simp] theorem State.csSuppressed_devTime (s : State) (on : Bool) : (s.csSuppressed on).devTime = s.devTime := by
  unfold State.csSuppressed; split <;> rfl
@[simp] theorem State.csSuppressed_rootTicks (s : State) (on : Bool) : (s.csSuppressed on).rootTicks = s.rootTicks := by
  unfold State.csSuppressed; split <;> rfl
@[simp] theorem State.csSuppressed_latches (s : State) (on : Bool) : (s.csSuppressed on).latches = s.latches := by
  unfold State.csSuppressed; split <;> rfl
@[simp] theorem State.csSuppressed_heldPush (s : State) (on : Bool) : (s.csSuppressed on).heldPush = s.heldPush := by
  unfold State.csSuppressed; split <;> rfl
@[simp] theorem State.csSuppressed_cores (s : State) (on : Bool) : (s.csSuppressed on).cores = s.cores := by
  unfold State.csSuppressed; split <;> rfl
@[simp] theorem State.csSuppressed_devs (s : State) (on : Bool) : (s.csSuppressed on).devs = s.devs := by
  unfold State.csSuppressed; split <;> rfl
@[simp] theorem State.csSuppressed_grains (s : State) (on : Bool) : (s.csSuppressed on).grains = s.grains := by
  unfold State.csSuppressed; split <;> rfl
@[simp] theorem State.csSuppressed_mems (s : State) (on : Bool) : (s.csSuppressed on).mems = s.mems := by
  unfold State.csSuppressed; split <;> rfl
@[simp] theorem State.csSuppressed_enl (s : State) (on : Bool) : (s.csSuppressed on).enl = s.enl := by
  unfold State.csSuppressed; split <;> rfl
@[simp] theorem State.csSuppressed_job (s : State) (on : Bool) : (s.csSuppressed on).job = s.job := by
  unfold State.csSuppressed; split <;> rfl
@[simp] theorem State.csSuppressed_sht (s : State) (on : Bool) : (s.csSuppressed on).sht = s.sht := by
  unfold State.csSuppressed; split <;> rfl
@[simp] theorem State.csSuppressed_lanes (s : State) (on : Bool) : (s.csSuppressed on).lanes = s.lanes := by
  unfold State.csSuppressed; split <;> rfl
@[simp] theorem State.csSuppressed_fab (s : State) (on : Bool) : (s.csSuppressed on).fab = s.fab := by
  unfold State.csSuppressed; split <;> rfl
@[simp] theorem State.csSuppressed_handover (s : State) (on : Bool) : (s.csSuppressed on).handover = s.handover := by
  unfold State.csSuppressed; split <;> rfl
@[simp] theorem State.csSuppressed_cam (s : State) (on : Bool) : (s.csSuppressed on).cam = s.cam := by
  unfold State.csSuppressed; split <;> rfl
@[simp] theorem State.csSuppressed_store (s : State) (on : Bool) : (s.csSuppressed on).store = s.store := by
  unfold State.csSuppressed; split <;> rfl
@[simp] theorem State.csSuppressed_hst (s : State) (on : Bool) : (s.csSuppressed on).hst = s.hst := by
  unfold State.csSuppressed; split <;> rfl
@[simp] theorem State.csSuppressed_net (s : State) (on : Bool) : (s.csSuppressed on).net = s.net := by
  unfold State.csSuppressed; split <;> rfl
@[simp] theorem State.csSuppressed_pwr (s : State) (on : Bool) : (s.csSuppressed on).pwr = s.pwr := by
  unfold State.csSuppressed; split <;> rfl
@[simp] theorem State.csSuppressed_fuses (s : State) (on : Bool) : (s.csSuppressed on).fuses = s.fuses := by
  unfold State.csSuppressed; split <;> rfl
@[simp] theorem State.csSuppressed_sec (s : State) (on : Bool) : (s.csSuppressed on).sec = s.sec := by
  unfold State.csSuppressed; split <;> rfl
@[simp] theorem State.csSuppressed_cs (s : State) (on : Bool) : (s.csSuppressed on).cs = s.cs := by
  unfold State.csSuppressed; split <;> rfl

/-! ## csFrozen -/

@[simp] theorem State.csFrozen_pending (s : State) (on : Bool) (r : CsRecord) : (s.csFrozen on r).pending = s.pending := by
  unfold State.csFrozen; split <;> rfl
@[simp] theorem State.csFrozen_free (s : State) (on : Bool) (r : CsRecord) : (s.csFrozen on r).free = s.free := by
  unfold State.csFrozen; split <;> rfl
@[simp] theorem State.csFrozen_out (s : State) (on : Bool) (r : CsRecord) : (s.csFrozen on r).out = s.out := by
  unfold State.csFrozen; split <;> rfl
@[simp] theorem State.csFrozen_devTime (s : State) (on : Bool) (r : CsRecord) : (s.csFrozen on r).devTime = s.devTime := by
  unfold State.csFrozen; split <;> rfl
@[simp] theorem State.csFrozen_rootTicks (s : State) (on : Bool) (r : CsRecord) : (s.csFrozen on r).rootTicks = s.rootTicks := by
  unfold State.csFrozen; split <;> rfl
@[simp] theorem State.csFrozen_latches (s : State) (on : Bool) (r : CsRecord) : (s.csFrozen on r).latches = s.latches := by
  unfold State.csFrozen; split <;> rfl
@[simp] theorem State.csFrozen_heldPush (s : State) (on : Bool) (r : CsRecord) : (s.csFrozen on r).heldPush = s.heldPush := by
  unfold State.csFrozen; split <;> rfl
@[simp] theorem State.csFrozen_cores (s : State) (on : Bool) (r : CsRecord) : (s.csFrozen on r).cores = s.cores := by
  unfold State.csFrozen; split <;> rfl
@[simp] theorem State.csFrozen_devs (s : State) (on : Bool) (r : CsRecord) : (s.csFrozen on r).devs = s.devs := by
  unfold State.csFrozen; split <;> rfl
@[simp] theorem State.csFrozen_grains (s : State) (on : Bool) (r : CsRecord) : (s.csFrozen on r).grains = s.grains := by
  unfold State.csFrozen; split <;> rfl
@[simp] theorem State.csFrozen_mems (s : State) (on : Bool) (r : CsRecord) : (s.csFrozen on r).mems = s.mems := by
  unfold State.csFrozen; split <;> rfl
@[simp] theorem State.csFrozen_enl (s : State) (on : Bool) (r : CsRecord) : (s.csFrozen on r).enl = s.enl := by
  unfold State.csFrozen; split <;> rfl
@[simp] theorem State.csFrozen_job (s : State) (on : Bool) (r : CsRecord) : (s.csFrozen on r).job = s.job := by
  unfold State.csFrozen; split <;> rfl
@[simp] theorem State.csFrozen_sht (s : State) (on : Bool) (r : CsRecord) : (s.csFrozen on r).sht = s.sht := by
  unfold State.csFrozen; split <;> rfl
@[simp] theorem State.csFrozen_lanes (s : State) (on : Bool) (r : CsRecord) : (s.csFrozen on r).lanes = s.lanes := by
  unfold State.csFrozen; split <;> rfl
@[simp] theorem State.csFrozen_fab (s : State) (on : Bool) (r : CsRecord) : (s.csFrozen on r).fab = s.fab := by
  unfold State.csFrozen; split <;> rfl
@[simp] theorem State.csFrozen_handover (s : State) (on : Bool) (r : CsRecord) : (s.csFrozen on r).handover = s.handover := by
  unfold State.csFrozen; split <;> rfl
@[simp] theorem State.csFrozen_cam (s : State) (on : Bool) (r : CsRecord) : (s.csFrozen on r).cam = s.cam := by
  unfold State.csFrozen; split <;> rfl
@[simp] theorem State.csFrozen_store (s : State) (on : Bool) (r : CsRecord) : (s.csFrozen on r).store = s.store := by
  unfold State.csFrozen; split <;> rfl
@[simp] theorem State.csFrozen_hst (s : State) (on : Bool) (r : CsRecord) : (s.csFrozen on r).hst = s.hst := by
  unfold State.csFrozen; split <;> rfl
@[simp] theorem State.csFrozen_net (s : State) (on : Bool) (r : CsRecord) : (s.csFrozen on r).net = s.net := by
  unfold State.csFrozen; split <;> rfl
@[simp] theorem State.csFrozen_pwr (s : State) (on : Bool) (r : CsRecord) : (s.csFrozen on r).pwr = s.pwr := by
  unfold State.csFrozen; split <;> rfl
@[simp] theorem State.csFrozen_fuses (s : State) (on : Bool) (r : CsRecord) : (s.csFrozen on r).fuses = s.fuses := by
  unfold State.csFrozen; split <;> rfl
@[simp] theorem State.csFrozen_sec (s : State) (on : Bool) (r : CsRecord) : (s.csFrozen on r).sec = s.sec := by
  unfold State.csFrozen; split <;> rfl

/-! ## csMerged -/

@[simp] theorem State.csMerged_pending (s : State) (ty source : Nat) (r : CsRecord) : (s.csMerged ty source r).pending = s.pending := by
  unfold State.csMerged; split <;> simp
@[simp] theorem State.csMerged_free (s : State) (ty source : Nat) (r : CsRecord) : (s.csMerged ty source r).free = s.free := by
  unfold State.csMerged; split <;> simp
@[simp] theorem State.csMerged_out (s : State) (ty source : Nat) (r : CsRecord) : (s.csMerged ty source r).out = s.out := by
  unfold State.csMerged; split <;> simp
@[simp] theorem State.csMerged_devTime (s : State) (ty source : Nat) (r : CsRecord) : (s.csMerged ty source r).devTime = s.devTime := by
  unfold State.csMerged; split <;> simp
@[simp] theorem State.csMerged_rootTicks (s : State) (ty source : Nat) (r : CsRecord) : (s.csMerged ty source r).rootTicks = s.rootTicks := by
  unfold State.csMerged; split <;> simp
@[simp] theorem State.csMerged_latches (s : State) (ty source : Nat) (r : CsRecord) : (s.csMerged ty source r).latches = s.latches := by
  unfold State.csMerged; split <;> simp
@[simp] theorem State.csMerged_heldPush (s : State) (ty source : Nat) (r : CsRecord) : (s.csMerged ty source r).heldPush = s.heldPush := by
  unfold State.csMerged; split <;> simp
@[simp] theorem State.csMerged_cores (s : State) (ty source : Nat) (r : CsRecord) : (s.csMerged ty source r).cores = s.cores := by
  unfold State.csMerged; split <;> simp
@[simp] theorem State.csMerged_devs (s : State) (ty source : Nat) (r : CsRecord) : (s.csMerged ty source r).devs = s.devs := by
  unfold State.csMerged; split <;> simp
@[simp] theorem State.csMerged_grains (s : State) (ty source : Nat) (r : CsRecord) : (s.csMerged ty source r).grains = s.grains := by
  unfold State.csMerged; split <;> simp
@[simp] theorem State.csMerged_mems (s : State) (ty source : Nat) (r : CsRecord) : (s.csMerged ty source r).mems = s.mems := by
  unfold State.csMerged; split <;> simp
@[simp] theorem State.csMerged_enl (s : State) (ty source : Nat) (r : CsRecord) : (s.csMerged ty source r).enl = s.enl := by
  unfold State.csMerged; split <;> simp
@[simp] theorem State.csMerged_job (s : State) (ty source : Nat) (r : CsRecord) : (s.csMerged ty source r).job = s.job := by
  unfold State.csMerged; split <;> simp
@[simp] theorem State.csMerged_sht (s : State) (ty source : Nat) (r : CsRecord) : (s.csMerged ty source r).sht = s.sht := by
  unfold State.csMerged; split <;> simp
@[simp] theorem State.csMerged_lanes (s : State) (ty source : Nat) (r : CsRecord) : (s.csMerged ty source r).lanes = s.lanes := by
  unfold State.csMerged; split <;> simp
@[simp] theorem State.csMerged_fab (s : State) (ty source : Nat) (r : CsRecord) : (s.csMerged ty source r).fab = s.fab := by
  unfold State.csMerged; split <;> simp
@[simp] theorem State.csMerged_handover (s : State) (ty source : Nat) (r : CsRecord) : (s.csMerged ty source r).handover = s.handover := by
  unfold State.csMerged; split <;> simp
@[simp] theorem State.csMerged_cam (s : State) (ty source : Nat) (r : CsRecord) : (s.csMerged ty source r).cam = s.cam := by
  unfold State.csMerged; split <;> simp
@[simp] theorem State.csMerged_store (s : State) (ty source : Nat) (r : CsRecord) : (s.csMerged ty source r).store = s.store := by
  unfold State.csMerged; split <;> simp
@[simp] theorem State.csMerged_hst (s : State) (ty source : Nat) (r : CsRecord) : (s.csMerged ty source r).hst = s.hst := by
  unfold State.csMerged; split <;> simp
@[simp] theorem State.csMerged_net (s : State) (ty source : Nat) (r : CsRecord) : (s.csMerged ty source r).net = s.net := by
  unfold State.csMerged; split <;> simp
@[simp] theorem State.csMerged_pwr (s : State) (ty source : Nat) (r : CsRecord) : (s.csMerged ty source r).pwr = s.pwr := by
  unfold State.csMerged; split <;> simp
@[simp] theorem State.csMerged_fuses (s : State) (ty source : Nat) (r : CsRecord) : (s.csMerged ty source r).fuses = s.fuses := by
  unfold State.csMerged; split <;> simp
@[simp] theorem State.csMerged_sec (s : State) (ty source : Nat) (r : CsRecord) : (s.csMerged ty source r).sec = s.sec := by
  unfold State.csMerged; split <;> simp

/-! ## csReport -/

@[simp] theorem State.csReport_pending (s : State) (ty source : Nat) (data : List Nat) (trig : Bool) : (s.csReport ty source data trig).pending = s.pending := by
  simp [State.csReport]
@[simp] theorem State.csReport_out (s : State) (ty source : Nat) (data : List Nat) (trig : Bool) : (s.csReport ty source data trig).out = s.out := by
  simp [State.csReport]
@[simp] theorem State.csReport_devTime (s : State) (ty source : Nat) (data : List Nat) (trig : Bool) : (s.csReport ty source data trig).devTime = s.devTime := by
  simp [State.csReport]
@[simp] theorem State.csReport_rootTicks (s : State) (ty source : Nat) (data : List Nat) (trig : Bool) : (s.csReport ty source data trig).rootTicks = s.rootTicks := by
  simp [State.csReport]
@[simp] theorem State.csReport_latches (s : State) (ty source : Nat) (data : List Nat) (trig : Bool) : (s.csReport ty source data trig).latches = s.latches := by
  simp [State.csReport]
@[simp] theorem State.csReport_heldPush (s : State) (ty source : Nat) (data : List Nat) (trig : Bool) : (s.csReport ty source data trig).heldPush = s.heldPush := by
  simp [State.csReport]
@[simp] theorem State.csReport_cores (s : State) (ty source : Nat) (data : List Nat) (trig : Bool) : (s.csReport ty source data trig).cores = s.cores := by
  simp [State.csReport]
@[simp] theorem State.csReport_devs (s : State) (ty source : Nat) (data : List Nat) (trig : Bool) : (s.csReport ty source data trig).devs = s.devs := by
  simp [State.csReport]
@[simp] theorem State.csReport_grains (s : State) (ty source : Nat) (data : List Nat) (trig : Bool) : (s.csReport ty source data trig).grains = s.grains := by
  simp [State.csReport]
@[simp] theorem State.csReport_mems (s : State) (ty source : Nat) (data : List Nat) (trig : Bool) : (s.csReport ty source data trig).mems = s.mems := by
  simp [State.csReport]
@[simp] theorem State.csReport_enl (s : State) (ty source : Nat) (data : List Nat) (trig : Bool) : (s.csReport ty source data trig).enl = s.enl := by
  simp [State.csReport]
@[simp] theorem State.csReport_job (s : State) (ty source : Nat) (data : List Nat) (trig : Bool) : (s.csReport ty source data trig).job = s.job := by
  simp [State.csReport]
@[simp] theorem State.csReport_sht (s : State) (ty source : Nat) (data : List Nat) (trig : Bool) : (s.csReport ty source data trig).sht = s.sht := by
  simp [State.csReport]
@[simp] theorem State.csReport_lanes (s : State) (ty source : Nat) (data : List Nat) (trig : Bool) : (s.csReport ty source data trig).lanes = s.lanes := by
  simp [State.csReport]
@[simp] theorem State.csReport_fab (s : State) (ty source : Nat) (data : List Nat) (trig : Bool) : (s.csReport ty source data trig).fab = s.fab := by
  simp [State.csReport]
@[simp] theorem State.csReport_handover (s : State) (ty source : Nat) (data : List Nat) (trig : Bool) : (s.csReport ty source data trig).handover = s.handover := by
  simp [State.csReport]
@[simp] theorem State.csReport_cam (s : State) (ty source : Nat) (data : List Nat) (trig : Bool) : (s.csReport ty source data trig).cam = s.cam := by
  simp [State.csReport]
@[simp] theorem State.csReport_store (s : State) (ty source : Nat) (data : List Nat) (trig : Bool) : (s.csReport ty source data trig).store = s.store := by
  simp [State.csReport]
@[simp] theorem State.csReport_hst (s : State) (ty source : Nat) (data : List Nat) (trig : Bool) : (s.csReport ty source data trig).hst = s.hst := by
  simp [State.csReport]
@[simp] theorem State.csReport_net (s : State) (ty source : Nat) (data : List Nat) (trig : Bool) : (s.csReport ty source data trig).net = s.net := by
  simp [State.csReport]
@[simp] theorem State.csReport_pwr (s : State) (ty source : Nat) (data : List Nat) (trig : Bool) : (s.csReport ty source data trig).pwr = s.pwr := by
  simp [State.csReport]
@[simp] theorem State.csReport_fuses (s : State) (ty source : Nat) (data : List Nat) (trig : Bool) : (s.csReport ty source data trig).fuses = s.fuses := by
  simp [State.csReport]
@[simp] theorem State.csReport_sec (s : State) (ty source : Nat) (data : List Nat) (trig : Bool) : (s.csReport ty source data trig).sec = s.sec := by
  simp [State.csReport]

/-! ## csMasked -/

@[simp] theorem State.csMasked_pending (s : State) (ty source : Nat) (data : List Nat) (b : Nat) : (s.csMasked ty source data b).pending = s.pending := by
  simp [State.csMasked]
@[simp] theorem State.csMasked_out (s : State) (ty source : Nat) (data : List Nat) (b : Nat) : (s.csMasked ty source data b).out = s.out := by
  simp [State.csMasked]
@[simp] theorem State.csMasked_devTime (s : State) (ty source : Nat) (data : List Nat) (b : Nat) : (s.csMasked ty source data b).devTime = s.devTime := by
  simp [State.csMasked]
@[simp] theorem State.csMasked_rootTicks (s : State) (ty source : Nat) (data : List Nat) (b : Nat) : (s.csMasked ty source data b).rootTicks = s.rootTicks := by
  simp [State.csMasked]
@[simp] theorem State.csMasked_latches (s : State) (ty source : Nat) (data : List Nat) (b : Nat) : (s.csMasked ty source data b).latches = s.latches := by
  simp [State.csMasked]
@[simp] theorem State.csMasked_heldPush (s : State) (ty source : Nat) (data : List Nat) (b : Nat) : (s.csMasked ty source data b).heldPush = s.heldPush := by
  simp [State.csMasked]
@[simp] theorem State.csMasked_cores (s : State) (ty source : Nat) (data : List Nat) (b : Nat) : (s.csMasked ty source data b).cores = s.cores := by
  simp [State.csMasked]
@[simp] theorem State.csMasked_devs (s : State) (ty source : Nat) (data : List Nat) (b : Nat) : (s.csMasked ty source data b).devs = s.devs := by
  simp [State.csMasked]
@[simp] theorem State.csMasked_grains (s : State) (ty source : Nat) (data : List Nat) (b : Nat) : (s.csMasked ty source data b).grains = s.grains := by
  simp [State.csMasked]
@[simp] theorem State.csMasked_mems (s : State) (ty source : Nat) (data : List Nat) (b : Nat) : (s.csMasked ty source data b).mems = s.mems := by
  simp [State.csMasked]
@[simp] theorem State.csMasked_enl (s : State) (ty source : Nat) (data : List Nat) (b : Nat) : (s.csMasked ty source data b).enl = s.enl := by
  simp [State.csMasked]
@[simp] theorem State.csMasked_job (s : State) (ty source : Nat) (data : List Nat) (b : Nat) : (s.csMasked ty source data b).job = s.job := by
  simp [State.csMasked]
@[simp] theorem State.csMasked_sht (s : State) (ty source : Nat) (data : List Nat) (b : Nat) : (s.csMasked ty source data b).sht = s.sht := by
  simp [State.csMasked]
@[simp] theorem State.csMasked_lanes (s : State) (ty source : Nat) (data : List Nat) (b : Nat) : (s.csMasked ty source data b).lanes = s.lanes := by
  simp [State.csMasked]
@[simp] theorem State.csMasked_fab (s : State) (ty source : Nat) (data : List Nat) (b : Nat) : (s.csMasked ty source data b).fab = s.fab := by
  simp [State.csMasked]
@[simp] theorem State.csMasked_handover (s : State) (ty source : Nat) (data : List Nat) (b : Nat) : (s.csMasked ty source data b).handover = s.handover := by
  simp [State.csMasked]
@[simp] theorem State.csMasked_cam (s : State) (ty source : Nat) (data : List Nat) (b : Nat) : (s.csMasked ty source data b).cam = s.cam := by
  simp [State.csMasked]
@[simp] theorem State.csMasked_store (s : State) (ty source : Nat) (data : List Nat) (b : Nat) : (s.csMasked ty source data b).store = s.store := by
  simp [State.csMasked]
@[simp] theorem State.csMasked_hst (s : State) (ty source : Nat) (data : List Nat) (b : Nat) : (s.csMasked ty source data b).hst = s.hst := by
  simp [State.csMasked]
@[simp] theorem State.csMasked_net (s : State) (ty source : Nat) (data : List Nat) (b : Nat) : (s.csMasked ty source data b).net = s.net := by
  simp [State.csMasked]
@[simp] theorem State.csMasked_pwr (s : State) (ty source : Nat) (data : List Nat) (b : Nat) : (s.csMasked ty source data b).pwr = s.pwr := by
  simp [State.csMasked]
@[simp] theorem State.csMasked_fuses (s : State) (ty source : Nat) (data : List Nat) (b : Nat) : (s.csMasked ty source data b).fuses = s.fuses := by
  simp [State.csMasked]
@[simp] theorem State.csMasked_sec (s : State) (ty source : Nat) (data : List Nat) (b : Nat) : (s.csMasked ty source data b).sec = s.sec := by
  simp [State.csMasked]

/-! ## redund -/

@[simp] theorem State.redund_pending (s : State) (bit : Nat) (v : Bool) : (s.redund bit v).pending = s.pending := rfl
@[simp] theorem State.redund_free (s : State) (bit : Nat) (v : Bool) : (s.redund bit v).free = s.free := rfl
@[simp] theorem State.redund_out (s : State) (bit : Nat) (v : Bool) : (s.redund bit v).out = s.out := rfl
@[simp] theorem State.redund_devTime (s : State) (bit : Nat) (v : Bool) : (s.redund bit v).devTime = s.devTime := rfl
@[simp] theorem State.redund_rootTicks (s : State) (bit : Nat) (v : Bool) : (s.redund bit v).rootTicks = s.rootTicks := rfl
@[simp] theorem State.redund_latches (s : State) (bit : Nat) (v : Bool) : (s.redund bit v).latches = s.latches := rfl
@[simp] theorem State.redund_heldPush (s : State) (bit : Nat) (v : Bool) : (s.redund bit v).heldPush = s.heldPush := rfl
@[simp] theorem State.redund_cores (s : State) (bit : Nat) (v : Bool) : (s.redund bit v).cores = s.cores := rfl
@[simp] theorem State.redund_devs (s : State) (bit : Nat) (v : Bool) : (s.redund bit v).devs = s.devs := rfl
@[simp] theorem State.redund_grains (s : State) (bit : Nat) (v : Bool) : (s.redund bit v).grains = s.grains := rfl
@[simp] theorem State.redund_mems (s : State) (bit : Nat) (v : Bool) : (s.redund bit v).mems = s.mems := rfl
@[simp] theorem State.redund_enl (s : State) (bit : Nat) (v : Bool) : (s.redund bit v).enl = s.enl := rfl
@[simp] theorem State.redund_job (s : State) (bit : Nat) (v : Bool) : (s.redund bit v).job = s.job := rfl
@[simp] theorem State.redund_sht (s : State) (bit : Nat) (v : Bool) : (s.redund bit v).sht = s.sht := rfl
@[simp] theorem State.redund_lanes (s : State) (bit : Nat) (v : Bool) : (s.redund bit v).lanes = s.lanes := rfl
@[simp] theorem State.redund_fab (s : State) (bit : Nat) (v : Bool) : (s.redund bit v).fab = s.fab := rfl
@[simp] theorem State.redund_handover (s : State) (bit : Nat) (v : Bool) : (s.redund bit v).handover = s.handover := rfl
@[simp] theorem State.redund_cam (s : State) (bit : Nat) (v : Bool) : (s.redund bit v).cam = s.cam := rfl
@[simp] theorem State.redund_store (s : State) (bit : Nat) (v : Bool) : (s.redund bit v).store = s.store := rfl
@[simp] theorem State.redund_hst (s : State) (bit : Nat) (v : Bool) : (s.redund bit v).hst = s.hst := rfl
@[simp] theorem State.redund_net (s : State) (bit : Nat) (v : Bool) : (s.redund bit v).net = s.net := rfl
@[simp] theorem State.redund_pwr (s : State) (bit : Nat) (v : Bool) : (s.redund bit v).pwr = s.pwr := rfl
@[simp] theorem State.redund_fuses (s : State) (bit : Nat) (v : Bool) : (s.redund bit v).fuses = s.fuses := rfl
@[simp] theorem State.redund_sec (s : State) (bit : Nat) (v : Bool) : (s.redund bit v).sec = s.sec := rfl
@[simp] theorem State.redund_cs (s : State) (bit : Nat) (v : Bool) : (s.redund bit v).cs = s.cs := rfl

/-! ## wset -/

@[simp] theorem State.wset_pending (s : State) (w : WRing) (c e : Fld) (v : Nat) : (s.wset w c e v).pending = s.pending := rfl
@[simp] theorem State.wset_free (s : State) (w : WRing) (c e : Fld) (v : Nat) : (s.wset w c e v).free = s.free := rfl
@[simp] theorem State.wset_out (s : State) (w : WRing) (c e : Fld) (v : Nat) : (s.wset w c e v).out = s.out := rfl
@[simp] theorem State.wset_devTime (s : State) (w : WRing) (c e : Fld) (v : Nat) : (s.wset w c e v).devTime = s.devTime := rfl
@[simp] theorem State.wset_rootTicks (s : State) (w : WRing) (c e : Fld) (v : Nat) : (s.wset w c e v).rootTicks = s.rootTicks := rfl
@[simp] theorem State.wset_latches (s : State) (w : WRing) (c e : Fld) (v : Nat) : (s.wset w c e v).latches = s.latches := rfl
@[simp] theorem State.wset_heldPush (s : State) (w : WRing) (c e : Fld) (v : Nat) : (s.wset w c e v).heldPush = s.heldPush := rfl
@[simp] theorem State.wset_cores (s : State) (w : WRing) (c e : Fld) (v : Nat) : (s.wset w c e v).cores = s.cores := rfl
@[simp] theorem State.wset_devs (s : State) (w : WRing) (c e : Fld) (v : Nat) : (s.wset w c e v).devs = s.devs := rfl
@[simp] theorem State.wset_grains (s : State) (w : WRing) (c e : Fld) (v : Nat) : (s.wset w c e v).grains = s.grains := rfl
@[simp] theorem State.wset_mems (s : State) (w : WRing) (c e : Fld) (v : Nat) : (s.wset w c e v).mems = s.mems := rfl
@[simp] theorem State.wset_enl (s : State) (w : WRing) (c e : Fld) (v : Nat) : (s.wset w c e v).enl = s.enl := rfl
@[simp] theorem State.wset_job (s : State) (w : WRing) (c e : Fld) (v : Nat) : (s.wset w c e v).job = s.job := rfl
@[simp] theorem State.wset_sht (s : State) (w : WRing) (c e : Fld) (v : Nat) : (s.wset w c e v).sht = s.sht := rfl
@[simp] theorem State.wset_lanes (s : State) (w : WRing) (c e : Fld) (v : Nat) : (s.wset w c e v).lanes = s.lanes := rfl
@[simp] theorem State.wset_fab (s : State) (w : WRing) (c e : Fld) (v : Nat) : (s.wset w c e v).fab = s.fab := rfl
@[simp] theorem State.wset_handover (s : State) (w : WRing) (c e : Fld) (v : Nat) : (s.wset w c e v).handover = s.handover := rfl
@[simp] theorem State.wset_cam (s : State) (w : WRing) (c e : Fld) (v : Nat) : (s.wset w c e v).cam = s.cam := rfl
@[simp] theorem State.wset_store (s : State) (w : WRing) (c e : Fld) (v : Nat) : (s.wset w c e v).store = s.store := rfl
@[simp] theorem State.wset_hst (s : State) (w : WRing) (c e : Fld) (v : Nat) : (s.wset w c e v).hst = s.hst := rfl
@[simp] theorem State.wset_net (s : State) (w : WRing) (c e : Fld) (v : Nat) : (s.wset w c e v).net = s.net := rfl
@[simp] theorem State.wset_pwr (s : State) (w : WRing) (c e : Fld) (v : Nat) : (s.wset w c e v).pwr = s.pwr := rfl
@[simp] theorem State.wset_fuses (s : State) (w : WRing) (c e : Fld) (v : Nat) : (s.wset w c e v).fuses = s.fuses := rfl
@[simp] theorem State.wset_sec (s : State) (w : WRing) (c e : Fld) (v : Nat) : (s.wset w c e v).sec = s.sec := rfl
@[simp] theorem State.wset_cs (s : State) (w : WRing) (c e : Fld) (v : Nat) : (s.wset w c e v).cs = s.cs := rfl

/-! ## sendVector -/

@[simp] theorem State.sendVector_pending (s : State) (f : Fin 8) (v : Nat) : (s.sendVector f v).pending = s.pending := by
  unfold State.sendVector; split <;> rfl
@[simp] theorem State.sendVector_free (s : State) (f : Fin 8) (v : Nat) : (s.sendVector f v).free = s.free := by
  unfold State.sendVector; split <;> rfl
@[simp] theorem State.sendVector_devTime (s : State) (f : Fin 8) (v : Nat) : (s.sendVector f v).devTime = s.devTime := by
  unfold State.sendVector; split <;> rfl
@[simp] theorem State.sendVector_rootTicks (s : State) (f : Fin 8) (v : Nat) : (s.sendVector f v).rootTicks = s.rootTicks := by
  unfold State.sendVector; split <;> rfl
@[simp] theorem State.sendVector_regs (s : State) (f : Fin 8) (v : Nat) : (s.sendVector f v).regs = s.regs := by
  unfold State.sendVector; split <;> rfl
@[simp] theorem State.sendVector_latches (s : State) (f : Fin 8) (v : Nat) : (s.sendVector f v).latches = s.latches := by
  unfold State.sendVector; split <;> rfl
@[simp] theorem State.sendVector_heldPush (s : State) (f : Fin 8) (v : Nat) : (s.sendVector f v).heldPush = s.heldPush := by
  unfold State.sendVector; split <;> rfl
@[simp] theorem State.sendVector_cores (s : State) (f : Fin 8) (v : Nat) : (s.sendVector f v).cores = s.cores := by
  unfold State.sendVector; split <;> rfl
@[simp] theorem State.sendVector_devs (s : State) (f : Fin 8) (v : Nat) : (s.sendVector f v).devs = s.devs := by
  unfold State.sendVector; split <;> rfl
@[simp] theorem State.sendVector_grains (s : State) (f : Fin 8) (v : Nat) : (s.sendVector f v).grains = s.grains := by
  unfold State.sendVector; split <;> rfl
@[simp] theorem State.sendVector_mems (s : State) (f : Fin 8) (v : Nat) : (s.sendVector f v).mems = s.mems := by
  unfold State.sendVector; split <;> rfl
@[simp] theorem State.sendVector_enl (s : State) (f : Fin 8) (v : Nat) : (s.sendVector f v).enl = s.enl := by
  unfold State.sendVector; split <;> rfl
@[simp] theorem State.sendVector_job (s : State) (f : Fin 8) (v : Nat) : (s.sendVector f v).job = s.job := by
  unfold State.sendVector; split <;> rfl
@[simp] theorem State.sendVector_sht (s : State) (f : Fin 8) (v : Nat) : (s.sendVector f v).sht = s.sht := by
  unfold State.sendVector; split <;> rfl
@[simp] theorem State.sendVector_lanes (s : State) (f : Fin 8) (v : Nat) : (s.sendVector f v).lanes = s.lanes := by
  unfold State.sendVector; split <;> rfl
@[simp] theorem State.sendVector_fab (s : State) (f : Fin 8) (v : Nat) : (s.sendVector f v).fab = s.fab := by
  unfold State.sendVector; split <;> rfl
@[simp] theorem State.sendVector_handover (s : State) (f : Fin 8) (v : Nat) : (s.sendVector f v).handover = s.handover := by
  unfold State.sendVector; split <;> rfl
@[simp] theorem State.sendVector_cam (s : State) (f : Fin 8) (v : Nat) : (s.sendVector f v).cam = s.cam := by
  unfold State.sendVector; split <;> rfl
@[simp] theorem State.sendVector_store (s : State) (f : Fin 8) (v : Nat) : (s.sendVector f v).store = s.store := by
  unfold State.sendVector; split <;> rfl
@[simp] theorem State.sendVector_net (s : State) (f : Fin 8) (v : Nat) : (s.sendVector f v).net = s.net := by
  unfold State.sendVector; split <;> rfl
@[simp] theorem State.sendVector_pwr (s : State) (f : Fin 8) (v : Nat) : (s.sendVector f v).pwr = s.pwr := by
  unfold State.sendVector; split <;> rfl
@[simp] theorem State.sendVector_fuses (s : State) (f : Fin 8) (v : Nat) : (s.sendVector f v).fuses = s.fuses := by
  unfold State.sendVector; split <;> rfl
@[simp] theorem State.sendVector_sec (s : State) (f : Fin 8) (v : Nat) : (s.sendVector f v).sec = s.sec := by
  unfold State.sendVector; split <;> rfl
@[simp] theorem State.sendVector_cs (s : State) (f : Fin 8) (v : Nat) : (s.sendVector f v).cs = s.cs := by
  unfold State.sendVector; split <;> rfl

/-! ## wVector -/

@[simp] theorem State.wVector_pending (s : State) (w : WRing) : (s.wVector w).pending = s.pending := by
  simp [State.wVector]
@[simp] theorem State.wVector_free (s : State) (w : WRing) : (s.wVector w).free = s.free := by
  simp [State.wVector]
@[simp] theorem State.wVector_devTime (s : State) (w : WRing) : (s.wVector w).devTime = s.devTime := by
  simp [State.wVector]
@[simp] theorem State.wVector_rootTicks (s : State) (w : WRing) : (s.wVector w).rootTicks = s.rootTicks := by
  simp [State.wVector]
@[simp] theorem State.wVector_regs (s : State) (w : WRing) : (s.wVector w).regs = s.regs := by
  simp [State.wVector]
@[simp] theorem State.wVector_latches (s : State) (w : WRing) : (s.wVector w).latches = s.latches := by
  simp [State.wVector]
@[simp] theorem State.wVector_heldPush (s : State) (w : WRing) : (s.wVector w).heldPush = s.heldPush := by
  simp [State.wVector]
@[simp] theorem State.wVector_cores (s : State) (w : WRing) : (s.wVector w).cores = s.cores := by
  simp [State.wVector]
@[simp] theorem State.wVector_devs (s : State) (w : WRing) : (s.wVector w).devs = s.devs := by
  simp [State.wVector]
@[simp] theorem State.wVector_grains (s : State) (w : WRing) : (s.wVector w).grains = s.grains := by
  simp [State.wVector]
@[simp] theorem State.wVector_mems (s : State) (w : WRing) : (s.wVector w).mems = s.mems := by
  simp [State.wVector]
@[simp] theorem State.wVector_enl (s : State) (w : WRing) : (s.wVector w).enl = s.enl := by
  simp [State.wVector]
@[simp] theorem State.wVector_job (s : State) (w : WRing) : (s.wVector w).job = s.job := by
  simp [State.wVector]
@[simp] theorem State.wVector_sht (s : State) (w : WRing) : (s.wVector w).sht = s.sht := by
  simp [State.wVector]
@[simp] theorem State.wVector_lanes (s : State) (w : WRing) : (s.wVector w).lanes = s.lanes := by
  simp [State.wVector]
@[simp] theorem State.wVector_fab (s : State) (w : WRing) : (s.wVector w).fab = s.fab := by
  simp [State.wVector]
@[simp] theorem State.wVector_handover (s : State) (w : WRing) : (s.wVector w).handover = s.handover := by
  simp [State.wVector]
@[simp] theorem State.wVector_cam (s : State) (w : WRing) : (s.wVector w).cam = s.cam := by
  simp [State.wVector]
@[simp] theorem State.wVector_store (s : State) (w : WRing) : (s.wVector w).store = s.store := by
  simp [State.wVector]
@[simp] theorem State.wVector_net (s : State) (w : WRing) : (s.wVector w).net = s.net := by
  simp [State.wVector]
@[simp] theorem State.wVector_pwr (s : State) (w : WRing) : (s.wVector w).pwr = s.pwr := by
  simp [State.wVector]
@[simp] theorem State.wVector_fuses (s : State) (w : WRing) : (s.wVector w).fuses = s.fuses := by
  simp [State.wVector]
@[simp] theorem State.wVector_sec (s : State) (w : WRing) : (s.wVector w).sec = s.sec := by
  simp [State.wVector]
@[simp] theorem State.wVector_cs (s : State) (w : WRing) : (s.wVector w).cs = s.cs := by
  simp [State.wVector]

/-! ## wCoalesce -/

@[simp] theorem State.wCoalesce_pending (s : State) (w : WRing) (n : Nat) : (s.wCoalesce w n).pending = s.pending := by
  unfold State.wCoalesce; dsimp only; split; · rfl
  · split
    · simp
    · rfl
@[simp] theorem State.wCoalesce_free (s : State) (w : WRing) (n : Nat) : (s.wCoalesce w n).free = s.free := by
  unfold State.wCoalesce; dsimp only; split; · rfl
  · split
    · simp
    · rfl
@[simp] theorem State.wCoalesce_devTime (s : State) (w : WRing) (n : Nat) : (s.wCoalesce w n).devTime = s.devTime := by
  unfold State.wCoalesce; dsimp only; split; · rfl
  · split
    · simp
    · rfl
@[simp] theorem State.wCoalesce_rootTicks (s : State) (w : WRing) (n : Nat) : (s.wCoalesce w n).rootTicks = s.rootTicks := by
  unfold State.wCoalesce; dsimp only; split; · rfl
  · split
    · simp
    · rfl
@[simp] theorem State.wCoalesce_regs (s : State) (w : WRing) (n : Nat) : (s.wCoalesce w n).regs = s.regs := by
  unfold State.wCoalesce; dsimp only; split; · rfl
  · split
    · simp
    · rfl
@[simp] theorem State.wCoalesce_latches (s : State) (w : WRing) (n : Nat) : (s.wCoalesce w n).latches = s.latches := by
  unfold State.wCoalesce; dsimp only; split; · rfl
  · split
    · simp
    · rfl
@[simp] theorem State.wCoalesce_heldPush (s : State) (w : WRing) (n : Nat) : (s.wCoalesce w n).heldPush = s.heldPush := by
  unfold State.wCoalesce; dsimp only; split; · rfl
  · split
    · simp
    · rfl
@[simp] theorem State.wCoalesce_cores (s : State) (w : WRing) (n : Nat) : (s.wCoalesce w n).cores = s.cores := by
  unfold State.wCoalesce; dsimp only; split; · rfl
  · split
    · simp
    · rfl
@[simp] theorem State.wCoalesce_devs (s : State) (w : WRing) (n : Nat) : (s.wCoalesce w n).devs = s.devs := by
  unfold State.wCoalesce; dsimp only; split; · rfl
  · split
    · simp
    · rfl
@[simp] theorem State.wCoalesce_grains (s : State) (w : WRing) (n : Nat) : (s.wCoalesce w n).grains = s.grains := by
  unfold State.wCoalesce; dsimp only; split; · rfl
  · split
    · simp
    · rfl
@[simp] theorem State.wCoalesce_mems (s : State) (w : WRing) (n : Nat) : (s.wCoalesce w n).mems = s.mems := by
  unfold State.wCoalesce; dsimp only; split; · rfl
  · split
    · simp
    · rfl
@[simp] theorem State.wCoalesce_enl (s : State) (w : WRing) (n : Nat) : (s.wCoalesce w n).enl = s.enl := by
  unfold State.wCoalesce; dsimp only; split; · rfl
  · split
    · simp
    · rfl
@[simp] theorem State.wCoalesce_job (s : State) (w : WRing) (n : Nat) : (s.wCoalesce w n).job = s.job := by
  unfold State.wCoalesce; dsimp only; split; · rfl
  · split
    · simp
    · rfl
@[simp] theorem State.wCoalesce_sht (s : State) (w : WRing) (n : Nat) : (s.wCoalesce w n).sht = s.sht := by
  unfold State.wCoalesce; dsimp only; split; · rfl
  · split
    · simp
    · rfl
@[simp] theorem State.wCoalesce_lanes (s : State) (w : WRing) (n : Nat) : (s.wCoalesce w n).lanes = s.lanes := by
  unfold State.wCoalesce; dsimp only; split; · rfl
  · split
    · simp
    · rfl
@[simp] theorem State.wCoalesce_fab (s : State) (w : WRing) (n : Nat) : (s.wCoalesce w n).fab = s.fab := by
  unfold State.wCoalesce; dsimp only; split; · rfl
  · split
    · simp
    · rfl
@[simp] theorem State.wCoalesce_handover (s : State) (w : WRing) (n : Nat) : (s.wCoalesce w n).handover = s.handover := by
  unfold State.wCoalesce; dsimp only; split; · rfl
  · split
    · simp
    · rfl
@[simp] theorem State.wCoalesce_cam (s : State) (w : WRing) (n : Nat) : (s.wCoalesce w n).cam = s.cam := by
  unfold State.wCoalesce; dsimp only; split; · rfl
  · split
    · simp
    · rfl
@[simp] theorem State.wCoalesce_store (s : State) (w : WRing) (n : Nat) : (s.wCoalesce w n).store = s.store := by
  unfold State.wCoalesce; dsimp only; split; · rfl
  · split
    · simp
    · rfl
@[simp] theorem State.wCoalesce_net (s : State) (w : WRing) (n : Nat) : (s.wCoalesce w n).net = s.net := by
  unfold State.wCoalesce; dsimp only; split; · rfl
  · split
    · simp
    · rfl
@[simp] theorem State.wCoalesce_pwr (s : State) (w : WRing) (n : Nat) : (s.wCoalesce w n).pwr = s.pwr := by
  unfold State.wCoalesce; dsimp only; split; · rfl
  · split
    · simp
    · rfl
@[simp] theorem State.wCoalesce_fuses (s : State) (w : WRing) (n : Nat) : (s.wCoalesce w n).fuses = s.fuses := by
  unfold State.wCoalesce; dsimp only; split; · rfl
  · split
    · simp
    · rfl
@[simp] theorem State.wCoalesce_sec (s : State) (w : WRing) (n : Nat) : (s.wCoalesce w n).sec = s.sec := by
  unfold State.wCoalesce; dsimp only; split; · rfl
  · split
    · simp
    · rfl
@[simp] theorem State.wCoalesce_cs (s : State) (w : WRing) (n : Nat) : (s.wCoalesce w n).cs = s.cs := by
  unfold State.wCoalesce; dsimp only; split; · rfl
  · split
    · simp
    · rfl

/-! ## unowe -/

@[simp] theorem State.unowe_pending (s : State) (f : Fin 8) (e : Entry) : (s.unowe f e).pending = s.pending := by
  unfold State.unowe; dsimp only; split; · rfl
  · split <;> rfl
@[simp] theorem State.unowe_free (s : State) (f : Fin 8) (e : Entry) : (s.unowe f e).free = s.free := by
  unfold State.unowe; dsimp only; split; · rfl
  · split <;> rfl
@[simp] theorem State.unowe_out (s : State) (f : Fin 8) (e : Entry) : (s.unowe f e).out = s.out := by
  unfold State.unowe; dsimp only; split; · rfl
  · split <;> rfl
@[simp] theorem State.unowe_devTime (s : State) (f : Fin 8) (e : Entry) : (s.unowe f e).devTime = s.devTime := by
  unfold State.unowe; dsimp only; split; · rfl
  · split <;> rfl
@[simp] theorem State.unowe_rootTicks (s : State) (f : Fin 8) (e : Entry) : (s.unowe f e).rootTicks = s.rootTicks := by
  unfold State.unowe; dsimp only; split; · rfl
  · split <;> rfl
@[simp] theorem State.unowe_latches (s : State) (f : Fin 8) (e : Entry) : (s.unowe f e).latches = s.latches := by
  unfold State.unowe; dsimp only; split; · rfl
  · split <;> rfl
@[simp] theorem State.unowe_heldPush (s : State) (f : Fin 8) (e : Entry) : (s.unowe f e).heldPush = s.heldPush := by
  unfold State.unowe; dsimp only; split; · rfl
  · split <;> rfl
@[simp] theorem State.unowe_cores (s : State) (f : Fin 8) (e : Entry) : (s.unowe f e).cores = s.cores := by
  unfold State.unowe; dsimp only; split; · rfl
  · split <;> rfl
@[simp] theorem State.unowe_devs (s : State) (f : Fin 8) (e : Entry) : (s.unowe f e).devs = s.devs := by
  unfold State.unowe; dsimp only; split; · rfl
  · split <;> rfl
@[simp] theorem State.unowe_grains (s : State) (f : Fin 8) (e : Entry) : (s.unowe f e).grains = s.grains := by
  unfold State.unowe; dsimp only; split; · rfl
  · split <;> rfl
@[simp] theorem State.unowe_mems (s : State) (f : Fin 8) (e : Entry) : (s.unowe f e).mems = s.mems := by
  unfold State.unowe; dsimp only; split; · rfl
  · split <;> rfl
@[simp] theorem State.unowe_enl (s : State) (f : Fin 8) (e : Entry) : (s.unowe f e).enl = s.enl := by
  unfold State.unowe; dsimp only; split; · rfl
  · split <;> rfl
@[simp] theorem State.unowe_job (s : State) (f : Fin 8) (e : Entry) : (s.unowe f e).job = s.job := by
  unfold State.unowe; dsimp only; split; · rfl
  · split <;> rfl
@[simp] theorem State.unowe_sht (s : State) (f : Fin 8) (e : Entry) : (s.unowe f e).sht = s.sht := by
  unfold State.unowe; dsimp only; split; · rfl
  · split <;> rfl
@[simp] theorem State.unowe_lanes (s : State) (f : Fin 8) (e : Entry) : (s.unowe f e).lanes = s.lanes := by
  unfold State.unowe; dsimp only; split; · rfl
  · split <;> rfl
@[simp] theorem State.unowe_fab (s : State) (f : Fin 8) (e : Entry) : (s.unowe f e).fab = s.fab := by
  unfold State.unowe; dsimp only; split; · rfl
  · split <;> rfl
@[simp] theorem State.unowe_handover (s : State) (f : Fin 8) (e : Entry) : (s.unowe f e).handover = s.handover := by
  unfold State.unowe; dsimp only; split; · rfl
  · split <;> rfl
@[simp] theorem State.unowe_cam (s : State) (f : Fin 8) (e : Entry) : (s.unowe f e).cam = s.cam := by
  unfold State.unowe; dsimp only; split; · rfl
  · split <;> rfl
@[simp] theorem State.unowe_store (s : State) (f : Fin 8) (e : Entry) : (s.unowe f e).store = s.store := by
  unfold State.unowe; dsimp only; split; · rfl
  · split <;> rfl
@[simp] theorem State.unowe_net (s : State) (f : Fin 8) (e : Entry) : (s.unowe f e).net = s.net := by
  unfold State.unowe; dsimp only; split; · rfl
  · split <;> rfl
@[simp] theorem State.unowe_pwr (s : State) (f : Fin 8) (e : Entry) : (s.unowe f e).pwr = s.pwr := by
  unfold State.unowe; dsimp only; split; · rfl
  · split <;> rfl
@[simp] theorem State.unowe_fuses (s : State) (f : Fin 8) (e : Entry) : (s.unowe f e).fuses = s.fuses := by
  unfold State.unowe; dsimp only; split; · rfl
  · split <;> rfl
@[simp] theorem State.unowe_sec (s : State) (f : Fin 8) (e : Entry) : (s.unowe f e).sec = s.sec := by
  unfold State.unowe; dsimp only; split; · rfl
  · split <;> rfl
@[simp] theorem State.unowe_cs (s : State) (f : Fin 8) (e : Entry) : (s.unowe f e).cs = s.cs := by
  unfold State.unowe; dsimp only; split; · rfl
  · split <;> rfl

/-! ## wPost -/

@[simp] theorem State.wPost_pending (s : State) (w : WRing) (e : Entry) : (s.wPost w e).pending = s.pending := by
  unfold State.wPost; dsimp only; split <;> split <;> simp
@[simp] theorem State.wPost_free (s : State) (w : WRing) (e : Entry) : (s.wPost w e).free = s.free := by
  unfold State.wPost; dsimp only; split <;> split <;> simp
@[simp] theorem State.wPost_devTime (s : State) (w : WRing) (e : Entry) : (s.wPost w e).devTime = s.devTime := by
  unfold State.wPost; dsimp only; split <;> split <;> simp
@[simp] theorem State.wPost_rootTicks (s : State) (w : WRing) (e : Entry) : (s.wPost w e).rootTicks = s.rootTicks := by
  unfold State.wPost; dsimp only; split <;> split <;> simp
@[simp] theorem State.wPost_latches (s : State) (w : WRing) (e : Entry) : (s.wPost w e).latches = s.latches := by
  unfold State.wPost; dsimp only; split <;> split <;> simp
@[simp] theorem State.wPost_heldPush (s : State) (w : WRing) (e : Entry) : (s.wPost w e).heldPush = s.heldPush := by
  unfold State.wPost; dsimp only; split <;> split <;> simp
@[simp] theorem State.wPost_cores (s : State) (w : WRing) (e : Entry) : (s.wPost w e).cores = s.cores := by
  unfold State.wPost; dsimp only; split <;> split <;> simp
@[simp] theorem State.wPost_devs (s : State) (w : WRing) (e : Entry) : (s.wPost w e).devs = s.devs := by
  unfold State.wPost; dsimp only; split <;> split <;> simp
@[simp] theorem State.wPost_grains (s : State) (w : WRing) (e : Entry) : (s.wPost w e).grains = s.grains := by
  unfold State.wPost; dsimp only; split <;> split <;> simp
@[simp] theorem State.wPost_mems (s : State) (w : WRing) (e : Entry) : (s.wPost w e).mems = s.mems := by
  unfold State.wPost; dsimp only; split <;> split <;> simp
@[simp] theorem State.wPost_enl (s : State) (w : WRing) (e : Entry) : (s.wPost w e).enl = s.enl := by
  unfold State.wPost; dsimp only; split <;> split <;> simp
@[simp] theorem State.wPost_job (s : State) (w : WRing) (e : Entry) : (s.wPost w e).job = s.job := by
  unfold State.wPost; dsimp only; split <;> split <;> simp
@[simp] theorem State.wPost_sht (s : State) (w : WRing) (e : Entry) : (s.wPost w e).sht = s.sht := by
  unfold State.wPost; dsimp only; split <;> split <;> simp
@[simp] theorem State.wPost_lanes (s : State) (w : WRing) (e : Entry) : (s.wPost w e).lanes = s.lanes := by
  unfold State.wPost; dsimp only; split <;> split <;> simp
@[simp] theorem State.wPost_fab (s : State) (w : WRing) (e : Entry) : (s.wPost w e).fab = s.fab := by
  unfold State.wPost; dsimp only; split <;> split <;> simp
@[simp] theorem State.wPost_handover (s : State) (w : WRing) (e : Entry) : (s.wPost w e).handover = s.handover := by
  unfold State.wPost; dsimp only; split <;> split <;> simp
@[simp] theorem State.wPost_cam (s : State) (w : WRing) (e : Entry) : (s.wPost w e).cam = s.cam := by
  unfold State.wPost; dsimp only; split <;> split <;> simp
@[simp] theorem State.wPost_store (s : State) (w : WRing) (e : Entry) : (s.wPost w e).store = s.store := by
  unfold State.wPost; dsimp only; split <;> split <;> simp
@[simp] theorem State.wPost_net (s : State) (w : WRing) (e : Entry) : (s.wPost w e).net = s.net := by
  unfold State.wPost; dsimp only; split <;> split <;> simp
@[simp] theorem State.wPost_pwr (s : State) (w : WRing) (e : Entry) : (s.wPost w e).pwr = s.pwr := by
  unfold State.wPost; dsimp only; split <;> split <;> simp
@[simp] theorem State.wPost_fuses (s : State) (w : WRing) (e : Entry) : (s.wPost w e).fuses = s.fuses := by
  unfold State.wPost; dsimp only; split <;> split <;> simp
@[simp] theorem State.wPost_sec (s : State) (w : WRing) (e : Entry) : (s.wPost w e).sec = s.sec := by
  unfold State.wPost; dsimp only; split <;> split <;> simp
@[simp] theorem State.wPost_cs (s : State) (w : WRing) (e : Entry) : (s.wPost w e).cs = s.cs := by
  unfold State.wPost; dsimp only; split <;> split <;> simp

/-! ## wSetWaiting -/

@[simp] theorem State.wSetWaiting_pending (s : State) (w : WRing) (l : List Entry) : (s.wSetWaiting w l).pending = s.pending := by
  unfold State.wSetWaiting; split <;> rfl
@[simp] theorem State.wSetWaiting_free (s : State) (w : WRing) (l : List Entry) : (s.wSetWaiting w l).free = s.free := by
  unfold State.wSetWaiting; split <;> rfl
@[simp] theorem State.wSetWaiting_out (s : State) (w : WRing) (l : List Entry) : (s.wSetWaiting w l).out = s.out := by
  unfold State.wSetWaiting; split <;> rfl
@[simp] theorem State.wSetWaiting_devTime (s : State) (w : WRing) (l : List Entry) : (s.wSetWaiting w l).devTime = s.devTime := by
  unfold State.wSetWaiting; split <;> rfl
@[simp] theorem State.wSetWaiting_rootTicks (s : State) (w : WRing) (l : List Entry) : (s.wSetWaiting w l).rootTicks = s.rootTicks := by
  unfold State.wSetWaiting; split <;> rfl
@[simp] theorem State.wSetWaiting_regs (s : State) (w : WRing) (l : List Entry) : (s.wSetWaiting w l).regs = s.regs := by
  unfold State.wSetWaiting; split <;> rfl
@[simp] theorem State.wSetWaiting_latches (s : State) (w : WRing) (l : List Entry) : (s.wSetWaiting w l).latches = s.latches := by
  unfold State.wSetWaiting; split <;> rfl
@[simp] theorem State.wSetWaiting_heldPush (s : State) (w : WRing) (l : List Entry) : (s.wSetWaiting w l).heldPush = s.heldPush := by
  unfold State.wSetWaiting; split <;> rfl
@[simp] theorem State.wSetWaiting_cores (s : State) (w : WRing) (l : List Entry) : (s.wSetWaiting w l).cores = s.cores := by
  unfold State.wSetWaiting; split <;> rfl
@[simp] theorem State.wSetWaiting_devs (s : State) (w : WRing) (l : List Entry) : (s.wSetWaiting w l).devs = s.devs := by
  unfold State.wSetWaiting; split <;> rfl
@[simp] theorem State.wSetWaiting_grains (s : State) (w : WRing) (l : List Entry) : (s.wSetWaiting w l).grains = s.grains := by
  unfold State.wSetWaiting; split <;> rfl
@[simp] theorem State.wSetWaiting_mems (s : State) (w : WRing) (l : List Entry) : (s.wSetWaiting w l).mems = s.mems := by
  unfold State.wSetWaiting; split <;> rfl
@[simp] theorem State.wSetWaiting_enl (s : State) (w : WRing) (l : List Entry) : (s.wSetWaiting w l).enl = s.enl := by
  unfold State.wSetWaiting; split <;> rfl
@[simp] theorem State.wSetWaiting_job (s : State) (w : WRing) (l : List Entry) : (s.wSetWaiting w l).job = s.job := by
  unfold State.wSetWaiting; split <;> rfl
@[simp] theorem State.wSetWaiting_sht (s : State) (w : WRing) (l : List Entry) : (s.wSetWaiting w l).sht = s.sht := by
  unfold State.wSetWaiting; split <;> rfl
@[simp] theorem State.wSetWaiting_lanes (s : State) (w : WRing) (l : List Entry) : (s.wSetWaiting w l).lanes = s.lanes := by
  unfold State.wSetWaiting; split <;> rfl
@[simp] theorem State.wSetWaiting_fab (s : State) (w : WRing) (l : List Entry) : (s.wSetWaiting w l).fab = s.fab := by
  unfold State.wSetWaiting; split <;> rfl
@[simp] theorem State.wSetWaiting_handover (s : State) (w : WRing) (l : List Entry) : (s.wSetWaiting w l).handover = s.handover := by
  unfold State.wSetWaiting; split <;> rfl
@[simp] theorem State.wSetWaiting_cam (s : State) (w : WRing) (l : List Entry) : (s.wSetWaiting w l).cam = s.cam := by
  unfold State.wSetWaiting; split <;> rfl
@[simp] theorem State.wSetWaiting_store (s : State) (w : WRing) (l : List Entry) : (s.wSetWaiting w l).store = s.store := by
  unfold State.wSetWaiting; split <;> rfl
@[simp] theorem State.wSetWaiting_net (s : State) (w : WRing) (l : List Entry) : (s.wSetWaiting w l).net = s.net := by
  unfold State.wSetWaiting; split <;> rfl
@[simp] theorem State.wSetWaiting_pwr (s : State) (w : WRing) (l : List Entry) : (s.wSetWaiting w l).pwr = s.pwr := by
  unfold State.wSetWaiting; split <;> rfl
@[simp] theorem State.wSetWaiting_fuses (s : State) (w : WRing) (l : List Entry) : (s.wSetWaiting w l).fuses = s.fuses := by
  unfold State.wSetWaiting; split <;> rfl
@[simp] theorem State.wSetWaiting_sec (s : State) (w : WRing) (l : List Entry) : (s.wSetWaiting w l).sec = s.sec := by
  unfold State.wSetWaiting; split <;> rfl
@[simp] theorem State.wSetWaiting_cs (s : State) (w : WRing) (l : List Entry) : (s.wSetWaiting w l).cs = s.cs := by
  unfold State.wSetWaiting; split <;> rfl

/-! ## eventLost -/

@[simp] theorem State.eventLost_pending (s : State) (f : Fin 8) (lost : Bool) : (s.eventLost f lost).pending = s.pending := by
  unfold State.eventLost; split <;> rfl
@[simp] theorem State.eventLost_free (s : State) (f : Fin 8) (lost : Bool) : (s.eventLost f lost).free = s.free := by
  unfold State.eventLost; split <;> rfl
@[simp] theorem State.eventLost_out (s : State) (f : Fin 8) (lost : Bool) : (s.eventLost f lost).out = s.out := by
  unfold State.eventLost; split <;> rfl
@[simp] theorem State.eventLost_devTime (s : State) (f : Fin 8) (lost : Bool) : (s.eventLost f lost).devTime = s.devTime := by
  unfold State.eventLost; split <;> rfl
@[simp] theorem State.eventLost_rootTicks (s : State) (f : Fin 8) (lost : Bool) : (s.eventLost f lost).rootTicks = s.rootTicks := by
  unfold State.eventLost; split <;> rfl
@[simp] theorem State.eventLost_latches (s : State) (f : Fin 8) (lost : Bool) : (s.eventLost f lost).latches = s.latches := by
  unfold State.eventLost; split <;> rfl
@[simp] theorem State.eventLost_heldPush (s : State) (f : Fin 8) (lost : Bool) : (s.eventLost f lost).heldPush = s.heldPush := by
  unfold State.eventLost; split <;> rfl
@[simp] theorem State.eventLost_cores (s : State) (f : Fin 8) (lost : Bool) : (s.eventLost f lost).cores = s.cores := by
  unfold State.eventLost; split <;> rfl
@[simp] theorem State.eventLost_devs (s : State) (f : Fin 8) (lost : Bool) : (s.eventLost f lost).devs = s.devs := by
  unfold State.eventLost; split <;> rfl
@[simp] theorem State.eventLost_grains (s : State) (f : Fin 8) (lost : Bool) : (s.eventLost f lost).grains = s.grains := by
  unfold State.eventLost; split <;> rfl
@[simp] theorem State.eventLost_mems (s : State) (f : Fin 8) (lost : Bool) : (s.eventLost f lost).mems = s.mems := by
  unfold State.eventLost; split <;> rfl
@[simp] theorem State.eventLost_enl (s : State) (f : Fin 8) (lost : Bool) : (s.eventLost f lost).enl = s.enl := by
  unfold State.eventLost; split <;> rfl
@[simp] theorem State.eventLost_job (s : State) (f : Fin 8) (lost : Bool) : (s.eventLost f lost).job = s.job := by
  unfold State.eventLost; split <;> rfl
@[simp] theorem State.eventLost_sht (s : State) (f : Fin 8) (lost : Bool) : (s.eventLost f lost).sht = s.sht := by
  unfold State.eventLost; split <;> rfl
@[simp] theorem State.eventLost_lanes (s : State) (f : Fin 8) (lost : Bool) : (s.eventLost f lost).lanes = s.lanes := by
  unfold State.eventLost; split <;> rfl
@[simp] theorem State.eventLost_fab (s : State) (f : Fin 8) (lost : Bool) : (s.eventLost f lost).fab = s.fab := by
  unfold State.eventLost; split <;> rfl
@[simp] theorem State.eventLost_handover (s : State) (f : Fin 8) (lost : Bool) : (s.eventLost f lost).handover = s.handover := by
  unfold State.eventLost; split <;> rfl
@[simp] theorem State.eventLost_cam (s : State) (f : Fin 8) (lost : Bool) : (s.eventLost f lost).cam = s.cam := by
  unfold State.eventLost; split <;> rfl
@[simp] theorem State.eventLost_store (s : State) (f : Fin 8) (lost : Bool) : (s.eventLost f lost).store = s.store := by
  unfold State.eventLost; split <;> rfl
@[simp] theorem State.eventLost_hst (s : State) (f : Fin 8) (lost : Bool) : (s.eventLost f lost).hst = s.hst := by
  unfold State.eventLost; split <;> rfl
@[simp] theorem State.eventLost_net (s : State) (f : Fin 8) (lost : Bool) : (s.eventLost f lost).net = s.net := by
  unfold State.eventLost; split <;> rfl
@[simp] theorem State.eventLost_pwr (s : State) (f : Fin 8) (lost : Bool) : (s.eventLost f lost).pwr = s.pwr := by
  unfold State.eventLost; split <;> rfl
@[simp] theorem State.eventLost_fuses (s : State) (f : Fin 8) (lost : Bool) : (s.eventLost f lost).fuses = s.fuses := by
  unfold State.eventLost; split <;> rfl
@[simp] theorem State.eventLost_sec (s : State) (f : Fin 8) (lost : Bool) : (s.eventLost f lost).sec = s.sec := by
  unfold State.eventLost; split <;> rfl
@[simp] theorem State.eventLost_cs (s : State) (f : Fin 8) (lost : Bool) : (s.eventLost f lost).cs = s.cs := by
  unfold State.eventLost; split <;> rfl

/-! ## backlogAdd -/

@[simp] theorem State.backlogAdd_pending (s : State) (f : Fin 8) (e : Entry) : (s.backlogAdd f e).pending = s.pending := by
  simp [State.backlogAdd]
@[simp] theorem State.backlogAdd_free (s : State) (f : Fin 8) (e : Entry) : (s.backlogAdd f e).free = s.free := by
  simp [State.backlogAdd]
@[simp] theorem State.backlogAdd_out (s : State) (f : Fin 8) (e : Entry) : (s.backlogAdd f e).out = s.out := by
  simp [State.backlogAdd]
@[simp] theorem State.backlogAdd_devTime (s : State) (f : Fin 8) (e : Entry) : (s.backlogAdd f e).devTime = s.devTime := by
  simp [State.backlogAdd]
@[simp] theorem State.backlogAdd_rootTicks (s : State) (f : Fin 8) (e : Entry) : (s.backlogAdd f e).rootTicks = s.rootTicks := by
  simp [State.backlogAdd]
@[simp] theorem State.backlogAdd_latches (s : State) (f : Fin 8) (e : Entry) : (s.backlogAdd f e).latches = s.latches := by
  simp [State.backlogAdd]
@[simp] theorem State.backlogAdd_heldPush (s : State) (f : Fin 8) (e : Entry) : (s.backlogAdd f e).heldPush = s.heldPush := by
  simp [State.backlogAdd]
@[simp] theorem State.backlogAdd_cores (s : State) (f : Fin 8) (e : Entry) : (s.backlogAdd f e).cores = s.cores := by
  simp [State.backlogAdd]
@[simp] theorem State.backlogAdd_devs (s : State) (f : Fin 8) (e : Entry) : (s.backlogAdd f e).devs = s.devs := by
  simp [State.backlogAdd]
@[simp] theorem State.backlogAdd_grains (s : State) (f : Fin 8) (e : Entry) : (s.backlogAdd f e).grains = s.grains := by
  simp [State.backlogAdd]
@[simp] theorem State.backlogAdd_mems (s : State) (f : Fin 8) (e : Entry) : (s.backlogAdd f e).mems = s.mems := by
  simp [State.backlogAdd]
@[simp] theorem State.backlogAdd_enl (s : State) (f : Fin 8) (e : Entry) : (s.backlogAdd f e).enl = s.enl := by
  simp [State.backlogAdd]
@[simp] theorem State.backlogAdd_job (s : State) (f : Fin 8) (e : Entry) : (s.backlogAdd f e).job = s.job := by
  simp [State.backlogAdd]
@[simp] theorem State.backlogAdd_sht (s : State) (f : Fin 8) (e : Entry) : (s.backlogAdd f e).sht = s.sht := by
  simp [State.backlogAdd]
@[simp] theorem State.backlogAdd_lanes (s : State) (f : Fin 8) (e : Entry) : (s.backlogAdd f e).lanes = s.lanes := by
  simp [State.backlogAdd]
@[simp] theorem State.backlogAdd_fab (s : State) (f : Fin 8) (e : Entry) : (s.backlogAdd f e).fab = s.fab := by
  simp [State.backlogAdd]
@[simp] theorem State.backlogAdd_handover (s : State) (f : Fin 8) (e : Entry) : (s.backlogAdd f e).handover = s.handover := by
  simp [State.backlogAdd]
@[simp] theorem State.backlogAdd_cam (s : State) (f : Fin 8) (e : Entry) : (s.backlogAdd f e).cam = s.cam := by
  simp [State.backlogAdd]
@[simp] theorem State.backlogAdd_store (s : State) (f : Fin 8) (e : Entry) : (s.backlogAdd f e).store = s.store := by
  simp [State.backlogAdd]
@[simp] theorem State.backlogAdd_net (s : State) (f : Fin 8) (e : Entry) : (s.backlogAdd f e).net = s.net := by
  simp [State.backlogAdd]
@[simp] theorem State.backlogAdd_pwr (s : State) (f : Fin 8) (e : Entry) : (s.backlogAdd f e).pwr = s.pwr := by
  simp [State.backlogAdd]
@[simp] theorem State.backlogAdd_fuses (s : State) (f : Fin 8) (e : Entry) : (s.backlogAdd f e).fuses = s.fuses := by
  simp [State.backlogAdd]
@[simp] theorem State.backlogAdd_sec (s : State) (f : Fin 8) (e : Entry) : (s.backlogAdd f e).sec = s.sec := by
  simp [State.backlogAdd]
@[simp] theorem State.backlogAdd_cs (s : State) (f : Fin 8) (e : Entry) : (s.backlogAdd f e).cs = s.cs := by
  simp [State.backlogAdd]

/-! ## eventTo -/

@[simp] theorem State.eventTo_pending (s : State) (f : Fin 8) (code : Nat) (result : DWord) : (s.eventTo f code result).pending = s.pending := by
  unfold State.eventTo; dsimp only; split <;> simp
@[simp] theorem State.eventTo_free (s : State) (f : Fin 8) (code : Nat) (result : DWord) : (s.eventTo f code result).free = s.free := by
  unfold State.eventTo; dsimp only; split <;> simp
@[simp] theorem State.eventTo_devTime (s : State) (f : Fin 8) (code : Nat) (result : DWord) : (s.eventTo f code result).devTime = s.devTime := by
  unfold State.eventTo; dsimp only; split <;> simp
@[simp] theorem State.eventTo_rootTicks (s : State) (f : Fin 8) (code : Nat) (result : DWord) : (s.eventTo f code result).rootTicks = s.rootTicks := by
  unfold State.eventTo; dsimp only; split <;> simp
@[simp] theorem State.eventTo_latches (s : State) (f : Fin 8) (code : Nat) (result : DWord) : (s.eventTo f code result).latches = s.latches := by
  unfold State.eventTo; dsimp only; split <;> simp
@[simp] theorem State.eventTo_heldPush (s : State) (f : Fin 8) (code : Nat) (result : DWord) : (s.eventTo f code result).heldPush = s.heldPush := by
  unfold State.eventTo; dsimp only; split <;> simp
@[simp] theorem State.eventTo_cores (s : State) (f : Fin 8) (code : Nat) (result : DWord) : (s.eventTo f code result).cores = s.cores := by
  unfold State.eventTo; dsimp only; split <;> simp
@[simp] theorem State.eventTo_devs (s : State) (f : Fin 8) (code : Nat) (result : DWord) : (s.eventTo f code result).devs = s.devs := by
  unfold State.eventTo; dsimp only; split <;> simp
@[simp] theorem State.eventTo_grains (s : State) (f : Fin 8) (code : Nat) (result : DWord) : (s.eventTo f code result).grains = s.grains := by
  unfold State.eventTo; dsimp only; split <;> simp
@[simp] theorem State.eventTo_mems (s : State) (f : Fin 8) (code : Nat) (result : DWord) : (s.eventTo f code result).mems = s.mems := by
  unfold State.eventTo; dsimp only; split <;> simp
@[simp] theorem State.eventTo_enl (s : State) (f : Fin 8) (code : Nat) (result : DWord) : (s.eventTo f code result).enl = s.enl := by
  unfold State.eventTo; dsimp only; split <;> simp
@[simp] theorem State.eventTo_job (s : State) (f : Fin 8) (code : Nat) (result : DWord) : (s.eventTo f code result).job = s.job := by
  unfold State.eventTo; dsimp only; split <;> simp
@[simp] theorem State.eventTo_sht (s : State) (f : Fin 8) (code : Nat) (result : DWord) : (s.eventTo f code result).sht = s.sht := by
  unfold State.eventTo; dsimp only; split <;> simp
@[simp] theorem State.eventTo_lanes (s : State) (f : Fin 8) (code : Nat) (result : DWord) : (s.eventTo f code result).lanes = s.lanes := by
  unfold State.eventTo; dsimp only; split <;> simp
@[simp] theorem State.eventTo_fab (s : State) (f : Fin 8) (code : Nat) (result : DWord) : (s.eventTo f code result).fab = s.fab := by
  unfold State.eventTo; dsimp only; split <;> simp
@[simp] theorem State.eventTo_handover (s : State) (f : Fin 8) (code : Nat) (result : DWord) : (s.eventTo f code result).handover = s.handover := by
  unfold State.eventTo; dsimp only; split <;> simp
@[simp] theorem State.eventTo_cam (s : State) (f : Fin 8) (code : Nat) (result : DWord) : (s.eventTo f code result).cam = s.cam := by
  unfold State.eventTo; dsimp only; split <;> simp
@[simp] theorem State.eventTo_store (s : State) (f : Fin 8) (code : Nat) (result : DWord) : (s.eventTo f code result).store = s.store := by
  unfold State.eventTo; dsimp only; split <;> simp
@[simp] theorem State.eventTo_net (s : State) (f : Fin 8) (code : Nat) (result : DWord) : (s.eventTo f code result).net = s.net := by
  unfold State.eventTo; dsimp only; split <;> simp
@[simp] theorem State.eventTo_pwr (s : State) (f : Fin 8) (code : Nat) (result : DWord) : (s.eventTo f code result).pwr = s.pwr := by
  unfold State.eventTo; dsimp only; split <;> simp
@[simp] theorem State.eventTo_fuses (s : State) (f : Fin 8) (code : Nat) (result : DWord) : (s.eventTo f code result).fuses = s.fuses := by
  unfold State.eventTo; dsimp only; split <;> simp
@[simp] theorem State.eventTo_sec (s : State) (f : Fin 8) (code : Nat) (result : DWord) : (s.eventTo f code result).sec = s.sec := by
  unfold State.eventTo; dsimp only; split <;> simp
@[simp] theorem State.eventTo_cs (s : State) (f : Fin 8) (code : Nat) (result : DWord) : (s.eventTo f code result).cs = s.cs := by
  unfold State.eventTo; dsimp only; split <;> simp

/-! ## capsule -/

@[simp] theorem State.capsule_pending (s : State) (k : Fin 8) (kind : Nat) (e : Option Entry) (data : List Byte) : (s.capsule k kind e data).pending = s.pending := by
  unfold State.capsule; split <;> rfl
@[simp] theorem State.capsule_free (s : State) (k : Fin 8) (kind : Nat) (e : Option Entry) (data : List Byte) : (s.capsule k kind e data).free = s.free := by
  unfold State.capsule; split <;> rfl
@[simp] theorem State.capsule_devTime (s : State) (k : Fin 8) (kind : Nat) (e : Option Entry) (data : List Byte) : (s.capsule k kind e data).devTime = s.devTime := by
  unfold State.capsule; split <;> rfl
@[simp] theorem State.capsule_rootTicks (s : State) (k : Fin 8) (kind : Nat) (e : Option Entry) (data : List Byte) : (s.capsule k kind e data).rootTicks = s.rootTicks := by
  unfold State.capsule; split <;> rfl
@[simp] theorem State.capsule_regs (s : State) (k : Fin 8) (kind : Nat) (e : Option Entry) (data : List Byte) : (s.capsule k kind e data).regs = s.regs := by
  unfold State.capsule; split <;> rfl
@[simp] theorem State.capsule_latches (s : State) (k : Fin 8) (kind : Nat) (e : Option Entry) (data : List Byte) : (s.capsule k kind e data).latches = s.latches := by
  unfold State.capsule; split <;> rfl
@[simp] theorem State.capsule_heldPush (s : State) (k : Fin 8) (kind : Nat) (e : Option Entry) (data : List Byte) : (s.capsule k kind e data).heldPush = s.heldPush := by
  unfold State.capsule; split <;> rfl
@[simp] theorem State.capsule_cores (s : State) (k : Fin 8) (kind : Nat) (e : Option Entry) (data : List Byte) : (s.capsule k kind e data).cores = s.cores := by
  unfold State.capsule; split <;> rfl
@[simp] theorem State.capsule_devs (s : State) (k : Fin 8) (kind : Nat) (e : Option Entry) (data : List Byte) : (s.capsule k kind e data).devs = s.devs := by
  unfold State.capsule; split <;> rfl
@[simp] theorem State.capsule_grains (s : State) (k : Fin 8) (kind : Nat) (e : Option Entry) (data : List Byte) : (s.capsule k kind e data).grains = s.grains := by
  unfold State.capsule; split <;> rfl
@[simp] theorem State.capsule_mems (s : State) (k : Fin 8) (kind : Nat) (e : Option Entry) (data : List Byte) : (s.capsule k kind e data).mems = s.mems := by
  unfold State.capsule; split <;> rfl
@[simp] theorem State.capsule_enl (s : State) (k : Fin 8) (kind : Nat) (e : Option Entry) (data : List Byte) : (s.capsule k kind e data).enl = s.enl := by
  unfold State.capsule; split <;> rfl
@[simp] theorem State.capsule_job (s : State) (k : Fin 8) (kind : Nat) (e : Option Entry) (data : List Byte) : (s.capsule k kind e data).job = s.job := by
  unfold State.capsule; split <;> rfl
@[simp] theorem State.capsule_sht (s : State) (k : Fin 8) (kind : Nat) (e : Option Entry) (data : List Byte) : (s.capsule k kind e data).sht = s.sht := by
  unfold State.capsule; split <;> rfl
@[simp] theorem State.capsule_lanes (s : State) (k : Fin 8) (kind : Nat) (e : Option Entry) (data : List Byte) : (s.capsule k kind e data).lanes = s.lanes := by
  unfold State.capsule; split <;> rfl
@[simp] theorem State.capsule_fab (s : State) (k : Fin 8) (kind : Nat) (e : Option Entry) (data : List Byte) : (s.capsule k kind e data).fab = s.fab := by
  unfold State.capsule; split <;> rfl
@[simp] theorem State.capsule_handover (s : State) (k : Fin 8) (kind : Nat) (e : Option Entry) (data : List Byte) : (s.capsule k kind e data).handover = s.handover := by
  unfold State.capsule; split <;> rfl
@[simp] theorem State.capsule_cam (s : State) (k : Fin 8) (kind : Nat) (e : Option Entry) (data : List Byte) : (s.capsule k kind e data).cam = s.cam := by
  unfold State.capsule; split <;> rfl
@[simp] theorem State.capsule_store (s : State) (k : Fin 8) (kind : Nat) (e : Option Entry) (data : List Byte) : (s.capsule k kind e data).store = s.store := by
  unfold State.capsule; split <;> rfl
@[simp] theorem State.capsule_net (s : State) (k : Fin 8) (kind : Nat) (e : Option Entry) (data : List Byte) : (s.capsule k kind e data).net = s.net := by
  unfold State.capsule; split <;> rfl
@[simp] theorem State.capsule_pwr (s : State) (k : Fin 8) (kind : Nat) (e : Option Entry) (data : List Byte) : (s.capsule k kind e data).pwr = s.pwr := by
  unfold State.capsule; split <;> rfl
@[simp] theorem State.capsule_fuses (s : State) (k : Fin 8) (kind : Nat) (e : Option Entry) (data : List Byte) : (s.capsule k kind e data).fuses = s.fuses := by
  unfold State.capsule; split <;> rfl
@[simp] theorem State.capsule_sec (s : State) (k : Fin 8) (kind : Nat) (e : Option Entry) (data : List Byte) : (s.capsule k kind e data).sec = s.sec := by
  unfold State.capsule; split <;> rfl
@[simp] theorem State.capsule_cs (s : State) (k : Fin 8) (kind : Nat) (e : Option Entry) (data : List Byte) : (s.capsule k kind e data).cs = s.cs := by
  unfold State.capsule; split <;> rfl

/-! ## eventSession -/

@[simp] theorem State.eventSession_pending (s : State) (k f : Fin 8) (x : Session) (code : Nat) (result : DWord) : (s.eventSession k f x code result).pending = s.pending := by
  unfold State.eventSession; dsimp only; split <;> simp
@[simp] theorem State.eventSession_free (s : State) (k f : Fin 8) (x : Session) (code : Nat) (result : DWord) : (s.eventSession k f x code result).free = s.free := by
  unfold State.eventSession; dsimp only; split <;> simp
@[simp] theorem State.eventSession_devTime (s : State) (k f : Fin 8) (x : Session) (code : Nat) (result : DWord) : (s.eventSession k f x code result).devTime = s.devTime := by
  unfold State.eventSession; dsimp only; split <;> simp
@[simp] theorem State.eventSession_rootTicks (s : State) (k f : Fin 8) (x : Session) (code : Nat) (result : DWord) : (s.eventSession k f x code result).rootTicks = s.rootTicks := by
  unfold State.eventSession; dsimp only; split <;> simp
@[simp] theorem State.eventSession_latches (s : State) (k f : Fin 8) (x : Session) (code : Nat) (result : DWord) : (s.eventSession k f x code result).latches = s.latches := by
  unfold State.eventSession; dsimp only; split <;> simp
@[simp] theorem State.eventSession_heldPush (s : State) (k f : Fin 8) (x : Session) (code : Nat) (result : DWord) : (s.eventSession k f x code result).heldPush = s.heldPush := by
  unfold State.eventSession; dsimp only; split <;> simp
@[simp] theorem State.eventSession_cores (s : State) (k f : Fin 8) (x : Session) (code : Nat) (result : DWord) : (s.eventSession k f x code result).cores = s.cores := by
  unfold State.eventSession; dsimp only; split <;> simp
@[simp] theorem State.eventSession_devs (s : State) (k f : Fin 8) (x : Session) (code : Nat) (result : DWord) : (s.eventSession k f x code result).devs = s.devs := by
  unfold State.eventSession; dsimp only; split <;> simp
@[simp] theorem State.eventSession_grains (s : State) (k f : Fin 8) (x : Session) (code : Nat) (result : DWord) : (s.eventSession k f x code result).grains = s.grains := by
  unfold State.eventSession; dsimp only; split <;> simp
@[simp] theorem State.eventSession_mems (s : State) (k f : Fin 8) (x : Session) (code : Nat) (result : DWord) : (s.eventSession k f x code result).mems = s.mems := by
  unfold State.eventSession; dsimp only; split <;> simp
@[simp] theorem State.eventSession_enl (s : State) (k f : Fin 8) (x : Session) (code : Nat) (result : DWord) : (s.eventSession k f x code result).enl = s.enl := by
  unfold State.eventSession; dsimp only; split <;> simp
@[simp] theorem State.eventSession_job (s : State) (k f : Fin 8) (x : Session) (code : Nat) (result : DWord) : (s.eventSession k f x code result).job = s.job := by
  unfold State.eventSession; dsimp only; split <;> simp
@[simp] theorem State.eventSession_sht (s : State) (k f : Fin 8) (x : Session) (code : Nat) (result : DWord) : (s.eventSession k f x code result).sht = s.sht := by
  unfold State.eventSession; dsimp only; split <;> simp
@[simp] theorem State.eventSession_lanes (s : State) (k f : Fin 8) (x : Session) (code : Nat) (result : DWord) : (s.eventSession k f x code result).lanes = s.lanes := by
  unfold State.eventSession; dsimp only; split <;> simp
@[simp] theorem State.eventSession_fab (s : State) (k f : Fin 8) (x : Session) (code : Nat) (result : DWord) : (s.eventSession k f x code result).fab = s.fab := by
  unfold State.eventSession; dsimp only; split <;> simp
@[simp] theorem State.eventSession_handover (s : State) (k f : Fin 8) (x : Session) (code : Nat) (result : DWord) : (s.eventSession k f x code result).handover = s.handover := by
  unfold State.eventSession; dsimp only; split <;> simp
@[simp] theorem State.eventSession_cam (s : State) (k f : Fin 8) (x : Session) (code : Nat) (result : DWord) : (s.eventSession k f x code result).cam = s.cam := by
  unfold State.eventSession; dsimp only; split <;> simp
@[simp] theorem State.eventSession_store (s : State) (k f : Fin 8) (x : Session) (code : Nat) (result : DWord) : (s.eventSession k f x code result).store = s.store := by
  unfold State.eventSession; dsimp only; split <;> simp
@[simp] theorem State.eventSession_net (s : State) (k f : Fin 8) (x : Session) (code : Nat) (result : DWord) : (s.eventSession k f x code result).net = s.net := by
  unfold State.eventSession; dsimp only; split <;> simp
@[simp] theorem State.eventSession_pwr (s : State) (k f : Fin 8) (x : Session) (code : Nat) (result : DWord) : (s.eventSession k f x code result).pwr = s.pwr := by
  unfold State.eventSession; dsimp only; split <;> simp
@[simp] theorem State.eventSession_fuses (s : State) (k f : Fin 8) (x : Session) (code : Nat) (result : DWord) : (s.eventSession k f x code result).fuses = s.fuses := by
  unfold State.eventSession; dsimp only; split <;> simp
@[simp] theorem State.eventSession_sec (s : State) (k f : Fin 8) (x : Session) (code : Nat) (result : DWord) : (s.eventSession k f x code result).sec = s.sec := by
  unfold State.eventSession; dsimp only; split <;> simp
@[simp] theorem State.eventSession_cs (s : State) (k f : Fin 8) (x : Session) (code : Nat) (result : DWord) : (s.eventSession k f x code result).cs = s.cs := by
  unfold State.eventSession; dsimp only; split <;> simp

/-! ## eventSessions -/

@[simp] theorem State.eventSessions_pending (s : State) (bit code : Nat) (result : DWord) (sel : Fin 8 → Bool) : (s.eventSessions bit code result sel).pending = s.pending := by
  refine forFin_keeps (p := fun t : State => t.pending = s.pending) 8 _ (fun t k ht => ?_) s rfl
  split; · exact ht
  · split
    · exact ht
    · split
      · simpa using ht
      · exact ht
@[simp] theorem State.eventSessions_free (s : State) (bit code : Nat) (result : DWord) (sel : Fin 8 → Bool) : (s.eventSessions bit code result sel).free = s.free := by
  refine forFin_keeps (p := fun t : State => t.free = s.free) 8 _ (fun t k ht => ?_) s rfl
  split; · exact ht
  · split
    · exact ht
    · split
      · simpa using ht
      · exact ht
@[simp] theorem State.eventSessions_devTime (s : State) (bit code : Nat) (result : DWord) (sel : Fin 8 → Bool) : (s.eventSessions bit code result sel).devTime = s.devTime := by
  refine forFin_keeps (p := fun t : State => t.devTime = s.devTime) 8 _ (fun t k ht => ?_) s rfl
  split; · exact ht
  · split
    · exact ht
    · split
      · simpa using ht
      · exact ht
@[simp] theorem State.eventSessions_rootTicks (s : State) (bit code : Nat) (result : DWord) (sel : Fin 8 → Bool) : (s.eventSessions bit code result sel).rootTicks = s.rootTicks := by
  refine forFin_keeps (p := fun t : State => t.rootTicks = s.rootTicks) 8 _ (fun t k ht => ?_) s rfl
  split; · exact ht
  · split
    · exact ht
    · split
      · simpa using ht
      · exact ht
@[simp] theorem State.eventSessions_latches (s : State) (bit code : Nat) (result : DWord) (sel : Fin 8 → Bool) : (s.eventSessions bit code result sel).latches = s.latches := by
  refine forFin_keeps (p := fun t : State => t.latches = s.latches) 8 _ (fun t k ht => ?_) s rfl
  split; · exact ht
  · split
    · exact ht
    · split
      · simpa using ht
      · exact ht
@[simp] theorem State.eventSessions_heldPush (s : State) (bit code : Nat) (result : DWord) (sel : Fin 8 → Bool) : (s.eventSessions bit code result sel).heldPush = s.heldPush := by
  refine forFin_keeps (p := fun t : State => t.heldPush = s.heldPush) 8 _ (fun t k ht => ?_) s rfl
  split; · exact ht
  · split
    · exact ht
    · split
      · simpa using ht
      · exact ht
@[simp] theorem State.eventSessions_cores (s : State) (bit code : Nat) (result : DWord) (sel : Fin 8 → Bool) : (s.eventSessions bit code result sel).cores = s.cores := by
  refine forFin_keeps (p := fun t : State => t.cores = s.cores) 8 _ (fun t k ht => ?_) s rfl
  split; · exact ht
  · split
    · exact ht
    · split
      · simpa using ht
      · exact ht
@[simp] theorem State.eventSessions_devs (s : State) (bit code : Nat) (result : DWord) (sel : Fin 8 → Bool) : (s.eventSessions bit code result sel).devs = s.devs := by
  refine forFin_keeps (p := fun t : State => t.devs = s.devs) 8 _ (fun t k ht => ?_) s rfl
  split; · exact ht
  · split
    · exact ht
    · split
      · simpa using ht
      · exact ht
@[simp] theorem State.eventSessions_grains (s : State) (bit code : Nat) (result : DWord) (sel : Fin 8 → Bool) : (s.eventSessions bit code result sel).grains = s.grains := by
  refine forFin_keeps (p := fun t : State => t.grains = s.grains) 8 _ (fun t k ht => ?_) s rfl
  split; · exact ht
  · split
    · exact ht
    · split
      · simpa using ht
      · exact ht
@[simp] theorem State.eventSessions_mems (s : State) (bit code : Nat) (result : DWord) (sel : Fin 8 → Bool) : (s.eventSessions bit code result sel).mems = s.mems := by
  refine forFin_keeps (p := fun t : State => t.mems = s.mems) 8 _ (fun t k ht => ?_) s rfl
  split; · exact ht
  · split
    · exact ht
    · split
      · simpa using ht
      · exact ht
@[simp] theorem State.eventSessions_enl (s : State) (bit code : Nat) (result : DWord) (sel : Fin 8 → Bool) : (s.eventSessions bit code result sel).enl = s.enl := by
  refine forFin_keeps (p := fun t : State => t.enl = s.enl) 8 _ (fun t k ht => ?_) s rfl
  split; · exact ht
  · split
    · exact ht
    · split
      · simpa using ht
      · exact ht
@[simp] theorem State.eventSessions_job (s : State) (bit code : Nat) (result : DWord) (sel : Fin 8 → Bool) : (s.eventSessions bit code result sel).job = s.job := by
  refine forFin_keeps (p := fun t : State => t.job = s.job) 8 _ (fun t k ht => ?_) s rfl
  split; · exact ht
  · split
    · exact ht
    · split
      · simpa using ht
      · exact ht
@[simp] theorem State.eventSessions_sht (s : State) (bit code : Nat) (result : DWord) (sel : Fin 8 → Bool) : (s.eventSessions bit code result sel).sht = s.sht := by
  refine forFin_keeps (p := fun t : State => t.sht = s.sht) 8 _ (fun t k ht => ?_) s rfl
  split; · exact ht
  · split
    · exact ht
    · split
      · simpa using ht
      · exact ht
@[simp] theorem State.eventSessions_lanes (s : State) (bit code : Nat) (result : DWord) (sel : Fin 8 → Bool) : (s.eventSessions bit code result sel).lanes = s.lanes := by
  refine forFin_keeps (p := fun t : State => t.lanes = s.lanes) 8 _ (fun t k ht => ?_) s rfl
  split; · exact ht
  · split
    · exact ht
    · split
      · simpa using ht
      · exact ht
@[simp] theorem State.eventSessions_fab (s : State) (bit code : Nat) (result : DWord) (sel : Fin 8 → Bool) : (s.eventSessions bit code result sel).fab = s.fab := by
  refine forFin_keeps (p := fun t : State => t.fab = s.fab) 8 _ (fun t k ht => ?_) s rfl
  split; · exact ht
  · split
    · exact ht
    · split
      · simpa using ht
      · exact ht
@[simp] theorem State.eventSessions_handover (s : State) (bit code : Nat) (result : DWord) (sel : Fin 8 → Bool) : (s.eventSessions bit code result sel).handover = s.handover := by
  refine forFin_keeps (p := fun t : State => t.handover = s.handover) 8 _ (fun t k ht => ?_) s rfl
  split; · exact ht
  · split
    · exact ht
    · split
      · simpa using ht
      · exact ht
@[simp] theorem State.eventSessions_cam (s : State) (bit code : Nat) (result : DWord) (sel : Fin 8 → Bool) : (s.eventSessions bit code result sel).cam = s.cam := by
  refine forFin_keeps (p := fun t : State => t.cam = s.cam) 8 _ (fun t k ht => ?_) s rfl
  split; · exact ht
  · split
    · exact ht
    · split
      · simpa using ht
      · exact ht
@[simp] theorem State.eventSessions_store (s : State) (bit code : Nat) (result : DWord) (sel : Fin 8 → Bool) : (s.eventSessions bit code result sel).store = s.store := by
  refine forFin_keeps (p := fun t : State => t.store = s.store) 8 _ (fun t k ht => ?_) s rfl
  split; · exact ht
  · split
    · exact ht
    · split
      · simpa using ht
      · exact ht
@[simp] theorem State.eventSessions_net (s : State) (bit code : Nat) (result : DWord) (sel : Fin 8 → Bool) : (s.eventSessions bit code result sel).net = s.net := by
  refine forFin_keeps (p := fun t : State => t.net = s.net) 8 _ (fun t k ht => ?_) s rfl
  split; · exact ht
  · split
    · exact ht
    · split
      · simpa using ht
      · exact ht
@[simp] theorem State.eventSessions_pwr (s : State) (bit code : Nat) (result : DWord) (sel : Fin 8 → Bool) : (s.eventSessions bit code result sel).pwr = s.pwr := by
  refine forFin_keeps (p := fun t : State => t.pwr = s.pwr) 8 _ (fun t k ht => ?_) s rfl
  split; · exact ht
  · split
    · exact ht
    · split
      · simpa using ht
      · exact ht
@[simp] theorem State.eventSessions_fuses (s : State) (bit code : Nat) (result : DWord) (sel : Fin 8 → Bool) : (s.eventSessions bit code result sel).fuses = s.fuses := by
  refine forFin_keeps (p := fun t : State => t.fuses = s.fuses) 8 _ (fun t k ht => ?_) s rfl
  split; · exact ht
  · split
    · exact ht
    · split
      · simpa using ht
      · exact ht
@[simp] theorem State.eventSessions_sec (s : State) (bit code : Nat) (result : DWord) (sel : Fin 8 → Bool) : (s.eventSessions bit code result sel).sec = s.sec := by
  refine forFin_keeps (p := fun t : State => t.sec = s.sec) 8 _ (fun t k ht => ?_) s rfl
  split; · exact ht
  · split
    · exact ht
    · split
      · simpa using ht
      · exact ht
@[simp] theorem State.eventSessions_cs (s : State) (bit code : Nat) (result : DWord) (sel : Fin 8 → Bool) : (s.eventSessions bit code result sel).cs = s.cs := by
  refine forFin_keeps (p := fun t : State => t.cs = s.cs) 8 _ (fun t k ht => ?_) s rfl
  split; · exact ht
  · split
    · exact ht
    · split
      · simpa using ht
      · exact ht

/-! ## raiseTo -/

@[simp] theorem State.raiseTo_pending (s : State) (bit code result : Nat) (sel : Fin 8 → Bool) : (s.raiseTo bit code result sel).pending = s.pending := by
  unfold State.raiseTo; dsimp only; rw [State.eventSessions_pending]
  refine forFin_keeps (p := fun t : State => t.pending = s.pending) 8 _ (fun t k ht => ?_) s rfl
  split
  · simpa using ht
  · exact ht
@[simp] theorem State.raiseTo_free (s : State) (bit code result : Nat) (sel : Fin 8 → Bool) : (s.raiseTo bit code result sel).free = s.free := by
  unfold State.raiseTo; dsimp only; rw [State.eventSessions_free]
  refine forFin_keeps (p := fun t : State => t.free = s.free) 8 _ (fun t k ht => ?_) s rfl
  split
  · simpa using ht
  · exact ht
@[simp] theorem State.raiseTo_devTime (s : State) (bit code result : Nat) (sel : Fin 8 → Bool) : (s.raiseTo bit code result sel).devTime = s.devTime := by
  unfold State.raiseTo; dsimp only; rw [State.eventSessions_devTime]
  refine forFin_keeps (p := fun t : State => t.devTime = s.devTime) 8 _ (fun t k ht => ?_) s rfl
  split
  · simpa using ht
  · exact ht
@[simp] theorem State.raiseTo_rootTicks (s : State) (bit code result : Nat) (sel : Fin 8 → Bool) : (s.raiseTo bit code result sel).rootTicks = s.rootTicks := by
  unfold State.raiseTo; dsimp only; rw [State.eventSessions_rootTicks]
  refine forFin_keeps (p := fun t : State => t.rootTicks = s.rootTicks) 8 _ (fun t k ht => ?_) s rfl
  split
  · simpa using ht
  · exact ht
@[simp] theorem State.raiseTo_latches (s : State) (bit code result : Nat) (sel : Fin 8 → Bool) : (s.raiseTo bit code result sel).latches = s.latches := by
  unfold State.raiseTo; dsimp only; rw [State.eventSessions_latches]
  refine forFin_keeps (p := fun t : State => t.latches = s.latches) 8 _ (fun t k ht => ?_) s rfl
  split
  · simpa using ht
  · exact ht
@[simp] theorem State.raiseTo_heldPush (s : State) (bit code result : Nat) (sel : Fin 8 → Bool) : (s.raiseTo bit code result sel).heldPush = s.heldPush := by
  unfold State.raiseTo; dsimp only; rw [State.eventSessions_heldPush]
  refine forFin_keeps (p := fun t : State => t.heldPush = s.heldPush) 8 _ (fun t k ht => ?_) s rfl
  split
  · simpa using ht
  · exact ht
@[simp] theorem State.raiseTo_cores (s : State) (bit code result : Nat) (sel : Fin 8 → Bool) : (s.raiseTo bit code result sel).cores = s.cores := by
  unfold State.raiseTo; dsimp only; rw [State.eventSessions_cores]
  refine forFin_keeps (p := fun t : State => t.cores = s.cores) 8 _ (fun t k ht => ?_) s rfl
  split
  · simpa using ht
  · exact ht
@[simp] theorem State.raiseTo_devs (s : State) (bit code result : Nat) (sel : Fin 8 → Bool) : (s.raiseTo bit code result sel).devs = s.devs := by
  unfold State.raiseTo; dsimp only; rw [State.eventSessions_devs]
  refine forFin_keeps (p := fun t : State => t.devs = s.devs) 8 _ (fun t k ht => ?_) s rfl
  split
  · simpa using ht
  · exact ht
@[simp] theorem State.raiseTo_grains (s : State) (bit code result : Nat) (sel : Fin 8 → Bool) : (s.raiseTo bit code result sel).grains = s.grains := by
  unfold State.raiseTo; dsimp only; rw [State.eventSessions_grains]
  refine forFin_keeps (p := fun t : State => t.grains = s.grains) 8 _ (fun t k ht => ?_) s rfl
  split
  · simpa using ht
  · exact ht
@[simp] theorem State.raiseTo_mems (s : State) (bit code result : Nat) (sel : Fin 8 → Bool) : (s.raiseTo bit code result sel).mems = s.mems := by
  unfold State.raiseTo; dsimp only; rw [State.eventSessions_mems]
  refine forFin_keeps (p := fun t : State => t.mems = s.mems) 8 _ (fun t k ht => ?_) s rfl
  split
  · simpa using ht
  · exact ht
@[simp] theorem State.raiseTo_enl (s : State) (bit code result : Nat) (sel : Fin 8 → Bool) : (s.raiseTo bit code result sel).enl = s.enl := by
  unfold State.raiseTo; dsimp only; rw [State.eventSessions_enl]
  refine forFin_keeps (p := fun t : State => t.enl = s.enl) 8 _ (fun t k ht => ?_) s rfl
  split
  · simpa using ht
  · exact ht
@[simp] theorem State.raiseTo_job (s : State) (bit code result : Nat) (sel : Fin 8 → Bool) : (s.raiseTo bit code result sel).job = s.job := by
  unfold State.raiseTo; dsimp only; rw [State.eventSessions_job]
  refine forFin_keeps (p := fun t : State => t.job = s.job) 8 _ (fun t k ht => ?_) s rfl
  split
  · simpa using ht
  · exact ht
@[simp] theorem State.raiseTo_sht (s : State) (bit code result : Nat) (sel : Fin 8 → Bool) : (s.raiseTo bit code result sel).sht = s.sht := by
  unfold State.raiseTo; dsimp only; rw [State.eventSessions_sht]
  refine forFin_keeps (p := fun t : State => t.sht = s.sht) 8 _ (fun t k ht => ?_) s rfl
  split
  · simpa using ht
  · exact ht
@[simp] theorem State.raiseTo_lanes (s : State) (bit code result : Nat) (sel : Fin 8 → Bool) : (s.raiseTo bit code result sel).lanes = s.lanes := by
  unfold State.raiseTo; dsimp only; rw [State.eventSessions_lanes]
  refine forFin_keeps (p := fun t : State => t.lanes = s.lanes) 8 _ (fun t k ht => ?_) s rfl
  split
  · simpa using ht
  · exact ht
@[simp] theorem State.raiseTo_fab (s : State) (bit code result : Nat) (sel : Fin 8 → Bool) : (s.raiseTo bit code result sel).fab = s.fab := by
  unfold State.raiseTo; dsimp only; rw [State.eventSessions_fab]
  refine forFin_keeps (p := fun t : State => t.fab = s.fab) 8 _ (fun t k ht => ?_) s rfl
  split
  · simpa using ht
  · exact ht
@[simp] theorem State.raiseTo_handover (s : State) (bit code result : Nat) (sel : Fin 8 → Bool) : (s.raiseTo bit code result sel).handover = s.handover := by
  unfold State.raiseTo; dsimp only; rw [State.eventSessions_handover]
  refine forFin_keeps (p := fun t : State => t.handover = s.handover) 8 _ (fun t k ht => ?_) s rfl
  split
  · simpa using ht
  · exact ht
@[simp] theorem State.raiseTo_cam (s : State) (bit code result : Nat) (sel : Fin 8 → Bool) : (s.raiseTo bit code result sel).cam = s.cam := by
  unfold State.raiseTo; dsimp only; rw [State.eventSessions_cam]
  refine forFin_keeps (p := fun t : State => t.cam = s.cam) 8 _ (fun t k ht => ?_) s rfl
  split
  · simpa using ht
  · exact ht
@[simp] theorem State.raiseTo_store (s : State) (bit code result : Nat) (sel : Fin 8 → Bool) : (s.raiseTo bit code result sel).store = s.store := by
  unfold State.raiseTo; dsimp only; rw [State.eventSessions_store]
  refine forFin_keeps (p := fun t : State => t.store = s.store) 8 _ (fun t k ht => ?_) s rfl
  split
  · simpa using ht
  · exact ht
@[simp] theorem State.raiseTo_net (s : State) (bit code result : Nat) (sel : Fin 8 → Bool) : (s.raiseTo bit code result sel).net = s.net := by
  unfold State.raiseTo; dsimp only; rw [State.eventSessions_net]
  refine forFin_keeps (p := fun t : State => t.net = s.net) 8 _ (fun t k ht => ?_) s rfl
  split
  · simpa using ht
  · exact ht
@[simp] theorem State.raiseTo_pwr (s : State) (bit code result : Nat) (sel : Fin 8 → Bool) : (s.raiseTo bit code result sel).pwr = s.pwr := by
  unfold State.raiseTo; dsimp only; rw [State.eventSessions_pwr]
  refine forFin_keeps (p := fun t : State => t.pwr = s.pwr) 8 _ (fun t k ht => ?_) s rfl
  split
  · simpa using ht
  · exact ht
@[simp] theorem State.raiseTo_fuses (s : State) (bit code result : Nat) (sel : Fin 8 → Bool) : (s.raiseTo bit code result sel).fuses = s.fuses := by
  unfold State.raiseTo; dsimp only; rw [State.eventSessions_fuses]
  refine forFin_keeps (p := fun t : State => t.fuses = s.fuses) 8 _ (fun t k ht => ?_) s rfl
  split
  · simpa using ht
  · exact ht
@[simp] theorem State.raiseTo_sec (s : State) (bit code result : Nat) (sel : Fin 8 → Bool) : (s.raiseTo bit code result sel).sec = s.sec := by
  unfold State.raiseTo; dsimp only; rw [State.eventSessions_sec]
  refine forFin_keeps (p := fun t : State => t.sec = s.sec) 8 _ (fun t k ht => ?_) s rfl
  split
  · simpa using ht
  · exact ht
@[simp] theorem State.raiseTo_cs (s : State) (bit code result : Nat) (sel : Fin 8 → Bool) : (s.raiseTo bit code result sel).cs = s.cs := by
  unfold State.raiseTo; dsimp only; rw [State.eventSessions_cs]
  refine forFin_keeps (p := fun t : State => t.cs = s.cs) 8 _ (fun t k ht => ?_) s rfl
  split
  · simpa using ht
  · exact ht

/-! ## raise -/

@[simp] theorem State.raise_pending (s : State) (e : Ev) (result : Nat) : (s.raise e result).pending = s.pending := by
  simp [State.raise]
@[simp] theorem State.raise_free (s : State) (e : Ev) (result : Nat) : (s.raise e result).free = s.free := by
  simp [State.raise]
@[simp] theorem State.raise_devTime (s : State) (e : Ev) (result : Nat) : (s.raise e result).devTime = s.devTime := by
  simp [State.raise]
@[simp] theorem State.raise_rootTicks (s : State) (e : Ev) (result : Nat) : (s.raise e result).rootTicks = s.rootTicks := by
  simp [State.raise]
@[simp] theorem State.raise_latches (s : State) (e : Ev) (result : Nat) : (s.raise e result).latches = s.latches := by
  simp [State.raise]
@[simp] theorem State.raise_heldPush (s : State) (e : Ev) (result : Nat) : (s.raise e result).heldPush = s.heldPush := by
  simp [State.raise]
@[simp] theorem State.raise_cores (s : State) (e : Ev) (result : Nat) : (s.raise e result).cores = s.cores := by
  simp [State.raise]
@[simp] theorem State.raise_devs (s : State) (e : Ev) (result : Nat) : (s.raise e result).devs = s.devs := by
  simp [State.raise]
@[simp] theorem State.raise_grains (s : State) (e : Ev) (result : Nat) : (s.raise e result).grains = s.grains := by
  simp [State.raise]
@[simp] theorem State.raise_mems (s : State) (e : Ev) (result : Nat) : (s.raise e result).mems = s.mems := by
  simp [State.raise]
@[simp] theorem State.raise_enl (s : State) (e : Ev) (result : Nat) : (s.raise e result).enl = s.enl := by
  simp [State.raise]
@[simp] theorem State.raise_job (s : State) (e : Ev) (result : Nat) : (s.raise e result).job = s.job := by
  simp [State.raise]
@[simp] theorem State.raise_sht (s : State) (e : Ev) (result : Nat) : (s.raise e result).sht = s.sht := by
  simp [State.raise]
@[simp] theorem State.raise_lanes (s : State) (e : Ev) (result : Nat) : (s.raise e result).lanes = s.lanes := by
  simp [State.raise]
@[simp] theorem State.raise_fab (s : State) (e : Ev) (result : Nat) : (s.raise e result).fab = s.fab := by
  simp [State.raise]
@[simp] theorem State.raise_handover (s : State) (e : Ev) (result : Nat) : (s.raise e result).handover = s.handover := by
  simp [State.raise]
@[simp] theorem State.raise_cam (s : State) (e : Ev) (result : Nat) : (s.raise e result).cam = s.cam := by
  simp [State.raise]
@[simp] theorem State.raise_store (s : State) (e : Ev) (result : Nat) : (s.raise e result).store = s.store := by
  simp [State.raise]
@[simp] theorem State.raise_net (s : State) (e : Ev) (result : Nat) : (s.raise e result).net = s.net := by
  simp [State.raise]
@[simp] theorem State.raise_pwr (s : State) (e : Ev) (result : Nat) : (s.raise e result).pwr = s.pwr := by
  simp [State.raise]
@[simp] theorem State.raise_fuses (s : State) (e : Ev) (result : Nat) : (s.raise e result).fuses = s.fuses := by
  simp [State.raise]
@[simp] theorem State.raise_sec (s : State) (e : Ev) (result : Nat) : (s.raise e result).sec = s.sec := by
  simp [State.raise]
@[simp] theorem State.raise_cs (s : State) (e : Ev) (result : Nat) : (s.raise e result).cs = s.cs := by
  simp [State.raise]

/-! ## raiseJob -/

@[simp] theorem State.raiseJob_pending (s : State) (e : Ev) (result : Nat) : (s.raiseJob e result).pending = s.pending := by
  unfold State.raiseJob; split <;> simp
@[simp] theorem State.raiseJob_free (s : State) (e : Ev) (result : Nat) : (s.raiseJob e result).free = s.free := by
  unfold State.raiseJob; split <;> simp
@[simp] theorem State.raiseJob_devTime (s : State) (e : Ev) (result : Nat) : (s.raiseJob e result).devTime = s.devTime := by
  unfold State.raiseJob; split <;> simp
@[simp] theorem State.raiseJob_rootTicks (s : State) (e : Ev) (result : Nat) : (s.raiseJob e result).rootTicks = s.rootTicks := by
  unfold State.raiseJob; split <;> simp
@[simp] theorem State.raiseJob_latches (s : State) (e : Ev) (result : Nat) : (s.raiseJob e result).latches = s.latches := by
  unfold State.raiseJob; split <;> simp
@[simp] theorem State.raiseJob_heldPush (s : State) (e : Ev) (result : Nat) : (s.raiseJob e result).heldPush = s.heldPush := by
  unfold State.raiseJob; split <;> simp
@[simp] theorem State.raiseJob_cores (s : State) (e : Ev) (result : Nat) : (s.raiseJob e result).cores = s.cores := by
  unfold State.raiseJob; split <;> simp
@[simp] theorem State.raiseJob_devs (s : State) (e : Ev) (result : Nat) : (s.raiseJob e result).devs = s.devs := by
  unfold State.raiseJob; split <;> simp
@[simp] theorem State.raiseJob_grains (s : State) (e : Ev) (result : Nat) : (s.raiseJob e result).grains = s.grains := by
  unfold State.raiseJob; split <;> simp
@[simp] theorem State.raiseJob_mems (s : State) (e : Ev) (result : Nat) : (s.raiseJob e result).mems = s.mems := by
  unfold State.raiseJob; split <;> simp
@[simp] theorem State.raiseJob_enl (s : State) (e : Ev) (result : Nat) : (s.raiseJob e result).enl = s.enl := by
  unfold State.raiseJob; split <;> simp
@[simp] theorem State.raiseJob_job (s : State) (e : Ev) (result : Nat) : (s.raiseJob e result).job = s.job := by
  unfold State.raiseJob; split <;> simp
@[simp] theorem State.raiseJob_sht (s : State) (e : Ev) (result : Nat) : (s.raiseJob e result).sht = s.sht := by
  unfold State.raiseJob; split <;> simp
@[simp] theorem State.raiseJob_lanes (s : State) (e : Ev) (result : Nat) : (s.raiseJob e result).lanes = s.lanes := by
  unfold State.raiseJob; split <;> simp
@[simp] theorem State.raiseJob_fab (s : State) (e : Ev) (result : Nat) : (s.raiseJob e result).fab = s.fab := by
  unfold State.raiseJob; split <;> simp
@[simp] theorem State.raiseJob_handover (s : State) (e : Ev) (result : Nat) : (s.raiseJob e result).handover = s.handover := by
  unfold State.raiseJob; split <;> simp
@[simp] theorem State.raiseJob_cam (s : State) (e : Ev) (result : Nat) : (s.raiseJob e result).cam = s.cam := by
  unfold State.raiseJob; split <;> simp
@[simp] theorem State.raiseJob_store (s : State) (e : Ev) (result : Nat) : (s.raiseJob e result).store = s.store := by
  unfold State.raiseJob; split <;> simp
@[simp] theorem State.raiseJob_net (s : State) (e : Ev) (result : Nat) : (s.raiseJob e result).net = s.net := by
  unfold State.raiseJob; split <;> simp
@[simp] theorem State.raiseJob_pwr (s : State) (e : Ev) (result : Nat) : (s.raiseJob e result).pwr = s.pwr := by
  unfold State.raiseJob; split <;> simp
@[simp] theorem State.raiseJob_fuses (s : State) (e : Ev) (result : Nat) : (s.raiseJob e result).fuses = s.fuses := by
  unfold State.raiseJob; split <;> simp
@[simp] theorem State.raiseJob_sec (s : State) (e : Ev) (result : Nat) : (s.raiseJob e result).sec = s.sec := by
  unfold State.raiseJob; split <;> simp
@[simp] theorem State.raiseJob_cs (s : State) (e : Ev) (result : Nat) : (s.raiseJob e result).cs = s.cs := by
  unfold State.raiseJob; split <;> simp

/-! ## complete -/

@[simp] theorem State.complete_pending (s : State) (c : CmdRef) (status result : Nat) (data : List Byte) : (s.complete c status result data).pending = s.pending := by
  unfold State.complete; split; · rfl
  · split
    · dsimp only; split <;> simp
    · split <;> simp
@[simp] theorem State.complete_free (s : State) (c : CmdRef) (status result : Nat) (data : List Byte) : (s.complete c status result data).free = s.free := by
  unfold State.complete; split; · rfl
  · split
    · dsimp only; split <;> simp
    · split <;> simp
@[simp] theorem State.complete_devTime (s : State) (c : CmdRef) (status result : Nat) (data : List Byte) : (s.complete c status result data).devTime = s.devTime := by
  unfold State.complete; split; · rfl
  · split
    · dsimp only; split <;> simp
    · split <;> simp
@[simp] theorem State.complete_rootTicks (s : State) (c : CmdRef) (status result : Nat) (data : List Byte) : (s.complete c status result data).rootTicks = s.rootTicks := by
  unfold State.complete; split; · rfl
  · split
    · dsimp only; split <;> simp
    · split <;> simp
@[simp] theorem State.complete_latches (s : State) (c : CmdRef) (status result : Nat) (data : List Byte) : (s.complete c status result data).latches = s.latches := by
  unfold State.complete; split; · rfl
  · split
    · dsimp only; split <;> simp
    · split <;> simp
@[simp] theorem State.complete_heldPush (s : State) (c : CmdRef) (status result : Nat) (data : List Byte) : (s.complete c status result data).heldPush = s.heldPush := by
  unfold State.complete; split; · rfl
  · split
    · dsimp only; split <;> simp
    · split <;> simp
@[simp] theorem State.complete_cores (s : State) (c : CmdRef) (status result : Nat) (data : List Byte) : (s.complete c status result data).cores = s.cores := by
  unfold State.complete; split; · rfl
  · split
    · dsimp only; split <;> simp
    · split <;> simp
@[simp] theorem State.complete_devs (s : State) (c : CmdRef) (status result : Nat) (data : List Byte) : (s.complete c status result data).devs = s.devs := by
  unfold State.complete; split; · rfl
  · split
    · dsimp only; split <;> simp
    · split <;> simp
@[simp] theorem State.complete_grains (s : State) (c : CmdRef) (status result : Nat) (data : List Byte) : (s.complete c status result data).grains = s.grains := by
  unfold State.complete; split; · rfl
  · split
    · dsimp only; split <;> simp
    · split <;> simp
@[simp] theorem State.complete_mems (s : State) (c : CmdRef) (status result : Nat) (data : List Byte) : (s.complete c status result data).mems = s.mems := by
  unfold State.complete; split; · rfl
  · split
    · dsimp only; split <;> simp
    · split <;> simp
@[simp] theorem State.complete_enl (s : State) (c : CmdRef) (status result : Nat) (data : List Byte) : (s.complete c status result data).enl = s.enl := by
  unfold State.complete; split; · rfl
  · split
    · dsimp only; split <;> simp
    · split <;> simp
@[simp] theorem State.complete_job (s : State) (c : CmdRef) (status result : Nat) (data : List Byte) : (s.complete c status result data).job = s.job := by
  unfold State.complete; split; · rfl
  · split
    · dsimp only; split <;> simp
    · split <;> simp
@[simp] theorem State.complete_sht (s : State) (c : CmdRef) (status result : Nat) (data : List Byte) : (s.complete c status result data).sht = s.sht := by
  unfold State.complete; split; · rfl
  · split
    · dsimp only; split <;> simp
    · split <;> simp
@[simp] theorem State.complete_lanes (s : State) (c : CmdRef) (status result : Nat) (data : List Byte) : (s.complete c status result data).lanes = s.lanes := by
  unfold State.complete; split; · rfl
  · split
    · dsimp only; split <;> simp
    · split <;> simp
@[simp] theorem State.complete_fab (s : State) (c : CmdRef) (status result : Nat) (data : List Byte) : (s.complete c status result data).fab = s.fab := by
  unfold State.complete; split; · rfl
  · split
    · dsimp only; split <;> simp
    · split <;> simp
@[simp] theorem State.complete_handover (s : State) (c : CmdRef) (status result : Nat) (data : List Byte) : (s.complete c status result data).handover = s.handover := by
  unfold State.complete; split; · rfl
  · split
    · dsimp only; split <;> simp
    · split <;> simp
@[simp] theorem State.complete_cam (s : State) (c : CmdRef) (status result : Nat) (data : List Byte) : (s.complete c status result data).cam = s.cam := by
  unfold State.complete; split; · rfl
  · split
    · dsimp only; split <;> simp
    · split <;> simp
@[simp] theorem State.complete_store (s : State) (c : CmdRef) (status result : Nat) (data : List Byte) : (s.complete c status result data).store = s.store := by
  unfold State.complete; split; · rfl
  · split
    · dsimp only; split <;> simp
    · split <;> simp
@[simp] theorem State.complete_net (s : State) (c : CmdRef) (status result : Nat) (data : List Byte) : (s.complete c status result data).net = s.net := by
  unfold State.complete; split; · rfl
  · split
    · dsimp only; split <;> simp
    · split <;> simp
@[simp] theorem State.complete_pwr (s : State) (c : CmdRef) (status result : Nat) (data : List Byte) : (s.complete c status result data).pwr = s.pwr := by
  unfold State.complete; split; · rfl
  · split
    · dsimp only; split <;> simp
    · split <;> simp
@[simp] theorem State.complete_fuses (s : State) (c : CmdRef) (status result : Nat) (data : List Byte) : (s.complete c status result data).fuses = s.fuses := by
  unfold State.complete; split; · rfl
  · split
    · dsimp only; split <;> simp
    · split <;> simp
@[simp] theorem State.complete_sec (s : State) (c : CmdRef) (status result : Nat) (data : List Byte) : (s.complete c status result data).sec = s.sec := by
  unfold State.complete; split; · rfl
  · split
    · dsimp only; split <;> simp
    · split <;> simp
@[simp] theorem State.complete_cs (s : State) (c : CmdRef) (status result : Nat) (data : List Byte) : (s.complete c status result data).cs = s.cs := by
  unfold State.complete; split; · rfl
  · split
    · dsimp only; split <;> simp
    · split <;> simp

/-! ## completeOpen -/

@[simp] theorem State.completeOpen_pending (s : State) (c : CmdRef) (status : Nat) : (s.completeOpen c status).pending = s.pending := by
  simp [State.completeOpen]
@[simp] theorem State.completeOpen_devTime (s : State) (c : CmdRef) (status : Nat) : (s.completeOpen c status).devTime = s.devTime := by
  simp [State.completeOpen]
@[simp] theorem State.completeOpen_rootTicks (s : State) (c : CmdRef) (status : Nat) : (s.completeOpen c status).rootTicks = s.rootTicks := by
  simp [State.completeOpen]
@[simp] theorem State.completeOpen_latches (s : State) (c : CmdRef) (status : Nat) : (s.completeOpen c status).latches = s.latches := by
  simp [State.completeOpen]
@[simp] theorem State.completeOpen_heldPush (s : State) (c : CmdRef) (status : Nat) : (s.completeOpen c status).heldPush = s.heldPush := by
  simp [State.completeOpen]
@[simp] theorem State.completeOpen_cores (s : State) (c : CmdRef) (status : Nat) : (s.completeOpen c status).cores = s.cores := by
  simp [State.completeOpen]
@[simp] theorem State.completeOpen_devs (s : State) (c : CmdRef) (status : Nat) : (s.completeOpen c status).devs = s.devs := by
  simp [State.completeOpen]
@[simp] theorem State.completeOpen_grains (s : State) (c : CmdRef) (status : Nat) : (s.completeOpen c status).grains = s.grains := by
  simp [State.completeOpen]
@[simp] theorem State.completeOpen_mems (s : State) (c : CmdRef) (status : Nat) : (s.completeOpen c status).mems = s.mems := by
  simp [State.completeOpen]
@[simp] theorem State.completeOpen_enl (s : State) (c : CmdRef) (status : Nat) : (s.completeOpen c status).enl = s.enl := by
  simp [State.completeOpen]
@[simp] theorem State.completeOpen_job (s : State) (c : CmdRef) (status : Nat) : (s.completeOpen c status).job = s.job := by
  simp [State.completeOpen]
@[simp] theorem State.completeOpen_sht (s : State) (c : CmdRef) (status : Nat) : (s.completeOpen c status).sht = s.sht := by
  simp [State.completeOpen]
@[simp] theorem State.completeOpen_lanes (s : State) (c : CmdRef) (status : Nat) : (s.completeOpen c status).lanes = s.lanes := by
  simp [State.completeOpen]
@[simp] theorem State.completeOpen_fab (s : State) (c : CmdRef) (status : Nat) : (s.completeOpen c status).fab = s.fab := by
  simp [State.completeOpen]
@[simp] theorem State.completeOpen_handover (s : State) (c : CmdRef) (status : Nat) : (s.completeOpen c status).handover = s.handover := by
  simp [State.completeOpen]
@[simp] theorem State.completeOpen_cam (s : State) (c : CmdRef) (status : Nat) : (s.completeOpen c status).cam = s.cam := by
  simp [State.completeOpen]
@[simp] theorem State.completeOpen_store (s : State) (c : CmdRef) (status : Nat) : (s.completeOpen c status).store = s.store := by
  simp [State.completeOpen]
@[simp] theorem State.completeOpen_net (s : State) (c : CmdRef) (status : Nat) : (s.completeOpen c status).net = s.net := by
  simp [State.completeOpen]
@[simp] theorem State.completeOpen_pwr (s : State) (c : CmdRef) (status : Nat) : (s.completeOpen c status).pwr = s.pwr := by
  simp [State.completeOpen]
@[simp] theorem State.completeOpen_fuses (s : State) (c : CmdRef) (status : Nat) : (s.completeOpen c status).fuses = s.fuses := by
  simp [State.completeOpen]
@[simp] theorem State.completeOpen_sec (s : State) (c : CmdRef) (status : Nat) : (s.completeOpen c status).sec = s.sec := by
  simp [State.completeOpen]
@[simp] theorem State.completeOpen_cs (s : State) (c : CmdRef) (status : Nat) : (s.completeOpen c status).cs = s.cs := by
  simp [State.completeOpen]

/-! ## completeReason -/

@[simp] theorem State.completeReason_pending (s : State) (c : CmdRef) (status code : Nat) : (s.completeReason c status code).pending = s.pending := by
  simp [State.completeReason]
@[simp] theorem State.completeReason_devTime (s : State) (c : CmdRef) (status code : Nat) : (s.completeReason c status code).devTime = s.devTime := by
  simp [State.completeReason]
@[simp] theorem State.completeReason_rootTicks (s : State) (c : CmdRef) (status code : Nat) : (s.completeReason c status code).rootTicks = s.rootTicks := by
  simp [State.completeReason]
@[simp] theorem State.completeReason_latches (s : State) (c : CmdRef) (status code : Nat) : (s.completeReason c status code).latches = s.latches := by
  simp [State.completeReason]
@[simp] theorem State.completeReason_heldPush (s : State) (c : CmdRef) (status code : Nat) : (s.completeReason c status code).heldPush = s.heldPush := by
  simp [State.completeReason]
@[simp] theorem State.completeReason_cores (s : State) (c : CmdRef) (status code : Nat) : (s.completeReason c status code).cores = s.cores := by
  simp [State.completeReason]
@[simp] theorem State.completeReason_devs (s : State) (c : CmdRef) (status code : Nat) : (s.completeReason c status code).devs = s.devs := by
  simp [State.completeReason]
@[simp] theorem State.completeReason_grains (s : State) (c : CmdRef) (status code : Nat) : (s.completeReason c status code).grains = s.grains := by
  simp [State.completeReason]
@[simp] theorem State.completeReason_mems (s : State) (c : CmdRef) (status code : Nat) : (s.completeReason c status code).mems = s.mems := by
  simp [State.completeReason]
@[simp] theorem State.completeReason_enl (s : State) (c : CmdRef) (status code : Nat) : (s.completeReason c status code).enl = s.enl := by
  simp [State.completeReason]
@[simp] theorem State.completeReason_job (s : State) (c : CmdRef) (status code : Nat) : (s.completeReason c status code).job = s.job := by
  simp [State.completeReason]
@[simp] theorem State.completeReason_sht (s : State) (c : CmdRef) (status code : Nat) : (s.completeReason c status code).sht = s.sht := by
  simp [State.completeReason]
@[simp] theorem State.completeReason_lanes (s : State) (c : CmdRef) (status code : Nat) : (s.completeReason c status code).lanes = s.lanes := by
  simp [State.completeReason]
@[simp] theorem State.completeReason_fab (s : State) (c : CmdRef) (status code : Nat) : (s.completeReason c status code).fab = s.fab := by
  simp [State.completeReason]
@[simp] theorem State.completeReason_handover (s : State) (c : CmdRef) (status code : Nat) : (s.completeReason c status code).handover = s.handover := by
  simp [State.completeReason]
@[simp] theorem State.completeReason_cam (s : State) (c : CmdRef) (status code : Nat) : (s.completeReason c status code).cam = s.cam := by
  simp [State.completeReason]
@[simp] theorem State.completeReason_store (s : State) (c : CmdRef) (status code : Nat) : (s.completeReason c status code).store = s.store := by
  simp [State.completeReason]
@[simp] theorem State.completeReason_net (s : State) (c : CmdRef) (status code : Nat) : (s.completeReason c status code).net = s.net := by
  simp [State.completeReason]
@[simp] theorem State.completeReason_pwr (s : State) (c : CmdRef) (status code : Nat) : (s.completeReason c status code).pwr = s.pwr := by
  simp [State.completeReason]
@[simp] theorem State.completeReason_fuses (s : State) (c : CmdRef) (status code : Nat) : (s.completeReason c status code).fuses = s.fuses := by
  simp [State.completeReason]
@[simp] theorem State.completeReason_sec (s : State) (c : CmdRef) (status code : Nat) : (s.completeReason c status code).sec = s.sec := by
  simp [State.completeReason]
@[simp] theorem State.completeReason_cs (s : State) (c : CmdRef) (status code : Nat) : (s.completeReason c status code).cs = s.cs := by
  simp [State.completeReason]

/-! ## completeDetail -/

@[simp] theorem State.completeDetail_pending (s : State) (c : CmdRef) (status code detail : Nat) : (s.completeDetail c status code detail).pending = s.pending := by
  simp [State.completeDetail]
@[simp] theorem State.completeDetail_devTime (s : State) (c : CmdRef) (status code detail : Nat) : (s.completeDetail c status code detail).devTime = s.devTime := by
  simp [State.completeDetail]
@[simp] theorem State.completeDetail_rootTicks (s : State) (c : CmdRef) (status code detail : Nat) : (s.completeDetail c status code detail).rootTicks = s.rootTicks := by
  simp [State.completeDetail]
@[simp] theorem State.completeDetail_latches (s : State) (c : CmdRef) (status code detail : Nat) : (s.completeDetail c status code detail).latches = s.latches := by
  simp [State.completeDetail]
@[simp] theorem State.completeDetail_heldPush (s : State) (c : CmdRef) (status code detail : Nat) : (s.completeDetail c status code detail).heldPush = s.heldPush := by
  simp [State.completeDetail]
@[simp] theorem State.completeDetail_cores (s : State) (c : CmdRef) (status code detail : Nat) : (s.completeDetail c status code detail).cores = s.cores := by
  simp [State.completeDetail]
@[simp] theorem State.completeDetail_devs (s : State) (c : CmdRef) (status code detail : Nat) : (s.completeDetail c status code detail).devs = s.devs := by
  simp [State.completeDetail]
@[simp] theorem State.completeDetail_grains (s : State) (c : CmdRef) (status code detail : Nat) : (s.completeDetail c status code detail).grains = s.grains := by
  simp [State.completeDetail]
@[simp] theorem State.completeDetail_mems (s : State) (c : CmdRef) (status code detail : Nat) : (s.completeDetail c status code detail).mems = s.mems := by
  simp [State.completeDetail]
@[simp] theorem State.completeDetail_enl (s : State) (c : CmdRef) (status code detail : Nat) : (s.completeDetail c status code detail).enl = s.enl := by
  simp [State.completeDetail]
@[simp] theorem State.completeDetail_job (s : State) (c : CmdRef) (status code detail : Nat) : (s.completeDetail c status code detail).job = s.job := by
  simp [State.completeDetail]
@[simp] theorem State.completeDetail_sht (s : State) (c : CmdRef) (status code detail : Nat) : (s.completeDetail c status code detail).sht = s.sht := by
  simp [State.completeDetail]
@[simp] theorem State.completeDetail_lanes (s : State) (c : CmdRef) (status code detail : Nat) : (s.completeDetail c status code detail).lanes = s.lanes := by
  simp [State.completeDetail]
@[simp] theorem State.completeDetail_fab (s : State) (c : CmdRef) (status code detail : Nat) : (s.completeDetail c status code detail).fab = s.fab := by
  simp [State.completeDetail]
@[simp] theorem State.completeDetail_handover (s : State) (c : CmdRef) (status code detail : Nat) : (s.completeDetail c status code detail).handover = s.handover := by
  simp [State.completeDetail]
@[simp] theorem State.completeDetail_cam (s : State) (c : CmdRef) (status code detail : Nat) : (s.completeDetail c status code detail).cam = s.cam := by
  simp [State.completeDetail]
@[simp] theorem State.completeDetail_store (s : State) (c : CmdRef) (status code detail : Nat) : (s.completeDetail c status code detail).store = s.store := by
  simp [State.completeDetail]
@[simp] theorem State.completeDetail_net (s : State) (c : CmdRef) (status code detail : Nat) : (s.completeDetail c status code detail).net = s.net := by
  simp [State.completeDetail]
@[simp] theorem State.completeDetail_pwr (s : State) (c : CmdRef) (status code detail : Nat) : (s.completeDetail c status code detail).pwr = s.pwr := by
  simp [State.completeDetail]
@[simp] theorem State.completeDetail_fuses (s : State) (c : CmdRef) (status code detail : Nat) : (s.completeDetail c status code detail).fuses = s.fuses := by
  simp [State.completeDetail]
@[simp] theorem State.completeDetail_sec (s : State) (c : CmdRef) (status code detail : Nat) : (s.completeDetail c status code detail).sec = s.sec := by
  simp [State.completeDetail]
@[simp] theorem State.completeDetail_cs (s : State) (c : CmdRef) (status code detail : Nat) : (s.completeDetail c status code detail).cs = s.cs := by
  simp [State.completeDetail]

/-! ## abortUnlock -/

@[simp] theorem State.abortUnlock_pending (s : State) : (s.abortUnlock).pending = s.pending := by
  unfold State.abortUnlock; split <;> rfl
@[simp] theorem State.abortUnlock_free (s : State) : (s.abortUnlock).free = s.free := by
  unfold State.abortUnlock; split <;> rfl
@[simp] theorem State.abortUnlock_out (s : State) : (s.abortUnlock).out = s.out := by
  unfold State.abortUnlock; split <;> rfl
@[simp] theorem State.abortUnlock_devTime (s : State) : (s.abortUnlock).devTime = s.devTime := by
  unfold State.abortUnlock; split <;> rfl
@[simp] theorem State.abortUnlock_rootTicks (s : State) : (s.abortUnlock).rootTicks = s.rootTicks := by
  unfold State.abortUnlock; split <;> rfl
@[simp] theorem State.abortUnlock_latches (s : State) : (s.abortUnlock).latches = s.latches := by
  unfold State.abortUnlock; split <;> rfl
@[simp] theorem State.abortUnlock_heldPush (s : State) : (s.abortUnlock).heldPush = s.heldPush := by
  unfold State.abortUnlock; split <;> rfl
@[simp] theorem State.abortUnlock_cores (s : State) : (s.abortUnlock).cores = s.cores := by
  unfold State.abortUnlock; split <;> rfl
@[simp] theorem State.abortUnlock_devs (s : State) : (s.abortUnlock).devs = s.devs := by
  unfold State.abortUnlock; split <;> rfl
@[simp] theorem State.abortUnlock_grains (s : State) : (s.abortUnlock).grains = s.grains := by
  unfold State.abortUnlock; split <;> rfl
@[simp] theorem State.abortUnlock_mems (s : State) : (s.abortUnlock).mems = s.mems := by
  unfold State.abortUnlock; split <;> rfl
@[simp] theorem State.abortUnlock_enl (s : State) : (s.abortUnlock).enl = s.enl := by
  unfold State.abortUnlock; split <;> rfl
@[simp] theorem State.abortUnlock_job (s : State) : (s.abortUnlock).job = s.job := by
  unfold State.abortUnlock; split <;> rfl
@[simp] theorem State.abortUnlock_sht (s : State) : (s.abortUnlock).sht = s.sht := by
  unfold State.abortUnlock; split <;> rfl
@[simp] theorem State.abortUnlock_lanes (s : State) : (s.abortUnlock).lanes = s.lanes := by
  unfold State.abortUnlock; split <;> rfl
@[simp] theorem State.abortUnlock_fab (s : State) : (s.abortUnlock).fab = s.fab := by
  unfold State.abortUnlock; split <;> rfl
@[simp] theorem State.abortUnlock_handover (s : State) : (s.abortUnlock).handover = s.handover := by
  unfold State.abortUnlock; split <;> rfl
@[simp] theorem State.abortUnlock_cam (s : State) : (s.abortUnlock).cam = s.cam := by
  unfold State.abortUnlock; split <;> rfl
@[simp] theorem State.abortUnlock_store (s : State) : (s.abortUnlock).store = s.store := by
  unfold State.abortUnlock; split <;> rfl
@[simp] theorem State.abortUnlock_hst (s : State) : (s.abortUnlock).hst = s.hst := by
  unfold State.abortUnlock; split <;> rfl
@[simp] theorem State.abortUnlock_net (s : State) : (s.abortUnlock).net = s.net := by
  unfold State.abortUnlock; split <;> rfl
@[simp] theorem State.abortUnlock_pwr (s : State) : (s.abortUnlock).pwr = s.pwr := by
  unfold State.abortUnlock; split <;> rfl
@[simp] theorem State.abortUnlock_fuses (s : State) : (s.abortUnlock).fuses = s.fuses := by
  unfold State.abortUnlock; split <;> rfl
@[simp] theorem State.abortUnlock_cs (s : State) : (s.abortUnlock).cs = s.cs := by
  unfold State.abortUnlock; split <;> rfl

/-! ## toMode -/

@[simp] theorem State.toMode_pending (s : State) (m job : Nat) : (s.toMode m job).pending = s.pending := by
  simp [State.toMode]
@[simp] theorem State.toMode_devTime (s : State) (m job : Nat) : (s.toMode m job).devTime = s.devTime := by
  simp [State.toMode]
@[simp] theorem State.toMode_rootTicks (s : State) (m job : Nat) : (s.toMode m job).rootTicks = s.rootTicks := by
  simp [State.toMode]
@[simp] theorem State.toMode_latches (s : State) (m job : Nat) : (s.toMode m job).latches = s.latches := by
  simp [State.toMode]
@[simp] theorem State.toMode_heldPush (s : State) (m job : Nat) : (s.toMode m job).heldPush = s.heldPush := by
  simp [State.toMode]
@[simp] theorem State.toMode_cores (s : State) (m job : Nat) : (s.toMode m job).cores = s.cores := by
  simp [State.toMode]
@[simp] theorem State.toMode_devs (s : State) (m job : Nat) : (s.toMode m job).devs = s.devs := by
  simp [State.toMode]
@[simp] theorem State.toMode_grains (s : State) (m job : Nat) : (s.toMode m job).grains = s.grains := by
  simp [State.toMode]
@[simp] theorem State.toMode_mems (s : State) (m job : Nat) : (s.toMode m job).mems = s.mems := by
  simp [State.toMode]
@[simp] theorem State.toMode_enl (s : State) (m job : Nat) : (s.toMode m job).enl = s.enl := by
  simp [State.toMode]
@[simp] theorem State.toMode_job (s : State) (m job : Nat) : (s.toMode m job).job = s.job := by
  simp [State.toMode]
@[simp] theorem State.toMode_sht (s : State) (m job : Nat) : (s.toMode m job).sht = s.sht := by
  simp [State.toMode]
@[simp] theorem State.toMode_lanes (s : State) (m job : Nat) : (s.toMode m job).lanes = s.lanes := by
  simp [State.toMode]
@[simp] theorem State.toMode_fab (s : State) (m job : Nat) : (s.toMode m job).fab = s.fab := by
  simp [State.toMode]
@[simp] theorem State.toMode_handover (s : State) (m job : Nat) : (s.toMode m job).handover = s.handover := by
  simp [State.toMode]
@[simp] theorem State.toMode_cam (s : State) (m job : Nat) : (s.toMode m job).cam = s.cam := by
  simp [State.toMode]
@[simp] theorem State.toMode_store (s : State) (m job : Nat) : (s.toMode m job).store = s.store := by
  simp [State.toMode]
@[simp] theorem State.toMode_net (s : State) (m job : Nat) : (s.toMode m job).net = s.net := by
  simp [State.toMode]
@[simp] theorem State.toMode_pwr (s : State) (m job : Nat) : (s.toMode m job).pwr = s.pwr := by
  simp [State.toMode]
@[simp] theorem State.toMode_fuses (s : State) (m job : Nat) : (s.toMode m job).fuses = s.fuses := by
  simp [State.toMode]

/-! ## alert -/

@[simp] theorem State.alert_pending (s : State) (cause kind detail : Nat) : (s.alert cause kind detail).pending = s.pending := by
  simp [State.alert]
@[simp] theorem State.alert_devTime (s : State) (cause kind detail : Nat) : (s.alert cause kind detail).devTime = s.devTime := by
  simp [State.alert]
@[simp] theorem State.alert_rootTicks (s : State) (cause kind detail : Nat) : (s.alert cause kind detail).rootTicks = s.rootTicks := by
  simp [State.alert]
@[simp] theorem State.alert_latches (s : State) (cause kind detail : Nat) : (s.alert cause kind detail).latches = s.latches := by
  simp [State.alert]
@[simp] theorem State.alert_heldPush (s : State) (cause kind detail : Nat) : (s.alert cause kind detail).heldPush = s.heldPush := by
  simp [State.alert]
@[simp] theorem State.alert_cores (s : State) (cause kind detail : Nat) : (s.alert cause kind detail).cores = s.cores := by
  simp [State.alert]
@[simp] theorem State.alert_devs (s : State) (cause kind detail : Nat) : (s.alert cause kind detail).devs = s.devs := by
  simp [State.alert]
@[simp] theorem State.alert_grains (s : State) (cause kind detail : Nat) : (s.alert cause kind detail).grains = s.grains := by
  simp [State.alert]
@[simp] theorem State.alert_mems (s : State) (cause kind detail : Nat) : (s.alert cause kind detail).mems = s.mems := by
  simp [State.alert]
@[simp] theorem State.alert_enl (s : State) (cause kind detail : Nat) : (s.alert cause kind detail).enl = s.enl := by
  simp [State.alert]
@[simp] theorem State.alert_job (s : State) (cause kind detail : Nat) : (s.alert cause kind detail).job = s.job := by
  simp [State.alert]
@[simp] theorem State.alert_sht (s : State) (cause kind detail : Nat) : (s.alert cause kind detail).sht = s.sht := by
  simp [State.alert]
@[simp] theorem State.alert_lanes (s : State) (cause kind detail : Nat) : (s.alert cause kind detail).lanes = s.lanes := by
  simp [State.alert]
@[simp] theorem State.alert_fab (s : State) (cause kind detail : Nat) : (s.alert cause kind detail).fab = s.fab := by
  simp [State.alert]
@[simp] theorem State.alert_handover (s : State) (cause kind detail : Nat) : (s.alert cause kind detail).handover = s.handover := by
  simp [State.alert]
@[simp] theorem State.alert_cam (s : State) (cause kind detail : Nat) : (s.alert cause kind detail).cam = s.cam := by
  simp [State.alert]
@[simp] theorem State.alert_store (s : State) (cause kind detail : Nat) : (s.alert cause kind detail).store = s.store := by
  simp [State.alert]
@[simp] theorem State.alert_net (s : State) (cause kind detail : Nat) : (s.alert cause kind detail).net = s.net := by
  simp [State.alert]
@[simp] theorem State.alert_pwr (s : State) (cause kind detail : Nat) : (s.alert cause kind detail).pwr = s.pwr := by
  simp [State.alert]
@[simp] theorem State.alert_fuses (s : State) (cause kind detail : Nat) : (s.alert cause kind detail).fuses = s.fuses := by
  simp [State.alert]
@[simp] theorem State.alert_sec (s : State) (cause kind detail : Nat) : (s.alert cause kind detail).sec = s.sec := by
  simp [State.alert]

/-! ## setStore -/

@[simp] theorem State.setStore_pending (s : State) (x : Store) : (s.setStore x).pending = s.pending := rfl
@[simp] theorem State.setStore_free (s : State) (x : Store) : (s.setStore x).free = s.free := rfl
@[simp] theorem State.setStore_out (s : State) (x : Store) : (s.setStore x).out = s.out := rfl
@[simp] theorem State.setStore_devTime (s : State) (x : Store) : (s.setStore x).devTime = s.devTime := rfl
@[simp] theorem State.setStore_rootTicks (s : State) (x : Store) : (s.setStore x).rootTicks = s.rootTicks := rfl
@[simp] theorem State.setStore_regs (s : State) (x : Store) : (s.setStore x).regs = s.regs := rfl
@[simp] theorem State.setStore_latches (s : State) (x : Store) : (s.setStore x).latches = s.latches := rfl
@[simp] theorem State.setStore_heldPush (s : State) (x : Store) : (s.setStore x).heldPush = s.heldPush := rfl
@[simp] theorem State.setStore_cores (s : State) (x : Store) : (s.setStore x).cores = s.cores := rfl
@[simp] theorem State.setStore_devs (s : State) (x : Store) : (s.setStore x).devs = s.devs := rfl
@[simp] theorem State.setStore_grains (s : State) (x : Store) : (s.setStore x).grains = s.grains := rfl
@[simp] theorem State.setStore_mems (s : State) (x : Store) : (s.setStore x).mems = s.mems := rfl
@[simp] theorem State.setStore_enl (s : State) (x : Store) : (s.setStore x).enl = s.enl := rfl
@[simp] theorem State.setStore_job (s : State) (x : Store) : (s.setStore x).job = s.job := rfl
@[simp] theorem State.setStore_sht (s : State) (x : Store) : (s.setStore x).sht = s.sht := rfl
@[simp] theorem State.setStore_lanes (s : State) (x : Store) : (s.setStore x).lanes = s.lanes := rfl
@[simp] theorem State.setStore_fab (s : State) (x : Store) : (s.setStore x).fab = s.fab := rfl
@[simp] theorem State.setStore_handover (s : State) (x : Store) : (s.setStore x).handover = s.handover := rfl
@[simp] theorem State.setStore_cam (s : State) (x : Store) : (s.setStore x).cam = s.cam := rfl
@[simp] theorem State.setStore_hst (s : State) (x : Store) : (s.setStore x).hst = s.hst := rfl
@[simp] theorem State.setStore_net (s : State) (x : Store) : (s.setStore x).net = s.net := rfl
@[simp] theorem State.setStore_pwr (s : State) (x : Store) : (s.setStore x).pwr = s.pwr := rfl
@[simp] theorem State.setStore_fuses (s : State) (x : Store) : (s.setStore x).fuses = s.fuses := rfl
@[simp] theorem State.setStore_sec (s : State) (x : Store) : (s.setStore x).sec = s.sec := rfl
@[simp] theorem State.setStore_cs (s : State) (x : Store) : (s.setStore x).cs = s.cs := rfl
@[simp] theorem State.setStore_store (s : State) (x : Store) : (s.setStore x).store = x := rfl

end Sys2Proof.Machine
end

