-- ==== Sys2Proof/Laws/Regs.lean ====
section
/-!
SUPPORT. The laws of the control registers: a read after a write, bit fields of a written value, and the canonical form of the
register map.
-/

namespace Sys2Proof.Machine

/-! ## Keys -/

/-- Two registers, or two instances of one, have different keys. -/
theorem regKey_inj {r r' : RegName} {i i' : Nat} (hi : i < 1024) (hi' : i' < 1024) (h : regKey r i = regKey r' i') :
    r = r' ∧ i = i' := by
  have h1 : r.ctorIdx = r'.ctorIdx := by simp only [regKey] at h; omega
  have h2 : i = i' := by simp only [regKey] at h; omega
  have key : ∀ a b : RegName, a.ctorIdx = b.ctorIdx → a = b := by
    intro a b hab
    have e : ∀ x : RegName, x = allRegs.getD x.ctorIdx .SYS_MODE := by intro x; cases x <;> rfl
    rw [e a, e b, hab]
  exact ⟨key r r' h1, h2⟩

/-! ## Registers -/

@[simp] theorem reg_setReg_same (s : State) (r : RegName) (v : DWord) (i : Nat) : (s.setReg r v i).reg r i = v := by
  simp [State.reg, State.setReg]

theorem reg_setReg_ne (s : State) {r r' : RegName} (v : DWord) {i i' : Nat} (h : regKey r i ≠ regKey r' i') :
    (s.setReg r v i).reg r' i' = s.reg r' i' := by
  simp only [State.reg, State.setReg]
  exact smGet_set_ne _ _ _ h

/-- A write of a register leaves the registers of every other name alone. -/
theorem reg_setReg_other (s : State) {r r' : RegName} (v : DWord) {i i' : Nat} (hi : i < 1024) (hi' : i' < 1024) (h : r ≠ r') :
    (s.setReg r v i).reg r' i' = s.reg r' i' :=
  reg_setReg_ne s v (fun e => h (regKey_inj hi hi' e).1)

/-- A write of an instance leaves the other instances alone. -/
theorem reg_setReg_instance (s : State) {r : RegName} (v : DWord) {i i' : Nat} (h : i ≠ i') :
    (s.setReg r v i).reg r i' = s.reg r i' :=
  reg_setReg_ne s v (fun e => h (by simp only [regKey] at e; omega))

/-- A software or hardware write keeps the register map in canonical form. -/
theorem setReg_wf (s : State) (r : RegName) (v : DWord) (i : Nat) (h : smWf regResetKey s.regs = true) :
    smWf regResetKey (s.setReg r v i).regs = true := smWf_set _ _ _ _ h

theorem fset_wf (s : State) (f : Fld) (v i : Nat) (h : smWf regResetKey s.regs = true) :
    smWf regResetKey (s.fset f v i).regs = true := setReg_wf s _ _ _ h

theorem plainWrite_wf (s : State) (r : RegName) (i : Nat) (mask v : DWord) (h : smWf regResetKey s.regs = true) :
    smWf regResetKey (s.plainWrite r i mask v).regs = true := setReg_wf s _ _ _ h

/-! ## Bit fields -/

theorem getBits_lt (v : DWord) (lo w : Nat) : getBits v lo w < 2 ^ w := Nat.mod_lt _ (Nat.two_pow_pos w)

theorem testBit_getBits (v : DWord) (lo w k : Nat) :
    (getBits v lo w).testBit k = (decide (k < w) && v.getLsbD (lo + k)) := by
  simp only [getBits, ← Nat.shiftRight_eq_div_pow]
  rw [Nat.testBit_mod_two_pow, Nat.testBit_shiftRight, BitVec.testBit_toNat]

theorem getLsbD_mask (lo w k : Nat) (hk : k < 64) :
    (BitVec.ofNat 64 ((2 ^ w - 1) * 2 ^ lo)).getLsbD k = decide (lo ≤ k ∧ k < lo + w) := by
  rw [BitVec.getLsbD_ofNat, ← Nat.shiftLeft_eq, Nat.testBit_shiftLeft, Nat.testBit_two_pow_sub_one]
  simp only [hk, decide_true, Bool.true_and]
  by_cases h : lo ≤ k
  · simp only [h, decide_true, Bool.true_and, true_and]
    congr 1
    exact propext ⟨fun x => by omega, fun x => by omega⟩
  · simp [h]

theorem getLsbD_setBits (v : DWord) (lo w x k : Nat) (hk : k < 64) :
    (setBits v lo w x).getLsbD k = if lo ≤ k ∧ k < lo + w then x.testBit (k - lo) else v.getLsbD k := by
  simp only [setBits, BitVec.getLsbD_or, BitVec.getLsbD_and, BitVec.getLsbD_not, getLsbD_mask lo w k hk, hk,
    decide_true, Bool.true_and]
  have hx : (BitVec.ofNat 64 (x % 2 ^ w * 2 ^ lo)).getLsbD k = (decide (lo ≤ k ∧ k < lo + w) && x.testBit (k - lo)) := by
    rw [BitVec.getLsbD_ofNat, ← Nat.shiftLeft_eq, Nat.testBit_shiftLeft, Nat.testBit_mod_two_pow]
    simp only [hk, decide_true, Bool.true_and]
    by_cases h : lo ≤ k
    · have : (k - lo < w) = (k < lo + w) := propext ⟨fun x => by omega, fun x => by omega⟩
      simp [h, this]
    · simp [h]
  rw [hx]
  by_cases hm : lo ≤ k ∧ k < lo + w
  · simp [hm]
  · rw [decide_eq_false hm]
    simp [hm]

/-- A field reads as the value put into it. -/
theorem getBits_setBits_same (v : DWord) (lo w x : Nat) (h : lo + w ≤ 64) : getBits (setBits v lo w x) lo w = x % 2 ^ w := by
  apply Nat.eq_of_testBit_eq
  intro k
  rw [testBit_getBits, Nat.testBit_mod_two_pow]
  by_cases hk : k < w
  · rw [getLsbD_setBits v lo w x (lo + k) (by omega)]
    simp [hk]
  · simp [hk]

/-- A field that does not overlap the written one keeps its value. -/
theorem getBits_setBits_disjoint (v : DWord) (lo w x lo' w' : Nat) (h : lo + w ≤ lo' ∨ lo' + w' ≤ lo) :
    getBits (setBits v lo w x) lo' w' = getBits v lo' w' := by
  apply Nat.eq_of_testBit_eq
  intro k
  rw [testBit_getBits, testBit_getBits]
  by_cases hk : k < w'
  · by_cases h64 : lo' + k < 64
    · rw [getLsbD_setBits v lo w x _ h64]
      have : ¬ (lo ≤ lo' + k ∧ lo' + k < lo + w) := by omega
      simp [this]
    · rw [BitVec.getLsbD_of_ge _ _ (by omega), BitVec.getLsbD_of_ge _ _ (by omega)]
  · simp [hk]

/-- A field update seen through the field. -/
theorem fv_fset_same (s : State) (f : Fld) (v i : Nat) (h : f.lo + f.w ≤ 64) : (s.fset f v i).fv f i = v % 2 ^ f.w := by
  simp [State.fv, State.fset, getBits_setBits_same _ _ _ _ h]

/-- A field update seen through another field of the register. -/
theorem fv_fset_disjoint (s : State) {f f' : Fld} (v i : Nat) (hr : f.reg = f'.reg)
    (h : f.lo + f.w ≤ f'.lo ∨ f'.lo + f'.w ≤ f.lo) : (s.fset f v i).fv f' i = s.fv f' i := by
  simp only [State.fv, State.fset, ← hr, reg_setReg_same]
  exact getBits_setBits_disjoint _ _ _ _ _ _ h

/-- A field update seen through a field of another register. -/
theorem fv_fset_other (s : State) {f f' : Fld} (v : Nat) {i i' : Nat} (hi : i < 1024) (hi' : i' < 1024) (hr : f.reg ≠ f'.reg) :
    (s.fset f v i).fv f' i' = s.fv f' i' := by
  simp only [State.fv, State.fset]
  rw [reg_setReg_other s _ hi hi' hr]

/-- A field update seen through a field of another instance. -/
theorem fv_fset_instance (s : State) {f f' : Fld} (v : Nat) {i i' : Nat} (hr : f.reg = f'.reg) (h : i ≠ i') :
    (s.fset f v i).fv f' i' = s.fv f' i' := by
  simp only [State.fv, State.fset, ← hr]
  rw [reg_setReg_instance s _ h]

/-- A counter rises by what it is given and saturates (R10). -/
theorem fv_finc_same (s : State) (f : Fld) (i n : Nat) (h : f.lo + f.w ≤ 64) :
    (s.finc f i n).fv f i = Nat.min (s.fv f i + n) (2 ^ f.w - 1) := by
  rw [State.finc, fv_fset_same s f _ i h]
  apply Nat.mod_eq_of_lt
  have : 0 < 2 ^ f.w := Nat.two_pow_pos _
  exact Nat.lt_of_le_of_lt (Nat.min_le_right _ _) (by omega)

end Sys2Proof.Machine
end

