-- ==== Sys2Proof/Laws/Ops.lean ====
section
/-!
SUPPORT. What the shared operations can do, said once: the effect of a command, a guarded register write, and the issue of a core
instruction.
-/

namespace Sys2Proof.Machine

/-! ## effect -/

/-- A command that acts through `effect` answers a next state. -/
theorem effect_eq (s : State) (f : State → State) :
    s.effect f = .next { f s with pending := s.pending, fuses := s.fuses, devTime := s.devTime } := rfl

/-- The only answer of such a command. -/
theorem effect_next {s t : State} {f : State → State} (h : s.effect f = .next t) :
    t = { f s with pending := s.pending, fuses := s.fuses, devTime := s.devTime } := by
  injection h with h
  exact h.symm

theorem effect_pending {s t : State} {f : State → State} (h : s.effect f = .next t) : t.pending = s.pending := by
  rw [effect_next h]

theorem effect_fuses {s t : State} {f : State → State} (h : s.effect f = .next t) : t.fuses = s.fuses := by
  rw [effect_next h]

theorem effect_devTime {s t : State} {f : State → State} (h : s.effect f = .next t) : t.devTime = s.devTime := by
  rw [effect_next h]

/-- A command without effect leaves the state as it is. -/
@[simp] theorem effect_id (s : State) : (s.effect fun x => x) = .next s := rfl

/-- A field of the state after, for the fields that `effect` passes on. -/
theorem effect_of {s t : State} {f : State → State} {α : Type} (p : State → α)
    (hp : ∀ x : State, p { x with pending := s.pending, fuses := s.fuses, devTime := s.devTime } = p x)
    (h : s.effect f = .next t) : p t = p (f s) := by
  rw [effect_next h, hp]

/-! ## guarded -/

/-- A guarded write does nothing, is counted, or acts with the latch released. -/
theorem guarded_cases (s : State) (a : Agent) (r : RegName) (i : Nat) (f : State → State) :
    (s.reaches a = false ∧ s.guarded a r i f = s) ∨
    (s.reaches a = true ∧ s.mayWrite a r i = false ∧ s.guarded a r i f = s.badAccess) ∨
    (s.reaches a = true ∧ s.mayWrite a r i = true ∧ s.guarded a r i f = f (s.unlatch r i)) := by
  unfold State.guarded
  cases s.reaches a <;> cases s.mayWrite a r i <;> simp

/-- A write the agent may make. -/
theorem guarded_act {s : State} {a : Agent} {r : RegName} {i : Nat} (f : State → State) (hr : s.reaches a = true)
    (hw : s.mayWrite a r i = true) : s.guarded a r i f = f (s.unlatch r i) := by
  simp [State.guarded, hr, hw]

/-- A refused write is counted and does nothing else (R345). -/
theorem guarded_refused {s : State} {a : Agent} {r : RegName} {i : Nat} (f : State → State) (hr : s.reaches a = true)
    (hw : s.mayWrite a r i = false) : s.guarded a r i f = s.badAccess := by
  simp [State.guarded, hr, hw]

/-! ## issue -/

/-- What issuing an instruction can answer: the core does not run, the condition awaits the global OR, or the body stalls, and nothing
happens; or something due at the boundary is taken in its place, the fetch, the condition field or the body raises an exception, the
condition is false, or the body completes. -/
theorem issue_cases (s : State) (h : Hdr) (body : State → Res) :
    s.issue h body = .next s ∨
    (∃ u : State, s.issue h body = .next { u with pending := s.pending, fuses := s.fuses, devTime := s.devTime }) := by
  generalize hr : s.issue h body = r
  simp only [State.issue] at hr
  repeat' split at hr
  all_goals first | exact .inl hr.symm | exact .inr ⟨_, hr.symm⟩

/-- An instruction leaves the queue, the fuses and DEV_TIME alone. -/
theorem issue_keeps {s t : State} {h : Hdr} {body : State → Res} (e : s.issue h body = .next t) :
    t.pending = s.pending ∧ t.fuses = s.fuses ∧ t.devTime = s.devTime := by
  rcases issue_cases s h body with hc | ⟨u, hc⟩ <;> rw [hc] at e <;> injection e with e <;> subst e <;> exact ⟨rfl, rfl, rfl⟩

/-- A core instruction always answers a next state. -/
theorem issue_answers (s : State) (h : Hdr) (body : State → Res) : ∃ t, s.issue h body = .next t := by
  rcases issue_cases s h body with hc | ⟨u, hc⟩
  · exact ⟨s, hc⟩
  · exact ⟨_, hc⟩

/-- An instruction whose body completes. -/
theorem issue_done {s t u : State} {h : Hdr} {body : State → Res} (hr : s.coreRuns h.core = true)
    (hb : s.boundary h.core = none) (hf : s.fetch h.core (hdrLen h) = (none, t)) (hl : condIllegal h = false)
    (hg : t.gorWaits h = false) (hc : t.condHolds h = true) (hd : body (t.begin_ h) = .done u) : s.issue h body = s.effect (fun _ => u.stepped h.core) := by
  simp [State.issue, hr, hb, hf, hl, hg, hc, hd]

/-- An instruction whose condition is false: nothing but the trace, the pc and a granted STEP (R70). -/
theorem issue_false {s t : State} {h : Hdr} {body : State → Res} (hr : s.coreRuns h.core = true)
    (hb : s.boundary h.core = none) (hf : s.fetch h.core (hdrLen h) = (none, t)) (hl : condIllegal h = false)
    (hg : t.gorWaits h = false) (hc : t.condHolds h = false) : s.issue h body = s.effect (fun _ => (t.begin_ h).stepped h.core) := by
  simp [State.issue, hr, hb, hf, hl, hg, hc]

/-- An instruction whose body raises a precise exception. -/
theorem issue_trap {s t u : State} {h : Hdr} {body : State → Res} {e : Exc} (hr : s.coreRuns h.core = true)
    (hb : s.boundary h.core = none) (hf : s.fetch h.core (hdrLen h) = (none, t)) (hl : condIllegal h = false)
    (hg : t.gorWaits h = false) (hc : t.condHolds h = true) (hd : body (t.begin_ h) = .trap u e) :
    s.issue h body = s.effect (fun _ => (u.precise h.core e (s.cores[h.core]).pc).stepped h.core) := by
  simp [State.issue, hr, hb, hf, hl, hg, hc, hd]

/-- An instruction whose condition awaits the global OR (R46, R71). -/
theorem issue_gor {s t : State} {h : Hdr} (body : State → Res) (hr : s.coreRuns h.core = true) (hb : s.boundary h.core = none)
    (hf : s.fetch h.core (hdrLen h) = (none, t)) (hl : condIllegal h = false) (hg : t.gorWaits h = true) : s.issue h body = .next s := by
  simp [State.issue, hr, hb, hf, hl, hg]

/-- A core that does not run takes no instruction. -/
theorem issue_idle {s : State} {h : Hdr} (body : State → Res) (hr : s.coreRuns h.core = false) : s.issue h body = .next s := by
  simp [State.issue, hr]

end Sys2Proof.Machine
end

