-- ==== Sys2Proof/Laws/Mem.lean ====
section
/-!
SUPPORT. The laws of the memories: a read after a write, and that every memory operation keeps the canonical form.
-/

namespace Sys2Proof.Machine

/-! ## One memory -/

@[simp] theorem cell_setCell_same (m : Mem) (i : Nat) (c : Cell) : (m.setCell i c).cell i = c := by
  simp only [Mem.cell, Mem.setCell]
  exact smGet_set_same m.dflt m.words i c

theorem cell_setCell_ne (m : Mem) {i j : Nat} (c : Cell) (h : i ≠ j) : (m.setCell i c).cell j = m.cell j := by
  simp only [Mem.cell, Mem.setCell]
  exact smGet_set_ne m.dflt m.words c h

theorem Mem.setCell_wf {m : Mem} (h : m.wf = true) (i : Nat) (c : Cell) : (m.setCell i c).wf = true :=
  smWf_set m.dflt m.words i c h

theorem Mem.of_wf (b : Cell) : (Mem.of b).wf = true := rfl

/-! ## The memories by their codes -/

/-- A memory law over a fixed number of like memories. -/
theorem all_set {n : Nat} (v : Vector Mem n) (i : Fin n) (m : Mem) (h : v.toList.all Mem.wf = true) (hm : m.wf = true) :
    (v.set i m).toList.all Mem.wf = true := by
  simp only [Vector.toList_set, List.all_eq_true] at h ⊢
  intro x hx
  rcases List.mem_or_eq_of_mem_set hx with e | e
  · exact h x e
  · exact e ▸ hm

theorem all_getD {n : Nat} (v : Vector Mem n) (k : Nat) (b : Cell) (h : v.toList.all Mem.wf = true) :
    (v.toList.getD k (Mem.of b)).wf = true := by
  rw [List.getD_eq_getElem?_getD]
  cases e : v.toList[k]? with
  | none => rfl
  | some m => exact List.all_eq_true.mp h m (List.mem_of_getElem? e)

theorem Mems.at_wf {ms : Mems} (h : ms.wf = true) (code : Nat) : (ms.at_ code).wf = true := by
  simp only [Mems.wf, Bool.and_eq_true] at h
  obtain ⟨⟨⟨⟨⟨⟨⟨h1, h2⟩, h3⟩, h4⟩, h5⟩, h6⟩, h7⟩, -⟩ := h
  unfold Mems.at_
  split; · exact h1
  split; · exact h2
  split; · exact h3
  split; · exact all_getD _ _ _ h5
  split; · exact all_getD _ _ _ h6
  split; · exact all_getD _ _ _ h7
  exact h4

theorem Mems.put_wf {ms : Mems} (h : ms.wf = true) (code : Nat) {m : Mem} (hm : m.wf = true) : (ms.put code m).wf = true := by
  simp only [Mems.wf, Bool.and_eq_true] at h
  obtain ⟨⟨⟨⟨⟨⟨⟨h1, h2⟩, h3⟩, h4⟩, h5⟩, h6⟩, h7⟩, h8⟩ := h
  unfold Mems.put
  repeat' split
  all_goals simp only [Mems.wf, Bool.and_eq_true, h1, h2, h3, h4, h5, h6, h7, h8, hm, all_set _ _ _ h5 hm, all_set _ _ _ h6 hm,
    all_set _ _ _ h7 hm, and_self]

/-! ## Operations -/

theorem setCell_wf {s : State} (h : s.mems.wf = true) (code i : Nat) (c : Cell) : (s.setCell code i c).mems.wf = true :=
  Mems.put_wf h code (Mem.setCell_wf (Mems.at_wf h code) i c)

@[simp] theorem ueRecord_mems (s : State) (code word requester : Nat) : (s.ueRecord code word requester).mems = s.mems := by
  unfold State.ueRecord
  simp only [State.csMasked_mems]
  split <;> rfl

@[simp] theorem flipUsed_mems (s : State) : s.flipUsed.mems = s.mems := by
  unfold State.flipUsed
  split <;> rfl

theorem fixCe_wf {s : State} (h : s.mems.wf = true) (code i : Nat) : (s.fixCe code i).mems.wf = true := by
  unfold State.fixCe
  split
  · exact setCell_wf h _ _ _
  · exact h

theorem fixMir_wf {s : State} (h : s.mems.wf = true) (code i : Nat) : (s.fixMir code i).mems.wf = true := by
  unfold State.fixMir
  split
  · exact setCell_wf h _ _ _
  · exact h

/-- The memories stay in canonical form through a fold of steps that keep it. -/
theorem memFold {α : Type} {s : State} (h : s.mems.wf = true) (l : List α) (f : State → α → State)
    (hf : ∀ t a, t.mems.wf = true → (f t a).mems.wf = true) : (l.foldl f s).mems.wf = true :=
  foldl_keeps (p := fun t : State => t.mems.wf = true) l f hf s h

/-- A read keeps the canonical form, corrected words and all (R300). -/
theorem readCw_wf {s : State} (h : s.mems.wf = true) (requester code cw : Nat) : (s.readCw requester code cw).2.mems.wf = true := by
  unfold State.readCw
  dsimp only
  split
  · rw [ueRecord_mems]; exact h
  · split
    · rw [State.finc_mems]
      exact memFold h _ (fun s i => s.fixCe code i) (fun _ _ ht => fixCe_wf ht _ _)
    · split
      · split
        · rw [ueRecord_mems]
          exact memFold (s := s.used) (by rw [State.used_mems]; exact h) _ (fun s i => s.fixMir code i)
            (fun _ _ ht => fixMir_wf ht _ _)
        · rw [State.used_mems]; exact h
      · exact h

theorem readRange_wf {s : State} (h : s.mems.wf = true) (requester code off n : Nat) :
    (s.readRange requester code off n).2.mems.wf = true := by
  unfold State.readRange
  refine foldl_keeps (p := fun r : Bool × State => r.2.mems.wf = true) _ _ (fun r cw hr => ?_) (false, s) h
  show (r.2.readCw requester code cw).2.mems.wf = true
  exact readCw_wf (s := r.2) hr requester code cw

/-- Storing a word of a codeword leaves the state alone or writes that word's cell. -/
theorem storeWord_cases (s : State) (code i : Nat) (put : Nat → Option Byte) (bad : Bool) (inj : Option Flip) :
    s.storeWord code i put bad inj = s ∨ ∃ c, s.storeWord code i put bad inj = s.setCell code i c := by
  unfold State.storeWord
  dsimp only
  split
  all_goals first
    | (left; with_reducible rfl)
    | (right; exact ⟨_, by with_reducible rfl⟩)

theorem storeWord_wf {s : State} (h : s.mems.wf = true) (code i : Nat) (put : Nat → Option Byte) (bad : Bool) (inj : Option Flip) :
    (s.storeWord code i put bad inj).mems.wf = true := by
  rcases storeWord_cases s code i put bad inj with e | ⟨c, e⟩ <;> rw [e]
  · exact h
  · exact setCell_wf h _ _ _

theorem readFirst_wf {s : State} (h : s.mems.wf = true) (whole : Bool) (requester code cw : Nat) :
    (s.readFirst whole requester code cw).2.mems.wf = true := by
  unfold State.readFirst
  split
  · exact h
  · exact readCw_wf h _ _ _

theorem takeFlip_wf {s : State} (h : s.mems.wf = true) (code cw : Nat) : (s.takeFlip code cw).2.mems.wf = true := by
  unfold State.takeFlip
  split
  · simpa using h
  · exact h

/-- A write into one codeword keeps the canonical form. -/
theorem writeCw_wf {s : State} (h : s.mems.wf = true) (requester code cw : Nat) (put : Nat → Option Byte) :
    (s.writeCw requester code cw put).mems.wf = true :=
  memFold (takeFlip_wf (readFirst_wf h _ _ _ _) _ _) _ _ (fun _ _ ht => storeWord_wf ht _ _ _ _ _)

theorem writeBytes_wf {s : State} (h : s.mems.wf = true) (requester code off : Nat) (data : List Byte) :
    (s.writeBytes requester code off data).mems.wf = true :=
  memFold h _ _ (fun _ _ ht => writeCw_wf ht _ _ _ _)

theorem memZero_wf {s : State} (h : s.mems.wf = true) (code : Nat) : (s.memZero code).mems.wf = true :=
  Mems.put_wf h code (Mem.of_wf _)

theorem breakResv_mems (s : State) (by_ : Option (Fin 8)) (g : Nat) : (s.breakResv by_ g).mems = s.mems := by
  unfold State.breakResv
  refine forFin_keeps (p := fun t : State => t.mems = s.mems) 8 _ (fun t c ht => ?_) s rfl
  split <;> exact ht

theorem breakRange_mems (s : State) (by_ : Option (Fin 8)) (a n : Nat) : (s.breakRange by_ a n).mems = s.mems := by
  unfold State.breakRange
  split
  · rfl
  · exact foldl_keeps (p := fun t : State => t.mems = s.mems) _ _ (fun t k ht => (breakResv_mems _ _ _).trans ht) s rfl

theorem dmaWrite_wf {s : State} (h : s.mems.wf = true) (requester addr : Nat) (data : List Byte) :
    (s.dmaWrite requester addr data).mems.wf = true := by
  unfold State.dmaWrite
  split
  · exact writeBytes_wf (by rw [breakRange_mems]; exact h) _ _ _ _
  · exact h

/-- The memories are in canonical form at reset. -/
theorem reset_mems_wf : State.reset.mems.wf = true := by decide

/-! ## Grain memory -/

theorem setPlane_wf {g : Grains} (h : g.wf = true) (a : Nat) (p : GPlane) : (g.setPlane a p).wf = true :=
  smWf_set (fun _ => g.base) g.mem a p h

theorem plane_setPlane_same (g : Grains) (a : Nat) (p : GPlane) : (g.setPlane a p).plane a = p := by
  simp only [Grains.plane, Grains.setPlane]
  exact smGet_set_same (fun _ => g.base) g.mem a p

theorem plane_setPlane_ne (g : Grains) {a b : Nat} (p : GPlane) (h : a ≠ b) : (g.setPlane a p).plane b = g.plane b := by
  simp only [Grains.plane, Grains.setPlane]
  exact smGet_set_ne (fun _ => g.base) g.mem p h

@[simp] theorem ueRecord_grains (s : State) (code word requester : Nat) : (s.ueRecord code word requester).grains = s.grains := by
  unfold State.ueRecord
  simp only [State.csMasked_grains]
  split <;> rfl

@[simp] theorem flipUsed_grains (s : State) : s.flipUsed.grains = s.grains := by
  unfold State.flipUsed
  split <;> rfl

theorem grainFlip_wf {s : State} (h : s.grains.wf = true) (a : Nat) (ws : BitVec 2048) : (s.grainFlip a ws).grains.wf = true := by
  unfold State.grainFlip
  simp only
  split
  · exact h
  · exact setPlane_wf (by simpa using h) _ _

/-- A full-word write of grain memory keeps the canonical form. -/
theorem grainWrite_wf {s : State} (h : s.grains.wf = true) (a : Nat) (ws : BitVec 2048) (data : Plane) :
    (s.grainWrite a ws data).grains.wf = true :=
  grainFlip_wf (s := s.setGrains _) (setPlane_wf h _ _) _ _

theorem grainUE_grains (s : State) (a : Nat) (ws : BitVec 2048) (requester : Nat) : (s.grainUE a ws requester).grains = s.grains := by
  refine forFin_keeps (p := fun t : State => t.grains = s.grains) 4 _ (fun t p ht => ?_) s rfl
  dsimp only
  split
  · exact ht
  · simp only [ueRecord_grains]
    split <;> simpa using ht

/-- A protected read of grain memory keeps the canonical form. -/
theorem grainRead_wf {s : State} (h : s.grains.wf = true) (a : Nat) (ws : BitVec 2048) (requester : Nat) :
    (s.grainRead a ws requester).2.grains.wf = true := by
  unfold State.grainRead
  dsimp only
  have key : ∀ t : State, t.grains.wf = true → ∀ l : List Nat,
      (l.foldl (fun s w => (s.finc F.GRN_ECC_CE_COUNT (w / 512)).finc F.ECC_SCRUB_CE_COUNT 0) t).grains.wf = true :=
    fun t ht l => foldl_keeps (p := fun t : State => t.grains.wf = true) l
      (fun s w => (s.finc F.GRN_ECC_CE_COUNT (w / 512)).finc F.ECC_SCRUB_CE_COUNT 0) (fun _ _ hs => hs) t ht
  have fixed : ∀ p : GPlane, (s.setGrains (s.grains.setPlane a p)).grains.wf = true := fun p => setPlane_wf h a p
  split <;> split
  · exact h
  · exact key _ (fixed _) _
  · rw [grainUE_grains]; exact h
  · rw [grainUE_grains]; exact key _ (fixed _) _

/-- A masked write of grain memory keeps the canonical form. -/
theorem grainMerge_wf {s : State} (h : s.grains.wf = true) (a : Nat) (ws : BitVec 2048) (m data : Plane) (requester : Nat) :
    (s.grainMerge a ws m data requester).2.grains.wf = true :=
  grainFlip_wf (s := State.setGrains _ _) (setPlane_wf (grainRead_wf h _ _ _) _ _) _ _

theorem grainMC_grains (s : State) (ws : BitVec 2048) : (s.grainMC ws).grains = s.grains := by
  unfold State.grainMC
  refine forFin_keeps (p := fun t : State => t.grains = s.grains) 4 _ (fun t p ht => ?_) s rfl
  split <;> exact ht

theorem backdoorWrite_wf {s : State} (h : s.grains.wf = true) (off : Nat) (data : List Byte) (requester : Nat) :
    (s.backdoorWrite off data requester).grains.wf = true := by
  unfold State.backdoorWrite
  refine foldl_keeps (p := fun t : State => t.grains.wf = true) _ _ (fun t aw ht => ?_) s h
  simp only
  split
  · exact grainWrite_wf ht _ _ _
  · rw [grainMC_grains]; exact grainMerge_wf ht _ _ _ _ _

end Sys2Proof.Machine
end

