-- ==== Sys2Proof/Tests/Witness.lean ====
section
/-!
SUPPORT. How the witnesses are checked: decision procedures for the hypotheses of the statements, an address of no unit, and the states the
witnesses share.
-/

namespace Sys2Proof.Tests
open Sys2Proof.Machine Sys2Proof.Claims

/-! ## How the witnesses are checked

Each `witness_` theorem gives concrete states and operands and says that they meet the hypotheses of one statement of
`Certificates/Slice0/Obligations.lean`, clause by clause. The kernel evaluates them. -/

def desc0 : Desc :=
  { opcode := 0x04, flags := 0, priority := 0, byte3 := 0, cmdId := 0x99, deadline := 0, reel := 0, offset := 0, length := 0, p0 := 0, hostAddr := 0, p1 := 0 }

def csr0 : CsRecord :=
  { seq := 7, ty := 1, source := 2, flags := 0, time := 5, line := 4, mode := 3, redund := 0, powerOn := 1, data := [1, 2], merged := none, job := 0 }

theorem holds {p : Prop} (d : Decidable p) (h : @decide p d = true) : p := of_decide_eq_true h

/-- The state after the fetch of the instruction that stands at the core's pc. -/
abbrev fetched (s : State) (h : Hdr) : State := (s.fetch h.core (hdrLen h)).2

@[reducible] def decTakes (s : State) (h : Hdr) (rs : List (Fin 32)) : Decidable (Takes s h rs (fetched s h)) :=
  decidable_of_iff (s.coreRuns h.core = true ∧ s.boundary h.core = none ∧ (s.fetch h.core (hdrLen h)).1 = none ∧ condIllegal h = false ∧
      (fetched s h).gorWaits h = false ∧ (fetched s h).condHolds h = true ∧
      rs.any (fun r => ((fetched s h).begin_ h).interlocked h.core r) = false)
    ⟨fun ⟨a, b, c, d, e, f, g⟩ => ⟨a, b, Prod.ext c rfl, d, e, f, g⟩,
      fun k => ⟨k.runs, k.boundary, congrArg Prod.fst k.fetch, k.legal, k.settled, k.holds, k.ready⟩⟩

@[reducible] def decSnd {α β : Type} [DecidableEq α] (x : α × β) (c : α) : Decidable (x = (c, x.2)) :=
  decidable_of_iff (x.1 = c) ⟨fun h => Prod.ext h rfl, fun h => congrArg Prod.fst h⟩

@[reducible] def decLands (u : State) (c seg : Fin 8) (o n align : Nat) (r w : Bool) (code off : Nat) :
    Decidable (Lands u c seg o n align r w code off) :=
  decidable_of_iff (o % align = 0 ∧ ((r = true → (u.cores[c].seg[seg]).r = true) ∧ (w = true → (u.cores[c].seg[seg]).w = true) ∧
      ((u.cores[c]).status.getLsbD 0 = true ∨ (u.cores[c].seg[seg]).u = true)) ∧ (o < 2 ^ 32 ∧ o + n ≤ (u.cores[c].seg[seg]).limit.toNat) ∧
      u.arrayFirst c ((u.cores[c]).phys seg o) n = false ∧ u.placeOf ((u.cores[c]).phys seg o) n = .mem code off)
    ⟨fun ⟨a, b, d, e, f⟩ => ⟨a, b, d, e, f⟩, fun k => ⟨k.aligned, k.rights, k.limit, k.order, k.place⟩⟩

@[reducible] def decPermits (s : State) (a : Agent) (r : RegName) (i : Nat) : Decidable (Permits s a r i) :=
  decidable_of_iff (s.reaches a = true ∧ s.mayWrite a r i = true) Iff.rfl

@[reducible] def decAllSome {α : Type} (x : Option α) (p : α → Prop) [∀ a, Decidable (p a)] : Decidable (∀ a, x = some a → p a) :=
  match x with
  | some a => decidable_of_iff (p a) ⟨fun h _ e => Option.some.inj e ▸ h, fun h => h a rfl⟩
  | none => isTrue (fun _ e => nomatch e)

theorem getD_of_isSome {α : Type} {x : Option α} {d : α} (h : x.isSome = true) : x = some (x.getD d) := by
  cases x <;> simp_all

/-- The host's command of an arm. -/
def tkK (i : Instr) : HostCmd := (hostCmd i).getD ⟨⟨.session 0, desc0, ⟨[], false, false, []⟩⟩, 0, {}, fun _ _ => .none, fun _ => false⟩

/-- The function that asks for it. -/
def tkF (s : State) (i : Instr) : Fin 8 :=
  match (tkK i).c.src with
  | .sq f _ => f
  | .session k => ((s.session k).bind (·.fn)).getD 0

/-- The command with its row's OPCODE in the descriptor. -/
def opC (i : CmdIn → Instr) (c : CmdIn) : CmdIn := { c with desc := { c.desc with opcode := BitVec.ofNat 8 (tkK (i c)).op } }

/-- The accepted entry of the arm's command, made visible 4 us ago. -/
def entryFor (s : State) (i : Instr) : Accepted :=
  { cmd := { src := (tkK i).c.src, fn := tkF s i, cmdId := (tkK i).c.desc.cmdId, noIrq := false, waitUs := 0, gen := 0, acc := 90,
             bell := s.devTime - 800 }, desc := (tkK i).c.desc, data := (tkK i).c.host.data }

/-- The state with the arm's command accepted. -/
def tkS (s : State) (i : Instr) : State :=
  if (s.found (tkK i).c).isSome then s else { s with hst := { s.hst with accepted := s.hst.accepted ++ [entryFor s i] } }

/-- The accepted entry that the command takes, its reference and the state once it is taken. -/
def tkA (s : State) (i : Instr) : Accepted := (s.found (tkK i).c).getD (entryFor s i)
def tkR (s : State) (i : Instr) : CmdRef := { (tkA s i).cmd with waitUs := (s.devTime - (tkA s i).cmd.bell).toNat / 200 }
def tkT (s : State) (i : Instr) : State := { s with hst := { s.hst with accepted := s.hst.accepted.erase (tkA s i) } }

/-- The decidable part of `Taken` for the command's own `tkA`, `tkR` and `tkT`. -/
abbrev takenB (s : State) (i : Instr) : Prop :=
  s.active = true ∧ (tkK i).waits s = false ∧ (s.found (tkK i).c).isSome = true ∧ (tkK i).c.desc.opcode.toNat = (tkK i).op ∧
    s.mustWait (tkK i).op (tkA s i) = false ∧ tkF s i = (tkA s i).cmd.fn

theorem taken_of {s : State} {i : Instr} (h : takenB s i) : Taken s (tkK i) (tkA s i) (tkF s i) (tkR s i) (tkT s i) :=
  ⟨h.1, h.2.1, getD_of_isSome h.2.2.1, h.2.2.2.1, h.2.2.2.2.1, h.2.2.2.2.2, rfl, rfl⟩

@[reducible] noncomputable def decTaken (s : State) (i : Instr) : Decidable (Taken s (tkK i) (tkA s i) (tkF s i) (tkR s i) (tkT s i)) :=
  if h : takenB s i then isTrue (taken_of h) else Classical.propDecidable _

@[reducible] noncomputable def decRow (i : Instr) : Decidable (hostCmd i = some (tkK i)) :=
  if h : (hostCmd i).isSome = true then isTrue (getD_of_isSome h) else Classical.propDecidable _

/-- The decidable part of `Starts`. -/
abbrev startsB (s : State) (i : Instr) : Prop :=
  (hostCmd i).isSome = true ∧ takenB s i ∧
    ((tkK i).c.desc.deadline = 0 ∨ (s.devTime - (tkR s i).bell).toNat ≤ 200 * (tkK i).c.desc.deadline.toNat) ∧
    (match opFamily (tkK i).op with
      | some f => (tkT s i).on f (tkF s i)
      | none => true) = true ∧
    (tkK i).denied (tkT s i) (tkF s i) = .none ∧ (opModes (tkK i).op).contains (tkT s i).mode = true ∧
    descClean (tkK i).c.desc (tkK i).uses = true

theorem starts_of {s : State} {i : Instr} (h : startsB s i) : Starts s i (tkK i) (tkF s i) (tkR s i) (tkT s i) := by
  obtain ⟨row, taken, inTime, family, allowed, mode, clean⟩ := h
  exact ⟨getD_of_isSome row, ⟨_, taken_of taken⟩, inTime, fun f e => by rw [e] at family; exact family, allowed, mode, clean⟩

@[reducible] noncomputable def decStarts (s : State) (i : Instr) : Decidable (Starts s i (tkK i) (tkF s i) (tkR s i) (tkT s i)) :=
  if h : startsB s i then isTrue (starts_of h) else Classical.propDecidable _

/-- The next state of an answer. -/
def nextOf (x : Host.Outcome State Fault Refusal) (d : State) : State :=
  match x with
  | .next t => t
  | _ => d

def isNext (x : Host.Outcome State Fault Refusal) : Bool :=
  match x with
  | .next _ => true
  | _ => false

theorem nextOf_eq {x : Host.Outcome State Fault Refusal} {d : State} (h : isNext x = true) : x = .next (nextOf x d) := by
  cases x with
  | next t => rfl
  | fault f => exact absurd h Bool.false_ne_true
  | refused r => exact absurd h Bool.false_ne_true

@[reducible] noncomputable def decNext (x : Host.Outcome State Fault Refusal) (d : State) : Decidable (x = .next (nextOf x d)) :=
  if h : isNext x = true then isTrue (nextOf_eq h) else Classical.propDecidable _

@[reducible] def decMayStore (u : State) (c : Fin 8) (code off n : Nat) : Decidable (MayStore u c code off n) :=
  decidable_of_iff (code = 1 → u.mayStage (coreRouter c) 0 off = true ∧ u.mayStage (coreRouter c) 0 (off + (n - 1)) = true) Iff.rfl

@[reducible] noncomputable def decNoFlip (s : State) (code : Nat) : Decidable (∀ w, s.flipArmed code w = false) :=
  if h : s.on F.ECC_FLIP_CTL_ARM = false then isTrue (fun w => by simp [State.flipArmed, h]) else Classical.propDecidable _

@[reducible] def decHostOk (c : CmdIn) (n : Nat) : Decidable (HostOk c n) :=
  decidable_of_iff (c.host.dataErr = false ∧ (descSgl c.desc = true → c.host.listErr = false) ∧ (hostSegs c n).isSome = true) Iff.rfl

@[reducible] def decCapsule (h : BitVec 128) (k : Nat) (b : List Byte) : Decidable (Capsule h k b) := by
  unfold Capsule; infer_instance

@[reducible] def decNoCapsule (h : BitVec 128) (b : List Byte) : Decidable (∀ n, ¬ Capsule h n b) :=
  have := decCapsule h (h.extractLsb' 24 8).toNat b
  decidable_of_iff (¬ Capsule h (h.extractLsb' 24 8).toNat b) ⟨fun k _ c => k (c.2.2.1 ▸ c), fun k => k _⟩

@[reducible] def decIsSome {α : Type} (x : Option α) : Decidable (∃ a, x = some a) :=
  decidable_of_iff (x.isSome = true) Option.isSome_iff_exists

@[reducible] def decRuns (s : State) (o : CellOp) (im : RegionImage) (conf : CellConf) : Decidable (CellRuns s o im conf) :=
  decidable_of_iff ((s.fab[o.region]).active = some im ∧ imCell im o.cell = some conf ∧ (s.fab[o.region]).stopped = false ∧ conf.len.val ≠ 0)
    ⟨fun ⟨a, b, c, d⟩ => ⟨a, b, c, d⟩, fun k => ⟨k.active, k.cell, k.going, k.entries⟩⟩

/-- No word of a memory stands for a mirrored pair. -/
def noMir (m : Mem) : Bool :=
  (match m.base with
    | .mir _ => false
    | _ => true) && m.words.all (fun e => match e.2 with
      | .mir _ => false
      | _ => true)

theorem noMir_cell {m : Mem} (h : noMir m = true) (i : Nat) (d : DWord) : m.cell i ≠ .mir d := by
  obtain ⟨base, lost, words⟩ := m
  simp only [noMir, Bool.and_eq_true] at h
  obtain ⟨hb, hw⟩ := h
  simp only [Mem.cell]
  induction words with
  | nil =>
    simp only [smGet, Mem.dflt]
    split
    · simp
    · intro e; rw [e] at hb; simp at hb
  | cons a ms ih =>
    simp only [List.all_cons, Bool.and_eq_true] at hw
    obtain ⟨j, v⟩ := a
    simp only [smGet]
    split
    · intro e; have := hw.1; simp only [e] at this; exact absurd this (by decide)
    · exact ih hw.2

@[reducible] noncomputable def decNoMir (s : State) (code : Nat) : Decidable (∀ (i : Nat) (d : DWord), s.cell code i ≠ .mir d) :=
  if h : noMir (s.mems.at_ code) = true then isTrue (fun i d => noMir_cell h i d) else Classical.propDecidable _

/-- The state, the exception and the value of an answer of the memory operations. -/
abbrev resS (r : Res) (d : State) : State :=
  match r with
  | .done s => s
  | .trap s _ => s
  | _ => d
abbrev resE (r : Res) : Exc :=
  match r with
  | .trap _ e => e
  | _ => { code := 0 }

@[reducible] def decDone (r : Res) (v : State) : Decidable (r = .done v) :=
  match r with
  | .done s => decidable_of_iff (s = v) ⟨fun h => h ▸ rfl, fun h => by cases h; rfl⟩
  | .trap _ _ => isFalse (by simp)
  | .stall => isFalse (by simp)
@[reducible] def decTrap (r : Res) (v : State) (e : Exc) : Decidable (r = .trap v e) :=
  match r with
  | .trap s x => decidable_of_iff (x = e ∧ s = v) ⟨fun ⟨h, k⟩ => by rw [h, k], fun h => by cases h; exact ⟨rfl, rfl⟩⟩
  | .done _ => isFalse (by simp)
  | .stall => isFalse (by simp)

abbrev memS (r : MemRes Unit) (d : State) : State :=
  match r with
  | .ok _ s => s
  | .exc s _ => s
  | _ => d
abbrev memE (r : MemRes Unit) : Exc :=
  match r with
  | .exc _ e => e
  | _ => { code := 0 }
def memIsOk (r : MemRes Unit) : Bool :=
  match r with
  | .ok _ _ => true
  | _ => false
def memIsExc (r : MemRes Unit) : Bool :=
  match r with
  | .exc _ _ => true
  | _ => false
@[reducible] noncomputable def decOk (r : MemRes Unit) (d : State) : Decidable (r = .ok () (memS r d)) :=
  if h : memIsOk r = true then isTrue (by cases r <;> simp_all [memIsOk, memS]) else Classical.propDecidable _
@[reducible] noncomputable def decExc (r : MemRes Unit) (d : State) : Decidable (r = .exc (memS r d) (memE r)) :=
  if h : memIsExc r = true then isTrue (by cases r <;> simp_all [memIsExc, memS, memE]) else Classical.propDecidable _

/-- ROM and system routines are decoded at every index of theirs. -/
theorem decode_rom {x : Dev} {i : Nat} (h : i < 128) : x.decode i = some (romDec i) := by simp [Dev.decode, h]
theorem decode_sys {x : Dev} {i : Nat} (h : 128 ≤ i ∧ i < 192) : x.decode i = some (sysDec i) := by
  simp [Dev.decode, h.2, Nat.not_lt.mpr h.1]
@[reducible] noncomputable def decRom (x : Dev) (i : Nat) : Decidable (x.decode i = some (romDec i)) :=
  if h : i < 128 then isTrue (decode_rom h) else Classical.propDecidable _
@[reducible] noncomputable def decSys (x : Dev) (i : Nat) : Decidable (x.decode i = some (sysDec i)) :=
  if h : 128 ≤ i ∧ i < 192 then isTrue (decode_sys h) else Classical.propDecidable _

/-- No entry of the overlay CAM is active. -/
def camIdle (x : Dev) : Bool := x.camEntries.all (fun e => match e with
  | some v => !v.getLsbD 63
  | none => true)

theorem patched_idle {x : Dev} (h : camIdle x = true) (i : Nat) : x.patched i = false := by
  have o : ∀ a b, x.overlay a b = b := by
    intro a b
    unfold Dev.overlay
    split
    · rename_i v hv
      have hm := List.all_eq_true.mp h _ (List.mem_of_find?_eq_some hv)
      have hs := List.find?_some hv
      simp only [camNames, Bool.and_eq_true, Bool.not_eq_true'] at hm hs
      rw [hs.1.1.1] at hm
      exact absurd hm (by decide)
    · rfl
  simp [Dev.patched, o]

@[reducible] noncomputable def decPatched (x : Dev) (i : Nat) : Decidable (x.patched i = false) :=
  if h : camIdle x = true then isTrue (patched_idle h i) else Classical.propDecidable _

@[reducible] def decIn2 {α β : Type} [DecidableEq α] (a : α) (l : List (α × β)) (p : β → Prop) [∀ b, Decidable (p b)] :
    Decidable (∃ b, (a, b) ∈ l ∧ p b) :=
  decidable_of_iff (∃ e ∈ l, e.1 = a ∧ p e.2)
    ⟨fun ⟨e, he, h, hp⟩ => ⟨e.2, h ▸ he, hp⟩, fun ⟨b, hb, hp⟩ => ⟨(a, b), hb, rfl, hp⟩⟩

@[reducible] def decIn3 {α β γ : Type} [DecidableEq α] [DecidableEq β] (a : α) (b : β) (l : List (α × β × γ)) :
    Decidable (∃ c, (a, b, c) ∈ l) :=
  decidable_of_iff (∃ e ∈ l, e.1 = a ∧ e.2.1 = b)
    ⟨fun ⟨e, he, h, k⟩ => ⟨e.2.2, by subst h; subst k; exact he⟩, fun ⟨c, hc⟩ => ⟨(a, b, c), hc, rfl, rfl⟩⟩

@[reducible] noncomputable def decWake (c : Instr) (p : Agent → Prop) [∀ a, Decidable (p a)] : Decidable (∃ a, c = .wake a ∧ p a) :=
  match c with
  | .wake a => decidable_of_iff (p a) ⟨fun h => ⟨a, rfl, h⟩, fun ⟨_, e, h⟩ => by cases e; exact h⟩
  | _ => Classical.propDecidable _

/-- The slots for imported keys are all free, or all taken, wherever the search begins. -/
theorem keySlot_some {s : State} (h : (List.range 15).all (fun k => !s.sec.keySlots.getLsbD (1 + k)) = true) : s.freeKeySlot.isSome = true := by
  unfold State.freeKeySlot
  rw [List.find?_isSome]
  refine ⟨1 + (0 + (s.free_ 8).toNat) % 15, List.mem_map.mpr ⟨0, by simp, rfl⟩, ?_⟩
  exact List.all_eq_true.mp h _ (List.mem_range.mpr (Nat.mod_lt _ (by decide)))

theorem keySlot_none {s : State} (h : (List.range 15).all (fun k => s.sec.keySlots.getLsbD (1 + k)) = true) : s.freeKeySlot = none := by
  unfold State.freeKeySlot
  rw [List.find?_eq_none]
  intro x hx
  obtain ⟨k, -, rfl⟩ := List.mem_map.mp hx
  have := List.all_eq_true.mp h _ (List.mem_range.mpr (Nat.mod_lt (k + (s.free_ 8).toNat) (by decide : 0 < 15)))
  simp [this]

@[reducible] noncomputable def decKeySome (s : State) : Decidable (∃ n ∈ s.freeKeySlot, True) :=
  if h : (List.range 15).all (fun k => !s.sec.keySlots.getLsbD (1 + k)) = true then
    isTrue ((Option.isSome_iff_exists.mp (keySlot_some h)).imp fun _ e => ⟨e, trivial⟩)
  else Classical.propDecidable _
@[reducible] noncomputable def decKeyNone (s : State) : Decidable (s.freeKeySlot = none) :=
  if h : (List.range 15).all (fun k => s.sec.keySlots.getLsbD (1 + k)) = true then isTrue (keySlot_none h) else Classical.propDecidable _

/-- A store with a Reel in every slot. -/
def fullReels (r : Reel) : SMap (Option Reel) := (List.range 4096).map fun k => (k, some r)

theorem smGet_map {α : Type} (d : Nat → α) (v : α) (l : List Nat) (k : Nat) (h : k ∈ l) : smGet d (l.map fun k => (k, v)) k = v := by
  induction l with
  | nil => exact absurd h (List.not_mem_nil)
  | cons a l ih =>
    simp only [List.map_cons, smGet]
    split
    · rfl
    · rename_i hne
      exact ih ((List.mem_cons.mp h).resolve_left (fun e => hne e.symm))

theorem emptySlot_none {s : State} {r : Reel} (h : s.store.reels = fullReels r) : s.emptySlot = none := by
  unfold State.emptySlot
  rw [List.find?_eq_none]
  intro x hx
  obtain ⟨k, -, rfl⟩ := List.mem_map.mp hx
  rw [h, fullReels, smGet_map _ _ _ _ (List.mem_range.mpr (Nat.mod_lt _ (by decide)))]
  simp

@[reducible] noncomputable def decEmpty (s : State) : Decidable (s.emptySlot = none) :=
  match smGet (fun _ => none) s.store.reels 0 with
  | some r => if h : s.store.reels = fullReels r then isTrue (emptySlot_none h) else Classical.propDecidable _
  | none => Classical.propDecidable _

@[reducible] def decMem {α : Type} (o : Option α) (p : α → Prop) [∀ a, Decidable (p a)] : Decidable (∃ a ∈ o, p a) :=
  match o with
  | some b => decidable_of_iff (p b) ⟨fun h => ⟨b, rfl, h⟩, fun ⟨_, e, h⟩ => by cases e; exact h⟩
  | none => isFalse (fun ⟨_, e, _⟩ => by cases e)

@[reducible] def decLong {α : Type} (a b n : Nat) (x : α) : Decidable (a < b + (List.replicate n x).length) :=
  decidable_of_iff (a < b + n) (by rw [List.length_replicate])

/-- The windows of the units whose place the spec does not give: their bases and sizes. -/
def windows : List (Nat × Nat) :=
  [(Config.reserveBase, 0x100_0000), (Config.registerBase, 0x100_0000)] ++
    (List.finRange 4).flatMap (fun d => [(Config.devInstrBase d, 0x4_0000), (Config.devDataBase d, 0x4_0000), (Config.mcSramBase d, 0x4_0000)]) ++
    (List.finRange 8).map (fun c => ((Config.bootRomBase c).toNat, (Config.bootRomLimit c).toNat))

theorem windows_length : windows.length = 22 := by
  simp [windows, List.length_flatMap]

theorem windows_small : ∀ w ∈ windows, w.2 < 4294967296 := by
  intro w hw
  simp only [windows, List.mem_append, List.mem_cons, List.not_mem_nil, or_false, List.mem_flatMap, List.mem_map] at hw
  rcases hw with ((rfl | rfl) | ⟨d, -, rfl | rfl | rfl⟩) | ⟨c, -, rfl⟩
  all_goals (simp only []; omega)

/-- The candidates for an address of no unit. -/
def cand (k : Fin 23) : Nat := 1099511627776 + k.val * 8589934592

theorem cand_range (k : Fin 23) : 1099511627776 ≤ cand k ∧ cand k < 281474976710656 := by
  have := k.isLt; unfold cand; omega

/-- Some address belongs to no unit: of 23 candidates far apart, 22 windows hold at most one each. -/
theorem free_cand : ∃ k : Fin 23, ∀ w ∈ windows, inWindow (cand k) w.1 w.2 = false := by
  by_contra hn
  push Not at hn
  choose f hf using hn
  have hm : ∀ k, ∃ i : Fin 22, windows[i.val]'(by rw [windows_length]; exact i.isLt) = f k := by
    intro k
    obtain ⟨i, hi, h⟩ := List.mem_iff_getElem.mp (hf k).1
    exact ⟨⟨i, by rw [windows_length] at hi; exact hi⟩, h⟩
  choose g hg using hm
  obtain ⟨a, b, hab, he⟩ := Fintype.exists_ne_map_eq_of_card_lt g (by decide)
  have hw : f a = f b := by rw [← hg a, ← hg b]; simp only [he]
  have ha := (hf a).2
  have hb := (hf b).2
  have hs : (f a).2 < 4294967296 := windows_small _ (hf a).1
  rw [← hw] at hb
  rw [ne_eq, Bool.not_eq_false, inWindow, decide_eq_true_eq, cand] at ha hb
  exact hab (Fin.ext (by omega))

theorem cand_lt (k : Fin 23) : cand k < 2 ^ 48 := lt_of_lt_of_eq (cand_range k).2 (by norm_num)

/-- An address that belongs to no unit. -/
noncomputable def holeAddr : BitVec 48 := BitVec.ofNatLT (cand free_cand.choose) (cand_lt _)

theorem holeAddr_toNat : holeAddr.toNat = cand free_cand.choose := rfl

theorem place_hole {a : Nat} (s : State) (h : 1099511627776 ≤ a) (hc : ∀ w ∈ windows, inWindow a w.1 w.2 = false) : s.place a = .hole := by
  have hl : ¬ a < 0x20_0000_0000 := by omega
  have h1 : inWindow a 0x20_0000_0000 0x200_0000 = false := decide_eq_false (by omega)
  have h2 : inWindow a 0x20_0800_0000 0x400_0000 = false := decide_eq_false (by omega)
  have r : ∀ b n, (b, n) ∈ windows → inWindow a b n = false := fun b n h => hc _ h
  have h3 := r Config.reserveBase 0x100_0000 (List.mem_append_left _ (List.mem_append_left _ (by simp)))
  have h4 := r Config.registerBase 0x100_0000 (List.mem_append_left _ (List.mem_append_left _ (by simp)))
  have f (p : Fin 4 → Nat) (hp : ∀ d, (p d, 0x4_0000) ∈ [(Config.devInstrBase d, 0x4_0000), (Config.devDataBase d, 0x4_0000), (Config.mcSramBase d, 0x4_0000)]) :
      (List.finRange 4).find? (fun d => inWindow a (p d) 0x4_0000) = none :=
    List.find?_eq_none.mpr (fun d _ => by
      rw [r _ _ (List.mem_append_left _ (List.mem_append_right _ (List.mem_flatMap.mpr ⟨d, List.mem_finRange d, hp d⟩)))]
      exact Bool.false_ne_true)
  have f1 := f Config.devInstrBase (fun d => List.mem_cons_self)
  have f2 := f Config.devDataBase (fun d => List.mem_cons_of_mem _ List.mem_cons_self)
  have f3 := f Config.mcSramBase (fun d => List.mem_cons_of_mem _ (List.mem_cons_of_mem _ List.mem_cons_self))
  have h8 : (List.finRange 8).any (fun c => inWindow a (Config.bootRomBase c).toNat (Config.bootRomLimit c).toNat) = false :=
    List.any_eq_false.mpr (fun c _ => by
      rw [r _ _ (List.mem_append_right _ (List.mem_map.mpr ⟨c, List.mem_finRange c, rfl⟩))]
      exact Bool.false_ne_true)
  unfold State.place
  rw [if_neg hl, h1, h2, h3, h4, h8, f1, f2, f3]
  rfl

theorem hole_place (s : State) : s.place holeAddr.toNat = .hole := by
  rw [holeAddr_toNat]
  exact place_hole s (cand_range _).1 free_cand.choose_spec

theorem placeOf_of_hole {s : State} {a : Nat} (h : s.place a = .hole) (n : Nat) : s.placeOf a n = .hole := by
  unfold State.placeOf
  generalize s.place (a + (n - 1)) = q
  rw [h]

theorem placeOf_hole (s : State) (n : Nat) : s.placeOf holeAddr.toNat n = .hole := placeOf_of_hole (hole_place s) n

@[reducible] def decHole (s : State) : Decidable (s.place holeAddr.toNat = .hole) := isTrue (hole_place s)
@[reducible] def decHole8 (s : State) (n : Nat) : Decidable (s.placeOf holeAddr.toNat n = .hole) := isTrue (placeOf_hole s n)

/-! ## The states the witnesses share -/

/-- A module in Ready whose cores fetch zeros from DDR5. -/
def w0 : State :=
  { State.reset.fset F.SYS_MODE_STATE 3 with mems := { State.reset.mems with ddr := Mem.of (.ok 0) }, cores := Vector.ofFn (fun c => { s := Vector.ofFn (fun i => BitVec.ofNat 32 (i.val * 0x9E3779B1 + c.val * 77 + 5)), thandler := 0x4000, pc := 0x100, seg := Vector.ofFn (fun i => if i.val = 7 then { base := 0x1000000, limit := 0x10000, r := true, w := true, x := true, u := true } else {}) }) }
def h0 : Hdr := ⟨0, .alw, false⟩
def img0 : ProgramImage := { inspection := false, declaredCycles := 100, layoutId := 0, npgDeclared := none, custHash := none, tables := [], bankWord := 0, hasSlipHook := false }
def cmd0 : CmdRef := { src := .sq 0 1, fn := 0, cmdId := 7, noIrq := false, waitUs := 3, gen := 0, acc := 5 }
def job0 : Job := { number := 1, fn := 0, cmd := cmd0, phase := .running, reel := 0, offset := 0, length := 1000, npgCode := 0, interleaved := false, inspect := false, channels := 1, startMode := 0, startIn := 0, printProg := 1, inspProg := 0, rateMax := 64000, storeRate := 0, milestones := [], posted := true, nextSlot := 0, complete := 0, claimed := 0, missed := [], stale := [], strobed := [], groups := Vector.replicate 64 {}, fired := 0, blankRun := none, staleRun := none, image := img0, inspImage := none, abortAt := none, aborts := [], camGroup := none }
def mode (n : Nat) (s : State) : State := s.fset F.SYS_MODE_STATE n
def fz (f : Fld) (v : Nat) (s : State) (i : Nat := 0) : State := s.fset f v i
def withJob (j : Job) (s : State) : State := { s with job := some j }
def memOk (s : State) : State := { s with mems := { s.mems with staging := Mem.of (.ok 0), reserve := Mem.of (.ok 0), ddr := Mem.of (.ok 0), mc := Vector.replicate 4 (Mem.of (.ok 0)), devI := Vector.replicate 4 (Mem.of (.ok 0)), devD := Vector.replicate 4 (Mem.of (.ok 0)), camCorr := Mem.of (.ok 0) } }
def grOk (s : State) : State := { s with grains := { s.grains with base := { data := 0, poison := 0, bad := 0, ce := 0 } } }
def up (s : State) : State := { s with hst := { s.hst with linkUp := true } }
def dev (d : Fin 4) (f : Dev → Dev) (s : State) : State := s.modDev d f
abbrev mc4 : Agent := .core 4

end Sys2Proof.Tests
end

