-- ==== Sys2Proof/Tests/Slice0.lean ====
section
/-!
SUPPORT. The model's own tests: each well-formedness check refuses an ill-formed command, and single steps give the results
of the spec's worked examples or of hand calculation. The hypotheses of the statements are met in `Witness<group>.lean`.
-/

set_option Elab.async false
set_option maxRecDepth 100000

namespace Sys2Proof.Tests
open Sys2Proof.Machine Sys2Proof.Claims

/-! ## The well-formedness checks -/

def short : Hdr := ⟨0, .alw, true⟩
def shortSlt : Hdr := ⟨0, .slt, true⟩
def wide : Hdr := ⟨0, .slt, false⟩
def cmdOf (op : BitVec 8) : CmdIn := ⟨.session 0, { desc0 with opcode := op }, ⟨[], false, false, []⟩⟩
def packet (op : Fin 6) (bytes : BitVec 10) (data : List Byte) : Packet :=
  { src := 7, ssub := 0, dst := 2, dsub := 0, epoch := 0, seq := 4, op := op, bclass := 0, addr := 64, bytes := bytes, data := data }

/-- `andn` has no 16-bit form (R69). -/
theorem test_wf_onlyWide : (Instr.andn short 1 2 3).wellFormed = false ∧ (Instr.andn wide 1 2 3).wellFormed = true := by decide
/-- The 16-bit `add` has one register for destination and first source (R69). -/
theorem test_wf_short_registers : (Instr.add short 1 2 3).wellFormed = false ∧ (Instr.add short 1 1 3).wellFormed = true := by decide
/-- The 16-bit forms name four conditions (R70). -/
theorem test_wf_short_condition : (Instr.mov shortSlt 1 2).wellFormed = false ∧ (Instr.mov short 1 2).wellFormed = true := by decide
/-- The immediate of a 16-bit `addi` is 5 bits, signed (R69). -/
theorem test_wf_short_immediate :
    (Instr.addi short 1 1 16).wellFormed = false ∧ (Instr.addi short 1 1 15).wellFormed = true ∧ (Instr.addi short 1 1 (-16)).wellFormed = true ∧
    (Instr.addi short 1 1 (-17)).wellFormed = false := by decide
/-- `movi` is a 16-bit form alone (R69). -/
theorem test_wf_movi : (Instr.movi wide 1 3).wellFormed = false ∧ (Instr.movi short 1 3).wellFormed = true := by decide
/-- The 16-bit loads and stores go through seg1 with no immediate (R69). -/
theorem test_wf_short_memory :
    (Instr.ldw short 1 2 3 0).wellFormed = false ∧ (Instr.ldw short 1 1 3 1).wellFormed = false ∧ (Instr.stw short 1 1 3 0).wellFormed = true := by decide
/-- The offset of a 16-bit branch is 10 bits, signed (R69). -/
theorem test_wf_short_branch : (Instr.b short 512).wellFormed = false ∧ (Instr.b short 511).wellFormed = true := by decide
/-- `a.mulu` has no masked form (R113). -/
theorem test_wf_unmasked : (Instr.aMulu wide true 1 2 3).wellFormed = false ∧ (Instr.aMulu wide false 1 2 3).wellFormed = true := by decide
/-- A command's descriptor carries its opcode (R261). -/
theorem test_wf_opcode : (Instr.reelCreate (cmdOf 2)).wellFormed = false ∧ (Instr.reelCreate (cmdOf 1)).wellFormed = true := by decide
/-- An access carries at least one byte. -/
theorem test_wf_lengths :
    (Instr.backdoorRead .pf 0 0).wellFormed = false ∧ (Instr.backdoorWrite .pf 0 []).wellFormed = false ∧ (Instr.bar4Read 0 0).wellFormed = false ∧
    (Instr.bar4Write 0 []).wellFormed = false := by decide
/-- A telemetry frame's LEN counts its payload in blocks of 8 bytes (R179). -/
theorem test_wf_tsof : (Instr.tsof 3 0 0 1 0 [1]).wellFormed = false ∧ (Instr.tsof 3 0 0 1 0 [1, 2, 3, 4, 5, 6, 7, 8]).wellFormed = true := by decide
/-- A request's kind, its byte count and its data agree. -/
theorem test_wf_request :
    (Instr.nocRequestArrival (packet 5 8 [])).wellFormed = false ∧ (Instr.nocRequestArrival (packet 0 513 [])).wellFormed = false ∧
    (Instr.nocRequestArrival (packet 1 2 [1])).wellFormed = false ∧ (Instr.nocRequestArrival (packet 1 1 [1])).wellFormed = true := by decide

/-! ## Single steps

Core 0 with chosen registers; the expected results are the spec's examples or worked out by hand. -/

/-- Core 0 of `w0` with s1, s2 and s3 as given. -/
def regs (x y z : Word) : State := w0.modCore 0 fun k => ((k.setX 1 x).setX 2 y).setX 3 z
/-- The state after one command. -/
abbrev then_ (c : Instr) (s : State) : State := nextOf (exec c s) s
/-- A scalar register of core 0. -/
abbrev xr (s : State) (r : Fin 32) : Word := (s.cores[(0 : Fin 8)]).x r
abbrev flagsOf (s : State) : Word := (s.cores[(0 : Fin 8)]).flags

theorem test_add_wraps : xr (then_ (.add h0 3 1 2) (regs 0xFFFFFFFF 2 0)) 3 = 1 := by decide +kernel
theorem test_sub_order : xr (then_ (.sub h0 3 1 2) (regs 5 7 0)) 3 = 0xFFFFFFFE := by decide +kernel
theorem test_add_keeps_flags : flagsOf (then_ (.add h0 3 1 2) (regs 0xFFFFFFFF 1 0)) = 0 := by decide +kernel
theorem test_sar_sign : xr (then_ (.sar h0 3 1 2) (regs 0x80000000 4 0)) 3 = 0xF8000000 := by decide +kernel
theorem test_min_signed : xr (then_ (.min h0 3 1 2) (regs 0xFFFFFFFF 1 0)) 3 = 0xFFFFFFFF ∧
    xr (then_ (.minu h0 3 1 2) (regs 0xFFFFFFFF 1 0)) 3 = 1 := by decide +kernel
theorem test_mulh_signs : xr (then_ (.mulh h0 3 1 2) (regs 0xFFFFFFFF 2 0)) 3 = 0xFFFFFFFF ∧
    xr (then_ (.mulhu h0 3 1 2) (regs 0xFFFFFFFF 2 0)) 3 = 1 := by decide +kernel
/-- A quotient bit of R82: 3 over 2 with remainder 0 and the dividend's top bit 1. -/
theorem test_dstep : (let t := then_ (.dstep h0 1 2 3) (regs 1 0x80000000 2); xr t 1 = 1 ∧ xr t 2 = 1) := by decide +kernel
/-- R85's example. -/
theorem test_brev : xr (then_ (.brev h0 3 1 4) (regs 3 0 0)) 3 = 0xC := by decide +kernel
theorem test_par : xr (then_ (.par h0 3 1) (regs 7 0 9)) 3 = 1 := by decide +kernel
/-- R84 on one byte: the CRC-32C table's entry of byte 1. -/
theorem test_crcc : xr (then_ (.crcc h0 1 2) (regs 0 1 0)) 1 = 0xF26B8303 := by decide +kernel
/-- R80's worked example, in half-even. -/
theorem test_sat : (let s := w0.modCore 0 fun k => { k with a := k.a.set 0 0x004000000080000000 };
    xr (then_ (.sat h0 1 0 0) s) 1 = 0x40000000) := by decide +kernel
theorem test_sat_guard : (let s := w0.modCore 0 fun k => { k with a := k.a.set 0 0x014000000080000000 };
    xr (then_ (.sat h0 1 0 0) s) 1 = 0x7FFFFFFF) := by decide +kernel
/-- R80: the sum of two halves saturates just below 1. -/
theorem test_qadd_saturates : xr (then_ (.qadd h0 3 1 2) (regs 0x40000000 0x40000000 0)) 3 = 0x7FFFFFFF := by decide +kernel
/-- 1.0 + 2.0 = 3.0 (R86). -/
theorem test_fadd : (fAdd 0x3F800000 0x40000000).val = 0x40400000 := by decide +kernel
/-- The reciprocal of 0 is infinite with DZ (R87). -/
theorem test_frecpe_zero : (fRecip 0).val = 0x7F800000 ∧ (fRecip 0).flags = 8 := by decide +kernel
/-- A command takes the front of the queue (R1). -/
theorem test_step_front : (let s := { regs 0xFFFFFFFF 2 0 with pending := [.add h0 3 1 2, .wakeIn] };
    (nextOf (step s) s).pending = [.wakeIn] ∧ xr (nextOf (step s) s) 3 = 1) := by decide +kernel
/-- The opcode table gives no bits. -/
theorem test_no_words : decodeTableWord 32 0 = none := rfl

/-! ## Words of the cores

Each word is written out from the formats of R67 and the majors of R69, field by field. -/

/-- `add s3, s3, s5`: OP4 0001, COND2 00, RD 00011, RS 00101. -/
theorem test_word_add : decodeCore 0 0b0001000001100101 0 = .instr (.add ⟨0, .alw, true⟩ 3 3 5) := by decide
/-- `addi s4, s9, -3`: 11, MAJ 00001, COND 0000, RD 00100; RS1 01001, IMM11 11111111101. -/
theorem test_word_addi : decodeCore 0 0b1100001000000100 0b0100111111111101 = .instr (.addi ⟨0, .alw, false⟩ 4 9 (-3)) := by decide
/-- `b.zc` back by two halfwords: 11, MAJ 10100, COND 0010, OFFL 11110; OFFH all ones. -/
theorem test_word_b : decodeCore 0 0b1110100001011110 0xFFFF = .instr (.b ⟨0, .zc, false⟩ (-2)) := by decide
/-- `ldd s6, seg2[s8 + 5]`: 11, MAJ 10000, COND 0000, RD 00110; SEG 010, RB 01000, SZ 11, IMM6 000101. -/
theorem test_word_ldd : decodeCore 0 0b1110000000000110 0b0100100011000101 = .instr (.ldd ⟨0, .alw, false⟩ 6 2 8 5) := by decide
/-- `movhi s1, 0x8000`: 11, MAJ 01000, COND 0000, RD 00001; IMM16. -/
theorem test_word_movhi : decodeCore 0 0b1101000000000001 0x8000 = .instr (.movhi ⟨0, .alw, false⟩ 1 0x8000) := by decide
/-- `vsplit3` of halfwords to v3 by seg1[s2]: 11, MAJ 11001, COND 0000, 0, VD 0011; SEG 001, RB 00010, ESZ 01, GRP 00, NF 010, LD 1. -/
theorem test_word_vsplit : decodeCore 0 0b1111001000000011 0b0010001001000101 = .instr (.vsplit ⟨0, .alw, false⟩ 1 2 1 0 2 3) := by decide
/-- Bit 4 of form VM must be 0, and majors 0x1A and 0x1B are reserved (R68). -/
theorem test_word_illegal : decodeCore 0 0b1111001000010011 0b0010001001000101 = .illegal ∧ decodeCore 0 0b1111010000000000 0 = .illegal ∧
    decodeCore 0 0b1111011000000000 0 = .illegal := by decide
/-- An array instruction: 11, MAJ 11101, COND 0000, RD 00011; RA 00001, RB 00010, OPX 000100 (R107). -/
theorem test_word_array : decodeCore 0 0b1111101000000011 0b0000100010000100 = .array 68 .alw 1 2 3 := by decide

end Sys2Proof.Tests
end

