-- ==== Sys2Proof/Tests/Witness00.lean ====
section
/-!
SUPPORT. Witnesses for the statements about the queue and the whole machine: concrete states and operands that meet their hypotheses.
-/

set_option Elab.async false
set_option maxRecDepth 100000
set_option synthInstance.maxSize 2000

namespace Sys2Proof.Tests
open Sys2Proof.Machine Sys2Proof.Claims

namespace N00

abbrev run1 (c : Instr) (s : State) : State := nextOf (exec c s) s
def sOff : State := w0.fset F.SYS_MODE_STATE 0
def sLc : State := { w0 with sec := { w0.sec with lcPending := some 1 } }
def sLc2 : State := { w0 with fuses := { w0.fuses with lcOpen := 0xFF }, sec := { w0.sec with lcPending := some 3 } }

theorem witness_IdleStepTicks :
    (let s : State := sOff; s.pending = []) :=
  by decide +kernel

theorem witness_ExecKeepsQueue :
    (let c : Instr := .ppsEdge; let s : State := { w0 with pending := [.wakeIn] }; let t : State := run1 c s; exec c s = .next t) :=
  holds (by letI := @decNext; infer_instance) (by decide +kernel)

theorem witness_CountersSaturate :
    (let s : State := w0.finc F.HP_LANE_STATUS_RETX 5 70000; let f : Fld := F.HP_LANE_STATUS_RETX; let i : Nat := 5;
      f.lo + f.w ≤ 64 ∧ i < 1024 ∧ s.fv f i = 2 ^ f.w - 1 ∧ (∃ k ∈ [0, 32], (k < f.lo ∨ f.lo + f.w ≤ k))) :=
  by decide +kernel

theorem witness_LifecycleNeverGoesBack :
    (let s : State := sLc2; let t : State := nextOf (exec .fusesBlown s) s; exec .fusesBlown s = .next t ∧ t.fuses ≠ s.fuses) :=
  holds (by letI := @decNext; infer_instance) (by decide +kernel)

theorem witness_DevTimeMovedByPowerOnAlone :
    (let s : State := { w0 with devTime := 5 }; let t : State := nextOf (exec .ppsEdge s) s; exec .ppsEdge s = .next t ∧ t.devTime = s.devTime) :=
  holds (by letI := @decNext; infer_instance) (by decide +kernel)

theorem witness_ResetState : (∃ c : Fin 17, 1 ≤ c.val ∧ c.val ≠ 3) ∧ (∃ n : Fin 8, n.val = 7) ∧ (∃ n : Fin 8, n.val ≠ 7) :=
  ⟨⟨1, by decide⟩, ⟨7, by decide⟩, ⟨0, by decide⟩⟩

theorem witness_CanonicalFormKept :
    (let s : State := { w0 with pending := [.ppsEdge] }; let t : State := nextOf (step s) s;
      State.regsWf s = true ∧ Mems.wf s.mems = true ∧ step s = .next t) :=
  holds (by letI := @decNext; infer_instance) (by decide +kernel)

end N00

end Sys2Proof.Tests
end

