-- ==== Sys2Proof/Tests/Witness10.lean ====
section
/-!
SUPPORT. Witnesses for the statements about the integer instructions: concrete states and operands that meet their hypotheses.
-/

set_option Elab.async false
set_option maxRecDepth 100000
set_option synthInstance.maxSize 2000

namespace Sys2Proof.Tests
open Sys2Proof.Machine Sys2Proof.Claims

namespace N10

def s1 : State := w0.modCore 0 fun k => (((k.setX 9 3).setX 8 0x80000000).setX 10 0x7FFFFFFF).setX 11 40

theorem witness_IntegerRegisterForms :
    (let s : State := s1; let h : Hdr := h0; let t : State := fetched s h; let rd : Fin 32 := 10; let a : Fin 32 := 10; let b : Fin 32 := 11;
      Takes s h [rd, a, b] t) ∧
    (let s : State := s1; let h : Hdr := h0; let t : State := fetched s h; let rd : Fin 32 := 10; let a : Fin 32 := 4; Takes s h [rd, a] t) :=
  holds (by letI := @decTakes; infer_instance) (by decide +kernel)

theorem witness_ImmediateForms :
    (let s : State := s1; let h : Hdr := h0; let t : State := fetched s h; let rd : Fin 32 := 10; let a : Fin 32 := 4; Takes s h [rd, a] t) ∧
    (let s : State := s1; let h : Hdr := h0; let t : State := fetched s h; let rd : Fin 32 := 10; Takes s h [rd] t) :=
  holds (by letI := @decTakes; infer_instance) (by decide +kernel)

theorem witness_FlagSettingForms :
    (let s : State := s1; let h : Hdr := h0; let t : State := fetched s h; let a : Fin 32 := 10; let b : Fin 32 := 8; Takes s h [a, b] t) ∧
    (let s : State := s1; let h : Hdr := h0; let t : State := fetched s h; let a : Fin 32 := 8; Takes s h [a] t) ∧
    (let s : State := s1; let h : Hdr := h0; let t : State := fetched s h; let rd : Fin 32 := 8; let a : Fin 32 := 10; let b : Fin 32 := 10;
      Takes s h [rd, a, b] t) :=
  holds (by letI := @decTakes; infer_instance) (by decide +kernel)

theorem witness_Multiplication :
    (let s : State := s1; let h : Hdr := h0; let t : State := fetched s h; let rd : Fin 32 := 8; let a : Fin 32 := 4; let b : Fin 32 := 5;
      Takes s h [rd, a, b] t) ∧
    (let s : State := s1; let h : Hdr := h0; let t : State := fetched s h; let rd : Fin 32 := 4; let hi : Fin 32 := 5; let a : Fin 32 := 4;
      let b : Fin 32 := 5; hi.val = rd.val + 1 ∧ rd.val % 2 = 0 ∧ Takes s h [rd, hi, a, b] t) ∧
    (let s : State := s1; let h : Hdr := h0; let t : State := fetched s h; let rd : Fin 32 := 31; let a : Fin 32 := 4; let b : Fin 32 := 5;
      rd.val % 2 = 1 ∧ Takes s h [rd, rd + 1, a, b] t) :=
  holds (by letI := @decTakes; infer_instance) (by decide +kernel)

theorem witness_RestoringDivision :
    (let s : State := s1; let h : Hdr := h0; let t : State := fetched s h; let r : Fin 32 := 4; let q : Fin 32 := 5; let d : Fin 32 := 9;
      Takes s h [r, q, d] t ∧ r ≠ q) ∧
    ((let d : Word := 0x80000001; d ≠ 0) ∧
    (let d : Word := 0; d = 0)) :=
  ⟨holds (by letI := @decTakes; infer_instance) (by decide +kernel),
    by decide +kernel⟩

theorem witness_DivisionStepSameRegister :
    (let s : State := s1; let h : Hdr := h0; let t : State := fetched s h; let r : Fin 32 := 8; let d : Fin 32 := 9; Takes s h [r, d] t) :=
  holds (by letI := @decTakes; infer_instance) (by decide +kernel)

theorem witness_CrcSteps :
    (let s : State := s1; let h : Hdr := h0; let t : State := fetched s h; let c : Fin 32 := 5; let b : Fin 32 := 5; Takes s h [c, b] t) :=
  holds (by letI := @decTakes; infer_instance) (by decide +kernel)

theorem witness_ParityAndBitReversal :
    (let s : State := s1; let h : Hdr := h0; let t : State := fetched s h; let rd : Fin 32 := 5; let a : Fin 32 := 4; let w : Fin 64 := 32;
      Takes s h [rd, a] t ∧ 1 ≤ w.val ∧ w.val ≤ 32) :=
  holds (by letI := @decTakes; infer_instance) (by decide +kernel)

theorem witness_ReversalWidths :
    (let s : State := s1; let h : Hdr := h0; let t : State := fetched s h; let rd : Fin 32 := 5; let a : Fin 32 := 9; let w : Fin 64 := 0;
      Takes s h [rd, a] t ∧ (w.val = 0 ∨ 32 < w.val)) :=
  holds (by letI := @decTakes; infer_instance) (by decide +kernel)

end N10

end Sys2Proof.Tests
end

