-- ==== Sys2Proof/Tests/Witness11.lean ====
section
/-!
SUPPORT. Witnesses for the statements about the fixed-point and floating-point instructions: concrete states and operands that meet their hypotheses.
-/

set_option Elab.async false
set_option maxRecDepth 100000
set_option synthInstance.maxSize 2000

namespace Sys2Proof.Tests
open Sys2Proof.Machine Sys2Proof.Claims

namespace N11

def s1 : State := w0.modCore 0 fun k => let k := ((((k.setX 9 3).setX 8 0x80000000).setX 10 0x7FFFFFFF).setX 11 40); { k with a := #v[0x7FFFFFFFFFFFFFFFFF#72, 0x123456789ABCDEF#72, 0x800000000000000000#72, 5#72] }
def s2 : State := s1.modCore 0 fun k => let k := ((((k.setX 4 0x3F800000).setX 5 0x40490FDB).setX 6 0x7F800001).setX 7 0); { k with ctl := 0x1F00 }
def s3 : State := s1.modCore 0 fun k => { k with ctl := 3 }

theorem witness_Accumulators :
    (let s : State := s1; let h : Hdr := h0; let t : State := fetched s h; let a : Fin 32 := 10; let b : Fin 32 := 10; Takes s h [a, b] t) ∧
    (let s : State := s1; let h : Hdr := h0; let t : State := fetched s h; Takes s h [] t) ∧
    (let s : State := s1; let h : Hdr := h0; let t : State := fetched s h; let r : Fin 32 := 4; Takes s h [r] t) :=
  holds (by letI := @decTakes; infer_instance) (by decide +kernel)

theorem witness_GuardBits :
    (let k : Core := {}; let acc : Fin 4 := 2; let ps : List (Word × Word) := List.replicate 255 (0x80000000,0x7FFFFFFF);
      ps.length ≤ 255 ∧ k.a[acc] = 0) :=
  by decide +kernel

theorem witness_RoundingModes :
    (let x : Int := -20; let d : Nat := 3; let l : Word := 0x12345678; (let r := roundDrop 2 x d l;
      1 ≤ d ∧ (2 * (x - r * 2 ^ d)).natAbs = 2 ^ d) ∧ 1 ≤ d ∧ d ≤ 32) ∧
    (let d : Nat := 33; 32 < d) :=
  by decide +kernel

theorem witness_FixedPoint :
    ((let s : State := s1; let h : Hdr := h0; let t : State := fetched s h; let rd : Fin 32 := 3; let a : Fin 32 := 10; let b : Fin 32 := 10;
      Takes s h [rd, a, b] t) ∧
    (let s : State := s1; let h : Hdr := h0; let t : State := fetched s h; let rd : Fin 32 := 3; let a : Fin 32 := 4; let b : Fin 32 := 11;
      let fn : Fin 8 := 4; Takes s h [rd, a, b] t ∧ fn.val ≤ 4 ∧ 32 ≤ ((coreOf t h).x b).toNat) ∧
    (let s : State := s1; let h : Hdr := h0; let t : State := fetched s h; let rd : Fin 32 := 3; let a : Fin 32 := 4; let b : Fin 32 := 9;
      let fn : Fin 8 := 1; Takes s h [rd, a, b] t ∧ fn.val ≤ 4 ∧ ((coreOf t h).x b).toNat < 32)) ∧
    ((let s : State := s1; let h : Hdr := h0; let t : State := fetched s h; let rd : Fin 32 := 3; let fn : Fin 8 := 0;
      Takes s h [rd] t ∧ fn.val ≤ 4) ∧
    (let s : State := s1; let h : Hdr := h0; let t : State := fetched s h; let rd : Fin 32 := 3; let a : Fin 32 := 4; let b : Fin 32 := 9;
      let fn : Fin 8 := 5; 5 ≤ fn.val ∧ Takes s h [rd, a, b] t ∧ Takes s h [rd] t)) :=
  ⟨holds (by letI := @decTakes; infer_instance) (by decide +kernel),
    holds (by letI := @decTakes; infer_instance) (by decide +kernel)⟩

theorem witness_FloatingPoint :
    ((let s : State := s1; let h : Hdr := h0; let t : State := fetched s h; let rd : Fin 32 := 3; let a : Fin 32 := 4; let b : Fin 32 := 5;
      Takes s h [rd, a, b] t) ∧
    (let s : State := s2; let h : Hdr := h0; let t : State := fetched s h; let rd : Fin 32 := 3; let a : Fin 32 := 4; let b : Fin 32 := 5;
      let c : Fin 32 := 4; Takes s h [rd, a, b, c] t) ∧
    (let s : State := s2; let h : Hdr := h0; let t : State := fetched s h; let a : Fin 32 := 4; let b : Fin 32 := 5; Takes s h [a, b] t)) ∧
    (let s : State := s2; let h : Hdr := h0; let t : State := fetched s h; let rd : Fin 32 := 3; let a : Fin 32 := 5; Takes s h [rd, a] t) :=
  ⟨holds (by letI := @decTakes; infer_instance) (by decide +kernel),
    holds (by letI := @decTakes; infer_instance) (by decide +kernel)⟩

theorem witness_FloatResults :
    (let a : Word := 0xFFFFFFFF; let b : Word := 0xFF000001; let c : Word := 0x7FA00000;
      let isNan (w : Word) : Bool := decide (0x7F800000 < (w &&& 0x7FFFFFFF).toNat);
      (isNan a ∨ isNan b) ∧ isNan c ∧ isNan a ∧ a.toInt.natAbs < 2 ^ 24) ∧
    (let a : Word := 0x3F800000; let b : Word := 0x3F800000; let r := fCmp a b; r.2.1 = true) :=
  by decide +kernel

end N11

end Sys2Proof.Tests
end

