-- ==== Sys2Proof/Tests/Witness12.lean ====
section
/-!
SUPPORT. Witnesses for the statements about the core registers and traps: concrete states and operands that meet their hypotheses.
-/

set_option Elab.async false
set_option maxRecDepth 100000
set_option synthInstance.maxSize 2000

namespace Sys2Proof.Tests
open Sys2Proof.Machine Sys2Proof.Claims

namespace N12

def mc : Hdr := ⟨5, .alw, false⟩
def md (c : Fin 8) (f : Core → Core) : State := w0.modCore c f
def sHalt := md 0 fun k => { k with halted := true }
def sMc := md 0 fun k => { k with mcPend := true }
def sOdd := md 0 fun k => { k with pc := 0x101 }
def sU := md 0 fun k => { k with status := 0, seg := k.seg.set 0 k.seg[7] }
def sStep := md 0 fun k => { k with halted := true, stepping := true }
def sFp (n : Nat) := md 0 fun k => { k with fpPend := some n, ctl := 0x1F00 }
def sTrap := md 0 fun k => { k with status := 0x11 }
def sNo := md 0 fun k => { k with status := 0x03, resv := some 5 }
def sInt := md 0 fun k => { k with status := 0x03, ints := [7, 9] }
def sWfi := md 0 fun k => { k with status := 0x01, run := .wfi }
def aq : State := w0.modDev 0 fun d => { d with aiq := [{ index := 5, rd := 1, ra := 2, rb := 3, rdNum := 12, scalar := true, edge := 0, keySeg := {} }], ex := { d.ex with st := .running } }
def aqN : State := aq.modCore 0 fun k => { k with status := 1 }
def sPoison : State := { w0 with mems := { w0.mems with ddr := Mem.of (.ue 0) } }
def sErr : State := { w0 with mems := { w0.mems with devI := Vector.replicate 4 (Mem.of (.ok 0)) } }

theorem witness_InstructionIssue :
    ((let c : Instr := .fcmp ⟨5,.zs,false⟩ 1 2; let h : Hdr := ⟨5,.zs,false⟩; let s : State := w0;
      c.hdr = some h ∧ s.coreRuns h.core = true ∧ s.boundary h.core = none ∧ (s.fetch h.core (hdrLen h)).1 = none ∧ (let t := (s.fetch h.core (hdrLen h)).2; 4 ≤ h.core.val ∧ condIllegal h = false ∧ t.gorWaits h = false ∧ t.condHolds h = false)) ∧
    (let c : Instr := .fcmp h0 1 2; let h : Hdr := h0; let s : State := sHalt; c.hdr = some h ∧ s.coreRuns h.core = false)) ∧
    ((let c : Instr := .fcmp h0 1 2; let h : Hdr := h0; let s : State := sInt;
      c.hdr = some h ∧ s.coreRuns h.core = true ∧ (∃ t ∈ s.boundary h.core, True)) ∧
    (let c : Instr := .fcmp h0 1 2; let h : Hdr := h0; let s : State := sOdd;
      c.hdr = some h ∧ s.coreRuns h.core = true ∧ s.boundary h.core = none ∧ (∃ e ∈ (s.fetch h.core (hdrLen h)).1, True))) ∧
    ((let c : Instr := .fcmp ⟨0,.gor,false⟩ 1 2; let h : Hdr := ⟨0,.gor,false⟩; let s : State := aq;
      c.hdr = some h ∧ s.coreRuns h.core = true ∧ s.boundary h.core = none ∧ (s.fetch h.core (hdrLen h)).1 = none ∧ (let t := (s.fetch h.core (hdrLen h)).2; condIllegal h = false ∧ t.gorWaits h = true)) ∧
    (let c : Instr := .fcmp ⟨5,.gor,false⟩ 1 2; let h : Hdr := ⟨5,.gor,false⟩; let s : State := w0;
      c.hdr = some h ∧ s.coreRuns h.core = true ∧ s.boundary h.core = none ∧ (s.fetch h.core (hdrLen h)).1 = none ∧ (4 ≤ h.core.val ∧ (h.cond = .gor ∨ h.cond = .gnor)))) :=
  ⟨by decide +kernel,
    holds (by letI := @decMem; infer_instance) (by decide +kernel),
    by decide +kernel⟩

theorem witness_InstructionFrame :
    (let t : State := sFp 3; let h : Hdr := ⟨0,.alw,true⟩; let f : Core → Core := fun k => k.setX 3 7; let k : Core := t.cores[h.core];
      (∃ c : Fin 8, c ≠ h.core) ∧ (f (coreOf t h)).stepping = k.stepping) :=
  by decide +kernel

theorem witness_TrapEntry :
    ((let s : State := md 6 fun k => { k with status := 1 }; let c : Fin 8 := 6;
      (s.cores[c]).fpPend = none ∧ (s.cores[c]).status.getLsbD 4 = false ∧ (∃ c' : Fin 8, c' ≠ c) ∧ s.grains.gangDeferred = none ∧ 4 ≤ c.val) ∧
    (let s : State := aqN; let c : Fin 8 := 0; (s.cores[c]).fpPend = none ∧ (s.cores[c]).status.getLsbD 4 = false ∧ (∃ d : Fin 4, d.val = c.val)) ∧
    (let s : State := sTrap; let c : Fin 8 := 0; (s.cores[c]).fpPend = none ∧ (s.cores[c]).status.getLsbD 4 = true)) ∧
    ((let s : State := aq; let h : Hdr := h0; let t : State := fetched s h; Takes s h [] t ∧ (coreOf t h).status.getLsbD 0 = true) ∧
    (let s : State := sU; let h : Hdr := h0; let t : State := fetched s h; Takes s h [] t ∧ (coreOf t h).status.getLsbD 0 = false)) :=
  ⟨by decide +kernel,
    holds (by letI := @decTakes; infer_instance) (by decide +kernel)⟩

theorem witness_SystemInstructions :
    (let s : State := md 0 fun k => {k with status := 0x11, ints := [4]}; let h : Hdr := h0; let t : State := fetched s h;
      Takes s h [] t ∧ (∃ hd : h.core.val < 4, (t.begin_ h).ownSramError ⟨h.core.val, hd⟩ = false) ∧ (∀ p ∈ t.heldPush, p.by_ ≠ .core h.core) ∧ (coreOf t h).fpPend = none ∧ (coreOf t h).status.getLsbD 0 = true) ∧
    (let s : State := { w0 with heldPush := [{ p := 1, band := { table := 0, first := 0, lines := 4, factor := 1, linear := false }, by_ := .core 0 }] }; let h : Hdr := h0; let t : State := fetched s h; Takes s h [] t ∧ (∃ p ∈ t.heldPush, p.by_ = .core h.core)) ∧
    ((let s : State := sFp 3; let h : Hdr := h0; let t : State := fetched s h; Takes s h [] t ∧ (coreOf t h).fpPend ≠ none) ∧
    (let s : State := w0; let h : Hdr := mc; let t : State := fetched s h; Takes s h [] t ∧ 4 ≤ h.core.val)) :=
  ⟨holds (by letI := @decTakes; infer_instance) (by decide +kernel),
    holds (by letI := @decTakes; letI := @decMem; infer_instance) (by decide +kernel),
    holds (by letI := @decTakes; infer_instance) (by decide +kernel)⟩

theorem witness_CoreRegisters :
    ((let s : State := aq; let h : Hdr := h0; let t : State := fetched s h; let r : Fin 32 := 3; let n : Fin 64 := 6;
      Takes s h [r] t ∧ (let k := coreOf t h; let sReg : Prop := (6 ≤ n.val ∧ n.val ≤ 12) ∨ n.val = 16;
      sReg ∧ n.val ≤ 16 ∧ (sReg → k.status.getLsbD 0 = true) ∧ (n.val = 2 → k.fpPend = none) ∧ n.val = 6)) ∧
    (let s : State := sFp 3; let h : Hdr := h0; let t : State := fetched s h; let r : Fin 32 := 3; let n : Fin 64 := 2;
      Takes s h [r] t ∧ (let k := coreOf t h; n.val = 2 ∧ k.fpPend ≠ none)) ∧
    (let s : State := sFp 3; let h : Hdr := h0; let t : State := fetched s h; let r : Fin 32 := 3; let n : Fin 64 := 1;
      Takes s h [r] t ∧ (let k := coreOf t h; let sReg : Prop := (6 ≤ n.val ∧ n.val ≤ 12) ∨ n.val = 16;
      n.val ≤ 16 ∧ (sReg → k.status.getLsbD 0 = true) ∧ (n.val = 2 → k.fpPend = none) ∧ n.val ≠ 6))) ∧
    ((let s : State := sNo; let h : Hdr := h0; let t : State := fetched s h; let r : Fin 32 := 3; let n : Fin 64 := 17;
      Takes s h [r] t ∧ 16 < n.val) ∧
    (let s : State := sU; let h : Hdr := h0; let t : State := fetched s h; let r : Fin 32 := 3; let n : Fin 64 := 12;
      Takes s h [r] t ∧ (let k := coreOf t h; let sReg : Prop := (6 ≤ n.val ∧ n.val ≤ 12) ∨ n.val = 16; sReg ∧ k.status.getLsbD 0 = false)) ∧
    (let s : State := sU; let h : Hdr := h0; let t : State := fetched s h; let p : Fin 32 := 4; let hi : Fin 32 := 5; let l : Fin 32 := 6;
      hi.val = p.val + 1 ∧ p.val % 2 = 0 ∧ Takes s h [p, hi, l] t ∧ (let k := coreOf t h; k.status.getLsbD 0 = false))) ∧
    ((let s : State := w0; let h : Hdr := h0; let t : State := fetched s h; let p : Fin 32 := 4; let hi : Fin 32 := 5; let l : Fin 32 := 5;
      hi.val = p.val + 1 ∧ p.val % 2 = 0 ∧ Takes s h [p, hi, l] t ∧ (let k := coreOf t h; k.status.getLsbD 0 = true)) ∧
    (let s : State := sU; let h : Hdr := h0; let t : State := fetched s h; let p : Fin 32 := 5; let l : Fin 32 := 6;
      p.val % 2 = 1 ∧ Takes s h [p, p + 1, l] t)) :=
  ⟨holds (by letI := @decTakes; infer_instance) (by decide +kernel),
    holds (by letI := @decTakes; infer_instance) (by decide +kernel),
    holds (by letI := @decTakes; infer_instance) (by decide +kernel)⟩

theorem witness_CoreRegisterContents :
    ((let n : Nat := 3; n = 3 ∧ (∃ m ≤ 16, m ≠ n ∧ (m = 15 → n ≠ 14))) ∧
    (let n : Nat := 0; n = 0) ∧
    (let n : Nat := 1; n = 1)) ∧
    ((let n : Nat := 10; n = 10) ∧
    (let n : Nat := 11; n = 11) ∧
    (let n : Nat := 12; n = 12)) ∧
    ((let n : Nat := 13; n = 13) ∧
    (let n : Nat := 14; (n = 14 ∨ n = 15)) ∧
    (let n : Nat := 16; n = 16)) ∧
    ((let n : Nat := 2; n = 2) ∧
    (let n : Nat := 4; n = 4) ∧
    (let n : Nat := 5; n = 5)) ∧
    ((let n : Nat := 6; n = 6) ∧
    (let n : Nat := 7; n = 7) ∧
    (let n : Nat := 8; n = 8)) ∧
    (let n : Nat := 9; n = 9) :=
  ⟨by decide +kernel,
    by decide +kernel,
    by decide +kernel,
    by decide +kernel,
    by decide +kernel,
    by decide +kernel⟩

theorem witness_InterruptsAndChecks :
    (let s : State := md 0 fun k => {k with run := .sync, mcPend := true}; let c : Fin 8 := 0; let n : BitVec 8 := 0xFE;
      let k := (s.cores[c] : Core); k.run ≠ .wfi ∧ (s.coreRuns c = false ∨ (k.mcPend = false ∧ k.fpPend = none ∧ k.status.getLsbD 1 = false)) ∧ n ∉ k.ints ∧ (∀ m, k.fpPend = some m → m < 15) ∧ k.mcPend = true ∧ k.run = .sync ∧ k.halted = false) ∧
    (let s : State := sFp 15; let c : Fin 8 := 0; let k := (s.cores[c] : Core);
      s.coreRuns c = true ∧ k.mcPend = false ∧ (∃ m ∈ k.fpPend, 15 ≤ m ∧ s.coreRuns c = true ∧ k.mcPend = false)) ∧
    ((let s : State := sWfi; let c : Fin 8 := 0; let n : BitVec 8 := 0xFE; let k := (s.cores[c] : Core);
      k.run = .wfi ∧ k.mcPend = false ∧ k.fpPend = none ∧ k.status.getLsbD 1 = false ∧ n ∉ k.ints) ∧
    (let s : State := md 0 fun k => {k with status := 3}; let c : Fin 8 := 0; let k := (s.cores[c] : Core);
      s.coreRuns c = true ∧ k.mcPend = false ∧ k.fpPend = none ∧ k.status.getLsbD 1 = true ∧ k.ints = []) ∧
    (let s : State := sMc; let c : Fin 8 := 0; let k := (s.cores[c] : Core); k.mcPend = true ∧ s.coreRuns c = true)) :=
  ⟨by decide +kernel,
    holds (by letI := @decMem; infer_instance) (by decide +kernel),
    by decide +kernel⟩

/-- Core 0 in the handler of a load error in its own instruction SRAM. -/
def ownErr : State := w0.modCore 0 fun k =>
  { k with status := 0x11, cause := 0x107, faddr := 0, seg := k.seg.set 1 { k.seg[(1 : Fin 8)] with base := Config.devInstrPlace 0 } }

theorem own_of {s : State} {d : Fin 4} (a : (s.cores[devCore d]).sLevel = true) (b : (s.cores[devCore d]).trap = true)
    (c : (s.cores[devCore d]).cause = 0x107 ∧ (s.cores[devCore d]).faddr = 0)
    (e : ((s.cores[devCore d]).seg[(1 : Fin 8)]).base = Config.devInstrPlace d) : s.ownSramError d = true := by
  have p : (s.cores[devCore d]).phys 1 0 = Config.devInstrBase d := by
    simp only [Core.phys, e, Nat.add_zero, Config.devInstrBase]
  have w : inWindow ((s.cores[devCore d]).phys 1 0) (Config.devInstrBase d) 0x40000 = true := by
    rw [p]; simp [inWindow]
  simp only [State.ownSramError, a, b, c, Bool.true_and]
  exact Bool.and_eq_true_iff.mpr ⟨by decide, Bool.or_eq_true_iff.mpr (.inl w)⟩

/-- The sys of such a handler asks for a warm restart. -/
theorem witness_RestartRequest :
    (let s : State := ownErr; let h : Hdr := h0; let t : State := fetched s h; Takes s h [] t ∧
      (t.begin_ h).ownSramError ⟨h.core.val, by decide⟩ = true) :=
  ⟨holds (decTakes _ _ _) (by decide +kernel), own_of (by decide +kernel) (by decide +kernel) (by decide +kernel) (by rfl)⟩

end N12

end Sys2Proof.Tests
end

