-- ==== Sys2Proof/Tests/Witness12b.lean ====
section
/-!
SUPPORT. Witnesses for the statements about the interlock of results: concrete states and operands that meet their hypotheses.
-/

set_option Elab.async false
set_option maxRecDepth 100000
set_option synthInstance.maxSize 2000

namespace Sys2Proof.Tests
open Sys2Proof.Machine Sys2Proof.Claims

namespace N12b

def mc : Hdr := ⟨5, .alw, false⟩
def md (c : Fin 8) (f : Core → Core) : State := w0.modCore c f
def sHalt := md 0 fun k => { k with halted := true }
def sMc := md 0 fun k => { k with mcPend := true }
def sOdd := md 0 fun k => { k with pc := 0x101 }
def sU := md 0 fun k => { k with status := 0, seg := k.seg.set 0 k.seg[7] }
def sStep := md 0 fun k => { k with halted := true, stepping := true }
def sFp (n : Nat) := md 0 fun k => { k with fpPend := some n, ctl := 0x1F00 }
def sTrap := md 0 fun k => { k with status := 0x11 }
def sNo := md 0 fun k => { k with status := 0x03, resv := some 5 }
def sInt := md 0 fun k => { k with status := 0x03, ints := [7, 9] }
def sWfi := md 0 fun k => { k with status := 0x01, run := .wfi }
def aq : State := w0.modDev 0 fun d => { d with aiq := [{ index := 5, rd := 1, ra := 2, rb := 3, rdNum := 12, scalar := true, edge := 0, keySeg := {} }], ex := { d.ex with st := .running } }
def aqN : State := aq.modCore 0 fun k => { k with status := 1 }
def sPoison : State := { w0 with mems := { w0.mems with ddr := Mem.of (.ue 0) } }
def sErr : State := { w0 with mems := { w0.mems with devI := Vector.replicate 4 (Mem.of (.ok 0)) } }

theorem witness_ResultInterlock :
    (let s : State := aq; let h : Hdr := h0; let t : State := fetched s h; let rd : Fin 32 := 12; let a : Fin 32 := 4; let b : Fin 32 := 5;
      let r : Fin 32 := 12; s.coreRuns h.core = true ∧ s.boundary h.core = none ∧ s.fetch h.core (hdrLen h) = (none, t) ∧ condIllegal h = false ∧ t.gorWaits h = false ∧ t.condHolds h = true ∧ h.core.val < 4 ∧ (r = rd ∨ r = a ∨ r = b) ∧ (∃ d : Fin 4, d.val = h.core.val ∧ ∃ e ∈ (s.devs[d]).aiq, e.scalar = true ∧ e.rdNum = r) ∧ t.devs = s.devs ∧ r ≠ b) :=
  holds (by letI := @decSnd; letI := @decMem; infer_instance) (by decide +kernel)

end N12b

end Sys2Proof.Tests
end

