-- ==== Sys2Proof/Tests/Witness13.lean ====
section
/-!
SUPPORT. Witnesses for the statements about the memory, branch and vector instructions: concrete states and operands that meet their hypotheses.
-/

set_option Elab.async false
set_option maxRecDepth 100000
set_option synthInstance.maxSize 2000

namespace Sys2Proof.Tests
open Sys2Proof.Machine Sys2Proof.Claims

namespace N13

def sg (b : BitVec 48) (l : Word) (r w x u : Bool) : Seg := { base := b, limit := l, r := r, w := w, x := x, u := u }
/-- seg1: DDR with words; seg2: Staging; seg3: no rights; seg4: hole; seg5: UE words -/
def m0 : State := { w0 with mems := { w0.mems with ddr := { base := .ok 0, lost := 0, words := [(0x400000, .ok 0x01020305078000FF), (0x400001, .ok 0x80FF070500010203), (0x400010, .ue 5)] }, staging := Mem.of (.ok 0) }, cores := Vector.ofFn (fun (c : Fin 8) => let k : Core := w0.cores[c]; { k with seg := ((((k.seg.set 1 (sg 0x2000000 0x1000 true true false false)).set 2 (sg 0x2000000000 0x1000 true true false true)).set 3 (sg 0x2000000 0x1000 false false false true)).set 4 (sg 0x1FFFFFFFFE 0x1000 true true false true)).set 5 (sg 0x2000000 0x1000 true true false true), v := Vector.ofFn (fun i => BitVec.ofNat 128 (i.val * 0x123456789ABCDEF0FEDCBA987654321 + 0x80007FFF)) }) }
def x (s : State) (r : Fin 32) (v : Word) : State := s.modCore 0 fun k => k.setX r v
def mU : State := m0.modCore 0 fun k => { k with status := 0, seg := k.seg.set 0 (sg 0x1000000 0x1000 false false true true) }
def grd : State := { m0 with devs := m0.devs.set 0 { aiq := [{ index := 5, rd := 1, ra := 2, rb := 3, rdNum := 12, scalar := true, edge := 0, keySeg := {} }] } }
def rv (g : Nat) : State := m0.modCore 0 fun k => { k with resv := some g, status := 0x11 }
abbrev U (s : State) (h : Hdr) : State := (fetched s h).begin_ h
abbrev rr (s : State) (h : Hdr) (off n : Nat) : State := ((U s h).readRange (coreRouter h.core) 3 off n).2
def vst (n : Word) (s : State) : State := s.modCore 0 fun k => { k with vstart := n }
def vrun (s : State) (h : Hdr) (seg : Fin 8) (rb : Fin 32) (esz grp : Fin 4) (f : Nat) (vd : Fin 16) (ld : Bool) : State :=
  let n := 2 ^ esz.val; let g := 2 ^ grp.val; let k := coreOf (fetched s h) h
  resS ((U s h).vmRun h.core seg (k.x rb).toNat n ld vd f g ((List.range (f * g * 16 / n - k.vstart.toNat)).map (k.vstart.toNat + ·))) s

theorem witness_Loads :
    ((let s : State := x m0 4 0; let h : Hdr := h0; let t : State := fetched s h; let v : State := rr s h 0x2000002 2; let rd : Fin 32 := 4;
      let seg : Fin 8 := 1; let rb : Fin 32 := 4; let imm : BitVec 6 := 1; let n : Nat := 2; let code : Nat := 3; let off : Nat := 0x2000002;
      let b : List Byte := [0x80,7]; let u := t.begin_ h; let o := ((coreOf t h).x rb).toNat + n * imm.toNat;
      Takes s h [rd, rb] t ∧ Lands u h.core seg o n n true false code off ∧ u.readRange (coreRouter h.core) code off n = (false, v) ∧ u.memBytes code off n = b ∧ (let x := b.getD 0 0; let y := b.getD 1 0; n = 2 ∧ b = [x, y])) ∧
    (let s : State := x m0 4 0; let h : Hdr := h0; let t : State := fetched s h; let v : State := rr s h 0x200000C 4; let rd : Fin 32 := 4;
      let seg : Fin 8 := 1; let rb : Fin 32 := 4; let imm : BitVec 6 := 3; let n : Nat := 4; let code : Nat := 3; let off : Nat := 0x200000C;
      let b : List Byte := [5,7,0xFF,0x80]; let u := t.begin_ h; let o := ((coreOf t h).x rb).toNat + n * imm.toNat;
      Takes s h [rd, rb] t ∧ Lands u h.core seg o n n true false code off ∧ u.readRange (coreRouter h.core) code off n = (false, v) ∧ u.memBytes code off n = b ∧ (let w := b.getD 0 0; let x := b.getD 1 0; let y := b.getD 2 0; let z := b.getD 3 0; n = 4 ∧ b = [w, x, y, z])) ∧
    (let s : State := x m0 4 2; let h : Hdr := h0; let t : State := fetched s h; let v : State := rr s h 0x2000002 1; let rd : Fin 32 := 3;
      let seg : Fin 8 := 1; let rb : Fin 32 := 4; let imm : BitVec 6 := 0; let n : Nat := 1; let code : Nat := 3; let off : Nat := 0x2000002;
      let b : List Byte := [0x80]; let u := t.begin_ h; let o := ((coreOf t h).x rb).toNat + n * imm.toNat;
      Takes s h [rd, rb] t ∧ Lands u h.core seg o n n true false code off ∧ u.readRange (coreRouter h.core) code off n = (false, v) ∧ u.memBytes code off n = b ∧ (let x := b.getD 0 0; n = 1 ∧ b = [x]))) ∧
    (let s : State := x m0 4 0; let h : Hdr := h0; let t : State := fetched s h; let v : State := rr s h 0x2000008 8; let rd : Fin 32 := 4;
      let hi : Fin 32 := 5; let seg : Fin 8 := 1; let rb : Fin 32 := 4; let imm : BitVec 6 := 1; let code : Nat := 3; let off : Nat := 0x2000008;
      let u := t.begin_ h; hi.val = rd.val + 1 ∧ rd.val % 2 = 0 ∧ Takes s h [rd, hi, rb] t ∧ Lands u h.core seg (((coreOf t h).x rb).toNat + 8 * imm.toNat) 8 8 true false code off ∧ u.readRange (coreRouter h.core) code off 8 = (false, v)) :=
  ⟨holds (by letI := @decTakes; letI := @decLands; letI := @decSnd; infer_instance) (by decide +kernel),
    holds (by letI := @decTakes; letI := @decLands; letI := @decSnd; infer_instance) (by decide +kernel)⟩

theorem witness_Stores :
    ((let s : State := x m0 4 0; let h : Hdr := h0; let t : State := fetched s h; let rs : Fin 32 := 5; let seg : Fin 8 := 1; let rb : Fin 32 := 4;
      let imm : BitVec 6 := 4; let n : Nat := 4; let code : Nat := 3; let off : Nat := 0x2000010; let u := t.begin_ h; let k := coreOf t h;
      let o := (k.x rb).toNat + n * imm.toNat; Takes s h [rs, rb] t ∧ Lands u h.core seg o n n false true code off ∧ MayStore u h.core code off n ∧ n = 4) ∧
    (let s : State := x m0 4 1; let h : Hdr := h0; let t : State := fetched s h; let rs : Fin 32 := 5; let seg : Fin 8 := 1; let rb : Fin 32 := 4;
      let imm : BitVec 6 := 0; let n : Nat := 1; let code : Nat := 3; let off : Nat := 0x2000001; let u := t.begin_ h; let k := coreOf t h;
      let o := (k.x rb).toNat + n * imm.toNat; Takes s h [rs, rb] t ∧ Lands u h.core seg o n n false true code off ∧ MayStore u h.core code off n ∧ n = 1) ∧
    (let s : State := x m0 4 2; let h : Hdr := h0; let t : State := fetched s h; let rs : Fin 32 := 4; let seg : Fin 8 := 1; let rb : Fin 32 := 4;
      let imm : BitVec 6 := 1; let n : Nat := 2; let code : Nat := 3; let off : Nat := 0x2000004; let u := t.begin_ h; let k := coreOf t h;
      let o := (k.x rb).toNat + n * imm.toNat; Takes s h [rs, rb] t ∧ Lands u h.core seg o n n false true code off ∧ MayStore u h.core code off n ∧ n = 2)) ∧
    (let s : State := x m0 4 0; let h : Hdr := h0; let t : State := fetched s h; let rs : Fin 32 := 6; let hi : Fin 32 := 7; let seg : Fin 8 := 1;
      let rb : Fin 32 := 4; let imm : BitVec 6 := 1; let code : Nat := 3; let off : Nat := 0x2000008; let u := t.begin_ h; let k := coreOf t h;
      let o := (k.x rb).toNat + 8 * imm.toNat; hi.val = rs.val + 1 ∧ rs.val % 2 = 0 ∧ Takes s h [rs, hi, rb] t ∧ Lands u h.core seg o 8 8 false true code off ∧ MayStore u h.core code off 8) :=
  ⟨holds (by letI := @decTakes; letI := @decLands; letI := @decMayStore; infer_instance) (by decide +kernel),
    holds (by letI := @decTakes; letI := @decLands; letI := @decMayStore; infer_instance) (by decide +kernel)⟩

theorem witness_MemoryWrites :
    (let s : State := m0; let code : Nat := 1; let off : Nat := 0x1FFFFFE; let data : List Byte := [1,2];
      1 ≤ code ∧ code ≤ 16 ∧ (∀ w, s.flipArmed code w = false) ∧ (∃ k < data.length, True) ∧ (let c := 16; let a := off + data.length;
      1 ≤ c ∧ c ≤ 16 ∧ (c ≠ code ∨ a < off ∨ off + data.length ≤ a))) :=
  holds (by letI := @decNoFlip; infer_instance) (by decide +kernel)

theorem witness_AccessExceptions :
    ((let s : State := x m0 4 0; let h : Hdr := h0; let t : State := fetched s h; let rd : Fin 32 := 3; let seg : Fin 8 := 3; let rb : Fin 32 := 4;
      let imm : BitVec 6 := 0; Takes s h [rd, rb] t ∧ (let u := t.begin_ h; let k := coreOf t h; let o := (k.x rb).toNat + 4 * imm.toNat;
      let g : Seg := k.seg[seg]; let usable := (k.status.getLsbD 0 = true ∨ g.u = true);
      o % 4 = 0 ∧ (g.r = false ∨ ¬ usable) ∧ (g.w = false ∨ ¬ usable) ∧ usable ∧ o + 4 ≤ g.limit.toNat ∧ o < 2 ^ 32 ∧ u.arrayFirst h.core (k.phys seg o) 4 = false ∧ rd.val % 2 = 1 ∧ Takes s h [rd, rd + 1, rb] t)) ∧
    (let s : State := x m0 4 0; let h : Hdr := h0; let t : State := fetched s h; let rd : Fin 32 := 4; let seg : Fin 8 := 4; let rb : Fin 32 := 4;
      let imm : BitVec 6 := 0; Takes s h [rd, rb] t ∧ (let u := t.begin_ h; let k := coreOf t h; let o := (k.x rb).toNat + 4 * imm.toNat;
      let g : Seg := k.seg[seg]; let usable := (k.status.getLsbD 0 = true ∨ g.u = true);
      o % 4 = 0 ∧ usable ∧ o + 4 ≤ g.limit.toNat ∧ o < 2 ^ 32 ∧ u.arrayFirst h.core (k.phys seg o) 4 = false ∧ u.placeOf (k.phys seg o) 4 = .hole ∧ g.r = true ∧ g.w = true)) ∧
    (let s : State := x m0 4 0xFFC; let h : Hdr := h0; let t : State := fetched s h; let rd : Fin 32 := 3; let seg : Fin 8 := 1;
      let rb : Fin 32 := 4; let imm : BitVec 6 := 1; Takes s h [rd, rb] t ∧ (let k := coreOf t h; let o := (k.x rb).toNat + 4 * imm.toNat;
      let g : Seg := k.seg[seg]; let usable := (k.status.getLsbD 0 = true ∨ g.u = true);
      o % 4 = 0 ∧ usable ∧ (2 ^ 32 ≤ o ∨ g.limit.toNat < o + 4) ∧ g.r = true ∧ g.w = true))) ∧
    (let s : State := x m0 4 0x80; let h : Hdr := h0; let t : State := fetched s h; let rd : Fin 32 := 4; let seg : Fin 8 := 1; let rb : Fin 32 := 4;
      let imm : BitVec 6 := 0; let code : Nat := 3; let off : Nat := 0x2000080; let v : State := rr s h 0x2000080 4;
      Takes s h [rd, rb] t ∧ (let u := t.begin_ h; let k := coreOf t h; let o := (k.x rb).toNat + 4 * imm.toNat;
      Lands u h.core seg o 4 4 true false code off ∧ u.readRange (coreRouter h.core) code off 4 = (true, v))) ∧
    (let s : State := x m0 4 2; let h : Hdr := h0; let t : State := fetched s h; let rd : Fin 32 := 3; let rb : Fin 32 := 4; let imm : BitVec 6 := 0;
      Takes s h [rd, rb] t ∧ (let k := coreOf t h; let o := (k.x rb).toNat + 4 * imm.toNat; o % 4 ≠ 0)) :=
  ⟨holds (by letI := @decTakes; infer_instance) (by decide +kernel),
    holds (by letI := @decTakes; letI := @decLands; letI := @decSnd; infer_instance) (by decide +kernel),
    holds (by letI := @decTakes; infer_instance) (by decide +kernel)⟩

theorem witness_Atomics :
    ((let s : State := x m0 4 4; let h : Hdr := h0; let t : State := fetched s h; let v : State := rr s h 0x2000004 4; let rd : Fin 32 := 3;
      let seg : Fin 8 := 1; let ra : Fin 32 := 4; let code : Nat := 3; let off : Nat := 0x2000004; Takes s h [rd, ra] t ∧ (let u := t.begin_ h;
      let k := coreOf t h; let o := (k.x ra).toNat; Lands u h.core seg o 4 4 true true code off ∧ (code = 3 ∨ (4 ≤ code ∧ code ≤ 15)) ∧ u.readRange (coreRouter h.core) code off 4 = (false, v))) ∧
    (let s : State := x m0 4 8; let h : Hdr := h0; let t : State := fetched s h; let v : State := rr s h 0x2000008 8; let rd : Fin 32 := 4;
      let hi : Fin 32 := 5; let seg : Fin 8 := 1; let ra : Fin 32 := 4; let code : Nat := 3; let off : Nat := 0x2000008;
      hi.val = rd.val + 1 ∧ rd.val % 2 = 0 ∧ Takes s h [rd, hi, ra] t ∧ (let u := t.begin_ h; let k := coreOf t h; let o := (k.x ra).toNat;
      Lands u h.core seg o 8 8 true true code off ∧ (code = 3 ∨ (4 ≤ code ∧ code ≤ 15)) ∧ u.readRange (coreRouter h.core) code off 8 = (false, v)))) ∧
    ((let s : State := x (rv 0x400000) 4 8; let h : Hdr := h0; let t : State := fetched s h; let rd : Fin 32 := 3; let rs : Fin 32 := 6;
      let hi : Fin 32 := 7; let seg : Fin 8 := 1; let ra : Fin 32 := 4; let code : Nat := 3; let off : Nat := 0x2000008;
      let u := (t.begin_ h).modCore h.core fun x => { x with resv := none }; let k := coreOf t h; let o := (k.x ra).toNat; let a := k.phys seg o;
      (code = 3 ∨ (4 ≤ code ∧ code ≤ 15)) ∧ Takes s h [rd, rs, ra] t ∧ Lands u h.core seg o 4 4 true true code off ∧ k.resv ≠ some (a / 8) ∧ hi.val = rs.val + 1 ∧ rs.val % 2 = 0 ∧ Takes s h [rd, rs, hi, ra] t ∧ Lands u h.core seg o 8 8 true true code off) ∧
    (let s : State := x (rv 0x400001) 4 8; let h : Hdr := h0; let t : State := fetched s h; let rd : Fin 32 := 4; let rs : Fin 32 := 6;
      let hi : Fin 32 := 7; let seg : Fin 8 := 1; let ra : Fin 32 := 4; let code : Nat := 3; let off : Nat := 0x2000008;
      let u := (t.begin_ h).modCore h.core fun x => { x with resv := none }; let k := coreOf t h; let o := (k.x ra).toNat; let a := k.phys seg o;
      (code = 3 ∨ (4 ≤ code ∧ code ≤ 15)) ∧ Takes s h [rd, rs, ra] t ∧ Lands u h.core seg o 4 4 true true code off ∧ k.resv = some (a / 8) ∧ hi.val = rs.val + 1 ∧ rs.val % 2 = 0 ∧ Takes s h [rd, rs, hi, ra] t ∧ Lands u h.core seg o 8 8 true true code off) ∧
    (let s : State := x m0 4 8; let h : Hdr := h0; let t : State := fetched s h; let rd : Fin 32 := 3; let rs : Fin 32 := 6; let seg : Fin 8 := 2;
      let ra : Fin 32 := 4; let u := t.begin_ h; let o := ((coreOf t h).x ra).toNat;
      (∃ code ∈ [1, 2], ∃ off ∈ [8, 0x2000008], Lands u h.core seg o 4 4 true true code off ∧ (code = 1 ∨ code = 2) ∧ Takes s h [rd, ra] t) ∧ (∃ code ∈ [1, 2], ∃ off ∈ [8, 0x2000008], Lands u h.core seg o 4 4 true true code off ∧ (code = 1 ∨ code = 2) ∧ Takes s h [rd, rs, ra] t))) :=
  ⟨holds (by letI := @decTakes; letI := @decLands; letI := @decSnd; infer_instance) (by decide +kernel),
    holds (by letI := @decTakes; letI := @decLands; infer_instance) (by decide +kernel)⟩

theorem witness_ReservationLost :
    (let s : State := rv 5; let by_ : Option (Fin 8) := none; let a : Nat := 44; let n : Nat := 1; let c : Fin 8 := 0; let g : Nat := 5;
      (s.cores[c]).resv = some g ∧ by_ ≠ some c ∧ a / 8 ≤ g ∧ g ≤ (a + n - 1) / 8 ∧ 0 < n) ∧
    (let s : State := rv 5; let by_ : Option (Fin 8) := none; let a : Nat := 30; let n : Nat := 10; let c : Fin 8 := 0; let g : Nat := 5;
      (s.cores[c]).resv = some g ∧ (by_ = some c ∨ n = 0 ∨ g < a / 8 ∨ (a + n - 1) / 8 < g)) :=
  by decide +kernel

theorem witness_Branches :
    ((let s : State := m0; let h : Hdr := h0; let t : State := fetched s h; Takes s h [] t) ∧
    (let s : State := m0; let h : Hdr := h0; let t : State := fetched s h; Takes s h [31] t) ∧
    (let s : State := m0; let h : Hdr := h0; let t : State := fetched s h; let r : Fin 32 := 5; Takes s h [r] t)) ∧
    (let s : State := m0; let h : Hdr := h0; let t : State := fetched s h; let r : Fin 32 := 31; Takes s h [r, 31] t) :=
  ⟨holds (by letI := @decTakes; infer_instance) (by decide +kernel),
    holds (by letI := @decTakes; infer_instance) (by decide +kernel)⟩

theorem witness_Fetch :
    ((let s : State := m0; let c : Fin 8 := 0; let len : Nat := 4; let code : Nat := 3; let off : Nat := 0x1000100; let k : Core := s.cores[c];
      let i : Fin 8 := if k.status.getLsbD 0 then 7 else 0; let g : Seg := k.seg[i];
      k.pc.toNat % 2 = 0 ∧ g.x = true ∧ (k.status.getLsbD 0 = true ∨ g.u = true) ∧ k.pc.toNat + len ≤ g.limit.toNat ∧ s.place (g.base.toNat + k.pc.toNat) = .mem code off) ∧
    (let s : State := m0.modCore 0 fun k => {k with pc := 0xFFFE}; let c : Fin 8 := 0; let len : Nat := 4; let k : Core := s.cores[c];
      let i : Fin 8 := if k.status.getLsbD 0 then 7 else 0; let g : Seg := k.seg[i];
      k.pc.toNat % 2 = 0 ∧ g.x = true ∧ (k.status.getLsbD 0 = true ∨ g.u = true) ∧ g.limit.toNat < k.pc.toNat + len) ∧
    (let s : State := m0.modCore 0 fun k => {k with pc := 3}; let c : Fin 8 := 0; let k : Core := s.cores[c]; k.pc.toNat % 2 = 1)) ∧
    (let s : State := m0.modCore 0 fun k => {k with status := 0}; let c : Fin 8 := 0; let k : Core := s.cores[c];
      let i : Fin 8 := if k.status.getLsbD 0 then 7 else 0; let g : Seg := k.seg[i];
      k.pc.toNat % 2 = 0 ∧ (g.x = false ∨ (k.status.getLsbD 0 = false ∧ g.u = false))) :=
  ⟨by decide +kernel,
    by decide +kernel⟩

theorem witness_VectorElements :
    (let s : State := m0; let h : Hdr := h0; let t : State := fetched s h; let esz : Fin 4 := 0; let grp : Fin 4 := 0; let vd : Fin 16 := 3;
      let a : Fin 16 := 4; let b : Fin 16 := 5; Takes s h [] t ∧ esz.val ≤ 2 ∧ grp.val ≤ 2 ∧ vd.val % 2 ^ grp.val = 0 ∧ a.val % 2 ^ grp.val = 0 ∧ b.val % 2 ^ grp.val = 0 ∧ (coreOf t h).vstart = 0) :=
  holds (by letI := @decTakes; infer_instance) (by decide +kernel)

theorem witness_VectorOthers :
    (let s : State := m0; let h : Hdr := h0; let t : State := fetched s h; let esz : Fin 4 := 1; let grp : Fin 4 := 1; let vd : Fin 16 := 2;
      let a : Fin 16 := 4; let b : Fin 16 := 4; let r : Fin 32 := 7;
      esz.val ≤ 2 ∧ grp.val ≤ 2 ∧ vd.val % 2 ^ grp.val = 0 ∧ a.val % 2 ^ grp.val = 0 ∧ b.val % 2 ^ grp.val = 0 ∧ Takes s h [] t ∧ esz.val < 2 ∧ 1 ≤ esz.val ∧ Takes s h [r] t) :=
  holds (by letI := @decTakes; infer_instance) (by decide +kernel)

theorem witness_VectorIllegalForms :
    (let s : State := m0; let h : Hdr := h0; let t : State := fetched s h; let esz : Fin 4 := 0; let grp : Fin 4 := 1; let vd : Fin 16 := 3;
      let a : Fin 16 := 4; let b : Fin 16 := 5; let rb : Fin 32 := 4; let nf : Fin 8 := 2;
      (esz = 3 ∨ grp = 3 ∨ vd.val % 2 ^ grp.val ≠ 0 ∨ a.val % 2 ^ grp.val ≠ 0 ∨ b.val % 2 ^ grp.val ≠ 0) ∧ Takes s h [] t ∧ (esz = 3 ∨ grp = 3 ∨ vd.val % 2 ^ grp.val ≠ 0 ∨ 16 < vd.val + (nf.val + 1) * 2 ^ grp.val) ∧ Takes s h [rb] t) :=
  holds (by letI := @decTakes; infer_instance) (by decide +kernel)

theorem witness_VectorMemory :
    ((let s : State := x m0 4 0; let h : Hdr := h0; let t : State := fetched s h; let seg : Fin 8 := 1; let rb : Fin 32 := 4; let esz : Fin 4 := 1;
      let grp : Fin 4 := 0; let nf : Fin 8 := 0; let vd : Fin 16 := 3; let v : State := vrun s h seg rb esz grp 1 vd true;
      Takes s h [rb] t ∧ esz.val ≤ 2 ∧ grp.val ≤ 2 ∧ vd.val % 2 ^ grp.val = 0 ∧ vd.val + (nf.val + 1) * 2 ^ grp.val ≤ 16 ∧ (let u := t.begin_ h;
      let n := 2 ^ esz.val; let g := 2 ^ grp.val; let base := ((coreOf t h).x rb).toNat;
      let es (f : Nat) : List Nat := (List.range (f * g * 16 / n - (coreOf t h).vstart.toNat)).map ((coreOf t h).vstart.toNat + ·);
      u.vmRun h.core seg base n true vd 1 g (es 1) = .done v ∧ u.vmRun h.core seg base n true vd (nf.val + 1) g (es (nf.val + 1)) = .done v)) ∧
    (let s : State := x m0 4 0x70; let h : Hdr := h0; let t : State := fetched s h; let seg : Fin 8 := 1; let rb : Fin 32 := 4; let esz : Fin 4 := 2;
      let grp : Fin 4 := 1; let nf : Fin 8 := 0; let vd : Fin 16 := 4; let v : State := vrun s h seg rb esz grp 1 vd false;
      Takes s h [rb] t ∧ esz.val ≤ 2 ∧ grp.val ≤ 2 ∧ vd.val % 2 ^ grp.val = 0 ∧ vd.val + (nf.val + 1) * 2 ^ grp.val ≤ 16 ∧ (let u := t.begin_ h;
      let n := 2 ^ esz.val; let g := 2 ^ grp.val; let base := ((coreOf t h).x rb).toNat;
      let es (f : Nat) : List Nat := (List.range (f * g * 16 / n - (coreOf t h).vstart.toNat)).map ((coreOf t h).vstart.toNat + ·);
      u.vmRun h.core seg base n false vd 1 g (es 1) = .done v ∧ u.vmRun h.core seg base n false vd (nf.val + 1) g (es (nf.val + 1)) = .done v))) ∧
    (let s : State := vst 3 (x m0 4 0x70); let h : Hdr := h0; let t : State := fetched s h; let seg : Fin 8 := 1; let rb : Fin 32 := 4;
      let esz : Fin 4 := 0; let grp : Fin 4 := 0; let nf : Fin 8 := 2; let vd : Fin 16 := 4; let v : State := vrun s h seg rb esz grp 3 vd true;
      Takes s h [rb] t ∧ esz.val ≤ 2 ∧ grp.val ≤ 2 ∧ vd.val % 2 ^ grp.val = 0 ∧ vd.val + (nf.val + 1) * 2 ^ grp.val ≤ 16 ∧ (let u := t.begin_ h;
      let n := 2 ^ esz.val; let g := 2 ^ grp.val; let base := ((coreOf t h).x rb).toNat;
      let es (f : Nat) : List Nat := (List.range (f * g * 16 / n - (coreOf t h).vstart.toNat)).map ((coreOf t h).vstart.toNat + ·);
      let e := resE (u.vmRun h.core seg base n true vd (nf.val + 1) g (es (nf.val + 1)));
      u.vmRun h.core seg base n true vd (nf.val + 1) g (es (nf.val + 1)) = .trap v e)) ∧
    (let s : State := m0; let c : Fin 8 := 0; let seg : Fin 8 := 1; let base : Nat := 0; let n : Nat := 2; let vd : Nat := 3; let f : Nat := 1;
      let g : Nat := 1; let e : Nat := 1; let load : Bool := true; let v := memS (s.vmElem c seg (base + e * n) n load (vd + e % f * g) (e / f)) s;
      s.vmElem c seg (base + e * n) n load (vd + e % f * g) (e / f) = .ok () v) ∧
    (let s : State := m0; let c : Fin 8 := 0; let seg : Fin 8 := 1; let base : Nat := 0x70; let n : Nat := 2; let vd : Nat := 3; let f : Nat := 1;
      let g : Nat := 1; let e : Nat := 8; let load : Bool := true; let v := memS (s.vmElem c seg (base + e * n) n load (vd + e % f * g) (e / f)) s;
      let x := memE (s.vmElem c seg (base + e * n) n load (vd + e % f * g) (e / f));
      s.vmElem c seg (base + e * n) n load (vd + e % f * g) (e / f) = .exc v x) ∧
    (let s : State := m0; let v : State := (m0.readRange (coreRouter 0) 3 0x2000002 2).2; let c : Fin 8 := 0; let seg : Fin 8 := 1; let o : Nat := 2;
      let n : Nat := 2; let code : Nat := 3; let off : Nat := 0x2000002;
      (n = 1 ∨ n = 2 ∨ n = 4) ∧ Lands s c seg o n n true false code off ∧ s.readRange (coreRouter c) code off n = (false, v) ∧ Lands s c seg o n n false true code off ∧ MayStore s c code off n) :=
  ⟨holds (by letI := @decTakes; letI := @decDone; infer_instance) (by decide +kernel),
    holds (by letI := @decTakes; letI := @decTrap; infer_instance) (by decide +kernel),
    holds (by letI := @decOk; infer_instance) (by decide +kernel),
    holds (by letI := @decExc; infer_instance) (by decide +kernel),
    holds (by letI := @decLands; letI := @decSnd; letI := @decMayStore; infer_instance) (by decide +kernel)⟩

end N13

end Sys2Proof.Tests
end

