-- ==== Sys2Proof/Tests/Witness14.lean ====
section
/-!
SUPPORT. Witnesses for the statements about the array instructions: concrete states and operands that meet their hypotheses.
-/

set_option Elab.async false
set_option maxRecDepth 100000
set_option synthInstance.maxSize 2000

namespace Sys2Proof.Tests
open Sys2Proof.Machine Sys2Proof.Claims

namespace N14

def g0 : State := w0.modCore 0 fun k => { k with status := 1, s := Vector.ofFn (fun i => BitVec.ofNat 32 (2 ^ 16 * 8 + 16 * i.val)) }
def ent (i : Nat) (sc : Bool) : AiqEntry := { index := i, rd := 0x80000, ra := 0x80010, rb := 0x80020, rdNum := 12, scalar := sc, edge := 0, keySeg := {} }
def camOk : SMap (Option DWord) := (List.range 64).map fun i => (i, some 0)
def q (l : List AiqEntry) (f : Expander → Expander) (s : State) : State := s.modDev 0 fun d => { d with aiq := l, cam := camOk, ex := f d.ex }
def g1 : State := { g0 with grains := { g0.grains with base := { data := 0, poison := 0, bad := 0, ce := 0 } } }
def qOf (i : Nat) : State := q [ent i false, ent 3 false] id g1
def xs (s : State) (r : Fin 32) (v : Word) : State := s.modCore 0 fun k => k.setX r v
def full : State := q (List.replicate 32 (ent 0 false)) id g0
def pl (n : Nat) : Plane := BitVec.ofNat 65536 n

theorem witness_ArrayChecks :
    ((let s : State := g0; let c : Fin 8 := 0; let d : Fin 4 := 0; let rd : Fin 32 := 1; let ra : Fin 32 := 2; let rb : Fin 32 := 3;
      let k : Core := s.cores[c]; let base (r : Fin 32) : Nat := ((k.x r).extractLsb' 0 13).toNat;
      let width (r : Fin 32) : Nat := if (k.x r).extractLsb' 16 6 = 0 then 64 else ((k.x r).extractLsb' 16 6).toNat;
      let ok (r : Fin 32) : Prop := (k.x r).extractLsb' 22 10 = 0 ∧ (k.x r).extractLsb' 13 3 = 0;
      let apart (r : Fin 32) : Prop := base rd + width rd ≤ base r ∨ base r + width r ≤ base rd;
      k.status.getLsbD 4 = false ∧ s.partsOf d ≠ 0 ∧ ok rd ∧ ok ra ∧ ok rb ∧ width ra = width rd ∧ width rb = width rd ∧ base rd + width rd ≤ 7680 ∧ base ra + width ra ≤ 7680 ∧ base rb + width rb ≤ 7680 ∧ apart ra ∧ apart rb) ∧
    (let s : State := (g0.fset F.GRN_GANG_MODE 1); let c : Fin 8 := 0; let d : Fin 4 := 1; let k : Core := s.cores[c];
      k.status.getLsbD 4 = false ∧ s.partsOf d = 0) ∧
    (let s : State := w0; let c : Fin 8 := 0; let k : Core := s.cores[c]; k.status.getLsbD 4 = true)) ∧
    ((let s : State := xs g0 1 0x1080000; let c : Fin 8 := 0; let d : Fin 4 := 0; let rd : Fin 32 := 1; let k : Core := s.cores[c];
      let ok (r : Fin 32) : Prop := (k.x r).extractLsb' 22 10 = 0 ∧ (k.x r).extractLsb' 13 3 = 0;
      k.status.getLsbD 4 = false ∧ s.partsOf d ≠ 0 ∧ ¬ ok rd) ∧
    (let s : State := xs g0 1 0x81DF9; let c : Fin 8 := 0; let d : Fin 4 := 0; let rd : Fin 32 := 1; let ra : Fin 32 := 2; let rb : Fin 32 := 3;
      let k : Core := s.cores[c]; let base (r : Fin 32) : Nat := ((k.x r).extractLsb' 0 13).toNat;
      let width (r : Fin 32) : Nat := if (k.x r).extractLsb' 16 6 = 0 then 64 else ((k.x r).extractLsb' 16 6).toNat;
      let ok (r : Fin 32) : Prop := (k.x r).extractLsb' 22 10 = 0 ∧ (k.x r).extractLsb' 13 3 = 0;
      k.status.getLsbD 4 = false ∧ s.partsOf d ≠ 0 ∧ ok rd ∧ ok ra ∧ ok rb ∧ width ra = width rd ∧ width rb = width rd ∧ 7680 < base rd + width rd) ∧
    (let s : State := xs g0 2 0x1080000; let c : Fin 8 := 0; let d : Fin 4 := 0; let rd : Fin 32 := 1; let ra : Fin 32 := 2;
      let k : Core := s.cores[c]; let ok (r : Fin 32) : Prop := (k.x r).extractLsb' 22 10 = 0 ∧ (k.x r).extractLsb' 13 3 = 0;
      k.status.getLsbD 4 = false ∧ s.partsOf d ≠ 0 ∧ ok rd ∧ ¬ ok ra)) ∧
    ((let s : State := xs g0 2 0x81DF9; let c : Fin 8 := 0; let d : Fin 4 := 0; let rd : Fin 32 := 1; let ra : Fin 32 := 2; let rb : Fin 32 := 3;
      let k : Core := s.cores[c]; let base (r : Fin 32) : Nat := ((k.x r).extractLsb' 0 13).toNat;
      let width (r : Fin 32) : Nat := if (k.x r).extractLsb' 16 6 = 0 then 64 else ((k.x r).extractLsb' 16 6).toNat;
      let ok (r : Fin 32) : Prop := (k.x r).extractLsb' 22 10 = 0 ∧ (k.x r).extractLsb' 13 3 = 0;
      k.status.getLsbD 4 = false ∧ s.partsOf d ≠ 0 ∧ ok rd ∧ ok ra ∧ ok rb ∧ width ra = width rd ∧ width rb = width rd ∧ base rd + width rd ≤ 7680 ∧ 7680 < base ra + width ra) ∧
    (let s : State := xs g0 2 0x90100; let c : Fin 8 := 0; let d : Fin 4 := 0; let rd : Fin 32 := 1; let ra : Fin 32 := 2; let rb : Fin 32 := 3;
      let k : Core := s.cores[c]; let width (r : Fin 32) : Nat := if (k.x r).extractLsb' 16 6 = 0 then 64 else ((k.x r).extractLsb' 16 6).toNat;
      let ok (r : Fin 32) : Prop := (k.x r).extractLsb' 22 10 = 0 ∧ (k.x r).extractLsb' 13 3 = 0;
      k.status.getLsbD 4 = false ∧ s.partsOf d ≠ 0 ∧ ok rd ∧ ok ra ∧ ok rb ∧ width ra ≠ width rd) ∧
    (let s : State := xs g0 3 0x80017; let c : Fin 8 := 0; let d : Fin 4 := 0; let rd : Fin 32 := 1; let ra : Fin 32 := 2; let rb : Fin 32 := 3;
      let k : Core := s.cores[c]; let base (r : Fin 32) : Nat := ((k.x r).extractLsb' 0 13).toNat;
      let width (r : Fin 32) : Nat := if (k.x r).extractLsb' 16 6 = 0 then 64 else ((k.x r).extractLsb' 16 6).toNat;
      let ok (r : Fin 32) : Prop := (k.x r).extractLsb' 22 10 = 0 ∧ (k.x r).extractLsb' 13 3 = 0;
      let apart (r : Fin 32) : Prop := base rd + width rd ≤ base r ∨ base r + width r ≤ base rd;
      k.status.getLsbD 4 = false ∧ s.partsOf d ≠ 0 ∧ ok rd ∧ ok ra ∧ ok rb ∧ width ra = width rd ∧ width rb = width rd ∧ base rd + width rd ≤ 7680 ∧ base ra + width ra ≤ 7680 ∧ base rb + width rb ≤ 7680 ∧ ¬ (apart ra ∧ apart rb))) ∧
    ((let s : State := xs g0 3 0x81DF9; let c : Fin 8 := 0; let d : Fin 4 := 0; let rd : Fin 32 := 1; let ra : Fin 32 := 2; let rb : Fin 32 := 3;
      let k : Core := s.cores[c]; let base (r : Fin 32) : Nat := ((k.x r).extractLsb' 0 13).toNat;
      let width (r : Fin 32) : Nat := if (k.x r).extractLsb' 16 6 = 0 then 64 else ((k.x r).extractLsb' 16 6).toNat;
      let ok (r : Fin 32) : Prop := (k.x r).extractLsb' 22 10 = 0 ∧ (k.x r).extractLsb' 13 3 = 0;
      k.status.getLsbD 4 = false ∧ s.partsOf d ≠ 0 ∧ ok rd ∧ ok ra ∧ ok rb ∧ width ra = width rd ∧ width rb = width rd ∧ base rd + width rd ≤ 7680 ∧ base ra + width ra ≤ 7680 ∧ 7680 < base rb + width rb) ∧
    (let s : State := xs g0 3 0x82000; let c : Fin 8 := 0; let d : Fin 4 := 0; let rd : Fin 32 := 1; let ra : Fin 32 := 2; let rb : Fin 32 := 3;
      let k : Core := s.cores[c]; let ok (r : Fin 32) : Prop := (k.x r).extractLsb' 22 10 = 0 ∧ (k.x r).extractLsb' 13 3 = 0;
      k.status.getLsbD 4 = false ∧ s.partsOf d ≠ 0 ∧ ok rd ∧ ok ra ∧ ¬ ok rb) ∧
    (let s : State := xs g0 3 0x90100; let c : Fin 8 := 0; let d : Fin 4 := 0; let rd : Fin 32 := 1; let ra : Fin 32 := 2; let rb : Fin 32 := 3;
      let k : Core := s.cores[c]; let width (r : Fin 32) : Nat := if (k.x r).extractLsb' 16 6 = 0 then 64 else ((k.x r).extractLsb' 16 6).toNat;
      let ok (r : Fin 32) : Prop := (k.x r).extractLsb' 22 10 = 0 ∧ (k.x r).extractLsb' 13 3 = 0;
      k.status.getLsbD 4 = false ∧ s.partsOf d ≠ 0 ∧ ok rd ∧ ok ra ∧ ok rb ∧ width ra = width rd ∧ width rb ≠ width rd)) ∧
    ((let s : State := g0.modCore 0 (fun k => { k with status := 0 }); let c : Fin 8 := 0;
      let e : DecEnt := { dk := 1, ak := 1, bk := 1, sys := true };
      e.valid = true ∧ e.dk ≠ 0 ∧ e.ak ≠ 0 ∧ e.bk ≠ 0 ∧ (s.cores[c]).status.getLsbD 4 = false ∧ e.sys = true ∧ (s.cores[c]).status.getLsbD 0 = false) ∧
    (let e : DecEnt := { valid := false }; let rd : Fin 32 := 1; let ra : Fin 32 := 2; let rb : Fin 32 := 3;
      (e.valid = false ∨ (e.dk = 0 ∧ rd ≠ 0) ∨ (e.ak = 0 ∧ ra ≠ 0) ∨ (e.bk = 0 ∧ rb ≠ 0)))) :=
  ⟨by decide +kernel,
    by decide +kernel,
    by decide +kernel,
    by decide +kernel,
    by decide +kernel⟩

theorem witness_ArrayCycleFormulas :
    ((∃ i ∈ [20, 64, 68], 20 ≤ i ∧ i ≤ 27) ∧ (∃ i ∈ [20, 64, 68], 64 ≤ i ∧ i ≤ 67) ∧ (∃ i ∈ [20, 64, 68], 68 ≤ i ∧ i ≤ 71)) :=
  by decide +kernel

theorem witness_GrainArithmetic :
    (let a : List Plane := [pl 0, pl 1, pl 1]; let b : List Plane := [pl 1, pl 1,pl 0]; let g : Nat := 0;
      g < 65536 ∧ a.length = b.length ∧ 0 < a.length ∧ a.length ≤ 64) :=
  by decide +kernel

theorem witness_Expander :
    (let s : State := qOf 0; let d : Fin 4 := 0; let e : AiqEntry := ent 0 false; let rest : List AiqEntry := [ent 3 false];
      let dec : DecEnt := romDec e.index; let dev : Dev := s.devs[d];
      dev.aiq = e :: rest ∧ (dev.ex.committed = true ∨ dev.ex.stopped = false) ∧ dev.fogRunning = false ∧ s.fogDue d = false ∧ dev.ex.stopped = false ∧ dev.ex.st = .idle ∧ dev.camBad = none ∧ dev.decode e.index = some dec ∧ e.index < 128 ∧ e.index ≠ 77 ∧ e.index ≠ 78 ∧ dev.patched e.index = false ∧ e.index < 192 ∧ (dev.aiq = [] ∨ dev.ex.st ≠ .done) ∧ (dev.ex.st ≠ .running ∨ dev.ex.committed = true ∨ dev.ex.issued < 2048)) ∧
    (let s : State := q [ent 75 true] (fun e => { e with st := .running, issued := 2048 }) g1; let d : Fin 4 := 0; let e : AiqEntry := ent 75 true;
      let rest : List AiqEntry := []; let dev : Dev := s.devs[d];
      dev.aiq = e :: rest ∧ (dev.ex.committed = true ∨ dev.ex.stopped = false) ∧ dev.fogRunning = false ∧ s.fogDue d = false ∧ dev.ex.st = .running ∧ dev.ex.committed = false ∧ 2048 ≤ dev.ex.issued) ∧
    (let s : State := qOf 130; let d : Fin 4 := 0; let e : AiqEntry := ent 130 false; let rest : List AiqEntry := [ent 3 false];
      let dec : DecEnt := sysDec e.index; let dev : Dev := s.devs[d];
      dev.aiq = e :: rest ∧ dev.ex.stopped = false ∧ dev.fogRunning = false ∧ s.fogDue d = false ∧ dev.ex.st = .idle ∧ dev.camBad = none ∧ dev.decode e.index = some dec ∧ 128 ≤ e.index ∧ e.index < 192 ∧ dev.patched e.index = false) ∧
    (let s : State := q [ent 75 true, ent 1 false] (fun e => { e with st := .done, result := 77 }) g1; let d : Fin 4 := 0;
      let e : AiqEntry := ent 75 true; let rest : List AiqEntry := [ent 1 false]; let dev : Dev := s.devs[d];
      (dev.aiq = [] ∨ (dev.ex.stopped = true ∧ dev.ex.committed = false) ∨ dev.fogRunning = true ∨ s.fogDue d = true ∨ dev.ex.st = .done ∨ dev.ex.st = .abandoned) ∧ dev.aiq = e :: rest ∧ dev.ex.st = .done) ∧
    (let s : State := qOf 77; let d : Fin 4 := 0; let e : AiqEntry := ent 77 false; let rest : List AiqEntry := [ent 3 false];
      let dec : DecEnt := romDec e.index; let dev : Dev := s.devs[d];
      dev.aiq = e :: rest ∧ dev.ex.stopped = false ∧ dev.fogRunning = false ∧ s.fogDue d = false ∧ dev.ex.st = .idle ∧ dev.camBad = none ∧ dev.decode e.index = some dec ∧ (∃ m : Fin 4, ((e.index = 77 ∧ m = 1) ∨ (e.index = 78 ∧ m = 2)) ∧ dev.patched e.index = false)) ∧
    (let s : State := (qOf 0).modDev 0 fun x => { x with cam := [] }; let d : Fin 4 := 0; let e : AiqEntry := ent 0 false;
      let rest : List AiqEntry := [ent 3 false]; let i : Nat := 0; let dev : Dev := s.devs[d];
      dev.aiq = e :: rest ∧ dev.ex.stopped = false ∧ dev.fogRunning = false ∧ s.fogDue d = false ∧ dev.ex.st = .idle ∧ dev.camBad = some i) ∧
    (let s : State := (qOf 200).modDev 0 fun x => { x with decodeRam := [(200, some 0x8000000000000000)] }; let d : Fin 4 := 0;
      let e : AiqEntry := ent 200 false; let rest : List AiqEntry := [ent 3 false]; let dec : DecEnt := decEnt 0x8000000000000000;
      let dev : Dev := s.devs[d]; dev.aiq = e :: rest ∧ dev.ex.stopped = false ∧ dev.fogRunning = false ∧ s.fogDue d = false ∧ dev.ex.st = .idle ∧ dev.camBad = none ∧ dev.decode e.index = some dec ∧ (192 ≤ e.index ∨ dev.patched e.index = true)) :=
  ⟨holds (by letI := @decRom; letI := @decSys; letI := @decPatched; infer_instance) (by decide +kernel),
    by decide +kernel,
    holds (by letI := @decRom; letI := @decSys; letI := @decPatched; infer_instance) (by decide +kernel),
    by decide +kernel,
    holds (by letI := @decRom; letI := @decSys; letI := @decPatched; infer_instance) (by decide +kernel),
    by decide +kernel,
    holds (by letI := @decRom; letI := @decSys; letI := @decPatched; infer_instance) (by decide +kernel)⟩

/-- An array instruction at index 0 (`a.add`): the states, the decode entry and what the checks at issue answer. -/
theorem witness_ArrayIssue :
    (let s : State := g0; let h : Hdr := h0; let t : State := fetched s h; Takes s h [] t ∧ (0 : Fin 4).val = h.core.val ∧
      ((t.begin_ h).devs[(0 : Fin 4)]).decode 0 = some (romDec 0) ∧ [1, 3, 4].any (fun r => (t.begin_ h).interlocked h.core r) = false ∧
      (t.begin_ h).arrayCheck h.core 0 (romDec 0) 0 1 3 4 = none ∧ (t.devs[(0 : Fin 4)]).aiq.length < 32) ∧
    (let s : State := full; let h : Hdr := h0; let t : State := fetched s h; Takes s h [] t ∧
      ((t.begin_ h).devs[(0 : Fin 4)]).decode 0 = some (romDec 0) ∧ [1, 3, 4].any (fun r => (t.begin_ h).interlocked h.core r) = false ∧
      (t.begin_ h).arrayCheck h.core 0 (romDec 0) 0 1 3 4 = none ∧ 32 ≤ (t.devs[(0 : Fin 4)]).aiq.length) ∧
    (let s : State := w0; let h : Hdr := h0; let t : State := fetched s h; Takes s h [] t ∧
      ((t.begin_ h).devs[(0 : Fin 4)]).decode 0 = some (romDec 0) ∧ [1, 3, 4].any (fun r => (t.begin_ h).interlocked h.core r) = false ∧
      (∃ x ∈ (t.begin_ h).arrayCheck h.core 0 (romDec 0) 0 1 3 4, x.code ≠ 0)) ∧
    (let s : State := w0; let h : Hdr := ⟨4, .alw, false⟩; let t : State := fetched s h; Takes s h [] t ∧ 4 ≤ h.core.val) :=
  ⟨holds (by letI := @decTakes; letI := @decRom; infer_instance) (by decide +kernel),
    holds (by letI := @decTakes; letI := @decRom; infer_instance) (by decide +kernel),
    holds (by letI := @decTakes; letI := @decRom; letI := @decMem; infer_instance) (by decide +kernel),
    holds (by letI := @decTakes; infer_instance) (by decide +kernel)⟩

end N14

end Sys2Proof.Tests
end

