-- ==== Sys2Proof/Tests/Witness14b.lean ====
section
/-!
SUPPORT. Witnesses for the statements about the words of the cores and the forms on registers: concrete states and operands that meet their hypotheses.
-/

set_option Elab.async false
set_option maxRecDepth 100000
set_option synthInstance.maxSize 2000

namespace Sys2Proof.Tests
open Sys2Proof.Machine Sys2Proof.Claims

namespace N14b

def s1 : State := w0.modCore 0 fun k => (((k.setX 9 3).setX 8 0x80000000).setX 10 0x7FFFFFFF).setX 11 40

theorem witness_CoreFormsComplete :
    (let s : State := s1; let h : Hdr := h0; let t : State := fetched s h; let rd : Fin 32 := 3; let a : Fin 32 := 8; let b : Fin 32 := 9;
      let c : Fin 32 := 10; let acc : Fin 4 := 2; let imm : BitVec 11 := 5; let up : BitVec 16 := 7; let i5 : BitVec 5 := 9;
      let i : Instr := .abs h rd a; Takes s h [rd, a, b, c] t ∧ i ∈ [.add h rd a b, .sub h rd a b, .and h rd a b, .or h rd a b, .xor h rd a b, .andn h rd a b, .shl h rd a b, .shr h rd a b, .sar h rd a b, .min h rd a b, .max h rd a b, .minu h rd a b, .maxu h rd a b, .abs h rd a, .neg h rd a, .mov h rd a, .cmp h a b, .cmn h a b, .tst h a b, .addf h rd a b, .subf h rd a b] ++ [.addi h rd a imm, .andi h rd a imm, .ori h rd a imm, .xori h rd a imm, .shli h rd a imm, .shri h rd a imm, .sari h rd a imm, .cmpi h a imm, .movhi h rd up, .movlo h rd up, .movi h rd i5, .mul h rd a b, .mulh h rd a b, .mulhu h rd a b, .crcc h a b, .crcp h a b, .par h rd a] ++ [.mac h acc a b, .mach h acc a b, .msb h acc a b, .msbh h acc a b, .aclr h acc, .ashr h acc b, .qadd h rd a b, .qsub h rd a b, .qaddh h rd a b, .qsubh h rd a b, .fadd h rd a b, .fsub h rd a b, .fmul h rd a b, .ffma h rd a b c, .ffnma h rd a b c, .fcmp h a b, .fmin h rd a b, .fmax h rd a b, .fabs h rd a, .fneg h rd a, .fcvtWs h rd a, .fcvtSw h rd a, .frecpe h rd a]) :=
  holds (by letI := @decTakes; infer_instance) (by decide +kernel)

theorem witness_CoreWords : ∃ rd : Fin 32, 16 ≤ rd.val := ⟨16, by decide⟩

end N14b

end Sys2Proof.Tests
end

