-- ==== Sys2Proof/Tests/Witness15.lean ====
section
/-!
SUPPORT. Witnesses for the statements about Grain RAM, the windows and the Enlargers: concrete states and operands that meet their hypotheses.
-/

set_option Elab.async false
set_option maxRecDepth 100000
set_option synthInstance.maxSize 2000

namespace Sys2Proof.Tests
open Sys2Proof.Machine Sys2Proof.Claims

namespace N15

def g0 := grOk (memOk (up w0))
def ent (i : Nat) : AiqEntry := { index := i, rd := 0x80000, ra := 0x80010, rb := 0x80020, rdNum := 12, scalar := false, edge := 0, keySeg := {} }
def aq (s : State) := dev 1 (fun d => { d with aiq := [ent 0] }) s
def fogR (s : State) := dev 1 (fun d => { d with fogRunning := true, fogProbe := 47 }) s
def fogE := fz F.GRN_FOG_CTRL_ENABLE 1 g0
def slip (s : State) : State := { s with grains := { s.grains with slip := some (3, 9) } }
def defer (s : State) : State := { s with grains := { s.grains with gangDeferred := some 1 } }
def ub (s : State) : State := { s with grains := { s.grains with unstored0 := 1 } }
def ld (s : State) : State := { s with grains := { s.grains with loaded0 := 0xF, loaded1 := 0xF, GP0 := 0x123456, GP1 := 0xFFFFFFFFF } }
def plane1 : GPlane := { data := 0xABCDEF * 2 ^ 16000, poison := 0xF0F, bad := 3, ce := 2 ^ 700 }
def gp := { g0 with grains := { g0.grains with mem := [(5, plane1)] } }
def win (o : Option Nat) : Window := { index := 3, outLine := o, camera := false, in0 := 0x5555, in1 := 0x333, out0 := 7, out1 := 9 }
def inWin (o : Option Nat) (s : State) := dev 0 (fun d => { d with win := some (win o) }) s
def slotW (n w : Nat) (s : State) := dev 0 (fun d => { d with slot := some { n := n, win := w, inspecting := false } }) s
def jb : Job := { job0 with nextSlot := 4, complete := 0 }
def uc (sp ix inc : Nat) : State := fz F.DEV_UC_ADDR_INC inc (fz F.DEV_UC_ADDR_INDEX ix (fz F.DEV_UC_ADDR_SPACE sp g0 1) 1) 1
def band (f : Nat) : Band := { table := 0x1000, first := f, lines := 4, factor := 1, linear := false }
def eq (n : Nat) (s : State) : State := s.modEnl 2 fun e => { e with queue := List.replicate n (band 8) }
def exl (l : Nat) (s : State) : State := s.modEnl 2 fun e => { e with expect := some l }
def feedU (s : State) (p : Fin 4) (b : Band) (rest : List Band) : State := (((s.modEnl p fun e => { e with cur := some (b, b.first), started := false }).setQueue p rest).checkBand p b (s.bandNpg p)).2

theorem witness_GangAndInit :
    ((let s : State := fogR g0; let a : Agent := .core 6; Permits s a .GRN_GANG 0 ∧ (let busy : Prop := s.mode = 4 ∨ s.mode = 5 ∨ ∃ d : Fin 4, (s.devs[d]).aiq ≠ [] ∨ (s.devs[d]).ex.st ≠ .idle; let fog : Prop := ∃ d : Fin 4, (s.devs[d]).fogRunning = true; ¬ busy ∧ fog)) ∧
    (let s : State := aq g0; let a : Agent := .pf; Permits s a .GRN_GANG 0 ∧ (let busy : Prop := s.mode = 4 ∨ s.mode = 5 ∨ ∃ d : Fin 4, (s.devs[d]).aiq ≠ [] ∨ (s.devs[d]).ex.st ≠ .idle; busy)) ∧
    (let s : State := g0; let a : Agent := .pf; Permits s a .GRN_GANG 0 ∧ (let busy : Prop := s.mode = 4 ∨ s.mode = 5 ∨ ∃ d : Fin 4, (s.devs[d]).aiq ≠ [] ∨ (s.devs[d]).ex.st ≠ .idle; let fog : Prop := ∃ d : Fin 4, (s.devs[d]).fogRunning = true; ¬ busy ∧ ¬ fog))) ∧
    (let s : State := aq (fz F.GRN_STATUS_INIT_BUSY 4 g0); let a : Agent := mc4; Permits s a .GRN_INIT 0) ∧
    ((let s : State := fz F.GRN_STATUS_INIT_BUSY 2 w0; let p : Fin 4 := 1;
      (s.fv F.GRN_STATUS_INIT_BUSY).testBit p.val = true ∧ Grains.wf s.grains = true) ∧
    (let s : State := gp; let p : Fin 4 := 0; (s.fv F.GRN_STATUS_INIT_BUSY).testBit p.val = false)) :=
  ⟨holds (by letI := @decPermits; infer_instance) (by decide +kernel),
    holds (by letI := @decPermits; infer_instance) (by decide +kernel),
    by decide +kernel⟩

theorem witness_FogCheck :
    (let s : State := withJob job0 (fz F.GRN_GANG_MODE 1 <| fz F.GRN_SLIP_STATE_SLIPPED1 1 (fogR fogE)); let d : Fin 4 := 1;
      let x : Dev := s.devs[d]; let gap := s.fv F.GRN_FOG_CTRL_MIN_GAP;
      (s.fogReady d = false ∨ x.aiq ≠ []) ∧ (s.fogReady d = false ∨ x.aiq = [] ∨ gap = 0 ∨ x.fogLines < gap) ∧ x.fogRunning = true ∧ s.grains.gangDeferred = none ∧ (∃ row ∈ [(0 : Fin 256)], ∃ col ∈ [(5 : Fin 256), 32], ∃ phys ∈ [(32 : Fin 33), 5], x.fogRunning = true ∧ s.grains.gangDeferred = none ∧ s.on F.GRN_FOG_FAIL_VALID = false ∧ x.fogProbe < 48 ∧ (s.slipped (col.val / 32) = false ∨ s.job = none ∨ (s.partsOf 0).getLsbD (row.val / 64) = false)) ∧ (∃ probe ∈ [3], ∃ row ∈ [0], ∃ col ∈ [5, 32], ∃ phys ∈ [32], s.slipped (col / 32) = true ∧ s.job ≠ none ∧ (s.partsOf 0).getLsbD (row / 64) = true)) ∧
    (let s : State := aq (fz F.GRN_FOG_CTRL_MIN_GAP 3 (dev 1 (fun d => { d with fogLines := 3 }) fogE)); let d : Fin 4 := 1;
      let x : Dev := s.devs[d]; let gap := s.fv F.GRN_FOG_CTRL_MIN_GAP;
      s.fogReady d = true ∧ x.aiq ≠ [] ∧ gap ≠ 0 ∧ gap ≤ x.fogLines ∧ x.fogRunning = false) ∧
    (let s : State := fogE; let d : Fin 4 := 0; let x : Dev := s.devs[d]; s.fogReady d = true ∧ x.aiq = []) :=
  by decide +kernel

theorem witness_SlipCommands :
    ((let s : State := g0; let a : Agent := mc4; let v : BitVec 32 := 0x173; let c : Instr := .slipGo a v;
      Permits s a .GRN_SLIP_CMD 0 ∧ (c = .slipGo a v ∨ c = .bootSlip a v) ∧ (let t := (v.extractLsb' 5 3).toNat; let go := v.getLsbD 8;
      let boot := v.getLsbD 9; let mc : Prop := ∃ k : Fin 8, a = .core k ∧ 4 ≤ k.val;
      let refused : Prop := s.slipped t = true ∨ s.spareBad t = true ∨ s.grains.slip ≠ none ∨ (boot = true ∧ ((∃ d : Fin 4, (s.devs[d]).aiq ≠ [] ∨ (s.devs[d]).ex.st ≠ .idle) ∨ s.on F.GRN_FOG_CTRL_ENABLE = true)); mc ∧ go = true ∧ ¬ refused ∧ boot = false)) ∧
    (let s : State := aq g0; let a : Agent := mc4; let v : BitVec 32 := 0x373; let c : Instr := .slipGo a v;
      Permits s a .GRN_SLIP_CMD 0 ∧ (c = .slipGo a v ∨ c = .bootSlip a v) ∧ (let t := (v.extractLsb' 5 3).toNat; let go := v.getLsbD 8;
      let boot := v.getLsbD 9; let mc : Prop := ∃ k : Fin 8, a = .core k ∧ 4 ≤ k.val;
      let refused : Prop := s.slipped t = true ∨ s.spareBad t = true ∨ s.grains.slip ≠ none ∨ (boot = true ∧ ((∃ d : Fin 4, (s.devs[d]).aiq ≠ [] ∨ (s.devs[d]).ex.st ≠ .idle) ∨ s.on F.GRN_FOG_CTRL_ENABLE = true)); mc ∧ go = true ∧ refused)) ∧
    (let s : State := g0; let a : Agent := .pf; let v : BitVec 32 := 0x173; let c : Instr := .slipGo a v;
      Permits s a .GRN_SLIP_CMD 0 ∧ (c = .slipGo a v ∨ c = .bootSlip a v) ∧ (let mc : Prop := ∃ k : Fin 8, a = .core k ∧ 4 ≤ k.val; ¬ mc))) ∧
    ((let s : State := g0; let a : Agent := mc4; let v : BitVec 32 := 0x373; let c : Instr := .bootSlip a v;
      Permits s a .GRN_SLIP_CMD 0 ∧ (c = .slipGo a v ∨ c = .bootSlip a v) ∧ (let t := (v.extractLsb' 5 3).toNat; let go := v.getLsbD 8;
      let boot := v.getLsbD 9; let mc : Prop := ∃ k : Fin 8, a = .core k ∧ 4 ≤ k.val;
      let refused : Prop := s.slipped t = true ∨ s.spareBad t = true ∨ s.grains.slip ≠ none ∨ (boot = true ∧ ((∃ d : Fin 4, (s.devs[d]).aiq ≠ [] ∨ (s.devs[d]).ex.st ≠ .idle) ∨ s.on F.GRN_FOG_CTRL_ENABLE = true)); mc ∧ go = true ∧ ¬ refused ∧ boot = true)) ∧
    (let s : State := g0; let a : Agent := mc4; let v : BitVec 32 := 0x73; let c : Instr := .slipGo a v;
      Permits s a .GRN_SLIP_CMD 0 ∧ (c = .slipGo a v ∨ c = .bootSlip a v) ∧ (let go := v.getLsbD 8;
      let mc : Prop := ∃ k : Fin 8, a = .core k ∧ 4 ≤ k.val; mc ∧ go = false))) :=
  ⟨holds (by letI := @decPermits; infer_instance) (by decide +kernel),
    holds (by letI := @decPermits; infer_instance) (by decide +kernel)⟩

theorem witness_SlipCompletes :
    (let s : State := slip w0; let v : Bool := true; let b : Bool := true; (∃ w_ ∈ s.grains.slip, let t := w_.1;
      v = true ∧ b = true ∧ (v = false ∨ b = false ∨ ((s.grains.migrated t).badParts t) ≠ 0) ∧ s.job = none)) ∧
    (let s : State := g0; s.grains.slip = none) ∧
    (let s : State := slip g0; let v : Bool := true; let b : Bool := true; (∃ w_ ∈ s.grains.slip, let t := w_.1;
      v = true ∧ b = true ∧ ((s.grains.migrated t).badParts t) = 0)) :=
  ⟨holds (by letI := @decMem; infer_instance) (by decide +kernel),
    by decide +kernel,
    holds (by letI := @decMem; infer_instance) (by decide +kernel)⟩

theorem witness_Backdoor :
    ((let s : State := g0; let a : Agent := .jtag; (match a with | .pf => True | .vf _ => True | .flash _ => True | .jtag => s.dbgLevel ≠ 2 | .pfDebug => s.dbgLevel ≠ 2 | _ => False)) ∧
    (let s : State := w0; let a : Agent := .dma 1; let off : Nat := 0x3FFFFFC; let n : Nat := 4;
      (match a with | .core _ => True | .dma _ => True | _ => False) ∧ off + n ≤ 0x4000000 ∧ s.backdoorWaits a off n = false ∧ (let r := s.backdoorRead off n (agentRouter a); (∃ k ∈ [1, 4], r.1 = true) ∧ (∃ k ∈ [1, 4], r.1 = true ∧ a = .dma k))) ∧
    (let s : State := g0; let a : Agent := mc4; let off : Nat := 4; let n : Nat := 4;
      (match a with | .core _ => True | .dma _ => True | _ => False) ∧ off + n ≤ 0x4000000 ∧ s.backdoorWaits a off n = false ∧ (let r := s.backdoorRead off n (agentRouter a); r.1 = false))) ∧
    ((let s : State := w0; let a : Agent := mc4; let off : Nat := 4; let n : Nat := 4;
      (match a with | .core _ => True | .dma _ => True | _ => False) ∧ off + n ≤ 0x4000000 ∧ s.backdoorWaits a off n = false ∧ (let r := s.backdoorRead off n (agentRouter a); (∃ k ∈ [1, 4], r.1 = true ∧ a = .core k))) ∧
    (let s : State := g0; let a : Agent := .dma 1; let off : Nat := 0x3FFFFFC; let data : List Byte := [1,2,3,4];
      (match a with | .core _ => True | .dma _ => True | _ => False) ∧ off % 4 = 0 ∧ data.length % 4 = 0 ∧ off + data.length ≤ 0x4000000 ∧ Grains.wf s.grains = true ∧ s.backdoorWaits a off data.length = false) ∧
    (let s : State := aq g0; let a : Agent := .core 1; let off : Nat := 2048; let data : List Byte := [1,2,3,4,5,6,7,8];
      off + data.length ≤ 0x4000000 ∧ s.backdoorWaits a off data.length = true ∧ (let k : Fin 8 := 1; let d : Fin 4 := 1; let j := 0;
      a = .core k ∧ d.val = k.val ∧ (s.devs[d]).aiq ≠ [] ∧ j < data.length ∧ (s.partsOf d).getLsbD ((off + j) % 8192 / 2048) = true))) ∧
    (let s : State := aq g0; let a : Agent := .core 4; let off : Nat := 2048; let data : List Byte := [1,2,3,4,5,6,7,8];
      off + data.length ≤ 0x4000000 ∧ (match a with | .core k => 4 ≤ k.val ∨ ∀ d : Fin 4, d.val = k.val → (s.devs[d]).aiq = [] | _ => True)) :=
  ⟨by decide +kernel,
    by decide +kernel,
    by decide +kernel⟩

theorem witness_MicrocodeStores :
    ((let s : State := g0; let a : Agent := .core 1; let d : Fin 4 := 1;
      Permits s a .DEV_UC_ADDR d ∧ (let opens : Prop := (∃ k : Fin 8, a = .core k ∧ 4 ≤ k.val) ∧ s.on F.DEV_UCODE_CTL_LOCK d = false; ¬ opens)) ∧
    (let s : State := g0; let a : Agent := mc4; let d : Fin 4 := 1;
      Permits s a .DEV_UC_ADDR d ∧ (let opens : Prop := (∃ k : Fin 8, a = .core k ∧ 4 ≤ k.val) ∧ s.on F.DEV_UCODE_CTL_LOCK d = false; opens))) ∧
    (let s : State := dev 1 (fun d => { d with half := some 5 }) (uc 1 0x11FF 1); let a : Agent := mc4; let d : Fin 4 := 1;
      Permits s a .DEV_UC_DATA d ∧ (let opens : Prop := (∃ k : Fin 8, a = .core k ∧ 4 ≤ k.val) ∧ s.on F.DEV_UCODE_CTL_LOCK d = false;
      let x : Dev := s.devs[d]; let idx := s.fv F.DEV_UC_ADDR_INDEX d; let space := s.fv F.DEV_UC_ADDR_SPACE d;
      opens ∧ space = 1 ∧ (∃ lo ∈ x.half, 0x1000 ≤ idx ∧ idx < 0x1200))) ∧
    ((let s : State := uc 0 0x4000 1; let a : Agent := mc4; let d : Fin 4 := 1;
      Permits s a .DEV_UC_DATA d ∧ (let opens : Prop := (∃ k : Fin 8, a = .core k ∧ 4 ≤ k.val) ∧ s.on F.DEV_UCODE_CTL_LOCK d = false;
      let idx := s.fv F.DEV_UC_ADDR_INDEX d; let space := s.fv F.DEV_UC_ADDR_SPACE d; opens ∧ space = 0 ∧ 0x4000 ≤ idx ∧ idx < 0x4800)) ∧
    (let s : State := uc 2 192 1; let a : Agent := mc4; let d : Fin 4 := 1;
      Permits s a .DEV_UC_DATA d ∧ (let opens : Prop := (∃ k : Fin 8, a = .core k ∧ 4 ≤ k.val) ∧ s.on F.DEV_UCODE_CTL_LOCK d = false;
      let idx := s.fv F.DEV_UC_ADDR_INDEX d; let space := s.fv F.DEV_UC_ADDR_SPACE d; opens ∧ space = 2 ∧ 192 ≤ idx ∧ idx < 256)) ∧
    (let s : State := uc 3 63 0; let a : Agent := mc4; let d : Fin 4 := 1;
      Permits s a .DEV_UC_DATA d ∧ (let opens : Prop := (∃ k : Fin 8, a = .core k ∧ 4 ≤ k.val) ∧ s.on F.DEV_UCODE_CTL_LOCK d = false;
      let idx := s.fv F.DEV_UC_ADDR_INDEX d; let space := s.fv F.DEV_UC_ADDR_SPACE d; opens ∧ space = 3 ∧ idx < 64))) ∧
    ((let s : State := g0; let a : Agent := .pf; let d : Fin 4 := 1;
      Permits s a .DEV_UC_DATA d ∧ (let opens : Prop := (∃ k : Fin 8, a = .core k ∧ 4 ≤ k.val) ∧ s.on F.DEV_UCODE_CTL_LOCK d = false; ¬ opens)) ∧
    (let s : State := uc 0 0x3FFF 0; let a : Agent := mc4; let d : Fin 4 := 1;
      Permits s a .DEV_UC_DATA d ∧ (let opens : Prop := (∃ k : Fin 8, a = .core k ∧ 4 ≤ k.val) ∧ s.on F.DEV_UCODE_CTL_LOCK d = false;
      let idx := s.fv F.DEV_UC_ADDR_INDEX d; let space := s.fv F.DEV_UC_ADDR_SPACE d;
      opens ∧ ((space = 0 ∧ (idx < 0x4000 ∨ 0x4800 ≤ idx)) ∨ (space = 2 ∧ (idx < 192 ∨ 256 ≤ idx)) ∨ (space = 3 ∧ 64 ≤ idx)))) ∧
    (let s : State := uc 1 0x1000 1; let a : Agent := mc4; let d : Fin 4 := 1;
      Permits s a .DEV_UC_DATA d ∧ (let opens : Prop := (∃ k : Fin 8, a = .core k ∧ 4 ≤ k.val) ∧ s.on F.DEV_UCODE_CTL_LOCK d = false;
      let x : Dev := s.devs[d]; let space := s.fv F.DEV_UC_ADDR_SPACE d; opens ∧ space = 1 ∧ x.half = none))) ∧
    (let s : State := g0; let a : Agent := mc4; let d : Fin 4 := 1; Permits s a .DEV_UCODE_CTL d) :=
  ⟨holds (by letI := @decPermits; infer_instance) (by decide +kernel),
    holds (by letI := @decPermits; letI := @decMem; infer_instance) (by decide +kernel),
    holds (by letI := @decPermits; infer_instance) (by decide +kernel),
    holds (by letI := @decPermits; infer_instance) (by decide +kernel),
    holds (by letI := @decPermits; infer_instance) (by decide +kernel)⟩

theorem witness_WindowsAndSlots :
    ((let s : State := g0; let d : Fin 4 := 1; ((s.devs[d]).win ≠ none ∨ s.grains.slip ≠ none ∨ s.partsOf d = 0 ∨ s.job = none)) ∧
    (let s : State := ld (withJob jb (slotW 1001 0 g0)); let j : Job := jb; let sl : Slot := {n := 1001, win := 0, inspecting := false};
      s.job = some j ∧ (s.devs[(0 : Fin 4)]).win = none ∧ s.grains.slip = none ∧ s.partsOf 0 ≠ 0 ∧ (s.devs[(0 : Fin 4)]).slot = some sl ∧ sl.win < 8 * npgOf j.npgCode ∧ (let parts := s.partsOf 0; let out : Prop := sl.win < npgOf j.npgCode ∧ 2 ≤ sl.n ∧ sl.n - 2 < j.length ∧ j.complete ≤ sl.n - 2; out ∧ (sl.win ≠ 0 ∨ j.length ≤ sl.n) ∧ (out → s.grains.loaded0 &&& s.grains.loaded1 &&& parts = parts) ∧ (∀ m, (s.devs[(0 : Fin 4)]).ex.st ≠ .waitg m))) ∧
    (let s : State := withJob jb (slotW 3 0 g0); let j : Job := jb; let sl : Slot := {n := 3, win := 0, inspecting := false};
      s.job = some j ∧ (s.devs[(0 : Fin 4)]).win = none ∧ s.grains.slip = none ∧ s.partsOf 0 ≠ 0 ∧ (s.devs[(0 : Fin 4)]).slot = some sl ∧ sl.win < 8 * npgOf j.npgCode ∧ (let parts := s.partsOf 0; let out : Prop := sl.win < npgOf j.npgCode ∧ 2 ≤ sl.n ∧ sl.n - 2 < j.length ∧ j.complete ≤ sl.n - 2; out ∧ s.grains.loaded0 &&& s.grains.loaded1 &&& parts ≠ parts))) ∧
    (let s : State := withJob jb (slotW 3 2 (inWin (some 1) g0)); let d : Fin 4 := 0;
      (∃ w ∈ (s.devs[d]).win, (s.grains.unstored0 ||| s.grains.unstored1) &&& s.partsOf d = 0 ∧ s.grains.slip = none ∧ (∀ m, (s.devs[d]).ex.st ≠ .waitg m) ∧ (∀ n, w.outLine = some n → ∃ j, s.job = some j))) ∧
    (let s : State := g0; let d : Fin 4 := 0; (s.devs[d]).win = none) ∧
    ((let s : State := ub (inWin none g0); let d : Fin 4 := 0;
      (∃ w ∈ (s.devs[d]).win, (s.grains.unstored0 ||| s.grains.unstored1) &&& s.partsOf d ≠ 0)) ∧
    (let s : State := withJob { jb with nextSlot := 0 } g0; let d : Fin 4 := 0;
      (∃ j ∈ s.job, j.nextSlot = 0 ∧ d = 0 ∧ s.slotDone 0 j = true ∧ (s.devs[d]).restarting = none ∧ s.grains.slip = none ∧ (s.cores[devCore d]).run = .running ∧ (s.devs[d]).win = none))) ∧
    (let s : State := g0; let d : Fin 4 := 0; (s.job = none ∨ d ≠ 0 ∨ (s.devs[d]).win ≠ none ∨ s.grains.slip ≠ none ∨ (s.cores[devCore d]).run = .mcHalt)) :=
  ⟨by decide +kernel,
    holds (by letI := @decMem; letI := @decIsSome; letI := @decAllSome; infer_instance) (by decide +kernel),
    by decide +kernel,
    holds (by letI := @decMem; infer_instance) (by decide +kernel),
    by decide +kernel⟩

theorem witness_FifoRegisters :
    ((let s : State := eq 16 g0; let a : Agent := mc4; let p : Fin 4 := 2; let v : DWord := 0x0000000512345605;
      let c : Instr := .fifoRegisterWrite a p 64 v; let b : Band := band 8; let rest : List Band := List.replicate 15 (band 8);
      (c = .fifoRegisterWrite a p 64 v ∨ c = .bandPush a p 64 v) ∧ Permits s a .ENL_BAND_PUSH p ∧ s.heldPush = [] ∧ 16 ≤ (s.enl[p]).queue.length ∧ s.mayRead a .ENL_BAND_PUSH p = true ∧ (s.enl[p]).queue = b :: rest) ∧
    (let s : State := g0; let a : Agent := .pf; let p : Fin 4 := 2; let v : DWord := 0x0000000512345605; let c : Instr := .bandPush a p 64 v;
      (c = .fifoRegisterWrite a p 64 v ∨ c = .bandPush a p 64 v) ∧ Permits s a .ENL_BAND_PUSH p ∧ s.heldPush = [] ∧ (s.enl[p]).queue.length < 16 ∧ s.mayRead a .ENL_BAND_PUSH p = true ∧ (s.enl[p]).queue = [])) ∧
    (let s : State := { g0 with heldPush := [{ p := 2, band := band 8, by_ := mc4 }] }; let a : Agent := mc4; let p : Fin 4 := 2; let v : DWord := 5;
      let c : Instr := .fifoRegisterWrite a p 64 v; let b : Band := band 8;
      (c = .fifoRegisterWrite a p 64 v ∨ c = .bandPush a p 64 v) ∧ s.heldPush = [{ p := p, band := b, by_ := a }]) :=
  ⟨holds (by letI := @decPermits; infer_instance) (by decide +kernel),
    by decide +kernel⟩

theorem witness_Enlargers :
    (let s : State := exl 7 (eq 2 g0); let p : Fin 4 := 2; let b : Band := band 8; let rest : List Band := [band 8]; let l : Nat := 7;
      s.hst.staged = [] ∧ (let e : Enl := s.enl[p]; s.on F.ENL_STATUS_HALTED p = false ∧ e.cur = none ∧ e.queue = b :: rest ∧ e.expect = some l ∧ b.first ≠ l ∧ s.heldPush = [] ∧ s.job = none ∧ b.first < 2 ^ 32)) ∧
    (let s : State := eq 2 g0; let p : Fin 4 := 2; let b : Band := band 8; let rest : List Band := [band 8]; let u : State := feedU s p b rest;
      s.hst.staged = [] ∧ (let e : Enl := s.enl[p]; s.on F.ENL_STATUS_HALTED p = false ∧ e.cur = none ∧ e.queue = b :: rest ∧ e.expect = none ∧ s.heldPush = [] ∧ (((s.modEnl p fun e => { e with cur := some (b, b.first), started := false }).setQueue p rest).checkBand p b (s.bandNpg p)) = (none, u))) ∧
    (let s : State := fz F.ENL_STATUS_HALTED 1 (eq 2 g0) 2; let p : Fin 4 := 2; s.hst.staged = [] ∧ (let e : Enl := s.enl[p];
      (s.on F.ENL_STATUS_HALTED p = true ∨ (e.started = true ∧ e.cur ≠ none) ∨ (e.cur = none ∧ e.queue = [])))) ∧
    ((let s : State := eq 2 (fz F.GRN_GANG_MODE 1 g0); let a : Agent := .pf; let p : Fin 4 := 2;
      Permits s a .ENL_CTL p ∧ s.on F.ENL_STATUS_HALTED p = false ∧ s.job = none ∧ s.heldPush = []) ∧
    (let s : State := fz F.ENL_STATUS_HALTED 1 (eq 2 g0) 2; let a : Agent := mc4; let p : Fin 4 := 2;
      Permits s a .ENL_CTL p ∧ s.on F.ENL_STATUS_HALTED p = true)) :=
  ⟨by decide +kernel,
    holds (by letI := @decSnd; infer_instance) (by decide +kernel),
    by decide +kernel,
    holds (by letI := @decPermits; infer_instance) (by decide +kernel)⟩

end N15

end Sys2Proof.Tests
end

