-- ==== Sys2Proof/Tests/Witness16.lean ====
section
/-!
SUPPORT. Witnesses for the statements about the line, the timers and the holds: concrete states and operands that meet their hypotheses.
-/

set_option Elab.async false
set_option maxRecDepth 100000
set_option synthInstance.maxSize 2000

namespace Sys2Proof.Tests
open Sys2Proof.Machine Sys2Proof.Claims

namespace N16

def b0 : State := up (memOk (mode 4 w0))
def b3 : State := up (memOk w0)
def encOn (ch : Nat) (s : State) : State := fz F.SHT_ENC_CTL_ENABLE 1 s ch
def cnt (ch : Fin 4) (s : State) : State := { s with sht := { s.sht with enc := s.sht.enc.set ch { a := true, b := false, counted := true } } }
def lp (v : Int) (s : State) : State := s.setReg .SHT_LINEPOS (BitVec.ofInt 64 v)
def hi (v : Int) (s : State) : State := { s with sht := { s.sht with high := v } }
def src1 (s : State) : State := fz F.SHT_CTL_PACE 100 (fz F.SHT_CTL_SRC 1 s)
def jw : Job := { job0 with phase := .awaitStart, startMode := 1 }
def j1 : Job := { job0 with groups := job0.groups.set 2 { nextArm := 6, armed := some 5, nextFire := 5 }, claimed := 9, complete := 9, nextSlot := 12, fired := 5 }
def jm : Job := { j1 with missed := [5] }
def held (h : Held) (s : State) : State := { s with sht := { s.sht with held := some h } }
def hd : Held := { b := 20, onlyHold := false, timer := none, gated := [], waiting := [], endWaits := false, abrupt := false }
def req (c : Nat) : HoldReq := { b := 12, asked := 12, cause := c, cmd := none, dur := 0, abrupt := false, strip := none }
def reqs (l : List HoldReq) (s : State) : State := { s with sht := { s.sht with holdReqs := l } }
def grp (g : Nat) (s : State) : State := fz F.SHT_GRP_ENABLE 1 (fz F.SHT_GRP_WIRED_EN 1 (fz F.SHT_GRP_WIRED 3 (fz F.SHT_GRP_INBAND 1 (fz F.HP_LANE_STATUS_STATE 2 s 1) g) g) g) g
def tm (o tg : Nat) (s : State) : State := fz F.SHT_TIMER_OWNER o (fz F.SHT_TIMER_TARGET tg s 9) 9
def cam (c : Nat) (s : State) : State := fz F.CAM_CTL_ENABLE 1 (fz F.CAM_CAM_CFG_ENABLE 1 s c)
def nm (v : Nat) (s : State) : State := { s with mems := { s.mems with nmap := [(4, BitVec.ofNat 32 v)] } }
def carries (s : State) : State := nm (2^31 + 2 * 2^25 + 1 * 2^20 + 7) s
def cn (n : Nat) (g : Nat) (s : State) : State := fz F.SHT_GRP_ENABLE 1 s g
def wd (s : State) : State := { s with sht := { s.sht with wired := 0x30 } }
def tcl (o tg : Nat) : BitVec 32 := BitVec.ofNat 32 (o * 2^29 + tg * 2^22 + 5)
def hv (req res ab l : Nat) : DWord := BitVec.ofNat 64 (req * 2^63 + ab * 2^62 + res * 2^60 + l)
def scan (s : State) : State := fz F.SHT_SWATH_MODE 1 (fz F.SHT_SWATH_LEN 100 s)
def sw (n : Nat) (s : State) : State := { s with sht := { s.sht with swath := { number := n, armed := false } } }

theorem witness_EncodersAndPacer :
    ((let s : State := cnt 2 (encOn 2 (fz F.SHT_CTL_ENC_SEL 2 (b0.setReg .SHT_PITCH 0x180000000))); let ch : Fin 4 := 2; let a : Bool := false;
      let b : Bool := false; let e : EncSt := s.sht.enc[ch];
      s.active = true ∧ s.on F.SHT_ENC_CTL_ENABLE ch = true ∧ e.a ≠ a ∧ ((e.a ≠ a ∧ e.b = b) ∨ (e.a = a ∧ e.b ≠ b))) ∧
    (let s : State := b0; let ch : Fin 4 := 0; let a : Bool := true; let b : Bool := false; let e : EncSt := s.sht.enc[ch];
      s.active = true ∧ (s.on F.SHT_ENC_CTL_ENABLE ch = false ∨ (e.a = a ∧ e.b = b))) ∧
    (let s : State := encOn 0 b0; let ch : Fin 4 := 0; let a : Bool := true; let b : Bool := true; let e : EncSt := s.sht.enc[ch];
      s.active = true ∧ s.on F.SHT_ENC_CTL_ENABLE ch = true ∧ e.a ≠ a ∧ e.b ≠ b)) ∧
    ((let s : State := mode 1 w0; s.active = false) ∧
    (let s : State := lp 0x500000001 (src1 b0); s.active = true ∧ s.fv F.SHT_CTL_SRC = 1 ∧ s.fv F.SHT_CTL_PACE ≠ 0 ∧ s.job = none ∧ s.scanning = false) ∧
    (let s : State := mode 1 (src1 w0); (s.active = false ∨ s.fv F.SHT_CTL_SRC ≠ 1 ∨ s.fv F.SHT_CTL_PACE = 0))) ∧
    ((let s : State := b0; let pos : Int := 0x300000000; s.scanning = false ∧ s.job = none ∧ -(2 ^ 63) ≤ pos ∧ pos < 2 ^ 63 ∧ (let old := s.linepos / 2 ^ 32; let new := pos / 2 ^ 32; s.sht.high < new ∧ old < new)) ∧
    (let s : State := hi (-5) (lp (2^40) b0); let pos : Int := -0x300000000;
      s.scanning = false ∧ s.job = none ∧ -(2 ^ 63) ≤ pos ∧ pos < 2 ^ 63 ∧ (let old := s.linepos / 2 ^ 32; let new := pos / 2 ^ 32;
      (new ≤ s.sht.high ∨ new ≤ old)))) :=
  ⟨by decide +kernel,
    by decide +kernel,
    by decide +kernel⟩

theorem witness_LinePosition :
    ((let s : State := b0; let a : Agent := .pf; Permits s a .SHT_LINEPOS 0 ∧ s.scanning = false ∧ s.jobRunning = false) ∧
    (let s : State := withJob j1 b0; let a : Agent := .pf; Permits s a .SHT_LINEPOS 0 ∧ s.scanning = false ∧ s.jobRunning = true)) ∧
    (let s : State := hi 7 (lp (2^35) (fz F.SHT_ENC_CTL_IDX_ORG 1 b0)); let ch : Fin 4 := 0;
      s.active = true ∧ s.fv F.SHT_CTL_ENC_SEL = ch.val ∧ s.job = none ∧ s.fv F.SHT_CTL_SRC = 0 ∧ s.on F.SHT_ENC_CTL_IDX_ORG ch = true ∧ s.scanning = false) ∧
    (let s : State := withJob jw b0; let ch : Fin 4 := 0; s.active = true ∧ s.fv F.SHT_CTL_ENC_SEL = ch.val ∧ (∃ j ∈ s.job, j.phase = .awaitStart ∧ j.startMode = 1)) ∧
    ((let s : State := b0; let ch : Fin 4 := 0; s.active = true ∧ s.fv F.SHT_CTL_ENC_SEL = ch.val ∧ s.job = none ∧ (s.fv F.SHT_CTL_SRC ≠ 0 ∨ s.on F.SHT_ENC_CTL_IDX_ORG ch = false)) ∧
    (let s : State := b0; let ch : Fin 4 := 1; (s.active = false ∨ s.fv F.SHT_CTL_ENC_SEL ≠ ch.val)) ∧
    (let s : State := b0; let ch : Fin 4 := 0; s.mode = 4 ∧ s.fv F.SHT_CTL_SRC = 0 ∧ s.fv F.SHT_CTL_ENC_SEL = ch.val ∧ s.fv F.SHT_ENC_CTL_STALL_US ch ≠ 0 ∧ s.job = none)) ∧
    (let s : State := fz F.SHT_ENC_CTL_STALL_US 5 b3; let ch : Fin 4 := 0;
      (s.mode ≠ 4 ∨ s.fv F.SHT_CTL_SRC ≠ 0 ∨ s.fv F.SHT_CTL_ENC_SEL ≠ ch.val ∨ s.fv F.SHT_ENC_CTL_STALL_US ch = 0)) ∧
    (let s : State := withJob j1 (fz F.SHT_ENC_CTL_STALL_US 5 b0); let ch : Fin 4 := 0;
      s.mode = 4 ∧ s.fv F.SHT_CTL_SRC = 0 ∧ s.fv F.SHT_CTL_ENC_SEL = ch.val ∧ s.fv F.SHT_ENC_CTL_STALL_US ch ≠ 0 ∧ (∃ j ∈ s.job, True)) :=
  ⟨holds (by letI := @decPermits; infer_instance) (by decide +kernel),
    by decide +kernel,
    holds (by letI := @decMem; infer_instance) (by decide +kernel),
    by decide +kernel,
    by decide +kernel,
    holds (by letI := @decMem; infer_instance) (by decide +kernel)⟩

theorem witness_GroupFires :
    (let s : State := withJob j1 (grp 2 b0); let g : Fin 64 := 2; let r : Bool := true;
      (∃ j ∈ s.job, True) ∧ (∃ j ∈ s.job, (∃ n ∈ (j.groups[g]).armed, True)) ∧ (∃ j ∈ s.job, (∃ n ∈ (j.groups[g]).armed, s.barred n = false ∧ r = true))) ∧
    (let s : State := b0; s.job = none) ∧
    ((let s : State := held { hd with b := 4 } (mode 5 (withJob j1 b0)); let g : Fin 64 := 2;
      (∃ j ∈ s.job, (∃ n ∈ (j.groups[g]).armed, s.barred n = true))) ∧
    (let s : State := withJob j1 b0; let g : Fin 64 := 2; let r : Bool := false;
      (∃ j ∈ s.job, (∃ n ∈ (j.groups[g]).armed, s.barred n = false ∧ r = false))) ∧
    (let s : State := withJob job0 b0; let g : Fin 64 := 2; (∃ j ∈ s.job, (j.groups[g]).armed = none))) ∧
    (let s : State := withJob j1 (carries (grp 2 b0)); let j : Job := j1; s.job = some j) :=
  ⟨holds (by letI := @decMem; infer_instance) (by decide +kernel),
    by decide +kernel,
    holds (by letI := @decMem; infer_instance) (by decide +kernel),
    by decide +kernel⟩

theorem witness_Timers :
    ((let s : State := cam 2 (tm 2 2 b0); let t : Fin 64 := 9;
      (∃ c : Fin 4, s.active = true ∧ s.fv F.SHT_TIMER_OWNER t = 2 ∧ s.fv F.SHT_TIMER_TARGET t % 4 = c.val ∧ s.fv F.CAM_CAM_CFG_TRIG c = 0 ∧ s.on F.CAM_CTL_ENABLE = true ∧ s.on F.CAM_CAM_CFG_ENABLE c = true ∧ s.job = none) ∧ (s.active = false ∨ s.fv F.SHT_TIMER_OWNER t ≠ 3) ∧ s.active = true ∧ (s.active = false ∨ s.fv F.SHT_TIMER_OWNER t ≠ 4) ∧ (∃ o : Fin 16, s.active = true)) ∧
    (let s : State := tm 4 15 b0; let t : Fin 64 := 9; (s.active = false ∨ s.fv F.SHT_TIMER_OWNER t ≠ 2) ∧ (∃ o : Fin 16, s.active = true ∧ s.fv F.SHT_TIMER_OWNER t = 4 ∧ s.fv F.SHT_TIMER_TARGET t = o.val)) ∧
    (let s : State := tm 3 6 b0; let t : Fin 64 := 9; s.active = true ∧ s.fv F.SHT_TIMER_OWNER t = 3)) ∧
    ((let s : State := wd b0; let o : Fin 16 := 4; s.sht.wired.getLsbD o.val = true ∧ (s.sht.wiredEnd[o]).toNat ≤ s.devTime.toNat) ∧
    (let s : State := b0; let o : Fin 16 := 4; (s.sht.wired.getLsbD o.val = false ∨ s.devTime.toNat < (s.sht.wiredEnd[o]).toNat))) ∧
    ((let s : State := tm 1 2 (grp 2 b0); let a : Agent := .core 7; let t : Fin 64 := 9; let v : BitVec 32 := tcl 0 7;
      let c : Instr := .timerRelease a t v; Permits s a .SHT_TIMER t ∧ (c = .timerClaim a t v ∨ c = .timerRelease a t v) ∧ (let owner := (v.extractLsb' 29 3).toNat; let now := s.fv F.SHT_TIMER_OWNER t; owner = 0 ∧ (s.mode = 4 ∨ s.mode = 5) ∧ now = 1 ∧ s.on F.SHT_GRP_ENABLE (s.fv F.SHT_TIMER_TARGET t) = true)) ∧
    (let s : State := tm 1 7 b3; let a : Agent := .pf; let t : Fin 64 := 9; let v : BitVec 32 := tcl 1 6; let c : Instr := .timerClaim a t v;
      Permits s a .SHT_TIMER t ∧ (c = .timerClaim a t v ∨ c = .timerRelease a t v) ∧ (let owner := (v.extractLsb' 29 3).toNat;
      let target := (v.extractLsb' 22 6).toNat; let now := s.fv F.SHT_TIMER_OWNER t;
      owner ≠ 0 ∧ now ≠ 0 ∧ (now ≠ owner ∨ s.fv F.SHT_TIMER_TARGET t ≠ target))) ∧
    (let s : State := b3; let a : Agent := .pf; let t : Fin 64 := 9; let v : BitVec 32 := tcl 2 6; let c : Instr := .timerClaim a t v;
      Permits s a .SHT_TIMER t ∧ (c = .timerClaim a t v ∨ c = .timerRelease a t v) ∧ (let owner := (v.extractLsb' 29 3).toNat;
      let target := (v.extractLsb' 22 6).toNat; let now := s.fv F.SHT_TIMER_OWNER t;
      ((owner ≠ 0 ∧ (now = 0 ∨ (now = owner ∧ s.fv F.SHT_TIMER_TARGET t = target))) ∨ (owner = 0 ∧ s.mode ≠ 4 ∧ s.mode ≠ 5))))) :=
  ⟨by decide +kernel,
    by decide +kernel,
    holds (by letI := @decPermits; infer_instance) (by decide +kernel)⟩

theorem witness_HoldRegister :
    ((let s : State := withJob j1 b0; let a : Agent := .pf; let v : DWord := hv 1 0 0 900; let c : Instr := .holdResumeWrite a v;
      Permits s a .SHT_HOLD 0 ∧ (c = .holdReqWrite a v ∨ c = .holdResumeWrite a v) ∧ (let req := v.getLsbD 63; let resume := v.getLsbD 60;
      let line := v.toNat % 2 ^ 32; req = true ∧ resume = false ∧ s.mode = 4 ∧ s.sht.held = none ∧ s.sht.holdReqs = [] ∧ s.scanning = false ∧ (∃ j ∈ s.job, j.phase = .running ∧ j.fired < j.length ∧ j.abortAt = none ∧ s.nextBoundary ≤ line ∧ j.fired < line))) ∧
    (let s : State := withJob j1 (held hd (mode 5 b0)); let a : Agent := .pf; let v : DWord := hv 0 1 0 30; let c : Instr := .holdResumeWrite a v;
      Permits s a .SHT_HOLD 0 ∧ (c = .holdReqWrite a v ∨ c = .holdResumeWrite a v) ∧ (let req := v.getLsbD 63; let resume := v.getLsbD 60;
      req = false ∧ resume = true ∧ s.mode = 5 ∧ (∃ h ∈ s.sht.held, s.mapFault = none ∧ s.printHalted = false ∧ s.heldBack h = false) ∧ (∃ h ∈ s.sht.held, True))) ∧
    (let s : State := held hd (mode 5 b3); let a : Agent := .pf; let v : DWord := hv 1 0 0 30; let c : Instr := .holdReqWrite a v;
      Permits s a .SHT_HOLD 0 ∧ (c = .holdReqWrite a v ∨ c = .holdResumeWrite a v) ∧ (let req := v.getLsbD 63; let resume := v.getLsbD 60;
      req = true ∧ resume = false ∧ s.mode ≠ 4 ∧ s.mode = 5 ∧ (∃ h ∈ s.sht.held, h.b < 2 ^ 32)))) ∧
    (let s : State := ({ (withJob j1 (held hd (mode 5 b0))) with sec := { b0.sec with haltPending := 15 } }); let a : Agent := .pf;
      let v : DWord := hv 0 1 0 30; let c : Instr := .holdResumeWrite a v;
      Permits s a .SHT_HOLD 0 ∧ (c = .holdReqWrite a v ∨ c = .holdResumeWrite a v) ∧ (let req := v.getLsbD 63; let resume := v.getLsbD 60;
      req = false ∧ resume = true ∧ s.mode = 5 ∧ (∃ h ∈ s.sht.held, (s.mapFault ≠ none ∨ s.printHalted = true)))) ∧
    ((let s : State := b3; let a : Agent := .pf; let v : DWord := hv 1 0 0 20; let c : Instr := .holdReqWrite a v;
      Permits s a .SHT_HOLD 0 ∧ (c = .holdReqWrite a v ∨ c = .holdResumeWrite a v) ∧ (let req := v.getLsbD 63; let resume := v.getLsbD 60;
      req = true ∧ resume = false ∧ s.mode ≠ 4 ∧ s.mode ≠ 5)) ∧
    (let s : State := reqs [req 0, req 2, req 1, req 5] (withJob j1 b0); let a : Agent := .pf; let v : DWord := hv 0 1 0 30;
      let c : Instr := .holdResumeWrite a v; Permits s a .SHT_HOLD 0 ∧ (c = .holdReqWrite a v ∨ c = .holdResumeWrite a v) ∧ (let req := v.getLsbD 63;
      let resume := v.getLsbD 60; req = false ∧ resume = true ∧ s.mode = 4))) ∧
    (let s : State := withJob j1 (held { hd with gated := [2] } (fz F.ENL_STATUS_HALTED 1 (mode 5 b0) 2)); let a : Agent := .pf;
      let v : DWord := hv 0 1 0 30; let c : Instr := .holdResumeWrite a v;
      Permits s a .SHT_HOLD 0 ∧ (c = .holdReqWrite a v ∨ c = .holdResumeWrite a v) ∧ (let req := v.getLsbD 63; let resume := v.getLsbD 60;
      req = false ∧ resume = true ∧ s.mode = 5 ∧ (∃ h ∈ s.sht.held, s.mapFault = none ∧ s.printHalted = false ∧ s.heldBack h = true))) ∧
    (let s : State := withJob j1 (held { hd with timer := some 5 } (mode 5 b0));
      (∃ h ∈ s.sht.held, True) ∧ (∃ h ∈ s.sht.held, h.timer ≠ none ∧ s.mapFault = none ∧ s.printHalted = false ∧ s.heldBack h = false)) ∧
    (let s : State := b0; s.sht.held = none) ∧
    ((let s : State := held hd (mode 5 b0); (∃ h ∈ s.sht.held, h.timer = none)) ∧
    (let s : State := nm (2^31 + 31 * 2^20) (withJob j1 (held { hd with timer := some 5 } (mode 5 b0)));
      (∃ h ∈ s.sht.held, h.timer ≠ none ∧ (s.mapFault ≠ none ∨ s.printHalted = true))) ∧
    (let s : State := withJob j1 (held { hd with timer := some 5, gated := [2] } (fz F.ENL_STATUS_HALTED 1 (mode 5 b0) 2));
      (∃ h ∈ s.sht.held, h.timer ≠ none ∧ s.mapFault = none ∧ s.printHalted = false ∧ s.heldBack h = true))) :=
  ⟨holds (by letI := @decPermits; letI := @decMem; infer_instance) (by decide +kernel),
    holds (by letI := @decPermits; letI := @decMem; infer_instance) (by decide +kernel),
    holds (by letI := @decPermits; infer_instance) (by decide +kernel),
    holds (by letI := @decPermits; letI := @decMem; infer_instance) (by decide +kernel),
    holds (by letI := @decMem; infer_instance) (by decide +kernel),
    by decide +kernel,
    holds (by letI := @decMem; infer_instance) (by decide +kernel)⟩

theorem witness_NozzleMapAndSwaths :
    ((let s : State := b0; let a : Agent := .pf; Permits s a .SHT_NMAP_DATA 0 ∧ (let opens : Prop := s.mode = 3 ∨ s.mode = 5 ∨ s.mode = 6 ∨ s.mode = 7 ∨ s.mode = 11; ¬ opens)) ∧
    (let s : State := b3; let a : Agent := .pf; Permits s a .SHT_NMAP_DATA 0 ∧ (let opens : Prop := s.mode = 3 ∨ s.mode = 5 ∨ s.mode = 6 ∨ s.mode = 7 ∨ s.mode = 11; opens))) ∧
    (let s : State := withJob { job0 with fired := 100 } (lp (-5) (scan b0));
      (∃ j ∈ s.job, (s.mode = 4 ∨ s.mode = 5) ∧ s.fv F.SHT_SWATH_MODE = 1 ∧ s.swathLen ≠ 0 ∧ (s.sht.swath.number + 1) * s.swathLen ≤ j.fired ∧ (s.sht.swath.number + 1) * s.swathLen < j.length ∧ s.linepos < 0 ∧ s.on F.SHT_SWATH_GATE_EN = false) ∧ (∃ j ∈ s.job, True)) ∧
    (let s : State := b0; (s.job = none ∨ (s.mode ≠ 4 ∧ s.mode ≠ 5) ∨ s.scanning = false)) ∧
    (let s : State := withJob { job0 with fired := 299 } (sw 2 (lp (-5) (scan b0)));
      (∃ j ∈ s.job, j.fired < (s.sht.swath.number + 1) * s.swathLen)) :=
  ⟨holds (by letI := @decPermits; infer_instance) (by decide +kernel),
    holds (by letI := @decMem; infer_instance) (by decide +kernel),
    by decide +kernel,
    holds (by letI := @decMem; infer_instance) (by decide +kernel)⟩

end N16

end Sys2Proof.Tests
end

