-- ==== Sys2Proof/Tests/Witness17.lean ====
section
/-!
SUPPORT. Witnesses for the statements about the register accesses: concrete states and operands that meet their hypotheses.
-/

set_option Elab.async false
set_option maxRecDepth 100000
set_option synthInstance.maxSize 2000

namespace Sys2Proof.Tests
open Sys2Proof.Machine Sys2Proof.Claims

namespace N17

def r0 : State := up (memOk w0)

@[reducible] def decMeets (s : State) (a : Agent) (addr : Nat) (r : RegName) (i : Nat) (high : Bool) : Decidable (Meets s a addr r i high) :=
  decidable_of_iff (s.reaches a = true ∧ ∃ o ∈ agentAddr a addr, o < 0x1000000 ∧ regAt o = some (r, i, high)) Iff.rfl

/-- A 32-bit register, the halves of a 64-bit one, two 32-bit registers of one 64-bit access, and the refusals. -/
theorem witness_RegisterWrites :
    (Meets r0 .pf 32 .SYS_BOOT 0 false ∧ r0.mayWrite .pf .SYS_BOOT 0 = true ∧ .SYS_BOOT ∉ ownRule ∧ (regInfo .SYS_BOOT).width = 32) ∧
    (Meets r0 .pf 272 .SYS_PPS_STAMP 0 false ∧ Meets r0 .pf 276 .SYS_PPS_STAMP 0 true ∧ r0.mayWrite .pf .SYS_PPS_STAMP 0 = true ∧
      .SYS_PPS_STAMP ∉ ownRule ∧ (regInfo .SYS_PPS_STAMP).width = 64) ∧
    (Meets r0 .pf 10494208 .SHT_TIMER_CFG 0 false ∧ Meets r0 .pf 10494212 .SHT_TIMER_CFG 1 false ∧ (regInfo .SHT_TIMER_CFG).width = 32 ∧
      .SHT_TIMER_CFG ∉ ownRule) ∧
    (Meets r0 .jtag 32 .SYS_BOOT 0 false ∧ r0.mayWrite .jtag .SYS_BOOT 0 = false) ∧
    (r0.reaches .pf = true ∧ State.reset.reaches .pf = false) :=
  ⟨holds (by letI := @decMeets; letI := @decMem; infer_instance) (by decide +kernel),
    holds (by letI := @decMeets; letI := @decMem; infer_instance) (by decide +kernel),
    holds (by letI := @decMeets; letI := @decMem; infer_instance) (by decide +kernel)⟩

theorem witness_RefusedWrites :
    Claims.writes (.slipGo .jtag 5) = some (.jtag, .GRN_SLIP_CMD, 0) ∧ r0.reaches .jtag = true ∧ r0.mayWrite .jtag .GRN_SLIP_CMD 0 = false :=
  by decide +kernel

theorem fieldsAre_self {r : RegName} {w : DWord}
    (h : (List.range 64).all (fun k => (regInfo r).fields.any (fun f => decide (f.lo ≤ k ∧ k < f.lo + f.w)) || !w.getLsbD k) = true) :
    FieldsAre r w (fun _ k => w.getLsbD k) := by
  refine ⟨fun _ _ _ _ _ => rfl, fun k hk => ?_⟩
  rcases Nat.lt_or_ge k 64 with hl | hl
  · have hb := List.all_eq_true.mp h k (List.mem_range.mpr hl)
    rcases Bool.or_eq_true _ _ |>.mp hb with ha | ha
    · obtain ⟨f, hf, he⟩ := List.any_eq_true.mp ha
      have he := of_decide_eq_true he
      have := hk f hf
      omega
    · exact Bool.not_eq_true' _ |>.mp ha
  · exact BitVec.getLsbD_of_ge _ _ hl

theorem witness_RegisterReads :
    (Meets r0 .pf 32 .SYS_BOOT 0 false ∧ r0.mayRead .pf .SYS_BOOT 0 = true ∧ .SYS_BOOT ∉ overlaid ∧ (regInfo .SYS_BOOT).width = 32) ∧
    FieldsAre .SYS_BOOT (r0.reg .SYS_BOOT) (fun _ k => (r0.reg .SYS_BOOT).getLsbD k) ∧
    (Meets r0 .pf 272 .SYS_PPS_STAMP 0 false ∧ Meets r0 .pf 276 .SYS_PPS_STAMP 0 true ∧ r0.mayRead .pf .SYS_PPS_STAMP 0 = true ∧
      .SYS_PPS_STAMP ∉ overlaid ∧ (regInfo .SYS_PPS_STAMP).width = 64 ) ∧
    FieldsAre .SYS_PPS_STAMP (r0.reg .SYS_PPS_STAMP) (fun _ k => (r0.reg .SYS_PPS_STAMP).getLsbD k) ∧
    r0.reaches .pf = true :=
  ⟨holds (by letI := @decMeets; letI := @decMem; infer_instance) (by decide +kernel), fieldsAre_self (by decide +kernel),
    holds (by letI := @decMeets; letI := @decMem; infer_instance) (by decide +kernel), fieldsAre_self (by decide +kernel), by decide +kernel⟩

end N17

end Sys2Proof.Tests
end

