-- ==== Sys2Proof/Tests/Witness18.lean ====
section
/-!
SUPPORT. Witnesses for the statements about the head ports: concrete states and operands that meet their hypotheses.
-/

set_option Elab.async false
set_option maxRecDepth 100000
set_option synthInstance.maxSize 2000

namespace Sys2Proof.Tests
open Sys2Proof.Machine Sys2Proof.Claims

namespace N18

def b0 : State := up (memOk (mode 4 w0))
def nm (l : List (Nat × Nat)) (s : State) : State := { s with mems := { s.mems with nmap := l.map fun e => (e.1, BitVec.ofNat 32 e.2) } }
def ent (g p h n : Nat) : Nat := 2^31 + g * 2^25 + p * 2^20 + h * 2^14 + n
def mp : List (Nat × Nat) := [(0, ent 2 6 3 5), (1, ent 2 6 3 6), (2, ent 2 6 4 0)]
def ls (l st : Nat) (s : State) : State := fz F.HP_LANE_STATUS_STATE st s l
def ln (l : Fin 16) (f : Lane → Lane) (s : State) : State := s.modLane l f
def fr (q : Nat) : Frame := { seq := BitVec.ofNat 8 q, line := 3, head := 3, group := 2, first := 5, count := 2, sends := 1, stale := false }
def win (s : State) : State := ln 6 (fun x => { x with window := [fr 254, fr 255, fr 0], next := 1 }) s
def j1 : Job := { job0 with claimed := 9, complete := 9, nextSlot := 12, fired := 3 }
def sj (s : State) : State := withJob j1 (ls 6 2 (nm mp s))
def pair (l : Nat) (s : State) : State := fz F.HP_LANE_CTL_PAIR 1 s (l / 2 * 2)
def gens (l g : Nat) (s : State) : State := fz F.HP_LANE_CTL_GEN g s l
def tel (wr rd : Nat) (s : State) : State := fz F.HP_TEL_BASE_SIZE_LOG2 12 (fz F.HP_TEL_BASE_BASE 0x1C00000 (fz F.HP_TEL_PTR_WR wr (fz F.HP_TEL_PTR_RD rd (fz F.HP_TEL_BASE_ENABLE 1 s))))
def tl (s : State) : State := ls 6 2 (nm mp s)
def pb (n : Nat) : List Byte := (List.range n).map fun i => BitVec.ofNat 8 (i + 1)
def tcrc (ty hd : BitVec 8) (n : Nat) (p : List Byte) : BitVec 32 := BitVec.ofNat 32 (crc32c ([ty, hd, 0] ++ leBytes n 2 ++ [0, 0] ++ p))

theorem witness_LaneFrames :
    (let s : State := pair 6 (ls 7 2 (sj (win b0))); let l : Fin 16 := 7; let home := s.homeOf l; let x : Lane := s.lanes[home];
      (∃ j ∈ s.job, s.sendersOf home ≠ [] ∧ x.window.length < 8 ∧ (let p := s.nextFrame j home.val x.line x.frame;
      p.1 < j.claimed ∧ (∃ w_ ∈ (s.portFrames home.val)[p.2]?, True)))) ∧
    (let s : State := b0; let l : Fin 16 := 6; let home := s.homeOf l; let x : Lane := s.lanes[home];
      (s.job = none ∨ s.sendersOf home = [] ∨ 8 ≤ x.window.length)) ∧
    ((let s : State := withJob { j1 with claimed := 0 } (sj b0); let l : Fin 16 := 6; let home := s.homeOf l; let x : Lane := s.lanes[home];
      (∃ j ∈ s.job, s.sendersOf home ≠ [] ∧ x.window.length < 8 ∧ (let p := s.nextFrame j home.val x.line x.frame; j.claimed ≤ p.1))) ∧
    (let s : State := ls 6 2 (win b0); let l : Fin 16 := 6; let q : BitVec 8 := 254; let home := s.homeOf l; let x : Lane := s.lanes[home];
      (∃ f ∈ x.window.head?, let before := x.window.take 0; let rest := x.window.tail;
      s.laneState l = 2 ∧ x.window = before ++ f :: rest ∧ f.seq = q ∧ (∀ g ∈ before, g.seq ≠ q) ∧ s.job = none))) ∧
    (let s : State := b0; let l : Fin 16 := 6; let q : BitVec 8 := 255; let home := s.homeOf l; let x : Lane := s.lanes[home];
      (s.laneState l ≠ 2 ∨ (∀ f ∈ x.window, f.seq ≠ q))) ∧
    (let s : State := ls 6 2 (ln 6 (fun x => { x with timeouts := 6 }) (win b0)); let l : Fin 16 := 6; let home := s.homeOf l;
      let x : Lane := s.lanes[home]; s.laneState l = 2 ∧ (∃ f ∈ (x.window).head?, x.timeouts + 1 < 8) ∧ x.window ≠ []) ∧
    ((let s : State := b0; let l : Fin 16 := 6; let home := s.homeOf l; let x : Lane := s.lanes[home]; (s.laneState l ≠ 2 ∨ x.window = [])) ∧
    (let s : State := ls 6 2 (ln 6 (fun x => { x with timeouts := 7 }) (win b0)); let l : Fin 16 := 6; let home := s.homeOf l;
      let x : Lane := s.lanes[home]; s.laneState l = 2 ∧ x.window ≠ [] ∧ 8 ≤ x.timeouts + 1)) :=
  ⟨holds (by letI := @decMem; infer_instance) (by decide +kernel),
    by decide +kernel,
    holds (by letI := @decMem; infer_instance) (by decide +kernel),
    by decide +kernel,
    holds (by letI := @decMem; infer_instance) (by decide +kernel),
    by decide +kernel⟩

theorem witness_LaneStates :
    ((let s : State := ls 6 1 (ln 6 (fun x => { x with present := true, readyRx := 15, readyTx := 15, next := 5 }) b0); let l : Fin 16 := 6;
      (∃ c ∈ [Instr.lossOfSignal l, Instr.lossOfAlignment l, Instr.linkSilenceTimeout l], s.laneState l ≠ 2)) ∧
    (let s : State := ls 6 1 (ln 6 (fun x => { x with present := true, readyRx := 15, readyTx := 15, next := 5 }) b0); let l : Fin 16 := 6;
      s.laneState l ≠ 3) ∧
    (let s : State := ls 6 1 (ln 6 (fun x => { x with present := true, readyRx := 15, readyTx := 15, next := 5 }) b0); let l : Fin 16 := 6;
      (∃ st ∈ [(0 : BitVec 8), 2, 5], let ver : BitVec 8 := 1; let hs : BitVec 8 := 64; let mx : BitVec 16 := 16384;
      (let valid : Prop := ver = 1 ∧ st.toNat ≤ 2 ∧ 1 ≤ hs.toNat ∧ hs.toNat ≤ 64 ∧ 1 ≤ mx.toNat ∧ mx.toNat ≤ 16384; s.laneState l = 1 ∧ ¬ valid)))) ∧
    ((let s : State := ls 6 1 (ln 6 (fun x => { x with present := true, readyRx := 15, readyTx := 15, next := 5 }) b0); let l : Fin 16 := 6;
      let x : Lane := s.lanes[l]; (∃ st ∈ [(0 : BitVec 8), 2, 5], let ver : BitVec 8 := 1; let hs : BitVec 8 := 64; let mx : BitVec 16 := 16384;
      (let valid : Prop := ver = 1 ∧ st.toNat ≤ 2 ∧ 1 ≤ hs.toNat ∧ hs.toNat ≤ 64 ∧ 1 ≤ mx.toNat ∧ mx.toNat ≤ 16384;
      s.laneState l = 1 ∧ valid ∧ st = 2 ∧ 15 ≤ x.readyRx ∧ 15 ≤ x.readyTx))) ∧
    (let s : State := ls 6 1 (ln 6 (fun x => { x with present := true, readyRx := 15, readyTx := 15, next := 5 }) b0); s.active = true) ∧
    (let s : State := ls 6 1 (ln 6 (fun x => { x with present := true, readyRx := 15, readyTx := 15, next := 5 }) b0); let l : Fin 16 := 6;
      let x : Lane := s.lanes[l]; (∃ st ∈ [(0 : BitVec 8), 2, 5], let ver : BitVec 8 := 1; let hs : BitVec 8 := 64; let mx : BitVec 16 := 16384;
      (let valid : Prop := ver = 1 ∧ st.toNat ≤ 2 ∧ 1 ≤ hs.toNat ∧ hs.toNat ≤ 64 ∧ 1 ≤ mx.toNat ∧ mx.toNat ≤ 16384;
      s.laneState l = 1 ∧ valid ∧ (st ≠ 2 ∨ x.readyRx < 15 ∨ x.readyTx < 15))))) ∧
    ((let s : State := ls 6 1 (ln 6 (fun x => { x with present := true, readyRx := 15, readyTx := 15, next := 5 }) b0); let l : Fin 16 := 6;
      (s.active = false ∨ s.laneSet l = false ∨ s.laneState l = 2)) ∧
    (let s : State := ls 6 1 (ln 6 (fun x => { x with present := true, readyRx := 15, readyTx := 15, next := 5 }) b0); let l : Fin 16 := 6;
      s.laneState l ≠ 2) ∧
    (let s : State := ls 6 3 (gens 6 1 (ln 6 (fun x => { x with present := true }) b0)); let l : Fin 16 := 6; s.laneState l = 3)) ∧
    ((let s : State := ls 6 3 (gens 6 1 (ln 6 (fun x => { x with present := true }) b0)); let l : Fin 16 := 6;
      s.active = true ∧ s.laneSet l = true ∧ s.laneState l ≠ 2) ∧
    (let s : State := ls 6 3 (gens 6 1 (ln 6 (fun x => { x with present := true }) b0)); let l : Fin 16 := 6; let x : Lane := s.lanes[l];
      s.laneState l = 3 ∧ x.present = true ∧ s.laneSet l = true) ∧
    (let s : State := ls 6 3 (gens 6 1 (ln 6 (fun x => { x with present := true }) b0)); let l : Fin 16 := 6;
      (∃ st ∈ [(0 : BitVec 8), 2, 5], let ver : BitVec 8 := 1; let hs : BitVec 8 := 64; let mx : BitVec 16 := 16384; s.laneState l ≠ 1))) ∧
    ((let s : State := ls 6 2 b0; let l : Fin 16 := 6; s.laneState l = 2) ∧
    (let s : State := ls 6 2 b0; let l : Fin 16 := 6; (∃ c ∈ [Instr.lossOfSignal l, Instr.lossOfAlignment l, Instr.linkSilenceTimeout l], s.laneState l = 2 ∧ s.paired l = false)) ∧
    (let s : State := ls 6 3 (ln 6 (fun x => { x with present := true }) b0); let l : Fin 16 := 6; let x : Lane := s.lanes[l];
      s.laneState l = 3 ∧ (x.present = false ∨ s.laneSet l = false))) :=
  ⟨by decide +kernel,
    by decide +kernel,
    by decide +kernel,
    by decide +kernel,
    by decide +kernel⟩

theorem witness_Telemetry :
    (let s : State := tel 0 0 (tl b0); let l : Fin 16 := 6; let ty : BitVec 8 := 4; let hd : BitVec 8 := 3; let n : Nat := 2;
      let p : List Byte := pb 16; let crc : BitVec 32 := tcrc ty hd n p;
      let right : Prop := crc32c ([ty, hd, 0] ++ leBytes n 2 ++ [0, 0] ++ p) = crc.toNat;
      let named : Prop := ∃ e ∈ s.entries, e.port = s.laneHome l ∧ e.head = hd.toNat;
      let bad : Prop := ¬ right ∨ ¬ named ∨ 1024 < n ∨ n = 0 ∨ (ty = 2 ∧ n ≠ ((s.lanes[l]).maxnoz + 63) / 64) ∨ ty = 0 ∨ 4 < ty.toNat;
      let body := telHeader l ty.toNat hd.toNat n (s.devTime.toNat % 2 ^ 48) ++ p; let size := s.telSize; let wr := s.fv F.HP_TEL_PTR_WR;
      let rd := s.fv F.HP_TEL_PTR_RD; let full := body.length + (16 - body.length % 16) % 16; let pad := if size - wr < full then size - wr else 0;
      let fits : Prop := s.on F.HP_TEL_BASE_ENABLE = true ∧ s.telPlaced = true ∧ full + 16 ≤ size ∧ (wr + size - rd) % size + pad + full < size;
      s.laneState l = 2 ∧ ¬ bad ∧ p.length = 8 * n ∧ fits ∧ ty ≠ 1 ∧ pad = 0) ∧
    (let s : State := b0; let l : Fin 16 := 6; s.laneState l ≠ 2) ∧
    ((let s : State := tel 4080 1024 (tl b0); let l : Fin 16 := 6; let ty : BitVec 8 := 4; let hd : BitVec 8 := 3; let n : Nat := 2;
      let p : List Byte := pb 16; let crc : BitVec 32 := tcrc ty hd n p;
      let right : Prop := crc32c ([ty, hd, 0] ++ leBytes n 2 ++ [0, 0] ++ p) = crc.toNat;
      let named : Prop := ∃ e ∈ s.entries, e.port = s.laneHome l ∧ e.head = hd.toNat;
      let bad : Prop := ¬ right ∨ ¬ named ∨ 1024 < n ∨ n = 0 ∨ (ty = 2 ∧ n ≠ ((s.lanes[l]).maxnoz + 63) / 64) ∨ ty = 0 ∨ 4 < ty.toNat;
      let body := telHeader l ty.toNat hd.toNat n (s.devTime.toNat % 2 ^ 48) ++ p; let size := s.telSize; let wr := s.fv F.HP_TEL_PTR_WR;
      let rd := s.fv F.HP_TEL_PTR_RD; let full := body.length + (16 - body.length % 16) % 16; let pad := if size - wr < full then size - wr else 0;
      let fits : Prop := s.on F.HP_TEL_BASE_ENABLE = true ∧ s.telPlaced = true ∧ full + 16 ≤ size ∧ (wr + size - rd) % size + pad + full < size;
      s.laneState l = 2 ∧ ¬ bad ∧ p.length = 8 * n ∧ fits ∧ ty ≠ 1 ∧ pad ≠ 0) ∧
    (let s : State := tel 992 1024 (tl b0); let l : Fin 16 := 6; let ty : BitVec 8 := 3; let hd : BitVec 8 := 4; let n : Nat := 2;
      let p : List Byte := pb 16; let crc : BitVec 32 := tcrc ty hd n p;
      let right : Prop := crc32c ([ty, hd, 0] ++ leBytes n 2 ++ [0, 0] ++ p) = crc.toNat;
      let named : Prop := ∃ e ∈ s.entries, e.port = s.laneHome l ∧ e.head = hd.toNat;
      let bad : Prop := ¬ right ∨ ¬ named ∨ 1024 < n ∨ n = 0 ∨ (ty = 2 ∧ n ≠ ((s.lanes[l]).maxnoz + 63) / 64) ∨ ty = 0 ∨ 4 < ty.toNat;
      let body := telHeader l ty.toNat hd.toNat n (s.devTime.toNat % 2 ^ 48) ++ p; let size := s.telSize; let wr := s.fv F.HP_TEL_PTR_WR;
      let rd := s.fv F.HP_TEL_PTR_RD; let full := body.length + (16 - body.length % 16) % 16; let pad := if size - wr < full then size - wr else 0;
      let fits : Prop := s.on F.HP_TEL_BASE_ENABLE = true ∧ s.telPlaced = true ∧ full + 16 ≤ size ∧ (wr + size - rd) % size + pad + full < size;
      s.laneState l = 2 ∧ ¬ bad ∧ p.length = 8 * n ∧ ¬ fits) ∧
    (let s : State := tl b0; let l : Fin 16 := 6; let ty : BitVec 8 := 1; let hd : BitVec 8 := 3; let n : Nat := 2; let p : List Byte := pb 16;
      let crc : BitVec 32 := tcrc ty hd n p + 1; let right : Prop := crc32c ([ty, hd, 0] ++ leBytes n 2 ++ [0, 0] ++ p) = crc.toNat;
      let named : Prop := ∃ e ∈ s.entries, e.port = s.laneHome l ∧ e.head = hd.toNat;
      let bad : Prop := ¬ right ∨ ¬ named ∨ 1024 < n ∨ n = 0 ∨ (ty = 2 ∧ n ≠ ((s.lanes[l]).maxnoz + 63) / 64) ∨ ty = 0 ∨ 4 < ty.toNat;
      s.laneState l = 2 ∧ bad)) ∧
    ((let s : State := b0; let l : Fin 16 := 6; s.fv F.HP_LANE_CTL_TEL_TO l = 0) ∧
    (let s : State := fz F.HP_LANE_CTL_TEL_TO 3 b0 6; let l : Fin 16 := 6; s.fv F.HP_LANE_CTL_TEL_TO l ≠ 0)) ∧
    ((let s : State := tel 64 0 b0; let a : Agent := .pf; let v : DWord := 48; Permits s a .HP_TEL_PTR 0 ∧ (let size := s.telSize;
      let rd := s.fv F.HP_TEL_PTR_RD; let x := wField v F.HP_TEL_PTR_RD;
      let opens : Prop := x < size ∧ x % 16 = 0 ∧ (x + size - rd) % size ≤ (s.fv F.HP_TEL_PTR_WR + size - rd) % size; opens)) ∧
    (let s : State := tel 64 0 b0; let a : Agent := .pf; let v : DWord := BitVec.ofNat 64 (80 * 2 ^ 32);
      Permits s a .HP_TEL_PTR 0 ∧ (let size := s.telSize; let rd := s.fv F.HP_TEL_PTR_RD; let x := wField v F.HP_TEL_PTR_RD;
      let opens : Prop := x < size ∧ x % 16 = 0 ∧ (x + size - rd) % size ≤ (s.fv F.HP_TEL_PTR_WR + size - rd) % size; ¬ opens))) :=
  ⟨holds (by letI := @decMem; infer_instance) (by decide +kernel),
    by decide +kernel,
    holds (by letI := @decMem; infer_instance) (by decide +kernel),
    by decide +kernel,
    holds (by letI := @decPermits; infer_instance) (by decide +kernel)⟩

end N18

end Sys2Proof.Tests
end

