-- ==== Sys2Proof/Tests/Witness19.lean ====
section
/-!
SUPPORT. Witnesses for the statements about the fabric and the cameras: concrete states and operands that meet their hypotheses.
-/

set_option Elab.async false
set_option maxRecDepth 100000
set_option synthInstance.maxSize 2000

namespace Sys2Proof.Tests
open Sys2Proof.Machine Sys2Proof.Claims

namespace N19

def b0 : State := up (memOk (mode 4 w0))
def cf (n : Fin 9) : CellConf := { entries := List.replicate n.val 0, len := n, l := [3, 5], c0 := 0, c1 := 1, gs := 0, mac := 1, initDA := 0x11, initDB := 0x22, initOUT := 0x33, initH := 0x44, retDA := true, retDB := false, retOUT := true, retH := false }
def im0 (c : Fin 256) (n : Fin 9) : RegionImage := { region := 2, clock := 0, cells := [(c, cf n)], clusterTracks := [], globalTracks := [], macs := [(1, { signed := true, shift := 0, cascade := true, retain := true }), (2, { signed := true, shift := 0, cascade := true, retain := false })], pins := [] }
def cfo (n : Nat) (o : CellOp) : CellConf := { cf 3 with entries := [1, 2, entryWord n o] }
def imo (c : Fin 256) (x : CellConf) : RegionImage := { im0 c 3 with cells := [(c, x)] }
def fabSt (r : Fin 16) (f : Region → Region) (s : State) : State := { s with fab := s.fab.set r (f s.fab[r]) }
def cell0 (fl : Bool) (da db : BitVec 16) : CellSt := { da := da, db := db, out := 0xBEEF, h := 0x0F0F, fl := fl, ep := 2, cyc := 9, hist := [(8, 0xBEEF)] }
def fb (r : Fin 16) (c : Fin 256) (fl : Bool) (da db : BitVec 16) (s : State) : State := fabSt r (fun x => { x with active := some (im0 c 3), cells := [(c.val, cell0 fl da db)], macs := [(1, { acc := 5, hist := [] })] }) s
def op (r : Fin 16) (c : Fin 256) (sa sb : Fin 16) (dst : Fin 4) (setf : Bool) (imm : BitVec 16) : CellOp := { region := r, cell := c, sa := sa, sb := sb, dst := dst, setf := setf, imm := imm }
def ri (v : Nat) : DWord := BitVec.ofNat 64 v
def img2 : RegionImage := im0 7 2
def po (n : Nat) (s : State) : State := fz F.FAB_PIN_OWNER_OWNER n s
def sh (s : State) : State := fz F.FAB_REGION_CTL_SHADOW_OK 1 (fabSt 2 (fun x => { x with shadow := some img2, hs := [(1, true), (4, false), (0, true), (7, true)] }) (fb 2 7 true 1 2 s)) 2
def camOn (k : Nat) (s : State) : State := fz F.CAM_CTL_ENABLE 1 (fz F.CAM_CAM_CFG_ENABLE 1 (fz F.CAM_CAM_CFG_CORR_BYP 1 s k) k)
def due (k : Fin 4) (t : Nat) (s : State) : State := { s with cam := { s.cam with due := s.cam.due.set k [9, t] } }
def ring (k : Fin 4) (l : List CamLine) (s : State) : State := { s with cam := { s.cam with rings := s.cam.rings.set k l } }
def pl (n : Nat) : List (List (BitVec 16)) := [(List.range n).map fun i => BitVec.ofNat 16 (i * 3)]
def inj : Job := { job0 with inspect := true }
def mv (s : State) : State := { s with cam := { s.cam with regTable := [(1, 65536), (1, 131072)], moverLine := 4 } }
def mvs : State := mv (camOn 1 (ring 1 [{ tag := 5, at_ := 0, sizes := [4] }, { tag := 7, at_ := 0, sizes := [4] }, { tag := 9, at_ := 0, sizes := [4] }] b0))
def corr1 (v : DWord) (s : State) : State := s

theorem witness_FabricOperations :
    ((let o : CellOp := op 2 7 0 1 1 true 0x1234; let conf : CellConf := cfo 0 o; let im : RegionImage := imo 7 conf;
      let s : State := fabSt 2 (fun x => { x with active := some im }) (fb 2 7 true 0xA5C3 0x0013 b0);
      CellRuns s o im conf ∧ (let x := (s.fab[o.region]).cell o.cell; let a := s.fabSource o.region o.cell im conf x o.imm o.sa;
      let b := s.fabSource o.region o.cell im conf x o.imm o.sb; let k := b.toNat % 16; (let op := 0; let c := Instr.fabPass o; let v := a;
      let fl := some (decide (a ≠ 0)); (op, c, v, fl) ∈ [(0, Instr.fabPass o, a, some (decide (a ≠ 0))), (1, .fabAdd o, a + b, some (decide (2 ^ 16 ≤ a.toNat + b.toNat))), (2, .fabSub o, a - b, some (decide (b.toNat ≤ a.toNat))), (3, .fabAnd o, a &&& b, some (decide (a &&& b ≠ 0))), (4, .fabOr o, a ||| b, some (decide (a ||| b ≠ 0))), (5, .fabXor o, a ^^^ b, some (decide (a ^^^ b ≠ 0))), (6, .fabAndn o, a &&& ~~~b, some (decide (a &&& ~~~b ≠ 0))), (7, .fabShl o, a <<< k, if k = 0 then none else some (a.getLsbD (16 - k))), (8, .fabShr o, a >>> k, if k = 0 then none else some (a.getLsbD (k - 1))), (9, .fabSar o, a.sshiftRight k, if k = 0 then none else some (a.getLsbD (k - 1))), (11, .fabMux o, if x.fl then a else b, some x.fl), (12, .fabLtu o, a, some (decide (a.toNat < b.toNat))), (13, .fabEq o, a, some (decide (a = b))), (14, .fabMin o, if a.toNat < b.toNat then a else b, some (decide (a.toNat < b.toNat))), (15, .fabMax o, if a.toNat < b.toNat then b else a, some (decide (a.toNat < b.toNat))), (16, .fabCnt o, if a = o.imm then 0 else a + 1, some (decide (a = o.imm))), (18, .fabBit o, (a >>> k) &&& 1, some (a.getLsbD k))] ∧ entryOf s o conf = entryWord op o) ∧ o.imm.toNat % 4 < 3 ∧ (let c := Instr.fabAdd o; let op := 1; (c, op) ∈ ([.fabPass o, .fabAdd o, .fabSub o, .fabAnd o, .fabOr o, .fabXor o, .fabAndn o, .fabShl o, .fabShr o, .fabSar o, .fabRot o, .fabMux o, .fabLtu o, .fabEq o, .fabMin o, .fabMax o, .fabCnt o, .fabEdge o, .fabBit o, .fabHspop o, .fabMacw o, .fabSkip o, .fabIooe o] : List Instr).zipIdx ∧ entryOf s o conf ≠ entryWord op o) ∧ o.sa = 0)) ∧
    (let o : CellOp := op 2 7 1 0 2 true 1; let conf : CellConf := cfo 10 o; let im : RegionImage := imo 7 conf;
      let s : State := fabSt 2 (fun x => { x with active := some im }) (fb 2 7 false 0xA5C3 0x0013 b0);
      CellRuns s o im conf ∧ entryOf s o conf = entryWord 10 o ∧ o.sa = 1) ∧
    (let o : CellOp := op 2 7 3 1 1 true 0x8011; let conf : CellConf := cfo 17 o; let im : RegionImage := imo 7 conf;
      let s : State := fabSt 2 (fun x => { x with active := some im }) (fb 2 7 true 0x8000 0xF b0);
      CellRuns s o im conf ∧ o.imm.toNat % 4 < 3 ∧ entryOf s o conf = entryWord 17 o ∧ o.sa = 3)) ∧
    (let o : CellOp := op 2 7 2 3 0 false 0x13; let conf : CellConf := cfo 0 o; let im : RegionImage := imo 7 conf;
      let s : State := fabSt 2 (fun x => { x with active := some im }) (fb 2 7 true 0x8000 0x8000 b0); CellRuns s o im conf ∧ o.sa = 2) ∧
    (let s : State := b0; let o : CellOp := op 2 7 1 0 2 true 1; ((s.fab[o.region]).active = none ∨ (s.fab[o.region]).stopped = true)) :=
  ⟨holds (by letI := @decRuns; infer_instance) (by decide +kernel),
    holds (by letI := @decRuns; infer_instance) (by decide +kernel),
    by decide +kernel⟩

theorem witness_FabricEffects :
    ((let o : CellOp := op 2 2 0 1 0 true 0x0; let conf : CellConf := cfo 19 o; let im : RegionImage := imo 2 conf;
      let s : State := fabSt 2 (fun x => { x with active := some im }) (fabSt 2 (fun x => { x with hs := [] }) (fb 2 2 false 1 2 b0));
      CellRuns s o im conf ∧ (let g := s.fab[o.region]; entryOf s o conf = entryWord 19 o ∧ o.cell.val = 2 ∧ (o.cell.val ≠ 2 ∨ g.hs = []))) ∧
    (let o : CellOp := op 2 2 0 1 0 true 0x0; let conf : CellConf := cfo 20 o; let im : RegionImage := imo 2 conf;
      let s : State := fabSt 2 (fun x => { x with active := some im }) (fabSt 2 (fun x => { x with hs := [] }) (fb 2 2 false 1 2 b0));
      CellRuns s o im conf ∧ entryOf s o conf = entryWord 20 o) ∧
    (let o : CellOp := op 2 2 0 1 0 true 0x0; let conf : CellConf := cfo 21 o; let im : RegionImage := imo 2 conf;
      let s : State := fabSt 2 (fun x => { x with active := some im }) (fabSt 2 (fun x => { x with hs := [] }) (fb 2 2 false 1 2 b0));
      CellRuns s o im conf ∧ entryOf s o conf = entryWord 21 o)) ∧
    (let o : CellOp := op 2 2 0 1 0 true 0x0; let conf : CellConf := cfo 22 o; let im : RegionImage := imo 2 conf;
      let s : State := fabSt 2 (fun x => { x with active := some im }) (fabSt 2 (fun x => { x with hs := [] }) (fb 2 2 false 1 2 b0));
      CellRuns s o im conf ∧ entryOf s o conf = entryWord 22 o) ∧
    (let o : CellOp := op 2 2 0 1 1 true 0x0; let conf : CellConf := cfo 19 o; let im : RegionImage := imo 2 conf;
      let s : State := fabSt 2 (fun x => { x with active := some im }) (fabSt 2 (fun x => { x with hs := [(77, true), (2, false)] }) (fb 2 2 false 1 2 b0)); CellRuns s o im conf ∧ (let g := s.fab[o.region]; entryOf s o conf = entryWord 19 o ∧ o.cell.val = 2 ∧ (∃ w ∈ (g.hs).head?, True))) :=
  ⟨holds (by letI := @decRuns; infer_instance) (by decide +kernel),
    holds (by letI := @decRuns; infer_instance) (by decide +kernel),
    holds (by letI := @decMem; letI := @decRuns; infer_instance) (by decide +kernel)⟩

theorem witness_RegionExchange :
    (let s : State := sh b0; let a : Agent := .pf; let r : Fin 16 := 2; let v : DWord := BitVec.allOnes 64;
      Permits s a .FAB_REGION_CTL r ∧ (let ok := s.on F.FAB_REGION_CTL_SHADOW_OK r; let swap := decide (wField v F.FAB_REGION_CTL_SWAP = 1);
      ok = true ∧ swap = true ∧ wField v F.FAB_REGION_CTL_IMMED = 1 ∧ (∃ im ∈ (s.fab[r]).shadow, True))) ∧
    ((let s : State := b0; let a : Agent := .pf; let r : Fin 16 := 2; let v : DWord := BitVec.allOnes 64;
      Permits s a .FAB_REGION_CTL r ∧ (let ok := s.on F.FAB_REGION_CTL_SHADOW_OK r; let swap := decide (wField v F.FAB_REGION_CTL_SWAP = 1);
      (ok = false ∨ swap = false))) ∧
    (let s : State := sh b0; let a : Agent := .pf; let r : Fin 16 := 2; let v : DWord := ri (5 * 2 ^ 32 + 2);
      Permits s a .FAB_REGION_CTL r ∧ (let ok := s.on F.FAB_REGION_CTL_SHADOW_OK r; let swap := decide (wField v F.FAB_REGION_CTL_SWAP = 1);
      ok = true ∧ swap = true ∧ wField v F.FAB_REGION_CTL_IMMED = 0))) ∧
    (let s : State := fz F.FAB_REGION_CTL_SWAP 1 (sh b0) 2; let r : Fin 16 := 2;
      let due := s.on F.FAB_REGION_CTL_SWAP r && s.switchPoint r (s.fv F.FAB_REGION_CTL_AT_LINE r); due = true ∧ (∃ im ∈ (s.fab[r]).shadow, True)) ∧
    (let s : State := b0; let r : Fin 16 := 2; let due := s.on F.FAB_REGION_CTL_SWAP r && s.switchPoint r (s.fv F.FAB_REGION_CTL_AT_LINE r);
      (due = false ∨ (s.fab[r]).shadow = none)) :=
  ⟨holds (by letI := @decPermits; letI := @decMem; infer_instance) (by decide +kernel),
    holds (by letI := @decPermits; infer_instance) (by decide +kernel),
    holds (by letI := @decMem; infer_instance) (by decide +kernel),
    by decide +kernel⟩

theorem witness_SharedPins :
    (let s : State := po 2 (fz F.FAB_PIN_OWNER_CLAIM_REJ 1 b0); let a : Agent := .pf; let v : BitVec 32 := 5; let c : Instr := .pinOwnerRelease a v;
      Permits s a .FAB_PIN_OWNER 0 ∧ (c = .pinOwnerClaim a v ∨ c = .pinOwnerRelease a v) ∧ (let o := wField (v.setWidth 64) F.FAB_PIN_OWNER_OWNER;
      let now := s.fv F.FAB_PIN_OWNER_OWNER; (o = 1 ∨ o = 2) ∧ now ≠ 0 ∧ now ≠ o)) ∧
    (let s : State := b0; let a : Agent := .pf; let v : BitVec 32 := 1; let c : Instr := .pinOwnerClaim a v;
      Permits s a .FAB_PIN_OWNER 0 ∧ (c = .pinOwnerClaim a v ∨ c = .pinOwnerRelease a v) ∧ (let o := wField (v.setWidth 64) F.FAB_PIN_OWNER_OWNER;
      let now := s.fv F.FAB_PIN_OWNER_OWNER; (o = 0 ∨ ((o = 1 ∨ o = 2) ∧ (now = 0 ∨ now = o))))) ∧
    (let s : State := po 2 b0; let a : Agent := .pf; let v : BitVec 32 := 3; let c : Instr := .pinOwnerRelease a v;
      Permits s a .FAB_PIN_OWNER 0 ∧ (c = .pinOwnerClaim a v ∨ c = .pinOwnerRelease a v) ∧ (let o := wField (v.setWidth 64) F.FAB_PIN_OWNER_OWNER;
      o = 3)) :=
  holds (by letI := @decPermits; infer_instance) (by decide +kernel)

theorem witness_CameraLoop :
    ((let s : State := due 1 4 (camOn 1 b0); let k : Fin 4 := 1; let tag : Nat := 4; let planes : List (List (BitVec 16)) := pl 6;
      let free := decide (s.fv F.CAM_CAM_CFG_TRIG k = 2); let on : Prop := s.on F.CAM_CTL_ENABLE = true ∧ s.on F.CAM_CAM_CFG_ENABLE k = true;
      let held := ((s.cam.rings[k]).map CamLine.bytes).foldl (· + ·) 0; let size := 2 * (planes.map (fun p => p.length)).foldl (· + ·) 0;
      on ∧ s.on F.CAM_CAM_CFG_CORR_BYP k = true ∧ (free = true ∨ tag ∈ s.cam.due[k]) ∧ held + size ≤ 2 ^ 20 ∧ tag ∈ s.cam.due[k]) ∧
    (let s : State := b0; let k : Fin 4 := 1; let tag : Nat := 4; let free := decide (s.fv F.CAM_CAM_CFG_TRIG k = 2);
      let on : Prop := s.on F.CAM_CTL_ENABLE = true ∧ s.on F.CAM_CAM_CFG_ENABLE k = true;
      (¬ on ∨ (free = false ∧ tag ∉ s.cam.due[k])) ∧ tag ∉ s.cam.due[k]) ∧
    (let s : State := ring 1 [{ tag := 2, at_ := 0, sizes := [524285] }] (due 1 4 (camOn 1 b0)); let k : Fin 4 := 1; let tag : Nat := 4;
      let planes : List (List (BitVec 16)) := pl 6; let free := decide (s.fv F.CAM_CAM_CFG_TRIG k = 2);
      let on : Prop := s.on F.CAM_CTL_ENABLE = true ∧ s.on F.CAM_CAM_CFG_ENABLE k = true;
      let held := ((s.cam.rings[k]).map CamLine.bytes).foldl (· + ·) 0; let size := 2 * (planes.map (fun p => p.length)).foldl (· + ·) 0;
      on ∧ s.on F.CAM_CAM_CFG_CORR_BYP k = true ∧ (free = true ∨ tag ∈ s.cam.due[k]) ∧ 2 ^ 20 < held + size)) ∧
    (let s : State := fz F.CAM_CAM_CFG_FMT 0 b0 1; let k : Fin 4 := 1; let fmt : Nat := 0; let bits : Nat := 8;
      (fmt, bits) ∈ [(0, 8), (1, 10), (2, 12), (3, 16), (4, 8), (5, 10)] ∧ s.fv F.CAM_CAM_CFG_FMT k = fmt) ∧
    ((let s : State := b0; let a : Agent := .pf; let v : DWord := ri (2^63 + 5);
      Permits s a .CAM_TSWAP 0 ∧ wField v F.CAM_TSWAP_REJ = 0 ∧ (let pending := s.on F.CAM_TSWAP_REQ;
      wField v F.CAM_TSWAP_REQ = 1 ∧ (pending = true ∨ s.on F.CAM_CTL_LOOP_EN = false) ∧ pending = false)) ∧
    (let s : State := b0; let a : Agent := .pf; let v : DWord := ri 9;
      Permits s a .CAM_TSWAP 0 ∧ wField v F.CAM_TSWAP_REJ = 0 ∧ wField v F.CAM_TSWAP_REQ = 0) ∧
    (let s : State := fz F.CAM_CTL_LOOP_EN 1 b0; let a : Agent := .pf; let v : DWord := ri (2^63 + 5);
      Permits s a .CAM_TSWAP 0 ∧ wField v F.CAM_TSWAP_REJ = 0 ∧ (let pending := s.on F.CAM_TSWAP_REQ;
      wField v F.CAM_TSWAP_REQ = 1 ∧ pending = false ∧ s.on F.CAM_CTL_LOOP_EN = true))) :=
  ⟨by decide +kernel,
    by decide +kernel,
    holds (by letI := @decPermits; infer_instance) (by decide +kernel)⟩

theorem witness_CameraMover :
    (let s : State := withJob inj mvs; let tag : Nat := 7; s.on F.CAM_CTL_ENABLE = true ∧ (∃ j ∈ s.job, j.inspect = true ∧ s.cam.regTable ≠ [] ∧ s.tagReady tag = true ∧ s.moverRoom = true)) ∧
    (let s : State := b0; let tag : Nat := 5; (s.on F.CAM_CTL_ENABLE = false ∨ s.job = none ∨ s.cam.regTable = [] ∨ s.tagReady tag = false ∨ s.moverRoom = false ∨ tag ∈ s.cam.dropped)) :=
  ⟨holds (by letI := @decMem; infer_instance) (by decide +kernel),
    by decide +kernel⟩

end N19

end Sys2Proof.Tests
end

