-- ==== Sys2Proof/Tests/Witness20.lean ====
section
/-!
SUPPORT. Witnesses for the statements about the host rings and sessions: concrete states and operands that meet their hypotheses.
-/

set_option Elab.async false
set_option maxRecDepth 100000
set_option synthInstance.maxSize 2000

namespace Sys2Proof.Tests
open Sys2Proof.Machine Sys2Proof.Claims

namespace N20

def b0 : State := up (memOk w0)
def sq (f : Nat) (n sz cq : Nat) (s : State) : State := let i := 64 * f + n; fz F.HST_SQ_CFG_ENABLED 1 (fz F.HST_SQ_CFG_ENABLE 1 (fz F.HST_SQ_CFG_SIZE_M1 sz (fz F.HST_SQ_CFG_CQ cq s i) i) i) i
def cq (f : Nat) (n sz : Nat) (s : State) : State := let i := 64 * f + n; fz F.HST_CQ_CFG_ENABLED 1 (fz F.HST_CQ_CFG_ENABLE 1 (fz F.HST_CQ_CFG_SIZE_M1 sz (fz F.HST_CQ_CFG_VECTOR 3 s i) i) i) i
def eqr (f : Nat) (sz : Nat) (s : State) : State := let i := f; fz F.HST_EQ_CFG_ENABLED 1 (fz F.HST_EQ_CFG_ENABLE 1 (fz F.HST_EQ_CFG_SIZE_M1 sz (fz F.HST_EQ_CFG_VECTOR 3 s i) i) i) i
def ent (n : Nat) : Entry := { acc := n, event := false, code := BitVec.ofNat 32 n, status := 0, sqId := 1, sqHead := 0, result := 5, waitUs := 0, time := 0, noIrq := false }
def slots (k : Nat) (l : List Entry) (w : List Entry) (s : State) : State := s.setRing k { s.ring k with slots := l.map (fun e => (e, true)), waiting := w }
def c1 (s : State) : State := fz F.HST_CQ_PTR_INDEX 3 (slots (129 * 2 + 64 + 5) [ent 1, ent 2, ent 3] [] (cq 2 5 15 s)) (64 * 2 + 5)
def c15 (s : State) : State := fz F.HST_CQ_PTR_INDEX 15 (slots (129 * 2 + 64 + 5) ((List.range 15).map ent) [ent 77] (cq 2 5 15 s)) (64 * 2 + 5)
def e1 (s : State) : State := fz F.HST_EQ_PTR_INDEX 2 (slots (129 * 2 + 128) [ent 1, ent 2] [] (eqr 2 15 s)) 2
def um (f : Fin 8) (s : State) : State := s.modFn f fun x => { x with masked := 0 }
def pv (f : Fin 8) (v : BitVec 64) (s : State) : State := s.modFn f fun x => { x with pendingVec := v }
def errd (f : Nat) (s : State) : State := fz F.HST_FN_ERR_VALID 1 s f
def rcfg (en cqn sz : Nat) : DWord := BitVec.ofNat 64 (en * 2^63 + cqn * 2^32 + sz)
def acc (src : Src) (id : BitVec 32) (dl : BitVec 32) : Accepted := { cmd := { cmd0 with src := src, cmdId := id, bell := 0 - 5000 }, desc := { desc0 with deadline := dl } }
def accs (l : List Accepted) (s : State) : State := { s with hst := { s.hst with accepted := l } }
def owe (k : Nat) (l : List Nat) (s : State) : State := s.setRing k { s.ring k with owed := l }
def w512 (d : Desc) : BitVec 512 := (d.p1 ++ d.hostAddr ++ d.p0 ++ d.length ++ d.offset ++ d.reel ++ d.deadline ++ d.cmdId ++ d.byte3 ++ d.priority ++ d.flags ++ d.opcode).setWidth 512
def ds (n : Nat) : List (BitVec 512) := (List.range n).map fun i => w512 { desc0 with cmdId := BitVec.ofNat 32 i }
def hd (kind n : Nat) : BitVec 128 := BitVec.ofNat 128 (0x4B47 + 2 ^ 16 + kind * 2 ^ 24 + n * 2 ^ 32)
def bindBody (fn m : Nat) : List Byte := leBytes fn 8 ++ leBytes m 8
def sub2 (d : Desc) (data : List Byte) : List Byte := leBytes (w512 d).toNat 64 ++ data
def tl (i d h : Nat) (s : State) : State := fz F.HST_SQ_PTR_DB_INDEX d (fz F.HST_SQ_PTR_INDEX h s i) i
def full : State := tl (64 * 2 + 7) 3 14 (sq 2 7 15 5 (c1 b0))
def blg (f : Fin 8) (n : Nat) (c : Nat) (s : State) : State := s.modFn f fun x => { x with backlog := (List.range n).map fun i => { ent i with code := BitVec.ofNat 32 (if i = 4 then c else 9), event := true } }
def sess (k : Fin 8) (x : Session) (s : State) : State := s.setSession k (some x)
def ses0 : Session := { port := 1, fn := some 2, mask := 5, owed := [7, 8], accepted := 4, evSeq := 2, seqOut := 6 }
def cr (src : Src) : CmdRef := { cmd0 with src := src, acc := 8, waitUs := 0x2000000 }
def msk (s : State) : State := fz F.HST_EVT_MASK_MASK 0xFFFFFFFF (fz F.HST_EVT_MASK_MASK 0xFFFFFF s 2) 3
def eth (s : State) : State := fz F.HST_CTL_ETH_EN 1 s
def lc (n : Nat) (s : State) : State := { s with fuses := { s.fuses with lcOpen := if n ≥ 1 then 0xFF else 0, lcSealed := if n ≥ 2 then 0xFF else 0, lcReturned := if n ≥ 3 then 0xFF else 0 } }
def bar (s : State) : State := fz F.HST_CTL_BAR4_EN 1 s
def ue (c : Cell) (s : State) : State := { s with mems := { s.mems with staging := { s.mems.staging with base := c } } }
def many : State := (List.finRange 8).foldl (fun s k => sess k ses0 s) (lc 1 (eth b0))

theorem witness_Doorbells :
    ((let s : State := w0; s.hostReaches = false) ∧
    (let s : State := full; let fn : Fin 8 := 2; let n : Fin 64 := 7; let v : DWord := 15; s.hostReaches = true ∧ (let i := sqIdx fn n;
      s.on F.HST_SQ_CFG_ENABLED i = true ∧ doorIndex v ≤ s.fv F.HST_SQ_CFG_SIZE_M1 i)) ∧
    (let s : State := b0; let fn : Fin 8 := 2; let n : Fin 64 := 7; s.hostReaches = true ∧ (let i := sqIdx fn n;
      s.on F.HST_SQ_CFG_ENABLED i = false))) ∧
    ((let s : State := full; let fn : Fin 8 := 2; let n : Fin 64 := 7; let v : DWord := 16; s.hostReaches = true ∧ (let i := sqIdx fn n;
      s.on F.HST_SQ_CFG_ENABLED i = true ∧ s.fv F.HST_SQ_CFG_SIZE_M1 i < doorIndex v)) ∧
    (let s : State := b0; let off : BitVec 16 := 0x200; s.hostReaches = true ∧ (off.toNat % 8 ≠ 0 ∨ (0x200 ≤ off.toNat ∧ off.toNat < 0x400) ∨ (0x600 ≤ off.toNat ∧ off.toNat ≠ 0x800))) ∧
    (let s : State := c1 b0; let off : BitVec 16 := 0x500; s.hostReaches = true ∧ (∃ n : Fin 64, off.toNat = 0x400 + 8 * n.val))) ∧
    ((let s : State := e1 b0; let off : BitVec 16 := 0x800; s.hostReaches = true ∧ off.toNat = 0x800) ∧
    (let s : State := blg 2 20 1 (e1 (um 2 b0)); let w : WRing := (2, none); let v : DWord := 1; let c : Instr := .eqDoorbell 2 v;
      s.hostReaches = true ∧ ((∃ n, w.2 = some n ∧ c = .cqDoorbell w.1 n v) ∨ (w.2 = none ∧ c = .eqDoorbell w.1 v)) ∧ (let size := s.wSize w;
      let tail := s.wfv w F.HST_CQ_PTR_INDEX F.HST_EQ_PTR_INDEX; let held := (s.ring w.key).slots.length;
      let advance := (doorIndex v + 2 * size - (tail + size - held)) % size;
      let enabled : Prop := s.wfv w F.HST_CQ_CFG_ENABLED F.HST_EQ_CFG_ENABLED ≠ 0; enabled ∧ doorIndex v < size ∧ advance ≤ held)) ∧
    (let s : State := b0; let w : WRing := (2, none); let v : DWord := 3; let c : Instr := .eqDoorbell 2 v;
      s.hostReaches = true ∧ ((∃ n, w.2 = some n ∧ c = .cqDoorbell w.1 n v) ∨ (w.2 = none ∧ c = .eqDoorbell w.1 v)) ∧ (let enabled : Prop := s.wfv w F.HST_CQ_CFG_ENABLED F.HST_EQ_CFG_ENABLED ≠ 0; ¬ enabled))) ∧
    ((let s : State := c1 b0; let w : WRing := (2, some 5); let v : DWord := 16; let c : Instr := .cqDoorbell 2 5 v;
      s.hostReaches = true ∧ ((∃ n, w.2 = some n ∧ c = .cqDoorbell w.1 n v) ∨ (w.2 = none ∧ c = .eqDoorbell w.1 v)) ∧ (let size := s.wSize w;
      let enabled : Prop := s.wfv w F.HST_CQ_CFG_ENABLED F.HST_EQ_CFG_ENABLED ≠ 0; enabled ∧ size ≤ doorIndex v)) ∧
    (let s : State := c1 b0; let w : WRing := (2, some 5); let v : DWord := 4; let c : Instr := .cqDoorbell 2 5 v;
      s.hostReaches = true ∧ ((∃ n, w.2 = some n ∧ c = .cqDoorbell w.1 n v) ∨ (w.2 = none ∧ c = .eqDoorbell w.1 v)) ∧ (let size := s.wSize w;
      let tail := s.wfv w F.HST_CQ_PTR_INDEX F.HST_EQ_PTR_INDEX; let held := (s.ring w.key).slots.length;
      let advance := (doorIndex v + 2 * size - (tail + size - held)) % size;
      let enabled : Prop := s.wfv w F.HST_CQ_CFG_ENABLED F.HST_EQ_CFG_ENABLED ≠ 0; enabled ∧ doorIndex v < size ∧ held < advance))) :=
  ⟨by decide +kernel,
    by decide +kernel,
    by decide +kernel,
    by decide +kernel⟩

theorem witness_RingService :
    (let s : State := w0; s.hostReaches = false) ∧
    ((let s : State := b0; let fn : Fin 8 := 2; let n : Fin 64 := 7; let r : Fin 129 := 7; let v : DWord := rcfg 1 5 15;
      r.val = n.val ∧ s.hostReaches = true ∧ Permits s (fnAgent fn) .HST_SQ_CFG (sqIdx fn n) ∧ (let i := sqIdx fn n;
      let size := wField v F.HST_SQ_CFG_SIZE_M1; let bound := s.on F.HST_CQ_CFG_ENABLED (64 * fn.val + wField v F.HST_SQ_CFG_CQ);
      s.on F.HST_SQ_CFG_ENABLED i = false ∧ sizeOk size = true ∧ (sizeOk size = false ∨ bound = false) ∧ s.on F.HST_FN_ERR_VALID fn = false)) ∧
    (let s : State := accs [acc (.sq 2 8) 4 0] (owe (129*2+7) [4] full); let fn : Fin 8 := 2; let n : Fin 64 := 7; let r : Fin 129 := 7;
      r.val = n.val ∧ s.hostReaches = true ∧ Permits s (fnAgent fn) .HST_SQ_CFG (sqIdx fn n) ∧ (let i := sqIdx fn n;
      s.on F.HST_SQ_CFG_ENABLED i = true ∧ s.unstarted (fun c => decide (c.src = .sq fn n)) = [])) ∧
    (let s : State := c1 b0; let fn : Fin 8 := 2; let n : Fin 64 := 7; let r : Fin 129 := 7; let v : DWord := rcfg 1 5 15;
      r.val = n.val ∧ s.hostReaches = true ∧ Permits s (fnAgent fn) .HST_SQ_CFG (sqIdx fn n) ∧ (let i := sqIdx fn n;
      let size := wField v F.HST_SQ_CFG_SIZE_M1; let bound := s.on F.HST_CQ_CFG_ENABLED (64 * fn.val + wField v F.HST_SQ_CFG_CQ);
      s.on F.HST_SQ_CFG_ENABLED i = false ∧ sizeOk size = true ∧ bound = true))) ∧
    ((let s : State := b0; let fn : Fin 8 := 2; let r : Fin 129 := 128; let v : DWord := rcfg 1 5 15;
      64 ≤ r.val ∧ s.hostReaches = true ∧ Permits s (fnAgent fn) (ringCfg fn r).1 (ringCfg fn r).2 ∧ (let w := wRingOf fn r;
      let size := wField v F.HST_CQ_CFG_SIZE_M1; let enabled : Prop := s.wfv w F.HST_CQ_CFG_ENABLED F.HST_EQ_CFG_ENABLED = 1;
      let bound : Prop := ∃ n, w.2 = some n ∧ s.cqBound w.1 n = true;
      ¬ enabled ∧ sizeOk size = true ∧ (w.2 = none → (s.hst.fns[fn]).backlog = []) ∧ ¬ bound)) ∧
    (let s : State := b0; let fn : Fin 8 := 2; let r : Fin 129 := 69; let v : DWord := rcfg 1 5 16;
      64 ≤ r.val ∧ s.hostReaches = true ∧ Permits s (fnAgent fn) (ringCfg fn r).1 (ringCfg fn r).2 ∧ (let w := wRingOf fn r;
      let size := wField v F.HST_CQ_CFG_SIZE_M1; let enabled : Prop := s.wfv w F.HST_CQ_CFG_ENABLED F.HST_EQ_CFG_ENABLED = 1;
      ¬ enabled ∧ sizeOk size = false ∧ s.on F.HST_FN_ERR_VALID fn = false)) ∧
    (let s : State := full; let fn : Fin 8 := 2; let r : Fin 129 := 69;
      64 ≤ r.val ∧ s.hostReaches = true ∧ Permits s (fnAgent fn) (ringCfg fn r).1 (ringCfg fn r).2 ∧ (let w := wRingOf fn r;
      let enabled : Prop := s.wfv w F.HST_CQ_CFG_ENABLED F.HST_EQ_CFG_ENABLED = 1; let bound : Prop := ∃ n, w.2 = some n ∧ s.cqBound w.1 n = true;
      enabled ∧ bound))) :=
  ⟨by decide +kernel,
    holds (by letI := @decPermits; infer_instance) (by decide +kernel),
    holds (by letI := @decPermits; infer_instance) (by decide +kernel)⟩

theorem witness_DescriptorsAndVectors :
    ((let s : State := full; let fn : Fin 8 := 2; let n : Fin 64 := 7; let ds : List (BitVec 512) := ds 2; let e : Bool := false;
      let i := sqIdx fn n; let x := s.ring (sqKey fn n); let size := s.fv F.HST_SQ_CFG_SIZE_M1 i + 1; let head := s.fv F.HST_SQ_PTR_INDEX i;
      let avail := (s.fv F.HST_SQ_PTR_DB_INDEX i + size - head) % size; let w : WRing := (fn, some (Fin.ofNat 64 (s.fv F.HST_SQ_CFG_CQ i)));
      let opens : Prop := s.hostReaches = true ∧ s.on F.HST_SQ_CFG_ENABLED i = true ∧ s.on F.HST_SQ_CFG_ENABLE i = true ∧ x.stopped = false ∧ s.wOpen w = true ∧ (s.ring w.key).waiting = [] ∧ avail ≠ 0; opens ∧ e = false ∧ ds ≠ []) ∧
    (let s : State := b0; let fn : Fin 8 := 2; let n : Fin 64 := 7; let i := sqIdx fn n; let x := s.ring (sqKey fn n);
      let size := s.fv F.HST_SQ_CFG_SIZE_M1 i + 1; let head := s.fv F.HST_SQ_PTR_INDEX i;
      let avail := (s.fv F.HST_SQ_PTR_DB_INDEX i + size - head) % size; let w : WRing := (fn, some (Fin.ofNat 64 (s.fv F.HST_SQ_CFG_CQ i)));
      let opens : Prop := s.hostReaches = true ∧ s.on F.HST_SQ_CFG_ENABLED i = true ∧ s.on F.HST_SQ_CFG_ENABLE i = true ∧ x.stopped = false ∧ s.wOpen w = true ∧ (s.ring w.key).waiting = [] ∧ avail ≠ 0; ¬ opens) ∧
    (let s : State := full; let fn : Fin 8 := 2; let n : Fin 64 := 7; let e : Bool := true; let i := sqIdx fn n; let x := s.ring (sqKey fn n);
      let size := s.fv F.HST_SQ_CFG_SIZE_M1 i + 1; let head := s.fv F.HST_SQ_PTR_INDEX i;
      let avail := (s.fv F.HST_SQ_PTR_DB_INDEX i + size - head) % size; let w : WRing := (fn, some (Fin.ofNat 64 (s.fv F.HST_SQ_CFG_CQ i)));
      let opens : Prop := s.hostReaches = true ∧ s.on F.HST_SQ_CFG_ENABLED i = true ∧ s.on F.HST_SQ_CFG_ENABLE i = true ∧ x.stopped = false ∧ s.wOpen w = true ∧ (s.ring w.key).waiting = [] ∧ avail ≠ 0; opens ∧ e = true)) ∧
    ((let s : State := (c1 b0).setRing (129*2+69) { ((c1 b0).ring (129*2+69)) with timing := true, pend := 2 }; let fn : Fin 8 := 2;
      let r : Fin 129 := 69; let e : Bool := true; let w := wRingOf fn r;
      64 ≤ r.val ∧ e = true ∧ s.hostReaches = true ∧ s.wfv w F.HST_CQ_CFG_ENABLED F.HST_EQ_CFG_ENABLED ≠ 0) ∧
    (let s : State := (c1 b0).setRing (129*2+69) { ((c1 b0).ring (129*2+69)) with timing := true, pend := 2 }; let fn : Fin 8 := 2;
      let r : Fin 129 := 69; let e : Bool := false; let w := wRingOf fn r; 64 ≤ r.val ∧ e = false ∧ (s.ring w.key).timing = true) ∧
    (let s : State := b0; let fn : Fin 8 := 2; let r : Fin 129 := 69; let e : Bool := false; let w := wRingOf fn r;
      (r.val < 64 ∨ (e = false ∧ (s.ring w.key).timing = false) ∨ (e = true ∧ s.hostReaches = false)))) ∧
    ((let s : State := b0; s.reaches .pf = true ∧ s.active = true) ∧
    (let s : State := b0; let src : Src := .sq 2 7; let id : BitVec 32 := 4;
      let late (c : CmdRef) (us : Nat) : Bool := decide (c.src = src ∧ c.cmdId = id ∧ us ≠ 0 ∧ 200 * us < (s.devTime - c.bell).toNat);
      let waits := s.hst.accepted.find? fun a => late a.cmd a.desc.deadline.toNat;
      let loads := s.hst.loads.find? fun l => l.reading.isNone && late l.cmd l.deadline; waits = none ∧ loads = none)) ∧
    ((let s : State := accs [acc (.sq 2 7) 4 0, acc (.sq 2 7) 4 9] full; let src : Src := .sq 2 7; let id : BitVec 32 := 4;
      let late (c : CmdRef) (us : Nat) : Bool := decide (c.src = src ∧ c.cmdId = id ∧ us ≠ 0 ∧ 200 * us < (s.devTime - c.bell).toNat);
      let waits := s.hst.accepted.find? fun a => late a.cmd a.desc.deadline.toNat; (∃ a ∈ waits, True)) ∧
    (let s : State := { full with hst := { full.hst with loads := [{ cmd := { cmd0 with src := .sq 2 7, cmdId := 4, bell := 0 - 5000 }, fn := 2, first := 3, lines := 4, linear := false, data := [], dataErr := false, reading := none, deadline := 9 }] } }; let src : Src := .sq 2 7; let id : BitVec 32 := 4; let late (c : CmdRef) (us : Nat) : Bool := decide (c.src = src ∧ c.cmdId = id ∧ us ≠ 0 ∧ 200 * us < (s.devTime - c.bell).toNat); let waits := s.hst.accepted.find? fun a => late a.cmd a.desc.deadline.toNat; let loads := s.hst.loads.find? fun l => l.reading.isNone && late l.cmd l.deadline; waits = none ∧ (∃ l ∈ loads, True))) :=
  ⟨by decide +kernel,
    by decide +kernel,
    by decide +kernel,
    holds (by letI := @decMem; infer_instance) (by decide +kernel)⟩

theorem witness_CompletionEntries :
    (let s : State := sess 3 ses0 b0; let r : CmdRef := cr (.session 3);
      (∃ k ∈ [3], ∃ x ∈ s.session k, r.src = .session k ∧ s.genOf r.src = r.gen ∧ s.session k = some x)) ∧
    ((let s : State := fz F.HST_CQ_PTR_INDEX 15 (sq 2 63 15 5 (c1 b0)) (64*2+5); let r : CmdRef := cr (.sq 2 63);
      (∃ f ∈ [2], ∃ n ∈ [32, 63], r.src = .sq f n ∧ s.genOf r.src = r.gen)) ∧
    (let s : State := b0; let r : CmdRef := { cmd0 with gen := 5 }; s.genOf r.src ≠ r.gen)) :=
  ⟨holds (by letI := @decMem; infer_instance) (by decide +kernel),
    by decide +kernel⟩

theorem witness_EventEntries :
    (let s : State := blg 2 256 1 (e1 b0); let f : Fin 8 := 2; let w : WRing := (f, none); let x : Fn := s.hst.fns[f];
      (∃ g : Fin 8, g ≠ f) ∧ s.wOpen w = true ∧ (s.wOpen w = false ∨ x.backlog ≠ []) ∧ 256 ≤ x.backlog.length ∧ (∃ k ∈ x.backlog.findIdx? (fun y => decide (y.code.toNat = 1)), True)) ∧
    ((let s : State := b0; let f : Fin 8 := 2; let w : WRing := (f, none); let x : Fn := s.hst.fns[f];
      (s.wOpen w = false ∨ x.backlog ≠ []) ∧ x.backlog.length < 256) ∧
    (let s : State := blg 2 256 2 (b0); let f : Fin 8 := 2; let w : WRing := (f, none); let x : Fn := s.hst.fns[f];
      (s.wOpen w = false ∨ x.backlog ≠ []) ∧ 256 ≤ x.backlog.length ∧ x.backlog.findIdx? (fun y => decide (y.code.toNat = 1)) = none) ∧
    (let s : State := e1 b0; let f : Fin 8 := 2; let w : WRing := (f, none); let x : Fn := s.hst.fns[f]; s.wOpen w = true ∧ x.backlog = [])) ∧
    ((let s : State := fz F.HST_EVT_MASK_MASK 4 b0; let e : Ev := .lineFired; (∃ f : Fin 8, natBit (s.fv F.HST_EVT_MASK_MASK f) e.ctorIdx = false)) ∧
    (let s : State := sess 3 ses0 b0; let k : Fin 8 := 3; let x : Session := ses0;
      s.session k = some x ∧ (let goes : Prop := x.room = true ∧ x.backlog = []; goes ∧ (∃ i : Fin 8, i ≠ k))) ∧
    (let s : State := sess 3 { ses0 with room := false } b0; let k : Fin 8 := 3; let x : Session := { ses0 with room := false };
      s.session k = some x ∧ (let goes : Prop := x.room = true ∧ x.backlog = []; ¬ goes))) :=
  ⟨holds (by letI := @decMem; infer_instance) (by decide +kernel),
    by decide +kernel,
    by decide +kernel⟩

theorem witness_FunctionResets :
    ((let s : State := w0; s.hst.linkUp = false) ∧
    (let s : State := accs [acc (.sq 2 8) 4 0, acc (.session 1) 4 0, acc (.sq 3 7) 4 0] (sess 1 ses0 (blg 2 5 1 (pv 2 5 full))); let fn : Fin 8 := 2;
      s.hst.linkUp = true ∧ fn.val ≠ 0) ∧
    (let s : State := accs [acc (.sq 2 8) 4 0, acc (.session 1) 4 0, acc (.sq 3 7) 4 0] (sess 1 ses0 (blg 2 5 1 (pv 2 5 full)));
      let c : Instr := .hotReset; ((c = .functionLevelReset 0 ∧ s.hst.linkUp = true) ∨ c = .hotReset ∨ c = .pcieLinkDown))) ∧
    ((let s : State := mode 0 w0; s.mode = 0) ∧
    (let s : State := w0; s.mode ≠ 0)) :=
  ⟨by decide +kernel,
    by decide +kernel⟩

theorem witness_Bar4 :
    (let s : State := w0; s.hst.linkUp = false) ∧
    ((let s : State := fz F.HST_CTL_BAR4_EN 1 (ue (.ue 5) b0); let off : Nat := 0x1FFFFF4; let n : Nat := 9;
      s.hst.linkUp = true ∧ s.bar4Open = true ∧ off + n ≤ 0x2000000 ∧ (∀ k, k < n → (s.cell 1 (bar4Offset (off + k) / 8)).isCe = false) ∧ (∃ k < n, (s.cell 1 (bar4Offset (off + k) / 8)).bad (bar4Offset (off + k) / 8) = true ∧ (∀ i d, s.cell 1 i ≠ .mir d))) ∧
    (let s : State := fz F.HST_CTL_BAR4_EN 1 b0; let off : Nat := 0x1FFFFFC; let n : Nat := 4;
      s.hst.linkUp = true ∧ s.bar4Open = true ∧ off + n ≤ 0x2000000 ∧ (∀ k, k < n → (s.cell 1 (bar4Offset (off + k) / 8)).isCe = false) ∧ (∀ k, k < n → (s.cell 1 (bar4Offset (off + k) / 8)).bad (bar4Offset (off + k) / 8) = false) ∧ (∀ i d, s.cell 1 i ≠ .mir d))) ∧
    ((let s : State := b0; let off : Nat := 4; let n : Nat := 4; s.hst.linkUp = true ∧ (s.bar4Open = false ∨ 0x2000000 < off + n)) ∧
    (let s : State := bar b0; let off : Nat := 0x3FFFFE; let data : List Byte := [1,2];
      s.hst.linkUp = true ∧ s.bar4Open = true ∧ off + data.length ≤ 0x400000 ∧ data ≠ []) ∧
    (let s : State := b0; let off : Nat := 4; let data : List Byte := [1,2];
      s.hst.linkUp = true ∧ (s.bar4Open = false ∨ 0x400000 < off + data.length))) :=
  ⟨by decide +kernel,
    holds (by letI := @decNoMir; infer_instance) (by decide +kernel),
    by decide +kernel⟩

theorem witness_Sessions :
    ((let s : State := lc 1 (eth b0); let ok : Bool := true; let opens : Prop := s.active = true ∧ s.on F.HST_CTL_ETH_EN = true ∧ s.pwr.drain = none;
      let bad : Prop := ok = false ∨ s.fuses.lc = 0 ∨ s.fuses.lc = 3;
      opens ∧ ¬ bad ∧ (∃ k : Fin 8, opens ∧ ¬ bad ∧ s.session k = none ∧ (∀ i : Fin 8, i < k → (s.session i).isSome = true))) ∧
    (let s : State := eth b0; let ok : Bool := true; let opens : Prop := s.active = true ∧ s.on F.HST_CTL_ETH_EN = true ∧ s.pwr.drain = none;
      let bad : Prop := ok = false ∨ s.fuses.lc = 0 ∨ s.fuses.lc = 3; opens ∧ bad) ∧
    (let s : State := many; let ok : Bool := true; let opens : Prop := s.active = true ∧ s.on F.HST_CTL_ETH_EN = true ∧ s.pwr.drain = none;
      let bad : Prop := ok = false ∨ s.fuses.lc = 0 ∨ s.fuses.lc = 3; opens ∧ ¬ bad ∧ (∀ k, (s.session k).isSome = true))) ∧
    (let s : State := mode 1 (eth w0); let opens : Prop := s.active = true ∧ s.on F.HST_CTL_ETH_EN = true ∧ s.pwr.drain = none; ¬ opens) ∧
    (let s : State := sess 3 ses0 b0; let k : Fin 8 := 3; let h : BitVec 128 := hd 1 16; let body : List Byte := bindBody 2 6; let ok : Bool := true;
      let fn := leNat (body.take 1); (∃ x ∈ s.session k, Capsule h 1 body ∧ ok = true ∧ fn < 8) ∧ (∃ x ∈ s.session k, Capsule h 1 body ∧ (ok = false ∨ 8 ≤ fn ∨ x.fn ≠ none))) ∧
    (let s : State := b0; let k : Fin 8 := 3; s.session k = none) ∧
    ((let s : State := sess 3 { ses0 with fn := none } b0; let k : Fin 8 := 3; let h : BitVec 128 := hd 1 16; let body : List Byte := bindBody 2 6;
      let ok : Bool := true; let fn := leNat (body.take 1); (∃ x ∈ s.session k, Capsule h 1 body ∧ ok = true ∧ fn < 8 ∧ x.fn = none)) ∧
    (let s : State := sess 3 ses0 b0; let k : Fin 8 := 3; let h : BitVec 128 := hd 5 0; let body : List Byte := []; let ok : Bool := true;
      let room : Bool := false; (∃ x ∈ s.session k, (∃ c ∈ [Instr.bind k h body ok, .submit k h body, .keepalive ⟨k, h, body, room⟩], (let n := (h.extractLsb' 24 8).toNat; Capsule h n body ∧ n ≠ 1) ∧ (let n := (h.extractLsb' 24 8).toNat; Capsule h n body ∧ n ≠ 1 ∧ n ≠ 2)) ∧ Capsule h 5 body ∧ x.fn ≠ none ∧ room = false)) ∧
    (let s : State := sess 3 { ses0 with fn := none } b0; let k : Fin 8 := 3; let h : BitVec 128 := hd 3 1; let body : List Byte := [1];
      let ok : Bool := true; let room : Bool := true; (∃ x ∈ s.session k, (∃ c ∈ [Instr.bind k h body ok, .submit k h body, .keepalive ⟨k, h, body, room⟩], (let n := (h.extractLsb' 24 8).toNat; Capsule h n body ∧ n ≠ 1 ∧ x.fn = none) ∧ (let n := (h.extractLsb' 24 8).toNat; Capsule h n body ∧ n ≠ 1 ∧ n ≠ 2 ∧ n ≠ 5))))) ∧
    (let s : State := b0; let k : Fin 8 := 3; s.session k = none) ∧
    (let s : State := sess 3 ses0 b0; let k : Fin 8 := 3; let h : BitVec 128 := hd 2 4; let body : List Byte := [1]; let ok : Bool := true;
      let room : Bool := true; (∃ x ∈ s.session k, (∃ c ∈ [Instr.bind k h body ok, .submit k h body, .keepalive ⟨k, h, body, room⟩], (∀ n, ¬ Capsule h n body)))) ∧
    ((let s : State := sess 3 ses0 b0; let k : Fin 8 := 3; let h : BitVec 128 := hd 5 0; let body : List Byte := []; let room : Bool := true;
      (∃ x ∈ s.session k, Capsule h 5 body ∧ x.fn ≠ none ∧ room = true)) ∧
    (let s : State := sess 3 ses0 b0; let k : Fin 8 := 3; let fn : Fin 8 := 2; let x : Session := ses0; let body : List Byte := sub2 (desc0) ([]);
      let h : BitVec 128 := hd 2 body.length; s.session k = some x ∧ x.fn = some fn ∧ Capsule h 2 body ∧ (let d := descOf (BitVec.ofNat 512 (leNat (body.take 64))); let data := body.drop 64; let known := opcodes.contains d.opcode.toNat; x.owed.length < 256 ∧ d.hostAddr = 0 ∧ descSgl d = false ∧ known = true ∧ (∃ n ∈ submitData d, True) ∧ (∃ n ∈ submitData d, 64 + n ≤ capsuleLimit) ∧ (submitData d = none ∨ (submitData d = some data.length ∧ 64 + data.length ≤ capsuleLimit)) ∧ s.pwr.drain = none)) ∧
    (let s : State := sess 3 ses0 b0; let k : Fin 8 := 3; let fn : Fin 8 := 2; let x : Session := ses0; let body : List Byte := sub2 (desc0) ([1,2]);
      let h : BitVec 128 := hd 2 body.length; s.session k = some x ∧ x.fn = some fn ∧ Capsule h 2 body ∧ (let d := descOf (BitVec.ofNat 512 (leNat (body.take 64))); let data := body.drop 64; let known := opcodes.contains d.opcode.toNat; x.owed.length < 256 ∧ d.hostAddr = 0 ∧ descSgl d = false ∧ known = true ∧ (∃ n ∈ submitData d, 64 + n ≤ capsuleLimit ∧ n ≠ data.length)))) ∧
    ((let s : State := sess 3 ses0 b0; let k : Fin 8 := 3; let fn : Fin 8 := 2; let x : Session := ses0;
      let body : List Byte := sub2 ({ desc0 with hostAddr := 4 }) ([1,2]); let h : BitVec 128 := hd 2 body.length;
      s.session k = some x ∧ x.fn = some fn ∧ Capsule h 2 body ∧ (let d := descOf (BitVec.ofNat 512 (leNat (body.take 64)));
      x.owed.length < 256 ∧ (d.hostAddr ≠ 0 ∨ descSgl d = true))) ∧
    (let s : State := sess 3 ses0 b0; let k : Fin 8 := 3; let fn : Fin 8 := 2; let x : Session := ses0;
      let body : List Byte := sub2 ({ desc0 with opcode := 0x77 }) ([1,2]); let h : BitVec 128 := hd 2 body.length;
      s.session k = some x ∧ x.fn = some fn ∧ Capsule h 2 body ∧ (let d := descOf (BitVec.ofNat 512 (leNat (body.take 64)));
      let known := opcodes.contains d.opcode.toNat; x.owed.length < 256 ∧ d.hostAddr = 0 ∧ descSgl d = false ∧ known = false))) ∧
    (let s : State := sess 3 ses0 b0; let k : Fin 8 := 3; let fn : Fin 8 := 2; let x : Session := ses0;
      let body : List Byte := sub2 ({ desc0 with opcode := 2, length := 0x1000000 }) []; let h : BitVec 128 := hd 2 body.length;
      s.session k = some x ∧ x.fn = some fn ∧ Capsule h 2 body ∧ (let d := descOf (BitVec.ofNat 512 (leNat (body.take 64)));
      let known := opcodes.contains d.opcode.toNat; x.owed.length < 256 ∧ d.hostAddr = 0 ∧ descSgl d = false ∧ known = true ∧ (∃ n ∈ submitData d, capsuleLimit < 64 + n))) ∧
    (let s : State := sess 3 { ses0 with owed := List.range 256 } b0; let k : Fin 8 := 3; let fn : Fin 8 := 2;
      let x : Session := { ses0 with owed := List.range 256 }; let body : List Byte := sub2 ({ desc0 with hostAddr := 4 }) ([1,2]);
      let h : BitVec 128 := hd 2 body.length; s.session k = some x ∧ x.fn = some fn ∧ Capsule h 2 body ∧ 256 ≤ x.owed.length) :=
  ⟨by decide +kernel,
    by decide +kernel,
    holds (by letI := @decMem; letI := @decCapsule; infer_instance) (by decide +kernel),
    by decide +kernel,
    holds (by letI := @decMem; letI := @decCapsule; infer_instance) (by decide +kernel),
    by decide +kernel,
    holds (by letI := @decMem; letI := @decNoCapsule; letI := @decCapsule; infer_instance) (by decide +kernel),
    holds (by letI := @decMem; letI := @decCapsule; infer_instance) (by decide +kernel),
    holds (by letI := @decCapsule; infer_instance) (by decide +kernel),
    holds (by letI := @decMem; letI := @decCapsule; letI := @decLong; infer_instance) (by decide +kernel),
    holds (by letI := @decCapsule; infer_instance) (by decide +kernel)⟩

end N20

end Sys2Proof.Tests
end

