-- ==== Sys2Proof/Tests/Witness21.lean ====
section
/-!
SUPPORT. Witnesses for the statements about the command checks and the store: concrete states and operands that meet their hypotheses.
-/

set_option Elab.async false
set_option maxRecDepth 100000
set_option synthInstance.maxSize 2000

namespace Sys2Proof.Tests
open Sys2Proof.Machine Sys2Proof.Claims

namespace N21

def b0 : State := (List.range 8).foldl (fun s f => fz F.JS_QUOTA_WR_RATE 100 (fz F.JS_QUOTA_RD_RATE 100 (s.setReg .HST_PERM 0x1F f) f) f) (up (memOk w0))
def d0 : Desc := desc0
def ci (d : Desc) : CmdIn := { src := .sq 0 1, desc := d, host := { list := [], listErr := false, dataErr := false, data := [] } }
def ciD (d : Desc) (l : List Byte) : CmdIn := { ci d with host := { list := [], listErr := false, dataErr := false, data := l } }
def cis (k : Nat) : CmdIn := ci { d0 with reel := 0x1002, cmdId := BitVec.ofNat 32 k }
noncomputable def pst (c : CmdIn) : Instr := .printStart c.src c.desc c.host 7
def prod0 : CalProducts := { dist := [], regTable := [], chOfs := [], landing := [], classes := [], planes := [] }
def reel (o : Fin 8) (st : ReelState) (n : Nat) : Reel := { gen := 1, state := st, owner := o, length := n, data := [(0, 7), (5, 9)], imported := false, key := 77, chunkWrites := [], tags := [], stripes := [], loaded := false }
def withReel (x : Reel) (s : State) : State := s.setReel 0x1002 (some x)
def sto (f : Store → Store) (s : State) : State := { s with store := f s.store }
def sled (n : Fin 16) (f : Sled → Sled) (s : State) : State := s.setSled n (f (s.sled n))
def pw (n : Nat) : PendWrite := { cmd := { cmd0 with src := .sq 0 1, cmdId := BitVec.ofNat 32 n, acc := n }, handle := 0x1002, offset := 4096 * n, length := 4096, data := List.replicate 20 (BitVec.ofNat 8 n), close := false, read := false, deadline := 9, prio := 0, host := [(0x1000, 4096)], media := [], tags := [] }
def rw (l off : Nat) (fl : Nat) (n : Nat) : Desc := { d0 with opcode := 2, reel := 0x1002, length := BitVec.ofNat 32 l, offset := BitVec.ofNat 64 off, flags := BitVec.ofNat 8 fl, cmdId := BitVec.ofNat 32 n }
def rd (l off : Nat) : Desc := { d0 with opcode := 3, reel := 0x1002, length := BitVec.ofNat 32 l, offset := BitVec.ofNat 64 off }
def mv (h m r so rb : Bool) : MediaVerdict := { hard := h, manyErrors := m, retry := r, soft := so, others := if rb then 0xFFFF else 0xFFF7 }
def ro : State := withReel (reel 0 .open 8192) b0
def tok (n : Int) (s : State) : State := sto (fun x => { x with writeTok := Vector.replicate 8 n, readTok := Vector.replicate 8 n }) s
def bytes (n : Nat) : List Byte := List.replicate n 5
def acc1 (d : Desc) (n : Nat) : Accepted := { cmd := { cmd0 with src := .sq 0 1, acc := n }, desc := d }
def accs (l : List Accepted) (s : State) : State := { s with hst := { s.hst with accepted := l } }
def lc2 (s : State) : State := fz F.DBG_STATUS_LEVEL 2 { s with fuses := { s.fuses with lcOpen := 0xFF, lcSealed := 0xFF } }
def rb (st : StoreState) (f : Sled → Sled) : State := sled 3 f (sto (fun x => { x with state := st, rebuildSlot := some 3, checkpointGB := 100 }) b0)

theorem witness_CommandChecks :
    (let i : Instr := .abort (opC (fun c => .abort c) (ci { (cis 3).desc with flags := 4 })); let k : HostCmd := tkK i;
      let s : State := tkS (accs [acc1 { d0 with opcode := 4 } 3, acc1 { (cis 0).desc with flags := 4 } 8] b0) i;
      hostCmd i = some k ∧ (∃ a ∈ s.found k.c, True) ∧ (let a := tkA s i; let fn := tkF s i; let r := tkR s i; let t := tkT s i;
      Taken s k a fn r t ∧ (let late : Prop := k.c.desc.deadline ≠ 0 ∧ 200 * k.c.desc.deadline.toNat < (s.devTime - a.cmd.bell).toNat;
      let family : Prop := ∀ f, opFamily k.op = some f → t.on f fn = true;
      ¬ late ∧ family ∧ k.denied t fn = .none ∧ (opModes k.op).contains t.mode = true ∧ descClean k.c.desc k.uses = false))) ∧
    (let i : Instr := .jobLoad (opC (fun c => .jobLoad c) (cis 3)); let k : HostCmd := tkK i; let s : State := tkS (lc2 ro) i;
      hostCmd i = some k ∧ (let a := tkA s i; let fn := tkF s i; let r := tkR s i; let t := tkT s i;
      Taken s k a fn r t ∧ (let late : Prop := k.c.desc.deadline ≠ 0 ∧ 200 * k.c.desc.deadline.toNat < (s.devTime - a.cmd.bell).toNat;
      let family : Prop := ∀ f, opFamily k.op = some f → t.on f fn = true;
      ¬ late ∧ family ∧ (∃ code < 256, k.denied t fn = .reason code ∧ code < 256)))) ∧
    (let i : Instr := .abort ((cis 3)); let k : HostCmd := tkK i; let s : State := b0;
      hostCmd i = some k ∧ (s.active = false ∨ k.waits s = true ∨ s.found k.c = none ∨ k.c.desc.opcode.toNat ≠ k.op)) ∧
    (let i : Instr := .abort (opC (fun c => .abort c) (ci d0)); let k : HostCmd := tkK i; let s : State := tkS (lc2 (mode 8 b0)) i;
      hostCmd i = some k ∧ (let a := tkA s i; let fn := tkF s i; let r := tkR s i; let t := tkT s i;
      Taken s k a fn r t ∧ (let late : Prop := k.c.desc.deadline ≠ 0 ∧ 200 * k.c.desc.deadline.toNat < (s.devTime - a.cmd.bell).toNat;
      let family : Prop := ∀ f, opFamily k.op = some f → t.on f fn = true;
      ¬ late ∧ family ∧ k.denied t fn = .none ∧ (opModes k.op).contains t.mode = false))) ∧
    (let i : Instr := .abort (opC (fun c => .abort c) (ci { (cis 3).desc with flags := 4 })); let k : HostCmd := tkK i;
      let s : State := tkS ((accs [acc1 { d0 with opcode := 0x12 } 3] b0).setRing 1 { owed := [3, 8] }) i;
      hostCmd i = some k ∧ (∃ a ∈ s.found k.c, s.mustWait k.op a = true)) ∧
    (let i : Instr := .abort (opC (fun c => .abort c) (ci { d0 with deadline := 3 })); let k : HostCmd := tkK i; let s : State := tkS (b0) i;
      hostCmd i = some k ∧ (let a := tkA s i; let fn := tkF s i; let r := tkR s i; let t := tkT s i;
      Taken s k a fn r t ∧ (let late : Prop := k.c.desc.deadline ≠ 0 ∧ 200 * k.c.desc.deadline.toNat < (s.devTime - a.cmd.bell).toNat; late))) ∧
    ((let i : Instr := .abort (opC (fun c => .abort c) (cis 3)); let k : HostCmd := tkK i; let s : State := tkS (b0.setReg .HST_PERM 0 0) i;
      hostCmd i = some k ∧ (let a := tkA s i; let fn := tkF s i; let r := tkR s i; let t := tkT s i;
      Taken s k a fn r t ∧ (let late : Prop := k.c.desc.deadline ≠ 0 ∧ 200 * k.c.desc.deadline.toNat < (s.devTime - a.cmd.bell).toNat;
      let family : Prop := ∀ f, opFamily k.op = some f → t.on f fn = true; ¬ late ∧ ¬ family))) ∧
    (let i : Instr := .jobLoad (opC (fun c => .jobLoad c) (cis 3)); let k : HostCmd := tkK i; let s : State := tkS (withReel (reel 4 .open 5) b0) i;
      hostCmd i = some k ∧ (let a := tkA s i; let fn := tkF s i; let r := tkR s i; let t := tkT s i;
      Taken s k a fn r t ∧ (let late : Prop := k.c.desc.deadline ≠ 0 ∧ 200 * k.c.desc.deadline.toNat < (s.devTime - a.cmd.bell).toNat;
      let family : Prop := ∀ f, opFamily k.op = some f → t.on f fn = true; ¬ late ∧ family ∧ k.denied t fn = .open_)))) ∧
    (let c : CmdIn := ci (rd 10 0); descSgl c.desc = false) ∧
    (let at_ : DWord := 16; let e : BitVec 128 := 0x00000000000000080000000000000400;
      let rest : List (BitVec 128) := [0x40000000000000080000000000000400]; let addr := e.extractLsb' 0 64; let len := (e.extractLsb' 64 32).toNat;
      let data : Prop := at_.toNat % 16 = 0 ∧ e.getLsbD 127 = false ∧ addr.toNat % 4 = 0 ∧ len % 4 = 0 ∧ len ≠ 0;
      at_.toNat % 16 = 0 ∧ data ∧ e.getLsbD 126 = false ∧ (∃ l ∈ sglWalk (at_ + 16) rest, True) ∧ e.getLsbD 127 = false) ∧
    ((let at_ : DWord := 0; let e : BitVec 128 := 0x40000000000000080000000000000400; let addr := e.extractLsb' 0 64;
      let len := (e.extractLsb' 64 32).toNat; let data : Prop := at_.toNat % 16 = 0 ∧ e.getLsbD 127 = false ∧ addr.toNat % 4 = 0 ∧ len % 4 = 0 ∧ len ≠ 0; data ∧ e.getLsbD 126 = true) ∧
    (let at_ : DWord := 16; let e : BitVec 128 := 0x00000000000000000000000000000400; let addr := e.extractLsb' 0 64;
      let len := (e.extractLsb' 64 32).toNat; let data : Prop := at_.toNat % 16 = 0 ∧ e.getLsbD 127 = false ∧ addr.toNat % 4 = 0 ∧ len % 4 = 0 ∧ len ≠ 0; at_.toNat % 16 = 0 ∧ e.getLsbD 127 = false ∧ ¬ data) ∧
    (let at_ : DWord := 16; let e : BitVec 128 := 0x80000000000000000000000000000400; at_.toNat % 16 = 0 ∧ e.getLsbD 127 = true)) ∧
    (let at_ : DWord := 4; at_.toNat % 16 ≠ 0) :=
  ⟨holds (by letI := @decTaken; letI := @decRow; letI := @decAllSome; letI := @decMem; infer_instance) (by decide +kernel),
    holds (by letI := @decTaken; letI := @decRow; letI := @decAllSome; infer_instance) (by decide +kernel),
    holds (by letI := @decRow; infer_instance) (by decide +kernel),
    holds (by letI := @decTaken; letI := @decRow; letI := @decAllSome; infer_instance) (by decide +kernel),
    holds (by letI := @decRow; letI := @decMem; infer_instance) (by decide +kernel),
    holds (by letI := @decTaken; letI := @decRow; infer_instance) (by decide +kernel),
    holds (by letI := @decTaken; letI := @decRow; letI := @decAllSome; infer_instance) (by decide +kernel),
    by decide +kernel,
    holds (by letI := @decMem; infer_instance) (by decide +kernel),
    by decide +kernel,
    by decide +kernel⟩

theorem witness_ReelsCreatedAndDeleted :
    (let c : CmdIn := opC (fun c => .reelCreate c) (ci { d0 with opcode := 1, p1 := 0 }); let s : State := tkS (b0) (.reelCreate c);
      let k : HostCmd := tkK (.reelCreate c); let fn : Fin 8 := tkF s (.reelCreate c); let r : CmdRef := tkR s (.reelCreate c);
      let t : State := tkT s (.reelCreate c); Starts s (.reelCreate c) k fn r t ∧ (let ref := descP1 c.desc 40 1 % 16;
      let keyOk : Prop := ref = 0 ∨ t.sec.keySlots.getLsbD ref = true; keyOk ∧ t.emptySlot ≠ none)) ∧
    (let c : CmdIn := opC (fun c => .reelCreate c) (ci { d0 with opcode := 1, p1 := 0 });
      let s : State := tkS (sto (fun x => { x with reels := (List.range 4096).map fun k => (k, some (reel 0 .open 4)) }) b0) (.reelCreate c);
      let k : HostCmd := tkK (.reelCreate c); let fn : Fin 8 := tkF s (.reelCreate c); let r : CmdRef := tkR s (.reelCreate c);
      let t : State := tkT s (.reelCreate c); Starts s (.reelCreate c) k fn r t ∧ (let ref := descP1 c.desc 40 1 % 16;
      let keyOk : Prop := ref = 0 ∨ t.sec.keySlots.getLsbD ref = true; keyOk ∧ t.emptySlot = none)) ∧
    (let c : CmdIn := opC (fun c => .reelCreate c) (ci { d0 with opcode := 1, p1 := 3 }); let s : State := tkS (b0) (.reelCreate c);
      let k : HostCmd := tkK (.reelCreate c); let fn : Fin 8 := tkF s (.reelCreate c); let r : CmdRef := tkR s (.reelCreate c);
      let t : State := tkT s (.reelCreate c); Starts s (.reelCreate c) k fn r t ∧ (let ref := descP1 c.desc 40 1 % 16;
      let keyOk : Prop := ref = 0 ∨ t.sec.keySlots.getLsbD ref = true; ¬ keyOk)) ∧
    (let c : CmdIn := opC (fun c => .reelDelete c) (ci { d0 with opcode := 4, reel := 0x1002 });
      let s : State := tkS (withReel (reel 0 .inUse 5) b0) (.reelDelete c); let k : HostCmd := tkK (.reelDelete c);
      let fn : Fin 8 := tkF s (.reelDelete c); let r : CmdRef := tkR s (.reelDelete c); let t : State := tkT s (.reelDelete c);
      Starts s (.reelDelete c) k fn r t ∧ (let h := c.desc.reel; (∃ x ∈ t.reelAt h, x.state = .inUse) ∧ (∃ x ∈ t.reelAt h, True))) ∧
    (let c : CmdIn := opC (fun c => .reelDelete c) (ci { d0 with opcode := 4, reel := 0x1002 }); let s : State := tkS (b0) (.reelDelete c);
      let k : HostCmd := tkK (.reelDelete c); let fn : Fin 8 := tkF s (.reelDelete c); let r : CmdRef := tkR s (.reelDelete c);
      let t : State := tkT s (.reelDelete c); Starts s (.reelDelete c) k fn r t ∧ (let h := c.desc.reel; t.reelAt h = none)) ∧
    (let c : CmdIn := opC (fun c => .reelDelete c) (ci { d0 with opcode := 4, reel := 0x1002 });
      let s : State := tkS (withReel (reel 5 .closed 8192) b0) (.reelDelete c); let k : HostCmd := tkK (.reelDelete c);
      let fn : Fin 8 := tkF s (.reelDelete c); let r : CmdRef := tkR s (.reelDelete c); let t : State := tkT s (.reelDelete c);
      Starts s (.reelDelete c) k fn r t ∧ (let h := c.desc.reel; (∃ x ∈ t.reelAt h, x.state ≠ .inUse))) :=
  ⟨holds (by letI := @decStarts; infer_instance) (by decide +kernel),
    holds (by letI := @decStarts; letI := @decEmpty; infer_instance) (by decide +kernel),
    holds (by letI := @decStarts; infer_instance) (by decide +kernel),
    holds (by letI := @decStarts; letI := @decMem; infer_instance) (by decide +kernel),
    holds (by letI := @decStarts; infer_instance) (by decide +kernel),
    holds (by letI := @decStarts; letI := @decMem; infer_instance) (by decide +kernel)⟩

theorem witness_ReelWrites :
    (let c : CmdIn := opC (fun c => .reelWrite c) (ciD (rw 0 8192 8 1) (bytes 0)); let s : State := tkS (ro) (.reelWrite c);
      let k : HostCmd := tkK (.reelWrite c); let fn : Fin 8 := tkF s (.reelWrite c); let r : CmdRef := tkR s (.reelWrite c);
      let t : State := tkT s (.reelWrite c); Starts s (.reelWrite c) k fn r t ∧ (let g := inputOf s c; let h := c.desc.reel;
      let close := c.desc.flags.getLsbD 3; let n := c.desc.length.toNat; let off := c.desc.offset.toNat;
      let w : PendWrite := { cmd := r, handle := h, offset := off, length := n, data := g.host.data.take n, close := close, read := false, deadline := c.desc.deadline.toNat, prio := c.desc.priority.toNat, host := [], media := [], tags := [] }; (∃ x ∈ t.reelAt h, (let aligned : Prop := off % 4096 = 0 ∧ (n % 4096 = 0 ∨ close = true); let sized : Prop := n ≤ 0xFFFFF000 ∧ (n ≠ 0 ∨ close = true); let quota : Prop := t.worn h x off n = false ∧ t.overCapacity r.fn (if n = 0 then 0 else off + n - t.pendingEnd (h.toNat % 4096) x) = false; let crc : Prop := c.desc.flags.getLsbD 4 = true → crc32c g.host.data = descP1 c.desc 40 4; let fits : Prop := t.store.writesBarred = false ∧ x.state = .open ∧ aligned ∧ sized ∧ off + n ≤ 2 ^ 45; let passes : Prop := fits ∧ quota ∧ HostOk g n ∧ crc; t.store.writesBarred = false ∧ x.state = .open ∧ aligned ∧ sized ∧ fits ∧ quota ∧ HostOk g n ∧ passes ∧ t.admission true r.fn w.deadline = .now ∧ t.store.state ≠ .failed)))) ∧
    ((let c : CmdIn := opC (fun c => .reelWrite c) (ci (rw 4096 (2^40) 0 1)); let s : State := tkS (fz F.JS_CAPQ_LIMIT_GB 1 ro) (.reelWrite c);
      let k : HostCmd := tkK (.reelWrite c); let fn : Fin 8 := tkF s (.reelWrite c); let r : CmdRef := tkR s (.reelWrite c);
      let t : State := tkT s (.reelWrite c); Starts s (.reelWrite c) k fn r t ∧ (let h := c.desc.reel; let close := c.desc.flags.getLsbD 3;
      let n := c.desc.length.toNat; let off := c.desc.offset.toNat;
      (∃ x ∈ t.reelAt h, (let aligned : Prop := off % 4096 = 0 ∧ (n % 4096 = 0 ∨ close = true);
      let sized : Prop := n ≤ 0xFFFFF000 ∧ (n ≠ 0 ∨ close = true);
      let quota : Prop := t.worn h x off n = false ∧ t.overCapacity r.fn (if n = 0 then 0 else off + n - t.pendingEnd (h.toNat % 4096) x) = false;
      let fits : Prop := t.store.writesBarred = false ∧ x.state = .open ∧ aligned ∧ sized ∧ off + n ≤ 2 ^ 45; fits ∧ ¬ quota)))) ∧
    (let c : CmdIn := opC (fun c => .reelWrite c) (ci (rw 4096 (2^45) 0 1)); let s : State := tkS (ro) (.reelWrite c);
      let k : HostCmd := tkK (.reelWrite c); let fn : Fin 8 := tkF s (.reelWrite c); let r : CmdRef := tkR s (.reelWrite c);
      let t : State := tkT s (.reelWrite c); Starts s (.reelWrite c) k fn r t ∧ (let h := c.desc.reel; let close := c.desc.flags.getLsbD 3;
      let n := c.desc.length.toNat; let off := c.desc.offset.toNat;
      (∃ x ∈ t.reelAt h, (let aligned : Prop := off % 4096 = 0 ∧ (n % 4096 = 0 ∨ close = true);
      let sized : Prop := n ≤ 0xFFFFF000 ∧ (n ≠ 0 ∨ close = true);
      t.store.writesBarred = false ∧ x.state = .open ∧ aligned ∧ sized ∧ 2 ^ 45 < off + n))))) ∧
    (let c : CmdIn := opC (fun c => .reelWrite c) (ci (rw 4096 0 0 1)); let s : State := tkS (b0) (.reelWrite c);
      let k : HostCmd := tkK (.reelWrite c); let fn : Fin 8 := tkF s (.reelWrite c); let r : CmdRef := tkR s (.reelWrite c);
      let t : State := tkT s (.reelWrite c); Starts s (.reelWrite c) k fn r t ∧ (let h := c.desc.reel; t.reelAt h = none)) ∧
    ((let c : CmdIn := opC (fun c => .reelWrite c) (ci (rw 4096 0 0 1));
      let s : State := tkS (sto (fun x => { x with writesBarred := true }) ro) (.reelWrite c); let k : HostCmd := tkK (.reelWrite c);
      let fn : Fin 8 := tkF s (.reelWrite c); let r : CmdRef := tkR s (.reelWrite c); let t : State := tkT s (.reelWrite c);
      Starts s (.reelWrite c) k fn r t ∧ (let h := c.desc.reel; (∃ x ∈ t.reelAt h, t.store.writesBarred = true))) ∧
    (let c : CmdIn := opC (fun c => .reelWrite c) (ci (rw 4096 0 0 1)); let s : State := tkS (withReel (reel 0 .closed 5) b0) (.reelWrite c);
      let k : HostCmd := tkK (.reelWrite c); let fn : Fin 8 := tkF s (.reelWrite c); let r : CmdRef := tkR s (.reelWrite c);
      let t : State := tkT s (.reelWrite c); Starts s (.reelWrite c) k fn r t ∧ (let h := c.desc.reel;
      (∃ x ∈ t.reelAt h, t.store.writesBarred = false ∧ x.state ≠ .open))) ∧
    (let c : CmdIn := opC (fun c => .reelWrite c) (ci (rw 4096 5 0 1)); let s : State := tkS (ro) (.reelWrite c);
      let k : HostCmd := tkK (.reelWrite c); let fn : Fin 8 := tkF s (.reelWrite c); let r : CmdRef := tkR s (.reelWrite c);
      let t : State := tkT s (.reelWrite c); Starts s (.reelWrite c) k fn r t ∧ (let h := c.desc.reel; let close := c.desc.flags.getLsbD 3;
      let n := c.desc.length.toNat; let off := c.desc.offset.toNat;
      (∃ x ∈ t.reelAt h, (let aligned : Prop := off % 4096 = 0 ∧ (n % 4096 = 0 ∨ close = true);
      t.store.writesBarred = false ∧ x.state = .open ∧ ¬ aligned))))) ∧
    ((let c : CmdIn := opC (fun c => .reelWrite c) (ciD (rw 4096 8192 0 1) (bytes 4096));
      let s : State := tkS (fz F.JS_QUOTA_WR_RATE 0 ro) (.reelWrite c); let k : HostCmd := tkK (.reelWrite c);
      let fn : Fin 8 := tkF s (.reelWrite c); let r : CmdRef := tkR s (.reelWrite c); let t : State := tkT s (.reelWrite c);
      Starts s (.reelWrite c) k fn r t ∧ (let g := inputOf s c; let h := c.desc.reel; let close := c.desc.flags.getLsbD 3;
      let n := c.desc.length.toNat; let off := c.desc.offset.toNat;
      let w : PendWrite := { cmd := r, handle := h, offset := off, length := n, data := g.host.data.take n, close := close, read := false, deadline := c.desc.deadline.toNat, prio := c.desc.priority.toNat, host := [], media := [], tags := [] }; (∃ x ∈ t.reelAt h, (let aligned : Prop := off % 4096 = 0 ∧ (n % 4096 = 0 ∨ close = true); let sized : Prop := n ≤ 0xFFFFF000 ∧ (n ≠ 0 ∨ close = true); let quota : Prop := t.worn h x off n = false ∧ t.overCapacity r.fn (if n = 0 then 0 else off + n - t.pendingEnd (h.toNat % 4096) x) = false; let crc : Prop := c.desc.flags.getLsbD 4 = true → crc32c g.host.data = descP1 c.desc 40 4; let fits : Prop := t.store.writesBarred = false ∧ x.state = .open ∧ aligned ∧ sized ∧ off + n ≤ 2 ^ 45; let passes : Prop := fits ∧ quota ∧ HostOk g n ∧ crc; passes ∧ t.admission true r.fn w.deadline = .refused)))) ∧
    (let c : CmdIn := opC (fun c => .reelWrite c) (ciD (rw 4096 8192 0 1) (bytes 4096)); let s : State := tkS (tok (-5) ro) (.reelWrite c);
      let k : HostCmd := tkK (.reelWrite c); let fn : Fin 8 := tkF s (.reelWrite c); let r : CmdRef := tkR s (.reelWrite c);
      let t : State := tkT s (.reelWrite c); Starts s (.reelWrite c) k fn r t ∧ (let g := inputOf s c; let h := c.desc.reel;
      let close := c.desc.flags.getLsbD 3; let n := c.desc.length.toNat; let off := c.desc.offset.toNat;
      let w : PendWrite := { cmd := r, handle := h, offset := off, length := n, data := g.host.data.take n, close := close, read := false, deadline := c.desc.deadline.toNat, prio := c.desc.priority.toNat, host := [], media := [], tags := [] }; (∃ x ∈ t.reelAt h, (let aligned : Prop := off % 4096 = 0 ∧ (n % 4096 = 0 ∨ close = true); let sized : Prop := n ≤ 0xFFFFF000 ∧ (n ≠ 0 ∨ close = true); let quota : Prop := t.worn h x off n = false ∧ t.overCapacity r.fn (if n = 0 then 0 else off + n - t.pendingEnd (h.toNat % 4096) x) = false; let crc : Prop := c.desc.flags.getLsbD 4 = true → crc32c g.host.data = descP1 c.desc 40 4; let fits : Prop := t.store.writesBarred = false ∧ x.state = .open ∧ aligned ∧ sized ∧ off + n ≤ 2 ^ 45; let passes : Prop := fits ∧ quota ∧ HostOk g n ∧ crc; passes ∧ t.admission true r.fn w.deadline = .later)))) ∧
    (let c : CmdIn := opC (fun c => .reelWrite c) (ciD (rw 5 8192 24 1) (bytes 5)); let s : State := tkS (ro) (.reelWrite c);
      let k : HostCmd := tkK (.reelWrite c); let fn : Fin 8 := tkF s (.reelWrite c); let r : CmdRef := tkR s (.reelWrite c);
      let t : State := tkT s (.reelWrite c); Starts s (.reelWrite c) k fn r t ∧ (let g := inputOf s c; let h := c.desc.reel;
      let close := c.desc.flags.getLsbD 3; let n := c.desc.length.toNat; let off := c.desc.offset.toNat;
      (∃ x ∈ t.reelAt h, (let aligned : Prop := off % 4096 = 0 ∧ (n % 4096 = 0 ∨ close = true);
      let sized : Prop := n ≤ 0xFFFFF000 ∧ (n ≠ 0 ∨ close = true);
      let quota : Prop := t.worn h x off n = false ∧ t.overCapacity r.fn (if n = 0 then 0 else off + n - t.pendingEnd (h.toNat % 4096) x) = false;
      let crc : Prop := c.desc.flags.getLsbD 4 = true → crc32c g.host.data = descP1 c.desc 40 4;
      let fits : Prop := t.store.writesBarred = false ∧ x.state = .open ∧ aligned ∧ sized ∧ off + n ≤ 2 ^ 45; fits ∧ quota ∧ HostOk g n ∧ ¬ crc))))) ∧
    ((let s : State := sto (fun x => { x with writes := [pw 3] }) ro; let src : Src := .sq 0 1; let id : BitVec 32 := 3;
      let hit (w : PendWrite) : Bool := decide (w.cmd.src = src ∧ w.cmd.cmdId = id);
      (∃ w ∈ s.store.writes.find? hit, (let waits : Prop := (∃ a ∈ s.store.writes ++ s.store.waiting, a.before w = true) ∨ (w.close = true ∧ s.writeAhead w.handle w.cmd.acc = true); ¬ waits ∧ s.active = true ∧ (∃ x ∈ s.reelAt w.handle, s.store.state ≠ .failed ∧ x.state = .open)))) ∧
    (let s : State := accs [acc1 (rw 3 4 5 6) 2] (sto (fun x => { x with writes := [{ pw 3 with close := true }] }) ro); let src : Src := .sq 0 1;
      let id : BitVec 32 := 3; let hit (w : PendWrite) : Bool := decide (w.cmd.src = src ∧ w.cmd.cmdId = id);
      (∃ w ∈ s.store.writes.find? hit, (let waits : Prop := (∃ a ∈ s.store.writes ++ s.store.waiting, a.before w = true) ∨ (w.close = true ∧ s.writeAhead w.handle w.cmd.acc = true); (waits ∨ s.active = false))))) ∧
    (let s : State := b0; let src : Src := .sq 0 1; let id : BitVec 32 := 3;
      let hit (w : PendWrite) : Bool := decide (w.cmd.src = src ∧ w.cmd.cmdId = id); s.store.writes.find? hit = none) ∧
    ((let s : State := sto (fun x => { x with writes := [pw 3], state := .failed }) ro; let src : Src := .sq 0 1; let id : BitVec 32 := 3;
      let hit (w : PendWrite) : Bool := decide (w.cmd.src = src ∧ w.cmd.cmdId = id);
      (∃ w ∈ s.store.writes.find? hit, (let waits : Prop := (∃ a ∈ s.store.writes ++ s.store.waiting, a.before w = true) ∨ (w.close = true ∧ s.writeAhead w.handle w.cmd.acc = true); ¬ waits ∧ s.active = true ∧ (∃ x ∈ s.reelAt w.handle, s.store.state = .failed)))) ∧
    (let s : State := withReel (reel 0 .closed 9000) (sto (fun x => { x with writes := [pw 3] }) b0); let src : Src := .sq 0 1;
      let id : BitVec 32 := 3; let hit (w : PendWrite) : Bool := decide (w.cmd.src = src ∧ w.cmd.cmdId = id);
      (∃ w ∈ s.store.writes.find? hit, (let waits : Prop := (∃ a ∈ s.store.writes ++ s.store.waiting, a.before w = true) ∨ (w.close = true ∧ s.writeAhead w.handle w.cmd.acc = true); ¬ waits ∧ s.active = true ∧ (∃ x ∈ s.reelAt w.handle, s.store.state ≠ .failed ∧ x.state ≠ .open))))) :=
  ⟨holds (by letI := @decStarts; letI := @decMem; letI := @decHostOk; infer_instance) (by decide +kernel),
    holds (by letI := @decStarts; letI := @decMem; infer_instance) (by decide +kernel),
    holds (by letI := @decStarts; infer_instance) (by decide +kernel),
    holds (by letI := @decStarts; letI := @decMem; infer_instance) (by decide +kernel),
    holds (by letI := @decStarts; letI := @decMem; letI := @decHostOk; infer_instance) (by decide +kernel),
    holds (by letI := @decMem; infer_instance) (by decide +kernel),
    by decide +kernel,
    holds (by letI := @decMem; infer_instance) (by decide +kernel)⟩

theorem witness_ReelReads :
    (let media : List (Nat × MediaVerdict) := [(4, mv false false false false false)]; let tags : List (Nat × Bool) := [];
      let c : CmdIn := opC (fun c => .reelRead c media tags) (ci (rd 10 3)); let s : State := tkS (ro) (.reelRead c media tags);
      let k : HostCmd := tkK (.reelRead c media tags); let fn : Fin 8 := tkF s (.reelRead c media tags);
      let r : CmdRef := tkR s (.reelRead c media tags); let t : State := tkT s (.reelRead c media tags);
      Starts s (.reelRead c media tags) k fn r t ∧ (let g := inputOf s c; let h := c.desc.reel; let n := c.desc.length.toNat;
      let off := c.desc.offset.toNat; (∃ x ∈ t.reelAt h, off + n ≤ x.length ∧ tooLong c n = false ∧ HostOk g n ∧ (let adm := t.admission false r.fn c.desc.deadline.toNat; adm = .now ∧ t.store.state ≠ .failed)))) ∧
    (let media : List (Nat × MediaVerdict) := []; let tags : List (Nat × Bool) := [];
      let c : CmdIn := opC (fun c => .reelRead c media tags) (ci (rd 10 0)); let s : State := tkS (b0) (.reelRead c media tags);
      let k : HostCmd := tkK (.reelRead c media tags); let fn : Fin 8 := tkF s (.reelRead c media tags);
      let r : CmdRef := tkR s (.reelRead c media tags); let t : State := tkT s (.reelRead c media tags);
      Starts s (.reelRead c media tags) k fn r t ∧ (let h := c.desc.reel; t.reelAt h = none)) ∧
    ((let media : List (Nat × MediaVerdict) := []; let tags : List (Nat × Bool) := [];
      let c : CmdIn := opC (fun c => .reelRead c media tags) (ci (rd 10 3));
      let s : State := tkS (fz F.JS_QUOTA_RD_RATE 0 ro) (.reelRead c media tags); let k : HostCmd := tkK (.reelRead c media tags);
      let fn : Fin 8 := tkF s (.reelRead c media tags); let r : CmdRef := tkR s (.reelRead c media tags);
      let t : State := tkT s (.reelRead c media tags); Starts s (.reelRead c media tags) k fn r t ∧ (let g := inputOf s c; let h := c.desc.reel;
      let n := c.desc.length.toNat; let off := c.desc.offset.toNat;
      (∃ x ∈ t.reelAt h, off + n ≤ x.length ∧ tooLong c n = false ∧ HostOk g n ∧ (let adm := t.admission false r.fn c.desc.deadline.toNat;
      adm = .refused)))) ∧
    (let media : List (Nat × MediaVerdict) := []; let tags : List (Nat × Bool) := [];
      let c : CmdIn := opC (fun c => .reelRead c media tags) (ci (rd 10 3));
      let s : State := tkS (sto (fun x => { x with state := .failed }) ro) (.reelRead c media tags); let k : HostCmd := tkK (.reelRead c media tags);
      let fn : Fin 8 := tkF s (.reelRead c media tags); let r : CmdRef := tkR s (.reelRead c media tags);
      let t : State := tkT s (.reelRead c media tags); Starts s (.reelRead c media tags) k fn r t ∧ (let g := inputOf s c; let h := c.desc.reel;
      let n := c.desc.length.toNat; let off := c.desc.offset.toNat;
      (∃ x ∈ t.reelAt h, off + n ≤ x.length ∧ tooLong c n = false ∧ HostOk g n ∧ (let adm := t.admission false r.fn c.desc.deadline.toNat;
      adm = .now ∧ t.store.state = .failed)))) ∧
    (let media : List (Nat × MediaVerdict) := []; let tags : List (Nat × Bool) := [];
      let c : CmdIn := opC (fun c => .reelRead c media tags) (ci (rd 10 3)); let s : State := tkS (tok (-5) ro) (.reelRead c media tags);
      let k : HostCmd := tkK (.reelRead c media tags); let fn : Fin 8 := tkF s (.reelRead c media tags);
      let r : CmdRef := tkR s (.reelRead c media tags); let t : State := tkT s (.reelRead c media tags);
      Starts s (.reelRead c media tags) k fn r t ∧ (let g := inputOf s c; let h := c.desc.reel; let n := c.desc.length.toNat;
      let off := c.desc.offset.toNat; (∃ x ∈ t.reelAt h, off + n ≤ x.length ∧ tooLong c n = false ∧ HostOk g n ∧ (let adm := t.admission false r.fn c.desc.deadline.toNat; adm = .later))))) ∧
    ((let media : List (Nat × MediaVerdict) := []; let tags : List (Nat × Bool) := [];
      let c : CmdIn := opC (fun c => .reelRead c media tags) (ci (rd 10 8183)); let s : State := tkS (ro) (.reelRead c media tags);
      let k : HostCmd := tkK (.reelRead c media tags); let fn : Fin 8 := tkF s (.reelRead c media tags);
      let r : CmdRef := tkR s (.reelRead c media tags); let t : State := tkT s (.reelRead c media tags);
      Starts s (.reelRead c media tags) k fn r t ∧ (let h := c.desc.reel; let n := c.desc.length.toNat; let off := c.desc.offset.toNat;
      (∃ x ∈ t.reelAt h, x.length < off + n))) ∧
    (let media : List (Nat × MediaVerdict) := []; let tags : List (Nat × Bool) := [];
      let c : CmdIn := opC (fun c => .reelRead c media tags) ({ ci (rd 0x1000000 3) with src := .session 3 });
      let s : State := tkS (withReel (reel 0 .open (2^30)) (b0.setSession 3 (some { port := 1, fn := some 0, mask := 5, owed := [], accepted := 4, evSeq := 2, seqOut := 6 }))) (.reelRead c media tags); let k : HostCmd := tkK (.reelRead c media tags); let fn : Fin 8 := tkF s (.reelRead c media tags); let r : CmdRef := tkR s (.reelRead c media tags); let t : State := tkT s (.reelRead c media tags); Starts s (.reelRead c media tags) k fn r t ∧ (let h := c.desc.reel; let n := c.desc.length.toNat; let off := c.desc.offset.toNat; (∃ x ∈ t.reelAt h, off + n ≤ x.length ∧ tooLong c n = true)))) ∧
    ((let w : PendWrite := pw 4; let rest : List PendWrite := []; let x : Reel := reel 0 .closed 30000;
      let s : State := withReel x (sto (fun q => { q with reads := w :: rest, state := .failed }) b0);
      s.pending = [] ∧ s.active = true ∧ s.store.reads = w :: rest ∧ s.store.units = [] ∧ s.store.refreshFirst = false ∧ (∀ l : Fin 16, s.laneState l ≠ 1 ∧ s.laneState l ≠ 2) ∧ s.reelAt w.handle = some x ∧ x.stripes = [] ∧ w.tags = [] ∧ s.store.state = .failed) ∧
    (let w : PendWrite := pw 4; let rest : List PendWrite := [pw 5]; let x : Reel := reel 0 .closed 30000;
      let s : State := withReel x (sto (fun q => { q with reads := w :: rest }) b0);
      s.pending = [] ∧ s.active = true ∧ s.store.reads = w :: rest ∧ s.store.units = [] ∧ s.store.refreshFirst = false ∧ (∀ l : Fin 16, s.laneState l ≠ 1 ∧ s.laneState l ≠ 2) ∧ s.reelAt w.handle = some x ∧ x.stripes = [] ∧ w.tags = [] ∧ s.store.state ≠ .failed)) ∧
    (let s : State := sto (fun x => { x with waiting := [{ pw 4 with read := true }, pw 5] }) ro; let fn : Fin 8 := 0; let write : Bool := false;
      let mine := (s.storeWaiting fn).filter (fun w => w.read != write);
      let first := mine.find? (fun w => mine.all (fun x => decide (x.prio ≤ w.prio)));
      (∃ w ∈ first, 0 ≤ s.bucket write fn ∧ s.active = true ∧ s.store.refreshFirst = false ∧ s.store.state ≠ .failed ∧ w.cmd.fn = fn)) ∧
    ((let s : State := b0; let fn : Fin 8 := 0; let write : Bool := true; let mine := (s.storeWaiting fn).filter (fun w => w.read != write);
      (mine = [] ∨ s.bucket write fn < 0 ∨ s.active = false ∨ s.store.refreshFirst = true)) ∧
    (let s : State := b0; let src : Src := .sq 0 1; let id : BitVec 32 := 4;
      let hit (w : PendWrite) : Bool := decide (w.cmd.src = src ∧ w.cmd.cmdId = id ∧ w.deadline ≠ 0);
      let all := s.store.writes ++ s.store.reads ++ s.store.waiting; all.find? hit = none)) ∧
    (let s : State := sto (fun x => { x with waiting := [{ pw 4 with read := true }, pw 5] }) ro; let src : Src := .sq 0 1; let id : BitVec 32 := 4;
      let hit (w : PendWrite) : Bool := decide (w.cmd.src = src ∧ w.cmd.cmdId = id ∧ w.deadline ≠ 0);
      let all := s.store.writes ++ s.store.reads ++ s.store.waiting; (∃ w ∈ all.find? hit, True)) :=
  ⟨holds (by letI := @decStarts; letI := @decMem; letI := @decHostOk; infer_instance) (by decide +kernel),
    holds (by letI := @decStarts; infer_instance) (by decide +kernel),
    holds (by letI := @decStarts; letI := @decMem; letI := @decHostOk; infer_instance) (by decide +kernel),
    holds (by letI := @decStarts; letI := @decMem; infer_instance) (by decide +kernel),
    by decide +kernel,
    holds (by letI := @decMem; infer_instance) (by decide +kernel),
    by decide +kernel,
    holds (by letI := @decMem; infer_instance) (by decide +kernel)⟩

theorem witness_Media :
    (let u : Nat := 14; u < 15) ∧
    (let s : State := withJob job0 (mode 4 b0); let n : Fin 16 := 3; let cw : Nat := 5; let cls : Fin 4 := 0; let line : Option Nat := some 9;
      let m : MediaVerdict := { mv false false false true true with others := 0xFFFE }; let e := s.readEnd n cls m;
      let failed : Prop := s.store.state = .failed ∧ cls.val ≠ 3; let p := s.readEnd n 3 m; let b := Config.flashBlock n cw;
      ¬ failed ∧ m.hard = false ∧ m.retry = false ∧ (∃ k : Fin 16, k ≠ n ∧ m.others.getLsbD k.val = false) ∧ (cls.val = 0 ∨ m.soft = false) ∧ cls.val = 0 ∧ s.active = true ∧ (∃ l ∈ line, cls.val = 0 ∧ e = .lost ∧ s.job ≠ none ∧ (∀ x ∈ s.store.undelivered, x.1 ≠ l) ∧ s.sht.held = none) ∧ p ≠ .hard ∧ p ≠ .retry ∧ smGet (fun _ => 0) (s.sled n).step3 b = 0) ∧
    ((let s : State := b0; let n : Fin 16 := 3; let cls : Fin 4 := 0; let line : Option Nat := none;
      let m : MediaVerdict := mv true false false false false; let failed : Prop := s.store.state = .failed ∧ cls.val ≠ 3; let p := s.readEnd n 3 m;
      ¬ failed ∧ m.hard = true ∧ (s.sled n).state = 1 ∧ s.active = true ∧ line = none ∧ (p = .hard ∨ p = .retry)) ∧
    (let s : State := mode 1 b0; s.active = false) ∧
    (let s : State := sled 3 (fun x => { x with state := 0 }) b0; let n : Fin 16 := 3; (s.sled n).state ≠ 1)) ∧
    ((let s : State := sto (fun x => { x with state := .failed }) b0; let cls : Fin 4 := 0;
      let failed : Prop := s.store.state = .failed ∧ cls.val ≠ 3; failed) ∧
    (let s : State := b0; s.active = true) ∧
    (let s : State := mode 1 b0; s.active = false)) ∧
    (let s : State := sto (fun x => { x with refresh := [(3, 5), (4, 5)], reclaim := 3, units := [⟨3, 5, 100, List.replicate 16 9⟩, ⟨4, 5, 100, List.replicate 16 9⟩, ⟨3, 6, 100, List.replicate 16 9⟩] }) b0; let n : Fin 16 := 3; let stripe : Nat := 5; let mine (u : FlashUnit) : Bool := decide (u.sled = n ∧ u.stripe = stripe); (∃ u ∈ s.store.units, s.active = true ∧ mine u = true) ∧ s.active = true) ∧
    (let s : State := mode 1 b0; let n : Fin 16 := 3; let stripe : Nat := 5;
      let mine (u : FlashUnit) : Bool := decide (u.sled = n ∧ u.stripe = stripe); s.active = false ∧ (∀ u ∈ s.store.units, mine u = false)) :=
  ⟨by decide +kernel,
    holds (by letI := @decMem; infer_instance) (by decide +kernel),
    by decide +kernel,
    by decide +kernel,
    holds (by letI := @decMem; infer_instance) (by decide +kernel),
    by decide +kernel⟩

theorem witness_SledsFail :
    ((let s : State := sled 3 (fun x => { x with state := 0 }) b0; let n : Fin 16 := 3; let i : Instr := .sledInternalFault n; let kind : Nat := 1;
      let after : Fin 5 := 4; (i, kind, after) ∈ [(Instr.sledNoAnswer n, 1, (4 : Fin 5)), (.sledInternalFault n, 1, 4), (.sledOverTemperature n, 5, 4), (.sledRemoved n, 2, 0)] ∧ s.active = true ∧ (s.sled n).serving = false ∧ kind ≠ 2) ∧
    (let s : State := b0; let n : Fin 16 := 3; let i : Instr := .sledInternalFault n; let kind : Nat := 1; let after : Fin 5 := 4;
      (i, kind, after) ∈ [(Instr.sledNoAnswer n, 1, (4 : Fin 5)), (.sledInternalFault n, 1, 4), (.sledOverTemperature n, 5, 4), (.sledRemoved n, 2, 0)] ∧ s.active = true ∧ (s.sled n).serving = true) ∧
    (let s : State := mode 1 b0; let n : Fin 16 := 3; let i : Instr := .sledInternalFault n; let kind : Nat := 1; let after : Fin 5 := 4;
      (i, kind, after) ∈ [(Instr.sledNoAnswer n, 1, (4 : Fin 5)), (.sledInternalFault n, 1, 4), (.sledOverTemperature n, 5, 4), (.sledRemoved n, 2, 0)] ∧ s.active = false)) ∧
    (let s : State := sled 3 (fun x => { x with state := 0 }) b0; let n : Fin 16 := 3; let i : Instr := .sledRemoved n; let kind : Nat := 2;
      let after : Fin 5 := 0; (i, kind, after) ∈ [(Instr.sledNoAnswer n, 1, (4 : Fin 5)), (.sledInternalFault n, 1, 4), (.sledOverTemperature n, 5, 4), (.sledRemoved n, 2, 0)] ∧ s.active = true ∧ (s.sled n).serving = false ∧ kind = 2) :=
  ⟨by decide +kernel,
    by decide +kernel⟩

theorem witness_RebuildRuns :
    ((let s : State := b0; let a : Agent := .pf; let n : Fin 16 := 3; Permits s a .JS_SLED_CTL n ∧ s.store.state = .full) ∧
    (let s : State := rb .degraded id; let a : Agent := .pf; let n : Fin 16 := 3; Permits s a .JS_SLED_CTL n ∧ s.store.state ≠ .full)) ∧
    ((let s : State := rb .degraded (fun x => { x with state := 0 }); let n : Fin 16 := 3; let tb : Nat := 19; let again : Bool := true;
      let restores : Prop := s.store.state = .failed ∧ s.store.lostHealthy = some n ∧ again = true;
      s.active = true ∧ (s.sled n).state = 0 ∧ ¬ restores ∧ tb < 20) ∧
    (let s : State := b0; let n : Fin 16 := 3; (s.active = false ∨ (s.sled n).state ≠ 0)) ∧
    (let s : State := rb .degraded (fun x => { x with state := 0 }); let n : Fin 16 := 3; let tb : Nat := 20; let again : Bool := true;
      let restores : Prop := s.store.state = .failed ∧ s.store.lostHealthy = some n ∧ again = true;
      s.active = true ∧ (s.sled n).state = 0 ∧ ¬ restores ∧ 20 ≤ tb)) ∧
    (let s : State := sto (fun x => { x with lostHealthy := some 3, prior := .degraded }) (rb .failed (fun x => { x with state := 0 }));
      let n : Fin 16 := 3; let again : Bool := true; let restores : Prop := s.store.state = .failed ∧ s.store.lostHealthy = some n ∧ again = true;
      s.active = true ∧ (s.sled n).state = 0 ∧ restores) ∧
    ((let s : State := rb .degraded (fun x => { x with state := 2, accepted := true });
      let opens (n : Fin 16) : Prop := s.active = true ∧ s.store.state = .degraded ∧ s.on F.JS_REBUILD_PAUSE = false ∧ (s.sled n).accepted = true ∧ ((s.sled n).state = 2 ∨ (s.sled n).state = 3); (∃ n ∈ s.store.rebuildSlot, opens n ∧ s.rebuildDeferred = false ∧ s.store.state ≠ .rebuilding) ∧ s.store.state ≠ .rebuilding) ∧
    (let s : State := rb .rebuilding (fun x => { x with state := 3, accepted := true });
      let opens (n : Fin 16) : Prop := s.active = true ∧ s.store.state = .degraded ∧ s.on F.JS_REBUILD_PAUSE = false ∧ (s.sled n).accepted = true ∧ ((s.sled n).state = 2 ∨ (s.sled n).state = 3); (∃ n ∈ s.store.rebuildSlot, ¬ opens n ∧ s.store.state = .rebuilding) ∧ s.store.state = .rebuilding)) ∧
    (let s : State := b0; s.store.rebuildSlot = none) ∧
    (let s : State := withJob { job0 with reel := 5, storeRate := 22401 } (rb .degraded (fun x => { x with state := 2, accepted := true }));
      let opens (n : Fin 16) : Prop := s.active = true ∧ s.store.state = .degraded ∧ s.on F.JS_REBUILD_PAUSE = false ∧ (s.sled n).accepted = true ∧ ((s.sled n).state = 2 ∨ (s.sled n).state = 3); (∃ n ∈ s.store.rebuildSlot, opens n ∧ s.rebuildDeferred = true)) ∧
    (let s : State := b0; let a : Agent := .pf; Permits s a .JS_REBUILD 0) :=
  ⟨holds (by letI := @decPermits; infer_instance) (by decide +kernel),
    by decide +kernel,
    by decide +kernel,
    holds (by letI := @decMem; infer_instance) (by decide +kernel),
    by decide +kernel,
    holds (by letI := @decMem; infer_instance) (by decide +kernel),
    holds (by letI := @decPermits; infer_instance) (by decide +kernel)⟩

/-- With no Reel every data unit is whole. -/
theorem witness_MediaRebuild : ∃ s : State, ∀ u, u < 15 → (s.dataUnit 0 u).length = 65536 := by
  refine ⟨{ b0 with store := { b0.store with reels := [] } }, fun u _ => ?_⟩
  have e : ({ b0 with store := { b0.store with reels := [] } } : State).reelList = [] := rfl
  unfold State.dataUnit
  rw [e]
  exact List.length_replicate

/-- A codeword of a block of which another needed step 3 once. -/
def stepThree : State := sled 3 (fun x => { x with step3 := [(Config.flashBlock 3 5, 1)] }) b0

theorem witness_StepThree : stepThree.active = true ∧ stepThree.readEnd 3 3 (mv false true false true true) ≠ .hard ∧
    stepThree.readEnd 3 3 (mv false true false true true) ≠ .retry ∧ smGet (fun _ => 0) (stepThree.sled 3).step3 (Config.flashBlock 3 5) = 1 :=
  ⟨by decide +kernel, by decide +kernel, by decide +kernel, by
    show smGet (fun _ => 0) [(Config.flashBlock 3 5, 1)] (Config.flashBlock 3 5) = 1
    simp [smGet]⟩

end N21

end Sys2Proof.Tests
end

