-- ==== Sys2Proof/Tests/Witness22.lean ====
section
/-!
SUPPORT. Witnesses for the statements about the jobs and the other host commands: concrete states and operands that meet their hypotheses.
-/

set_option Elab.async false
set_option maxRecDepth 100000
set_option synthInstance.maxSize 2000

namespace Sys2Proof.Tests
open Sys2Proof.Machine Sys2Proof.Claims

namespace N22

def b0 : State := (List.range 8).foldl (fun s f => s.setReg .HST_PERM 0x1F f) (up (memOk w0))
def d0 : Desc := desc0
def P (l : List (Nat × Nat)) : BitVec 192 := BitVec.ofNat 192 ((l.map fun e => e.2 * 2 ^ (8 * (e.1 - 40))).foldl (· + ·) 0)
def dd (op : Nat) (reel len off p0 : Nat) (p1 : List (Nat × Nat)) : Desc := { d0 with opcode := BitVec.ofNat 8 op, reel := BitVec.ofNat 32 reel, length := BitVec.ofNat 32 len, offset := BitVec.ofNat 64 off, p0 := BitVec.ofNat 32 p0, p1 := P p1 }
def ci (d : Desc) : CmdIn := { src := .sq 0 1, desc := d, host := { list := [], listErr := false, dataErr := false, data := [] } }
def ciD (d : Desc) (l : List Byte) : CmdIn := { ci d with host := { list := [], listErr := false, dataErr := false, data := l } }
def reel (o : Fin 8) (st : ReelState) (n : Nat) : Reel := { gen := 1, state := st, owner := o, length := n, data := [(0, 7), (5, 9)], imported := false, key := 77, chunkWrites := [], tags := [], stripes := [], loaded := false }
def withReel (x : Reel) (s : State) : State := s.setReel 0x1002 (some x)
def ht (f : Hst → Hst) (s : State) : State := { s with hst := f s.hst }
def ld (n first lines : Nat) (rd : Option Nat) (data : List Byte) (err : Bool) : HostLoad := { cmd := { cmd0 with acc := n }, fn := 0, first := first, lines := lines, linear := false, data := data, dataErr := err, reading := rd }
def loads (l : List HostLoad) (s : State) : State := ht (fun h => { h with loads := l }) s
def pim (s : State) : State := ht (fun h => { h with programs := [(1, some img0), (2, some { img0 with declaredCycles := 20000, tables := [⟨3, 4, 0, 7, none⟩, ⟨4, 4, 1, 7, none⟩] }), (3, some { img0 with inspection := true, custHash := some 5 }), (4, some { img0 with npgDeclared := some 2 }), (5, some { img0 with layoutId := 8 }), (6, some { img0 with inspection := true }), (7, some { img0 with custHash := some 5 })] }) s
def ps (reel len off p0 pr ins rate hb ms : Nat) : Desc := dd 0x11 reel len off p0 [(40, pr), (42, ins), (44, rate), (48, hb), (52, ms)]
def grp (g : Nat) (s : State) : State := fz F.SHT_GRP_ENABLE 1 s g
def gt (s : State) : State := grp 2 (fz F.SHT_TIMER_OWNER 1 (fz F.SHT_TIMER_TARGET 2 s 9) 9)
def closedS : State := withReel { reel 0 .closed 8192 with data := [(0, 0x46), (1, 0x41), (4, 1), (6, 50), (15, 0x5A)] } (pim b0)
def by4 (l : List Nat) : List Byte := l.flatMap fun n => leBytes n 4
def closed : State := withReel (reel 0 .closed 8192) (pim b0)
def nm (l : List (Nat × Nat)) (s : State) : State := { s with mems := { s.mems with nmap := l.map fun e => (e.1, BitVec.ofNat 32 e.2) } }
def en (g p h n : Nat) : Nat := 2^31 + g * 2^25 + p * 2^20 + h * 2^14 + n
def hd : Held := { b := 20, onlyHold := true, timer := some 4, gated := [], waiting := [], endWaits := false, abrupt := false }
def held (h : Held) (s : State) : State := { s with sht := { s.sht with held := some h } }
def req (c : Nat) : HoldReq := { b := 12, asked := 12, cause := c, cmd := none, dur := 0, abrupt := false, strip := none }
def reqs (l : List HoldReq) (s : State) : State := { s with sht := { s.sht with holdReqs := l } }
def jj : Job := { job0 with image := { img0 with tables := [⟨3, 4, 0, 7, none⟩, ⟨4, 4, 1, 7, none⟩] }, fired := 5, claimed := 9, complete := 9, nextSlot := 12, groups := Vector.replicate 64 { nextArm := 30 } }
def j4 : State := withJob jj (pim (mode 4 b0))
def pnd (ch : Bool) : Pending := { cmd := cmd0, fn := 0, line := 5, change := if ch then some (1, 2) else none, table := 3, insp := false, plane := 0, data := [], arrived := true, late := false, held := false }
def pend (n : Nat) (s : State) : State := ht (fun h => { h with pending := List.replicate n (pnd false) ++ [pnd true] }) s
def loop (s : State) : State := fz F.CAM_CTL_LOOP_EN 1 s
def sc (s : State) : State := { s with net := { s.net with scan := some { mem := 1, start := 0, length := 8, cmd := none } } }
def recs (s : State) : State := fz F.CS_SEQ_NEXT 9 (fz F.CS_SEQ_OLDEST 7 { s with cs := { s.cs with records := [{ csr0 with seq := 8 }, csr0] } })
def lc1 (s : State) : State := { s with fuses := { s.fuses with lcOpen := 0xFF } }
def vd (a b : Bool) (n : Nat) : ImageVerdict := { signatureOk := a, contentOk := b, svn := n, floor := false }
def svn (s : State) : State := { s with fuses := { s.fuses with minSvn := Vector.replicate 5 7 } }
def cpx : List CalPixel := [(3, 5, 900, false), (4, 900, 5, false), (7, 1, 2, true)]
def cp : CalProducts := { dist := [(2, 7)], regTable := [(1, 65536)], chOfs := [(1, 4)], landing := [-3, 4], classes := [(5, 2, 9)], planes := [(5, 6, 7)] }

theorem witness_JobLoads :
    (let c : CmdIn := opC (fun c => .jobLoad c) (ci (dd 0x10 0 0x1800000 0 0 [(40, 0), (44, 256)])); let s : State := tkS (b0) (.jobLoad c);
      let k : HostCmd := tkK (.jobLoad c); let fn : Fin 8 := tkF s (.jobLoad c); let r : CmdRef := tkR s (.jobLoad c);
      let t : State := tkT s (.jobLoad c); Starts s (.jobLoad c) k fn r t ∧ (let h := c.desc.reel; h = 0 ∧ (let g := inputOf s c;
      let n := c.desc.length.toNat; let first := descP1 c.desc 40 4; let lines := descP1 c.desc 44 4;
      let sized : Prop := n ≤ t.stripRoom ∧ 1 ≤ lines ∧ lines ≤ 256;
      let waiting := (t.hst.fns[r.fn]).loadAccs.countP (fun e => decide (e.2 < r.acc) && t.owes e.1 e.2);
      sized ∧ waiting < 64 ∧ first = (t.hst.fns[r.fn]).nextLoad ∧ (descSgl c.desc = true → g.host.listErr = false) ∧ hostSegs g n ≠ none))) ∧
    (let c : CmdIn := opC (fun c => .jobLoad c) (ci (dd 0x10 0x1002 0 0 0 [])); let s : State := tkS (withReel (reel 0 .inUse 5) b0) (.jobLoad c);
      let k : HostCmd := tkK (.jobLoad c); let fn : Fin 8 := tkF s (.jobLoad c); let r : CmdRef := tkR s (.jobLoad c);
      let t : State := tkT s (.jobLoad c); Starts s (.jobLoad c) k fn r t ∧ (let h := c.desc.reel; h ≠ 0 ∧ (∃ x ∈ t.reelAt h, x.state = .inUse))) ∧
    ((let c : CmdIn := opC (fun c => .jobLoad c) (ci (dd 0x10 0 0x1800001 0 0 [(40, 0), (44, 256)])); let s : State := tkS (b0) (.jobLoad c);
      let k : HostCmd := tkK (.jobLoad c); let fn : Fin 8 := tkF s (.jobLoad c); let r : CmdRef := tkR s (.jobLoad c);
      let t : State := tkT s (.jobLoad c); Starts s (.jobLoad c) k fn r t ∧ (let h := c.desc.reel; h = 0 ∧ (let n := c.desc.length.toNat;
      let lines := descP1 c.desc 44 4; let sized : Prop := n ≤ t.stripRoom ∧ 1 ≤ lines ∧ lines ≤ 256; ¬ sized))) ∧
    (let c : CmdIn := opC (fun c => .jobLoad c) (ci (dd 0x10 0 8 0 0 [(40, 0), (44, 25)]));
      let s : State := tkS ({ (b0) with hst := { (b0.modFn 0 (fun f => { f with loadAccs := List.replicate 64 (.sq 0 1, 4) })).hst with rings := smSet (fun _ => {}) b0.hst.rings (sqKey 0 1) { (b0.ring (sqKey 0 1)) with owed := [4] } } }) (.jobLoad c); let k : HostCmd := tkK (.jobLoad c); let fn : Fin 8 := tkF s (.jobLoad c); let r : CmdRef := tkR s (.jobLoad c); let t : State := tkT s (.jobLoad c); Starts s (.jobLoad c) k fn r t ∧ (let h := c.desc.reel; h = 0 ∧ (let n := c.desc.length.toNat; let lines := descP1 c.desc 44 4; let sized : Prop := n ≤ t.stripRoom ∧ 1 ≤ lines ∧ lines ≤ 256; let waiting := (t.hst.fns[r.fn]).loadAccs.countP (fun e => decide (e.2 < r.acc) && t.owes e.1 e.2); sized ∧ 64 ≤ waiting))) ∧
    (let c : CmdIn := opC (fun c => .jobLoad c) (ci (dd 0x10 0 8 0 0 [(40, 1), (44, 25)])); let s : State := tkS (b0) (.jobLoad c);
      let k : HostCmd := tkK (.jobLoad c); let fn : Fin 8 := tkF s (.jobLoad c); let r : CmdRef := tkR s (.jobLoad c);
      let t : State := tkT s (.jobLoad c); Starts s (.jobLoad c) k fn r t ∧ (let h := c.desc.reel; h = 0 ∧ (let n := c.desc.length.toNat;
      let first := descP1 c.desc 40 4; let lines := descP1 c.desc 44 4; let sized : Prop := n ≤ t.stripRoom ∧ 1 ≤ lines ∧ lines ≤ 256;
      let waiting := (t.hst.fns[r.fn]).loadAccs.countP (fun e => decide (e.2 < r.acc) && t.owes e.1 e.2);
      sized ∧ waiting < 64 ∧ first ≠ (t.hst.fns[r.fn]).nextLoad)))) ∧
    (let c : CmdIn := opC (fun c => .jobLoad c) (ci (dd 0x10 0x1002 0 0 0 [])); let s : State := tkS (b0) (.jobLoad c);
      let k : HostCmd := tkK (.jobLoad c); let fn : Fin 8 := tkF s (.jobLoad c); let r : CmdRef := tkR s (.jobLoad c);
      let t : State := tkT s (.jobLoad c); Starts s (.jobLoad c) k fn r t ∧ (let h := c.desc.reel; h ≠ 0 ∧ t.reelAt h = none)) ∧
    ((let c : CmdIn := opC (fun c => .jobLoad c) (ci (dd 0x10 0x1002 0 0 0 [])); let s : State := tkS (withReel (reel 0 .open 5) b0) (.jobLoad c);
      let k : HostCmd := tkK (.jobLoad c); let fn : Fin 8 := tkF s (.jobLoad c); let r : CmdRef := tkR s (.jobLoad c);
      let t : State := tkT s (.jobLoad c); Starts s (.jobLoad c) k fn r t ∧ (let h := c.desc.reel; h ≠ 0 ∧ (∃ x ∈ t.reelAt h, x.state = .open))) ∧
    (let c : CmdIn := opC (fun c => .jobLoad c) (ci (dd 0x10 0x1002 0 5 0 [])); let s : State := tkS (closed) (.jobLoad c);
      let k : HostCmd := tkK (.jobLoad c); let fn : Fin 8 := tkF s (.jobLoad c); let r : CmdRef := tkR s (.jobLoad c);
      let t : State := tkT s (.jobLoad c); Starts s (.jobLoad c) k fn r t ∧ (let h := c.desc.reel; h ≠ 0 ∧ (∃ x ∈ t.reelAt h, x.state = .closed)))) ∧
    (let c : CmdIn := opC (fun c => .jobLoad c) (ci { dd 0x10 0 8 0 0 [(40, 0), (44, 25)] with flags := 1 }); let s : State := tkS (b0) (.jobLoad c);
      let k : HostCmd := tkK (.jobLoad c); let fn : Fin 8 := tkF s (.jobLoad c); let r : CmdRef := tkR s (.jobLoad c);
      let t : State := tkT s (.jobLoad c); Starts s (.jobLoad c) k fn r t ∧ (let h := c.desc.reel; h = 0 ∧ (let g := inputOf s c;
      let n := c.desc.length.toNat; let first := descP1 c.desc 40 4; let lines := descP1 c.desc 44 4;
      let sized : Prop := n ≤ t.stripRoom ∧ 1 ≤ lines ∧ lines ≤ 256;
      let waiting := (t.hst.fns[r.fn]).loadAccs.countP (fun e => decide (e.2 < r.acc) && t.owes e.1 e.2);
      sized ∧ waiting < 64 ∧ first = (t.hst.fns[r.fn]).nextLoad ∧ (descSgl c.desc = true → g.host.listErr = false) ∧ hostSegs g n = none))) ∧
    (let s : State := loads [ld 1 0 4 (some 4096) [1] false, ld 2 4 4 none [1,2] false] b0; let fn : Fin 8 := 0;
      let out := s.hst.loads.filter (fun l => decide (l.fn = fn) && l.reading.isNone);
      let next := out.find? (fun l => out.all (fun x => decide (x.prio ≤ l.prio)));
      let reaches (l : HostLoad) : Bool := match l.cmd.src with | .sq _ _ => s.hostReaches | .session _ => s.active;
      (∃ l ∈ next, True) ∧ (∃ l ∈ next, (∃ p ∈ s.findRoom l.data.length, reaches l = true))) ∧
    (let s : State := b0; let fn : Fin 8 := 0; let out := s.hst.loads.filter (fun l => decide (l.fn = fn) && l.reading.isNone);
      let next := out.find? (fun l => out.all (fun x => decide (x.prio ≤ l.prio))); next = none) ∧
    ((let s : State := loads [ld 1 0 4 none [1] false] w0; let fn : Fin 8 := 0;
      let out := s.hst.loads.filter (fun l => decide (l.fn = fn) && l.reading.isNone);
      let next := out.find? (fun l => out.all (fun x => decide (x.prio ≤ l.prio)));
      let reaches (l : HostLoad) : Bool := match l.cmd.src with | .sq _ _ => s.hostReaches | .session _ => s.active;
      (∃ l ∈ next, reaches l = false)) ∧
    (let s : State := loads [ld 1 0 4 (some 64) [] false, ld 2 4 4 none [1] false] b0; let fn : Fin 8 := 0;
      let head := s.hst.loads.find? (fun l => decide (l.fn = fn) && l.reading.isSome);
      (∃ l ∈ head, (∃ p ∈ l.reading, True)) ∧ (∃ l ∈ head, (∃ p ∈ l.reading, l.dataErr = false ∧ walkStrips l.data ≠ none ∧ s.job = none)))) ∧
    (let s : State := b0; let fn : Fin 8 := 0; let head := s.hst.loads.find? (fun l => decide (l.fn = fn) && l.reading.isSome); head = none) ∧
    (let s : State := loads [ld 1 0 4 (some 64) [5] false, ld 2 4 4 none [1] false] b0; let fn : Fin 8 := 0;
      let head := s.hst.loads.find? (fun l => decide (l.fn = fn) && l.reading.isSome);
      (∃ l ∈ head, (∃ p ∈ l.reading, (l.dataErr = true ∨ walkStrips l.data = none)))) :=
  ⟨holds (by letI := @decStarts; infer_instance) (by decide +kernel),
    holds (by letI := @decStarts; letI := @decMem; infer_instance) (by decide +kernel),
    holds (by letI := @decStarts; infer_instance) (by decide +kernel),
    holds (by letI := @decStarts; infer_instance) (by decide +kernel),
    holds (by letI := @decStarts; letI := @decMem; infer_instance) (by decide +kernel),
    holds (by letI := @decStarts; infer_instance) (by decide +kernel),
    holds (by letI := @decMem; infer_instance) (by decide +kernel),
    by decide +kernel,
    holds (by letI := @decMem; infer_instance) (by decide +kernel),
    by decide +kernel,
    holds (by letI := @decMem; infer_instance) (by decide +kernel)⟩

theorem witness_PrintStartChecks :
    (let s : State := pim b0; let q : PrintReq := printReq (ps 0 10 0 0 1 0xFFFF 64000 5 0); let im : ProgramImage := img0;
      s.program q.printProg = some im) :=
  by decide +kernel

theorem witness_PrintStarts :
    ((let rest : BitVec 32 := 300; let c : CmdIn := opC (fun c => .printStart c.src c.desc c.host rest) (ci (ps 0 10 0 0 1 0xFFFF 1000 5 0));
      let s : State := tkS (({ (fz F.SHT_RESERVE_TARGET 4 (gt (pim b0))) with hst := { (fz F.SHT_RESERVE_TARGET 4 (gt (pim b0))).hst with linkUp := true, linkGen := 5, linkLanes := 16 } })) (.printStart c.src c.desc c.host rest); let k : HostCmd := tkK (.printStart c.src c.desc c.host rest); let fn : Fin 8 := tkF s (.printStart c.src c.desc c.host rest); let r : CmdRef := tkR s (.printStart c.src c.desc c.host rest); let t : State := tkT s (.printStart c.src c.desc c.host rest); Starts s (.printStart c.src c.desc c.host rest) k fn r t ∧ (let q := printReq c.desc; let g := inputOf s c; let ms := milestoneList g.host.data q.milestones; let u := t.releaseOthers r.fn q.reel; let lines := u.reelLines q.reel; let rate := u.storeRateOf q; q.bad = false ∧ HostOk g (4 * q.milestones) ∧ ascending ms = true ∧ u.printRefusal q = none ∧ (∃ im ∈ u.program q.printProg, (let bars : Prop := q.reel ≠ 0 ∧ u.store.state = .rebuilding ∧ 22400 < rate; ¬ bars ∧ s.fv F.SHT_RESERVE_TARGET ≠ 0 ∧ q.lines lines ≠ 0)))) ∧
    (let rest : BitVec 32 := 300; let c : CmdIn := opC (fun c => .printStart c.src c.desc c.host rest) (ci (ps 0 10 0 0 1 0xFFFF 1000 5 0));
      let s : State := tkS (fz F.SHT_RESERVE_TARGET 4 (pim b0)) (.printStart c.src c.desc c.host rest);
      let k : HostCmd := tkK (.printStart c.src c.desc c.host rest); let fn : Fin 8 := tkF s (.printStart c.src c.desc c.host rest);
      let r : CmdRef := tkR s (.printStart c.src c.desc c.host rest); let t : State := tkT s (.printStart c.src c.desc c.host rest);
      Starts s (.printStart c.src c.desc c.host rest) k fn r t ∧ (let q := printReq c.desc; let g := inputOf s c;
      let ms := milestoneList g.host.data q.milestones; let u := t.releaseOthers r.fn q.reel;
      q.bad = false ∧ HostOk g (4 * q.milestones) ∧ ascending ms = true ∧ (∃ w_ ∈ u.printRefusal q, let code := w_.1; ∃ detail ∈ w_.2, code < 256))) ∧
    (let rest : BitVec 32 := 300; let c : CmdIn := opC (fun c => .printStart c.src c.desc c.host rest) (ciD (ps 0x1003 0 3 0 1 0xFFFF 1000 0 0) []);
      let s : State := tkS (closed) (.printStart c.src c.desc c.host rest); let k : HostCmd := tkK (.printStart c.src c.desc c.host rest);
      let fn : Fin 8 := tkF s (.printStart c.src c.desc c.host rest); let r : CmdRef := tkR s (.printStart c.src c.desc c.host rest);
      let t : State := tkT s (.printStart c.src c.desc c.host rest);
      Starts s (.printStart c.src c.desc c.host rest) k fn r t ∧ (let q := printReq c.desc; let g := inputOf s c;
      let ms := milestoneList g.host.data q.milestones; let u := t.releaseOthers r.fn q.reel;
      q.bad = false ∧ HostOk g (4 * q.milestones) ∧ ascending ms = true ∧ (∃ w_ ∈ u.printRefusal q, let code := w_.1; w_.2 = none ∧ code < 256)))) ∧
    (let rest : BitVec 32 := 300; let c : CmdIn := opC (fun c => .printStart c.src c.desc c.host rest) (ci (ps 0 10 0 0x3000 1 0xFFFF 64000 5 0));
      let s : State := tkS (gt (pim b0)) (.printStart c.src c.desc c.host rest); let k : HostCmd := tkK (.printStart c.src c.desc c.host rest);
      let fn : Fin 8 := tkF s (.printStart c.src c.desc c.host rest); let r : CmdRef := tkR s (.printStart c.src c.desc c.host rest);
      let t : State := tkT s (.printStart c.src c.desc c.host rest);
      Starts s (.printStart c.src c.desc c.host rest) k fn r t ∧ (let q := printReq c.desc; q.bad = true)) ∧
    (let rest : BitVec 32 := 300; let c : CmdIn := opC (fun c => .printStart c.src c.desc c.host rest) (ciD (ps 0 10 0 0 1 0xFFFF 1000 5 2) (by4 [5, 4])); let s : State := tkS (gt (pim b0)) (.printStart c.src c.desc c.host rest); let k : HostCmd := tkK (.printStart c.src c.desc c.host rest); let fn : Fin 8 := tkF s (.printStart c.src c.desc c.host rest); let r : CmdRef := tkR s (.printStart c.src c.desc c.host rest); let t : State := tkT s (.printStart c.src c.desc c.host rest); Starts s (.printStart c.src c.desc c.host rest) k fn r t ∧ (let q := printReq c.desc; let g := inputOf s c; let ms := milestoneList g.host.data q.milestones; q.bad = false ∧ HostOk g (4 * q.milestones) ∧ ascending ms = false)) ∧
    (let rest : BitVec 32 := 300; let c : CmdIn := opC (fun c => .printStart c.src c.desc c.host rest) (ciD (ps 0x1002 0 3 0 1 0xFFFF 1000 0 0) []);
      let s : State := tkS (({ (gt ({ closedS with store := { closedS.store with state := .rebuilding } })) with hst := { (gt ({ closedS with store := { closedS.store with state := .rebuilding } })).hst with linkUp := true, linkGen := 5, linkLanes := 16 } })) (.printStart c.src c.desc c.host rest); let k : HostCmd := tkK (.printStart c.src c.desc c.host rest); let fn : Fin 8 := tkF s (.printStart c.src c.desc c.host rest); let r : CmdRef := tkR s (.printStart c.src c.desc c.host rest); let t : State := tkT s (.printStart c.src c.desc c.host rest); Starts s (.printStart c.src c.desc c.host rest) k fn r t ∧ (let q := printReq c.desc; let g := inputOf s c; let ms := milestoneList g.host.data q.milestones; let u := t.releaseOthers r.fn q.reel; let rate := u.storeRateOf q; q.bad = false ∧ HostOk g (4 * q.milestones) ∧ ascending ms = true ∧ u.printRefusal q = none ∧ (∃ im ∈ u.program q.printProg, (let bars : Prop := q.reel ≠ 0 ∧ u.store.state = .rebuilding ∧ 22400 < rate; bars)))) :=
  ⟨holds (by letI := @decStarts; letI := @decMem; letI := @decHostOk; infer_instance) (by decide +kernel),
    holds (by letI := @decStarts; infer_instance) (by decide +kernel),
    holds (by letI := @decStarts; letI := @decHostOk; infer_instance) (by decide +kernel),
    holds (by letI := @decStarts; letI := @decMem; letI := @decHostOk; infer_instance) (by decide +kernel)⟩

theorem witness_HoldResumeAbort :
    (let c : CmdIn := opC (fun c => .hold c) (ci (dd 0x12 0 0 0 0 [(40, 30), (44, 0)]));
      let s : State := tkS (held { hd with onlyHold := false } (mode 5 j4)) (.hold c); let k : HostCmd := tkK (.hold c);
      let fn : Fin 8 := tkF s (.hold c); let r : CmdRef := tkR s (.hold c); let t : State := tkT s (.hold c);
      Starts s (.hold c) k fn r t ∧ (∃ h ∈ t.sht.held, True)) ∧
    (let c : CmdIn := opC (fun c => .hold c) (ci (dd 0x12 0 0 0 0 [(40, 30), (44, 7)])); let s : State := tkS (j4) (.hold c);
      let k : HostCmd := tkK (.hold c); let fn : Fin 8 := tkF s (.hold c); let r : CmdRef := tkR s (.hold c); let t : State := tkT s (.hold c);
      Starts s (.hold c) k fn r t ∧ t.sht.held = none) ∧
    ((let c : CmdIn := opC (fun c => .resume c) (ci (dd 0x13 0 0 0 0 [])); let s : State := tkS (held hd (mode 5 j4)) (.resume c);
      let k : HostCmd := tkK (.resume c); let fn : Fin 8 := tkF s (.resume c); let r : CmdRef := tkR s (.resume c);
      let t : State := tkT s (.resume c); Starts s (.resume c) k fn r t ∧ (let v := t.refetchAgain;
      (∃ h ∈ v.sht.held, v.mapFault = none ∧ v.printHalted = false ∧ v.heldBack h = false))) ∧
    (let c : CmdIn := opC (fun c => .resume c) (ci (dd 0x13 0 0 0 0 []));
      let s : State := tkS (held { hd with gated := [2] } (mode 5 j4)) (.resume c); let k : HostCmd := tkK (.resume c);
      let fn : Fin 8 := tkF s (.resume c); let r : CmdRef := tkR s (.resume c); let t : State := tkT s (.resume c);
      Starts s (.resume c) k fn r t ∧ (let v := t.refetchAgain;
      (∃ h ∈ v.sht.held, v.mapFault = none ∧ v.printHalted = false ∧ v.heldBack h = true))) ∧
    (let c : CmdIn := opC (fun c => .resume c) (ci (dd 0x13 0 0 0 0 []));
      let s : State := tkS (nm [(7, en 1 31 2 3)] (held hd (mode 5 j4))) (.resume c); let k : HostCmd := tkK (.resume c);
      let fn : Fin 8 := tkF s (.resume c); let r : CmdRef := tkR s (.resume c); let t : State := tkT s (.resume c);
      Starts s (.resume c) k fn r t ∧ (let v := t.refetchAgain; (∃ h ∈ v.sht.held, (∃ n ∈ v.mapFault, True))))) ∧
    (let c : CmdIn := opC (fun c => .resume c) (ci (dd 0x13 0 0 0 0 [])); let s : State := tkS (reqs [req 0, req 2, req 1] j4) (.resume c);
      let k : HostCmd := tkK (.resume c); let fn : Fin 8 := tkF s (.resume c); let r : CmdRef := tkR s (.resume c);
      let t : State := tkT s (.resume c); Starts s (.resume c) k fn r t ∧ (let v := t.refetchAgain; v.sht.held = none)) ∧
    ((let c : CmdIn := opC (fun c => .resume c) (ci (dd 0x13 0 0 0 0 []));
      let s : State := tkS ({ (held hd (mode 5 j4)) with sec := { j4.sec with haltPending := 15 } }) (.resume c); let k : HostCmd := tkK (.resume c);
      let fn : Fin 8 := tkF s (.resume c); let r : CmdRef := tkR s (.resume c); let t : State := tkT s (.resume c);
      Starts s (.resume c) k fn r t ∧ (let v := t.refetchAgain; (∃ h ∈ v.sht.held, v.mapFault = none ∧ v.printHalted = true))) ∧
    (let c : CmdIn := opC (fun c => .abort c) (ci (dd 0x14 0 0 0 0 [])); let s : State := tkS (j4) (.abort c); let k : HostCmd := tkK (.abort c);
      let fn : Fin 8 := tkF s (.abort c); let r : CmdRef := tkR s (.abort c); let t : State := tkT s (.abort c);
      Starts s (.abort c) k fn r t ∧ (∃ j ∈ t.job, True))) ∧
    (let c : CmdIn := opC (fun c => .abort c) (ci (dd 0x14 0 0 0 0 []));
      let s : State := tkS (loads [ld 1 0 4 none [1] false] (withReel { reel 0 .inUse 5 with loaded := true } b0)) (.abort c);
      let k : HostCmd := tkK (.abort c); let fn : Fin 8 := tkF s (.abort c); let r : CmdRef := tkR s (.abort c); let t : State := tkT s (.abort c);
      Starts s (.abort c) k fn r t ∧ t.job = none) :=
  ⟨holds (by letI := @decStarts; letI := @decMem; infer_instance) (by decide +kernel),
    holds (by letI := @decStarts; infer_instance) (by decide +kernel),
    holds (by letI := @decStarts; letI := @decMem; infer_instance) (by decide +kernel),
    holds (by letI := @decStarts; infer_instance) (by decide +kernel),
    holds (by letI := @decStarts; letI := @decMem; infer_instance) (by decide +kernel),
    holds (by letI := @decStarts; infer_instance) (by decide +kernel)⟩

theorem witness_HoldsAndJobEnds :
    ((let s : State := reqs [req 2] j4; let b : Nat := 12; let q : HoldReq := req 2; s.sht.holdReqs = [q] ∧ q.b = b ∧ b < 2 ^ 32 ∧ q.cause < 16) ∧
    (let s : State := grp 2 (held hd (mode 5 j4)); let h : Held := hd; let j : Job := jj;
      s.sht.held = some h ∧ s.job = some j ∧ j.phase = .running ∧ s.scanning = false ∧ s.sht.holdReqs = [] ∧ j.abortAt = none ∧ j.fired < j.length ∧ j.complete = j.claimed ∧ h.waiting = [] ∧ h.b + 256 ≤ 2 ^ 31 ∧ (∀ g ∈ s.groupsOn, h.b ≤ (j.groups[g]).nextArm))) ∧
    (let s : State := withReel (reel 0 .inUse 50) (withJob { jj with reel := 0x1002 } j4); let j : Job := { jj with reel := 0x1002 };
      s.job = some j ∧ (∃ x ∈ s.reelAt j.reel, x.state = .inUse)) :=
  ⟨by decide +kernel,
    holds (by letI := @decMem; infer_instance) (by decide +kernel)⟩

theorem witness_UpdatesAndChanges :
    (let arrived : Bool := true; let c : CmdIn := opC (fun c => .tableUpdate c arrived) (ciD (dd 0x16 0 8192 2 3 [(40, 30)]) (List.replicate 8192 7)); let s : State := tkS (withJob jj j4) (.tableUpdate c arrived); let k : HostCmd := tkK (.tableUpdate c arrived); let fn : Fin 8 := tkF s (.tableUpdate c arrived); let r : CmdRef := tkR s (.tableUpdate c arrived); let t : State := tkT s (.tableUpdate c arrived); Starts s (.tableUpdate c arrived) k fn r t ∧ (let line := descP1 c.desc 40 4; let table := c.desc.p0.toNat % 64; let plane := c.desc.offset.toNat; let g := inputOf s c; let data := g.host.data.take c.desc.length.toNat; let sized : Prop := c.desc.length.toNat % 8192 = 0 ∧ c.desc.length ≠ 0; let full : Prop := 8 ≤ t.hst.pending.countP (fun p => p.change.isNone); sized ∧ (∃ j ∈ t.job, (let im := t.imageAt j (c.desc.p0.getLsbD 8) line; let decl := im.bind (fun x => x.tables.find? (fun d => decide (d.number = table))); (∃ d ∈ decl, True) ∧ (∃ d ∈ decl, plane + data.length / 8192 ≤ d.planes ∧ (let loop : Prop := t.on F.CAM_CTL_LOOP_EN = true ∧ gainTable im table = true; ¬ loop ∧ ¬ full ∧ HostOk g c.desc.length.toNat)))))) ∧
    (let arrived : Bool := true; let c : CmdIn := opC (fun c => .tableUpdate c arrived) (ci (dd 0x16 0 8192 2 3 [(40, 30)]));
      let s : State := tkS (b0) (.tableUpdate c arrived); let k : HostCmd := tkK (.tableUpdate c arrived);
      let fn : Fin 8 := tkF s (.tableUpdate c arrived); let r : CmdRef := tkR s (.tableUpdate c arrived);
      let t : State := tkT s (.tableUpdate c arrived); Starts s (.tableUpdate c arrived) k fn r t ∧ (let g := inputOf s c;
      let sized : Prop := c.desc.length.toNat % 8192 = 0 ∧ c.desc.length ≠ 0; let full : Prop := 8 ≤ t.hst.pending.countP (fun p => p.change.isNone);
      sized ∧ t.job = none ∧ ¬ full ∧ HostOk g c.desc.length.toNat)) ∧
    (let arrived : Bool := false; let c : CmdIn := opC (fun c => .tableUpdate c arrived) (ciD (dd 0x16 0 8192 2 4 [(40, 30)]) (List.replicate 8192 7)); let s : State := tkS (loop (withJob jj j4)) (.tableUpdate c arrived); let k : HostCmd := tkK (.tableUpdate c arrived); let fn : Fin 8 := tkF s (.tableUpdate c arrived); let r : CmdRef := tkR s (.tableUpdate c arrived); let t : State := tkT s (.tableUpdate c arrived); Starts s (.tableUpdate c arrived) k fn r t ∧ (let line := descP1 c.desc 40 4; let table := c.desc.p0.toNat % 64; let plane := c.desc.offset.toNat; let g := inputOf s c; let data := g.host.data.take c.desc.length.toNat; let sized : Prop := c.desc.length.toNat % 8192 = 0 ∧ c.desc.length ≠ 0; sized ∧ (∃ j ∈ t.job, (let im := t.imageAt j (c.desc.p0.getLsbD 8) line; let decl := im.bind (fun x => x.tables.find? (fun d => decide (d.number = table))); (∃ d ∈ decl, plane + data.length / 8192 ≤ d.planes ∧ (let loop : Prop := t.on F.CAM_CTL_LOOP_EN = true ∧ gainTable im table = true; loop)))))) ∧
    ((let arrived : Bool := true; let c : CmdIn := opC (fun c => .tableUpdate c arrived) (ci (dd 0x16 0 8191 2 3 [(40, 30)]));
      let s : State := tkS (b0) (.tableUpdate c arrived); let k : HostCmd := tkK (.tableUpdate c arrived);
      let fn : Fin 8 := tkF s (.tableUpdate c arrived); let r : CmdRef := tkR s (.tableUpdate c arrived);
      let t : State := tkT s (.tableUpdate c arrived); Starts s (.tableUpdate c arrived) k fn r t ∧ (let sized : Prop := c.desc.length.toNat % 8192 = 0 ∧ c.desc.length ≠ 0; ¬ sized)) ∧
    (let arrived : Bool := true; let c : CmdIn := opC (fun c => .tableUpdate c arrived) (ci (dd 0x16 0 8192 2 3 [(40, 30)]));
      let s : State := tkS (pend 8 b0) (.tableUpdate c arrived); let k : HostCmd := tkK (.tableUpdate c arrived);
      let fn : Fin 8 := tkF s (.tableUpdate c arrived); let r : CmdRef := tkR s (.tableUpdate c arrived);
      let t : State := tkT s (.tableUpdate c arrived); Starts s (.tableUpdate c arrived) k fn r t ∧ (let sized : Prop := c.desc.length.toNat % 8192 = 0 ∧ c.desc.length ≠ 0; let full : Prop := 8 ≤ t.hst.pending.countP (fun p => p.change.isNone); sized ∧ t.job = none ∧ full))) ∧
    ((let arrived : Bool := true; let c : CmdIn := opC (fun c => .tableUpdate c arrived) (ciD (dd 0x16 0 8192 2 3 [(40, 30)]) (List.replicate 8192 7)); let s : State := tkS (ht (fun h => { h with pending := List.replicate 8 (pnd false) }) (withJob jj j4)) (.tableUpdate c arrived); let k : HostCmd := tkK (.tableUpdate c arrived); let fn : Fin 8 := tkF s (.tableUpdate c arrived); let r : CmdRef := tkR s (.tableUpdate c arrived); let t : State := tkT s (.tableUpdate c arrived); Starts s (.tableUpdate c arrived) k fn r t ∧ (let line := descP1 c.desc 40 4; let table := c.desc.p0.toNat % 64; let plane := c.desc.offset.toNat; let g := inputOf s c; let data := g.host.data.take c.desc.length.toNat; let sized : Prop := c.desc.length.toNat % 8192 = 0 ∧ c.desc.length ≠ 0; let full : Prop := 8 ≤ t.hst.pending.countP (fun p => p.change.isNone); sized ∧ (∃ j ∈ t.job, (let im := t.imageAt j (c.desc.p0.getLsbD 8) line; let decl := im.bind (fun x => x.tables.find? (fun d => decide (d.number = table))); (∃ d ∈ decl, plane + data.length / 8192 ≤ d.planes ∧ (let loop : Prop := t.on F.CAM_CTL_LOOP_EN = true ∧ gainTable im table = true; ¬ loop ∧ full)))))) ∧
    (let arrived : Bool := true; let c : CmdIn := opC (fun c => .tableUpdate c arrived) (ciD (dd 0x16 0 8192 2 3 [(40, 30)]) (List.replicate 8192 7)); let s : State := tkS (pend 8 (withJob jj j4)) (.tableUpdate c arrived); let k : HostCmd := tkK (.tableUpdate c arrived); let fn : Fin 8 := tkF s (.tableUpdate c arrived); let r : CmdRef := tkR s (.tableUpdate c arrived); let t : State := tkT s (.tableUpdate c arrived); Starts s (.tableUpdate c arrived) k fn r t ∧ (let line := descP1 c.desc 40 4; let table := c.desc.p0.toNat % 64; let sized : Prop := c.desc.length.toNat % 8192 = 0 ∧ c.desc.length ≠ 0; sized ∧ (∃ j ∈ t.job, (let im := t.imageAt j (c.desc.p0.getLsbD 8) line; let decl := im.bind (fun x => x.tables.find? (fun d => decide (d.number = table))); decl = none)))) ∧
    (let arrived : Bool := true; let c : CmdIn := opC (fun c => .tableUpdate c arrived) (ciD (dd 0x16 0 8192 4 3 [(40, 30)]) (List.replicate 8192 7)); let s : State := tkS (withJob jj j4) (.tableUpdate c arrived); let k : HostCmd := tkK (.tableUpdate c arrived); let fn : Fin 8 := tkF s (.tableUpdate c arrived); let r : CmdRef := tkR s (.tableUpdate c arrived); let t : State := tkT s (.tableUpdate c arrived); Starts s (.tableUpdate c arrived) k fn r t ∧ (let line := descP1 c.desc 40 4; let table := c.desc.p0.toNat % 64; let plane := c.desc.offset.toNat; let g := inputOf s c; let data := g.host.data.take c.desc.length.toNat; let sized : Prop := c.desc.length.toNat % 8192 = 0 ∧ c.desc.length ≠ 0; sized ∧ (∃ j ∈ t.job, (let im := t.imageAt j (c.desc.p0.getLsbD 8) line; let decl := im.bind (fun x => x.tables.find? (fun d => decide (d.number = table))); (∃ d ∈ decl, d.planes < plane + data.length / 8192)))))) ∧
    (let c : CmdIn := opC (fun c => .programChange c) (ci (dd 0x17 0 0 0 0 [(40, 1), (42, 0xFFFF), (44, 30)]));
      let s : State := tkS (j4) (.programChange c); let k : HostCmd := tkK (.programChange c); let fn : Fin 8 := tkF s (.programChange c);
      let r : CmdRef := tkR s (.programChange c); let t : State := tkT s (.programChange c);
      Starts s (.programChange c) k fn r t ∧ (let pr := descP1 c.desc 40 2; let ins := descP1 c.desc 42 2;
      (∃ j ∈ t.job, (let insp := if j.inspect then t.program ins else none;
      j.inspect = false ∧ (j.inspect = true ∨ ins = 0xFFFF) ∧ t.badSlot pr ins j.inspect = none ∧ (∃ im ∈ t.program pr, (let fits : Prop := (∀ n, im.npgDeclared = some n → n = j.npgCode) ∧ im.layoutId = j.image.layoutId ∧ insp.map (fun x => x.layoutId) = j.inspImage.map (fun x => x.layoutId); let tooMuch := overBudget im insp (j.inspect && j.interleaved) j.rateMax; let hash := t.hashMismatch im insp (j.inspect && !j.interleaved); fits ∧ tooMuch = false ∧ hash = none)))))) ∧
    (let c : CmdIn := opC (fun c => .programChange c) (ci (dd 0x17 0 0 0 0 [(40, 1), (42, 0xFFFF), (44, 30)]));
      let s : State := tkS (mode 4 b0) (.programChange c); let k : HostCmd := tkK (.programChange c); let fn : Fin 8 := tkF s (.programChange c);
      let r : CmdRef := tkR s (.programChange c); let t : State := tkT s (.programChange c); Starts s (.programChange c) k fn r t ∧ t.job = none) ∧
    ((let c : CmdIn := opC (fun c => .programChange c) (ci (dd 0x17 0 0 0 0 [(40, 1), (42, 3), (44, 30)]));
      let s : State := tkS (withJob { jj with inspect := true } j4) (.programChange c); let k : HostCmd := tkK (.programChange c);
      let fn : Fin 8 := tkF s (.programChange c); let r : CmdRef := tkR s (.programChange c); let t : State := tkT s (.programChange c);
      Starts s (.programChange c) k fn r t ∧ (let pr := descP1 c.desc 40 2; let ins := descP1 c.desc 42 2;
      (∃ j ∈ t.job, (let insp := if j.inspect then t.program ins else none;
      (j.inspect = true ∨ ins = 0xFFFF) ∧ t.badSlot pr ins j.inspect = none ∧ (∃ im ∈ t.program pr, (let fits : Prop := (∀ n, im.npgDeclared = some n → n = j.npgCode) ∧ im.layoutId = j.image.layoutId ∧ insp.map (fun x => x.layoutId) = j.inspImage.map (fun x => x.layoutId); ¬ fits)))))) ∧
    (let c : CmdIn := opC (fun c => .programChange c) (ci (dd 0x17 0 0 0 0 [(40, 1), (42, 6), (44, 30)]));
      let s : State := tkS (j4) (.programChange c); let k : HostCmd := tkK (.programChange c); let fn : Fin 8 := tkF s (.programChange c);
      let r : CmdRef := tkR s (.programChange c); let t : State := tkT s (.programChange c);
      Starts s (.programChange c) k fn r t ∧ (let ins := descP1 c.desc 42 2; (∃ j ∈ t.job, j.inspect = false ∧ ins ≠ 0xFFFF))) ∧
    (let c : CmdIn := opC (fun c => .programChange c) (ci (dd 0x17 0 0 0 0 [(40, 2), (42, 0xFFFF), (44, 30)]));
      let s : State := tkS (j4) (.programChange c); let k : HostCmd := tkK (.programChange c); let fn : Fin 8 := tkF s (.programChange c);
      let r : CmdRef := tkR s (.programChange c); let t : State := tkT s (.programChange c);
      Starts s (.programChange c) k fn r t ∧ (let pr := descP1 c.desc 40 2; let ins := descP1 c.desc 42 2;
      (∃ j ∈ t.job, (let insp := if j.inspect then t.program ins else none;
      (j.inspect = true ∨ ins = 0xFFFF) ∧ t.badSlot pr ins j.inspect = none ∧ (∃ im ∈ t.program pr, (let fits : Prop := (∀ n, im.npgDeclared = some n → n = j.npgCode) ∧ im.layoutId = j.image.layoutId ∧ insp.map (fun x => x.layoutId) = j.inspImage.map (fun x => x.layoutId); let tooMuch := overBudget im insp (j.inspect && j.interleaved) j.rateMax; fits ∧ tooMuch = true))))))) ∧
    ((let c : CmdIn := opC (fun c => .programChange c) (ci (dd 0x17 0 0 0 0 [(40, 7), (42, 0xFFFF), (44, 30)]));
      let s : State := tkS (j4) (.programChange c); let k : HostCmd := tkK (.programChange c); let fn : Fin 8 := tkF s (.programChange c);
      let r : CmdRef := tkR s (.programChange c); let t : State := tkT s (.programChange c);
      Starts s (.programChange c) k fn r t ∧ (let pr := descP1 c.desc 40 2; let ins := descP1 c.desc 42 2;
      (∃ j ∈ t.job, (let insp := if j.inspect then t.program ins else none;
      (j.inspect = true ∨ ins = 0xFFFF) ∧ t.badSlot pr ins j.inspect = none ∧ (∃ im ∈ t.program pr, (let fits : Prop := (∀ n, im.npgDeclared = some n → n = j.npgCode) ∧ im.layoutId = j.image.layoutId ∧ insp.map (fun x => x.layoutId) = j.inspImage.map (fun x => x.layoutId); let tooMuch := overBudget im insp (j.inspect && j.interleaved) j.rateMax; let hash := t.hashMismatch im insp (j.inspect && !j.interleaved); fits ∧ tooMuch = false ∧ (∃ d ∈ hash, True))))))) ∧
    (let c : CmdIn := opC (fun c => .programChange c) (ci (dd 0x17 0 0 0 0 [(40, 9), (42, 0xFFFF), (44, 30)]));
      let s : State := tkS (j4) (.programChange c); let k : HostCmd := tkK (.programChange c); let fn : Fin 8 := tkF s (.programChange c);
      let r : CmdRef := tkR s (.programChange c); let t : State := tkT s (.programChange c);
      Starts s (.programChange c) k fn r t ∧ (let pr := descP1 c.desc 40 2; let ins := descP1 c.desc 42 2;
      (∃ j ∈ t.job, (j.inspect = true ∨ ins = 0xFFFF) ∧ (∃ n ∈ t.badSlot pr ins j.inspect, True))))) :=
  ⟨holds (by letI := @decStarts; letI := @decMem; letI := @decHostOk; infer_instance) (by decide +kernel),
    holds (by letI := @decStarts; letI := @decHostOk; infer_instance) (by decide +kernel),
    holds (by letI := @decStarts; letI := @decMem; infer_instance) (by decide +kernel),
    holds (by letI := @decStarts; infer_instance) (by decide +kernel),
    holds (by letI := @decStarts; letI := @decMem; infer_instance) (by decide +kernel),
    holds (by letI := @decStarts; letI := @decMem; infer_instance) (by decide +kernel),
    holds (by letI := @decStarts; infer_instance) (by decide +kernel),
    holds (by letI := @decStarts; letI := @decMem; infer_instance) (by decide +kernel),
    holds (by letI := @decStarts; letI := @decMem; infer_instance) (by decide +kernel)⟩

theorem witness_ConfigurationCommands :
    (let lanes : List (Fin 16 × BitVec 32) := []; let nm : List (Nat × BitVec 32) := [(4, 7)]; let ports : BitVec 8 := 0xFF;
      let c : CmdIn := opC (fun c => .headConfig c lanes nm ports) (ci (dd 0x20 0 0 0 0 []));
      let s : State := tkS (b0) (.headConfig c lanes nm ports); let k : HostCmd := tkK (.headConfig c lanes nm ports);
      let fn : Fin 8 := tkF s (.headConfig c lanes nm ports); let r : CmdRef := tkR s (.headConfig c lanes nm ports);
      let t : State := tkT s (.headConfig c lanes nm ports);
      Starts s (.headConfig c lanes nm ports) k fn r t ∧ HostOk (inputOf s c) c.desc.length.toNat ∧ (let owner := t.fv F.FAB_PIN_OWNER_OWNER;
      let clash : Prop := ports.getLsbD 7 = true ∧ owner ≠ 0 ∧ owner ≠ 1;
      ports.setWidth 16 &&& t.pwr.fabFailed = 0 ∧ ¬ clash ∧ lanes = [] ∧ (∃ w_ ∈ (nm).head?, let n := w_.1; let v := w_.2;
      nm = [(n, v)] ∧ n < 524288))) ∧
    ((let lanes : List (Fin 16 × BitVec 32) := [(3, 5)]; let nm : List (Nat × BitVec 32) := [(4, 7), (524288, 8)]; let ports : BitVec 8 := 0x7F;
      let c : CmdIn := opC (fun c => .headConfig c lanes nm ports) (ci (dd 0x20 0 0 0 0 []));
      let s : State := tkS (b0) (.headConfig c lanes nm ports); let k : HostCmd := tkK (.headConfig c lanes nm ports);
      let fn : Fin 8 := tkF s (.headConfig c lanes nm ports); let r : CmdRef := tkR s (.headConfig c lanes nm ports);
      let t : State := tkT s (.headConfig c lanes nm ports);
      Starts s (.headConfig c lanes nm ports) k fn r t ∧ HostOk (inputOf s c) c.desc.length.toNat ∧ (let owner := t.fv F.FAB_PIN_OWNER_OWNER;
      let clash : Prop := ports.getLsbD 7 = true ∧ owner ≠ 0 ∧ owner ≠ 1;
      ports.setWidth 16 &&& t.pwr.fabFailed = 0 ∧ ¬ clash ∧ ports.getLsbD 7 = false)) ∧
    (let lanes : List (Fin 16 × BitVec 32) := []; let nm : List (Nat × BitVec 32) := [(4, 7)]; let ports : BitVec 8 := 0xFF;
      let c : CmdIn := opC (fun c => .headConfig c lanes nm ports) (ci (dd 0x20 0 0 0 0 []));
      let s : State := tkS (fz F.FAB_PIN_OWNER_OWNER 2 b0) (.headConfig c lanes nm ports); let k : HostCmd := tkK (.headConfig c lanes nm ports);
      let fn : Fin 8 := tkF s (.headConfig c lanes nm ports); let r : CmdRef := tkR s (.headConfig c lanes nm ports);
      let t : State := tkT s (.headConfig c lanes nm ports);
      Starts s (.headConfig c lanes nm ports) k fn r t ∧ HostOk (inputOf s c) c.desc.length.toNat ∧ (let owner := t.fv F.FAB_PIN_OWNER_OWNER;
      let clash : Prop := ports.getLsbD 7 = true ∧ owner ≠ 0 ∧ owner ≠ 1; ports.setWidth 16 &&& t.pwr.fabFailed = 0 ∧ clash)) ∧
    (let lanes : List (Fin 16 × BitVec 32) := []; let nm : List (Nat × BitVec 32) := [(4, 7)]; let ports : BitVec 8 := 0xFF;
      let c : CmdIn := opC (fun c => .headConfig c lanes nm ports) (ci (dd 0x20 0 0 0 0 []));
      let s : State := tkS ({ b0 with pwr := { b0.pwr with fabFailed := 4 } }) (.headConfig c lanes nm ports);
      let k : HostCmd := tkK (.headConfig c lanes nm ports); let fn : Fin 8 := tkF s (.headConfig c lanes nm ports);
      let r : CmdRef := tkR s (.headConfig c lanes nm ports); let t : State := tkT s (.headConfig c lanes nm ports);
      Starts s (.headConfig c lanes nm ports) k fn r t ∧ HostOk (inputOf s c) c.desc.length.toNat ∧ ports.setWidth 16 &&& t.pwr.fabFailed ≠ 0)) ∧
    ((let ok : Bool := false; let channels : Fin 8 := 3; let il : Fin 16 := 5; let px : List CalPixel := cpx; let p : CalProducts := cp;
      let c : CmdIn := opC (fun c => .calibrate c ok channels il px p) (ci (dd 0x15 0 0 0 0 []));
      let s : State := tkS (mode 6 b0) (.calibrate c ok channels il px p); let k : HostCmd := tkK (.calibrate c ok channels il px p);
      let fn : Fin 8 := tkF s (.calibrate c ok channels il px p); let r : CmdRef := tkR s (.calibrate c ok channels il px p);
      let t : State := tkT s (.calibrate c ok channels il px p); Starts s (.calibrate c ok channels il px p) k fn r t ∧ ok = false) ∧
    (let ok : Bool := true; let channels : Fin 8 := 3; let il : Fin 16 := 5; let px : List CalPixel := cpx; let p : CalProducts := cp;
      let c : CmdIn := opC (fun c => .calibrate c ok channels il px p) (ci (dd 0x15 0 0 0 0 []));
      let s : State := tkS (mode 6 b0) (.calibrate c ok channels il px p); let k : HostCmd := tkK (.calibrate c ok channels il px p);
      let fn : Fin 8 := tkF s (.calibrate c ok channels il px p); let r : CmdRef := tkR s (.calibrate c ok channels il px p);
      let t : State := tkT s (.calibrate c ok channels il px p); Starts s (.calibrate c ok channels il px p) k fn r t ∧ ok = true)) ∧
    (let dark : Nat := 5; let white : Nat := 60000; dark < white ∧ (0xE000 * 2 ^ 14 + (white - dark) / 2) / (white - dark) < 2 ^ 16) :=
  ⟨holds (by letI := @decStarts; letI := @decMem; letI := @decHostOk; infer_instance) (by decide +kernel),
    holds (by letI := @decStarts; letI := @decHostOk; infer_instance) (by decide +kernel),
    holds (by letI := @decStarts; infer_instance) (by decide +kernel),
    by decide +kernel⟩

theorem witness_ReportingCommands :
    (let c : CmdIn := opC (fun c => .scanRange c) (ci (dd 0x30 0 64 8 16 [])); let s : State := tkS (b0) (.scanRange c);
      let k : HostCmd := tkK (.scanRange c); let fn : Fin 8 := tkF s (.scanRange c); let r : CmdRef := tkR s (.scanRange c);
      let t : State := tkT s (.scanRange c); Starts s (.scanRange c) k fn r t ∧ (let mem := c.desc.p0.toNat % 32;
      mem ≤ 16 ∧ t.net.scan = none ∧ HostOk (inputOf s c) 72)) ∧
    ((let c : CmdIn := opC (fun c => .scanRange c) (ci (dd 0x30 0 64 8 16 [])); let s : State := tkS (sc b0) (.scanRange c);
      let k : HostCmd := tkK (.scanRange c); let fn : Fin 8 := tkF s (.scanRange c); let r : CmdRef := tkR s (.scanRange c);
      let t : State := tkT s (.scanRange c); Starts s (.scanRange c) k fn r t ∧ (let mem := c.desc.p0.toNat % 32; mem ≤ 16 ∧ t.net.scan ≠ none)) ∧
    (let c : CmdIn := opC (fun c => .scanRange c) (ci (dd 0x30 0 64 8 17 [])); let s : State := tkS (b0) (.scanRange c);
      let k : HostCmd := tkK (.scanRange c); let fn : Fin 8 := tkF s (.scanRange c); let r : CmdRef := tkR s (.scanRange c);
      let t : State := tkT s (.scanRange c); Starts s (.scanRange c) k fn r t ∧ (let mem := c.desc.p0.toNat % 32; 16 < mem))) ∧
    (let c : CmdIn := opC (fun c => .statusQuery c) (ci (dd 0x31 0 30 0 0x20 [])); let s : State := tkS (b0) (.statusQuery c);
      let k : HostCmd := tkK (.statusQuery c); let fn : Fin 8 := tkF s (.statusQuery c); let r : CmdRef := tkR s (.statusQuery c);
      let t : State := tkT s (.statusQuery c); Starts s (.statusQuery c) k fn r t ∧ tooLong c c.desc.length.toNat = false ∧ HostOk (inputOf s c) c.desc.length.toNat ∧ (let page := c.desc.p0.toNat % 256; page ≠ 0x10 ∧ page ≠ 0x11 ∧ (∃ b ∈ t.statusPage page c.desc.length.toNat, True))) ∧
    (let c : CmdIn := opC (fun c => .statusQuery c) (ci (dd 0x31 0 64 0 0x12 [])); let s : State := tkS (b0) (.statusQuery c);
      let k : HostCmd := tkK (.statusQuery c); let fn : Fin 8 := tkF s (.statusQuery c); let r : CmdRef := tkR s (.statusQuery c);
      let t : State := tkT s (.statusQuery c); Starts s (.statusQuery c) k fn r t ∧ tooLong c c.desc.length.toNat = false ∧ HostOk (inputOf s c) c.desc.length.toNat ∧ (let page := c.desc.p0.toNat % 256; page ≠ 0x10 ∧ page ≠ 0x11 ∧ page ≠ 0x20)) ∧
    (let c : CmdIn := opC (fun c => .blackboxRead c) (ci (dd 0x32 0 1 (2^63) 0 [])); let s : State := tkS (recs b0) (.blackboxRead c);
      let k : HostCmd := tkK (.blackboxRead c); let fn : Fin 8 := tkF s (.blackboxRead c); let r : CmdRef := tkR s (.blackboxRead c);
      let t : State := tkT s (.blackboxRead c); Starts s (.blackboxRead c) k fn r t ∧ (let n := c.desc.length.toNat;
      0 < n ∧ n ≤ 131072 ∧ tooLong c (64 * n) = false ∧ HostOk (inputOf s c) (64 * n) ∧ (∃ x ∈ (t.csSelect c.desc.offset n).head?, True))) ∧
    (let c : CmdIn := opC (fun c => .blackboxRead c) (ci (dd 0x32 0 0 0 0 [])); let s : State := tkS (b0) (.blackboxRead c);
      let k : HostCmd := tkK (.blackboxRead c); let fn : Fin 8 := tkF s (.blackboxRead c); let r : CmdRef := tkR s (.blackboxRead c);
      let t : State := tkT s (.blackboxRead c); Starts s (.blackboxRead c) k fn r t ∧ (let n := c.desc.length.toNat; (n = 0 ∨ 131072 < n))) :=
  ⟨holds (by letI := @decStarts; letI := @decHostOk; infer_instance) (by decide +kernel),
    holds (by letI := @decStarts; infer_instance) (by decide +kernel),
    holds (by letI := @decStarts; letI := @decMem; letI := @decHostOk; infer_instance) (by decide +kernel),
    holds (by letI := @decStarts; letI := @decHostOk; infer_instance) (by decide +kernel),
    holds (by letI := @decStarts; letI := @decMem; letI := @decHostOk; infer_instance) (by decide +kernel),
    holds (by letI := @decStarts; infer_instance) (by decide +kernel)⟩

theorem witness_FirmwareAndKeys :
    (let v : ImageVerdict := vd true true 3; let prog : Option ProgramImage := none; let region : Option RegionImage := none;
      let c : CmdIn := opC (fun c => .fwStage c v prog region) (ci (dd 0x40 0 0 0 0xF04 []));
      let s : State := tkS (svn b0) (.fwStage c v prog region); let k : HostCmd := tkK (.fwStage c v prog region);
      let fn : Fin 8 := tkF s (.fwStage c v prog region); let r : CmdRef := tkR s (.fwStage c v prog region);
      let t : State := tkT s (.fwStage c v prog region); Starts s (.fwStage c v prog region) k fn r t ∧ (let kind := fwKind c.desc;
      let slot := fwSlot c.desc; let listed : Prop := (kind ≤ 3 ∧ slot = 0) ∨ (4 ≤ kind ∧ kind ≤ 6 ∧ slot < 16);
      let good : Prop := v.signatureOk = true ∧ v.contentOk = true; let bad := region.any (fun im => t.imageRefused (Fin.ofNat 16 slot) im);
      listed ∧ HostOk (inputOf s c) c.desc.length.toNat ∧ good ∧ kind ≤ 4 ∧ s.fuses.svnMin kind ≤ v.svn ∧ kind = 4 ∧ (kind = 4 → bad = false))) ∧
    (let v : ImageVerdict := vd true true 3; let prog : Option ProgramImage := some img0; let region : Option RegionImage := none;
      let c : CmdIn := opC (fun c => .fwStage c v prog region) (ci (dd 0x40 0 0 0 0xF05 []));
      let s : State := tkS (svn b0) (.fwStage c v prog region); let k : HostCmd := tkK (.fwStage c v prog region);
      let fn : Fin 8 := tkF s (.fwStage c v prog region); let r : CmdRef := tkR s (.fwStage c v prog region);
      let t : State := tkT s (.fwStage c v prog region); Starts s (.fwStage c v prog region) k fn r t ∧ (let kind := fwKind c.desc;
      let slot := fwSlot c.desc; let listed : Prop := (kind ≤ 3 ∧ slot = 0) ∨ (4 ≤ kind ∧ kind ≤ 6 ∧ slot < 16);
      let good : Prop := v.signatureOk = true ∧ v.contentOk = true;
      (∃ im ∈ prog, listed ∧ HostOk (inputOf s c) c.desc.length.toNat ∧ good ∧ 5 ≤ kind))) ∧
    ((let v : ImageVerdict := vd true false 5; let prog : Option ProgramImage := none; let region : Option RegionImage := none;
      let c : CmdIn := opC (fun c => .fwStage c v prog region) (ci (dd 0x40 0 0 0 0x001 [])); let s : State := tkS (b0) (.fwStage c v prog region);
      let k : HostCmd := tkK (.fwStage c v prog region); let fn : Fin 8 := tkF s (.fwStage c v prog region);
      let r : CmdRef := tkR s (.fwStage c v prog region); let t : State := tkT s (.fwStage c v prog region);
      Starts s (.fwStage c v prog region) k fn r t ∧ (let kind := fwKind c.desc; let slot := fwSlot c.desc;
      let listed : Prop := (kind ≤ 3 ∧ slot = 0) ∨ (4 ≤ kind ∧ kind ≤ 6 ∧ slot < 16); let good : Prop := v.signatureOk = true ∧ v.contentOk = true;
      listed ∧ HostOk (inputOf s c) c.desc.length.toNat ∧ ¬ good)) ∧
    (let v : ImageVerdict := vd true true 2; let prog : Option ProgramImage := none; let region : Option RegionImage := none;
      let c : CmdIn := opC (fun c => .fwStage c v prog region) (ci (dd 0x40 0 0 0 0x001 []));
      let s : State := tkS (svn b0) (.fwStage c v prog region); let k : HostCmd := tkK (.fwStage c v prog region);
      let fn : Fin 8 := tkF s (.fwStage c v prog region); let r : CmdRef := tkR s (.fwStage c v prog region);
      let t : State := tkT s (.fwStage c v prog region); Starts s (.fwStage c v prog region) k fn r t ∧ (let kind := fwKind c.desc;
      let slot := fwSlot c.desc; let listed : Prop := (kind ≤ 3 ∧ slot = 0) ∨ (4 ≤ kind ∧ kind ≤ 6 ∧ slot < 16);
      let good : Prop := v.signatureOk = true ∧ v.contentOk = true;
      listed ∧ HostOk (inputOf s c) c.desc.length.toNat ∧ good ∧ kind ≤ 4 ∧ v.svn < s.fuses.svnMin kind)) ∧
    (let v : ImageVerdict := vd true true 3; let prog : Option ProgramImage := none;
      let region : Option RegionImage := some { region := 3, clock := 0, cells := [], clusterTracks := [], globalTracks := [], macs := [], pins := [] }; let c : CmdIn := opC (fun c => .fwStage c v prog region) (ci (dd 0x40 0 0 0 0x504 [])); let s : State := tkS (b0) (.fwStage c v prog region); let k : HostCmd := tkK (.fwStage c v prog region); let fn : Fin 8 := tkF s (.fwStage c v prog region); let r : CmdRef := tkR s (.fwStage c v prog region); let t : State := tkT s (.fwStage c v prog region); Starts s (.fwStage c v prog region) k fn r t ∧ (let kind := fwKind c.desc; let slot := fwSlot c.desc; let listed : Prop := (kind ≤ 3 ∧ slot = 0) ∨ (4 ≤ kind ∧ kind ≤ 6 ∧ slot < 16); let good : Prop := v.signatureOk = true ∧ v.contentOk = true; let bad := region.any (fun im => t.imageRefused (Fin.ofNat 16 slot) im); listed ∧ HostOk (inputOf s c) c.desc.length.toNat ∧ good ∧ kind ≤ 4 ∧ s.fuses.svnMin kind ≤ v.svn ∧ kind = 4 ∧ bad = true))) ∧
    ((let v : ImageVerdict := vd true true 5; let prog : Option ProgramImage := none; let region : Option RegionImage := none;
      let c : CmdIn := opC (fun c => .fwStage c v prog region) (ci (dd 0x40 0 0 0 0x101 [])); let s : State := tkS (b0) (.fwStage c v prog region);
      let k : HostCmd := tkK (.fwStage c v prog region); let fn : Fin 8 := tkF s (.fwStage c v prog region);
      let r : CmdRef := tkR s (.fwStage c v prog region); let t : State := tkT s (.fwStage c v prog region);
      Starts s (.fwStage c v prog region) k fn r t ∧ (let kind := fwKind c.desc; let slot := fwSlot c.desc;
      let listed : Prop := (kind ≤ 3 ∧ slot = 0) ∨ (4 ≤ kind ∧ kind ≤ 6 ∧ slot < 16); ¬ listed)) ∧
    (let c : CmdIn := opC (fun c => .fwActivate c) (ci (dd 0x41 0 0 0 0x001 [])); let s : State := tkS (b0) (.fwActivate c);
      let k : HostCmd := tkK (.fwActivate c); let fn : Fin 8 := tkF s (.fwActivate c); let r : CmdRef := tkR s (.fwActivate c);
      let t : State := tkT s (.fwActivate c); Starts s (.fwActivate c) k fn r t ∧ (let kind := fwKind c.desc; let slot := fwSlot c.desc;
      let ready : Prop := ((kind ≤ 3 ∧ slot = 0) ∨ (kind = 4 ∧ slot < 16)) ∧ smGet (fun _ => 0) t.hst.activated (16 * kind + slot) ≠ 0; ¬ ready)) ∧
    (let c : CmdIn := opC (fun c => .fwActivate c) (ci (dd 0x41 0 0 0 0xF04 []));
      let s : State := tkS (ht (fun h => { h with activated := [(16, 1), (79, 1)] }) b0) (.fwActivate c); let k : HostCmd := tkK (.fwActivate c);
      let fn : Fin 8 := tkF s (.fwActivate c); let r : CmdRef := tkR s (.fwActivate c); let t : State := tkT s (.fwActivate c);
      Starts s (.fwActivate c) k fn r t ∧ (let kind := fwKind c.desc; let slot := fwSlot c.desc;
      let ready : Prop := ((kind ≤ 3 ∧ slot = 0) ∨ (kind = 4 ∧ slot < 16)) ∧ smGet (fun _ => 0) t.hst.activated (16 * kind + slot) ≠ 0; ready))) ∧
    (let tag : Bool := true; let c : CmdIn := opC (fun c => .keyWrap c tag) (ci (dd 0x42 0 0 0 0 []));
      let s : State := tkS (lc1 b0) (.keyWrap c tag); let k : HostCmd := tkK (.keyWrap c tag); let fn : Fin 8 := tkF s (.keyWrap c tag);
      let r : CmdRef := tkR s (.keyWrap c tag); let t : State := tkT s (.keyWrap c tag);
      Starts s (.keyWrap c tag) k fn r t ∧ HostOk (inputOf s c) c.desc.length.toNat ∧ tag = true ∧ (∃ n ∈ t.freeKeySlot, True)) ∧
    (let tag : Bool := false; let c : CmdIn := opC (fun c => .keyWrap c tag) (ci (dd 0x42 0 0 0 0 []));
      let s : State := tkS (lc1 b0) (.keyWrap c tag); let k : HostCmd := tkK (.keyWrap c tag); let fn : Fin 8 := tkF s (.keyWrap c tag);
      let r : CmdRef := tkR s (.keyWrap c tag); let t : State := tkT s (.keyWrap c tag);
      Starts s (.keyWrap c tag) k fn r t ∧ HostOk (inputOf s c) c.desc.length.toNat ∧ tag = false) ∧
    (let tag : Bool := true; let c : CmdIn := opC (fun c => .keyWrap c tag) (ci (dd 0x42 0 0 0 0 []));
      let s : State := tkS ({ (lc1 b0) with sec := { b0.sec with keySlots := 0xFFFE } }) (.keyWrap c tag); let k : HostCmd := tkK (.keyWrap c tag);
      let fn : Fin 8 := tkF s (.keyWrap c tag); let r : CmdRef := tkR s (.keyWrap c tag); let t : State := tkT s (.keyWrap c tag);
      Starts s (.keyWrap c tag) k fn r t ∧ HostOk (inputOf s c) c.desc.length.toNat ∧ tag = true ∧ t.freeKeySlot = none) :=
  ⟨holds (by letI := @decStarts; letI := @decHostOk; infer_instance) (by decide +kernel),
    holds (by letI := @decStarts; letI := @decMem; letI := @decHostOk; infer_instance) (by decide +kernel),
    holds (by letI := @decStarts; letI := @decHostOk; infer_instance) (by decide +kernel),
    holds (by letI := @decStarts; infer_instance) (by decide +kernel),
    holds (by letI := @decStarts; letI := @decMem; letI := @decHostOk; letI := @decKeySome; infer_instance) (by decide +kernel),
    holds (by letI := @decStarts; letI := @decHostOk; infer_instance) (by decide +kernel),
    holds (by letI := @decStarts; letI := @decHostOk; letI := @decKeyNone; infer_instance) (by decide +kernel)⟩

theorem witness_ModeSets :
    ((let c : CmdIn := opC (fun c => .modeSet c) (ci (dd 0x50 0 0 0 3 [])); let s : State := tkS (mode 11 b0) (.modeSet c);
      let k : HostCmd := tkK (.modeSet c); let fn : Fin 8 := tkF s (.modeSet c); let r : CmdRef := tkR s (.modeSet c);
      let t : State := tkT s (.modeSet c); Starts s (.modeSet c) k fn r t ∧ (let m := c.desc.p0.toNat % 16;
      let table : List (Nat × List Nat) := [(3, [0, 1, 6, 7, 8, 10, 11]), (6, [3]), (7, [3]), (11, [3]), (8, [3]), (9, [3, 0, 1, 11])];
      let allowed : Prop := ∃ l, (s.mode, l) ∈ table ∧ m ∈ l;
      m ≠ s.mode ∧ allowed ∧ m = 3 ∧ (m = 6 ∨ m = 7 ∨ m = 8 ∨ m = 11 ∨ (m = 3 ∧ s.mode ≠ 8 ∧ s.mode ≠ 9)))) ∧
    (let c : CmdIn := opC (fun c => .modeSet c) (ci (dd 0x50 0 0 0 0 [])); let s : State := tkS (mode 11 b0) (.modeSet c);
      let k : HostCmd := tkK (.modeSet c); let fn : Fin 8 := tkF s (.modeSet c); let r : CmdRef := tkR s (.modeSet c);
      let t : State := tkT s (.modeSet c); Starts s (.modeSet c) k fn r t ∧ (let m := c.desc.p0.toNat % 16;
      let table : List (Nat × List Nat) := [(3, [0, 1, 6, 7, 8, 10, 11]), (6, [3]), (7, [3]), (11, [3]), (8, [3]), (9, [3, 0, 1, 11])];
      let allowed : Prop := ∃ l, (s.mode, l) ∈ table ∧ m ∈ l; m ≠ s.mode ∧ ¬ allowed)) ∧
    (let c : CmdIn := opC (fun c => .modeSet c) (ci (dd 0x50 0 0 0 0 [])); let s : State := tkS (mode 3 b0) (.modeSet c);
      let k : HostCmd := tkK (.modeSet c); let fn : Fin 8 := tkF s (.modeSet c); let r : CmdRef := tkR s (.modeSet c);
      let t : State := tkT s (.modeSet c); Starts s (.modeSet c) k fn r t ∧ (let m := c.desc.p0.toNat % 16;
      let table : List (Nat × List Nat) := [(3, [0, 1, 6, 7, 8, 10, 11]), (6, [3]), (7, [3]), (11, [3]), (8, [3]), (9, [3, 0, 1, 11])];
      let allowed : Prop := ∃ l, (s.mode, l) ∈ table ∧ m ∈ l; m ≠ s.mode ∧ allowed ∧ (m = 0 ∨ m = 1 ∨ m = 10)))) ∧
    ((let c : CmdIn := opC (fun c => .modeSet c) (ci (dd 0x50 0 0 0 11 [])); let s : State := tkS (mode 11 b0) (.modeSet c);
      let k : HostCmd := tkK (.modeSet c); let fn : Fin 8 := tkF s (.modeSet c); let r : CmdRef := tkR s (.modeSet c);
      let t : State := tkT s (.modeSet c); Starts s (.modeSet c) k fn r t ∧ (let m := c.desc.p0.toNat % 16; m = s.mode)) ∧
    (let c : CmdIn := opC (fun c => .modeSet c) (ci (dd 0x50 0 0 0 3 [])); let s : State := tkS (mode 8 b0) (.modeSet c);
      let k : HostCmd := tkK (.modeSet c); let fn : Fin 8 := tkF s (.modeSet c); let r : CmdRef := tkR s (.modeSet c);
      let t : State := tkT s (.modeSet c); Starts s (.modeSet c) k fn r t ∧ (let m := c.desc.p0.toNat % 16; m = 3 ∧ (s.mode = 8 ∨ s.mode = 9)))) :=
  ⟨holds (by letI := @decStarts; letI := @decIn2; infer_instance) (by decide +kernel),
    holds (by letI := @decStarts; infer_instance) (by decide +kernel)⟩

theorem noRoom {s : State} {n : Nat} (h : s.stripRoom < n) : s.findRoom n = none := by
  unfold State.findRoom
  rw [List.find?_eq_none]
  intro o _
  simp only [Bool.and_eq_true, decide_eq_true_eq, not_and]
  omega

theorem room_b0 : b0.stripRoom = 0x180_0000 := by decide +kernel

/-- The loads that HOST_LOAD_READ chooses from, and its choice. -/
def unread (s : State) : List HostLoad := s.hst.loads.filter (fun l => decide (l.fn = 0) && l.reading.isNone)
def nextRead (s : State) : Option HostLoad := (unread s).find? (fun l => (unread s).all (fun x => decide (x.prio ≤ l.prio)))

theorem first_load (l : HostLoad) (h : l.fn = 0 ∧ l.reading = none) : nextRead (loads [l] b0) = some l := by
  have u : unread (loads [l] b0) = [l] := List.filter_cons_of_pos (by rw [h.1, h.2]; rfl)
  unfold nextRead
  rw [u]
  simp

theorem room_loads (l : List HostLoad) (s : State) : (loads l s).stripRoom = s.stripRoom := rfl

theorem noRoom_of (d : List Byte) (h : 0x180_0000 < d.length) : ∃ (s : State) (l : HostLoad),
    nextRead s = some l ∧ s.findRoom l.data.length = none :=
  ⟨loads [ld 2 4 4 none d false] b0, ld 2 4 4 none d false, first_load _ ⟨rfl, rfl⟩, noRoom (by rw [room_loads, room_b0]; exact h)⟩

/-- A host load larger than the print region finds no room. -/
theorem witness_JobLoadsNoRoom : ∃ (s : State) (l : HostLoad),
    nextRead s = some l ∧ s.findRoom l.data.length = none :=
  noRoom_of (List.replicate 0x180_0001 0) (by rw [List.length_replicate]; omega)

/-- The speeds and rates that CAMERA_CONFIG asks for. -/
abbrev speedsOk (cams : List (Fin 4 × DWord)) (rate : Nat) : Prop :=
  ∀ e ∈ cams, speedOk (wField e.2 F.CAM_CAM_CFG_SPEED) = true ∧ (wField e.2 F.CAM_CAM_CFG_ENABLE = 1 → 10 * camBits e.2 rate ≤ 9 * camPayload e.2)

def camWord : DWord := BitVec.ofNat 64 (12 * 2 ^ F.CAM_CAM_CFG_SPEED.lo)

/-- A camera of a speed that exists, and one of a speed that does not. -/
theorem witness_CameraSpeeds : speedsOk [(2, camWord)] 20000 ∧ ¬ speedsOk [(2, 0xFFFFFFF)] 20000 ∧ b0.printing = false :=
  ⟨fun e h => by rw [List.mem_singleton.mp h]; decide +kernel,
    fun h => absurd (h _ (List.mem_singleton.mpr rfl)).1 (by decide +kernel), by decide +kernel⟩

theorem witness_CameraConfig :
    (let f (c : CmdIn) : Instr := .cameraConfig c [(2, camWord)] ⟨20000, 5⟩ [⟨1, 16, some 5⟩]; let c : CmdIn := opC f (ci (dd 0x21 0 0 0 0 []));
      let s : State := tkS b0 (f c); Starts s (f c) (tkK (f c)) (tkF s (f c)) (tkR s (f c)) (tkT s (f c)) ∧ HostOk (inputOf s c) c.desc.length.toNat) :=
  holds (by letI := @decStarts; letI := @decHostOk; infer_instance) (by decide +kernel)

end N22

end Sys2Proof.Tests
end

