-- ==== Sys2Proof/Tests/Witness23.lean ====
section
/-!
SUPPORT. Witnesses for the statements about the network and the memories: concrete states and operands that meet their hypotheses.
-/

set_option Elab.async false
set_option maxRecDepth 100000
set_option synthInstance.maxSize 2000

namespace Sys2Proof.Tests
open Sys2Proof.Machine Sys2Proof.Claims

namespace N23

def b0 : State := up (memOk w0)
def ni (n : Fin 36) (f : Ni → Ni) (s : State) : State := s.modNi n f
def rep (n h : Nat) : List Nat := List.replicate n h
def enc (l : List Nat) : Nat := 2 ^ 31 + l.length * 2 ^ 24 + (l.zipIdx.map fun x => x.1 * 4 ^ x.2).foldl (· + ·) 0
def HN : Nat := 0
def HE : Nat := 1
def HS : Nat := 2
def HW : Nat := 3
def xs (a b : Nat) : List Nat := if a ≤ b then rep (b - a) HE else rep (a - b) HW
def ys (a b : Nat) : List Nat := if a ≤ b then rep (b - a) HS else rep (a - b) HN
def rA (n d : Nat) : List Nat := xs (n % 6) (d % 6) ++ ys (n / 6) (d / 6)
def rB (n d : Nat) : List Nat := if n = d then [] else if n / 6 = d / 6 then (if n / 6 = 5 then [HN] ++ xs (n % 6) (d % 6) ++ [HS] else [HS] ++ xs (n % 6) (d % 6) ++ [HN])
  else if n % 6 = d % 6 then (if n % 6 = 5 then [HW] ++ ys (n / 6) (d / 6) ++ [HE] else [HE] ++ ys (n / 6) (d / 6) ++ [HW]) else ys (n / 6) (d / 6) ++ xs (n % 6) (d % 6)
def tab (n : Nat) : SMap DWord := (List.range 36).map fun d => (d, BitVec.ofNat 64 (enc (rA n d) + 2 ^ 32 * enc (rB n d)))
def tabs (s : State) : State := (List.finRange 36).foldl (fun s n => ni n (fun x => { x with written := (tab n).filter (fun e => e.2 != 0), inForce := (tab n).filter (fun e => e.2 != 0) }) s) s
def nt (f : Net → Net) (s : State) : State := { s with net := f s.net }

def pk (op : Fin 6) (addr n : Nat) (data : List Byte) : Packet := { src := 7, ssub := 0, dst := 2, dsub := 0, epoch := 0, seq := 4, op := op, bclass := 0, addr := BitVec.ofNat 48 addr, bytes := BitVec.ofNat 10 n, data := data }
def rq (d : Nat) (q : Nat) (h : Bool) : NetReq := { dst := d, seq := BitVec.ofNat 8 q, epoch := 0, read := false, held := h, early := h, pkt := pk 0 64 8 [] }
def fl (i : Nat) (u : Fin 4) (w : Nat) : Flight := { pkt := { pk 1 64 8 [1,2,3] with urg := u }, at_ := 7, input := i, hop := 1, ready := 0, waited := w, total := w + 250, arrived := false }
def reset2 (s : State) : State := ni 2 (fun x => { x with resetting := true }) s
def off2 (s : State) : State := ni 2 (fun x => { x with powered := false }) s
def rec2 (s : State) : State := ni 2 (fun x => { x with recorded := [{ src := 7, seq := 4, status := 5, data := [9] }] }) s
def hole : Nat := 0xFFFFFFFFF000
def sram (m : Nat) (l : List (Nat × Cell)) (s : State) : State := l.foldl (fun s e => s.setCell m e.1 e.2) s
def jr : Job := { job0 with nextSlot := 6, complete := 4, claimed := 3, fired := 2 }
def wdt (d : Fin 4) (s : State) : State := fz F.DEV_WDT_ENABLE 1 s d
def rest (d : Fin 4) (s : State) : State := dev d (fun x => { x with restarting := some 2 }) s

theorem witness_Routes :
    ((let s : State := b0; let a : Agent := .pf; let ni : Fin 36 := 5; Permits s a .NOC_RT_DATA ni) ∧
    (let s : State := ni 4 (fun x => { x with reqs := [rq 5 1 true, rq 5 2 false] }) (tabs b0); let a : Agent := mc4;
      Permits s a .NOC_RT_CTL 0 ∧ s.commitFault = none ∧ s.net.retrained = [] ∧ (∀ n : Fin 36, (s.net.nis[n]).waitReqs = []))) ∧
    (let s : State := b0; let a : Agent := .pf; Permits s a .NOC_RT_CTL 0 ∧ (∃ k ∈ s.commitFault, k < 4096)) ∧
    (let s : State := b0; let n : Fin 36 := 5; let d : Fin 36 := 6; entryOk n d (Ni.entry (s.net.nis[n]).written d) = false) ∧
    ((let s : State := ni 4 (fun x => { x with waitReqs := [{ pk 0 64 8 [] with dst := 5, seq := 1 }] }) (tabs b0); let ni : Fin 36 := 4;
      let dst : Fin 36 := 5; let seq : BitVec 8 := 1; let find := (s.net.nis[ni]).reqs.find? (fun r => decide (r.dst = dst.val ∧ r.seq = seq) && r.held); let unsent := (s.net.nis[ni]).waitReqs.find? (fun p => decide (p.dst = dst ∧ p.seq = seq)); find = none ∧ (unsent = none ∨ s.stranded ni dst = false) ∧ (∃ p ∈ unsent, (s.net.nis[ni]).waitReqs = [p])) ∧
    (let s : State := ni 4 (fun x => { x with reqs := [rq 5 1 true, rq 5 2 false, rq 6 2 false] }) (tabs b0); let ni : Fin 36 := 4;
      let dst : Fin 36 := 5; let seq : BitVec 8 := 1; let find := (s.net.nis[ni]).reqs.find? (fun r => decide (r.dst = dst.val ∧ r.seq = seq) && r.held); (∃ r ∈ find, (s.net.nis[ni]).waitReqs = [])) ∧
    (let s : State := nt (fun n => { n with down := List.range 72 }) (ni 4 (fun x => { x with waitReqs := [{ pk 0 64 8 [] with dst := 5, seq := 1 }] }) (tabs b0)); let ni : Fin 36 := 4; let dst : Fin 36 := 5; let seq : BitVec 8 := 1; let find := (s.net.nis[ni]).reqs.find? (fun r => decide (r.dst = dst.val ∧ r.seq = seq) && r.held); let unsent := (s.net.nis[ni]).waitReqs.find? (fun p => decide (p.dst = dst ∧ p.seq = seq)); find = none ∧ (∃ p ∈ unsent, (s.net.nis[ni]).waitReqs = [p] ∧ s.stranded ni dst = true))) ∧
    (let s : State := ni 4 (fun x => { x with reqs := [rq 5 1 true, rq 5 2 false, rq 6 2 false] }) (tabs b0); let ni : Fin 36 := 4;
      s.net.flights = [] ∧ (s.net.nis[ni]).waitReqs = []) :=
  ⟨holds (by letI := @decPermits; infer_instance) (by decide +kernel),
    holds (by letI := @decPermits; letI := @decMem; infer_instance) (by decide +kernel),
    by decide +kernel,
    holds (by letI := @decMem; infer_instance) (by decide +kernel),
    by decide +kernel⟩

theorem witness_LinkFailures :
    (let s : State := fz F.NOC_LINK_FAIL_VALID 1 (nt (fun n => { n with down := [3], retries := [(16, List.replicate 15 0)] }) (tabs b0));
      let router : Fin 36 := 8; let south : Bool := false; let c : Instr := .linkLevelRetry router south;
      let l := 2 * router.val + (if south then 1 else 0); let times := (s.devTime.toNat :: smGet (fun _ => []) s.net.retries l).filter (fun t => decide (s.devTime.toNat - t < 200)); (c = .linkDown router south ∨ (c = .linkLevelRetry router south ∧ 16 ≤ times.length)) ∧ s.net.down.contains l = false ∧ s.active = true) ∧
    (let s : State := mode 1 b0; let router : Fin 36 := 8; let south : Bool := false; let c : Instr := .linkDown router south;
      let l := 2 * router.val + (if south then 1 else 0); let times := (s.devTime.toNat :: smGet (fun _ => []) s.net.retries l).filter (fun t => decide (s.devTime.toNat - t < 200)); (c = .linkDown router south ∨ (c = .linkLevelRetry router south ∧ 16 ≤ times.length)) ∧ (s.net.down.contains l = true ∨ s.active = false)) ∧
    (let s : State := nt (fun n => { n with down := [3, 16], retries := [(16, List.replicate 14 0)] }) (tabs b0); let router : Fin 36 := 8;
      let south : Bool := false; let l := 2 * router.val + (if south then 1 else 0);
      let times := (s.devTime.toNat :: smGet (fun _ => []) s.net.retries l).filter (fun t => decide (s.devTime.toNat - t < 200));
      times.length < 16) :=
  by decide +kernel

theorem witness_NetworkRequests :
    ((let s : State := b0; let p : Packet := pk 1 64 8 [1,2,3]; let x : Ni := s.net.nis[p.dst];
      let comes : Prop := s.active = true ∧ p.op ≠ 5 ∧ s.net.flights = [] ∧ (s.outstanding p = true ∨ s.maySend p = true);
      let serves : Prop := comes ∧ x.resetting = false ∧ x.powered = true;
      let known := x.recorded.find? (fun o => decide (o.src = p.src.val ∧ o.seq = p.seq));
      s.active = true ∧ p.op ≠ 5 ∧ s.outstanding p = false ∧ serves ∧ comes ∧ x.resetting = false ∧ p.op ≠ 0 ∧ (let off := p.addr.toNat;
      serves ∧ p.op = 1 ∧ s.placeOf p.addr.toNat p.data.length = .mem 3 off ∧ p.data ≠ [] ∧ known = none) ∧ (let off := p.addr.toNat; serves)) ∧
    (let s : State := b0; let p : Packet := pk 0 64 8 []; let x : Ni := s.net.nis[p.dst];
      let comes : Prop := s.active = true ∧ p.op ≠ 5 ∧ s.net.flights = [] ∧ (s.outstanding p = true ∨ s.maySend p = true);
      let serves : Prop := comes ∧ x.resetting = false ∧ x.powered = true; let off := p.addr.toNat;
      serves ∧ p.op = 0 ∧ s.placeOf p.addr.toNat p.bytes.toNat = .mem 3 off ∧ (s.readRange p.src 3 off p.bytes.toNat).1 = false)) ∧
    (let s : State := b0; let p : Packet := { pk 0 0 8 [] with addr := holeAddr }; let x : Ni := s.net.nis[p.dst];
      let comes : Prop := s.active = true ∧ p.op ≠ 5 ∧ s.net.flights = [] ∧ (s.outstanding p = true ∨ s.maySend p = true);
      let serves : Prop := comes ∧ x.resetting = false ∧ x.powered = true;
      let known := x.recorded.find? (fun o => decide (o.src = p.src.val ∧ o.seq = p.seq));
      serves ∧ s.place p.addr.toNat = .hole ∧ (p.op = 0 ∨ known = none)) ∧
    ((let s : State := b0; let p : Packet := pk 5 64 8 []; (s.active = false ∨ p.op = 5)) ∧
    (let s : State := ni 7 (fun x => { x with waitReqs := [{ pk 0 64 8 [] with dst := 2, seq := 1 }] }) (tabs b0); let p : Packet := pk 1 64 8 [1,2];
      s.active = true ∧ p.op ≠ 5 ∧ s.outstanding p = false ∧ s.maySend p = false) ∧
    (let s : State := off2 b0; let p : Packet := pk 0 64 8 []; let x : Ni := s.net.nis[p.dst];
      let comes : Prop := s.active = true ∧ p.op ≠ 5 ∧ s.net.flights = [] ∧ (s.outstanding p = true ∨ s.maySend p = true);
      comes ∧ x.resetting = false ∧ x.powered = false)) ∧
    (let s : State := rec2 b0; let p : Packet := pk 1 64 8 [1,2]; let x : Ni := s.net.nis[p.dst];
      let comes : Prop := s.active = true ∧ p.op ≠ 5 ∧ s.net.flights = [] ∧ (s.outstanding p = true ∨ s.maySend p = true);
      let serves : Prop := comes ∧ x.resetting = false ∧ x.powered = true;
      let known := x.recorded.find? (fun o => decide (o.src = p.src.val ∧ o.seq = p.seq)); serves ∧ p.op ≠ 0 ∧ (∃ o ∈ known, True)) ∧
    ((let s : State := reset2 b0; let p : Packet := pk 0 64 8 []; let x : Ni := s.net.nis[p.dst];
      let comes : Prop := s.active = true ∧ p.op ≠ 5 ∧ s.net.flights = [] ∧ (s.outstanding p = true ∨ s.maySend p = true);
      comes ∧ x.resetting = true) ∧
    (let n : Net := { b0.net with flights := [fl 0 1 3, fl 1 2 2] }; let t : Nat := 100; let f : Flight := fl 0 1 3; let g : Flight := fl 1 2 2;
      n.flights = [f, g] ∧ f.ready = 0 ∧ g.ready = 0 ∧ f.arrived = false ∧ g.arrived = false ∧ f.at_ = g.at_ ∧ f.input ≠ g.input ∧ f.output = 4 ∧ g.output = 4 ∧ f.waited < 2 ^ 64 ∧ g.waited < 2 ^ 64 ∧ (smGet (fun _ => (4, 0)) n.outputs (5 * f.at_ + 4)).2 ≤ t ∧ (f.pkt.urg < g.pkt.urg ∨ (f.pkt.urg = g.pkt.urg ∧ f.waited < g.waited))) ∧
    (let s : State := b0; let ni : Fin 36 := 2; s.active = true ∧ (∀ n ∈ domainOf ni, (s.net.nis[n]).heldReqs = []))) ∧
    (let s : State := mode 1 b0; s.active = false) :=
  ⟨by decide +kernel,
    holds (by letI := @decHole; infer_instance) (by decide +kernel),
    by decide +kernel,
    holds (by letI := @decMem; infer_instance) (by decide +kernel),
    by decide +kernel,
    by decide +kernel⟩

theorem witness_MemoryProtection :
    ((let s : State := b0; let m : Fin 17 := 2; let lo := s.fv F.ECC_SCRUB_RANGE_LO m; let hi := s.fv F.ECC_SCRUB_RANGE_HI m;
      let p := smGet (fun _ => 0) s.net.scrubPos m; let w := if p < lo ∨ hi < p then lo else p;
      let idle : Prop := s.active = false ∨ s.on F.ECC_SCRUB_RATE m = false ∨ hi < lo ∨ memWords m ≤ w ∨ (m = 0 ∧ ∃ d : Fin 4, s.arrayWork d = true);
      idle) ∧
    (let s : State := fz F.ECC_SCRUB_RATE 1 (fz F.ECC_SCRUB_RANGE_LO 3 (fz F.ECC_SCRUB_RANGE_HI 7 b0 0) 0) 0; let m : Fin 17 := 0;
      let lo := s.fv F.ECC_SCRUB_RANGE_LO m; let hi := s.fv F.ECC_SCRUB_RANGE_HI m; let p := smGet (fun _ => 0) s.net.scrubPos m;
      let w := if p < lo ∨ hi < p then lo else p; let idle : Prop := s.active = false ∨ s.on F.ECC_SCRUB_RATE m = false ∨ hi < lo ∨ memWords m ≤ w ∨ (m = 0 ∧ ∃ d : Fin 4, s.arrayWork d = true); ¬ idle)) ∧
    ((let s : State := b0; let a : Agent := .pf; let v : DWord := BitVec.ofNat 64 (5 * 2 ^ 32 + 2 ^ 31 + 16);
      Permits s a .ECC_SCAN_CTL 0 ∧ (let mem := v.toNat % 32; s.net.scan = none ∧ mem ≤ 16)) ∧
    (let s : State := b0; let a : Agent := .pf; let v : DWord := BitVec.ofNat 64 (5 * 2 ^ 32 + 2 ^ 31 + 17);
      Permits s a .ECC_SCAN_CTL 0 ∧ (let mem := v.toNat % 32; (s.net.scan ≠ none ∨ 16 < mem)))) ∧
    (let s : State := sram 1 [(3, .ue 5), (4, .ce 7)] (nt (fun n => { n with scan := some { mem := 1, start := 0, length := 8, cmd := some (cmd0, [(0, 64)]) } }) b0); (∃ p ∈ s.net.scan, (let r := s.scanWords p; (∃ w_ ∈ p.cmd, r.1 < 2 ^ 32 ∧ r.2.1.length < 2 ^ 32)))) ∧
    (let s : State := b0; s.net.scan = none) ∧
    (let s : State := sram 1 [(3, .ue 5), (4, .ce 7)] (nt (fun n => { n with scan := some { mem := 1, start := 0, length := 8, cmd := none } }) b0);
      (∃ p ∈ s.net.scan, p.cmd = none)) ∧
    (let s : State := b0; let a : Agent := .pf; Permits s a .ECC_INIT 0) ∧
    ((let s : State := b0; let m : Fin 17 := 5; let set : Prop := m ≠ 0 ∧ (s.fv F.ECC_INIT_MEM).testBit (m.val - 1) = true; ¬ set) ∧
    (let s : State := sram 5 [(3, .ue 5), (4, .ce 7)] (fz F.ECC_INIT_MEM 0xFFFF b0); let m : Fin 17 := 5;
      let set : Prop := m ≠ 0 ∧ (s.fv F.ECC_INIT_MEM).testBit (m.val - 1) = true; set)) ∧
    (let s : State := b0; let a : Agent := .pf; Permits s a .ECC_FLIP_CTL 0) ∧
    ((let s : State := sram 2 [(7, .ce 5)] b0; let m : Nat := 2; let cw : Nat := 7; 1 ≤ m ∧ m ≤ 16 ∧ m ≠ 3 ∧ (let d : DWord := 5;
      s.cell m cw = .ce d ∧ (∃ i ∈ [(0 : Nat), 1], i ≠ cw)) ∧ (let i := 0; let j := 63; i ≠ j ∧ i < 64 ∧ j < 64)) ∧
    (let s : State := sram 2 [(7, .ue 5)] b0; let m : Nat := 2; let cw : Nat := 7; 1 ≤ m ∧ m ≤ 16 ∧ m ≠ 3 ∧ (let d : DWord := 5;
      s.cell m cw = .ue d ∧ cw < 2 ^ 32)) ∧
    (let s : State := sram 2 [(7, .ok 5)] b0; let m : Nat := 2; let cw : Nat := 7; 1 ≤ m ∧ m ≤ 16 ∧ m ≠ 3 ∧ (let d : DWord := 5;
      s.cell m cw = .ok d))) ∧
    (let s : State := sram 16 [(7, .poison)] b0; let m : Nat := 16; let cw : Nat := 7; 1 ≤ m ∧ m ≤ 16 ∧ m ≠ 3 ∧ s.cell m cw = .poison) :=
  ⟨by decide +kernel,
    holds (by letI := @decPermits; infer_instance) (by decide +kernel),
    holds (by letI := @decMem; infer_instance) (by decide +kernel),
    by decide +kernel,
    holds (by letI := @decMem; infer_instance) (by decide +kernel),
    holds (by letI := @decPermits; infer_instance) (by decide +kernel),
    by decide +kernel,
    holds (by letI := @decPermits; infer_instance) (by decide +kernel),
    by decide +kernel,
    by decide +kernel⟩

theorem witness_WarmRestarts :
    ((let s : State := b0; let d : Fin 4 := 0; let due : Prop := s.on F.DEV_WDT_ENABLE d = true ∧ s.expected d = true ∧ (s.devs[d]).restarting = none; ¬ due) ∧
    (let s : State := fz F.SHT_RESERVE_TARGET 9 (wdt 0 (withJob { jr with length := 6 } (mode 4 b0))); let d : Fin 4 := 0;
      let due : Prop := s.on F.DEV_WDT_ENABLE d = true ∧ s.expected d = true ∧ (s.devs[d]).restarting = none; due)) ∧
    (let s : State := dev 0 (fun d => { d with slot := some { n := 3, win := 0, inspecting := false } }) (rest 0 (withJob jr (mode 4 b0)));
      let d : Fin 4 := 0; (s.devs[d]).restarting ≠ none ∧ (∃ j ∈ s.job, s.slotDone d j = false) ∧ (∃ cause ∈ (s.devs[d]).restarting, True)) ∧
    (let s : State := b0; let d : Fin 4 := 0; (s.devs[d]).restarting = none) ∧
    (let s : State := rest 0 (withJob jr (mode 4 b0)); let d : Fin 4 := 0;
      (∃ cause ∈ (s.devs[d]).restarting, (s.job = none ∨ (∃ j, s.job = some j ∧ s.slotDone d j = true)))) :=
  ⟨by decide +kernel,
    holds (by letI := @decMem; infer_instance) (by decide +kernel),
    by decide +kernel,
    holds (by letI := @decMem; infer_instance) (by decide +kernel)⟩

theorem witness_DdrChannelLoss :
    (({ b0 with mems := { b0.mems with ddrLost := 1 } } : State).mems.ddrLost.testBit 0 = true) ∧
    (let s : State := b0; let w : Nat := s.copyStart / 8; s.mems.ddrLost.testBit 3 = false ∧ s.active = true ∧ s.mems.ddr.lost ≤ w ∧
      s.copyStart * 3 / 4 < s.mirrorStart) :=
  ⟨by decide +kernel, by decide +kernel⟩

end N23

end Sys2Proof.Tests
end

