-- ==== Sys2Proof/Tests/Witness24.lean ====
section
/-!
SUPPORT. Witnesses for the statements about power, resets and boot: concrete states and operands that meet their hypotheses.
-/

set_option Elab.async false
set_option maxRecDepth 100000
set_option synthInstance.maxSize 2000

namespace Sys2Proof.Tests
open Sys2Proof.Machine Sys2Proof.Claims

namespace N24

def b0 : State := up (memOk w0)
def hd : Held := { b := 20, onlyHold := true, timer := some 4, gated := [], waiting := [], endWaits := false, abrupt := false }
def reel (o : Fin 8) (st : ReelState) (n : Nat) : Reel := { gen := 1, state := st, owner := o, length := n, data := [(0, 7), (5, 9)], imported := false, key := 77, chunkWrites := [], tags := [], stripes := [], loaded := false }
def ses0 : Session := { port := 1, fn := some 2, mask := 5, owed := [7, 8], accepted := 4, evSeq := 2, seqOut := 6 }
def busy : State := let s := (withJob { job0 with reel := 0x1002 } (mode 4 b0)).setReel 0x1002 (some (reel 0 .inUse 9)); let s := s.setReel 0x1003 (some { reel 0 .inUse 9 with loaded := true })
  let s := fz F.LP_CTL_CLAIM 1 (fz F.FAB_PIN_OWNER_OWNER 2 (fz F.SHT_DOUT_CTL_LEVEL 1 (s.setSession 3 (some ses0)) 5))
  { s with sht := { s.sht with held := some hd, wired := 5, dout := s.sht.dout.set 5 { pulse := true } }, pwr := { s.pwr with fieldLow := false, lost := 1 }, sec := { s.sec with verifying := true }, cs := { s.cs with records := [{ seq := 7, ty := 1, source := 2, flags := 0, time := 5, line := 4, mode := 3, redund := 0, powerOn := 1, data := [1,2], merged := none, job := 0 }] }, hst := { s.hst with pending := [{ cmd := cmd0, fn := 0, line := 5, change := none, table := 3, insp := false, plane := 0, data := [], arrived := true, late := false, held := true }] } }
def dr (m : Nat) (s : State) : State := fz F.SYS_MODE_TRANS 1 { s with pwr := { s.pwr with drain := some { target := m, cmd := cmd0 } } }
def pw (f : Pwr → Pwr) (s : State) : State := { s with pwr := f s.pwr }
def d2 (l keep : Nat) (lc : Nat) (s : State) : State := fz F.DBG_STATUS_LEVEL l (fz F.DBG_CTL_DBG_KEEP keep { s with fuses := { s.fuses with lcOpen := 0xFF, lcSealed := if lc = 2 then 0xFF else 0 } })
def halt (s : State) : State := [4,5,6,7].foldl (fun s c => s.modCore c fun k => { k with halted := true }) s
def boot (n : Nat) : State := fz F.SYS_BOOT_STAGE n (mode 2 (up State.reset))
def bad (s : State) : State := fz F.SYS_BOOT_FAIL 3 s
def vd (n : Nat) : ImageVerdict := { signatureOk := true, contentOk := true, svn := n, floor := true }
def acm (s : State) : State := { s with hst := { s.hst with accepted := [{ cmd := cmd0, desc := desc0 }] } }

theorem witness_SafeEntry :
    (let s : State := busy; let cause : Nat := 15; s.active = true ∧ cause < 16 ∧ (let t := s.safeEntry cause;
      s.mode ≠ 9 ∧ s.job ≠ none ∧ (∃ r : Fin 16, r.val < 8) ∧ (∃ e ∈ t.store.reels, (∃ x ∈ e.2, True)) ∧ (∃ j ∈ s.job, (∃ x ∈ s.reelAt j.reel, x.state = .inUse)))) ∧
    ((let s : State := mode 9 busy; let cause : Nat := 0; s.active = true ∧ cause < 16 ∧ s.mode = 9) ∧
    (let s : State := busy; s.active = true) ∧
    (let s : State := mode 1 busy; s.active = false)) :=
  ⟨holds (by letI := @decMem; infer_instance) (by decide +kernel),
    by decide +kernel⟩

theorem witness_ResetsAndPowerDown :
    ((let last : Nat := 7; last < 8) ∧
    (let s : State := d2 1 0 2 busy; let m : Nat := 1; (m = 0 ∨ m = 1 ∨ m = 10) ∧ m ≠ 0 ∧ (s.dbgLevel ≤ 1 ∨ (s.fuses.lc ≠ 2 ∧ s.on F.DBG_CTL_DBG_KEEP = true))) ∧
    (let s : State := busy; let m : Nat := 0; (m = 0 ∨ m = 1 ∨ m = 10) ∧ (m = 0 ∨ (s.dbgLevel = 2 ∧ (s.fuses.lc = 2 ∨ s.on F.DBG_CTL_DBG_KEEP = false))))) ∧
    ((let s : State := busy; s.mode ≠ 0 ∧ (let halted : Prop := ∀ c : Fin 8, 4 ≤ c.val → (s.cores[c]).halted = true; s.active = true ∧ ¬ halted)) ∧
    (let s : State := mode 0 busy; s.mode = 0 ∧ (let halted : Prop := ∀ c : Fin 8, 4 ≤ c.val → (s.cores[c]).halted = true;
      (s.active = false ∨ halted)))) :=
  ⟨by decide +kernel,
    by decide +kernel⟩

theorem witness_StartsAndWakes :
    ((let s : State := busy; let c : Instr := .powerOnReset;
      (c = .powerOnReset ∨ (c = .mainsApplied ∧ s.mode = 0 ∧ s.on F.PWR_CFG_AUTO_ON = true) ∨ (c = .powerButtonPress ∧ s.mode = 0 ∧ s.pwr.lost ≠ 3))) ∧
    (let s : State := fz F.PWR_CFG_WAKE_IN_EN 1 (fz F.PWR_CFG_AUTO_ON 0 (mode 0 (pw (fun p => { p with lost := 3, fieldLow := true }) busy)));
      s.mode = 0 ∧ s.pwr.lost = 3 ∧ s.on F.PWR_CFG_AUTO_ON = false ∧ s.on F.PWR_CFG_WOL_EN = false ∧ (s.on F.PWR_CFG_WAKE_IN_EN = false ∨ s.pwr.fieldLow = true)) ∧
    (let s : State := busy; s.mode ≠ 0)) ∧
    (let s : State := fz F.PWR_CFG_WAKE_IN_EN 1 busy; let c : Instr := .wakeIn; let u : State := s;
      ((c = .wakeOnLan ∧ s.on F.PWR_CFG_WOL_EN = true ∧ u = s) ∨ (c = .wakeIn ∧ s.on F.PWR_CFG_WAKE_IN_EN = true ∧ s.pwr.fieldLow = false ∧ u = s) ∨ (c = .powerButtonPress ∧ s.mode ≠ 0 ∧ u = s) ∨ (∃ a, c = .wake a ∧ Permits s a .PWR_WAKE 0 ∧ u = s.unlatch .PWR_WAKE 0)) ∧ s.pwr.drain = none ∧ s.mode ≠ 1 ∧ s.mode ≠ 10) ∧
    (let s : State := dr 10 busy; let c : Instr := .wake .pf; let u : State := s.unlatch .PWR_WAKE 0;
      ((c = .wakeOnLan ∧ s.on F.PWR_CFG_WOL_EN = true ∧ u = s) ∨ (c = .wakeIn ∧ s.on F.PWR_CFG_WAKE_IN_EN = true ∧ s.pwr.fieldLow = false ∧ u = s) ∨ (c = .powerButtonPress ∧ s.mode ≠ 0 ∧ u = s) ∨ (∃ a, c = .wake a ∧ Permits s a .PWR_WAKE 0 ∧ u = s.unlatch .PWR_WAKE 0)) ∧ (∃ d ∈ s.pwr.drain, True)) ∧
    (let s : State := fz F.PWR_CFG_WOL_EN 1 (mode 1 busy); let c : Instr := .wakeOnLan; let u : State := s;
      ((c = .wakeOnLan ∧ s.on F.PWR_CFG_WOL_EN = true ∧ u = s) ∨ (c = .wakeIn ∧ s.on F.PWR_CFG_WAKE_IN_EN = true ∧ s.pwr.fieldLow = false ∧ u = s) ∨ (c = .powerButtonPress ∧ s.mode ≠ 0 ∧ u = s) ∨ (∃ a, c = .wake a ∧ Permits s a .PWR_WAKE 0 ∧ u = s.unlatch .PWR_WAKE 0)) ∧ s.pwr.drain = none ∧ (s.mode = 1 ∨ s.mode = 10)) :=
  ⟨by decide +kernel,
    holds (by letI := @decPermits; letI := @decWake; infer_instance) (by decide +kernel),
    holds (by letI := @decPermits; letI := @decMem; letI := @decWake; infer_instance) (by decide +kernel),
    holds (by letI := @decPermits; letI := @decWake; infer_instance) (by decide +kernel)⟩

theorem witness_Drains :
    (let s : State := dr 0 b0; (∃ d ∈ s.pwr.drain, s.runningCmds = [] ∧ (d.target = 0 ∨ d.target = 1 ∨ d.target = 10))) ∧
    ((let s : State := b0; (s.pwr.drain = none ∨ s.runningCmds ≠ [])) ∧
    (let s : State := b0; s.pwr.drain = none) ∧
    (let s : State := dr 1 (acm b0); s.pwr.drain ≠ none)) :=
  ⟨holds (by letI := @decMem; infer_instance) (by decide +kernel),
    by decide +kernel⟩

theorem witness_BootStages :
    ((let s : State := boot 8; let ok : Bool := true; let stage := s.fv F.SYS_BOOT_STAGE; s.mode = 2 ∧ ok = true ∧ stage = 8 ∧ s.pwr.bootFrom < 16) ∧
    (let s : State := boot 4; let ok : Bool := false; let stage := s.fv F.SYS_BOOT_STAGE; s.mode = 2 ∧ ok = false ∧ 4 ≤ stage ∧ stage ≤ 7) ∧
    (let s : State := b0; s.mode ≠ 2)) ∧
    ((let s : State := boot 1; let ok : Bool := true; let stage := s.fv F.SYS_BOOT_STAGE; s.mode = 2 ∧ ok = true ∧ (stage = 1 ∨ stage = 2)) ∧
    (let s : State := boot 3; let ok : Bool := false; let stage := s.fv F.SYS_BOOT_STAGE; s.mode = 2 ∧ ok = false ∧ stage = 3) ∧
    (let s : State := boot 3; let ok : Bool := true; let stage := s.fv F.SYS_BOOT_STAGE; s.mode = 2 ∧ ok = true ∧ stage = 3)) ∧
    ((let s : State := boot 4; let ok : Bool := true; let stage := s.fv F.SYS_BOOT_STAGE; s.mode = 2 ∧ ok = true ∧ stage = 4) ∧
    (let s : State := boot 5; let ok : Bool := true; let stage := s.fv F.SYS_BOOT_STAGE; s.mode = 2 ∧ ok = true ∧ stage = 5) ∧
    (let s : State := boot 6; let ok : Bool := true; let stage := s.fv F.SYS_BOOT_STAGE; s.mode = 2 ∧ ok = true ∧ stage = 6)) ∧
    ((let s : State := boot 7; let ok : Bool := true; let stage := s.fv F.SYS_BOOT_STAGE; s.mode = 2 ∧ ok = true ∧ stage = 7) ∧
    (let s : State := bad (boot 3); let ok : Bool := false; let opens : Prop := s.mode = 2 ∧ s.fv F.SYS_BOOT_FAIL = 3; opens ∧ ok = false) ∧
    (let s : State := b0; let opens : Prop := s.mode = 2 ∧ s.fv F.SYS_BOOT_FAIL = 3; ¬ opens)) ∧
    (let s : State := bad (boot 3); let ok : Bool := true; let opens : Prop := s.mode = 2 ∧ s.fv F.SYS_BOOT_FAIL = 3; opens ∧ ok = true) :=
  ⟨by decide +kernel,
    by decide +kernel,
    by decide +kernel,
    by decide +kernel,
    by decide +kernel⟩

end N24

end Sys2Proof.Tests
end

