-- ==== Sys2Proof/Tests/Witness25.lean ====
section
/-!
SUPPORT. Witnesses for the statements about the mains, the reference and industrial I/O: concrete states and operands that meet their hypotheses.
-/

set_option Elab.async false
set_option maxRecDepth 100000
set_option synthInstance.maxSize 2000

namespace Sys2Proof.Tests
open Sys2Proof.Machine Sys2Proof.Claims

namespace N25

def b0 : State := up (memOk w0)
def pw (f : Pwr → Pwr) (s : State) : State := { s with pwr := f s.pwr }
def rdy (s : State) : State := fz F.PWR_STATUS_HOLDUP_READY 1 s
def buf (s : State) : State := { s with store := { s.store with buffered := [(2, 0, 5)] } }
def hup (s : State) : State := pw (fun p => { p with holdingUp := true, lost := 3 }) { s with store := { s.store with writesBarred := true } }
def fld (s : State) : State := pw (fun p => { p with fieldLow := false }) s
def src (s : State) : State := fz F.SYS_CLK_CTL_SRC 1 s
def jw : Job := { job0 with phase := .awaitStart, startMode := 2, startIn := 5 }
def dr (m : Nat) (s : State) : State := fz F.SYS_MODE_TRANS 1 { s with pwr := { s.pwr with drain := some { target := m, cmd := cmd0 } } }
def ov (s : State) : State := fz F.SHT_DOUT_CTL_LEVEL 1 { s with sht := { s.sht with dout := s.sht.dout.set 5 { overload := true }, enc := s.sht.enc.set 2 { folded := true } } } 5

theorem witness_MainsAndHoldup :
    ((let s : State := buf (pw (fun p => { p with lost := 2 }) b0); let u : Fin 2 := 0;
      s.pwr.lost.getLsbD u.val = false ∧ s.pwr.lost ≠ 0 ∧ s.mode ≠ 0 ∧ s.on F.PWR_STATUS_HOLDUP_READY = false) ∧
    (let s : State := mode 0 b0; let u : Fin 2 := 1; s.pwr.lost.getLsbD u.val = false ∧ s.mode = 0 ∧ s.pwr.lost = 0) ∧
    (let s : State := b0; s.pwr.lost = 0 ∧ s.mode ≠ 0)) ∧
    ((let s : State := hup b0; let u : Fin 2 := 0; s.pwr.lost.getLsbD u.val = true) ∧
    (let s : State := rdy (buf (pw (fun p => { p with lost := 2 }) b0)); let u : Fin 2 := 0;
      s.pwr.lost ≠ 0 ∧ s.pwr.lost.getLsbD u.val = false ∧ s.mode ≠ 0 ∧ s.on F.PWR_STATUS_HOLDUP_READY = true) ∧
    (let s : State := b0; s.mode ≠ 0)) ∧
    ((let s : State := mode 0 b0; s.mode = 0) ∧
    (let s : State := b0; s.pwr.holdingUp = false ∧ s.mode ≠ 0) ∧
    (let s : State := hup (rdy (mode 1 b0)); s.pwr.holdingUp = true)) ∧
    (let s : State := mode 0 b0; s.mode = 0) :=
  ⟨by decide +kernel,
    by decide +kernel,
    by decide +kernel,
    by decide +kernel⟩

theorem witness_PulsePerSecondStamps :
    (let s : State := fz F.SYS_CLK_CTL_PPS_EN 1 { b0 with devTime := 0x123456789A }; s.mode ≠ 0) :=
  by decide +kernel

theorem witness_ReferenceAndCooling :
    ((let s : State := fz F.SYS_CLK_STATUS_STATE 1 (src (mode 1 b0)); s.mode ≠ 0 ∧ s.on F.SYS_CLK_CTL_SRC = true ∧ s.fv F.SYS_CLK_STATUS_STATE = 1) ∧
    (let s : State := b0; s.mode ≠ 0 ∧ s.on F.SYS_CLK_CTL_SRC = false ∧ (s.on F.SYS_CLK_CTL_SRC = false ∨ s.fv F.SYS_CLK_STATUS_STATE ≠ 1)) ∧
    (let s : State := mode 0 b0; s.mode = 0)) ∧
    ((let s : State := b0; s.mode ≠ 0) ∧
    (let s : State := mode 0 b0; s.mode = 0) ∧
    (let s : State := mode 1 b0; s.active = false)) ∧
    (let s : State := b0; s.active = true) :=
  ⟨by decide +kernel,
    by decide +kernel,
    by decide +kernel⟩

theorem witness_IndustrialInputsAndOutputs :
    (let s : State := fld (withJob jw (mode 4 b0)); let n : Fin 16 := 5;
      s.active = true ∧ s.pwr.fieldLow = false ∧ (∃ j ∈ s.job, j.phase = .awaitStart ∧ j.startMode = 2 ∧ j.startIn = n ∧ s.on F.SHT_DIN_CTL_LEVEL n = false ∧ s.on F.PWR_CFG_WAKE_IN_EN = false)) ∧
    ((let s : State := fz F.PWR_CFG_WAKE_IN 5 (fz F.PWR_CFG_WAKE_IN_EN 1 (fld (mode 1 b0))); let n : Fin 16 := 5;
      (s.mode = 1 ∨ s.mode = 10) ∧ s.pwr.fieldLow = false ∧ s.job = none ∧ s.pwr.drain = none ∧ s.on F.PWR_CFG_WAKE_IN_EN = true ∧ s.fv F.PWR_CFG_WAKE_IN = n.val) ∧
    (let s : State := fld b0; s.active = true ∧ s.pwr.fieldLow = false ∧ s.job = none ∧ s.pwr.drain = none) ∧
    (let s : State := b0; (s.mode = 0 ∨ s.pwr.fieldLow = true))) ∧
    ((let s : State := b0; s.active = true ∧ s.job = none ∧ s.pwr.drain = none) ∧
    (let s : State := mode 1 b0; s.active = false) ∧
    (let s : State := fz F.SHT_DOUT_CTL_LEVEL 1 (fld b0) 5; let o : Fin 16 := 5; s.active = true ∧ (s.sht.dout[o]).overload = false)) ∧
    ((let s : State := mode 1 b0; s.active = false) ∧
    (let s : State := ov (fld b0); let o : Fin 16 := 5; s.active = true ∧ (s.sht.dout[o]).overload = true) ∧
    (let s : State := ov (fld b0); let ch : Fin 4 := 1; s.active = true ∧ (s.active = false ∨ (s.sht.enc[ch]).folded = false))) ∧
    ((let s : State := mode 1 b0; s.active = false) ∧
    (let s : State := ov (fld b0); let ch : Fin 4 := 2; s.active = true ∧ (s.sht.enc[ch]).folded = true)) :=
  ⟨holds (by letI := @decMem; infer_instance) (by decide +kernel),
    by decide +kernel,
    by decide +kernel,
    by decide +kernel,
    by decide +kernel⟩

end N25

end Sys2Proof.Tests
end

