-- ==== Sys2Proof/Tests/Witness26.lean ====
section
/-!
SUPPORT. Witnesses for the statements about security, debug and the records: concrete states and operands that meet their hypotheses.
-/

set_option Elab.async false
set_option maxRecDepth 100000
set_option synthInstance.maxSize 2000

namespace Sys2Proof.Tests
open Sys2Proof.Machine Sys2Proof.Claims

namespace N26

def b0 : State := up (memOk w0)
def d2 (l lc : Nat) (s : State) : State := fz F.DBG_STATUS_LEVEL l { s with fuses := { s.fuses with lcOpen := if lc = 0 then 0 else 0xFF, lcSealed := if lc = 2 ∨ lc = 3 then 0xFF else 0, lcReturned := if lc = 3 then 0xFF else 0 } }
def se (f : SecSt → SecSt) (s : State) : State := { s with sec := f s.sec }
def cs (f : Cs → Cs) (s : State) : State := { s with cs := f s.cs }
def lcb (ty sn : Nat) (s : State) : State := let s := s.setReg .SEC_LC_BUF (BitVec.ofNat 64 ty) 0; let s := s.setReg .SEC_LC_BUF (BitVec.ofNat 64 sn) 1; s
def tok (sn : Nat) (s : State) : State := let s := s.setReg .DBG_TOKEN 2 0; s.setReg .DBG_TOKEN (BitVec.ofNat 64 sn) 1
def halt1 (n : Nat) (s : State) : State := s.modCore ⟨n % 8, by omega⟩ fun k => { k with halted := true, resv := some 5 }
def csr (n : Nat) : CsRecord := { csr0 with source := n }

theorem witness_LifecycleRequests :
    (let s : State := lcb 1 (b0.fuses.serial.toNat + 1) b0; let a : Agent := .pf; let keyOk : Bool := true; let sigOk : Bool := true;
      Permits s a .SEC_LC_CTL 0 ∧ (let from_ : Prop := a = .pf ∨ ∃ k : Fin 8, a = .core k ∧ 4 ≤ k.val; let ty := s.bufNat .SEC_LC_BUF 0 1;
      let lc := s.fuses.lc; let zero : Bool := decide (s.bufNat .SEC_LC_BUF 1 7 = 0 ∧ s.bufNat .SEC_LC_BUF 257 255 = 0);
      let checks : List (Bool × Nat) := [(decide (s.mode ≠ 3 ∧ s.mode ≠ 9), 6), (decide (¬ ((ty = 1 ∧ lc = 0) ∨ (ty = 2 ∧ lc = 1) ∨ (ty = 3 ∧ lc ≠ 3))), 3), (decide (s.bufNat .SEC_LC_BUF 8 8 ≠ s.fuses.serial.toNat), 4), (!(keyOk && sigOk && zero), 5)]; from_ ∧ s.sec.lcPending = none ∧ (∃ e ∈ checks.find? (fun e => e.1), True))) ∧
    ((let s : State := lcb 1 b0.fuses.serial.toNat (d2 2 0 b0); let a : Agent := .jtag;
      Permits s a .SEC_LC_CTL 0 ∧ (let from_ : Prop := a = .pf ∨ ∃ k : Fin 8, a = .core k ∧ 4 ≤ k.val; ¬ from_)) ∧
    (let s : State := lcb 1 b0.fuses.serial.toNat b0; let a : Agent := .pf; let keyOk : Bool := true; let sigOk : Bool := true;
      Permits s a .SEC_LC_CTL 0 ∧ (let from_ : Prop := a = .pf ∨ ∃ k : Fin 8, a = .core k ∧ 4 ≤ k.val; let ty := s.bufNat .SEC_LC_BUF 0 1;
      let lc := s.fuses.lc; let zero : Bool := decide (s.bufNat .SEC_LC_BUF 1 7 = 0 ∧ s.bufNat .SEC_LC_BUF 257 255 = 0);
      let checks : List (Bool × Nat) := [(decide (s.mode ≠ 3 ∧ s.mode ≠ 9), 6), (decide (¬ ((ty = 1 ∧ lc = 0) ∨ (ty = 2 ∧ lc = 1) ∨ (ty = 3 ∧ lc ≠ 3))), 3), (decide (s.bufNat .SEC_LC_BUF 8 8 ≠ s.fuses.serial.toNat), 4), (!(keyOk && sigOk && zero), 5)]; from_ ∧ s.sec.lcPending = none ∧ checks.find? (fun e => e.1) = none)) ∧
    (let s : State := se (fun x => { x with lcPending := some 1 }) (lcb 1 b0.fuses.serial.toNat b0); let a : Agent := .pf;
      Permits s a .SEC_LC_CTL 0 ∧ (let from_ : Prop := a = .pf ∨ ∃ k : Fin 8, a = .core k ∧ 4 ≤ k.val; from_ ∧ s.sec.lcPending ≠ none))) ∧
    ((let s : State := se (fun x => { x with lcPending := some 1, lcHash := 0x1234 }) b0;
      (∃ ty : Fin 4, s.sec.lcPending = some ty ∧ ty ≠ 0 ∧ s.active = true)) ∧
    (let s : State := b0; (s.sec.lcPending = none ∨ s.active = false))) :=
  ⟨holds (by letI := @decPermits; letI := @decMem; infer_instance) (by decide +kernel),
    holds (by letI := @decPermits; infer_instance) (by decide +kernel),
    by decide +kernel⟩

theorem witness_DebugSessions :
    ((let s : State := b0; let a : Agent := .pf; let v : BitVec 32 := 1; Permits s a .DBG_CTL 0 ∧ (let owner := agentOwner a;
      let other : Prop := owner = none ∨ (s.sec.owner ≠ none ∧ s.sec.owner ≠ owner); let req := if v.toNat % 4 = 3 then 0 else v.toNat % 4;
      ¬ other ∧ s.dbgLevel < req ∧ (req = 1 ∨ s.fuses.lc ≠ 2) ∧ s.dbgLevel < 2 ∧ req < 2)) ∧
    (let s : State := d2 0 2 b0; let a : Agent := .pf; let v : BitVec 32 := 2; Permits s a .DBG_CTL 0 ∧ (let owner := agentOwner a;
      let other : Prop := owner = none ∨ (s.sec.owner ≠ none ∧ s.sec.owner ≠ owner); let req := if v.toNat % 4 = 3 then 0 else v.toNat % 4;
      ¬ other ∧ s.dbgLevel < 2 ∧ req = 2 ∧ s.fuses.lc = 2)) ∧
    (let s : State := fz F.FAB_PIN_OWNER_OWNER 2 (fz F.LP_CTL_CLAIM 1 (se (fun x => { x with owner := agentOwner .pf }) (d2 1 0 b0)));
      let a : Agent := .pf; let v : BitVec 32 := 0; Permits s a .DBG_CTL 0 ∧ (let owner := agentOwner a;
      let other : Prop := owner = none ∨ (s.sec.owner ≠ none ∧ s.sec.owner ≠ owner); let req := if v.toNat % 4 = 3 then 0 else v.toNat % 4;
      ¬ other ∧ req = 0 ∧ (s.dbgLevel = 1 ∨ (s.dbgLevel = 2 ∧ s.fuses.lc ≠ 2))))) ∧
    ((let s : State := b0; let a : Agent := .core 5; Permits s a .DBG_CTL 0 ∧ (let owner := agentOwner a;
      let other : Prop := owner = none ∨ (s.sec.owner ≠ none ∧ s.sec.owner ≠ owner); other)) ∧
    (let s : State := se (fun x => { x with owner := agentOwner .pf }) (d2 2 2 b0); let a : Agent := .pf; let v : BitVec 32 := 0;
      Permits s a .DBG_CTL 0 ∧ (let owner := agentOwner a; let other : Prop := owner = none ∨ (s.sec.owner ≠ none ∧ s.sec.owner ≠ owner);
      let req := if v.toNat % 4 = 3 then 0 else v.toNat % 4; ¬ other ∧ req < 2 ∧ s.storeLocked = true))) ∧
    ((let s : State := b0; s.storeLocked = false) ∧
    (let s : State := se (fun x => { x with owner := agentOwner .pf, nonce := true }) (d2 2 2 b0); s.storeLocked = true)) ∧
    ((let s : State := mode 4 b0; let a : Agent := .pf; Permits s a .DBG_UNLOCK_CTL 0 ∧ (let other : Prop := agentOwner a = none ∨ (s.sec.owner ≠ none ∧ s.sec.owner ≠ agentOwner a); ¬ other ∧ s.fv F.DBG_UNLOCK_CTL_FAILS < 8 ∧ s.active = true ∧ s.sec.verifying = false ∧ s.mode ≠ 3 ∧ s.mode ≠ 9 ∧ s.mode ≠ 11)) ∧
    (let s : State := fz F.DBG_UNLOCK_CTL_FAILS 8 b0; let a : Agent := .pf;
      Permits s a .DBG_UNLOCK_CTL 0 ∧ (let other : Prop := agentOwner a = none ∨ (s.sec.owner ≠ none ∧ s.sec.owner ≠ agentOwner a);
      (8 ≤ s.fv F.DBG_UNLOCK_CTL_FAILS ∨ s.active = false) ∧ ¬ other ∧ s.sec.verifying = false ∧ (s.mode = 3 ∨ s.mode = 9 ∨ s.mode = 11))) ∧
    (let s : State := b0; let a : Agent := .core 5; Permits s a .DBG_UNLOCK_CTL 0 ∧ (let other : Prop := agentOwner a = none ∨ (s.sec.owner ≠ none ∧ s.sec.owner ≠ agentOwner a); other))) ∧
    (let s : State := mode 1 b0; let a : Agent := .jtag; Permits s a .DBG_UNLOCK_CTL 0 ∧ (s.sec.verifying = true ∨ s.active = false)) ∧
    ((let s : State := fz F.DBG_UNLOCK_CTL_FAILS 7 (se (fun x => { x with verifying := true, nonce := true }) (tok (b0.fuses.serial.toNat+1) (d2 0 2 b0))); let ok : Bool := true; let good : Prop := ok = true ∧ s.sec.nonce = true ∧ s.bufNat .DBG_TOKEN 0 1 = 2 ∧ s.bufNat .DBG_TOKEN 8 8 = s.fuses.serial.toNat; s.sec.verifying = true ∧ ¬ good) ∧
    (let s : State := b0; s.sec.verifying = false) ∧
    (let s : State := se (fun x => { x with verifying := true, nonce := true, asker := agentOwner .pf, keySlots := 3 }) (tok b0.fuses.serial.toNat (d2 0 2 b0)); let ok : Bool := true; let good : Prop := ok = true ∧ s.sec.nonce = true ∧ s.bufNat .DBG_TOKEN 0 1 = 2 ∧ s.bufNat .DBG_TOKEN 8 8 = s.fuses.serial.toNat; s.sec.verifying = true ∧ good)) :=
  ⟨holds (by letI := @decPermits; infer_instance) (by decide +kernel),
    holds (by letI := @decPermits; infer_instance) (by decide +kernel),
    by decide +kernel,
    holds (by letI := @decPermits; infer_instance) (by decide +kernel),
    holds (by letI := @decPermits; infer_instance) (by decide +kernel),
    by decide +kernel⟩

theorem witness_HaltsAndSteps :
    ((let s : State := d2 2 0 (withJob job0 (mode 4 b0)); let a : Agent := .jtag; let v : BitVec 32 := 0x01;
      Permits s a .DBG_HALT 0 ∧ (let named (c : Fin 8) : Bool := v.getLsbD c.val;
      (∃ c ∈ [Instr.debugHalt a v, Instr.step a v, Instr.dbgResume a v], (c = .debugHalt a v ∨ c = .step a v ∨ c = .dbgResume a v)) ∧ s.dbgLevel = 2 ∧ s.active = true ∧ v.getLsbD 24 = false ∧ v.getLsbD 25 = false ∧ (∃ k : Fin 8, (s.mode = 4 ∨ s.mode = 5) ∧ 4 ≤ k.val) ∧ s.mode = 4 ∧ s.job ≠ none ∧ (∀ c, named c = decide (c = 0)) ∧ (s.cores[(0 : Fin 8)]).halted = false ∧ s.sec.haltPending.getLsbD 0 = false)) ∧
    (let s : State := d2 2 0 (mode 5 b0); let a : Agent := .jtag; let v : BitVec 32 := 0x80;
      Permits s a .DBG_HALT 0 ∧ (let named (c : Fin 8) : Bool := v.getLsbD c.val;
      s.dbgLevel = 2 ∧ s.active = true ∧ v.getLsbD 24 = false ∧ v.getLsbD 25 = false ∧ s.mode ≠ 4 ∧ (∃ k : Fin 8, (s.mode = 4 ∨ s.mode = 5) ∧ 4 ≤ k.val ∧ (∀ c, named c = decide (c = k)) ∧ (s.cores[k]).halted = false))) ∧
    (let s : State := d2 1 0 (halt1 4 b0); let a : Agent := .pf; let v : BitVec 32 := 0xF3;
      Permits s a .DBG_HALT 0 ∧ (∃ c ∈ [Instr.debugHalt a v, Instr.step a v, Instr.dbgResume a v], (c = .debugHalt a v ∨ c = .step a v ∨ c = .dbgResume a v) ∧ (s.dbgLevel ≠ 2 ∨ s.active = false)))) ∧
    (let s : State := d2 2 0 (halt1 4 b0); let a : Agent := .pf; let v : BitVec 32 := 0xF3;
      Permits s a .DBG_HALT 0 ∧ s.dbgLevel = 2 ∧ s.active = true ∧ v.getLsbD 24 = false ∧ v.getLsbD 25 = false ∧ s.mode ≠ 4 ∧ s.mode ≠ 5) :=
  ⟨holds (by letI := @decPermits; infer_instance) (by decide +kernel),
    holds (by letI := @decPermits; infer_instance) (by decide +kernel)⟩

theorem witness_TapInstructions :
    ((let s : State := b0; s.mode ≠ 0) ∧
    (let s : State := mode 0 b0; s.mode = 0) ∧
    (let s : State := d2 2 0 (b0.writeBytes 10 3 0x100000 [1,2,3,4,5,6,7,8]); let addr : BitVec 48 := 0x100000; let v : DWord := 5;
      let c : Instr := .dbgMemoryRead addr; (c = .dbgRegisterRead addr ∨ c = .dbgRegisterWrite addr v ∨ c = .dbgMemoryRead addr ∨ c = .dbgMemoryWrite addr v) ∧ s.mode ≠ 0 ∧ (c = .dbgMemoryRead addr ∨ c = .dbgMemoryWrite addr v) ∧ s.dbgLevel = 2 ∧ s.active = true ∧ (let off := addr.toNat; c = .dbgMemoryRead addr ∧ s.dbgLevel = 2 ∧ s.active = true ∧ s.placeOf addr.toNat 8 = .mem 3 off ∧ (s.readRange 10 3 off 8).1 = false))) ∧
    ((let s : State := b0; let addr : BitVec 48 := 0x100; let v : DWord := 5; let c : Instr := .dbgRegisterRead addr;
      (c = .dbgRegisterRead addr ∨ c = .dbgRegisterWrite addr v ∨ c = .dbgMemoryRead addr ∨ c = .dbgMemoryWrite addr v) ∧ s.mode ≠ 0 ∧ (c = .dbgRegisterRead addr ∨ c = .dbgRegisterWrite addr v) ∧ addr.toNat < 0x100000 ∧ s.reaches .jtag = true ∧ addr.toNat % 8 = 0 ∧ (let r := RegName.DBG_TOKEN; let i := 0; c = .dbgRegisterRead addr ∧ r ≠ .ENL_BAND_PUSH ∧ regAt (0x200000 + addr.toNat) = some (r, i, false) ∧ (regInfo r).width = 64 ∧ s.mayRead .jtag r i = true)) ∧
    (let s : State := d2 1 0 b0; let addr : BitVec 48 := 0x100; let v : DWord := 0xFFFFFFFFFFFFFFFF; let c : Instr := .dbgRegisterWrite addr v;
      (c = .dbgRegisterRead addr ∨ c = .dbgRegisterWrite addr v ∨ c = .dbgMemoryRead addr ∨ c = .dbgMemoryWrite addr v) ∧ s.mode ≠ 0 ∧ addr.toNat < 0x100000 ∧ s.reaches .jtag = true ∧ addr.toNat % 8 = 0 ∧ (let r := RegName.DBG_TOKEN; let i := 0; c = .dbgRegisterWrite addr v ∧ regAt (0x200000 + addr.toNat) = some (r, i, false) ∧ (regInfo r).width = 64 ∧ s.mayWrite .jtag r i = true ∧ r ∉ ownRule)) ∧
    (let s : State := d2 2 0 b0; let addr : BitVec 48 := 0x100000; let v : DWord := 0x0102030405060708; let c : Instr := .dbgMemoryWrite addr v;
      (c = .dbgRegisterRead addr ∨ c = .dbgRegisterWrite addr v ∨ c = .dbgMemoryRead addr ∨ c = .dbgMemoryWrite addr v) ∧ s.mode ≠ 0 ∧ (let off := addr.toNat; c = .dbgMemoryWrite addr v ∧ s.dbgLevel = 2 ∧ s.active = true ∧ s.placeOf addr.toNat 8 = .mem 3 off))) ∧
    ((let s : State := b0; let addr : BitVec 48 := 0x100000; let v : DWord := 5; let c : Instr := .dbgMemoryRead addr;
      (c = .dbgRegisterRead addr ∨ c = .dbgRegisterWrite addr v ∨ c = .dbgMemoryRead addr ∨ c = .dbgMemoryWrite addr v) ∧ s.mode ≠ 0 ∧ (c = .dbgMemoryRead addr ∨ c = .dbgMemoryWrite addr v) ∧ s.dbgLevel ≠ 2) ∧
    (let s : State := b0; let addr : BitVec 48 := 0x100000; let v : DWord := 5; let c : Instr := .dbgRegisterRead addr;
      (c = .dbgRegisterRead addr ∨ c = .dbgRegisterWrite addr v ∨ c = .dbgMemoryRead addr ∨ c = .dbgMemoryWrite addr v) ∧ s.mode ≠ 0 ∧ (c = .dbgRegisterRead addr ∨ c = .dbgRegisterWrite addr v) ∧ 0x100000 ≤ addr.toNat) ∧
    (let s : State := d2 2 0 (mode 1 b0); let addr : BitVec 48 := 0x100000; let v : DWord := 5; let c : Instr := .dbgMemoryWrite addr v;
      (c = .dbgRegisterRead addr ∨ c = .dbgRegisterWrite addr v ∨ c = .dbgMemoryRead addr ∨ c = .dbgMemoryWrite addr v) ∧ s.mode ≠ 0 ∧ (c = .dbgMemoryRead addr ∨ c = .dbgMemoryWrite addr v) ∧ s.dbgLevel = 2 ∧ s.active = false)) ∧
    ((let s : State := mode 0 b0; let addr : BitVec 48 := 8; let v : DWord := 5; let c : Instr := .dbgRegisterRead addr;
      (c = .dbgRegisterRead addr ∨ c = .dbgRegisterWrite addr v ∨ c = .dbgMemoryRead addr ∨ c = .dbgMemoryWrite addr v) ∧ s.mode = 0) ∧
    (let s : State := se (fun x => { x with tapLast := some (2, 77) }) (d2 2 0 b0); let addr : BitVec 48 := 0x1FFFFFFFFC; let v : DWord := 5;
      let c : Instr := .dbgMemoryRead addr; (c = .dbgRegisterRead addr ∨ c = .dbgRegisterWrite addr v ∨ c = .dbgMemoryRead addr ∨ c = .dbgMemoryWrite addr v) ∧ s.mode ≠ 0 ∧ (c = .dbgMemoryRead addr ∨ c = .dbgMemoryWrite addr v) ∧ s.dbgLevel = 2 ∧ s.active = true ∧ s.placeOf addr.toNat 8 = .hole)) :=
  ⟨by decide +kernel,
    by decide +kernel,
    by decide +kernel,
    by decide +kernel⟩

theorem witness_LoupePins :
    ((let s : State := fz F.FAB_PIN_OWNER_OWNER 2 (d2 1 0 (fz F.LP_SEL_SRC 0x81 (fz F.LP_SEL_SRC 0x0F b0 2) 3)); let a : Agent := .jtag;
      Permits s a .LP_CTL 0 ∧ (let owner := s.fv F.FAB_PIN_OWNER_OWNER;
      s.dbgLevel ≠ 0 ∧ s.active = true ∧ owner = 2 ∧ s.handover = false ∧ (∃ n : Fin 16, (let c := s.fv F.LP_SEL_SRC n;
      c = 0x81 ∧ s.dbgLevel = 1)) ∧ (∃ n : Fin 16, (let c := s.fv F.LP_SEL_SRC n; c = 0x81)) ∧ (∃ n : Fin 16, (let c := s.fv F.LP_SEL_SRC n;
      c = 0x0F)))) ∧
    (let s : State := { fz F.FAB_PIN_OWNER_OWNER 2 (d2 2 0 (fz F.LP_SEL_SRC 0x81 (fz F.LP_SEL_SRC 0x20 b0 2) 3)) with handover := true };
      let a : Agent := .jtag; Permits s a .LP_CTL 0 ∧ (let owner := s.fv F.FAB_PIN_OWNER_OWNER;
      owner = 2 ∧ s.handover = true ∧ (∃ n : Fin 16, (let c := s.fv F.LP_SEL_SRC n;
      c = 0x81 ∧ s.dbgLevel = 2)) ∧ (∃ n : Fin 16, (let c := s.fv F.LP_SEL_SRC n; c = 0x20)))) ∧
    (let s : State := b0; let a : Agent := .pf; Permits s a .LP_CTL 0 ∧ (s.dbgLevel = 0 ∨ s.active = false))) ∧
    ((let s : State := d2 1 0 b0; let a : Agent := .pf; Permits s a .LP_CTL 0 ∧ (let owner := s.fv F.FAB_PIN_OWNER_OWNER;
      s.dbgLevel ≠ 0 ∧ s.active = true ∧ owner = 0)) ∧
    (let s : State := fz F.FAB_PIN_OWNER_OWNER 1 (d2 1 0 b0); let a : Agent := .pf; Permits s a .LP_CTL 0 ∧ (let owner := s.fv F.FAB_PIN_OWNER_OWNER;
      s.dbgLevel ≠ 0 ∧ s.active = true ∧ owner = 1))) :=
  ⟨holds (by letI := @decPermits; infer_instance) (by decide +kernel),
    holds (by letI := @decPermits; infer_instance) (by decide +kernel)⟩

theorem witness_ContactSheet :
    ((let s : State := cs (fun x => { x with queue := (List.range 64).map csr }) b0; let ty : Nat := 0x10; let src : Nat := 3;
      let open_ : Prop := ∃ n, (ty, src, n) ∈ s.cs.merging; ¬ open_ ∧ s.cs.queue.length = 64 ∧ 0x10 ≤ ty) ∧
    (let s : State := b0; let ty : Nat := 0x10; let src : Nat := 3; let open_ : Prop := ∃ n, (ty, src, n) ∈ s.cs.merging;
      ¬ open_ ∧ s.cs.queue.length < 64) ∧
    (let s : State := cs (fun x => { x with merging := [(0x10, 3, 4)] }) b0; let ty : Nat := 0x10; let src : Nat := 3;
      let open_ : Prop := ∃ n, (ty, src, n) ∈ s.cs.merging; open_)) ∧
    (let s : State := b0; (s.active = false ∨ s.cs.queue = []) ∧ s.active = true) ∧
    (let s : State := fz F.CS_SEQ_NEXT 0xFFFFFFFF (cs (fun x => { x with queue := (List.range 3).map csr }) b0);
      s.active = true ∧ (∃ r ∈ (s.cs.queue).head?, True)) ∧
    (let s : State := cs (fun x => { x with merging := [(0x10, 3, 4), (0x10, 2, 0)] }) b0; let ty : BitVec 16 := 0x10; let src : BitVec 8 := 3;
      let e := s.cs.merging.find? (fun e => e.1 == ty.toNat && e.2.1 == src.toNat); (∃ x ∈ e, True) ∧ (∃ x ∈ e, x.2.2 ≠ 0 ∧ s.cs.queue.length < 64)) ∧
    (let s : State := b0; let ty : BitVec 16 := 0x10; let src : BitVec 8 := 3;
      let e := s.cs.merging.find? (fun e => e.1 == ty.toNat && e.2.1 == src.toNat); e = none) ∧
    (let s : State := cs (fun x => { x with merging := [(0x10, 3, 4), (0x10, 2, 0)] }) b0; let ty : BitVec 16 := 0x10; let src : BitVec 8 := 2;
      let e := s.cs.merging.find? (fun e => e.1 == ty.toNat && e.2.1 == src.toNat); (∃ x ∈ e, x.2.2 = 0)) ∧
    ((let s : State := b0; let a : Agent := .pf; let v : BitVec 32 := 0x7FF;
      Permits s a .CS_CTL 0 ∧ v.getLsbD 10 = true ∧ s.on F.CS_STATUS_COMMIT = false) ∧
    (let s : State := b0; let a : Agent := .pf; let v : BitVec 32 := 0x3FF; Permits s a .CS_CTL 0 ∧ v.getLsbD 10 = false) ∧
    (let s : State := fz F.CS_STATUS_COMMIT 1 b0; let a : Agent := .pf; let v : BitVec 32 := 0x7FF;
      Permits s a .CS_CTL 0 ∧ v.getLsbD 10 = true ∧ s.on F.CS_STATUS_COMMIT = true)) ∧
    ((let s : State := b0; (s.active = false ∨ s.cs.trigger = none) ∧ s.active = true) ∧
    (let s : State := cs (fun x => { x with trigger := some csr0, queue := (List.range 3).map csr, records := (List.range 9).map csr }) b0;
      s.active = true ∧ s.cs.trigger ≠ none)) :=
  ⟨holds (by letI := @decIn3; infer_instance) (by decide +kernel),
    by decide +kernel,
    holds (by letI := @decMem; infer_instance) (by decide +kernel),
    holds (by letI := @decMem; letI := @decIn3; infer_instance) (by decide +kernel),
    holds (by letI := @decIn3; infer_instance) (by decide +kernel),
    holds (by letI := @decMem; letI := @decIn3; infer_instance) (by decide +kernel),
    holds (by letI := @decPermits; infer_instance) (by decide +kernel),
    by decide +kernel⟩

end N26

end Sys2Proof.Tests
end

section
/-!
SUPPORT. Frames: what a command leaves alone, as a relation that every shared operation passes through, and the register counts of R10.
-/

namespace Sys2Proof.Proofs

open Sys2Proof.Machine Sys2Proof.Claims

/-! ## `Only` and `OnlyRegs` as relations -/

@[simp] theorem only_refl (ps : List Part) (s : State) : Only ps s s :=
  ⟨rfl, rfl, rfl, rfl, fun p _ => by cases p <;> rfl⟩

theorem same_trans {p : Part} {s t u : State} (h : p.same s t) (k : p.same t u) : p.same s u := by
  cases p <;> exact Eq.trans k h

theorem same_symm {p : Part} {s t : State} (h : p.same s t) : p.same t s := by
  cases p <;> exact Eq.symm h

theorem only_trans {ps : List Part} {s t u : State} (h : Only ps s t) (k : Only ps t u) : Only ps s u := by
  obtain ⟨h1, h2, h3, h4, hp⟩ := h
  obtain ⟨k1, k2, k3, k4, kp⟩ := k
  exact ⟨k1.trans h1, k2.trans h2, k3.trans h3, k4.trans h4, fun p hps => same_trans (hp p hps) (kp p hps)⟩

theorem only_symm {ps : List Part} {s t : State} (h : Only ps s t) : Only ps t s := by
  obtain ⟨h1, h2, h3, h4, hp⟩ := h
  exact ⟨h1.symm, h2.symm, h3.symm, h4.symm, fun p hps => same_symm (hp p hps)⟩

theorem only_mono {ps qs : List Part} {s t : State} (h : Only ps s t) (hsub : ps ⊆ qs) : Only qs s t := by
  obtain ⟨h1, h2, h3, h4, hp⟩ := h
  exact ⟨h1, h2, h3, h4, fun p hq => hp p (fun hps => hq (hsub hps))⟩

/-- A step within the frame may be taken off the end. -/
theorem only_iff_of_step {ps : List Part} {s t u : State} (k : Only ps t u) : Only ps s u ↔ Only ps s t :=
  ⟨fun h => only_trans h (only_symm k), fun h => only_trans h k⟩

@[simp] theorem onlyRegs_refl (rs : List (RegName × Nat)) (s : State) : OnlyRegs rs s s := fun _ _ _ _ => rfl

theorem onlyRegs_trans {rs : List (RegName × Nat)} {s t u : State} (h : OnlyRegs rs s t) (k : OnlyRegs rs t u) : OnlyRegs rs s u :=
  fun r i hi hr => (k r i hi hr).trans (h r i hi hr)

theorem onlyRegs_symm {rs : List (RegName × Nat)} {s t : State} (h : OnlyRegs rs s t) : OnlyRegs rs t s :=
  fun r i hi hr => (h r i hi hr).symm

/-- A step within the registers may be taken off the end. -/
theorem onlyRegs_iff_of_step {rs : List (RegName × Nat)} {s t u : State} (k : OnlyRegs rs t u) : OnlyRegs rs s u ↔ OnlyRegs rs s t :=
  ⟨fun h => onlyRegs_trans h (onlyRegs_symm k), fun h => onlyRegs_trans h k⟩

theorem onlyRegs_of_regs_eq {rs : List (RegName × Nat)} {s t : State} (h : t.regs = s.regs) : OnlyRegs rs s t :=
  fun r i _ _ => by simp only [State.reg, h]

/-! ## One part changes -/

section Parts

variable {ps : List Part} {s : State}

theorem only_regs (h : .regs ∈ ps) (x : SMap DWord) : Only ps s { s with regs := x } :=
  ⟨rfl, rfl, rfl, rfl, fun p hp => by cases p <;> simp_all [Part.same]⟩

theorem only_hst (h : .hst ∈ ps) (x : Hst) : Only ps s { s with hst := x } :=
  ⟨rfl, rfl, rfl, rfl, fun p hp => by cases p <;> simp_all [Part.same]⟩

theorem only_out (h : .out ∈ ps) (x : List Out) : Only ps s { s with out := x } :=
  ⟨rfl, rfl, rfl, rfl, fun p hp => by cases p <;> simp_all [Part.same]⟩

theorem only_free (h : .free ∈ ps) (x : Nat) : Only ps s { s with free := x } :=
  ⟨rfl, rfl, rfl, rfl, fun p hp => by cases p <;> simp_all [Part.same]⟩

theorem only_latches (h : .latches ∈ ps) (x : SMap (Option Word)) : Only ps s { s with latches := x } :=
  ⟨rfl, rfl, rfl, rfl, fun p hp => by cases p <;> simp_all [Part.same]⟩

end Parts

/-! ## The frame of the shared operations: each one may be taken off the end -/

section Steps

variable {ps : List Part} {rs : List (RegName × Nat)} {s t : State}

@[simp] theorem only_setReg (h : .regs ∈ ps) (r : RegName) (v : DWord) (i : Nat) : Only ps s (t.setReg r v i) ↔ Only ps s t :=
  only_iff_of_step (only_regs h _)

@[simp] theorem only_fset (h : .regs ∈ ps) (f : Fld) (v i : Nat) : Only ps s (t.fset f v i) ↔ Only ps s t :=
  only_iff_of_step (only_regs h _)

@[simp] theorem only_finc (h : .regs ∈ ps) (f : Fld) (i n : Nat) : Only ps s (t.finc f i n) ↔ Only ps s t :=
  only_iff_of_step (only_regs h _)

@[simp] theorem only_badAccess (h : .regs ∈ ps) : Only ps s t.badAccess ↔ Only ps s t :=
  only_iff_of_step (only_regs h _)

@[simp] theorem only_plainWrite (h : .regs ∈ ps) (r : RegName) (i : Nat) (m v : DWord) :
    Only ps s (t.plainWrite r i m v) ↔ Only ps s t :=
  only_iff_of_step (only_regs h _)

@[simp] theorem only_unlatch (h : .latches ∈ ps) (r : RegName) (i : Nat) : Only ps s (t.unlatch r i) ↔ Only ps s t :=
  only_iff_of_step (only_latches h _)

@[simp] theorem only_used (h : .free ∈ ps) : Only ps s t.used ↔ Only ps s t :=
  only_iff_of_step (only_free h _)

@[simp] theorem only_emit (h : .out ∈ ps) (o : Out) : Only ps s (t.emit o) ↔ Only ps s t :=
  only_iff_of_step (only_out h _)

@[simp] theorem onlyRegs_setReg {r : RegName} {i : Nat} (hi : i < 1024) (h : (r, i) ∈ rs) (v : DWord) :
    OnlyRegs rs s (t.setReg r v i) ↔ OnlyRegs rs s t := by
  refine onlyRegs_iff_of_step fun r' i' hi' hr => reg_setReg_ne t v fun hk => ?_
  obtain ⟨rfl, rfl⟩ := regKey_inj hi hi' hk
  exact hr h

@[simp] theorem onlyRegs_fset {f : Fld} {i : Nat} (hi : i < 1024) (h : (f.reg, i) ∈ rs) (v : Nat) :
    OnlyRegs rs s (t.fset f v i) ↔ OnlyRegs rs s t := onlyRegs_setReg hi h _

@[simp] theorem onlyRegs_finc {f : Fld} {i : Nat} (hi : i < 1024) (h : (f.reg, i) ∈ rs) (n : Nat) :
    OnlyRegs rs s (t.finc f i n) ↔ OnlyRegs rs s t := onlyRegs_setReg hi h _

@[simp] theorem onlyRegs_badAccess (h : (.SYS_BAD_ACCESS, 0) ∈ rs) : OnlyRegs rs s t.badAccess ↔ OnlyRegs rs s t :=
  onlyRegs_setReg (by decide) h _

@[simp] theorem onlyRegs_plainWrite {r : RegName} {i : Nat} (hi : i < 1024) (h : (r, i) ∈ rs) (m v : DWord) :
    OnlyRegs rs s (t.plainWrite r i m v) ↔ OnlyRegs rs s t := onlyRegs_setReg hi h _

@[simp] theorem onlyRegs_unlatch (r : RegName) (i : Nat) : OnlyRegs rs s (t.unlatch r i) ↔ OnlyRegs rs s t :=
  onlyRegs_iff_of_step (onlyRegs_of_regs_eq rfl)

@[simp] theorem onlyRegs_used : OnlyRegs rs s t.used ↔ OnlyRegs rs s t := onlyRegs_iff_of_step (onlyRegs_of_regs_eq rfl)

@[simp] theorem onlyRegs_emit (o : Out) : OnlyRegs rs s (t.emit o) ↔ OnlyRegs rs s t :=
  onlyRegs_iff_of_step (onlyRegs_of_regs_eq rfl)

end Steps

/-! ## The answer of a command within a frame -/

/-- What `effect` puts back is what a frame leaves alone. -/
theorem effect_of_only {ps : List Part} {s : State} {f : State → State} (h : Only ps s (f s)) : s.effect f = .next (f s) := by
  obtain ⟨hpending, hfuses, hdev, -, -⟩ := h
  rw [effect_eq, ← hpending, ← hfuses, ← hdev]

/-- A command that acts within a frame answers the state its effect makes. -/
theorem answers_of_only (ps : List Part) {c : Instr} {s : State} {f : State → State} {P : State → Prop} (hc : exec c s = s.effect f)
    (h : Only ps s (f s)) (hP : P (f s)) : Answers c s P :=
  ⟨f s, hc.trans (effect_of_only h), hP⟩

/-- The same, where the state it makes is known. -/
theorem answers_of_eq (ps : List Part) {c : Instr} {s u : State} {f : State → State} {P : State → Prop} (hc : exec c s = s.effect f)
    (hf : f s = u) (h : Only ps s u) (hP : P u) : Answers c s P :=
  answers_of_only ps hc (hf ▸ h) (hf ▸ hP)

theorem answers_mono {c : Instr} {s : State} {P Q : State → Prop} (h : Answers c s P) (hPQ : ∀ t, P t → Q t) : Answers c s Q :=
  h.imp fun t ⟨ht, hP⟩ => ⟨ht, hPQ t hP⟩

/-- A command whose effect leaves the state as it is. -/
theorem exec_eq_self {c : Instr} {s : State} {f : State → State} (hc : exec c s = s.effect f) (h : f s = s) : exec c s = .next s := by
  rw [hc, effect_eq, h]

/-! ## Counters (R10) -/

/-- A field's update leaves the bits outside the field. -/
theorem getLsbD_fset_outside (s : State) (f : Fld) (v i k : Nat) (hk : k < f.lo ∨ f.lo + f.w ≤ k) :
    ((s.fset f v i).reg f.reg i).getLsbD k = (s.reg f.reg i).getLsbD k := by
  rw [State.fset, reg_setReg_same]
  by_cases h64 : k < 64
  · rw [getLsbD_setBits _ _ _ _ _ h64, if_neg (by omega)]
  · rw [BitVec.getLsbD_of_ge _ _ (by omega), BitVec.getLsbD_of_ge _ _ (by omega)]

/-- A refused access is counted, and nothing else happens. -/
theorem counted_badAccess (s : State) : Counted s s.badAccess := by
  refine ⟨?_, by simp, by simp⟩
  rw [State.badAccess, fv_finc_same _ _ _ _ (by decide)]
  exact Nat.min_comm _ _

/-- Settles O58: a count is the least of the risen value and all ones, put into its field alone. -/
theorem countersSaturate : Obligations.CountersSaturate := by
  unfold Obligations.CountersSaturate
  intro s f i n hf hi
  have hcount : (s.finc f i n).fv f i = Nat.min (s.fv f i + n) (2 ^ f.w - 1) := fv_finc_same s f i n hf
  refine ⟨hcount, fun hfull => ?_, fun k hk => getLsbD_fset_outside s f _ i k hk, by simp, by simp [hi]⟩
  rw [hcount, hfull]
  exact Nat.min_eq_right (Nat.le_add_right _ _)

end Sys2Proof.Proofs
end

section
/-!
SUPPORT. Software writes and reads of the registers (R7-R12): what a fold over a register's fields puts into each bit, which registers
an access meets, and the statements about register writes and reads.
-/

namespace Sys2Proof.Proofs

open Sys2Proof.Machine Sys2Proof.Claims

/-! ## Fields of a register -/

/-- Two fields share no bit. -/
def FieldsApart (f g : FieldSpec) : Prop := f.lo + f.w ≤ g.lo ∨ g.lo + g.w ≤ f.lo

/-- The form every entry of the register table has: 32 or 64 bits, fields inside them that share no bit, at most 512 places. -/
def RegForm (x : RegInfo) : Prop :=
  (x.width = 32 ∨ x.width = 64) ∧ x.count ≤ 512 ∧ (∀ f ∈ x.fields, f.lo + f.w ≤ x.width) ∧ x.fields.Pairwise FieldsApart

theorem regInfo_form (r : RegName) : RegForm (regInfo r) := by
  unfold RegForm FieldsApart
  cases r <;> decide

theorem regInfo_width (r : RegName) : (regInfo r).width = 32 ∨ (regInfo r).width = 64 := (regInfo_form r).1

theorem regInfo_count_le (r : RegName) : (regInfo r).count ≤ 512 := (regInfo_form r).2.1

theorem regInfo_field_le {r : RegName} {f : FieldSpec} (hf : f ∈ (regInfo r).fields) : f.lo + f.w ≤ (regInfo r).width :=
  (regInfo_form r).2.2.1 f hf

theorem regInfo_fields_apart (r : RegName) : (regInfo r).fields.Pairwise FieldsApart := (regInfo_form r).2.2.2

/-- A field ends inside the 64 bits of a value. -/
theorem regInfo_field_le_64 {r : RegName} {f : FieldSpec} (hf : f ∈ (regInfo r).fields) : f.lo + f.w ≤ 64 := by
  have := regInfo_field_le hf
  have := regInfo_width r
  omega

/-! ## A fold over the fields, bit by bit -/

/-- Puts `g f` into each field `f` that `p` names: the common shape of `swWrite`, `swRead` and `swAfterRead`. -/
def putFields (p : FieldSpec → Bool) (g : FieldSpec → Nat) (fields : List FieldSpec) (v : DWord) : DWord :=
  fields.foldl (fun acc f => if p f then setBits acc f.lo f.w (g f) else acc) v

theorem getLsbD_putFields_outside {p : FieldSpec → Bool} {g : FieldSpec → Nat} {fields : List FieldSpec} {v : DWord} {k : Nat}
    (hout : ∀ f ∈ fields, k < f.lo ∨ f.lo + f.w ≤ k) : (putFields p g fields v).getLsbD k = v.getLsbD k := by
  by_cases hk : k < 64
  · induction fields generalizing v with
    | nil => rfl
    | cons f fields ih =>
      have hf := hout f List.mem_cons_self
      have key : (if p f then setBits v f.lo f.w (g f) else v).getLsbD k = v.getLsbD k := by
        split
        · rw [getLsbD_setBits _ _ _ _ _ hk, if_neg (by omega)]
        · rfl
      exact (ih fun x hx => hout x (List.mem_cons_of_mem _ hx)).trans key
  · rw [BitVec.getLsbD_of_ge _ _ (by omega), BitVec.getLsbD_of_ge _ _ (by omega)]

theorem getLsbD_putFields_inside {p : FieldSpec → Bool} {g : FieldSpec → Nat} {fields : List FieldSpec} {v : DWord} {f : FieldSpec}
    {k : Nat} (hk : k < 64) (hap : fields.Pairwise FieldsApart) (hf : f ∈ fields) (hlo : f.lo ≤ k) (hhi : k < f.lo + f.w) :
    (putFields p g fields v).getLsbD k = if p f then (g f).testBit (k - f.lo) else v.getLsbD k := by
  induction fields generalizing v with
  | nil => cases hf
  | cons x fields ih =>
    obtain ⟨hx, hap⟩ := List.pairwise_cons.mp hap
    rcases List.mem_cons.mp hf with rfl | hf
    · have hrest : ∀ y ∈ fields, k < y.lo ∨ y.lo + y.w ≤ k := fun y hy => by
        have : FieldsApart f y := hx y hy
        unfold FieldsApart at this
        omega
      refine (getLsbD_putFields_outside hrest).trans ?_
      show (if p f then setBits v f.lo f.w (g f) else v).getLsbD k = _
      split
      · rw [getLsbD_setBits _ _ _ _ _ hk, if_pos ⟨hlo, hhi⟩]
      · rfl
    · refine (ih hap hf).trans ?_
      have : FieldsApart x f := hx f hf
      unfold FieldsApart at this
      split
      · rfl
      · show (if p x then setBits v x.lo x.w (g x) else v).getLsbD k = _
        split
        · rw [getLsbD_setBits _ _ _ _ _ hk, if_neg (by omega)]
        · rfl

/-- What a fold over a register's fields leaves in them, from a value with no bit outside them. -/
theorem fieldsAre_putFields {r : RegName} {p : FieldSpec → Bool} {g : FieldSpec → Nat} {v : DWord} {new : Acc → Nat → Bool}
    (hv : ∀ k, (∀ f ∈ (regInfo r).fields, k < f.lo ∨ f.lo + f.w ≤ k) → v.getLsbD k = false)
    (hnew : ∀ f ∈ (regInfo r).fields, ∀ k, f.lo ≤ k → k < f.lo + f.w →
      (if p f then (g f).testBit (k - f.lo) else v.getLsbD k) = new f.acc k) :
    FieldsAre r (putFields p g (regInfo r).fields v) new := by
  refine ⟨fun f hf k hlo hhi => ?_, fun k hk => (getLsbD_putFields_outside hk).trans (hv k hk)⟩
  have hk : k < 64 := lt_of_lt_of_le hhi (regInfo_field_le_64 hf)
  rw [getLsbD_putFields_inside hk (regInfo_fields_apart r) hf hlo hhi, hnew f hf k hlo hhi]

/-- The fields lie inside the register's width, so only bits there matter. -/
theorem fieldsAre_congr {r : RegName} {w : DWord} {new new' : Acc → Nat → Bool} (h : FieldsAre r w new)
    (heq : ∀ c k, k < (regInfo r).width → new c k = new' c k) : FieldsAre r w new' :=
  ⟨fun f hf k hlo hhi => (h.1 f hf k hlo hhi).trans (heq _ _ (lt_of_lt_of_le hhi (regInfo_field_le hf))), h.2⟩

/-! ## What software writes and reads of a value (R8, R9, R11) -/

theorem testBit_swField (old new : DWord) (f : FieldSpec) {k : Nat} (hlo : f.lo ≤ k) (hhi : k < f.lo + f.w) :
    (swField old new f).testBit (k - f.lo) = byCode f.acc (old.getLsbD k) (new.getLsbD k) := by
  have hj : k - f.lo < f.w := by omega
  have hk : f.lo + (k - f.lo) = k := by omega
  unfold swField
  cases f.acc <;> simp [testBit_getBits, hj, hk, byCode]

theorem swWrite_eq_putFields (fields : List FieldSpec) (mask old new : DWord) :
    swWrite fields mask old new = putFields (fun _ => true) (fun f =>
      (getBits old f.lo f.w &&& (getBits mask f.lo f.w ^^^ (2 ^ f.w - 1))) ||| (swField old new f &&& getBits mask f.lo f.w)) fields 0 := by
  simp [swWrite, putFields]

theorem swRead_eq_putFields (fields : List FieldSpec) (v : DWord) :
    swRead fields v = putFields (fun f => !decide (f.acc = .wo)) (fun f => getBits v f.lo f.w) fields 0 := by
  simp only [swRead, putFields, Bool.not_eq_true', decide_eq_false_iff_not, ite_not]

theorem swAfterRead_eq_putFields (fields : List FieldSpec) (mask v : DWord) :
    swAfterRead fields mask v = putFields (fun f => decide (f.acc = .rc ∧ getBits mask f.lo f.w ≠ 0)) (fun _ => 0) fields v := by
  simp only [swAfterRead, putFields, decide_eq_true_eq]

/-- A write puts into the bits that the access carries what the codes say, and leaves the others. -/
theorem fieldsAre_swWrite (r : RegName) (mask old new : DWord) :
    FieldsAre r (swWrite (regInfo r).fields mask old new) fun c k =>
      if mask.getLsbD k then byCode c (old.getLsbD k) (new.getLsbD k) else old.getLsbD k := by
  rw [swWrite_eq_putFields]
  refine fieldsAre_putFields (fun k _ => BitVec.getLsbD_zero) fun f hf k hlo hhi => ?_
  have hj : k - f.lo < f.w := by omega
  have hk : f.lo + (k - f.lo) = k := by omega
  simp only [if_true, Nat.testBit_or, Nat.testBit_and, Nat.testBit_xor, testBit_getBits, Nat.testBit_two_pow_sub_one,
    testBit_swField old new f hlo hhi, hj, hk, decide_true, Bool.true_and]
  cases mask.getLsbD k <;> simp

/-- A read shows a write-only field as 0 and every other as it stands. -/
theorem fieldsAre_swRead (r : RegName) (v : DWord) :
    FieldsAre r (swRead (regInfo r).fields v) fun c k => if c = .wo then false else v.getLsbD k := by
  rw [swRead_eq_putFields]
  refine fieldsAre_putFields (fun k _ => BitVec.getLsbD_zero) fun f hf k hlo hhi => ?_
  have hj : k - f.lo < f.w := by omega
  have hk : f.lo + (k - f.lo) = k := by omega
  by_cases hwo : f.acc = .wo <;> simp [hwo, testBit_getBits, hj, hk]

/-- A read clears the read-to-clear fields that it reaches. -/
theorem fieldsAre_swAfterRead {r : RegName} {mask v : DWord} (hmask : ∀ k, k < (regInfo r).width → mask.getLsbD k = true)
    (hv : FieldsAre r v fun _ k => v.getLsbD k) :
    FieldsAre r (swAfterRead (regInfo r).fields mask v) fun c k => if c = .rc then false else v.getLsbD k := by
  rw [swAfterRead_eq_putFields]
  refine fieldsAre_putFields hv.2 fun f hf k hlo hhi => ?_
  have hj : k - f.lo < f.w := by omega
  have hk : f.lo + (k - f.lo) = k := by omega
  have hcarried : getBits mask f.lo f.w ≠ 0 := fun h0 => by
    have hbit := testBit_getBits mask f.lo f.w (k - f.lo)
    rw [h0, hk, hmask k (lt_of_lt_of_le hhi (regInfo_field_le hf))] at hbit
    simp [hj] at hbit
  by_cases hrc : f.acc = .rc <;> simp [hrc, hcarried]

/-! ## Masks of the two halves -/

/-- The bits of the low half of a 64-bit register, and of the high half. -/
def lowHalf : DWord := 0xFFFFFFFF
def highHalf : DWord := 0xFFFFFFFF00000000

theorem getLsbD_lowHalf (k : Nat) : lowHalf.getLsbD k = decide (k < 32) := by
  have key : ∀ j : Fin 64, lowHalf.getLsbD j = decide (j.val < 32) := by decide
  by_cases hk : k < 64
  · exact key ⟨k, hk⟩
  · rw [BitVec.getLsbD_of_ge _ _ (by omega), decide_eq_false (by omega)]

theorem getLsbD_highHalf (k : Nat) : highHalf.getLsbD k = (decide (32 ≤ k) && decide (k < 64)) := by
  have key : ∀ j : Fin 64, highHalf.getLsbD j = (decide (32 ≤ j.val) && decide (j.val < 64)) := by decide
  by_cases hk : k < 64
  · exact key ⟨k, hk⟩
  · rw [BitVec.getLsbD_of_ge _ _ (by omega), decide_eq_false hk, Bool.and_false]

theorem getLsbD_fullMask (k : Nat) : fullMask.getLsbD k = decide (k < 64) := by rw [fullMask, BitVec.getLsbD_allOnes]

/-- A field of the low half is the same in a value and in its low half. -/
theorem getBits_and_lowHalf (v : DWord) {lo w : Nat} (h : lo + w ≤ 32) : getBits (v &&& lowHalf) lo w = getBits v lo w := by
  refine Nat.eq_of_testBit_eq fun k => ?_
  rw [testBit_getBits, testBit_getBits, BitVec.getLsbD_and, getLsbD_lowHalf]
  by_cases hk : k < w
  · rw [decide_eq_true (show lo + k < 32 by omega), Bool.and_true]
  · simp [hk]

/-- A write of a 32-bit register takes the low half of the value. -/
theorem plainWrite_and_lowHalf (s : State) {r : RegName} (i : Nat) (mask v : DWord) (hw : (regInfo r).width = 32) :
    s.plainWrite r i mask (v &&& lowHalf) = s.plainWrite r i mask v := by
  have key : ∀ f ∈ (regInfo r).fields, swField (s.reg r i) (v &&& lowHalf) f = swField (s.reg r i) v f := fun f hf => by
    rw [swField, swField, getBits_and_lowHalf v (hw ▸ regInfo_field_le hf)]
  unfold State.plainWrite swWrite
  congr 1
  exact List.foldl_ext _ _ _ fun acc f hf => by rw [key f hf]

/-! ## Which register an access meets (R7, R243) -/

/-- A register's place that an offset falls into exists and holds the offset. -/
theorem regIndexAt_spec {r : RegName} {a i : Nat} (h : regIndexAt r a = some i) :
    i < (regInfo r).count ∧ regAddr r i ≤ a ∧ a < regAddr r i + (regInfo r).width / 8 := by
  simp only [regIndexAt, Option.ite_none_right_eq_some, Option.some.injEq] at h
  obtain ⟨hin, rfl⟩ := h
  exact hin

theorem regIndexAt_of_regAt {o i : Nat} {r : RegName} {high : Bool} (h : regAt o = some (r, i, high)) : regIndexAt r o = some i := by
  obtain ⟨r', -, hr'⟩ := List.exists_of_findSome?_eq_some h
  obtain ⟨i', hi', heq⟩ := Option.map_eq_some_iff.mp hr'
  obtain ⟨rfl, rfl, -⟩ := Prod.mk.injEq .. ▸ (Prod.mk.injEq .. ▸ heq)
  exact hi'

theorem regAt_lt {o i : Nat} {r : RegName} {high : Bool} (h : regAt o = some (r, i, high)) : i < 1024 :=
  lt_of_lt_of_le (regIndexAt_spec (regIndexAt_of_regAt h)).1 ((regInfo_count_le r).trans (by decide))

/-- The part of a register that a 32-bit access meets, `at_` bits into the access. -/
def halfHit (r : RegName) (i : Nat) (high : Bool) (at_ : Nat) : RegHit :=
  { r := r, i := i, whole := decide ((regInfo r).width = 32), high := high, at_ := at_ }

/-- A 64-bit register that a 64-bit access meets. -/
def wholeHit (r : RegName) (i : Nat) : RegHit := { r := r, i := i, whole := true, high := false, at_ := 0 }

theorem hit32_of_regAt {o i : Nat} {r : RegName} {high : Bool} (h : regAt o = some (r, i, high)) (at_ : Nat) :
    hit32 o at_ = [halfHit r i high at_] := by
  simp [hit32, h, halfHit]

theorem regHits_32 (o : Nat) : regHits o 32 = hit32 o 0 := rfl

theorem regHits_64_whole {o i : Nat} {r : RegName} {high : Bool} (h : regAt o = some (r, i, high)) (hw : (regInfo r).width = 64) :
    regHits o 64 = [wholeHit r i] := by
  simp [regHits, h, hw, wholeHit]

theorem regHits_64_two {o i i' : Nat} {r r' : RegName} {high high' : Bool} (h : regAt o = some (r, i, high))
    (h' : regAt (o + 4) = some (r', i', high')) (hw : (regInfo r).width = 32) :
    regHits o 64 = [halfHit r i high 0, halfHit r' i' high' 32] := by
  simp [regHits, h, hw, hit32_of_regAt h, hit32_of_regAt h']

theorem accessOk_32 {addr : Nat} (h : addr % 4 = 0) : accessOk addr 32 = true := by simp [accessOk, h]

theorem accessOk_64 {addr : Nat} (h : addr % 8 = 0) : accessOk addr 64 = true := by simp [accessOk, h]

/-- An access that is neither a word nor a doubleword in its place (R7). -/
theorem accessOk_narrow {addr bits : Nat} (h32 : ¬ (bits = 32 ∧ addr % 4 = 0)) (h64 : ¬ (bits = 64 ∧ addr % 8 = 0)) :
    accessOk addr bits = false := by
  rw [accessOk, Bool.and_eq_false_iff, decide_eq_false_iff_not, decide_eq_false_iff_not]
  by_cases h : bits = 32 ∨ bits = 64
  · rcases h with rfl | rfl
    · exact .inr fun ha => h32 ⟨rfl, ha⟩
    · exact .inr fun ha => h64 ⟨rfl, ha⟩
  · exact .inl h

theorem agentAddr_add_four {a : Agent} {addr o o' : Nat} (h : agentAddr a addr = some o) (h' : agentAddr a (addr + 4) = some o') :
    o' = o + 4 := by
  unfold agentAddr at h h'
  split at h
  · simp only [Option.ite_none_right_eq_some, Option.some.injEq] at h h'
    omega
  · simp only [Option.some.injEq] at h h'
    omega

/-! ## Register writes -/

/-- The step of a register write over one register that it meets. -/
def writeHit (a : Agent) (bits : Nat) (v : DWord) (s : State) (h : RegHit) : State :=
  s.guarded a h.r h.i fun s => s.writeEffect a h.r h.i bits h.mask (h.value v)

theorem writeHit_of_not_reaches {s : State} {a : Agent} (hr : s.reaches a = false) (bits : Nat) (v : DWord) (h : RegHit) :
    writeHit a bits v s h = s := by simp [writeHit, State.guarded, hr]

/-- A write in its place goes through the registers it meets. -/
theorem regWrite_eq_foldl {s : State} {a : Agent} {addr bits o : Nat} (v : DWord) (hok : accessOk addr bits = true)
    (ho : agentAddr a addr = some o) (hlt : o < 0x1000000) (hhits : regHits o bits ≠ []) (hr : s.reaches a = true) :
    s.regWrite a addr bits v = (regHits o bits).foldl (writeHit a bits v) s := by
  have hle : ¬ 0x1000000 ≤ o := by omega
  simp only [State.regWrite, hr, hok, ho, hle, not_true_eq_false, if_false]
  rfl

/-- A 32-bit write meets one register. -/
theorem regWrite_32 (s : State) {a : Agent} {addr o i : Nat} {r : RegName} {high : Bool} (v : DWord) (hal : addr % 4 = 0)
    (ho : agentAddr a addr = some o) (hlt : o < 0x1000000) (hat : regAt o = some (r, i, high)) :
    s.regWrite a addr 32 v = writeHit a 32 v s (halfHit r i high 0) := by
  have hhits : regHits o 32 = [halfHit r i high 0] := hit32_of_regAt hat 0
  cases hr : s.reaches a with
  | false => rw [writeHit_of_not_reaches hr, State.regWrite]; simp [hr]
  | true => rw [regWrite_eq_foldl v (accessOk_32 hal) ho hlt (by simp [hhits]) hr, hhits]; rfl

/-- A register with no rule of its own takes the plain write. -/
theorem writeEffect_plain {r : RegName} (h : r ∉ ownRule) (s : State) (a : Agent) (i bits : Nat) (mask v : DWord) :
    s.writeEffect a r i bits mask v = s.plainWrite r i mask v := by
  unfold State.writeEffect
  split
  case h_47 => rfl
  all_goals exact absurd (by simp [ownRule]) h

end Sys2Proof.Proofs
end

section
/-!
SUPPORT. The statements about register writes and reads (R7-R12, R345).
-/

namespace Sys2Proof.Proofs

open Sys2Proof.Machine Sys2Proof.Claims

/-! ## Writes -/

section Writes

variable {s : State} {a : Agent} {addr i : Nat} {r : RegName} {high : Bool}

/-- The bits that a 32-bit access carries of a register. -/
theorem mask_halfHit (r : RegName) (i : Nat) (high : Bool) (at_ : Nat) :
    (halfHit r i high at_).mask =
      if (regInfo r).width = 64 ∧ high = true then highHalf else lowHalf := by
  rcases regInfo_width r with hw | hw <;> cases high <;> simp [RegHit.mask, halfHit, hw, lowHalf, highHalf]

theorem mask_wholeHit (hw : (regInfo r).width = 64) (i : Nat) : (wholeHit r i).mask = fullMask := by
  simp [RegHit.mask, wholeHit, hw]

theorem value_halfHit_32 (hw : (regInfo r).width = 32) (i : Nat) (high : Bool) (at_ : Nat) (v : DWord) :
    (halfHit r i high at_).value v = v >>> at_ := by
  simp [RegHit.value, halfHit, hw]

theorem value_halfHit_64 (hw : (regInfo r).width = 64) (i : Nat) (high : Bool) (v : DWord) :
    (halfHit r i high 0).value v = if high = true then v <<< (32 : Nat) else v &&& lowHalf := by
  simp [RegHit.value, halfHit, hw, lowHalf]

theorem value_wholeHit (r : RegName) (i : Nat) (v : DWord) : (wholeHit r i).value v = v := by
  simp [RegHit.value, wholeHit]

/-- A write of a register with no rule of its own is the plain write. -/
theorem writeHit_plain {bits : Nat} {v : DWord} {h : RegHit} (s : State) (a : Agent) (hown : h.r ∉ ownRule) :
    writeHit a bits v s h = s.guarded a h.r h.i fun s => s.plainWrite h.r h.i h.mask (h.value v) := by
  simp only [writeHit, writeEffect_plain hown]

/-- So is one of a 32-bit register, wherever it stands in the access. -/
theorem writeHit_plain_32 (s : State) (a : Agent) {bits : Nat} (v : DWord) (at_ : Nat) (hown : r ∉ ownRule)
    (hw : (regInfo r).width = 32) :
    writeHit a bits v s (halfHit r i high at_) = s.guarded a r i fun s => s.plainWrite r i lowHalf (v >>> at_) := by
  rw [writeHit_plain s a (by exact hown), mask_halfHit, value_halfHit_32 hw, if_neg (by omega)]
  rfl

/-- What a plain write leaves in the register, and that it touches no other. -/
theorem plainWrite_answer {c : Instr} {f : State → State} {mask v : DWord} {new : Acc → Nat → Bool} (hc : exec c s = s.effect f)
    (hf : f s = (s.unlatch r i).plainWrite r i mask v) (hi : i < 1024)
    (hnew : ∀ x k, k < (regInfo r).width →
      (if mask.getLsbD k then byCode x ((s.reg r i).getLsbD k) (v.getLsbD k) else (s.reg r i).getLsbD k) = new x k) :
    Answers c s fun t => FieldsAre r (t.reg r i) new ∧ smGet (fun _ => none) t.latches (regKey r i) = none ∧ RegsOnly [(r, i)] s t := by
  have honly : Only [.regs, .latches] s (f s) := by simp [hf]
  refine answers_of_only _ hc honly ?_
  rw [hf] at honly ⊢
  refine ⟨?_, ?_, honly, by simp [hi]⟩
  · rw [State.plainWrite, reg_setReg_same]
    exact fieldsAre_congr (fieldsAre_swWrite r mask _ v) hnew
  · simp [State.unlatch]

theorem exec_registerWrite (s : State) (a : Agent) (addr bits : Nat) (v : DWord) :
    exec (.registerWrite a addr bits v) s = s.effect fun s => s.regWrite a addr bits v := rfl

/-- A 32-bit register takes the written value by its fields' codes (R8, R11). -/
theorem registerWrite_32 (hm : Meets s a addr r i high) (hw : s.mayWrite a r i = true) (hown : r ∉ ownRule)
    (hwidth : (regInfo r).width = 32) (hal : addr % 4 = 0) (v : DWord) :
    Answers (.registerWrite a addr 32 v) s fun t =>
      FieldsAre r (t.reg r i) (fun c k => byCode c ((s.reg r i).getLsbD k) (v.getLsbD k)) ∧ RegsOnly [(r, i)] s t := by
  obtain ⟨hr, o, ho, hlt, hat⟩ := hm
  have heff : s.regWrite a addr 32 v = (s.unlatch r i).plainWrite r i lowHalf v := by
    rw [regWrite_32 s v hal ho hlt hat, writeHit_plain_32 s a v 0 hown hwidth, guarded_act _ hr hw, BitVec.ushiftRight_zero]
  obtain ⟨t, ht, hfields, -, honly⟩ := plainWrite_answer (exec_registerWrite s a addr 32 v) heff (regAt_lt hat)
    (new := fun c k => byCode c ((s.reg r i).getLsbD k) (v.getLsbD k)) fun c k hk => by
      rw [getLsbD_lowHalf, decide_eq_true (hwidth ▸ hk), if_pos rfl]
  exact ⟨t, ht, hfields, honly⟩

/-- A 64-bit register takes the whole of a 64-bit write. -/
theorem registerWrite_64 (hm : Meets s a addr r i high) (hw : s.mayWrite a r i = true) (hown : r ∉ ownRule)
    (hwidth : (regInfo r).width = 64) (hal : addr % 8 = 0) (v : DWord) :
    Answers (.registerWrite a addr 64 v) s fun t =>
      FieldsAre r (t.reg r i) (fun c k => byCode c ((s.reg r i).getLsbD k) (v.getLsbD k)) ∧ RegsOnly [(r, i)] s t := by
  obtain ⟨hr, o, ho, hlt, hat⟩ := hm
  have hhits := regHits_64_whole hat hwidth
  have heff : s.regWrite a addr 64 v = (s.unlatch r i).plainWrite r i fullMask v := by
    rw [regWrite_eq_foldl v (accessOk_64 hal) ho hlt (by simp [hhits]) hr, hhits]
    show writeHit a 64 v s (wholeHit r i) = _
    rw [writeHit_plain s a (by exact hown), mask_wholeHit hwidth, value_wholeHit]
    exact guarded_act _ hr hw
  obtain ⟨t, ht, hfields, -, honly⟩ := plainWrite_answer (exec_registerWrite s a addr 64 v) heff (regAt_lt hat)
    (new := fun c k => byCode c ((s.reg r i).getLsbD k) (v.getLsbD k)) fun c k hk => by
      rw [getLsbD_fullMask, decide_eq_true (hwidth ▸ hk), if_pos rfl]
  exact ⟨t, ht, hfields, honly⟩

/-- A 32-bit write of a 64-bit register changes the half it meets and releases the latch (R7, R11). -/
theorem registerWrite_half (hm : Meets s a addr r i high) (hw : s.mayWrite a r i = true) (hown : r ∉ ownRule)
    (hwidth : (regInfo r).width = 64) (hal : addr % 4 = 0) (v : DWord) :
    Answers (.registerWrite a addr 32 v) s fun t =>
      FieldsAre r (t.reg r i) (fun c k =>
        if decide (32 ≤ k) = high then byCode c ((s.reg r i).getLsbD k) (v.getLsbD (k % 32)) else (s.reg r i).getLsbD k) ∧
      smGet (fun _ => none) t.latches (regKey r i) = none ∧ RegsOnly [(r, i)] s t := by
  obtain ⟨hr, o, ho, hlt, hat⟩ := hm
  have heff : s.regWrite a addr 32 v = (s.unlatch r i).plainWrite r i
      (if high = true then highHalf else lowHalf) (if high = true then v <<< (32 : Nat) else v &&& lowHalf) := by
    rw [regWrite_32 s v hal ho hlt hat, writeHit_plain s a (by exact hown), mask_halfHit, value_halfHit_64 hwidth]
    simp only [hwidth, true_and]
    exact guarded_act _ hr hw
  refine plainWrite_answer (exec_registerWrite s a addr 32 v) heff (regAt_lt hat) fun c k hk => ?_
  have hk : k < 64 := hwidth ▸ hk
  cases high with
  | false =>
    by_cases h32 : k < 32
    · simp [getLsbD_lowHalf, h32, Nat.not_le.mpr h32, Nat.mod_eq_of_lt h32]
    · simp [getLsbD_lowHalf, h32, Nat.le_of_not_lt h32]
  | true =>
    by_cases h32 : 32 ≤ k
    · have hmod : k % 32 = k - 32 := by omega
      simp [getLsbD_highHalf, h32, hk, hmod, Nat.not_lt.mpr h32, -BitVec.getLsbD_eq_getElem]
    · simp [getLsbD_highHalf, h32]

/-- A write that is neither a word nor a doubleword in its place is counted (R7). -/
theorem registerWrite_narrow {bits : Nat} (hr : s.reaches a = true) (h32 : ¬ (bits = 32 ∧ addr % 4 = 0))
    (h64 : ¬ (bits = 64 ∧ addr % 8 = 0)) (v : DWord) : Answers (.registerWrite a addr bits v) s (Counted s) := by
  have heff : s.regWrite a addr bits v = s.badAccess := by simp [State.regWrite, hr, accessOk_narrow h32 h64]
  refine answers_of_only [.regs] (exec_registerWrite s a addr bits v) ?_ ?_
  · simp [heff]
  · exact heff ▸ counted_badAccess s

theorem registerWrite_of_not_reaches (hr : s.reaches a = false) (bits : Nat) (v : DWord) :
    exec (.registerWrite a addr bits v) s = .next s :=
  exec_eq_self (exec_registerWrite s a addr bits v) (by simp [State.regWrite, hr])

/-- A command that writes one register does nothing without its agent's reach, and is counted where the agent may not make it. -/
theorem guarded_command {c : Instr} {f : State → State} (hc : exec c s = s.effect fun s => s.guarded a r i f) :
    (s.reaches a = true → s.mayWrite a r i = false → Answers c s (Counted s)) ∧ (s.reaches a = false → exec c s = .next s) := by
  refine ⟨fun hr hw => ?_, fun hr => exec_eq_self hc (by simp [State.guarded, hr])⟩
  have heff : s.guarded a r i f = s.badAccess := guarded_refused f hr hw
  refine answers_of_only [.regs] hc ?_ ?_
  · simp [heff]
  · exact heff ▸ counted_badAccess s

/-- A 32-bit write of a register is one such command. -/
theorem exec_registerWrite_32 (s : State) (v : DWord) (hal : addr % 4 = 0) {o : Nat} (ho : agentAddr a addr = some o)
    (hlt : o < 0x1000000) (hat : regAt o = some (r, i, high)) :
    exec (.registerWrite a addr 32 v) s = s.effect fun s => s.guarded a r i fun s =>
      s.writeEffect a r i 32 (halfHit r i high 0).mask ((halfHit r i high 0).value v) := by
  rw [exec_registerWrite]
  exact congrArg s.effect (funext fun s => regWrite_32 s v hal ho hlt hat)

/-- Every write command is a guarded write of the register it names. -/
theorem exec_of_writes {c : Instr} (h : Claims.writes c = some (a, r, i)) :
    ∃ f, ∀ s : State, exec c s = s.effect fun s => s.guarded a r i f := by
  unfold Claims.writes at h
  split at h <;> cases h <;> exact ⟨_, fun _ => rfl⟩

/-- A 64-bit write of two 32-bit registers is two writes, the low one first (R7). -/
theorem registerWrite_two {r' : RegName} {i' : Nat} (v : DWord) (hal : addr % 8 = 0) (hm : Meets s a addr r i false)
    (hm' : Meets s a (addr + 4) r' i' false) (hw : (regInfo r).width = 32) (hw' : (regInfo r').width = 32) (hown : r ∉ ownRule)
    (hown' : r' ∉ ownRule) :
    ∃ t u, exec (.registerWrite a addr 32 (v &&& 0xFFFFFFFF)) s = .next t ∧
      exec (.registerWrite a (addr + 4) 32 (v >>> (32 : Nat))) t = .next u ∧ exec (.registerWrite a addr 64 v) s = .next u := by
  obtain ⟨hr, o, ho, hlt, hat⟩ := hm
  obtain ⟨-, o', ho', hlt', hat'⟩ := hm'
  obtain rfl := agentAddr_add_four ho ho'
  have hhits := regHits_64_two hat hat' hw
  have hlow : ∀ s : State, s.regWrite a addr 32 (v &&& lowHalf) = s.guarded a r i fun s => s.plainWrite r i lowHalf v := fun s => by
    rw [regWrite_32 s _ (by omega) ho hlt hat, writeHit_plain_32 s a _ 0 hown hw, BitVec.ushiftRight_zero]
    simp only [plainWrite_and_lowHalf _ _ _ _ hw]
  have hhigh : ∀ s : State, s.regWrite a (addr + 4) 32 (v >>> (32 : Nat)) =
      s.guarded a r' i' fun s => s.plainWrite r' i' lowHalf (v >>> (32 : Nat)) := fun s => by
    rw [regWrite_32 s _ (by omega) ho' hlt' hat', writeHit_plain_32 s a _ 0 hown' hw', BitVec.ushiftRight_zero]
  have hboth : s.regWrite a addr 64 v = (s.regWrite a addr 32 (v &&& lowHalf)).regWrite a (addr + 4) 32 (v >>> (32 : Nat)) := by
    rw [regWrite_eq_foldl v (accessOk_64 hal) ho hlt (by simp [hhits]) hr, hhits, hlow, hhigh, List.foldl_cons, List.foldl_cons,
      List.foldl_nil, writeHit_plain_32 s a v 0 hown hw, writeHit_plain_32 _ a v 32 hown' hw', BitVec.ushiftRight_zero]
  have honly : ∀ (s : State) (r : RegName) (i : Nat) (v : DWord),
      Only [.regs, .latches] s (s.guarded a r i fun s => s.plainWrite r i lowHalf v) := fun s r i v => by
    rcases guarded_cases s a r i fun s => s.plainWrite r i lowHalf v with ⟨-, h⟩ | ⟨-, -, h⟩ | ⟨-, -, h⟩ <;> simp [h]
  have h1 := hlow s ▸ honly s r i v
  have h2 := hhigh (s.regWrite a addr 32 (v &&& lowHalf)) ▸ honly _ r' i' _
  exact ⟨_, _, (exec_registerWrite ..).trans (effect_of_only h1), (exec_registerWrite ..).trans (effect_of_only h2),
    (exec_registerWrite ..).trans (hboth ▸ effect_of_only (hboth ▸ only_trans h1 h2))⟩

end Writes

/-! ## The statement -/

/-- Settles O29: a write meets one register, or two in turn, and each takes it by its fields' codes, or refuses and counts it. -/
theorem registerWrites : Obligations.RegisterWrites := by
  unfold Obligations.RegisterWrites
  refine ⟨fun s a addr v => ⟨fun r i high hm hw hown => ⟨?_, ?_, ?_⟩, ?_, ?_, ?_, ?_⟩, ?_⟩
  · exact fun hwidth hal => registerWrite_32 hm hw hown hwidth hal v
  · exact fun hwidth hal _ => registerWrite_64 hm hw hown hwidth hal v
  · exact fun hwidth hal => registerWrite_half hm hw hown hwidth hal v
  · exact fun r i r' i' hal hm hm' hw hw' hown hown' => registerWrite_two v hal hm hm' hw hw' hown hown'
  · exact fun bits hr h32 h64 => registerWrite_narrow hr h32 h64 v
  · exact fun bits hr => registerWrite_of_not_reaches hr bits v
  · rintro r i high ⟨hr, o, ho, hlt, hat⟩ hw hal
    exact (guarded_command (exec_registerWrite_32 s v hal ho hlt hat)).1 hr hw
  · intro c a r i s h
    obtain ⟨f, hf⟩ := exec_of_writes h
    exact guarded_command (hf s)

end Sys2Proof.Proofs
end

section
/-!
SUPPORT. The statement about register reads (R7, R9, R12).
-/

namespace Sys2Proof.Proofs

open Sys2Proof.Machine Sys2Proof.Claims

section Reads

variable {s : State} {a : Agent} {addr i : Nat} {r : RegName} {high : Bool}

/-! ## What one read does -/

@[simp] theorem emit_out (s : State) (o : Out) : (s.emit o).out = o :: s.out := rfl

/-- The side effects of a read on its register (R9, R12). -/
def afterRead (s : State) (a : Agent) (r : RegName) (i : Nat) (mask : DWord) : State :=
  if s.readActs a then s.setReg r (swAfterRead (regInfo r).fields mask (s.reg r i)) i else s

/-- The latch of a register's high half takes a value or is released (R7). -/
def setLatch (s : State) (r : RegName) (i : Nat) (x : Option Word) : State :=
  { s with latches := smSet (fun _ => none) s.latches (regKey r i) x }

@[simp] theorem afterRead_latches (s : State) (a : Agent) (r : RegName) (i : Nat) (mask : DWord) :
    (afterRead s a r i mask).latches = s.latches := by
  unfold afterRead; split <;> rfl

@[simp] theorem afterRead_out (s : State) (a : Agent) (r : RegName) (i : Nat) (mask : DWord) :
    (afterRead s a r i mask).out = s.out := by
  unfold afterRead; split <;> rfl

@[simp] theorem only_afterRead {ps : List Part} {s t : State} (h : .regs ∈ ps) (a : Agent) (r : RegName) (i : Nat) (mask : DWord) :
    Only ps s (afterRead t a r i mask) ↔ Only ps s t := by
  unfold afterRead; split <;> simp [h]

@[simp] theorem only_setLatch {ps : List Part} {s t : State} (h : .latches ∈ ps) (r : RegName) (i : Nat) (x : Option Word) :
    Only ps s (setLatch t r i x) ↔ Only ps s t :=
  only_iff_of_step (only_latches h _)

@[simp] theorem onlyRegs_afterRead {rs : List (RegName × Nat)} {s t : State} {r : RegName} {i : Nat} (hi : i < 1024)
    (h : (r, i) ∈ rs) (a : Agent) (mask : DWord) : OnlyRegs rs s (afterRead t a r i mask) ↔ OnlyRegs rs s t := by
  unfold afterRead; split <;> simp [hi, h]

@[simp] theorem setLatch_same (s : State) (r : RegName) (i : Nat) (x : Option Word) :
    smGet (fun _ => none) (setLatch s r i x).latches (regKey r i) = x := by simp [setLatch]

@[simp] theorem setLatch_out (s : State) (r : RegName) (i : Nat) (x : Option Word) : (setLatch s r i x).out = s.out := rfl

/-- A read of the whole register clears its read-to-clear fields, if it has side effects. -/
theorem fieldsAre_afterRead {mask : DWord} (hmask : ∀ k, k < (regInfo r).width → mask.getLsbD k = true)
    (hv : FieldsAre r (s.reg r i) fun _ k => (s.reg r i).getLsbD k) :
    FieldsAre r ((afterRead s a r i mask).reg r i) fun c k =>
      if c = .rc ∧ s.readActs a = true ∧ true = true then false else (s.reg r i).getLsbD k := by
  unfold afterRead
  by_cases hacts : s.readActs a = true
  · simpa [hacts] using fieldsAre_swAfterRead hmask hv
  · simpa [hacts] using hv

theorem readHit_whole {h : RegHit} (hr : s.mayRead a h.r h.i = true) (hwhole : h.whole = true) (hat : h.at_ = 0) :
    s.readHit a h = (s.readValue h.r h.i, afterRead s.used a h.r h.i h.mask) := by
  simp [State.readHit, hr, hwhole, hat, afterRead]

/-- A read of the low half latches the high half. -/
theorem readHit_low {h : RegHit} (hr : s.mayRead a h.r h.i = true) (hwidth : (regInfo h.r).width = 64) (hwhole : h.whole = false)
    (hhigh : h.high = false) (hat : h.at_ = 0) :
    s.readHit a h = (s.readValue h.r h.i &&& lowHalf,
      afterRead (setLatch s.used h.r h.i (some ((s.readValue h.r h.i >>> (32 : Nat)).setWidth 32))) a h.r h.i h.mask) := by
  simp only [State.readHit, hr, hwidth, hwhole, hhigh, hat, not_true_eq_false, Bool.not_true, decide_true, Bool.or_false,
    Bool.false_eq_true, if_false, BitVec.shiftLeft_zero]
  rfl

/-- A read of the high half returns the latched half, or the live one, and releases the latch. -/
theorem readHit_high {h : RegHit} (hr : s.mayRead a h.r h.i = true) (hwidth : (regInfo h.r).width = 64) (hwhole : h.whole = false)
    (hhigh : h.high = true) (hat : h.at_ = 0) :
    s.readHit a h = ((match smGet (fun _ => none) s.latches (regKey h.r h.i) with
        | some x => x.setWidth 64
        | none => s.readValue h.r h.i >>> (32 : Nat)),
      afterRead (setLatch s.used h.r h.i none) a h.r h.i h.mask) := by
  simp only [State.readHit, hr, hwidth, hwhole, hhigh, hat, not_true_eq_false, Bool.not_true, decide_true, Bool.or_false,
    Bool.false_eq_true, if_false, if_true, BitVec.shiftLeft_zero]
  rfl

/-! ## The read command -/

theorem exec_halfReadLatch (s : State) (a : Agent) (addr bits : Nat) :
    exec (.halfReadLatch a addr bits) s =
      s.effect fun s => (s.regRead a addr bits).2.emit (.value (s.regRead a addr bits).1) := rfl

/-- A read that meets one register. -/
theorem regRead_single {bits o : Nat} {h : RegHit} (hr : s.reaches a = true) (hok : accessOk addr bits = true)
    (ho : agentAddr a addr = some o) (hlt : o < 0x1000000) (hhits : regHits o bits = [h]) :
    s.regRead a addr bits = s.readHit a h := by
  have hle : ¬ 0x1000000 ≤ o := by omega
  simp [State.regRead, hr, hok, ho, hle, hhits]

theorem regRead_32 (hm : Meets s a addr r i high) (hal : addr % 4 = 0) :
    s.regRead a addr 32 = s.readHit a (halfHit r i high 0) := by
  obtain ⟨hr, o, ho, hlt, hat⟩ := hm
  exact regRead_single hr (accessOk_32 hal) ho hlt (hit32_of_regAt hat 0)

theorem regRead_64 (hm : Meets s a addr r i high) (hwidth : (regInfo r).width = 64) (hal : addr % 8 = 0) :
    s.regRead a addr 64 = s.readHit a (wholeHit r i) := by
  obtain ⟨hr, o, ho, hlt, hat⟩ := hm
  exact regRead_single hr (accessOk_64 hal) ho hlt (regHits_64_whole hat hwidth)

/-- A read command whose read is known. -/
theorem answers_read {bits : Nat} {v : DWord} {t : State} {P : State → Prop} (hread : s.regRead a addr bits = (v, t))
    (honly : Only [.regs, .latches, .free] s t) (hP : P (t.emit (.value v))) : Answers (.halfReadLatch a addr bits) s P := by
  refine answers_of_only [.regs, .latches, .out, .free] (exec_halfReadLatch s a addr bits) ?_ ?_
  · simp only [hread, List.mem_cons, true_or, or_true, only_emit]
    exact only_mono honly (by simp)
  · simpa only [hread] using hP

/-- A read of a whole register shows its value, uses no latch, and leaves what `afterRead` says. -/
theorem read_whole {bits : Nat} {h : RegHit} (hread : s.regRead a addr bits = s.readHit a h) (hr : s.mayRead a h.r h.i = true)
    (hwhole : h.whole = true) (hat : h.at_ = 0) (hi : h.i < 1024)
    (hmask : ∀ k, k < (regInfo h.r).width → h.mask.getLsbD k = true)
    (hv : FieldsAre h.r (s.reg h.r h.i) fun _ k => (s.reg h.r h.i).getLsbD k) :
    Answers (.halfReadLatch a addr bits) s fun t => t.out = .value (s.readValue h.r h.i) :: s.out ∧ t.latches = s.latches ∧
      FieldsAre h.r (t.reg h.r h.i) (fun c k =>
        if c = .rc ∧ s.readActs a = true ∧ true = true then false else (s.reg h.r h.i).getLsbD k) ∧
      Only [.regs, .latches, .out, .free] s t ∧ OnlyRegs [(h.r, h.i)] s t :=
  answers_read (hread.trans (readHit_whole hr hwhole hat)) (by simp)
    ⟨by simp, by simp, fieldsAre_afterRead (s := s.used) hmask hv, by simp, by simp [hi]⟩

/-- The shown value of a register that shows no other part of the state. -/
theorem readValue_of_not_overlaid (h : r ∉ overlaid) (s : State) (i : Nat) :
    s.readValue r i = swRead (regInfo r).fields (s.reg r i) := by
  have hshown : ∀ f, s.shown r i f = s.reg r i := fun f => by
    unfold State.shown
    split
    case h_14 => rfl
    all_goals exact absurd (by simp [overlaid]) h
  rw [State.readValue, hshown]

/-- A read that is neither a word nor a doubleword in its place gives 0 and is counted (R7). -/
theorem read_narrow {bits : Nat} (hr : s.reaches a = true) (h32 : ¬ (bits = 32 ∧ addr % 4 = 0))
    (h64 : ¬ (bits = 64 ∧ addr % 8 = 0)) :
    Answers (.halfReadLatch a addr bits) s fun t =>
      t.out = .value 0 :: s.out ∧ t.fv F.SYS_BAD_ACCESS_COUNT = Nat.min (2 ^ 32 - 1) (s.fv F.SYS_BAD_ACCESS_COUNT + 1) ∧
      Only [.regs, .out] s t ∧ OnlyRegs [(.SYS_BAD_ACCESS, 0)] s t := by
  obtain ⟨hcount, -, -⟩ := counted_badAccess s
  refine answers_read (v := 0) (t := s.badAccess) ?_ (by simp) ⟨rfl, hcount, by simp, by simp⟩
  simp [State.regRead, hr, accessOk_narrow h32 h64]

end Reads

/-! ## The statement -/

/-- Settles O30: a read meets one register, whole or by a half, and what it shows and leaves follows from that. -/
theorem registerReads : Obligations.RegisterReads := by
  unfold Obligations.RegisterReads
  refine fun s a addr => ⟨fun r i high hm hr hover hv => ?_, fun bits hreach h32 h64 => read_narrow hreach h32 h64⟩
  obtain ⟨-, o, -, -, hat⟩ := id hm
  have hi := regAt_lt hat
  refine ⟨readValue_of_not_overlaid hover s i ▸ fieldsAre_swRead r _, fun hw hal => ?_, fun hw hal _ => ?_, fun hw hal hlow => ?_,
    fun hw hal hhigh => ?_⟩
  · refine read_whole (h := halfHit r i high 0) (regRead_32 hm hal) hr (by simp [halfHit, hw]) rfl hi (fun k hk => ?_) hv
    rw [mask_halfHit, if_neg (by omega), getLsbD_lowHalf]
    exact decide_eq_true (hw ▸ hk)
  · refine read_whole (h := wholeHit r i) (regRead_64 hm hw hal) hr rfl rfl hi (fun k hk => ?_) hv
    rw [mask_wholeHit hw, getLsbD_fullMask]
    exact decide_eq_true (hw ▸ hk)
  · exact answers_read ((regRead_32 hm hal).trans (readHit_low hr hw (by simp [halfHit, hw]) hlow rfl)) (by simp)
      ⟨by rw [emit_out, afterRead_out]; rfl, by simp [halfHit], by simp⟩
  · exact answers_read ((regRead_32 hm hal).trans (readHit_high hr hw (by simp [halfHit, hw]) hhigh rfl)) (by simp)
      ⟨by rw [emit_out, afterRead_out]; rfl, by simp [halfHit], by simp⟩

end Sys2Proof.Proofs
end

section
/-!
SUPPORT. The host's rings: what each shared operation on rings, vectors and completions does to the fields, the rings, the waiting
entries and the accepted commands, and its frame (R246-R260).
-/

namespace Sys2Proof.Proofs

open Sys2Proof.Machine Sys2Proof.Claims

/-! ## Places and fields -/

/-- Two fields share no bit of one register. -/
abbrev Apart (f g : Fld) : Prop := f.reg ≠ g.reg ∨ f.lo + f.w ≤ g.lo ∨ g.lo + g.w ≤ f.lo

@[simp] theorem sqIdx_lt (fn : Fin 8) (n : Fin 64) : sqIdx fn n < 1024 := by unfold sqIdx; omega

@[simp] theorem wRing_idx_lt (w : WRing) : w.idx < 1024 := by
  obtain ⟨f, _ | n⟩ := w
  · exact lt_trans f.isLt (by decide)
  · show 64 * f.val + n.val < 1024
    omega

@[simp] theorem fn_lt (fn : Fin 8) : fn.val < 1024 := lt_trans fn.isLt (by decide)

/-- The key of a submission ring is no key of a ring the module writes. -/
theorem sq_key_ne_wRing_key (f : Fin 8) (w : WRing) {q : Nat} (hq : q < 64) : 129 * f.val + q ≠ w.key := by
  obtain ⟨g, _ | n⟩ := w
  · show 129 * f.val + q ≠ 129 * g.val + 128
    omega
  · show 129 * f.val + q ≠ 129 * g.val + 64 + n.val
    omega

theorem fv_fset_apart (s : State) {f g : Fld} (v : Nat) {i j : Nat} (hi : i < 1024) (hj : j < 1024) (h : Apart f g) :
    (s.fset f v i).fv g j = s.fv g j := by
  by_cases hr : f.reg = g.reg
  · by_cases hij : i = j
    · subst hij
      exact fv_fset_disjoint s v i hr (h.resolve_left (not_not_intro hr))
    · exact fv_fset_instance s v hr hij
  · exact fv_fset_other s v hi hj hr

theorem fv_setReg_other (s : State) {r : RegName} {g : Fld} (v : DWord) {i j : Nat} (hi : i < 1024) (hj : j < 1024) (h : r ≠ g.reg) :
    (s.setReg r v i).fv g j = s.fv g j := by
  rw [State.fv, reg_setReg_other s v hi hj h]; rfl

theorem fv_plainWrite_other (s : State) {r : RegName} {g : Fld} (m v : DWord) {i j : Nat} (hi : i < 1024) (hj : j < 1024)
    (h : r ≠ g.reg) : (s.plainWrite r i m v).fv g j = s.fv g j :=
  fv_setReg_other s _ hi hj h

/-- A whole write puts the written bits into a read-write field. -/
theorem fv_plainWrite_rw (s : State) (f : Fld) (i : Nat) (v : DWord) (hf : ⟨f.lo, f.w, .rw⟩ ∈ (regInfo f.reg).fields) :
    (s.plainWrite f.reg i fullMask v).fv f i = wField v f := by
  refine Nat.eq_of_testBit_eq fun k => ?_
  rw [State.fv, wField, testBit_getBits, testBit_getBits, State.plainWrite, reg_setReg_same]
  by_cases hk : k < f.w
  · have hle : f.lo + f.w ≤ 64 := regInfo_field_le_64 hf
    rw [(fieldsAre_swWrite f.reg fullMask _ v).1 _ hf (f.lo + k) (Nat.le_add_right _ _) (Nat.add_lt_add_left hk _)]
    simp only [getLsbD_fullMask, decide_eq_true (show f.lo + k < 64 by omega), if_true, byCode]
  · simp [hk]

/-- A whole write leaves a read-only field. -/
theorem fv_plainWrite_ro (s : State) (f : Fld) (i : Nat) (v : DWord) (hf : ⟨f.lo, f.w, .ro⟩ ∈ (regInfo f.reg).fields) :
    (s.plainWrite f.reg i fullMask v).fv f i = s.fv f i := by
  refine Nat.eq_of_testBit_eq fun k => ?_
  rw [State.fv, State.fv, testBit_getBits, testBit_getBits, State.plainWrite, reg_setReg_same]
  by_cases hk : k < f.w
  · rw [(fieldsAre_swWrite f.reg fullMask _ v).1 _ hf (f.lo + k) (Nat.le_add_right _ _) (Nat.add_lt_add_left hk _)]
    simp [byCode]
  · simp [hk]

theorem fv_lt (s : State) (f : Fld) (i : Nat) : s.fv f i < 2 ^ f.w := getBits_lt _ _ _

/-! ## Fields of a ring the module writes -/

theorem wfv_wset_same (s : State) (w : WRing) {c e : Fld} (v : Nat) (hc : c.lo + c.w ≤ 64) (he : e.lo + e.w ≤ 64) (hw : e.w = c.w) :
    (s.wset w c e v).wfv w c e = v % 2 ^ c.w := by
  obtain ⟨f, _ | n⟩ := w
  · exact (fv_fset_same s e v _ he).trans (by rw [hw])
  · exact fv_fset_same s c v _ hc

theorem wfv_wset_apart (s : State) (w : WRing) {c e c' e' : Fld} (v : Nat) (hc : Apart c c') (he : Apart e e') :
    (s.wset w c e v).wfv w c' e' = s.wfv w c' e' := by
  obtain ⟨f, _ | n⟩ := w
  · exact fv_fset_apart s v (wRing_idx_lt (f, none)) (wRing_idx_lt (f, none)) he
  · exact fv_fset_apart s v (wRing_idx_lt (f, some n)) (wRing_idx_lt (f, some n)) hc

theorem fv_wset_apart (s : State) (w : WRing) {c e g : Fld} (v : Nat) {j : Nat} (hj : j < 1024) (hc : Apart c g) (he : Apart e g) :
    (s.wset w c e v).fv g j = s.fv g j := by
  obtain ⟨f, _ | n⟩ := w
  · exact fv_fset_apart s v (wRing_idx_lt (f, none)) hj he
  · exact fv_fset_apart s v (wRing_idx_lt (f, some n)) hj hc

/-- What depends on the registers alone is the same in states with the same registers. -/
theorem reg_congr {s t : State} (h : t.regs = s.regs) (r : RegName) (i : Nat) : t.reg r i = s.reg r i := by
  simp only [State.reg, h]

theorem fv_congr {s t : State} (h : t.regs = s.regs) (f : Fld) (i : Nat) : t.fv f i = s.fv f i := by
  simp only [State.fv, reg_congr h]

theorem wfv_congr {s t : State} (h : t.regs = s.regs) (w : WRing) (c e : Fld) : t.wfv w c e = s.wfv w c e := fv_congr h _ _

section Views

variable {s : State}

@[simp] theorem fv_setRing (k : Nat) (x : Ring) (f : Fld) (i : Nat) : (s.setRing k x).fv f i = s.fv f i := rfl
@[simp] theorem fv_setDoor (k : Nat) (v : DWord) (f : Fld) (i : Nat) : (s.setDoor k v).fv f i = s.fv f i := rfl
@[simp] theorem fv_modFn (g : Fin 8) (x : Fn → Fn) (f : Fld) (i : Nat) : (s.modFn g x).fv f i = s.fv f i := rfl
@[simp] theorem fv_emit (o : Out) (f : Fld) (i : Nat) : (s.emit o).fv f i = s.fv f i := rfl
@[simp] theorem fv_used (f : Fld) (i : Nat) : s.used.fv f i = s.fv f i := rfl
@[simp] theorem fv_unlatch (r : RegName) (j : Nat) (f : Fld) (i : Nat) : (s.unlatch r j).fv f i = s.fv f i := rfl
@[simp] theorem fv_setSession (k : Fin 8) (x : Option Session) (f : Fld) (i : Nat) : (s.setSession k x).fv f i = s.fv f i := rfl
@[simp] theorem fv_sendVector (g : Fin 8) (v : Nat) (f : Fld) (i : Nat) : (s.sendVector g v).fv f i = s.fv f i := fv_congr (by simp) f i
@[simp] theorem fv_wVector (w : WRing) (f : Fld) (i : Nat) : (s.wVector w).fv f i = s.fv f i := fv_congr (by simp) f i
@[simp] theorem fv_wCoalesce (w : WRing) (n : Nat) (f : Fld) (i : Nat) : (s.wCoalesce w n).fv f i = s.fv f i := fv_congr (by simp) f i
@[simp] theorem fv_wSetWaiting (w : WRing) (l : List Entry) (f : Fld) (i : Nat) : (s.wSetWaiting w l).fv f i = s.fv f i :=
  fv_congr (by simp) f i
@[simp] theorem fv_capsule (k : Fin 8) (n : Nat) (e : Option Entry) (d : List Byte) (f : Fld) (i : Nat) :
    (s.capsule k n e d).fv f i = s.fv f i := fv_congr (by simp) f i

@[simp] theorem wfv_setRing (k : Nat) (x : Ring) (w : WRing) (c e : Fld) : (s.setRing k x).wfv w c e = s.wfv w c e := rfl
@[simp] theorem wfv_setDoor (k : Nat) (v : DWord) (w : WRing) (c e : Fld) : (s.setDoor k v).wfv w c e = s.wfv w c e := rfl
@[simp] theorem wfv_unlatch (r : RegName) (j : Nat) (w : WRing) (c e : Fld) : (s.unlatch r j).wfv w c e = s.wfv w c e := rfl
@[simp] theorem wfv_sendVector (g : Fin 8) (v : Nat) (w : WRing) (c e : Fld) : (s.sendVector g v).wfv w c e = s.wfv w c e :=
  wfv_congr (by simp) w c e
@[simp] theorem wfv_wCoalesce (w' : WRing) (n : Nat) (w : WRing) (c e : Fld) : (s.wCoalesce w' n).wfv w c e = s.wfv w c e :=
  wfv_congr (by simp) w c e

/-! ## Rings -/

theorem ring_setRing (k : Nat) (x : Ring) (k' : Nat) : (s.setRing k x).ring k' = if k = k' then x else s.ring k' := by
  unfold State.ring State.setRing
  split
  · next h => exact h ▸ smGet_set_same _ _ _ _
  · next h => exact smGet_set_ne _ _ _ h

@[simp] theorem ring_setRing_same (k : Nat) (x : Ring) : (s.setRing k x).ring k = x := by simp [ring_setRing]

theorem ring_setRing_ne {k k' : Nat} (x : Ring) (h : k ≠ k') : (s.setRing k x).ring k' = s.ring k' := by simp [ring_setRing, h]

@[simp] theorem ring_setDoor_same (k : Nat) (v : DWord) : (s.setDoor k v).ring k = { s.ring k with door := v } := ring_setRing_same _ _

@[simp] theorem ring_setReg (r : RegName) (v : DWord) (i k : Nat) : (s.setReg r v i).ring k = s.ring k := rfl
@[simp] theorem ring_fset (f : Fld) (v i k : Nat) : (s.fset f v i).ring k = s.ring k := rfl
@[simp] theorem ring_wset (w : WRing) (c e : Fld) (v k : Nat) : (s.wset w c e v).ring k = s.ring k := rfl
@[simp] theorem ring_plainWrite (r : RegName) (i : Nat) (m v : DWord) (k : Nat) : (s.plainWrite r i m v).ring k = s.ring k := rfl
@[simp] theorem ring_emit (o : Out) (k : Nat) : (s.emit o).ring k = s.ring k := rfl
@[simp] theorem ring_used (k : Nat) : s.used.ring k = s.ring k := rfl
@[simp] theorem ring_unlatch (r : RegName) (i k : Nat) : (s.unlatch r i).ring k = s.ring k := rfl
@[simp] theorem ring_modFn (f : Fin 8) (g : Fn → Fn) (k : Nat) : (s.modFn f g).ring k = s.ring k := rfl

@[simp] theorem ring_sendVector (f : Fin 8) (v k : Nat) : (s.sendVector f v).ring k = s.ring k := by
  unfold State.sendVector; split <;> rfl

/-! ## Functions -/

@[simp] theorem fns_modFn_same (f : Fin 8) (g : Fn → Fn) : (s.modFn f g).hst.fns[f] = g s.hst.fns[f] := by simp [State.modFn]

theorem fns_modFn_ne {f f' : Fin 8} (g : Fn → Fn) (h : f ≠ f') : (s.modFn f g).hst.fns[f'] = s.hst.fns[f'] := by
  simp [State.modFn, Fin.val_ne_of_ne h]

/-- A part of the functions that an update keeps. -/
theorem fns_modFn_proj {α : Type} (p : Fn → α) (f : Fin 8) {g : Fn → Fn} (hg : ∀ x, p (g x) = p x) (f' : Fin 8) :
    p (s.modFn f g).hst.fns[f'] = p s.hst.fns[f'] := by
  by_cases h : f = f'
  · subst h; rw [fns_modFn_same, hg]
  · rw [fns_modFn_ne g h]

@[simp] theorem backlog_sendVector (f : Fin 8) (v : Nat) (f' : Fin 8) :
    (s.sendVector f v).hst.fns[f'].backlog = s.hst.fns[f'].backlog := by
  unfold State.sendVector
  split
  · exact fns_modFn_proj (s := s) Fn.backlog f (g := fun fn => { fn with pendingVec := fn.pendingVec ||| (1 <<< v) }) (fun _ => rfl) f'
  · rfl

/-! ## The accepted commands and the host loads -/

/-- The commands accepted and not started, and the host loads. -/
def lists (s : State) : List Accepted × List HostLoad := (s.hst.accepted, s.hst.loads)

@[simp] theorem lists_setRing (k : Nat) (x : Ring) : lists (s.setRing k x) = lists s := rfl
@[simp] theorem lists_fset (f : Fld) (v i : Nat) : lists (s.fset f v i) = lists s := rfl
@[simp] theorem lists_wset (w : WRing) (c e : Fld) (v : Nat) : lists (s.wset w c e v) = lists s := rfl
@[simp] theorem lists_emit (o : Out) : lists (s.emit o) = lists s := rfl
@[simp] theorem lists_used : lists s.used = lists s := rfl
@[simp] theorem lists_modFn (f : Fin 8) (g : Fn → Fn) : lists (s.modFn f g) = lists s := rfl
@[simp] theorem lists_setSession (k : Fin 8) (x : Option Session) : lists (s.setSession k x) = lists s := rfl

@[simp] theorem lists_sendVector (f : Fin 8) (v : Nat) : lists (s.sendVector f v) = lists s := by
  unfold State.sendVector; split <;> rfl

@[simp] theorem lists_wVector (w : WRing) : lists (s.wVector w) = lists s := by simp [State.wVector]

@[simp] theorem lists_wCoalesce (w : WRing) (n : Nat) : lists (s.wCoalesce w n) = lists s := by
  unfold State.wCoalesce; dsimp only; split
  · rfl
  · split <;> simp

@[simp] theorem lists_unowe (f : Fin 8) (e : Entry) : lists (s.unowe f e) = lists s := by
  unfold State.unowe; dsimp only; split
  · rfl
  · split <;> rfl

@[simp] theorem lists_wPost (w : WRing) (e : Entry) : lists (s.wPost w e) = lists s := by
  unfold State.wPost; dsimp only; split <;> split <;> simp

@[simp] theorem lists_capsule (k : Fin 8) (n : Nat) (e : Option Entry) (d : List Byte) : lists (s.capsule k n e d) = lists s := by
  unfold State.capsule; split <;> simp

@[simp] theorem lists_complete (c : CmdRef) (st r : Nat) (d : List Byte) : lists (s.complete c st r d) = lists s := by
  unfold State.complete; dsimp only; split
  · rfl
  · split
    · split <;> simp
    · split <;> simp

@[simp] theorem lists_completeOpen (c : CmdRef) (st : Nat) : lists (s.completeOpen c st) = lists s := by simp [State.completeOpen]

@[simp] theorem lists_completeReason (c : CmdRef) (st code : Nat) : lists (s.completeReason c st code) = lists s := by
  simp [State.completeReason]

end Views

/-! ## Frames -/

section RingFrames

variable {ps : List Part} {rs : List (RegName × Nat)} {s t : State}

@[simp] theorem only_wset (h : .regs ∈ ps) (w : WRing) (c e : Fld) (v : Nat) : Only ps s (t.wset w c e v) ↔ Only ps s t :=
  only_fset h _ _ _

@[simp] theorem only_setRing (h : .hst ∈ ps) (k : Nat) (x : Ring) : Only ps s (t.setRing k x) ↔ Only ps s t :=
  only_iff_of_step (only_hst h _)

@[simp] theorem only_setDoor (h : .hst ∈ ps) (k : Nat) (v : DWord) : Only ps s (t.setDoor k v) ↔ Only ps s t :=
  only_setRing h _ _

@[simp] theorem only_modFn (h : .hst ∈ ps) (f : Fin 8) (g : Fn → Fn) : Only ps s (t.modFn f g) ↔ Only ps s t :=
  only_iff_of_step (only_hst h _)

@[simp] theorem only_setSession (h : .hst ∈ ps) (k : Fin 8) (x : Option Session) : Only ps s (t.setSession k x) ↔ Only ps s t :=
  only_iff_of_step (only_hst h _)

@[simp] theorem only_sendVector (h : .hst ∈ ps) (ho : .out ∈ ps) (f : Fin 8) (v : Nat) :
    Only ps s (t.sendVector f v) ↔ Only ps s t := by
  unfold State.sendVector; split <;> simp [h, ho]

@[simp] theorem only_wVector (h : .hst ∈ ps) (ho : .out ∈ ps) (w : WRing) : Only ps s (t.wVector w) ↔ Only ps s t := by
  simp [State.wVector, h, ho]

@[simp] theorem only_wCoalesce (h : .hst ∈ ps) (ho : .out ∈ ps) (w : WRing) (n : Nat) :
    Only ps s (t.wCoalesce w n) ↔ Only ps s t := by
  unfold State.wCoalesce; dsimp only; split
  · simp [h]
  · split <;> simp [h, ho]

@[simp] theorem only_unowe (hr : .regs ∈ ps) (h : .hst ∈ ps) (f : Fin 8) (e : Entry) : Only ps s (t.unowe f e) ↔ Only ps s t := by
  unfold State.unowe; dsimp only; split
  · rfl
  · split <;> simp [h, hr]

@[simp] theorem only_wPost (hr : .regs ∈ ps) (h : .hst ∈ ps) (ho : .out ∈ ps) (w : WRing) (e : Entry) :
    Only ps s (t.wPost w e) ↔ Only ps s t := by
  unfold State.wPost; dsimp only; split <;> split <;> simp [h, hr, ho]

@[simp] theorem only_wSetWaiting (h : .hst ∈ ps) (w : WRing) (l : List Entry) : Only ps s (t.wSetWaiting w l) ↔ Only ps s t := by
  unfold State.wSetWaiting; split <;> simp [h]

@[simp] theorem only_capsule (h : .hst ∈ ps) (ho : .out ∈ ps) (k : Fin 8) (n : Nat) (e : Option Entry) (d : List Byte) :
    Only ps s (t.capsule k n e d) ↔ Only ps s t := by
  unfold State.capsule; split <;> simp [h, ho]

@[simp] theorem only_complete (hr : .regs ∈ ps) (h : .hst ∈ ps) (ho : .out ∈ ps) (c : CmdRef) (st r : Nat) (d : List Byte) :
    Only ps s (t.complete c st r d) ↔ Only ps s t := by
  unfold State.complete; dsimp only; split
  · rfl
  · split
    · split <;> simp [hr, h, ho]
    · split <;> simp [h, ho]

@[simp] theorem only_completeOpen (hf : .free ∈ ps) (hr : .regs ∈ ps) (h : .hst ∈ ps) (ho : .out ∈ ps) (c : CmdRef) (st : Nat) :
    Only ps s (t.completeOpen c st) ↔ Only ps s t := by simp [State.completeOpen, hf, hr, h, ho]

@[simp] theorem only_completeReason (hf : .free ∈ ps) (hr : .regs ∈ ps) (h : .hst ∈ ps) (ho : .out ∈ ps) (c : CmdRef)
    (st code : Nat) : Only ps s (t.completeReason c st code) ↔ Only ps s t := by simp [State.completeReason, hf, hr, h, ho]

@[simp] theorem only_completeDetail (hf : .free ∈ ps) (hr : .regs ∈ ps) (h : .hst ∈ ps) (ho : .out ∈ ps) (c : CmdRef)
    (st code d : Nat) : Only ps s (t.completeDetail c st code d) ↔ Only ps s t := by simp [State.completeDetail, hf, hr, h, ho]

@[simp] theorem onlyRegs_setRing (k : Nat) (x : Ring) : OnlyRegs rs s (t.setRing k x) ↔ OnlyRegs rs s t :=
  onlyRegs_iff_of_step (onlyRegs_of_regs_eq rfl)

@[simp] theorem onlyRegs_setDoor (k : Nat) (v : DWord) : OnlyRegs rs s (t.setDoor k v) ↔ OnlyRegs rs s t :=
  onlyRegs_iff_of_step (onlyRegs_of_regs_eq rfl)

@[simp] theorem onlyRegs_modFn (f : Fin 8) (g : Fn → Fn) : OnlyRegs rs s (t.modFn f g) ↔ OnlyRegs rs s t :=
  onlyRegs_iff_of_step (onlyRegs_of_regs_eq rfl)

@[simp] theorem onlyRegs_sendVector (f : Fin 8) (v : Nat) : OnlyRegs rs s (t.sendVector f v) ↔ OnlyRegs rs s t :=
  onlyRegs_iff_of_step (onlyRegs_of_regs_eq (by simp))

end RingFrames

end Sys2Proof.Proofs
end

section
/-!
SUPPORT. Ring errors and doorbells (R248, R252-R254), and what a posted entry does to its ring (R250-R253).
-/

namespace Sys2Proof.Proofs

open Sys2Proof.Machine Sys2Proof.Claims

section Doorbells

variable {s : State}

/-! ## Vectors and ring errors -/

theorem out_sendVector (f : Fin 8) (v : Nat) :
    (s.sendVector f v).out = if (s.hst.fns[f]).masked.getLsbD v then s.out else .msix f v :: s.out := by
  unfold State.sendVector; split <;> rfl

theorem rings_sendVector (f : Fin 8) (v : Nat) : (s.sendVector f v).hst.rings = s.hst.rings := by
  unfold State.sendVector; split <;> rfl

theorem accepted_sendVector (f : Fin 8) (v : Nat) : (s.sendVector f v).hst.accepted = s.hst.accepted := by
  unfold State.sendVector; split <;> rfl

/-- Vector 0 of a function that masks it is left pending. -/
theorem pendingVec_sendVector_zero {f : Fin 8} (h : (s.hst.fns[f]).masked.getLsbD 0 = true) :
    ((s.sendVector f 0).hst.fns[f]).pendingVec.getLsbD 0 = true := by
  rw [State.sendVector, if_pos h, fns_modFn_same]
  simp

@[simp] theorem ring_ringError (fn : Fin 8) (ring code k : Nat) : (s.ringError fn ring code).ring k = s.ring k := by
  unfold State.ringError; split <;> simp

@[simp] theorem only_ringError {ps : List Part} {t : State} (hr : .regs ∈ ps) (h : .hst ∈ ps) (ho : .out ∈ ps) (fn : Fin 8)
    (ring code : Nat) : Only ps s (t.ringError fn ring code) ↔ Only ps s t := by
  unfold State.ringError; split <;> simp [hr, h, ho]

theorem fv_ringError (fn : Fin 8) (ring code : Nat) {f : Fld} {i : Nat} (hi : i < 1024) (hf : f.reg ≠ .HST_FN_ERR) :
    (s.ringError fn ring code).fv f i = s.fv f i := by
  unfold State.ringError
  split
  · rfl
  · simp [fv_fset_other, hi, hf.symm]

theorem rings_ringError (fn : Fin 8) (ring code : Nat) : (s.ringError fn ring code).hst.rings = s.hst.rings := by
  unfold State.ringError; split <;> simp [rings_sendVector]

theorem accepted_ringError (fn : Fin 8) (ring code : Nat) : (s.ringError fn ring code).hst.accepted = s.hst.accepted := by
  unfold State.ringError; split <;> simp [accepted_sendVector]

/-- A function's first ring error is recorded, with vector 0, and a later one changes nothing (R254). -/
theorem ringErr_ringError (s : State) (fn : Fin 8) {ring code : Nat} (hring : ring < 256) (hcode : code < 256) :
    RingErr s fn ring code (s.ringError fn ring code) := by
  unfold RingErr
  split
  · next h => simp [State.ringError, h]
  · next h =>
    refine ⟨?_, ?_, ?_, ?_, rings_ringError fn ring code, accepted_ringError fn ring code, by simp, ?_⟩ <;> rw [State.ringError, if_neg h]
    · simp [fv_fset_same, fv_fset_disjoint, Nat.mod_eq_of_lt hring]
    · simp [fv_fset_same, fv_fset_disjoint, Nat.mod_eq_of_lt hcode]
    · simp [State.on, fv_fset_same]
    · split
      · next hm => exact ⟨(out_sendVector fn 0).trans (if_pos hm), pendingVec_sendVector_zero hm⟩
      · next hm => exact (out_sendVector fn 0).trans (if_neg hm)
    · simp

/-- The fields of a recorded first error. -/
theorem ringError_fields (s : State) (fn : Fin 8) {ring code : Nat} (hring : ring < 256) (hcode : code < 256)
    (h : s.on F.HST_FN_ERR_VALID fn = false) : (s.ringError fn ring code).fv F.HST_FN_ERR_CODE fn = code ∧
      (s.ringError fn ring code).fv F.HST_FN_ERR_RING fn = ring := by
  have herr := ringErr_ringError s fn hring hcode
  rw [RingErr, if_neg (by simp [h])] at herr
  exact ⟨herr.2.1, herr.1⟩

theorem wRing_code_lt (w : WRing) : w.code < 256 := by
  obtain ⟨f, _ | n⟩ := w
  · show 0x80 < 256
    decide
  · show 0x40 + n.val < 256
    omega

/-! ## Places of doorbells (R248) -/

theorem doorbellAt_sq (fn : Fin 8) (n : Fin 64) : doorbellAt fn (8 * n.val) = some (.inl n) := by
  have h8 : 8 * n.val / 8 = n.val := by omega
  have hlt : 8 * n.val < 0x200 := by omega
  simp [doorbellAt, h8, hlt]

theorem doorbellAt_cq (fn : Fin 8) (n : Fin 64) : doorbellAt fn (0x400 + 8 * n.val) = some (.inr (fn, some n)) := by
  have h0 : (0x400 + 8 * n.val) % 8 = 0 := by omega
  have h8 : (0x400 + 8 * n.val) / 8 - 128 = n.val := by omega
  have hlo : ¬ 0x400 + 8 * n.val < 0x200 := by omega
  have hhi : 0x400 ≤ 0x400 + 8 * n.val ∧ 0x400 + 8 * n.val < 0x600 := by omega
  simp only [doorbellAt, h0, h8, hlo, hhi]
  simp

theorem doorbellAt_eq (fn : Fin 8) : doorbellAt fn 0x800 = some (.inr (fn, none)) := rfl

/-- No doorbell lies at any other offset. -/
theorem doorbellAt_none (fn : Fin 8) {off : Nat} (h : off % 8 ≠ 0 ∨ (0x200 ≤ off ∧ off < 0x400) ∨ (0x600 ≤ off ∧ off ≠ 0x800)) :
    doorbellAt fn off = none := by
  unfold doorbellAt
  split
  · rfl
  · rw [if_neg (by omega), if_neg (by omega), if_neg (by omega)]

/-! ## Submission doorbells -/

theorem exec_sqDoorbell (s : State) (fn : Fin 8) (off : BitVec 16) (v : DWord) :
    exec (.sqDoorbell fn off v) s = s.effect fun s => if s.hostReaches then s.bar2Write fn off.toNat v else s := rfl

theorem exec_cqDoorbell (s : State) (fn : Fin 8) (n : Fin 64) (v : DWord) :
    exec (.cqDoorbell fn n v) s = s.effect fun s => if s.hostReaches then s.ringHead (fn, some n) v else s := rfl

theorem exec_eqDoorbell (s : State) (fn : Fin 8) (v : DWord) :
    exec (.eqDoorbell fn v) s = s.effect fun s => if s.hostReaches then s.ringHead (fn, none) v else s := rfl

/-- The offset of a submission ring's doorbell. -/
def sqOffset (n : Fin 64) : BitVec 16 := BitVec.ofNat 16 (8 * n.val)

theorem sqOffset_toNat (n : Fin 64) : (sqOffset n).toNat = 8 * n.val := by
  rw [sqOffset, BitVec.toNat_ofNat, Nat.mod_eq_of_lt (by omega)]

theorem bar2Write_sq (s : State) (fn : Fin 8) (n : Fin 64) (v : DWord) : s.bar2Write fn (sqOffset n).toNat v = s.ringSq fn n v := by
  rw [State.bar2Write, sqOffset_toNat, doorbellAt_sq]

/-- The answer of a submission doorbell that reaches the module. -/
theorem answers_sqDoorbell {fn : Fin 8} {n : Fin 64} {v : DWord} {u : State} {P : State → Prop} (hr : s.hostReaches = true)
    (hu : s.ringSq fn n v = u) (honly : Only [.regs, .hst, .out] s u) (hP : P u) :
    Answers (.sqDoorbell fn (sqOffset n) v) s P :=
  answers_of_eq _ (exec_sqDoorbell s fn _ v) (by rw [if_pos hr, bar2Write_sq, hu]) honly hP

theorem ringSq_disabled {fn : Fin 8} {n : Fin 64} (v : DWord) (h : s.on F.HST_SQ_CFG_ENABLED (sqIdx fn n) = false) :
    s.ringSq fn n v = (s.setDoor (sqKey fn n) v).ringError fn n 4 := by
  have h' : (s.setDoor (sqKey fn n) v).on F.HST_SQ_CFG_ENABLED (sqIdx fn n) = false := h
  simp [State.ringSq, h']

theorem ringSq_past {fn : Fin 8} {n : Fin 64} {v : DWord} (h : s.on F.HST_SQ_CFG_ENABLED (sqIdx fn n) = true)
    (hv : s.fv F.HST_SQ_CFG_SIZE_M1 (sqIdx fn n) < doorIndex v) :
    s.ringSq fn n v = (s.setDoor (sqKey fn n) v).ringError fn n 1 := by
  have h' : (s.setDoor (sqKey fn n) v).on F.HST_SQ_CFG_ENABLED (sqIdx fn n) = true := h
  simp [State.ringSq, h', hv]

/-- The state after a doorbell that sets TAIL: the ring keeps the doorbell's time for each descriptor it makes visible. -/
def tailSet (s : State) (fn : Fin 8) (n : Fin 64) (v : DWord) : State :=
  let i := sqIdx fn n
  let size := s.fv F.HST_SQ_CFG_SIZE_M1 i + 1
  let visible := (doorIndex v + size - s.fv F.HST_SQ_PTR_INDEX i) % size
  let x := s.ring (sqKey fn n)
  ((s.setDoor (sqKey fn n) v).fset F.HST_SQ_PTR_DB_INDEX (doorIndex v) i).setRing (sqKey fn n)
    { x with door := v, bells := (x.bells ++ List.replicate (visible - x.bells.length) s.devTime).take visible }

theorem doorIndex_lt (v : DWord) : doorIndex v < 2 ^ 16 := getBits_lt v 0 16

theorem ringSq_sets {fn : Fin 8} {n : Fin 64} {v : DWord} (h : s.on F.HST_SQ_CFG_ENABLED (sqIdx fn n) = true)
    (hv : doorIndex v ≤ s.fv F.HST_SQ_CFG_SIZE_M1 (sqIdx fn n)) : s.ringSq fn n v = tailSet s fn n v := by
  have h' : (s.setDoor (sqKey fn n) v).on F.HST_SQ_CFG_ENABLED (sqIdx fn n) = true := h
  have hlt : doorIndex v % 65536 = doorIndex v := Nat.mod_eq_of_lt (doorIndex_lt v)
  simp only [State.ringSq, h', not_true_eq_false, if_false, fv_setDoor, Nat.not_lt.mpr hv]
  simp [tailSet, State.sqVisible, fv_fset_same, fv_fset_disjoint, fv_fset_other, hlt, State.setDoor]

/-- What a doorbell that sets TAIL leaves. -/
theorem tailSet_spec (s : State) (fn : Fin 8) (n : Fin 64) (v : DWord) :
    let i := sqIdx fn n
    let size := s.fv F.HST_SQ_CFG_SIZE_M1 i + 1
    let visible := (doorIndex v + size - s.fv F.HST_SQ_PTR_INDEX i) % size
    let x := s.ring (sqKey fn n)
    let t := tailSet s fn n v
    t.fv F.HST_SQ_PTR_DB_INDEX i = doorIndex v ∧ t.fv F.HST_SQ_PTR_INDEX i = s.fv F.HST_SQ_PTR_INDEX i ∧
      t.ring (sqKey fn n) = { x with door := v, bells := (x.bells ++ List.replicate (visible - x.bells.length) s.devTime).take visible } ∧
      (∀ k, k ≠ sqKey fn n → t.ring k = s.ring k) ∧ Only [.regs, .hst] s t ∧ OnlyRegs [(.HST_SQ_PTR, i)] s t := by
  have hlt : doorIndex v % 65536 = doorIndex v := Nat.mod_eq_of_lt (doorIndex_lt v)
  refine ⟨?_, ?_, by simp [tailSet], fun k hk => ?_, by simp [tailSet], by simp [tailSet]⟩
  · simp [tailSet, fv_fset_same, hlt]
  · simp [tailSet, fv_fset_disjoint]
  · simp [tailSet, State.setDoor, ring_setRing_ne _ (Ne.symm hk)]

/-- A doorbell of a submission ring, by the ring's state and the value. -/
theorem sqDoorbell_cases (fn : Fin 8) (n : Fin 64) (v : DWord) (hr : s.hostReaches = true) :
    (s.on F.HST_SQ_CFG_ENABLED (sqIdx fn n) = true → doorIndex v ≤ s.fv F.HST_SQ_CFG_SIZE_M1 (sqIdx fn n) →
      Answers (.sqDoorbell fn (sqOffset n) v) s (· = tailSet s fn n v)) ∧
    (s.on F.HST_SQ_CFG_ENABLED (sqIdx fn n) = false → Answers (.sqDoorbell fn (sqOffset n) v) s
      (· = (s.setDoor (sqKey fn n) v).ringError fn n 4)) ∧
    (s.on F.HST_SQ_CFG_ENABLED (sqIdx fn n) = true → s.fv F.HST_SQ_CFG_SIZE_M1 (sqIdx fn n) < doorIndex v →
      Answers (.sqDoorbell fn (sqOffset n) v) s (· = (s.setDoor (sqKey fn n) v).ringError fn n 1)) :=
  ⟨fun h hv => answers_sqDoorbell hr (ringSq_sets h hv) (by simp [tailSet]) rfl,
    fun h => answers_sqDoorbell hr (ringSq_disabled v h) (by simp) rfl,
    fun h hv => answers_sqDoorbell hr (ringSq_past h hv) (by simp) rfl⟩

theorem bar2Read_sq (s : State) (fn : Fin 8) (n : Fin 64) : s.bar2Read fn (8 * n.val) = (s.ring (sqKey fn n)).door := by
  rw [State.bar2Read, doorbellAt_sq]

/-- Whatever the doorbell does, its reads give the value written (R9). -/
theorem sqDoorbell_read (fn : Fin 8) (n : Fin 64) (v : DWord) (hr : s.hostReaches = true) :
    Answers (.sqDoorbell fn (sqOffset n) v) s fun t => t.bar2Read fn (8 * n.val) = v := by
  obtain ⟨hset, hoff, hpast⟩ := sqDoorbell_cases fn n v hr
  cases he : s.on F.HST_SQ_CFG_ENABLED (sqIdx fn n) with
  | false => exact answers_mono (hoff he) (by rintro t rfl; simp [bar2Read_sq])
  | true =>
    by_cases hv : doorIndex v ≤ s.fv F.HST_SQ_CFG_SIZE_M1 (sqIdx fn n)
    · exact answers_mono (hset he hv) (by rintro t rfl; simp [bar2Read_sq, tailSet])
    · exact answers_mono (hpast he (Nat.lt_of_not_le hv)) (by rintro t rfl; simp [bar2Read_sq])

end Doorbells

end Sys2Proof.Proofs
end

section
/-!
SUPPORT. Posted entries and waiting ones (R250-R253), and the head doorbells of the rings the module writes (R248, R252-R254).
-/

namespace Sys2Proof.Proofs

open Sys2Proof.Machine Sys2Proof.Claims

section Posting

variable {s : State}

/-! ## The ring that takes an entry -/

theorem wVector_ring_self (w : WRing) : (s.wVector w).ring w.key = { s.ring w.key with pend := 0, timing := false } := by
  simp [State.wVector]

/-- Judging the coalescing changes nothing of the ring but its count and its timer. -/
theorem wCoalesce_ring_self (w : WRing) (n : Nat) :
    ∃ p tm, (s.wCoalesce w n).ring w.key = { s.ring w.key with pend := p, timing := tm } := by
  unfold State.wCoalesce
  dsimp only
  split
  · exact ⟨_, _, ring_setRing_same _ _⟩
  · split
    · exact ⟨_, _, wVector_ring_self w⟩
    · exact ⟨_, _, ring_setRing_same _ _⟩

@[simp] theorem unowe_ring_self (f : Fin 8) (e : Entry) (w : WRing) : (s.unowe f e).ring w.key = s.ring w.key := by
  unfold State.unowe
  dsimp only
  split
  · rfl
  · next h =>
    have hq : e.sqId.toNat < 64 := by simp at h; omega
    split <;> simp [ring_setRing_ne _ (sq_key_ne_wRing_key f w hq)]

/-- A posted entry stands behind the ring's entries, and nothing else of the ring changes but its count and its timer. -/
theorem wPost_ring_self (w : WRing) (e : Entry) :
    ∃ ph p tm, (s.wPost w e).ring w.key =
      { s.ring w.key with slots := (s.ring w.key).slots ++ [(e, ph)], pend := p, timing := tm } := by
  refine ⟨decide (s.wfv w F.HST_CQ_PTR_PHASE F.HST_EQ_PTR_PHASE = 1), ?_⟩
  simp only [State.wPost, unowe_ring_self]
  split
  · exact ⟨(s.ring w.key).pend, (s.ring w.key).timing, by split <;> simp⟩
  · obtain ⟨p, tm, h⟩ := wCoalesce_ring_self (s := _) w _
    exact ⟨p, tm, h.trans (by split <;> simp)⟩

theorem backlog_setRing (k : Nat) (x : Ring) (f : Fin 8) : ((s.setRing k x).hst.fns[f]).backlog = (s.hst.fns[f]).backlog := rfl

@[simp] theorem backlog_wCoalesce (w : WRing) (n : Nat) (f : Fin 8) :
    ((s.wCoalesce w n).hst.fns[f]).backlog = (s.hst.fns[f]).backlog := by
  unfold State.wCoalesce
  dsimp only
  split
  · rfl
  · split
    · exact backlog_sendVector ..
    · rfl

@[simp] theorem backlog_wPost (w : WRing) (e : Entry) (f : Fin 8) :
    ((s.wPost w e).hst.fns[f]).backlog = (s.hst.fns[f]).backlog := by
  have hunowe : ∀ t : State, ((t.unowe w.1 e).hst.fns[f]).backlog = (t.hst.fns[f]).backlog := fun t => by
    unfold State.unowe
    dsimp only
    split
    · rfl
    · split <;> rfl
  simp only [State.wPost, hunowe]
  split
  · split <;> rfl
  · rw [backlog_wCoalesce]
    split <;> rfl

theorem wWaiting_some {w : WRing} {n : Fin 64} (h : w.2 = some n) : s.wWaiting w = (s.ring w.key).waiting := by
  simp [State.wWaiting, h]

theorem wWaiting_none {w : WRing} (h : w.2 = none) : s.wWaiting w = (s.hst.fns[w.1]).backlog := by
  simp [State.wWaiting, h]

/-- Where the ring's waiting list and the function's backlog are kept, so are the entries that wait. -/
theorem wWaiting_congr {t : State} {w : WRing} (hring : (t.ring w.key).waiting = (s.ring w.key).waiting)
    (hback : (t.hst.fns[w.1]).backlog = (s.hst.fns[w.1]).backlog) : t.wWaiting w = s.wWaiting w := by
  cases h : w.2 with
  | none => rw [wWaiting_none h, wWaiting_none h, hback]
  | some n => rw [wWaiting_some h, wWaiting_some h, hring]

@[simp] theorem wWaiting_wPost (w : WRing) (e : Entry) : (s.wPost w e).wWaiting w = s.wWaiting w := by
  obtain ⟨ph, p, tm, h⟩ := wPost_ring_self (s := s) w e
  exact wWaiting_congr (by rw [h]) (backlog_wPost ..)

@[simp] theorem wWaiting_wSetWaiting (w : WRing) (l : List Entry) : (s.wSetWaiting w l).wWaiting w = l := by
  unfold State.wSetWaiting
  split
  · next h => simp [wWaiting_some h]
  · next h => rw [wWaiting_none h, fns_modFn_same]

theorem wSetWaiting_ring_self (w : WRing) (l : List Entry) :
    ∃ l', (s.wSetWaiting w l).ring w.key = { s.ring w.key with waiting := l' } := by
  unfold State.wSetWaiting
  split
  · exact ⟨l, ring_setRing_same _ _⟩
  · exact ⟨(s.ring w.key).waiting, by simp⟩

/-! ## Draining the waiting entries (R251, R253) -/

/-- One entry of the waiting list is posted, while the ring takes it. -/
def drainStep (w : WRing) (s : State) (e : Entry) : State :=
  if s.wOpen w then (s.wPost w e).wSetWaiting w ((s.wWaiting w).drop 1) else s

theorem wDrain_eq_foldl (s : State) (w : WRing) : s.wDrain w = (s.wWaiting w).foldl (drainStep w) s := rfl

theorem wDrain_of_nil {w : WRing} (h : s.wWaiting w = []) : s.wDrain w = s := by rw [wDrain_eq_foldl, h]; rfl

/-- A posted entry that was first in the waiting list keeps the entries to come. -/
theorem toCome_drainStep {w : WRing} {e : Entry} {l : List Entry} (h : s.wOpen w = true → s.wWaiting w = e :: l) :
    toCome (drainStep w s e) w = toCome s w ∧ ((drainStep w s e).wOpen w = true → (drainStep w s e).wWaiting w = l) := by
  unfold drainStep
  split
  · next ho =>
    have hw := h ho
    obtain ⟨ph, p, tm, hpost⟩ := wPost_ring_self (s := s) w e
    obtain ⟨l', hset⟩ := wSetWaiting_ring_self (s := s.wPost w e) w ((s.wWaiting w).drop 1)
    refine ⟨?_, fun _ => by simp [hw]⟩
    rw [toCome, toCome, wWaiting_wSetWaiting, hset, hpost, hw]
    simp
  · next ho => exact ⟨rfl, fun h => absurd h ho⟩

/-- The entries to come are the same after the drain: posted, or still waiting, in their order. -/
theorem toCome_wDrain (s : State) (w : WRing) : toCome (s.wDrain w) w = toCome s w := by
  rw [wDrain_eq_foldl]
  have key : ∀ (l : List Entry) (s : State), (s.wOpen w = true → s.wWaiting w = l) →
      toCome (l.foldl (drainStep w) s) w = toCome s w := by
    intro l
    induction l with
    | nil => exact fun _ _ => rfl
    | cons e l ih =>
      intro s h
      obtain ⟨hstep, hnext⟩ := toCome_drainStep h
      exact (ih _ hnext).trans hstep
  exact key _ s fun _ => rfl

/-- What posting and waiting keep, the drain keeps. -/
theorem wDrain_keeps {p : State → Prop} {w : WRing} (hpost : ∀ s e, p s → p (s.wPost w e)) (hset : ∀ s l, p s → p (s.wSetWaiting w l))
    (h : p s) : p (s.wDrain w) := by
  rw [wDrain_eq_foldl]
  refine foldl_keeps _ _ (fun t e ht => ?_) s h
  unfold drainStep
  split
  · exact hset _ _ (hpost _ _ ht)
  · exact ht

theorem only_wDrain {ps : List Part} {t : State} (hr : .regs ∈ ps) (h : .hst ∈ ps) (ho : .out ∈ ps) (w : WRing) :
    Only ps s (t.wDrain w) ↔ Only ps s t :=
  only_iff_of_step (wDrain_keeps (p := fun u => Only ps t u) (fun _ _ hu => by simp [hr, h, ho, hu])
    (fun _ _ hu => by simp [h, hu]) (only_refl _ _))

/-- The fields that a posted entry leaves: all but the pointer's slot and phase, and ENABLED of a submission ring that drains. -/
abbrev Unposted (f : Fld) : Prop :=
  Apart F.HST_CQ_PTR_INDEX f ∧ Apart F.HST_EQ_PTR_INDEX f ∧ Apart F.HST_CQ_PTR_PHASE f ∧ Apart F.HST_EQ_PTR_PHASE f ∧
    Apart F.HST_SQ_CFG_ENABLED f

theorem fv_unowe (f : Fin 8) (e : Entry) {g : Fld} {i : Nat} (hi : i < 1024) (hg : Apart F.HST_SQ_CFG_ENABLED g) :
    (s.unowe f e).fv g i = s.fv g i := by
  unfold State.unowe
  dsimp only
  split
  · rfl
  · next h =>
    have hq : e.sqId.toNat < 64 := by simp at h; omega
    split
    · rw [fv_fset_apart _ _ (by omega) hi hg, fv_setRing]
    · rfl

theorem fv_wPost (w : WRing) (e : Entry) {f : Fld} {i : Nat} (hi : i < 1024) (hf : Unposted f) : (s.wPost w e).fv f i = s.fv f i := by
  obtain ⟨hcq, heq, hcph, heph, hsq⟩ := hf
  simp only [State.wPost, fv_unowe _ _ hi hsq]
  have hphase : ∀ (c : Prop) [Decidable c] (t : State) (v : Nat),
      (if c then t.wset w F.HST_CQ_PTR_PHASE F.HST_EQ_PTR_PHASE v else t).fv f i = t.fv f i := fun c _ t v => by
    split
    · exact fv_wset_apart _ _ _ hi hcph heph
    · rfl
  split
  · simp only [fv_emit, hphase, fv_wset_apart _ _ _ hi hcq heq, fv_setRing]
  · simp only [fv_wCoalesce, fv_emit, hphase, fv_wset_apart _ _ _ hi hcq heq, fv_setRing]

theorem wfv_wPost (w : WRing) (e : Entry) {c e' : Fld} (hc : Unposted c) (he : Unposted e') (w' : WRing) :
    (s.wPost w e).wfv w' c e' = s.wfv w' c e' := by
  obtain ⟨f, _ | n⟩ := w'
  · exact fv_wPost w e (wRing_idx_lt (f, none)) he
  · exact fv_wPost w e (wRing_idx_lt (f, some n)) hc

theorem wfv_wDrain (w : WRing) {c e : Fld} (hc : Unposted c) (he : Unposted e) : (s.wDrain w).wfv w c e = s.wfv w c e :=
  wDrain_keeps (p := fun t => t.wfv w c e = s.wfv w c e) (fun _ x ht => (wfv_wPost w x hc he w).trans ht)
    (fun _ l ht => (fv_wSetWaiting w l _ _).trans ht) rfl

theorem door_wDrain (w : WRing) : ((s.wDrain w).ring w.key).door = (s.ring w.key).door := by
  refine wDrain_keeps (p := fun t => (t.ring w.key).door = (s.ring w.key).door) (fun t e ht => ?_) (fun t l ht => ?_) rfl
  · obtain ⟨ph, p, tm, h⟩ := wPost_ring_self (s := t) w e
    rw [h]; exact ht
  · obtain ⟨l', h⟩ := wSetWaiting_ring_self (s := t) w l
    rw [h]; exact ht

/-! ## Head doorbells -/

/-- The slots a head doorbell frees. -/
def headAdvance (s : State) (w : WRing) (v : DWord) : Nat :=
  (doorIndex v + 2 * s.wSize w - (s.wfv w F.HST_CQ_PTR_INDEX F.HST_EQ_PTR_INDEX + s.wSize w - (s.ring w.key).slots.length)) % s.wSize w

/-- The ring with its freed slots gone, before waiting entries are let in. -/
def headFreed (s : State) (w : WRing) (v : DWord) : State :=
  let left := (s.ring w.key).slots.drop (headAdvance s w v)
  (((s.setDoor w.key v).setRing w.key { s.ring w.key with door := v, slots := left }).wset w F.HST_CQ_PTR_DB_INDEX
    F.HST_EQ_PTR_DB_INDEX (doorIndex v)).wCoalesce w (left.countP fun e => !e.1.noIrq)

/-- A head doorbell is refused with its error, or frees the slots and lets waiting entries in. -/
theorem ringHead_eq (s : State) (w : WRing) (v : DWord) :
    s.ringHead w v =
      if s.wfv w F.HST_CQ_CFG_ENABLED F.HST_EQ_CFG_ENABLED = 0 then (s.setDoor w.key v).ringError w.1 w.code 4
      else if s.wSize w ≤ doorIndex v then (s.setDoor w.key v).ringError w.1 w.code 1
      else if (s.ring w.key).slots.length < headAdvance s w v then (s.setDoor w.key v).ringError w.1 w.code 2
      else (headFreed s w v).wDrain w := by
  have hsize : (s.setDoor w.key v).wSize w = s.wSize w := rfl
  simp only [State.ringHead, hsize, wfv_setDoor, ring_setDoor_same, headFreed, headAdvance]
  rfl

theorem headFreed_ring_self (s : State) (w : WRing) (v : DWord) :
    ∃ p tm, (headFreed s w v).ring w.key =
      { s.ring w.key with door := v, slots := (s.ring w.key).slots.drop (headAdvance s w v), pend := p, timing := tm } := by
  obtain ⟨p, tm, h⟩ := wCoalesce_ring_self (s := _) w _
  exact ⟨p, tm, h.trans (by simp)⟩

theorem headFreed_waiting (s : State) (w : WRing) (v : DWord) : (headFreed s w v).wWaiting w = s.wWaiting w := by
  obtain ⟨p, tm, h⟩ := headFreed_ring_self s w v
  exact wWaiting_congr (by rw [h]) (backlog_wCoalesce ..)

theorem headFreed_toCome {w : WRing} {v : DWord} (h : headAdvance s w v ≤ (s.ring w.key).slots.length) :
    toCome (headFreed s w v) w = (toCome s w).drop (headAdvance s w v) := by
  obtain ⟨p, tm, hring⟩ := headFreed_ring_self s w v
  rw [toCome, toCome, headFreed_waiting, hring, List.drop_append_of_le_length (by simpa using h), List.map_drop]

theorem headFreed_fields (s : State) (w : WRing) (v : DWord) :
    (headFreed s w v).wfv w F.HST_CQ_PTR_DB_INDEX F.HST_EQ_PTR_DB_INDEX = doorIndex v ∧
      (headFreed s w v).wfv w F.HST_CQ_PTR_INDEX F.HST_EQ_PTR_INDEX = s.wfv w F.HST_CQ_PTR_INDEX F.HST_EQ_PTR_INDEX := by
  unfold headFreed
  rw [wfv_wCoalesce, wfv_wCoalesce,
    wfv_wset_same (c := F.HST_CQ_PTR_DB_INDEX) (e := F.HST_EQ_PTR_DB_INDEX) _ _ _ (by decide) (by decide) rfl,
    wfv_wset_apart _ _ _ (by decide) (by decide)]
  exact ⟨Nat.mod_eq_of_lt (doorIndex_lt v), rfl⟩

/-- What a head doorbell within the entries leaves. -/
theorem headDrained_spec {w : WRing} {v : DWord} (h : headAdvance s w v ≤ (s.ring w.key).slots.length) :
    let t := (headFreed s w v).wDrain w
    t.wfv w F.HST_CQ_PTR_DB_INDEX F.HST_EQ_PTR_DB_INDEX = doorIndex v ∧ (t.ring w.key).door = v ∧
      toCome t w = (toCome s w).drop (headAdvance s w v) ∧
      (s.wWaiting w = [] → t.wfv w F.HST_CQ_PTR_INDEX F.HST_EQ_PTR_INDEX = s.wfv w F.HST_CQ_PTR_INDEX F.HST_EQ_PTR_INDEX) ∧
      Only [.regs, .hst, .out] s t := by
  obtain ⟨hdb, hidx⟩ := headFreed_fields s w v
  obtain ⟨p, tm, hring⟩ := headFreed_ring_self s w v
  refine ⟨?_, ?_, (toCome_wDrain _ w).trans (headFreed_toCome h), fun hnil => ?_, ?_⟩
  · exact (wfv_wDrain w (by decide) (by decide)).trans hdb
  · rw [door_wDrain, hring]
  · rw [wDrain_of_nil ((headFreed_waiting s w v).trans hnil), hidx]
  · rw [only_wDrain (by simp) (by simp) (by simp)]
    simp [headFreed]

/-- The ring errors of a head doorbell, and its effect within the entries. -/
theorem headDoorbell_cases {w : WRing} {v : DWord} {c : Instr} (hr : s.hostReaches = true)
    (hc : (∃ n, w.2 = some n ∧ c = .cqDoorbell w.1 n v) ∨ (w.2 = none ∧ c = .eqDoorbell w.1 v)) :
    ∃ u, s.ringHead w v = u ∧ (Only [.regs, .hst, .out] s u → Answers c s (· = u)) := by
  refine ⟨_, rfl, fun honly => ?_⟩
  obtain ⟨f, k⟩ := w
  rcases hc with ⟨n, hn, rfl⟩ | ⟨hn, rfl⟩ <;> obtain rfl := hn
  · exact answers_of_eq _ (exec_cqDoorbell s f n v) (if_pos hr) honly rfl
  · exact answers_of_eq _ (exec_eqDoorbell s f v) (if_pos hr) honly rfl

end Posting

end Sys2Proof.Proofs
end

section
/-!
SUPPORT. Writes of a ring's CFG register by the host: enabling and disabling rings (R246, R247, R254, R255).
-/

namespace Sys2Proof.Proofs

open Sys2Proof.Machine Sys2Proof.Claims

/-! ## The value written -/

/-- ENABLE, bit 63 of a ring's CFG register, and the bits below it. -/
def enableBit : DWord := 0x8000000000000000
def belowEnable : DWord := 0x7FFFFFFFFFFFFFFF

theorem getLsbD_enableBit (k : Nat) : enableBit.getLsbD k = decide (k = 63) := by
  have key : ∀ j : Fin 64, enableBit.getLsbD j = decide (j.val = 63) := by decide
  by_cases hk : k < 64
  · exact key ⟨k, hk⟩
  · rw [BitVec.getLsbD_of_ge _ _ (by omega), decide_eq_false (by omega)]

theorem getLsbD_or_enableBit (v : DWord) : (v ||| enableBit).getLsbD 63 = true := by
  rw [BitVec.getLsbD_or, getLsbD_enableBit, decide_eq_true rfl, Bool.or_true]

theorem getLsbD_and_belowEnable (v : DWord) : (v &&& belowEnable).getLsbD 63 = false := by
  rw [BitVec.getLsbD_and, show belowEnable.getLsbD 63 = false by decide, Bool.and_false]

/-- ENABLE stands above the other fields. -/
theorem wField_or_enableBit (v : DWord) {f : Fld} (h : f.lo + f.w ≤ 63) : wField (v ||| enableBit) f = wField v f := by
  refine Nat.eq_of_testBit_eq fun k => ?_
  rw [wField, wField, testBit_getBits, testBit_getBits, BitVec.getLsbD_or, getLsbD_enableBit]
  by_cases hk : k < f.w
  · rw [decide_eq_false (show ¬ f.lo + k = 63 by omega), Bool.or_false]
  · simp [hk]

theorem fullMask_63 : fullMask.getLsbD 63 = true := by rw [getLsbD_fullMask]; rfl

section Config

variable {s : State} {fn : Fin 8} {n : Fin 64} {w : WRing} {v : DWord}

theorem exec_ringEnable (s : State) (fn : Fin 8) (r : Fin 129) (v : DWord) :
    exec (.ringEnable fn r v) s = s.effect fun s => s.hostRingCfg fn r (v ||| enableBit) := rfl

theorem exec_ringDisable (s : State) (fn : Fin 8) (r : Fin 129) (v : DWord) :
    exec (.ringDisable fn r v) s = s.effect fun s => s.hostRingCfg fn r (v &&& belowEnable) := rfl

theorem hostRingCfg_of_not_reaches (hr : s.hostReaches = false) (r : Nat) (v : DWord) : s.hostRingCfg fn r v = s := by
  simp [State.hostRingCfg, hr]

/-- The host's write of a submission ring's CFG register. -/
theorem hostRingCfg_sq {r : Nat} (hrn : r = n.val) (hr : s.hostReaches = true) (hp : Permits s (fnAgent fn) .HST_SQ_CFG (sqIdx fn n))
    (v : DWord) : s.hostRingCfg fn r v = (s.unlatch .HST_SQ_CFG (sqIdx fn n)).writeSqCfg fn n fullMask v := by
  subst hrn
  have hcfg : ringCfg fn n.val = (.HST_SQ_CFG, sqIdx fn n) := if_pos n.isLt
  rw [State.hostRingCfg, if_neg (by simp [hr]), hcfg, guarded_act _ hp.1 hp.2, State.writeRingCfg, if_pos n.isLt, Fin.ofNat_val_eq_self]

/-- The host's write of the CFG register of a ring the module writes. -/
theorem hostRingCfg_w {r : Nat} (h64 : 64 ≤ r) (hr : s.hostReaches = true)
    (hp : Permits s (fnAgent fn) (ringCfg fn r).1 (ringCfg fn r).2) (v : DWord) :
    s.hostRingCfg fn r v = (s.unlatch (ringCfg fn r).1 (ringCfg fn r).2).writeWCfg (wRingOf fn r) fullMask v := by
  rw [State.hostRingCfg, if_neg (by simp [hr]), guarded_act _ hp.1 hp.2, State.writeRingCfg, if_neg (by omega)]

/-! ## Submission rings -/

/-- The register as written, with ENABLE as it stood. -/
def sqWritten (s : State) (i : Nat) (v : DWord) : State :=
  (s.plainWrite .HST_SQ_CFG i fullMask v).fset F.HST_SQ_CFG_ENABLE (wField (s.reg .HST_SQ_CFG i) F.HST_SQ_CFG_ENABLE) i

/-- The same for a ring that is ENABLED: SIZE and CQ are kept too. -/
def sqKept (s : State) (i : Nat) (v : DWord) : State :=
  ((sqWritten s i v).fset F.HST_SQ_CFG_SIZE_M1 (wField (s.reg .HST_SQ_CFG i) F.HST_SQ_CFG_SIZE_M1) i).fset F.HST_SQ_CFG_CQ
    (wField (s.reg .HST_SQ_CFG i) F.HST_SQ_CFG_CQ) i

/-- The ring put in service: its pointers and its ring are fresh. -/
def sqEnabled (s : State) (fn : Fin 8) (n : Fin 64) (v : DWord) : State :=
  let i := sqIdx fn n
  let t := sqWritten s i v
  (((t.setRing (sqKey fn n) { door := (t.ring (sqKey fn n)).door }).setReg .HST_SQ_PTR 0 i).fset
    F.HST_SQ_CFG_ENABLE 1 i).fset F.HST_SQ_CFG_ENABLED 1 i

/-- A submission ring's commands. -/
def ofRing (fn : Fin 8) (n : Fin 64) (c : CmdRef) : Bool := decide (c.src = .sq fn n)

/-- The ring as its disabling finds it, its commands not started gone. -/
def sqEmptied (s : State) (fn : Fin 8) (n : Fin 64) (v : DWord) : State :=
  ((sqKept s (sqIdx fn n) v).dropUnstarted (ofRing fn n)).fset F.HST_SQ_CFG_ENABLE 0 (sqIdx fn n)

/-- A disabled ring leaves service at once, or drains the commands that have started. -/
def sqFallen (s : State) (fn : Fin 8) (n : Fin 64) (v : DWord) : State :=
  let t := sqEmptied s fn n v
  if (t.ring (sqKey fn n)).owed = [] then t.fset F.HST_SQ_CFG_ENABLED 0 (sqIdx fn n)
  else t.setRing (sqKey fn n) { t.ring (sqKey fn n) with draining := true }

/-- The completions of the commands that are gone. -/
def sqAborted (s : State) (fn : Fin 8) (n : Fin 64) (v : DWord) : State :=
  ((sqKept s (sqIdx fn n) v).unstarted (ofRing fn n)).foldl (fun s c => s.completeOpen c stABORTED) (sqFallen s fn n v)

/-- The later loads of the function go with the first that is gone (R391). -/
def loadsAborted (s : State) (fn : Fin 8) (load : Option (Nat × Nat)) : State :=
  match load with
  | some x => s.abortLoads fn x.1 x.2
  | none => s

@[simp] theorem ring_sqWritten (i k : Nat) : (sqWritten s i v).ring k = s.ring k := by rw [sqWritten, ring_fset, ring_plainWrite]

@[simp] theorem ring_sqKept (i k : Nat) : (sqKept s i v).ring k = s.ring k := by rw [sqKept, ring_fset, ring_fset, ring_sqWritten]

@[simp] theorem hst_sqWritten (i : Nat) : (sqWritten s i v).hst = s.hst := by rw [sqWritten, State.fset_hst, State.plainWrite_hst]

@[simp] theorem hst_sqKept (i : Nat) : (sqKept s i v).hst = s.hst := by
  rw [sqKept, State.fset_hst, State.fset_hst, hst_sqWritten]

@[simp] theorem store_sqKept (i : Nat) : (sqKept s i v).store = s.store := by
  rw [sqKept, State.fset_store, State.fset_store, sqWritten, State.fset_store, State.plainWrite_store]

@[simp] theorem only_sqWritten {ps : List Part} {t : State} (h : .regs ∈ ps) (i : Nat) : Only ps s (sqWritten t i v) ↔ Only ps s t := by
  rw [sqWritten, only_fset h, only_plainWrite h]

@[simp] theorem onlyRegs_sqWritten {rs : List (RegName × Nat)} {t : State} {i : Nat} (hi : i < 1024) (h : (.HST_SQ_CFG, i) ∈ rs) :
    OnlyRegs rs s (sqWritten t i v) ↔ OnlyRegs rs s t := by
  rw [sqWritten, onlyRegs_fset hi h, onlyRegs_plainWrite hi h]

@[simp] theorem onlyRegs_sqKept {rs : List (RegName × Nat)} {t : State} {i : Nat} (hi : i < 1024) (h : (.HST_SQ_CFG, i) ∈ rs) :
    OnlyRegs rs s (sqKept t i v) ↔ OnlyRegs rs s t := by
  rw [sqKept, onlyRegs_fset hi h, onlyRegs_fset hi h, onlyRegs_sqWritten hi h]

@[simp] theorem fv_sqWritten_size (i : Nat) : (sqWritten s i v).fv F.HST_SQ_CFG_SIZE_M1 i = wField v F.HST_SQ_CFG_SIZE_M1 := by
  simpa [sqWritten, fv_fset_disjoint] using fv_plainWrite_rw s F.HST_SQ_CFG_SIZE_M1 i v (by decide)

@[simp] theorem fv_sqWritten_cq (i : Nat) : (sqWritten s i v).fv F.HST_SQ_CFG_CQ i = wField v F.HST_SQ_CFG_CQ := by
  simpa [sqWritten, fv_fset_disjoint] using fv_plainWrite_rw s F.HST_SQ_CFG_CQ i v (by decide)

@[simp] theorem fv_sqWritten_enabled (i : Nat) : (sqWritten s i v).fv F.HST_SQ_CFG_ENABLED i = s.fv F.HST_SQ_CFG_ENABLED i := by
  simpa [sqWritten, fv_fset_disjoint] using fv_plainWrite_ro s F.HST_SQ_CFG_ENABLED i v (by decide)

theorem fv_sqWritten_other {i j : Nat} (hi : i < 1024) (hj : j < 1024) {f : Fld} (hf : f.reg ≠ .HST_SQ_CFG) :
    (sqWritten s i v).fv f j = s.fv f j := by
  rw [sqWritten, fv_fset_other _ _ hi hj hf.symm, fv_plainWrite_other _ _ _ hi hj hf.symm]

theorem on_sqWritten_cq {i : Nat} (hi : i < 1024) :
    (sqWritten s i v).on F.HST_CQ_CFG_ENABLED (64 * fn.val + (sqWritten s i v).fv F.HST_SQ_CFG_CQ i) =
      s.on F.HST_CQ_CFG_ENABLED (64 * fn.val + wField v F.HST_SQ_CFG_CQ) := by
  have hcq : wField v F.HST_SQ_CFG_CQ < 64 := getBits_lt _ _ _
  rw [fv_sqWritten_cq, State.on, State.on, fv_sqWritten_other hi (by omega) (by decide)]

/-- The fields of a ring in service that a write of its register keeps. -/
theorem fv_sqKept_enabled {i : Nat} (hi : i < 1024) : (sqKept s i v).fv F.HST_SQ_CFG_ENABLED i = s.fv F.HST_SQ_CFG_ENABLED i := by
  rw [sqKept, fv_fset_apart _ _ hi hi (by decide), fv_fset_apart _ _ hi hi (by decide), fv_sqWritten_enabled]

theorem fv_sqKept_size {i : Nat} (hi : i < 1024) : (sqKept s i v).fv F.HST_SQ_CFG_SIZE_M1 i = s.fv F.HST_SQ_CFG_SIZE_M1 i := by
  rw [sqKept, fv_fset_apart _ _ hi hi (by decide), fv_fset_same _ _ _ _ (by decide)]
  exact Nat.mod_eq_of_lt (fv_lt s F.HST_SQ_CFG_SIZE_M1 i)

theorem fv_sqKept_cq (i : Nat) : (sqKept s i v).fv F.HST_SQ_CFG_CQ i = s.fv F.HST_SQ_CFG_CQ i := by
  rw [sqKept, fv_fset_same _ _ _ _ (by decide)]
  exact Nat.mod_eq_of_lt (fv_lt s F.HST_SQ_CFG_CQ i)

/-! ### What a write does, by ENABLE and the ring's state (R246, R247, R254, R255) -/

/-- The register of a ring in service with ENABLE = 1. -/
theorem writeSqCfg_kept (h63 : v.getLsbD 63 = true) (hen : s.on F.HST_SQ_CFG_ENABLED (sqIdx fn n) = true) :
    s.writeSqCfg fn n fullMask v = sqKept s (sqIdx fn n) v := by
  unfold State.writeSqCfg
  dsimp only
  rw [if_neg (not_not_intro fullMask_63), if_pos h63, if_pos hen, if_pos hen]
  rfl

/-- With ENABLE = 1 for a ring out of service: what is judged, and what the ring becomes. -/
theorem writeSqCfg_on (h63 : v.getLsbD 63 = true) (hen : s.on F.HST_SQ_CFG_ENABLED (sqIdx fn n) = false) :
    s.writeSqCfg fn n fullMask v =
      if ¬ sizeOk ((sqWritten s (sqIdx fn n) v).fv F.HST_SQ_CFG_SIZE_M1 (sqIdx fn n)) = true then
        (sqWritten s (sqIdx fn n) v).ringError fn n 5
      else if ¬ (sqWritten s (sqIdx fn n) v).on F.HST_CQ_CFG_ENABLED
          (64 * fn.val + (sqWritten s (sqIdx fn n) v).fv F.HST_SQ_CFG_CQ (sqIdx fn n)) = true then
        (sqWritten s (sqIdx fn n) v).ringError fn n 6
      else sqEnabled s fn n v := by
  simp only [State.writeSqCfg, fullMask_63, h63, hen, Bool.false_eq_true, not_true_eq_false, if_true, if_false]
  rfl

/-- A SIZE that is no power of two of R246 is error 5. -/
theorem writeSqCfg_badSize (h63 : v.getLsbD 63 = true) (hen : s.on F.HST_SQ_CFG_ENABLED (sqIdx fn n) = false)
    (hsize : sizeOk (wField v F.HST_SQ_CFG_SIZE_M1) = false) :
    s.writeSqCfg fn n fullMask v = (sqWritten s (sqIdx fn n) v).ringError fn n 5 := by
  rw [writeSqCfg_on h63 hen, fv_sqWritten_size, if_pos (by simp [hsize])]

/-- A completion ring out of service is error 6. -/
theorem writeSqCfg_unbound (h63 : v.getLsbD 63 = true) (hen : s.on F.HST_SQ_CFG_ENABLED (sqIdx fn n) = false)
    (hsize : sizeOk (wField v F.HST_SQ_CFG_SIZE_M1) = true)
    (hcq : s.on F.HST_CQ_CFG_ENABLED (64 * fn.val + wField v F.HST_SQ_CFG_CQ) = false) :
    s.writeSqCfg fn n fullMask v = (sqWritten s (sqIdx fn n) v).ringError fn n 6 := by
  rw [writeSqCfg_on h63 hen, fv_sqWritten_size, on_sqWritten_cq (sqIdx_lt fn n), if_neg (by simp [hsize]), if_pos (by simp [hcq])]

/-- Otherwise the ring goes into service. -/
theorem writeSqCfg_enabled (h63 : v.getLsbD 63 = true) (hen : s.on F.HST_SQ_CFG_ENABLED (sqIdx fn n) = false)
    (hsize : sizeOk (wField v F.HST_SQ_CFG_SIZE_M1) = true)
    (hcq : s.on F.HST_CQ_CFG_ENABLED (64 * fn.val + wField v F.HST_SQ_CFG_CQ) = true) :
    s.writeSqCfg fn n fullMask v = sqEnabled s fn n v := by
  rw [writeSqCfg_on h63 hen, fv_sqWritten_size, on_sqWritten_cq (sqIdx_lt fn n), if_neg (by simp [hsize]), if_neg (by simp [hcq])]

/-- A ring in service that is disabled. -/
theorem writeSqCfg_off (h63 : v.getLsbD 63 = false) (hen : s.on F.HST_SQ_CFG_ENABLED (sqIdx fn n) = true) :
    s.writeSqCfg fn n fullMask v =
      loadsAborted (sqAborted s fn n v) fn ((sqKept s (sqIdx fn n) v).firstLoad (ofRing fn n)) := by
  unfold State.writeSqCfg
  dsimp only
  rw [if_neg (not_not_intro fullMask_63), if_neg (by rw [h63]; exact Bool.false_ne_true), if_pos hen, if_pos hen]
  rfl

/-- A ring just put in service. -/
theorem sqEnabled_spec (s : State) (fn : Fin 8) (n : Fin 64) (v : DWord) :
    let i := sqIdx fn n
    let t := sqEnabled s fn n v
    t.on F.HST_SQ_CFG_ENABLED i = true ∧ t.on F.HST_SQ_CFG_ENABLE i = true ∧
      t.fv F.HST_SQ_CFG_SIZE_M1 i = wField v F.HST_SQ_CFG_SIZE_M1 ∧ t.fv F.HST_SQ_CFG_CQ i = wField v F.HST_SQ_CFG_CQ ∧
      t.reg .HST_SQ_PTR i = 0 ∧ t.ring (sqKey fn n) = { door := (s.ring (sqKey fn n)).door } ∧
      (∀ k, k ≠ sqKey fn n → t.ring k = s.ring k) ∧ Only [.regs, .hst] s t ∧
      OnlyRegs [(.HST_SQ_CFG, i), (.HST_SQ_PTR, i)] s t := by
  have hi := sqIdx_lt fn n
  have hptr : ∀ (t : State) (f : Fld) (x : Nat), f.reg ≠ .HST_SQ_PTR →
      (t.fset f x (sqIdx fn n)).reg .HST_SQ_PTR (sqIdx fn n) = t.reg .HST_SQ_PTR (sqIdx fn n) := fun t f x hf =>
    reg_setReg_other t _ (sqIdx_lt fn n) (sqIdx_lt fn n) hf
  refine ⟨?_, ?_, ?_, ?_, ?_, ?_, fun k hk => ?_, ?_, ?_⟩ <;> dsimp only [sqEnabled]
  · rw [State.on, fv_fset_same _ _ _ _ (by decide)]; rfl
  · rw [State.on, fv_fset_apart _ _ hi hi (by decide), fv_fset_same _ _ _ _ (by decide)]; rfl
  · rw [fv_fset_apart _ _ hi hi (by decide), fv_fset_apart _ _ hi hi (by decide), fv_setReg_other _ _ hi hi (by decide), fv_setRing,
      fv_sqWritten_size]
  · rw [fv_fset_apart _ _ hi hi (by decide), fv_fset_apart _ _ hi hi (by decide), fv_setReg_other _ _ hi hi (by decide), fv_setRing,
      fv_sqWritten_cq]
  · rw [hptr _ _ _ (by decide), hptr _ _ _ (by decide), reg_setReg_same]
  · rw [ring_fset, ring_fset, ring_setReg, ring_setRing_same, ring_sqWritten]
  · rw [ring_fset, ring_fset, ring_setReg, ring_setRing_ne _ (Ne.symm hk), ring_sqWritten]
  · simp
  · simp

/-! ### The commands that have not started -/

theorem unstarted_eq_nil {mine : CmdRef → Bool} (h : s.unstarted mine = []) :
    (∀ a ∈ s.hst.accepted, mine a.cmd = false) ∧ (∀ x ∈ s.store.waiting, mine x.cmd = false) ∧
      ∀ l ∈ s.hst.loads, l.reading.isNone = true → mine l.cmd = false := by
  have key := List.filter_eq_nil_iff.mp h
  simp only [List.mem_append, List.mem_map, List.mem_filter, Bool.not_eq_true] at key
  exact ⟨fun a ha => key _ (.inl (.inl ⟨a, ha, rfl⟩)), fun x hx => key _ (.inl (.inr ⟨x, hx, rfl⟩)),
    fun l hl hn => key _ (.inr ⟨l, ⟨hl, hn⟩, rfl⟩)⟩

/-- With no command to drop, nothing is dropped. -/
theorem dropUnstarted_of_nil {mine : CmdRef → Bool} (h : s.unstarted mine = []) : s.dropUnstarted mine = s := by
  obtain ⟨hacc, hwait, hload⟩ := unstarted_eq_nil h
  have h1 : s.hst.accepted.filter (fun a => !mine a.cmd) = s.hst.accepted :=
    List.filter_eq_self.mpr fun a ha => by simp [hacc a ha]
  have h2 : s.store.waiting.filter (fun x => !mine x.cmd) = s.store.waiting :=
    List.filter_eq_self.mpr fun x hx => by simp [hwait x hx]
  have h3 : s.hst.loads.filter (fun l => l.reading.isSome || !mine l.cmd) = s.hst.loads :=
    List.filter_eq_self.mpr fun l hl => by
      cases hr : l.reading with
      | some _ => rfl
      | none => simp [hload l hl (by simp [hr])]
  rw [State.dropUnstarted, h1, h2, h3]

/-- With no command to drop, no load goes with them. -/
theorem firstLoad_of_nil {mine : CmdRef → Bool} (h : s.unstarted mine = []) : s.firstLoad mine = none := by
  obtain ⟨hacc, -, hload⟩ := unstarted_eq_nil h
  have h1 : s.hst.accepted.filter (fun a => mine a.cmd && hostForm a.desc) = [] :=
    List.filter_eq_nil_iff.mpr fun a ha => by simp [hacc a ha]
  have h2 : s.hst.loads.filter (fun l => mine l.cmd && l.reading.isNone) = [] :=
    List.filter_eq_nil_iff.mpr fun l hl hm => by
      obtain ⟨hm, hn⟩ := Bool.and_eq_true_iff.mp hm
      exact absurd (hload l hl hn) (by simp [hm])
  simp [State.firstLoad, h1, h2]

/-- The loads and accepted commands that go with an aborted load. -/
theorem lists_abortLoads (s : State) (fn : Fin 8) (acc first : Nat) :
    lists (s.abortLoads fn acc first) =
      (s.hst.accepted.filter (fun a => !(decide (a.cmd.fn = fn ∧ acc < a.cmd.acc) && hostForm a.desc)),
        s.hst.loads.filter (fun l => !decide (l.fn = fn ∧ acc < l.cmd.acc))) := by
  unfold State.abortLoads
  exact foldl_keeps (p := fun t => lists t = _) _ _ (fun t c ht => (lists_completeReason c _ _).trans ht) _ rfl

theorem store_abortLoads (s : State) (fn : Fin 8) (acc first : Nat) : (s.abortLoads fn acc first).store = s.store := by
  unfold State.abortLoads
  exact foldl_keeps (p := fun t : State => t.store = s.store) _ _ (fun t c ht => (State.completeReason_store ..).trans ht) _ rfl

theorem only_abortLoads (s : State) (fn : Fin 8) (acc first : Nat) :
    Only [.regs, .hst, .latches, .free, .out, .store] s (s.abortLoads fn acc first) := by
  unfold State.abortLoads
  refine foldl_keeps (p := fun t => Only [.regs, .hst, .latches, .free, .out, .store] s t) _ _ (fun t c ht => ?_) _ ?_
  · simpa using ht
  · simpa [State.setNextLoad] using only_hst (by simp) _

/-- What the writes of the register leave of the commands. -/
theorem unstarted_sqKept (i : Nat) (mine : CmdRef → Bool) : (sqKept s i v).unstarted mine = s.unstarted mine := by
  simp only [State.unstarted, hst_sqKept, store_sqKept]

theorem firstLoad_sqKept (i : Nat) (mine : CmdRef → Bool) : (sqKept s i v).firstLoad mine = s.firstLoad mine := by
  simp only [State.firstLoad, hst_sqKept]

theorem lists_dropUnstarted (mine : CmdRef → Bool) : lists (s.dropUnstarted mine) =
    (s.hst.accepted.filter (fun a => !mine a.cmd), s.hst.loads.filter (fun l => l.reading.isSome || !mine l.cmd)) := rfl

theorem lists_sqEmptied : lists (sqEmptied s fn n v) =
    (s.hst.accepted.filter (fun a => !ofRing fn n a.cmd), s.hst.loads.filter (fun l => l.reading.isSome || !ofRing fn n l.cmd)) := by
  rw [sqEmptied, lists_fset, lists_dropUnstarted, hst_sqKept]

theorem store_sqEmptied : (sqEmptied s fn n v).store.waiting = s.store.waiting.filter (fun x => !ofRing fn n x.cmd) := by
  simp only [sqEmptied, State.fset_store, State.dropUnstarted, store_sqKept]

theorem lists_sqFallen : lists (sqFallen s fn n v) = lists (sqEmptied s fn n v) := by
  unfold sqFallen
  dsimp only
  split
  · exact lists_fset ..
  · exact lists_setRing ..

theorem store_sqFallen : (sqFallen s fn n v).store = (sqEmptied s fn n v).store := by
  unfold sqFallen
  dsimp only
  split
  · exact State.fset_store ..
  · exact State.setRing_store ..

theorem lists_sqAborted : lists (sqAborted s fn n v) = lists (sqFallen s fn n v) := by
  unfold sqAborted
  exact foldl_keeps (p := fun t => lists t = _) _ _ (fun t c ht => (lists_completeOpen c _).trans ht) _ rfl

theorem store_sqAborted : (sqAborted s fn n v).store = (sqFallen s fn n v).store := by
  unfold sqAborted
  exact foldl_keeps (p := fun t : State => t.store = (sqFallen s fn n v).store) _ _
    (fun t c ht => (State.completeOpen_store ..).trans ht) _ rfl

/-- A disabled ring's state lies within the frame of the whole write. -/
theorem only_sqFallen : Only [.regs, .hst, .latches, .free, .out, .store] s (sqFallen s fn n v) := by
  have hdrop : ∀ t : State, Only [.regs, .hst, .latches, .free, .out, .store] t (t.dropUnstarted (ofRing fn n)) := fun t =>
    ⟨rfl, rfl, rfl, rfl, fun p hp => by cases p <;> simp_all [Part.same, State.dropUnstarted]⟩
  have hemptied : Only [.regs, .hst, .latches, .free, .out, .store] s (sqEmptied s fn n v) := by
    rw [sqEmptied, only_fset (by simp)]
    exact only_trans (by simp [sqKept]) (hdrop _)
  unfold sqFallen
  dsimp only
  split <;> simpa using hemptied

theorem only_sqAborted : Only [.regs, .hst, .latches, .free, .out, .store] s (sqAborted s fn n v) := by
  unfold sqAborted
  exact foldl_keeps (p := fun t => Only [.regs, .hst, .latches, .free, .out, .store] s t) _ _
    (fun t c ht => by simpa using ht) _ only_sqFallen

theorem only_loadsAborted (load : Option (Nat × Nat)) :
    Only [.regs, .hst, .latches, .free, .out, .store] s (loadsAborted s fn load) := by
  cases load with
  | none => exact only_refl _ _
  | some x => exact only_abortLoads ..

theorem store_loadsAborted (load : Option (Nat × Nat)) : (loadsAborted s fn load).store = s.store := by
  cases load with
  | none => rfl
  | some x => exact store_abortLoads ..

/-- What goes with an aborted load is a load of the host form. -/
theorem lists_loadsAborted (load : Option (Nat × Nat)) :
    (∀ a ∈ (loadsAborted s fn load).hst.accepted, a ∈ s.hst.accepted) ∧
      (∀ a ∈ s.hst.accepted, hostForm a.desc = false → a ∈ (loadsAborted s fn load).hst.accepted) ∧
      ∀ l ∈ (loadsAborted s fn load).hst.loads, l ∈ s.hst.loads := by
  cases load with
  | none => exact ⟨fun _ h => h, fun _ h _ => h, fun _ h => h⟩
  | some x =>
    obtain ⟨hacc, hload⟩ := Prod.ext_iff.mp (lists_abortLoads s fn x.1 x.2)
    change (s.abortLoads fn x.1 x.2).hst.accepted = _ at hacc
    change (s.abortLoads fn x.1 x.2).hst.loads = _ at hload
    rw [show loadsAborted s fn (some x) = s.abortLoads fn x.1 x.2 from rfl, hacc, hload]
    exact ⟨fun a ha => List.mem_of_mem_filter ha, fun a ha hf => List.mem_filter.mpr ⟨ha, by simp [hf]⟩,
      fun l hl => List.mem_of_mem_filter hl⟩

/-- None of the ring's commands that has not started is left (R255). -/
theorem sqDisabled_lists (load : Option (Nat × Nat)) :
    let t := loadsAborted (sqAborted s fn n v) fn load
    (∀ a ∈ t.hst.accepted, a ∈ s.hst.accepted ∧ a.cmd.src ≠ .sq fn n) ∧
      (∀ a ∈ s.hst.accepted, a.cmd.src ≠ .sq fn n → hostForm a.desc = false → a ∈ t.hst.accepted) ∧
      t.store.waiting = s.store.waiting.filter (fun x => !decide (x.cmd.src = .sq fn n)) ∧
      (∀ l ∈ t.hst.loads, l ∈ s.hst.loads ∧ (l.reading = none → l.cmd.src ≠ .sq fn n)) := by
  obtain ⟨hsub, hkeep, hloads⟩ := lists_loadsAborted (s := sqAborted s fn n v) (fn := fn) load
  obtain ⟨hacc, hload⟩ := Prod.ext_iff.mp ((lists_sqAborted (s := s) (fn := fn) (n := n) (v := v)).trans (lists_sqFallen.trans lists_sqEmptied))
  change (sqAborted s fn n v).hst.accepted = _ at hacc
  change (sqAborted s fn n v).hst.loads = _ at hload
  rw [hacc] at hsub hkeep
  rw [hload] at hloads
  refine ⟨fun a ha => ?_, fun a ha hne hf => hkeep a (List.mem_filter.mpr ⟨ha, by simp [ofRing, hne]⟩) hf, ?_, fun l hl => ?_⟩
  · obtain ⟨hmem, hne⟩ := List.mem_filter.mp (hsub a ha)
    exact ⟨hmem, by simpa [ofRing] using hne⟩
  · rw [store_loadsAborted, store_sqAborted, store_sqFallen, store_sqEmptied]
    rfl
  · obtain ⟨hmem, hne⟩ := List.mem_filter.mp (hloads l hl)
    exact ⟨hmem, fun hnone => by simpa [ofRing, hnone] using hne⟩

/-- A ring with no command waiting for its start: its disabling touches nothing else. -/
theorem sqEmptied_of_nil (hnil : s.unstarted (ofRing fn n) = []) :
    sqEmptied s fn n v = (sqKept s (sqIdx fn n) v).fset F.HST_SQ_CFG_ENABLE 0 (sqIdx fn n) := by
  rw [sqEmptied, dropUnstarted_of_nil (by rw [unstarted_sqKept, hnil])]

theorem sqDisabled_of_nil (hnil : s.unstarted (ofRing fn n) = []) :
    loadsAborted (sqAborted s fn n v) fn ((sqKept s (sqIdx fn n) v).firstLoad (ofRing fn n)) = sqFallen s fn n v := by
  rw [firstLoad_sqKept, firstLoad_of_nil hnil, loadsAborted, sqAborted, unstarted_sqKept, hnil, List.foldl_nil]

/-- The ring as its disabling finds it, before it falls or drains. -/
theorem sqEmptied_spec (hnil : s.unstarted (ofRing fn n) = []) :
    let i := sqIdx fn n
    let t := sqEmptied s fn n v
    t.fv F.HST_SQ_CFG_ENABLE i = 0 ∧ t.fv F.HST_SQ_CFG_ENABLED i = s.fv F.HST_SQ_CFG_ENABLED i ∧
      t.ring (sqKey fn n) = s.ring (sqKey fn n) ∧ lists t = lists s ∧
      Only [.regs, .hst] s t ∧ OnlyRegs [(.HST_SQ_CFG, i)] s t := by
  dsimp only
  rw [sqEmptied_of_nil hnil]
  refine ⟨fv_fset_same _ _ _ _ (by decide), ?_, ?_, ?_, ?_, ?_⟩
  · rw [fv_fset_apart _ _ (sqIdx_lt fn n) (sqIdx_lt fn n) (by decide), fv_sqKept_enabled (sqIdx_lt fn n)]
  · rw [ring_fset, ring_sqKept]
  · rw [lists_fset, lists, lists, hst_sqKept]
  · simp [sqKept]
  · simp [sqKept]

/-- A ring in service that is disabled: it falls at once where it owes nothing, and drains otherwise. -/
theorem sqFallen_spec (hnil : s.unstarted (ofRing fn n) = []) (hen : s.on F.HST_SQ_CFG_ENABLED (sqIdx fn n) = true) :
    let i := sqIdx fn n
    let t := sqFallen s fn n v
    let owed := (s.ring (sqKey fn n)).owed
    t.on F.HST_SQ_CFG_ENABLE i = false ∧ t.hst.accepted = s.hst.accepted ∧
      ((owed = [] → t.on F.HST_SQ_CFG_ENABLED i = false) ∧
        (owed ≠ [] → t.on F.HST_SQ_CFG_ENABLED i = true ∧ (t.ring (sqKey fn n)).draining = true ∧ (t.ring (sqKey fn n)).owed = owed)) ∧
      Only [.regs, .hst] s t ∧ OnlyRegs [(.HST_SQ_CFG, i)] s t := by
  obtain ⟨henable, henabled, hring, hlists, honly, hregs⟩ := sqEmptied_spec (v := v) hnil
  have hacc := congrArg Prod.fst hlists
  dsimp only [sqFallen]
  rw [hring]
  generalize sqEmptied s fn n v = u at *
  by_cases howed : (s.ring (sqKey fn n)).owed = []
  · rw [if_pos howed]
    refine ⟨?_, hacc, ⟨fun _ => ?_, fun h => absurd howed h⟩, by simpa using honly, by simpa using hregs⟩
    · rw [State.on, fv_fset_apart _ _ (sqIdx_lt fn n) (sqIdx_lt fn n) (by decide), henable]; rfl
    · rw [State.on, fv_fset_same _ _ _ _ (by decide)]; rfl
  · rw [if_neg howed]
    refine ⟨?_, hacc, ⟨fun h => absurd h howed, fun _ => ⟨?_, by simp, by simp⟩⟩, by simpa using honly, by simpa using hregs⟩
    · rw [State.on, fv_setRing, henable]; rfl
    · rw [State.on, fv_setRing, henabled]; exact hen

end Config

end Sys2Proof.Proofs
end

section
/-!
SUPPORT. Writes of the CFG register of a ring the module writes, a completion ring or an event ring (R246, R247, R254, R255).
-/

namespace Sys2Proof.Proofs

open Sys2Proof.Machine Sys2Proof.Claims

section Config

variable {s : State} {w : WRing} {v : DWord}

/-- The CFG register of a ring the module writes, and its PTR register. -/
def wCfg (w : WRing) : RegName := (w.fld F.HST_CQ_CFG_ENABLE F.HST_EQ_CFG_ENABLE).reg
def wPtr (w : WRing) : RegName := (w.fld F.HST_CQ_PTR_INDEX F.HST_EQ_PTR_INDEX).reg

/-- The register as written, with ENABLE as it stood. -/
def wWritten (s : State) (w : WRing) (v : DWord) : State :=
  (s.plainWrite (wCfg w) w.idx fullMask v).wset w F.HST_CQ_CFG_ENABLE F.HST_EQ_CFG_ENABLE
    (wField (s.reg (wCfg w) w.idx) F.HST_CQ_CFG_ENABLE)

/-- The same for a ring that is ENABLED: SIZE and VECTOR are kept too. -/
def wKept (s : State) (w : WRing) (v : DWord) : State :=
  ((wWritten s w v).wset w F.HST_CQ_CFG_SIZE_M1 F.HST_EQ_CFG_SIZE_M1 (wField (s.reg (wCfg w) w.idx) F.HST_CQ_CFG_SIZE_M1)).wset w
    F.HST_CQ_CFG_VECTOR F.HST_EQ_CFG_VECTOR (wField (s.reg (wCfg w) w.idx) F.HST_CQ_CFG_VECTOR)

/-- The ring put in service: its pointer is at slot 0 with phase 1, and its ring is fresh. -/
def wEnabled (s : State) (w : WRing) (v : DWord) : State :=
  let t := wWritten s w v
  (((t.setRing w.key { door := (t.ring w.key).door }).setReg (wPtr w) (2 ^ 32) w.idx).wset w F.HST_CQ_CFG_ENABLE F.HST_EQ_CFG_ENABLE 1).wset w
    F.HST_CQ_CFG_ENABLED F.HST_EQ_CFG_ENABLED 1

/-- The ring out of service, its entries dropped. -/
def wDisabled (s : State) (w : WRing) : State :=
  let t := (s.wset w F.HST_CQ_CFG_ENABLE F.HST_EQ_CFG_ENABLE 0).wset w F.HST_CQ_CFG_ENABLED F.HST_EQ_CFG_ENABLED 0
  t.setRing w.key { t.ring w.key with slots := [], waiting := [], pend := 0, timing := false }

/-- Some submission ring in service is bound to the completion ring. -/
abbrev WBound (s : State) (w : WRing) : Prop := ∃ n, w.2 = some n ∧ s.cqBound w.1 n = true

/-- The ring is ENABLED. -/
abbrev WEnabled (s : State) (w : WRing) : Prop := s.wfv w F.HST_CQ_CFG_ENABLED F.HST_EQ_CFG_ENABLED = 1

/-! ## What a write does, by ENABLE and the ring's state -/

/-- Disabling a completion ring that is bound to is error 7. -/
theorem writeWCfg_bound (h63 : v.getLsbD 63 = false) (hen : WEnabled s w) (hb : WBound s w) :
    s.writeWCfg w fullMask v = s.ringError w.1 w.code 7 := by
  obtain ⟨f, k⟩ := w
  obtain ⟨n, hn, hb⟩ := hb
  obtain rfl : k = some n := hn
  unfold State.writeWCfg
  dsimp only
  exact if_pos ⟨fullMask_63, by rw [h63]; exact Bool.false_ne_true, decide_eq_true hen, hb⟩

/-- No other write is refused for the ring's bindings. -/
theorem not_writeWCfg_bound (h : v.getLsbD 63 = true ∨ ¬ WBound s w) :
    ¬ (fullMask.getLsbD 63 = true ∧ ¬ v.getLsbD 63 = true ∧ decide (WEnabled s w) = true ∧
      (match w.2 with | some n => s.cqBound w.1 n | none => false) = true) := by
  rintro ⟨-, h63, -, hb⟩
  refine h.elim h63 fun hn => hn ?_
  obtain ⟨f, _ | n⟩ := w
  · exact absurd hb Bool.false_ne_true
  · exact ⟨n, rfl, hb⟩

/-- With ENABLE = 1 for a ring out of service. -/
theorem writeWCfg_on (h63 : v.getLsbD 63 = true) (hen : ¬ WEnabled s w) :
    s.writeWCfg w fullMask v =
      if ¬ sizeOk ((wWritten s w v).wfv w F.HST_CQ_CFG_SIZE_M1 F.HST_EQ_CFG_SIZE_M1) = true then
        (wWritten s w v).ringError w.1 w.code 5
      else (wEnabled s w v).wDrain w := by
  have hdis : decide (WEnabled s w) = false := decide_eq_false hen
  refine (if_neg (not_writeWCfg_bound (.inl h63))).trans ?_
  simp only [fullMask_63, h63, hdis, Bool.false_eq_true, not_true_eq_false, if_true, if_false]
  rfl

/-- With ENABLE = 0 the ring leaves service. -/
theorem writeWCfg_off (h63 : v.getLsbD 63 = false) (hb : ¬ WBound s w) :
    s.writeWCfg w fullMask v = wDisabled (if WEnabled s w then wKept s w v else wWritten s w v) w := by
  refine (if_neg (not_writeWCfg_bound (.inr hb))).trans ?_
  by_cases hen : WEnabled s w
  · have hdec : decide (WEnabled s w) = true := decide_eq_true hen
    simp only [fullMask_63, h63, hdec, Bool.false_eq_true, not_true_eq_false, if_true, if_false]
    rw [if_pos hen]
    rfl
  · have hdec : decide (WEnabled s w) = false := decide_eq_false hen
    simp only [fullMask_63, h63, hdec, Bool.false_eq_true, not_true_eq_false, if_false]
    rw [if_neg hen]
    rfl

/-! ## The ring's fields -/

theorem ring_wWritten (k : Nat) : (wWritten s w v).ring k = s.ring k := by rw [wWritten, ring_wset, ring_plainWrite]

theorem hst_wset (c e : Fld) (x : Nat) : (s.wset w c e x).hst = s.hst := State.fset_hst ..

theorem hst_wWritten : (wWritten s w v).hst = s.hst := by rw [wWritten, hst_wset, State.plainWrite_hst]

theorem only_wWritten : Only [.regs, .hst] s (wWritten s w v) := by
  rw [wWritten, only_wset (by simp), only_plainWrite (by simp)]
  exact only_refl _ _

theorem wfv_wWritten_size :
    (wWritten s w v).wfv w F.HST_CQ_CFG_SIZE_M1 F.HST_EQ_CFG_SIZE_M1 = wField v F.HST_CQ_CFG_SIZE_M1 := by
  rw [wWritten, wfv_wset_apart _ _ _ (by decide) (by decide)]
  obtain ⟨f, _ | n⟩ := w
  · exact fv_plainWrite_rw s F.HST_EQ_CFG_SIZE_M1 _ v (by decide)
  · exact fv_plainWrite_rw s F.HST_CQ_CFG_SIZE_M1 _ v (by decide)

theorem wfv_wWritten_enabled :
    (wWritten s w v).wfv w F.HST_CQ_CFG_ENABLED F.HST_EQ_CFG_ENABLED = s.wfv w F.HST_CQ_CFG_ENABLED F.HST_EQ_CFG_ENABLED := by
  rw [wWritten, wfv_wset_apart _ _ _ (by decide) (by decide)]
  obtain ⟨f, _ | n⟩ := w
  · exact fv_plainWrite_ro s F.HST_EQ_CFG_ENABLED _ v (by decide)
  · exact fv_plainWrite_ro s F.HST_CQ_CFG_ENABLED _ v (by decide)

theorem fv_wWritten_other {f : Fld} {i : Nat} (hi : i < 1024) (hc : f.reg ≠ .HST_CQ_CFG) (he : f.reg ≠ .HST_EQ_CFG) :
    (wWritten s w v).fv f i = s.fv f i := by
  rw [wWritten, fv_wset_apart _ _ _ hi (.inl hc.symm) (.inl he.symm)]
  obtain ⟨g, _ | n⟩ := w
  · exact fv_plainWrite_other _ _ _ (wRing_idx_lt (g, none)) hi he.symm
  · exact fv_plainWrite_other _ _ _ (wRing_idx_lt (g, some n)) hi hc.symm

/-- A ring error leaves the fields of the rings. -/
theorem wfv_ringError (fn : Fin 8) (ring code : Nat) {c e : Fld} (hc : c.reg ≠ .HST_FN_ERR) (he : e.reg ≠ .HST_FN_ERR) :
    (s.ringError fn ring code).wfv w c e = s.wfv w c e := by
  obtain ⟨g, _ | n⟩ := w
  · exact fv_ringError _ _ _ (wRing_idx_lt (g, none)) he
  · exact fv_ringError _ _ _ (wRing_idx_lt (g, some n)) hc

/-- A write of the pointer leaves the CFG register's fields. -/
theorem wfv_setPtr_cfg (t : State) {c e : Fld} (x : DWord) (hc : c.reg = .HST_CQ_CFG) (he : e.reg = .HST_EQ_CFG) :
    (t.setReg (wPtr w) x w.idx).wfv w c e = t.wfv w c e := by
  refine fv_setReg_other t x (wRing_idx_lt w) (wRing_idx_lt w) ?_
  obtain ⟨f, _ | n⟩ := w
  · rw [WRing.fld, he]
    exact (by decide : RegName.HST_EQ_PTR ≠ .HST_EQ_CFG)
  · rw [WRing.fld, hc]
    exact (by decide : RegName.HST_CQ_PTR ≠ .HST_CQ_CFG)

/-- A write of the pointer, seen through the pointer's fields. -/
theorem wfv_setPtr_ptr (t : State) {c e : Fld} (x : DWord) (hc : c.reg = .HST_CQ_PTR) (he : e.reg = .HST_EQ_PTR) :
    (t.setReg (wPtr w) x w.idx).wfv w c e = getBits x (w.fld c e).lo (w.fld c e).w := by
  have hreg : wPtr w = (w.fld c e).reg := by
    obtain ⟨f, _ | n⟩ := w
    · exact he.symm
    · exact hc.symm
  rw [State.wfv, State.fv, hreg, reg_setReg_same]

/-- A fresh pointer: slot 0 and phase 1. -/
theorem wfv_setPtr (t : State) : (t.setReg (wPtr w) (2 ^ 32) w.idx).wfv w F.HST_CQ_PTR_INDEX F.HST_EQ_PTR_INDEX = 0 ∧
    (t.setReg (wPtr w) (2 ^ 32) w.idx).wfv w F.HST_CQ_PTR_PHASE F.HST_EQ_PTR_PHASE = 1 := by
  rw [wfv_setPtr_ptr _ _ rfl rfl, wfv_setPtr_ptr _ _ rfl rfl]
  obtain ⟨f, _ | n⟩ := w
  · exact ⟨show getBits (2 ^ 32) 0 16 = 0 by decide, show getBits (2 ^ 32) 32 1 = 1 by decide⟩
  · exact ⟨show getBits (2 ^ 32) 0 16 = 0 by decide, show getBits (2 ^ 32) 32 1 = 1 by decide⟩

/-- A ring just put in service. -/
theorem wEnabled_spec (s : State) (w : WRing) (v : DWord) :
    let t := wEnabled s w v
    WEnabled t w ∧ t.wSize w = wField v F.HST_CQ_CFG_SIZE_M1 + 1 ∧ t.wfv w F.HST_CQ_PTR_INDEX F.HST_EQ_PTR_INDEX = 0 ∧
      t.wfv w F.HST_CQ_PTR_PHASE F.HST_EQ_PTR_PHASE = 1 ∧ t.ring w.key = { door := (s.ring w.key).door } ∧
      (t.hst.fns[w.1]).backlog = (s.hst.fns[w.1]).backlog ∧ Only [.regs, .hst] s t := by
  dsimp only [wEnabled]
  refine ⟨wfv_wset_same (c := F.HST_CQ_CFG_ENABLED) (e := F.HST_EQ_CFG_ENABLED) _ _ _ (by decide) (by decide) rfl, ?_, ?_, ?_, ?_, ?_, ?_⟩
  · rw [State.wSize, wfv_wset_apart _ _ _ (by decide) (by decide), wfv_wset_apart _ _ _ (by decide) (by decide), wfv_setPtr_cfg _ _ rfl rfl,
      wfv_setRing, wfv_wWritten_size]
  · rw [wfv_wset_apart _ _ _ (by decide) (by decide), wfv_wset_apart _ _ _ (by decide) (by decide), (wfv_setPtr _).1]
  · rw [wfv_wset_apart _ _ _ (by decide) (by decide), wfv_wset_apart _ _ _ (by decide) (by decide), (wfv_setPtr _).2]
  · rw [ring_wset, ring_wset, ring_setReg, ring_setRing_same, ring_wWritten]
  · rw [hst_wset, hst_wset, State.setReg_hst, backlog_setRing, hst_wWritten]
  · simpa using only_wWritten (s := s) (w := w) (v := v)

/-- An event ring with no backlog, and any completion ring, has nothing waiting when it is put in service. -/
theorem wWaiting_wEnabled (h : w.2 = none → (s.hst.fns[w.1]).backlog = []) : (wEnabled s w v).wWaiting w = [] := by
  obtain ⟨-, -, -, -, hring, hback, -⟩ := wEnabled_spec s w v
  cases hw : w.2 with
  | none => rw [wWaiting_none hw, hback, h hw]
  | some n => rw [wWaiting_some hw, hring]

theorem toCome_wEnabled (h : w.2 = none → (s.hst.fns[w.1]).backlog = []) : toCome (wEnabled s w v) w = [] := by
  obtain ⟨-, -, -, -, hring, -, -⟩ := wEnabled_spec s w v
  rw [toCome, wWaiting_wEnabled h, hring]
  rfl

/-- A ring out of service. -/
theorem wDisabled_spec (s : State) (w : WRing) :
    let t := wDisabled s w
    t.wfv w F.HST_CQ_CFG_ENABLED F.HST_EQ_CFG_ENABLED = 0 ∧ (t.ring w.key).slots = [] ∧ (t.ring w.key).waiting = [] ∧
      Only [.regs, .hst] s t := by
  dsimp only [wDisabled]
  refine ⟨?_, ?_, ?_, by simp⟩
  · rw [wfv_setRing, wfv_wset_same (c := F.HST_CQ_CFG_ENABLED) (e := F.HST_EQ_CFG_ENABLED) _ _ _ (by decide) (by decide) rfl]
    rfl
  · rw [ring_setRing_same]
  · rw [ring_setRing_same]

/-- The fields taken before the ring leaves service touch the registers alone. -/
theorem only_wTaken : Only [.regs, .hst] s (if WEnabled s w then wKept s w v else wWritten s w v) := by
  have honly : Only [.regs, .hst] s (wWritten s w v) := only_wWritten
  split
  · simpa [wKept] using honly
  · exact honly

end Config
end Sys2Proof.Proofs
end

section
/-!
SUPPORT. The answers of RING_ENABLE and RING_DISABLE (R246, R247, R254, R255).
-/

namespace Sys2Proof.Proofs

open Sys2Proof.Machine Sys2Proof.Claims

section Answers

variable {s u : State} {fn : Fin 8} {n : Fin 64} {r : Fin 129} {v : DWord} {P : State → Prop}

/-- The frame of a write behind the latch's release. -/
theorem only_of_unlatch {ps : List Part} {q : RegName} {i : Nat} (h : Only ps (s.unlatch q i) u) : Only (.latches :: ps) s u :=
  only_trans ((only_unlatch (by simp) q i).mpr (only_refl _ _)) (only_mono h (List.subset_cons_self _ _))

/-- The parts that a write of a ring's CFG register may change. -/
abbrev cfgParts : List Part := [.regs, .hst, .latches, .free, .out, .store]

theorem answers_ringEnable (hu : s.hostRingCfg fn r (v ||| enableBit) = u) (honly : Only cfgParts s u)
    (hP : P u) : Answers (.ringEnable fn r v) s P :=
  answers_of_eq _ (exec_ringEnable s fn r v) hu honly hP

theorem answers_ringDisable (hu : s.hostRingCfg fn r (v &&& belowEnable) = u) (honly : Only cfgParts s u)
    (hP : P u) : Answers (.ringDisable fn r v) s P :=
  answers_of_eq _ (exec_ringDisable s fn r v) hu honly hP

end Answers

/-! ## Submission rings -/

section Submission

variable {s : State} {fn : Fin 8} {n : Fin 64} {r : Fin 129} {v : DWord}

theorem ringEnable_sq_enabled (hrn : r.val = n.val) (hreach : s.hostReaches = true) (hp : Permits s (fnAgent fn) .HST_SQ_CFG (sqIdx fn n))
    (hen : s.on F.HST_SQ_CFG_ENABLED (sqIdx fn n) = false) (hsize : sizeOk (wField v F.HST_SQ_CFG_SIZE_M1) = true)
    (hcq : s.on F.HST_CQ_CFG_ENABLED (64 * fn.val + wField v F.HST_SQ_CFG_CQ) = true) :
    Answers (.ringEnable fn r v) s fun t =>
      t.on F.HST_SQ_CFG_ENABLED (sqIdx fn n) = true ∧ t.on F.HST_SQ_CFG_ENABLE (sqIdx fn n) = true ∧
      t.fv F.HST_SQ_CFG_SIZE_M1 (sqIdx fn n) = wField v F.HST_SQ_CFG_SIZE_M1 ∧
      t.fv F.HST_SQ_CFG_CQ (sqIdx fn n) = wField v F.HST_SQ_CFG_CQ ∧ t.reg .HST_SQ_PTR (sqIdx fn n) = 0 ∧
      t.ring (sqKey fn n) = { door := (s.ring (sqKey fn n)).door } ∧ (∀ k, k ≠ sqKey fn n → t.ring k = s.ring k) ∧
      Only [.regs, .hst, .latches] s t ∧ OnlyRegs [(.HST_SQ_CFG, sqIdx fn n), (.HST_SQ_PTR, sqIdx fn n)] s t := by
  have hwsize := wField_or_enableBit v (f := F.HST_SQ_CFG_SIZE_M1) (by decide)
  have hwcq := wField_or_enableBit v (f := F.HST_SQ_CFG_CQ) (by decide)
  obtain ⟨hon, hon', hs, hc, hptr, hring, hother, honly, hregs⟩ :=
    sqEnabled_spec (s.unlatch .HST_SQ_CFG (sqIdx fn n)) fn n (v ||| enableBit)
  have honly' := only_mono (qs := [.regs, .hst, .latches]) (only_of_unlatch honly) (by simp)
  refine answers_ringEnable ((hostRingCfg_sq hrn hreach hp _).trans (writeSqCfg_enabled (getLsbD_or_enableBit v) hen ?_ ?_))
    (only_mono honly' (by simp)) ⟨hon, hon', hs.trans hwsize, hc.trans hwcq, hptr, hring, hother, honly', hregs⟩
  · rw [hwsize]; exact hsize
  · rw [hwcq]; exact hcq

/-- A ring that may not be enabled: the error's code tells why. -/
theorem ringEnable_sq_refused (hrn : r.val = n.val) (hreach : s.hostReaches = true) (hp : Permits s (fnAgent fn) .HST_SQ_CFG (sqIdx fn n))
    (hen : s.on F.HST_SQ_CFG_ENABLED (sqIdx fn n) = false)
    (hbad : sizeOk (wField v F.HST_SQ_CFG_SIZE_M1) = false ∨
      s.on F.HST_CQ_CFG_ENABLED (64 * fn.val + wField v F.HST_SQ_CFG_CQ) = false)
    (hvalid : s.on F.HST_FN_ERR_VALID fn = false) :
    Answers (.ringEnable fn r v) s fun t => t.on F.HST_SQ_CFG_ENABLED (sqIdx fn n) = false ∧
      t.fv F.HST_FN_ERR_CODE fn = (if sizeOk (wField v F.HST_SQ_CFG_SIZE_M1) then 6 else 5) ∧ t.fv F.HST_FN_ERR_RING fn = n.val ∧
      t.hst.rings = s.hst.rings := by
  have hwsize := wField_or_enableBit v (f := F.HST_SQ_CFG_SIZE_M1) (by decide)
  have hwcq := wField_or_enableBit v (f := F.HST_SQ_CFG_CQ) (by decide)
  have hwrite : (s.unlatch .HST_SQ_CFG (sqIdx fn n)).writeSqCfg fn n fullMask (v ||| enableBit) =
      (sqWritten (s.unlatch .HST_SQ_CFG (sqIdx fn n)) (sqIdx fn n) (v ||| enableBit)).ringError fn n
        (if sizeOk (wField v F.HST_SQ_CFG_SIZE_M1) then 6 else 5) := by
    cases hsize : sizeOk (wField v F.HST_SQ_CFG_SIZE_M1) with
    | false => exact writeSqCfg_badSize (getLsbD_or_enableBit v) hen (by rw [hwsize]; exact hsize)
    | true =>
      refine writeSqCfg_unbound (getLsbD_or_enableBit v) hen (by rw [hwsize]; exact hsize) ?_
      rw [hwcq]
      exact hbad.resolve_left (by rw [hsize]; decide)
  have hvalid' : (sqWritten (s.unlatch .HST_SQ_CFG (sqIdx fn n)) (sqIdx fn n) (v ||| enableBit)).on F.HST_FN_ERR_VALID fn = false := by
    rw [State.on, fv_sqWritten_other (sqIdx_lt fn n) (fn_lt fn) (by decide)]; exact hvalid
  obtain ⟨hcode, hring⟩ := ringError_fields _ fn (ring := n.val) (code := if sizeOk (wField v F.HST_SQ_CFG_SIZE_M1) then 6 else 5)
    (by omega) (by split <;> decide) hvalid'
  refine answers_ringEnable ((hostRingCfg_sq hrn hreach hp _).trans hwrite) (by simp) ⟨?_, hcode, hring, ?_⟩
  · rw [State.on, fv_ringError _ _ _ (sqIdx_lt fn n) (by decide), fv_sqWritten_enabled]; exact hen
  · rw [rings_ringError, hst_sqWritten]; rfl

/-- ENABLE = 1 for a ring in service keeps what only a ring out of service takes. -/
theorem ringEnable_sq_again (hrn : r.val = n.val) (hreach : s.hostReaches = true) (hp : Permits s (fnAgent fn) .HST_SQ_CFG (sqIdx fn n))
    (hen : s.on F.HST_SQ_CFG_ENABLED (sqIdx fn n) = true) :
    Answers (.ringEnable fn r v) s fun t => t.on F.HST_SQ_CFG_ENABLED (sqIdx fn n) = true ∧
      t.fv F.HST_SQ_CFG_SIZE_M1 (sqIdx fn n) = s.fv F.HST_SQ_CFG_SIZE_M1 (sqIdx fn n) ∧
      t.fv F.HST_SQ_CFG_CQ (sqIdx fn n) = s.fv F.HST_SQ_CFG_CQ (sqIdx fn n) ∧
      t.reg .HST_SQ_PTR (sqIdx fn n) = s.reg .HST_SQ_PTR (sqIdx fn n) ∧ t.hst = s.hst := by
  have hi := sqIdx_lt fn n
  refine answers_ringEnable ((hostRingCfg_sq hrn hreach hp _).trans (writeSqCfg_kept (getLsbD_or_enableBit v) hen)) (by simp [sqKept])
    ⟨?_, fv_sqKept_size hi, fv_sqKept_cq _, ?_, hst_sqKept _⟩
  · rw [State.on, fv_sqKept_enabled hi]; exact hen
  · exact (onlyRegs_sqKept hi (by simp)).mpr (onlyRegs_refl [(.HST_SQ_CFG, sqIdx fn n)] _) .HST_SQ_PTR _ hi (by simp)

/-- A ring with no command waiting for its start, disabled. -/
theorem ringDisable_sq_idle (hrn : r.val = n.val) (hreach : s.hostReaches = true) (hp : Permits s (fnAgent fn) .HST_SQ_CFG (sqIdx fn n))
    (hen : s.on F.HST_SQ_CFG_ENABLED (sqIdx fn n) = true) (hnil : s.unstarted (ofRing fn n) = []) :
    Answers (.ringDisable fn r v) s fun t => t.on F.HST_SQ_CFG_ENABLE (sqIdx fn n) = false ∧ t.hst.accepted = s.hst.accepted ∧
      (((s.ring (sqKey fn n)).owed = [] → t.on F.HST_SQ_CFG_ENABLED (sqIdx fn n) = false) ∧
        ((s.ring (sqKey fn n)).owed ≠ [] → t.on F.HST_SQ_CFG_ENABLED (sqIdx fn n) = true ∧ (t.ring (sqKey fn n)).draining = true ∧
          (t.ring (sqKey fn n)).owed = (s.ring (sqKey fn n)).owed)) ∧
      Only [.regs, .hst, .latches] s t ∧ OnlyRegs [(.HST_SQ_CFG, sqIdx fn n)] s t := by
  have hnil' : (s.unlatch .HST_SQ_CFG (sqIdx fn n)).unstarted (ofRing fn n) = [] := hnil
  obtain ⟨henable, hacc, howed, honly, hregs⟩ :=
    sqFallen_spec (s := s.unlatch .HST_SQ_CFG (sqIdx fn n)) (v := v &&& belowEnable) hnil' hen
  have honly' := only_mono (qs := [.regs, .hst, .latches]) (only_of_unlatch honly) (by simp)
  exact answers_ringDisable ((hostRingCfg_sq hrn hreach hp _).trans
    ((writeSqCfg_off (s := s.unlatch .HST_SQ_CFG (sqIdx fn n)) (getLsbD_and_belowEnable v) hen).trans (sqDisabled_of_nil hnil')))
    (only_mono honly' (by simp)) ⟨henable, hacc, howed, honly', hregs⟩

/-- None of a disabled ring's commands that has not started is left. -/
theorem ringDisable_sq_lists (hrn : r.val = n.val) (hreach : s.hostReaches = true) (hp : Permits s (fnAgent fn) .HST_SQ_CFG (sqIdx fn n))
    (hen : s.on F.HST_SQ_CFG_ENABLED (sqIdx fn n) = true) :
    Answers (.ringDisable fn r v) s fun t =>
      (∀ a ∈ t.hst.accepted, a ∈ s.hst.accepted ∧ a.cmd.src ≠ .sq fn n) ∧
      (∀ a ∈ s.hst.accepted, a.cmd.src ≠ .sq fn n → hostForm a.desc = false → a ∈ t.hst.accepted) ∧
      t.store.waiting = s.store.waiting.filter (fun x => !decide (x.cmd.src = .sq fn n)) ∧
      (∀ l ∈ t.hst.loads, l ∈ s.hst.loads ∧ (l.reading = none → l.cmd.src ≠ .sq fn n)) := by
  refine answers_ringDisable ((hostRingCfg_sq hrn hreach hp _).trans (writeSqCfg_off (getLsbD_and_belowEnable v) hen)) ?_
    (sqDisabled_lists (s := s.unlatch .HST_SQ_CFG (sqIdx fn n)) _)
  exact only_mono (only_of_unlatch (only_trans only_sqAborted (only_loadsAborted _))) (by simp)

end Submission

/-! ## Completion rings and event rings -/

section Written

variable {s : State} {fn : Fin 8} {r : Fin 129} {v : DWord}

/-- The state in which the write of a ring's CFG register is judged: the register's read latch is released (R7). -/
abbrev released (s : State) (fn : Fin 8) (r : Nat) : State := s.unlatch (ringCfg fn r).1 (ringCfg fn r).2

theorem wRingOf_fst (fn : Fin 8) (r : Nat) : (wRingOf fn r).1 = fn := by unfold wRingOf; split <;> rfl

/-- ENABLE = 1 for a ring out of service. -/
theorem ringEnable_w (h64 : 64 ≤ r.val) (hreach : s.hostReaches = true) (hp : Permits s (fnAgent fn) (ringCfg fn r).1 (ringCfg fn r).2)
    (hen : ¬ WEnabled s (wRingOf fn r)) (hsize : sizeOk (wField v F.HST_CQ_CFG_SIZE_M1) = true)
    (hback : (wRingOf fn r).2 = none → (s.hst.fns[fn]).backlog = []) :
    Answers (.ringEnable fn r v) s fun t => WEnabled t (wRingOf fn r) ∧ t.wSize (wRingOf fn r) = wField v F.HST_CQ_CFG_SIZE_M1 + 1 ∧
      t.wfv (wRingOf fn r) F.HST_CQ_PTR_INDEX F.HST_EQ_PTR_INDEX = 0 ∧ t.wfv (wRingOf fn r) F.HST_CQ_PTR_PHASE F.HST_EQ_PTR_PHASE = 1 ∧
      toCome t (wRingOf fn r) = [] ∧ Only [.regs, .hst, .latches] s t := by
  have hback' : (wRingOf fn r).2 = none → ((released s fn r).hst.fns[(wRingOf fn r).1]).backlog = [] :=
    fun h => (congrArg (fun g : Fin 8 => (s.hst.fns[g]).backlog) (wRingOf_fst fn r)).trans (hback h)
  have hwsize := wField_or_enableBit v (f := F.HST_CQ_CFG_SIZE_M1) (by decide)
  obtain ⟨hon, hsz, hidx, hph, -, -, honly⟩ := wEnabled_spec (released s fn r) (wRingOf fn r) (v ||| enableBit)
  have honly' := only_mono (qs := [.regs, .hst, .latches]) (only_of_unlatch honly) (by simp)
  refine answers_ringEnable ((hostRingCfg_w h64 hreach hp _).trans ((writeWCfg_on (s := released s fn r) (getLsbD_or_enableBit v) hen).trans
    ((if_neg ?_).trans (wDrain_of_nil (wWaiting_wEnabled hback'))))) (only_mono honly' (by simp))
    ⟨hon, hsz.trans (by rw [hwsize]), hidx, hph, toCome_wEnabled hback', honly'⟩
  rw [wfv_wWritten_size, hwsize]
  exact not_not_intro hsize

/-- A SIZE that is no power of two. -/
theorem ringEnable_w_badSize (h64 : 64 ≤ r.val) (hreach : s.hostReaches = true)
    (hp : Permits s (fnAgent fn) (ringCfg fn r).1 (ringCfg fn r).2) (hen : ¬ WEnabled s (wRingOf fn r))
    (hsize : sizeOk (wField v F.HST_CQ_CFG_SIZE_M1) = false) (hvalid : s.on F.HST_FN_ERR_VALID fn = false) :
    Answers (.ringEnable fn r v) s fun t => ¬ WEnabled t (wRingOf fn r) ∧ t.fv F.HST_FN_ERR_CODE fn = 5 ∧
      t.fv F.HST_FN_ERR_RING fn = (wRingOf fn r).code := by
  have hwsize := wField_or_enableBit v (f := F.HST_CQ_CFG_SIZE_M1) (by decide)
  have hvalid' : (wWritten (released s fn r) (wRingOf fn r) (v ||| enableBit)).on F.HST_FN_ERR_VALID fn = false := by
    rw [State.on, fv_wWritten_other (fn_lt fn) (by decide) (by decide)]; exact hvalid
  obtain ⟨hcode, hring⟩ := ringError_fields _ fn (code := 5) (wRing_code_lt (wRingOf fn r)) (by decide) hvalid'
  refine answers_ringEnable (u := State.ringError _ fn _ 5) ((hostRingCfg_w h64 hreach hp _).trans
    ((writeWCfg_on (s := released s fn r) (getLsbD_or_enableBit v) hen).trans ((if_pos ?_).trans (by rw [wRingOf_fst])))) ?_ ⟨?_, hcode, hring⟩
  · rw [wfv_wWritten_size, hwsize, hsize]; exact Bool.false_ne_true
  · rw [only_ringError (by simp) (by simp) (by simp)]
    exact only_mono (only_of_unlatch only_wWritten) (by simp)
  · rw [WEnabled, wfv_ringError _ _ _ (by decide) (by decide), wfv_wWritten_enabled]; exact hen

/-- A completion ring that is bound to stays in service. -/
theorem ringDisable_w_bound (h64 : 64 ≤ r.val) (hreach : s.hostReaches = true)
    (hp : Permits s (fnAgent fn) (ringCfg fn r).1 (ringCfg fn r).2) (hen : WEnabled s (wRingOf fn r)) (hb : WBound s (wRingOf fn r)) :
    Answers (.ringDisable fn r v) s fun t => WEnabled t (wRingOf fn r) ∧ t.hst.rings = s.hst.rings ∧
      (s.on F.HST_FN_ERR_VALID fn = false → t.fv F.HST_FN_ERR_CODE fn = 7) := by
  refine answers_ringDisable (u := (released s fn r).ringError fn _ 7) ((hostRingCfg_w h64 hreach hp _).trans
    ((writeWCfg_bound (s := released s fn r) (getLsbD_and_belowEnable v) hen hb).trans (by rw [wRingOf_fst])))
    (by simp) ⟨?_, rings_ringError .., fun hvalid => ?_⟩
  · rw [WEnabled, wfv_ringError _ _ _ (by decide) (by decide)]; exact hen
  · exact (ringError_fields (released s fn r) fn (wRing_code_lt _) (by decide) hvalid).1

/-- Any other ring the module writes leaves service, its entries dropped. -/
theorem ringDisable_w (h64 : 64 ≤ r.val) (hreach : s.hostReaches = true)
    (hp : Permits s (fnAgent fn) (ringCfg fn r).1 (ringCfg fn r).2) (hb : ¬ WBound s (wRingOf fn r)) :
    Answers (.ringDisable fn r v) s fun t => t.wfv (wRingOf fn r) F.HST_CQ_CFG_ENABLED F.HST_EQ_CFG_ENABLED = 0 ∧
      (t.ring (wRingOf fn r).key).slots = [] ∧ (t.ring (wRingOf fn r).key).waiting = [] ∧ Only [.regs, .hst, .latches] s t := by
  have hwrite := writeWCfg_off (s := released s fn r) (getLsbD_and_belowEnable v) hb
  obtain ⟨hoff, hslots, hwaiting, honly⟩ := wDisabled_spec (if WEnabled (released s fn r) (wRingOf fn r) then
    wKept (released s fn r) (wRingOf fn r) (v &&& belowEnable)
    else wWritten (released s fn r) (wRingOf fn r) (v &&& belowEnable)) (wRingOf fn r)
  have honly' := only_mono (qs := [.regs, .hst, .latches]) (only_of_unlatch (only_trans only_wTaken honly)) (by simp)
  exact answers_ringDisable ((hostRingCfg_w h64 hreach hp _).trans hwrite) (only_mono honly' (by simp)) ⟨hoff, hslots, hwaiting, honly'⟩

end Written

end Sys2Proof.Proofs
end

section
/-!
SUPPORT. Descriptors: what reading one from its slot does, and the reading of several in order (R246, R249, R251, R254, R256, R258).
-/

namespace Sys2Proof.Proofs

open Sys2Proof.Machine Sys2Proof.Claims

/-! ## Completions and the fields they leave -/

section Complete

variable {s : State}

theorem fv_complete (c : CmdRef) (st result : Nat) (data : List Byte) {f : Fld} {i : Nat} (hi : i < 1024) (hf : Unposted f) :
    (s.complete c st result data).fv f i = s.fv f i := by
  unfold State.complete
  dsimp only
  split
  · rfl
  · split
    · split
      · exact fv_wPost _ _ hi hf
      · rfl
    · split
      · rfl
      · rw [fv_capsule, fv_setSession]

/-! ## Acceptance (R249) -/

theorem accept_cmd (src : Src) (fn : Fin 8) (d : Desc) (bell : DWord) : (s.accept src fn d bell).1.src = src ∧
    (s.accept src fn d bell).1.cmdId = d.cmdId ∧ (s.accept src fn d bell).1.bell = bell := ⟨rfl, rfl, rfl⟩

/-- The state in which an acceptance is counted, and its QUEUE_WAIT taken from the free values. -/
def countedIn (s : State) : State := { s.used with hst := { s.hst with accCount := s.hst.accCount + 1 } }

/-- The same with a load of the host form noted for its function. -/
def loadNoted (s : State) (src : Src) (fn : Fin 8) (d : Desc) : State :=
  if hostForm d then
    (countedIn s).modFn fn fun f =>
      { f with loadAccs := f.loadAccs.filter (fun e => (countedIn s).owes e.1 e.2) ++ [(src, s.hst.accCount + 1)] }
  else countedIn s

variable (s) (fn : Fin 8) (n : Fin 64) (d : Desc) (bell : DWord)

/-- A ring's descriptor that is accepted: the ring owes its completion. -/
theorem accept_sq : (s.accept (.sq fn n) fn d bell).2 =
    (loadNoted s (.sq fn n) fn d).setRing (sqKey fn n)
      { (loadNoted s (.sq fn n) fn d).ring (sqKey fn n) with
        owed := ((loadNoted s (.sq fn n) fn d).ring (sqKey fn n)).owed ++ [s.hst.accCount + 1] } := rfl

theorem only_countedIn : Only [.hst, .free] s (countedIn s) :=
  only_trans ((only_used (by simp)).mpr (only_refl _ _)) (only_hst (by simp) _)

theorem only_loadNoted (src : Src) : Only [.hst, .free] s (loadNoted s src fn d) := by
  unfold loadNoted
  split
  · exact (only_modFn (by simp) _ _).mpr (only_countedIn s)
  · exact only_countedIn s

theorem lists_loadNoted (src : Src) : lists (loadNoted s src fn d) = lists s := by
  unfold loadNoted
  split <;> rfl

theorem ring_loadNoted (src : Src) (k : Nat) : (loadNoted s src fn d).ring k = s.ring k := by
  unfold loadNoted
  split <;> rfl

theorem only_accept_sq : Only [.hst, .free] s (s.accept (.sq fn n) fn d bell).2 := by
  rw [accept_sq, only_setRing (by simp)]
  exact only_loadNoted ..

theorem lists_accept_sq : lists (s.accept (.sq fn n) fn d bell).2 = lists s := by
  rw [accept_sq, lists_setRing, lists_loadNoted]

theorem bells_accept_sq : ((s.accept (.sq fn n) fn d bell).2.ring (sqKey fn n)).bells = (s.ring (sqKey fn n)).bells := by
  rw [accept_sq, ring_setRing_same, ring_loadNoted]

/-! ## Taking a descriptor -/

/-- The parts that the reading of descriptors may change. -/
abbrev fetchParts : List Part := [.regs, .hst, .out, .free]

theorem only_take_sq : Only fetchParts s (s.take (.sq fn n) fn d bell []) := by
  have hacc : Only fetchParts s (s.accept (.sq fn n) fn d bell).2 := only_mono (only_accept_sq ..) (by simp)
  unfold State.take
  dsimp only
  split
  · rw [only_completeReason (by simp) (by simp) (by simp) (by simp)]
    exact hacc
  · split
    · rw [only_completeOpen (by simp) (by simp) (by simp) (by simp)]
      exact hacc
    · exact only_trans hacc (only_hst (by simp) _)

theorem fv_take_sq {f : Fld} {i : Nat} (hi : i < 1024) (hf : Unposted f) :
    (s.take (.sq fn n) fn d bell []).fv f i = s.fv f i := by
  have hacc : (s.accept (.sq fn n) fn d bell).2.fv f i = s.fv f i := by
    obtain ⟨-, -, -, -, hp⟩ := only_accept_sq s fn n d bell
    exact fv_congr (hp .regs (by simp)) f i
  unfold State.take
  dsimp only
  split
  · exact (fv_complete _ _ _ _ hi hf).trans hacc
  · split
    · exact (fv_complete _ _ _ _ hi hf).trans hacc
    · exact hacc

/-- A descriptor that is not refused waits for its start. -/
theorem take_sq_waits {s : State} (hop : opcodes.contains d.opcode.toNat = true) (hdrain : s.pwr.drain = none) :
    s.take (.sq fn n) fn d bell [] =
      { (s.accept (.sq fn n) fn d bell).2 with
        hst := { (s.accept (.sq fn n) fn d bell).2.hst with
          accepted := (s.accept (.sq fn n) fn d bell).2.hst.accepted ++ [⟨(s.accept (.sq fn n) fn d bell).1, d, []⟩] } } := by
  unfold State.take
  dsimp only
  exact (if_neg (not_not_intro hop)).trans (if_neg (by rw [hdrain]; exact Bool.false_ne_true))

end Complete
end Sys2Proof.Proofs
end

section
/-!
SUPPORT. DESCRIPTOR_FETCH: the descriptors of a ring in service, one after another (R246, R249, R251, R254, R256, R258).
-/

namespace Sys2Proof.Proofs

open Sys2Proof.Machine Sys2Proof.Claims

section Fetch

variable {s t u : State} {fn : Fin 8} {n : Fin 64} {w : BitVec 512}

/-- The slot `j` places behind `head` in a ring of `size` slots. -/
def fetchSlot (head size j : Nat) : Nat := if j = 0 then head else (head + j) % size

theorem fetchSlot_add (head size j k : Nat) : fetchSlot (fetchSlot head size j) size k = fetchSlot head size (j + k) := by
  unfold fetchSlot
  by_cases hj : j = 0
  · simp [hj]
  · by_cases hk : k = 0
    · simp [hk]
    · rw [if_neg hj, if_neg hk, if_neg (by omega), Nat.mod_add_mod, Nat.add_assoc]

/-- The size of a submission ring, its head's slot, and the address that its slots count from. -/
def sqSize (s : State) (fn : Fin 8) (n : Fin 64) : Nat := s.fv F.HST_SQ_CFG_SIZE_M1 (sqIdx fn n) + 1
def sqHead (s : State) (fn : Fin 8) (n : Fin 64) : Nat := s.fv F.HST_SQ_PTR_INDEX (sqIdx fn n)
def sqBase (s : State) (fn : Fin 8) (n : Fin 64) : Nat := s.fv F.HST_SQ_BASE_BASE (sqIdx fn n)

/-- The head's descriptor is read: HEAD moves on, and its doorbell's time is used. -/
def headRead (s : State) (fn : Fin 8) (n : Fin 64) : State :=
  ((s.emit (.hostRead fn (slotAddr (sqBase s fn n) 64 (sqHead s fn n)) 64)).setRing (sqKey fn n)
    { s.ring (sqKey fn n) with bells := (s.ring (sqKey fn n)).bells.drop 1 }).fset F.HST_SQ_PTR_INDEX
      ((sqHead s fn n + 1) % sqSize s fn n) (sqIdx fn n)

theorem fetchOne_eq (s : State) (fn : Fin 8) (n : Fin 64) (w : BitVec 512) :
    s.fetchOne fn n w =
      (headRead s fn n).take (.sq fn n) fn (descOf w) ((s.ring (sqKey fn n)).bells.headD s.devTime) [] := rfl

theorem sqHead_headRead (s : State) (fn : Fin 8) (n : Fin 64) : sqHead (headRead s fn n) fn n = fetchSlot (sqHead s fn n) (sqSize s fn n) 1 := by
  have hsize : sqSize s fn n ≤ 65536 := fv_lt s F.HST_SQ_CFG_SIZE_M1 (sqIdx fn n)
  have hlt : (sqHead s fn n + 1) % sqSize s fn n < sqSize s fn n := Nat.mod_lt _ (Nat.succ_pos _)
  rw [sqHead, headRead, fv_fset_same _ _ _ _ (by decide), fetchSlot, if_neg Nat.one_ne_zero]
  exact Nat.mod_eq_of_lt (lt_of_lt_of_le hlt hsize)

/-- The registers that tell where a ring's descriptors lie. -/
theorem fv_headRead {f : Fld} {i : Nat} (hi : i < 1024) (hf : Apart F.HST_SQ_PTR_INDEX f) : (headRead s fn n).fv f i = s.fv f i := by
  rw [headRead, fv_fset_apart _ _ (sqIdx_lt fn n) hi hf, fv_setRing, fv_emit]

theorem only_headRead : Only fetchParts s (headRead s fn n) := by simp [headRead]

/-! ## Whatever the descriptors say -/

theorem only_fetchOne (w : BitVec 512) : Only fetchParts s (s.fetchOne fn n w) :=
  only_trans only_headRead (only_take_sq ..)

theorem sqSize_fetchOne (w : BitVec 512) : sqSize (s.fetchOne fn n w) fn n = sqSize s fn n := by
  have hi := sqIdx_lt fn n
  rw [sqSize, sqSize, fetchOne_eq, fv_take_sq _ _ _ _ _ hi (by decide), fv_headRead hi (by decide)]

theorem sqHead_fetchOne (w : BitVec 512) : sqHead (s.fetchOne fn n w) fn n = fetchSlot (sqHead s fn n) (sqSize s fn n) 1 := by
  rw [sqHead, fetchOne_eq, fv_take_sq _ _ _ _ _ (sqIdx_lt fn n) (by decide)]
  exact sqHead_headRead s fn n

theorem only_fetches (ds : List (BitVec 512)) : Only fetchParts s (ds.foldl (fun s d => s.fetchOne fn n d) s) :=
  foldl_keeps (p := fun t => Only fetchParts s t) _ _ (fun _ d ht => only_trans ht (only_fetchOne d)) _ (only_refl _ _)

/-- HEAD moves past the descriptors that are read. -/
theorem sqHead_fetches (ds : List (BitVec 512)) (s : State) :
    sqHead (ds.foldl (fun s d => s.fetchOne fn n d) s) fn n = fetchSlot (sqHead s fn n) (sqSize s fn n) ds.length := by
  induction ds generalizing s with
  | nil => rfl
  | cons d ds ih =>
    rw [List.foldl_cons, ih, sqHead_fetchOne, sqSize_fetchOne, fetchSlot_add, List.length_cons, Nat.add_comm]

/-! ## Descriptors that are not refused -/

/-- What an accepted command shows of its descriptor. -/
def shown (a : Accepted) : Src × BitVec 32 × Desc × DWord := (a.cmd.src, a.cmd.cmdId, a.desc, a.cmd.bell)

/-- The state `t` follows `s` by the reading of `ds`, none of which is refused: the commands wait in order, each with the time of its
doorbell, and each is read from its slot. -/
structure Fetched (fn : Fin 8) (n : Fin 64) (ds : List (BitVec 512)) (s t : State) : Prop where
  accepted : t.hst.accepted.map shown = s.hst.accepted.map shown ++
    ds.zipIdx.map fun d => (.sq fn n, d.1.extractLsb' 32 32, descOf d.1, (s.ring (sqKey fn n)).bells.getD d.2 s.devTime)
  out : t.out = ((List.range ds.length).map fun j => Out.hostRead fn
    (slotAddr (sqBase s fn n) 64 (fetchSlot (sqHead s fn n) (sqSize s fn n) j)) 64).reverse ++ s.out
  bells : (t.ring (sqKey fn n)).bells = (s.ring (sqKey fn n)).bells.drop ds.length
  head : sqHead t fn n = fetchSlot (sqHead s fn n) (sqSize s fn n) ds.length
  frame : Only fetchParts s t
  regs : OnlyRegs [(.HST_SQ_PTR, sqIdx fn n)] s t

theorem fetched_nil (s : State) : Fetched fn n [] s s :=
  ⟨by simp, by simp, by simp, rfl, only_refl _ _, onlyRegs_refl _ _⟩

/-- A field of another register is left. -/
theorem Fetched.fv_other {ds : List (BitVec 512)} (h : Fetched fn n ds s t) {f : Fld} {i : Nat} (hi : i < 1024) (hf : f.reg ≠ .HST_SQ_PTR) :
    t.fv f i = s.fv f i := by
  rw [State.fv, h.regs f.reg i hi (by simp [hf])]
  rfl

/-- The reading of one descriptor and then of others. -/
theorem fetched_cons {ds : List (BitVec 512)} (h : Fetched fn n [w] s u) (k : Fetched fn n ds u t) : Fetched fn n (w :: ds) s t := by
  have hi := sqIdx_lt fn n
  have hsize : sqSize u fn n = sqSize s fn n := by rw [sqSize, sqSize, h.fv_other hi (by decide)]
  have hbase : sqBase u fn n = sqBase s fn n := h.fv_other hi (by decide)
  have hhead : ∀ j, fetchSlot (sqHead u fn n) (sqSize u fn n) j = fetchSlot (sqHead s fn n) (sqSize s fn n) (j + 1) := fun j => by
    rw [hsize, h.head, fetchSlot_add, List.length_singleton, Nat.add_comm]
  obtain ⟨-, -, hdev, -, -⟩ := h.frame
  refine ⟨?_, ?_, ?_, ?_, only_trans h.frame k.frame, onlyRegs_trans h.regs k.regs⟩
  · rw [k.accepted, h.accepted, h.bells, hdev, List.zipIdx_cons]
    have hshift : ds.zipIdx 1 = ds.zipIdx.map fun d => (d.1, d.2 + 1) := List.zipIdx_succ
    simp [hshift, Function.comp_def]
  · rw [k.out, h.out, hbase]
    simp only [hhead]
    simp [List.range_succ_eq_map, Function.comp_def, fetchSlot]
  · rw [k.bells, h.bells, List.drop_drop]
    simp [Nat.add_comm]
  · rw [k.head, hhead]
    rfl

/-- The time of the head's doorbell, and the head's descriptor as it is accepted. -/
def headBell (s : State) (fn : Fin 8) (n : Fin 64) : DWord := (s.ring (sqKey fn n)).bells.headD s.devTime
def headAccepted (s : State) (fn : Fin 8) (n : Fin 64) (w : BitVec 512) : CmdRef × State :=
  (headRead s fn n).accept (.sq fn n) fn (descOf w) (headBell s fn n)

/-- A descriptor that is not refused joins the commands that wait. -/
theorem fetchOne_waits (hop : opcodes.contains (w.extractLsb' 0 8).toNat = true) (hdrain : s.pwr.drain = none) :
    s.fetchOne fn n w = { (headAccepted s fn n w).2 with
      hst := { (headAccepted s fn n w).2.hst with
        accepted := (headAccepted s fn n w).2.hst.accepted ++ [⟨(headAccepted s fn n w).1, descOf w, []⟩] } } :=
  (fetchOne_eq ..).trans (take_sq_waits fn n (descOf w) _ hop hdrain)

/-- What acceptance leaves of the state in which the head is read. -/
theorem headAccepted_spec (s : State) (fn : Fin 8) (n : Fin 64) (w : BitVec 512) :
    (headAccepted s fn n w).2.hst.accepted = s.hst.accepted ∧ (headAccepted s fn n w).2.regs = (headRead s fn n).regs ∧
      (headAccepted s fn n w).2.out = (headRead s fn n).out ∧
      ((headAccepted s fn n w).2.ring (sqKey fn n)).bells = (s.ring (sqKey fn n)).bells.drop 1 := by
  obtain ⟨-, -, -, -, hp⟩ := only_accept_sq (headRead s fn n) fn n (descOf w) (headBell s fn n)
  refine ⟨congrArg Prod.fst (lists_accept_sq (headRead s fn n) fn n (descOf w) (headBell s fn n)), hp .regs (by simp),
    hp .out (by simp), ?_⟩
  rw [headAccepted, bells_accept_sq, headRead, ring_fset, ring_setRing_same]

/-- The reading of one descriptor that is not refused. -/
theorem fetched_one (hop : opcodes.contains (w.extractLsb' 0 8).toNat = true) (hdrain : s.pwr.drain = none) :
    Fetched fn n [w] s (s.fetchOne fn n w) := by
  obtain ⟨hacc, hregs, hout, hbells⟩ := headAccepted_spec s fn n w
  obtain ⟨hsrc, hid, hbell⟩ := accept_cmd (s := headRead s fn n) (.sq fn n) fn (descOf w) (headBell s fn n)
  refine ⟨?_, ?_, ?_, sqHead_fetchOne w, only_fetchOne w, ?_⟩ <;> rw [fetchOne_waits hop hdrain]
  · rw [hacc, List.map_append, List.map_singleton, shown, headAccepted, hsrc, hid, hbell]
    simp [headBell, descOf, List.headD_eq_head?_getD, List.head?_eq_getElem?]
  · simp [hout, headRead, fetchSlot]
  · exact hbells
  · refine onlyRegs_trans (t := headRead s fn n) ?_ (onlyRegs_of_regs_eq hregs)
    simp [headRead]

/-- The reading of descriptors none of which is refused. -/
theorem fetched_fetches (ds : List (BitVec 512)) (s : State) (hops : ∀ d ∈ ds, opcodes.contains (d.extractLsb' 0 8).toNat = true)
    (hdrain : s.pwr.drain = none) : Fetched fn n ds s (ds.foldl (fun s d => s.fetchOne fn n d) s) := by
  induction ds generalizing s with
  | nil => exact fetched_nil s
  | cons d ds ih =>
    have hone := fetched_one (fn := fn) (n := n) (hops d List.mem_cons_self) hdrain
    obtain ⟨-, -, -, -, hp⟩ := hone.frame
    have hpwr : (s.fetchOne fn n d).pwr = s.pwr := hp .pwr (by simp)
    exact fetched_cons hone (ih _ (fun x hx => hops x (List.mem_cons_of_mem _ hx)) (hpwr ▸ hdrain))

/-! ## The command -/

/-- The descriptors that are visible and not read, and the completion ring that takes the completions. -/
def sqAvail (s : State) (fn : Fin 8) (n : Fin 64) : Nat :=
  (s.fv F.HST_SQ_PTR_DB_INDEX (sqIdx fn n) + sqSize s fn n - sqHead s fn n) % sqSize s fn n
def sqCq (s : State) (fn : Fin 8) (n : Fin 64) : WRing := (fn, some (Fin.ofNat 64 (s.fv F.HST_SQ_CFG_CQ (sqIdx fn n))))

/-- The ring is in service, its completion ring has room, and descriptors are visible. -/
abbrev SqOpens (s : State) (fn : Fin 8) (n : Fin 64) : Prop :=
  s.hostReaches = true ∧ s.on F.HST_SQ_CFG_ENABLED (sqIdx fn n) = true ∧ s.on F.HST_SQ_CFG_ENABLE (sqIdx fn n) = true ∧
    (s.ring (sqKey fn n)).stopped = false ∧ s.wOpen (sqCq s fn n) = true ∧ (s.ring (sqCq s fn n).key).waiting = [] ∧
    sqAvail s fn n ≠ 0

/-- The ring that an error of host memory stops. -/
def sqStopped (s : State) (fn : Fin 8) (n : Fin 64) : State :=
  ((s.setRing (sqKey fn n) { s.ring (sqKey fn n) with stopped := true }).fset F.HST_SQ_CFG_ERR 1 (sqIdx fn n)).ringError fn n 3

/-- What keeps the module from reading the ring. -/
abbrev SqShut (s : State) (fn : Fin 8) (n : Fin 64) : Prop :=
  ¬ s.hostReaches = true ∨ ¬ s.on F.HST_SQ_CFG_ENABLED (sqIdx fn n) = true ∨ ¬ s.on F.HST_SQ_CFG_ENABLE (sqIdx fn n) = true ∨
    (s.ring (sqKey fn n)).stopped = true ∨ (!s.wOpen (sqCq s fn n) || !(s.ring (sqCq s fn n).key).waiting.isEmpty) = true ∨
    sqAvail s fn n = 0

theorem not_sqShut_iff (s : State) (fn : Fin 8) (n : Fin 64) : ¬ SqShut s fn n ↔ SqOpens s fn n := by
  simp only [SqShut, SqOpens, not_or, Bool.not_eq_true, Bool.not_eq_false, Bool.or_eq_false_iff, Bool.not_eq_false', List.isEmpty_iff, ne_eq,
    and_assoc]

/-- The descriptors that one command reads. -/
def fetches (s : State) (fn : Fin 8) (n : Fin 64) (ds : List (BitVec 512)) : State :=
  (ds.take (Nat.min (sqAvail s fn n) (s.fv F.HST_SQ_CFG_ARB (sqIdx fn n) + 1))).foldl (fun s d => s.fetchOne fn n d) s

theorem exec_descriptorFetch (s : State) (fn : Fin 8) (n : Fin 64) (ds : List (BitVec 512)) (e : Bool) :
    exec (.descriptorFetch fn n ds e) s = s.effect fun s =>
      if SqShut s fn n then s else if e then sqStopped s fn n else fetches s fn n ds := rfl

theorem descriptorFetch_shut (h : ¬ SqOpens s fn n) (ds : List (BitVec 512)) (e : Bool) : exec (.descriptorFetch fn n ds e) s = .next s :=
  exec_eq_self (exec_descriptorFetch ..) (if_pos (not_not.mp fun hs => h ((not_sqShut_iff ..).mp hs)))

/-- An error of host memory stops the ring with error 3. -/
theorem descriptorFetch_error (h : SqOpens s fn n) (ds : List (BitVec 512)) :
    Answers (.descriptorFetch fn n ds true) s fun t => (t.ring (sqKey fn n)).stopped = true ∧ t.on F.HST_SQ_CFG_ERR (sqIdx fn n) = true ∧
      sqHead t fn n = sqHead s fn n ∧ t.hst.accepted = s.hst.accepted ∧
      (s.on F.HST_FN_ERR_VALID fn = false → t.fv F.HST_FN_ERR_CODE fn = 3) ∧ Only [.regs, .hst, .out] s t := by
  have hi := sqIdx_lt fn n
  have honly : Only [.regs, .hst, .out] s (sqStopped s fn n) := by simp [sqStopped]
  refine answers_of_eq _ (exec_descriptorFetch ..) ((if_neg ((not_sqShut_iff ..).mpr h)).trans (if_pos rfl)) honly
    ⟨?_, ?_, ?_, ?_, fun hvalid => ?_, honly⟩ <;> unfold sqStopped
  · rw [ring_ringError, ring_fset, ring_setRing_same]
  · rw [State.on, fv_ringError _ _ _ hi (by decide), fv_fset_same _ _ _ _ (by decide)]
    rfl
  · rw [sqHead, fv_ringError _ _ _ hi (by decide), fv_fset_apart _ _ hi hi (by decide), fv_setRing]
    rfl
  · rw [accepted_ringError]
    rfl
  · refine (ringError_fields _ fn (by omega) (by decide) ?_).1
    rw [State.on, fv_fset_apart _ _ hi (fn_lt fn) (by decide), fv_setRing]
    exact hvalid

/-- The number of descriptors that one command reads. -/
theorem length_fetched (s : State) (fn : Fin 8) (n : Fin 64) (ds : List (BitVec 512)) :
    (ds.take (Nat.min (sqAvail s fn n) (s.fv F.HST_SQ_CFG_ARB (sqIdx fn n) + 1))).length =
      Nat.min ds.length (Nat.min (sqAvail s fn n) (s.fv F.HST_SQ_CFG_ARB (sqIdx fn n) + 1)) := by
  rw [List.length_take]
  exact Nat.min_comm _ _

/-- The descriptors read are those of the list's start, as many as there are. -/
theorem take_fetched (s : State) (fn : Fin 8) (n : Fin 64) (ds : List (BitVec 512)) :
    ds.take (Nat.min (sqAvail s fn n) (s.fv F.HST_SQ_CFG_ARB (sqIdx fn n) + 1)) =
      ds.take (Nat.min ds.length (Nat.min (sqAvail s fn n) (s.fv F.HST_SQ_CFG_ARB (sqIdx fn n) + 1))) := by
  rw [← length_fetched, List.length_take, List.take_eq_take_min, Nat.min_comm]

theorem descriptorFetch_reads (h : SqOpens s fn n) {ds : List (BitVec 512)} (hds : ds ≠ []) :
    let k := Nat.min ds.length (Nat.min (sqAvail s fn n) (s.fv F.HST_SQ_CFG_ARB (sqIdx fn n) + 1))
    Answers (.descriptorFetch fn n ds false) s fun t => sqHead t fn n = (sqHead s fn n + k) % sqSize s fn n ∧
      (s.pwr.drain = none → (∀ d ∈ ds, opcodes.contains (d.extractLsb' 0 8).toNat = true) → Fetched fn n (ds.take k) s t) ∧
      Only fetchParts s t := by
  intro k
  have hk : k ≠ 0 := by
    obtain ⟨-, -, -, -, -, -, havail⟩ := h
    exact (lt_min (List.length_pos_iff.mpr hds) (lt_min (Nat.pos_of_ne_zero havail) (Nat.succ_pos _))).ne'
  have hfetches : fetches s fn n ds = (ds.take k).foldl (fun s d => s.fetchOne fn n d) s := by rw [fetches, take_fetched]
  refine answers_of_eq fetchParts (exec_descriptorFetch ..)
    ((if_neg ((not_sqShut_iff ..).mpr h)).trans ((if_neg Bool.false_ne_true).trans hfetches)) (only_fetches _)
    ⟨?_, fun hdrain hops => fetched_fetches _ s (fun d hd => hops d (List.mem_of_mem_take hd)) hdrain, only_fetches _⟩
  rw [sqHead_fetches, fetchSlot, List.length_take, Nat.min_eq_left (Nat.min_le_left _ _), if_neg hk]

end Fetch
end Sys2Proof.Proofs
end

section
/-!
SUPPORT. Vectors: the coalescing time's end, the ring that an error of host memory stops, and the vectors' mask bits (R244, R252, R254).
-/

namespace Sys2Proof.Proofs

open Sys2Proof.Machine Sys2Proof.Claims

section Coalescing

variable {s : State} {w : WRing} {fn : Fin 8} {r : Fin 129}

theorem exec_coalesceTimeout (s : State) (fn : Fin 8) (r : Fin 129) (e : Bool) :
    exec (.coalesceTimeout fn (r, e)) s = s.effect fun s =>
      if r.val < 64 then s
      else if e then (if s.hostReaches then s.wStop (wRingOf fn r) else s)
      else if (s.ring (wRingOf fn r).key).timing then s.wVector (wRingOf fn r) else s := rfl

/-- No ring, no time running, or no reach: nothing happens. -/
theorem coalesceTimeout_idle {e : Bool} (h : r.val < 64 ∨ (e = false ∧ (s.ring (wRingOf fn r).key).timing = false) ∨
    (e = true ∧ s.hostReaches = false)) : exec (.coalesceTimeout fn (r, e)) s = .next s := by
  refine exec_eq_self (exec_coalesceTimeout ..) ?_
  rcases h with h | ⟨rfl, h⟩ | ⟨rfl, h⟩
  · exact if_pos h
  · split
    · rfl
    · simp [h]
  · split
    · rfl
    · simp [h]

/-- The ring's vector is sent, or left pending, and the count starts afresh. -/
theorem wVector_spec (s : State) (w : WRing) (hw : w.1 = fn) :
    let v := s.wfv w F.HST_CQ_CFG_VECTOR F.HST_EQ_CFG_VECTOR
    (s.wVector w).ring w.key = { s.ring w.key with pend := 0, timing := false } ∧
      (s.wVector w).out = (if (s.hst.fns[fn]).masked.getLsbD v then s.out else .msix fn v :: s.out) ∧
      Only [.hst, .out] s (s.wVector w) := by
  subst hw
  exact ⟨wVector_ring_self w, out_sendVector _ _, by simp⟩

theorem coalesceTimeout_vector (h64 : 64 ≤ r.val) (htiming : (s.ring (wRingOf fn r).key).timing = true) :
    Answers (.coalesceTimeout fn (r, false)) s (· = s.wVector (wRingOf fn r)) := by
  refine answers_of_eq [.hst, .out] (exec_coalesceTimeout ..) ?_ (by simp) rfl
  rw [if_neg (by omega), if_neg Bool.false_ne_true, if_pos htiming]

/-- A ring that an error of host memory stops takes no more entries. -/
theorem wStop_spec (hw : w.1 = fn) (hen : s.wfv w F.HST_CQ_CFG_ENABLED F.HST_EQ_CFG_ENABLED ≠ 0) :
    let t := s.wStop w
    (t.ring w.key).stopped = true ∧ t.wfv w F.HST_CQ_CFG_ERR F.HST_EQ_CFG_ERR = 1 ∧
      (t.ring w.key).slots = (s.ring w.key).slots ∧ t.wOpen w = false ∧
      (s.on F.HST_FN_ERR_VALID fn = false → t.fv F.HST_FN_ERR_CODE fn = 3 ∧ t.fv F.HST_FN_ERR_RING fn = w.code) ∧
      Only [.regs, .hst, .out] s t := by
  subst hw
  have hring : (s.wStop w).ring w.key = { s.ring w.key with stopped := true } := by
    rw [State.wStop, if_neg hen, ring_ringError, ring_wset, ring_setRing_same]
  refine ⟨by rw [hring], ?_, by rw [hring], ?_, fun hvalid => ?_, ?_⟩
  · rw [State.wStop, if_neg hen, wfv_ringError _ _ _ (by decide) (by decide),
      wfv_wset_same (c := F.HST_CQ_CFG_ERR) (e := F.HST_EQ_CFG_ERR) _ _ _ (by decide) (by decide) rfl]
    rfl
  · rw [State.wOpen, hring]
    simp
  · rw [State.wStop, if_neg hen]
    refine ringError_fields _ w.1 (wRing_code_lt w) (by decide) ?_
    rw [State.on, fv_wset_apart _ _ _ (fn_lt w.1) (by decide) (by decide)]
    exact hvalid
  · rw [State.wStop, if_neg hen]
    simp

theorem coalesceTimeout_stop (h64 : 64 ≤ r.val) (hreach : s.hostReaches = true)
    (hen : s.wfv (wRingOf fn r) F.HST_CQ_CFG_ENABLED F.HST_EQ_CFG_ENABLED ≠ 0) :
    Answers (.coalesceTimeout fn (r, true)) s (· = s.wStop (wRingOf fn r)) := by
  obtain ⟨-, -, -, -, -, honly⟩ := wStop_spec (wRingOf_fst fn r) hen
  refine answers_of_eq [.regs, .hst, .out] (exec_coalesceTimeout ..) ?_ honly rfl
  rw [if_neg (by omega), if_pos rfl, if_pos hreach]

end Coalescing

/-! ## The tables of a function's vectors (R244; log 50) -/

section Masks

variable {s : State} {fn : Fin 8}

/-- The registers that repeat with the functions' pages. -/
def pageRegs : List RegName :=
  [.HST_SQ_BASE, .HST_SQ_CFG, .HST_SQ_PTR, .HST_CQ_BASE, .HST_CQ_CFG, .HST_CQ_PTR, .HST_EQ_BASE, .HST_EQ_CFG, .HST_EQ_PTR, .HST_FN_ERR,
    .HST_EVT_MASK, .HST_EVT_LOST]

theorem regAddr_plain {r : RegName} (h : r ∉ pageRegs) (i : Nat) : regAddr r i = (regInfo r).addr + (regInfo r).stride * i := by
  unfold regAddr
  dsimp only
  split
  case h_13 => rfl
  all_goals exact absurd (by decide) h

/-- Every other register lies outside the functions' pages. -/
theorem reg_outside_pages (r : RegName) : r ∈ pageRegs ∨
    (regInfo r).addr + (regInfo r).stride * (regInfo r).count + 8 ≤ 0x400000 ∨ 0x480000 ≤ (regInfo r).addr := by
  cases r <;> decide

/-- The registers of the functions' pages lie in the first 0x2000 bytes of their pages. -/
theorem pageReg_low {r : RegName} (h : r ∈ pageRegs) {o i : Nat} (hi : i < (regInfo r).count) (hlo : regAddr r i ≤ o)
    (hhi : o < regAddr r i + (regInfo r).width / 8) : o % 0x10000 < 0x2000 := by
  simp only [pageRegs, List.mem_cons, List.not_mem_nil, or_false] at h
  rcases h with rfl | rfl | rfl | rfl | rfl | rfl | rfl | rfl | rfl | rfl | rfl | rfl <;>
    simp only [regAddr, regInfo] at hi hlo hhi <;> omega

/-- No register lies where a function's page holds its vectors' tables. -/
theorem regAt_tables {o : Nat} (hlo : 0x400000 ≤ o) (hhi : o < 0x480000) (hpage : 0x2000 ≤ o % 0x10000) : regAt o = none := by
  refine List.findSome?_eq_none_iff.mpr fun r _ => Option.map_eq_none_iff.mpr (Option.eq_none_iff_forall_ne_some.mpr fun i hi => ?_)
  obtain ⟨hcount, hfrom, hto⟩ := regIndexAt_spec hi
  by_cases hp : r ∈ pageRegs
  · exact absurd (pageReg_low hp hcount hfrom hto) (by omega)
  · rw [regAddr_plain hp] at hfrom hto
    have hmul := Nat.mul_le_mul_left (regInfo r).stride hcount.le
    rcases (reg_outside_pages r).resolve_left hp with h | h <;> rcases regInfo_width r with hw | hw <;> omega

/-- The BAR0 offset of a vector's control word, the fourth of its four. -/
def controlPlace (fn : Fin 8) (k : Fin 64) : Nat := 0x402000 + 0x10000 * fn.val + 16 * k.val + 12

theorem msixAt_control (fn : Fin 8) (k : Fin 64) : msixAt (controlPlace fn k) = some (fn, 4 * k.val + 3) := by
  have hpage : controlPlace fn k % 0x10000 = 0x2000 + 16 * k.val + 12 := by unfold controlPlace; omega
  have hfn : (controlPlace fn k - 0x400000) / 0x10000 = fn.val := by unfold controlPlace; omega
  have hword : (0x2000 + 16 * k.val + 12 - 0x2000) / 4 = 4 * k.val + 3 := by
    rw [Nat.add_assoc, Nat.add_sub_cancel_left]
    omega
  have hrange : ¬ (controlPlace fn k < 0x400000 ∨ 0x480000 ≤ controlPlace fn k) := by unfold controlPlace; omega
  rw [msixAt, hpage, hfn, hword, if_neg hrange, if_pos (by omega), Fin.ofNat_val_eq_self]

theorem msixHits_control (fn : Fin 8) (k : Fin 64) : msixHits (controlPlace fn k) 32 = [((fn, 4 * k.val + 3), 0)] := by
  simp [msixHits, msixAt_control]

theorem regHits_control (fn : Fin 8) (k : Fin 64) : regHits (controlPlace fn k) 32 = [] := by
  rw [regHits_32, hit32, regAt_tables] <;> unfold controlPlace <;> omega

/-- The physical function may write its functions' tables while the module is active. -/
theorem mayWrite_tables (hactive : s.active = true) (fn : Fin 8) : s.mayWrite .pf .HST_FN_ERR fn = true := by
  have hsealed : ∀ f : Fin 8, pfSealed .HST_FN_ERR f.val = true := by decide
  simp [State.mayWrite, hactive, hsealed fn]

/-- A write of a vector's control word sets its mask bit. -/
theorem regWrite_control (hreach : s.reaches .pf = true) (hactive : s.active = true) (fn : Fin 8) (k : Fin 64) (v : BitVec 32) :
    s.regWrite .pf (controlPlace fn k) 32 (v.setWidth 64) = s.setVectorMask fn k (v.getLsbD 0) := by
  have hok : accessOk (controlPlace fn k) 32 = true := accessOk_32 (by unfold controlPlace; omega)
  have hlt : ¬ 0x1000000 ≤ controlPlace fn k := by unfold controlPlace; omega
  have hk : ¬ 256 ≤ 4 * k.val + 3 := by omega
  have hword : (4 * k.val + 3) / 4 = k.val := by omega
  simp [State.regWrite, hreach, hok, agentAddr, hlt, regHits_control, msixHits_control, State.msixWrite, mayWrite_tables hactive, hk, hword]

/-- The bit of a vector. -/
def vectorBit (k : Nat) : BitVec 64 := 1 <<< k

theorem getLsbD_vectorBit (k : Fin 64) (j : Fin 64) : (vectorBit k).getLsbD j = decide (j = k) := by
  have hbit : vectorBit k = BitVec.ofNat 64 (2 ^ k.val) := by simp [vectorBit, Nat.one_shiftLeft]
  rw [hbit, BitVec.getLsbD_ofNat, Nat.testBit_two_pow]
  simp [Fin.ext_iff, eq_comm]

/-- The function's vectors with a mask bit set: one that is pending when its mask falls is pending no longer. -/
def maskSet (k : Nat) (m due : Bool) (x : Fn) : Fn :=
  { x with
    masked := if m then x.masked ||| vectorBit k else x.masked &&& ~~~vectorBit k,
    pendingVec := if due then x.pendingVec &&& ~~~vectorBit k else x.pendingVec }

theorem masked_maskSet_same (k : Fin 64) (m due : Bool) (x : Fn) : (maskSet k m due x).masked.getLsbD k = m := by
  have hbit := getLsbD_vectorBit k k
  cases m <;> simp only [maskSet, Bool.false_eq_true, if_true, if_false, BitVec.getLsbD_or, BitVec.getLsbD_and, BitVec.getLsbD_not, hbit] <;>
    simp

theorem masked_maskSet_other {k j : Fin 64} (h : j ≠ k) (m due : Bool) (x : Fn) :
    (maskSet k m due x).masked.getLsbD j = x.masked.getLsbD j := by
  have hbit := (getLsbD_vectorBit k j).trans (decide_eq_false h)
  cases m <;> simp only [maskSet, Bool.false_eq_true, if_true, if_false, BitVec.getLsbD_or, BitVec.getLsbD_and, BitVec.getLsbD_not, hbit] <;>
    simp

theorem pending_maskSet_due (k : Fin 64) (m : Bool) (x : Fn) : (maskSet k m true x).pendingVec.getLsbD k = false := by
  have hbit := getLsbD_vectorBit k k
  simp only [maskSet, if_true, BitVec.getLsbD_and, BitVec.getLsbD_not, hbit]
  simp

/-- A vector that is pending when its mask falls is sent. -/
theorem setVectorMask_due (s : State) (fn : Fin 8) (k : Fin 64) (h : (s.hst.fns[fn]).pendingVec.getLsbD k = true) :
    s.setVectorMask fn k false = (s.modFn fn (maskSet k false true)).emit (.msix fn k) := by
  have hdue : (!false && (s.hst.fns[fn]).pendingVec.getLsbD k) = true := by rw [h]; rfl
  have hfn : s.setVectorMask fn k false = (s.modFn fn (maskSet k false true)).sendVector fn k := by
    unfold State.setVectorMask
    dsimp only
    rw [hdue, if_pos rfl]
    rfl
  rw [hfn, State.sendVector, fns_modFn_same, masked_maskSet_same, if_neg Bool.false_ne_true]

/-- Otherwise nothing is sent. -/
theorem setVectorMask_quiet (s : State) (fn : Fin 8) (k : Fin 64) {m : Bool} (h : m = true ∨ (s.hst.fns[fn]).pendingVec.getLsbD k = false) :
    s.setVectorMask fn k m = s.modFn fn (maskSet k m false) := by
  have hdue : (!m && (s.hst.fns[fn]).pendingVec.getLsbD k) = false := by
    rcases h with rfl | h
    · rfl
    · rw [h, Bool.and_false]
  unfold State.setVectorMask
  dsimp only
  rw [hdue, if_neg Bool.false_ne_true]
  rfl

end Masks
end Sys2Proof.Proofs
end

section
/-!
SUPPORT. Deadlines of commands that have not started (R258, log 134), and what the doorbells' offsets name (R248).
-/

namespace Sys2Proof.Proofs

open Sys2Proof.Machine Sys2Proof.Claims

section Deadlines

variable {s : State} {src : Src} {id est : BitVec 32}

/-- The command is the one named, and its deadline has passed. -/
def late (s : State) (src : Src) (id : BitVec 32) (c : CmdRef) (us : Nat) : Bool :=
  decide (c.src = src ∧ c.cmdId = id ∧ us ≠ 0 ∧ 200 * us < (s.devTime - c.bell).toNat)

theorem late_eq (c : CmdRef) (us : Nat) : (decide (c.src = src ∧ c.cmdId = id) && s.pastDeadline c us) = late s src id c us := by
  simp only [State.pastDeadline, late, ← Bool.decide_and, and_assoc]

/-- The first command waiting that is late, and the first load. -/
def lateWaits (s : State) (src : Src) (id : BitVec 32) : Option Accepted :=
  s.hst.accepted.find? fun a => late s src id a.cmd a.desc.deadline.toNat
def lateLoads (s : State) (src : Src) (id : BitVec 32) : Option HostLoad :=
  s.hst.loads.find? fun l => l.reading.isNone && late s src id l.cmd l.deadline

/-- The states without them. -/
def withoutWaiting (s : State) (a : Accepted) : State := { s with hst := { s.hst with accepted := s.hst.accepted.erase a } }
def withoutLoad (s : State) (l : HostLoad) : State :=
  ({ s with hst := { s.hst with loads := s.hst.loads.erase l } } : State).setNextLoad l.fn (Nat.min (s.hst.fns[l.fn]).nextLoad l.first)

theorem exec_commandDeadline (s : State) (src : Src) (id est : BitVec 32) :
    exec (.commandDeadline src id est) s = s.effect fun s =>
      match lateWaits s src id with
      | some a => (withoutWaiting s a).completeDetail a.cmd stBUSY (s.free_ 8).toNat est.toNat
      | none =>
        match lateLoads s src id with
        | some l => (withoutLoad s l).completeDetail l.cmd stBUSY (s.free_ 8).toNat est.toNat
        | none => s := by
  simp only [lateWaits, lateLoads, ← late_eq]
  rfl

/-- The RESULT of a completion with a detail: the estimate stands above the reason and the free bits. -/
theorem detail_div (code : Nat) (x : BitVec 24) (y : BitVec 32) :
    (code % 256 + 256 * x.toNat + y.toNat % 2 ^ 32 * 2 ^ 32) / 2 ^ 32 = y.toNat := by
  have hx := x.isLt
  have hy := y.isLt
  omega

/-- A completion with a detail takes one free value, and its RESULT's upper half is the detail. -/
theorem completeDetail_eq (u : State) (c : CmdRef) (st code : Nat) (y : BitVec 32) :
    ∃ n, n / 2 ^ 32 = y.toNat ∧ u.completeDetail c st code y.toNat = ({ u with free := u.free + 1 } : State).complete c st n :=
  ⟨_, detail_div code (u.free_ 24) y, rfl⟩

/-- With no command that is late, nothing happens. -/
theorem commandDeadline_none (hwaits : lateWaits s src id = none) (hloads : lateLoads s src id = none) :
    exec (.commandDeadline src id est) s = .next s :=
  exec_eq_self (exec_commandDeadline ..) (by rw [hwaits, hloads])

/-- The command ends REFUSED_BUSY with the estimate, in a state `u` without it. -/
abbrev DeadlineEnds (s : State) (src : Src) (id est : BitVec 32) (u : State) (c : CmdRef) : Prop :=
  ∃ n, n / 2 ^ 32 = est.toNat ∧ Does (.commandDeadline src id est) s (({ u with free := s.free + 1 } : State).complete c stBUSY n)

theorem commandDeadline_waits {a : Accepted} (h : lateWaits s src id = some a) : DeadlineEnds s src id est (withoutWaiting s a) a.cmd := by
  obtain ⟨n, hn, heq⟩ := completeDetail_eq (withoutWaiting s a) a.cmd stBUSY (s.free_ 8).toNat est
  refine ⟨n, hn, ?_⟩
  rw [Does, exec_commandDeadline, effect_eq, h]
  dsimp only
  rw [heq]
  rfl

theorem commandDeadline_loads {l : HostLoad} (hwaits : lateWaits s src id = none) (h : lateLoads s src id = some l) :
    DeadlineEnds s src id est (withoutLoad s l) l.cmd := by
  obtain ⟨n, hn, heq⟩ := completeDetail_eq (withoutLoad s l) l.cmd stBUSY (s.free_ 8).toNat est
  refine ⟨n, hn, ?_⟩
  rw [Does, exec_commandDeadline, effect_eq, hwaits, h]
  dsimp only
  rw [heq]
  rfl

end Deadlines

/-! ## The places of doorbells -/

section Offsets

variable {s : State} {fn : Fin 8} {off : BitVec 16} {v : DWord}

/-- Without the host's reach no doorbell does anything. -/
theorem doorbells_of_not_reaches (hr : s.hostReaches = false) (fn : Fin 8) (n : Fin 64) (off : BitVec 16) (v : DWord) :
    exec (.sqDoorbell fn off v) s = .next s ∧ exec (.cqDoorbell fn n v) s = .next s ∧ exec (.eqDoorbell fn v) s = .next s :=
  ⟨exec_eq_self (exec_sqDoorbell ..) (by simp [hr]), exec_eq_self (exec_cqDoorbell ..) (by simp [hr]),
    exec_eq_self (exec_eqDoorbell ..) (by simp [hr])⟩

/-- The offset of a completion ring's doorbell, and of the event ring's. -/
theorem sqDoorbell_at_cq {n : Fin 64} (h : off.toNat = 0x400 + 8 * n.val) :
    exec (.sqDoorbell fn off v) s = exec (.cqDoorbell fn n v) s := by
  rw [exec_sqDoorbell, exec_cqDoorbell, h]
  simp only [State.bar2Write, doorbellAt_cq]

theorem sqDoorbell_at_eq (h : off.toNat = 0x800) : exec (.sqDoorbell fn off v) s = exec (.eqDoorbell fn v) s := by
  rw [exec_sqDoorbell, exec_eqDoorbell, h]
  simp only [State.bar2Write, doorbellAt_eq]

/-- A write to any other offset is ignored and counted. -/
theorem sqDoorbell_at_none (hr : s.hostReaches = true)
    (h : off.toNat % 8 ≠ 0 ∨ (0x200 ≤ off.toNat ∧ off.toNat < 0x400) ∨ (0x600 ≤ off.toNat ∧ off.toNat ≠ 0x800)) :
    Answers (.sqDoorbell fn off v) s (Counted s) :=
  answers_of_eq [.regs] (exec_sqDoorbell ..) (by simp only [hr, if_true, State.bar2Write, doorbellAt_none fn h]) (by simp)
    (counted_badAccess s)

/-- Neither does the host enable or disable a ring. -/
theorem rings_of_not_reaches (hr : s.hostReaches = false) (fn : Fin 8) (r : Fin 129) (v : DWord) :
    exec (.ringEnable fn r v) s = .next s ∧ exec (.ringDisable fn r v) s = .next s :=
  ⟨exec_eq_self (exec_ringEnable ..) (hostRingCfg_of_not_reaches hr _ _),
    exec_eq_self (exec_ringDisable ..) (hostRingCfg_of_not_reaches hr _ _)⟩

/-- The clauses of a head doorbell, by the ring's state and the value. -/
theorem headDoorbell_refused {w : WRing} {c : Instr} {code : Nat} (hr : s.hostReaches = true)
    (hc : (∃ n, w.2 = some n ∧ c = .cqDoorbell w.1 n v) ∨ (w.2 = none ∧ c = .eqDoorbell w.1 v)) (hcode : code < 256)
    (h : s.ringHead w v = (s.setDoor w.key v).ringError w.1 w.code code) :
    Answers c s (RingErr (s.setDoor w.key v) w.1 w.code code) := by
  obtain ⟨u, hu, hanswers⟩ := headDoorbell_cases hr hc
  obtain rfl := hu.symm.trans h
  exact answers_mono (hanswers (by simp)) (by rintro t rfl; exact ringErr_ringError _ _ (wRing_code_lt w) hcode)

end Offsets
end Sys2Proof.Proofs
end

section
/-!
SUPPORT. Doorbells, ring service, descriptors and the MSI-X vectors: the obligation, from the parts before.
-/

namespace Sys2Proof.Proofs

open Sys2Proof.Machine Sys2Proof.Claims

/-- A write of a vector's control word. -/
theorem registerWrite_control {s : State} (hreach : s.reaches .pf = true) (hactive : s.active = true) (fn : Fin 8) (k : Fin 64)
    (v : BitVec 32) :
    Answers (.registerWrite .pf (controlPlace fn k) 32 (v.setWidth 64)) s fun t =>
      (t.hst.fns[fn]).masked.getLsbD k.val = v.getLsbD 0 ∧
      (∀ j : Fin 64, j ≠ k → (t.hst.fns[fn]).masked.getLsbD j.val = (s.hst.fns[fn]).masked.getLsbD j.val) ∧
      (v.getLsbD 0 = false → (s.hst.fns[fn]).pendingVec.getLsbD k.val = true →
        t.out = .msix fn k :: s.out ∧ (t.hst.fns[fn]).pendingVec.getLsbD k.val = false) ∧
      (v.getLsbD 0 = true ∨ (s.hst.fns[fn]).pendingVec.getLsbD k.val = false →
        t.out = s.out ∧ (t.hst.fns[fn]).pendingVec = (s.hst.fns[fn]).pendingVec) ∧ Only [.hst, .out] s t := by
  have hwrite := regWrite_control hreach hactive fn k v
  by_cases hdue : v.getLsbD 0 = false ∧ (s.hst.fns[fn]).pendingVec.getLsbD k.val = true
  · obtain ⟨hmask, hpends⟩ := hdue
    rw [hmask, setVectorMask_due s fn k hpends] at hwrite
    refine answers_of_eq [.hst, .out] (exec_registerWrite ..) hwrite (by simp)
      ⟨?_, fun j hj => ?_, fun _ _ => ⟨rfl, ?_⟩, fun h => ?_, by simp⟩
    · rw [State.emit_hst, fns_modFn_same, masked_maskSet_same, hmask]
    · rw [State.emit_hst, fns_modFn_same, masked_maskSet_other hj]
    · rw [State.emit_hst, fns_modFn_same, pending_maskSet_due]
    · exact absurd h (by rw [hmask, hpends]; decide)
  · have hquiet : v.getLsbD 0 = true ∨ (s.hst.fns[fn]).pendingVec.getLsbD k.val = false := by
      cases hm : v.getLsbD 0
      · exact .inr (Bool.eq_false_iff.mpr fun hp => hdue ⟨hm, hp⟩)
      · exact .inl rfl
    rw [setVectorMask_quiet s fn k hquiet] at hwrite
    refine answers_of_eq [.hst, .out] (exec_registerWrite ..) hwrite (by simp)
      ⟨?_, fun j hj => ?_, fun hm hp => absurd ⟨hm, hp⟩ hdue, fun _ => ⟨rfl, ?_⟩, by simp⟩
    · rw [fns_modFn_same, masked_maskSet_same]
    · rw [fns_modFn_same, masked_maskSet_other hj]
    · rw [fns_modFn_same]
      rfl

/-- Settles O34, clause by clause from the lemmas about doorbells, enabling and disabling, descriptors, vectors and deadlines. -/
theorem ringsAndVectors : Obligations.RingsAndVectors := by
  unfold Obligations.RingsAndVectors
  refine ⟨⟨fun s fn n off v hr => doorbells_of_not_reaches hr fn n off v, fun s fn n v hr => ?_, fun s fn off v hr => ?_,
    fun s w v c hr hc => ?_⟩, ⟨fun s fn r v hr => rings_of_not_reaches hr fn r v, fun s fn n r v hrn hr hp => ?_,
    fun s fn r v h64 hr hp => ?_⟩, fun s fn n ds e => ?_, fun _ => rfl, fun s fn r e => ?_,
    fun s fn k v hr hactive => registerWrite_control hr hactive fn k v, fun s src id est => ?_⟩
  · obtain ⟨hset, hoff, hpast⟩ := sqDoorbell_cases fn n v hr
    refine ⟨fun hen hv => answers_mono (hset hen hv) ?_, fun hen => answers_mono (hoff hen) ?_,
      fun hen hv => answers_mono (hpast hen hv) ?_, sqDoorbell_read fn n v hr⟩
    · rintro t rfl
      exact tailSet_spec s fn n v
    · rintro t rfl
      exact ringErr_ringError _ fn (by omega) (by decide)
    · rintro t rfl
      exact ringErr_ringError _ fn (by omega) (by decide)
  · exact ⟨fun n h => sqDoorbell_at_cq h, sqDoorbell_at_eq, sqDoorbell_at_none hr⟩
  · refine ⟨fun hen => ?_, fun hen hv => ?_, fun hen hv hheld => ?_, fun hen hv hheld => ?_⟩
    · exact headDoorbell_refused hr hc (by decide) ((ringHead_eq s w v).trans (if_pos (not_not.mp hen)))
    · exact headDoorbell_refused hr hc (by decide) ((ringHead_eq s w v).trans ((if_neg hen).trans (if_pos hv)))
    · exact headDoorbell_refused hr hc (by decide)
        ((ringHead_eq s w v).trans ((if_neg hen).trans ((if_neg (by omega)).trans (if_pos hheld))))
    · obtain ⟨u, hu, hanswers⟩ := headDoorbell_cases hr hc
      obtain rfl := hu.symm.trans
        ((ringHead_eq s w v).trans ((if_neg hen).trans ((if_neg (by omega)).trans (if_neg (Nat.not_lt.mpr hheld)))))
      obtain ⟨hdb, hdoor, hcome, hidx, honly⟩ := headDrained_spec (v := v) hheld
      exact answers_mono (hanswers honly) (by rintro t rfl; exact ⟨hdb, hdoor, hcome, hidx, honly⟩)
  · exact ⟨ringEnable_sq_enabled hrn hr hp, ringEnable_sq_refused hrn hr hp, ringEnable_sq_again hrn hr hp,
      ringDisable_sq_idle hrn hr hp, ringDisable_sq_lists hrn hr hp⟩
  · exact ⟨ringEnable_w h64 hr hp, ringEnable_w_badSize h64 hr hp, ringDisable_w_bound h64 hr hp, ringDisable_w h64 hr hp⟩
  · refine ⟨fun h => descriptorFetch_shut h ds e, ?_, ?_⟩
    · rintro h rfl
      exact descriptorFetch_error h ds
    · rintro h rfl hds
      refine answers_mono (descriptorFetch_reads h hds) fun t ht => ?_
      obtain ⟨hhead, hfetched, honly⟩ := ht
      refine ⟨hhead, fun hdrain hops => ?_, honly⟩
      obtain ⟨hacc, hout, hbells, -, hframe, hregs⟩ := hfetched hdrain hops
      rw [List.length_take, Nat.min_eq_left (Nat.min_le_left _ _)] at hout hbells
      exact ⟨hacc, hout, hbells, hframe, hregs⟩
  · refine ⟨coalesceTimeout_idle, ?_, ?_⟩
    · rintro h64 rfl htiming
      refine answers_mono (coalesceTimeout_vector h64 htiming) ?_
      rintro t rfl
      obtain ⟨hring, hout, honly⟩ := wVector_spec s (wRingOf fn r) (wRingOf_fst fn r)
      refine ⟨by rw [hring], by rw [hring], by rw [hring], ?_, honly⟩
      split
      · next h => exact hout.trans (if_pos h)
      · next h => exact hout.trans (if_neg h)
    · rintro h64 rfl hreach hen
      refine answers_mono (coalesceTimeout_stop h64 hreach hen) ?_
      rintro t rfl
      exact wStop_spec (wRingOf_fst fn r) hen
  · exact ⟨commandDeadline_none, fun a h => commandDeadline_waits h, fun l hwaits h => commandDeadline_loads hwaits h⟩

end Sys2Proof.Proofs
end

section
/-!
SUPPORT. The grain backdoor under an armed injection (R62, R305): a full-word write uses the injection up, so it is not the case that
only grain memory changes.
-/

namespace Sys2Proof.Proofs

open Sys2Proof.Machine Sys2Proof.Claims

/-! ## An injection that a write meets (R305) -/

theorem mem_wordList_oneWord {w : Nat} (hw : w < 2048) : w ∈ wordList (oneWord w) := by
  refine List.mem_filter.mpr ⟨List.mem_range.mpr hw, ?_⟩
  rw [oneWord, BitVec.natCast_eq_ofNat, BitVec.getLsbD_ofNat, Nat.testBit_shiftLeft]
  simp [hw]

/-- An injection that no further ARM follows leaves ARM clear. -/
theorem flipUsed_disarms {s : State} (hagain : s.net.armAgain = false) : s.flipUsed.on F.ECC_FLIP_CTL_ARM = false := by
  have hclear : (s.fset F.ECC_FLIP_CTL_ARM 0).fv F.ECC_FLIP_CTL_ARM = 0 := fv_fset_same s F.ECC_FLIP_CTL_ARM 0 0 (by decide)
  simp [State.flipUsed, hagain, State.on, hclear]

/-- An access of the injection's word, or of any word under ANY, meets the injection. -/
theorem grainFlip_disarms {s : State} {a w : Nat} {ws : BitVec 2048} (hw : w ∈ wordList ws)
    (harmed : s.flipArmed 0 (grainWord a w) = true) (hagain : s.net.armAgain = false) :
    (s.grainFlip a ws).on F.ECC_FLIP_CTL_ARM = false := by
  simp only [State.flipArmed, Bool.and_eq_true, Bool.or_eq_true, decide_eq_true_eq] at harmed
  obtain ⟨⟨harm, hmem⟩, hplace⟩ := harmed
  unfold State.grainFlip
  simp only [harm, hmem, decide_true, Bool.and_self, if_true]
  split
  case h_1 hnone =>
    exfalso
    split at hnone
    · have hlt := Nat.mod_lt (s.free_ 16).toNat (List.length_pos_of_mem hw)
      simp only [List.getElem?_eq_none_iff] at hnone
      omega
    · next hany =>
      have haddr : s.fv F.ECC_FLIP_CTL_ADDR = grainWord a w := hplace.resolve_left hany
      have hmiss := List.find?_eq_none.mp hnone w hw
      simp [haddr] at hmiss
  case h_2 => exact flipUsed_disarms (s := s.used) hagain

theorem grainWrite_disarms {s : State} {a w : Nat} {ws : BitVec 2048} (data : Plane) (hw : w ∈ wordList ws)
    (harmed : s.flipArmed 0 (grainWord a w) = true) (hagain : s.net.armAgain = false) :
    (s.grainWrite a ws data).on F.ECC_FLIP_CTL_ARM = false :=
  grainFlip_disarms (s := s.setGrains _) hw harmed hagain

/-! ## The statement -/

/-- A word of the window, written whole, is one full-word write (R51, R62). -/
theorem backdoorWrite_word (s : State) (k : Nat) (b0 b1 b2 b3 : Byte) (requester : Nat) :
    ∃ bits, s.backdoorWrite (4 * k) [b0, b1, b2, b3] requester = s.grainWrite (k / 2048) (oneWord (k % 2048)) bits := by
  have hwords : backdoorWords (4 * k) 4 = [(k / 2048, k % 2048)] := by
    have hfirst : 4 * k / 4 = k := by omega
    have hcount : (4 * k + 4 - 1) / 4 - k + 1 = 1 := by omega
    rw [backdoorWords, if_neg (by decide), hfirst, hcount]
    rfl
  have hstart : k / 2048 * 8192 + k % 2048 * 4 = 4 * k := by omega
  show ∃ bits, List.foldl _ s (backdoorWords (4 * k) 4) = _
  rw [hwords]
  exact ⟨_, if_pos (by simp [hstart, List.range_succ])⟩

/-- The module after reset with an injection armed for word 0 of grain memory: MEM and ADDR reset to 0. -/
def grainInjectionArmed : State := State.reset.fset F.ECC_FLIP_CTL_ARM 1

/-- Refutes O24: the write of a whole word for which an injection is armed clears ECC_FLIP_CTL.ARM (R305), so that grain memory is not
all that changes. -/
theorem not_backdoorAndMicrocode : ¬ Obligations.BackdoorAndMicrocode := by
  unfold Obligations.BackdoorAndMicrocode
  rintro ⟨⟨-, -, hwrite, -⟩, -⟩
  obtain ⟨t, ht, -, -, -, -, -, -, hsame⟩ :=
    hwrite grainInjectionArmed (.core 4) 0 [1, 2, 3, 4] trivial rfl rfl (by decide) rfl rfl
  have heffect : exec (.backdoorWrite (.core 4) 0 [1, 2, 3, 4]) grainInjectionArmed =
      grainInjectionArmed.effect fun s => s.backdoorWrite 0 [1, 2, 3, 4] (agentRouter (.core 4)) := rfl
  obtain ⟨bits, hword⟩ := backdoorWrite_word grainInjectionArmed 0 1 2 3 4 (agentRouter (.core 4))
  have hoff : t.on F.ECC_FLIP_CTL_ARM = false := by
    rw [effect_next (heffect.symm.trans ht), hword]
    exact grainWrite_disarms bits (mem_wordList_oneWord (by decide)) (by decide) rfl
  have hregs : t.regs = grainInjectionArmed.regs := hsame .regs (by decide)
  have hon : t.on F.ECC_FLIP_CTL_ARM = true := by
    simp only [State.on, State.fv, State.reg, hregs]
    decide
  exact Bool.noConfusion (hon.symm.trans hoff)

end Sys2Proof.Proofs
end

section
/-!
SUPPORT. How a core takes an instruction: what the issue of one answers once `Takes` holds, for each form its body may have, and the
core it finds.
-/

namespace Sys2Proof.Proofs

open Sys2Proof.Machine Sys2Proof.Claims

/-! ## One core of the state -/

@[simp] theorem cores_modCore_same (s : State) (c : Fin 8) (f : Core → Core) : (s.modCore c f).cores[c] = f s.cores[c] := by
  simp [State.modCore]

theorem cores_modCore_other (s : State) {c c' : Fin 8} (h : c' ≠ c) (f : Core → Core) : (s.modCore c f).cores[c'] = s.cores[c'] := by
  simp only [State.modCore, Fin.getElem_fin]
  exact Vector.getElem_set_ne _ _ (fun e => h (Fin.ext e.symm))

/-- What a change does to other cores than the one it meets is of no account. -/
theorem modCore_congr {s : State} {c : Fin 8} {f g : Core → Core} (h : f s.cores[c] = g s.cores[c]) : s.modCore c f = s.modCore c g := by
  simp only [State.modCore, h]

theorem modCore_modCore (s : State) (c : Fin 8) (f g : Core → Core) : (s.modCore c f).modCore c g = s.modCore c fun k => g (f k) := by
  simp [State.modCore]

theorem modCore_self {s : State} {c : Fin 8} {f : Core → Core} (h : f s.cores[c] = s.cores[c]) : s.modCore c f = s := by
  rw [State.modCore, h, Fin.getElem_fin, Vector.set_getElem_self]

@[simp] theorem used_modCore (s : State) (c : Fin 8) (f : Core → Core) : (s.used).modCore c f = (s.modCore c f).used := rfl

/-! ## What issuing answers -/

end Sys2Proof.Proofs

namespace Sys2Proof.Claims

open Sys2Proof.Machine Sys2Proof.Proofs

section Takes

variable {s t u : State} {h : Hdr} {rs rs' : List (Fin 32)}

theorem Takes.issue_done (ht : Takes s h rs t) {body : State → Res} (hb : body (t.begin_ h) = .done u) :
    s.issue h body = .next (settle s (u.stepped h.core)) :=
  Machine.issue_done ht.runs ht.boundary ht.fetch ht.legal ht.settled ht.holds hb

theorem Takes.issue_trap (ht : Takes s h rs t) {body : State → Res} {e : Exc} (hb : body (t.begin_ h) = .trap u e) :
    s.issue h body = .next (settle s ((u.precise h.core e (s.cores[h.core]).pc).stepped h.core)) :=
  Machine.issue_trap ht.runs ht.boundary ht.fetch ht.legal ht.settled ht.holds hb

theorem issue_stalls {body : State → Res} (hr : s.coreRuns h.core = true)
    (hb : s.boundary h.core = none) (hf : s.fetch h.core (hdrLen h) = (none, t)) (hl : condIllegal h = false)
    (hg : t.gorWaits h = false) (hc : t.condHolds h = true) (hd : body (t.begin_ h) = .stall) : s.issue h body = .next s := by
  simp [State.issue, hr, hb, hf, hl, hg, hc, hd]

theorem Takes.issue_stall (ht : Takes s h rs t) {body : State → Res} (hb : body (t.begin_ h) = .stall) : s.issue h body = .next s :=
  issue_stalls ht.runs ht.boundary ht.fetch ht.legal ht.settled ht.holds hb

/-- Registers that are ready are so in any part of the list. -/
theorem Takes.mono (ht : Takes s h rs t) (hsub : rs' ⊆ rs) : Takes s h rs' t :=
  { ht with ready := List.any_eq_false.mpr fun r hr => List.any_eq_false.mp ht.ready r (hsub hr) }

theorem Takes.regs_body (ht : Takes s h rs t) (body : State → Res) :
    (if rs.any (fun r => (t.begin_ h).interlocked h.core r) then Res.stall else body (t.begin_ h)) = body (t.begin_ h) := by
  rw [ht.ready]; rfl

theorem Takes.issueRegs_done (ht : Takes s h rs t) {body : State → Res} (hb : body (t.begin_ h) = .done u) :
    s.issueRegs h rs body = .next (settle s (u.stepped h.core)) :=
  ht.issue_done ((ht.regs_body body).trans hb)

theorem Takes.issueRegs_trap (ht : Takes s h rs t) {body : State → Res} {e : Exc} (hb : body (t.begin_ h) = .trap u e) :
    s.issueRegs h rs body = .next (settle s ((u.precise h.core e (s.cores[h.core]).pc).stepped h.core)) :=
  ht.issue_trap ((ht.regs_body body).trans hb)

/-- An instruction that changes its core alone; the change may be told by what it does to the core it finds. -/
theorem Takes.issueAlu (ht : Takes s h rs t) {f g : Core → Core} (hfg : f (coreOf t h) = g (coreOf t h)) :
    s.issueAlu h rs f = .next (after s t h g) := by
  rw [after, ← modCore_congr hfg]
  exact ht.issueRegs_done rfl

/-- One that may leave an open value. -/
theorem Takes.issueFree (ht : Takes s h rs t) {f : Core → Word → Core} {g : Core → Core}
    (hfg : f (coreOf t h) ((t.begin_ h).free_ 32) = g (coreOf t h)) : s.issueFree h rs f = .next (afterOpen s t h g) := by
  rw [afterOpen, ← modCore_congr (f := fun k => f k ((t.begin_ h).free_ 32)) hfg]
  exact ht.issueRegs_done rfl

theorem Takes.issueExc_ok (ht : Takes s h rs t) {f : Core → Except Exc Core} {g : Core → Core}
    (hfg : f (coreOf t h) = .ok (g (coreOf t h))) : s.issueExc h rs f = .next (after s t h g) := by
  rw [after, modCore_congr (g := fun _ => g (coreOf t h)) rfl]
  refine ht.issueRegs_done ?_
  rw [show f (t.begin_ h).cores[h.core] = .ok (g (coreOf t h)) from hfg]

theorem Takes.issueExc_error (ht : Takes s h rs t) {f : Core → Except Exc Core} {e : Exc}
    (hf : f (coreOf t h) = .error e) : s.issueExc h rs f = .next (afterTrap s t h e) := by
  refine ht.issueRegs_trap ?_
  rw [show f (t.begin_ h).cores[h.core] = .error e from hf]

end Takes

end Sys2Proof.Claims

namespace Sys2Proof.Proofs

open Sys2Proof.Machine Sys2Proof.Claims

/-! ## The core that the instruction finds -/

/-- An instruction that does nothing but pass. -/
theorem after_id (s t : State) (h : Hdr) : after s t h id = settle s ((t.begin_ h).stepped h.core) := by rw [after, modCore_self rfl]

/-- The instruction trace of a Developer is all that tracing changes. -/
theorem tracePc_cores (s : State) (c : Fin 8) : (s.tracePc c).cores = s.cores := by
  unfold State.tracePc
  split
  · dsimp only
    split <;> rfl
  · rfl

theorem begin_core (t : State) (h : Hdr) : (t.begin_ h).cores[h.core] = coreOf t h := rfl

theorem coreOf_eq (t : State) (h : Hdr) : coreOf t h =
    (let k : Core := t.cores[h.core]
     { k with pc := k.pc + BitVec.ofNat 32 (hdrLen h), fpPend := k.fpPend.map (· + 1) }) := by
  rw [coreOf, State.begin_, cores_modCore_same, tracePc_cores]

end Sys2Proof.Proofs
end

section
/-!
SUPPORT. The comparisons and the conditions that read them (R70, R71).
-/

namespace Sys2Proof.Proofs

open Sys2Proof.Machine Sys2Proof.Claims

/-! ## The flags of a sum and of a difference -/

theorem toInt_sub_cases (a b : Word) :
    (a - b).toInt = a.toInt - b.toInt ∨ (a - b).toInt = a.toInt - b.toInt - 2 ^ 32 ∨ (a - b).toInt = a.toInt - b.toInt + 2 ^ 32 := by
  simp only [BitVec.toInt_eq_toNat_cond, BitVec.toNat_sub]
  omega

theorem toInt_add_cases (a b : Word) :
    (a + b).toInt = a.toInt + b.toInt ∨ (a + b).toInt = a.toInt + b.toInt - 2 ^ 32 ∨ (a + b).toInt = a.toInt + b.toInt + 2 ^ 32 := by
  simp only [BitVec.toInt_eq_toNat_cond, BitVec.toNat_add]
  omega

theorem toInt_bounds (a : Word) : -2 ^ 31 ≤ a.toInt ∧ a.toInt < 2 ^ 31 := ⟨BitVec.le_toInt a, BitVec.toInt_lt⟩

/-- A difference overflows when the signs of the operands differ and its own is not that of the first. -/
theorem sub_overflow (a b : Word) :
    decide ((a - b).toInt ≠ a.toInt - b.toInt) = ((a.msb != b.msb) && ((a - b).msb != a.msb)) := by
  have hcases := toInt_sub_cases a b
  have ha := toInt_bounds a
  have hb := toInt_bounds b
  have hr := toInt_bounds (a - b)
  rw [Bool.eq_iff_iff]
  simp only [BitVec.msb_eq_toInt, decide_eq_true_eq, Bool.and_eq_true, bne_iff_ne, ne_eq, decide_eq_decide]
  omega

theorem add_overflow (a b : Word) :
    decide ((a + b).toInt ≠ a.toInt + b.toInt) = ((a.msb == b.msb) && ((a + b).msb != a.msb)) := by
  have hcases := toInt_add_cases a b
  have ha := toInt_bounds a
  have hb := toInt_bounds b
  have hr := toInt_bounds (a + b)
  rw [Bool.eq_iff_iff]
  simp only [BitVec.msb_eq_toInt, decide_eq_true_eq, Bool.and_eq_true, bne_iff_ne, beq_iff_eq, ne_eq, decide_eq_decide]
  omega

theorem add_carry (a b : Word) : decide (2 ^ 32 ≤ a.toNat + b.toNat) = decide (a + b < a) := by
  have ha := a.isLt
  have hb := b.isLt
  simp only [BitVec.lt_def, BitVec.toNat_add, decide_eq_decide]
  omega

theorem subFlags_eq (k : Core) (a b : Word) : k.subFlags a b =
    k.setNZCV (a - b).msb (decide (a = b)) (decide (b ≤ a)) ((a.msb != b.msb) && ((a - b).msb != a.msb)) := by
  have hzero : (a - b == 0) = decide (a = b) := by
    rw [Bool.eq_iff_iff, beq_iff_eq, decide_eq_true_eq, sub_eq_zero]
  rw [Core.subFlags, sub_overflow, hzero]
  rfl

theorem addFlags_eq (k : Core) (a b : Word) : k.addFlags a b =
    k.setNZCV (a + b).msb (decide (a + b = 0)) (decide (a + b < a)) ((a.msb == b.msb) && ((a + b).msb != a.msb)) := by
  rw [Core.addFlags, add_overflow, add_carry]
  rfl

theorem tstFlags_eq (k : Core) (a b : Word) (x : BitVec 2) :
    k.tstFlags a b x = k.setNZCV (a &&& b).msb (decide (a &&& b = 0)) (x.getLsbD 1) (x.getLsbD 0) := rfl

/-- What a tst puts into C and V (log 21). -/
def tstOpen (t : State) (h : Hdr) : BitVec 2 := ((t.begin_ h).free_ 32).setWidth 2

/-! ## The flags that were set -/

theorem getLsbD_bitAt (b : Bool) (i j : Nat) (hi : i < 32) : (bitAt b i).getLsbD j = (decide (i = j) && b) := by
  cases b
  · simp [bitAt]
  · rw [bitAt, if_pos rfl, BitVec.natCast_eq_ofNat, BitVec.getLsbD_ofNat, Nat.one_shiftLeft, Nat.testBit_two_pow, Bool.and_true]
    rw [Bool.eq_iff_iff, Bool.and_eq_true, decide_eq_true_eq, decide_eq_true_eq]
    omega

/-- A bit of the flags that are set, below Q. -/
theorem getLsbD_setNZCV (k : Core) (n z c v : Bool) (i : Nat) (hi : i < 4) :
    (k.setNZCV n z c v).flags.getLsbD i = (decide (3 = i) && n || decide (2 = i) && z || decide (1 = i) && c || decide (0 = i) && v) := by
  have hq : (0x10 : Word).getLsbD i = false := by
    obtain rfl | rfl | rfl | rfl : i = 0 ∨ i = 1 ∨ i = 2 ∨ i = 3 := by omega
    all_goals rfl
  simp only [Core.setNZCV, BitVec.getLsbD_or, BitVec.getLsbD_and, hq, Bool.and_false, Bool.false_or, getLsbD_bitAt _ 3 i (by decide),
    getLsbD_bitAt _ 2 i (by decide), getLsbD_bitAt _ 1 i (by decide), getLsbD_bitAt _ 0 i (by decide)]

@[simp] theorem setNZCV_fN (k : Core) (n z c v : Bool) : (k.setNZCV n z c v).fN = n := by
  simp [Core.fN, Core.flag, getLsbD_setNZCV, -BitVec.getLsbD_eq_getElem]

@[simp] theorem setNZCV_fZ (k : Core) (n z c v : Bool) : (k.setNZCV n z c v).fZ = z := by
  simp [Core.fZ, Core.flag, getLsbD_setNZCV, -BitVec.getLsbD_eq_getElem]

@[simp] theorem setNZCV_fC (k : Core) (n z c v : Bool) : (k.setNZCV n z c v).fC = c := by
  simp [Core.fC, Core.flag, getLsbD_setNZCV, -BitVec.getLsbD_eq_getElem]

@[simp] theorem setNZCV_fV (k : Core) (n z c v : Bool) : (k.setNZCV n z c v).fV = v := by
  simp [Core.fV, Core.flag, getLsbD_setNZCV, -BitVec.getLsbD_eq_getElem]

/-- The flags after a comparison, as relations of the operands. -/
structure Compared (f : Core) (a b : Word) : Prop where
  negative : f.fN = true ↔ (a - b).toInt < 0
  zero : f.fZ = true ↔ a.toInt = b.toInt
  noBorrow : f.fC = true ↔ b.toNat ≤ a.toNat
  overflow : f.fV = true ↔ (a - b).toInt ≠ a.toInt - b.toInt

theorem compared_subFlags (k : Core) (a b : Word) : Compared (k.subFlags a b) a b where
  negative := by rw [Core.subFlags, setNZCV_fN, BitVec.msb_eq_toInt, decide_eq_true_eq]
  zero := by rw [Core.subFlags, setNZCV_fZ, beq_iff_eq, sub_eq_zero, BitVec.toInt_inj]
  noBorrow := by rw [Core.subFlags, setNZCV_fC, decide_eq_true_eq]
  overflow := by rw [Core.subFlags, setNZCV_fV, decide_eq_true_eq]

/-- N and V differ after a comparison exactly when the first operand is the lesser, as signed numbers. -/
theorem Compared.less {f : Core} {a b : Word} (h : Compared f a b) : (f.fN != f.fV) = true ↔ a.toInt < b.toInt := by
  obtain ⟨hn, -, -, hv⟩ := h
  have hcases := toInt_sub_cases a b
  have ha := toInt_bounds a
  have hb := toInt_bounds b
  have hr := toInt_bounds (a - b)
  rw [bne_iff_ne, ne_eq, Bool.eq_iff_iff, hn, hv]
  omega

theorem Compared.notLess {f : Core} {a b : Word} (h : Compared f a b) : (f.fN == f.fV) = true ↔ b.toInt ≤ a.toInt := by
  rw [← Int.not_lt, ← h.less, bne_iff_ne, not_not, beq_iff_eq]


/-- Settles O4: the flags are those of the sum or the difference, and the sixteen conditions are read from them. -/
theorem flagsAndConditions : Obligations.FlagsAndConditions := by
  unfold Obligations.FlagsAndConditions
  refine ⟨?_, fun k a b gor => ?_⟩
  · dsimp only [exec]
    refine ⟨fun s t h a b ht => ⟨ht.issueAlu (subFlags_eq _ _ _), ht.issueAlu (addFlags_eq _ _ _), (tstOpen t h).getLsbD 1,
      (tstOpen t h).getLsbD 0, ht.issueFree (tstFlags_eq _ _ _ _)⟩, fun s t h a imm ht => ht.issueAlu (subFlags_eq _ _ _),
      fun s t h rd a b ht => ⟨?_, ?_⟩⟩
    · exact ht.issueAlu (congrArg (fun k : Core => k.setX rd _) (addFlags_eq _ _ _))
    · exact ht.issueAlu (congrArg (fun k : Core => k.setX rd _) (subFlags_eq _ _ _))
  · have hcmp := compared_subFlags k a b
    generalize k.subFlags a b = f at hcmp
    have hless := hcmp.less
    have hnotLess := hcmp.notLess
    obtain ⟨hn, hz, hc, hv⟩ := hcmp
    have hzero : a.toInt = b.toInt ↔ a = b := BitVec.toInt_inj
    have hnat : a.toInt = b.toInt ↔ a.toNat = b.toNat := hzero.trans BitVec.toNat_inj.symm
    simp only [Core.holds, Bool.not_eq_true', Bool.and_eq_true, Bool.or_eq_true, ← Bool.not_eq_true, hless, hnotLess, hn, hz, hc, hv]
    refine ⟨trivial, trivial, trivial, hzero, not_congr hzero, trivial, ?_⟩
    refine ⟨?_, ?_, ?_, trivial, trivial, ?_, ?_, trivial, ?_, trivial⟩ <;> omega

end Sys2Proof.Proofs
end

section
/-!
SUPPORT. Restoring division, parity and bit reversal (R82, R85).
-/

namespace Sys2Proof.Proofs

open Sys2Proof.Machine Sys2Proof.Claims

/-! ## One division step -/

/-- The 33-bit partial remainder of R82: the remainder moved up by one place, the quotient's top bit below it. -/
def partialRemainder (r q : Word) : BitVec 33 := (r.setWidth 33 <<< 1) ||| (q >>> 31).setWidth 33

theorem partialRemainder_toNat (r q : Word) : (partialRemainder r q).toNat = r.toNat * 2 + q.toNat / 2 ^ 31 := by
  have hr := r.isLt
  have hq := q.isLt
  have hbit : q.toNat / 2 ^ 31 < 2 ^ 1 := by omega
  have hor : (r.toNat * 2) ||| (q.toNat / 2 ^ 31) = r.toNat * 2 + q.toNat / 2 ^ 31 := by
    have := Nat.shiftLeft_add_eq_or_of_lt hbit r.toNat
    rw [Nat.shiftLeft_eq, Nat.pow_one] at this
    exact this.symm
  simp only [partialRemainder, BitVec.toNat_or, BitVec.toNat_shiftLeft, BitVec.toNat_setWidth, BitVec.toNat_ushiftRight,
    Nat.shiftLeft_eq, Nat.shiftRight_eq_div_pow]
  rw [Nat.mod_eq_of_lt (by omega : r.toNat < 2 ^ 33), Nat.mod_eq_of_lt (by omega : r.toNat * 2 ^ 1 < 2 ^ 33),
    Nat.mod_eq_of_lt (by omega : q.toNat / 2 ^ 31 < 2 ^ 33), Nat.pow_one, hor]

/-- The step on natural numbers is the step on words of R82. -/
theorem divStep_eq (r q d : Word) : divStep r q d =
    if d.setWidth 33 ≤ partialRemainder r q then ((partialRemainder r q - d.setWidth 33).setWidth 32, (q <<< 1) ||| 1, true)
    else ((partialRemainder r q).setWidth 32, q <<< 1, false) := by
  have hr := r.isLt
  have hd := d.isLt
  have hp := partialRemainder_toNat r q
  have hwide : (d.setWidth 33).toNat = d.toNat := by rw [BitVec.toNat_setWidth]; omega
  have hle : d.setWidth 33 ≤ partialRemainder r q ↔ d.toNat ≤ r.toNat * 2 + q.toNat / 2 ^ 31 := by rw [BitVec.le_def, hwide, hp]
  rw [divStep]
  simp only [hle]
  split
  · congr 1
    apply BitVec.eq_of_toNat_eq
    rw [BitVec.toNat_ofNat, BitVec.toNat_setWidth, BitVec.toNat_sub, hwide, hp]
    omega
  · congr 1
    apply BitVec.eq_of_toNat_eq
    rw [BitVec.toNat_ofNat, BitVec.toNat_setWidth, hp]

/-! ## Thirty-two steps -/

/-- Remainder and quotient after a step. -/
def divPair (d : Word) (p : Word × Word) : Word × Word := ((divStep p.1 p.2 d).1, (divStep p.1 p.2 d).2.1)

/-- Remainder and quotient after `i` steps from remainder 0. -/
def divRun (n d : Word) (i : Nat) : Word × Word := (List.range i).foldl (fun p _ => divPair d p) (0, n)

theorem divRun_succ (n d : Word) (i : Nat) : divRun n d (i + 1) = divPair d (divRun n d i) := by
  simp only [divRun, List.range_succ, List.foldl_append, List.foldl_cons, List.foldl_nil]

theorem shiftIn_toNat (q : Word) : ((q <<< 1) ||| 1).toNat = q.toNat * 2 % 2 ^ 32 + 1 ∧ (q <<< 1).toNat = q.toNat * 2 % 2 ^ 32 := by
  have hshift : (q <<< 1).toNat = q.toNat * 2 % 2 ^ 32 := by rw [BitVec.toNat_shiftLeft, Nat.shiftLeft_eq]
  refine ⟨?_, hshift⟩
  have hor := Nat.shiftLeft_add_eq_or_of_lt (show 1 < 2 ^ 1 by decide) (q.toNat % 2 ^ 31)
  rw [Nat.shiftLeft_eq, show q.toNat % 2 ^ 31 * 2 ^ 1 = q.toNat * 2 % 2 ^ 32 by omega] at hor
  rw [BitVec.toNat_or, hshift, hor]
  rfl

/-- A step in numbers, as long as the remainder it leaves is a word. -/
theorem divPair_toNat {r q d : Word} {t : Nat} (ht : r.toNat * 2 + q.toNat / 2 ^ 31 = t) (hfit : t < 2 ^ 32) :
    (divPair d (r, q)).1.toNat = (if d.toNat ≤ t then t - d.toNat else t) ∧
    (divPair d (r, q)).2.toNat = q.toNat * 2 % 2 ^ 32 + (if d.toNat ≤ t then 1 else 0) := by
  obtain ⟨hone, hzero⟩ := shiftIn_toNat q
  simp only [divPair, divStep, ht]
  split
  · exact ⟨by rw [BitVec.toNat_ofNat]; omega, hone⟩
  · exact ⟨by rw [BitVec.toNat_ofNat]; omega, hzero⟩

/-- The bits that `i` steps have put into the quotient: ones when the divisor is 0. -/
def quotientBits (d i h : Nat) : Nat := if d = 0 then 2 ^ i - 1 else h / d

theorem quotientBits_lt {d i h : Nat} (hh : h < 2 ^ i) : quotientBits d i h < 2 ^ i := by
  have hpow := Nat.two_pow_pos i
  have hdiv := Nat.div_le_self h d
  unfold quotientBits
  split <;> omega

/-- One bit `b` more of the dividend. -/
theorem quotientBits_step (d i h : Nat) {b t : Nat} (hb : b ≤ 1) (ht : h % d * 2 + b = t) :
    (2 * h + b) % d = (if d ≤ t then t - d else t) ∧
    quotientBits d (i + 1) (2 * h + b) = 2 * quotientBits d i h + (if d ≤ t then 1 else 0) := by
  by_cases hd : d = 0
  · subst hd
    have hpow := Nat.two_pow_pos i
    simp only [Nat.mod_zero] at ht ⊢
    simp only [quotientBits, if_true, Nat.zero_le, pow_succ]
    omega
  · have hpos : 0 < d := Nat.pos_of_ne_zero hd
    have hlt := Nat.mod_lt h hpos
    have hsplit : 2 * h + b = t + d * (2 * (h / d)) := by
      have := Nat.div_add_mod h d
      have hmul : d * (2 * (h / d)) = 2 * (d * (h / d)) := by ring
      omega
    simp only [quotientBits, hd, if_false, hsplit, Nat.add_mul_mod_self_left, Nat.add_mul_div_left _ _ hpos]
    by_cases hle : d ≤ t
    · rw [if_pos hle, if_pos hle, Nat.mod_eq_sub_mod hle, Nat.mod_eq_of_lt (by omega), Nat.div_eq_of_lt_le (k := 1) (by omega) (by omega)]
      omega
    · rw [if_neg hle, if_neg hle, Nat.mod_eq_of_lt (by omega), Nat.div_eq_of_lt (by omega)]
      omega

/-- Remainder and quotient after `i` steps, `k` of the dividend's bits being left: the remainder of the bits taken in, and the quotient's
bits below those left. -/
structure Divided (n d i k : Nat) (p : Word × Word) : Prop where
  remainder : p.1.toNat = n / 2 ^ k % d
  quotient : p.2.toNat = n % 2 ^ k * 2 ^ i + quotientBits d i (n / 2 ^ k)

theorem divided_zero (n d : Word) : Divided n.toNat d.toNat 0 32 (0, n) := by
  have hn : n.toNat / 2 ^ 32 = 0 := Nat.div_eq_of_lt n.isLt
  refine ⟨?_, ?_⟩ <;> rw [hn]
  · simp
  · simp [quotientBits, Nat.mod_eq_of_lt n.isLt]

theorem Divided.step {n i k : Nat} {d : Word} {p : Word × Word} (hn : n < 2 ^ 32) (hik : i + (k + 1) = 32)
    (h : Divided n d.toNat i (k + 1) p) : Divided n d.toNat (i + 1) k (divPair d p) := by
  obtain ⟨hrem, hquot⟩ := h
  set hi := n / 2 ^ (k + 1) with hhi
  set b := n / 2 ^ k % 2 with hb
  set rest := n % 2 ^ k with hrest
  have hb1 : b ≤ 1 := by omega
  have htop : n / 2 ^ k = 2 * hi + b := by
    have hdiv : n / 2 ^ (k + 1) = n / 2 ^ k / 2 := by rw [pow_succ, Nat.div_div_eq_div_mul]
    omega
  have hlow : n % 2 ^ (k + 1) = b * 2 ^ k + rest := by rw [Nat.mod_pow_succ]; ring
  have hpow : 2 ^ k * 2 ^ i = 2 ^ 31 := by rw [← pow_add]; congr 1; omega
  have hhilt : hi < 2 ^ i := by
    rw [hhi, Nat.div_lt_iff_lt_mul (Nat.two_pow_pos _), ← pow_add, hik]
    exact hn
  have hquotLt := quotientBits_lt (d := d.toNat) hhilt
  have hrestLt : rest * 2 ^ i + 2 ^ i ≤ 2 ^ 31 := by
    have := Nat.mul_le_mul_right (2 ^ i) (Nat.succ_le_of_lt (Nat.mod_lt n (Nat.two_pow_pos k)))
    rw [hpow, Nat.succ_mul] at this
    exact this
  have hq : p.2.toNat = b * 2 ^ 31 + rest * 2 ^ i + quotientBits d.toNat i hi := by
    rw [hquot, hlow, Nat.add_mul, Nat.mul_assoc, hpow]
  generalize hP : rest * 2 ^ i = P at hrestLt hq
  have hbit : p.2.toNat / 2 ^ 31 = b := by omega
  obtain ⟨hmod, hdiv⟩ := quotientBits_step d.toNat i hi hb1 rfl
  have hfit : hi % d.toNat * 2 + b < 2 ^ 32 := by
    have hle := Nat.mod_le hi d.toNat
    have hpowi : 2 ^ i ≤ 2 ^ 31 := Nat.pow_le_pow_right (by decide) (by omega)
    omega
  obtain ⟨hone, htwo⟩ := divPair_toNat (r := p.1) (q := p.2) (d := d) (by rw [hrem, hbit]) hfit
  refine ⟨?_, ?_⟩
  · rw [hone, htop, hmod]
  · have hnext : rest * 2 ^ (i + 1) = 2 * P := by rw [pow_succ, ← hP]; ring
    rw [htwo, htop, hdiv, hnext]
    omega

theorem divided_divRun (n d : Word) {i k : Nat} (hik : i + k = 32) : Divided n.toNat d.toNat i k (divRun n d i) := by
  induction i generalizing k with
  | zero =>
    obtain rfl : k = 32 := by omega
    exact divided_zero n d
  | succ i ih =>
    rw [divRun_succ]
    exact (ih (k := k + 1) (by omega)).step n.isLt (by omega)

/-! ## Parity and bit reversal -/

/-- The exclusive-OR of a list's bits tells whether the number of ones is odd. -/
theorem foldl_xor_eq (p : Nat → Bool) (l : List Nat) (b : Bool) :
    l.foldl (fun x i => x ^^ p i) b = (b ^^ decide (l.countP p % 2 = 1)) := by
  induction l generalizing b with
  | nil => simp
  | cons i l ih =>
    rw [List.foldl_cons, ih, List.countP_cons]
    cases p i
    · simp
    · have hodd : decide ((l.countP p + 1) % 2 = 1) = !decide (l.countP p % 2 = 1) := by
        rw [← decide_not, decide_eq_decide]
        omega
      simp [hodd]

theorem parity_eq (a : Word) :
    parity a = (BitVec.ofBool ((List.range 32).foldl (fun p i => p ^^ a.getLsbD i) false)).setWidth 32 := by
  rw [foldl_xor_eq, Bool.false_xor, parity]
  split
  next h => rw [h]; rfl
  next h => rw [decide_eq_false h]; rfl

theorem getLsbD_reverseBits (a : Word) {w : Nat} (hw : w ≤ 32) (i : Nat) :
    (reverseBits a w).getLsbD i = (decide (i < w) && a.getLsbD (w - 1 - i)) := by
  rw [reverseBits, BitVec.getLsbD_ofFnLE]
  split
  next hi => rfl
  next hi => rw [decide_eq_false (by omega), Bool.false_and]

/-! ## The statements -/

/-- Settles O5: the invariant of the steps, at the last of them. -/
theorem restoringDivision : Obligations.RestoringDivision := by
  unfold Obligations.RestoringDivision
  intro one
  have hstep : ∀ r q d : Word, one r q d = divStep r q d := fun r q d => (divStep_eq r q d).symm
  clear_value one
  simp only [hstep]
  refine ⟨fun s t h r q d ht hrq => ?_, fun n d => ?_⟩
  · dsimp only [exec]
    exact ht.issueFree (by dsimp only; rw [if_neg hrq])
  · obtain ⟨hrem, hquot⟩ := divided_divRun n d (i := 32) (k := 0) rfl
    simp only [Nat.pow_zero, Nat.div_one, Nat.mod_one, Nat.zero_mul, Nat.zero_add] at hrem hquot
    refine ⟨fun hd => ?_, fun hd => ?_⟩ <;> show divRun n d 32 = _
    · have hd0 : d.toNat ≠ 0 := fun h => hd (BitVec.eq_of_toNat_eq h)
      refine Prod.ext (BitVec.eq_of_toNat_eq hrem) (BitVec.eq_of_toNat_eq ?_)
      rw [hquot, quotientBits, if_neg hd0, BitVec.toNat_udiv]
    · subst hd
      exact Prod.ext (BitVec.eq_of_toNat_eq (hrem.trans (Nat.mod_zero _))) (BitVec.eq_of_toNat_eq hquot)

/-- Settles O6: parity by the count of ones, reversal bit by bit. -/
theorem parityAndBitReversal : Obligations.ParityAndBitReversal := by
  unfold Obligations.ParityAndBitReversal
  intro s t h rd a w ht
  dsimp only [exec]
  refine ⟨ht.issueAlu (by rw [parity_eq]), fun hlo hhi => ⟨fun k => reverseBits (k.x a) w, ht.issueExc_ok ?_,
    fun k i => getLsbD_reverseBits _ hhi i, fun hw k hk => ?_⟩⟩
  · rw [if_neg (by omega)]
  · dsimp only
    rw [hw, hk]
    have hbits : ∀ i < 32, (decide (i < 4) && (3 : Word).getLsbD (4 - 1 - i)) = (12 : Word).getLsbD i := by decide
    exact BitVec.eq_of_getLsbD_eq fun i hi => (getLsbD_reverseBits 3 (by decide) i).trans (hbits i hi)

end Sys2Proof.Proofs
end

section
/-!
SUPPORT. The integer, immediate, constant, multiply and CRC instructions (R69, R81, R84, R85).
-/

namespace Sys2Proof.Proofs

open Sys2Proof.Machine Sys2Proof.Claims

/-! ## Results on words -/

theorem minS_eq (a b : Word) : minS a b = if b.toInt < a.toInt then b else a := by
  simp only [minS, ← Int.not_lt, ite_not]

theorem maxS_eq (a b : Word) : maxS a b = if a.toInt < b.toInt then b else a := by
  rcases Int.lt_trichotomy a.toInt b.toInt with h | h | h
  · rw [maxS, if_pos h.le, if_pos h]
  · rw [BitVec.toInt_inj.mp h, maxS, ite_self, ite_self]
  · rw [maxS, if_neg (by omega), if_neg (by omega)]

theorem maxU_eq (a b : Word) : maxU a b = if a < b then b else a := by
  rcases Nat.lt_trichotomy a.toNat b.toNat with h | h | h
  · rw [maxU, if_pos h.le, if_pos (BitVec.lt_def.mpr h)]
  · rw [BitVec.toNat_inj.mp h, maxU, ite_self, ite_self]
  · rw [maxU, if_neg (by omega), if_neg (BitVec.lt_def.not.mpr (by omega))]

theorem minU_eq (a b : Word) : minU a b = if b < a then b else a := by
  simp only [minU, BitVec.lt_def, ← Nat.not_lt, ite_not]

theorem absWord_eq (a : Word) : absWord a = BitVec.ofNat 32 a.toInt.natAbs := by
  rw [absWord, BitVec.msb_eq_toInt]
  by_cases h : a.toInt < 0
  · rw [if_pos (decide_eq_true h), ← BitVec.ofInt_natCast, Int.ofNat_natAbs_of_nonpos h.le, BitVec.ofInt_neg, BitVec.ofInt_toInt]
  · rw [if_neg (by simpa using h), ← BitVec.ofInt_natCast, Int.natAbs_of_nonneg (not_lt.mp h), BitVec.ofInt_toInt]

/-- A shift count that is sign-extended from its field is that of the field where it is less than the width. -/
theorem toNat_signExtend_lt (imm : BitVec 11) : (imm.signExtend 32).toNat < 32 ↔ imm.toNat < 32 := by
  have := imm.isLt
  simp only [BitVec.toNat_signExtend, BitVec.toNat_setWidth, BitVec.msb_eq_decide, decide_eq_true_eq]
  split <;> omega

theorem toNat_signExtend_of_lt {imm : BitVec 11} (h : imm.toNat < 32) : (imm.signExtend 32).toNat = imm.toNat := by
  simp only [BitVec.toNat_signExtend, BitVec.toNat_setWidth, BitVec.msb_eq_decide, decide_eq_true_eq]
  split <;> omega

/-- The low and the high word of a doubleword. -/
theorem setWidth_ofInt_low (x : Int) : (BitVec.ofInt 64 x).setWidth 32 = BitVec.ofInt 32 x := by
  apply BitVec.eq_of_toNat_eq
  simp only [BitVec.toNat_setWidth, BitVec.toNat_ofInt]
  omega

theorem setWidth_ofInt_high (x : Int) : (BitVec.ofInt 64 x >>> 32).setWidth 32 = BitVec.ofInt 32 (x / 2 ^ 32) := by
  apply BitVec.eq_of_toNat_eq
  simp only [BitVec.toNat_setWidth, BitVec.toNat_ofInt, BitVec.toNat_ushiftRight, Nat.shiftRight_eq_div_pow]
  omega

theorem mulS_low (a b : Word) : (mulS a b).setWidth 32 = a * b := by
  rw [mulS, setWidth_ofInt_low, BitVec.ofInt_mul, BitVec.ofInt_toInt, BitVec.ofInt_toInt]

theorem mulS_high (a b : Word) : (mulS a b >>> 32).setWidth 32 = BitVec.ofInt 32 (a.toInt * b.toInt / 2 ^ 32) :=
  setWidth_ofInt_high _

theorem mulU_eq (a b : Word) : mulU a b = BitVec.ofInt 64 ((a.toNat * b.toNat : Nat) : Int) := (BitVec.ofInt_natCast ..).symm

theorem mulU_low (a b : Word) : (mulU a b).setWidth 32 = a * b := by
  rw [mulU_eq, setWidth_ofInt_low, BitVec.ofInt_natCast, BitVec.ofNat_mul, BitVec.ofNat_toNat, BitVec.ofNat_toNat, BitVec.setWidth_eq,
    BitVec.setWidth_eq]

theorem mulU_high (a b : Word) : (mulU a b >>> 32).setWidth 32 = BitVec.ofNat 32 (a.toNat * b.toNat / 2 ^ 32) := by
  rw [mulU_eq, setWidth_ofInt_high, ← BitVec.ofInt_natCast]
  norm_cast

/-! ## Pairs -/

theorem pairHi_eq {p hi : Fin 32} (h : hi.val = p.val + 1) : pairHi p = hi := by
  apply Fin.ext
  have := hi.isLt
  simp only [pairHi, Fin.ofNat, h]
  omega

theorem pairHi_eq_add (p : Fin 32) : pairHi p = p + 1 := Fin.ext (by simp [pairHi, Fin.val_add])

/-! ## Shifts by an immediate -/

theorem ite_signExtend_lt (imm : BitVec 11) (f : Nat → Word) (v : Word) :
    (if (imm.signExtend 32).toNat < 32 then f (imm.signExtend 32).toNat else v) = if imm.toNat < 32 then f imm.toNat else v := by
  by_cases h : imm.toNat < 32
  · rw [if_pos h, if_pos ((toNat_signExtend_lt imm).mpr h), toNat_signExtend_of_lt h]
  · rw [if_neg h, if_neg (mt (toNat_signExtend_lt imm).mp h)]

/-! ## CRC steps (R84) -/

/-- One bit of the CRC. -/
def crcBit (poly c : Word) : Word := if c.getLsbD 0 then (c >>> 1) ^^^ poly else c >>> 1

theorem foldl_range_eq_repeat {α : Type} (f : α → α) (n : Nat) (a : α) : (List.range n).foldl (fun x _ => f x) a = Nat.repeat f n a := by
  induction n with
  | zero => rfl
  | succ n ih => rw [List.range_succ, List.foldl_append, ih]; rfl

theorem crcFold_eq (poly c b : Word) : crcFold poly c b = Nat.repeat (crcBit poly) 8 (c ^^^ (b &&& 0xFF)) :=
  foldl_range_eq_repeat (crcBit poly) 8 _

/-- The check value of CRC-32C. -/
theorem crc_check : (([0x31, 0x32, 0x33, 0x34, 0x35, 0x36, 0x37, 0x38, 0x39] : List Word).foldl (crcFold 0x82F63B78) 0xFFFFFFFF) ^^^ 0xFFFFFFFF =
    0xE3069283 := by
  simp [crcFold, List.range_succ]

/-! ## The statement -/

/-- The open value that an instruction may leave. -/
abbrev openWord (t : State) (h : Hdr) : Word := (t.begin_ h).free_ 32

/-- Settles O7: each instruction issues as `Takes` says, and its result on words is the spec's. -/
theorem integerInstructions : Obligations.IntegerInstructions := by
  unfold Obligations.IntegerInstructions
  dsimp only [exec]
  refine ⟨⟨fun s t h rd a b ht => ?_, fun s t h rd a ht => ?_⟩, ⟨fun s t h rd a imm ht => ?_, fun s t h rd imm i5 ht => ?_⟩,
    ⟨fun s t h rd a b ht => ?_, fun s t h rd hi a b hhi heven ht => ?_, fun s t h rd a b hodd ht => ?_⟩, fun s t h c b ht => ?_, crc_check,
    fun s t h r d ht => ?_, fun s t h rd a w ht hw => ?_⟩
  · exact ⟨ht.issueAlu rfl, ht.issueAlu rfl, ht.issueAlu rfl, ht.issueAlu rfl, ht.issueAlu rfl, ht.issueAlu rfl,
      ht.issueAlu (by rw [minS_eq]), ht.issueAlu (by rw [maxS_eq]), ht.issueAlu (by rw [minU_eq]), ht.issueAlu (by rw [maxU_eq]),
      ⟨openWord t h, ht.issueFree rfl⟩, ⟨openWord t h, ht.issueFree rfl⟩, ⟨openWord t h, ht.issueFree rfl⟩⟩
  · exact ⟨ht.issueAlu (by rw [absWord_eq]), ht.issueAlu (by rw [zero_sub]), ht.issueAlu rfl⟩
  · have hshift := fun f => ite_signExtend_lt imm f (openWord t h)
    exact ⟨ht.issueAlu rfl, ht.issueAlu rfl, ht.issueAlu rfl, ht.issueAlu rfl,
      ⟨openWord t h, ht.issueFree (congrArg _ (hshift fun n => (coreOf t h).x a <<< n))⟩,
      ⟨openWord t h, ht.issueFree (congrArg _ (hshift fun n => (coreOf t h).x a >>> n))⟩,
      ⟨openWord t h, ht.issueFree (congrArg _ (hshift ((coreOf t h).x a).sshiftRight))⟩⟩
  · exact ⟨⟨(openWord t h).setWidth 16, ht.issueFree rfl⟩, ht.issueAlu (by rw [BitVec.ofNat_toNat]), ht.issueAlu rfl⟩
  · exact ⟨ht.issueAlu (by rw [mulU_low]), ht.issueAlu (by rw [mulS_high]), ht.issueAlu (by rw [mulU_high])⟩
  · obtain rfl := pairHi_eq hhi
    have hok : oddPair rd = false := by simp [oddPair, heven]
    exact ⟨ht.issueExc_ok (by rw [hok]; simp [Core.setX2, mulS_low, mulS_high]),
      ht.issueExc_ok (by rw [hok]; simp [Core.setX2, mulU_low, mulU_high])⟩
  · rw [← pairHi_eq_add] at ht
    have hbad : oddPair rd = true := by simp [oddPair, hodd]
    exact ⟨ht.issueExc_error (by rw [hbad]; rfl), ht.issueExc_error (by rw [hbad]; rfl)⟩
  · exact ⟨ht.issueAlu (by rw [crcFold_eq]; rfl), ht.issueAlu (by rw [crcFold_eq]; rfl)⟩
  · refine ⟨openWord t h, _, (ht.mono (by simp)).issueFree (by dsimp only; rw [if_pos rfl])⟩
  · exact ht.issueExc_error (by rw [if_pos hw]; rfl)

end Sys2Proof.Proofs
end

section
/-!
SUPPORT. Fixed point: rounding, saturation and the accumulators (R77-R80).
-/

namespace Sys2Proof.Proofs

open Sys2Proof.Machine Sys2Proof.Claims

/-! ## Saturation -/

theorem clampS_eq (w : Nat) (x : Int) : clampS w x = clamped w x := by
  have hpos : (0 : Int) < 2 ^ (w - 1) := by positivity
  unfold clampS clamped
  dsimp only
  generalize (2 : Int) ^ (w - 1) = p at hpos
  split
  · rw [Int.min_eq_left (by omega), Int.max_eq_right (by omega), decide_eq_true (by omega)]
  · split
    · rw [Int.min_eq_right (by omega), Int.max_eq_left (by omega), decide_eq_true (by omega)]
    · rw [Int.min_eq_right (by omega), Int.max_eq_right (by omega), decide_eq_false (by omega)]

/-- A value within the range is not clamped. -/
theorem clampS_of_mem {w : Nat} {x : Int} (hlo : -2 ^ (w - 1) ≤ x) (hhi : x < 2 ^ (w - 1)) : clampS w x = (x, false) := by
  unfold clampS
  dsimp only
  rw [if_neg (by omega), if_neg (by omega)]

theorem setQ_setX (k : Core) (rd : Fin 32) (v : Word) (q : Bool) : (k.setQ q).setX rd v = (k.setX rd v).setQ q := by
  cases q <;> rfl

/-! ## Accumulators -/

theorem macProduct_bounds (a b : Word) : -2 ^ 63 ≤ macProduct a b ∧ macProduct a b ≤ 2 ^ 63 := by
  have ha := toInt_bounds a
  have hb := toInt_bounds b
  have habs : |a.toInt * b.toInt| ≤ 2 ^ 31 * 2 ^ 31 := by
    rw [abs_mul]
    exact mul_le_mul (abs_le.mpr (by omega)) (abs_le.mpr (by omega)) (abs_nonneg _) (by norm_num)
  have := abs_le.mp habs
  simp only [macProduct]
  omega

/-- An accumulator that takes an exact value within 72 bits. -/
theorem setAcc_of_mem (k : Core) (acc : Fin 4) {x : Int} (hlo : -2 ^ 71 ≤ x) (hhi : x < 2 ^ 71) :
    ((k.setAcc acc x).a[acc]).toInt = x ∧ (k.setAcc acc x).flags = k.flags := by
  have hclamp : clampS 72 x = (x, false) := clampS_of_mem hlo hhi
  have hset : (k.setAcc acc x).a[acc] = BitVec.ofInt 72 x := by simp [Core.setAcc, hclamp, Core.setQ]
  refine ⟨?_, by simp [Core.setAcc, hclamp, Core.setQ]⟩
  rw [hset, BitVec.toInt_ofInt, Int.bmod_eq_of_le (by omega) (by omega)]

/-- The sum of so few products that it cannot leave 72 bits. -/
theorem macSum_exact (acc : Fin 4) (ps : List (Word × Word)) (k : Core)
    (hlo : -(255 - (ps.length : Int)) * 2 ^ 63 ≤ (k.a[acc]).toInt) (hhi : (k.a[acc]).toInt ≤ (255 - (ps.length : Int)) * 2 ^ 63)
    (hlen : ps.length ≤ 255) :
    let r := ps.foldl (fun (c : Core) p => c.setAcc acc ((c.a[acc]).toInt + macProduct p.1 p.2)) k
    (r.a[acc]).toInt = (k.a[acc]).toInt + (ps.map (fun p => macProduct p.1 p.2)).sum ∧ r.flags = k.flags := by
  induction ps generalizing k with
  | nil => exact ⟨(Int.add_zero _).symm, rfl⟩
  | cons p ps ih =>
    have hp := macProduct_bounds p.1 p.2
    simp only [List.length_cons, Nat.cast_add, Nat.cast_one] at hlo hhi hlen
    obtain ⟨hval, hflags⟩ := setAcc_of_mem k acc (x := (k.a[acc]).toInt + macProduct p.1 p.2) (by omega) (by omega)
    obtain ⟨hsum, hkept⟩ := ih (k.setAcc acc ((k.a[acc]).toInt + macProduct p.1 p.2)) (by omega) (by omega) (by omega)
    refine ⟨?_, hkept.trans hflags⟩
    rw [List.foldl_cons, hsum, hval, List.map_cons, List.sum_cons, Int.add_assoc]

/-! ## Rounding (R78) -/

theorem ediv_bounds (x : Int) {p : Int} (hp : 0 < p) : x / p * p ≤ x ∧ x < x / p * p + p := by
  have h1 := Int.ediv_mul_le x hp.ne'
  have h2 := Int.lt_ediv_add_one_mul_self x hp
  rw [Int.add_mul, Int.one_mul] at h2
  exact ⟨h1, h2⟩

section Modes

variable (x : Int) (d : Nat) (l : Word)

theorem roundDrop_truncate : roundDrop 0 x d l = x / 2 ^ d := Int.fdiv_eq_ediv_of_nonneg x (by positivity)

theorem roundDrop_halfUp :
    0 ≤ 2 * (x - roundDrop 1 x d l * 2 ^ d) + 2 ^ d ∧ 2 * (x - roundDrop 1 x d l * 2 ^ d) < 2 ^ d := by
  cases d with
  | zero => simp [roundDrop]
  | succ d =>
    have hround : roundDrop 1 x (d + 1) l = (x + 2 ^ d) / 2 ^ (d + 1) := Int.fdiv_eq_ediv_of_nonneg _ (by positivity)
    have hb := ediv_bounds (x + 2 ^ d) (p := 2 ^ (d + 1)) (by positivity)
    rw [hround]
    have hpow : (2 : Int) ^ (d + 1) = 2 * 2 ^ d := by ring
    omega

theorem roundDrop_halfEven :
    0 ≤ 2 * (x - roundDrop 2 x d l * 2 ^ d) + 2 ^ d ∧ 2 * (x - roundDrop 2 x d l * 2 ^ d) ≤ 2 ^ d ∧
    (1 ≤ d → (2 * (x - roundDrop 2 x d l * 2 ^ d)).natAbs = 2 ^ d → roundDrop 2 x d l % 2 = 0) := by
  have hp : (0 : Int) < 2 ^ d := by positivity
  have hb := ediv_bounds x hp
  have hnat : ((2 ^ d : Nat) : Int) = 2 ^ d := by push_cast; rfl
  have hnext : (x / 2 ^ d + 1) * 2 ^ d = x / 2 ^ d * 2 ^ d + 2 ^ d := by ring
  simp only [roundDrop, Int.fdiv_eq_ediv_of_nonneg _ hp.le, Int.fmod_eq_emod_of_nonneg _ (show (0 : Int) ≤ 2 by decide)]
  split
  · omega
  · split
    · rw [hnext]; omega
    · split
      · omega
      · rw [hnext]; omega

theorem roundDrop_stochastic_le (hd : d ≤ 32) : roundDrop 3 x d l = (x + (l.toNat >>> (32 - d) : Nat)) / 2 ^ d := by
  rw [Nat.shiftRight_eq_div_pow]
  simp only [roundDrop, if_pos hd]
  exact Int.fdiv_eq_ediv_of_nonneg _ (by positivity)

theorem roundDrop_stochastic_gt (hd : 32 < d) : roundDrop 3 x d l = (x + (l.toNat : Int) * 2 ^ (d - 32)) / 2 ^ d := by
  simp only [roundDrop, if_neg (Nat.not_le.mpr hd)]
  push_cast
  exact Int.fdiv_eq_ediv_of_nonneg _ (by positivity)

end Modes

/-- The effective mode of a function code below 5, the core whose generator it has advanced, and a saturated result. -/
def modeOf (k : Core) (fn : Fin 8) : Nat := if fn.val = 0 then (k.ctl &&& 3).toNat else fn.val - 1
def generated (k : Core) (fn : Fin 8) : Core := if modeOf k fn = 3 then { k with lfsr := Nat.repeat lfsrStep 32 k.lfsr } else k
def putSat (k : Core) (rd : Fin 32) (w : Nat) (x : Int) : Core := (k.setX rd (BitVec.ofInt 32 (clamped w x).1)).setQ (clamped w x).2

theorem roundMode_le (k : Core) {fn : Fin 8} (h : fn.val ≤ 4) : k.roundMode fn.val = some (modeOf k fn) := by
  have hand : (k.ctl &&& 3).toNat = k.ctl.toNat % 4 := by
    rw [BitVec.toNat_and]
    exact Nat.and_two_pow_sub_one_eq_mod _ 2
  rw [Core.roundMode, modeOf, hand, if_pos h]
  split <;> rfl

theorem roundMode_gt (k : Core) {fn : Fin 8} (h : 5 ≤ fn.val) : k.roundMode fn.val = none := by
  rw [Core.roundMode, if_neg (by omega), if_neg (by omega)]

theorem rounded_eq (k : Core) (fn : Fin 8) : k.rounded (modeOf k fn) = generated k fn := by
  unfold Core.rounded generated
  split
  · rw [lfsrNext, foldl_range_eq_repeat lfsrStep]
  · rfl

theorem saturated_eq (k : Core) (rd : Fin 32) (x : Int) (w : Nat) : k.saturated rd x w = putSat k rd w x := by
  rw [Core.saturated, clampS_eq]
  rfl

theorem setAcc_eq (k : Core) (a : Fin 4) (x : Int) :
    k.setAcc a x = Core.setQ { k with a := k.a.set a (BitVec.ofInt 72 (clamped 72 x).1) } (clamped 72 x).2 := by
  rw [Core.setAcc, clampS_eq]

/-- A rounded result takes the mode of its function code, and Q when it is clamped. -/
theorem fixed_eq (k : Core) (rd : Fin 32) {fn : Fin 8} (x : Int) (d w : Nat) (h : fn.val ≤ 4) :
    k.fixed rd fn x d w = .ok (putSat (generated k fn) rd w (roundDrop (modeOf k fn) x d k.lfsr)) := by
  simp only [Core.fixed, roundMode_le k h, Core.roundSat, clampS_eq, rounded_eq, setQ_setX]
  rfl

theorem fixed_reserved (k : Core) (rd : Fin 32) {fn : Fin 8} (x : Int) (d w : Nat) (h : 5 ≤ fn.val) :
    k.fixed rd fn x d w = .error illegal := by
  simp only [Core.fixed, roundMode_gt k h]

/-! ## qsra -/

section Qsra

variable {s t : State} {h : Hdr} {rd a b : Fin 32} {fn : Fin 8}

theorem qsra_completes (ht : Takes s h [rd, a, b] t) (hfn : fn.val ≤ 4) (hn : ((coreOf t h).x b).toNat < 32) :
    exec (.qsra h rd a b fn) s = .next (after s t h fun k =>
      putSat (generated k fn) rd 32 (roundDrop (modeOf k fn) (k.x a).toInt (k.x b).toNat k.lfsr)) := by
  dsimp only [exec]
  rw [after, modCore_congr (g := fun _ => putSat (generated (coreOf t h) fn) rd 32
    (roundDrop (modeOf (coreOf t h) fn) ((coreOf t h).x a).toInt ((coreOf t h).x b).toNat (coreOf t h).lfsr)) rfl]
  refine ht.issueRegs_done ?_
  simp only [begin_core, roundMode_le _ hfn, if_pos hn, fixed_eq _ _ _ _ _ hfn]

theorem qsra_open (ht : Takes s h [rd, a, b] t) (hfn : fn.val ≤ 4) (hn : 32 ≤ ((coreOf t h).x b).toNat) :
    exec (.qsra h rd a b fn) s = .next (afterOpen s t h fun k => (generated k fn).setX rd (openWord t h)) := by
  dsimp only [exec]
  rw [afterOpen, modCore_congr (g := fun k => (k.rounded (modeOf (coreOf t h) fn)).setX rd (openWord t h))
    (congrArg (fun k : Core => k.setX rd _) (rounded_eq _ _).symm)]
  refine ht.issueRegs_done ?_
  simp only [begin_core, roundMode_le _ hfn]
  exact if_neg (Nat.not_lt.mpr hn)

theorem qsra_reserved (ht : Takes s h [rd, a, b] t) (hfn : 5 ≤ fn.val) :
    exec (.qsra h rd a b fn) s = .next (afterTrap s t h illegal) := by
  dsimp only [exec]
  refine ht.issueRegs_trap ?_
  simp only [roundMode_gt _ hfn]

end Qsra

/-! ## The statement -/

/-- What an ashr by 72 or more leaves (log 28). -/
abbrev openAcc (t : State) (h : Hdr) : BitVec 72 := (t.begin_ h).free_ 72

/-- Settles O8: exact results, rounded in the effective mode and clamped. -/
theorem fixedPointInstructions : Obligations.FixedPointInstructions := by
  unfold Obligations.FixedPointInstructions
  refine ⟨?_, fun k acc ps hlen hzero => ?_, fun x d l => ⟨?_, roundDrop_halfUp x d l, roundDrop_halfEven x d l,
    fun _ => roundDrop_stochastic_le x d l, roundDrop_stochastic_gt x d l⟩, ?_⟩
  · dsimp only [exec]
    refine ⟨fun s t h acc a b ht => ⟨ht.issueAlu (setAcc_eq _ _ _), ht.issueAlu (setAcc_eq _ _ _), ht.issueAlu (setAcc_eq _ _ _),
      ht.issueAlu (setAcc_eq _ _ _)⟩, fun s t h acc b ht => ⟨ht.issueAlu rfl, ht.issueAlu rfl⟩, fun s t h acc r ht =>
      ⟨⟨Config.amovScalar, ht.issueAlu rfl⟩, ⟨openAcc t h, ?_⟩⟩⟩
    exact ht.issueRegs_done rfl
  · have hval : (k.a[acc]).toInt = 0 := by rw [hzero]; rfl
    obtain ⟨hsum, hflags⟩ := macSum_exact acc ps k (by rw [hval]; omega) (by rw [hval]; omega) hlen
    refine ⟨?_, hflags⟩
    rw [hsum, hval, Int.zero_add]
  · rw [roundDrop_truncate, Int.add_mul, Int.one_mul]
    exact ediv_bounds x (by positivity)
  · intro low put mode gen rnd
    have hput : put = putSat := rfl
    have hmode : mode = modeOf := rfl
    have hgen : gen = generated := rfl
    have hrnd : rnd = fun k fn x d => roundDrop (modeOf k fn) x d k.lfsr := rfl
    clear_value put mode gen rnd
    subst hput hmode hgen hrnd
    refine ⟨fun s t h rd a b ht => ?_, fun s t h rd a b fn ht hfn => ?_, fun s t h rd acc fn ht hfn => ?_, fun s t h rd a b acc fn hfn => ?_⟩
    · dsimp only [exec]
      exact ⟨ht.issueAlu (saturated_eq _ _ _ _), ht.issueAlu (saturated_eq _ _ _ _), ht.issueAlu (saturated_eq _ _ _ _),
        ht.issueAlu (saturated_eq _ _ _ _)⟩
    · refine ⟨?_, ?_, qsra_completes ht hfn, fun hn => ⟨_, qsra_open ht hfn hn⟩⟩ <;> dsimp only [exec]
      · exact ht.issueExc_ok (fixed_eq _ _ _ _ _ hfn)
      · exact ht.issueExc_ok (fixed_eq _ _ _ _ _ hfn)
    · dsimp only [exec]
      exact ⟨ht.issueExc_ok (fixed_eq _ _ _ _ _ hfn), ht.issueExc_ok (fixed_eq _ _ _ _ _ hfn)⟩
    · refine ⟨fun ht => ⟨?_, ?_, qsra_reserved ht hfn⟩, fun ht => ⟨?_, ?_⟩⟩ <;> dsimp only [exec] <;>
        exact ht.issueExc_error (fixed_reserved _ _ _ _ _ hfn)

end Sys2Proof.Proofs
end

section
/-!
SUPPORT. Floating point: the special results, and the conversions of integers that are exact (R86, R87, R89).
-/

namespace Sys2Proof.Proofs

open Sys2Proof.Machine Sys2Proof.Claims

/-! ## What a word is -/

/-- The words that are NaN, and those that are signalling NaN, as R86 reads them. -/
def nanWord (w : Word) : Bool := decide (0x7F800000 < (w &&& 0x7FFFFFFF).toNat)
def signallingWord (w : Word) : Bool := nanWord w && !(w.getLsbD 22)

theorem magnitude_eq (w : Word) : (w &&& 0x7FFFFFFF).toNat = w.toNat % 2 ^ 31 := by
  rw [BitVec.toNat_and]
  exact Nat.and_two_pow_sub_one_eq_mod _ 31

theorem fDecode_of_nan {w : Word} (h : nanWord w = true) : fDecode w = .nan (signallingWord w) := by
  have hw := w.isLt
  have hbit : w.getLsbD 22 = decide (2 ^ 22 ≤ w.toNat % 2 ^ 23) := by
    rw [← BitVec.testBit_toNat, Nat.testBit_eq_decide_div_mod_eq, decide_eq_decide]
    omega
  rw [nanWord, magnitude_eq, decide_eq_true_eq] at h
  have hmag := h
  rw [fDecode, signallingWord, nanWord, magnitude_eq, decide_eq_true h, Bool.true_and, hbit]
  rw [if_pos (by omega), if_neg (by omega), ← decide_not]
  congr 2
  simp only [Nat.not_le]

theorem fDecode_of_not_nan {w : Word} (h : nanWord w = false) : (fDecode w).isNan = false := by
  rw [nanWord, magnitude_eq, decide_eq_false_iff_not] at h
  unfold fDecode
  dsimp only
  split
  · rw [if_pos (by omega)]; rfl
  · split <;> rfl

theorem isNan_fDecode (w : Word) : (fDecode w).isNan = nanWord w := by
  cases h : nanWord w
  · exact fDecode_of_not_nan h
  · rw [fDecode_of_nan h]; rfl

theorem sig_fDecode (w : Word) : (fDecode w).sig = if signallingWord w then 16 else 0 := by
  cases h : nanWord w
  · have hfin := fDecode_of_not_nan h
    rw [signallingWord, h]
    cases hd : fDecode w <;> simp_all [FVal.sig, FVal.isNan]
  · rw [fDecode_of_nan h]
    cases signallingWord w <;> rfl

theorem not_nan_fDecode {w : Word} {b : Bool} (h : fDecode w = .nan b) : nanWord w = true := by
  rw [← isNan_fDecode, h]
  rfl

/-! ## NaN operands -/

theorem sigs_eq (a b : Word) : (fDecode a).sig ||| (fDecode b).sig = if signallingWord a = true ∨ signallingWord b = true then 16 else 0 := by
  rw [sig_fDecode, sig_fDecode]
  cases signallingWord a <;> cases signallingWord b <;> rfl

theorem fAdd_nan {a b : Word} (h : nanWord a = true ∨ nanWord b = true) : fAdd a b = ⟨qNaN, (fDecode a).sig ||| (fDecode b).sig⟩ := by
  rw [← isNan_fDecode, ← isNan_fDecode] at h
  unfold fAdd
  generalize fDecode a = x at h
  generalize fDecode b = y at h
  cases x <;> cases y <;> simp [FVal.isNan] at h <;> rfl

theorem fMul_nan {a b : Word} (h : nanWord a = true ∨ nanWord b = true) : fMul a b = ⟨qNaN, (fDecode a).sig ||| (fDecode b).sig⟩ := by
  rw [← isNan_fDecode, ← isNan_fDecode] at h
  unfold fMul
  generalize fDecode a = x at h
  generalize fDecode b = y at h
  cases x <;> cases y <;> simp [FVal.isNan] at h <;> rfl

theorem fFma_nan {a b : Word} (h : nanWord a = true ∨ nanWord b = true) (c : Word) : (fFma a b c).val = qNaN := by
  have hnan : (nanWord a || nanWord b) = true := by simpa using h
  simp only [fFma, isNan_fDecode, if_pos hnan]

/-- A NaN addend, whatever the product is. -/
theorem fFma_nan_addend (a b : Word) {c : Word} (h : nanWord c = true) : (fFma a b c).val = qNaN := by
  simp only [fFma, fDecode_of_nan h, apply_ite FRes.val, ite_self]

theorem fSignOp_nan (neg : Bool) {a : Word} (h : nanWord a = true) : (fSignOp neg a).val = qNaN := by
  simp only [fSignOp, isNan_fDecode, if_pos h]

theorem fRecip_nan {a : Word} (h : nanWord a = true) : (fRecip a).val = qNaN := by
  unfold fRecip
  rw [fDecode_of_nan h]

theorem fToInt_nan {a : Word} (h : nanWord a = true) : fToInt a = ⟨0, 16⟩ := by
  unfold fToInt
  rw [fDecode_of_nan h]
  rfl

/-! ## Comparison -/

theorem fCmp_nan {a b : Word} (h : nanWord a = true ∨ nanWord b = true) :
    fCmp a b = (false, false, false, true, (fDecode a).sig ||| (fDecode b).sig) := by
  have hnan : (nanWord a || nanWord b) = true := by simpa using h
  simp only [fCmp, isNan_fDecode, if_pos hnan]

/-- Two numbers stand in one of three ways. -/
theorem fCmp_ordered {a b : Word} (h : ¬ (nanWord a = true ∨ nanWord b = true)) : ∃ x y : Int,
    fCmp a b = (decide (x < y), decide (x = y), decide (y ≤ x), false, 0) := by
  refine ⟨(fCmpInt (fDecode a) (fDecode b)).1, (fCmpInt (fDecode a) (fDecode b)).2, ?_⟩
  have hnum : ¬ (nanWord a || nanWord b) = true := by simpa using h
  simp only [fCmp, isNan_fDecode, if_neg hnum]

/-! ## Integers that binary32 holds -/

theorem fSign_toNat {s : Bool} {v : Nat} (hv : v < 2 ^ 31) : (fSign s v).toNat = v + (if s then 2 ^ 31 else 0) := by
  rw [fSign, BitVec.toNat_ofNat]
  cases s
  · exact Nat.mod_eq_of_lt (by simp only [Bool.false_eq_true, if_false]; omega)
  · exact Nat.mod_eq_of_lt (by simp only [if_true]; omega)

/-- A normal number, put together and read. -/
theorem fDecode_fSign (s : Bool) {ex m : Nat} (hex : ex < 254) (hm : 2 ^ 23 ≤ m) (hm' : m < 2 ^ 24) :
    fDecode (fSign s (ex * 2 ^ 23 + m)) = .fin s m ((ex : Int) - 149) := by
  have hnat := fSign_toNat (s := s) (v := ex * 2 ^ 23 + m) (by omega)
  have hmsb : (fSign s (ex * 2 ^ 23 + m)).msb = s := by
    rw [BitVec.msb_eq_decide, hnat]
    cases s
    · simp only [Bool.false_eq_true, if_false]
      exact decide_eq_false (by omega)
    · simp only [if_true]
      exact decide_eq_true (by omega)
  have hexp : (fSign s (ex * 2 ^ 23 + m)).toNat / 2 ^ 23 % 256 = ex + 1 := by rw [hnat]; split <;> omega
  have hfrac : (fSign s (ex * 2 ^ 23 + m)).toNat % 2 ^ 23 = m - 2 ^ 23 := by rw [hnat]; split <;> omega
  simp only [fDecode, hmsb, hexp, hfrac, if_neg (show ¬ ex + 1 = 255 by omega), if_neg (show ¬ ex + 1 = 0 by omega)]
  have hsig : 2 ^ 23 + (m - 2 ^ 23) = m := by omega
  have hexp' : ((ex + 1 : Nat) : Int) - 150 = (ex : Int) - 149 := by omega
  rw [hsig, hexp']

/-- The significand of a number below 2^24, moved up to its place. -/
theorem significand_bounds {n : Nat} (hn : n ≠ 0) (hlt : n < 2 ^ 24) :
    n.log2 ≤ 23 ∧ 2 ^ 23 ≤ n * 2 ^ (23 - n.log2) ∧ n * 2 ^ (23 - n.log2) < 2 ^ 24 := by
  have hlog : n.log2 < 24 := (Nat.log2_lt hn).mpr hlt
  have hlo : 2 ^ n.log2 ≤ n := Nat.log2_self_le hn
  have hhi : n < 2 ^ (n.log2 + 1) := (Nat.log2_lt hn).mp (Nat.lt_succ_self _)
  have hpow : 2 ^ n.log2 * 2 ^ (23 - n.log2) = 2 ^ 23 := by rw [← pow_add]; congr 1; omega
  have h1 := Nat.mul_le_mul_right (2 ^ (23 - n.log2)) hlo
  have h2 := Nat.mul_lt_mul_of_pos_right hhi (Nat.two_pow_pos (23 - n.log2))
  rw [pow_succ, Nat.mul_right_comm] at h2
  omega

theorem fRound_exact (s : Bool) {n : Nat} (hn : n ≠ 0) (hlt : n < 2 ^ 24) :
    fRound s n 0 false = ⟨fSign s ((n.log2 + 126) * 2 ^ 23 + n * 2 ^ (23 - n.log2)), 0⟩ := by
  obtain ⟨hlog, hlo, hhi⟩ := significand_bounds hn hlt
  have hplace : ((0 : Int) - ((n.log2 : Int) + 0 - 23)).toNat = 23 - n.log2 := by omega
  have hexp : ((n.log2 : Int) + 0 - 23 + 149).toNat = n.log2 + 126 := by omega
  unfold fRound
  rw [if_neg (by simp [hn])]
  simp only [if_neg (show ¬ ((n.log2 : Int) + 0 - 23 < -149) by omega), if_pos (show (n.log2 : Int) + 0 - 23 ≤ 0 by omega), hplace, hexp]
  rw [if_neg (by omega)]
  simp

/-- Rounding drops nothing of a multiple. -/
theorem rne_mul (n d : Nat) : rne (n * 2 ^ d) d false = (n, false) := by
  have hp := Nat.two_pow_pos d
  simp only [rne, Nat.mul_div_cancel _ hp, Nat.mul_mod_left]
  rw [if_neg (by simp [hp.ne])]
  simp

/-- A whole number read back from its significand. -/
theorem fToInt_whole {w : Word} {s : Bool} {n d : Nat} (hw : fDecode w = .fin s (n * 2 ^ d) (-(d : Int))) (hn : n < 2 ^ 31) :
    fToInt w = ⟨if s then BitVec.ofInt 32 (-(n : Int)) else BitVec.ofNat 32 n, 0⟩ := by
  have hround : (if (0 : Int) ≤ -(d : Int) then (n * 2 ^ d * 2 ^ (-(d : Int)).toNat, false) else rne (n * 2 ^ d) (- -(d : Int)).toNat false) =
      (n, false) := by
    by_cases hd : d = 0
    · subst hd; simp
    · rw [if_neg (by omega), Int.neg_neg, Int.toNat_natCast, rne_mul]
  unfold fToInt
  rw [hw]
  simp only [hround]
  cases s
  · simp only [Bool.false_eq_true, if_false]
    rw [if_neg (by omega)]
  · simp only [Bool.false_eq_true, if_false, if_true]
    rw [if_neg (by omega)]

/-- An integer below 2^24 converts without loss, there and back. -/
theorem fFromInt_exact {a : Word} (ha : a.toInt.natAbs < 2 ^ 24) : (fFromInt a).flags = 0 ∧ fToInt (fFromInt a).val = ⟨a, 0⟩ := by
  by_cases hzero : a.toInt.natAbs = 0
  · obtain rfl : a = 0 := BitVec.toInt_inj.mp (Int.natAbs_eq_zero.mp hzero)
    have hnull : fFromInt 0 = ⟨0, 0⟩ := by simp [fFromInt, fRound, fSign]
    have hback : fToInt 0 = ⟨0, 0⟩ := by decide
    rw [hnull]
    exact ⟨rfl, hback⟩
  · obtain ⟨hlog, hlo, hhi⟩ := significand_bounds hzero ha
    have hround := fRound_exact (decide (a.toInt < 0)) hzero ha
    rw [fFromInt, hround]
    refine ⟨rfl, ?_⟩
    have hread := fDecode_fSign (decide (a.toInt < 0)) (ex := a.toInt.natAbs.log2 + 126) (by omega) hlo hhi
    have hexp : ((a.toInt.natAbs.log2 + 126 : Nat) : Int) - 149 = -((23 - a.toInt.natAbs.log2 : Nat) : Int) := by omega
    rw [hexp] at hread
    refine (fToInt_whole hread (by omega)).trans (congrArg (FRes.mk · 0) ?_)
    by_cases hneg : a.toInt < 0
    · rw [if_pos (decide_eq_true hneg), Int.ofNat_natAbs_of_nonpos hneg.le, Int.neg_neg, BitVec.ofInt_toInt]
    · rw [if_neg (by simpa using hneg), ← BitVec.ofInt_natCast, Int.natAbs_of_nonneg (not_lt.mp hneg), BitVec.ofInt_toInt]

/-! ## The statement -/

/-- Flags of the instruction as the statement writes them. -/
theorem raiseFp_eq (k : Core) (h : Hdr) (fl : BitVec 5) : k.raiseFp (k.pc - BitVec.ofNat 32 (hdrLen h)) fl =
    if fl &&& (k.ctl.extractLsb' 8 5) ≠ 0 ∧ k.fpPend = none then
      { k with fpstat := k.fpstat ||| fl.setWidth 32, fpPend := some 0, fppc := k.pc - BitVec.ofNat 32 (hdrLen h) }
    else { k with fpstat := k.fpstat ||| fl.setWidth 32 } := rfl

/-- Settles O9: the special results, and the integers that binary32 holds. -/
theorem floatingPointInstructions : Obligations.FloatingPointInstructions := by
  unfold Obligations.FloatingPointInstructions
  refine ⟨?_, fun a b c => ?_⟩
  · intro raise put
    dsimp only [exec]
    have hraise : raise = fun k h fl => k.raiseFp (k.pc - BitVec.ofNat 32 (hdrLen h)) fl := rfl
    have hput : put = fun k h rd r => k.fpResult h rd r := rfl
    clear_value put
    clear_value raise
    subst hraise hput
    exact ⟨fun s t h rd a b ht => ⟨ht.issueAlu rfl, ht.issueAlu rfl, ht.issueAlu rfl, ht.issueAlu rfl, ht.issueAlu rfl⟩,
      fun s t h rd a b c ht => ⟨ht.issueAlu rfl, ht.issueAlu rfl⟩, fun s t h a b ht => ht.issueAlu rfl,
      fun s t h rd a ht => ⟨ht.issueAlu rfl, ht.issueAlu rfl, ht.issueAlu rfl, ht.issueAlu rfl, ht.issueAlu rfl⟩⟩
  · intro isNan isSig
    have hnan : isNan = nanWord := rfl
    have hsig : isSig = signallingWord := rfl
    clear_value isSig
    clear_value isNan
    subst hnan hsig
    refine ⟨fun h => ?_, fFma_nan_addend a b, fun h => ⟨fSignOp_nan _ h, fSignOp_nan _ h, fRecip_nan h, fToInt_nan h⟩, ?_,
      by decide, fFromInt_exact, by decide⟩
    · rw [fAdd_nan h, fMul_nan h]
      exact ⟨rfl, rfl, fFma_nan h c, sigs_eq a b, sigs_eq a b⟩
    · by_cases h : nanWord a = true ∨ nanWord b = true
      · rw [fCmp_nan h]
        simp [h]
      · obtain ⟨x, y, hcmp⟩ := fCmp_ordered h
        rw [hcmp]
        refine ⟨⟨fun hv => Bool.noConfusion hv, fun hn => absurd hn h⟩, fun hz => ?_, ?_⟩
        · exact decide_eq_true (of_decide_eq_true hz).ge
        · by_cases hlt : x < y
          · exact .inl (by simp [hlt])
          · exact .inr (.inl (by simp [hlt, not_lt.mp hlt]))

end Sys2Proof.Proofs
end

section
/-!
SUPPORT. The checks of a segment, the fetch, and the branches (R66-R75, R98).
-/

namespace Sys2Proof.Proofs

open Sys2Proof.Machine Sys2Proof.Claims

/-! ## The checks of a segment (R75) -/

/-- The segment grants the rights that an access needs, at the core's level. -/
def Grants (k : Core) (seg : Fin 8) (r w x : Bool) : Prop :=
  (r = true → (k.seg[seg]).r = true) ∧ (w = true → (k.seg[seg]).w = true) ∧ (x = true → (k.seg[seg]).x = true) ∧
    (k.status.getLsbD 0 = true ∨ (k.seg[seg]).u = true)

section Checks

variable {k : Core} {seg : Fin 8} {o n : Nat} {r w x : Bool}

theorem not_grants_iff : ((r && !(k.seg[seg]).r) || (w && !(k.seg[seg]).w) || (x && !(k.seg[seg]).x) || (!k.sLevel && !(k.seg[seg]).u)) = true ↔
    ¬ Grants k seg r w x := by
  rw [← not_iff_not, not_not]
  simp only [Grants, Core.sLevel, Bool.or_eq_true, Bool.and_eq_true, Bool.not_eq_true', not_or, not_and, Bool.not_eq_false, and_assoc]
  cases k.status.getLsbD 0 <;> simp

theorem segCheck_rights (h : ¬ Grants k seg r w x) : k.segCheck seg o n r w x = some (memExc excRights seg o) := by
  simp only [Core.segCheck, if_pos (not_grants_iff.mpr h)]
  rfl

theorem segCheck_limit (h : Grants k seg r w x) (hl : 2 ^ 32 ≤ o ∨ (k.seg[seg]).limit.toNat < o + n) :
    k.segCheck seg o n r w x = some (memExc excLimit seg o) := by
  simp only [Core.segCheck, if_neg (fun hn => not_grants_iff.mp hn h), if_pos hl]
  rfl

theorem segCheck_none (h : Grants k seg r w x) (hl : o < 2 ^ 32 ∧ o + n ≤ (k.seg[seg]).limit.toNat) :
    k.segCheck seg o n r w x = none := by
  simp only [Core.segCheck, if_neg (fun hn => not_grants_iff.mp hn h), if_neg (show ¬ (2 ^ 32 ≤ o ∨ (k.seg[seg]).limit.toNat < o + n) by omega)]

end Checks

/-! ## The fetch -/

section Fetch

variable {s : State} {c : Fin 8} {len : Nat}

theorem codeSeg_eq (k : Core) : k.codeSeg = if k.status.getLsbD 0 then 7 else 0 := rfl

theorem memExc_pc (code : Nat) (k : Core) (seg : Fin 8) :
    memExc code seg k.pc.toNat = { code := code, seg := seg, faddr := some k.pc } := by
  rw [memExc, BitVec.ofNat_toNat, BitVec.setWidth_eq]

theorem fetch_odd (h : (s.cores[c]).pc.toNat % 2 = 1) :
    s.fetch c len = (some { code := 0x04, seg := (s.cores[c]).codeSeg, faddr := some (s.cores[c]).pc }, s) := by
  simp only [State.fetch, if_pos h]
  rfl

theorem fetch_checked {e : Exc} (h : (s.cores[c]).pc.toNat % 2 = 0)
    (he : (s.cores[c]).segCheck (s.cores[c]).codeSeg (s.cores[c]).pc.toNat len false false true = some e) : s.fetch c len = (some e, s) := by
  simp only [State.fetch, if_neg (show ¬ (s.cores[c]).pc.toNat % 2 = 1 by omega), he]

theorem fetch_mem {code off : Nat} (h : (s.cores[c]).pc.toNat % 2 = 0)
    (he : (s.cores[c]).segCheck (s.cores[c]).codeSeg (s.cores[c]).pc.toNat len false false true = none)
    (hp : s.place ((s.cores[c]).phys (s.cores[c]).codeSeg (s.cores[c]).pc.toNat) = .mem code off) :
    s.fetch c len = (if (s.readRange (coreRouter c) code off len).1 then
        some { code := 0x01, seg := (s.cores[c]).codeSeg, faddr := some (s.cores[c]).pc } else none,
      (s.readRange (coreRouter c) code off len).2) := by
  simp only [State.fetch, if_neg (show ¬ (s.cores[c]).pc.toNat % 2 = 1 by omega), he, hp]
  rfl

end Fetch

/-! ## Branches -/

theorem ownPc_coreOf (t : State) (h : Hdr) : (coreOf t h).ownPc h = (t.cores[h.core]).pc := by
  rw [Core.ownPc, coreOf_eq]
  exact add_sub_cancel_right _ _

theorem pc_coreOf (t : State) (h : Hdr) : (coreOf t h).pc = (t.cores[h.core]).pc + (if h.short then 2 else 4) := by
  rw [coreOf_eq]
  unfold hdrLen
  cases h.short <;> rfl

theorem target_coreOf (t : State) (h : Hdr) (off : BitVec 21) :
    (coreOf t h).target h off = (t.cores[h.core]).pc + BitVec.ofInt 32 (2 * off.toInt) := by
  rw [Core.target, ownPc_coreOf, BitVec.ofInt_mul, mul_comm]
  rfl

/-! ## The statement -/

/-- Settles O15: the branches from the pc that the instruction finds, the fetch from the checks of its segment. -/
theorem branchesAndFetch : Obligations.BranchesAndFetch := by
  unfold Obligations.BranchesAndFetch
  refine ⟨?_, fun s c len code off => ?_⟩
  · dsimp only [exec]
    exact ⟨fun s t h off ht => ht.issueAlu (by rw [target_coreOf]), fun s t h off ht => ht.issueAlu (by rw [target_coreOf, pc_coreOf]),
      fun s t h r ht => ht.issueAlu rfl, fun s t h r ht => ht.issueAlu (by rw [pc_coreOf])⟩
  · refine ⟨fetch_odd, fun heven hbad => ?_, fun heven hx hu => ?_⟩
    · rw [fetch_checked heven (segCheck_rights (fun hg => ?_)), memExc_pc]
      · rfl
      · obtain ⟨-, -, hx, hu⟩ := hg
        rcases hbad with h | ⟨hl, hn⟩
        · exact Bool.noConfusion (h.symm.trans (hx rfl))
        · exact hu.elim (fun h => Bool.noConfusion (hl.symm.trans h)) (fun h => Bool.noConfusion (hn.symm.trans h))
    · have hg : Grants s.cores[c] (s.cores[c]).codeSeg false false true := ⟨(nomatch ·), (nomatch ·), fun _ => hx, hu⟩
      have hpc := (s.cores[c]).pc.isLt
      refine ⟨fun hlim => ?_, fun hlim hplace => ?_⟩
      · rw [fetch_checked heven (segCheck_limit hg (.inr hlim)), memExc_pc]
        rfl
      · exact fetch_mem heven (segCheck_none hg ⟨hpc, hlim⟩) hplace

end Sys2Proof.Proofs
end

section
/-!
SUPPORT. One access of a core to memory: what it answers when it passes its checks and when it does not (R75, R76, R97).
-/

namespace Sys2Proof.Proofs

open Sys2Proof.Machine Sys2Proof.Claims

/-! ## Checks -/

theorem memCheck_misaligned (k : Core) (seg : Fin 8) {o align : Nat} (n : Nat) (r w : Bool) (h : o % align ≠ 0) :
    k.memCheck seg o n align r w = some (memExc excMisaligned seg o) := if_pos h

theorem memCheck_aligned (k : Core) (seg : Fin 8) {o align : Nat} (n : Nat) (r w : Bool) (h : o % align = 0) :
    k.memCheck seg o n align r w = k.segCheck seg o n r w false := if_neg (not_not.mpr h)

end Sys2Proof.Proofs

namespace Sys2Proof.Claims

open Sys2Proof.Machine Sys2Proof.Proofs

section Lands

variable {u v : State} {c seg : Fin 8} {o n align code off : Nat} {r w r' w' : Bool}

/-- An access that lands passes its checks, and those of fewer rights. -/
theorem Lands.memCheck_none (hl : Lands u c seg o n align r w code off) (hr : r' = true → r = true) (hw : w' = true → w = true) :
    (u.cores[c]).memCheck seg o n align r' w' = none := by
  obtain ⟨hread, hwrite, hlevel⟩ := hl.rights
  rw [memCheck_aligned _ _ _ _ _ hl.aligned]
  exact segCheck_none ⟨fun h => hread (hr h), fun h => hwrite (hw h), (nomatch ·), hlevel⟩ hl.limit

theorem Lands.coreRead_eq (hl : Lands u c seg o n align true w code off) (hw : w' = true → w = true) :
    u.coreRead c seg o n align w' =
      if (u.readRange (coreRouter c) code off n).1 then .exc (u.readRange (coreRouter c) code off n).2 (memExc excLoad seg o)
      else .ok (u.memBytes code off n) (u.readRange (coreRouter c) code off n).2 := by
  have hbus : u.busRead (.core c) (coreRouter c) ((u.cores[c]).phys seg o) n =
      .data (u.readRange (coreRouter c) code off n).1 (u.memBytes code off n) (u.readRange (coreRouter c) code off n).2 := by
    simp only [State.busRead, hl.place]
  simp only [State.coreRead, hl.memCheck_none id hw, hl.order, hbus]
  cases (u.readRange (coreRouter c) code off n).1 <;> rfl

theorem Lands.read (hl : Lands u c seg o n align true w code off) (hw : w' = true → w = true)
    (hr : u.readRange (coreRouter c) code off n = (false, v)) : u.coreRead c seg o n align w' = .ok (u.memBytes code off n) v := by
  rw [hl.coreRead_eq hw, hr]
  rfl

theorem Lands.read_bad (hl : Lands u c seg o n align true w code off) (hw : w' = true → w = true)
    (hr : u.readRange (coreRouter c) code off n = (true, v)) : u.coreRead c seg o n align w' = .exc v (memExc excLoad seg o) := by
  rw [hl.coreRead_eq hw, hr]
  rfl

/-- A store that lands in a memory the core may write is performed. -/
theorem Lands.write {data : List Byte} (hl : Lands u c seg o n align r true code off) (hm : MayStore u c code off n) (hn : data.length = n) :
    u.coreWrite c seg o align data = .ok () (storeAt u c ((u.cores[c]).phys seg o) code off data) := by
  subst hn
  have hmay : ¬ (code = 1 ∧ ¬ (u.mayStage (coreRouter c) 0 off && u.mayStage (coreRouter c) 0 (off + (data.length - 1))) = true) := by
    rintro ⟨h1, h2⟩
    obtain ⟨ha, hb⟩ := hm h1
    exact h2 (by rw [ha, hb]; rfl)
  have hbus : u.busWrite (.core c) (some c) (coreRouter c) 0 ((u.cores[c]).phys seg o) data =
      .done (storeAt u c ((u.cores[c]).phys seg o) code off data) := by
    simp only [State.busWrite, hl.place, if_neg hmay]
    rfl
  simp only [State.coreWrite, hl.memCheck_none (r' := false) (nomatch ·) id, hl.order, hbus]
  rfl

end Lands

end Sys2Proof.Claims

namespace Sys2Proof.Proofs

open Sys2Proof.Machine Sys2Proof.Claims

section Failing

variable {u : State} {c seg : Fin 8} {o n align : Nat} {w : Bool} {e : Exc}

theorem coreRead_exc (h : (u.cores[c]).memCheck seg o n align true w = some e) : u.coreRead c seg o n align w = .exc u e := by
  simp only [State.coreRead, h]

theorem coreWrite_exc {data : List Byte} (h : (u.cores[c]).memCheck seg o data.length align false true = some e) :
    u.coreWrite c seg o align data = .exc u e := by
  simp only [State.coreWrite, h]

/-- An address of no unit (log 4). -/
theorem coreRead_hole (h : (u.cores[c]).memCheck seg o n align true w = none) (ho : u.arrayFirst c ((u.cores[c]).phys seg o) n = false)
    (hp : u.placeOf ((u.cores[c]).phys seg o) n = .hole) :
    u.coreRead c seg o n align w = .ok (leBytes (u.free_ (8 * n)).toNat n) u.used := by
  simp only [State.coreRead, h, ho, State.busRead, hp]
  rfl

theorem coreWrite_hole {data : List Byte} (hn : data.length = n) (h : (u.cores[c]).memCheck seg o n align false true = none)
    (ho : u.arrayFirst c ((u.cores[c]).phys seg o) n = false) (hp : u.placeOf ((u.cores[c]).phys seg o) n = .hole) :
    u.coreWrite c seg o align data = .ok () u := by
  subst hn
  simp only [State.coreWrite, h, ho, State.busWrite, hp]
  rfl

end Failing

/-! ## Bytes and words (R4) -/

theorem length_leBytes (x n : Nat) : (leBytes x n).length = n := by rw [leBytes, List.length_map, List.length_range]

theorem leNat_append (a b : List Byte) : leNat (a ++ b) = leNat a + 256 ^ a.length * leNat b := by
  induction a with
  | nil => simp [leNat]
  | cons x a ih =>
    simp only [leNat, List.cons_append, List.foldr_cons, List.length_cons] at ih ⊢
    rw [ih, pow_succ]
    ring

theorem leNat_lt (a : List Byte) : leNat a < 256 ^ a.length := by
  induction a with
  | nil => simp [leNat]
  | cons x a ih =>
    have hx := x.isLt
    simp only [leNat, List.foldr_cons, List.length_cons, pow_succ] at ih ⊢
    omega

theorem toNat_append_eq {m n : Nat} (y : BitVec m) (x : BitVec n) : (y ++ x).toNat = x.toNat + 2 ^ n * y.toNat := by
  rw [BitVec.toNat_append, ← Nat.shiftLeft_add_eq_or_of_lt x.isLt, Nat.shiftLeft_eq, Nat.add_comm, Nat.mul_comm]

theorem half_of_bytes (x y : Byte) : BitVec.ofNat 16 (leNat [x, y]) = y ++ x := by
  apply BitVec.eq_of_toNat_eq
  have hx := x.isLt
  have hy := y.isLt
  rw [toNat_append_eq, BitVec.toNat_ofNat]
  simp only [leNat, List.foldr_cons, List.foldr_nil]
  omega

theorem word_of_bytes (w x y z : Byte) : BitVec.ofNat 32 (leNat [w, x, y, z]) = z ++ y ++ x ++ w := by
  apply BitVec.eq_of_toNat_eq
  have hw := w.isLt
  have hx := x.isLt
  have hy := y.isLt
  have hz := z.isLt
  rw [toNat_append_eq, toNat_append_eq, toNat_append_eq, BitVec.toNat_ofNat]
  simp only [leNat, List.foldr_cons, List.foldr_nil]
  omega

theorem byte_eq (x : Word) (j : Nat) : BitVec.ofNat 8 (x.toNat / 256 ^ j) = x.extractLsb' (8 * j) 8 := by
  apply BitVec.eq_of_toNat_eq
  rw [BitVec.extractLsb'_toNat, BitVec.toNat_ofNat, Nat.shiftRight_eq_div_pow, pow_mul]
  rfl

/-- The bytes of a word, and of a pair, in their order. -/
theorem leBytes_word (x : Word) (n : Nat) : leBytes x.toNat n = (List.range n).map fun j => x.extractLsb' (8 * j) 8 :=
  List.map_congr_left fun j _ => byte_eq x j

theorem leBytes_add (x m n : Nat) : leBytes x (m + n) = leBytes x m ++ leBytes (x / 256 ^ m) n := by
  simp only [leBytes, List.range_add, List.map_append, List.map_map]
  congr 1
  exact List.map_congr_left fun j _ => by simp only [Function.comp_apply, pow_add, Nat.div_div_eq_div_mul]

theorem leBytes_mod (x m : Nat) : leBytes (x % 256 ^ m) m = leBytes x m := by
  refine List.map_congr_left fun j hj => BitVec.eq_of_toNat_eq ?_
  have hjm : j + 1 ≤ m := List.mem_range.mp hj
  have hpow : 256 ^ m = 256 ^ j * 256 ^ (m - j) := by rw [← pow_add]; congr 1; omega
  have hdvd : 256 ∣ 256 ^ (m - j) := dvd_pow_self _ (by omega)
  rw [BitVec.toNat_ofNat, BitVec.toNat_ofNat, hpow, Nat.mod_mul_right_div_self]
  exact Nat.mod_mod_of_dvd _ hdvd

theorem leBytes_pair (hi lo : Word) : leBytes (hi ++ lo).toNat 8 =
    (List.range 4).map (fun j => lo.extractLsb' (8 * j) 8) ++ (List.range 4).map (fun j => hi.extractLsb' (8 * j) 8) := by
  have hlo := lo.isLt
  have hlow : (lo.toNat + 2 ^ 32 * hi.toNat) % 256 ^ 4 = lo.toNat := by omega
  have hhigh : (lo.toNat + 2 ^ 32 * hi.toNat) / 256 ^ 4 = hi.toNat := by omega
  rw [toNat_append_eq, leBytes_add _ 4 4, ← leBytes_mod, hlow, hhigh, leBytes_word, leBytes_word]

/-- A doubleword is the pair of its words. -/
theorem setX2_bytes (k : Core) {rd hi : Fin 32} (hhi : hi.val = rd.val + 1) (a b : List Byte) (ha : a.length = 4) :
    k.setX2 rd (BitVec.ofNat 64 (leNat (a ++ b))) =
      (k.setX rd (BitVec.ofNat 32 (leNat a))).setX hi (BitVec.ofNat 32 (leNat b)) := by
  have hlt := leNat_lt a
  rw [ha] at hlt
  have hlow : (BitVec.ofNat 64 (leNat (a ++ b))).setWidth 32 = BitVec.ofNat 32 (leNat a) := by
    apply BitVec.eq_of_toNat_eq
    rw [leNat_append, ha, BitVec.toNat_setWidth, BitVec.toNat_ofNat, BitVec.toNat_ofNat]
    omega
  have hhigh : (BitVec.ofNat 64 (leNat (a ++ b)) >>> 32).setWidth 32 = BitVec.ofNat 32 (leNat b) := by
    apply BitVec.eq_of_toNat_eq
    rw [leNat_append, ha, BitVec.toNat_setWidth, BitVec.toNat_ushiftRight, BitVec.toNat_ofNat, BitVec.toNat_ofNat, Nat.shiftRight_eq_div_pow]
    omega
  rw [Core.setX2, pairHi_eq hhi, hlow, hhigh]

theorem memBytes_add (u : State) (code off m n : Nat) : u.memBytes code off (m + n) = u.memBytes code off m ++ u.memBytes code (off + m) n := by
  simp only [State.memBytes, List.range_add, List.map_append, List.map_map]
  congr 1
  exact List.map_congr_left fun k _ => by simp only [Function.comp_apply, Nat.add_assoc]

end Sys2Proof.Proofs
end

section
/-!
SUPPORT. The scalar loads and stores (R67, R69, R76, R97).
-/

namespace Sys2Proof.Proofs

open Sys2Proof.Machine Sys2Proof.Claims

section Access

variable {s t u v : State} {h : Hdr} {rd rs hi rb : Fin 32} {seg : Fin 8} {imm : BitVec 6} {n o : Nat} {b : List Byte} {e : Exc}

/-! ## What the instruction makes of the access's answer -/

theorem load_ok (ht : Takes s h [rd, rb] t) (ho : ((coreOf t h).x rb).toNat + n * imm.toNat = o)
    (hr : (t.begin_ h).coreRead h.core seg o n n false = .ok b v) (ext : Nat → Word) : s.load h rd seg rb imm n ext =
      .next (settle s ((v.modCore h.core fun k => k.setX rd (ext (leNat b))).stepped h.core)) := by
  refine ht.issueRegs_done ?_
  rw [begin_core, memOffset, Nat.mul_comm, ho, hr]
  rfl

theorem load_exc (ht : Takes s h [rd, rb] t) (ho : ((coreOf t h).x rb).toNat + n * imm.toNat = o)
    (hr : (t.begin_ h).coreRead h.core seg o n n false = .exc v e) (ext : Nat → Word) : s.load h rd seg rb imm n ext =
      .next (settle s ((v.precise h.core e (s.cores[h.core]).pc).stepped h.core)) := by
  refine ht.issueRegs_trap ?_
  rw [begin_core, memOffset, Nat.mul_comm, ho, hr]
  rfl

theorem store_ok (ht : Takes s h [rs, rb] t) (ho : ((coreOf t h).x rb).toNat + n * imm.toNat = o)
    (hw : (t.begin_ h).coreWrite h.core seg o n (leBytes ((coreOf t h).x rs).toNat n) = .ok () v) : s.store_ h rs seg rb imm n =
      .next (settle s (v.stepped h.core)) := by
  refine ht.issueRegs_done ?_
  simp only [begin_core, memOffset, Nat.mul_comm imm.toNat, ho, hw]
  rfl

theorem store_exc (ht : Takes s h [rs, rb] t) (ho : ((coreOf t h).x rb).toNat + n * imm.toNat = o)
    (hw : (t.begin_ h).coreWrite h.core seg o n (leBytes ((coreOf t h).x rs).toNat n) = .exc v e) : s.store_ h rs seg rb imm n =
      .next (settle s ((v.precise h.core e (s.cores[h.core]).pc).stepped h.core)) := by
  refine ht.issueRegs_trap ?_
  simp only [begin_core, memOffset, Nat.mul_comm imm.toNat, ho, hw]
  rfl

theorem ldd_ok (ht : Takes s h [rd, hi, rb] t) (hhi : hi.val = rd.val + 1) (heven : rd.val % 2 = 0)
    (ho : ((coreOf t h).x rb).toNat + 8 * imm.toNat = o) (hr : (t.begin_ h).coreRead h.core seg o 8 8 false = .ok b v) :
    exec (.ldd h rd seg rb imm) s =
      .next (settle s ((v.modCore h.core fun k => k.setX2 rd (BitVec.ofNat 64 (leNat b))).stepped h.core)) := by
  obtain rfl := pairHi_eq hhi
  have hok : oddPair rd = false := by simp [oddPair, heven]
  dsimp only [exec]
  refine ht.issueRegs_done ?_
  rw [begin_core, hok, memOffset, Nat.mul_comm, ho, hr]
  rfl

theorem std_ok (ht : Takes s h [rs, hi, rb] t) (hhi : hi.val = rs.val + 1) (heven : rs.val % 2 = 0)
    (ho : ((coreOf t h).x rb).toNat + 8 * imm.toNat = o)
    (hw : (t.begin_ h).coreWrite h.core seg o 8 (leBytes ((coreOf t h).x2 rs).toNat 8) = .ok () v) :
    exec (.std h rs seg rb imm) s = .next (settle s (v.stepped h.core)) := by
  obtain rfl := pairHi_eq hhi
  have hok : oddPair rs = false := by simp [oddPair, heven]
  dsimp only [exec]
  refine ht.issueRegs_done ?_
  simp only [begin_core, hok, memOffset, Nat.mul_comm imm.toNat, ho, hw]
  rfl

end Access

theorem length_memBytes (u : State) (code off n : Nat) : (u.memBytes code off n).length = n := by
  rw [State.memBytes, List.length_map, List.length_range]

/-! ## Narrow values -/

theorem setWidth_ofNat_of_lt {m n : Nat} (w : Nat) (h : n < 2 ^ m) : (BitVec.ofNat m n).setWidth w = BitVec.ofNat w n :=
  BitVec.eq_of_toNat_eq (by simp [Nat.mod_eq_of_lt h])

theorem byte_of_bytes (x : Byte) : BitVec.ofNat 8 (leNat [x]) = x := by simp [leNat]

theorem zeroExtend_byte (x : Byte) : BitVec.ofNat 32 (leNat [x]) = x.setWidth 32 := by
  have hlt : leNat [x] < 256 ^ 1 := leNat_lt [x]
  rw [← setWidth_ofNat_of_lt (m := 8) 32 (by omega), byte_of_bytes]

theorem zeroExtend_half (x y : Byte) : BitVec.ofNat 32 (leNat [x, y]) = (y ++ x).setWidth 32 := by
  have hlt : leNat [x, y] < 256 ^ 2 := leNat_lt [x, y]
  rw [← setWidth_ofNat_of_lt (m := 16) 32 (by omega), half_of_bytes]

/-! ## What a word's load and store raise -/

section Raises

variable {s t : State} {h : Hdr} {rd rb : Fin 32} {seg : Fin 8} {imm : BitVec 6} {o : Nat} {e : Exc}

theorem ldw_raises (ht : Takes s h [rd, rb] t) (ho : ((coreOf t h).x rb).toNat + 4 * imm.toNat = o)
    (he : (coreOf t h).memCheck seg o 4 4 true false = some e) : exec (.ldw h rd seg rb imm) s = .next (afterTrap s t h e) :=
  load_exc ht ho (coreRead_exc he) _

theorem stw_raises (ht : Takes s h [rd, rb] t) (ho : ((coreOf t h).x rb).toNat + 4 * imm.toNat = o)
    (he : (coreOf t h).memCheck seg o 4 4 false true = some e) : exec (.stw h rd seg rb imm) s = .next (afterTrap s t h e) :=
  store_exc ht ho (coreWrite_exc he)

theorem pair_odd (ht : Takes s h [rd, rd + 1, rb] t) (hodd : rd.val % 2 = 1) :
    exec (.ldd h rd seg rb imm) s = .next (afterTrap s t h illegal) ∧ exec (.std h rd seg rb imm) s = .next (afterTrap s t h illegal) := by
  rw [← pairHi_eq_add] at ht
  have hbad : oddPair rd = true := by simp [oddPair, hodd]
  dsimp only [exec]
  exact ⟨ht.issueRegs_trap (if_pos hbad), ht.issueRegs_trap (if_pos hbad)⟩

end Raises

/-! ## The statement -/

/-- Settles O13: an access that lands reads or stores its bytes; one that fails a check raises it, before any byte. -/
theorem loadsAndStores : Obligations.LoadsAndStores := by
  unfold Obligations.LoadsAndStores
  refine ⟨⟨fun s t v h rd seg rb imm n code off b => ?_, fun s t v h rd hi seg rb imm code off => ?_⟩,
    ⟨fun s t h rs seg rb imm n code off => ?_, fun s t h rs hi seg rb imm code off => ?_⟩, fun s t v h rd seg rb imm code off ht => ?_⟩
  · intro u o put ht hl hr hb
    have hread := hl.read (w' := false) (nomatch ·) hr
    rw [hb] at hread
    clear hb
    have hload := load_ok (imm := imm) ht rfl hread
    dsimp only [exec]
    refine ⟨?_, ?_, ?_⟩
    · rintro x rfl rfl
      exact ⟨(hload _).trans (congrArg (fun x : Byte => put (x.signExtend 32)) (byte_of_bytes x)),
        (hload _).trans (congrArg put (zeroExtend_byte x))⟩
    · rintro x y rfl rfl
      exact ⟨(hload _).trans (congrArg (fun x : BitVec 16 => put (x.signExtend 32)) (half_of_bytes x y)),
        (hload _).trans (congrArg put (zeroExtend_half x y))⟩
    · rintro w x y z rfl rfl
      exact (hload _).trans (congrArg put (word_of_bytes w x y z))
  · intro u hhi heven ht hl hr
    have hread := hl.read (w' := false) (nomatch ·) hr
    rw [memBytes_add _ _ _ 4 4] at hread
    rw [ldd_ok ht hhi heven rfl hread]
    simp only [setX2_bytes _ hhi _ _ (length_memBytes u code off 4)]
  · intro u k o put byte ht hl hm
    have hstore := store_ok ht rfl (hl.write hm (length_leBytes _ _))
    rw [leBytes_word] at hstore
    dsimp only [exec]
    refine ⟨?_, ?_, ?_⟩ <;> rintro rfl <;> exact hstore
  · intro u k o hhi heven ht hl hm
    have hstore := std_ok ht hhi heven rfl (hl.write hm (length_leBytes _ _))
    rw [Core.x2, leBytes_pair, pairHi_eq hhi] at hstore
    exact hstore
  · intro u k o g bad usable
    have hgrants (r w : Bool) (hu : usable) (hr : r = true → g.r = true) (hw : w = true → g.w = true) : Grants k seg r w false :=
      ⟨hr, hw, (nomatch ·), hu⟩
    have hpass (r w : Bool) (hal : o % 4 = 0) (hg : Grants k seg r w false) (hlim : o < 2 ^ 32 ∧ o + 4 ≤ g.limit.toNat) :
        k.memCheck seg o 4 4 r w = none := (memCheck_aligned _ _ _ _ _ hal).trans (segCheck_none hg hlim)
    refine ⟨fun hmis => ⟨?_, ?_⟩, fun hal hno => ?_, fun hal hno => ?_, fun hal hu hlim => ⟨fun hr => ?_, fun hw => ?_⟩, fun hl hr => ?_,
      fun hal hu hlim ho horder hplace => ⟨fun hr => ?_, fun hw => ?_⟩, fun hodd ht' => pair_odd ht' hodd⟩
    · exact ldw_raises ht rfl (memCheck_misaligned _ _ _ _ _ hmis)
    · exact stw_raises ht rfl (memCheck_misaligned _ _ _ _ _ hmis)
    · refine ldw_raises ht rfl ((memCheck_aligned _ _ _ _ _ hal).trans (segCheck_rights ?_))
      rintro ⟨hr, -, -, hu⟩
      exact hno.elim (fun h => Bool.noConfusion (h.symm.trans (hr rfl))) (fun h => h hu)
    · refine stw_raises ht rfl ((memCheck_aligned _ _ _ _ _ hal).trans (segCheck_rights ?_))
      rintro ⟨-, hw, -, hu⟩
      exact hno.elim (fun h => Bool.noConfusion (h.symm.trans (hw rfl))) (fun h => h hu)
    · exact ldw_raises ht rfl ((memCheck_aligned _ _ _ _ _ hal).trans (segCheck_limit (hgrants _ _ hu (fun _ => hr) (nomatch ·)) hlim))
    · exact stw_raises ht rfl ((memCheck_aligned _ _ _ _ _ hal).trans (segCheck_limit (hgrants _ _ hu (nomatch ·) (fun _ => hw)) hlim))
    · exact load_exc ht rfl (hl.read_bad (nomatch ·) hr) _
    · exact ⟨_, load_ok ht rfl (coreRead_hole (hpass _ _ hal (hgrants _ _ hu (fun _ => hr) (nomatch ·)) ⟨ho, hlim⟩) horder hplace) _⟩
    · rw [after_id]
      exact store_ok ht rfl
        (coreWrite_hole (length_leBytes _ 4) (hpass _ _ hal (hgrants _ _ hu (nomatch ·) (fun _ => hw)) ⟨ho, hlim⟩) horder hplace)

end Sys2Proof.Proofs
end

section
/-!
SUPPORT. What a trap's entry, a halt and a reset do to a core and its expander (R48, R53, R99, R101, R123).
-/

namespace Sys2Proof.Proofs

open Sys2Proof.Machine Sys2Proof.Claims

section Parts

variable {ps : List Part} {s t : State}

theorem only_cores (h : .cores ∈ ps) (x : Vector Core 8) : Only ps s { s with cores := x } :=
  ⟨rfl, rfl, rfl, rfl, fun p hp => by cases p <;> simp_all [Part.same]⟩

theorem only_devs (h : .devs ∈ ps) (x : Vector Dev 4) : Only ps s { s with devs := x } :=
  ⟨rfl, rfl, rfl, rfl, fun p hp => by cases p <;> simp_all [Part.same]⟩

theorem only_grains (h : .grains ∈ ps) (x : Grains) : Only ps s { s with grains := x } :=
  ⟨rfl, rfl, rfl, rfl, fun p hp => by cases p <;> simp_all [Part.same]⟩

@[simp] theorem only_modCore (h : .cores ∈ ps) (c : Fin 8) (f : Core → Core) : Only ps s (t.modCore c f) ↔ Only ps s t :=
  only_iff_of_step (only_cores h _)

@[simp] theorem only_modDev (h : .devs ∈ ps) (d : Fin 4) (f : Dev → Dev) : Only ps s (t.modDev d f) ↔ Only ps s t :=
  only_iff_of_step (only_devs h _)

@[simp] theorem only_setGrains (h : .grains ∈ ps) (g : Grains) : Only ps s (t.setGrains g) ↔ Only ps s t :=
  only_iff_of_step (only_grains h _)

end Parts

@[simp] theorem onlyRegs_modCore {rs : List (RegName × Nat)} {s t : State} (c : Fin 8) (f : Core → Core) :
    OnlyRegs rs s (t.modCore c f) ↔ OnlyRegs rs s t := onlyRegs_iff_of_step (onlyRegs_of_regs_eq rfl)

@[simp] theorem onlyRegs_modDev {rs : List (RegName × Nat)} {s t : State} (d : Fin 4) (f : Dev → Dev) :
    OnlyRegs rs s (t.modDev d f) ↔ OnlyRegs rs s t := onlyRegs_iff_of_step (onlyRegs_of_regs_eq rfl)

@[simp] theorem onlyRegs_setGrains {rs : List (RegName × Nat)} {s t : State} (g : Grains) :
    OnlyRegs rs s (t.setGrains g) ↔ OnlyRegs rs s t := onlyRegs_iff_of_step (onlyRegs_of_regs_eq rfl)

/-! ## A gang write put off -/

/-- It takes effect or it does not. -/
theorem gangDue_cases (s : State) : s.gangDue = s ∨
    ∃ m, s.grains.gangDeferred = some m ∧
      s.gangDue = (s.setGrains { s.grains with gangDeferred := none }).fset F.GRN_GANG_MODE m.toNat := by
  unfold State.gangDue
  split
  next m hm =>
    split
    · exact .inl rfl
    · exact .inr ⟨m, hm, rfl⟩
  next => exact .inl rfl

@[simp] theorem gangDue_cores (s : State) : s.gangDue.cores = s.cores := by
  obtain h | ⟨m, -, h⟩ := gangDue_cases s
  · rw [h]
  · rw [h]
    rfl

@[simp] theorem gangDue_devs (s : State) : s.gangDue.devs = s.devs := by
  obtain h | ⟨m, -, h⟩ := gangDue_cases s
  · rw [h]
  · rw [h]
    rfl

theorem gangDue_none {s : State} (h : s.grains.gangDeferred = none) : s.gangDue = s := by
  unfold State.gangDue
  rw [h]

theorem only_gangDue (s : State) : Only [.grains, .regs] s s.gangDue := by
  obtain h | ⟨m, -, h⟩ := gangDue_cases s <;> rw [h] <;> simp

theorem onlyRegs_gangDue (s : State) : OnlyRegs [(.GRN_GANG, 0)] s s.gangDue := by
  obtain h | ⟨m, -, h⟩ := gangDue_cases s <;> rw [h]
  · simp
  · exact (onlyRegs_fset (by decide) (by decide) _).mpr (by simp)

/-! ## A Developer's expander is reached -/

/-- The sequencer as the interruption leaves it. -/
def abandoned (x : Dev) : Dev :=
  { x with
    fogRunning := false
    ex := { x.ex with
      st := (match x.ex.st with
        | .waitg _ => if x.ex.committed then x.ex.st else .abandoned
        | .running => if x.ex.committed then x.ex.st else .abandoned
        | st => st)
      stopped := true } }

theorem abandon_eq (s : State) (d : Fin 4) : s.abandon d = (s.modDev d abandoned).gangDue := rfl

@[simp] theorem abandon_cores (s : State) (d : Fin 4) : (s.abandon d).cores = s.cores := by rw [abandon_eq, gangDue_cores]; rfl

theorem abandon_dev (s : State) (d : Fin 4) : (s.abandon d).devs[d] = abandoned s.devs[d] := by
  simp [abandon_eq, State.modDev]

theorem only_abandon (s : State) (d : Fin 4) : Only [.devs, .grains, .regs] s (s.abandon d) :=
  only_trans (by simp) (only_mono (only_gangDue (s.modDev d abandoned)) (by simp))

theorem onlyRegs_abandon (s : State) (d : Fin 4) : OnlyRegs [(.GRN_GANG, 0)] s (s.abandon d) :=
  onlyRegs_trans (by simp) (onlyRegs_gangDue (s.modDev d abandoned))

theorem only_abandon_none {s : State} (h : s.grains.gangDeferred = none) (d : Fin 4) : Only [.devs] s (s.abandon d) := by
  rw [abandon_eq, gangDue_none (s := s.modDev d abandoned) h]
  simp

/-- The expander of a core that has one. -/
def abandonOf (s : State) (c : Fin 8) : State := if h : c.val < 4 then s.abandon ⟨c.val, h⟩ else s

@[simp] theorem abandonOf_cores (s : State) (c : Fin 8) : (abandonOf s c).cores = s.cores := by
  unfold abandonOf
  split
  · rw [abandon_cores]
  · rfl

theorem only_abandonOf (s : State) (c : Fin 8) : Only [.devs, .grains, .regs] s (abandonOf s c) := by
  unfold abandonOf
  split
  · exact only_abandon _ _
  · exact only_refl _ _

theorem onlyRegs_abandonOf (s : State) (c : Fin 8) : OnlyRegs [(.GRN_GANG, 0)] s (abandonOf s c) := by
  unfold abandonOf
  split
  · exact onlyRegs_abandon _ _
  · exact onlyRegs_refl _ _

theorem only_abandonOf_none {s : State} (h : s.grains.gangDeferred = none) (c : Fin 8) : Only [.devs] s (abandonOf s c) := by
  unfold abandonOf
  split
  · exact only_abandon_none h _
  · exact only_refl _ _

/-! ## Trap entry (R99) -/

/-- The core at its handler. -/
def entered (cause : Word) (f : Option Word) (tpc : Word) (k : Core) : Core :=
  { k with
    tpc := tpc, cause := cause, faddr := f.getD k.faddr, tstat := k.status &&& 3, status := 0x11, resv := none, pc := k.thandler }

section Enter

variable (s : State) (c : Fin 8) (cause : Word) (f : Option Word) (tpc : Word)

theorem enter_eq : s.enter c cause f tpc = abandonOf (s.modCore c (entered cause f tpc)) c := rfl

theorem enter_core : (s.enter c cause f tpc).cores[c] = entered cause f tpc s.cores[c] := by
  simp only [enter_eq, abandonOf_cores, cores_modCore_same]

theorem enter_other {c' : Fin 8} (h : c' ≠ c) : (s.enter c cause f tpc).cores[c'] = s.cores[c'] := by
  simp only [enter_eq, abandonOf_cores]
  exact cores_modCore_other s h _

theorem only_enter : Only [.cores, .devs, .grains, .regs] s (s.enter c cause f tpc) :=
  only_trans (by simp) (only_mono (only_abandonOf (s.modCore c (entered cause f tpc)) c) (by simp))

theorem onlyRegs_enter : OnlyRegs [(.GRN_GANG, 0)] s (s.enter c cause f tpc) :=
  onlyRegs_trans (by simp) (onlyRegs_abandonOf (s.modCore c (entered cause f tpc)) c)

theorem only_enter_none (h : s.grains.gangDeferred = none) : Only [.cores, .devs] s (s.enter c cause f tpc) :=
  only_trans (t := s.modCore c (entered cause f tpc)) (by simp)
    (only_mono (only_abandonOf_none (s := s.modCore c (entered cause f tpc)) h c) (by simp))

end Enter

/-! ## Halts and resets -/

theorem haltCore_core (s : State) (c : Fin 8) :
    (s.haltCore c).cores[c] = { s.cores[c] with halted := true, stepping := false, resv := none } := by
  have h : s.haltCore c = abandonOf (s.modCore c fun k => { k with halted := true, stepping := false, resv := none }) c := rfl
  simp only [h, abandonOf_cores, cores_modCore_same]

theorem resetCore_core (s : State) (c : Fin 8) : ∃ n, (s.resetCore c).cores[c] = { Core.atReset c with cycleBase := n } := by
  unfold State.resetCore
  dsimp only
  split
  · exact ⟨_, by simp only [State.modDev_cores, cores_modCore_same]; rfl⟩
  · exact ⟨_, cores_modCore_same _ _ _⟩

end Sys2Proof.Proofs
end

section
/-!
SUPPORT. Load-reserve and store-conditional, and what ends a reservation (R100, R101).
-/

namespace Sys2Proof.Proofs

open Sys2Proof.Machine Sys2Proof.Claims

/-! ## The check of an atomic access -/

theorem place_of_placeOf {s : State} {a n code off : Nat} (h : s.placeOf a n = .mem code off) : s.place a = .mem code off := by
  unfold State.placeOf at h
  split at h
  next a' off' b _ hp _ =>
    split at h
    · exact hp.trans h
    · cases h
  all_goals cases h

/-- The memories that support atomics: DDR5, the core and the Developer SRAMs. -/
theorem atomic_mem {code : Nat} (h : code = 3 ∨ (4 ≤ code ∧ code ≤ 15)) (off : Nat) : (Place.mem code off).atomic = true :=
  decide_eq_true (by omega)

theorem not_atomic_mem {code : Nat} (h : code = 1 ∨ code = 2) (off : Nat) : (Place.mem code off).atomic = false :=
  decide_eq_false (by omega)

section Check

variable {u : State} {c seg : Fin 8} {o n code off : Nat}

theorem atomicCheck_none (hm : (u.cores[c]).memCheck seg o n n true true = none)
    (hp : u.place ((u.cores[c]).phys seg o) = .mem code off) (hc : code = 3 ∨ (4 ≤ code ∧ code ≤ 15)) :
    u.atomicCheck c seg o n = none := by
  simp only [State.atomicCheck, hm, hp, atomic_mem hc, if_true]

theorem atomicCheck_unsupported (hm : (u.cores[c]).memCheck seg o n n true true = none)
    (hp : u.place ((u.cores[c]).phys seg o) = .mem code off) (hc : code = 1 ∨ code = 2) :
    u.atomicCheck c seg o n = some (memExc excAtomic seg o) := by
  simp only [State.atomicCheck, hm, hp, not_atomic_mem hc]
  rfl

end Check

/-! ## Load-reserve -/

theorem loadReserve_ok {u v : State} {h : Hdr} {seg : Fin 8} {ra : Fin 32} {n code off : Nat}
    (hl : Lands u h.core seg ((u.cores[h.core]).x ra).toNat n n true true code off) (hc : code = 3 ∨ (4 ≤ code ∧ code ≤ 15))
    (hr : u.readRange (coreRouter h.core) code off n = (false, v)) (put : Nat → Core → Core) :
    u.loadReserve h seg ra n put = .done (v.modCore h.core fun x =>
      { put (leNat (u.memBytes code off n)) x with resv := some ((u.cores[h.core]).phys seg ((u.cores[h.core]).x ra).toNat / 8) }) := by
  simp only [State.loadReserve, atomicCheck_none (hl.memCheck_none id id) (place_of_placeOf hl.place) hc, hl.read id hr]
  rfl

theorem loadReserve_unsupported {u : State} {h : Hdr} {seg : Fin 8} {ra : Fin 32} {n code off : Nat}
    (hl : Lands u h.core seg ((u.cores[h.core]).x ra).toNat n n true true code off) (hc : code = 1 ∨ code = 2) (put : Nat → Core → Core) :
    u.loadReserve h seg ra n put = .trap u (memExc excAtomic seg ((u.cores[h.core]).x ra).toNat) := by
  simp only [State.loadReserve, atomicCheck_unsupported (hl.memCheck_none id id) (place_of_placeOf hl.place) hc]

/-! ## Store-conditional -/

section StoreConditional

variable {u : State} {h : Hdr} {rd : Fin 32} {seg : Fin 8} {ra : Fin 32} {n code off : Nat}

/-- The core without its reservation. -/
def unreserved (u : State) (c : Fin 8) : State := u.modCore c fun x => { x with resv := none }

theorem unreserved_core (u : State) (c : Fin 8) : (unreserved u c).cores[c] = { u.cores[c] with resv := none } := cores_modCore_same u c _

/-- A reservation has no part in the checks. -/
theorem atomicCheck_unreserved (u : State) (c seg : Fin 8) (o n : Nat) : (unreserved u c).atomicCheck c seg o n = u.atomicCheck c seg o n := by
  simp only [State.atomicCheck, unreserved_core]
  rfl

theorem storeConditional_fails (hl : Lands (unreserved u h.core) h.core seg ((u.cores[h.core]).x ra).toNat n n true true code off)
    (hc : code = 3 ∨ (4 ≤ code ∧ code ≤ 15))
    (hv : (u.cores[h.core]).resv ≠ some ((u.cores[h.core]).phys seg ((u.cores[h.core]).x ra).toNat / 8)) (v : Nat) :
    u.storeConditional h rd seg ra n v = .done ((unreserved u h.core).modCore h.core fun x => x.setX rd 1) := by
  have hcheck := atomicCheck_none (hl.memCheck_none id id) (place_of_placeOf hl.place) hc
  rw [atomicCheck_unreserved] at hcheck
  simp only [State.storeConditional, hcheck, if_neg hv]
  rfl

theorem storeConditional_succeeds (hl : Lands (unreserved u h.core) h.core seg ((u.cores[h.core]).x ra).toNat n n true true code off)
    (hc : code = 3 ∨ (4 ≤ code ∧ code ≤ 15))
    (hv : (u.cores[h.core]).resv = some ((u.cores[h.core]).phys seg ((u.cores[h.core]).x ra).toNat / 8)) (v : Nat) :
    u.storeConditional h rd seg ra n v =
      .done ((storeAt (unreserved u h.core) h.core ((u.cores[h.core]).phys seg ((u.cores[h.core]).x ra).toNat) code off (leBytes v n)).modCore
        h.core fun x => x.setX rd 0) := by
  have hcheck := atomicCheck_none (hl.memCheck_none id id) (place_of_placeOf hl.place) hc
  rw [atomicCheck_unreserved] at hcheck
  have hwrite := hl.write (data := leBytes v n) (fun h1 => absurd h1 (by omega)) (length_leBytes _ _)
  rw [unreserved_core] at hwrite
  simp only [State.storeConditional, hcheck, if_pos hv]
  rw [show (u.modCore h.core fun x => { x with resv := none }).coreWrite h.core seg ((u.cores[h.core]).x ra).toNat n (leBytes v n) = _ from hwrite]
  rfl

end StoreConditional

theorem storeConditional_unsupported {u : State} {h : Hdr} {rd : Fin 32} {seg : Fin 8} {ra : Fin 32} {n code off : Nat}
    (hl : Lands u h.core seg ((u.cores[h.core]).x ra).toNat n n true true code off) (hc : code = 1 ∨ code = 2) (v : Nat) :
    u.storeConditional h rd seg ra n v = .trap u (memExc excAtomic seg ((u.cores[h.core]).x ra).toNat) := by
  simp only [State.storeConditional, atomicCheck_unsupported (hl.memCheck_none id id) (place_of_placeOf hl.place) hc]

/-! ## What ends a reservation -/

/-- A step of a fold that establishes a property which the other steps keep. -/
theorem foldl_reaches {α β : Type} {p q : β → Prop} {l : List α} {f : β → α → β} {a : α} (ha : a ∈ l) (hp : ∀ b x, p b → p (f b x))
    (hq : ∀ b x, q b → q (f b x)) (hpq : ∀ b, p b → q (f b a)) {b : β} (h : p b) : q (l.foldl f b) := by
  obtain ⟨before, after, rfl⟩ := List.append_of_mem ha
  rw [List.foldl_append, List.foldl_cons]
  exact foldl_keeps after f hq _ (hpq _ (foldl_keeps before f hp _ h))

section BreakResv

variable (by_ : Option (Fin 8)) (c : Fin 8)

/-- One core's part of the step. -/
def breakOne (granule : Nat) (i : Fin 8) (s : State) : State :=
  if by_ ≠ some i ∧ (s.cores[i]).resv = some granule then s.modCore i fun k => { k with resv := none } else s

theorem breakResv_eq (s : State) (g : Nat) : s.breakResv by_ g = s.forFin 8 (breakOne by_ g) := rfl

variable {c} in
theorem breakOne_other (g : Nat) {i : Fin 8} (h : c ≠ i) (s : State) : (breakOne by_ g i s).cores[c] = s.cores[c] := by
  unfold breakOne
  split
  · exact cores_modCore_other s h _
  · rfl

variable {by_ c}

theorem breakOne_none {g : Nat} (i : Fin 8) {s : State} (h : (s.cores[c]).resv = none) : ((breakOne by_ g i s).cores[c]).resv = none := by
  by_cases hi : c = i
  · subst hi
    rw [breakOne, if_neg (fun hb => Option.some_ne_none g (hb.2.symm.trans h))]
    exact h
  · rw [breakOne_other _ _ hi]
    exact h

theorem breakOne_some {g g' : Nat} (hkeep : by_ = some c ∨ g' ≠ g) (i : Fin 8) {s : State} (h : (s.cores[c]).resv = some g) :
    ((breakOne by_ g' i s).cores[c]).resv = some g := by
  by_cases hi : c = i
  · subst hi
    rw [breakOne, if_neg (fun hb => hkeep.elim hb.1 (fun hne => hne (Option.some.inj (hb.2.symm.trans h))))]
    exact h
  · rw [breakOne_other _ _ hi]
    exact h

theorem breakOne_ends {g : Nat} (hby : by_ ≠ some c) {s : State} (h : (s.cores[c]).resv = some g ∨ (s.cores[c]).resv = none) :
    ((breakOne by_ g c s).cores[c]).resv = none := by
  obtain h | h := h
  · rw [breakOne, if_pos ⟨hby, h⟩, cores_modCore_same]
  · exact breakOne_none c h

/-- A granule at a time: the reservation stands or has ended. -/
theorem breakOne_some_or_none {g g' : Nat} (i : Fin 8) {s : State} (h : (s.cores[c]).resv = some g ∨ (s.cores[c]).resv = none) :
    ((breakOne by_ g' i s).cores[c]).resv = some g ∨ ((breakOne by_ g' i s).cores[c]).resv = none := by
  obtain h | h := h
  · by_cases hkeep : by_ = some c ∨ g' ≠ g
    · exact .inl (breakOne_some hkeep i h)
    · obtain ⟨hby, hg⟩ := not_or.mp hkeep
      obtain rfl := not_not.mp hg
      by_cases hi : c = i
      · subst hi
        exact .inr (breakOne_ends hby (.inl h))
      · exact .inl ((congrArg Core.resv (breakOne_other _ _ hi s)).trans h)
  · exact .inr (breakOne_none i h)

theorem breakResv_none {g : Nat} {s : State} (h : (s.cores[c]).resv = none) : ((s.breakResv by_ g).cores[c]).resv = none :=
  forFin_keeps (p := fun s : State => (s.cores[c]).resv = none) 8 (breakOne by_ g) (fun _ i => breakOne_none i) s h

theorem breakResv_some {g g' : Nat} (hkeep : by_ = some c ∨ g' ≠ g) {s : State} (h : (s.cores[c]).resv = some g) :
    ((s.breakResv by_ g').cores[c]).resv = some g :=
  forFin_keeps (p := fun s : State => (s.cores[c]).resv = some g) 8 (breakOne by_ g') (fun _ i => breakOne_some hkeep i) s h

theorem breakResv_some_or_none {g g' : Nat} {s : State} (h : (s.cores[c]).resv = some g ∨ (s.cores[c]).resv = none) :
    ((s.breakResv by_ g').cores[c]).resv = some g ∨ ((s.breakResv by_ g').cores[c]).resv = none :=
  forFin_keeps (p := fun s : State => (s.cores[c]).resv = some g ∨ (s.cores[c]).resv = none) 8 (breakOne by_ g')
    (fun _ i => breakOne_some_or_none i) s h

theorem breakResv_ends {g : Nat} (hby : by_ ≠ some c) {s : State} (h : (s.cores[c]).resv = some g ∨ (s.cores[c]).resv = none) :
    ((s.breakResv by_ g).cores[c]).resv = none :=
  foldl_reaches (p := fun s : State => (s.cores[c]).resv = some g ∨ (s.cores[c]).resv = none) (q := fun s : State => (s.cores[c]).resv = none)
    (f := fun s i => breakOne by_ g i s) (List.mem_finRange c) (fun _ i => breakOne_some_or_none i) (fun _ i => breakOne_none i)
    (fun _ => breakOne_ends hby) h

theorem breakRange_ends {a n g : Nat} (hby : by_ ≠ some c) (hlow : a / 8 ≤ g) (hhigh : g ≤ (a + n - 1) / 8) (hn : 0 < n) {s : State}
    (h : (s.cores[c]).resv = some g) : ((s.breakRange by_ a n).cores[c]).resv = none := by
  rw [State.breakRange, if_neg hn.ne']
  refine foldl_reaches (p := fun s : State => (s.cores[c]).resv = some g ∨ (s.cores[c]).resv = none) (q := fun s : State => (s.cores[c]).resv = none)
    (a := g - a / 8) (List.mem_range.mpr (by omega)) (fun _ _ => breakResv_some_or_none) (fun _ _ => breakResv_none) (fun b hb => ?_) (.inl h)
  rw [Nat.add_sub_cancel' hlow]
  exact breakResv_ends hby hb

theorem foldl_breakResv_some {base g : Nat} {s : State} (l : List Nat) (hkeep : ∀ k ∈ l, by_ = some c ∨ base + k ≠ g)
    (h : (s.cores[c]).resv = some g) : ((l.foldl (fun s k => s.breakResv by_ (base + k)) s).cores[c]).resv = some g := by
  induction l generalizing s with
  | nil => exact h
  | cons k l ih =>
    obtain ⟨hk, hl⟩ := List.forall_mem_cons.mp hkeep
    exact ih hl (breakResv_some hk h)

theorem breakRange_keeps {a n g : Nat} (hkeep : by_ = some c ∨ n = 0 ∨ g < a / 8 ∨ (a + n - 1) / 8 < g) {s : State}
    (h : (s.cores[c]).resv = some g) : ((s.breakRange by_ a n).cores[c]).resv = some g := by
  unfold State.breakRange
  split
  · exact h
  next hn =>
    refine foldl_breakResv_some _ (fun k hk => hkeep.imp_right fun hout => ?_) h
    have hk' := List.mem_range.mp hk
    omega

end BreakResv

/-! ## The statement -/

/-- Settles O14: an atomic access is a checked access that lands, and each event is the change it makes to the core's reservation. -/
theorem atomics : Obligations.Atomics := by
  unfold Obligations.Atomics
  refine ⟨⟨?_, ?_, ?_, ?_⟩, ⟨?_, ?_, ?_⟩⟩
  · intro s t v h rd seg ra code off ht u k o hl hc hr
    dsimp only [exec]
    exact ht.issueRegs_done (loadReserve_ok hl hc hr _)
  · intro s t v h rd hi seg ra code off hhi heven ht u k o hl hc hr
    obtain rfl := pairHi_eq hhi
    have hok : oddPair rd = false := by simp [oddPair, heven]
    dsimp only [exec]
    refine ht.issueRegs_done ?_
    rw [hok]
    exact loadReserve_ok hl hc hr fun v k => k.setX2 rd (BitVec.ofNat 64 v)
  · intro s t h rd rs hi seg ra code off u k o a fail succeed hc
    dsimp only [exec]
    refine ⟨fun ht hl => ⟨fun hv => ?_, fun hv => ?_⟩, fun hhi heven ht hl => ?_⟩
    · exact ht.issueRegs_done (storeConditional_fails hl hc hv _)
    · exact ht.issueRegs_done (storeConditional_succeeds hl hc hv _)
    · obtain rfl := pairHi_eq hhi
      have hok : oddPair rs = false := by simp [oddPair, heven]
      refine ⟨fun hv => ht.issueRegs_done ?_, fun hv => ht.issueRegs_done ?_⟩
      · rw [hok]
        exact storeConditional_fails hl hc hv _
      · rw [hok]
        exact storeConditional_succeeds hl hc hv _
  · intro s t h rd rs seg ra u o code off hl hc
    dsimp only [exec]
    exact ⟨fun ht => ht.issueRegs_trap (loadReserve_unsupported hl hc _), fun ht => ht.issueRegs_trap (storeConditional_unsupported hl hc _)⟩
  · exact fun s by_ a n c g h => ⟨fun hby hlow hhigh hn => breakRange_ends hby hlow hhigh hn h, fun hkeep => breakRange_keeps hkeep h⟩
  · exact fun s c cause f tpc => congrArg Core.resv (enter_core s c cause f tpc)
  · intro s c
    obtain ⟨n, hn⟩ := resetCore_core s c
    exact ⟨congrArg Core.resv (haltCore_core s c), congrArg Core.resv hn⟩

end Sys2Proof.Proofs
end

section
/-!
SUPPORT. A machine-check halt leaves its core halted, whatever goes to Safe with it (R99, R136, R310).
-/

namespace Sys2Proof.Proofs

open Sys2Proof.Machine Sys2Proof.Claims

/-! ## What does not touch the cores -/

theorem foldl_cores {α : Type} {f : State → α → State} (hf : ∀ s a, (f s a).cores = s.cores) (l : List α) (s : State) :
    (l.foldl f s).cores = s.cores :=
  foldl_keeps (p := fun t => t.cores = s.cores) l f (fun t a h => (hf t a).trans h) s rfl

theorem forFin_cores {n : Nat} {f : Fin n → State → State} (hf : ∀ s i, (f i s).cores = s.cores) (s : State) :
    (s.forFin n f).cores = s.cores := foldl_cores hf _ s

theorem doutChanges_cores (s old : State) : (s.doutChanges old).cores = s.cores :=
  forFin_cores (fun t o => by split <;> rfl) s

@[simp] theorem driveHoldReq_cores (s : State) (v : Bool) : (s.driveHoldReq v).cores = s.cores := doutChanges_cores _ _

@[simp] theorem closeRun_cores (s : State) (stale : Bool) : (s.closeRun stale).cores = s.cores := by
  unfold State.closeRun
  split
  · rfl
  · simp [State.reportRun]

@[simp] theorem abortWaiting_cores (s : State) (fn : Fin 8) : (s.abortWaiting fn).cores = s.cores := by
  unfold State.abortWaiting
  extract_lets holds resumes mine loads pend _ _ cleared flags
  exact (foldl_cores (fun t c => State.completeOpen_cores t c _) _ _).trans (foldl_cores (fun t c => State.complete_cores t c _ _ _) _ _)

theorem sendBlocks_cores (s : State) (l : Fin 16) (o : Out) : (s.sendBlocks l o).cores = s.cores := rfl

@[simp] theorem dropBands_cores (s : State) : s.dropBands.cores = s.cores := by
  unfold State.dropBands
  exact forFin_cores (fun t p => by simp) s

@[simp] theorem releaseReel_cores (s : State) (h : BitVec 32) : (s.releaseReel h).cores = s.cores := by
  unfold State.releaseReel
  split
  · split <;> rfl
  · rfl

@[simp] theorem abortHeld_cores (s : State) (sel : Fin 8 → Bool) : (s.abortHeld sel).cores = s.cores :=
  foldl_cores (f := fun t (p : Pending) => t.completeOpen p.cmd stABORTED) (fun t p => State.completeOpen_cores t p.cmd _) _ _

@[simp] theorem releaseLoaded_cores (s : State) (sel : Fin 8 → Bool) : (s.releaseLoaded sel).cores = s.cores := rfl

@[simp] theorem releaseLoupe_cores (s : State) : s.releaseLoupe.cores = s.cores := by
  unfold State.releaseLoupe
  dsimp only
  split <;> rfl

/-! ## A core that has halted -/

/-- The core runs nothing and holds no reservation. -/
def Off (c : Fin 8) (s : State) : Prop := (s.cores[c]).run ≠ .running ∧ (s.cores[c]).resv = none

section Off

variable {c : Fin 8} {s t : State}

theorem off_congr (h : t.cores = s.cores) (hs : Off c s) : Off c t := by
  unfold Off
  rwa [h]

theorem off_modCore {f : Core → Core} (i : Fin 8) (hrun : ∀ k, k.run ≠ .running → (f k).run ≠ .running)
    (hresv : ∀ k, k.resv = none → (f k).resv = none) (hs : Off c s) : Off c (s.modCore i f) := by
  unfold Off
  by_cases hi : c = i
  · subst hi
    rw [cores_modCore_same]
    exact ⟨hrun _ hs.1, hresv _ hs.2⟩
  · rw [cores_modCore_other _ hi]
    exact hs

theorem off_haltCore (i : Fin 8) (hs : Off c s) : Off c (s.haltCore i) :=
  off_congr (abandonOf_cores _ _) (off_modCore i (fun _ => id) (fun _ _ => rfl) hs)

theorem off_applyHalts (hs : Off c s) : Off c s.applyHalts := by
  refine off_congr (s := s.forFin 4 _) rfl (forFin_keeps 4 _ (fun t d ht => ?_) s hs)
  split
  · exact off_haltCore _ ht
  · exact ht

theorem off_stopDevelopers (hs : Off c s) : Off c s.stopDevelopers :=
  forFin_keeps (p := Off c) 4 (fun d s => (s.abandon d).modCore (devCore d) fun k => { k with run := .stopped })
    (fun t d ht => off_modCore _ (fun _ _ => by nofun) (fun _ => id) (off_congr (abandon_cores t d) ht)) s hs

theorem off_endJob (hs : Off c s) : Off c s.endJob := by
  unfold State.endJob
  split
  · exact hs
  next j _ =>
    extract_lets runs waited posted aborts driven _ swath lanes devs reel staged _
    have h1 : posted.cores = s.cores := by
      simp only [posted, waited, runs]
      split <;> simp
    have h2 : aborts.cores = posted.cores := foldl_cores (fun t c => State.complete_cores t c _ _ _) _ _
    have h3 : driven.cores = aborts.cores := driveHoldReq_cores _ _
    have h4 : lanes.cores = swath.cores := forFin_cores (fun t l => State.modLane_cores t l _) swath
    have hswath : swath.cores = driven.cores := by simp only [swath]
    have h5 : devs.cores = lanes.cores := forFin_cores (fun t d => State.modDev_cores t d _) lanes
    have h6 : reel.cores = devs.cores := by simp only [reel, releaseReel_cores, dropBands_cores]
    have h7 : staged.cores = reel.cores := by
      simp only [staged]
      split
      · simp only [State.dropStaged, State.setNextLoad, State.modFn_cores]
      · rfl
    clear_value staged
    exact off_applyHalts (off_congr (h7.trans (h6.trans (h5.trans (h4.trans (hswath.trans (h3.trans (h2.trans h1))))))) hs)

theorem off_safeEntry (cause : Nat) (hs : Off c s) : Off c (s.safeEntry cause) := by
  unfold State.safeEntry
  split
  · exact hs
  split
  · exact off_congr rfl hs
  · extract_lets number unarmed _ unwired lanes fab outs devs job held loaded drained locked prev mode
    have h1 : lanes.cores = s.cores := forFin_cores (fun t l =>
      (State.modLane_cores _ _ _).trans (foldl_cores (fun t n => foldl_cores (fun t m => sendBlocks_cores t _ _) _ t) _ t)) unwired
    have h2 : fab.cores = lanes.cores := forFin_cores (fun t r => State.modFab_cores t _ _) lanes
    have h3 : outs.cores = fab.cores := forFin_cores (fun t o => by simp only [State.emit_cores]) fab
    have h4 : Off c devs := off_congr (dropBands_cores _) (off_stopDevelopers (off_congr (h3.trans (h2.trans h1)) hs))
    have h5 : loaded.cores = job.cores := (releaseLoaded_cores _ _).trans (abortHeld_cores _ _)
    have h6 : drained.cores = loaded.cores := by
      simp only [drained]
      split
      · simp only [State.fset_cores, State.completeOpen_cores]
      · rfl
    clear_value drained
    have h7 : mode.cores = drained.cores := by simp only [mode, locked, State.fset_cores, releaseLoupe_cores, State.abortUnlock_cores]
    clear_value mode
    refine off_congr ?_ (off_endJob h4)
    rw [State.raise_cores, State.csReport_cores, h7, h6, h5]

end Off

theorem machineHalt_off (s : State) (c : Fin 8) : Off c (s.machineHalt c) := by
  have h0 : Off c (s.modCore c fun k => { k with run := .mcHalt, resv := none }) := by
    unfold Off
    rw [cores_modCore_same]
    exact ⟨nofun, rfl⟩
  unfold State.machineHalt
  extract_lets halted cause
  split
  · extract_lets d stopped line reported raised
    have h1 : raised.cores = halted.cores := by
      simp only [raised, reported, stopped, State.raise_cores, State.csMasked_cores, State.fset_cores, abandon_cores, State.used_cores]
    have h2 : Off c raised := off_congr h1 h0
    split
    · exact off_safeEntry 2 h2
    · exact h2
  · exact h0

end Sys2Proof.Proofs
end

section
/-!
SUPPORT. Traps, interrupts, machine checks and the system instructions (R68, R89, R97-R99, R104).
-/

namespace Sys2Proof.Proofs

open Sys2Proof.Machine Sys2Proof.Claims

/-! ## Precise exceptions (R97, R99) -/

section Precise

variable {s : State} {c : Fin 8} {e : Exc} {pc : Word}

theorem precise_enter (hfp : (s.cores[c]).fpPend = none) (htrap : (s.cores[c]).status.getLsbD 4 = false) :
    s.precise c e pc = s.enter c (BitVec.ofNat 32 (e.code + 256 * e.seg)) e.faddr pc := by
  simp only [State.precise, Core.trap, hfp, htrap]
  rfl

/-- A double fault. -/
theorem precise_halt (hfp : (s.cores[c]).fpPend = none) (htrap : (s.cores[c]).status.getLsbD 4 = true) :
    s.precise c e pc = s.machineHalt c := by
  simp only [State.precise, Core.trap, hfp, htrap]
  rfl

end Precise

theorem enter_dev (s : State) {c : Fin 8} {d : Fin 4} (h : d.val = c.val) (cause : Word) (f : Option Word) (tpc : Word) :
    (s.enter c cause f tpc).devs[d] = abandoned s.devs[d] := by
  have hc : c.val < 4 := h ▸ d.isLt
  obtain rfl : d = ⟨c.val, hc⟩ := Fin.ext h
  rw [enter_eq, abandonOf, dif_pos hc, abandon_dev]
  rfl

theorem enter_devs (s : State) {c : Fin 8} (h : 4 ≤ c.val) (cause : Word) (f : Option Word) (tpc : Word) :
    (s.enter c cause f tpc).devs = s.devs := by
  rw [enter_eq, abandonOf, dif_neg (by omega)]
  rfl

/-! ## The boundary -/

theorem coreRuns_executes {s : State} {c : Fin 8} (h : s.coreRuns c = true) : (s.cores[c]).run = .running := by
  simp only [State.coreRuns, Core.executes, Bool.and_eq_true, decide_eq_true_eq] at h
  exact h.2.1

theorem coreRuns_modCore {s : State} {c : Fin 8} {f : Core → Core} (h : (f s.cores[c]).executes = (s.cores[c]).executes) :
    (s.modCore c f).coreRuns c = s.coreRuns c := by
  unfold State.coreRuns
  rw [cores_modCore_same, h]
  rfl

section Boundary

variable {s : State} {c : Fin 8}

theorem atBoundary_not (h : s.coreRuns c = false) : s.atBoundary c = s := by simp [State.atBoundary, h]

theorem boundary_idle (hmc : (s.cores[c]).mcPend = false) (hfp : (s.cores[c]).fpPend = none) (hie : (s.cores[c]).status.getLsbD 1 = false) :
    s.boundary c = none := by
  simp only [State.boundary, Core.ie, hmc, hfp, hie]
  rfl

theorem boundary_interrupt {n : BitVec 8} {rest : List (BitVec 8)} (hmc : (s.cores[c]).mcPend = false) (hfp : (s.cores[c]).fpPend = none)
    (hie : (s.cores[c]).status.getLsbD 1 = true) (hints : (s.cores[c]).ints = n :: rest) :
    s.boundary c = some ((s.modCore c fun k => { k with ints := rest }).enter c (BitVec.ofNat 32 (2 ^ 31 + n.toNat)) none (s.cores[c]).pc) := by
  simp only [State.boundary, Core.ie, hmc, hfp, hie, hints]
  rfl

theorem atBoundary_idle (hmc : (s.cores[c]).mcPend = false) (hfp : (s.cores[c]).fpPend = none) (hie : (s.cores[c]).status.getLsbD 1 = false) :
    s.atBoundary c = s := by
  unfold State.atBoundary
  rw [boundary_idle hmc hfp hie]
  split <;> rfl

theorem atBoundary_some {t : State} (h : s.coreRuns c = true) (hb : s.boundary c = some t) : s.atBoundary c = t := by
  simp [State.atBoundary, h, hb]

end Boundary

/-! ## INTERRUPT -/

/-- A number becomes pending, once, and ends a wfi. -/
def pended (n : BitVec 8) (k : Core) : Core :=
  { k with ints := if k.ints.contains n then k.ints else k.ints ++ [n], run := if k.run = .wfi then .running else k.run }

theorem interruptCore_eq (s : State) (c : Fin 8) (n : BitVec 8) : s.interruptCore c n = (s.modCore c (pended n)).atBoundary c := rfl

theorem pended_new {n : BitVec 8} {k : Core} (h : n ∉ k.ints) :
    pended n k = { k with ints := k.ints ++ [n], run := if k.run = .wfi then .running else k.run } := by
  simp [pended, h]

theorem pended_awake {n : BitVec 8} {k : Core} (h : n ∉ k.ints) (hrun : k.run ≠ .wfi) : pended n k = { k with ints := k.ints ++ [n] } := by
  rw [pended_new h, if_neg hrun]

theorem interrupt_cause (n : BitVec 8) : BitVec.ofNat 32 (2 ^ 31 + n.toNat) = 0x80000000 ||| n.setWidth 32 := by
  have hn := n.isLt
  apply BitVec.eq_of_toNat_eq
  have hor : 2 ^ 31 * 1 + n.toNat = 2 ^ 31 * 1 ||| n.toNat := Nat.two_pow_add_eq_or_of_lt (by omega) 1
  rw [BitVec.toNat_or, BitVec.toNat_setWidth, BitVec.toNat_ofNat, Nat.mod_eq_of_lt (by omega), Nat.mod_eq_of_lt (by omega)]
  exact hor

/-! ## After a step -/

theorem stepped_core (s : State) (c : Fin 8) : (s.stepped c).cores[c] = { s.cores[c] with stepping := false } := by
  unfold State.stepped
  split
  · dsimp only
    split <;> simp only [State.fset_cores, cores_modCore_same]
  next h => rw [← Bool.eq_false_of_not_eq_true h]

/-! ## Fences -/

theorem tracePc_heldPush (s : State) (c : Fin 8) : (s.tracePc c).heldPush = s.heldPush := by
  unfold State.tracePc
  split
  · dsimp only
    split <;> rfl
  · rfl

theorem storeHeld_begin (t : State) (h : Hdr) : (t.begin_ h).storeHeld h.core = t.storeHeld h.core := by
  rw [State.storeHeld, State.storeHeld, show (t.begin_ h).heldPush = t.heldPush from tracePc_heldPush t h.core]

theorem fence_free {s t : State} {h : Hdr} (ht : Takes s h [] t) (hp : ∀ p ∈ t.heldPush, p.by_ ≠ .core h.core) :
    s.fence h = .next (after s t h id) := by
  have hfree : t.storeHeld h.core = false := by
    simp only [State.storeHeld, List.any_eq_false, beq_iff_eq]
    exact hp
  rw [after_id]
  refine ht.issue_done ?_
  rw [storeHeld_begin, hfree]
  rfl

theorem fence_waits {s t : State} {h : Hdr} (ht : Takes s h [] t) {p : _} (hmem : p ∈ t.heldPush) (hp : p.by_ = .core h.core) :
    s.fence h = .next s := by
  have hheld : t.storeHeld h.core = true := List.any_eq_true.mpr ⟨p, hmem, beq_iff_eq.mpr hp⟩
  refine ht.issue_stall ?_
  rw [storeHeld_begin, hheld]
  rfl

/-- A core whose wfi finds no interrupt pending waits. -/
def awaiting (k : Core) : Core := if k.ints = [] then { k with run := .wfi } else k

/-! ## What is taken at a boundary -/

theorem only_modCore_enter (s : State) (c : Fin 8) (f : Core → Core) (cause : Word) (a : Option Word) (tpc : Word) :
    Only [.cores, .devs, .grains, .regs] s ((s.modCore c f).enter c cause a tpc) :=
  only_trans (t := s.modCore c f) (by simp) (only_enter _ c cause a tpc)

theorem onlyRegs_modCore_enter (s : State) (c : Fin 8) (f : Core → Core) (cause : Word) (a : Option Word) (tpc : Word) :
    OnlyRegs [(.GRN_GANG, 0)] s ((s.modCore c f).enter c cause a tpc) :=
  onlyRegs_trans (t := s.modCore c f) (by simp) (onlyRegs_enter _ c cause a tpc)

theorem modCore_enter_core (s : State) (c : Fin 8) (f : Core → Core) (cause : Word) (a : Option Word) (tpc : Word) :
    ((s.modCore c f).enter c cause a tpc).cores[c] = entered cause a tpc (f s.cores[c]) := by
  rw [enter_core, cores_modCore_same]

/-- The core stands at its handler. -/
theorem modCore_enter_fields (s : State) (c : Fin 8) {f : Core → Core} (cause : Word) (a : Option Word) (tpc : Word)
    (hstatus : ∀ k, (f k).status = k.status) (hhandler : ∀ k, (f k).thandler = k.thandler) :
    let k : Core := ((s.modCore c f).enter c cause a tpc).cores[c]
    k.cause = cause ∧ k.tpc = tpc ∧ k.pc = (s.cores[c]).thandler ∧ k.status = 0x11 ∧ k.tstat = (s.cores[c]).status &&& 3 ∧ k.resv = none := by
  intro k
  have hk : k = entered cause a tpc (f s.cores[c]) := modCore_enter_core ..
  rw [hk]
  exact ⟨rfl, rfl, hhandler _, rfl, congrArg (· &&& 3) (hstatus _), rfl⟩

theorem effect_modCore {s : State} {c : Fin 8} {f : State → State} {g : Core → Core} (h : f s = s.modCore c g) :
    s.effect f = .next (s.modCore c g) := by
  rw [effect_of_only (ps := [.cores]) (by rw [h]; simp), h]

section Commands

variable {s : State} {c : Fin 8}

theorem interruptCore_taken {n : BitVec 8} (hr : s.coreRuns c = true) (hmc : (s.cores[c]).mcPend = false) (hfp : (s.cores[c]).fpPend = none)
    (hie : (s.cores[c]).status.getLsbD 1 = true) (hints : (s.cores[c]).ints = []) :
    s.interruptCore c n =
      (s.modCore c fun k => { k with ints := [] }).enter c (0x80000000 ||| n.setWidth 32) none (s.cores[c]).pc := by
  have hrun : (s.cores[c]).run ≠ .wfi := by rw [coreRuns_executes hr]; nofun
  have hpend : pended n s.cores[c] = { s.cores[c] with ints := [n] } := by
    rw [pended_awake (by rw [hints]; exact List.not_mem_nil) hrun, hints]
    rfl
  rw [interruptCore_eq, modCore_congr (g := fun k => { k with ints := [n] }) hpend]
  refine (atBoundary_some ((coreRuns_modCore rfl).trans hr) (boundary_interrupt (n := n) (rest := []) ?_ ?_ ?_ ?_)).trans ?_
  · rw [cores_modCore_same]
    exact hmc
  · rw [cores_modCore_same]
    exact hfp
  · rw [cores_modCore_same]
    exact hie
  · rw [cores_modCore_same]
  · rw [modCore_modCore, cores_modCore_same, interrupt_cause]

theorem interruptCore_idle {n : BitVec 8} (hmc : (s.cores[c]).mcPend = false) (hfp : (s.cores[c]).fpPend = none)
    (hie : (s.cores[c]).status.getLsbD 1 = false) : s.interruptCore c n = s.modCore c (pended n) := by
  rw [interruptCore_eq]
  refine atBoundary_idle ?_ ?_ ?_ <;> rw [cores_modCore_same]
  exacts [hmc, hfp, hie]

theorem interruptCore_asleep {n : BitVec 8} (hr : s.coreRuns c = false) (hrun : (s.cores[c]).run ≠ .wfi) :
    s.interruptCore c n = s.modCore c (pended n) := by
  rw [interruptCore_eq]
  refine atBoundary_not ((coreRuns_modCore ?_).trans hr)
  rw [pended, if_neg hrun]
  rfl

/-- What a machine check leaves of a wait. -/
def woken (k : Core) : Core :=
  match k.run with
  | .wfi => { k with run := .running }
  | .sync => { k with run := .running, pc := k.pc - 4 }
  | _ => k

/-- A machine check that is no longer pending; a pending floating-point trap is due next. -/
def checked (k : Core) : Core := { k with mcPend := false, fpPend := k.fpPend.map fun _ => 15 }

theorem takeMc_woken (s : State) (c : Fin 8) :
    (s.modCore c woken).takeMc c = (s.modCore c fun k => checked (woken k)).enter c 0x0E none (woken s.cores[c]).pc := by
  rw [← modCore_modCore s c woken checked, ← cores_modCore_same s c woken]
  rfl

theorem exec_machineCheck (s : State) (c : Fin 8) : exec (.machineCheck c) s = s.effect fun s =>
    if (s.cores[c]).mcPend ∧ (s.coreRuns c ∨
        ((decide ((s.cores[c]).run = .wfi) || decide ((s.cores[c]).run = .sync)) ∧ ¬ (s.cores[c]).halted)) then
      (s.modCore c woken).takeMc c else s := rfl

theorem woken_status (k : Core) : (woken k).status = k.status := by unfold woken; split <;> rfl
theorem woken_thandler (k : Core) : (woken k).thandler = k.thandler := by unfold woken; split <;> rfl

theorem woken_running {k : Core} (h : k.run = .running) : woken k = k := by simp only [woken, h]
theorem woken_sync {k : Core} (h : k.run = .sync) : woken k = { k with run := .running, pc := k.pc - 4 } := by simp only [woken, h]

/-- The machine check is taken: the core stands at its handler. -/
theorem machineCheck_answers {P : State → Prop} (hmc : (s.cores[c]).mcPend = true)
    (hr : s.coreRuns c = true ∨ ((s.cores[c]).run = .sync ∧ (s.cores[c]).halted = false))
    (hP : P ((s.modCore c fun k => checked (woken k)).enter c 0x0E none (woken s.cores[c]).pc)) : Answers (.machineCheck c) s P := by
  refine answers_of_eq [.cores, .devs, .grains, .regs] (exec_machineCheck s c) ?_ (only_modCore_enter ..) hP
  rw [← takeMc_woken]
  exact if_pos ⟨hmc, hr.imp_right fun ⟨hsync, hhalt⟩ => ⟨by rw [hsync]; rfl, fun h => Bool.noConfusion (hhalt.symm.trans h)⟩⟩

theorem exec_interrupt (s : State) (c : Fin 8) (n : BitVec 8) : exec (.interrupt c n) s = s.effect fun s => s.interruptCore c n := rfl

theorem exec_fpTrap (s : State) (c : Fin 8) : exec (.fpTrap c) s = s.effect fun s =>
    match (s.cores[c]).fpPend with
    | some n => if s.coreRuns c ∧ 15 ≤ n ∧ ¬ (s.cores[c]).mcPend then s.takeFp c (s.cores[c]).pc else s
    | none => s := rfl

theorem takeFp_eq (s : State) (c : Fin 8) (tpc : Word) : s.takeFp c tpc =
    (s.modCore c fun k => { k with fpPend := none }).enter c 0x0D none tpc := rfl

end Commands

/-- The core after a floating-point trap taken by an access of CORE_FPSTAT, or by an fbar. -/
theorem fbarTrap_core (t : State) (h : Hdr) : (((t.begin_ h).fbarTrap h).stepped h.core).cores[h.core] =
    { entered 0x0D none (t.cores[h.core]).pc { coreOf t h with fpPend := none } with stepping := false } := by
  rw [stepped_core, State.fbarTrap, takeFp_eq, modCore_enter_core, begin_core, ← ownPc_coreOf t h]
  rfl

/-! ## The statement -/

/-- Settles O11: each trap is `entered` on the core it finds, and each system instruction is one answer of the issue. -/
theorem trapsAndSystemInstructions : Obligations.TrapsAndSystemInstructions := by
  unfold Obligations.TrapsAndSystemInstructions
  refine ⟨⟨?_, ?_, ?_⟩, ?_, ?_⟩
  · intro s c e pc hfp
    refine ⟨fun htrap => ?_, fun htrap => ?_⟩
    · intro t k
      have ht : t = s.enter c (BitVec.ofNat 32 (e.code + 256 * e.seg)) e.faddr pc := precise_enter hfp htrap
      rw [ht]
      refine ⟨enter_core .., fun _ h => enter_other _ _ _ _ _ h, only_enter .., onlyRegs_enter _ _ _ _ _, only_enter_none _ _ _ _ _, fun d hd => ?_,
        fun h => enter_devs _ h _ _ _⟩
      rw [enter_dev s hd]
      exact ⟨rfl, rfl, rfl⟩
    · rw [precise_halt hfp htrap]
      exact machineHalt_off s c
  · intro s t h ht hpriv
    dsimp only [exec]
    refine ht.issue_done ?_
    rw [begin_core]
    exact if_neg (not_not.mpr hpriv)
  · intro s t h ht hpriv
    have huser : ¬ (coreOf t h).sLevel = true := Bool.eq_false_iff.mp hpriv
    dsimp only [exec]
    exact ⟨ht.issue_trap (if_pos huser), ht.issue_trap (if_pos huser)⟩
  · intro s c n k enters
    refine ⟨fun hr hmc hfp hie hints => ?_, fun hrun hidle hn => ?_, fun hrun hmc hfp hie hn => ?_, fun m hm hdue hr hmc => ?_, fun hnot => ?_,
      fun hmc hr => ?_, fun hmc hsync hhalt => ?_, fun hmc => ?_⟩
    · refine answers_of_eq [.cores, .devs, .grains, .regs] (exec_interrupt s c n) (interruptCore_taken hr hmc hfp hie hints) (only_modCore_enter ..)
        ⟨modCore_enter_fields _ _ _ _ _ (fun _ => rfl) (fun _ => rfl), ?_, only_modCore_enter .., onlyRegs_modCore_enter _ _ _ _ _ _⟩
      rw [modCore_enter_core]
      rfl
    · have hpend := modCore_congr (g := fun x => { x with ints := x.ints ++ [n] }) (pended_awake hn hrun)
      rw [← hpend, exec_interrupt]
      refine effect_modCore ?_
      exact hidle.elim (fun hr => interruptCore_asleep hr hrun) fun ⟨hmc, hfp, hie⟩ => interruptCore_idle hmc hfp hie
    · have hpend : pended n s.cores[c] = { s.cores[c] with ints := (s.cores[c]).ints ++ [n], run := .running } := by
        rw [pended_new hn, if_pos hrun]
      rw [exec_interrupt, ← modCore_congr (g := fun x => { x with ints := x.ints ++ [n], run := .running }) hpend]
      exact effect_modCore (interruptCore_idle hmc hfp hie)
    · refine answers_of_eq [.cores, .devs, .grains, .regs] (exec_fpTrap s c) (u := s.takeFp c k.pc) ?_ (only_modCore_enter ..)
        ⟨modCore_enter_fields _ _ _ _ _ (fun _ => rfl) (fun _ => rfl), ?_, only_modCore_enter .., onlyRegs_modCore_enter _ _ _ _ _ _⟩
      · have hm' : (s.cores[c]).fpPend = some m := hm
        simp only [hm', if_pos (show s.coreRuns c = true ∧ 15 ≤ m ∧ ¬ (s.cores[c]).mcPend = true from
          ⟨hr, hdue, fun h => Bool.noConfusion (hmc.symm.trans h)⟩)]
        rfl
      · rw [takeFp_eq, modCore_enter_core]
        rfl
    · refine exec_eq_self (exec_fpTrap s c) ?_
      split
      next m hm => exact if_neg fun hb => absurd (hnot m hm) (by omega)
      next => rfl
    · have hk := woken_running (coreRuns_executes hr)
      refine machineCheck_answers hmc (.inl hr) ?_
      rw [hk]
      refine ⟨modCore_enter_fields _ _ _ _ _ woken_status woken_thandler, ?_, only_modCore_enter .., onlyRegs_modCore_enter _ _ _ _ _ _⟩
      rw [modCore_enter_core]
      rfl
    · have hk := woken_sync hsync
      refine machineCheck_answers hmc (.inr ⟨hsync, hhalt⟩) ?_
      rw [hk]
      refine ⟨modCore_enter_fields _ _ _ _ _ woken_status woken_thandler, ?_, ?_⟩
      · rw [modCore_enter_core]
        rfl
      · rw [modCore_enter_core, hk]
        rfl
    · refine exec_eq_self (exec_machineCheck s c) (if_neg fun hb => ?_)
      exact Bool.noConfusion (hmc.symm.trans hb.1)
  · intro s t h ht
    dsimp only [exec]
    refine ⟨ht.issue_trap rfl, ht.issue_trap rfl, fun h4 => ht.issue_trap (dif_neg (by omega)), fun hd => ⟨fun hno => ?_, fun hyes => ?_⟩, ?_,
      fun hp => ⟨fence_free ht hp, fence_free ht hp, fence_free ht hp⟩,
      fun p hmem hp => ⟨fence_waits ht hmem hp, fence_waits ht hmem hp, fence_waits ht hmem hp⟩,
      fun hfp => ?_, fun hfp => ?_, fun hpriv => ?_⟩
    · refine ht.issue_trap ((dif_pos hd).trans (if_neg fun h => ?_))
      exact Bool.noConfusion (hno.symm.trans h)
    · exact ht.issue_done ((dif_pos hd).trans (if_pos hyes))
    · rw [after_id]
      exact ht.issue_done rfl
    · rw [after_id]
      refine ht.issue_done ?_
      rw [begin_core, hfp]
      rfl
    · have hpend : (coreOf t h).fpPend.isSome = true := Option.isSome_iff_ne_none.mpr hfp
      refine ⟨_, ht.issue_done (if_pos hpend), ?_⟩
      have hcore := fbarTrap_core t h
      have hhandler : (coreOf t h).thandler = (t.cores[h.core]).thandler := by rw [coreOf_eq]
      exact ⟨congrArg Core.fpPend hcore, congrArg Core.cause hcore, congrArg Core.tpc hcore, (congrArg Core.pc hcore).trans hhandler⟩
    · have hlevel : ¬ ¬ (coreOf t h).sLevel = true := not_not.mpr hpriv
      change execWfi h s = .next (after s t h awaiting)
      by_cases hints : (coreOf t h).ints = []
      · rw [after, modCore_congr (f := awaiting) (g := fun k => { k with run := .wfi }) (if_pos hints)]
        exact ht.issue_done ((if_neg hlevel).trans (if_pos hints))
      · rw [after, modCore_self (f := awaiting) (if_neg hints)]
        exact ht.issue_done ((if_neg hlevel).trans (if_neg hints))

end Sys2Proof.Proofs
end

section
/-!
SUPPORT. The core registers and the segments (R7, R8, R73, R74, R79).
-/

namespace Sys2Proof.Proofs

open Sys2Proof.Machine Sys2Proof.Claims

/-! ## Access -/

/-- Level S is what the register asks for. -/
theorem coreRegS_iff (n : Nat) : coreRegS n = true ↔ (6 ≤ n ∧ n ≤ 12) ∨ n = 16 := by simp [coreRegS]

section RegExc

variable {k : Core} {n : Nat}

theorem regExc_illegal (h : 16 < n) : k.regExc n = some illegal := if_pos h

theorem regExc_privileged (h : (6 ≤ n ∧ n ≤ 12) ∨ n = 16) (hu : k.status.getLsbD 0 = false) : k.regExc n = some privileged := by
  have hs : (coreRegS n && !k.sLevel) = true := by rw [(coreRegS_iff n).mpr h, Core.sLevel, hu]; rfl
  rw [Core.regExc, if_neg (by omega), if_pos hs]

theorem regExc_none (h : n ≤ 16) (hs : (6 ≤ n ∧ n ≤ 12) ∨ n = 16 → k.status.getLsbD 0 = true) : k.regExc n = none := by
  have hno : ¬ (coreRegS n && !k.sLevel) = true := by
    rw [Bool.and_eq_true, coreRegS_iff, Bool.not_eq_true']
    exact fun ⟨hreg, hu⟩ => Bool.noConfusion (hu.symm.trans (hs hreg))
  rw [Core.regExc, if_neg (by omega), if_neg hno]

end RegExc

section Moves

variable {s t : State} {h : Hdr} {r : Fin 32} {n : Fin 64}

/-- An access that raises an exception moves nothing. -/
theorem mfc_mtc_raise {e : Exc} (ht : Takes s h [r] t) (he : (coreOf t h).regExc n = some e) :
    exec (.mfc h r n) s = .next (afterTrap s t h e) ∧ exec (.mtc h n r) s = .next (afterTrap s t h e) := by
  dsimp only [exec]
  refine ⟨ht.issueRegs_trap ?_, ht.issueRegs_trap ?_⟩ <;> rw [begin_core, he]

/-- The access of CORE_FPSTAT finds the trap that an fbar would. -/
theorem fpstat_pending_iff {k : Core} : (n = 2 ∧ k.fpPend.isSome = true) ↔ n.val = 2 ∧ k.fpPend ≠ none := by
  rw [Option.isSome_iff_ne_none, Fin.ext_iff]
  rfl

theorem mfc_mtc_fbar (ht : Takes s h [r] t) (he : (coreOf t h).regExc n = none) (hn : n.val = 2) (hfp : (coreOf t h).fpPend ≠ none) :
    exec (.mfc h r n) s = .next (settle s (((t.begin_ h).fbarTrap h).stepped h.core)) ∧
      exec (.mtc h n r) s = .next (settle s (((t.begin_ h).fbarTrap h).stepped h.core)) := by
  dsimp only [exec]
  refine ⟨ht.issueRegs_done ?_, ht.issueRegs_done ?_⟩ <;>
    (rw [begin_core, he]; exact if_pos (fpstat_pending_iff.mpr ⟨hn, hfp⟩))

theorem mfc_reads (ht : Takes s h [r] t) (he : (coreOf t h).regExc n = none) (hfp : n.val = 2 → (coreOf t h).fpPend = none) :
    exec (.mfc h r n) s = .next (settle s (((((t.begin_ h).coreRegRead h.core n).modCore h.core fun x =>
      x.setX r ((t.begin_ h).coreReg h.core n))).stepped h.core)) := by
  dsimp only [exec]
  refine ht.issueRegs_done ?_
  rw [begin_core, he]
  exact if_neg fun hb => (fpstat_pending_iff.mp hb).2 (hfp (fpstat_pending_iff.mp hb).1)

theorem mtc_writes (ht : Takes s h [r] t) (he : (coreOf t h).regExc n = none) (hfp : n.val = 2 → (coreOf t h).fpPend = none) :
    exec (.mtc h n r) s = .next (settle s (((t.begin_ h).coreRegWrite h.core n ((coreOf t h).x r)).stepped h.core)) := by
  dsimp only [exec]
  refine ht.issueRegs_done ?_
  rw [begin_core, he]
  exact if_neg fun hb => (fpstat_pending_iff.mp hb).2 (hfp (fpstat_pending_iff.mp hb).1)

end Moves

theorem resumeCore_cores (s : State) (c : Fin 8) : (s.resumeCore c).cores = s.cores := by
  unfold State.resumeCore State.resumeExpander
  split
  · dsimp only
    split <;> rfl
  · rfl

theorem coreRegWrite_core (s : State) (c : Fin 8) (n : Nat) (v : Word) : (s.coreRegWrite c n v).cores[c] = (s.cores[c]).writeReg n v := by
  unfold State.coreRegWrite
  dsimp only
  split
  · simp only [resumeCore_cores, cores_modCore_same]
  · exact cores_modCore_same s c _

theorem coreRegWrite_other (s : State) (c : Fin 8) {n : Nat} (hn : n ≠ 6) (v : Word) : s.coreRegWrite c n v = s.modCore c fun k => k.writeReg n v :=
  if_neg fun h => hn h.1

/-! ## What a register holds -/

theorem writeReg_cycleBase (k : Core) (n : Nat) (v : Word) : (k.writeReg n v).cycleBase = k.cycleBase := by
  unfold Core.writeReg
  split <;> rfl

theorem coreCycles_writeReg (s : State) (c : Fin 8) (n : Nat) (v : Word) :
    (s.modCore c fun k => k.writeReg n v).coreCycles c = s.coreCycles c := by
  simp only [State.coreCycles, cores_modCore_same, writeReg_cycleBase]
  rfl

/-- A register that the write does not name, and whose hold it does not end, reads as before. -/
theorem coreReg_writeReg_other (s : State) (c : Fin 8) {n m : Nat} (v : Word) (hm : m ≤ 16) (hne : m ≠ n) (hlatch : m = 15 → n ≠ 14) :
    (s.modCore c fun k => k.writeReg n v).coreReg c m = s.coreReg c m := by
  interval_cases m <;> simp only [State.coreReg, cores_modCore_same, coreCycles_writeReg] <;> unfold Core.writeReg <;> split <;> simp_all

/-! ## Segments (R74) -/

theorem base_eq (p : DWord) : p.setWidth 48 &&& (0xFFFFFFFFFFC0 : BitVec 48) = (p.setWidth 48 >>> 6) <<< 6 := by
  have hmask : ∀ i : Fin 48, (0xFFFFFFFFFFC0 : BitVec 48).getLsbD i = decide (6 ≤ i.val) := by decide
  apply BitVec.eq_of_getLsbD_eq
  intro i hi
  have hm := hmask ⟨i, hi⟩
  simp only at hm
  rw [BitVec.getLsbD_and, hm, BitVec.getLsbD_shiftLeft, BitVec.getLsbD_ushiftRight]
  by_cases h6 : 6 ≤ i
  · simp [h6, hi, Nat.add_sub_cancel' h6]
  · simp [h6]

theorem segPair_segOf (p : DWord) (l : Word) : segPair (segOf p l) = p &&& 0x0000FFFFFFFFFFCF := by
  have hmask : ∀ i : Fin 64, (0x0000FFFFFFFFFFCF : DWord).getLsbD i = (decide (i.val < 4) || (decide (6 ≤ i.val) && decide (i.val < 48))) := by
    decide
  have hbase : ∀ i : Fin 64, (0xFFFFFFFFFFC0 : BitVec 48).getLsbD i = (decide (6 ≤ i.val) && decide (i.val < 48)) := by decide
  have hbit (b : Bool) (j : Fin 4) : ∀ i : Fin 64, (if b then BitVec.ofNat 64 (2 ^ j.val) else 0).getLsbD i = (b && decide (i.val = j.val)) := by
    revert b j
    decide
  apply BitVec.eq_of_getLsbD_eq
  intro i hi
  have h1 : (0x0000FFFFFFFFFFCF : DWord).getLsbD i = (decide (i < 4) || (decide (6 ≤ i) && decide (i < 48))) := hmask ⟨i, hi⟩
  have h2 : (0xFFFFFFFFFFC0#48).getLsbD i = (decide (6 ≤ i) && decide (i < 48)) := hbase ⟨i, hi⟩
  have h3 (b : Bool) : (if b then (8 : DWord) else 0).getLsbD i = (b && decide (i = 3)) := hbit b 3 ⟨i, hi⟩
  have h4 (b : Bool) : (if b then (4 : DWord) else 0).getLsbD i = (b && decide (i = 2)) := hbit b 2 ⟨i, hi⟩
  have h5 (b : Bool) : (if b then (2 : DWord) else 0).getLsbD i = (b && decide (i = 1)) := hbit b 1 ⟨i, hi⟩
  have h6 (b : Bool) : (if b then (1 : DWord) else 0).getLsbD i = (b && decide (i = 0)) := hbit b 0 ⟨i, hi⟩
  have hlhs : segPair (segOf p l) = (p.setWidth 48 &&& 0xFFFFFFFFFFC0#48).setWidth 64 ||| (if p.getLsbD 3 then 8 else 0) |||
      (if p.getLsbD 2 then 4 else 0) ||| (if p.getLsbD 1 then 2 else 0) ||| (if p.getLsbD 0 then 1 else 0) := rfl
  rw [hlhs, BitVec.getLsbD_or, BitVec.getLsbD_or, BitVec.getLsbD_or, BitVec.getLsbD_or, h3, h4, h5, h6, BitVec.getLsbD_and, h1,
    BitVec.getLsbD_setWidth, BitVec.getLsbD_and, BitVec.getLsbD_setWidth, h2]
  obtain h | h := Nat.lt_or_ge i 4
  · interval_cases i <;> simp
  · have h0 : i ≠ 0 ∧ i ≠ 1 ∧ i ≠ 2 ∧ i ≠ 3 := by omega
    simp only [h0, hi, Nat.not_lt.mpr h, decide_false, decide_true, Bool.and_false, Bool.or_false, Bool.false_or, Bool.true_and]
    cases p.getLsbD i <;> cases decide (i < 48) <;> cases decide (6 ≤ i) <;> rfl

/-! ## The statement -/

/-- Settles O10: each access is its exception, its trap or its value; a write's effect is read off `writeReg`. -/
theorem coreRegisters : Obligations.CoreRegisters := by
  unfold Obligations.CoreRegisters
  refine ⟨⟨?_, ?_, ?_⟩, ?_, fun p l => ⟨segPair_segOf p l, rfl⟩⟩
  · intro s t h r n ht k sReg
    refine ⟨fun hn => mfc_mtc_raise ht (regExc_illegal hn), fun hreg hu => mfc_mtc_raise ht (regExc_privileged hreg hu), fun hn hs hfp => ?_,
      fun hn hfp => ?_⟩
    · have he := regExc_none hn hs
      have hmtc := mtc_writes ht he hfp
      refine ⟨mfc_reads ht he hfp, fun h6 => ?_, fun h6 => ⟨_, hmtc, ?_⟩⟩
      · rw [coreRegWrite_other _ _ h6] at hmtc
        exact hmtc
      · have hcore : (((t.begin_ h).coreRegWrite h.core n (k.x r)).stepped h.core).cores[h.core] =
            { k.writeReg n (k.x r) with stepping := false } := by
          rw [stepped_core, coreRegWrite_core]
          rfl
        refine (congrArg Core.status hcore).trans ?_
        rw [h6]
        rfl
    · have he : k.regExc n = none := regExc_none (by omega) (fun h => absurd h (by omega))
      obtain ⟨hmfc, hmtc⟩ := mfc_mtc_fbar ht he hn hfp
      exact ⟨_, _, hmfc, hmtc, congrArg Core.cause (fbarTrap_core t h), congrArg Core.cause (fbarTrap_core t h),
        congrArg Core.tpc (fbarTrap_core t h)⟩
  · intro s t h seg p hi l hhi heven ht k pair
    obtain rfl := pairHi_eq hhi
    have hok : ¬ oddPair p = true := by simp [oddPair, heven]
    dsimp only [exec]
    refine ⟨fun hs => ?_, fun hu => ?_, ?_⟩
    · refine ht.issueExc_ok ((if_neg hok).trans ((if_neg (not_not.mpr hs)).trans ?_))
      rw [segOf, base_eq]
      rfl
    · exact ht.issueExc_error ((if_neg hok).trans (if_pos (Bool.eq_false_iff.mp hu)))
    · exact ⟨(t.begin_ h).free_ 32, ht.issueRegs_done (if_neg hok)⟩
  · intro s t h seg p l hodd ht
    rw [← pairHi_eq_add] at ht
    have hbad : oddPair p = true := by simp [oddPair, hodd]
    dsimp only [exec]
    exact ⟨ht.issueExc_error (if_pos hbad), ht.issueRegs_trap (if_pos hbad)⟩
  · intro s c v n t
    have hcore : t.cores[c] = (s.cores[c]).writeReg n v := cores_modCore_same s c _
    have field (f : Core → Word) : f t.cores[c] = f ((s.cores[c]).writeReg n v) := congrArg f hcore
    refine ⟨by rintro rfl; exact field Core.ctl, by rintro rfl; exact field Core.flags, by rintro rfl; exact field Core.fpstat,
      by rintro rfl; exact field Core.lfsr, by rintro rfl; exact field Core.crcpoly, by rintro rfl; exact field Core.vstart,
      by rintro rfl; exact field Core.status, by rintro rfl; exact field Core.tpc, by rintro rfl; exact field Core.cause,
      by rintro rfl; exact field Core.faddr, by rintro rfl; exact field Core.fppc, by rintro rfl; exact field Core.thandler,
      by rintro rfl; exact field Core.scratch, by rintro rfl; exact field Core.tstat,
      ?_, ?_, fun m => coreReg_writeReg_other s c v⟩
    · rintro rfl
      exact modCore_self rfl
    · intro hn
      have hwrite : (s.cores[c]).writeReg n v = { s.cores[c] with cycleLatch := none } := by rcases hn with rfl | rfl <;> rfl
      refine ⟨modCore_congr hwrite, ?_⟩
      simp only [State.coreReg, hcore, hwrite, Option.getD_none]
      exact congrArg (fun x => BitVec.ofNat 32 (x / 2 ^ 32)) (coreCycles_writeReg s c n v)

end Sys2Proof.Proofs
end

section
/-!
SUPPORT. Vector memory instructions: their elements one by one (R92, R95, R96).
-/

namespace Sys2Proof.Proofs

open Sys2Proof.Machine Sys2Proof.Claims

theorem esBits_div (esz : Fin 4) : esBits esz / 8 = 2 ^ esz.val := Nat.mul_div_cancel_left _ (by norm_num)

/-- The elements that an instruction of `f` planes transfers, from CORE_VSTART on. -/
def vmElems (k : Core) (esz grp : Fin 4) (f : Nat) : List Nat :=
  (List.range (f * 2 ^ grp.val * 16 / 2 ^ esz.val - k.vstart.toNat)).map (k.vstart.toNat + ·)

section Issue

variable {s t v : State} {h : Hdr} {seg : Fin 8} {rb : Fin 32} {esz grp : Fin 4} {f : Nat} {vd : Fin 16} {load : Bool}

/-- A form that R92 and R95 allow. -/
theorem vmIllegal_false (hesz : esz.val ≤ 2) (hgrp : grp.val ≤ 2) (hbase : vd.val % 2 ^ grp.val = 0) (hend : vd.val + f * 2 ^ grp.val ≤ 16) :
    vmIllegal esz grp f vd = false := by
  refine decide_eq_false ?_
  rintro (rfl | rfl | hout | hodd)
  · exact absurd hesz (by decide)
  · exact absurd hgrp (by decide)
  · exact absurd hend (Nat.not_le.mpr hout)
  · exact hodd hbase

theorem vm_body (hlegal : vmIllegal esz grp f vd = false) (u : State) :
    (if vmIllegal esz grp f vd then Res.trap u illegal
      else u.vmRun h.core seg ((u.cores[h.core]).x rb).toNat (esBits esz / 8) load vd f (grpRegs grp)
        ((List.range (f * grpRegs grp * 16 / (esBits esz / 8) - (u.cores[h.core]).vstart.toNat)).map ((u.cores[h.core]).vstart.toNat + ·))) =
      u.vmRun h.core seg ((u.cores[h.core]).x rb).toNat (2 ^ esz.val) load vd f (2 ^ grp.val) (vmElems u.cores[h.core] esz grp f) := by
  rw [hlegal, esBits_div]
  rfl

theorem vmIssue_done (ht : Takes s h [rb] t) (hlegal : vmIllegal esz grp f vd = false)
    (hrun : (t.begin_ h).vmRun h.core seg ((coreOf t h).x rb).toNat (2 ^ esz.val) load vd f (2 ^ grp.val)
      (vmElems (coreOf t h) esz grp f) = .done v) :
    s.vmIssue h seg rb esz grp f vd load = .next (settle s (v.stepped h.core)) :=
  ht.issueRegs_done ((vm_body hlegal _).trans hrun)

theorem vmIssue_trap {e : Exc} (ht : Takes s h [rb] t) (hlegal : vmIllegal esz grp f vd = false)
    (hrun : (t.begin_ h).vmRun h.core seg ((coreOf t h).x rb).toNat (2 ^ esz.val) load vd f (2 ^ grp.val)
      (vmElems (coreOf t h) esz grp f) = .trap v e) :
    s.vmIssue h seg rb esz grp f vd load = .next (settle s ((v.precise h.core e (s.cores[h.core]).pc).stepped h.core)) :=
  ht.issueRegs_trap ((vm_body hlegal _).trans hrun)

end Issue

section Elements

variable {s v : State} {c seg : Fin 8} {base o n vd f g e b i code off : Nat} {load : Bool} {es : List Nat}

theorem vmRun_ok (h : s.vmElem c seg (base + e * n) n load (vd + e % f * g) (e / f) = .ok () v) :
    s.vmRun c seg base n load vd f g (e :: es) = v.vmRun c seg base n load vd f g es := by
  simp only [State.vmRun, planeElem, h]

theorem vmRun_exc {x : Exc} (h : s.vmElem c seg (base + e * n) n load (vd + e % f * g) (e / f) = .exc v x) :
    s.vmRun c seg base n load vd f g (e :: es) = .trap (v.modCore c fun k => { k with vstart := BitVec.ofNat 32 e }) x := by
  simp only [State.vmRun, planeElem, h]

theorem vmElem_load (hl : Lands s c seg o n n true false code off) (hr : s.readRange (coreRouter c) code off n = (false, v)) :
    s.vmElem c seg o n true b i = .ok () (v.modCore c fun k => k.setElem b (8 * n) i (leNat (s.memBytes code off n))) := by
  simp only [State.vmElem, if_true, hl.read (w' := false) (nomatch ·) hr]

theorem vmElem_store (hl : Lands s c seg o n n false true code off) (hm : MayStore s c code off n) :
    s.vmElem c seg o n false b i = .ok () (storeAt s c ((s.cores[c]).phys seg o) code off (leBytes ((s.cores[c]).elemU b (8 * n) i) n)) :=
  hl.write hm (length_leBytes _ _)

end Elements

/-! ## The statement -/

/-- Settles O17: the issue runs its elements, and an element is one access of the core. -/
theorem vectorMemory : Obligations.VectorMemory := by
  unfold Obligations.VectorMemory
  refine ⟨fun s t v h seg rb esz grp nf vd ht hesz hgrp hbase hend => ?_, fun s c seg base n vd f g e load es => ?_,
    fun s v c seg o n b i code off _ => ?_⟩
  · have hmany := vmIllegal_false hesz hgrp hbase hend
    have hone : vmIllegal esz grp 1 vd = false :=
      vmIllegal_false hesz hgrp hbase (hend.trans' (Nat.add_le_add_left (Nat.mul_le_mul_right _ (by omega)) _))
    dsimp only [exec]
    exact ⟨vmIssue_done ht hone, vmIssue_done ht hone, vmIssue_done ht hmany, vmIssue_done ht hmany, fun e => vmIssue_trap ht hmany⟩
  · exact ⟨rfl, fun v => vmRun_ok, fun v x => vmRun_exc⟩
  · exact ⟨vmElem_load, vmElem_store⟩

end Sys2Proof.Proofs
end

section
/-!
SUPPORT. The state after the power-on reset (R74, R302, R329, R330).
-/

namespace Sys2Proof.Proofs

open Sys2Proof.Machine Sys2Proof.Claims

theorem reg_reset (r : RegName) (i : Nat) : State.reset.reg r i = regResetKey (regKey r i) := rfl

theorem cores_reset (c : Fin 8) : State.reset.cores[c] = Core.atReset c := Vector.getElem_ofFn c.isLt

theorem seg_atReset_boot (c n : Fin 8) (h : n.val = 7) :
    (Core.atReset c).seg[n] = { base := Config.bootRomBase c, limit := Config.bootRomLimit c, r := true, x := true } := by
  obtain rfl : n = 7 := Fin.ext h
  rfl

theorem seg_atReset_closed (c n : Fin 8) (h : n.val ≠ 7) : (Core.atReset c).seg[n] = {} := by
  simp only [Core.atReset, Fin.getElem_fin]
  rw [Vector.getElem_set_ne _ _ (Ne.symm h), Vector.getElem_replicate]

/-- Every memory on the die holds poison; the third is DDR5. -/
theorem at_reset : ∀ c : Fin 17, 1 ≤ c.val → c.val ≠ 3 → State.reset.mems.at_ c = Mem.of .poison := by decide

theorem cell_reset_poison (c : Fin 17) (h1 : 1 ≤ c.val) (h3 : c.val ≠ 3) (i : Nat) : State.reset.cell c i = .poison := by
  rw [State.cell, at_reset c h1 h3]
  rfl

/-- Settles O59: registers and memories have nothing listed, so each reads its default, and the cores are those of `Core.atReset`. -/
theorem resetState : Obligations.ResetState := by
  unfold Obligations.ResetState
  refine ⟨reg_reset, by decide, by decide, by decide, rfl, rfl, cell_reset_poison, fun _ => rfl, rfl, rfl, rfl, fun c n => ?_, by decide,
    reset_mems_wf, by decide⟩
  rw [cores_reset]
  refine ⟨rfl, rfl, rfl, fun h => ?_, fun h => ?_⟩
  · rw [seg_atReset_boot c n h]
    exact ⟨rfl, rfl, rfl, rfl, rfl⟩
  · rw [seg_atReset_closed c n h]
    exact ⟨rfl, rfl, rfl, rfl, rfl⟩

end Sys2Proof.Proofs
end

section
/-!
SUPPORT. How a core takes any instruction, and what one that changes its core alone leaves (R65-R70, R98, R99, R109, R112).
-/

namespace Sys2Proof.Proofs

open Sys2Proof.Machine Sys2Proof.Claims

/-! ## Every instruction is an issue -/

/-- What an instruction with the header answers is an issue of some body. -/
def Issues (s : State) (h : Hdr) (a : Ans) : Prop := ∃ body, a = s.issue h body

section Issues

variable {s : State} {h h' : Hdr}

theorem issues (hc : some h' = some h) {body : State → Res} : Issues s h (s.issue h' body) := by
  obtain rfl := Option.some.inj hc
  exact ⟨body, rfl⟩

theorem issues_regs (hc : some h' = some h) {rs : List (Fin 32)} {body : State → Res} : Issues s h (s.issueRegs h' rs body) := issues hc

theorem issues_alu (hc : some h' = some h) {rs : List (Fin 32)} {f : Core → Core} : Issues s h (s.issueAlu h' rs f) := issues_regs hc

theorem issues_free (hc : some h' = some h) {rs : List (Fin 32)} {f : Core → Word → Core} : Issues s h (s.issueFree h' rs f) := issues_regs hc

theorem issues_exc (hc : some h' = some h) {rs : List (Fin 32)} {f : Core → Except Exc Core} : Issues s h (s.issueExc h' rs f) := issues_regs hc

theorem issues_vec (hc : some h' = some h) {esz grp : Fin 4} {ro sizeOk : Bool} {bases : List (Fin 16 × Nat)} {rs : List (Fin 32)}
    {f : Core → BitVec 512 → Core} : Issues s h (s.issueVec h' esz grp ro bases sizeOk rs f) := issues_regs hc

theorem issues_vec3 (hc : some h' = some h) {esz grp : Fin 4} {ro : Bool} {vd a b : Fin 16} {op : Nat → Nat → Nat → Int × Bool} :
    Issues s h (s.issueVec3 h' esz grp ro vd a b op) := by
  dsimp only [State.issueVec3]
  exact issues_vec hc

theorem issues_load (hc : some h' = some h) {rd : Fin 32} {seg : Fin 8} {rb : Fin 32} {imm : BitVec 6} {n : Nat} {ext : Nat → Word} :
    Issues s h (s.load h' rd seg rb imm n ext) := by
  unfold State.load
  exact issues_regs hc

theorem issues_store (hc : some h' = some h) {rs : Fin 32} {seg : Fin 8} {rb : Fin 32} {imm : BitVec 6} {n : Nat} :
    Issues s h (s.store_ h' rs seg rb imm n) := by
  unfold State.store_
  exact issues_regs hc

theorem issues_vm (hc : some h' = some h) {seg : Fin 8} {rb : Fin 32} {esz grp : Fin 4} {f : Nat} {vd : Fin 16} {load : Bool} :
    Issues s h (s.vmIssue h' seg rb esz grp f vd load) := by
  unfold State.vmIssue
  exact issues_regs hc

theorem issues_fence (hc : some h' = some h) : Issues s h (s.fence h') := by
  unfold State.fence
  exact issues hc

theorem issues_array (hc : some h' = some h) {idx : Nat} {rd ra rb : Fin 32} : Issues s h (s.issueArray h' idx rd ra rb) := by
  unfold State.issueArray
  exact issues hc

end Issues

theorem exec_issues {c : Instr} {h : Hdr} (s : State) (hc : c.hdr = some h) : Issues s h (exec c s) := by
  cases c
  case add | sub | and | or | xor | andn | min | max | minu | maxu | abs | neg | mov | cmp | cmn | addf | subf | addi | andi | ori | xori |
      cmpi | movlo | movi | mul | mulh | mulhu | crcc | crcp | par | mac | mach | msb | msbh | aclr | qadd | qsub | qaddh | qsubh | fadd |
      fsub | fmul | ffma | ffnma | fcmp | fmin | fmax | fabs | fneg | fcvtWs | fcvtSw | frecpe | b | bl | jr | jalr =>
    dsimp only [exec]
    exact issues_alu hc
  case shl | shr | sar | tst | shli | shri | sari | movhi | dstep =>
    dsimp only [exec]
    exact issues_free hc
  case mull | mullu | brev | sat | sath | qmul | qmulh | mtseg =>
    dsimp only [exec]
    exact issues_exc hc
  case ashr | qsra | mfc | mtc | mfseg | ldd | std | lrw | lrd | scw | scd =>
    dsimp only [exec]
    exact issues_regs hc
  case vld | vst | vsplit | vmerge =>
    dsimp only [exec]
    exact issues_vm hc
  case ldb | ldh | ldw | ldbu | ldhu =>
    dsimp only [exec]
    exact issues_load hc
  case stb | sth | stw =>
    dsimp only [exec]
    exact issues_store hc
  case fenceRw | fenceW | fenceI =>
    dsimp only [exec]
    exact issues_fence hc
  case fenceR | fbar | rett | sys | brk | wfi | illegalInstruction =>
    dsimp only [exec]
    exact issues hc
  case vadd | vsub | vaddsat | vsubsat | vaddsatu | vsubsatu | vmul | vmin | vmax | vminu | vmaxu =>
    dsimp only [exec]
    exact issues_vec3 hc
  case vabs | vdup | vext | vins | vwiden | vmulq | vsraRnd | vnarrowSat | vnarrowSatu =>
    dsimp only [exec, execVabs, execVdup, execVext, execVins, execVwiden, execVmulq, execVsraRnd, execVnarrowSat, execVnarrowSatu]
    exact issues_vec hc
  case aAdd | aSub | aAdds | aAddIp | aSubIp | aMulu | aCmp | aCmpu | aMov | aMovi | aNot | aAnd | aOr | aXor | aAndn | aShift | aLut |
      aAssoc | aPop | aGor | aGld | aGst | aLdf | aStf | aLdm | aAndm | aSetm | aStm | aNop | aSync | customerInstruction | systemRoutine =>
    dsimp only [exec]
    exact issues_array hc
  case amov acc src =>
    cases src <;> (dsimp only [exec, execAmov]; exact issues_alu hc)
  all_goals cases hc

/-! ## What comes before the body -/

section Before

variable {s t : State} {h : Hdr} (body : State → Res)

theorem issue_boundary (hr : s.coreRuns h.core = true) (hb : s.boundary h.core = some t) : s.issue h body = .next (settle s t) := by
  simp only [State.issue, hr, hb]
  rfl

theorem issue_fetch {e : Exc} (hr : s.coreRuns h.core = true) (hb : s.boundary h.core = none) (hf : s.fetch h.core (hdrLen h) = (some e, t)) :
    s.issue h body = .next (settle s ((t.precise h.core e (s.cores[h.core]).pc).stepped h.core)) := by
  simp only [State.issue, hr, hb, hf]
  rfl

theorem issue_condIllegal (hr : s.coreRuns h.core = true) (hb : s.boundary h.core = none) (hf : s.fetch h.core (hdrLen h) = (none, t))
    (hl : condIllegal h = true) : s.issue h body = .next (settle s ((t.precise h.core illegal (s.cores[h.core]).pc).stepped h.core)) := by
  simp only [State.issue, hr, hb, hf, hl]
  rfl

end Before

theorem condIllegal_management {h : Hdr} (hc : 4 ≤ h.core.val) (hg : h.cond = .gor ∨ h.cond = .gnor) : condIllegal h = true := by
  rw [condIllegal, decide_eq_true hc, decide_eq_true hg]
  rfl

/-! ## What the start of an instruction leaves (R65, R366) -/

theorem tracePc_cases (s : State) (c : Fin 8) : s.tracePc c = s ∨ ∃ (d : Fin 4) (l : Dev → List (BitVec 32)), d.val = c.val ∧
    s.tracePc c = s.modDev d fun x => { x with pcTrace := l x } := by
  unfold State.tracePc
  split
  next h =>
    dsimp only
    split
    · exact .inl rfl
    · exact .inr ⟨⟨c.val, h⟩, _, rfl, rfl⟩
  · exact .inl rfl

theorem modDev_dev (s : State) (d e : Fin 4) (f : Dev → Dev) : (s.modDev d f).devs[e] = if d = e then f s.devs[e] else s.devs[e] := by
  simp only [State.modDev, Fin.getElem_fin]
  rw [Vector.getElem_set]
  by_cases hde : d = e
  · subst hde
    rw [if_pos rfl, if_pos rfl]
  · rw [if_neg (fun h => hde (Fin.ext h)), if_neg hde]

/-- Of a Developer the instruction trace alone. -/
theorem tracePc_dev (s : State) (c : Fin 8) (e : Fin 4) : ∃ l, (s.tracePc c).devs[e] = (let x : Dev := s.devs[e]; { x with pcTrace := l }) := by
  obtain h | ⟨d, l, -, h⟩ := tracePc_cases s c
  · exact ⟨(s.devs[e]).pcTrace, by rw [h]⟩
  · rw [h, modDev_dev]
    split
    · exact ⟨_, rfl⟩
    · exact ⟨(s.devs[e]).pcTrace, rfl⟩

theorem only_tracePc (s : State) (c : Fin 8) : Only [.devs] s (s.tracePc c) := by
  obtain h | ⟨d, l, -, h⟩ := tracePc_cases s c <;> rw [h]
  · exact only_refl _ _
  · simp

theorem onlyRegs_tracePc (s : State) (c : Fin 8) : OnlyRegs [] s (s.tracePc c) := by
  obtain h | ⟨d, l, -, h⟩ := tracePc_cases s c <;> rw [h] <;> simp

theorem only_begin (t : State) (h : Hdr) : Only [.cores, .devs] t (t.begin_ h) :=
  (only_modCore (List.mem_cons_self ..) _ _).mpr (only_mono (only_tracePc t h.core) (by simp))

theorem onlyRegs_begin (t : State) (h : Hdr) : OnlyRegs [] t (t.begin_ h) := (onlyRegs_modCore _ _).mpr (onlyRegs_tracePc t h.core)

theorem begin_other (t : State) (h : Hdr) {c : Fin 8} (hc : c ≠ h.core) : (t.begin_ h).cores[c] = t.cores[c] := by
  rw [State.begin_, cores_modCore_other _ hc, tracePc_cores]

theorem begin_dev (t : State) (h : Hdr) (e : Fin 4) : ∃ l, (t.begin_ h).devs[e] = (let x : Dev := t.devs[e]; { x with pcTrace := l }) :=
  tracePc_dev t h.core e

/-! ## What the end of one leaves -/

theorem stepped_cases (s : State) (c : Fin 8) : s.stepped c = s ∨
    s.stepped c = s.modCore c (fun k => { k with stepping := false }) ∨
    s.stepped c = (s.modCore c fun k => { k with stepping := false }).fset F.DBG_HALT_STEP 0 := by
  unfold State.stepped
  split
  · dsimp only
    split
    · exact .inr (.inl rfl)
    · exact .inr (.inr rfl)
  · exact .inl rfl

theorem only_stepped (s : State) (c : Fin 8) : Only [.cores, .regs] s (s.stepped c) := by
  obtain h | h | h := stepped_cases s c <;> rw [h]
  · exact only_refl _ _
  · simp
  · simp

theorem onlyRegs_stepped (s : State) (c : Fin 8) : OnlyRegs [(.DBG_HALT, 0)] s (s.stepped c) := by
  obtain h | h | h := stepped_cases s c <;> rw [h]
  · exact onlyRegs_refl _ _
  · simp
  · exact (onlyRegs_fset (by decide) (by decide) _).mpr (by simp)

theorem stepped_other (s : State) (c : Fin 8) {k : Fin 8} (hk : k ≠ c) : (s.stepped c).cores[k] = s.cores[k] := by
  obtain h | h | h := stepped_cases s c <;> rw [h]
  · exact cores_modCore_other _ hk _
  · rw [State.fset_cores]
    exact cores_modCore_other _ hk _

theorem stepped_devs (s : State) (c : Fin 8) : (s.stepped c).devs = s.devs := by
  obtain h | h | h := stepped_cases s c <;> rw [h] <;> rfl

/-! ## The frame of a change of the core -/

/-- The queue, the fuses and DEV_TIME are no part. -/
theorem same_settle (p : Part) (s t u : State) : p.same t (settle s u) ↔ p.same t u := by cases p <;> rfl

section Frame

variable (t : State) (h : Hdr) (f : Core → Core)

theorem only_after : Only [.cores, .devs, .regs] t (after t t h f) := by
  have hend : Only [.cores, .devs, .regs] t (((t.begin_ h).modCore h.core f).stepped h.core) :=
    only_trans ((only_modCore (by simp) _ _).mpr (only_mono (only_begin t h) (by simp))) (only_mono (only_stepped _ _) (by simp))
  obtain ⟨-, -, -, hroot, hparts⟩ := hend
  exact ⟨rfl, rfl, rfl, hroot, fun p hp => (same_settle p t t _).mpr (hparts p hp)⟩

theorem onlyRegs_after : OnlyRegs [(.DBG_HALT, 0)] t (after t t h f) :=
  onlyRegs_trans ((onlyRegs_modCore _ _).mpr fun r i hi _ => onlyRegs_begin t h r i hi (List.not_mem_nil)) (onlyRegs_stepped _ _)

theorem after_other {c : Fin 8} (hc : c ≠ h.core) : (after t t h f).cores[c] = t.cores[c] :=
  (stepped_other _ _ hc).trans ((cores_modCore_other _ hc f).trans (begin_other t h hc))

theorem after_core : (after t t h f).cores[h.core] = { f (coreOf t h) with stepping := false } :=
  (stepped_core _ _).trans (by rw [cores_modCore_same, begin_core])

theorem after_dev (d : Fin 4) : ∃ l, (after t t h f).devs[d] = (let x : Dev := t.devs[d]; { x with pcTrace := l }) := by
  obtain ⟨l, hl⟩ := begin_dev t h d
  refine ⟨l, ?_⟩
  rw [← hl]
  exact congrArg (fun v : Vector Dev 4 => v[d]) (stepped_devs ((t.begin_ h).modCore h.core f) h.core)

end Frame

/-! ## An instruction on registers completes -/

/-- The pc has moved past the instruction, and no memory, grain or other core has changed. -/
def Completed (t : State) (h : Hdr) (u : State) : Prop :=
  (u.cores[h.core]).pc = (t.cores[h.core]).pc + BitVec.ofNat 32 (hdrLen h) ∧ u.mems = t.mems ∧ u.grains = t.grains ∧ u.out = t.out ∧
    ∀ k : Fin 8, k ≠ h.core → u.cores[k] = t.cores[k]

theorem completed_of (s t : State) (h : Hdr) {f : Core → Core} (hpc : ∀ k, (f k).pc = k.pc) {w : State}
    (hw : Only [.free] ((t.begin_ h).modCore h.core f) w) : Completed t h (settle s (w.stepped h.core)) := by
  have hall : Only [.free, .cores, .devs, .regs] t (w.stepped h.core) :=
    only_trans (only_trans ((only_modCore (by simp) _ _).mpr (only_mono (only_begin t h) (by simp))) (only_mono hw (by simp)))
      (only_mono (only_stepped _ _) (by simp))
  have hcores : w.cores = ((t.begin_ h).modCore h.core f).cores := hw.2.2.2.2 .cores (by decide)
  obtain ⟨-, -, -, -, hparts⟩ := hall
  refine ⟨?_, hparts .mems (by decide), hparts .grains (by decide), hparts .out (by decide), fun k hk => ?_⟩
  · refine (congrArg Core.pc (stepped_core w h.core)).trans ?_
    rw [hcores, cores_modCore_same, begin_core, hpc, coreOf_eq]
  · refine (stepped_other w h.core hk).trans ?_
    rw [hcores, cores_modCore_other _ hk, begin_other t h hk]

theorem only_used_self (w : State) : Only [.free] w w.used := by simp

section Completes

variable {s t : State} {h : Hdr} {rs rs' : List (Fin 32)}

theorem completes_alu (ht : Takes s h rs t) (hsub : rs' ⊆ rs) {f : Core → Core} (hpc : ∀ k, (f k).pc = k.pc) :
    ∃ u, s.issueAlu h rs' f = .next u ∧ Completed t h u :=
  ⟨_, (ht.mono hsub).issueAlu rfl, completed_of s t h hpc (only_refl _ _)⟩

theorem completes_free (ht : Takes s h rs t) (hsub : rs' ⊆ rs) {f : Core → Word → Core} (hpc : ∀ k w, (f k w).pc = k.pc) :
    ∃ u, s.issueFree h rs' f = .next u ∧ Completed t h u :=
  ⟨_, (ht.mono hsub).issueFree (g := fun k => f k ((t.begin_ h).free_ 32)) rfl, completed_of s t h (fun k => hpc k _) (only_used_self _)⟩

theorem completes_ashr (ht : Takes s h rs t) (acc : Fin 4) {b : Fin 32} (hsub : [b] ⊆ rs) :
    ∃ u, exec (.ashr h acc b) s = .next u ∧ Completed t h u := by
  dsimp only [exec]
  exact ⟨_, (ht.mono hsub).issueRegs_done rfl, completed_of s t h (fun _ => by rfl) (only_used_self _)⟩

end Completes

@[simp] theorem setQ_pc (k : Core) (q : Bool) : (k.setQ q).pc = k.pc := by
  unfold Core.setQ
  split <;> rfl

@[simp] theorem setAcc_pc (k : Core) (a : Fin 4) (x : Int) : (k.setAcc a x).pc = k.pc := by
  unfold Core.setAcc
  exact setQ_pc _ _

@[simp] theorem saturated_pc (k : Core) (rd : Fin 32) (x : Int) (w : Nat) : (k.saturated rd x w).pc = k.pc := by
  unfold Core.saturated
  exact setQ_pc _ _

@[simp] theorem raiseFp_pc (k : Core) (pc : Word) (fl : BitVec 5) : (k.raiseFp pc fl).pc = k.pc := by
  unfold Core.raiseFp
  dsimp only
  split <;> rfl

@[simp] theorem fpResult_pc (k : Core) (h : Hdr) (rd : Fin 32) (r : FRes) : (k.fpResult h rd r).pc = k.pc := raiseFp_pc _ _ _

/-! ## The interlock (R112) -/

theorem begin_interlocked {s t : State} {h : Hdr} {d : Fin 4} (hd : d.val = h.core.val) {e : _} (he : e ∈ (s.devs[d]).aiq) (hs : e.scalar = true)
    (hdevs : t.devs = s.devs) : (t.begin_ h).interlocked h.core e.rdNum = true := by
  have hc : h.core.val < 4 := hd ▸ d.isLt
  obtain rfl : d = ⟨h.core.val, hc⟩ := Fin.ext hd
  obtain ⟨l, hl⟩ := begin_dev t h ⟨h.core.val, hc⟩
  rw [State.interlocked, dif_pos hc, hl, hdevs]
  exact List.any_eq_true.mpr ⟨e, he, by rw [hs, decide_eq_true rfl]; rfl⟩

theorem issueRegs_stalls {s t : State} {h : Hdr} {rs : List (Fin 32)} {body : State → Res} (hr : s.coreRuns h.core = true)
    (hb : s.boundary h.core = none) (hf : s.fetch h.core (hdrLen h) = (none, t)) (hl : condIllegal h = false)
    (hg : t.gorWaits h = false) (hc : t.condHolds h = true) {r : Fin 32} (hmem : r ∈ rs) (hi : (t.begin_ h).interlocked h.core r = true) :
    s.issueRegs h rs body = .next s :=
  issue_stalls hr hb hf hl hg hc (if_pos (List.any_eq_true.mpr ⟨r, hmem, hi⟩))

section Statement

variable {s t : State} {h : Hdr}

/-- The integer, fixed-point and floating-point instructions on registers. -/
def registerInstrs (h : Hdr) (rd a b c : Fin 32) (acc : Fin 4) (imm : BitVec 11) (up : BitVec 16) (i5 : BitVec 5) : List Instr :=
  ([.add h rd a b, .sub h rd a b, .and h rd a b, .or h rd a b, .xor h rd a b, .andn h rd a b, .shl h rd a b, .shr h rd a b, .sar h rd a b,
      .min h rd a b, .max h rd a b, .minu h rd a b, .maxu h rd a b, .abs h rd a, .neg h rd a, .mov h rd a, .cmp h a b, .cmn h a b, .tst h a b,
      .addf h rd a b, .subf h rd a b] : List Instr) ++
    ([.addi h rd a imm, .andi h rd a imm, .ori h rd a imm, .xori h rd a imm, .shli h rd a imm, .shri h rd a imm, .sari h rd a imm, .cmpi h a imm,
      .movhi h rd up, .movlo h rd up, .movi h rd i5, .mul h rd a b, .mulh h rd a b, .mulhu h rd a b, .crcc h a b, .crcp h a b,
      .par h rd a] : List Instr) ++
    ([.mac h acc a b, .mach h acc a b, .msb h acc a b, .msbh h acc a b, .aclr h acc, .ashr h acc b, .qadd h rd a b, .qsub h rd a b, .qaddh h rd a b,
      .qsubh h rd a b, .fadd h rd a b, .fsub h rd a b, .fmul h rd a b, .ffma h rd a b c, .ffnma h rd a b c, .fcmp h a b, .fmin h rd a b,
      .fmax h rd a b, .fabs h rd a, .fneg h rd a, .fcvtWs h rd a, .fcvtSw h rd a, .frecpe h rd a] : List Instr)

theorem registers_complete {rd a b c : Fin 32} {acc : Fin 4} {imm : BitVec 11} {up : BitVec 16} {i5 : BitVec 5}
    (ht : Takes s h [rd, a, b, c] t) : ∀ i ∈ registerInstrs h rd a b c acc imm up i5, Answers i s (Completed t h) := by
  have one : [a] ⊆ [rd, a, b, c] := by simp
  have two : [a, b] ⊆ [rd, a, b, c] := by simp
  have dest : [rd] ⊆ [rd, a, b, c] := by simp
  have unary : [rd, a] ⊆ [rd, a, b, c] := by simp
  have binary : [rd, a, b] ⊆ [rd, a, b, c] := by simp
  have none : [] ⊆ [rd, a, b, c] := List.nil_subset _
  have last : [b] ⊆ [rd, a, b, c] := by simp
  have all : [rd, a, b, c] ⊆ [rd, a, b, c] := List.Subset.refl _
  simp only [registerInstrs, List.forall_mem_append, List.forall_mem_cons, List.not_mem_nil, false_implies, implies_true, and_true]
  unfold Answers
  dsimp only [exec]
  exact ⟨⟨⟨completes_alu ht binary fun _ => rfl, completes_alu ht binary fun _ => rfl, completes_alu ht binary fun _ => rfl,
      completes_alu ht binary fun _ => rfl, completes_alu ht binary fun _ => rfl, completes_alu ht binary fun _ => rfl,
      completes_free ht binary fun _ _ => rfl, completes_free ht binary fun _ _ => rfl, completes_free ht binary fun _ _ => rfl,
      completes_alu ht binary fun _ => rfl, completes_alu ht binary fun _ => rfl, completes_alu ht binary fun _ => rfl,
      completes_alu ht binary fun _ => rfl, completes_alu ht unary fun _ => rfl, completes_alu ht unary fun _ => rfl,
      completes_alu ht unary fun _ => rfl, completes_alu ht two fun _ => rfl, completes_alu ht two fun _ => rfl,
      completes_free ht two fun _ _ => rfl, completes_alu ht binary fun _ => rfl, completes_alu ht binary fun _ => rfl⟩,
    ⟨completes_alu ht unary fun _ => rfl, completes_alu ht unary fun _ => rfl, completes_alu ht unary fun _ => rfl,
      completes_alu ht unary fun _ => rfl, completes_free ht unary fun _ _ => rfl, completes_free ht unary fun _ _ => rfl,
      completes_free ht unary fun _ _ => rfl, completes_alu ht one fun _ => rfl, completes_free ht dest fun _ _ => rfl,
      completes_alu ht dest fun _ => rfl, completes_alu ht dest fun _ => rfl, completes_alu ht binary fun _ => rfl,
      completes_alu ht binary fun _ => rfl, completes_alu ht binary fun _ => rfl, completes_alu ht two fun _ => rfl,
      completes_alu ht two fun _ => rfl, completes_alu ht unary fun _ => rfl⟩⟩,
    completes_alu ht two fun _ => setAcc_pc _ _ _, completes_alu ht two fun _ => setAcc_pc _ _ _,
      completes_alu ht two fun _ => setAcc_pc _ _ _, completes_alu ht two fun _ => setAcc_pc _ _ _, completes_alu ht none fun _ => rfl,
      completes_ashr ht acc last, completes_alu ht binary fun _ => saturated_pc _ _ _ _, completes_alu ht binary fun _ => saturated_pc _ _ _ _,
      completes_alu ht binary fun _ => saturated_pc _ _ _ _, completes_alu ht binary fun _ => saturated_pc _ _ _ _,
      completes_alu ht binary fun _ => fpResult_pc _ _ _ _, completes_alu ht binary fun _ => fpResult_pc _ _ _ _,
      completes_alu ht binary fun _ => fpResult_pc _ _ _ _, completes_alu ht all fun _ => fpResult_pc _ _ _ _,
      completes_alu ht all fun _ => fpResult_pc _ _ _ _, completes_alu ht two fun _ => raiseFp_pc _ _ _,
      completes_alu ht binary fun _ => fpResult_pc _ _ _ _, completes_alu ht binary fun _ => fpResult_pc _ _ _ _,
      completes_alu ht unary fun _ => fpResult_pc _ _ _ _, completes_alu ht unary fun _ => fpResult_pc _ _ _ _,
      completes_alu ht unary fun _ => fpResult_pc _ _ _ _, completes_alu ht unary fun _ => fpResult_pc _ _ _ _,
      completes_alu ht unary fun _ => fpResult_pc _ _ _ _⟩

end Statement

end Sys2Proof.Proofs
end

section
/-!
SUPPORT. The fields of a core's words (R66-R70, R107).
-/

namespace Sys2Proof.Proofs

open Sys2Proof.Machine Sys2Proof.Claims

/-! ## Fields as numbers -/

theorem extract_eq {m n lo : Nat} {w : BitVec m} {x : BitVec n} (h : w.toNat / 2 ^ lo % 2 ^ n = x.toNat) : w.extractLsb' lo n = x := by
  apply BitVec.eq_of_toNat_eq
  rw [BitVec.extractLsb'_toNat, Nat.shiftRight_eq_div_pow]
  exact h

theorem field5_eq {w : BitVec 32} {lo : Nat} {r : Fin 32} (h : w.toNat / 2 ^ lo % 2 ^ 5 = r.val) : field5 w lo = r := by
  rw [field5, extract_eq (x := BitVec.ofFin r) h]

theorem toFin_extract_eq {m n lo : Nat} {w : BitVec m} {r : Fin (2 ^ n)} (h : w.toNat / 2 ^ lo % 2 ^ n = r.val) :
    (w.extractLsb' lo n).toFin = r := by
  rw [extract_eq (x := BitVec.ofFin r) h]

/-- The condition that a code of R70 names. -/
def condAt (c : Nat) : Cond :=
  ([.alw, .zs, .zc, .gor, .gnor, .cy, .ncy, .neg, .nneg, .ov, .ugt, .ule, .sge, .slt, .sgt, .sle] : List Cond).getD c .alw

theorem condOf_eq (c : BitVec 4) : condOf c = condAt c.toNat := rfl

theorem coreLength_eq (x : BitVec 16) : coreLength x = if 0xC000 ≤ x.toNat then 4 else 2 := by
  have hx := x.isLt
  have htop : x.extractLsb' 14 2 = 3 ↔ 0xC000 ≤ x.toNat := by
    rw [← BitVec.toNat_inj, BitVec.extractLsb'_toNat, Nat.shiftRight_eq_div_pow]
    show x.toNat / 2 ^ 14 % 2 ^ 2 = 3 ↔ _
    omega
  simp only [coreLength, htop]

/-! ## A 32-bit word -/

/-- The first halfword of a 32-bit word. -/
def longFirst (maj c lo : Nat) : BitVec 16 := BitVec.ofNat 16 (0xC000 + maj * 2 ^ 9 + c * 2 ^ 5 + lo)

section Long

variable (core : Fin 8) (maj : Fin 32) (c : Fin 16) (rd : Fin 32) (y : BitVec 16)

theorem toNat_longFirst : (longFirst maj c rd).toNat = 0xC000 + maj.val * 2 ^ 9 + c.val * 2 ^ 5 + rd.val := by
  rw [longFirst, BitVec.toNat_ofNat]
  omega

theorem toNat_long : (y ++ longFirst maj c rd).toNat = 0xC000 + maj.val * 2 ^ 9 + c.val * 2 ^ 5 + rd.val + 2 ^ 16 * y.toNat := by
  rw [toNat_append_eq, toNat_longFirst]

theorem decodeCore_long : decodeCore core (longFirst maj c rd) y = decodeLong core (y ++ longFirst maj c rd) := by
  have hlen : coreLength (longFirst maj c rd) = 4 := by
    rw [coreLength_eq, toNat_longFirst, if_pos (by omega)]
  rw [decodeCore, if_pos hlen]

theorem long_maj : field5 (y ++ longFirst maj c rd) 9 = maj := field5_eq (by rw [toNat_long]; omega)

theorem long_rd : field5 (y ++ longFirst maj c rd) 0 = rd := field5_eq (by rw [toNat_long]; omega)

theorem long_low : (y ++ longFirst maj c rd).extractLsb' 0 5 = BitVec.ofNat 5 rd.val :=
  extract_eq (by rw [toNat_long, BitVec.toNat_ofNat]; omega)

theorem long_cond : condOf ((y ++ longFirst maj c rd).extractLsb' 5 4) = condAt c.val := by
  have hc : (BitVec.ofNat 4 c.val).toNat = c.val := by rw [BitVec.toNat_ofNat]; omega
  rw [extract_eq (x := BitVec.ofNat 4 c.val) (by rw [toNat_long, hc]; omega), condOf_eq, hc]

theorem long_high : (y ++ longFirst maj c rd).extractLsb' 16 16 = y := extract_eq (by rw [toNat_long]; omega)

theorem long_upper (k n : Nat) : (y ++ longFirst maj c rd).extractLsb' (16 + k) n = y.extractLsb' k n := by
  refine extract_eq ?_
  have hlow : (0xC000 + maj.val * 2 ^ 9 + c.val * 2 ^ 5 + rd.val + 2 ^ 16 * y.toNat) / 2 ^ 16 = y.toNat := by omega
  rw [toNat_long, pow_add, ← Nat.div_div_eq_div_mul, hlow, BitVec.extractLsb'_toNat, Nat.shiftRight_eq_div_pow]

variable {y} in
/-- A field of the second halfword. -/
theorem long_part {n k : Nat} {x : BitVec n} (h : y.toNat / 2 ^ k % 2 ^ n = x.toNat) : (y ++ longFirst maj c rd).extractLsb' (16 + k) n = x :=
  (long_upper maj c rd y k n).trans (extract_eq h)

variable {y} in
theorem long_field5 {k : Nat} {r : Fin 32} (h : y.toNat / 2 ^ k % 2 ^ 5 = r.val) : field5 (y ++ longFirst maj c rd) (16 + k) = r :=
  congrArg BitVec.toFin (long_part maj c rd (n := 5) (x := BitVec.ofFin (w := 5) r) h)

/-- The header of a 32-bit word. -/
def longHdr : Hdr := { core := core, cond := condAt c.val, short := false }

theorem decode_addi (a : Fin 32) (imm : BitVec 11) :
    decodeCore core (longFirst (1 : Fin 32) c rd) (BitVec.ofNat 16 (a.val * 2 ^ 11 + imm.toNat)) = .instr (.addi (longHdr core c) rd a imm) := by
  have himm := imm.isLt
  have hy : (BitVec.ofNat 16 (a.val * 2 ^ 11 + imm.toNat)).toNat = a.val * 2 ^ 11 + imm.toNat := by rw [BitVec.toNat_ofNat]; omega
  have ha := long_field5 1 c rd (k := 11) (r := a) (by rw [hy]; omega)
  have hi := long_part 1 c rd (k := 0) (x := imm) (by rw [hy]; omega)
  rw [decodeCore_long, decodeLong, long_maj, long_cond, long_rd]
  exact congrArg₂ (fun a i => CoreWord.instr (.addi (longHdr core c) rd a i)) ha hi

theorem decode_movhi : decodeCore core (longFirst (8 : Fin 32) c rd) y = .instr (.movhi (longHdr core c) rd y) := by
  rw [decodeCore_long, decodeLong, long_maj, long_cond, long_rd]
  exact congrArg (fun v => CoreWord.instr (.movhi (longHdr core c) rd v)) (long_high 8 c rd y)

theorem decode_bl : decodeCore core (longFirst (0x15 : Fin 32) c rd) y = .instr (.bl (longHdr core c) (y ++ BitVec.ofNat 5 rd.val)) := by
  rw [decodeCore_long, decodeLong, long_maj, long_cond, long_low, long_high]
  rfl

theorem decode_reserved {m : Fin 32} (hm : m = 0x1A ∨ m = 0x1B) : decodeCore core (longFirst m c rd) y = .illegal := by
  rw [decodeCore_long, decodeLong, long_maj]
  rcases hm with rfl | rfl <;> rfl

theorem decode_array (a b : Fin 32) (idx : BitVec 6) :
    decodeCore core (longFirst (0x1D : Fin 32) c rd) (BitVec.ofNat 16 (a.val * 2 ^ 11 + b.val * 2 ^ 6 + idx.toNat)) =
      .array (Fin.ofNat 256 (64 + idx.toNat)) (longHdr core c).cond a b rd := by
  have hidx := idx.isLt
  have hy : (BitVec.ofNat 16 (a.val * 2 ^ 11 + b.val * 2 ^ 6 + idx.toNat)).toNat = a.val * 2 ^ 11 + b.val * 2 ^ 6 + idx.toNat := by
    rw [BitVec.toNat_ofNat]; omega
  have ha := long_field5 0x1D c rd (k := 11) (r := a) (by rw [hy]; omega)
  have hb := long_field5 0x1D c rd (k := 6) (r := b) (by rw [hy]; omega)
  have hi := long_part 0x1D c rd (k := 0) (x := idx) (by rw [hy]; omega)
  rw [decodeCore_long, decodeLong, long_maj, long_cond, long_rd, hi, ha, hb]
  rfl

theorem decode_vm_reserved (hrd : 16 ≤ rd.val) : decodeCore core (longFirst (0x19 : Fin 32) c rd) y = .illegal := by
  have hbit : (y ++ longFirst (0x19 : Fin 32) c rd).getLsbD 4 = true := by
    rw [BitVec.getLsbD, Nat.testBit_eq_decide_div_mod_eq, toNat_long, decide_eq_true_eq]
    omega
  rw [decodeCore_long, decodeLong, long_maj]
  exact if_pos hbit

/-- Form M: a segment, a register and an offset. -/
def memSecond (seg : Fin 8) (b : Fin 32) (size : Fin 4) (imm : BitVec 6) : BitVec 16 :=
  BitVec.ofNat 16 (seg.val * 2 ^ 13 + b.val * 2 ^ 8 + size.val * 2 ^ 6 + imm.toNat)

section Mem

variable (seg : Fin 8) (b : Fin 32) (size : Fin 4) (imm : BitVec 6)

theorem toNat_memSecond : (memSecond seg b size imm).toNat = seg.val * 2 ^ 13 + b.val * 2 ^ 8 + size.val * 2 ^ 6 + imm.toNat := by
  have himm := imm.isLt
  rw [memSecond, BitVec.toNat_ofNat]
  omega

theorem mem_fields :
    let w := memSecond seg b size imm ++ longFirst maj c rd
    (w.extractLsb' 29 3).toFin = seg ∧ field5 w 24 = b ∧ w.extractLsb' 22 2 = BitVec.ofFin size ∧ w.extractLsb' 16 6 = imm := by
  have himm := imm.isLt
  have hy := toNat_memSecond seg b size imm
  refine ⟨congrArg BitVec.toFin (long_part maj c rd (k := 13) (x := BitVec.ofFin (w := 3) seg) ?_), long_field5 maj c rd (k := 8) ?_,
    long_part maj c rd (k := 6) ?_, long_part maj c rd (k := 0) ?_⟩
  · show _ = seg.val
    omega
  · omega
  · show _ = size.val
    omega
  · omega

theorem decode_ldd : decodeCore core (longFirst (0x10 : Fin 32) c rd) (memSecond seg b 3 imm) = .instr (.ldd (longHdr core c) rd seg b imm) := by
  obtain ⟨hseg, hb, hsize, himm⟩ := mem_fields 0x10 c rd seg b 3 imm
  rw [decodeCore_long, decodeLong, long_maj, long_cond]
  show decodeMem (longHdr core c) 0x10 _ = _
  unfold decodeMem
  rw [long_rd, hseg, hb, hsize, himm]
  rfl

theorem decode_stb : decodeCore core (longFirst (0x12 : Fin 32) c rd) (memSecond seg b 0 imm) = .instr (.stb (longHdr core c) rd seg b imm) := by
  obtain ⟨hseg, hb, hsize, himm⟩ := mem_fields 0x12 c rd seg b 0 imm
  rw [decodeCore_long, decodeLong, long_maj, long_cond]
  show decodeMem (longHdr core c) 0x12 _ = _
  unfold decodeMem
  rw [long_rd, hseg, hb, hsize, himm]
  rfl

end Mem

end Long

/-! ## A 16-bit word -/

/-- The halfword of a 16-bit word. -/
def shortWord (op c lo : Nat) : BitVec 16 := BitVec.ofNat 16 (op * 2 ^ 12 + c * 2 ^ 10 + lo)

section Short

variable (core : Fin 8) {op : Nat} (c : Fin 4) {lo : Nat} (y : BitVec 16)

theorem toNat_shortWord (hop : op < 12) (hlo : lo < 2 ^ 10) : (shortWord op c lo).toNat = op * 2 ^ 12 + c.val * 2 ^ 10 + lo := by
  rw [shortWord, BitVec.toNat_ofNat]
  omega

theorem decodeCore_short (hop : op < 12) (hlo : lo < 2 ^ 10) : decodeCore core (shortWord op c lo) y = decodeShort core (shortWord op c lo) := by
  have hlen : ¬ coreLength (shortWord op c lo) = 4 := by
    rw [coreLength_eq, toNat_shortWord c hop hlo, if_neg (by omega)]
    decide
  rw [decodeCore, if_neg hlen]

/-- The header of a 16-bit word. -/
def shortHdr : Hdr := { core := core, cond := condAt c.val, short := true }

theorem short_op (hop : op < 12) (hlo : lo < 2 ^ 10) : (shortWord op c lo).extractLsb' 12 4 = BitVec.ofNat 4 op :=
  extract_eq (by rw [toNat_shortWord c hop hlo, BitVec.toNat_ofNat]; omega)

theorem short_cond (hop : op < 12) (hlo : lo < 2 ^ 10) : condOf (((shortWord op c lo).extractLsb' 10 2).setWidth 4) = condAt c.val := by
  have hc : (BitVec.ofNat 2 c.val).toNat = c.val := by rw [BitVec.toNat_ofNat]; omega
  rw [extract_eq (x := BitVec.ofNat 2 c.val) (by rw [toNat_shortWord c hop hlo, hc]; omega), condOf_eq, BitVec.toNat_setWidth, hc,
    Nat.mod_eq_of_lt (by omega)]

variable (rd a : Fin 32)

theorem short_rd (hop : op < 12) : field5 ((shortWord op c (rd.val * 2 ^ 5 + a.val)).setWidth 32) 5 = rd :=
  field5_eq (by rw [BitVec.toNat_setWidth, toNat_shortWord c hop (by omega)]; omega)

theorem short_rs (hop : op < 12) : field5 ((shortWord op c (rd.val * 2 ^ 5 + a.val)).setWidth 32) 0 = a :=
  field5_eq (by rw [BitVec.toNat_setWidth, toNat_shortWord c hop (by omega)]; omega)

/-- Form H-R. -/
theorem decode_short (hop : op < 12) : decodeCore core (shortWord op c (rd.val * 2 ^ 5 + a.val)) y =
    decodeShort core (shortWord op c (rd.val * 2 ^ 5 + a.val)) := decodeCore_short core c y hop (by omega)

theorem decode_short_add : decodeCore core (shortWord 1 c (rd.val * 2 ^ 5 + a.val)) y = .instr (.add (shortHdr core c) rd rd a) := by
  rw [decode_short core c y rd a (by decide), decodeShort, short_op c (by decide) (by omega), short_cond c (by decide) (by omega),
    short_rd c rd a (by decide), short_rs c rd a (by decide)]
  rfl

theorem decode_short_cmp : decodeCore core (shortWord 6 c (rd.val * 2 ^ 5 + a.val)) y = .instr (.cmp (shortHdr core c) rd a) := by
  rw [decode_short core c y rd a (by decide), decodeShort, short_op c (by decide) (by omega), short_cond c (by decide) (by omega),
    short_rd c rd a (by decide), short_rs c rd a (by decide)]
  rfl

theorem decode_short_ldw : decodeCore core (shortWord 8 c (rd.val * 2 ^ 5 + a.val)) y = .instr (.ldw (shortHdr core c) rd 1 a 0) := by
  rw [decode_short core c y rd a (by decide), decodeShort, short_op c (by decide) (by omega), short_cond c (by decide) (by omega),
    short_rd c rd a (by decide), short_rs c rd a (by decide)]
  rfl

/-- Form H-B. -/
theorem decode_short_b (x : BitVec 16) :
    decodeCore core (shortWord 11 c (x.toNat % 2 ^ 10)) y = .instr (.b (shortHdr core c) ((x.setWidth 10).signExtend 21)) := by
  have hlo : x.toNat % 2 ^ 10 < 2 ^ 10 := Nat.mod_lt _ (by decide)
  have hoff : (shortWord 11 c (x.toNat % 2 ^ 10)).extractLsb' 0 10 = x.setWidth 10 :=
    extract_eq (by rw [toNat_shortWord c (by decide) hlo, BitVec.toNat_setWidth]; omega)
  rw [decodeCore_short core c y (by decide) hlo, decodeShort, short_op c (by decide) hlo, short_cond c (by decide) hlo, hoff]
  rfl

end Short

/-! ## The statement -/

section Takes

variable {s t : State} {h : Hdr}

/-- What comes before the body, for any instruction. -/
theorem before_body {c : Instr} (hc : c.hdr = some h) :
    (s.coreRuns h.core = false → exec c s = .next s) ∧
    (s.coreRuns h.core = true →
      (∀ t, s.boundary h.core = some t → exec c s = .next (settle s t)) ∧
      (s.boundary h.core = none →
        (∀ e t, s.fetch h.core (hdrLen h) = (some e, t) →
          exec c s = .next (settle s ((t.precise h.core e (s.cores[h.core]).pc).stepped h.core))) ∧
        (∀ t, s.fetch h.core (hdrLen h) = (none, t) →
          (4 ≤ h.core.val → h.cond = .gor ∨ h.cond = .gnor →
            exec c s = .next (settle s ((t.precise h.core { code := 0x02 } (s.cores[h.core]).pc).stepped h.core))) ∧
          (condIllegal h = false → t.gorWaits h = true → exec c s = .next s) ∧
          (condIllegal h = false → t.gorWaits h = false → t.condHolds h = false →
            exec c s = .next (settle s ((t.begin_ h).stepped h.core)))))) := by
  obtain ⟨body, hbody⟩ := exec_issues s hc
  rw [hbody]
  exact ⟨issue_idle body, fun hr => ⟨fun _ => issue_boundary body hr, fun hb => ⟨fun _ _ => issue_fetch body hr hb, fun _ hf =>
    ⟨fun h4 hg => issue_condIllegal body hr hb hf (condIllegal_management h4 hg), fun hl hg => issue_gor body hr hb hf hl hg,
      fun hl hg hno => issue_false hr hb hf hl hg hno⟩⟩⟩⟩

end Takes

theorem issueAlu_stalls {s t : State} {h : Hdr} {rs : List (Fin 32)} {f : Core → Core} (hr : s.coreRuns h.core = true)
    (hb : s.boundary h.core = none) (hf : s.fetch h.core (hdrLen h) = (none, t)) (hl : condIllegal h = false)
    (hg : t.gorWaits h = false) (hc : t.condHolds h = true) {r : Fin 32} (hmem : r ∈ rs) (hi : (t.begin_ h).interlocked h.core r = true) :
    s.issueAlu h rs f = .next s := issueRegs_stalls hr hb hf hl hg hc hmem hi

/-- Settles O21: every instruction is an issue; what its body may do, its frame and its words are lemmas of their own. -/
theorem instructionIssue : Obligations.InstructionIssue := by
  unfold Obligations.InstructionIssue
  refine ⟨fun c h s => before_body, fun s t h rd a b c acc fn imm up i5 i ht hi => registers_complete ht i hi, ?_, ?_, ?_⟩
  · rintro s t h rd a b r imm hr hb hf hl hg hc - hmem ⟨d, hd, e, he, hs, rfl⟩ hdevs
    have hi := begin_interlocked hd he hs hdevs
    have hall : e.rdNum ∈ [rd, a, b] := by simpa using hmem
    dsimp only [exec]
    have hdest (hne : e.rdNum ≠ b) : e.rdNum ∈ [rd, a] := by simpa [hne] using hmem
    exact ⟨issueAlu_stalls hr hb hf hl hg hc hall hi, issueAlu_stalls hr hb hf hl hg hc hall hi, issueAlu_stalls hr hb hf hl hg hc hall hi,
      issueAlu_stalls hr hb hf hl hg hc hall hi, fun hne => issueAlu_stalls hr hb hf hl hg hc (hdest hne) hi⟩
  · intro t h f u k
    have hcore : coreOf t h = { k with pc := k.pc + (if h.short then 2 else 4), fpPend := k.fpPend.map (· + 1) } := by
      rw [coreOf_eq]
      unfold hdrLen
      cases h.short <;> rfl
    exact ⟨only_after t h f, onlyRegs_after t h f, fun _ => after_other t h f, after_dev t h f, hcore, fun _ => after_core t h f⟩
  · intro core c c2 rd a b seg imm6 imm11 x y conds h h2 first short
    have hstb := decode_stb core c rd seg b imm6
    rw [memSecond, Fin.val_zero, Nat.zero_mul, Nat.add_zero] at hstb
    exact ⟨coreLength_eq x, decode_short_add core c2 y rd a, decode_short_cmp core c2 y rd a, decode_short_ldw core c2 y rd a,
      decode_short_b core c2 y x, decode_addi core c rd a imm11, decode_movhi core c rd y, decode_ldd core c rd seg b imm6,
      hstb, decode_bl core c rd y, decode_vm_reserved core c rd y,
      decode_reserved core c rd y (m := 0x1A) (.inl rfl), decode_reserved core c rd y (m := 0x1B) (.inr rfl), decode_array core c rd a b imm6⟩

end Sys2Proof.Proofs
end

section
/-!
SUPPORT. The bit-serial arithmetic of the grains, plane by plane from the lowest: addition by a ripple of carries, subtraction, multiplication by
shifted partial sums, and the comparison with a key (R113).
-/

namespace Sys2Proof.Proofs

open Sys2Proof.Machine Sys2Proof.Claims

/-! ## Numbers held in bit planes -/

/-- The bit that a plane holds in a grain, as a number. -/
def grainBit (p : Plane) (g : Nat) : Nat := if p.getLsbD g then 1 else 0

@[simp] theorem grainBit_zero (g : Nat) : grainBit 0#65536 g = 0 := by simp [grainBit]

theorem grainBit_not {g : Nat} (hg : g < 65536) (p : Plane) : grainBit (~~~p) g + grainBit p g = 1 := by
  simp only [grainBit, BitVec.getLsbD_not, hg, decide_true, Bool.true_and]
  cases p.getLsbD g <;> rfl

section Numbers

variable {g : Nat}

@[simp] theorem grainNum_nil : grainNum [] g = 0 := rfl

theorem grainNum_cons (p : Plane) (ps : List Plane) : grainNum (p :: ps) g = grainBit p g + 2 * grainNum ps g := rfl

theorem grainNum_append (ps qs : List Plane) : grainNum (ps ++ qs) g = grainNum ps g + 2 ^ ps.length * grainNum qs g := by
  induction ps with
  | nil => simp
  | cons p ps ih => rw [List.cons_append, grainNum_cons, grainNum_cons, ih, List.length_cons, pow_succ]; ring

theorem grainNum_concat (ps : List Plane) (p : Plane) : grainNum (ps ++ [p]) g = grainNum ps g + 2 ^ ps.length * grainBit p g := by
  simp [grainNum_append, grainNum_cons]

theorem grainNum_lt (ps : List Plane) : grainNum ps g < 2 ^ ps.length := by
  induction ps with
  | nil => simp
  | cons p ps ih =>
    have hbit : grainBit p g ≤ 1 := by unfold grainBit; split <;> omega
    rw [grainNum_cons, List.length_cons, pow_succ]
    omega

@[simp] theorem grainNum_replicate_zero (n : Nat) : grainNum (List.replicate n 0#65536) g = 0 := by
  induction n with
  | zero => rfl
  | succ n ih => rw [List.replicate_succ, grainNum_cons, ih, grainBit_zero]

/-- The complement of a number. -/
theorem grainNum_not (hg : g < 65536) (ps : List Plane) : grainNum (ps.map (fun p => ~~~p)) g + grainNum ps g + 1 = 2 ^ ps.length := by
  induction ps with
  | nil => rfl
  | cons p ps ih =>
    have hbit := grainBit_not hg p
    rw [List.map_cons, grainNum_cons, grainNum_cons, List.length_cons, pow_succ]
    omega

/-- A number where a plane is set, and zero elsewhere. -/
theorem grainNum_and (ps : List Plane) (x : Plane) : grainNum (ps.map (· &&& x)) g = grainBit x g * grainNum ps g := by
  induction ps with
  | nil => rfl
  | cons p ps ih =>
    have hbit : grainBit (p &&& x) g = grainBit x g * grainBit p g := by
      simp only [grainBit, BitVec.getLsbD_and]
      cases p.getLsbD g <;> cases x.getLsbD g <;> rfl
    rw [List.map_cons, grainNum_cons, grainNum_cons, ih, hbit]
    ring

end Numbers

/-! ## Addition -/

/-- The carry out of a bit. -/
def carryOut (x y c : Plane) : Plane := (x &&& y) ||| (x &&& c) ||| (y &&& c)

theorem grainBit_adder (x y c : Plane) (g : Nat) :
    grainBit (x ^^^ y ^^^ c) g + 2 * grainBit (carryOut x y c) g = grainBit x g + grainBit y g + grainBit c g := by
  simp only [grainBit, carryOut, BitVec.getLsbD_xor, BitVec.getLsbD_or, BitVec.getLsbD_and]
  cases x.getLsbD g <;> cases y.getLsbD g <;> cases c.getLsbD g <;> rfl

/-- The last bit's addition takes the carry out of the bits below it. -/
theorem addPlanes_concat {a b : List Plane} (h : a.length = b.length) (x y cin : Plane) :
    addPlanes (a ++ [x]) (b ++ [y]) cin =
      ((addPlanes a b cin).1 ++ [x ^^^ y ^^^ (addPlanes a b cin).2.1], carryOut x y (addPlanes a b cin).2.1, (addPlanes a b cin).2.1) := by
  unfold addPlanes
  rw [List.zip_append h, List.foldl_append]
  rfl

/-- Two lists of one length are empty together or end together. -/
theorem concat_pair_induction {α : Type} {motive : ∀ a b : List α, a.length = b.length → Prop} (nil : motive [] [] rfl)
    (concat : ∀ a b x y h, motive a b h → motive (a ++ [x]) (b ++ [y]) (by simp [h])) (a b : List α) (h : a.length = b.length) :
    motive a b h := by
  induction a using List.reverseRecOn generalizing b with
  | nil =>
    obtain rfl := List.length_eq_zero_iff.mp h.symm
    exact nil
  | append_singleton a x ih =>
    induction b using List.reverseRecOn with
    | nil => simp at h
    | append_singleton b y _ =>
      have hlen : a.length = b.length := by simpa using h
      exact concat a b x y hlen (ih b hlen)

section Addition

variable {a b : List Plane} (h : a.length = b.length) (cin : Plane)

include h

theorem addPlanes_length : (addPlanes a b cin).1.length = a.length := by
  induction a, b, h using concat_pair_induction with
  | nil => rfl
  | concat a b x y h ih => simp [addPlanes_concat h, ih]

/-- The sum's planes and the carry out of them hold the sum of the numbers and of the carry in. -/
theorem addPlanes_num (g : Nat) :
    grainNum (addPlanes a b cin).1 g + 2 ^ a.length * grainBit (addPlanes a b cin).2.1 g = grainNum a g + grainNum b g + grainBit cin g := by
  induction a, b, h using concat_pair_induction with
  | nil => simp [addPlanes]
  | concat a b x y h ih =>
    have hbit := grainBit_adder x y (addPlanes a b cin).2.1 g
    simp only [addPlanes_concat h, grainNum_concat, addPlanes_length h cin, List.length_append, List.length_singleton, pow_succ, ← h]
    linear_combination ih + 2 ^ a.length * hbit

end Addition

/-- The value of a two's complement number by its sign plane. -/
theorem signedOf_concat (a : List Plane) (x : Plane) (g : Nat) :
    signedOf (a ++ [x]).length (grainNum (a ++ [x]) g) = (grainNum a g : Int) - 2 ^ a.length * grainBit x g := by
  have hlt := grainNum_lt (g := g) a
  simp only [signedOf, grainNum_concat, List.length_append, List.length_singleton, Nat.add_sub_cancel, grainBit]
  cases x.getLsbD g
  · simp [hlt]
  · simp [pow_succ]
    ring

/-- The carries into and out of a sum's sign differ in a grain where the sum overflows. -/
theorem addPlanes_overflow {a b : List Plane} (h : a.length = b.length) (g : Nat) (hpos : 0 < a.length) :
    ((addPlanes a b 0).2.1 ^^^ (addPlanes a b 0).2.2).getLsbD g = true ↔
      signedOf a.length (grainNum (addPlanes a b 0).1 g) ≠ signedOf a.length (grainNum a g) + signedOf a.length (grainNum b g) := by
  induction a, b, h using concat_pair_induction with
  | nil => cases hpos
  | concat a b x y h ih =>
    have hsum := addPlanes_num h 0 g
    have hlen := addPlanes_length h 0
    rw [addPlanes_concat h]
    generalize (addPlanes a b 0).2.1 = c at *
    generalize (addPlanes a b 0).1 = s at *
    have hs := signedOf_concat s (x ^^^ y ^^^ c) g
    have hb := signedOf_concat b y g
    rw [List.length_append, hlen, List.length_singleton] at hs
    rw [List.length_append, ← h, List.length_singleton] at hb
    rw [signedOf_concat, List.length_append, List.length_singleton, hs, hb]
    have hbit := grainBit_adder x y c g
    zify at hsum hbit
    have hdiff : (grainNum s g - 2 ^ a.length * grainBit (x ^^^ y ^^^ c) g : Int) =
        (grainNum a g - 2 ^ a.length * grainBit x g + (grainNum b g - 2 ^ a.length * grainBit y g)) +
          2 ^ (a.length + 1) * (grainBit (carryOut x y c) g - grainBit c g) := by
      rw [show grainBit 0 g = 0 from grainBit_zero g, Nat.cast_zero] at hsum
      linear_combination hsum - 2 ^ a.length * hbit
    rw [hdiff, ne_eq, add_eq_left, mul_eq_zero_iff_left (by positivity), BitVec.getLsbD_xor]
    unfold grainBit
    cases (carryOut x y c).getLsbD g <;> cases c.getLsbD g <;> simp

/-! ## Subtraction -/

section Subtraction

variable {a b : List Plane} (h : a.length = b.length) {g : Nat} (hg : g < 65536)

include h hg

/-- A difference: the borrow stands for the power of two that the planes do not hold. -/
theorem subPlanes_num : grainNum (subPlanes a b).1 g + grainNum b g = grainNum a g + 2 ^ a.length * grainBit (subPlanes a b).2 g := by
  have hadd := addPlanes_num (b := b.map fun p => ~~~p) (by simpa using h) (BitVec.allOnes 65536) g
  have hcompl := grainNum_not hg b
  have hcarry := grainBit_not hg (addPlanes a (b.map fun p => ~~~p) (BitVec.allOnes 65536)).2.1
  have hone : grainBit (BitVec.allOnes 65536) g = 1 := by
    rw [grainBit, BitVec.getLsbD_allOnes, decide_eq_true hg, if_pos rfl]
  rw [hone] at hadd
  rw [← h] at hcompl
  unfold subPlanes
  dsimp only
  linear_combination hadd + hcompl - 2 ^ a.length * hcarry

omit hg in
theorem subPlanes_length : (subPlanes a b).1.length = a.length := addPlanes_length (by simpa using h) _

theorem subPlanes_diff :
    (grainNum (subPlanes a b).1 g : Int) = (grainNum a g : Int) - grainNum b g + 2 ^ a.length * grainBit (subPlanes a b).2 g := by
  have hnum := subPlanes_num h hg
  zify at hnum
  linear_combination hnum

/-- A borrow comes out where the first number is less. -/
theorem subPlanes_borrow : (subPlanes a b).2.getLsbD g = true ↔ grainNum a g < grainNum b g := by
  have hnum := subPlanes_num h hg
  have hlt := grainNum_lt (g := g) (subPlanes a b).1
  rw [subPlanes_length h] at hlt
  unfold grainBit at hnum
  cases hb : (subPlanes a b).2.getLsbD g
  · simp [hb] at hnum ⊢
    omega
  · simp [hb] at hnum ⊢
    omega

end Subtraction

/-! ## Multiplication -/

/-- The partial sum that a plane of the multiplier adds to the product so far. -/
def partialSum (b : List Plane) (w n : Nat) (x : Plane) : List Plane :=
  ((List.replicate n 0 ++ b.map (· &&& x)) ++ List.replicate w 0).take w

theorem mulPlanes_concat (a b : List Plane) (x : Plane) (w : Nat) :
    mulPlanes (a ++ [x]) b w = (addPlanes (mulPlanes a b w) (partialSum b w a.length x) 0).1 := by
  simp only [mulPlanes, List.zipIdx_append, List.foldl_append]
  simp [partialSum]

theorem partialSum_eq {b : List Plane} {w n : Nat} (h : n + b.length ≤ w) (x : Plane) :
    partialSum b w n x = List.replicate n 0 ++ b.map (· &&& x) ++ List.replicate (w - (n + b.length)) 0 := by
  rw [partialSum, List.take_append, List.take_of_length_le (by simpa using h), List.take_replicate]
  simp

theorem partialSum_length (b : List Plane) (w n : Nat) (x : Plane) : (partialSum b w n x).length = w := by
  simp [partialSum]
  omega

theorem partialSum_num {b : List Plane} {w n : Nat} (h : n + b.length ≤ w) (x : Plane) (g : Nat) :
    grainNum (partialSum b w n x) g = 2 ^ n * (grainBit x g * grainNum b g) := by
  simp [partialSum_eq h, grainNum_append, grainNum_and]

theorem mulPlanes_length (a b : List Plane) (w : Nat) : (mulPlanes a b w).length = w := by
  induction a using List.reverseRecOn with
  | nil => simp [mulPlanes]
  | append_singleton a x ih => rw [mulPlanes_concat, addPlanes_length (by rw [ih, partialSum_length]), ih]

/-- With planes enough for both factors, no partial sum carries out. -/
theorem mulPlanes_num {a b : List Plane} {w : Nat} (hw : a.length + b.length ≤ w) (g : Nat) :
    grainNum (mulPlanes a b w) g = grainNum a g * grainNum b g := by
  induction a using List.reverseRecOn with
  | nil => simp [mulPlanes]
  | append_singleton a x ih =>
    rw [List.length_append, List.length_singleton] at hw
    have hadd := addPlanes_num (a := mulPlanes a b w) (b := partialSum b w a.length x) (by rw [mulPlanes_length, partialSum_length]) 0 g
    rw [mulPlanes_length, ih (by omega), partialSum_num (by omega), show grainBit 0 g = 0 from grainBit_zero g] at hadd
    have hprod : grainNum (a ++ [x]) g * grainNum b g < 2 ^ w :=
      calc grainNum (a ++ [x]) g * grainNum b g < 2 ^ (a ++ [x]).length * 2 ^ b.length := Nat.mul_lt_mul'' (grainNum_lt _) (grainNum_lt _)
        _ = 2 ^ (a.length + 1 + b.length) := by rw [← pow_add, List.length_append, List.length_singleton]
        _ ≤ 2 ^ w := Nat.pow_le_pow_right (by decide) hw
    rw [grainNum_concat] at hprod ⊢
    rw [mulPlanes_concat]
    generalize hc : grainBit _ g = c at hadd
    have hc0 : c = 0 := by
      by_contra hne
      have : 2 ^ w ≤ 2 ^ w * c := Nat.le_mul_of_pos_right _ (by omega)
      linarith
    rw [hc0] at hadd
    linarith

/-! ## Comparison with a key -/

/-- Two numbers are equal when their low and their high parts are. -/
theorem add_mul_eq_iff {n x y u v : Nat} (hx : x < n) (hy : y < n) : x + n * u = y + n * v ↔ x = y ∧ u = v := by
  refine ⟨fun h => ?_, fun ⟨hxy, huv⟩ => by rw [hxy, huv]⟩
  have hmod := congrArg (· % n) h
  have hdiv := congrArg (· / n) h
  simpa [Nat.mod_eq_of_lt, Nat.add_mul_div_left, Nat.div_eq_of_lt, hx, hy, Nat.zero_lt_of_lt hx] using And.intro hmod hdiv

theorem matchPlane_concat (a : List Plane) (x : Plane) (key : DWord) :
    matchPlane (a ++ [x]) key = matchPlane a key &&& (if key.getLsbD a.length then x else ~~~x) := by
  simp [matchPlane, List.zipIdx_append]

/-- A field matches a key where it holds the key's low bits. -/
theorem matchPlane_iff {g : Nat} (hg : g < 65536) (a : List Plane) (key : DWord) :
    (matchPlane a key).getLsbD g = true ↔ grainNum a g = key.toNat % 2 ^ a.length := by
  induction a using List.reverseRecOn with
  | nil =>
    rw [matchPlane, List.zipIdx_nil, List.foldl_nil, BitVec.getLsbD_allOnes, decide_eq_true hg, List.length_nil, pow_zero, Nat.mod_one]
    simp
  | append_singleton a x ih =>
    have hlow := grainNum_lt (g := g) a
    have hkey : key.toNat % 2 ^ a.length < 2 ^ a.length := Nat.mod_lt _ (by positivity)
    have hbit : (if key.getLsbD a.length then x else ~~~x).getLsbD g = true ↔ grainBit x g = key.toNat / 2 ^ a.length % 2 := by
      rw [← Nat.toNat_testBit, BitVec.testBit_toNat, grainBit]
      cases key.getLsbD a.length <;> cases hx : x.getLsbD g <;> simp [BitVec.getLsbD_not, hg, hx, -BitVec.getLsbD_eq_getElem]
    rw [matchPlane_concat, BitVec.getLsbD_and, Bool.and_eq_true, ih, hbit, grainNum_concat, List.length_append, List.length_singleton,
      Nat.mod_pow_succ]
    exact (add_mul_eq_iff hlow hkey).symm

/-- Settles O19: each is the arithmetic of the numbers that the planes hold, shown from the lowest plane up. -/
theorem grainArithmetic : Obligations.GrainArithmetic := by
  unfold Obligations.GrainArithmetic
  intro a b cin g hg
  exact ⟨fun h => ⟨addPlanes_num h cin g, addPlanes_length h cin, subPlanes_borrow h hg, subPlanes_diff h hg, addPlanes_overflow h g⟩,
    mulPlanes_num le_rfl g, fun key _ => matchPlane_iff hg a key⟩

end Sys2Proof.Proofs
end

section
/-!
SUPPORT. How an array instruction issues: its decode entry, the checks of R109 in their order, and its entry into the AIQ (R107-R112).
-/

namespace Sys2Proof.Proofs

open Sys2Proof.Machine Sys2Proof.Claims

/-! ## Issue (R107, R110-R112) -/

/-- What an array instruction's index does to the core that issues it: a.sync waits (R112). -/
def syncing (idx : Nat) (k : Core) : Core := if idx = 87 then { k with run := .sync } else k

theorem syncing_run (idx : Nat) (k : Core) : (syncing idx k).run = if idx = 87 then .sync else k.run := by
  unfold syncing; split <;> rfl

@[simp] theorem syncing_pc (idx : Nat) (k : Core) : (syncing idx k).pc = k.pc := by unfold syncing; split <;> rfl

@[simp] theorem syncing_s (idx : Nat) (k : Core) : (syncing idx k).s = k.s := by unfold syncing; split <;> rfl

section Entry

variable (s t : State) (h : Hdr) (d : Fin 4) (e : DecEnt) (idx : Nat) (rd ra rb : Fin 32)

/-- The state once the instruction is in the AIQ. -/
def arrayIssued : State := ((t.begin_ h).enqueueAiq h.core d e idx rd ra rb).modCore h.core (syncing idx)

theorem arrayIssued_eq : (if idx = 87 then ((t.begin_ h).enqueueAiq h.core d e idx rd ra rb).modCore h.core (fun k => { k with run := .sync })
    else (t.begin_ h).enqueueAiq h.core d e idx rd ra rb) = arrayIssued t h d e idx rd ra rb := by
  unfold arrayIssued
  split
  next hi => exact modCore_congr (if_pos hi).symm
  next hi => exact (modCore_self (if_neg hi)).symm

theorem only_arrayIssued : Only [.cores, .devs] t (arrayIssued t h d e idx rd ra rb) := by
  unfold arrayIssued State.enqueueAiq
  simpa using only_begin t h

theorem onlyRegs_arrayIssued : OnlyRegs [] t (arrayIssued t h d e idx rd ra rb) := by
  unfold arrayIssued State.enqueueAiq
  simpa using onlyRegs_begin t h

theorem arrayIssued_core : (arrayIssued t h d e idx rd ra rb).cores[h.core] = syncing idx (coreOf t h) := cores_modCore_same _ _ _

theorem arrayIssued_other {c : Fin 8} (hc : c ≠ h.core) : (arrayIssued t h d e idx rd ra rb).cores[c] = t.cores[c] :=
  (cores_modCore_other _ hc _).trans (begin_other t h hc)

theorem arrayIssued_aiq : ((arrayIssued t h d e idx rd ra rb).devs[d]).aiq =
    (t.devs[d]).aiq ++ [issued (coreOf t h) idx rd ra rb (decide (e.dk = 2)) (t.reg .GRN_EDGE)] := by
  obtain ⟨l, hl⟩ := begin_dev t h d
  have hedge : (t.begin_ h).reg .GRN_EDGE = t.reg .GRN_EDGE := onlyRegs_begin t h _ 0 (by decide) List.not_mem_nil
  unfold arrayIssued State.enqueueAiq
  rw [State.modCore_devs, modDev_dev, if_pos rfl, hl, hedge]
  rfl

/-- Of the Developers the issuing core's own alone, and the trace (R366). -/
theorem arrayIssued_otherDev (hd : d.val = h.core.val) {d' : Fin 4} (hne : d' ≠ d) :
    (arrayIssued t h d e idx rd ra rb).devs[d'] = t.devs[d'] := by
  unfold arrayIssued State.enqueueAiq
  rw [State.modCore_devs, modDev_dev, if_neg hne.symm, State.begin_, State.modCore_devs]
  obtain htr | ⟨d₀, l, hd₀, htr⟩ := tracePc_cases t h.core
  · rw [htr]
  · rw [htr, modDev_dev, if_neg (fun hEq => hne (Fin.ext (by rw [← hEq]; omega)))]

/-- What IsArray says of the state after. -/
theorem arrayIssued_answer (hd : d.val = h.core.val) :
    let u := settle s ((arrayIssued t h d e idx rd ra rb).stepped h.core)
    (u.devs[d]).aiq = (t.devs[d]).aiq ++ [issued (coreOf t h) idx rd ra rb (decide (e.dk = 2)) (t.reg .GRN_EDGE)] ∧
    (u.cores[h.core]).pc = (t.cores[h.core]).pc + (if h.short then 2 else 4) ∧ (u.cores[h.core]).s = (t.cores[h.core]).s ∧
    (u.cores[h.core]).run = (if idx = 87 then .sync else (t.cores[h.core]).run) ∧
    (∀ c' : Fin 8, c' ≠ h.core → u.cores[c'] = t.cores[c']) ∧ (∀ d' : Fin 4, d' ≠ d → u.devs[d'] = t.devs[d']) ∧
    Only [.cores, .devs, .regs] t (settle t u) ∧ OnlyRegs [(.DBG_HALT, 0)] t u := by
  intro u
  have hdevs : u.devs = (arrayIssued t h d e idx rd ra rb).devs := stepped_devs _ _
  have hcore : u.cores[h.core] = { syncing idx (coreOf t h) with stepping := false } :=
    (stepped_core _ _).trans (by rw [arrayIssued_core])
  have hlen : BitVec.ofNat 32 (hdrLen h) = if h.short then 2 else 4 := by unfold hdrLen; cases h.short <;> rfl
  rw [hdevs, hcore]
  refine ⟨arrayIssued_aiq t h d e idx rd ra rb, ?_, ?_, ?_, fun c hc => (stepped_other _ _ hc).trans (arrayIssued_other t h d e idx rd ra rb hc),
    fun d' hne => arrayIssued_otherDev t h d e idx rd ra rb hd hne, ?_, ?_⟩
  · rw [syncing_pc, coreOf_eq, hlen]
  · rw [syncing_s, coreOf_eq]
  · rw [syncing_run, coreOf_eq]
  · obtain ⟨-, -, -, hroot, hparts⟩ : Only [.cores, .devs, .regs] t ((arrayIssued t h d e idx rd ra rb).stepped h.core) :=
      only_trans (only_mono (only_arrayIssued t h d e idx rd ra rb) (by simp)) (only_mono (only_stepped _ _) (by simp))
    exact ⟨rfl, rfl, rfl, hroot, fun p hp => (same_settle p t t _).mpr ((same_settle p s t _).mpr (hparts p hp))⟩
  · exact onlyRegs_trans (fun r i hi _ => onlyRegs_arrayIssued t h d e idx rd ra rb r i hi List.not_mem_nil) (onlyRegs_stepped _ _)

end Entry

/-- The registers that an entry uses are among the three of its instruction. -/
theorem used_ready {s : State} {c : Fin 8} {rd ra rb : Fin 32} (e : DecEnt) (h : [rd, ra, rb].any (fun r => s.interlocked c r) = false) :
    ((if e.dk ≠ 0 then [rd] else []) ++ (if e.ak ≠ 0 then [ra] else []) ++ (if e.bk ≠ 0 then [rb] else [])).any
      (fun r => s.interlocked c r) = false := by
  rw [List.any_eq_false] at h ⊢
  refine fun r hr => h r ?_
  simp only [List.mem_append, apply_ite (r ∈ ·), List.mem_singleton, List.not_mem_nil] at hr
  simp only [List.mem_cons, List.not_mem_nil]
  grind

/-- A command that issues an array instruction of an index is one. -/
theorem isArray_of_exec {c : Instr} {h : Hdr} {idx : Nat} {rd ra rb : Fin 32} (hexec : ∀ s, exec c s = s.issueArray h idx rd ra rb) :
    IsArray c h idx rd ra rb := by
  intro s t ht
  unfold Answers
  rw [hexec]
  unfold State.issueArray
  refine ⟨fun h4 => ht.issue_trap (dif_neg (by omega)), fun d e hd hdec hready => ?_⟩
  have hc : h.core.val < 4 := hd ▸ d.isLt
  obtain rfl : d = ⟨h.core.val, hc⟩ := Fin.ext hd
  have hused := used_ready e hready
  refine ⟨fun x hx => ht.issue_trap ?_, fun hpass => ⟨fun hfull => ht.issue_stall ?_, fun hroom => ?_⟩⟩
  · simp only [hc, dif_pos, hdec, hused, hx, Bool.false_eq_true, if_false]
  · have hlen : 32 ≤ ((t.begin_ h).devs[(⟨h.core.val, hc⟩ : Fin 4)]).aiq.length := by
      obtain ⟨l, hl⟩ := begin_dev t h ⟨h.core.val, hc⟩
      rwa [hl]
    simp only [hc, dif_pos, hdec, hused, hpass, hlen, Bool.false_eq_true, if_false, if_true]
  · have hlen : ¬ 32 ≤ ((t.begin_ h).devs[(⟨h.core.val, hc⟩ : Fin 4)]).aiq.length := by
      obtain ⟨l, hl⟩ := begin_dev t h ⟨h.core.val, hc⟩
      rw [hl]
      exact Nat.not_le.mpr hroom
    refine ⟨_, ht.issue_done (u := arrayIssued t h ⟨h.core.val, hc⟩ e idx rd ra rb) ?_, ?_⟩
    · simp only [hc, dif_pos, hdec, hused, hpass, hlen, Bool.false_eq_true, if_false, arrayIssued_eq]
    · exact arrayIssued_answer s t h ⟨h.core.val, hc⟩ e idx rd ra rb rfl

/-! ## Field descriptors (R108) -/

theorem fieldBase_eq (v : Word) : fieldBase v = (v.extractLsb' 0 13).toNat := by
  rw [fieldBase, BitVec.extractLsb'_toNat, Nat.shiftRight_zero]

theorem fieldWidth_eq (v : Word) : fieldWidth v = if v.extractLsb' 16 6 = 0 then 64 else (v.extractLsb' 16 6).toNat := by
  simp only [fieldWidth, ← BitVec.toNat_inj, BitVec.extractLsb'_toNat, Nat.shiftRight_eq_div_pow]
  rfl

theorem fieldOk_iff (v : Word) : fieldOk v = true ↔ v.extractLsb' 22 10 = 0 ∧ v.extractLsb' 13 3 = 0 := by
  have hv := v.isLt
  have hzero (n : Nat) : (0 : BitVec n).toNat = 0 := BitVec.toNat_zero
  simp only [fieldOk, decide_eq_true_eq, ← BitVec.toNat_inj, BitVec.extractLsb'_toNat, Nat.shiftRight_eq_div_pow, hzero]
  omega

theorem fieldWidth_pos (v : Word) : 1 ≤ fieldWidth v := by
  unfold fieldWidth
  dsimp only
  split <;> omega

theorem fieldWidth_le (v : Word) : fieldWidth v ≤ 64 := by
  unfold fieldWidth
  dsimp only
  split <;> omega

/-! ## The checks at issue (R109) -/

section Checks

variable {s : State} {c : Fin 8} {d : Fin 4} {e : DecEnt} {idx : Nat} {rd ra rb : Fin 32}

/-- What makes an array instruction illegal: an entry not valid, a register in a field that its entry does not use, or TRAP = 1. -/
def ArrayIllegal (k : Core) (e : DecEnt) (rd ra rb : Fin 32) : Prop :=
  ¬ e.valid ∨ ((e.dk = 0 ∧ rd ≠ 0) ∨ (e.ak = 0 ∧ ra ≠ 0) ∨ (e.bk = 0 ∧ rb ≠ 0)) ∨ k.trap

theorem arrayCheck_illegal (h : ArrayIllegal s.cores[c] e rd ra rb) : s.arrayCheck c d e idx rd ra rb = some illegal := if_pos h

theorem arrayCheck_privileged (h : ¬ ArrayIllegal s.cores[c] e rd ra rb) (hsys : e.sys = true) (hu : (s.cores[c]).sLevel = false) :
    s.arrayCheck c d e idx rd ra rb = some privileged :=
  (if_neg h).trans (if_pos ⟨hsys, by rw [hu]; decide⟩)

theorem arrayCheck_noGang (h : ¬ ArrayIllegal s.cores[c] e rd ra rb) (hsys : e.sys = false) (hgang : s.drives d = false) :
    s.arrayCheck c d e idx rd ra rb = some { code := excNoGang } :=
  (if_neg h).trans ((if_neg (by rw [hsys]; nofun)).trans (if_pos (by rw [hgang]; decide)))

/-- The checks of the operands' fields alone, in their order: descriptors and widths, range, overlap, cycles. -/
def operandCheck (s : State) (e : DecEnt) (idx : Nat) (vd va vb : Word) : Option Exc :=
  ((e.badOperand idx vd va vb).map fun o => arrayExc 3 o.1 o.2).or
    (((e.farOperand vd va vb).map fun o => arrayExc 0 o.1 o.2).or
      (if e.clashes vd va vb then some (arrayExc 1 0 vd)
      else if 2048 < e.cycles vd va vb then
        some { code := excArray, faddr := some (BitVec.ofNat 32 (2 * 2 ^ 29) ||| (s.free_ 32 &&& 0xDFFF)) }
      else none))

theorem arrayCheck_operands (h : ¬ ArrayIllegal s.cores[c] e rd ra rb) (hsys : e.sys = false) (hgang : s.drives d = true) (hidx : idx ≠ 74) :
    s.arrayCheck c d e idx rd ra rb = operandCheck s e idx ((s.cores[c]).x rd) ((s.cores[c]).x ra) ((s.cores[c]).x rb) := by
  unfold ArrayIllegal at h
  simp only [State.arrayCheck, h, hsys, hgang, hidx, operandCheck, Bool.false_eq_true, false_and, if_false, not_true_eq_false]
  cases e.badOperand idx _ _ _ with
  | some o => rfl
  | none => cases e.farOperand _ _ _ <;> rfl

end Checks

/-! ## a.add -/

section Add

variable (vd va vb : Word)

theorem arrayIllegal_add (k : Core) (rd ra rb : Fin 32) : ArrayIllegal k (romDec 0) rd ra rb ↔ k.trap = true := by
  simp [ArrayIllegal, romDec]

theorem badOperand_add : (romDec 0).badOperand 0 vd va vb =
    if ¬ fieldOk vd then some (0, vd) else if ¬ fieldOk va then some (1, va) else if ¬ fieldOk vb then some (2, vb)
    else if fieldWidth va ≠ fieldWidth vd then some (1, va) else if fieldWidth vb ≠ fieldWidth vd then some (2, vb) else none := by
  have hfew := Nat.not_lt.mpr (fieldWidth_pos vd)
  have hmany := fun v => Nat.not_lt.mpr (fieldWidth_le v)
  simp [DecEnt.badOperand, romDec, DecEnt.wD, DecEnt.wA, DecEnt.nB, hfew, hmany]

theorem farOperand_add : (romDec 0).farOperand vd va vb =
    if 7680 < fieldBase vd + fieldWidth vd then some (0, vd) else if 7680 < fieldBase va + fieldWidth va then some (1, va)
    else if 7680 < fieldBase vb + fieldWidth vb then some (2, vb) else none := by
  simp [DecEnt.farOperand, romDec, DecEnt.wD, DecEnt.wA, DecEnt.nB, DecEnt.inRange, DecEnt.bSize]

/-- Two fields share no address. -/
def DescApart (v w : Word) : Prop := fieldBase v + fieldWidth v ≤ fieldBase w ∨ fieldBase w + fieldWidth w ≤ fieldBase v

theorem clashes_add : (romDec 0).clashes vd va vb = true ↔ ¬ (DescApart vd va ∧ DescApart vd vb) := by
  have hd := fieldWidth_pos vd
  have ha := fieldWidth_pos va
  have hb := fieldWidth_pos vb
  simp [DecEnt.clashes, romDec, DecEnt.wD, DecEnt.wA, DecEnt.nB, DecEnt.bSize, overlaps, DescApart]
  omega

theorem cycles_add : (romDec 0).cycles vd va vb = 2 + 3 * fieldWidth vd := by
  simp [DecEnt.cycles, romDec, DecEnt.wD]

/-- No sum takes more than 2,048 cycles. -/
theorem operandCheck_add (s : State) : operandCheck s (romDec 0) 0 vd va vb =
    (((romDec 0).badOperand 0 vd va vb).map fun o => arrayExc 3 o.1 o.2).or
      ((((romDec 0).farOperand vd va vb).map fun o => arrayExc 0 o.1 o.2).or
        (if (romDec 0).clashes vd va vb then some (arrayExc 1 0 vd) else none)) := by
  have hfast : ¬ 2048 < 2 + 3 * fieldWidth vd := by
    have := fieldWidth_le vd
    omega
  simp only [operandCheck, cycles_add, if_neg hfast]

/-- The operand that breaks R108 or the widths, in the order RD, RA, RB (R110). -/
theorem operandCheck_add_bad (s : State) :
    (¬ fieldOk vd → operandCheck s (romDec 0) 0 vd va vb = some (arrayExc 3 0 vd)) ∧
    (fieldOk vd → ¬ fieldOk va → operandCheck s (romDec 0) 0 vd va vb = some (arrayExc 3 1 va)) ∧
    (fieldOk vd → fieldOk va → ¬ fieldOk vb → operandCheck s (romDec 0) 0 vd va vb = some (arrayExc 3 2 vb)) ∧
    (fieldOk vd → fieldOk va → fieldOk vb →
      (fieldWidth va ≠ fieldWidth vd → operandCheck s (romDec 0) 0 vd va vb = some (arrayExc 3 1 va)) ∧
      (fieldWidth va = fieldWidth vd → fieldWidth vb ≠ fieldWidth vd → operandCheck s (romDec 0) 0 vd va vb = some (arrayExc 3 2 vb))) := by
  rw [operandCheck_add, badOperand_add]
  refine ⟨fun hd => ?_, fun hd ha => ?_, fun hd ha hb => ?_, fun hd ha hb => ⟨fun hwa => ?_, fun hwa hwb => ?_⟩⟩ <;> simp [*]

/-- Operands in order: the field beyond program memory, then the shared address (R37, R109). -/
theorem operandCheck_add_good (s : State) (hd : fieldOk vd) (ha : fieldOk va) (hb : fieldOk vb) (hwa : fieldWidth va = fieldWidth vd)
    (hwb : fieldWidth vb = fieldWidth vd) :
    (7680 < fieldBase vd + fieldWidth vd → operandCheck s (romDec 0) 0 vd va vb = some (arrayExc 0 0 vd)) ∧
    (fieldBase vd + fieldWidth vd ≤ 7680 → 7680 < fieldBase va + fieldWidth va →
      operandCheck s (romDec 0) 0 vd va vb = some (arrayExc 0 1 va)) ∧
    (fieldBase vd + fieldWidth vd ≤ 7680 → fieldBase va + fieldWidth va ≤ 7680 → 7680 < fieldBase vb + fieldWidth vb →
      operandCheck s (romDec 0) 0 vd va vb = some (arrayExc 0 2 vb)) ∧
    (fieldBase vd + fieldWidth vd ≤ 7680 → fieldBase va + fieldWidth va ≤ 7680 → fieldBase vb + fieldWidth vb ≤ 7680 →
      (¬ (DescApart vd va ∧ DescApart vd vb) → operandCheck s (romDec 0) 0 vd va vb = some (arrayExc 1 0 vd)) ∧
      (DescApart vd va → DescApart vd vb → operandCheck s (romDec 0) 0 vd va vb = none)) := by
  have hbad : (romDec 0).badOperand 0 vd va vb = none := by simp [badOperand_add, *]
  rw [operandCheck_add, farOperand_add, hbad]
  refine ⟨fun hd => ?_, fun hd ha => ?_, fun hd ha hb => ?_, fun hd ha hb => ?_⟩
  · simp only [if_pos hd]; rfl
  · simp only [if_neg (Nat.not_lt.mpr hd), if_pos ha]; rfl
  · simp only [if_neg (Nat.not_lt.mpr hd), if_neg (Nat.not_lt.mpr ha), if_pos hb]; rfl
  · simp only [if_neg (Nat.not_lt.mpr hd), if_neg (Nat.not_lt.mpr ha), if_neg (Nat.not_lt.mpr hb), Option.map_none, Option.none_or]
    exact ⟨fun h => if_pos ((clashes_add vd va vb).mpr h), fun hda hdb => if_neg fun h => (clashes_add vd va vb).mp h ⟨hda, hdb⟩⟩

end Add

theorem arrayExc_eq (reason op : Nat) (v : Word) : arrayExc reason op v =
    { code := 0x09, faddr := some (BitVec.ofNat 32 (2 ^ 29 * reason + 2 ^ 14 * op + fieldBase v)) } := by
  rw [arrayExc, arrayFaddr, Nat.mul_comm reason, Nat.mul_comm op]
  rfl

/-! ## The statement -/

/-- Settles O18: each array instruction is the issue of its index, and the checks are taken one by one in their order. -/
theorem arrayInstructionIssue : Obligations.ArrayInstructionIssue := by
  unfold Obligations.ArrayInstructionIssue
  refine ⟨fun h rd ra rb k => ?_, fun s c d rd ra rb => ?_, fun s c d e idx rd ra rb => ⟨fun hill => ?_, ?_⟩⟩
  · dsimp only
    and_intros <;> exact isArray_of_exec fun _ => rfl
  · dsimp only
    simp only [← fieldBase_eq, ← fieldWidth_eq, ← fieldOk_iff, ← arrayExc_eq]
    have hlegal (htrap : (s.cores[c]).status.getLsbD 4 = false) : ¬ ArrayIllegal s.cores[c] (romDec 0) rd ra rb := fun h =>
      Bool.false_ne_true (htrap.symm.trans ((arrayIllegal_add _ _ _ _).mp h))
    refine ⟨fun htrap => arrayCheck_illegal ((arrayIllegal_add _ _ _ _).mpr htrap), fun htrap hgang =>
      arrayCheck_noGang (hlegal htrap) rfl (decide_eq_false (not_not_intro hgang)), fun htrap hgang => ?_⟩
    rw [arrayCheck_operands (hlegal htrap) rfl (decide_eq_true hgang) (by decide)]
    obtain ⟨hbd, hba, hbb, hwidths⟩ := operandCheck_add_bad ((s.cores[c]).x rd) ((s.cores[c]).x ra) ((s.cores[c]).x rb) s
    refine ⟨hbd, hba, hbb, fun hd ha hb => ?_⟩
    obtain ⟨hwa, hwb⟩ := hwidths hd ha hb
    exact ⟨hwa, hwb, operandCheck_add_good _ _ _ s hd ha hb⟩
  · exact arrayCheck_illegal (hill.imp (fun hv => by rw [hv]; decide) .inl)
  · intro hv hd ha hb htrap hsys hu
    refine arrayCheck_privileged ?_ hsys hu
    rintro (hinv | (⟨h0, -⟩ | ⟨h0, -⟩ | ⟨h0, -⟩) | ht)
    · exact hinv hv
    · exact hd h0
    · exact ha h0
    · exact hb h0
    · exact Bool.false_ne_true (htrap.symm.trans ht)

end Sys2Proof.Proofs
end

section
/-!
SUPPORT. The fields in which a boot stage shows: no report, completion or stop of the machine moves them.
-/

namespace Sys2Proof.Proofs

open Sys2Proof.Machine Sys2Proof.Claims

/-- The registers in which the stages of Boot show: the mode, the stage, and what the Developers' microcode is (R138, R329). -/
def bootRegs : List RegName := [.SYS_MODE, .SYS_BOOT, .DEV_UCODE_VER, .DEV_UCODE_CUST, .DEV_UCODE_CTL]

/-- A field has kept its value, whichever of its registers is read. -/
def Keeps (f : Fld) (s t : State) : Prop := ∀ i < 1024, t.fv f i = s.fv f i

section Relation

variable {f g : Fld} {s t u : State}

@[simp] theorem keeps_refl (f : Fld) (s : State) : Keeps f s s := fun _ _ => rfl

theorem keeps_trans (h : Keeps f s t) (k : Keeps f t u) : Keeps f s u := fun i hi => (k i hi).trans (h i hi)

theorem keeps_iff_of_step (k : Keeps f t u) : Keeps f s u ↔ Keeps f s t :=
  ⟨fun h i hi => (k i hi).symm.trans (h i hi), fun h => keeps_trans h k⟩

theorem keeps_of_regs (h : t.regs = s.regs) : Keeps f s t := fun i _ => fv_congr h f i

theorem keeps_foldl {α : Type} (l : List α) {step : State → α → State} (h : ∀ t a, Keeps f t (step t a)) (s : State) :
    Keeps f s (l.foldl step s) :=
  foldl_keeps (p := fun t => Keeps f s t) l step (fun t a ht => keeps_trans ht (h t a)) s (keeps_refl f s)

theorem keeps_forFin {n : Nat} {step : Fin n → State → State} (h : ∀ t i, Keeps f t (step i t)) (s : State) : Keeps f s (s.forFin n step) :=
  keeps_foldl _ (fun t i => h t i) s

theorem keeps_fset (h : Apart g f) {i : Nat} (hi : i < 1024) (v : Nat) : Keeps f s (t.fset g v i) ↔ Keeps f s t :=
  keeps_iff_of_step fun _ hj => fv_fset_apart t v hi hj h

theorem keeps_modCore (c : Fin 8) (x : Core → Core) : Keeps f s (t.modCore c x) ↔ Keeps f s t := Iff.rfl

theorem keeps_modDev (d : Fin 4) (x : Dev → Dev) : Keeps f s (t.modDev d x) ↔ Keeps f s t := Iff.rfl

theorem keeps_modLane (l : Fin 16) (x : Lane → Lane) : Keeps f s (t.modLane l x) ↔ Keeps f s t := Iff.rfl

theorem keeps_modFab (r : Fin 16) (x : Region → Region) : Keeps f s (t.modFab r x) ↔ Keeps f s t := Iff.rfl

theorem keeps_modJob (x : Job → Job) : Keeps f s (t.modJob x) ↔ Keeps f s t := Iff.rfl

theorem keeps_used : Keeps f s t.used ↔ Keeps f s t := Iff.rfl

theorem keeps_emit (o : Out) : Keeps f s (t.emit o) ↔ Keeps f s t := Iff.rfl

theorem keeps_mode (h : Keeps F.SYS_MODE_STATE s t) : t.mode = s.mode := h 0 (by decide)

end Relation

section Kept

variable {f : Fld} (hf : f.reg ∈ bootRegs) {s t : State}

include hf

theorem apart_of_boot {g : Fld} (hg : g.reg ∉ bootRegs) : Apart g f := .inl fun h => hg (h ▸ hf)

theorem keeps_other {g : Fld} (hg : g.reg ∉ bootRegs) {i : Nat} (hi : i < 1024) (v : Nat) : Keeps f s (t.fset g v i) ↔ Keeps f s t :=
  keeps_fset (apart_of_boot hf hg) hi v

theorem keeps_finc {g : Fld} (hg : g.reg ∉ bootRegs) {i : Nat} (hi : i < 1024) (n : Nat) : Keeps f s (t.finc g i n) ↔ Keeps f s t :=
  keeps_other hf hg hi _

theorem unposted_of_boot : Unposted f :=
  ⟨apart_of_boot hf (by decide), apart_of_boot hf (by decide), apart_of_boot hf (by decide), apart_of_boot hf (by decide),
    apart_of_boot hf (by decide)⟩

/-! ## The Contact Sheet -/

theorem keeps_csSuppressed (on : Bool) : Keeps f s (s.csSuppressed on) := by
  unfold State.csSuppressed
  split
  · exact (keeps_finc hf (by decide) (by decide) _).mpr (keeps_refl f s)
  · exact keeps_refl f s

theorem keeps_csFrozen (on : Bool) (r : CsRecord) : Keeps f s (s.csFrozen on r) := by
  unfold State.csFrozen
  split
  · exact keeps_trans (t := (s.fset F.CS_STATUS_COMMIT 1).fset F.CS_CTL_TRIG 0)
      ((keeps_other hf (by decide) (by decide) _).mpr ((keeps_other hf (by decide) (by decide) _).mpr (keeps_refl f s))) (keeps_of_regs rfl)
  · exact keeps_refl f s

theorem keeps_csEnqueue (r : CsRecord) : Keeps f s (s.csEnqueue r) := by
  have hdrop : Keeps f s (s.finc F.CS_STATUS_DROPPED) := (keeps_finc hf (by decide) (by decide) _).mpr (keeps_refl f s)
  unfold State.csEnqueue
  dsimp only
  split
  · exact keeps_of_regs rfl
  · split
    · exact keeps_trans hdrop (keeps_of_regs rfl)
    · exact hdrop

theorem keeps_csMerged (ty source : Nat) (r : CsRecord) : Keeps f s (s.csMerged ty source r) := by
  unfold State.csMerged
  split
  · exact keeps_of_regs rfl
  · exact keeps_csEnqueue hf (s := { s with cs := { s.cs with merging := s.cs.merging ++ [(ty, source, 0)] } }) r

theorem keeps_csReport (ty source : Nat) (data : List Nat) (trig : Bool) : Keeps f s (t.csReport ty source data trig) ↔ Keeps f s t :=
  keeps_iff_of_step (keeps_trans (keeps_trans (keeps_csSuppressed hf (s := t.used) _) (keeps_csFrozen hf _ _)) (keeps_csMerged hf _ _ _))

theorem keeps_csMasked (ty source : Nat) (data : List Nat) (b : Nat) : Keeps f s (t.csMasked ty source data b) ↔ Keeps f s t :=
  keeps_csReport hf _ _ _ _

/-! ## Events and completions -/

theorem keeps_wPost (w : WRing) (e : Entry) : Keeps f s (s.wPost w e) := fun _ hi => fv_wPost w e hi (unposted_of_boot hf)

theorem keeps_eventLost (k : Fin 8) (lost : Bool) : Keeps f s (s.eventLost k lost) := by
  unfold State.eventLost
  split
  · exact (keeps_finc hf (by decide) (fn_lt k) _).mpr (keeps_refl f s)
  · exact keeps_refl f s

theorem keeps_eventTo (k : Fin 8) (code : Nat) (result : DWord) : Keeps f s (s.eventTo k code result) := by
  unfold State.eventTo
  dsimp only
  split
  · exact keeps_wPost hf (s := s.modFn k _) _ _
  · exact keeps_eventLost hf (s := (s.modFn k _).modFn k _) k _

theorem keeps_eventSession (k g : Fin 8) (x : Session) (code : Nat) (result : DWord) : Keeps f s (s.eventSession k g x code result) := by
  unfold State.eventSession
  dsimp only
  split
  · exact keeps_of_regs (by simp)
  · exact keeps_eventLost hf (s := s.setSession k _) g _

theorem keeps_eventSessions (bit code : Nat) (result : DWord) (sel : Fin 8 → Bool) : Keeps f s (s.eventSessions bit code result sel) := by
  refine keeps_forFin (fun t k => ?_) s
  split
  · exact keeps_refl f t
  · split
    · exact keeps_refl f t
    · split
      · exact keeps_eventSession hf _ _ _ _ _
      · exact keeps_refl f t

theorem keeps_raiseTo (bit code result : Nat) (sel : Fin 8 → Bool) : Keeps f s (s.raiseTo bit code result sel) := by
  refine keeps_trans (keeps_forFin (fun t k => ?_) s) (keeps_eventSessions hf _ _ _ _)
  split
  · exact keeps_eventTo hf _ _ _
  · exact keeps_refl f t

theorem keeps_raise (e : Ev) (result : Nat) : Keeps f s (t.raise e result) ↔ Keeps f s t := keeps_iff_of_step (keeps_raiseTo hf _ _ _ _)

theorem keeps_raiseJob (e : Ev) (result : Nat) : Keeps f s (t.raiseJob e result) ↔ Keeps f s t := by
  refine keeps_iff_of_step ?_
  unfold State.raiseJob
  split
  · exact keeps_refl f t
  · exact keeps_raiseTo hf _ _ _ _

theorem keeps_alert (cause kind detail : Nat) : Keeps f s (t.alert cause kind detail) ↔ Keeps f s t := by
  rw [State.alert, keeps_raise hf, keeps_csMasked hf]

theorem keeps_complete (c : CmdRef) (st result : Nat) (data : List Byte) : Keeps f s (t.complete c st result data) ↔ Keeps f s t :=
  keeps_iff_of_step fun _ hi => fv_complete c st result data hi (unposted_of_boot hf)

theorem keeps_completeOpen (c : CmdRef) (st : Nat) : Keeps f s (t.completeOpen c st) ↔ Keeps f s t := keeps_complete hf (t := t.used) c st _ _

/-! ## Stopping (R310) -/

theorem keeps_abandon (d : Fin 4) : Keeps f s (s.abandon d) := by
  rw [abandon_eq]
  obtain h | ⟨m, -, h⟩ := gangDue_cases (s.modDev d abandoned) <;> rw [h]
  · exact keeps_of_regs rfl
  · exact (keeps_other hf (by decide) (by decide) _).mpr (keeps_of_regs rfl)

theorem keeps_stopDevelopers : Keeps f s s.stopDevelopers :=
  keeps_forFin (step := fun d t => (t.abandon d).modCore (devCore d) fun k => { k with run := .stopped })
    (fun _ d => (keeps_modCore _ _).mpr (keeps_abandon hf d)) s

theorem keeps_haltCore (c : Fin 8) : Keeps f s (s.haltCore c) := by
  unfold State.haltCore
  dsimp only
  split
  · exact keeps_abandon hf (s := s.modCore c _) _
  · exact keeps_of_regs rfl

theorem keeps_applyHalts : Keeps f s s.applyHalts := by
  unfold State.applyHalts
  refine keeps_trans (keeps_forFin (fun t d => ?_) s) (keeps_of_regs rfl)
  split
  · exact keeps_haltCore hf _
  · exact keeps_refl f t

theorem keeps_dropBands : Keeps f s s.dropBands := by
  unfold State.dropBands
  refine keeps_forFin (fun t p => ?_) s
  have hp : p.val < 1024 := by omega
  exact (keeps_other hf (by decide) hp _).mpr ((keeps_other hf (by decide) hp _).mpr (keeps_of_regs rfl))

theorem keeps_closeRun (stale : Bool) : Keeps f s (s.closeRun stale) := by
  unfold State.closeRun
  split
  · exact keeps_refl f s
  · rw [keeps_modJob, State.reportRun, keeps_raiseJob hf, keeps_csMasked hf]
    exact keeps_refl f s

omit hf in
theorem keeps_driveHoldReq (v : Bool) : Keeps f s (s.driveHoldReq v) := by
  unfold State.driveHoldReq State.doutChanges
  refine keeps_trans (t := { s with sht := { s.sht with holdReqDriven := v } }) (keeps_of_regs rfl) (keeps_forFin (fun t o => ?_) _)
  split
  · exact keeps_refl f t
  · exact (keeps_emit _).mpr (keeps_refl f t)

theorem keeps_abortWaiting (fn : Fin 8) : Keeps f s (s.abortWaiting fn) := by
  unfold State.abortWaiting
  extract_lets holds resumes mine loads pend _ _ cleared flags
  have hflags : Keeps f s flags :=
    (keeps_other hf (by decide) (by decide) _).mpr ((keeps_other hf (by decide) (by decide) _).mpr
      ((keeps_other hf (by decide) (by decide) _).mpr (keeps_of_regs rfl)))
  exact keeps_trans hflags (keeps_trans (keeps_foldl _ (fun t c => (keeps_complete hf c _ _ _).mpr (keeps_refl f t)) _)
    (keeps_foldl _ (fun t c => (keeps_completeOpen hf c _).mpr (keeps_refl f t)) _))

omit hf in
theorem keeps_releaseReel (h : BitVec 32) : Keeps f s (s.releaseReel h) := by
  unfold State.releaseReel
  split
  · split <;> exact keeps_of_regs rfl
  · exact keeps_refl f s

theorem keeps_endJob : Keeps f s s.endJob := by
  unfold State.endJob
  split
  · exact keeps_refl f s
  next j _ =>
    extract_lets runs waited posted aborts driven _ swath lanes devs reel staged _
    have hwaited : Keeps f s waited := keeps_trans (keeps_trans (keeps_closeRun hf _) (keeps_closeRun hf _)) (keeps_abortWaiting hf _)
    have hposted : Keeps f waited posted := by
      simp only [posted]
      split
      · exact keeps_refl f _
      · exact (keeps_completeOpen hf _ _).mpr (keeps_refl f _)
    have haborts : Keeps f posted aborts := keeps_foldl _ (fun t c => (keeps_complete hf c _ _ _).mpr (keeps_refl f t)) _
    have hdriven : Keeps f aborts driven := keeps_driveHoldReq false
    have hswath : Keeps f driven swath := keeps_of_regs (by simp only [swath])
    have hdevs : Keeps f swath devs :=
      keeps_trans (keeps_forFin (fun t l => (keeps_modLane _ _).mpr (keeps_refl f t)) swath)
        (keeps_forFin (fun t d => (keeps_modDev _ _).mpr (keeps_refl f t)) lanes)
    have hreel : Keeps f devs reel := keeps_trans (keeps_dropBands hf) (keeps_releaseReel _)
    have hstaged : Keeps f reel staged := by
      simp only [staged]
      split
      · exact keeps_of_regs (by simp only [State.dropStaged, State.setNextLoad, State.modFn])
      · exact keeps_refl f _
    clear_value staged
    exact keeps_trans (keeps_trans hwaited hposted) (keeps_trans (keeps_trans haborts (keeps_trans hdriven hswath))
      (keeps_trans (keeps_trans hdevs hreel) (keeps_trans hstaged
        (keeps_trans (t := { staged with job := none, store := { staged.store with undelivered := [] } }) (keeps_of_regs rfl)
          (keeps_applyHalts hf)))))

theorem keeps_abortHeld (sel : Fin 8 → Bool) : Keeps f s (s.abortHeld sel) :=
  keeps_trans (t := { s with hst := { s.hst with pending := s.hst.pending.filter (fun p => !(p.held && sel p.fn)) } }) (keeps_of_regs rfl)
    (keeps_foldl _ (fun t _ => (keeps_completeOpen hf _ _).mpr (keeps_refl f t)) _)

theorem keeps_abortUnlock : Keeps f s s.abortUnlock := by
  unfold State.abortUnlock
  split
  · exact keeps_trans (t := (s.fset F.DBG_UNLOCK_CTL_STATUS 6).fset F.DBG_UNLOCK_CTL_GO 0)
      ((keeps_other hf (by decide) (by decide) _).mpr ((keeps_other hf (by decide) (by decide) _).mpr (keeps_refl f s))) (keeps_of_regs rfl)
  · exact keeps_refl f s

theorem keeps_releaseLoupe : Keeps f s s.releaseLoupe := by
  have hclaim : Keeps f s (s.fset F.LP_CTL_CLAIM 0) := (keeps_other hf (by decide) (by decide) _).mpr (keeps_refl f s)
  unfold State.releaseLoupe
  dsimp only
  split
  · exact keeps_trans ((keeps_other hf (by decide) (by decide) _).mpr hclaim) (keeps_of_regs rfl)
  · exact hclaim

omit hf in
theorem keeps_releaseLoaded (sel : Fin 8 → Bool) : Keeps f s (s.releaseLoaded sel) := keeps_of_regs rfl

omit hf in
theorem keeps_sendBlocks (l : Fin 16) (o : Out) : Keeps f s (s.sendBlocks l o) := keeps_of_regs rfl

omit hf in
theorem keeps_deenergised (o : Fin 16) : Keeps f s
    (({ s with sht := { s.sht with dout := s.sht.dout.set o { s.sht.dout[o] with pulse := false, heldOff := true, calib := none } } }).emit
      (.dout o false)) := keeps_of_regs rfl

omit hf in
theorem keeps_cancels (l : Fin 16) : Keeps f s
    (((s.lanes[l]).sentLines.foldl (fun s n => (s.lanesUp l).foldl (fun s m => s.sendBlocks (Fin.ofNat 16 m) (.cancel m n)) s) s).modLane l
      fun x => { x with sentLines := [] }) :=
  (keeps_modLane _ _).mpr (keeps_foldl _ (fun t _ => keeps_foldl _ (fun _ _ => keeps_sendBlocks _ _) t) s)

end Kept

/-! ## Safe -/

/-- Entry to Safe from any other active mode: the mode, its predecessor and the cause change, and of the rest of what Boot shows TRANS alone. -/
theorem safeEntry_enters {s : State} (cause : Nat) (hactive : s.active = true) (hmode : s.mode ≠ 9) :
    ∃ t n, (∀ f : Fld, f.reg ∈ bootRegs → Apart F.SYS_MODE_TRANS f → Keeps f s t) ∧ s.safeEntry cause =
      ((((t.fset F.SYS_MODE_SAFE_CAUSE cause).fset F.SYS_MODE_PREV t.mode).fset F.SYS_MODE_STATE 9).csReport 0x01 0xFF [t.mode, cause] true).raise
        .modeChange n := by
  unfold State.safeEntry
  rw [if_neg (by simp [hactive]), if_neg hmode]
  extract_lets number unarmed _ unwired lanes fab outs devs job held loaded drained locked prev mode
  refine ⟨locked, _, fun f hf htrans => ?_, rfl⟩
  have hunwired : Keeps f s unwired := keeps_of_regs (by simp only [unwired, unarmed, State.modJob_regs])
  have hlanes : Keeps f unwired lanes := keeps_forFin (fun t l => keeps_cancels l) unwired
  have hfab : Keeps f lanes fab := keeps_forFin (fun t r => (keeps_modFab _ _).mpr (keeps_refl f t)) lanes
  have houts : Keeps f fab outs := keeps_forFin (fun t o => keeps_deenergised o) fab
  have hdevs : Keeps f outs devs := keeps_trans (keeps_stopDevelopers hf) (keeps_dropBands hf)
  have hjob : Keeps f devs job := keeps_endJob hf
  have hloaded : Keeps f job loaded := keeps_trans (keeps_abortHeld hf _) (keeps_releaseLoaded _)
  have hdrained : Keeps f loaded drained := by
    simp only [drained]
    split
    next d _ =>
      exact keeps_trans (t := (loaded.completeOpen d.cmd stABORTED).fset F.SYS_MODE_TRANS 0)
        ((keeps_fset htrans (by decide) _).mpr ((keeps_completeOpen hf _ _).mpr (keeps_refl f _))) (keeps_of_regs rfl)
    · exact keeps_refl f _
  clear_value drained
  have hlocked : Keeps f drained locked := keeps_trans (keeps_abortUnlock hf) (keeps_releaseLoupe hf)
  exact keeps_trans (keeps_trans (keeps_trans hunwired hlanes) (keeps_trans hfab houts))
    (keeps_trans (keeps_trans hdevs hjob) (keeps_trans (keeps_trans hloaded hdrained) hlocked))

end Sys2Proof.Proofs
end

section
/-!
SUPPORT. The pieces of Boot's stages: the images, the microcode stores and the fabric regions (R132, R193, R325, R328, R334).
-/

namespace Sys2Proof.Proofs

open Sys2Proof.Machine Sys2Proof.Claims

section Frames

variable {f : Fld} {s t : State} {ps : List Part}

/-- A part outside a frame. -/
theorem only_part (h : Only ps s t) {p : Part} (hp : p ∉ ps) : p.same s t := h.2.2.2.2 p hp

theorem only_pwr (h : .pwr ∈ ps) (x : Pwr) : Only ps s { s with pwr := x } :=
  ⟨rfl, rfl, rfl, rfl, fun p hp => by cases p <;> simp_all [Part.same]⟩

theorem only_mems (h : .mems ∈ ps) (x : Mems) : Only ps s { s with mems := x } :=
  ⟨rfl, rfl, rfl, rfl, fun p hp => by cases p <;> simp_all [Part.same]⟩

theorem only_modFab (h : .fab ∈ ps) (r : Fin 16) (x : Region → Region) : Only ps s (t.modFab r x) ↔ Only ps s t :=
  only_iff_of_step ⟨rfl, rfl, rfl, rfl, fun p hp => by cases p <;> simp_all [Part.same, State.modFab]⟩

theorem only_foldl {α : Type} (l : List α) {step : State → α → State} (h : ∀ t a, Only ps t (step t a)) (s : State) :
    Only ps s (l.foldl step s) :=
  foldl_keeps (p := fun t => Only ps s t) l step (fun t a ht => only_trans ht (h t a)) s (only_refl ps s)

theorem only_forFin {n : Nat} {step : Fin n → State → State} (h : ∀ t i, Only ps t (step i t)) (s : State) : Only ps s (s.forFin n step) :=
  only_foldl _ (fun t i => h t i) s

theorem only_alert (cause kind detail : Nat) : Only reports s (s.alert cause kind detail) :=
  ⟨s.alert_pending .., s.alert_fuses .., s.alert_devTime .., s.alert_rootTicks .., fun p hp => by cases p <;> simp_all [Part.same, reports]⟩

theorem fv_csReport (hf : f.reg ∈ bootRegs) {i : Nat} (hi : i < 1024) (ty source : Nat) (data : List Nat) (trig : Bool) :
    (s.csReport ty source data trig).fv f i = s.fv f i := (keeps_csReport hf ty source data trig).mpr (keeps_refl f s) i hi

theorem fv_raise (hf : f.reg ∈ bootRegs) {i : Nat} (hi : i < 1024) (e : Ev) (n : Nat) : (s.raise e n).fv f i = s.fv f i :=
  (keeps_raise hf e n).mpr (keeps_refl f s) i hi

end Frames

/-! ## Images (R325, R328) -/

section Images

variable {f : Fld} {s : State}

theorem only_activateImages (s : State) (kinds : List Nat) : Only [.hst] s (s.activateImages kinds) := by
  unfold State.activateImages
  refine only_foldl _ (fun t key => ?_) s
  split
  · exact only_refl _ t
  · exact only_hst (by decide) _

theorem only_reportFallback (s : State) (fallback : BitVec 8) (kinds : List Nat) : Only reports s (s.reportFallback fallback kinds) := by
  unfold State.reportFallback
  refine only_foldl _ (fun t k => ?_) s
  have hold := only_foldl (t.oldImages k) (fun t svn => only_alert (s := t) 9 k svn) t
  have hset := (only_fset (ps := reports) (by decide) F.SYS_BOOT_FALLBACK
    (natSetBit (((t.oldImages k).foldl (fun t svn => t.alert 9 k svn) t).fv F.SYS_BOOT_FALLBACK) k ((s.fellBack fallback kinds).contains k)) 0).mpr hold
  dsimp only
  split
  · exact only_trans hset (only_alert _ _ _)
  · exact hset

theorem keeps_activateImages (kinds : List Nat) : Keeps f s (s.activateImages kinds) :=
  keeps_of_regs (only_part (only_activateImages s kinds) (p := .regs) (by decide))

theorem keeps_reportFallback (hf : f.reg ∈ bootRegs) (hfall : Apart F.SYS_BOOT_FALLBACK f) (fallback : BitVec 8) (kinds : List Nat) :
    Keeps f s (s.reportFallback fallback kinds) := by
  unfold State.reportFallback
  refine keeps_foldl _ (fun t k => ?_) s
  have hold : Keeps f t ((t.oldImages k).foldl (fun t svn => t.alert 9 k svn) t) :=
    keeps_foldl _ (fun t svn => (keeps_alert hf 9 k svn).mpr (keeps_refl f t)) t
  have hset := (keeps_fset hfall (by decide : 0 < 1024)
    (natSetBit (((t.oldImages k).foldl (fun t svn => t.alert 9 k svn) t).fv F.SYS_BOOT_FALLBACK) k ((s.fellBack fallback kinds).contains k))).mpr hold
  dsimp only
  split
  · exact (keeps_alert hf _ _ _).mpr hset
  · exact hset

end Images

/-! ## Fabric regions (R193, R194) -/

section Fabric

variable {f : Fld} {s : State}

theorem only_drivePins (old : State) (r : Fin 16) : Only [.fab, .out] s (s.drivePins old r) := by
  unfold State.drivePins
  dsimp only
  split
  · exact (only_modFab (by decide) _ _).mpr (only_refl _ s)
  · exact (only_emit (by decide) _).mpr ((only_modFab (by decide) _ _).mpr (only_refl _ s))

theorem exchange_keeps {p : State → Prop} (r : Fin 16) (fiPulse : Option (BitVec 16)) (hfab : ∀ t x, p t → p (t.modFab r x))
    (hused : ∀ t, p t → p t.used) (hset : ∀ t g v, g.reg = .FAB_REGION_CTL → p t → p (t.fset g v r))
    (hpins : ∀ t old, p t → p (t.drivePins old r)) (h : p s) : p (s.exchange r fiPulse) := by
  unfold State.exchange
  split
  · exact h
  · extract_lets old pulse entered edged driven
    have hedged : p edged := foldl_keeps _ _ (fun t e ht => by
      dsimp only
      split
      · split
        · exact ht
        · exact hfab _ _ (hused _ ht)
      · exact ht) entered (hfab _ _ h)
    have hdriven : p driven := hpins _ _ (hset _ F.FAB_REGION_CTL_SWAP _ rfl (hset _ F.FAB_REGION_CTL_SHADOW_OK _ rfl hedged))
    split
    · exact hset _ F.FAB_REGION_CTL_FI_LATE _ rfl hdriven
    · exact hdriven

theorem only_exchange (r : Fin 16) (fiPulse : Option (BitVec 16)) : Only [.fab, .regs, .free, .out] s (s.exchange r fiPulse) :=
  exchange_keeps r fiPulse (fun _ _ => (only_modFab (by decide) _ _).mpr) (fun _ => (only_used (by decide)).mpr)
    (fun _ _ _ _ => (only_fset (by decide) _ _ _).mpr) (fun t old h => only_trans h (only_mono (only_drivePins old r) (by decide)))
    (only_refl _ s)

theorem keeps_drivePins (old : State) (r : Fin 16) : Keeps f s (s.drivePins old r) := by
  unfold State.drivePins
  dsimp only
  split
  · exact (keeps_modFab _ _).mpr (keeps_refl f s)
  · exact (keeps_emit _).mpr ((keeps_modFab _ _).mpr (keeps_refl f s))

theorem keeps_exchange (hf : f.reg ∈ bootRegs) (r : Fin 16) (fiPulse : Option (BitVec 16)) : Keeps f s (s.exchange r fiPulse) :=
  exchange_keeps r fiPulse (fun _ _ => (keeps_modFab _ _).mpr) (fun _ => (keeps_used).mpr)
    (fun _ g _ hg => (keeps_other hf (by rw [hg]; decide) (by omega) _).mpr) (fun t old h => keeps_trans h (keeps_drivePins old r))
    (keeps_refl f s)

/-- What loading the initial images leaves: the regions, and their configuration registers; and it notes which failed. -/
theorem only_loadFabric (failed : BitVec 16) :
    Only (.fab :: reports) { s with pwr := { s.pwr with fabFailed := failed } } (s.loadFabric failed) := by
  unfold State.loadFabric
  refine only_forFin (fun t r => ?_) _
  split
  · exact only_mono (only_alert _ _ _) (by decide)
  · split
    next im _ =>
      split
      · exact only_refl _ t
      · have hshadow : Only (.fab :: reports) t (t.setShadow r im) :=
          (only_fset (by decide) _ _ _).mpr ((only_modFab (by decide) _ _).mpr (only_refl _ t))
        exact only_trans hshadow (only_mono (only_exchange r none) (by decide))
    · exact only_refl _ t

theorem keeps_loadFabric (hf : f.reg ∈ bootRegs) (failed : BitVec 16) : Keeps f s (s.loadFabric failed) := by
  unfold State.loadFabric
  refine keeps_trans (t := { s with pwr := { s.pwr with fabFailed := failed } }) (keeps_of_regs rfl) (keeps_forFin (fun t r => ?_) _)
  split
  · exact (keeps_alert hf _ _ _).mpr (keeps_refl f t)
  · split
    next im _ =>
      split
      · exact keeps_refl f t
      · have hshadow : Keeps f t (t.setShadow r im) :=
          (keeps_other hf (by decide) (by omega) _).mpr ((keeps_modFab _ _).mpr (keeps_refl f t))
        exact keeps_trans hshadow (keeps_exchange hf r none)
    · exact keeps_refl f t

end Fabric

/-! ## Microcode stores (R130, R132) -/

/-- What an entry of a microcode store holds. -/
def stored (m : SMap (Option DWord)) (k : Nat) : Option DWord := smGet (fun _ => none) m k

section Stores

variable {m : SMap (Option DWord)} {l : List Nat} {k : Nat} {x : Dev}

/-- Entries written as 0 (R132). -/
def zeroed (m : SMap (Option DWord)) (l : List Nat) : SMap (Option DWord) := l.foldl (fun m k => smSet (fun _ => none) m k (some 0)) m

theorem stored_zeroed (hk : k ∈ l) : stored (zeroed m l) k = some 0 := by
  refine foldl_reaches (f := fun m k => smSet (fun _ => none) m k (some 0)) (p := fun _ => True) (q := fun m => stored m k = some 0) hk
    (fun _ _ _ => trivial) (fun m j hm => ?_)
    (fun m _ => smGet_set_same (fun _ => none) m k (some 0)) trivial
  by_cases hj : j = k
  · subst hj
    exact smGet_set_same _ _ _ _
  · exact (smGet_set_ne _ _ _ hj).trans hm

theorem stored_zeroed_other (hk : k ∉ l) : stored (zeroed m l) k = stored m k :=
  List.foldlRecOn l _ (motive := fun m' => stored m' k = stored m k) rfl
    fun m' hm j hj => (smGet_set_ne (fun _ => none) m' (some 0) (fun h : j = k => hk (h ▸ hj))).trans hm

theorem cam_loadImage_none_patch (x : Dev) : (x.loadImage none false).cam = zeroed x.cam (List.range 48) := by
  simp only [Dev.loadImage, zeroed, Bool.false_eq_true, if_false]

theorem cam_loadImage_none_cust (x : Dev) : (x.loadImage none true).cam = zeroed x.cam ((List.range 16).map (48 + ·)) := by
  simp only [Dev.loadImage, zeroed, if_true]

theorem decodeRam_loadImage_none_cust (x : Dev) :
    (x.loadImage none true).decodeRam = zeroed x.decodeRam ((List.range 64).map (192 + ·)) := by
  simp only [Dev.loadImage, zeroed, if_true]

/-- The overlay is written by a word of its own space alone. -/
theorem storeWord_cam (x : Dev) (space idx : Nat) (v : DWord) :
    (x.storeWord space idx v).2.cam = x.cam ∨ 3 ≤ space ∧ (x.storeWord space idx v).2.cam = smSet (fun _ => none) x.cam idx (some v) := by
  unfold Dev.storeWord
  split
  · split <;> exact .inl rfl
  · split
    · exact .inl rfl
    · split <;> exact .inl rfl
  · split <;> exact .inl rfl
  next h0 h1 h2 =>
    rw [imp_false] at h0 h1 h2
    split
    · exact .inr ⟨by omega, rfl⟩
    · exact .inl rfl

/-- A record of a customer's image meets only the customer's part of the overlay (R130). -/
theorem storeRec_cam {r : MicroRec} (hr : recInPart r true = true) (hk : k < 48) : stored (x.storeRec r).cam k = stored x.cam k := by
  unfold Dev.storeRec
  dsimp only
  have hfirst := storeWord_cam { x with half := none } r.space.val r.index (r.word.setWidth 64)
  generalize (({ x with half := none } : Dev).storeWord r.space.val r.index (r.word.setWidth 64)).2 = lo at hfirst
  have hlo : stored lo.cam k = stored x.cam k := by
    obtain h | ⟨hspace, h⟩ := hfirst <;> rw [h]
    have h3 : r.space = 3 := by omega
    have hidx : 48 ≤ r.index := by
      rw [recInPart, h3] at hr
      simp at hr
      omega
    exact smGet_set_ne _ _ _ (by omega)
  split
  · obtain h | ⟨hspace, -⟩ := storeWord_cam lo 1 r.index (r.word.extractLsb' 64 64)
    · rw [h, hlo]
    · omega
  · exact hlo

theorem loadImage_cust_cam {image : Option MicroImage} (himage : ∀ i ∈ image, ∀ r ∈ i.records, recInPart r true = true) (hk : k < 48) :
    stored (x.loadImage image true).cam k = stored x.cam k := by
  cases image with
  | none =>
    rw [cam_loadImage_none_cust]
    exact stored_zeroed_other (by simp; omega)
  | some i =>
    exact List.foldlRecOn i.records Dev.storeRec (motive := fun y => stored y.cam k = stored x.cam k) rfl
      fun y hy r hr => (storeRec_cam (himage i rfl r hr) hk).trans hy

/-- Every record of a chosen image lies in its part. -/
theorem chosenImage_inPart {copies : List MicroImage} {cust : Bool} :
    ∀ i ∈ chosenImage copies cust, ∀ r ∈ i.records, recInPart r cust = true := by
  intro i hi r hr
  have hchosen := List.find?_some (Option.mem_def.mp hi)
  simp only [Bool.and_eq_true, List.all_eq_true] at hchosen
  exact hchosen.2 r hr

/-- With no good copy of the patch its part of the overlay is empty, whatever the customer's image holds. -/
theorem loadImages_cam (cu : List MicroImage) (hk : k < 48) :
    stored ((x.loadImage none false).loadImage (chosenImage cu true) true).cam k = some 0 := by
  rw [loadImage_cust_cam chosenImage_inPart hk, cam_loadImage_none_patch]
  exact stored_zeroed (List.mem_range.mpr hk)

theorem loadImages_decode (hk : k < 64) : stored (x.loadImage none true).decodeRam (192 + k) = some 0 := by
  rw [decodeRam_loadImage_none_cust]
  exact stored_zeroed (List.mem_map.mpr ⟨k, List.mem_range.mpr hk, rfl⟩)

end Stores

/-! ## The lock (R132) -/

/-- The version that a Developer shows of an image, and the hash: 0 for none. -/
def imageVersion (i : Option MicroImage) : Nat := (i.map fun x => x.version.toNat).getD 0
def imageHash (i : Option MicroImage) : Nat := (i.map fun x => x.hash.toNat).getD 0

theorem imageVersion_lt (i : Option MicroImage) : imageVersion i < 2 ^ 16 := by
  cases i with
  | none => decide
  | some x => exact x.version.isLt

theorem imageHash_lt (i : Option MicroImage) : imageHash i < 2 ^ 32 := by
  cases i with
  | none => decide
  | some x => exact x.hash.isLt

/-- A kind without a good copy raises an alert. -/
def alertIfNone (i : Option MicroImage) (kind : Nat) (d : Fin 4) (s : State) : State := if i.isNone then s.alert 1 kind d else s

/-- The versions and the hashes that a Developer shows. -/
def showImages (p q : Option MicroImage) (d : Fin 4) (s : State) : State :=
  let s := (s.fset F.DEV_UCODE_VER_PATCH_VER (imageVersion p) d).fset F.DEV_UCODE_VER_PATCH_HASH (imageHash p) d
  (s.fset F.DEV_UCODE_CUST_CUST_VER (imageVersion q) d).fset F.DEV_UCODE_CUST_CUST_HASH (imageHash q) d

/-- One Developer's part of the load and the lock. -/
def lockOne (p q : Option MicroImage) (d : Fin 4) (s : State) : State :=
  ((alertIfNone q 3 d (alertIfNone p 2 d (showImages p q d s))).modDev d fun x => (x.loadImage p false).loadImage q true).fset
    F.DEV_UCODE_CTL_LOCK 1 d

theorem lockMicrocode_eq (s : State) (patch cust : List MicroImage) :
    s.lockMicrocode patch cust = s.forFin 4 (lockOne (chosenImage patch false) (chosenImage cust true)) := rfl

section Lock

variable {f : Fld} (p q : Option MicroImage) (d : Fin 4) (s : State)

theorem only_alertIfNone (i : Option MicroImage) (kind : Nat) : Only reports s (alertIfNone i kind d s) := by
  unfold alertIfNone
  split
  · exact only_alert _ _ _
  · exact only_refl _ s

theorem keeps_alertIfNone (hf : f.reg ∈ bootRegs) (i : Option MicroImage) (kind : Nat) : Keeps f s (alertIfNone i kind d s) := by
  unfold alertIfNone
  split
  · exact (keeps_alert hf _ _ _).mpr (keeps_refl f s)
  · exact keeps_refl f s

theorem only_showImages : Only reports s (showImages p q d s) := by
  have hregs : Part.regs ∈ reports := by decide
  simp [showImages, hregs]

theorem only_lockOne : Only (.devs :: reports) s (lockOne p q d s) := by
  have hreports : Only reports s (alertIfNone q 3 d (alertIfNone p 2 d (showImages p q d s))) :=
    only_trans (only_trans (only_showImages p q d s) (only_alertIfNone d _ p 2)) (only_alertIfNone d _ q 3)
  exact (only_fset (by decide) _ _ _).mpr ((only_modDev (by decide) _ _).mpr (only_mono hreports (by decide)))

theorem lockOne_dev (e : Fin 4) : (lockOne p q d s).devs[e] =
    if d = e then ((s.devs[e]).loadImage p false).loadImage q true else s.devs[e] := by
  have hdevs : (alertIfNone q 3 d (alertIfNone p 2 d (showImages p q d s))).devs = s.devs :=
    only_part (only_trans (only_trans (only_showImages p q d s) (only_alertIfNone d _ p 2)) (only_alertIfNone d _ q 3)) (p := .devs) (by decide)
  rw [lockOne, State.fset_devs, modDev_dev, hdevs]

/-- After the alerts a Developer shows LOCK besides. -/
theorem fv_lockOne (hf : f.reg ∈ bootRegs) (hlock : Apart F.DEV_UCODE_CTL_LOCK f) {i : Nat} (hi : i < 1024) :
    (lockOne p q d s).fv f i = (showImages p q d s).fv f i :=
  (keeps_fset hlock (by omega) _).mpr ((keeps_modDev _ _).mpr (keeps_trans (keeps_alertIfNone d (showImages p q d s) hf p 2)
    (keeps_alertIfNone d _ hf q 3))) i hi

/-- A field of one register of an array through the update of another's. -/
theorem fv_fset_elsewhere {g : Fld} (v : Nat) {i j : Nat} (hi : i < 1024) (hj : j < 1024) (hij : i ≠ j) : (s.fset g v i).fv f j = s.fv f j := by
  by_cases hr : g.reg = f.reg
  · exact fv_fset_instance s v hr hij
  · exact fv_fset_other s v hi hj hr

theorem fv_lockOne_other (hf : f.reg ∈ bootRegs) {e : Fin 4} (hde : d ≠ e) : (lockOne p q d s).fv f e = s.fv f e := by
  have hd : d.val < 1024 := by omega
  have he : e.val < 1024 := by omega
  have hne : d.val ≠ e.val := fun h => hde (Fin.ext h)
  have hkeep := keeps_trans (keeps_alertIfNone d (showImages p q d s) hf p 2) (keeps_alertIfNone d _ hf q 3)
  rw [lockOne, fv_fset_elsewhere _ _ hd he hne]
  refine (hkeep e he).trans ?_
  simp only [showImages, fv_fset_elsewhere _ _ hd he hne]

/-- What the load and the lock leave of a Developer. -/
def Locked (p q : Option MicroImage) (e : Fin 4) (t : State) : Prop :=
  t.on F.DEV_UCODE_CTL_LOCK e = true ∧
  (t.fv F.DEV_UCODE_VER_PATCH_VER e = imageVersion p ∧ t.fv F.DEV_UCODE_VER_PATCH_HASH e = imageHash p ∧
    t.fv F.DEV_UCODE_CUST_CUST_VER e = imageVersion q ∧ t.fv F.DEV_UCODE_CUST_CUST_HASH e = imageHash q) ∧
  (p = none → ∀ k, k < 48 → stored (t.devs[e]).cam k = some 0) ∧
  (q = none → ∀ k, k < 64 → stored (t.devs[e]).decodeRam (192 + k) = some 0)

theorem lockOne_locks (patch cust : List MicroImage) :
    Locked (chosenImage patch false) (chosenImage cust true) d (lockOne (chosenImage patch false) (chosenImage cust true) d s) := by
  have hd : d.val < 1024 := by omega
  generalize hp : chosenImage patch false = p
  refine ⟨?_, ⟨?_, ?_, ?_, ?_⟩, fun hnone k hk => ?_, fun hnone k hk => ?_⟩
  · rw [State.on, lockOne, fv_fset_same _ _ _ _ (by decide)]
    decide
  · rw [fv_lockOne _ _ _ _ (by decide) (by decide) hd, showImages, fv_fset_apart _ _ hd hd (by decide), fv_fset_apart _ _ hd hd (by decide),
      fv_fset_apart _ _ hd hd (by decide), fv_fset_same _ _ _ _ (by decide)]
    exact Nat.mod_eq_of_lt (imageVersion_lt _)
  · rw [fv_lockOne _ _ _ _ (by decide) (by decide) hd, showImages, fv_fset_apart _ _ hd hd (by decide), fv_fset_apart _ _ hd hd (by decide),
      fv_fset_same _ _ _ _ (by decide)]
    exact Nat.mod_eq_of_lt (imageHash_lt _)
  · rw [fv_lockOne _ _ _ _ (by decide) (by decide) hd, showImages, fv_fset_apart _ _ hd hd (by decide), fv_fset_same _ _ _ _ (by decide)]
    exact Nat.mod_eq_of_lt (imageVersion_lt _)
  · rw [fv_lockOne _ _ _ _ (by decide) (by decide) hd, showImages, fv_fset_same _ _ _ _ (by decide)]
    exact Nat.mod_eq_of_lt (imageHash_lt _)
  · rw [lockOne_dev, if_pos rfl, hnone]
    exact loadImages_cam cust hk
  · rw [lockOne_dev, if_pos rfl, hnone]
    exact loadImages_decode hk

variable {s} in
theorem lockOne_keeps_locked {e : Fin 4} (hde : d ≠ e) (h : Locked p q e s) : Locked p q e (lockOne p q d s) := by
  have hdev : (lockOne p q d s).devs[e] = s.devs[e] := (lockOne_dev p q d s e).trans (if_neg hde)
  unfold Locked State.on at *
  have hfv (g : Fld) (hg : g.reg ∈ bootRegs) : (lockOne p q d s).fv g e = s.fv g e := fv_lockOne_other p q d s hg hde
  rwa [hdev, hfv F.DEV_UCODE_CTL_LOCK (by decide), hfv F.DEV_UCODE_VER_PATCH_VER (by decide), hfv F.DEV_UCODE_VER_PATCH_HASH (by decide),
    hfv F.DEV_UCODE_CUST_CUST_VER (by decide), hfv F.DEV_UCODE_CUST_CUST_HASH (by decide)]

theorem lockMicrocode_locks (patch cust : List MicroImage) :
    Locked (chosenImage patch false) (chosenImage cust true) d (s.lockMicrocode patch cust) := by
  rw [lockMicrocode_eq]
  refine foldl_reaches (p := fun _ => True) (List.mem_finRange d) (fun _ _ _ => trivial) (fun t e ht => ?_)
    (fun t _ => lockOne_locks d t patch cust) trivial
  by_cases he : e = d
  · subst he
    exact lockOne_locks e t patch cust
  · exact lockOne_keeps_locked _ _ e he ht

theorem only_lockMicrocode (patch cust : List MicroImage) : Only (.devs :: reports) s (s.lockMicrocode patch cust) :=
  only_forFin (fun t d => only_lockOne _ _ d t) s

variable {s} in
/-- The lock shows in the Developers' own registers alone. -/
theorem keeps_lockMicrocode (hf : f.reg ∈ [RegName.SYS_MODE, .SYS_BOOT]) (patch cust : List MicroImage) :
    Keeps f s (s.lockMicrocode patch cust) := by
  have hboot : f.reg ∈ bootRegs := List.mem_append_left [RegName.DEV_UCODE_VER, .DEV_UCODE_CUST, .DEV_UCODE_CTL] hf
  have hother {g : Fld} (hg : g.reg ∉ [RegName.SYS_MODE, .SYS_BOOT]) : Apart g f := .inl fun h => hg (h ▸ hf)
  rw [lockMicrocode_eq]
  refine keeps_forFin (fun t d i hi => ?_) s
  have hd : d.val < 1024 := by omega
  rw [fv_lockOne _ _ d t hboot (hother (by decide)) hi, showImages, fv_fset_apart _ _ hd hi (hother (by decide)),
    fv_fset_apart _ _ hd hi (hother (by decide)), fv_fset_apart _ _ hd hi (hother (by decide)), fv_fset_apart _ _ hd hi (hother (by decide))]

end Lock

end Sys2Proof.Proofs
end

section
/-!
SUPPORT. What Boot initialises, which fuses it blows, and the store that it mounts (R233, R302, R326, R334).
-/

namespace Sys2Proof.Proofs

open Sys2Proof.Machine Sys2Proof.Claims

/-! ## Initialised memories (R302; log 48) -/

/-- A memory with nothing listed holds zero codewords once initialised. -/
theorem cell_initialised (b : Cell) (i : Nat) : (Mem.of b).initialised.cell i = .ok 0 := rfl

/-- What every listed value and every default has, a read has. -/
theorem smGet_of_all {α : Type} {P : α → Prop} {d : Nat → α} {m : SMap α} (hd : ∀ k, P (d k)) (hm : ∀ e ∈ m, P e.2) (k : Nat) :
    P (smGet d m k) := by
  induction m with
  | nil => exact hd k
  | cons e m ih =>
    obtain ⟨j, v⟩ := e
    have hv : P v := hm (j, v) List.mem_cons_self
    unfold smGet
    split
    · exact hv
    · exact ih fun e he => hm e (List.mem_cons_of_mem _ he)

/-- No word of an initialised plane is poison. -/
theorem plane_initialised (g : Grains) (a : Nat) : (g.initialised.plane a).poison = 0 := by
  refine smGet_of_all (P := fun p : GPlane => p.poison = 0) (fun _ => rfl) (fun e he => ?_) a
  obtain ⟨e, -, rfl⟩ := List.mem_map.mp (List.mem_of_mem_filter he)
  rfl

/-- A key that is listed, where one value is listed alone, reads as that value. -/
theorem smGet_of_listed {α : Type} {d : Nat → α} {m : SMap α} {k : Nat} {v : α} (hk : k ∈ m.map (·.1)) (hv : ∀ e ∈ m, e.2 = v) :
    smGet d m k = v := by
  induction m with
  | nil => simp at hk
  | cons e m ih =>
    obtain ⟨j, w⟩ := e
    unfold smGet
    split
    · exact hv (j, w) List.mem_cons_self
    next hj => exact ih (by simpa [Ne.symm hj] using hk) fun e he => hv e (List.mem_cons_of_mem _ he)

/-! ## Fuses (R334) -/

section Fuses

/-- The bits of a word up to `n` are set. -/
theorem le_countP_or_ones (v : BitVec 32) {n : Nat} (hn : n ≤ 32) :
    n ≤ (List.range 32).countP (fun i => (v ||| BitVec.ofNat 32 (2 ^ n - 1)).getLsbD i) := by
  have hlow : (List.range 32).countP (fun i => decide (i < n)) = n := by
    interval_cases n <;> rfl
  calc n = (List.range 32).countP (fun i => decide (i < n)) := hlow.symm
    _ ≤ _ := List.countP_mono_left fun i hi hlt => by
      have h32 : i < 32 := List.mem_range.mp hi
      rw [BitVec.getLsbD_or, BitVec.getLsbD_ofNat, Nat.testBit_two_pow_sub_one, decide_eq_true h32, hlt]
      simp

/-- The SVN that the running images of a kind with FLOOR demand, as far as fuses tell it. -/
def floorTop (s : State) (k : Nat) : Nat :=
  Nat.min 32 ((((s.runningImages k).filter fun v => v.floor).map fun v => v.svn).foldl Nat.max 0)

/-- One kind's fuses are blown. -/
def floorKind (s : State) (f : Fuses) (k : Nat) : Fuses :=
  if f.svnMin k < floorTop s k then
    { f with minSvn := f.minSvn.setIfInBounds k ((f.minSvn.toList.getD k 0) ||| BitVec.ofNat 32 (2 ^ floorTop s k - 1)) }
  else f

theorem floorFuses_eq (s : State) : s.floorFuses = (List.range 5).foldl (floorKind s) s.fuses := rfl

theorem le_foldl_max {l : List Nat} {n : Nat} (hn : n ∈ l) (m : Nat) : n ≤ l.foldl Nat.max m :=
  foldl_reaches (f := Nat.max) (p := fun _ => True) (q := fun m => n ≤ m) hn (fun _ _ _ => trivial) (fun _ _ h => h.trans (Nat.le_max_left _ _))
    (fun m _ => Nat.le_max_right m n) trivial

theorem le_floorTop {s : State} {k : Nat} {v : ImageVerdict} (hv : v ∈ s.runningImages k) (hfloor : v.floor = true) (h32 : v.svn ≤ 32) :
    v.svn ≤ floorTop s k :=
  Nat.le_min.mpr ⟨h32, le_foldl_max (List.mem_map_of_mem (List.mem_filter.mpr ⟨hv, hfloor⟩)) 0⟩

theorem svnMin_floorKind_same {s : State} {k : Nat} (hk : k < 5) (f : Fuses) : floorTop s k ≤ (floorKind s f k).svnMin k := by
  unfold floorKind
  split
  · have hget : ((f.minSvn.setIfInBounds k ((f.minSvn.toList.getD k 0) ||| BitVec.ofNat 32 (2 ^ floorTop s k - 1))).toList.getD k 0) =
        (f.minSvn.toList.getD k 0) ||| BitVec.ofNat 32 (2 ^ floorTop s k - 1) := by
      simp [hk]
    unfold Fuses.svnMin
    rw [hget]
    exact le_countP_or_ones _ (Nat.min_le_left _ _)
  · omega

theorem svnMin_floorKind_other {s : State} {j k : Nat} (hjk : j ≠ k) (f : Fuses) : (floorKind s f j).svnMin k = f.svnMin k := by
  unfold floorKind
  split
  · simp [Fuses.svnMin, List.getD_eq_getElem?_getD, hjk]
  · rfl

/-- The fuses reach the SVN of every running image with FLOOR. -/
theorem svn_le_floorFuses {s : State} {k : Nat} (hk : k < 5) {v : ImageVerdict} (hv : v ∈ s.runningImages k) (hfloor : v.floor = true)
    (h32 : v.svn ≤ 32) : v.svn ≤ s.floorFuses.svnMin k := by
  have hsame (f : Fuses) : v.svn ≤ (floorKind s f k).svnMin k := (le_floorTop hv hfloor h32).trans (svnMin_floorKind_same hk f)
  rw [floorFuses_eq]
  refine foldl_reaches (p := fun _ => True) (q := fun f : Fuses => v.svn ≤ f.svnMin k) (List.mem_range.mpr hk) (fun _ _ _ => trivial)
    (fun f j hf => ?_) (fun f _ => hsame f) trivial
  by_cases hj : j = k
  · subst hj
    exact hsame f
  · rwa [svnMin_floorKind_other hj]

end Fuses

/-! ## The store (R233, R326) -/

section Store

variable (s : State)

theorem byAge_length (l : List FlashUnit) : (byAge l).length = l.length := by
  have key : ∀ (l a : List FlashUnit), (l.foldl (fun a u => a.takeWhile (fun v => decide (u.age ≤ v.age)) ++ u ::
      a.dropWhile (fun v => decide (u.age ≤ v.age))) a).length = a.length + l.length := by
    intro l
    induction l with
    | nil => simp
    | cons u l ih =>
      intro a
      have hsplit := congrArg List.length (List.takeWhile_append_dropWhile (p := fun v : FlashUnit => decide (u.age ≤ v.age)) (l := a))
      rw [List.length_append] at hsplit
      rw [List.foldl_cons, ih, List.length_append, List.length_cons, List.length_cons]
      omega
  exact (key l []).trans (Nat.zero_add _)

/-- The power-on patrol reads every codeword of every unit. -/
theorem startPatrol_length : s.startPatrol.store.toPatrol.length = 16 * s.startPatrol.store.units.length := by
  simp [State.startPatrol, State.setStore, byAge_length, Nat.mul_comm]

theorem store_syncAll : (s.forFin 8 fun f s => s.syncUsed f).store = s.store :=
  forFin_keeps (p := fun t : State => t.store = s.store) 8 (fun f s => s.syncUsed f) (fun _ _ h => h) s rfl

theorem mountStore_failed : (s.mountStore false false).store.state = .failed := by
  simp only [State.mountStore, Bool.false_eq_true, if_false, State.startPatrol, State.setStore_store, store_syncAll, State.setStoreState,
    State.redund_store]

theorem mountStore_patrol (ok : Bool) :
    (s.mountStore ok false).store.toPatrol.length = 16 * (s.mountStore ok false).store.units.length := startPatrol_length _

theorem bootReady_store : s.bootReady.store = s.store := by
  simp [State.bootReady]

/-- Ready, with the mode that the boot came from. -/
theorem bootReady_mode (hfrom : s.pwr.bootFrom < 16) : s.bootReady.mode = 3 ∧ s.bootReady.fv F.SYS_MODE_PREV = s.pwr.bootFrom := by
  unfold State.bootReady
  dsimp only
  refine ⟨?_, ?_⟩
  · rw [State.mode, fv_raise (by decide) (by decide), fv_csReport (by decide) (by decide), fv_fset_same _ _ _ _ (by decide)]
    rfl
  · rw [fv_raise (by decide) (by decide), fv_csReport (by decide) (by decide), fv_fset_apart _ _ (by decide) (by decide) (by decide),
      fv_fset_same _ _ _ _ (by decide)]
    exact Nat.mod_eq_of_lt hfrom

end Store

end Sys2Proof.Proofs
end

section
/-!
SUPPORT. What the end of each boot stage does (R131, R132, R302, R324-R326, R329, R334), the UART's recovery image, and O51.
-/

namespace Sys2Proof.Proofs

open Sys2Proof.Machine Sys2Proof.Claims

/-! ## The command -/

/-- The queue and DEV_TIME stand through a stage; fuses are blown as Ready is reached. -/
def booted (s u : State) : State :=
  { u with pending := s.pending, devTime := s.devTime, fuses := if u.mode = 3 then s.floorFuses else s.fuses }

section Command

variable {s u : State} {ok : Bool} {fb : BitVec 8} {p cu : List MicroImage} {ff : BitVec 16}

theorem exec_boot_outside (hmode : s.mode ≠ 2) : exec (.bootStageComplete ok fb p cu ff) s = .next s := if_pos hmode

theorem exec_boot (hmode : s.mode = 2) : exec (.bootStageComplete ok fb p cu ff) s = .next (booted s (s.bootStage ok fb p cu ff)) :=
  if_neg (not_not_intro hmode)

theorem booted_of_only {ps : List Part} (h : Only ps s u) (hu : u.mode ≠ 3) : booted s u = u := by
  obtain ⟨hpending, hfuses, hdev, -, -⟩ := h
  rw [booted, if_neg hu, ← hpending, ← hfuses, ← hdev]

/-- A stage that stays in Boot and keeps a frame answers the state it makes. -/
theorem answers_stage {ps : List Part} {P : State → Prop} (hmode : s.mode = 2) (hstage : s.bootStage ok fb p cu ff = u) (h : Only ps s u)
    (hkeep : Keeps F.SYS_MODE_STATE s u) (hP : P u) : Answers (.bootStageComplete ok fb p cu ff) s P := by
  have hu : u.mode ≠ 3 := by rw [keeps_mode hkeep, hmode]; decide
  exact ⟨u, by rw [exec_boot hmode, hstage, booted_of_only h hu], hP⟩

end Command

/-! ## The stages, one by one -/

section Stages

variable {s : State} {ok : Bool} {fb : BitVec 8} {p cu : List MicroImage} {ff : BitVec 16}

/-- The next stage begins. -/
def toStage (s : State) (n : Nat) : State := s.fset F.SYS_BOOT_STAGE n

theorem toStage_stage (s : State) {n : Nat} (hn : n < 256) : (toStage s n).fv F.SYS_BOOT_STAGE = n :=
  (fv_fset_same _ _ _ _ (by decide)).trans (Nat.mod_eq_of_lt hn)

theorem keeps_toStage {f : Fld} {t : State} (hf : Apart F.SYS_BOOT_STAGE f) (n : Nat) : Keeps f s (toStage t n) ↔ Keeps f s t :=
  keeps_fset hf (by decide) n

theorem only_toStage {ps : List Part} {t : State} (h : .regs ∈ ps) (n : Nat) : Only ps s (toStage t n) ↔ Only ps s t :=
  only_fset h _ _ _

theorem onlyRegs_toStage {rs : List (RegName × Nat)} {t : State} (h : (.SYS_BOOT, 0) ∈ rs) (n : Nat) :
    OnlyRegs rs s (toStage t n) ↔ OnlyRegs rs s t := onlyRegs_fset (f := F.SYS_BOOT_STAGE) (by decide) h n

theorem toStage_pwr (s : State) (n : Nat) : (toStage s n).pwr = s.pwr := rfl

/-! ### Failures -/

theorem bootStage_fails_three (hok : ok = false) (hstage : s.fv F.SYS_BOOT_STAGE = 3) :
    s.bootStage ok fb p cu ff = s.fset F.SYS_BOOT_FAIL 3 := by
  simp [State.bootStage, hok, hstage]

/-- A failed stage 3 stands in Boot and waits for the UART. -/
theorem stage_three_fails (hmode : s.mode = 2) (hok : ok = false) (hstage : s.fv F.SYS_BOOT_STAGE = 3) :
    Answers (.bootStageComplete ok fb p cu ff) s fun t =>
      t.fv F.SYS_BOOT_FAIL = 3 ∧ t.mode = 2 ∧ Only [.regs] s t ∧ OnlyRegs [(.SYS_BOOT, 0)] s t := by
  have hkeep : Keeps F.SYS_MODE_STATE s (s.fset F.SYS_BOOT_FAIL 3) := (keeps_fset (by decide) (by decide) 3).mpr (keeps_refl _ s)
  have honly : Only [.regs] s (s.fset F.SYS_BOOT_FAIL 3) := (only_fset (by decide) _ _ _).mpr (only_refl _ s)
  exact answers_stage hmode (bootStage_fails_three hok hstage) honly hkeep
    ⟨fv_fset_same _ _ _ _ (by decide), (keeps_mode hkeep).trans hmode, honly,
      (onlyRegs_fset (f := F.SYS_BOOT_FAIL) (by decide) (by decide) 3).mpr (onlyRegs_refl _ s)⟩

theorem bootStage_fails (hok : ok = false) (h4 : 4 ≤ s.fv F.SYS_BOOT_STAGE) (h7 : s.fv F.SYS_BOOT_STAGE ≤ 7) :
    s.bootStage ok fb p cu ff = (s.fset F.SYS_BOOT_FAIL (s.fv F.SYS_BOOT_STAGE)).safeEntry 3 := by
  have h3 : s.fv F.SYS_BOOT_STAGE ≠ 3 := by omega
  simp [State.bootStage, hok, h3, h4, h7]

/-- Safe from Boot: its fields, and a field of SYS_BOOT that Safe leaves as it is. -/
theorem safeEntry_fields (hmode : s.mode = 2) :
    (s.safeEntry 3).mode = 9 ∧ (s.safeEntry 3).fv F.SYS_MODE_SAFE_CAUSE = 3 ∧
      (s.safeEntry 3).fv F.SYS_BOOT_FAIL = s.fv F.SYS_BOOT_FAIL := by
  have hactive : s.active = true := by simp [State.active, hmode]
  obtain ⟨t, n, hkeep, h⟩ := safeEntry_enters 3 hactive (by omega)
  rw [h, State.mode]
  refine ⟨?_, ?_, ?_⟩ <;> rw [fv_raise (by decide) (by decide), fv_csReport (by decide) (by decide)]
  · rw [fv_fset_same _ _ _ _ (by decide)]
    rfl
  · rw [fv_fset_apart _ _ (by decide) (by decide) (by decide), fv_fset_apart _ _ (by decide) (by decide) (by decide),
      fv_fset_same _ _ _ _ (by decide)]
    rfl
  · rw [fv_fset_apart _ _ (by decide) (by decide) (by decide), fv_fset_apart _ _ (by decide) (by decide) (by decide),
      fv_fset_apart _ _ (by decide) (by decide) (by decide)]
    exact hkeep F.SYS_BOOT_FAIL (by decide) (by decide) 0 (by decide)

/-- Stages 4-7 that fail go to Safe with cause 3. -/
theorem stage_fails (hmode : s.mode = 2) (hok : ok = false) (h4 : 4 ≤ s.fv F.SYS_BOOT_STAGE) (h7 : s.fv F.SYS_BOOT_STAGE ≤ 7) :
    Answers (.bootStageComplete ok fb p cu ff) s fun t =>
      t.fv F.SYS_BOOT_FAIL = s.fv F.SYS_BOOT_STAGE ∧ t.mode = 9 ∧ t.fv F.SYS_MODE_SAFE_CAUSE = 3 := by
  have hboot : (s.fset F.SYS_BOOT_FAIL (s.fv F.SYS_BOOT_STAGE)).mode = 2 :=
    (fv_fset_apart s _ (by decide) (by decide) (by decide)).trans hmode
  obtain ⟨hsafe, hcause, hfail⟩ := safeEntry_fields hboot
  have hstage : (s.fset F.SYS_BOOT_FAIL (s.fv F.SYS_BOOT_STAGE)).fv F.SYS_BOOT_FAIL = s.fv F.SYS_BOOT_STAGE :=
    (fv_fset_same _ _ _ _ (by decide)).trans (Nat.mod_eq_of_lt (by show _ < 256; omega))
  exact ⟨_, exec_boot hmode, by rw [bootStage_fails hok h4 h7]; exact ⟨hfail.trans hstage, hsafe, hcause⟩⟩

/-! ### Stages 1 and 2 -/

theorem bootStage_one_two (hok : ok = true) (hstage : s.fv F.SYS_BOOT_STAGE = 1 ∨ s.fv F.SYS_BOOT_STAGE = 2) :
    s.bootStage ok fb p cu ff = toStage s (s.fv F.SYS_BOOT_STAGE + 1) := by
  obtain h | h := hstage <;> simp [State.bootStage, toStage, hok, h]

theorem stage_one_two (hmode : s.mode = 2) (hok : ok = true) (hstage : s.fv F.SYS_BOOT_STAGE = 1 ∨ s.fv F.SYS_BOOT_STAGE = 2) :
    Answers (.bootStageComplete ok fb p cu ff) s fun t =>
      t.fv F.SYS_BOOT_STAGE = s.fv F.SYS_BOOT_STAGE + 1 ∧ Only [.regs] s t ∧ OnlyRegs [(.SYS_BOOT, 0)] s t := by
  have honly : Only [.regs] s (toStage s (s.fv F.SYS_BOOT_STAGE + 1)) := (only_toStage (by decide) _).mpr (only_refl _ s)
  exact answers_stage hmode (bootStage_one_two hok hstage) honly ((keeps_toStage (by decide) _).mpr (keeps_refl _ s))
    ⟨toStage_stage s (by omega), honly, (onlyRegs_toStage (by decide) _).mpr (onlyRegs_refl _ s)⟩

/-! ### Stage 3: the management cores' memories -/

/-- The management cores' memories are initialised. -/
def mcInitialised (s : State) : State := { s with mems := { s.mems with mc := s.mems.mc.map Mem.initialised } }

/-- Stage 3 up to the next stage's start. -/
def stageThree (s : State) (fb : BitVec 8) : State := ((mcInitialised s).activateImages [0]).reportFallback fb [0]

theorem bootStage_three (hok : ok = true) (hstage : s.fv F.SYS_BOOT_STAGE = 3) :
    s.bootStage ok fb p cu ff = toStage (stageThree s fb) 4 := by
  simp [State.bootStage, toStage, stageThree, mcInitialised, hok, hstage]

theorem only_stageThree_rest (s : State) (fb : BitVec 8) : Only reports (mcInitialised s) (stageThree s fb) :=
  only_trans (only_mono (only_activateImages _ _) (by decide)) (only_reportFallback _ _ _)

theorem keeps_stageThree (s : State) (fb : BitVec 8) : Keeps F.SYS_MODE_STATE s (stageThree s fb) :=
  keeps_trans (t := mcInitialised s) (keeps_of_regs rfl)
    (keeps_trans (keeps_activateImages [0]) (keeps_reportFallback (by decide) (by decide) fb [0]))

theorem stage_three (hmode : s.mode = 2) (hok : ok = true) (hstage : s.fv F.SYS_BOOT_STAGE = 3) :
    Answers (.bootStageComplete ok fb p cu ff) s fun t => t.fv F.SYS_BOOT_STAGE = 4 ∧ t.mode = 2 ∧
      ∀ m : Fin 4, s.mems.mc[m] = Mem.of .poison → ∀ i, (t.mems.mc[m]).cell i = .ok 0 := by
  have hkeep : Keeps F.SYS_MODE_STATE s (toStage (stageThree s fb) 4) := (keeps_toStage (by decide) 4).mpr (keeps_stageThree s fb)
  have hmems : (stageThree s fb).mems = (mcInitialised s).mems := only_part (only_stageThree_rest s fb) (p := .mems) (by decide)
  have honly : Only (.mems :: reports) s (toStage (stageThree s fb) 4) :=
    (only_toStage (by decide) 4).mpr (only_trans (only_mems (by decide) _) (only_mono (only_stageThree_rest s fb) (by decide)))
  refine answers_stage hmode (bootStage_three hok hstage) honly hkeep ⟨toStage_stage _ (by decide), (keeps_mode hkeep).trans hmode, ?_⟩
  intro m hm i
  have hmc : (stageThree s fb).mems.mc[m] = (Mem.of .poison).initialised := by
    rw [hmems, ← hm]
    simp [mcInitialised]
  show ((stageThree s fb).mems.mc[m]).cell i = .ok 0
  rw [hmc, cell_initialised]

/-! ### Stage 4: DDR5 -/

/-- DDR_STATUS shows which channels are up. -/
def ddrShown (s : State) : State := s.fset F.DDR_STATUS_UP (15 - s.mems.ddrLost % 16)

/-- Where no short boot kept it, DDR5 is initialised besides. -/
def stageFour (s : State) : State :=
  if s.pwr.shortBoot then ddrShown s else { ddrShown s with mems := { s.mems with ddr := s.mems.ddr.initialised } }

theorem bootStage_four (hok : ok = true) (hstage : s.fv F.SYS_BOOT_STAGE = 4) : s.bootStage ok fb p cu ff = toStage (stageFour s) 5 := by
  cases hshort : s.pwr.shortBoot <;> simp [State.bootStage, toStage, stageFour, ddrShown, hok, hstage, hshort]

theorem stageFour_regs (s : State) : (stageFour s).regs = (ddrShown s).regs := by
  unfold stageFour
  split <;> rfl

theorem only_stageFour (s : State) : Only [.regs, .mems] s (stageFour s) := by
  have hset : Only [.regs, .mems] s (ddrShown s) := (only_fset (by decide) _ _ _).mpr (only_refl _ s)
  unfold stageFour
  split
  · exact hset
  · exact only_trans hset (only_mems (by decide) _)

theorem stageFour_mems_short (h : s.pwr.shortBoot = true) : (stageFour s).mems = s.mems := by
  rw [stageFour, if_pos h, ddrShown, State.fset_mems]

theorem stageFour_ddr (h : s.pwr.shortBoot = false) : (stageFour s).mems.ddr = s.mems.ddr.initialised :=
  congrArg (fun t : State => t.mems.ddr) (if_neg (by simp [h]))

theorem stage_four (hmode : s.mode = 2) (hok : ok = true) (hstage : s.fv F.SYS_BOOT_STAGE = 4) :
    Answers (.bootStageComplete ok fb p cu ff) s fun t => t.fv F.SYS_BOOT_STAGE = 5 ∧ t.fv F.DDR_STATUS_UP = 15 - s.mems.ddrLost % 16 ∧
      (s.pwr.shortBoot = true → t.mems = s.mems) ∧ (s.pwr.shortBoot = false → s.mems.ddr = Mem.of .undef → ∀ i, t.cell 3 i = .ok 0) ∧
      Only [.regs, .mems] s t ∧ OnlyRegs [(.SYS_BOOT, 0), (.DDR_STATUS, 0)] s t := by
  have hregs := keeps_of_regs (f := F.SYS_MODE_STATE) (stageFour_regs s)
  have hkeep : Keeps F.SYS_MODE_STATE s (toStage (stageFour s) 5) :=
    (keeps_toStage (by decide) 5).mpr (keeps_trans ((keeps_fset (by decide) (by decide) _).mpr (keeps_refl _ s)) hregs)
  have honly : Only [.regs, .mems] s (toStage (stageFour s) 5) := (only_toStage (by decide) 5).mpr (only_stageFour s)
  refine answers_stage hmode (bootStage_four hok hstage) honly hkeep
    ⟨toStage_stage _ (by decide), ?_, stageFour_mems_short, fun hshort hddr i => ?_, honly, ?_⟩
  · rw [toStage, fv_fset_apart _ _ (by decide) (by decide) (by decide), fv_congr (stageFour_regs s), ddrShown, fv_fset_same _ _ _ _ (by decide)]
    exact Nat.mod_eq_of_lt (by show _ < 16; omega)
  · show (stageFour s).mems.ddr.cell i = .ok 0
    rw [stageFour_ddr hshort, hddr, cell_initialised]
  · exact (onlyRegs_toStage (by decide) 5).mpr (onlyRegs_trans
      ((onlyRegs_fset (f := F.DDR_STATUS_UP) (by decide) (by decide) _).mpr (onlyRegs_refl _ s)) (onlyRegs_of_regs_eq (stageFour_regs s)))

/-! ### Stage 5: the die's memories -/

theorem bootStage_five (hok : ok = true) (hstage : s.fv F.SYS_BOOT_STAGE = 5) :
    s.bootStage ok fb p cu ff = toStage s.initDieMemories 6 := by
  simp [State.bootStage, toStage, hok, hstage]

theorem only_initDieMemories (s : State) : Only [.mems, .grains] s s.initDieMemories :=
  only_trans (only_mems (by decide) s.initDieMemories.mems) (only_grains (by decide) s.initDieMemories.grains)

theorem staging_initDieMemories (s : State) : s.initDieMemories.mems.at_ 1 = s.mems.staging.initialised := by
  unfold State.initDieMemories
  rfl

theorem reserve_initDieMemories (s : State) : s.initDieMemories.mems.at_ 2 = s.mems.reserve.initialised := by
  unfold State.initDieMemories
  rfl

theorem grains_initDieMemories (s : State) : s.initDieMemories.grains = s.grains.initialised := by
  unfold State.initDieMemories
  rfl

theorem stage_five (hmode : s.mode = 2) (hok : ok = true) (hstage : s.fv F.SYS_BOOT_STAGE = 5) :
    Answers (.bootStageComplete ok fb p cu ff) s fun t => t.fv F.SYS_BOOT_STAGE = 6 ∧
      (s.mems.staging = Mem.of .poison → ∀ i, t.cell 1 i = .ok 0) ∧ (s.mems.reserve = Mem.of .poison → ∀ i, t.cell 2 i = .ok 0) ∧
      (∀ a w, (t.grains.plane a).poison.getLsbD w = false) ∧ Only [.regs, .mems, .grains] s t ∧ OnlyRegs [(.SYS_BOOT, 0)] s t := by
  have honly : Only [.regs, .mems, .grains] s (toStage s.initDieMemories 6) := 
    (only_toStage (by decide) 6).mpr (only_mono (only_initDieMemories s) (by decide))
  have hregs : s.initDieMemories.regs = s.regs := only_part (only_initDieMemories s) (p := .regs) (by decide)
  refine answers_stage hmode (bootStage_five hok hstage) honly ((keeps_toStage (by decide) 6).mpr (keeps_of_regs hregs))
    ⟨toStage_stage _ (by decide), fun h i => ?_, fun h i => ?_, fun a w => ?_, honly,
      (onlyRegs_toStage (by decide) 6).mpr (onlyRegs_of_regs_eq hregs)⟩
  · rw [toStage, State.cell, State.fset_mems, staging_initDieMemories, h, cell_initialised]
  · rw [toStage, State.cell, State.fset_mems, reserve_initDieMemories, h, cell_initialised]
  · rw [toStage, State.fset_grains, grains_initDieMemories, plane_initialised]
    exact BitVec.getLsbD_zero

/-! ### Stage 6: the microcode stores -/

/-- A Developer with its customer's decode entries and its overlay written as 0. -/
def cleared (x : Dev) : Dev :=
  { x with decodeRam := (List.range 64).map (fun k => (192 + k, some 0)), cam := (List.range 64).map (fun k => (k, some 0)) }

theorem clearMicrocode_eq (s : State) : s.clearMicrocode = s.forFin 4 fun d t => t.modDev d cleared := rfl

theorem bootStage_six (hok : ok = true) (hstage : s.fv F.SYS_BOOT_STAGE = 6) :
    s.bootStage ok fb p cu ff = toStage s.clearMicrocode 7 := by
  simp [State.bootStage, toStage, hok, hstage]

/-- The entries that a Developer shows as 0 after the microcode stores are cleared. -/
def Cleared (x : Dev) : Prop := ∀ k, k < 64 → stored x.cam k = some 0 ∧ stored x.decodeRam (192 + k) = some 0

theorem stored_zeros (key : Nat → Nat) {n k : Nat} (hk : k < n) :
    stored ((List.range n).map fun k => (key k, some 0)) (key k) = some 0 := by
  refine smGet_of_listed ?_ fun e he => ?_
  · rw [List.map_map]
    exact List.mem_map.mpr ⟨k, List.mem_range.mpr hk, rfl⟩
  · obtain ⟨j, -, rfl⟩ := List.mem_map.mp he
    rfl

theorem cleared_clears (x : Dev) : Cleared (cleared x) := fun _ hk => ⟨stored_zeros id hk, stored_zeros (192 + ·) hk⟩

theorem clearMicrocode_clears (s : State) (d : Fin 4) : Cleared (s.clearMicrocode.devs[d]) := by
  have hmod (t : State) (e : Fin 4) (h : e = d ∨ Cleared (t.devs[d])) : Cleared ((t.modDev e cleared).devs[d]) := by
    rw [modDev_dev]
    split
    · exact cleared_clears _
    next hne => exact h.resolve_left hne
  rw [clearMicrocode_eq]
  exact foldl_reaches (p := fun _ => True) (q := fun t : State => Cleared (t.devs[d])) (List.mem_finRange d) (fun _ _ _ => trivial)
    (fun t e h => hmod t e (.inr h)) (fun t _ => hmod t d (.inl rfl)) trivial

theorem only_clearMicrocode (s : State) : Only [.devs] s s.clearMicrocode :=
  only_forFin (fun t d => (only_modDev (by decide) d cleared).mpr (only_refl _ t)) s

theorem stage_six (hmode : s.mode = 2) (hok : ok = true) (hstage : s.fv F.SYS_BOOT_STAGE = 6) :
    Answers (.bootStageComplete ok fb p cu ff) s fun t => t.fv F.SYS_BOOT_STAGE = 7 ∧ (∀ d : Fin 4, Cleared (t.devs[d])) ∧
      Only [.regs, .devs] s t ∧ OnlyRegs [(.SYS_BOOT, 0)] s t := by
  have hregs : s.clearMicrocode.regs = s.regs := only_part (only_clearMicrocode s) (p := .regs) (by decide)
  have honly : Only [.regs, .devs] s (toStage s.clearMicrocode 7) :=
    (only_toStage (by decide) 7).mpr (only_mono (only_clearMicrocode s) (by decide))
  exact answers_stage hmode (bootStage_six hok hstage) honly ((keeps_toStage (by decide) 7).mpr (keeps_of_regs hregs))
    ⟨toStage_stage _ (by decide), clearMicrocode_clears s, honly, (onlyRegs_toStage (by decide) 7).mpr (onlyRegs_of_regs_eq hregs)⟩

/-! ### Stage 7: the images, the lock and the fabric -/

/-- Stage 7 before the microcode is loaded. -/
def stageSeven (s : State) (fb : BitVec 8) : State := (s.activateImages [1, 2, 3, 4]).reportFallback fb [1, 2, 3, 4]

theorem bootStage_seven (hok : ok = true) (hstage : s.fv F.SYS_BOOT_STAGE = 7) :
    s.bootStage ok fb p cu ff = toStage (((stageSeven s fb).lockMicrocode p cu).loadFabric ff) 8 := by
  simp [State.bootStage, toStage, stageSeven, hok, hstage]

theorem only_stageSeven (s : State) (fb : BitVec 8) : Only reports s (stageSeven s fb) :=
  only_trans (only_mono (only_activateImages _ _) (by decide)) (only_reportFallback _ _ _)

theorem keeps_stageSeven (s : State) (fb : BitVec 8) : Keeps F.SYS_MODE_STATE s (stageSeven s fb) :=
  keeps_trans (keeps_activateImages _) (keeps_reportFallback (by decide) (by decide) fb _)

/-- What a step that keeps the Developers and their registers leaves of the lock. -/
theorem locked_of_keeps {i j : Option MicroImage} {d : Fin 4} {t u : State} (hkeep : ∀ f : Fld, f.reg ∈ bootRegs → Keeps f t u)
    (hdevs : u.devs = t.devs) (h : Locked i j d t) : Locked i j d u := by
  have hd : d.val < 1024 := by omega
  have hfv (f : Fld) (hf : f.reg ∈ bootRegs) : u.fv f d = t.fv f d := hkeep f hf d hd
  unfold Locked State.on at *
  rwa [hdevs, hfv F.DEV_UCODE_CTL_LOCK (by decide), hfv F.DEV_UCODE_VER_PATCH_VER (by decide), hfv F.DEV_UCODE_VER_PATCH_HASH (by decide),
    hfv F.DEV_UCODE_CUST_CUST_VER (by decide), hfv F.DEV_UCODE_CUST_CUST_HASH (by decide)]

theorem loadFabric_locked {i j : Option MicroImage} {d : Fin 4} {t : State} (h : Locked i j d t) : Locked i j d (t.loadFabric ff) :=
  locked_of_keeps (fun _ hf => keeps_loadFabric hf ff) (only_part (only_loadFabric ff) (p := .devs) (by decide)) h

theorem toStage_locked {i j : Option MicroImage} {d : Fin 4} {t : State} (n : Nat) (h : Locked i j d t) : Locked i j d (toStage t n) := by
  have hd : d.val < 1024 := by omega
  have hfv (f : Fld) (hf : f.reg ≠ .SYS_BOOT) : (toStage t n).fv f d = t.fv f d :=
    fv_fset_other t n (f := F.SYS_BOOT_STAGE) (by decide) hd hf.symm
  unfold Locked State.on at *
  rwa [hfv F.DEV_UCODE_CTL_LOCK (by decide), hfv F.DEV_UCODE_VER_PATCH_VER (by decide), hfv F.DEV_UCODE_VER_PATCH_HASH (by decide),
    hfv F.DEV_UCODE_CUST_CUST_VER (by decide), hfv F.DEV_UCODE_CUST_CUST_HASH (by decide)]

theorem stage_seven (hmode : s.mode = 2) (hok : ok = true) (hstage : s.fv F.SYS_BOOT_STAGE = 7) :
    Answers (.bootStageComplete ok fb p cu ff) s fun t => t.fv F.SYS_BOOT_STAGE = 8 ∧ t.mode = 2 ∧
      (∀ d : Fin 4, Locked (chosenImage p false) (chosenImage cu true) d t) ∧ t.pwr.fabFailed = ff := by
  have hkeep : Keeps F.SYS_MODE_STATE s (toStage (((stageSeven s fb).lockMicrocode p cu).loadFabric ff) 8) :=
    (keeps_toStage (by decide) 8).mpr (keeps_trans (keeps_trans (keeps_stageSeven s fb) (keeps_lockMicrocode (by decide) p cu))
      (keeps_loadFabric (by decide) ff))
  have hload := only_loadFabric (s := (stageSeven s fb).lockMicrocode p cu) ff
  have honly : Only (.pwr :: .fab :: .devs :: reports) s (toStage (((stageSeven s fb).lockMicrocode p cu).loadFabric ff) 8) :=
    (only_toStage (by decide) 8).mpr (only_trans (only_trans (only_mono (only_stageSeven s fb) (by decide))
      (only_mono (only_lockMicrocode _ p cu) (by decide))) (only_trans (only_pwr (by decide) _) (only_mono hload (by decide))))
  have hpwr : (((stageSeven s fb).lockMicrocode p cu).loadFabric ff).pwr = { ((stageSeven s fb).lockMicrocode p cu).pwr with fabFailed := ff } :=
    only_part hload (p := .pwr) (by decide)
  exact answers_stage hmode (bootStage_seven hok hstage) honly hkeep
    ⟨toStage_stage _ (by decide), (keeps_mode hkeep).trans hmode,
      fun d => toStage_locked 8 (loadFabric_locked (lockMicrocode_locks d _ p cu)),
      by rw [toStage_pwr, hpwr]⟩

/-! ### Stage 8: the store, and Ready -/

theorem bootStage_eight (hstage : s.fv F.SYS_BOOT_STAGE = 8) :
    s.bootStage ok fb p cu ff = (s.mountStore (ok || s.pwr.shortBoot) s.pwr.shortBoot).bootReady := by
  simp [State.bootStage, hstage]

theorem mountStore_pwr (s : State) (short : Bool) : (s.mountStore ok short).pwr = s.pwr := by
  have hstate : (if ok then s.setStoreState (if s.store.state = .rebuilding then .degraded else s.store.state) else s.setStoreState .failed).pwr =
      s.pwr := by split <;> rfl
  have hsync (t : State) (ht : t.pwr = s.pwr) : (t.forFin 8 fun f u => u.syncUsed f).pwr = s.pwr :=
    forFin_keeps (p := fun u : State => u.pwr = s.pwr) 8 (fun f u => u.syncUsed f) (fun _ _ h => h) t ht
  have hpatrol (t : State) (ht : t.pwr = s.pwr) : (if short then t else t.startPatrol).pwr = s.pwr := by split <;> exact ht
  exact hpatrol _ (hsync _ hstate)

theorem stage_eight (hmode : s.mode = 2) (hstage : s.fv F.SYS_BOOT_STAGE = 8) (hfrom : s.pwr.bootFrom < 16) :
    Answers (.bootStageComplete ok fb p cu ff) s fun t => t.mode = 3 ∧ t.fv F.SYS_MODE_PREV = s.pwr.bootFrom ∧
      t.pending = s.pending ∧ t.devTime = s.devTime ∧ (ok = false → s.pwr.shortBoot = false → t.store.state = .failed) ∧
      (s.pwr.shortBoot = false → t.store.toPatrol.length = 16 * t.store.units.length) ∧
      ∀ k, k < 5 → ∀ v ∈ s.runningImages k, v.floor = true → v.svn ≤ 32 → v.svn ≤ t.fuses.svnMin k := by
  have hpwr := mountStore_pwr (ok := ok || s.pwr.shortBoot) s s.pwr.shortBoot
  obtain ⟨hready, hprev⟩ := bootReady_mode (s.mountStore (ok || s.pwr.shortBoot) s.pwr.shortBoot) (by rw [hpwr]; exact hfrom)
  have hstore := bootReady_store (s.mountStore (ok || s.pwr.shortBoot) s.pwr.shortBoot)
  refine ⟨_, exec_boot hmode, ?_⟩
  rw [bootStage_eight hstage]
  rw [hpwr] at hprev
  generalize (s.mountStore (ok || s.pwr.shortBoot) s.pwr.shortBoot).bootReady = u at hready hprev hstore ⊢
  rw [booted, if_pos hready]
  refine ⟨hready, hprev, rfl, rfl, fun hok hshort => ?_, fun hshort => ?_, fun k hk v hv hfloor h32 => ?_⟩
  · dsimp only
    rw [hstore, hok, hshort]
    exact mountStore_failed s
  · dsimp only
    rw [hstore, hshort]
    exact mountStore_patrol s _
  · exact svn_le_floorFuses hk hv hfloor h32

end Stages

/-! ## The recovery image over the UART (R325, R329) -/

section Uart

theorem forFin_out {n : Nat} {f : Fin n → State → State} (hf : ∀ i t, (f i t).out = t.out) (s : State) : (s.forFin n f).out = s.out :=
  forFin_keeps (p := fun t : State => t.out = s.out) n f (fun t i h => (hf i t).trans h) s rfl

theorem wipeDie_out (s : State) (keepDdr : Bool) : (s.wipeDie keepDdr).out = s.out := by
  unfold State.wipeDie
  extract_lets _ mems _ _ _ wiped epochs lanes
  have hwiped : wiped.out = s.out := rfl
  clear_value wiped
  have hepochs : epochs.out = wiped.out := by
    simp only [epochs, forFin_out fun _ _ => State.fset_out .., State.fset_out]
  clear_value epochs
  have hlanes : lanes.out = epochs.out := forFin_out (fun _ _ => State.fset_out ..) epochs
  clear_value lanes
  rw [forFin_out fun _ _ => State.fset_out .., hlanes, hepochs, hwiped]

/-- The fields with which Boot begins after a die reset from a mode. -/
def bootEntered (t : State) (last m : Nat) : State :=
  ((((((((t.fset F.SYS_BOOT_LAST_RESET last).fset F.SYS_BOOT_STAGE 1).fset F.SYS_BOOT_FAIL 0).fset F.PWR_WAKE_WAKE 0).redund 6 false).redund 5
    false).fset F.SYS_MODE_PREV m).fset F.SYS_MODE_STATE 2)

/-- HALT_BOOT of a surviving session halts MC0 (R344). -/
def bootHalted (t : State) : State :=
  if t.on F.DBG_CTL_HALT_BOOT ∧ t.dbgLevel = 2 ∧ t.fuses.lc ≠ 2 then t.modCore 4 (fun k => { k with halted := true }) else t

/-- The die after its wipe, with its epochs advanced. -/
def epochsAdvanced (s : State) (keepDdr : Bool) : State :=
  (s.wipeDie keepDdr).forFin 36 fun n t => t.fset F.NOC_NI_STAT_EPOCH ((t.fv F.NOC_NI_STAT_EPOCH n + 1) % 16) n

/-- The boot that follows is noted. -/
def bootNoted (t : State) (m : Nat) (short : Bool) : State :=
  { t with pwr := { t.pwr with bootFrom := m, shortBoot := short, fullBoot := false } }

theorem bootNoted_out (t : State) (m : Nat) (short : Bool) : (bootNoted t m short).out = t.out := rfl

/-- The die as Boot finds it. -/
def dieWiped (s : State) (keepDdr short : Bool) : State := bootNoted (epochsAdvanced s keepDdr) s.mode short

theorem dieReset_eq (s : State) (last : Nat) (keepDdr short : Bool) :
    s.dieReset last keepDdr short = bootHalted ((bootEntered (dieWiped s keepDdr short) last s.mode).csReport 0x01 0xFF
      [s.mode, (bootEntered (dieWiped s keepDdr short) last s.mode).fv F.SYS_MODE_SAFE_CAUSE] false) := rfl

theorem dieWiped_out (s : State) (keepDdr short : Bool) : (dieWiped s keepDdr short).out = s.out := by
  rw [dieWiped, bootNoted_out, epochsAdvanced, forFin_out fun _ _ => State.fset_out .., wipeDie_out]

theorem bootEntered_out (t : State) (last m : Nat) : (bootEntered t last m).out = t.out := by
  simp only [bootEntered, State.fset_out, State.redund_out]

theorem bootHalted_fv (t : State) (f : Fld) (i : Nat) : (bootHalted t).fv f i = t.fv f i := by
  unfold bootHalted
  split <;> rfl

theorem bootHalted_out (t : State) : (bootHalted t).out = t.out := by
  unfold bootHalted
  split <;> rfl

theorem fv_redund {f : Fld} (hf : f.reg ∈ bootRegs) (t : State) (bit : Nat) (v : Bool) : (t.redund bit v).fv f = t.fv f :=
  (fv_fset_apart _ _ (by decide) (by decide) (apart_of_boot hf (by decide))).trans
    (fv_fset_apart _ _ (by decide) (by decide) (apart_of_boot hf (by decide)))

theorem bootEntered_fields (t : State) (last m : Nat) :
    (bootEntered t last m).mode = 2 ∧ (bootEntered t last m).fv F.SYS_BOOT_FAIL = 0 ∧ (bootEntered t last m).fv F.SYS_BOOT_STAGE = 1 := by
  refine ⟨fv_fset_same _ _ _ _ (by decide), ?_, ?_⟩ <;>
    rw [bootEntered, fv_fset_apart _ _ (by decide) (by decide) (by decide), fv_fset_apart _ _ (by decide) (by decide) (by decide),
      fv_redund (by decide), fv_redund (by decide), fv_fset_apart _ _ (by decide) (by decide) (by decide)]
  · exact fv_fset_same _ _ _ _ (by decide)
  · rw [fv_fset_apart _ _ (by decide) (by decide) (by decide)]
    exact fv_fset_same _ _ _ _ (by decide)

/-- After a die reset Boot begins at stage 1, with no failure and nothing sent. -/
theorem dieReset_boots (s : State) (last : Nat) (keepDdr short : Bool) :
    (s.dieReset last keepDdr short).mode = 2 ∧ (s.dieReset last keepDdr short).fv F.SYS_BOOT_FAIL = 0 ∧
      (s.dieReset last keepDdr short).fv F.SYS_BOOT_STAGE = 1 ∧ (s.dieReset last keepDdr short).out = s.out := by
  obtain ⟨hmode, hfail, hstage⟩ := bootEntered_fields (dieWiped s keepDdr short) last s.mode
  have hout : (bootEntered (dieWiped s keepDdr short) last s.mode).out = s.out := (bootEntered_out _ _ _).trans (dieWiped_out s keepDdr short)
  rw [dieReset_eq, bootHalted_out, bootHalted_fv, bootHalted_fv, State.csReport_out, State.mode, bootHalted_fv, fv_csReport (by decide) (by decide),
    fv_csReport (by decide) (by decide), fv_csReport (by decide) (by decide)]
  exact ⟨hmode, hfail, hstage, hout⟩

/-- The boot ROM waits for an image over the UART. -/
def AwaitsImage (s : State) : Prop := s.mode = 2 ∧ s.fv F.SYS_BOOT_FAIL = 3

variable {s : State} {ok : Bool}

theorem uart_ignored (h : ¬ AwaitsImage s) : exec (.uartImageReceived ok) s = .next s :=
  exec_eq_self (c := .uartImageReceived ok) rfl (if_neg h)

/-- What an image does that the boot ROM waits for. -/
def imageTaken (ok : Bool) (s : State) : State := if ok then (s.emit (.uart true)).dieResetOther else s.emit (.uart false)

theorem uart_effect (h : AwaitsImage s) : exec (.uartImageReceived ok) s = s.effect (imageTaken ok) :=
  congrArg (fun t : State => (.next { t with pending := s.pending, fuses := s.fuses, devTime := s.devTime } : Ans)) (if_pos h)

theorem uart_refused (h : AwaitsImage s) (hok : ok = false) : exec (.uartImageReceived ok) s = .next (s.emit (.uart false)) := by
  subst hok
  exact uart_effect h

theorem uart_taken (h : AwaitsImage s) (hok : ok = true) : Answers (.uartImageReceived ok) s fun t =>
    t.mode = 2 ∧ t.fv F.SYS_BOOT_FAIL = 0 ∧ t.fv F.SYS_BOOT_STAGE = 1 ∧ t.out = .uart true :: s.out := by
  subst hok
  exact ⟨_, uart_effect h, dieReset_boots (s.emit (.uart true)).used _ false false⟩

end Uart

/-! ## The obligation -/

/-- Settles O51: each stage answers the state of its own lemma, and the UART's image is taken by a die reset. -/
theorem bootStages : Obligations.BootStages := by
  unfold Obligations.BootStages
  refine ⟨fun s ok fb p cu ff => ?_, fun s ok => ⟨uart_ignored, uart_refused, uart_taken⟩⟩
  intro c stage chosen ver hash
  have hver (i : Option MicroImage) : ver i = imageVersion i := by cases i <;> rfl
  have hhash (i : Option MicroImage) : hash i = imageHash i := by cases i <;> rfl
  refine ⟨exec_boot_outside, stage_three_fails, stage_fails, stage_one_two, stage_three, stage_four, stage_five, fun hmode hok hstage => ?_,
    fun hmode hok hstage => ?_, stage_eight⟩
  · exact answers_mono (stage_six hmode hok hstage) fun t ⟨hnext, hclear, hframe⟩ => ⟨hnext, fun d k hk => hclear d k hk, hframe⟩
  · refine answers_mono (stage_seven hmode hok hstage) fun t ⟨hnext, hboot, hlocked, hfab⟩ => ⟨hnext, hboot, fun d => ?_, hfab⟩
    obtain ⟨hlock, ⟨hpv, hph, hcv, hch⟩, hcam, hdecode⟩ := hlocked d
    exact ⟨hlock, hpv.trans (hver _).symm, hph.trans (hhash _).symm, hcv.trans (hver _).symm, hch.trans (hhash _).symm, hcam, hdecode⟩

end Sys2Proof.Proofs
end

section
/-!
SUPPORT. Which registers the shared operations may write, by name: reports, events, completions, a change of mode and a halt leave every
other register alone (R251-R253, R308, R347, R365).
-/

namespace Sys2Proof.Proofs

open Sys2Proof.Machine Sys2Proof.Claims

/-- The registers of every other name have kept their values. -/
def RegsBut (rs : List RegName) (s t : State) : Prop := ∀ r, r ∉ rs → ∀ i < 1024, t.reg r i = s.reg r i

section Relation

variable {rs : List RegName} {s t u : State}

@[simp] theorem regsBut_refl (rs : List RegName) (s : State) : RegsBut rs s s := fun _ _ _ _ => rfl

theorem regsBut_trans (h : RegsBut rs s t) (k : RegsBut rs t u) : RegsBut rs s u := fun r hr i hi => (k r hr i hi).trans (h r hr i hi)

theorem regsBut_mono {qs : List RegName} (h : RegsBut rs s t) (hsub : rs ⊆ qs) : RegsBut qs s t := fun r hr => h r fun hrs => hr (hsub hrs)

theorem regsBut_of_regs (h : t.regs = s.regs) : RegsBut rs s t := fun r _ i _ => reg_congr h r i

theorem regsBut_foldl {α : Type} (l : List α) {step : State → α → State} (h : ∀ t a, RegsBut rs t (step t a)) (s : State) :
    RegsBut rs s (l.foldl step s) :=
  foldl_keeps (p := fun t => RegsBut rs s t) l step (fun t a ht => regsBut_trans ht (h t a)) s (regsBut_refl rs s)

theorem regsBut_forFin {n : Nat} {step : Fin n → State → State} (h : ∀ t i, RegsBut rs t (step i t)) (s : State) :
    RegsBut rs s (s.forFin n step) := regsBut_foldl _ (fun t i => h t i) s

theorem regsBut_setReg {r : RegName} (hr : r ∈ rs) {i : Nat} (hi : i < 1024) (v : DWord) : RegsBut rs s (s.setReg r v i) :=
  fun _ hr' _ hi' => reg_setReg_other s v hi hi' fun h => hr' (h ▸ hr)

theorem regsBut_fset {f : Fld} (hf : f.reg ∈ rs) {i : Nat} (hi : i < 1024) (v : Nat) : RegsBut rs s (s.fset f v i) :=
  regsBut_setReg hf hi _

theorem regsBut_finc {f : Fld} (hf : f.reg ∈ rs) {i : Nat} (hi : i < 1024) (n : Nat) : RegsBut rs s (s.finc f i n) :=
  regsBut_setReg hf hi _

/-- A field of a register that is left. -/
theorem RegsBut.fv (h : RegsBut rs s t) {f : Fld} (hf : f.reg ∉ rs) {i : Nat} (hi : i < 1024) : t.fv f i = s.fv f i := by
  rw [State.fv, h f.reg hf i hi, ← State.fv]

theorem RegsBut.on (h : RegsBut rs s t) {f : Fld} (hf : f.reg ∉ rs) {i : Nat} (hi : i < 1024) : t.on f i = s.on f i := by
  rw [State.on, h.fv hf hi, ← State.on]

theorem RegsBut.mode (h : RegsBut rs s t) (hrs : .SYS_MODE ∉ rs) : t.mode = s.mode := h.fv (f := F.SYS_MODE_STATE) hrs (by decide)

end Relation

/-- The registers in which reports, events and completions show. -/
def told : List RegName := [.CS_STATUS, .CS_CTL, .HST_CQ_PTR, .HST_EQ_PTR, .HST_SQ_CFG, .HST_EVT_LOST]

section Told

variable {s : State}

/-! ## The Contact Sheet -/

theorem regsBut_csSuppressed (on : Bool) : RegsBut told s (s.csSuppressed on) := by
  unfold State.csSuppressed
  split
  · exact regsBut_finc (by decide) (by decide) _
  · exact regsBut_refl _ s

theorem regsBut_csFrozen (on : Bool) (r : CsRecord) : RegsBut told s (s.csFrozen on r) := by
  unfold State.csFrozen
  split
  · exact regsBut_trans (t := s.fset F.CS_STATUS_COMMIT 1) (regsBut_fset (by decide) (by decide) _)
      (regsBut_trans (regsBut_fset (f := F.CS_CTL_TRIG) (by decide) (by decide : 0 < 1024) 0) (regsBut_of_regs rfl))
  · exact regsBut_refl _ s

theorem regsBut_csEnqueue (r : CsRecord) : RegsBut told s (s.csEnqueue r) := by
  have hdrop : RegsBut told s (s.finc F.CS_STATUS_DROPPED) := regsBut_finc (by decide) (by decide) _
  unfold State.csEnqueue
  dsimp only
  split
  · exact regsBut_of_regs rfl
  · split
    · exact regsBut_trans hdrop (regsBut_of_regs rfl)
    · exact hdrop

theorem regsBut_csMerged (ty source : Nat) (r : CsRecord) : RegsBut told s (s.csMerged ty source r) := by
  unfold State.csMerged
  split
  · exact regsBut_of_regs rfl
  · exact regsBut_csEnqueue (s := { s with cs := { s.cs with merging := s.cs.merging ++ [(ty, source, 0)] } }) r

theorem regsBut_csReport (ty source : Nat) (data : List Nat) (trig : Bool) : RegsBut told s (s.csReport ty source data trig) :=
  regsBut_trans (regsBut_trans (regsBut_csSuppressed (s := s.used) _) (regsBut_csFrozen _ _)) (regsBut_csMerged _ _ _)

theorem regsBut_csMasked (ty source : Nat) (data : List Nat) (b : Nat) : RegsBut told s (s.csMasked ty source data b) :=
  regsBut_csReport _ _ _ _

/-! ## Events and completions -/

/-- A register as one field. -/
def wholeReg (r : RegName) : Fld := ⟨r, 0, 64⟩

/-- A register is left where it is left as a field. -/
theorem reg_of_wholeReg {t : State} {r : RegName} {i : Nat} (h : t.fv (wholeReg r) i = s.fv (wholeReg r) i) : t.reg r i = s.reg r i := by
  have hwhole (v : DWord) : getBits v 0 64 = v.toNat := by
    rw [getBits, Nat.pow_zero, Nat.div_one, Nat.mod_eq_of_lt v.isLt]
  simp only [State.fv, wholeReg, hwhole] at h
  exact BitVec.eq_of_toNat_eq h

theorem unposted_wholeReg {r : RegName} (hr : r ∉ told) : Unposted (wholeReg r) := by
  have hne {q : RegName} (hq : q ∈ told) : q ≠ r := fun h => hr (h ▸ hq)
  exact ⟨.inl (hne (by decide)), .inl (hne (by decide)), .inl (hne (by decide)), .inl (hne (by decide)), .inl (hne (by decide))⟩

theorem regsBut_wPost (w : WRing) (e : Entry) : RegsBut told s (s.wPost w e) :=
  fun _ hr _ hi => reg_of_wholeReg (fv_wPost w e hi (unposted_wholeReg hr))

theorem regsBut_complete (c : CmdRef) (st result : Nat) (data : List Byte) : RegsBut told s (s.complete c st result data) :=
  fun _ hr _ hi => reg_of_wholeReg (fv_complete c st result data hi (unposted_wholeReg hr))

theorem regsBut_completeOpen (c : CmdRef) (st : Nat) : RegsBut told s (s.completeOpen c st) := regsBut_complete (s := s.used) c st _ _

theorem regsBut_eventLost (k : Fin 8) (lost : Bool) : RegsBut told s (s.eventLost k lost) := by
  unfold State.eventLost
  split
  · exact regsBut_finc (by decide) (fn_lt k) _
  · exact regsBut_refl _ s

theorem regsBut_eventTo (k : Fin 8) (code : Nat) (result : DWord) : RegsBut told s (s.eventTo k code result) := by
  unfold State.eventTo
  dsimp only
  split
  · exact regsBut_wPost (s := s.modFn k _) _ _
  · exact regsBut_eventLost (s := (s.modFn k _).modFn k _) k _

theorem regsBut_eventSession (k g : Fin 8) (x : Session) (code : Nat) (result : DWord) : RegsBut told s (s.eventSession k g x code result) := by
  unfold State.eventSession
  dsimp only
  split
  · exact regsBut_of_regs (by simp)
  · exact regsBut_eventLost (s := s.setSession k _) g _

theorem regsBut_eventSessions (bit code : Nat) (result : DWord) (sel : Fin 8 → Bool) : RegsBut told s (s.eventSessions bit code result sel) := by
  refine regsBut_forFin (fun t k => ?_) s
  split
  · exact regsBut_refl _ t
  · split
    · exact regsBut_refl _ t
    · split
      · exact regsBut_eventSession _ _ _ _ _
      · exact regsBut_refl _ t

theorem regsBut_raiseTo (bit code result : Nat) (sel : Fin 8 → Bool) : RegsBut told s (s.raiseTo bit code result sel) := by
  refine regsBut_trans (regsBut_forFin (fun t k => ?_) s) (regsBut_eventSessions _ _ _ _)
  split
  · exact regsBut_eventTo _ _ _
  · exact regsBut_refl _ t

theorem regsBut_raise (e : Ev) (result : Nat) : RegsBut told s (s.raise e result) := regsBut_raiseTo _ _ _ _

theorem regsBut_raiseJob (e : Ev) (result : Nat) : RegsBut told s (s.raiseJob e result) := by
  unfold State.raiseJob
  split
  · exact regsBut_refl _ s
  · exact regsBut_raiseTo _ _ _ _

/-! ## Changes of mode -/

/-- The registers that a change of mode writes. -/
def modeRegs : List RegName := .SYS_MODE :: .DBG_UNLOCK_CTL :: told

theorem regsBut_abortUnlock : RegsBut modeRegs s s.abortUnlock := by
  unfold State.abortUnlock
  split
  · exact regsBut_trans (t := s.fset F.DBG_UNLOCK_CTL_STATUS 6) (regsBut_fset (by decide) (by decide) _)
      (regsBut_trans (regsBut_fset (f := F.DBG_UNLOCK_CTL_GO) (by decide) (by decide : 0 < 1024) 0) (regsBut_of_regs rfl))
  · exact regsBut_refl _ s

theorem regsBut_toMode (m job : Nat) : RegsBut modeRegs s (s.toMode m job) := by
  unfold State.toMode
  extract_lets prev t
  have ht : RegsBut modeRegs s t := regsBut_trans regsBut_abortUnlock
    (regsBut_trans (regsBut_fset (f := F.SYS_MODE_PREV) (by decide) (by decide : 0 < 1024) prev) (regsBut_fset (by decide) (by decide) _))
  exact regsBut_trans ht (regsBut_mono (regsBut_trans (regsBut_csReport _ _ _ _) (regsBut_raise _ _)) (by decide))

theorem toMode_mode (s : State) {m : Nat} (hm : m < 16) (job : Nat) : (s.toMode m job).mode = m := by
  unfold State.toMode
  extract_lets prev t
  rw [(regsBut_trans (regsBut_csReport _ _ _ _) (regsBut_raise _ _)).mode (by decide)]
  exact (fv_fset_same _ F.SYS_MODE_STATE m 0 (by decide)).trans (Nat.mod_eq_of_lt hm)

/-! ## Halts (R347, R348) -/

theorem regsBut_of_onlyRegs {rs : List (RegName × Nat)} {qs : List RegName} {t : State} (h : OnlyRegs rs s t) (hsub : ∀ x ∈ rs, x.1 ∈ qs) :
    RegsBut qs s t := fun r hr i hi => h r i hi fun hri => hr (hsub (r, i) hri)

theorem regsBut_haltCore (c : Fin 8) : RegsBut [.GRN_GANG] s (s.haltCore c) :=
  regsBut_of_onlyRegs (onlyRegs_trans ((onlyRegs_modCore c _).mpr (onlyRegs_refl _ s)) (onlyRegs_abandonOf _ c)) (by decide)

theorem only_haltCore (c : Fin 8) : Only [.cores, .devs, .grains, .regs] s (s.haltCore c) :=
  only_trans ((only_modCore (by decide) c _).mpr (only_refl _ s)) (only_mono (only_abandonOf _ c) (by decide))

theorem only_sec {ps : List Part} (h : .sec ∈ ps) (x : SecSt) : Only ps s { s with sec := x } :=
  ⟨rfl, rfl, rfl, rfl, fun p hp => by cases p <;> simp_all [Part.same]⟩

/-- The parts that a halt waiting for a boundary may change. -/
abbrev haltParts : List Part := [.cores, .devs, .grains, .regs, .sec]

theorem only_applyHalts : Only haltParts s s.applyHalts := by
  unfold State.applyHalts
  refine only_trans (only_forFin (ps := haltParts) (fun t d => ?_) s) (only_sec (by decide) _)
  split
  · exact only_mono (only_haltCore _) (by decide)
  · exact only_refl _ t

theorem regsBut_applyHalts : RegsBut [.GRN_GANG] s s.applyHalts := by
  unfold State.applyHalts
  refine regsBut_trans (regsBut_forFin (fun t d => ?_) s) (regsBut_of_regs rfl)
  split
  · exact regsBut_haltCore _
  · exact regsBut_refl _ t

end Told

end Sys2Proof.Proofs
end

section
/-!
SUPPORT. A command of the host that passes the common checks does what its body does (R245, R249, R257, R258, R262), and what a
completion leaves of the commands that wait.
-/

namespace Sys2Proof.Proofs

open Sys2Proof.Machine Sys2Proof.Claims

/-! ## The start of a command -/

section Starts

variable {s t u : State} {i : Instr} {k : HostCmd} {fn : Fin 8} {r : CmdRef}

theorem input_eq_inputOf {a : Accepted} {c : CmdIn} (h : s.found c = some a) : a.input c = inputOf s c := by
  obtain ⟨src, desc, host⟩ := c
  cases src <;> simp [Accepted.input, inputOf, hostOf, h]

theorem not_pastDeadline {c : CmdRef} {us : Nat} (h : us = 0 ∨ (s.devTime - c.bell).toNat ≤ 200 * us) : s.pastDeadline c us = false := by
  rw [State.pastDeadline, decide_eq_false_iff_not]
  omega

/-- The body of a command that passes the common checks runs. -/
theorem start_of_starts (h : Starts s i k fn r t) (body : CmdIn → CmdRef → State → State) :
    s.start k.c k.op k.uses k.denied body = body (inputOf s k.c) r t := by
  obtain ⟨-, ⟨a, hactive, -, hfound, hop, hturn, rfl, rfl, ht⟩, htime, hfamily, hallowed, hmode, hclean⟩ := h
  have hstarted : ¬ (¬ s.active = true ∨ k.c.desc.opcode.toNat ≠ k.op ∨ s.mustWait k.op a = true) := by simp [hactive, hop, hturn]
  have hdeadline : s.pastDeadline a.cmd k.c.desc.deadline.toNat = false :=
    not_pastDeadline (htime.imp_left fun h0 => by rw [h0]; rfl)
  have hfam : (match opFamily k.op with
      | some f => t.on f a.cmd.fn
      | none => true) = true := by
    split
    · next f hf => exact hfamily f hf
    · rfl
  have hdenied : k.denied t (s.starting a.cmd).fn = .none := hallowed
  unfold State.start
  simp only [hfound, if_neg hstarted, hdeadline, ← ht, Bool.false_eq_true, if_false]
  rw [if_neg (by exact not_not_intro hfam), hdenied]
  simp only [hmode, hclean, not_true_eq_false, if_false, input_eq_inputOf hfound]
  rfl

/-- The one change of the start: the command leaves the accepted ones. -/
theorem Starts.only (h : Starts s i k fn r t) {ps : List Part} (hps : .hst ∈ ps) : Only ps s t := by
  obtain ⟨-, ⟨a, -, -, -, -, -, -, -, ht⟩, -⟩ := h
  rw [ht]
  exact only_hst hps _

theorem does_of_starts (h : Starts s i k fn r t) {body : CmdIn → CmdRef → State → State}
    (hexec : exec i s = s.effect fun s => s.start k.c k.op k.uses k.denied body) (hu : body (inputOf s k.c) r t = u) : Does i s u := by
  rw [Does, hexec, effect_eq, start_of_starts h, hu]
  rfl

theorem settle_of_only {ps : List Part} (h : Only ps s u) : settle s u = u := by
  obtain ⟨hpending, hfuses, hdev, -, -⟩ := h
  rw [settle, ← hpending, ← hfuses, ← hdev]

theorem answers_of_does {ps : List Part} {P : State → Prop} (h : Does i s u) (honly : Only ps s u) (hP : P u) : Answers i s P :=
  ⟨u, h.trans (congrArg _ (settle_of_only honly)), hP⟩

/-! ## Refusals -/

/-- A completion of which the rules state nothing but the status. -/
theorem ends_of_open {st : Nat} (h : Does i s (t.completeOpen r st)) : Ends i s t.used r st fun _ => True := ⟨_, trivial, h⟩

theorem refused_of_reason {st code : Nat} (h : Does i s (t.completeReason r st code)) (hcode : code < 256) : Refused i s t r st code :=
  ⟨_, by omega, h⟩

theorem refusedFor_of_detail {st code detail : Nat} (h : Does i s (t.completeDetail r st code detail)) (hcode : code < 256) :
    RefusedFor i s t r st code detail := by
  have hfree : (t.free_ 24).toNat < 2 ^ 24 := (t.free_ 24).isLt
  exact ⟨_, by omega, by omega, h⟩

theorem ends_of_detail {st code detail : Nat} (h : Does i s (t.completeDetail r st code detail)) :
    Ends i s t.used r st fun _ => True := ⟨_, trivial, h⟩

/-- A host buffer without a fault stops no command. -/
theorem hostFault_none {c : CmdIn} {n : Nat} (h : HostOk c n) : t.hostFault c r n = none := by
  obtain ⟨hdata, hlist, hsegs⟩ := h
  have hsegs' : ¬ (hostSegs c n).isNone = true := by simp [Option.isNone_eq_false_iff.mpr hsegs]
  unfold State.hostFault
  rw [if_neg (fun hl => absurd (hlist hl.1) (by simp [hl.2])), if_neg hsegs', if_neg (by simp [hdata])]

end Starts

/-! ## What a completion leaves of the commands that wait -/

section Waiting

variable {s : State}

/-- The updates and changes that wait for their line, and the line that each function's next load must start at. -/
def waiting (s : State) : List Pending × Vector Nat 8 := (s.hst.pending, s.hst.fns.map Fn.nextLoad)

theorem waiting_modFn {g : Fn → Fn} (hg : ∀ x, (g x).nextLoad = x.nextLoad) (f : Fin 8) : waiting (s.modFn f g) = waiting s := by
  refine Prod.ext rfl (Vector.ext fun j hj => ?_)
  simp only [waiting, Vector.getElem_map]
  exact fns_modFn_proj Fn.nextLoad f hg ⟨j, hj⟩

@[simp] theorem waiting_sendVector (f : Fin 8) (v : Nat) : waiting (s.sendVector f v) = waiting s := by
  unfold State.sendVector
  split
  · exact waiting_modFn (s := s) (g := fun fn => { fn with pendingVec := fn.pendingVec ||| (1 <<< v) }) (fun _ => rfl) f
  · rfl

@[simp] theorem waiting_wCoalesce (w : WRing) (n : Nat) : waiting (s.wCoalesce w n) = waiting s := by
  unfold State.wCoalesce
  dsimp only
  split
  · rfl
  · split
    · exact waiting_sendVector _ _
    · rfl

@[simp] theorem waiting_unowe (f : Fin 8) (e : Entry) : waiting (s.unowe f e) = waiting s := by
  unfold State.unowe
  dsimp only
  split
  · rfl
  · split <;> rfl

@[simp] theorem waiting_wPost (w : WRing) (e : Entry) : waiting (s.wPost w e) = waiting s := by
  unfold State.wPost
  dsimp only
  split <;> split <;> simp only [waiting_unowe, waiting_wCoalesce] <;> rfl

@[simp] theorem waiting_capsule (k : Fin 8) (n : Nat) (e : Option Entry) (d : List Byte) : waiting (s.capsule k n e d) = waiting s := by
  unfold State.capsule
  split <;> rfl

@[simp] theorem waiting_complete (c : CmdRef) (st result : Nat) (d : List Byte) : waiting (s.complete c st result d) = waiting s := by
  unfold State.complete
  dsimp only
  split
  · rfl
  · split
    · split
      · exact waiting_wPost _ _
      · rfl
    · split
      · rfl
      · rw [waiting_capsule]
        rfl

theorem waiting_completeOpen (c : CmdRef) (st : Nat) : waiting (s.completeOpen c st) = waiting s := waiting_complete (s := s.used) ..

end Waiting

end Sys2Proof.Proofs
end

section
/-!
SUPPORT. The Shutter's Holds, Nozzle Map and swaths: what SHT_HOLD's writes, a boundary's judgement and a swath's arming do (R147, R154,
R155, R161-R163, R167).
-/

namespace Sys2Proof.Proofs

open Sys2Proof.Machine Sys2Proof.Claims

section Parts

variable {ps : List Part} {s : State}

theorem only_sht (h : .sht ∈ ps) (x : Sht) : Only ps s { s with sht := x } :=
  ⟨rfl, rfl, rfl, rfl, fun p hp => by cases p <;> simp_all [Part.same]⟩

end Parts

/-! ## Bits of a written value -/

theorem getBits_eq_extract (v : DWord) (lo w : Nat) : getBits v lo w = (v.extractLsb' lo w).toNat := by
  rw [getBits, BitVec.extractLsb'_toNat, Nat.shiftRight_eq_div_pow]

/-- A field of one bit. -/
theorem getBits_one (v : DWord) (k : Nat) : getBits v k 1 = (v.getLsbD k).toNat := by
  rw [getBits, BitVec.getLsbD, Nat.testBit_eq_decide_div_mod_eq]
  have hlt : v.toNat / 2 ^ k % 2 < 2 := Nat.mod_lt _ (by decide)
  by_cases h : v.toNat / 2 ^ k % 2 = 1
  · simp [h]
  · simp [show v.toNat / 2 ^ k % 2 = 0 by omega]

/-- The flag that a one-bit field shows once it is set. -/
theorem on_fset_one (s : State) (f : Fld) (v i : Nat) (hf : f.w = 1) (hlo : f.lo + f.w ≤ 64) : (s.fset f v i).on f i = decide (v % 2 ≠ 0) := by
  rw [State.on, fv_fset_same _ _ _ _ hlo, hf, pow_one]

/-! ## What depends on few registers -/

section Settings

variable {rs : List RegName} {s t : State}

theorem RegsBut.groupsOn (h : RegsBut rs s t) (hrs : .SHT_GRP ∉ rs) : t.groupsOn = s.groupsOn := by
  unfold State.groupsOn
  exact congrArg (fun p => (List.finRange 64).filter p) (funext fun g => h.on (f := F.SHT_GRP_ENABLE) hrs (by omega))

theorem RegsBut.delay (h : RegsBut rs s t) (hrs : .SHT_GRP ∉ rs) : t.delay = s.delay :=
  funext fun g => h.fv (f := F.SHT_GRP_DELAY) hrs (by omega)

theorem RegsBut.dmin (h : RegsBut rs s t) (hrs : .SHT_GRP ∉ rs) : t.dmin = s.dmin := by
  rw [State.dmin, h.groupsOn hrs, h.delay hrs, ← State.dmin]

theorem RegsBut.scanning (h : RegsBut rs s t) (hrs : .SHT_SWATH ∉ rs) : t.scanning = s.scanning := by
  rw [State.scanning, h.fv (f := F.SHT_SWATH_MODE) hrs (by decide), ← State.scanning]

theorem RegsBut.nextBoundary (h : RegsBut rs s t) (hrs : .SHT_GRP ∉ rs) (hjob : t.job = s.job) : t.nextBoundary = s.nextBoundary := by
  rw [State.nextBoundary, hjob, h.groupsOn hrs, ← State.nextBoundary]

theorem RegsBut.mapFault (h : RegsBut rs s t) (hrs : .SHT_GRP ∉ rs) (hmems : t.mems = s.mems) : t.mapFault = s.mapFault := by
  have hon : (fun g : Fin 64 => t.on F.SHT_GRP_ENABLE g) = fun g : Fin 64 => s.on F.SHT_GRP_ENABLE g :=
    funext fun g => h.on (f := F.SHT_GRP_ENABLE) hrs (by omega)
  have henable (g : Fin 64) : t.on F.SHT_GRP_ENABLE g = s.on F.SHT_GRP_ENABLE g := congrFun hon g
  simp only [State.mapFault, State.entries, hmems, henable]

end Settings

/-! ## Boundaries (R162, R163) -/

section Boundaries

variable {s : State} {j : Job}

/-- A job that neither has fired its last line, nor ends by an ABORT, nor has come to a requested boundary goes on. -/
theorem checkBoundary_stays (hjob : s.job = some j) (habort : j.abortAt = none) (hlen : j.fired < j.length)
    (hreqs : ∀ r ∈ s.sht.holdReqs, j.fired < r.b) : s.checkBoundary = s := by
  unfold State.checkBoundary
  simp only [hjob, habort]
  rw [if_neg (by simp [hlen])]
  split
  · rfl
  · split
    · next b hb =>
      obtain ⟨r, hr, rfl⟩ := List.mem_map.mp (List.min?_mem hb)
      exact if_neg (Nat.not_le.mpr (hreqs r hr))
    · rfl

/-- In single-pass operation a boundary that is asked for, and not passed, is the effective one. -/
theorem effectiveBoundary_of_le {line : Nat} (hscan : s.scanning = false) (hline : line ≠ 0) (hnext : s.nextBoundary ≤ line) (abrupt : Bool) :
    s.effectiveBoundary line abrupt = line := by
  unfold State.effectiveBoundary
  dsimp only
  rw [if_neg (by simp [hscan]), if_neg (by omega)]

/-- The state with these requests pending. -/
def withRequests (s : State) (l : List HoldReq) : State := { s with sht := { s.sht with holdReqs := l } }

theorem only_withRequests {ps : List Part} (h : .sht ∈ ps) (l : List HoldReq) : Only ps s (withRequests s l) := only_sht h _

@[simp] theorem fv_withRequests (l : List HoldReq) (f : Fld) (i : Nat) : (withRequests s l).fv f i = s.fv f i := rfl

@[simp] theorem on_withRequests (l : List HoldReq) (f : Fld) (i : Nat) : (withRequests s l).on f i = s.on f i := rfl

theorem onlyRegs_withRequests (rs : List (RegName × Nat)) (l : List HoldReq) : OnlyRegs rs s (withRequests s l) := onlyRegs_of_regs_eq rfl

theorem requestHold_eq (line cause dur : Nat) (cmd : Option CmdRef) (abrupt : Bool) (strip : Option (Fin 4)) :
    s.requestHold line cause cmd dur abrupt strip = (withRequests s (s.sht.holdReqs ++
      [⟨s.effectiveBoundary line abrupt, if line = 0 then s.nextBoundary else line, cause, cmd, dur, abrupt, strip⟩])).checkBoundary := rfl

/-- A request for a line that the job has not come to waits. -/
theorem requestHold_waits {line cause dur : Nat} {cmd : Option CmdRef} {abrupt : Bool} {strip : Option (Fin 4)} (hjob : s.job = some j)
    (habort : j.abortAt = none) (hlen : j.fired < j.length) (hscan : s.scanning = false) (hnext : s.nextBoundary ≤ line)
    (hfired : j.fired < line) (hreqs : s.sht.holdReqs = []) :
    s.requestHold line cause cmd dur abrupt strip = withRequests s [⟨line, line, cause, cmd, dur, abrupt, strip⟩] := by
  have hline : line ≠ 0 := by omega
  rw [requestHold_eq, effectiveBoundary_of_le hscan hline hnext, if_neg hline, hreqs, List.nil_append]
  refine checkBoundary_stays (s := withRequests s _) hjob habort hlen fun r hr => ?_
  obtain rfl := List.mem_singleton.mp hr
  exact hfired

end Boundaries

/-! ## Repeated fetches (R147) -/

section Refetch

/-- The fetch that a RESUME has made once more for a partition. -/
def refetchOf (s : State) (p : Fin 4) : List Out :=
  if s.job.isSome ∧ ¬ s.hostFed ∧ s.printPart p ∧ s.on F.ENL_STATUS_HALTED p ∧ 3 ≤ (s.enl[p]).attempts then
    [.refetch p.val (s.fv F.ENL_STATUS_ERR_LINE p)]
  else []

/-- The fetches that a RESUME has made once more, the last one first. -/
def refetches (s : State) : List Out := (List.finRange 4).reverse.flatMap (refetchOf s)

/-- A RESUME's fetches are all that it brings by itself. -/
theorem refetchAgain_eq (s : State) : s.refetchAgain = { s with out := refetches s ++ s.out } := by
  have hfold (l : List (Fin 4)) (o : List Out) : l.foldl (fun (t : State) p =>
      if t.job.isSome ∧ ¬ t.hostFed ∧ t.printPart p ∧ t.on F.ENL_STATUS_HALTED p ∧ 3 ≤ (t.enl[p]).attempts then
        t.emit (.refetch p.val (t.fv F.ENL_STATUS_ERR_LINE p))
      else t) { s with out := o } = { s with out := l.reverse.flatMap (refetchOf s) ++ o } := by
    induction l generalizing o with
    | nil => rfl
    | cons p l ih =>
      have hstep : (if s.job.isSome ∧ ¬ s.hostFed ∧ s.printPart p ∧ s.on F.ENL_STATUS_HALTED p ∧ 3 ≤ (s.enl[p]).attempts then
          ({ s with out := o } : State).emit (.refetch p.val (s.fv F.ENL_STATUS_ERR_LINE p))
        else { s with out := o }) = { s with out := refetchOf s p ++ o } := by
        unfold refetchOf
        split <;> rfl
      rw [List.foldl_cons, List.reverse_cons, List.flatMap_append, List.flatMap_singleton, List.append_assoc, ← ih, ← hstep]
      rfl
  exact hfold (List.finRange 4) s.out

variable {s t : State}

theorem only_refetchAgain {ps : List Part} (h : .out ∈ ps) : Only ps s s.refetchAgain := by
  rw [refetchAgain_eq]
  exact only_out h _

theorem refetchAgain_regs : s.refetchAgain.regs = s.regs := by rw [refetchAgain_eq]

theorem refetchAgain_sht : s.refetchAgain.sht = s.sht := by rw [refetchAgain_eq]

theorem refetchAgain_mode : s.refetchAgain.mode = s.mode := by
  rw [refetchAgain_eq]
  rfl

theorem refetchAgain_mapFault : s.refetchAgain.mapFault = s.mapFault := by
  rw [refetchAgain_eq]
  rfl

theorem refetchAgain_printHalted : s.refetchAgain.printHalted = s.printHalted := by
  rw [refetchAgain_eq]
  rfl

theorem refetchAgain_heldBack (h : Held) : s.refetchAgain.heldBack h = s.heldBack h := by
  rw [refetchAgain_eq]
  rfl

/-- What is fetched again depends on the job, the Enlargers and the gang alone. -/
theorem RegsBut.refetches {rs : List RegName} (h : RegsBut rs s t) (henl : .ENL_STATUS ∉ rs) (hgang : .GRN_GANG ∉ rs) (hjob : t.job = s.job)
    (hpart : t.enl = s.enl) : refetches t = refetches s := by
  have hmode : t.gangMode = s.gangMode := h.fv (f := F.GRN_GANG_MODE) hgang (by decide)
  have hhalted (p : Fin 4) : t.on F.ENL_STATUS_HALTED p = s.on F.ENL_STATUS_HALTED p := h.on henl (by omega)
  have hline (p : Fin 4) : t.fv F.ENL_STATUS_ERR_LINE p = s.fv F.ENL_STATUS_ERR_LINE p := h.fv henl (by omega)
  have hfed : t.hostFed = s.hostFed := by simp only [State.hostFed, hjob]
  have hprint : t.printPart = s.printPart := funext fun p => by simp only [State.printPart, State.partsOf, hmode, hjob]
  have hone : refetchOf t = refetchOf s := funext fun p => by
    simp only [refetchOf, hfed, hprint, hhalted, hline, hjob, hpart]
  rw [Proofs.refetches, hone, ← Proofs.refetches]

end Refetch

/-! ## Withdrawn requests (R163) -/

section Withdraw

variable {s : State}

/-- Requests are answered with ABORTED, as far as a HOLD stands behind them. -/
def abortRequests (l : List HoldReq) (s : State) : State :=
  l.foldl (fun s r => match r.cmd with
    | some c => s.completeOpen c stABORTED
    | none => s) s

/-- A property that every completion with an open RESULT keeps. -/
theorem abortRequests_keeps {p : State → Prop} (hp : ∀ t c, p t → p (t.completeOpen c stABORTED)) (l : List HoldReq) (h : p s) :
    p (abortRequests l s) :=
  foldl_keeps l _ (fun t r ht => by
    split
    · exact hp t _ ht
    · exact ht) s h

/-- The requests of a cause above 1 stay, and REQ clears. -/
def requestsKept (s : State) : State :=
  ({ s with sht := { s.sht with holdReqs := s.sht.holdReqs.filter fun r => decide (1 < r.cause) } } : State).fset F.SHT_HOLD_REQ 0

theorem withdrawHolds_eq (s : State) :
    s.withdrawHolds.2 = abortRequests (s.sht.holdReqs.filter fun r => decide (r.cause ≤ 1)) (requestsKept s) := by
  have hkept : (fun r : HoldReq => decide (¬ r.cause ≤ 1)) = fun r => decide (1 < r.cause) := by simp only [not_le]
  simp only [State.withdrawHolds, hkept]
  rfl

/-- RESUME in Print leaves the requests of a cause above 1, and clears REQ. -/
theorem withdrawHolds_spec : s.withdrawHolds.2.sht = { s.sht with holdReqs := s.sht.holdReqs.filter fun r => decide (1 < r.cause) } ∧
    s.withdrawHolds.2.on F.SHT_HOLD_REQ = false ∧ RegsBut (.SHT_HOLD :: told) s s.withdrawHolds.2 ∧
    Only [.sht, .hst, .regs, .out, .free] s s.withdrawHolds.2 := by
  rw [withdrawHolds_eq]
  generalize s.sht.holdReqs.filter (fun r => decide (r.cause ≤ 1)) = l
  have hregs : RegsBut told (requestsKept s) (abortRequests l (requestsKept s)) :=
    abortRequests_keeps (fun t c ht => regsBut_trans ht (regsBut_completeOpen c _)) l (regsBut_refl _ _)
  have hkept : RegsBut [.SHT_HOLD] s (requestsKept s) :=
    regsBut_trans (regsBut_of_regs rfl) (regsBut_fset (f := F.SHT_HOLD_REQ) (by decide) (by decide : 0 < 1024) 0)
  have honly : Only [.sht, .hst, .regs, .out, .free] s (requestsKept s) :=
    (only_fset (by decide) F.SHT_HOLD_REQ 0 0).mpr (only_sht (by decide) _)
  refine ⟨?_, ?_, regsBut_trans (regsBut_mono hkept (by decide)) (regsBut_mono hregs (by decide)), ?_⟩
  · exact abortRequests_keeps (p := fun t => t.sht = (requestsKept s).sht) (fun t c ht => (State.completeOpen_sht t c _).trans ht) l rfl
  · rw [hregs.on (by decide) (by decide)]
    exact on_fset_one _ F.SHT_HOLD_REQ 0 0 rfl (by decide)
  · exact abortRequests_keeps (fun t c ht => (only_completeOpen (by decide) (by decide) (by decide) (by decide) c _).mpr ht) l honly

end Withdraw

/-! ## RESUME by the register (R147, R155, R163, R348) -/

section ResumeReg

variable {s : State} {h : Held}

theorem resumeReg_print (hmode : s.mode = 4) : s.resumeReg = s.refetchAgain.withdrawHolds.2 := by
  unfold State.resumeReg
  simp only [refetchAgain_mode]
  exact if_pos hmode

theorem resumeReg_barred (hmode : s.mode ≠ 4) (hheld : s.sht.held = some h) (hbar : s.mapFault ≠ none ∨ s.printHalted = true) :
    s.resumeReg = s.refetchAgain := by
  unfold State.resumeReg
  simp only [refetchAgain_mode, refetchAgain_sht, hheld, refetchAgain_mapFault, refetchAgain_printHalted]
  rw [if_neg hmode, if_pos (hbar.imp_left Option.isSome_iff_ne_none.mpr)]

theorem resumeReg_ends (hmode : s.mode ≠ 4) (hheld : s.sht.held = some h) (hmap : s.mapFault = none) (hhalt : s.printHalted = false)
    (hback : s.heldBack h = false) : s.resumeReg = s.refetchAgain.endHold [] := by
  unfold State.resumeReg
  simp only [refetchAgain_mode, refetchAgain_sht, hheld, refetchAgain_mapFault, refetchAgain_printHalted, refetchAgain_heldBack]
  rw [if_neg hmode, if_neg (by simp [hmap, hhalt]), if_pos (by simp [hback])]

theorem resumeReg_waits (hmode : s.mode ≠ 4) (hheld : s.sht.held = some h) (hmap : s.mapFault = none) (hhalt : s.printHalted = false)
    (hback : s.heldBack h = true) : s.resumeReg =
      { s.refetchAgain.fset F.SHT_HOLD_RESUME 1 with sht := { s.sht with held := some { h with endWaits := true } } } := by
  unfold State.resumeReg
  simp only [refetchAgain_mode, refetchAgain_sht, hheld, refetchAgain_mapFault, refetchAgain_printHalted, refetchAgain_heldBack]
  rw [if_neg hmode, if_neg (by simp [hmap, hhalt]), if_neg (by simp [hback])]

end ResumeReg

/-! ## Writes of SHT_HOLD (R167) -/

section HoldWrites

variable {s : State} {v : DWord} {h : Held}

/-- A write stores ABRUPT and AT_LINE. -/
def holdStored (s : State) (v : DWord) : State :=
  (s.fset F.SHT_HOLD_ABRUPT (wField v F.SHT_HOLD_ABRUPT)).fset F.SHT_HOLD_AT_LINE (wField v F.SHT_HOLD_AT_LINE)

/-- REQ in Print registers a request; in Hold AT_LINE takes the present boundary. -/
def holdAsked (s : State) (v : DWord) : State :=
  match s.sht.held with
  | some h => s.fset F.SHT_HOLD_AT_LINE h.b
  | none => (s.fset F.SHT_HOLD_REQ 1).requestHold (wField v F.SHT_HOLD_AT_LINE) 0 none 0 (decide (wField v F.SHT_HOLD_ABRUPT = 1)) none

/-- What REQ does to the state with the stored fields. -/
def holdJudged (s : State) (v : DWord) : State :=
  if wField v F.SHT_HOLD_REQ = 0 ∨ ¬ (holdStored s v).printing then holdStored s v else holdAsked (holdStored s v) v

theorem writeHold_eq (s : State) (v : DWord) :
    s.writeHold v = if wField v F.SHT_HOLD_RESUME = 0 then holdJudged s v else (holdJudged s v).resumeReg := rfl

theorem only_holdStored {ps : List Part} (h : .regs ∈ ps) : Only ps s (holdStored s v) :=
  (only_fset h _ _ _).mpr ((only_fset h _ _ _).mpr (only_refl ps s))

theorem onlyRegs_holdStored : OnlyRegs [(.SHT_HOLD, 0)] s (holdStored s v) :=
  (onlyRegs_fset (by decide) (by decide) _).mpr ((onlyRegs_fset (by decide) (by decide) _).mpr (onlyRegs_refl _ s))

theorem regsBut_holdStored : RegsBut [.SHT_HOLD] s (holdStored s v) := regsBut_of_onlyRegs onlyRegs_holdStored (by decide)

theorem holdStored_printing : (holdStored s v).printing = s.printing := by
  rw [State.printing, regsBut_holdStored.mode (by decide), ← State.printing]

theorem holdStored_req : (holdStored s v).on F.SHT_HOLD_REQ = s.on F.SHT_HOLD_REQ := by
  rw [State.on, holdStored, fv_fset_apart _ _ (by decide) (by decide) (by decide), fv_fset_apart _ _ (by decide) (by decide) (by decide),
    ← State.on]

theorem holdJudged_stored (h : v.getLsbD 63 = false ∨ s.printing = false) : holdJudged s v = holdStored s v := by
  refine if_pos (h.imp (fun hreq => ?_) fun hprint => ?_)
  · exact (getBits_one v 63).trans (by rw [hreq]; rfl)
  · simp [holdStored_printing, hprint]

theorem holdJudged_asked (hreq : v.getLsbD 63 = true) (hprint : s.printing = true) : holdJudged s v = holdAsked (holdStored s v) v := by
  have hone : wField v F.SHT_HOLD_REQ = 1 := (getBits_one v 63).trans (by rw [hreq]; rfl)
  exact if_neg (by simp [hone, holdStored_printing, hprint])

theorem writeHold_judged (hres : v.getLsbD 60 = false) : s.writeHold v = holdJudged s v :=
  if_pos ((getBits_one v 60).trans (by rw [hres]; rfl))

theorem writeHold_resumes (hreq : v.getLsbD 63 = false) (hres : v.getLsbD 60 = true) : s.writeHold v = (holdStored s v).resumeReg := by
  have hone : wField v F.SHT_HOLD_RESUME = 1 := (getBits_one v 60).trans (by rw [hres]; rfl)
  rw [writeHold_eq, if_neg (by rw [hone]; decide), holdJudged_stored (.inl hreq)]

theorem holdAsked_held (hheld : s.sht.held = some h) : holdAsked s v = s.fset F.SHT_HOLD_AT_LINE h.b := by rw [holdAsked, hheld]

theorem holdAsked_none (hheld : s.sht.held = none) : holdAsked s v =
    (s.fset F.SHT_HOLD_REQ 1).requestHold (wField v F.SHT_HOLD_AT_LINE) 0 none 0 (decide (wField v F.SHT_HOLD_ABRUPT = 1)) none := by
  rw [holdAsked, hheld]

end HoldWrites

/-! ## The two commands that write SHT_HOLD -/

section HoldCommands

variable {s : State} {a : Agent} {v : DWord} {c : Instr} {h : Held}

/-- The state in which a permitted write has stored its fields and released the register's latch. -/
def holdWritten (s : State) (v : DWord) : State := holdStored (s.unlatch .SHT_HOLD 0) v

theorem only_holdWritten {ps : List Part} (hr : .regs ∈ ps) (hl : .latches ∈ ps) : Only ps s (holdWritten s v) :=
  only_trans ((only_unlatch hl .SHT_HOLD 0).mpr (only_refl ps s)) (only_holdStored hr)

theorem onlyRegs_holdWritten : OnlyRegs [(.SHT_HOLD, 0)] s (holdWritten s v) :=
  onlyRegs_trans ((onlyRegs_unlatch .SHT_HOLD 0).mpr (onlyRegs_refl _ s)) onlyRegs_holdStored

theorem regsBut_holdWritten : RegsBut [.SHT_HOLD] s (holdWritten s v) := regsBut_of_onlyRegs onlyRegs_holdWritten (by decide)

theorem holdWritten_mode : (holdWritten s v).mode = s.mode := regsBut_holdWritten.mode (by decide)

theorem holdWritten_mapFault : (holdWritten s v).mapFault = s.mapFault := regsBut_holdWritten.mapFault (by decide) rfl

theorem refetchAgain_holdWritten_out : (holdWritten s v).refetchAgain.out = s.refetchAgain.out := by
  rw [refetchAgain_eq, refetchAgain_eq, regsBut_holdWritten.refetches (by decide) (by decide) rfl rfl]
  rfl

theorem only_refetchAgain_holdWritten {ps : List Part} (hr : .regs ∈ ps) (hl : .latches ∈ ps) (ho : .out ∈ ps) :
    Only ps s (holdWritten s v).refetchAgain := only_trans (only_holdWritten hr hl) (only_refetchAgain ho)

theorem holdWritten_req : (holdWritten s v).on F.SHT_HOLD_REQ = s.on F.SHT_HOLD_REQ := holdStored_req

/-- The same with REQ set: a request is about to be registered. -/
def holdAsking (s : State) (v : DWord) : State := (holdWritten s v).fset F.SHT_HOLD_REQ 1

theorem onlyRegs_holdAsking : OnlyRegs [(.SHT_HOLD, 0)] s (holdAsking s v) :=
  (onlyRegs_fset (by decide) (by decide) _).mpr onlyRegs_holdWritten

theorem only_holdAsking {ps : List Part} (hr : .regs ∈ ps) (hl : .latches ∈ ps) : Only ps s (holdAsking s v) :=
  (only_fset hr _ _ _).mpr (only_holdWritten hr hl)

theorem holdAsking_req : (holdAsking s v).on F.SHT_HOLD_REQ = true := on_fset_one (holdWritten s v) F.SHT_HOLD_REQ 1 0 rfl (by decide)

theorem holdAsking_line : (holdAsking s v).fv F.SHT_HOLD_AT_LINE = wField v F.SHT_HOLD_AT_LINE := by
  rw [holdAsking, fv_fset_apart _ _ (by decide) (by decide) (by decide), holdWritten, holdStored, fv_fset_same _ _ _ _ (by decide)]
  exact Nat.mod_eq_of_lt (getBits_lt v 0 32)

theorem holdAsking_abrupt : (holdAsking s v).on F.SHT_HOLD_ABRUPT = v.getLsbD 62 := by
  have hbit : wField v F.SHT_HOLD_ABRUPT = (v.getLsbD 62).toNat := getBits_one v 62
  rw [State.on, holdAsking, fv_fset_apart _ _ (by decide) (by decide) (by decide), holdWritten, holdStored,
    fv_fset_apart _ _ (by decide) (by decide) (by decide), fv_fset_same _ _ _ _ (by decide), hbit]
  cases v.getLsbD 62 <;> rfl

variable (hp : Permits s a .SHT_HOLD 0) (hc : c = .holdReqWrite a v ∨ c = .holdResumeWrite a v)

include hp hc

theorem does_writeHold {u : State} (hu : (s.unlatch .SHT_HOLD 0).writeHold v = u) : Does c s u := by
  obtain ⟨hreaches, hmay⟩ := hp
  have hexec : exec c s = s.effect fun s => s.guarded a .SHT_HOLD 0 fun s => s.writeHold v := by
    obtain rfl | rfl := hc <;> rfl
  rw [Does, hexec, effect_eq, guarded_act _ hreaches hmay, hu]
  rfl

/-- Outside Print and Hold a REQ is ignored. -/
theorem hold_ignored (hres : v.getLsbD 60 = false) (h4 : s.mode ≠ 4) (h5 : s.mode ≠ 5) : Answers c s fun t =>
    t.on F.SHT_HOLD_REQ = s.on F.SHT_HOLD_REQ ∧ t.sht = s.sht ∧ RegsOnly [(.SHT_HOLD, 0)] s t := by
  have hprint : (s.unlatch .SHT_HOLD 0).printing = false := decide_eq_false (not_or.mpr ⟨h4, h5⟩)
  exact answers_of_does (does_writeHold hp hc ((writeHold_judged hres).trans (holdJudged_stored (.inr hprint))))
    (only_holdWritten (ps := [.regs, .latches]) (by decide) (by decide))
    ⟨holdWritten_req, rfl, only_holdWritten (by decide) (by decide), onlyRegs_holdWritten⟩

/-- A REQ in Hold takes the present boundary. -/
theorem hold_takes_boundary (hreq : v.getLsbD 63 = true) (hres : v.getLsbD 60 = false) (hmode : s.mode = 5) (hheld : s.sht.held = some h)
    (hb : h.b < 2 ^ 32) : Answers c s fun t =>
      t.fv F.SHT_HOLD_AT_LINE = h.b ∧ t.on F.SHT_HOLD_REQ = s.on F.SHT_HOLD_REQ ∧ t.sht = s.sht ∧ RegsOnly [(.SHT_HOLD, 0)] s t := by
  have hprint : (s.unlatch .SHT_HOLD 0).printing = true := decide_eq_true (.inr hmode)
  have hu : (s.unlatch .SHT_HOLD 0).writeHold v = (holdWritten s v).fset F.SHT_HOLD_AT_LINE h.b :=
    (writeHold_judged hres).trans ((holdJudged_asked hreq hprint).trans (holdAsked_held hheld))
  have honly : Only [.regs, .latches] s ((holdWritten s v).fset F.SHT_HOLD_AT_LINE h.b) :=
    (only_fset (by decide) _ _ _).mpr (only_holdWritten (by decide) (by decide))
  refine answers_of_does (does_writeHold hp hc hu) honly ⟨?_, ?_, rfl, honly, ?_⟩
  · exact (fv_fset_same _ F.SHT_HOLD_AT_LINE _ 0 (by decide)).trans (Nat.mod_eq_of_lt hb)
  · rw [State.on, fv_fset_apart _ _ (by decide) (by decide) (by decide)]
    exact holdWritten_req
  · exact (onlyRegs_fset (by decide) (by decide) _).mpr onlyRegs_holdWritten

/-- A REQ in Print, for a line that the job has not come to, registers a request at it. -/
theorem hold_requests {j : Job} (hreq : v.getLsbD 63 = true) (hres : v.getLsbD 60 = false) (hmode : s.mode = 4) (hheld : s.sht.held = none)
    (hreqs : s.sht.holdReqs = []) (hscan : s.scanning = false) (hjob : s.job = some j) (hlen : j.fired < j.length)
    (habort : j.abortAt = none) (hnext : s.nextBoundary ≤ v.toNat % 2 ^ 32) (hfired : j.fired < v.toNat % 2 ^ 32) : Answers c s fun t =>
      t.sht.holdReqs.map (fun r => (r.b, r.asked, r.cause, r.strip, r.cmd)) = [(v.toNat % 2 ^ 32, v.toNat % 2 ^ 32, 0, none, none)] ∧
      t.on F.SHT_HOLD_REQ = true ∧ t.fv F.SHT_HOLD_AT_LINE = v.toNat % 2 ^ 32 ∧ t.on F.SHT_HOLD_ABRUPT = v.getLsbD 62 ∧
      Only [.sht, .regs, .latches] s t ∧ OnlyRegs [(.SHT_HOLD, 0)] s t := by
  have hprint : (s.unlatch .SHT_HOLD 0).printing = true := decide_eq_true (.inl hmode)
  have hline : wField v F.SHT_HOLD_AT_LINE = v.toNat % 2 ^ 32 := by rw [wField, getBits, Nat.pow_zero, Nat.div_one]
  have hbut : RegsBut [.SHT_HOLD] s (holdAsking s v) := regsBut_of_onlyRegs onlyRegs_holdAsking (by decide)
  rw [← hline] at hnext hfired ⊢
  have hasked : holdAsked (holdWritten s v) v = withRequests (holdAsking s v)
      [⟨wField v F.SHT_HOLD_AT_LINE, wField v F.SHT_HOLD_AT_LINE, 0, none, 0, decide (wField v F.SHT_HOLD_ABRUPT = 1), none⟩] :=
    (holdAsked_none (s := holdWritten s v) hheld).trans (requestHold_waits (s := holdAsking s v) hjob habort hlen
      ((hbut.scanning (by decide)).trans hscan) ((hbut.nextBoundary (by decide) rfl).trans_le hnext) hfired hreqs)
  have honly := only_trans (only_holdAsking (s := s) (v := v) (ps := [.sht, .regs, .latches]) (by decide) (by decide))
    (only_withRequests (by decide) [⟨wField v F.SHT_HOLD_AT_LINE, wField v F.SHT_HOLD_AT_LINE, 0, none, 0,
      decide (wField v F.SHT_HOLD_ABRUPT = 1), none⟩])
  have hu : (s.unlatch .SHT_HOLD 0).writeHold v = _ := (writeHold_judged hres).trans ((holdJudged_asked hreq hprint).trans hasked)
  exact answers_of_does (does_writeHold hp hc hu) honly ⟨rfl, (on_withRequests ..).trans holdAsking_req,
    (fv_withRequests ..).trans holdAsking_line, (on_withRequests ..).trans holdAsking_abrupt, honly,
    onlyRegs_trans onlyRegs_holdAsking (onlyRegs_withRequests _ _)⟩

section Resume

variable (hreq : v.getLsbD 63 = false) (hres : v.getLsbD 60 = true)

include hreq hres

/-- A RESUME that ends the Hold. -/
theorem hold_ends (hmode : s.mode = 5) (hheld : s.sht.held = some h) (hmap : s.mapFault = none) (hhalt : s.printHalted = false)
    (hback : s.heldBack h = false) : Does c s ((holdWritten s v).refetchAgain.endHold []) :=
  does_writeHold hp hc ((writeHold_resumes hreq hres).trans
    (resumeReg_ends (s := holdWritten s v) (by rw [holdWritten_mode, hmode]; decide) hheld (holdWritten_mapFault.trans hmap) hhalt hback))

/-- A RESUME that waits for a strip fault to be mended. -/
theorem hold_waits (hmode : s.mode = 5) (hheld : s.sht.held = some h) (hmap : s.mapFault = none) (hhalt : s.printHalted = false)
    (hback : s.heldBack h = true) : Answers c s fun t => t.on F.SHT_HOLD_RESUME = true ∧
      t.sht = { s.sht with held := some { h with endWaits := true } } ∧ t.out = s.refetchAgain.out ∧ Only [.sht, .regs, .latches, .out] s t := by
  have hwaits := resumeReg_waits (s := holdWritten s v) (by rw [holdWritten_mode, hmode]; decide) hheld
    (holdWritten_mapFault.trans hmap) hhalt hback
  have honly : Only [.sht, .regs, .latches, .out] s ((holdWritten s v).refetchAgain.fset F.SHT_HOLD_RESUME 1) :=
    (only_fset (by decide) _ _ _).mpr (only_refetchAgain_holdWritten (by decide) (by decide) (by decide))
  have hall := only_trans honly (only_sht (by decide) { s.sht with held := some { h with endWaits := true } })
  exact answers_of_does (does_writeHold hp hc ((writeHold_resumes hreq hres).trans hwaits)) hall
    ⟨on_fset_one (holdWritten s v).refetchAgain F.SHT_HOLD_RESUME 1 0 rfl (by decide), rfl, refetchAgain_holdWritten_out, hall⟩

/-- A RESUME that a fault of the map or a halted Developer bars. -/
theorem hold_barred (hmode : s.mode = 5) (hheld : s.sht.held = some h) (hbar : s.mapFault ≠ none ∨ s.printHalted = true) :
    Answers c s fun t => t.sht = s.sht ∧ t.out = s.refetchAgain.out ∧ Only [.regs, .latches, .out] s t ∧ OnlyRegs [(.SHT_HOLD, 0)] s t := by
  have hbarred := resumeReg_barred (s := holdWritten s v) (by rw [holdWritten_mode, hmode]; decide) hheld
    (hbar.imp_left fun hm => by rwa [holdWritten_mapFault])
  have honly : Only [.regs, .latches, .out] s (holdWritten s v).refetchAgain :=
    only_refetchAgain_holdWritten (by decide) (by decide) (by decide)
  exact answers_of_does (does_writeHold hp hc ((writeHold_resumes hreq hres).trans hbarred)) honly
    ⟨refetchAgain_sht, refetchAgain_holdWritten_out, honly,
      onlyRegs_trans onlyRegs_holdWritten (onlyRegs_of_regs_eq refetchAgain_regs)⟩

/-- A RESUME in Print withdraws the requests of cause 0 and 1. -/
theorem hold_withdraws (hmode : s.mode = 4) : Answers c s fun t =>
    t.sht.holdReqs = s.sht.holdReqs.filter (fun r => decide (1 < r.cause)) ∧ t.on F.SHT_HOLD_REQ = false ∧ t.mode = 4 := by
  obtain ⟨hsht, hclear, hregs, honly⟩ := withdrawHolds_spec (s := (holdWritten s v).refetchAgain)
  have hall : Only [.sht, .hst, .regs, .out, .free, .latches] s (holdWritten s v).refetchAgain.withdrawHolds.2 :=
    only_trans (only_refetchAgain_holdWritten (by decide) (by decide) (by decide)) (only_mono honly (by decide))
  refine answers_of_does (does_writeHold hp hc ((writeHold_resumes hreq hres).trans
    (resumeReg_print (s := holdWritten s v) (holdWritten_mode.trans hmode)))) hall ⟨?_, hclear, ?_⟩
  · rw [hsht, refetchAgain_sht]
    rfl
  · rw [hregs.mode (by decide), refetchAgain_mode, holdWritten_mode, hmode]

end Resume

end HoldCommands

end Sys2Proof.Proofs
end

section
/-!
SUPPORT. O28: the end of a Hold's timer, the writes of the Nozzle Map and the arming of a swath (R154, R155, R161, R163), and the proof.
-/

namespace Sys2Proof.Proofs

open Sys2Proof.Machine Sys2Proof.Claims

/-! ## The timer of a Hold (R163) -/

section Timer

variable {s : State} {h : Held}

/-- The state in which the Hold's timer has ended. -/
def timerOver (s : State) (h : Held) : State := { s with sht := { s.sht with held := some { h with timer := none } } }

/-- What the end of a running timer does. -/
def timerActs (s : State) (h : Held) : State :=
  if (timerOver s h).mapFault.isSome ∨ (timerOver s h).printHalted then timerOver s h
  else if ¬ (timerOver s h).heldBack h then (timerOver s h).endHold []
  else { s with sht := { s.sht with held := some { h with timer := none, endWaits := true } } }

theorem exec_timer (hheld : s.sht.held = some h) (htimer : h.timer ≠ none) :
    exec .holdTimerExpiry s = .next (settle s (timerActs s h)) := by
  show execHoldTimerExpiry s = _
  rw [execHoldTimerExpiry, effect_eq]
  simp only [hheld]
  rw [if_neg (by simpa using htimer)]
  rfl

theorem exec_timer_none (hheld : s.sht.held = none) : exec .holdTimerExpiry s = .next s := by
  show execHoldTimerExpiry s = _
  rw [execHoldTimerExpiry, effect_eq]
  simp only [hheld]

theorem exec_timer_untimed (hheld : s.sht.held = some h) (htimer : h.timer = none) : exec .holdTimerExpiry s = .next s := by
  show execHoldTimerExpiry s = _
  rw [execHoldTimerExpiry, effect_eq]
  simp only [hheld]
  rw [if_pos (by simp [htimer])]

theorem timerActs_barred (hbar : s.mapFault ≠ none ∨ s.printHalted = true) : timerActs s h = timerOver s h :=
  if_pos (hbar.imp_left Option.isSome_iff_ne_none.mpr)

theorem timerActs_free (hmap : s.mapFault = none) (hhalt : s.printHalted = false) : timerActs s h =
    if ¬ s.heldBack h then (timerOver s h).endHold []
    else { s with sht := { s.sht with held := some { h with timer := none, endWaits := true } } } := by
  have hmap' : (timerOver s h).mapFault = none := hmap
  have hhalt' : (timerOver s h).printHalted = false := hhalt
  exact if_neg (by simp [hmap', hhalt'])

end Timer

/-! ## The Nozzle Map (R154, R155) -/

section NozzleMap

variable {s : State} {a : Agent} {v : BitVec 32}

theorem nmapOpen_iff : s.nmapOpen = true ↔ s.mode = 3 ∨ s.mode = 5 ∨ s.mode = 6 ∨ s.mode = 7 ∨ s.mode = 11 := by
  simp [State.nmapOpen]

/-- The state in which the entry at IDX has taken a value. -/
def nozzleStored (s : State) (v : BitVec 32) : State :=
  (s.setReg .SHT_NMAP_DATA (v.setWidth 64 &&& 0xFFFFFFFF)).setNozzle (s.fv F.SHT_NMAP_IDX_IDX) ((v.setWidth 64).setWidth 32)

/-- IDX advances with INC. -/
def nozzleStepped (s : State) (v : BitVec 32) : State :=
  if s.on F.SHT_NMAP_IDX_INC then (nozzleStored s v).fset F.SHT_NMAP_IDX_IDX (s.fv F.SHT_NMAP_IDX_IDX + 1) else nozzleStored s v

theorem on_inc_nozzleStored : (nozzleStored s v).on F.SHT_NMAP_IDX_INC = s.on F.SHT_NMAP_IDX_INC :=
  congrArg (fun n => decide (n ≠ 0)) (fv_setReg_other s (g := F.SHT_NMAP_IDX_INC) (i := 0) (j := 0)
    (v.setWidth 64 &&& 0xFFFFFFFF) (by decide) (by decide) (by decide : RegName.SHT_NMAP_DATA ≠ _))

theorem fv_idx_nozzleStored : (nozzleStored s v).fv F.SHT_NMAP_IDX_IDX = s.fv F.SHT_NMAP_IDX_IDX :=
  fv_setReg_other s (g := F.SHT_NMAP_IDX_IDX) (i := 0) (j := 0) (v.setWidth 64 &&& 0xFFFFFFFF) (by decide) (by decide)
    (by decide : RegName.SHT_NMAP_DATA ≠ _)

theorem writeNmap_open (hopen : s.nmapOpen = true) : s.writeNmap (v.setWidth 64) = nozzleStepped s v := by
  rw [nozzleStepped, ← on_inc_nozzleStored (v := v)]
  exact if_pos hopen

theorem does_nozzleMapWrite (hp : Permits s a .SHT_NMAP_DATA 0) :
    Does (.nozzleMapWrite a v) s ((s.unlatch .SHT_NMAP_DATA 0).writeNmap (v.setWidth 64)) := by
  obtain ⟨hreaches, hmay⟩ := hp
  show s.effect (fun s => s.guarded a .SHT_NMAP_DATA 0 fun s => s.writeNmap (v.setWidth 64)) = _
  rw [effect_eq, guarded_act _ hreaches hmay]
  rfl

theorem only_nozzleStepped : Only [.mems, .regs] s (nozzleStepped s v) := by
  have hstored : Only [.mems, .regs] s (nozzleStored s v) :=
    only_trans ((only_setReg (by decide) _ _ _).mpr (only_refl _ s)) (only_mems (by decide) _)
  unfold nozzleStepped
  split
  · exact (only_fset (by decide) _ _ _).mpr hstored
  · exact hstored

theorem onlyRegs_nozzleStepped : OnlyRegs [(.SHT_NMAP_DATA, 0), (.SHT_NMAP_IDX, 0)] s (nozzleStepped s v) := by
  have hstored : OnlyRegs [(.SHT_NMAP_DATA, 0), (.SHT_NMAP_IDX, 0)] s (nozzleStored s v) :=
    onlyRegs_trans ((onlyRegs_setReg (by decide) (by decide) _).mpr (onlyRegs_refl _ s)) (onlyRegs_of_regs_eq rfl)
  unfold nozzleStepped
  split
  · exact (onlyRegs_fset (by decide) (by decide) _).mpr hstored
  · exact hstored

theorem nozzleStepped_mems : (nozzleStepped s v).mems =
    { s.mems with nmap := smSet (fun _ => 0) s.mems.nmap (s.fv F.SHT_NMAP_IDX_IDX) v } := by
  have hv : (v.setWidth 64).setWidth 32 = v := by simp
  have hstored : (nozzleStored s v).mems = { s.mems with nmap := smSet (fun _ => 0) s.mems.nmap (s.fv F.SHT_NMAP_IDX_IDX) v } := by
    rw [nozzleStored, hv]
    rfl
  unfold nozzleStepped
  split
  · exact hstored
  · exact hstored

theorem nozzleStepped_idx : (nozzleStepped s v).fv F.SHT_NMAP_IDX_IDX =
    if s.on F.SHT_NMAP_IDX_INC then (s.fv F.SHT_NMAP_IDX_IDX + 1) % 2 ^ 19 else s.fv F.SHT_NMAP_IDX_IDX := by
  unfold nozzleStepped
  split
  · exact fv_fset_same _ _ _ _ (by decide)
  · exact fv_idx_nozzleStored

/-- Outside the modes that write the map, a write is ignored. -/
theorem nozzleMapWrite_ignored (hp : Permits s a .SHT_NMAP_DATA 0) (hopen : s.nmapOpen = false) :
    Answers (.nozzleMapWrite a v) s (Ignored s) := by
  have hshut : ¬ (s.unlatch .SHT_NMAP_DATA 0).nmapOpen = true := by simp [show (s.unlatch .SHT_NMAP_DATA 0).nmapOpen = false from hopen]
  have hsame : (s.unlatch .SHT_NMAP_DATA 0).writeNmap (v.setWidth 64) = s.unlatch .SHT_NMAP_DATA 0 := if_neg hshut
  have honly : Only [.latches] s (s.unlatch .SHT_NMAP_DATA 0) := (only_unlatch (by decide) _ _).mpr (only_refl _ s)
  exact answers_of_does (hsame ▸ does_nozzleMapWrite hp) honly honly

/-- In the modes that write the map, the entry at IDX takes the value. -/
theorem nozzleMapWrite_stores (hp : Permits s a .SHT_NMAP_DATA 0) (hopen : s.nmapOpen = true) :
    let i := s.fv F.SHT_NMAP_IDX_IDX
    Answers (.nozzleMapWrite a v) s fun t =>
      smGet (fun _ => (0 : BitVec 32)) t.mems.nmap i = v ∧
      (∀ k, k ≠ i → smGet (fun _ => (0 : BitVec 32)) t.mems.nmap k = smGet (fun _ => (0 : BitVec 32)) s.mems.nmap k) ∧
      t.mems = (let m := s.mems; { m with nmap := t.mems.nmap }) ∧
      t.fv F.SHT_NMAP_IDX_IDX = (if s.on F.SHT_NMAP_IDX_INC then (i + 1) % 2 ^ 19 else i) ∧
      Only [.mems, .regs, .latches] s t ∧ OnlyRegs [(.SHT_NMAP_DATA, 0), (.SHT_NMAP_IDX, 0)] s t := by
  intro i
  set u := s.unlatch .SHT_NMAP_DATA 0 with hu
  have hdoes : Does (.nozzleMapWrite a v) s (nozzleStepped u v) :=
    writeNmap_open (s := u) (v := v) hopen ▸ does_nozzleMapWrite hp
  have honly : Only [.mems, .regs, .latches] s (nozzleStepped u v) :=
    only_trans ((only_unlatch (by decide) _ _).mpr (only_refl _ s)) (only_mono only_nozzleStepped (by decide))
  have hmems : (nozzleStepped u v).mems = { s.mems with nmap := smSet (fun _ => 0) s.mems.nmap i v } := nozzleStepped_mems
  have hregs : OnlyRegs [(.SHT_NMAP_DATA, 0), (.SHT_NMAP_IDX, 0)] s (nozzleStepped u v) :=
    onlyRegs_trans (onlyRegs_of_regs_eq rfl) onlyRegs_nozzleStepped
  refine answers_of_does hdoes honly ⟨?_, fun k hk => ?_, ?_, nozzleStepped_idx, honly, hregs⟩
  · rw [hmems]
    exact smGet_set_same _ _ _ _
  · rw [hmems]
    exact smGet_set_ne _ _ _ hk.symm
  · rw [hmems]

end NozzleMap

/-! ## Swaths (R161) -/

section Swaths

variable {s : State} {j : Job}

/-- The state in which the next swath is armed. -/
def swathNext (s : State) : State := { s with sht := { s.sht with high := -1, swath := { number := s.sht.swath.number + 1, armed := true } } }

/-- The conditions under which the next swath arms. -/
def swathReady (s : State) (j : Job) : Prop :=
  s.printing ∧ s.scanning ∧ s.swathLen ≠ 0 ∧ (s.sht.swath.number + 1) * s.swathLen ≤ j.fired ∧
    (s.sht.swath.number + 1) * s.swathLen < j.length ∧ (swathNext s).beforeSwath ∧
    (¬ s.on F.SHT_SWATH_GATE_EN ∨ s.dinActive (s.fv F.SHT_SWATH_GATE_IN))

theorem swathArm_waits (hjob : s.job = some j) (hready : ¬ swathReady s j) : exec .swathArm s = .next s := by
  refine exec_eq_self (show execSwathArm s = s.effect _ from rfl) ?_
  simp only [hjob]
  exact if_neg hready

theorem swathArm_arms (hjob : s.job = some j) (hready : swathReady s j) : Does .swathArm s (swathNext s) := by
  show execSwathArm s = _
  rw [execSwathArm, effect_eq]
  split
  · next hnone => simp [hjob] at hnone
  · next k hk =>
    obtain rfl : j = k := Option.some.inj (hjob.symm.trans hk)
    dsimp only
    rw [if_pos (by exact hready)]
    rfl

theorem swathArm_jobless (hjob : s.job = none) : exec .swathArm s = .next s := by
  refine exec_eq_self (show execSwathArm s = s.effect _ from rfl) ?_
  simp only [hjob]

/-- A carriage at a negative position stands before a forward swath. -/
theorem beforeSwath_of_neg (hmode : s.fv F.SHT_SWATH_MODE = 1) (hpos : s.linepos < 0) : (swathNext s).beforeSwath = true := by
  have hfield : (swathNext s).fv F.SHT_SWATH_MODE = 1 := hmode
  have hforward : (swathNext s).reverseSwath (swathNext s).sht.swath.number = false := by simp [State.reverseSwath, hfield]
  have hindex : (swathNext s).posIndex s.linepos = s.linepos.fdiv (2 ^ 32) := if_neg (by simp [hforward])
  refine decide_eq_true ?_
  show (swathNext s).posIndex s.linepos < 0
  rw [hindex, Int.fdiv_eq_ediv_of_nonneg _ (by decide)]
  exact Int.ediv_neg_of_neg_of_pos hpos (by decide)

end Swaths

/-! ## The obligation -/

/-- The fields that a write of SHT_HOLD stores, as the statement writes them. -/
theorem holdWritten_eq (s : State) (v : DWord) : holdWritten s v =
    ((s.unlatch .SHT_HOLD 0).fset F.SHT_HOLD_ABRUPT (v.extractLsb' 62 1).toNat).fset F.SHT_HOLD_AT_LINE (v.toNat % 2 ^ 32) := by
  have habrupt : wField v F.SHT_HOLD_ABRUPT = (v.extractLsb' 62 1).toNat := getBits_eq_extract v 62 1
  have hline : wField v F.SHT_HOLD_AT_LINE = v.toNat % 2 ^ 32 := by rw [wField, getBits, Nat.pow_zero, Nat.div_one]
  rw [holdWritten, holdStored, habrupt, hline]

/-- Settles O28: each write of SHT_HOLD by the mode and its two bits, the timer's end, the Nozzle Map's write and the swath's arming. -/
theorem holdAndNozzleMap : Obligations.HoldAndNozzleMap := by
  unfold Obligations.HoldAndNozzleMap
  refine ⟨⟨fun s a v c hp hc => ?_, fun s => ?_⟩, fun s a v hp => ?_, fun s => ?_⟩
  · refine ⟨fun _ hres h4 h5 => hold_ignored hp hc hres h4 h5,
      fun h hreq hres hmode hheld hb => hold_takes_boundary hp hc hreq hres hmode hheld hb,
      fun j hreq hres hmode hheld hreqs hscan hjob _ hlen habort hnext hfired =>
        hold_requests hp hc hreq hres hmode hheld hreqs hscan hjob hlen habort hnext hfired,
      fun h hreq hres hmode hheld hmap hhalt => ⟨fun hback => ?_, fun hback =>
        hold_waits hp hc hreq hres hmode hheld hmap hhalt hback⟩,
      fun h hreq hres hmode hheld hbar => hold_barred hp hc hreq hres hmode hheld hbar,
      fun hreq hres hmode => hold_withdraws hp hc hreq hres hmode⟩
    rw [← holdWritten_eq]
    exact hold_ends hp hc hreq hres hmode hheld hmap hhalt hback
  · refine ⟨exec_timer_none, fun h hheld htimer => exec_timer_untimed hheld htimer, fun h hheld htimer => ?_⟩
    have hexec := exec_timer hheld htimer
    refine ⟨fun hbar => ?_, fun hmap hhalt hback => ?_, fun hmap hhalt hback => ?_⟩
    · rw [hexec, timerActs_barred hbar]
      rfl
    · rw [hexec, timerActs_free hmap hhalt, if_pos (by simp [hback])]
      rfl
    · rw [hexec, timerActs_free hmap hhalt, if_neg (by simp [hback])]
      rfl
  · rw [← nmapOpen_iff]
    exact ⟨fun hopen => nozzleMapWrite_ignored hp (Bool.eq_false_iff.mpr hopen), fun hopen => nozzleMapWrite_stores hp hopen⟩
  · refine ⟨fun hnot => ?_, fun j hjob hmode hone hlen hfired hlong hpos hgate => ?_, fun j hjob hfired => ?_⟩
    · rcases hj : s.job with _ | j
      · exact swathArm_jobless hj
      · refine swathArm_waits hj fun ⟨hprint, hscan, _⟩ => ?_
        rcases hnot with hnone | ⟨h4, h5⟩ | hidle
        · simp [hj] at hnone
        · simp [State.printing, h4, h5] at hprint
        · simp [hidle] at hscan
    · have hscan : s.scanning = true := decide_eq_true (.inl hone)
      have hready : swathReady s j :=
        ⟨decide_eq_true hmode, hscan, hlen, hfired, hlong, beforeSwath_of_neg hone hpos, .inl (by simp [hgate])⟩
      have honly : Only [.sht] s (swathNext s) := only_sht (by decide) _
      exact answers_of_does (swathArm_arms hjob hready) honly ⟨rfl, honly⟩
    · exact swathArm_waits hjob fun ⟨_, _, _, hle, _⟩ => absurd hle (by omega)

end Sys2Proof.Proofs
end

section
/-!
SUPPORT. HOLD, RESUME and ABORT (R162, R163, R262, R266-R268): what each does once it has passed the common checks.
-/

namespace Sys2Proof.Proofs

open Sys2Proof.Machine Sys2Proof.Claims

/-! ## The bodies of the three commands -/

/-- HOLD: in Hold it completes with the present boundary, else it asks for a Hold at its line. -/
def holdBody (d : Desc) (_ : CmdIn) (r : CmdRef) (s : State) : State :=
  match s.sht.held with
  | some h =>
    ({ s with sht := { s.sht with held := some { h with
      timer := if h.onlyHold then (if descP1 d 44 4 = 0 then none else some (descP1 d 44 4)) else h.timer } } } : State).complete r stOK h.b
  | none => s.requestHold (descP1 d 40 4) 0 (some r) (descP1 d 44 4) (d.flags.getLsbD 3) none

/-- RESUME, after the fetches that it has made again. -/
def resumeJudged (r : CmdRef) (s : State) : State :=
  match s.sht.held with
  | none => s.withdrawHolds.2.complete r stOK s.withdrawHolds.1
  | some h =>
    match s.mapFault with
    | some k => s.completeDetail r stCONFLICT 0x14 k
    | none =>
      if s.printHalted then s.completeReason r stCONFLICT 0x30
      else if s.heldBack h then { s with sht := { s.sht with held := some { h with waiting := h.waiting ++ [r] } } }
      else s.endHold [r]

/-- The job ends at the next boundary, or at the earlier one that an ABORT has set. -/
def abortAt (s : State) (r : CmdRef) (j : Job) : Job :=
  { j with abortAt := some (Nat.min s.nextBoundary (j.abortAt.getD s.nextBoundary)), aborts := j.aborts ++ [r] }

/-- ABORT: at the next boundary the job ends; in Ready the function's loads are released. -/
def abortBody (_ : CmdIn) (r : CmdRef) (s : State) : State :=
  if s.job.isNone then (s.abortReady r.fn).complete r stOK 0 else (s.modJob (abortAt s r)).checkBoundary

theorem exec_hold (c : CmdIn) (s : State) : exec (.hold c) s =
    s.effect fun s => s.start c 0x12 { flags := 8, p1 := p1Bits 40 8 } notDenied (holdBody c.desc) := rfl

theorem exec_resume (c : CmdIn) (s : State) : exec (.resume c) s =
    s.effect fun s => s.start c 0x13 {} notDenied fun _ r s => resumeJudged r s.refetchAgain := rfl

theorem exec_abort (c : CmdIn) (s : State) : exec (.abort c) s = s.effect fun s => s.start c 0x14 {} notDenied abortBody := rfl

section Commands

variable {s t u : State} {c : CmdIn} {k : HostCmd} {fn : Fin 8} {r : CmdRef}

/-- The body of HOLD runs. -/
theorem does_hold (h : Starts s (.hold c) k fn r t) (hu : holdBody c.desc (inputOf s c) r t = u) : Does (.hold c) s u := by
  obtain rfl := Option.some.inj h.row
  exact does_of_starts h (exec_hold c s) hu

/-- The body of RESUME runs. -/
theorem does_resume (h : Starts s (.resume c) k fn r t) (hu : resumeJudged r t.refetchAgain = u) : Does (.resume c) s u := by
  obtain rfl := Option.some.inj h.row
  exact does_of_starts h (exec_resume c s) hu

/-- The body of ABORT runs. -/
theorem does_abort (h : Starts s (.abort c) k fn r t) (hu : abortBody (inputOf s c) r t = u) : Does (.abort c) s u := by
  obtain rfl := Option.some.inj h.row
  exact does_of_starts h (exec_abort c s) hu

/-! ## HOLD (R162, R163) -/

/-- In Hold the command completes with the present boundary, and acts on the timer. -/
theorem hold_in_hold {x : Held} (h : Starts s (.hold c) k fn r t) (hheld : t.sht.held = some x) : Answers (.hold c) s fun u =>
    (∃ v : State, u = settle s (v.complete r 0 x.b) ∧ v.sht.held.map (fun x => (x.b, x.timer)) =
      some (x.b, if x.onlyHold then (if descP1 c.desc 44 4 = 0 then none else some (descP1 c.desc 44 4)) else x.timer)) ∧
    Only [.sht, .hst, .regs, .out] s u := by
  have hdoes := does_hold h rfl
  simp only [holdBody, hheld] at hdoes
  have honly := (only_complete (by decide) (by decide) (by decide) r stOK x.b []).mpr
    (only_trans (Starts.only h (ps := [.sht, .hst, .regs, .out]) (by decide)) (only_sht (by decide) { t.sht with held := some { x with
      timer := if x.onlyHold then (if descP1 c.desc 44 4 = 0 then none else some (descP1 c.desc 44 4)) else x.timer } }))
  exact answers_of_does hdoes honly ⟨⟨_, (settle_of_only honly).symm, rfl⟩, honly⟩

/-! ## RESUME (R147, R155, R163, R348) -/

/-- RESUME in Print withdraws the requests of cause 0 and 1. -/
theorem resume_withdraws (h : Starts s (.resume c) k fn r t) (hheld : t.refetchAgain.sht.held = none) : Answers (.resume c) s fun u =>
    u.sht.holdReqs = t.refetchAgain.sht.holdReqs.filter (fun x => decide (1 < x.cause)) ∧ u.mode = s.mode ∧
    Only [.sht, .hst, .regs, .out, .free] s u := by
  obtain ⟨hsht, -, hregs, honly⟩ := withdrawHolds_spec (s := t.refetchAgain)
  have hdoes := does_resume h rfl
  simp only [resumeJudged, hheld] at hdoes
  have hall := (only_complete (by decide) (by decide) (by decide) r stOK t.refetchAgain.withdrawHolds.1 []).mpr
    (only_trans (Starts.only h (ps := [.sht, .hst, .regs, .out, .free]) (by decide)) (only_trans (only_refetchAgain (by decide)) honly))
  have hmode : t.mode = s.mode := by
    obtain ⟨-, -, -, -, hsame⟩ := Starts.only h (ps := [.hst]) (by decide)
    exact (regsBut_of_regs (rs := []) (hsame .regs (by decide))).mode (by decide)
  refine answers_of_does hdoes hall ⟨?_, ?_, hall⟩
  · rw [State.complete_sht, hsht]
  · rw [(regsBut_complete r _ _ _).mode (by decide), hregs.mode (by decide), refetchAgain_mode, hmode]

section InHold

variable {x : Held} (h : Starts s (.resume c) k fn r t) (hheld : t.refetchAgain.sht.held = some x)

include h hheld

theorem resume_map_fault {n : Nat} (hmap : t.refetchAgain.mapFault = some n) : RefusedFor (.resume c) s t.refetchAgain r 0x11 0x14 n := by
  have hdoes := does_resume h rfl
  simp only [resumeJudged, hheld, hmap] at hdoes
  exact refusedFor_of_detail hdoes (by decide)

variable (hmap : t.refetchAgain.mapFault = none)

include hmap

theorem resume_halted (hhalt : t.refetchAgain.printHalted = true) : Refused (.resume c) s t.refetchAgain r 0x11 0x30 := by
  have hdoes := does_resume h rfl
  simp only [resumeJudged, hheld, hmap, if_pos hhalt] at hdoes
  exact refused_of_reason hdoes (by decide)

variable (hhalt : t.refetchAgain.printHalted = false)

include hhalt

/-- A RESUME waits behind a strip fault. -/
theorem resume_waits (hback : t.refetchAgain.heldBack x = true) : Answers (.resume c) s fun u =>
    u.sht.held = some { x with waiting := x.waiting ++ [r] } ∧ Only [.sht, .hst, .out] s u := by
  have hdoes := does_resume h rfl
  simp only [resumeJudged, hheld, hmap, hhalt, Bool.false_eq_true, if_false, if_pos hback] at hdoes
  have honly := only_trans (Starts.only h (ps := [.sht, .hst, .out]) (by decide)) (only_trans (only_refetchAgain (by decide))
    (only_sht (by decide) { t.refetchAgain.sht with held := some { x with waiting := x.waiting ++ [r] } }))
  exact answers_of_does hdoes honly ⟨rfl, honly⟩

theorem resume_ends (hback : t.refetchAgain.heldBack x = false) : Does (.resume c) s (t.refetchAgain.endHold [r]) := by
  have hdoes := does_resume h rfl
  simpa only [resumeJudged, hheld, hmap, hhalt, hback, Bool.false_eq_true, if_false] using hdoes

end InHold

/-! ## ABORT (R262, R266, R268) -/

theorem abort_running {j : Job} (h : Starts s (.abort c) k fn r t) (hjob : t.job = some j) :
    Does (.abort c) s (({ t with job := some (abortAt t r j) } : State).checkBoundary) := by
  refine does_abort h ?_
  unfold abortBody
  rw [if_neg (by simp [hjob]), State.modJob, hjob]
  rfl

end Commands

/-! ## What ABORT releases in Ready -/

section Ready

variable {s : State} {fn : Fin 8}

/-- Commands end with ABORTED. -/
def endAborted (l : List CmdRef) (s : State) : State := l.foldl (fun s c => s.completeOpen c stABORTED) s

theorem endAborted_map {α : Type} (cmd : α → CmdRef) (l : List α) (s : State) :
    endAborted (l.map cmd) s = l.foldl (fun s a => s.completeOpen (cmd a) stABORTED) s := List.foldl_map ..

theorem endAborted_keeps {p : State → Prop} (hp : ∀ t c, p t → p (t.completeOpen c stABORTED)) (l : List CmdRef) (h : p s) :
    p (endAborted l s) := foldl_keeps l _ hp s h

theorem lists_endAborted (l : List CmdRef) : lists (endAborted l s) = lists s :=
  endAborted_keeps (p := fun t => lists t = lists s) (fun _ _ ht => (lists_completeOpen ..).trans ht) l rfl

theorem waiting_endAborted (l : List CmdRef) : waiting (endAborted l s) = waiting s :=
  endAborted_keeps (p := fun t => waiting t = waiting s) (fun _ _ ht => (waiting_completeOpen ..).trans ht) l rfl

theorem store_endAborted (l : List CmdRef) : (endAborted l s).store = s.store :=
  endAborted_keeps (p := fun t => t.store = s.store) (fun _ _ ht => (State.completeOpen_store ..).trans ht) l rfl

theorem only_endAborted {ps : List Part} (hf : .free ∈ ps) (hr : .regs ∈ ps) (h : .hst ∈ ps) (ho : .out ∈ ps) (l : List CmdRef) :
    Only ps s (endAborted l s) :=
  endAborted_keeps (p := Only ps s) (fun _ c ht => (only_completeOpen hf hr h ho c _).mpr ht) l (only_refl ps s)

/-- The state in which the function's loads are off the list. -/
def loadsDropped (s : State) (fn : Fin 8) : State := { s with hst := { s.hst with loads := s.hst.loads.filter fun l => decide (l.fn ≠ fn) } }

/-- The state in which the function's next load starts at line 0, with nothing staged and no Reel held. -/
def loadsReleased (s : State) (fn : Fin 8) : State :=
  ((s.setNextLoad fn 0).dropStaged fn 0).releaseLoaded fun g => decide (g = fn)

/-- The state in which the function's held updates are off the list. -/
def updatesDropped (s : State) (fn : Fin 8) : State :=
  { s with hst := { s.hst with pending := s.hst.pending.filter fun p => !(p.held && decide (p.fn = fn)) } }

/-- The loads that an ABORT ends. -/
def loadsOf (s : State) (fn : Fin 8) : List CmdRef := (s.hst.loads.filter fun l => decide (l.fn = fn)).map fun l => l.cmd

/-- The held updates that an ABORT ends. -/
def updatesOf (s : State) (fn : Fin 8) : List CmdRef := (s.hst.pending.filter fun p => p.held && decide (p.fn = fn)).map fun p => p.cmd

/-- The state in which the loads have ended and the updates are still held. -/
def loadsEnded (s : State) (fn : Fin 8) : State := loadsReleased (endAborted (loadsOf s fn) (loadsDropped s fn)) fn

theorem abortReady_eq : s.abortReady fn = endAborted (updatesOf (loadsEnded s fn) fn) (updatesDropped (loadsEnded s fn) fn) := by
  unfold updatesOf
  rw [endAborted_map]
  unfold loadsEnded loadsOf
  rw [endAborted_map]
  rfl

theorem loads_of_lists {t u : State} (h : lists u = lists t) : u.hst.loads = t.hst.loads := congrArg Prod.snd h

theorem pending_of_waiting {t u : State} (h : waiting u = waiting t) : u.hst.pending = t.hst.pending := congrArg Prod.fst h

theorem loads_loadsReleased : (loadsReleased s fn).hst.loads = s.hst.loads := rfl

theorem loads_updatesDropped : (updatesDropped s fn).hst.loads = s.hst.loads := rfl

theorem loads_abortReady : (s.abortReady fn).hst.loads = s.hst.loads.filter fun l => decide (l.fn ≠ fn) := by
  rw [abortReady_eq, loads_of_lists (lists_endAborted _), loads_updatesDropped, loadsEnded, loads_loadsReleased,
    loads_of_lists (lists_endAborted _), loadsDropped]

theorem pending_abortReady : (s.abortReady fn).hst.pending =
    (loadsEnded s fn).hst.pending.filter fun p => !(p.held && decide (p.fn = fn)) := by
  rw [abortReady_eq, pending_of_waiting (waiting_endAborted _), updatesDropped]

/-- The next load's first line is part of what waits. -/
theorem nextLoad_of_waiting {t u : State} (h : waiting u = waiting t) (f : Fin 8) : (u.hst.fns[f]).nextLoad = (t.hst.fns[f]).nextLoad := by
  have hview (v : State) : (v.hst.fns[f]).nextLoad = (waiting v).2[f] := (Vector.getElem_map ..).symm
  rw [hview u, hview t, h]

theorem nextLoad_setNextLoad (n : Nat) : ((s.setNextLoad fn n).hst.fns[fn]).nextLoad = n := by
  rw [State.setNextLoad, fns_modFn_same]

theorem nextLoad_loadsReleased : ((loadsReleased s fn).hst.fns[fn]).nextLoad = 0 := nextLoad_setNextLoad 0

theorem nextLoad_updatesDropped : ((updatesDropped s fn).hst.fns[fn]).nextLoad = (s.hst.fns[fn]).nextLoad := rfl

theorem nextLoad_abortReady : ((s.abortReady fn).hst.fns[fn]).nextLoad = 0 := by
  rw [abortReady_eq, nextLoad_of_waiting (waiting_endAborted _), nextLoad_updatesDropped, loadsEnded, nextLoad_loadsReleased]

theorem reels_abortReady : (s.abortReady fn).store.reels = s.store.reels.map fun e => (e.1, e.2.map fun x =>
    if x.loaded = true ∧ x.state = .inUse ∧ decide (x.owner = fn) = true then { x with state := .closed, loaded := false, prefetched := (0, 0) }
    else x) := by
  rw [abortReady_eq, store_endAborted]
  show (loadsReleased (endAborted (loadsOf s fn) (loadsDropped s fn)) fn).store.reels = _
  have hstore : (endAborted (loadsOf s fn) (loadsDropped s fn)).store = s.store := store_endAborted _
  rw [← hstore]
  rfl

theorem only_store {ps : List Part} (h : .store ∈ ps) (x : Store) : Only ps s { s with store := x } :=
  ⟨rfl, rfl, rfl, rfl, fun p hp => by cases p <;> simp_all [Part.same]⟩

/-- The parts that an ABORT in Ready may change. -/
abbrev readyParts : List Part := [.hst, .store, .regs, .free, .out]

theorem only_abortReady : Only readyParts s (s.abortReady fn) := by
  have hdrop : Only readyParts s (loadsDropped s fn) := only_hst (by decide) _
  have hend : Only readyParts s (endAborted (loadsOf s fn) (loadsDropped s fn)) :=
    only_trans hdrop (only_endAborted (by decide) (by decide) (by decide) (by decide) _)
  have hnext : Only readyParts s ((endAborted (loadsOf s fn) (loadsDropped s fn)).setNextLoad fn 0) := (only_modFn (by decide) fn _).mpr hend
  have hrest : Only readyParts s (loadsEnded s fn) :=
    only_trans (only_trans hnext (only_hst (by decide) _)) (only_store (by decide) _)
  rw [abortReady_eq]
  exact only_trans (only_trans hrest (only_hst (by decide) _)) (only_endAborted (by decide) (by decide) (by decide) (by decide) _)

end Ready

/-- ABORT without a job releases what the function has loaded. -/
theorem abort_ready {s t : State} {c : CmdIn} {k : HostCmd} {fn : Fin 8} {r : CmdRef} (h : Starts s (.abort c) k fn r t) (hjob : t.job = none) :
    Answers (.abort c) s fun u => (∀ l ∈ u.hst.loads, l.fn ≠ r.fn) ∧ (∀ p ∈ u.hst.pending, p.held = true → p.fn ≠ r.fn) ∧
      (u.hst.fns[r.fn]).nextLoad = 0 ∧
      (∀ e ∈ u.store.reels, ∀ x, e.2 = some x → x.loaded = true → x.state = .inUse → x.owner ≠ r.fn) ∧ Only readyParts s u := by
  have hu : abortBody (inputOf s c) r t = (t.abortReady r.fn).complete r stOK 0 := if_pos (by simp [hjob])
  have honly := (only_complete (by decide) (by decide) (by decide) r stOK 0 []).mpr
    (only_trans (Starts.only h (ps := readyParts) (by decide)) (only_abortReady (fn := r.fn)))
  have hwaiting := waiting_complete (s := t.abortReady r.fn) r stOK 0 []
  refine answers_of_does (does_abort h hu) honly ⟨fun l hl => ?_, fun p hp hheld hfn => ?_, ?_, fun e he x hx hloaded hstate howner => ?_, honly⟩
  · rw [loads_of_lists (lists_complete ..), loads_abortReady] at hl
    simpa using (List.mem_filter.mp hl).2
  · rw [pending_of_waiting hwaiting, pending_abortReady] at hp
    simpa [hheld, hfn] using (List.mem_filter.mp hp).2
  · rw [nextLoad_of_waiting hwaiting, nextLoad_abortReady]
  · rw [State.complete_store, reels_abortReady] at he
    obtain ⟨d, -, rfl⟩ := List.mem_map.mp he
    obtain ⟨y, hy, rfl⟩ := Option.map_eq_some_iff.mp hx
    split at hloaded
    · exact absurd hloaded (by simp)
    · next hnot =>
      rw [if_neg hnot] at hstate howner
      exact hnot ⟨hloaded, hstate, decide_eq_true howner⟩

end Sys2Proof.Proofs
end

section
/-!
SUPPORT. The boundaries of a job (R155, R162, R163, R265, R310): what the closing of a run of lost lines, a claim and an arming leave, and
how a Hold begins.
-/

namespace Sys2Proof.Proofs

open Sys2Proof.Machine Sys2Proof.Claims

/-! ## Frames -/

section Frames

variable {ps : List Part} {s : State}

theorem only_job (h : .job ∈ ps) (x : Option Job) : Only ps s { s with job := x } :=
  ⟨rfl, rfl, rfl, rfl, fun p hp => by cases p <;> simp_all [Part.same]⟩

theorem only_lanes (h : .lanes ∈ ps) (x : Vector Lane 16) : Only ps s { s with lanes := x } :=
  ⟨rfl, rfl, rfl, rfl, fun p hp => by cases p <;> simp_all [Part.same]⟩

theorem only_enl (h : .enl ∈ ps) (x : Vector Enl 4) : Only ps s { s with enl := x } :=
  ⟨rfl, rfl, rfl, rfl, fun p hp => by cases p <;> simp_all [Part.same]⟩

theorem only_modJob (h : .job ∈ ps) (f : Job → Job) : Only ps s (s.modJob f) := by
  unfold State.modJob
  exact only_job h _

theorem only_raiseJob (e : Ev) (n : Nat) : Only reports s (s.raiseJob e n) :=
  ⟨s.raiseJob_pending .., s.raiseJob_fuses .., s.raiseJob_devTime .., s.raiseJob_rootTicks ..,
    fun p hp => by cases p <;> simp_all [Part.same, reports]⟩

theorem only_csMasked (ty source : Nat) (data : List Nat) (b : Nat) : Only reports s (s.csMasked ty source data b) :=
  ⟨s.csMasked_pending .., s.csMasked_fuses .., s.csMasked_devTime .., s.csMasked_rootTicks ..,
    fun p hp => by cases p <;> simp_all [Part.same, reports]⟩

end Frames

/-! ## Runs of lost lines (R152, R176) -/

section Runs

variable {s : State}

/-- The job with its run of blank, or of stale, lines closed. -/
def runClosed (stale : Bool) (j : Job) : Job := if stale then { j with staleRun := none } else { j with blankRun := none }

theorem only_reportRun (stale : Bool) (run : Nat × Nat) : Only reports s (s.reportRun stale run) :=
  only_trans (only_csMasked ..) (only_raiseJob ..)

theorem regsBut_reportRun (stale : Bool) (run : Nat × Nat) : RegsBut told s (s.reportRun stale run) :=
  regsBut_trans (regsBut_csMasked _ _ _ _) (regsBut_raiseJob _ _)

/-- What the closing of a run may change. -/
abbrev runParts : List Part := .job :: reports

theorem only_closeRun (stale : Bool) : Only runParts s (s.closeRun stale) := by
  unfold State.closeRun
  split
  · exact only_refl _ s
  · exact only_trans (only_mono (only_reportRun ..) (by decide)) (only_modJob (by decide) _)

theorem regsBut_closeRun (stale : Bool) : RegsBut told s (s.closeRun stale) := by
  unfold State.closeRun
  split
  · exact regsBut_refl _ s
  · exact regsBut_trans (regsBut_reportRun _ _) (regsBut_of_regs rfl)

/-- A job without an open run keeps its record. -/
theorem runClosed_eq_self {stale : Bool} {j : Job} (h : (if stale then j.staleRun else j.blankRun) = none) : runClosed stale j = j := by
  obtain ⟨⟩ := j
  cases stale
  · simpa [runClosed] using h.symm
  · simpa [runClosed] using h.symm

/-- Of the job only the run's record goes. -/
theorem closeRun_job (stale : Bool) : (s.closeRun stale).job = s.job.map (runClosed stale) := by
  unfold State.closeRun
  split
  · next hnone =>
    rcases hjob : s.job with _ | j
    · rfl
    · rw [hjob, Option.bind_some] at hnone
      rw [Option.map_some, runClosed_eq_self hnone]
  · show ((s.reportRun stale _).job.map _) = _
    rw [State.reportRun, State.raiseJob_job, State.csMasked_job]
    rfl

/-- The state with both runs closed. -/
def runsClosed (s : State) : State := (s.closeRun false).closeRun true

theorem only_runsClosed : Only runParts s (runsClosed s) := only_trans (only_closeRun _) (only_closeRun _)

theorem runsClosed_job {j : Job} (hjob : s.job = some j) : (runsClosed s).job = some { j with blankRun := none, staleRun := none } := by
  rw [runsClosed, closeRun_job, closeRun_job, hjob]
  rfl

end Runs

/-! ## A Hold begins (R162, R163) -/

section Reach

variable {s : State} {b : Nat} {q : HoldReq}

/-- The cause that a Hold at a boundary has. -/
def causeAt (s : State) (b : Nat) : Nat := ((s.sht.holdReqs.filter fun r => decide (r.b = b)).map fun r => r.cause).foldl Nat.min 15

/-- A strip's request at another boundary stays pending. -/
def staysPending (b : Nat) (r : HoldReq) : Bool := r.strip.isSome && decide (r.b ≠ b)

/-- The requests that a Hold at a boundary answers. -/
def answeredAt (s : State) (b : Nat) : List HoldReq := s.sht.holdReqs.filter fun r => !staysPending b r

/-- The Hold at a boundary. -/
def heldAt (s : State) (b : Nat) : Held :=
  let merged := answeredAt s b
  let allHold := merged.all fun r => r.cmd.isSome
  { b := b, onlyHold := allHold,
    timer := if allHold && merged.all fun r => decide (r.dur ≠ 0) then some ((merged.map HoldReq.dur).foldl Nat.max 0) else none,
    gated := (s.sht.holdReqs.filter fun r => decide (r.b = b)).filterMap HoldReq.strip, waiting := [], endWaits := false,
    abrupt := (runsClosed s).scanning && merged.any fun r => r.abrupt }

/-- The state in which the Hold is recorded. -/
def holdRecorded (s : State) (b : Nat) : State :=
  { runsClosed s with sht := { (runsClosed s).sht with
    holdReqs := (runsClosed s).sht.holdReqs.filter (staysPending b), held := some (heldAt s b) } }

/-- The state in which SHT_HOLD shows the Hold. -/
def holdShown (s : State) (b : Nat) : State :=
  ((((holdRecorded s b).fset F.SHT_HOLD_REQ 0).fset F.SHT_HOLD_HELD 1).fset F.SHT_HOLD_CAUSE (causeAt s b)).fset F.SHT_HOLD_AT_LINE b

/-- The state in which the module has entered Hold. -/
def holdEntered (s : State) (b : Nat) : State := (((holdShown s b).toMode 5).raiseJob .holdReached (pair (causeAt s b) b)).applyHalts

/-- The HOLDs behind requests complete with the boundary. -/
def answerHolds (l : List HoldReq) (b : Nat) (s : State) : State :=
  l.foldl (fun s r => match r.cmd with
    | some c => s.complete c (if r.asked < b then stDELAYED else stOK) b
    | none => s) s

theorem reachHold_eq (s : State) (b : Nat) : s.reachHold b = answerHolds (answeredAt s b) b (holdEntered s b) := rfl

theorem answerHolds_keeps {p : State → Prop} (hp : ∀ t c st n, p t → p (t.complete c st n)) (l : List HoldReq) (h : p s) :
    p (answerHolds l b s) :=
  foldl_keeps l _ (fun t r ht => by
    split
    · exact hp t _ _ _ ht
    · exact ht) s h

/-- The registers that the beginning of a Hold may write beside SHT_HOLD. -/
def reachRegs : List RegName := .GRN_GANG :: modeRegs

theorem regsBut_holdEntered : RegsBut reachRegs (holdShown s b) (s.reachHold b) := by
  rw [reachHold_eq]
  have hmode : RegsBut reachRegs (holdShown s b) ((holdShown s b).toMode 5) := regsBut_mono (regsBut_toMode 5 0) (by decide)
  have hraise := regsBut_trans hmode (regsBut_mono (regsBut_raiseJob .holdReached (pair (causeAt s b) b)) (by decide))
  have hhalts : RegsBut reachRegs (holdShown s b) (holdEntered s b) := regsBut_trans hraise (regsBut_mono regsBut_applyHalts (by decide))
  exact answerHolds_keeps (p := RegsBut reachRegs (holdShown s b))
    (fun t c st n ht => regsBut_trans ht (regsBut_mono (regsBut_complete c st n _) (by decide))) _ hhalts

theorem reachHold_sht : (s.reachHold b).sht = (holdRecorded s b).sht := by
  rw [reachHold_eq]
  have hhalts : (holdEntered s b).sht = (((holdShown s b).toMode 5).raiseJob .holdReached (pair (causeAt s b) b)).sht :=
    only_part only_applyHalts (p := .sht) (by decide)
  rw [State.raiseJob_sht, State.toMode_sht] at hhalts
  exact answerHolds_keeps (p := fun t => t.sht = (holdRecorded s b).sht) (fun t c st n ht => (State.complete_sht ..).trans ht) _ hhalts

theorem reachHold_mode : (s.reachHold b).mode = 5 := by
  rw [reachHold_eq]
  have hraise := (regsBut_raiseJob (s := (holdShown s b).toMode 5) .holdReached (pair (causeAt s b) b)).mode (by decide)
  have hhalts : (holdEntered s b).mode = 5 :=
    (regsBut_applyHalts.mode (by decide)).trans (hraise.trans (toMode_mode _ (by decide) 0))
  exact answerHolds_keeps (p := fun t => t.mode = 5) (fun t c st n ht => ((regsBut_complete c st n _).mode (by decide)).trans ht) _ hhalts

theorem runsClosed_sht : (runsClosed s).sht = s.sht := only_part only_runsClosed (p := .sht) (by decide)

/-- A Hold that a single request brings. -/
theorem reachHold_single (hreqs : s.sht.holdReqs = [q]) (hb : q.b = b) (hline : b < 2 ^ 32) (hcause : q.cause < 16) :
    let t := s.reachHold b
    t.mode = 5 ∧ t.on F.SHT_HOLD_HELD = true ∧ t.on F.SHT_HOLD_REQ = false ∧ t.fv F.SHT_HOLD_CAUSE = Nat.min 15 q.cause ∧
    t.fv F.SHT_HOLD_AT_LINE = b ∧ t.sht.held.map (fun h => (h.b, h.onlyHold, h.gated)) = some (b, q.cmd.isSome, q.strip.toList) ∧
    t.sht.holdReqs = [] := by
  intro t
  have hcauseAt : causeAt s b = Nat.min 15 q.cause := by simp [causeAt, hreqs, hb]
  have hregs : RegsBut reachRegs (holdShown s b) t := regsBut_holdEntered
  have hsht : t.sht = (holdRecorded s b).sht := reachHold_sht
  refine ⟨reachHold_mode, ?_, ?_, ?_, ?_, ?_, ?_⟩
  · rw [hregs.on (by decide) (by decide), holdShown, State.on, fv_fset_apart _ _ (by decide) (by decide) (by decide),
      fv_fset_apart _ _ (by decide) (by decide) (by decide), fv_fset_same _ _ _ _ (by decide)]
    rfl
  · rw [hregs.on (by decide) (by decide), holdShown, State.on, fv_fset_apart _ _ (by decide) (by decide) (by decide),
      fv_fset_apart _ _ (by decide) (by decide) (by decide), fv_fset_apart _ _ (by decide) (by decide) (by decide),
      fv_fset_same _ _ _ _ (by decide)]
    rfl
  · rw [hregs.fv (by decide) (by decide), holdShown, fv_fset_apart _ _ (by decide) (by decide) (by decide),
      fv_fset_same _ _ _ _ (by decide), hcauseAt]
    exact Nat.mod_eq_of_lt (lt_of_le_of_lt (Nat.min_le_right _ _) hcause)
  · rw [hregs.fv (by decide) (by decide), holdShown, fv_fset_same _ _ _ _ (by decide)]
    exact Nat.mod_eq_of_lt hline
  · have hheld : t.sht.held = some (heldAt s b) := congrArg Sht.held hsht
    have hgated : [q].filterMap HoldReq.strip = q.strip.toList := by cases h : q.strip <;> simp [h]
    simp [hheld, heldAt, answeredAt, staysPending, hreqs, hb, hgated]
  · have hpending : t.sht.holdReqs = (runsClosed s).sht.holdReqs.filter (staysPending b) := congrArg Sht.holdReqs hsht
    simp [hpending, runsClosed_sht, hreqs, staysPending, hb]

end Reach

end Sys2Proof.Proofs
end

section
/-!
SUPPORT. The end of a Hold in single-pass operation (R155, R158, R159, R163): the load of LINEPOS claims lines that are not in the Reserve, which
fire blank (R152, R153), and arms nothing.
-/

namespace Sys2Proof.Proofs

open Sys2Proof.Machine Sys2Proof.Claims

/-! ## Claims of lines that have not been delivered (R152, R153) -/

section Claims

variable {s t : State} {j : Job}

/-- The registers that a claim of a lost line may write. -/
def lostRegs : List RegName := .SHT_STATUS :: .SHT_LINE_MISS_CNT :: told

/-- The jobs that differ in what has been claimed, and in the runs of lost lines, alone; all that is complete has been claimed. -/
def ClaimsOf (j k : Job) : Prop :=
  j.complete ≤ k.claimed ∧ k = { j with claimed := k.claimed, missed := k.missed, blankRun := k.blankRun, staleRun := k.staleRun }

/-- The states that differ in claims of lost lines alone, as far as the Shutter's positions and settings go. -/
structure ClaimsOnly (s t : State) (j : Job) : Prop where
  regs : RegsBut lostRegs s t
  sht : t.sht = s.sht
  job : ∃ k, t.job = some k ∧ ClaimsOf j k

theorem claimsOf_self (h : j.complete = j.claimed) : ClaimsOf j j := ⟨h.le, rfl⟩

theorem only_genARun (r : Fin 16) (tagged data : List (BitVec 16)) : Only [.fab] s (s.genARun r tagged data) :=
  (only_modFab (by decide) r _).mpr (only_refl _ s)

/-- A blank line reaches the Gen A ports alone. -/
theorem only_genALine_blank (k : Job) (n : Nat) : Only [.fab] s (s.genALine k n true).2 := by
  unfold State.genALine
  refine foldl_keeps (p := fun r : Bool × State => Only [.fab] s r.2) _ _ (fun r p hr => ?_) _ (only_refl _ s)
  exact foldl_keeps (p := fun r : Bool × State => Only [.fab] s r.2) _ _ (fun r f hr => only_trans hr (only_genARun _ _ _)) _ hr

namespace ClaimsOnly

variable {u : State}

/-- A step that writes the registers of lost lines and the job's claims alone. -/
theorem step (h : ClaimsOnly s t j) (hregs : RegsBut lostRegs t u) (hsht : u.sht = t.sht)
    (hjob : ∀ k, t.job = some k → ClaimsOf j k → ∃ k', u.job = some k' ∧ ClaimsOf j k') : ClaimsOnly s u j := by
  obtain ⟨hr, hs, k, hk, hclaims⟩ := h
  exact ⟨regsBut_trans hr hregs, hsht.trans hs, hjob k hk hclaims⟩

theorem closeRun (h : ClaimsOnly s t j) (stale : Bool) : ClaimsOnly s (t.closeRun stale) j := by
  refine h.step (regsBut_mono (regsBut_closeRun stale) (by decide)) (only_part (only_closeRun stale) (p := .sht) (by decide))
    fun k hk ⟨hle, hkj⟩ => ⟨runClosed stale k, by rw [closeRun_job, hk]; rfl, ?_⟩
  cases stale
  · exact ⟨hle, by rw [hkj]; rfl⟩
  · exact ⟨hle, by rw [hkj]; rfl⟩

theorem modJob (h : ClaimsOnly s t j) {f : Job → Job} (hf : ∀ k, ClaimsOf j k → ClaimsOf j (f k)) : ClaimsOnly s (t.modJob f) j :=
  h.step (regsBut_of_regs rfl) rfl fun k hk hclaims => ⟨f k, by rw [State.modJob, hk]; rfl, hf k hclaims⟩

theorem lostLine (h : ClaimsOnly s t j) (n : Nat) : ClaimsOnly s (t.lostLine false n) j := by
  have hcount : RegsBut lostRegs t ((t.fset F.SHT_STATUS_MISSED 1).finc F.SHT_LINE_MISS_CNT_COUNT) :=
    regsBut_trans (regsBut_fset (f := F.SHT_STATUS_MISSED) (by decide) (by decide : 0 < 1024) 1)
      (regsBut_finc (f := F.SHT_LINE_MISS_CNT_COUNT) (by decide) (by decide : 0 < 1024) 1)
  have hcounted := h.step hcount rfl fun k hk hclaims => ⟨k, hk, hclaims⟩
  unfold State.lostLine
  extract_lets counted
  split
  · exact hcounted
  · extract_lets run contiguous closed run' recorded
    have hclosed : ClaimsOnly s closed j := by
      unfold closed
      split
      · exact hcounted.closeRun false
      · exact hcounted
    have hrecorded : ClaimsOnly s recorded j := hclosed.modJob fun k ⟨hle, hkj⟩ => ⟨hle, by rw [hkj]; rfl⟩
    split
    · exact hrecorded.closeRun false
    · exact hrecorded

/-- A claim when nothing more is complete is the claim of a lost line. -/
theorem claimOne (h : ClaimsOnly s t j) : ClaimsOnly s t.claimOne j := by
  obtain ⟨k, hk, hle, hkj⟩ := h.job
  have hcomplete : k.complete = j.complete := by rw [hkj]
  unfold State.claimOne
  simp only [hk]
  rw [if_neg (by omega)]
  have hclaimed : ClaimsOnly s (t.modJob fun j => { j with claimed := k.claimed + 1, missed := k.claimed :: j.missed }) j :=
    h.modJob fun k' ⟨_, hkj'⟩ => ⟨Nat.le_succ_of_le hle, by rw [hkj']⟩
  have honly := only_genALine_blank (s := (t.modJob fun j =>
    { j with claimed := k.claimed + 1, missed := k.claimed :: j.missed }).lostLine false k.claimed) k k.claimed
  refine (hclaimed.lostLine k.claimed).step (regsBut_of_regs (only_part honly (p := .regs) (by decide)))
    (only_part honly (p := .sht) (by decide)) fun k' hk' hclaims => ⟨k', ?_, hclaims⟩
  rw [← hk']
  exact only_part honly (p := .job) (by decide)

theorem claimTo (h : ClaimsOnly s t j) (tick : Int) : ClaimsOnly s (t.claimTo tick) j := by
  unfold State.claimTo
  split
  · exact h
  · exact foldl_keeps (p := fun t => ClaimsOnly s t j) _ _ (fun t _ ht => ht.claimOne) _ h

end ClaimsOnly

end Claims

/-! ## The load of LINEPOS at the end of a Hold (R158, R159, R163) -/

section Load

variable {s t : State} {j : Job}

/-- A running minimum is at most what it starts from, and at most each number it has come to. -/
theorem foldl_min_le (l : List Nat) (m : Nat) : l.foldl Nat.min m ≤ m ∧ ∀ x ∈ l, l.foldl Nat.min m ≤ x := by
  induction l generalizing m with
  | nil => exact ⟨le_rfl, by simp⟩
  | cons x l ih =>
    obtain ⟨hle, hall⟩ := ih (Nat.min m x)
    refine ⟨hle.trans (Nat.min_le_left m x), fun y hy => ?_⟩
    obtain rfl | hy := List.mem_cons.mp hy
    · exact hle.trans (Nat.min_le_right m y)
    · exact hall y hy

theorem dmin_le : s.dmin ≤ 255 := (foldl_min_le _ 255).1

theorem dmin_le_delay {g : Fin 64} (hg : g ∈ s.groupsOn) : s.dmin ≤ s.delay g := (foldl_min_le _ 255).2 _ (List.mem_map.mpr ⟨g, hg, rfl⟩)

/-- Groups that have armed every line whose tick has come arm nothing. -/
theorem armLoaded_stays {tick : Int} (hjob : t.job = some j) (harmed : ∀ g ∈ t.groupsOn, tick - t.delay g + 1 ≤ (j.groups[g]).nextArm) :
    t.armLoaded tick = t := by
  unfold State.armLoaded
  refine List.foldlRecOn (motive := fun u => u = t) _ _ rfl fun u hu g hg => ?_
  subst hu
  simp only [hjob]
  have hdue : (tick - u.delay g + 1).toNat ≤ (j.groups[g]).nextArm := Int.toNat_le.mpr (harmed g hg)
  have hnone : Nat.min (tick - u.delay g + 1).toNat j.length - (j.groups[g]).nextArm = 0 :=
    Nat.sub_eq_zero_of_le ((Nat.min_le_left ..).trans hdue)
  rw [hnone]
  rfl

/-- A position that LINEPOS can hold is read as it was written. -/
theorem linepos_setReg {pos : Int} (hlow : -2 ^ 63 ≤ pos) (hhigh : pos < 2 ^ 63) : (s.setReg .SHT_LINEPOS (BitVec.ofInt 64 pos)).linepos = pos := by
  rw [State.linepos, reg_setReg_same, BitVec.toInt_ofInt]
  exact Int.bmod_eq_of_le (by omega) (by omega)

theorem posIndex_of_single (hscan : s.scanning = false) (pos : Int) : s.posIndex pos = pos / 2 ^ 32 := by
  rw [State.posIndex, if_neg (by simp [hscan]), Int.fdiv_eq_ediv_of_nonneg _ (by decide)]

theorem tickBase_of_single (hscan : s.scanning = false) : s.tickBase = 0 := if_neg (by simp [hscan])

/-- The state that a load of LINEPOS has before it claims and arms. -/
def lineposLoaded (s : State) (pos i : Int) : State :=
  { s.setReg .SHT_LINEPOS (BitVec.ofInt 64 pos) with sht := { s.sht with high := i } }

theorem lineposLoaded_job (pos i : Int) : (lineposLoaded s pos i).job = s.job := rfl

theorem lineposLoaded_sht (pos i : Int) : (lineposLoaded s pos i).sht = { s.sht with high := i } := rfl

theorem lineposLoaded_reg (pos i : Int) : (lineposLoaded s pos i).reg .SHT_LINEPOS = BitVec.ofInt 64 pos :=
  reg_setReg_same s .SHT_LINEPOS (BitVec.ofInt 64 pos) 0

theorem regsBut_lineposLoaded (pos i : Int) : RegsBut [.SHT_LINEPOS] s (lineposLoaded s pos i) :=
  regsBut_setReg (by decide) (by decide) _

/-- In single-pass operation a load of LINEPOS at a line tick's place claims up to the tick, and arms. -/
theorem loadLinepos_eq (hscan : s.scanning = false) (hrun : s.jobRunning = true) {i : Int} (hlow : -2 ^ 31 ≤ i) (hhigh : i < 2 ^ 31) :
    s.loadLinepos (i * 2 ^ 32) = (((lineposLoaded s (i * 2 ^ 32) i).claimTo i).armLoaded i).checkBoundary := by
  have hscan' : (s.setReg .SHT_LINEPOS (BitVec.ofInt 64 (i * 2 ^ 32))).scanning = false :=
    ((regsBut_setReg (rs := [.SHT_LINEPOS]) (by decide) (by decide) _).scanning (by decide)).trans hscan
  have hindex : (s.setReg .SHT_LINEPOS (BitVec.ofInt 64 (i * 2 ^ 32))).posIndex
      (s.setReg .SHT_LINEPOS (BitVec.ofInt 64 (i * 2 ^ 32))).linepos = i := by
    rw [linepos_setReg (by omega) (by omega), posIndex_of_single hscan']
    exact Int.mul_ediv_cancel i (by decide)
  have hbase : (lineposLoaded s (i * 2 ^ 32) i).tickBase = 0 := tickBase_of_single hscan'
  unfold State.loadLinepos
  simp only [hindex]
  have hrun' : (lineposLoaded s (i * 2 ^ 32) i).jobRunning = true := hrun
  rw [if_pos (by exact hrun')]
  show (((lineposLoaded s (i * 2 ^ 32) i).claimTo ((lineposLoaded s (i * 2 ^ 32) i).tickBase + i)).armLoaded
    ((lineposLoaded s (i * 2 ^ 32) i).tickBase + i)).checkBoundary = _
  rw [hbase, Int.zero_add]

/-- The end of a Hold: what is shown before LINEPOS is loaded. -/
def holdOver (s : State) : State :=
  ((({ s with sht := { s.sht with held := none } } : State).fset F.SHT_HOLD_HELD 0).fset F.SHT_HOLD_RESUME 0).toMode 4

/-- What SHT_HOLD shows when a Hold has ended. -/
def holdCleared (s : State) : State :=
  (({ s with sht := { s.sht with held := none } } : State).fset F.SHT_HOLD_HELD 0).fset F.SHT_HOLD_RESUME 0

theorem regsBut_holdCleared : RegsBut [.SHT_HOLD] s (holdCleared s) :=
  regsBut_trans (t := { s with sht := { s.sht with held := none } }) (regsBut_of_regs rfl)
    (regsBut_trans (regsBut_fset (f := F.SHT_HOLD_HELD) (by decide) (by decide : 0 < 1024) 0) (regsBut_fset (by decide) (by decide) _))

theorem regsBut_holdOver : RegsBut (.SHT_HOLD :: modeRegs) s (holdOver s) :=
  regsBut_trans (regsBut_mono regsBut_holdCleared (by decide)) (regsBut_mono (regsBut_toMode (s := holdCleared s) 4 0) (by decide))

theorem holdOver_sht : (holdOver s).sht = { s.sht with held := none } := State.toMode_sht (holdCleared s) 4 0

theorem holdOver_job : (holdOver s).job = s.job := State.toMode_job (holdCleared s) 4 0

theorem holdOver_held : (holdOver s).on F.SHT_HOLD_HELD = false := by
  have hmode : (holdOver s).on F.SHT_HOLD_HELD = (holdCleared s).on F.SHT_HOLD_HELD :=
    (regsBut_toMode (s := holdCleared s) 4 0).on (by decide) (by decide)
  rw [hmode, holdCleared, State.on, fv_fset_apart _ _ (by decide) (by decide) (by decide), fv_fset_same _ _ _ _ (by decide)]
  rfl

/-- In single-pass operation a Hold that nothing waits behind ends with the load of LINEPOS. -/
theorem endHold_eq {h : Held} (hheld : s.sht.held = some h) (hwaiting : h.waiting = []) (hscan : s.scanning = false)
    (hrun : s.jobRunning = true) :
    s.endHold [] = ((holdOver s).loadLinepos (((h.b : Int) + (holdOver s).dmin - 1) * 2 ^ 32)).checkBoundary := by
  have hscan' : (holdOver s).scanning = false := (regsBut_holdOver.scanning (by decide)).trans hscan
  have hrun' : (holdOver s).jobRunning = true := by
    rw [State.jobRunning, holdOver_job]
    exact hrun
  unfold State.endHold
  simp only [hheld, hwaiting, List.append_nil, List.foldl_nil]
  rw [if_neg (by exact (Bool.eq_false_iff.mp hscan')), if_pos (by exact hrun')]
  rfl

/-- A Hold ends in single-pass operation while all that is complete has been claimed, and every line before its boundary has been armed: the
load of LINEPOS does nothing but claim lines that are not in the Reserve. -/
theorem endHold_single {h : Held} (hheld : s.sht.held = some h) (hjob : s.job = some j) (hphase : j.phase = .running)
    (hscan : s.scanning = false) (hreqs : s.sht.holdReqs = []) (habort : j.abortAt = none) (hlen : j.fired < j.length)
    (hcomplete : j.complete = j.claimed) (hwaiting : h.waiting = []) (hline : h.b + 256 ≤ 2 ^ 31)
    (harmed : ∀ g ∈ s.groupsOn, h.b ≤ (j.groups[g]).nextArm) :
    ClaimsOnly (lineposLoaded (holdOver s) (((h.b : Int) + s.dmin - 1) * 2 ^ 32) ((h.b : Int) + s.dmin - 1)) (s.endHold []) j := by
  have hdmin : (holdOver s).dmin = s.dmin := regsBut_holdOver.dmin (by decide)
  have hdle := dmin_le (s := s)
  have hrun : s.jobRunning = true := by simp [State.jobRunning, hjob, hphase]
  rw [endHold_eq hheld hwaiting hscan hrun, hdmin,
    loadLinepos_eq ((regsBut_holdOver.scanning (by decide)).trans hscan)
      (by rw [State.jobRunning, holdOver_job]; exact hrun) (by omega) (by omega)]
  generalize hi : (h.b : Int) + s.dmin - 1 = i
  have hloaded : ClaimsOnly (lineposLoaded (holdOver s) (i * 2 ^ 32) i) (lineposLoaded (holdOver s) (i * 2 ^ 32) i) j :=
    ⟨regsBut_refl _ _, rfl, j, by rw [lineposLoaded_job, holdOver_job, hjob], claimsOf_self hcomplete⟩
  have hclaims := hloaded.claimTo i
  have hregs : RegsBut (.SHT_LINEPOS :: .SHT_HOLD :: .SYS_MODE :: .DBG_UNLOCK_CTL :: lostRegs) s
      ((lineposLoaded (holdOver s) (i * 2 ^ 32) i).claimTo i) :=
    regsBut_trans (regsBut_mono regsBut_holdOver (by decide)) (regsBut_trans (t := lineposLoaded (holdOver s) (i * 2 ^ 32) i)
      (regsBut_mono (regsBut_lineposLoaded _ _) (by decide)) (regsBut_mono hclaims.regs (by decide)))
  obtain ⟨k, hk, -, hkj⟩ := hclaims.job
  have hgroups : k.groups = j.groups := by rw [hkj]
  have hstays : ((lineposLoaded (holdOver s) (i * 2 ^ 32) i).claimTo i).checkBoundary = (lineposLoaded (holdOver s) (i * 2 ^ 32) i).claimTo i := by
    refine checkBoundary_stays hk (by rw [hkj]; exact habort) (by rw [hkj]; exact hlen) fun r hr => ?_
    rw [hclaims.sht, lineposLoaded_sht, holdOver_sht, hreqs] at hr
    exact absurd hr List.not_mem_nil
  rw [armLoaded_stays hk fun g hg => ?_, hstays, hstays]
  · exact hclaims
  · rw [hregs.groupsOn (by decide)] at hg
    rw [hregs.delay (by decide), hgroups]
    have hdelay := dmin_le_delay hg
    have hnext := harmed g hg
    generalize (j.groups[g]).nextArm = n at hnext ⊢
    omega

/-- The end of a Hold in single-pass operation, as it shows. -/
theorem endHold_shows {h : Held} (hheld : s.sht.held = some h) (hjob : s.job = some j) (hphase : j.phase = .running)
    (hscan : s.scanning = false) (hreqs : s.sht.holdReqs = []) (habort : j.abortAt = none) (hlen : j.fired < j.length)
    (hcomplete : j.complete = j.claimed) (hwaiting : h.waiting = []) (hline : h.b + 256 ≤ 2 ^ 31)
    (harmed : ∀ g ∈ s.groupsOn, h.b ≤ (j.groups[g]).nextArm) :
    (s.endHold []).sht.held = none ∧ (s.endHold []).mode = 4 ∧ (s.endHold []).on F.SHT_HOLD_HELD = false ∧
    (s.endHold []).reg .SHT_LINEPOS = BitVec.ofInt 64 (((h.b : Int) + s.dmin - 1) * 2 ^ 32) := by
  obtain ⟨hregs, hsht, -⟩ := endHold_single hheld hjob hphase hscan hreqs habort hlen hcomplete hwaiting hline harmed
  generalize (h.b : Int) + s.dmin - 1 = i at hregs hsht ⊢
  have hloaded : RegsBut [.SHT_LINEPOS] (holdOver s) (lineposLoaded (holdOver s) (i * 2 ^ 32) i) := regsBut_lineposLoaded _ _
  refine ⟨?_, ?_, ?_, ?_⟩
  · rw [hsht, lineposLoaded_sht, holdOver_sht]
  · rw [hregs.mode (by decide), hloaded.mode (by decide)]
    exact toMode_mode _ (by decide) 0
  · rw [hregs.on (by decide) (by decide), hloaded.on (by decide) (by decide), holdOver_held]
  · rw [hregs .SHT_LINEPOS (by decide) 0 (by decide), lineposLoaded_reg]

end Load

end Sys2Proof.Proofs
end

section
/-!
SUPPORT. O42: the end of a job (R151, R163, R262, R265, R310), and the proof.
-/

namespace Sys2Proof.Proofs

open Sys2Proof.Machine Sys2Proof.Claims

/-! ## The steps of the end of a job -/

section Steps

variable {s t : State} {j : Job}

/-- What the commands that wait leave when they have ended. -/
def waitersOff (s : State) (fn : Fin 8) : State :=
  { s with
    sht := { s.sht with holdReqs := [], held := none },
    hst := { s.hst with
      loads := s.hst.loads.filter fun l => !(decide (l.fn = fn) && s.hostFed), pending := s.hst.pending.filter fun p => p.held } }

/-- The parts that the ends of commands may change. -/
abbrev endParts : List Part := [.sht, .hst, .regs, .free, .out]

theorem only_waitersOff (fn : Fin 8) : Only endParts s (waitersOff s fn) :=
  only_trans (only_sht (ps := endParts) (by decide) { s.sht with holdReqs := [], held := none }) (only_hst (by decide) _)

/-- SHT_HOLD shows no Hold and no request. -/
def holdBlank (s : State) : State := ((s.fset F.SHT_HOLD_REQ 0).fset F.SHT_HOLD_HELD 0).fset F.SHT_HOLD_RESUME 0

theorem only_holdBlank : Only endParts s (holdBlank s) :=
  (only_fset (by decide) _ _ _).mpr ((only_fset (by decide) _ _ _).mpr ((only_fset (by decide) _ _ _).mpr (only_refl _ s)))

theorem holdBlank_sht : (holdBlank s).sht = s.sht := rfl

/-- The HOLDs end with ABORTED and the boundary 0. -/
def endHolds (l : List CmdRef) (s : State) : State := l.foldl (fun s c => s.complete c stABORTED 0) s

theorem endHolds_spec (l : List CmdRef) : Only endParts s (endHolds l s) ∧ (endHolds l s).sht = s.sht :=
  foldl_keeps (p := fun t : State => Only endParts s t ∧ t.sht = s.sht) l _
    (fun t c ⟨ht, hs⟩ => ⟨(only_complete (by decide) (by decide) (by decide) c _ _ _).mpr ht, (State.complete_sht ..).trans hs⟩) s
    ⟨only_refl _ s, rfl⟩

/-- The RESUMEs, the host loads and the updates of a job end with ABORTED. -/
theorem abortWaiting_eq (fn : Fin 8) : ∃ holds rest, s.abortWaiting fn = endAborted rest (endHolds holds (holdBlank (waitersOff s fn))) :=
  ⟨_, _, rfl⟩

theorem abortWaiting_spec (fn : Fin 8) :
    Only endParts s (s.abortWaiting fn) ∧ (s.abortWaiting fn).sht = { s.sht with holdReqs := [], held := none } := by
  obtain ⟨holds, rest, heq⟩ := abortWaiting_eq (s := s) fn
  obtain ⟨honly, hsht⟩ := endHolds_spec (s := holdBlank (waitersOff s fn)) holds
  have hblank : Only endParts s (holdBlank (waitersOff s fn)) := only_trans (only_waitersOff fn) only_holdBlank
  rw [heq]
  refine ⟨only_trans (only_trans hblank honly) (only_endAborted (by decide) (by decide) (by decide) (by decide) _), ?_⟩
  refine endAborted_keeps (p := fun t => t.sht = { s.sht with holdReqs := [], held := none })
    (fun t c ht => (State.completeOpen_sht ..).trans ht) rest (hsht.trans ?_)
  rw [holdBlank_sht, waitersOff]

/-- The commands of the job, and those that wait, have ended. -/
def jobAnswered (s : State) (j : Job) : State :=
  let waited := (runsClosed s).abortWaiting j.fn
  j.aborts.foldl (fun s c => s.complete c stOK j.fired) (if j.posted then waited else waited.completeOpen j.cmd stABORTED)

theorem jobAnswered_spec : Only (.job :: .cs :: endParts) s (jobAnswered s j) ∧
    (jobAnswered s j).sht = { s.sht with holdReqs := [], held := none } := by
  unfold jobAnswered
  extract_lets waited
  obtain ⟨honly, hsht⟩ := abortWaiting_spec (s := runsClosed s) j.fn
  rw [runsClosed_sht] at hsht
  have hwaited : Only (.job :: .cs :: endParts) s waited :=
    only_trans (only_mono only_runsClosed (by decide)) (only_mono honly (by decide))
  have hposted : Only (.job :: .cs :: endParts) s (if j.posted then waited else waited.completeOpen j.cmd stABORTED) ∧
      (if j.posted then waited else waited.completeOpen j.cmd stABORTED).sht = { s.sht with holdReqs := [], held := none } := by
    split
    · exact ⟨hwaited, hsht⟩
    · exact ⟨(only_completeOpen (by decide) (by decide) (by decide) (by decide) j.cmd _).mpr hwaited, (State.completeOpen_sht ..).trans hsht⟩
  refine foldl_keeps (p := fun t : State => Only (.job :: .cs :: endParts) s t ∧ t.sht = { s.sht with holdReqs := [], held := none }) _ _
    (fun t c ⟨ht, hs⟩ => ⟨?_, (State.complete_sht ..).trans hs⟩) _ hposted
  exact (only_complete (by decide) (by decide) (by decide) c _ _ _).mpr ht

theorem only_doutChanges (old : State) : Only [.out] s (s.doutChanges old) := by
  refine only_forFin (fun t o => ?_) s
  split
  · exact only_refl _ t
  · exact (only_emit (by decide) _).mpr (only_refl _ t)

/-- HOLD_REQ with a level. -/
def holdReqSet (s : State) (v : Bool) : State := { s with sht := { s.sht with holdReqDriven := v } }

theorem only_holdReqSet {ps : List Part} (h : .sht ∈ ps) (v : Bool) : Only ps s (holdReqSet s v) := only_sht h _

theorem driveHoldReq_eq (v : Bool) : s.driveHoldReq v = (holdReqSet s v).doutChanges s := rfl

theorem only_driveHoldReq (v : Bool) : Only [.sht, .out] s (s.driveHoldReq v) :=
  only_trans (only_holdReqSet (by decide) v) (only_mono (only_doutChanges s) (by decide))

theorem driveHoldReq_sht (v : Bool) : (s.driveHoldReq v).sht = { s.sht with holdReqDriven := v } := by
  rw [driveHoldReq_eq, only_part (only_doutChanges s) (p := .sht) (by decide), holdReqSet]

/-- No swath is armed, and the next fall of D warns. -/
def swathOff (s : State) : State := { s with sht := { s.sht with warnArmed := true, swath := {} } }

theorem only_swathOff {ps : List Part} (h : .sht ∈ ps) : Only ps s (swathOff s) := only_sht h _

theorem swathOff_held : (swathOff s).sht.held = s.sht.held := rfl

theorem swathOff_holdReqs : (swathOff s).sht.holdReqs = s.sht.holdReqs := rfl

/-- HOLD_REQ has been released, and no swath is armed. -/
def jobUnarmed (s : State) (j : Job) : State := swathOff ((jobAnswered s j).driveHoldReq false)

/-- No lane sends a line of the job again. -/
def lanesCleared (s : State) : State :=
  s.forFin 16 fun l s => s.modLane l fun x =>
    { x with window := x.window.map (fun f => { f with stale := true }), line := 0, frame := 0, sentLines := [] }

/-- No Developer has a window of the job. -/
def windowsClosed (s : State) : State := s.forFin 4 fun d s => s.modDev d fun x => { x with win := none, slot := none }

/-- The function's lines that were staged for the job are gone. -/
def jobUnstaged (s : State) (j : Job) : State := if j.reel = 0 then (s.setNextLoad j.fn 0).dropStaged j.fn 0 else s

/-- The job has no resource left. -/
def jobUnloaded (s : State) (j : Job) : State :=
  jobUnstaged (((windowsClosed (lanesCleared (jobUnarmed s j))).dropBands).releaseReel j.reel) j

/-- The module has no job. -/
def jobGone (s : State) : State := { s with job := none, store := { s.store with undelivered := [] } }

theorem endJob_eq (hjob : s.job = some j) : s.endJob = (jobGone (jobUnloaded s j)).applyHalts := by
  unfold State.endJob
  split
  · next hnone => simp [hjob] at hnone
  · next k hk =>
    obtain rfl := Option.some.inj (hjob.symm.trans hk)
    extract_lets runs waited posted aborts driven _ swath lanes devs reel staged _
    have haborts : aborts = jobAnswered s j := rfl
    clear_value aborts
    have hswath : swath = jobUnarmed s j := by
      rw [jobUnarmed, ← haborts]
      rfl
    clear_value swath
    subst hswath
    rfl

/-! ## What each step leaves -/

theorem jobUnarmed_spec : Only (.job :: .cs :: endParts) s (jobUnarmed s j) ∧ (jobUnarmed s j).sht.held = none ∧
    (jobUnarmed s j).sht.holdReqs = [] := by
  obtain ⟨honly, hsht⟩ := jobAnswered_spec (s := s) (j := j)
  refine ⟨only_trans (only_trans honly (only_mono (only_driveHoldReq false) (by decide))) (only_swathOff (by decide)), ?_, ?_⟩
  · rw [jobUnarmed, swathOff_held, driveHoldReq_sht, hsht]
  · rw [jobUnarmed, swathOff_holdReqs, driveHoldReq_sht, hsht]

theorem only_lanesCleared : Only [.lanes] s (lanesCleared s) := only_forFin (fun t l => only_lanes (by decide) _) s

theorem only_windowsClosed : Only [.devs] s (windowsClosed s) :=
  only_forFin (fun t d => (only_modDev (by decide) d _).mpr (only_refl _ t)) s

/-- The Developers have no window. -/
def Windowless (s : State) : Prop := ∀ d : Fin 4, (s.devs[d]).win = none ∧ (s.devs[d]).slot = none

theorem windowless_congr (h : t.devs = s.devs) (hs : Windowless s) : Windowless t := fun d => by rw [h]; exact hs d

theorem windowless_windowsClosed : Windowless (windowsClosed s) := by
  intro d
  have hmod (t : State) (e : Fin 4) (h : e = d ∨ ((t.devs[d]).win = none ∧ (t.devs[d]).slot = none)) :
      (((t.modDev e fun x => { x with win := none, slot := none }).devs[d]).win = none ∧
        ((t.modDev e fun x => { x with win := none, slot := none }).devs[d]).slot = none) := by
    rw [modDev_dev]
    split
    · exact ⟨rfl, rfl⟩
    next hne => exact h.resolve_left hne
  exact foldl_reaches (p := fun _ => True) (q := fun t : State => (t.devs[d]).win = none ∧ (t.devs[d]).slot = none) (List.mem_finRange d)
    (fun _ _ _ => trivial) (fun t e h => hmod t e (.inr h)) (fun t _ => hmod t d (.inl rfl)) trivial

/-- One Enlarger discards its bands. -/
def bandsDropped (p : Fin 4) (s : State) : State := ((s.modEnl p fun _ => {}).fset F.ENL_STATUS_QDEPTH 0 p).fset F.ENL_STATUS_HALTED 0 p

/-- An Enlarger with no band, queued or fed. -/
def Bandless (s : State) (p : Fin 4) : Prop :=
  s.enl[p] = {} ∧ s.fv F.ENL_STATUS_QDEPTH p = 0 ∧ s.on F.ENL_STATUS_HALTED p = false

theorem modEnl_enl (p q : Fin 4) (f : Enl → Enl) : (s.modEnl p f).enl[q] = if p = q then f s.enl[p] else s.enl[q] := by
  simp only [State.modEnl, Fin.getElem_fin]
  rw [Vector.getElem_set]
  by_cases hpq : p = q
  · rw [if_pos hpq, if_pos (congrArg Fin.val hpq)]
  · rw [if_neg hpq, if_neg fun h => hpq (Fin.ext h)]

theorem bandsDropped_enl (p q : Fin 4) : (bandsDropped p s).enl[q] = if p = q then {} else s.enl[q] := modEnl_enl p q fun _ => {}

theorem bandsDropped_same (p : Fin 4) : Bandless (bandsDropped p s) p := by
  have hp : p.val < 1024 := by omega
  refine ⟨?_, ?_, ?_⟩
  · rw [bandsDropped_enl, if_pos rfl]
  · rw [bandsDropped, fv_fset_apart _ _ hp hp (by decide), fv_fset_same _ _ _ _ (by decide)]
    rfl
  · rw [bandsDropped, State.on, fv_fset_same _ _ _ _ (by decide)]
    rfl

theorem bandsDropped_other {p q : Fin 4} (hpq : p ≠ q) (h : Bandless s q) : Bandless (bandsDropped p s) q := by
  have hp : p.val < 1024 := by omega
  have hq : q.val < 1024 := by omega
  have hne : p.val ≠ q.val := fun h => hpq (Fin.ext h)
  have hmod (f : Fld) : (s.modEnl p fun _ => {}).fv f q = s.fv f q := fv_congr rfl f q
  have hfv (f : Fld) : (bandsDropped p s).fv f q = s.fv f q := by
    rw [bandsDropped, fv_fset_elsewhere _ _ hp hq hne, fv_fset_elsewhere _ _ hp hq hne, hmod]
  obtain ⟨henl, hdepth, hhalted⟩ := h
  refine ⟨?_, (hfv _).trans hdepth, ?_⟩
  · rw [bandsDropped_enl, if_neg hpq, henl]
  · rw [State.on, hfv]
    exact hhalted

theorem dropBands_eq (s : State) : s.dropBands = s.forFin 4 bandsDropped := rfl

theorem dropBands_bandless (p : Fin 4) : Bandless s.dropBands p := by
  rw [dropBands_eq]
  refine foldl_reaches (p := fun _ => True) (q := fun t : State => Bandless t p) (f := fun t q => bandsDropped q t) (List.mem_finRange p)
    (fun _ _ _ => trivial) (fun t q h => ?_) (fun t _ => bandsDropped_same p) trivial
  by_cases hq : q = p
  · subst hq
    exact bandsDropped_same q
  · exact bandsDropped_other hq h

theorem only_modEnl {ps : List Part} (h : .enl ∈ ps) (p : Fin 4) (f : Enl → Enl) : Only ps s (s.modEnl p f) := only_enl h _

theorem only_bandsDropped (p : Fin 4) : Only [.enl, .regs] s (bandsDropped p s) :=
  (only_fset (by decide) _ _ _).mpr ((only_fset (by decide) _ _ _).mpr (only_modEnl (by decide) p _))

theorem only_dropBands : Only [.enl, .regs] s s.dropBands := by
  rw [dropBands_eq]
  exact only_forFin (fun _ p => only_bandsDropped p) s

theorem only_releaseReel (h : BitVec 32) : Only [.store] s (s.releaseReel h) := by
  unfold State.releaseReel
  split
  · split
    · exact only_store (by decide) _
    · exact only_refl _ s
  · exact only_refl _ s

theorem only_jobUnstaged : Only [.hst] s (jobUnstaged s j) := by
  unfold jobUnstaged
  split
  · exact only_trans ((only_modFn (by decide) _ _).mpr (only_refl _ s)) (only_hst (by decide) _)
  · exact only_refl _ s

/-- A Reel in use is CLOSED once it is released. -/
theorem reelAt_releaseReel {h : BitVec 32} {x : Reel} (hreel : s.reelAt h = some x) (hstate : x.state = .inUse) :
    (s.releaseReel h).reelAt h = some { x with state := .closed, loaded := false, prefetched := (0, 0) } := by
  have hgen : x.gen = h.toNat / 4096 := by
    unfold State.reelAt at hreel
    split at hreel
    · split at hreel
      · next hg =>
        obtain rfl := Option.some.inj hreel
        exact hg
      · simp at hreel
    · simp at hreel
  have hset : s.releaseReel h = s.setReel h (some { x with state := .closed, loaded := false, prefetched := (0, 0) }) := by
    unfold State.releaseReel
    simp only [hreel]
    rw [if_pos hstate]
  rw [hset]
  unfold State.reelAt State.setReel
  dsimp only
  rw [smGet_set_same]
  dsimp only
  rw [if_pos hgen]

theorem reelAt_congr (h : t.store.reels = s.store.reels) (r : BitVec 32) : t.reelAt r = s.reelAt r := by
  unfold State.reelAt
  rw [h]

/-! ## Halts that waited (R348) -/

theorem windowless_haltCore (c : Fin 8) (hs : Windowless s) : Windowless (s.haltCore c) := by
  unfold State.haltCore
  dsimp only
  split
  · intro d
    rw [abandon_eq, gangDue_devs, modDev_dev]
    split
    · exact hs d
    · exact hs d
  · exact hs

theorem windowless_applyHalts (hs : Windowless s) : Windowless s.applyHalts := by
  unfold State.applyHalts
  refine windowless_congr (s := s.forFin 4 _) rfl (forFin_keeps 4 _ (fun t d ht => ?_) s hs)
  split
  · exact windowless_haltCore _ ht
  · exact ht

theorem bandless_of_halts {p : Fin 4} (hs : Bandless s p) : Bandless s.applyHalts p := by
  have hp : p.val < 1024 := by omega
  obtain ⟨henl, hdepth, hhalted⟩ := hs
  refine ⟨?_, ?_, ?_⟩
  · have hkept : s.applyHalts.enl = s.enl := only_part only_applyHalts (p := .enl) (by decide)
    rw [hkept, henl]
  · rw [regsBut_applyHalts.fv (by decide) hp, hdepth]
  · rw [regsBut_applyHalts.on (by decide) hp, hhalted]

theorem bandless_congr {p : Fin 4} (henl : t.enl = s.enl) (hregs : t.regs = s.regs) (hs : Bandless s p) : Bandless t p := by
  obtain ⟨hbands, hdepth, hhalted⟩ := hs
  refine ⟨?_, ?_, ?_⟩
  · rw [henl, hbands]
  · rw [fv_congr hregs, hdepth]
  · rw [State.on, fv_congr hregs]
    exact hhalted

/-! ## The state at the end of a job -/

/-- The job's bands are gone. -/
def jobUnbanded (s : State) (j : Job) : State := (windowsClosed (lanesCleared (jobUnarmed s j))).dropBands

theorem only_jobUnloaded : Only [.store, .hst] (jobUnbanded s j) (jobUnloaded s j) :=
  only_trans (only_mono (only_releaseReel j.reel) (by decide)) (only_mono only_jobUnstaged (by decide))

theorem only_jobUnbanded_of_windows : Only [.enl, .regs] (windowsClosed (lanesCleared (jobUnarmed s j))) (jobUnbanded s j) := only_dropBands

theorem only_jobUnbanded_of_unarmed : Only [.lanes, .devs, .enl, .regs] (jobUnarmed s j) (jobUnbanded s j) :=
  only_trans (only_trans (only_mono only_lanesCleared (by decide)) (only_mono only_windowsClosed (by decide)))
    (only_mono only_jobUnbanded_of_windows (by decide))

theorem jobUnloaded_bandless (p : Fin 4) : Bandless (jobUnloaded s j) p :=
  bandless_congr (only_part only_jobUnloaded (p := .enl) (by decide)) (only_part only_jobUnloaded (p := .regs) (by decide))
    (dropBands_bandless p)

theorem jobUnloaded_windowless : Windowless (jobUnloaded s j) :=
  windowless_congr (only_part (only_trans (only_mono only_jobUnbanded_of_windows (by decide))
    (only_mono only_jobUnloaded (by decide)) (ps := [.enl, .regs, .store, .hst])) (p := .devs) (by decide)) windowless_windowsClosed

theorem jobUnloaded_holdless : (jobUnloaded s j).sht.held = none ∧ (jobUnloaded s j).sht.holdReqs = [] := by
  obtain ⟨-, hheld, hreqs⟩ := jobUnarmed_spec (s := s) (j := j)
  have hsht : (jobUnloaded s j).sht = (jobUnarmed s j).sht :=
    only_part (only_trans (only_mono only_jobUnbanded_of_unarmed (by decide)) (only_mono only_jobUnloaded (by decide))
      (ps := [.lanes, .devs, .enl, .regs, .store, .hst])) (p := .sht) (by decide)
  rw [hsht]
  exact ⟨hheld, hreqs⟩

theorem jobUnbanded_store : (jobUnbanded s j).store = s.store := by
  obtain ⟨honly, -⟩ := jobUnarmed_spec (s := s) (j := j)
  exact only_part (only_trans (only_mono honly (by decide)) (only_mono only_jobUnbanded_of_unarmed (by decide))
    (ps := [.job, .cs, .sht, .hst, .regs, .free, .out, .lanes, .devs, .enl])) (p := .store) (by decide)

theorem jobUnloaded_reel {x : Reel} (hreel : s.reelAt j.reel = some x) (hstate : x.state = .inUse) :
    (jobUnloaded s j).reelAt j.reel = some { x with state := .closed, loaded := false, prefetched := (0, 0) } := by
  have hkept : (jobUnloaded s j).store = ((jobUnbanded s j).releaseReel j.reel).store := only_part only_jobUnstaged (p := .store) (by decide)
  rw [reelAt_congr (congrArg Store.reels hkept)]
  exact reelAt_releaseReel ((reelAt_congr (congrArg Store.reels jobUnbanded_store) _).trans hreel) hstate

/-- The end of a job is the end of the one that its closed runs leave, in Ready. -/
theorem finishJob_eq (hjob : s.job = some j) :
    s.finishJob = (jobGone (jobUnloaded ((runsClosed s).toMode 3 j.number) { j with blankRun := none, staleRun := none })).applyHalts := by
  have hended : s.finishJob = ((runsClosed s).toMode 3 j.number).endJob := by
    unfold State.finishJob
    split
    · next hnone => simp [hjob] at hnone
    · next k hk =>
      obtain rfl := Option.some.inj (hjob.symm.trans hk)
      rfl
  rw [hended]
  exact endJob_eq ((State.toMode_job ..).trans (runsClosed_job hjob))

theorem finishJob_mode (hjob : s.job = some j) : s.finishJob.mode = 3 := by
  have hmode : (((runsClosed s).toMode 3 j.number).endJob).mode = ((runsClosed s).toMode 3 j.number).mode := keeps_mode (keeps_endJob (by decide))
  rw [finishJob_eq hjob, ← endJob_eq ((State.toMode_job ..).trans (runsClosed_job hjob)), hmode]
  exact toMode_mode _ (by decide) _

/-- A job has ended: Ready, no Hold, no band, no window, and its Reel CLOSED. -/
theorem finishJob_spec (hjob : s.job = some j) :
    s.finishJob.job = none ∧ s.finishJob.mode = 3 ∧ s.finishJob.sht.held = none ∧ s.finishJob.sht.holdReqs = [] ∧
    (∀ p, Bandless s.finishJob p) ∧ Windowless s.finishJob ∧
    ∀ x, s.reelAt j.reel = some x → x.state = .inUse →
      s.finishJob.reelAt j.reel = some { x with state := .closed, loaded := false, prefetched := (0, 0) } := by
  have hstore : ((runsClosed s).toMode 3 j.number).store = s.store :=
    (State.toMode_store ..).trans (only_part only_runsClosed (p := .store) (by decide))
  refine ⟨?_, finishJob_mode hjob, ?_⟩
  · rw [finishJob_eq hjob, only_part only_applyHalts (p := .job) (by decide), jobGone]
  rw [finishJob_eq hjob]
  generalize hu : (runsClosed s).toMode 3 j.number = u at hstore
  generalize hk : ({ j with blankRun := none, staleRun := none } : Job) = k
  have hreel : k.reel = j.reel := by rw [← hk]
  obtain ⟨hheld, hreqs⟩ := jobUnloaded_holdless (s := u) (j := k)
  have hsht : (jobGone (jobUnloaded u k)).applyHalts.sht = (jobUnloaded u k).sht := only_part only_applyHalts (p := .sht) (by decide)
  refine ⟨by rw [hsht, hheld], by rw [hsht, hreqs], fun p => ?_, ?_, fun x hx hstate => ?_⟩
  · exact bandless_of_halts (s := jobGone (jobUnloaded u k)) (jobUnloaded_bandless p)
  · exact windowless_applyHalts (s := jobGone (jobUnloaded u k)) jobUnloaded_windowless
  · have hkept : (jobGone (jobUnloaded u k)).applyHalts.store = (jobGone (jobUnloaded u k)).store :=
      only_part only_applyHalts (p := .store) (by decide)
    rw [reelAt_congr (congrArg Store.reels hkept), ← hreel]
    refine jobUnloaded_reel (s := u) (j := k) ?_ hstate
    rw [hreel, reelAt_congr (congrArg Store.reels hstore), hx]

end Steps

/-! ## The obligation -/

/-- Settles O42: the bodies of HOLD, RESUME and ABORT once they start, and what a Hold's beginning, its end and the end of a job leave. -/
theorem holdsAndJobEnds : Obligations.HoldsAndJobEnds := by
  unfold Obligations.HoldsAndJobEnds
  refine ⟨⟨fun s c k fn r t h => ?_, fun s c k fn r t h => ?_, fun s c k fn r t h => ?_⟩, fun s b q hreqs hb hline hcause => ?_,
    fun s h j hheld hjob hphase hscan hreqs habort hlen hcomplete hwaiting hline harmed => ?_, fun s j hjob => ?_⟩
  · refine ⟨fun hheld => does_hold h ?_, fun x hheld => hold_in_hold h hheld⟩
    unfold holdBody
    simp only [hheld]
  · exact ⟨fun hheld => resume_withdraws h hheld, fun x hheld => ⟨fun n hmap => resume_map_fault h hheld hmap,
      fun hmap hhalt => resume_halted h hheld hmap hhalt, fun hmap hhalt hback => resume_waits h hheld hmap hhalt hback,
      fun hmap hhalt hback => resume_ends h hheld hmap hhalt hback⟩⟩
  · exact ⟨fun j hjob => abort_running h hjob, fun hjob => abort_ready h hjob⟩
  · exact reachHold_single hreqs hb hline hcause
  · exact endHold_shows hheld hjob hphase hscan hreqs habort hlen hcomplete hwaiting hline harmed
  · exact finishJob_spec hjob

end Sys2Proof.Proofs
end

section
/-!
SUPPORT. TABLE_UPDATE and PROGRAM_CHANGE (R165, R209, R264, R268): their bodies, branch by branch.
-/

namespace Sys2Proof.Proofs

open Sys2Proof.Machine Sys2Proof.Claims

/-! ## TABLE_UPDATE (R165, R209, R268) -/

/-- The update that a TABLE_UPDATE asks for. -/
def tablePending (d : Desc) (arrived : Bool) (c : CmdIn) (r : CmdRef) (s : State) : Pending :=
  { cmd := r, fn := r.fn, line := descP1 d 40 4, change := none, table := d.p0.toNat % 64, insp := d.p0.getLsbD 8,
    plane := d.offset.toNat, data := c.host.data.take d.length.toNat, arrived := arrived, late := false, held := s.job.isNone }

/-- A change waits for its line. -/
def queued (s : State) (p : Pending) : State := { s with hst := { s.hst with pending := s.hst.pending ++ [p] } }

/-- The image that an update is checked against. -/
def tableImage (s : State) (p : Pending) : Option ProgramImage :=
  match s.job with
  | some j => s.imageAt j p.insp p.line
  | none => none

/-- An update whose declaration fits is refused while the loop writes its table, or while 8 wait; else it waits. -/
def tableTaken (p : Pending) (c : CmdIn) (r : CmdRef) (s : State) : State :=
  if s.job.isSome ∧ s.on F.CAM_CTL_LOOP_EN ∧ gainTable (tableImage s p) p.table then s.completeReason r stCONFLICT 0x22
  else if 8 ≤ s.hst.pending.countP (fun p => p.change.isNone) then s.completeDetail r stBUSY (s.free_ 8).toNat (s.free_ 32).toNat
  else
    match s.hostFault c r c.desc.length.toNat with
    | some t => t
    | none => queued s p

/-- TABLE_UPDATE. -/
def tableBody (d : Desc) (arrived : Bool) (c : CmdIn) (r : CmdRef) (s : State) : State :=
  if d.length.toNat % 8192 ≠ 0 ∨ d.length = 0 then s.completeReason r stCONFLICT 0xF3
  else
    match if s.job.isNone then none else tableReason (tableImage s (tablePending d arrived c r s)) (tablePending d arrived c r s) with
    | some code => s.completeReason r stCONFLICT code
    | none => tableTaken (tablePending d arrived c r s) c r s

theorem exec_tableUpdate (c : CmdIn) (arrived : Bool) (s : State) : exec (.tableUpdate c arrived) s =
    s.effect fun s => s.start c 0x16 { offset := true, length := true, p0 := 0x13F, host := true, p1 := p1Bits 40 4 } notDenied
      (tableBody c.desc arrived) := rfl

section TableUpdate

variable {s t : State} {c : CmdIn} {arrived : Bool} {k : HostCmd} {fn : Fin 8} {r : CmdRef}

/-- The update that the command asks for in the state in which it starts. -/
def tableAsked (s t : State) (c : CmdIn) (arrived : Bool) (r : CmdRef) : Pending := tablePending c.desc arrived (inputOf s c) r t

/-- The body of TABLE_UPDATE runs. -/
theorem does_tableUpdate (h : Starts s (.tableUpdate c arrived) k fn r t) :
    Does (.tableUpdate c arrived) s (tableBody c.desc arrived (inputOf s c) r t) := by
  obtain rfl := Option.some.inj h.row
  exact does_of_starts h (exec_tableUpdate c arrived s) rfl

/-- A change that waits is all that its command leaves. -/
theorem answers_queued {i : Instr} {p : Pending} (h : Starts s i k fn r t) (hdoes : Does i s (queued t p)) {α : Type} (f : Pending → α) :
    Answers i s fun u => u.hst.pending.map f = t.hst.pending.map f ++ [f p] ∧ Only [.hst] s u := by
  have honly : Only [.hst] s (queued t p) := only_trans (Starts.only h (by decide)) (only_hst (by decide) _)
  refine answers_of_does hdoes honly ⟨?_, honly⟩
  show (t.hst.pending ++ [p]).map f = _
  rw [List.map_append, List.map_singleton]

variable (h : Starts s (.tableUpdate c arrived) k fn r t)

include h

theorem tableUpdate_missized (hsize : ¬ (c.desc.length.toNat % 8192 = 0 ∧ c.desc.length ≠ 0)) :
    Refused (.tableUpdate c arrived) s t r 0x11 0xF3 := by
  have hdoes := does_tableUpdate h
  rw [tableBody, if_pos (by rwa [not_and_or, not_ne_iff] at hsize)] at hdoes
  exact refused_of_reason hdoes (by decide)

section Sized

variable (hsize : c.desc.length.toNat % 8192 = 0 ∧ c.desc.length ≠ 0)

include hsize

/-- A declaration that the update does not fit. -/
theorem tableUpdate_refused {j : Job} {code : Nat} (hjob : t.job = some j)
    (hreason : tableReason (t.imageAt j (c.desc.p0.getLsbD 8) (descP1 c.desc 40 4)) (tableAsked s t c arrived r) = some code) (hcode : code < 256) :
    Refused (.tableUpdate c arrived) s t r 0x11 code := by
  have hdoes := does_tableUpdate h
  have himage : tableImage t (tableAsked s t c arrived r) = t.imageAt j (c.desc.p0.getLsbD 8) (descP1 c.desc 40 4) := by
    unfold tableImage
    rw [hjob]
    rfl
  have hjudged : (if t.job.isNone then none else tableReason (tableImage t (tableAsked s t c arrived r)) (tableAsked s t c arrived r)) =
      some code := by
    rw [if_neg (by simp [hjob]), himage, hreason]
  rw [tableBody, if_neg (by rwa [not_or, not_not]), ← tableAsked, hjudged] at hdoes
  exact refused_of_reason hdoes hcode

/-- An update that its declaration fits. -/
theorem tableUpdate_fits
    (hreason : ∀ j, t.job = some j →
      tableReason (t.imageAt j (c.desc.p0.getLsbD 8) (descP1 c.desc 40 4)) (tableAsked s t c arrived r) = none) :
    Does (.tableUpdate c arrived) s (tableTaken (tableAsked s t c arrived r) (inputOf s c) r t) := by
  have hdoes := does_tableUpdate h
  have hjudged : (if t.job.isNone then none else tableReason (tableImage t (tableAsked s t c arrived r)) (tableAsked s t c arrived r)) = none := by
    unfold tableImage
    rcases hjob : t.job with _ | j
    · rfl
    · exact hreason j hjob
  rwa [tableBody, if_neg (by rwa [not_or, not_not]), ← tableAsked, hjudged] at hdoes

end Sized

end TableUpdate

/-- The camera loop does not write the update's table (R209). -/
def LoopFree (t : State) (p : Pending) : Prop :=
  ∀ j, t.job = some j → ¬ (t.on F.CAM_CTL_LOOP_EN = true ∧ gainTable (t.imageAt j p.insp p.line) p.table = true)

section Taken

variable {s t : State} {i : Instr} {c : CmdIn} {r : CmdRef} {p : Pending}

theorem tableTaken_loop {j : Job} (hjob : t.job = some j) (hloop : t.on F.CAM_CTL_LOOP_EN = true)
    (hgain : gainTable (t.imageAt j p.insp p.line) p.table = true) : tableTaken p c r t = t.completeReason r stCONFLICT 0x22 := by
  have himage : tableImage t p = t.imageAt j p.insp p.line := by
    unfold tableImage
    rw [hjob]
  exact if_pos ⟨by simp [hjob], hloop, by rw [himage, hgain]⟩

/-- The loop does not write the table. -/
theorem tableTaken_free (hloop : LoopFree t p) :
    tableTaken p c r t = if 8 ≤ t.hst.pending.countP (fun p => p.change.isNone) then
        t.completeDetail r stBUSY (t.free_ 8).toNat (t.free_ 32).toNat
      else
        match t.hostFault c r c.desc.length.toNat with
        | some t => t
        | none => queued t p := by
  refine if_neg fun ⟨hsome, hon, hgain⟩ => ?_
  obtain ⟨j, hjob⟩ := Option.isSome_iff_exists.mp hsome
  have himage : tableImage t p = t.imageAt j p.insp p.line := by
    unfold tableImage
    rw [hjob]
  exact hloop j hjob ⟨hon, himage ▸ hgain⟩

theorem tableTaken_full (hloop : LoopFree t p) (hfull : 8 ≤ t.hst.pending.countP (fun p => p.change.isNone)) :
    tableTaken p c r t = t.completeDetail r stBUSY (t.free_ 8).toNat (t.free_ 32).toNat := by
  rw [tableTaken_free hloop, if_pos hfull]

theorem tableTaken_queued (hloop : LoopFree t p) (hfull : ¬ 8 ≤ t.hst.pending.countP (fun p => p.change.isNone))
    (hhost : HostOk c c.desc.length.toNat) :
    tableTaken p c r t = queued t p := by
  rw [tableTaken_free hloop, if_neg hfull, hostFault_none hhost]

end Taken

/-! ## PROGRAM_CHANGE (R209, R264, R268) -/

/-- The change that a PROGRAM_CHANGE asks for. -/
def changePending (d : Desc) (r : CmdRef) : Pending :=
  { cmd := r, fn := r.fn, line := descP1 d 44 4, change := some (descP1 d 40 2, descP1 d 42 2), table := 0, insp := false, plane := 0,
    data := [], arrived := true, late := false, held := false }

/-- An image is checked against the running job: its layout, its budget and its hashes. -/
def changeJudged (d : Desc) (r : CmdRef) (s : State) (j : Job) (insp : Option ProgramImage) (im : ProgramImage) : State :=
  if im.npgDeclared.any (fun n => decide (n ≠ j.npgCode)) ∨ im.layoutId ≠ j.image.layoutId ∨
      insp.map (fun i => i.layoutId) ≠ j.inspImage.map (fun i => i.layoutId) then s.completeReason r stCONFLICT 0x11
  else if overBudget im insp (j.inspect && j.interleaved) j.rateMax then
    s.completeDetail r stCONFLICT 0x10 (cycleQuarters im insp (j.inspect && j.interleaved) / 4)
  else
    match s.hashMismatch im insp (j.inspect && !j.interleaved) with
    | some k => s.completeDetail r stCONFLICT 0x12 k
    | none => queued s (changePending d r)

/-- PROGRAM_CHANGE with a job. -/
def changeAsked (d : Desc) (r : CmdRef) (s : State) (j : Job) : State :=
  if ¬ j.inspect ∧ descP1 d 42 2 ≠ 0xFFFF then s.completeReason r stCONFLICT 0xF3
  else
    match s.badSlot (descP1 d 40 2) (descP1 d 42 2) j.inspect, s.program (descP1 d 40 2) with
    | some k, _ => s.completeDetail r stCONFLICT 0x1B k
    | none, none => s.completeDetail r stCONFLICT 0x1B (descP1 d 40 2)
    | none, some im => changeJudged d r s j (if j.inspect then s.program (descP1 d 42 2) else none) im

/-- PROGRAM_CHANGE. -/
def changeBody (d : Desc) (_ : CmdIn) (r : CmdRef) (s : State) : State :=
  match s.job with
  | none => s.completeOpen r stMODE
  | some j => changeAsked d r s j

theorem exec_programChange (c : CmdIn) (s : State) : exec (.programChange c) s =
    s.effect fun s => s.start c 0x17 { p1 := p1Bits 40 8 } notDenied (changeBody c.desc) := rfl

/-- The image has the job's layout on both sides, and declares no other NPG. -/
def FitsJob (j : Job) (insp : Option ProgramImage) (im : ProgramImage) : Prop :=
  (∀ n, im.npgDeclared = some n → n = j.npgCode) ∧ im.layoutId = j.image.layoutId ∧
    insp.map (fun x => x.layoutId) = j.inspImage.map (fun x => x.layoutId)

section Judged

variable {s : State} {d : Desc} {r : CmdRef} {j : Job} {insp : Option ProgramImage} {im : ProgramImage}

theorem fitsJob_iff : FitsJob j insp im ↔ ¬ (im.npgDeclared.any (fun n => decide (n ≠ j.npgCode)) ∨ im.layoutId ≠ j.image.layoutId ∨
    insp.map (fun i => i.layoutId) ≠ j.inspImage.map (fun i => i.layoutId)) := by
  have hany : im.npgDeclared.any (fun n => decide (n ≠ j.npgCode)) = false ↔ ∀ n, im.npgDeclared = some n → n = j.npgCode := by
    rcases im.npgDeclared with _ | n
    · simp
    · simp
  rw [not_or, not_or, not_not, not_not, Bool.not_eq_true, hany, FitsJob]

theorem changeJudged_misfit (hfits : ¬ FitsJob j insp im) : changeJudged d r s j insp im = s.completeReason r stCONFLICT 0x11 :=
  if_pos (not_not.mp fun h => hfits (fitsJob_iff.mpr h))

theorem changeJudged_over (hfits : FitsJob j insp im) (hover : overBudget im insp (j.inspect && j.interleaved) j.rateMax = true) :
    changeJudged d r s j insp im = s.completeDetail r stCONFLICT 0x10 (cycleQuarters im insp (j.inspect && j.interleaved) / 4) := by
  rw [changeJudged, if_neg (fitsJob_iff.mp hfits), if_pos hover]

theorem changeJudged_hash {n : Nat} (hfits : FitsJob j insp im) (hover : overBudget im insp (j.inspect && j.interleaved) j.rateMax = false)
    (hhash : s.hashMismatch im insp (j.inspect && !j.interleaved) = some n) :
    changeJudged d r s j insp im = s.completeDetail r stCONFLICT 0x12 n := by
  rw [changeJudged, if_neg (fitsJob_iff.mp hfits), if_neg (by simp [hover]), hhash]

theorem changeJudged_queued (hfits : FitsJob j insp im) (hover : overBudget im insp (j.inspect && j.interleaved) j.rateMax = false)
    (hhash : s.hashMismatch im insp (j.inspect && !j.interleaved) = none) :
    changeJudged d r s j insp im = queued s (changePending d r) := by
  rw [changeJudged, if_neg (fitsJob_iff.mp hfits), if_neg (by simp [hover]), hhash]

end Judged

section ProgramChange

variable {s t : State} {c : CmdIn} {k : HostCmd} {fn : Fin 8} {r : CmdRef} (h : Starts s (.programChange c) k fn r t)

include h

/-- The body of PROGRAM_CHANGE runs. -/
theorem does_programChange : Does (.programChange c) s (changeBody c.desc (inputOf s c) r t) := by
  obtain rfl := Option.some.inj h.row
  exact does_of_starts h (exec_programChange c s) rfl

theorem programChange_jobless (hjob : t.job = none) : Ends (.programChange c) s t.used r 0x12 fun _ => True := by
  have hdoes := does_programChange h
  simp only [changeBody, hjob] at hdoes
  exact ends_of_open hdoes

section WithJob

variable {j : Job} (hjob : t.job = some j)

include hjob

theorem does_changeAsked : Does (.programChange c) s (changeAsked c.desc r t j) := by
  have hdoes := does_programChange h
  simpa only [changeBody, hjob] using hdoes

theorem programChange_uninspected (hinspect : j.inspect = false) (hins : descP1 c.desc 42 2 ≠ 0xFFFF) :
    Refused (.programChange c) s t r 0x11 0xF3 := by
  have hdoes := does_changeAsked h hjob
  rw [changeAsked, if_pos ⟨by simp [hinspect], hins⟩] at hdoes
  exact refused_of_reason hdoes (by decide)

variable (hside : j.inspect = true ∨ descP1 c.desc 42 2 = 0xFFFF)

include hside

theorem programChange_bad_slot {n : Nat} (hslot : t.badSlot (descP1 c.desc 40 2) (descP1 c.desc 42 2) j.inspect = some n) :
    RefusedFor (.programChange c) s t r 0x11 0x1B n := by
  have hdoes := does_changeAsked h hjob
  rw [changeAsked, if_neg (fun ⟨hno, hins⟩ => hside.elim hno hins), hslot] at hdoes
  exact refusedFor_of_detail hdoes (by decide)

variable {im : ProgramImage} (hslot : t.badSlot (descP1 c.desc 40 2) (descP1 c.desc 42 2) j.inspect = none)
  (himage : t.program (descP1 c.desc 40 2) = some im)

include hslot himage

theorem does_changeJudged :
    Does (.programChange c) s (changeJudged c.desc r t j (if j.inspect then t.program (descP1 c.desc 42 2) else none) im) := by
  have hdoes := does_changeAsked h hjob
  rwa [changeAsked, if_neg (fun ⟨hno, hins⟩ => hside.elim hno hins), hslot, himage] at hdoes

/-- An image of another layout, on either side, is refused. -/
theorem programChange_misfit (hfits : ¬ FitsJob j (if j.inspect then t.program (descP1 c.desc 42 2) else none) im) :
    Refused (.programChange c) s t r 0x11 0x11 := by
  have hdoes := does_changeJudged h hjob hside hslot himage
  rw [changeJudged_misfit hfits] at hdoes
  exact refused_of_reason hdoes (by decide)

section Fits

variable (hfits : FitsJob j (if j.inspect then t.program (descP1 c.desc 42 2) else none) im)

include hfits

theorem programChange_over
    (hover : overBudget im (if j.inspect then t.program (descP1 c.desc 42 2) else none) (j.inspect && j.interleaved) j.rateMax = true) :
    RefusedFor (.programChange c) s t r 0x11 0x10
      (cycleQuarters im (if j.inspect then t.program (descP1 c.desc 42 2) else none) (j.inspect && j.interleaved) / 4) := by
  have hdoes := does_changeJudged h hjob hside hslot himage
  rw [changeJudged_over hfits hover] at hdoes
  exact refusedFor_of_detail hdoes (by decide)

variable (hover : overBudget im (if j.inspect then t.program (descP1 c.desc 42 2) else none) (j.inspect && j.interleaved) j.rateMax = false)

include hover

theorem programChange_hash {n : Nat}
    (hhash : t.hashMismatch im (if j.inspect then t.program (descP1 c.desc 42 2) else none) (j.inspect && !j.interleaved) = some n) :
    RefusedFor (.programChange c) s t r 0x11 0x12 n := by
  have hdoes := does_changeJudged h hjob hside hslot himage
  rw [changeJudged_hash hfits hover hhash] at hdoes
  exact refusedFor_of_detail hdoes (by decide)

/-- A change that passes its checks waits for its line. -/
theorem programChange_waits
    (hhash : t.hashMismatch im (if j.inspect then t.program (descP1 c.desc 42 2) else none) (j.inspect && !j.interleaved) = none) :
    Answers (.programChange c) s fun u => u.hst.pending.map (fun p => (p.line, p.change)) =
      t.hst.pending.map (fun p => (p.line, p.change)) ++ [(descP1 c.desc 44 4, some (descP1 c.desc 40 2, descP1 c.desc 42 2))] ∧
      Only [.hst] s u := by
  have hdoes := does_changeJudged h hjob hside hslot himage
  rw [changeJudged_queued hfits hover hhash] at hdoes
  exact answers_queued h hdoes _

end Fits

end WithJob

end ProgramChange

end Sys2Proof.Proofs
end

section
/-!
SUPPORT. O43: HEAD_CONFIG, CAMERA_CONFIG and CALIBRATE (R155, R168, R195, R197, R212, R213, R379), and the proof.
-/

namespace Sys2Proof.Proofs

open Sys2Proof.Machine Sys2Proof.Claims

/-! ## The shared pins (R195) -/

section Pins

variable {s : State} {o : Nat}

/-- The state in which the pins have changed owner and nothing has been driven. -/
def pinsHanded (s : State) (o : Nat) : State := { s.fset F.FAB_PIN_OWNER_OWNER o with handover := true }

theorem only_handover {ps : List Part} (h : .handover ∈ ps) (x : Bool) : Only ps s { s with handover := x } :=
  ⟨rfl, rfl, rfl, rfl, fun p hp => by cases p <;> simp_all [Part.same]⟩

theorem only_pinsHanded : Only [.regs, .handover] s (pinsHanded s o) :=
  only_trans ((only_fset (by decide) F.FAB_PIN_OWNER_OWNER o 0).mpr (only_refl _ s)) (only_handover (by decide) true)

theorem only_setPinOwner : Only [.regs, .handover, .fab, .out] s (s.setPinOwner o) := by
  unfold State.setPinOwner
  split
  · exact only_refl _ s
  · exact only_trans (only_mono only_pinsHanded (by decide)) (only_mono (only_drivePins _ _) (by decide))

theorem setPinOwner_owner (ho : o < 4) : (s.setPinOwner o).fv F.FAB_PIN_OWNER_OWNER = o := by
  unfold State.setPinOwner
  split
  · next h => exact h
  · have hregs : ((pinsHanded s o).drivePins s 7).regs = (pinsHanded s o).regs := only_part (only_drivePins _ _) (p := .regs) (by decide)
    rw [← pinsHanded, fv_congr hregs]
    exact (fv_fset_same s F.FAB_PIN_OWNER_OWNER o 0 (by decide)).trans (Nat.mod_eq_of_lt ho)

theorem claimPins_refused (h0 : s.fv F.FAB_PIN_OWNER_OWNER ≠ 0) (ho : s.fv F.FAB_PIN_OWNER_OWNER ≠ o) :
    s.claimPins o = (true, s.fset F.FAB_PIN_OWNER_CLAIM_REJ 1) := if_pos ⟨h0, ho⟩

theorem claimPins_taken (h : ¬ (s.fv F.FAB_PIN_OWNER_OWNER ≠ 0 ∧ s.fv F.FAB_PIN_OWNER_OWNER ≠ o)) :
    s.claimPins o = (false, s.setPinOwner o) := if_neg h

end Pins

/-! ## HEAD_CONFIG (R155, R168, R195, R325) -/

/-- The lanes take their settings. -/
def lanesSet (lanes : List (Fin 16 × BitVec 32)) (s : State) : State := lanes.foldl (fun s e => s.writeLaneCtl e.1 (e.2.setWidth 64)) s

/-- The Nozzle Map takes its entries. -/
def nozzlesSet (nm : List (Nat × BitVec 32)) (s : State) : State := nm.foldl (fun s e => if e.1 < 524288 then s.setNozzle e.1 e.2 else s) s

/-- Port 7 claims the shared pins. -/
def headPins (ports : BitVec 8) (s : State) : Bool × State := if ports.getLsbD 7 then s.claimPins 1 else (false, s)

/-- HEAD_CONFIG, its buffer read. -/
def headJudged (lanes : List (Fin 16 × BitVec 32)) (nm : List (Nat × BitVec 32)) (ports : BitVec 8) (r : CmdRef) (s : State) : State :=
  if ports.setWidth 16 &&& s.pwr.fabFailed ≠ 0 then s.completeOpen r stCONFLICT
  else if (headPins ports s).1 then (headPins ports s).2.completeOpen r stCONFLICT
  else (nozzlesSet nm (lanesSet lanes (headPins ports s).2)).complete r stOK 0

/-- A command whose buffer must be read first. -/
def bufferRead (f : CmdRef → State → State) (c : CmdIn) (r : CmdRef) (s : State) : State :=
  match s.hostFault c r c.desc.length.toNat with
  | some t => t
  | none => f r s

theorem bufferRead_ok {f : CmdRef → State → State} {c : CmdIn} {r : CmdRef} {s : State} (h : HostOk c c.desc.length.toNat) :
    bufferRead f c r s = f r s := by rw [bufferRead, hostFault_none h]

theorem exec_headConfig (c : CmdIn) (lanes : List (Fin 16 × BitVec 32)) (nm : List (Nat × BitVec 32)) (ports : BitVec 8) (s : State) :
    exec (.headConfig c lanes nm ports) s =
      s.effect fun s => s.start c 0x20 { length := true, host := true } notDenied (bufferRead (headJudged lanes nm ports)) := rfl

section HeadConfig

variable {s t : State} {c : CmdIn} {lanes : List (Fin 16 × BitVec 32)} {nm : List (Nat × BitVec 32)} {ports : BitVec 8} {k : HostCmd}
  {fn : Fin 8} {r : CmdRef} (h : Starts s (.headConfig c lanes nm ports) k fn r t) (hhost : HostOk (inputOf s c) c.desc.length.toNat)

include h hhost

theorem does_headConfig : Does (.headConfig c lanes nm ports) s (headJudged lanes nm ports r t) := by
  obtain rfl := Option.some.inj h.row
  exact does_of_starts h (exec_headConfig c lanes nm ports s) (bufferRead_ok hhost)

theorem headConfig_failed (hfail : ports.setWidth 16 &&& t.pwr.fabFailed ≠ 0) :
    Ends (.headConfig c lanes nm ports) s t.used r 0x11 fun _ => True := by
  have hdoes := does_headConfig h hhost
  rw [headJudged, if_pos hfail] at hdoes
  exact ends_of_open hdoes

variable (hwhole : ports.setWidth 16 &&& t.pwr.fabFailed = 0)

include hwhole

/-- Pins that another owner holds refuse the command. -/
theorem headConfig_clash (hport : ports.getLsbD 7 = true) (h0 : t.fv F.FAB_PIN_OWNER_OWNER ≠ 0) (h1 : t.fv F.FAB_PIN_OWNER_OWNER ≠ 1) :
    Answers (.headConfig c lanes nm ports) s fun u => u.on F.FAB_PIN_OWNER_CLAIM_REJ = true ∧ u.mems = s.mems ∧ u.lanes = s.lanes := by
  have hpins : headPins ports t = (true, t.fset F.FAB_PIN_OWNER_CLAIM_REJ 1) := by rw [headPins, if_pos hport, claimPins_refused h0 h1]
  have hdoes := does_headConfig h hhost
  rw [headJudged, if_neg (not_not.mpr hwhole), hpins, if_pos rfl] at hdoes
  have honly : Only [.hst, .regs, .free, .out] s ((t.fset F.FAB_PIN_OWNER_CLAIM_REJ 1).completeOpen r stCONFLICT) :=
    (only_completeOpen (by decide) (by decide) (by decide) (by decide) r _).mpr
      ((only_fset (by decide) _ _ _).mpr (Starts.only h (by decide)))
  refine answers_of_does hdoes honly ⟨?_, only_part honly (p := .mems) (by decide), only_part honly (p := .lanes) (by decide)⟩
  rw [(regsBut_completeOpen r _).on (by decide) (by decide)]
  exact on_fset_one t F.FAB_PIN_OWNER_CLAIM_REJ 1 0 rfl (by decide)

omit h hhost hwhole in
/-- Free pins refuse nothing. -/
theorem headPins_free (hfree : ¬ (ports.getLsbD 7 = true ∧ t.fv F.FAB_PIN_OWNER_OWNER ≠ 0 ∧ t.fv F.FAB_PIN_OWNER_OWNER ≠ 1)) :
    headPins ports t = (false, if ports.getLsbD 7 then t.setPinOwner 1 else t) := by
  unfold headPins
  split
  · next hport => exact claimPins_taken fun hclash => hfree ⟨hport, hclash⟩
  · rfl

variable (hfree : ¬ (ports.getLsbD 7 = true ∧ t.fv F.FAB_PIN_OWNER_OWNER ≠ 0 ∧ t.fv F.FAB_PIN_OWNER_OWNER ≠ 1))

include hfree

theorem does_headConfig_free : Does (.headConfig c lanes nm ports) s
    ((nozzlesSet nm (lanesSet lanes (if ports.getLsbD 7 then t.setPinOwner 1 else t))).complete r 0 0) := by
  have hdoes := does_headConfig h hhost
  rwa [headJudged, if_neg (not_not.mpr hwhole), headPins_free hfree, if_neg (by simp)] at hdoes

end HeadConfig

/-- A single entry of the Nozzle Map. -/
theorem headConfig_entry {s t : State} {c : CmdIn} {ports : BitVec 8} {k : HostCmd} {fn : Fin 8} {r : CmdRef} {n : Nat} {v : BitVec 32}
    (h : Starts s (.headConfig c [] [(n, v)] ports) k fn r t) (hhost : HostOk (inputOf s c) c.desc.length.toNat)
    (hwhole : ports.setWidth 16 &&& t.pwr.fabFailed = 0)
    (hfree : ¬ (ports.getLsbD 7 = true ∧ t.fv F.FAB_PIN_OWNER_OWNER ≠ 0 ∧ t.fv F.FAB_PIN_OWNER_OWNER ≠ 1)) (hn : n < 524288) :
    Answers (.headConfig c [] [(n, v)] ports) s fun u => smGet (fun _ => (0 : BitVec 32)) u.mems.nmap n = v ∧
      (∀ m, m ≠ n → smGet (fun _ => (0 : BitVec 32)) u.mems.nmap m = smGet (fun _ => (0 : BitVec 32)) s.mems.nmap m) ∧
      (ports.getLsbD 7 = true → u.fv F.FAB_PIN_OWNER_OWNER = 1) ∧ Only [.mems, .regs, .hst, .handover, .fab, .out] s u := by
  have hdoes := does_headConfig_free h hhost hwhole hfree
  generalize hx : (if ports.getLsbD 7 then t.setPinOwner 1 else t) = x at hdoes
  have hpins : Only [.regs, .handover, .fab, .out] t x := by
    rw [← hx]
    split
    · exact only_setPinOwner
    · exact only_refl _ t
  have hmems : x.mems = s.mems :=
    (only_part hpins (p := .mems) (by decide)).trans (only_part (Starts.only h (ps := [.hst]) (by decide)) (p := .mems) (by decide))
  have hset : nozzlesSet [(n, v)] (lanesSet [] x) = x.setNozzle n v := if_pos hn
  rw [hset] at hdoes
  have honly : Only [.mems, .regs, .hst, .handover, .fab, .out] s ((x.setNozzle n v).complete r 0 0) :=
    (only_complete (by decide) (by decide) (by decide) r _ _ _).mpr
      (only_trans (Starts.only h (by decide)) (only_trans (only_mono hpins (by decide)) (only_mems (by decide) _)))
  refine answers_of_does hdoes honly ⟨?_, fun m hm => ?_, fun hport => ?_, honly⟩
  · rw [State.complete_mems, State.setNozzle]
    exact smGet_set_same _ _ _ _
  · rw [State.complete_mems, State.setNozzle, ← hmems]
    exact smGet_set_ne _ _ _ hm.symm
  · rw [if_pos hport] at hx
    rw [(regsBut_complete r _ _ _).fv (by decide) (by decide), State.setNozzle, ← hx]
    exact setPinOwner_owner (by decide)

/-! ## What leaves the module stays recorded when a command completes -/

section Outs

variable {s : State}

theorem out_subset_sendVector (f : Fin 8) (v : Nat) : s.out ⊆ (s.sendVector f v).out := by
  unfold State.sendVector
  split
  · exact List.Subset.refl _
  · exact List.subset_cons_self _ _

theorem out_subset_wCoalesce (w : WRing) (n : Nat) : s.out ⊆ (s.wCoalesce w n).out := by
  unfold State.wCoalesce
  dsimp only
  split
  · exact List.Subset.refl _
  · split
    · exact out_subset_sendVector (s := s.setRing w.key _) _ _
    · exact List.Subset.refl _

theorem out_subset_unowe (f : Fin 8) (e : Entry) : s.out ⊆ (s.unowe f e).out := by
  unfold State.unowe
  dsimp only
  split
  · exact List.Subset.refl _
  · split
    · exact List.Subset.refl _
    · exact List.Subset.refl _

theorem out_subset_wPost (w : WRing) (e : Entry) : s.out ⊆ (s.wPost w e).out := by
  unfold State.wPost
  extract_lets tail ph next ring slots pointed phased entered vectored
  have hphased : phased.out = s.out := by
    unfold phased
    split
    · rfl
    · rfl
  have hentered : s.out ⊆ entered.out := fun o ho => List.mem_cons_of_mem _ (hphased ▸ ho)
  have hvectored : s.out ⊆ vectored.out := by
    unfold vectored
    split
    · exact hentered
    · exact List.Subset.trans hentered (out_subset_wCoalesce _ _)
  exact List.Subset.trans hvectored (out_subset_unowe _ _)

theorem out_subset_capsule (k : Fin 8) (n : Nat) (e : Option Entry) (d : List Byte) : s.out ⊆ (s.capsule k n e d).out := by
  unfold State.capsule
  split
  · exact List.Subset.refl _
  · exact List.subset_cons_self _ _

theorem out_subset_complete (c : CmdRef) (st result : Nat) (d : List Byte) : s.out ⊆ (s.complete c st result d).out := by
  unfold State.complete
  dsimp only
  split
  · exact List.Subset.refl _
  · split
    · split
      · exact out_subset_wPost _ _
      · exact List.Subset.refl _
    · split
      · exact List.Subset.refl _
      · exact out_subset_capsule (s := s.setSession _ _) _ _ _ _

end Outs

/-! ## CAMERA_CONFIG (R197) -/

/-- The cameras take their settings. -/
def camsSet (cams : List (Fin 4 × DWord)) (s : State) : State := cams.foldl (fun s e => s.writeCamCfg e.1 e.2) s

/-- The accesses go out to the cameras. -/
def accessSent (access : List CamAccess) (s : State) : State := access.foldl (fun s a => s.emit (.camControl a)) s

/-- OUT_HOLD takes a value. -/
def outHoldSet (n : Nat) (s : State) : State := { s with cam := { s.cam with outHold := n } }

/-- A camera with a speed that is none, or beyond the payload rate of its links. -/
def camBad (rate : Nat) (e : Fin 4 × DWord) : Bool := !speedOk (wField e.2 F.CAM_CAM_CFG_SPEED) || camOver e.2 rate

/-- CAMERA_CONFIG, its buffer read. -/
def cameraJudged (cams : List (Fin 4 × DWord)) (loop : LoopConf) (access : List CamAccess) (r : CmdRef) (s : State) : State :=
  if cams.any (camBad loop.rate) then s.completeOpen r stCONFLICT
  else (outHoldSet loop.outHold (accessSent access (camsSet cams s))).complete r stOK 0

theorem exec_cameraConfig (c : CmdIn) (cams : List (Fin 4 × DWord)) (loop : LoopConf) (access : List CamAccess) (s : State) :
    exec (.cameraConfig c cams loop access) s =
      s.effect fun s => s.start c 0x21 { length := true, host := true } notDenied (bufferRead (cameraJudged cams loop access)) := rfl

section Cameras

variable {s t : State} {cams : List (Fin 4 × DWord)} {access : List CamAccess}

theorem only_camsSet : Only [.regs] s (camsSet cams s) := by
  refine only_foldl _ (fun t e => ?_) s
  unfold State.writeCamCfg
  split
  · exact only_refl _ t
  · exact (only_plainWrite (by decide) _ _ _ _).mpr (only_refl _ t)

theorem only_accessSent : Only [.out] s (accessSent access s) :=
  only_foldl _ (fun t _ => (only_emit (by decide) _).mpr (only_refl _ t)) s

theorem only_outHoldSet (n : Nat) : Only [.cam] s (outHoldSet n s) :=
  ⟨rfl, rfl, rfl, rfl, fun p hp => by cases p <;> simp_all [Part.same, outHoldSet]⟩

theorem accessSent_out {a : CamAccess} (ha : a ∈ access) : Out.camControl a ∈ (accessSent access s).out :=
  foldl_reaches (p := fun _ => True) (q := fun t : State => Out.camControl a ∈ t.out) ha (fun _ _ _ => trivial)
    (fun _ _ h => List.mem_cons_of_mem _ h) (fun _ _ => List.mem_cons_self) trivial

/-- The camera's settings are all in order. -/
theorem not_camBad_iff {rate : Nat} {e : Fin 4 × DWord} : camBad rate e = false ↔ speedOk (wField e.2 F.CAM_CAM_CFG_SPEED) = true ∧
    (wField e.2 F.CAM_CAM_CFG_ENABLE = 1 → 10 * camBits e.2 rate ≤ 9 * camPayload e.2) := by
  simp [camBad, camOver]

theorem any_camBad_iff {rate : Nat} : cams.any (camBad rate) = false ↔ ∀ e ∈ cams, speedOk (wField e.2 F.CAM_CAM_CFG_SPEED) = true ∧
    (wField e.2 F.CAM_CAM_CFG_ENABLE = 1 → 10 * camBits e.2 rate ≤ 9 * camPayload e.2) := by
  rw [List.any_eq_false]
  exact forall₂_congr fun e _ => (Bool.not_eq_true _).to_iff.trans not_camBad_iff

/-- A field of a camera's settings takes the bits written. -/
theorem camsSet_field {x : Fin 4} {v : DWord} (hspeed : speedOk (wField v F.CAM_CAM_CFG_SPEED) = true) (hprint : t.printing = false) {f : Fld}
    (hf : f.reg = .CAM_CAM_CFG) (hrw : ⟨f.lo, f.w, .rw⟩ ∈ (regInfo f.reg).fields) : (camsSet [(x, v)] t).fv f x = wField v f := by
  have hwrite : camsSet [(x, v)] t = t.plainWrite .CAM_CAM_CFG x fullMask v := if_neg (by simp [hspeed, hprint])
  rw [hwrite, ← hf]
  exact fv_plainWrite_rw t f x v hrw

end Cameras

section CameraConfig

variable {s t : State} {c : CmdIn} {cams : List (Fin 4 × DWord)} {loop : LoopConf} {access : List CamAccess} {k : HostCmd} {fn : Fin 8}
  {r : CmdRef} (h : Starts s (.cameraConfig c cams loop access) k fn r t) (hhost : HostOk (inputOf s c) c.desc.length.toNat)

include h hhost

theorem does_cameraConfig : Does (.cameraConfig c cams loop access) s (cameraJudged cams loop access r t) := by
  obtain rfl := Option.some.inj h.row
  exact does_of_starts h (exec_cameraConfig c cams loop access s) (bufferRead_ok hhost)

theorem cameraConfig_refused (hbad : cams.any (camBad loop.rate) = true) :
    Ends (.cameraConfig c cams loop access) s t.used r 0x11 fun _ => True := by
  have hdoes := does_cameraConfig h hhost
  rw [cameraJudged, if_pos hbad] at hdoes
  exact ends_of_open hdoes

theorem cameraConfig_sets (hgood : cams.any (camBad loop.rate) = false) : Answers (.cameraConfig c cams loop access) s fun u =>
    u.cam.outHold = loop.outHold ∧ (∀ a ∈ access, Out.camControl a ∈ u.out) ∧ u.cam.rings = s.cam.rings ∧
    (∀ x v, cams = [(x, v)] → s.printing = false → u.fv F.CAM_CAM_CFG_SPEED x = wField v F.CAM_CAM_CFG_SPEED ∧
      u.fv F.CAM_CAM_CFG_TRIG x = wField v F.CAM_CAM_CFG_TRIG) ∧ Only [.cam, .regs, .hst, .out] s u := by
  have hdoes := does_cameraConfig h hhost
  rw [cameraJudged, if_neg (by simp [hgood])] at hdoes
  have hstart := Starts.only h (ps := [.hst]) (by decide)
  have hsent : Only [.regs, .out] t (accessSent access (camsSet cams t)) :=
    only_trans (only_mono only_camsSet (by decide)) (only_mono only_accessSent (by decide))
  have hset : Only [.cam, .regs, .hst, .out] s (outHoldSet loop.outHold (accessSent access (camsSet cams t))) :=
    only_trans (only_mono hstart (by decide)) (only_trans (only_mono hsent (by decide)) (only_mono (only_outHoldSet _) (by decide)))
  have honly := (only_complete (by decide) (by decide) (by decide) r stOK 0 []).mpr hset
  have hcam : (accessSent access (camsSet cams t)).cam = s.cam :=
    (only_part hsent (p := .cam) (by decide)).trans (only_part hstart (p := .cam) (by decide))
  refine answers_of_does hdoes honly ⟨?_, fun a ha => ?_, ?_, fun x v hcams hprint => ?_, honly⟩
  · rw [State.complete_cam, outHoldSet]
  · exact out_subset_complete r stOK 0 [] (accessSent_out ha)
  · rw [State.complete_cam, outHoldSet, hcam]
  · have hspeed := (any_camBad_iff.mp hgood (x, v) (by simp [hcams])).1
    have hprint' : t.printing = false := by
      rw [State.printing, (regsBut_of_regs (rs := []) (only_part hstart (p := .regs) (by decide))).mode (by decide), ← State.printing, hprint]
    have hregs : (outHoldSet loop.outHold (accessSent access (camsSet cams t))).regs = (camsSet cams t).regs :=
      only_part only_accessSent (p := .regs) (by decide)
    have hx : x.val < 1024 := by omega
    have hfield (f : Fld) (hf : f.reg = .CAM_CAM_CFG) (hrw : ⟨f.lo, f.w, .rw⟩ ∈ (regInfo f.reg).fields) :
        ((outHoldSet loop.outHold (accessSent access (camsSet cams t))).complete r stOK 0).fv f x = wField v f := by
      rw [(regsBut_complete r _ _ _).fv (by rw [hf]; decide) hx, fv_congr hregs, hcams]
      exact camsSet_field hspeed hprint' hf hrw
    exact ⟨hfield F.CAM_CAM_CFG_SPEED rfl (by decide), hfield F.CAM_CAM_CFG_TRIG rfl (by decide)⟩

end CameraConfig

/-! ## CALIBRATE (R212, R213, R379) -/

section Calibrate

variable {s t : State}

theorem only_illuminate (o : Fin 16) (v : Option Bool) : Only [.sht, .out] s (s.illuminate o v) := by
  unfold State.illuminate
  split
  · exact only_trans (only_sht (by decide) { s.sht with dout := s.sht.dout.set o { s.sht.dout[o] with calib := v } })
      (only_mono (only_doutChanges s) (by decide))
  · exact only_refl _ s

/-- A run lights its output and takes its camera lines. -/
theorem only_calibSteps (channels : Nat) (o : Fin 16) : Only [.sht, .out] s (s.calibSteps channels o) := by
  have hemit {t : State} (x : Out) : Only [.sht, .out] t (t.emit x) := (only_emit (by decide) x).mpr (only_refl _ t)
  unfold State.calibSteps
  extract_lets dark white bar ladder
  have hdark : Only [.sht, .out] s dark := only_trans (only_illuminate _ _) (hemit _)
  have hbar : Only [.sht, .out] s bar := only_trans (only_trans (only_trans hdark (only_illuminate _ _)) (hemit _)) (hemit _)
  have hladder : Only [.sht, .out] bar ladder := only_foldl _ (fun t _ => only_foldl _ (fun t _ => hemit _) t) bar
  exact only_trans (only_trans hbar hladder) (only_foldl _ (fun t _ => hemit _) ladder)

/-- An injection's use shows in its control register alone. -/
theorem regsBut_flipUsed : RegsBut [.ECC_FLIP_CTL] s s.flipUsed := by
  unfold State.flipUsed
  split
  · exact regsBut_of_regs rfl
  · exact regsBut_fset (by decide) (by decide) _

theorem regsBut_grainFlip (a : Nat) (ws : BitVec 2048) : RegsBut [.ECC_FLIP_CTL] s (s.grainFlip a ws) := by
  unfold State.grainFlip
  extract_lets l hit
  clear_value hit
  split
  · exact regsBut_refl _ s
  · exact regsBut_trans (regsBut_flipUsed (s := s.used)) (regsBut_of_regs rfl)

theorem regsBut_grainWrite (a : Nat) (ws : BitVec 2048) (data : Plane) : RegsBut [.ECC_FLIP_CTL] s (s.grainWrite a ws data) :=
  regsBut_grainFlip (s := s.setGrains _) a ws

/-- The corrections of the pixels stand in memory. -/
def pixelsWritten (px : List CalPixel) (s : State) : State := px.foldl (fun s e => s.writeBytes 25 16 (8 * e.1) (leBytes (corrValue e) 8)) s

/-- The cameras have their distances. -/
def distsSet (l : List (Fin 4 × BitVec 17)) (s : State) : State := l.foldl (fun s e => s.fset F.CAM_CAM_CFG_DIST_LINES e.2.toNat e.1) s

/-- Both banks hold the planes of gains and flags. -/
def planesWritten (l : List (Nat × Nat × Plane)) (s : State) : State :=
  l.foldl (fun s e => (s.grainWrite e.1 (BitVec.allOnes 2048) e.2.2).grainWrite e.2.1 (BitVec.allOnes 2048) e.2.2) s

theorem applyProducts_regs (px : List CalPixel) (p : CalProducts) :
    (s.applyProducts px p).regs = (planesWritten p.planes (distsSet p.dist (pixelsWritten px s))).regs := rfl

theorem applyProducts_cam (px : List CalPixel) (p : CalProducts) : (s.applyProducts px p).cam.regTable = p.regTable ∧
    (s.applyProducts px p).cam.landing = p.landing ∧ (s.applyProducts px p).cam.classes = p.classes := ⟨rfl, rfl, rfl⟩

theorem regsBut_planesWritten (l : List (Nat × Nat × Plane)) : RegsBut [.ECC_FLIP_CTL] s (planesWritten l s) :=
  regsBut_foldl l (fun _ _ => regsBut_trans (regsBut_grainWrite _ _ _) (regsBut_grainWrite _ _ _)) s

/-- A camera's distance comes into force. -/
theorem applyProducts_dist {px : List CalPixel} {p : CalProducts} {x : Fin 4} {d : BitVec 17} (hdist : p.dist = [(x, d)]) :
    (s.applyProducts px p).fv F.CAM_CAM_CFG_DIST_LINES x = d.toNat := by
  have hx : x.val < 1024 := by omega
  rw [fv_congr (applyProducts_regs px p), (regsBut_planesWritten p.planes).fv (by decide) hx, hdist]
  exact (fv_fset_same (pixelsWritten px s) F.CAM_CAM_CFG_DIST_LINES d.toNat x (by decide)).trans (Nat.mod_eq_of_lt d.isLt)

/-- The pixels that a run found dead. -/
def deadPixels (px : List CalPixel) : Nat := px.countP fun e => decide (calGain e.2.1.toNat e.2.2.1.toNat e.2.2.2 = 0)

/-- The nozzles that a run has put into class 2 or 3. -/
def classedNozzles (p : CalProducts) : Nat := p.classes.countP fun e => decide (2 ≤ e.2.1.val)

/-- The state in which a run has taken its lines. -/
def calibRun (channels : Fin 8) (il : Fin 16) (s : State) : State := (s.calibSteps (channels.val + 1) il).illuminate il none

theorem only_calibRun (channels : Fin 8) (il : Fin 16) : Only [.sht, .out] s (calibRun channels il s) :=
  only_trans (only_calibSteps _ _) (only_illuminate _ _)

/-- CALIBRATE: a run that succeeds puts its products into force. -/
def calibrateBody (ok : Bool) (channels : Fin 8) (il : Fin 16) (px : List CalPixel) (p : CalProducts) (_ : CmdIn) (r : CmdRef) (s : State) :
    State :=
  if ok then ((calibRun channels il s).applyProducts px p).complete r stOK (pair (deadPixels px % 2 ^ 32) (classedNozzles p % 2 ^ 32))
  else (calibRun channels il s).complete r stABORTED (pair (deadPixels px % 2 ^ 32) (classedNozzles p % 2 ^ 32))

variable {c : CmdIn} {ok : Bool} {channels : Fin 8} {il : Fin 16} {px : List CalPixel} {p : CalProducts} {k : HostCmd} {fn : Fin 8} {r : CmdRef}

theorem exec_calibrate : exec (.calibrate c ok channels il px p) s =
    s.effect fun s => s.start c 0x15
      { flags := 0xF9, reel := true, offset := true, length := true, p0 := BitVec.allOnes 32, host := true, p1 := BitVec.allOnes 192 } notDenied
      (calibrateBody ok channels il px p) := rfl

theorem does_calibrate (h : Starts s (.calibrate c ok channels il px p) k fn r t) :
    Does (.calibrate c ok channels il px p) s (calibrateBody ok channels il px p (inputOf s c) r t) := by
  obtain rfl := Option.some.inj h.row
  exact does_of_starts h exec_calibrate rfl

theorem calibrate_succeeds (h : Starts s (.calibrate c true channels il px p) k fn r t) : Answers (.calibrate c true channels il px p) s fun u =>
    u.cam.regTable = p.regTable ∧ u.cam.landing = p.landing ∧ u.cam.classes = p.classes ∧
    (∀ x d, p.dist = [(x, d)] → u.fv F.CAM_CAM_CFG_DIST_LINES x = d.toNat) ∧
    ∃ v : State, u = settle s (v.complete r 0 (pair (deadPixels px % 2 ^ 32) (classedNozzles p % 2 ^ 32))) := by
  have hdoes := does_calibrate h
  rw [calibrateBody, if_pos rfl] at hdoes
  generalize calibRun channels il t = v at hdoes
  obtain ⟨htable, hlanding, hclasses⟩ := applyProducts_cam (s := v) px p
  refine ⟨_, hdoes, ?_, ?_, ?_, fun x d hdist => ?_, _, rfl⟩
  · exact (congrArg CamSt.regTable (State.complete_cam ..)).trans htable
  · exact (congrArg CamSt.landing (State.complete_cam ..)).trans hlanding
  · exact (congrArg CamSt.classes (State.complete_cam ..)).trans hclasses
  · exact ((regsBut_complete r _ _ _).fv (by decide) (by omega)).trans (applyProducts_dist hdist)

theorem calibrate_fails (h : Starts s (.calibrate c false channels il px p) k fn r t) : Answers (.calibrate c false channels il px p) s fun u =>
    u.cam = s.cam ∧ u.mems = s.mems ∧ u.grains = s.grains ∧
    ∃ v : State, u = settle s (v.complete r 0x3F (pair (deadPixels px % 2 ^ 32) (classedNozzles p % 2 ^ 32))) := by
  have hdoes := does_calibrate h
  rw [calibrateBody, if_neg (by decide)] at hdoes
  have honly := (only_complete (by decide) (by decide) (by decide) r stABORTED (pair (deadPixels px % 2 ^ 32) (classedNozzles p % 2 ^ 32)) []).mpr
    (only_trans (Starts.only h (ps := [.hst, .regs, .sht, .out]) (by decide)) (only_mono (only_calibRun channels il) (by decide)))
  exact answers_of_does hdoes honly ⟨only_part honly (p := .cam) (by decide), only_part honly (p := .mems) (by decide),
    only_part honly (p := .grains) (by decide), _, (settle_of_only honly).symm⟩

/-- The gain of a live pixel whose quotient has a value. -/
theorem calGain_live {dark white : Nat} (hlt : dark < white) (hq : (0xE000 * 2 ^ 14 + (white - dark) / 2) / (white - dark) < 2 ^ 16) :
    calGain dark white false = (0xE000 * 2 ^ 14 + (white - dark) / 2) / (white - dark) := by
  rw [calGain, if_neg (by simp [hlt])]
  exact if_pos hq

theorem calGain_dead (dark white : Nat) : calGain dark white true = 0 := if_pos (.inl rfl)

end Calibrate

/-! ## The obligation -/

section Updates

variable {s t : State} {c : CmdIn} {arrived : Bool} {k : HostCmd} {fn : Fin 8} {r : CmdRef}

/-- An update waits, or finds 8 waiting before it. -/
theorem tableUpdate_taken (h : Starts s (.tableUpdate c arrived) k fn r t) (hsize : c.desc.length.toNat % 8192 = 0 ∧ c.desc.length ≠ 0)
    (hreason : ∀ j, t.job = some j →
      tableReason (t.imageAt j (c.desc.p0.getLsbD 8) (descP1 c.desc 40 4)) (tableAsked s t c arrived r) = none)
    (hloop : LoopFree t (tableAsked s t c arrived r)) :
    (8 ≤ t.hst.pending.countP (fun p => p.change.isNone) → Ends (.tableUpdate c arrived) s t.used r 0x10 fun _ => True) ∧
    (¬ 8 ≤ t.hst.pending.countP (fun p => p.change.isNone) → HostOk (inputOf s c) c.desc.length.toNat →
      Answers (.tableUpdate c arrived) s fun u =>
        u.hst.pending.map (fun p => (p.line, p.table, p.plane, p.data, p.held, p.change)) =
          t.hst.pending.map (fun p => (p.line, p.table, p.plane, p.data, p.held, p.change)) ++
            [(descP1 c.desc 40 4, c.desc.p0.toNat % 64, c.desc.offset.toNat, (inputOf s c).host.data.take c.desc.length.toNat,
              t.job.isNone, none)] ∧
        Only [.hst] s u) := by
  have hdoes := tableUpdate_fits h hsize hreason
  refine ⟨fun hfull => ?_, fun hfull hhost => ?_⟩
  · rw [tableTaken_full (p := tableAsked s t c arrived r) hloop hfull] at hdoes
    exact ends_of_detail hdoes
  · rw [tableTaken_queued (p := tableAsked s t c arrived r) hloop hfull hhost] at hdoes
    exact answers_queued h hdoes _

/-- A table that the loop writes takes no update. -/
theorem tableUpdate_loop {j : Job} (h : Starts s (.tableUpdate c arrived) k fn r t)
    (hsize : c.desc.length.toNat % 8192 = 0 ∧ c.desc.length ≠ 0)
    (hreason : ∀ j, t.job = some j →
      tableReason (t.imageAt j (c.desc.p0.getLsbD 8) (descP1 c.desc 40 4)) (tableAsked s t c arrived r) = none)
    (hjob : t.job = some j) (hloop : t.on F.CAM_CTL_LOOP_EN = true)
    (hgain : gainTable (t.imageAt j (c.desc.p0.getLsbD 8) (descP1 c.desc 40 4)) (c.desc.p0.toNat % 64) = true) :
    Refused (.tableUpdate c arrived) s t r 0x11 0x22 := by
  have hdoes := tableUpdate_fits h hsize hreason
  rw [tableTaken_loop (p := tableAsked s t c arrived r) hjob hloop hgain] at hdoes
  exact refused_of_reason hdoes (by decide)

/-- What the image of its line declares decides an update. -/
theorem tableReason_undeclared {im : Option ProgramImage} {p : Pending}
    (h : im.bind (fun x => x.tables.find? fun d => decide (d.number = p.table)) = none) : tableReason im p = some 0x20 := by rw [tableReason, h]

theorem tableReason_declared {im : Option ProgramImage} {p : Pending} {d : TableDecl}
    (h : im.bind (fun x => x.tables.find? fun d => decide (d.number = p.table)) = some d) :
    tableReason im p = if d.planes < p.plane + p.data.length / 8192 then some 0x21 else none := by rw [tableReason, h]

end Updates

/-- Settles O43: each command's body, branch by branch, once the command starts. -/
theorem updatesAndConfiguration : Obligations.UpdatesAndConfiguration := by
  unfold Obligations.UpdatesAndConfiguration
  refine ⟨⟨fun s c arrived k fn r t h => ?_, fun s c k fn r t h => ?_⟩, fun s c lanes nm ports k fn r t h hhost => ?_,
    fun s c cams loop access k fn r t h hhost => ?_, fun s c ok channels il px p k fn r t h => ?_, fun dark white => ?_⟩
  · refine ⟨fun hsize => tableUpdate_missized h hsize, fun hsize hjob hfull => ?_, fun hsize hjob hfull hhost => ?_, fun j hsize hjob => ?_⟩
    · exact (tableUpdate_taken h hsize (by simp [hjob]) (by simp [LoopFree, hjob])).1 hfull
    · have hkept := (tableUpdate_taken h hsize (by simp [hjob]) (by simp [LoopFree, hjob])).2 hfull hhost
      rwa [hjob] at hkept
    · refine ⟨fun hnone => tableUpdate_refused h hsize hjob (tableReason_undeclared hnone) (by decide), fun d hd hplanes => ?_,
        fun d hd hplanes => ?_⟩
      · exact tableUpdate_refused h hsize hjob ((tableReason_declared hd).trans (if_pos hplanes)) (by decide)
      · have hreason : ∀ k, t.job = some k →
            tableReason (t.imageAt k (c.desc.p0.getLsbD 8) (descP1 c.desc 40 4)) (tableAsked s t c arrived r) = none := by
          intro k hk
          obtain rfl := Option.some.inj (hjob.symm.trans hk)
          exact (tableReason_declared hd).trans (if_neg (Nat.not_lt.mpr hplanes))
        have hjudged (hloop) := tableUpdate_taken h hsize hreason hloop
        refine ⟨fun ⟨hon, hgain⟩ => ?_, fun hloop hfull => ?_, fun hloop hfull hhost => ?_⟩
        · exact tableUpdate_loop h hsize hreason hjob hon hgain
        · exact (hjudged fun k hk => by obtain rfl := Option.some.inj (hjob.symm.trans hk); exact hloop).1 hfull
        · have hkept := (hjudged fun k hk => by obtain rfl := Option.some.inj (hjob.symm.trans hk); exact hloop).2 hfull hhost
          rwa [hjob] at hkept
  · refine ⟨fun hjob => programChange_jobless h hjob, fun j hjob => ⟨fun hinspect hins => programChange_uninspected h hjob hinspect hins,
      fun hside => ⟨fun n hslot => programChange_bad_slot h hjob hside hslot, fun im hslot himage => ?_⟩⟩⟩
    exact ⟨fun hfits => programChange_misfit h hjob hside hslot himage hfits,
      fun hfits hover => programChange_over h hjob hside hslot himage hfits hover,
      fun d hfits hover hhash => programChange_hash h hjob hside hslot himage hfits hover hhash,
      fun hfits hover hhash => programChange_waits h hjob hside hslot himage hfits hover hhash⟩
  · refine ⟨fun hfail => headConfig_failed h hhost hfail, fun hwhole ⟨hport, h0, h1⟩ => headConfig_clash h hhost hwhole hport h0 h1,
      fun hwhole hfree => ⟨fun hport => ?_, ?_⟩⟩
    · have hdoes := does_headConfig_free h hhost hwhole hfree
      rw [if_neg (Bool.eq_false_iff.mp hport)] at hdoes
      exact ⟨0, rfl, hdoes⟩
    · rintro n v rfl rfl hn
      exact headConfig_entry h hhost hwhole hfree hn
  · refine ⟨fun hbad => cameraConfig_refused h hhost ?_, fun hgood => cameraConfig_sets h hhost (any_camBad_iff.mpr hgood)⟩
    exact Bool.eq_true_of_not_eq_false fun hgood => hbad (any_camBad_iff.mp hgood)
  · refine ⟨?_, ?_⟩
    · rintro rfl
      exact calibrate_succeeds h
    · rintro rfl
      exact calibrate_fails h
  · exact ⟨fun hlt hq => calGain_live hlt hq, calGain_dead dark white⟩

end Sys2Proof.Proofs
end

section
/-!
SUPPORT. The Adaptation Fabric's state: one region, cell or slice after an update, and what driving a port's pins leaves (R187, R190,
R191).
-/

namespace Sys2Proof.Proofs

open Sys2Proof.Machine Sys2Proof.Claims

/-! ## One region, one cell, one slice -/

section Regions

variable {s t : State} {g : Region}

theorem fab_modFab_same (s : State) (r : Fin 16) (f : Region → Region) : (s.modFab r f).fab[r] = f s.fab[r] := by
  simp [State.modFab]

theorem fab_modFab_other (s : State) {r q : Fin 16} (h : q ≠ r) (f : Region → Region) : (s.modFab r f).fab[q] = s.fab[q] := by
  simp only [State.modFab, Fin.getElem_fin]
  exact Vector.getElem_set_ne _ _ (fun e => h (Fin.ext e.symm))

@[simp] theorem modFab_id (s : State) (r : Fin 16) : (s.modFab r fun g => g) = s := by
  simp [State.modFab]

@[simp] theorem cell_setCell_same (g : Region) (c : Nat) (x : CellSt) : (g.setCell c x).cell c = x := smGet_set_same _ _ _ _

theorem cell_setCell_other (g : Region) {c k : Nat} (h : k ≠ c) (x : CellSt) : (g.setCell c x).cell k = g.cell k :=
  smGet_set_ne _ _ _ h.symm

@[simp] theorem mac_setMac_same (g : Region) (m : Nat) (x : MacSt) : (g.setMac m x).mac m = x := smGet_set_same _ _ _ _

theorem mac_setMac_other (g : Region) {m k : Nat} (h : k ≠ m) (x : MacSt) : (g.setMac m x).mac k = g.mac k :=
  smGet_set_ne _ _ _ h.symm

end Regions

/-! ## The pins of a port (R191) -/

section Pins

variable {s t u old : State} {rg : Fin 16}

/-- The port's region has stayed, whatever levels its pins hold. -/
def SameFabric (rg : Fin 16) (s t : State) : Prop := ∃ held, t.fab[rg] = { s.fab[rg] with pinHeld := held }

theorem sameFabric_of_fab (h : t.fab[rg] = s.fab[rg]) : SameFabric rg s t := ⟨_, h⟩

/-- What decides whether the fabric drives a pin: its region, and who owns the shared pins. -/
theorem pinDriven_congr (hfab : SameFabric rg s t) (hhand : t.handover = s.handover)
    (howner : t.fv F.FAB_PIN_OWNER_OWNER = s.fv F.FAB_PIN_OWNER_OWNER) (i : Nat) : t.pinDriven rg i = s.pinDriven rg i := by
  obtain ⟨held, hfab⟩ := hfab
  unfold State.pinDriven
  rw [hfab, hhand, howner]
  rfl

theorem pinOut_congr (hfab : SameFabric rg s t) : (t.fab[rg]).pinOut = (s.fab[rg]).pinOut := by
  obtain ⟨held, hfab⟩ := hfab
  rw [hfab]
  rfl

theorem drivenPins_congr (h : ∀ i, t.pinDriven rg i = s.pinDriven rg i) : t.drivenPins rg = s.drivenPins rg := by
  simp only [State.drivenPins, h]

/-- The pins hold the levels that they are driven to, before anything is shown. -/
def pinsHeld (s : State) (rg : Fin 16) : State :=
  s.modFab rg fun g => { g with pinHeld := s.drivenPins rg &&& (s.fab[rg]).pinOut ||| (g.pinHeld &&& ~~~(s.drivenPins rg)) }

theorem drivePins_eq (s old : State) (rg : Fin 16) : s.drivePins old rg =
    if 8 ≤ rg.val ∨ (s.drivenPins rg = old.drivenPins rg ∧
        s.drivenPins rg &&& (s.fab[rg]).pinOut = old.drivenPins rg &&& (old.fab[rg]).pinOut) then pinsHeld s rg
    else (pinsHeld s rg).emit (.pins rg (s.drivenPins rg) (s.drivenPins rg &&& (s.fab[rg]).pinOut)) := rfl

theorem fab_drivePins (s old : State) (rg : Fin 16) : (s.drivePins old rg).fab = (pinsHeld s rg).fab := by
  rw [drivePins_eq]
  split <;> rfl

theorem sameFabric_drivePins : SameFabric rg s (s.drivePins old rg) :=
  ⟨_, (congrArg (fun v : Vector Region 16 => v[rg]) (fab_drivePins s old rg)).trans (fab_modFab_same s rg _)⟩

theorem fab_drivePins_other {q : Fin 16} (h : q ≠ rg) : (s.drivePins old rg).fab[q] = s.fab[q] := by
  rw [fab_drivePins]
  exact fab_modFab_other s h _

theorem drivenPins_drivePins : (s.drivePins old rg).drivenPins rg = s.drivenPins rg := by
  have honly := only_drivePins (s := s) old rg
  exact drivenPins_congr (pinDriven_congr sameFabric_drivePins (only_part honly (p := .handover) (by decide))
    (fv_congr (only_part honly (p := .regs) (by decide)) _ _))

/-- A change of what is driven shows on the connector, and nothing else does. -/
theorem pinsFollow_drivePins (hout : u.out = s.out) : PinsFollow s (u.drivePins old rg) rg := by
  have hdriven := drivenPins_drivePins (s := u) (old := old) (rg := rg)
  have hlevel := pinOut_congr (sameFabric_drivePins (s := u) (old := old) (rg := rg))
  unfold PinsFollow
  rw [hdriven, hlevel, drivePins_eq, ← hout]
  split
  · exact .inl rfl
  · next h => exact .inr ⟨not_le.mp (not_or.mp h).1, rfl⟩

/-- Pins driven as they were are not shown again. -/
theorem out_drivePins_quiet (hdriven : s.drivenPins rg = old.drivenPins rg) (hlevel : (s.fab[rg]).pinOut = (old.fab[rg]).pinOut) :
    (s.drivePins old rg).out = s.out := by
  rw [drivePins_eq, if_pos (.inr ⟨hdriven, by rw [hdriven, hlevel]⟩)]
  rfl

/-- The change counts from any state with the same outputs. -/
theorem pinsFollow_of_out (h : PinsFollow u t rg) (hout : u.out = s.out) : PinsFollow s t rg := by
  rwa [PinsFollow, hout] at h

/-- What follows the pins' change leaves them as they are. -/
theorem pinsFollow_step (h : PinsFollow s t rg) (hout : u.out = t.out) (hfab : u.fab = t.fab) (hhand : u.handover = t.handover)
    (howner : u.fv F.FAB_PIN_OWNER_OWNER = t.fv F.FAB_PIN_OWNER_OWNER) : PinsFollow s u rg := by
  have hsame : SameFabric rg t u := sameFabric_of_fab (by rw [hfab])
  unfold PinsFollow
  rwa [hout, drivenPins_congr (pinDriven_congr hsame hhand howner), pinOut_congr hsame]

end Pins

end Sys2Proof.Proofs
end

section
/-!
SUPPORT. O32: what one cycle of a fabric cell does (R187, R188, R190), and the proof.
-/

namespace Sys2Proof.Proofs

open Sys2Proof.Machine Sys2Proof.Claims

/-! ## The instruction entry (R187) -/

section Entry

variable {w : BitVec 32} {op : Nat} {o : CellOp}

theorem toNat_entryWord (hop : op < 32) : (entryWord op o).toNat =
    op * 2 ^ 27 + o.sa.val * 2 ^ 23 + o.sb.val * 2 ^ 19 + o.dst.val * 2 ^ 17 + (if o.setf then 2 ^ 16 else 0) + o.imm.toNat := by
  rw [entryWord, BitVec.toNat_ofNat]
  apply Nat.mod_eq_of_lt
  split <;> omega

/-- The fields of an entry are those of its word. -/
theorem entryIs_iff (hop : op < 32) : entryIs w op o = true ↔ w = entryWord op o := by
  have hsetf : w.getLsbD 16 = decide (w.toNat / 2 ^ 16 % 2 = 1) := by
    rw [BitVec.getLsbD, Nat.testBit_eq_decide_div_mod_eq]
  have himm : w.setWidth 16 = o.imm ↔ w.toNat % 2 ^ 16 = o.imm.toNat := by
    rw [← BitVec.toNat_inj, BitVec.toNat_setWidth]
  rw [entryIs, Bool.and_eq_true, Bool.and_eq_true, decide_eq_true_iff, decide_eq_true_iff, himm, hsetf, beq_iff_eq,
    ← BitVec.toNat_inj, toNat_entryWord hop]
  cases o.setf
  · simp only [decide_eq_false_iff_not, Bool.false_eq_true, if_false]
    omega
  · simp only [decide_eq_true_eq, if_true]
    omega

end Entry

/-! ## One cycle of a cell (R187, R189) -/

/-- The cell at the end of a cycle that gave `y`. -/
def cellTaken (o : CellOp) (conf : CellConf) (x : CellSt) (y : FabRes) : CellSt :=
  let out := match y.val with
    | some v => if o.dst = 3 then v else x.out
    | none => x.out
  { da := match y.val with
      | some v => if o.dst = 1 then v else x.da
      | none => x.da,
    db := match y.val with
      | some v => if o.dst = 2 then v else x.db
      | none => x.db,
    out := out, h := y.h.getD x.h, fl := if o.setf then y.flag else x.fl,
    ep := match y.jump with
      | some e => e
      | none => (x.ep + 1) % conf.len.val,
    cyc := x.cyc + 1, hist := ((x.cyc, out) :: x.hist).take 8 }

/-- The state at the end of a cycle that left the cell as `x` and did `g` to its region beside. -/
def cycled (s : State) (o : CellOp) (x : CellSt) (g : Region → Region) : State :=
  ((s.used.modFab o.region fun r => r.setCell o.cell x).modFab o.region g).drivePins s o.region

/-- A region's change that leaves its cells, its images, the fire input and whether it runs. -/
structure Beside (g : Region → Region) : Prop where
  cells : ∀ r, (g r).cells = r.cells
  active : ∀ r, (g r).active = r.active
  shadow : ∀ r, (g r).shadow = r.shadow
  fi : ∀ r, (g r).fi = r.fi
  stopped : ∀ r, (g r).stopped = r.stopped

theorem beside_id : Beside fun r => r := ⟨fun _ => rfl, fun _ => rfl, fun _ => rfl, fun _ => rfl, fun _ => rfl⟩

theorem beside_popHs : Beside Region.popHs := ⟨fun _ => rfl, fun _ => rfl, fun _ => rfl, fun _ => rfl, fun _ => rfl⟩

theorem beside_setMac (m : Nat) (x : MacSt) : Beside fun r => r.setMac m x :=
  ⟨fun _ => rfl, fun _ => rfl, fun _ => rfl, fun _ => rfl, fun _ => rfl⟩

theorem beside_pinOe (f : BitVec 20 → BitVec 20) : Beside fun r => { r with pinOe := f r.pinOe } :=
  ⟨fun _ => rfl, fun _ => rfl, fun _ => rfl, fun _ => rfl, fun _ => rfl⟩

section Cycle

variable {s : State} {o : CellOp} {im : RegionImage} {conf : CellConf} {op : Nat} {x : CellSt} {y : FabRes} {g : Region → Region}
  {f : CellSt → BitVec 16 → BitVec 16 → FabRes} {more : BitVec 16 → BitVec 16 → State → State}

/-- A cell whose entry is the operation's takes it. -/
theorem fabCycle_taken (hruns : CellRuns s o im conf) (hop : op < 32) (hentry : entryOf s o conf = entryWord op o) :
    s.fabCycle op o f more =
      let x := (s.fab[o.region]).cell o.cell
      let a := s.fabSource o.region o.cell im conf x o.imm o.sa
      let b := s.fabSource o.region o.cell im conf x o.imm o.sb
      (more a b (s.used.modFab o.region fun r => r.setCell o.cell (cellTaken o conf x (f x a b)))).drivePins s o.region := by
  obtain ⟨hactive, hcell, hgoing, hlen⟩ := hruns
  have hlen : conf.len ≠ 0 := fun h => hlen (congrArg Fin.val h)
  have hentry : entryIs (conf.entries.getD ((s.fab[o.region]).cell o.cell).ep 0) op o = true := (entryIs_iff hop).mpr hentry
  unfold State.fabCycle
  simp only [hactive, hcell]
  rw [if_neg (not_or.mpr ⟨by rw [hgoing]; decide, not_or.mpr ⟨hlen, not_not_intro hentry⟩⟩)]
  rfl

/-- A cell whose entry is another does nothing. -/
theorem fabCycle_other (hruns : CellRuns s o im conf) (hop : op < 32) (hentry : entryOf s o conf ≠ entryWord op o) :
    s.fabCycle op o f more = s := by
  obtain ⟨hactive, hcell, -, -⟩ := hruns
  have hentry : ¬ entryIs (conf.entries.getD ((s.fab[o.region]).cell o.cell).ep 0) op o = true := fun h => hentry ((entryIs_iff hop).mp h)
  unfold State.fabCycle
  simp only [hactive, hcell]
  exact if_pos (.inr (.inr hentry))

/-- A region that holds no configuration, or has stopped, executes nothing. -/
theorem fabCycle_idle (h : (s.fab[o.region]).active = none ∨ (s.fab[o.region]).stopped = true) : s.fabCycle op o f more = s := by
  unfold State.fabCycle
  dsimp only
  split
  · rfl
  · next hactive =>
    split
    · rfl
    · exact if_pos (.inl (h.resolve_left (by rw [hactive]; exact Option.some_ne_none _)))

theorem only_cycled : Only [.fab, .free, .out] s (cycled s o x g) := by
  refine only_trans ?_ (only_mono (only_drivePins s o.region) (by decide))
  exact (only_modFab (by decide) _ _).mpr ((only_modFab (by decide) _ _).mpr ((only_used (by decide)).mpr (only_refl _ s)))

/-- The cell's region after the cycle, but for the levels its pins hold. -/
theorem cycled_region : SameFabric o.region ((s.modFab o.region fun r => r.setCell o.cell x).modFab o.region g) (cycled s o x g) :=
  sameFabric_drivePins (s := (s.used.modFab o.region fun r => r.setCell o.cell x).modFab o.region g)

/-- So for what of it the pins do not touch. -/
theorem cycled_part {α : Type} (f : Region → α) (hf : ∀ r held, f { r with pinHeld := held } = f r) :
    f (cycled s o x g).fab[o.region] = f (g ((s.fab[o.region]).setCell o.cell x)) := by
  obtain ⟨held, h⟩ := cycled_region (s := s) (o := o) (x := x) (g := g)
  rw [h, hf, fab_modFab_same, fab_modFab_same]

theorem cycled_other {r : Fin 16} (h : r ≠ o.region) : (cycled s o x g).fab[r] = s.fab[r] := by
  rw [cycled, fab_drivePins_other h, fab_modFab_other _ h, fab_modFab_other _ h]
  rfl

/-- The cells of the region after the cycle. -/
theorem cycled_cell (hg : Beside g) (k : Nat) : ((cycled s o x g).fab[o.region]).cell k = ((s.fab[o.region]).setCell o.cell x).cell k := by
  unfold Region.cell
  rw [cycled_part Region.cells fun _ _ => rfl, hg.cells]

theorem cycled_cell_same (hg : Beside g) : ((cycled s o x g).fab[o.region]).cell o.cell = x := by
  rw [cycled_cell hg, cell_setCell_same]

theorem cycled_cell_other (hg : Beside g) {k : Nat} (hk : k ≠ o.cell.val) :
    ((cycled s o x g).fab[o.region]).cell k = (s.fab[o.region]).cell k := by
  rw [cycled_cell hg, cell_setCell_other _ hk]

theorem pinsFollow_cycled : PinsFollow s (cycled s o x g) o.region := pinsFollow_drivePins rfl

/-- A cycle that gave a value, and the next entry in turn. -/
theorem cellTook_cycled {v : BitVec 16} {fl : Option Bool} (hg : Beside g) (hval : y.val = some v) (hjump : y.jump = none)
    (hfl : ∀ b, fl = some b → y.flag = b) : CellTook s (cycled s o (cellTaken o conf ((s.fab[o.region]).cell o.cell) y) g) o conf v fl := by
  unfold CellTook
  rw [cycled_cell_same hg]
  refine ⟨?_, ?_, ?_, ?_, ?_, ?_, rfl, rfl, fun k hk => cycled_cell_other hg hk, fun r hr => cycled_other hr, ?_, pinsFollow_cycled, only_cycled⟩
  · simp only [cellTaken, hval]
  · simp only [cellTaken, hval]
  · simp only [cellTaken, hval]
  · intro hset
    simp [cellTaken, hset]
  · intro b hb hset
    simp [cellTaken, hset, hfl b hb]
  · simp only [cellTaken, hjump]
  · exact ⟨(cycled_part Region.active fun _ _ => rfl).trans (hg.active _), (cycled_part Region.shadow fun _ _ => rfl).trans (hg.shadow _),
      (cycled_part Region.fi fun _ _ => rfl).trans (hg.fi _), (cycled_part Region.stopped fun _ _ => rfl).trans (hg.stopped _)⟩

end Cycle

/-! ## The commands as cycles -/

/-- The cell commands of an operation, in the order of their codes (R188). -/
noncomputable def cellCommands (o : CellOp) : List Instr :=
  [.fabPass o, .fabAdd o, .fabSub o, .fabAnd o, .fabOr o, .fabXor o, .fabAndn o, .fabShl o, .fabShr o, .fabSar o, .fabRot o, .fabMux o,
    .fabLtu o, .fabEq o, .fabMin o, .fabMax o, .fabCnt o, .fabEdge o, .fabBit o, .fabHspop o, .fabMacw o, .fabSkip o, .fabIooe o]

/-- The command is a cycle of the operation with the code `op`. -/
def IsCycle (c : Instr) (op : Nat) (o : CellOp) : Prop :=
  op < 32 ∧ ∀ s, ∃ (f : State → CellSt → BitVec 16 → BitVec 16 → FabRes) (more : State → BitVec 16 → BitVec 16 → State → State),
    exec c s = s.effect fun t => t.fabCycle op o (f t) (more t)

/-- An operation on the two sources alone is a cycle. -/
theorem isCycle_of_fabOp {c : Instr} {op : Nat} {o : CellOp} (h : op < 32 ∧ ∀ s, ∃ f, exec c s = s.fabOp op o f) : IsCycle c op o :=
  ⟨h.1, fun s => (h.2 s).elim fun f hf =>
    ⟨fun _ _ a b => { val := some (f a b).1, flag := (f a b).2 }, fun _ _ _ t => t, hf⟩⟩

theorem isCycle_cellCommands {o : CellOp} : ∀ p ∈ (cellCommands o).zipIdx, IsCycle p.1 p.2 o := by
  simp only [cellCommands, List.zipIdx_cons, List.zipIdx_nil, List.forall_mem_cons, Nat.zero_add]
  refine ⟨isCycle_of_fabOp ?_, isCycle_of_fabOp ?_, isCycle_of_fabOp ?_, isCycle_of_fabOp ?_, isCycle_of_fabOp ?_, isCycle_of_fabOp ?_,
    isCycle_of_fabOp ?_, isCycle_of_fabOp ?_, isCycle_of_fabOp ?_, isCycle_of_fabOp ?_, isCycle_of_fabOp ?_,
    ⟨by decide, fun s => ⟨_, _, (show exec _ _ = execFabMux o s from rfl).trans rfl⟩⟩,
    isCycle_of_fabOp ?_, isCycle_of_fabOp ?_, isCycle_of_fabOp ?_, isCycle_of_fabOp ?_, isCycle_of_fabOp ?_,
    ⟨by decide, fun s => ⟨_, _, (show exec _ _ = execFabEdge o s from rfl).trans rfl⟩⟩,
    isCycle_of_fabOp ?_,
    ⟨by decide, fun s => ⟨_, _, (show exec _ _ = execFabHspop o s from rfl).trans rfl⟩⟩,
    ⟨by decide, fun s => ⟨_, _, (show exec _ _ = execFabMacw o s from rfl).trans rfl⟩⟩,
    ⟨by decide, fun s => ⟨_, _, (show exec _ _ = execFabSkip o s from rfl).trans rfl⟩⟩,
    ⟨by decide, fun s => ⟨_, _, (show exec _ _ = execFabIooe o s from rfl).trans rfl⟩⟩,
    List.forall_mem_nil _⟩ <;>
  exact ⟨by decide, fun _ => ⟨_, rfl⟩⟩

/-- Each of them is a cycle of some operation. -/
theorem exists_isCycle {o : CellOp} {c : Instr} (hc : c ∈ cellCommands o) : ∃ op, IsCycle c op o := by
  obtain ⟨k, hk⟩ := List.getElem?_of_mem hc
  exact ⟨k, isCycle_cellCommands (c, k) (List.mk_mem_zipIdx_iff_getElem?.mpr hk)⟩

theorem IsCycle.exec_eq_self {c : Instr} {op : Nat} {o : CellOp} {s : State} (h : IsCycle c op o)
    (hidle : ∀ f more, s.fabCycle op o f more = s) : exec c s = .next s := by
  obtain ⟨f, more, hc⟩ := h.2 s
  exact Proofs.exec_eq_self hc (hidle _ _)

/-! ## The operations that compute (R188) -/

section Computes

variable {s : State} {o : CellOp} {im : RegionImage} {conf : CellConf} {c : Instr} {op : Nat} {v : BitVec 16} {fl : Option Bool}

/-- The first source of the operation, and the second. -/
def sourceA (s : State) (o : CellOp) (im : RegionImage) (conf : CellConf) : BitVec 16 :=
  s.fabSource o.region o.cell im conf ((s.fab[o.region]).cell o.cell) o.imm o.sa

def sourceB (s : State) (o : CellOp) (im : RegionImage) (conf : CellConf) : BitVec 16 :=
  s.fabSource o.region o.cell im conf ((s.fab[o.region]).cell o.cell) o.imm o.sb

/-- The command gives the cell a value and a flag, and does nothing else. -/
def Computes (s : State) (o : CellOp) (conf : CellConf) (c : Instr) (v : BitVec 16) (fl : Option Bool) : Prop :=
  Answers c s fun t => CellTook s t o conf v fl ∧ ((t.fab[o.region]).cell o.cell).h = ((s.fab[o.region]).cell o.cell).h ∧
    (t.fab[o.region]).macs = (s.fab[o.region]).macs ∧ (t.fab[o.region]).hs = (s.fab[o.region]).hs ∧
    (t.fab[o.region]).pinOe = (s.fab[o.region]).pinOe

/-- A command that is a cycle answers the state in which the cell has taken it. -/
theorem answers_cycled {P : State → Prop} {effect : State → State} {x : CellSt} {g : Region → Region} (hc : exec c s = s.effect effect)
    (hcycle : effect s = cycled s o x g) (hP : P (cycled s o x g)) : Answers c s P :=
  answers_of_eq [.fab, .free, .out] hc hcycle only_cycled hP

theorem cycled_id {x : CellSt} : cycled s o x (fun r => r) = (s.used.modFab o.region fun r => r.setCell o.cell x).drivePins s o.region := by
  rw [cycled, modFab_id]

variable (hruns : CellRuns s o im conf) (hop : op < 32) (hentry : entryOf s o conf = entryWord op o)

include hruns hop hentry

theorem computes_of_cycle {effect : State → State} {f : CellSt → BitVec 16 → BitVec 16 → FabRes} {y : FabRes}
    (hc : exec c s = s.effect effect) (heffect : effect s = s.fabCycle op o f fun _ _ t => t)
    (hy : f ((s.fab[o.region]).cell o.cell) (sourceA s o im conf) (sourceB s o im conf) = y) (hval : y.val = some v) (hjump : y.jump = none)
    (hh : y.h = none) (hfl : ∀ b, fl = some b → y.flag = b) : Computes s o conf c v fl := by
  have hcycle : effect s = cycled s o (cellTaken o conf ((s.fab[o.region]).cell o.cell) y) fun r => r := by
    rw [heffect, fabCycle_taken hruns hop hentry, cycled_id, ← hy]
    rfl
  refine answers_cycled hc hcycle ⟨cellTook_cycled beside_id hval hjump hfl, ?_, cycled_part Region.macs fun _ _ => rfl,
    cycled_part Region.hs fun _ _ => rfl, cycled_part Region.pinOe fun _ _ => rfl⟩
  rw [cycled_cell_same beside_id, cellTaken, hh]
  rfl

theorem computes_of_fabOp {f : BitVec 16 → BitVec 16 → BitVec 16 × Bool} (hc : exec c s = s.fabOp op o f)
    (hv : (f (sourceA s o im conf) (sourceB s o im conf)).1 = v)
    (hfl : ∀ b, fl = some b → (f (sourceA s o im conf) (sourceB s o im conf)).2 = b) : Computes s o conf c v fl :=
  computes_of_cycle hruns hop hentry hc rfl rfl (congrArg some hv) rfl rfl hfl

end Computes

/-- The results and the flags of the operations that compute (R188), of the cell `x` with the sources `a` and `b`. -/
noncomputable def computed (o : CellOp) (x : CellSt) (a b : BitVec 16) : List (Nat × Instr × BitVec 16 × Option Bool) :=
  let k := b.toNat % 16
  [(0, Instr.fabPass o, a, some (decide (a ≠ 0))),
   (1, .fabAdd o, a + b, some (decide (2 ^ 16 ≤ a.toNat + b.toNat))),
   (2, .fabSub o, a - b, some (decide (b.toNat ≤ a.toNat))),
   (3, .fabAnd o, a &&& b, some (decide (a &&& b ≠ 0))),
   (4, .fabOr o, a ||| b, some (decide (a ||| b ≠ 0))),
   (5, .fabXor o, a ^^^ b, some (decide (a ^^^ b ≠ 0))),
   (6, .fabAndn o, a &&& ~~~b, some (decide (a &&& ~~~b ≠ 0))),
   (7, .fabShl o, a <<< k, if k = 0 then none else some (a.getLsbD (16 - k))),
   (8, .fabShr o, a >>> k, if k = 0 then none else some (a.getLsbD (k - 1))),
   (9, .fabSar o, a.sshiftRight k, if k = 0 then none else some (a.getLsbD (k - 1))),
   (11, .fabMux o, if x.fl then a else b, some x.fl),
   (12, .fabLtu o, a, some (decide (a.toNat < b.toNat))),
   (13, .fabEq o, a, some (decide (a = b))),
   (14, .fabMin o, if a.toNat < b.toNat then a else b, some (decide (a.toNat < b.toNat))),
   (15, .fabMax o, if a.toNat < b.toNat then b else a, some (decide (a.toNat < b.toNat))),
   (16, .fabCnt o, if a = o.imm then 0 else a + 1, some (decide (a = o.imm))),
   (18, .fabBit o, (a >>> k) &&& 1, some (a.getLsbD k))]

/-- A shift's flag is the last bit that it moved out, if it moved one. -/
theorem shifted_flag {k : Nat} {p q b : Bool} (h : (if k = 0 then none else some p) = some b) : (if k = 0 then q else p) = b := by
  split at h
  · cases h
  · next hk => rw [if_neg hk, Option.some.inj h]

/-- The edges that EDGE finds between the value it last saw and the present one (R188). -/
def edges (k : Nat) (h a : BitVec 16) : BitVec 16 := if k = 0 then a &&& ~~~h else if k = 1 then h &&& ~~~a else a ^^^ h

section Effects

variable {s : State} {o : CellOp} {im : RegionImage} {conf : CellConf}

/-- The slice IMM[3:2] after a MACW of `a` and `b` (R188, R190). -/
def macTaken (s : State) (o : CellOp) (im : RegionImage) (a b : BitVec 16) : MacSt :=
  let m := o.imm.toNat / 4 % 4
  let cf := imMac im m
  let ext (v : BitVec 16) : Int := if cf.signed then v.toInt else v.toNat
  let at_ := ((s.fab[o.region]).cell o.cell).cyc
  let old := (s.fab[o.region]).mac m
  let kept := if o.imm.getLsbD 0 then 0 else old.acc
  let acc := if o.imm.getLsbD 1 then kept + BitVec.ofInt 48 (ext a * ext b) + (if cf.cascade then s.cascadeIn o.region m at_ else 0) else kept
  { acc := acc, hist := ((at_, acc) :: old.hist).take 8 }

/-- What MACW adds is the product and the cascade, or nothing. -/
theorem macTaken_acc (a b : BitVec 16) : (macTaken s o im a b).acc =
    let m := o.imm.toNat / 4 % 4
    let cf := imMac im m
    let ext (v : BitVec 16) : Int := if cf.signed then v.toInt else v.toNat
    (if o.imm.getLsbD 0 then 0 else ((s.fab[o.region]).mac m).acc) + (if o.imm.getLsbD 1 then BitVec.ofInt 48 (ext a * ext b) +
      (if cf.cascade then s.cascadeIn o.region m ((s.fab[o.region]).cell o.cell).cyc else 0) else 0) := by
  dsimp only [macTaken]
  generalize (if o.imm.getLsbD 0 = true then (0 : BitVec 48) else _) = kept
  cases o.imm.getLsbD 1
  · exact (BitVec.add_zero kept).symm
  · exact BitVec.add_assoc kept _ _

/-- What SKIP gives: no value, and with FL = 1 the next entry. -/
def skipResult (o : CellOp) (x : CellSt) : FabRes := { val := none, flag := x.fl, jump := if x.fl then some (o.imm.toNat % 8) else none }

theorem cellTaken_skip_ep (x : CellSt) : (cellTaken o conf x (skipResult o x)).ep =
    if x.fl then o.imm.toNat % 8 else (x.ep + 1) % conf.len.val := by
  cases hfl : x.fl <;> simp [cellTaken, skipResult, hfl]

/-- The output enables of a port after IOOE of `a`, where the cell faces its pins (R188). -/
def enables (o : CellOp) (a : BitVec 16) (oe : BitVec 20) : BitVec 20 :=
  if 8 ≤ o.region.val then oe
  else if o.cell = 0 then (oe &&& 0xF0000) ||| a.setWidth 20
  else if o.cell = 1 then (oe &&& (0xFFFF : BitVec 20)) ||| ((a &&& 0xF).setWidth 20 <<< 16)
  else oe

theorem getLsbD_enables_zero (hio : o.region.val < 8) (hcell : o.cell = 0) (a : BitVec 16) (oe : BitVec 20) {p : Nat} (hp : p < 20) :
    (enables o a oe).getLsbD p = if p < 16 then a.getLsbD p else oe.getLsbD p := by
  have hmask : ∀ p : Fin 20, (0xF0000 : BitVec 20).getLsbD p = decide (16 ≤ p.val) := by decide
  rw [enables, if_neg (not_le.mpr hio), if_pos hcell, BitVec.getLsbD_or, BitVec.getLsbD_and, hmask ⟨p, hp⟩, BitVec.getLsbD_setWidth,
    decide_eq_true hp]
  by_cases hp16 : p < 16
  · simp [hp16, Nat.not_le.mpr hp16]
  · simp [hp16, Nat.le_of_not_lt hp16]

theorem getLsbD_enables_one (hio : o.region.val < 8) (hcell : o.cell = 1) (a : BitVec 16) (oe : BitVec 20) {p : Nat} (hp : p < 20) :
    (enables o a oe).getLsbD p = if 16 ≤ p then a.getLsbD (p - 16) else oe.getLsbD p := by
  have hmask : ∀ p : Fin 20, (0xFFFF : BitVec 20).getLsbD p = decide (p.val < 16) := by decide
  have hfour : ∀ q : Fin 4, (0xF : BitVec 16).getLsbD q = true := by decide
  rw [enables, if_neg (not_le.mpr hio), if_neg (by rw [hcell]; decide), if_pos hcell, BitVec.getLsbD_or, BitVec.getLsbD_and, hmask ⟨p, hp⟩,
    BitVec.getLsbD_shiftLeft, decide_eq_true hp, BitVec.getLsbD_setWidth, BitVec.getLsbD_and]
  by_cases hp16 : 16 ≤ p
  · have hq : p - 16 < 20 := by omega
    rw [hfour ⟨p - 16, by omega⟩, if_pos hp16]
    simp [hq, Nat.not_lt.mpr hp16]
  · simp [hp16, Nat.not_le.mp hp16]

theorem enables_elsewhere (h : ¬ (o.region.val < 8 ∧ (o.cell = 0 ∨ o.cell = 1))) (a : BitVec 16) (oe : BitVec 20) : enables o a oe = oe := by
  unfold enables
  split
  · rfl
  · next hio => rw [if_neg fun h0 => h ⟨not_le.mp hio, .inl h0⟩, if_neg fun h1 => h ⟨not_le.mp hio, .inr h1⟩]

/-- Cell 0 enables the pins 0 to 15, and cell 1 the pins 16 to 19. -/
theorem getLsbD_enables (a : BitVec 16) (oe : BitVec 20) {p : Nat} (hp : p < 20) : (enables o a oe).getLsbD p =
    if o.region.val < 8 ∧ o.cell.val = 0 ∧ p < 16 then a.getLsbD p
    else if o.region.val < 8 ∧ o.cell.val = 1 ∧ 16 ≤ p then a.getLsbD (p - 16) else oe.getLsbD p := by
  by_cases hfaces : o.region.val < 8 ∧ (o.cell = 0 ∨ o.cell = 1)
  · obtain ⟨hio, hcell | hcell⟩ := hfaces
    · rw [getLsbD_enables_zero hio hcell a oe hp]
      simp [hio, hcell]
    · rw [getLsbD_enables_one hio hcell a oe hp]
      simp [hio, hcell]
  · have hcell (n : Fin 256) (hn : n = 0 ∨ n = 1) : ¬ (o.region.val < 8 ∧ o.cell.val = n.val) := fun ⟨hio, h⟩ =>
      hfaces ⟨hio, by rwa [Fin.ext h]⟩
    rw [enables_elsewhere hfaces, if_neg fun h => hcell 0 (.inl rfl) ⟨h.1, h.2.1⟩, if_neg fun h => hcell 1 (.inr rfl) ⟨h.1, h.2.1⟩]

end Effects

section Operations

variable {s : State} {o : CellOp} {im : RegionImage} {conf : CellConf} (hruns : CellRuns s o im conf)

include hruns

theorem computes_of_mem : ∀ p ∈ computed o ((s.fab[o.region]).cell o.cell) (sourceA s o im conf) (sourceB s o im conf),
    entryOf s o conf = entryWord p.1 o → Computes s o conf p.2.1 p.2.2.1 p.2.2.2 := by
  have plain {c : Instr} {op : Nat} {v : BitVec 16} {p : Bool} {f : BitVec 16 → BitVec 16 → BitVec 16 × Bool} (hop : op < 32)
      (hc : exec c s = s.fabOp op o f) (hf : f (sourceA s o im conf) (sourceB s o im conf) = (v, p)) (h : entryOf s o conf = entryWord op o) :
      Computes s o conf c v (some p) :=
    computes_of_fabOp hruns hop h hc (congrArg Prod.fst hf) fun b hb => (congrArg Prod.snd hf).trans (Option.some.inj hb)
  have shift {c : Instr} {op : Nat} {v : BitVec 16} {p q : Bool} {f : BitVec 16 → BitVec 16 → BitVec 16 × Bool} (hop : op < 32)
      (hc : exec c s = s.fabOp op o f)
      (hf : f (sourceA s o im conf) (sourceB s o im conf) = (v, if (sourceB s o im conf).toNat % 16 = 0 then q else p))
      (h : entryOf s o conf = entryWord op o) :
      Computes s o conf c v (if (sourceB s o im conf).toNat % 16 = 0 then none else some p) :=
    computes_of_fabOp hruns hop h hc (congrArg Prod.fst hf) fun b hb => (congrArg Prod.snd hf).trans (shifted_flag hb)
  simp only [computed, List.forall_mem_cons]
  exact ⟨plain (by decide) rfl rfl, plain (by decide) rfl rfl, plain (by decide) rfl rfl, plain (by decide) rfl rfl,
    plain (by decide) rfl rfl, plain (by decide) rfl rfl, plain (by decide) rfl rfl,
    shift (by decide) rfl rfl, shift (by decide) rfl rfl, shift (by decide) rfl rfl,
    fun h => computes_of_cycle hruns (by decide) h (show exec _ _ = execFabMux o s from rfl) rfl rfl rfl rfl rfl fun _ => Option.some.inj,
    plain (by decide) rfl rfl, plain (by decide) rfl rfl, plain (by decide) rfl rfl, plain (by decide) rfl rfl,
    plain (by decide) rfl rfl, plain (by decide) rfl rfl, List.forall_mem_nil _⟩

/-- ROT turns one way or the other. -/
theorem rot_computes (hentry : entryOf s o conf = entryWord 10 o) : Answers (.fabRot o) s fun t =>
    let a := sourceA s o im conf
    let k := (sourceB s o im conf).toNat % 16
    CellTook s t o conf (a.rotateLeft k) (if k = 0 then none else some (a.getLsbD (16 - k))) ∨
      CellTook s t o conf (a.rotateRight k) (if k = 0 then none else some (a.getLsbD (k - 1))) := by
  have hc : exec (.fabRot o) s = s.fabOp 10 o fun a b =>
    let k := shiftBy b
    if Config.rotateLeft then (a.rotateLeft k, if k = 0 then s.noBitOut else a.getLsbD (16 - k))
    else (a.rotateRight k, if k = 0 then s.noBitOut else a.getLsbD (k - 1)) := rfl
  cases hdir : Config.rotateLeft
  · simp only [hdir, Bool.false_eq_true, if_false] at hc
    exact answers_mono (computes_of_fabOp hruns (by decide) hentry hc rfl fun _ => shifted_flag) fun t ht => .inr ht.1
  · simp only [hdir, if_true] at hc
    exact answers_mono (computes_of_fabOp hruns (by decide) hentry hc rfl fun _ => shifted_flag) fun t ht => .inl ht.1

/-- EDGE gives the edges of its kind, and keeps the value for the next. -/
theorem edge_computes (hkind : o.imm.toNat % 4 < 3) (hentry : entryOf s o conf = entryWord 17 o) : Answers (.fabEdge o) s fun t =>
    let e := edges (o.imm.toNat % 4) ((s.fab[o.region]).cell o.cell).h (sourceA s o im conf)
    CellTook s t o conf e (some (decide (e ≠ 0))) ∧ ((t.fab[o.region]).cell o.cell).h = sourceA s o im conf := by
  have hedge (h a e : BitVec 16) : (if o.imm.toNat % 4 = 0 then a &&& ~~~h else if o.imm.toNat % 4 = 1 then h &&& ~~~a else
      if o.imm.toNat % 4 = 2 then a ^^^ h else e) = edges (o.imm.toNat % 4) h a := by
    unfold edges
    split
    · rfl
    · split
      · rfl
      · exact if_pos (by omega)
  refine answers_cycled (show exec _ _ = execFabEdge o s from rfl)
    ((fabCycle_taken hruns (by decide) hentry).trans cycled_id.symm) ⟨cellTook_cycled beside_id ?_ rfl fun b hb => ?_, ?_⟩
  · exact congrArg some (hedge _ _ _)
  · rw [← Option.some.inj hb, ← hedge]
    rfl
  · rw [cycled_cell_same beside_id]
    rfl

/-! ## The operations with a further effect (R188, R190) -/

/-- HSPOP in the port engine's cell takes the head stream's first word. -/
theorem hspop_word {w : BitVec 16 × Bool} {rest : List (BitVec 16 × Bool)} (hentry : entryOf s o conf = entryWord 19 o) (hcell : o.cell.val = 2)
    (hword : (s.fab[o.region]).hs = w :: rest) : Answers (.fabHspop o) s fun t =>
      CellTook s t o conf w.1 (some true) ∧ (t.fab[o.region]).hs = rest ∧ (t.fab[o.region]).macs = (s.fab[o.region]).macs ∧
        (t.fab[o.region]).pinOe = (s.fab[o.region]).pinOe := by
  have hword' : (if o.cell = 2 then (s.fab[o.region]).hs.head?.map (fun w => w.1) else none) = some w.1 := by
    rw [if_pos (Fin.ext hcell), hword]
    rfl
  refine answers_cycled (show exec _ _ = execFabHspop o s from rfl) (g := Region.popHs)
    (x := cellTaken o conf ((s.fab[o.region]).cell o.cell) { val := some w.1, flag := true }) ?_
    ⟨cellTook_cycled beside_popHs rfl rfl fun b hb => Option.some.inj hb,
      (cycled_part Region.hs fun _ _ => rfl).trans (congrArg (List.drop 1) hword), cycled_part Region.macs fun _ _ => rfl,
      cycled_part Region.pinOe fun _ _ => rfl⟩
  dsimp only
  rw [hword', fabCycle_taken hruns (by decide) hentry]
  rfl

/-- Elsewhere, or with no word, HSPOP gives an open value and takes nothing. -/
theorem hspop_none (hentry : entryOf s o conf = entryWord 19 o) (hnone : o.cell.val ≠ 2 ∨ (s.fab[o.region]).hs = []) :
    Answers (.fabHspop o) s fun t => ∃ v, CellTook s t o conf v (some false) ∧ (t.fab[o.region]).hs = (s.fab[o.region]).hs := by
  have hnone' : (if o.cell = 2 then (s.fab[o.region]).hs.head?.map (fun w => w.1) else none) = none := by
    obtain hcell | hempty := hnone
    · exact if_neg fun h => hcell (congrArg Fin.val h)
    · rw [hempty]
      exact ite_self _
  have hcomputes : Computes s o conf (.fabHspop o) (s.free_ 16) (some false) := by
    refine computes_of_cycle hruns (by decide) hentry (show exec _ _ = execFabHspop o s from rfl)
      (f := fun _ _ _ => { val := some (s.free_ 16), flag := false }) ?_ rfl rfl rfl rfl fun b hb => Option.some.inj hb
    dsimp only
    rw [hnone']
    rfl
  exact answers_mono hcomputes fun t ⟨htook, _, _, hhs, _⟩ => ⟨_, htook, hhs⟩

/-- MACW moves the slice that it names and no other. -/
theorem macw_takes (hentry : entryOf s o conf = entryWord 20 o) : Answers (.fabMacw o) s fun t =>
    CellTook s t o conf (sourceA s o im conf) (some (decide (sourceA s o im conf ≠ 0))) ∧
    (t.fab[o.region]).mac (o.imm.toNat / 4 % 4) = macTaken s o im (sourceA s o im conf) (sourceB s o im conf) ∧
    (∀ k, k ≠ o.imm.toNat / 4 % 4 → (t.fab[o.region]).mac k = (s.fab[o.region]).mac k) ∧
    (t.fab[o.region]).hs = (s.fab[o.region]).hs := by
  refine answers_cycled (show exec _ _ = execFabMacw o s from rfl)
    (g := fun r => r.setMac (o.imm.toNat / 4 % 4) (macTaken s o im (sourceA s o im conf) (sourceB s o im conf)))
    (x := cellTaken o conf ((s.fab[o.region]).cell o.cell)
      { val := some (sourceA s o im conf), flag := decide (sourceA s o im conf ≠ 0) }) ?_
    ⟨cellTook_cycled (beside_setMac _ _) rfl rfl fun b hb => Option.some.inj hb,
      (cycled_part (fun r => r.mac _) fun _ _ => rfl).trans (mac_setMac_same _ _ _),
      fun k hk => (cycled_part (fun r => r.mac k) fun _ _ => rfl).trans (mac_setMac_other _ hk _), cycled_part Region.hs fun _ _ => rfl⟩
  dsimp only
  rw [fabCycle_taken hruns (by decide) hentry]
  simp only [hruns.active]
  rfl

/-- SKIP moves the entry pointer alone. -/
theorem skip_moves (hentry : entryOf s o conf = entryWord 21 o) : Answers (.fabSkip o) s fun t =>
    let x := (s.fab[o.region]).cell o.cell
    let y := (t.fab[o.region]).cell o.cell
    y.ep = (if x.fl then o.imm.toNat % 8 else (x.ep + 1) % conf.len.val) ∧ y.da = x.da ∧ y.db = x.db ∧ y.out = x.out ∧ y.fl = x.fl ∧
    y.h = x.h ∧
    (∀ k, k ≠ o.cell.val → (t.fab[o.region]).cell k = (s.fab[o.region]).cell k) ∧ (t.fab[o.region]).hs = (s.fab[o.region]).hs ∧
    (t.fab[o.region]).macs = (s.fab[o.region]).macs ∧ PinsFollow s t o.region ∧ Only [.fab, .free, .out] s t := by
  refine answers_cycled (show exec _ _ = execFabSkip o s from rfl) ((fabCycle_taken hruns (by decide) hentry).trans cycled_id.symm) ?_
  dsimp only
  rw [cycled_cell_same beside_id]
  refine ⟨cellTaken_skip_ep _, rfl, rfl, rfl, ite_self _, rfl, fun k hk => cycled_cell_other beside_id hk,
    cycled_part Region.hs fun _ _ => rfl, cycled_part Region.macs fun _ _ => rfl, pinsFollow_cycled, only_cycled⟩

/-- IOOE gives its value, and enables the outputs of its pins. -/
theorem iooe_enables (hentry : entryOf s o conf = entryWord 22 o) : Answers (.fabIooe o) s fun t =>
    CellTook s t o conf (sourceA s o im conf) (some (decide (sourceA s o im conf ≠ 0))) ∧
    (t.fab[o.region]).pinOe = enables o (sourceA s o im conf) (s.fab[o.region]).pinOe := by
  refine answers_cycled (show exec _ _ = execFabIooe o s from rfl)
    (g := fun r => { r with pinOe := enables o (sourceA s o im conf) r.pinOe })
    (x := cellTaken o conf ((s.fab[o.region]).cell o.cell)
      { val := some (sourceA s o im conf), flag := decide (sourceA s o im conf ≠ 0) }) ?_
    ⟨cellTook_cycled (beside_pinOe _) rfl rfl fun b hb => Option.some.inj hb, cycled_part Region.pinOe fun _ _ => rfl⟩
  have hsame (t : State) : t.drivePins s o.region = (t.modFab o.region fun r => r).drivePins s o.region := by rw [modFab_id]
  rw [fabCycle_taken hruns (by decide) hentry, cycled]
  unfold enables
  split
  · exact hsame _
  · split
    · rfl
    · split
      · rfl
      · exact hsame _

end Operations

/-- Settles O32: each operation is one cycle of its cell, which the cell takes where EP names its entry; the further effects are its region's. -/
theorem fabricCells : Obligations.FabricCells := by
  unfold Obligations.FabricCells
  refine ⟨⟨fun s o im conf hruns => ?_, fun s o hidle c hc => ?_⟩, fun s o im conf hruns => ?_⟩
  · refine ⟨fun op c v fl hmem => computes_of_mem hruns (op, c, v, fl) hmem, rot_computes hruns, fun hkind => edge_computes hruns hkind,
      fun c op hmem hentry => ?_, fun h => ?_, fun h => ?_, fun h => ?_, fun h => ?_⟩
    · have hcycle := isCycle_cellCommands (c, op) hmem
      exact hcycle.exec_eq_self fun f more => fabCycle_other hruns hcycle.1 hentry
    all_goals rw [h]; rfl
  · obtain ⟨op, hcycle⟩ := exists_isCycle hc
    exact hcycle.exec_eq_self fun f more => fabCycle_idle hidle
  · refine ⟨fun w rest hentry hcell hword => hspop_word hruns hentry hcell hword, fun hentry hnone => hspop_none hruns hentry hnone,
      fun hentry => ?_, skip_moves hruns, fun hentry => ?_⟩
    · exact answers_mono (macw_takes hruns hentry) fun t ⟨htook, hmac, hothers, hhs⟩ =>
        ⟨htook, (congrArg MacSt.acc hmac).trans (macTaken_acc _ _), hothers, hhs⟩
    · exact answers_mono (iooe_enables hruns hentry) fun t ⟨htook, hoe⟩ =>
        ⟨htook, fun p hp => by rw [hoe]; exact getLsbD_enables _ _ hp⟩

end Sys2Proof.Proofs
end

section
/-!
SUPPORT. O56: the pins shared with the Loupe, their owners and the handover (R195, R349).
-/

namespace Sys2Proof.Proofs

open Sys2Proof.Machine Sys2Proof.Claims

/-! ## A permitted write of one register -/

section Written

variable {s : State} {a : Agent} {r : RegName} {i : Nat} {c : Instr} {f : State → State} {P : State → Prop}

/-- A permitted write answers what it does once the register's latch is released. -/
theorem answers_permitted (ps : List Part) (hp : Permits s a r i) (hc : exec c s = s.effect fun s => s.guarded a r i f)
    (honly : Only ps s (f (s.unlatch r i))) (hP : P (f (s.unlatch r i))) : Answers c s P :=
  answers_of_eq ps hc (guarded_act f hp.1 hp.2) honly hP

end Written

/-! ## The shared pins (R195) -/

section Shared

variable {s t : State} {o : Nat}

/-- The fabric has the shared pins: they are its own, and not between owners. -/
def FabricHas (s : State) : Prop := s.handover = false ∧ s.fv F.FAB_PIN_OWNER_OWNER = 1

/-- Without them it drives none of them. -/
theorem pinDriven_shared (h : ¬ FabricHas s) {i : Nat} (hi : i < 16) : s.pinDriven 7 i = false := by
  have hkept : (s.handover || decide (s.fv F.FAB_PIN_OWNER_OWNER ≠ 1)) = true := by
    rw [Bool.or_eq_true, decide_eq_true_iff]
    by_cases hhand : s.handover = true
    · exact .inl hhand
    · exact .inr fun howner => h ⟨Bool.eq_false_iff.mpr hhand, howner⟩
  unfold State.pinDriven
  rw [hkept, decide_eq_true ⟨rfl, hi⟩]
  exact Bool.and_false _

/-- The other pins of the port have no owner. -/
theorem pinDriven_own (hfab : SameFabric 7 s t) {i : Nat} (hi : ¬ i < 16) : t.pinDriven 7 i = s.pinDriven 7 i := by
  have hshared : decide ((7 : Fin 16) = 7 ∧ i < 16) = false := decide_eq_false fun h => hi h.2
  obtain ⟨held, hfab⟩ := hfab
  unfold State.pinDriven
  rw [hfab, hshared, Bool.false_and, Bool.false_and]
  rfl

theorem drivenPins_shared (hs : ¬ FabricHas s) (ht : ¬ FabricHas t) (hfab : SameFabric 7 s t) : t.drivenPins 7 = s.drivenPins 7 := by
  refine drivenPins_congr fun i => ?_
  by_cases hi : i < 16
  · rw [pinDriven_shared hs hi, pinDriven_shared ht hi]
  · exact pinDriven_own hfab hi

/-- Pins that pass between others than the fabric show nothing on the connector. -/
theorem out_drivePins_shared (hs : ¬ FabricHas s) (ht : ¬ FabricHas t) (hfab : t.fab = s.fab) : (t.drivePins s 7).out = t.out :=
  out_drivePins_quiet (drivenPins_shared hs ht (sameFabric_of_fab (by rw [hfab]))) (by rw [hfab])

/-! ### A change of owner -/

theorem setPinOwner_same (h : s.fv F.FAB_PIN_OWNER_OWNER = o) : s.setPinOwner o = s := if_pos h

theorem setPinOwner_moved (h : s.fv F.FAB_PIN_OWNER_OWNER ≠ o) : s.setPinOwner o = (pinsHanded s o).drivePins s 7 := if_neg h

theorem onlyRegs_drivePins {rs : List (RegName × Nat)} (old : State) (rg : Fin 16) : OnlyRegs rs s (s.drivePins old rg) :=
  onlyRegs_of_regs_eq (only_part (only_drivePins old rg) (p := .regs) (by decide))

theorem onlyRegs_setPinOwner {rs : List (RegName × Nat)} (h : (.FAB_PIN_OWNER, 0) ∈ rs) : OnlyRegs rs s (s.setPinOwner o) := by
  have hset : OnlyRegs rs s (s.fset F.FAB_PIN_OWNER_OWNER o) := (onlyRegs_fset (by decide) h o).mpr (onlyRegs_refl rs s)
  by_cases howner : s.fv F.FAB_PIN_OWNER_OWNER = o
  · rw [setPinOwner_same howner]
    exact onlyRegs_refl rs s
  · rw [setPinOwner_moved howner]
    exact onlyRegs_trans (onlyRegs_trans hset (onlyRegs_of_regs_eq rfl)) (onlyRegs_drivePins s 7)

theorem setPinOwner_handover : (s.setPinOwner o).handover = (s.handover || decide (s.fv F.FAB_PIN_OWNER_OWNER ≠ o)) := by
  by_cases howner : s.fv F.FAB_PIN_OWNER_OWNER = o
  · rw [setPinOwner_same howner, decide_eq_false (not_not_intro howner), Bool.or_false]
  · rw [setPinOwner_moved howner, decide_eq_true howner, Bool.or_true]
    exact only_part (only_drivePins s 7) (p := .handover) (by decide)

theorem pinsFollow_setPinOwner : PinsFollow s (s.setPinOwner o) 7 := by
  by_cases howner : s.fv F.FAB_PIN_OWNER_OWNER = o
  · rw [setPinOwner_same howner]
    exact .inl rfl
  · rw [setPinOwner_moved howner]
    exact pinsFollow_drivePins rfl

theorem setPinOwner_out (hs : ¬ FabricHas s) : (s.setPinOwner o).out = s.out := by
  by_cases howner : s.fv F.FAB_PIN_OWNER_OWNER = o
  · rw [setPinOwner_same howner]
  · rw [setPinOwner_moved howner]
    exact out_drivePins_shared hs (fun h => Bool.noConfusion h.1) rfl

end Shared

/-! ## Writes of FAB_PIN_OWNER (R195, R196) -/

section PinOwner

variable {s : State} {v : DWord} {o : Nat}

/-- The write's first part: CLAIM_REJ is cleared where it writes a 1. -/
def rejCleared (s : State) (v : DWord) : State :=
  if wField v F.FAB_PIN_OWNER_CLAIM_REJ = 1 then s.fset F.FAB_PIN_OWNER_CLAIM_REJ 0 else s

theorem only_rejCleared {ps : List Part} (h : .regs ∈ ps) : Only ps s (rejCleared s v) := by
  unfold rejCleared
  split
  · exact (only_fset h _ _ _).mpr (only_refl ps s)
  · exact only_refl ps s

theorem onlyRegs_rejCleared : OnlyRegs [(.FAB_PIN_OWNER, 0)] s (rejCleared s v) := by
  unfold rejCleared
  split
  · exact (onlyRegs_fset (by decide) (by decide) _).mpr (onlyRegs_refl _ s)
  · exact onlyRegs_refl _ s

theorem only_clearedWrite {ps : List Part} (hr : .regs ∈ ps) (hl : .latches ∈ ps) : Only ps s (rejCleared (s.unlatch .FAB_PIN_OWNER 0) v) :=
  only_trans ((only_unlatch hl _ _).mpr (only_refl ps s)) (only_rejCleared hr)

theorem onlyRegs_clearedWrite : OnlyRegs [(.FAB_PIN_OWNER, 0)] s (rejCleared (s.unlatch .FAB_PIN_OWNER 0) v) :=
  onlyRegs_trans ((onlyRegs_unlatch _ _).mpr (onlyRegs_refl _ s)) onlyRegs_rejCleared

theorem rejCleared_owner : (rejCleared s v).fv F.FAB_PIN_OWNER_OWNER = s.fv F.FAB_PIN_OWNER_OWNER := by
  unfold rejCleared
  split
  · exact fv_fset_apart s _ (by decide) (by decide) (by decide)
  · rfl

theorem rejCleared_out : (rejCleared s v).out = s.out := only_part (only_rejCleared (ps := [.regs]) (by decide)) (p := .out) (by decide)

theorem writePins_release (h : wField v F.FAB_PIN_OWNER_OWNER = 0) : s.writePins v = (rejCleared s v).setPinOwner 0 := by
  simp only [State.writePins, h]
  rfl

theorem writePins_three (h : wField v F.FAB_PIN_OWNER_OWNER = 3) : s.writePins v = rejCleared s v := by
  simp only [State.writePins, h]
  rfl

theorem writePins_claim (h : wField v F.FAB_PIN_OWNER_OWNER = o) (ho : o = 1 ∨ o = 2) : s.writePins v = ((rejCleared s v).claimPins o).2 := by
  obtain rfl | rfl := ho
  all_goals
    simp only [State.writePins, h]
    rfl

/-- A claim of pins that another holds is refused. -/
theorem writePins_refused (h : wField v F.FAB_PIN_OWNER_OWNER = o) (ho : o = 1 ∨ o = 2) (h0 : s.fv F.FAB_PIN_OWNER_OWNER ≠ 0)
    (hother : s.fv F.FAB_PIN_OWNER_OWNER ≠ o) : s.writePins v = (rejCleared s v).fset F.FAB_PIN_OWNER_CLAIM_REJ 1 := by
  rw [writePins_claim h ho, claimPins_refused (by rwa [rejCleared_owner]) (by rwa [rejCleared_owner])]

/-- Pins that nobody else holds, and a release, are a change of owner. -/
theorem writePins_set (h : wField v F.FAB_PIN_OWNER_OWNER = o)
    (ho : o = 0 ∨ ((o = 1 ∨ o = 2) ∧ (s.fv F.FAB_PIN_OWNER_OWNER = 0 ∨ s.fv F.FAB_PIN_OWNER_OWNER = o))) :
    s.writePins v = (rejCleared s v).setPinOwner o := by
  obtain rfl | ⟨hclaim, hfree⟩ := ho
  · exact writePins_release h
  · rw [writePins_claim h hclaim, claimPins_taken]
    rw [rejCleared_owner]
    exact fun ⟨h0, hother⟩ => hfree.elim h0 hother

variable {a : Agent} {w : BitVec 32} {c : Instr}

/-- Both commands are writes of the register. -/
theorem exec_pinOwner (hc : c = .pinOwnerClaim a w ∨ c = .pinOwnerRelease a w) :
    exec c s = s.effect fun s => s.guarded a .FAB_PIN_OWNER 0 fun s => s.writePins (w.setWidth 64) := by
  obtain rfl | rfl := hc <;> rfl

variable (hp : Permits s a .FAB_PIN_OWNER 0) (hc : c = .pinOwnerClaim a w ∨ c = .pinOwnerRelease a w)
  (hw : wField (w.setWidth 64) F.FAB_PIN_OWNER_OWNER = o)

include hp hc hw

theorem pinOwner_refused (ho : o = 1 ∨ o = 2) (h0 : s.fv F.FAB_PIN_OWNER_OWNER ≠ 0) (hother : s.fv F.FAB_PIN_OWNER_OWNER ≠ o) :
    Answers c s fun t => t.fv F.FAB_PIN_OWNER_OWNER = s.fv F.FAB_PIN_OWNER_OWNER ∧ t.on F.FAB_PIN_OWNER_CLAIM_REJ = true ∧
      RegsOnly [(.FAB_PIN_OWNER, 0)] s t := by
  have hwrite := writePins_refused (s := s.unlatch .FAB_PIN_OWNER 0) hw ho h0 hother
  have honly : Only [.regs, .latches] s ((s.unlatch .FAB_PIN_OWNER 0).writePins (w.setWidth 64)) := by
    rw [hwrite, only_fset (by decide)]
    exact only_clearedWrite (by decide) (by decide)
  refine answers_permitted _ hp (exec_pinOwner hc) honly ⟨?_, ?_, honly, ?_⟩
  · rw [hwrite, fv_fset_apart _ _ (by decide) (by decide) (by decide), rejCleared_owner]
    rfl
  · rw [hwrite, on_fset_one _ _ _ _ rfl (by decide)]
    rfl
  · rw [hwrite, onlyRegs_fset (by decide) (by decide)]
    exact onlyRegs_clearedWrite

theorem pinOwner_set (ho : o = 0 ∨ ((o = 1 ∨ o = 2) ∧ (s.fv F.FAB_PIN_OWNER_OWNER = 0 ∨ s.fv F.FAB_PIN_OWNER_OWNER = o))) :
    Answers c s fun t => t.fv F.FAB_PIN_OWNER_OWNER = o ∧ t.handover = (s.handover || decide (s.fv F.FAB_PIN_OWNER_OWNER ≠ o)) ∧
      (s.fv F.FAB_PIN_OWNER_OWNER ≠ o → ∀ i, i < 16 → t.pinDriven 7 i = false) ∧ PinsFollow s t 7 ∧
      Only [.regs, .latches, .handover, .fab, .out] s t ∧ OnlyRegs [(.FAB_PIN_OWNER, 0)] s t := by
  have hcleared : Only [.regs, .latches, .handover, .fab, .out] s (rejCleared (s.unlatch .FAB_PIN_OWNER 0) (w.setWidth 64)) :=
    only_clearedWrite (by decide) (by decide)
  have howner : (rejCleared (s.unlatch .FAB_PIN_OWNER 0) (w.setWidth 64)).fv F.FAB_PIN_OWNER_OWNER = s.fv F.FAB_PIN_OWNER_OWNER :=
    rejCleared_owner
  have hout : (rejCleared (s.unlatch .FAB_PIN_OWNER 0) (w.setWidth 64)).out = s.out := rejCleared_out
  have hhand : ((rejCleared (s.unlatch .FAB_PIN_OWNER 0) (w.setWidth 64)).setPinOwner o).handover =
      (s.handover || decide (s.fv F.FAB_PIN_OWNER_OWNER ≠ o)) := by
    rw [setPinOwner_handover, howner]
    congr 1
    exact only_part (only_rejCleared (ps := [.regs]) (by decide)) (p := .handover) (by decide)
  have honly := only_trans hcleared (only_mono (only_setPinOwner (o := o)) (by decide))
  have hwrite := writePins_set (s := s.unlatch .FAB_PIN_OWNER 0) hw ho
  refine answers_permitted [.regs, .latches, .handover, .fab, .out] hp (exec_pinOwner hc) (by rwa [hwrite]) ?_
  rw [hwrite]
  refine ⟨setPinOwner_owner (by omega), hhand, fun hmoved i hi => pinDriven_shared (fun h => ?_) hi, ?_, honly, ?_⟩
  · rw [FabricHas, hhand, decide_eq_true hmoved, Bool.or_true] at h
    exact Bool.noConfusion h.1
  · exact pinsFollow_of_out pinsFollow_setPinOwner hout
  · exact onlyRegs_trans onlyRegs_clearedWrite
      (onlyRegs_setPinOwner (by decide))

theorem pinOwner_three (ho : o = 3) : Answers c s fun t => t.fv F.FAB_PIN_OWNER_OWNER = s.fv F.FAB_PIN_OWNER_OWNER ∧
    RegsOnly [(.FAB_PIN_OWNER, 0)] s t := by
  have hwrite := writePins_three (s := s.unlatch .FAB_PIN_OWNER 0) (hw.trans ho)
  have honly : Only [.regs, .latches] s ((s.unlatch .FAB_PIN_OWNER 0).writePins (w.setWidth 64)) := by
    rw [hwrite]
    exact only_clearedWrite (by decide) (by decide)
  refine answers_permitted _ hp (exec_pinOwner hc) honly ⟨?_, honly, ?_⟩
  · rw [hwrite]
    exact rejCleared_owner
  · rw [hwrite]
    exact onlyRegs_clearedWrite

end PinOwner

/-! ## The Loupe (R349) -/

section Loupe

variable {s t : State} {v : DWord}

/-- What the Loupe's pins show of the state, the last pin first. -/
def loupeShown (s : State) : List Out := ((List.finRange 16).map fun n : Fin 16 => Out.loupe n (s.loupeSource n)).reverse

/-- What the pins show depends on LP_SEL and the level alone. -/
theorem loupeShown_congr (hsel : ∀ n : Fin 16, t.fv F.LP_SEL_SRC n = s.fv F.LP_SEL_SRC n) (hlevel : t.dbgLevel = s.dbgLevel) :
    loupeShown t = loupeShown s := by
  have hsource (n : Fin 16) : t.loupeSource n = s.loupeSource n := by
    unfold State.loupeSource
    rw [hsel, hlevel]
  unfold loupeShown
  simp only [hsource]

theorem foldl_emit_loupe (l : List (Fin 16)) (s : State) : l.foldl (fun t n => t.emit (.loupe n (t.loupeSource n))) s =
    { s with out := (l.map fun n : Fin 16 => Out.loupe n (s.loupeSource n)).reverse ++ s.out } := by
  induction l generalizing s with
  | nil => rfl
  | cons n l ih =>
    rw [List.foldl_cons, ih, List.map_cons, List.reverse_cons, List.append_assoc]
    rfl

theorem showLoupe_shown (howner : s.fv F.FAB_PIN_OWNER_OWNER = 2) (hhand : s.handover = false) :
    s.showLoupe = { s with out := loupeShown s ++ s.out } :=
  (if_pos ⟨howner, by rw [hhand]; decide⟩).trans (foldl_emit_loupe _ s)

theorem showLoupe_hidden (h : ¬ (s.fv F.FAB_PIN_OWNER_OWNER = 2 ∧ s.handover = false)) : s.showLoupe = s :=
  if_neg fun ⟨howner, hhand⟩ => h ⟨howner, Bool.eq_false_iff.mpr hhand⟩

/-! ### The handover's end (R195) -/

theorem exec_pinHandoverEnd (s : State) :
    exec .pinHandoverEnd s = s.effect fun s => if s.handover then s.endHandover.showLoupe else s := rfl

theorem only_showLoupe : Only [.out] s s.showLoupe := by
  by_cases h : s.fv F.FAB_PIN_OWNER_OWNER = 2 ∧ s.handover = false
  · rw [showLoupe_shown h.1 h.2]
    exact only_out (by decide) _
  · rw [showLoupe_hidden h]
    exact only_refl _ s

theorem only_endHandover : Only [.handover, .fab, .out] s s.endHandover :=
  only_trans (only_handover (by decide) false) (only_mono (only_drivePins _ _) (by decide))

theorem endHandover_handover : s.endHandover.handover = false := only_part (only_drivePins _ _) (p := .handover) (by decide)

theorem pinHandoverEnd_ends (s : State) : Answers .pinHandoverEnd s fun t =>
    t.handover = false ∧ Only [.handover, .fab, .out] s t ∧ (s.handover = false → t = s) := by
  cases hhand : s.handover
  · exact answers_of_eq [] (exec_pinHandoverEnd s) (if_neg (by rw [hhand]; decide)) (only_refl _ s) ⟨hhand, only_refl _ s, fun _ => rfl⟩
  · have honly : Only [.handover, .fab, .out] s s.endHandover.showLoupe := only_trans only_endHandover (only_mono only_showLoupe (by decide))
    refine answers_of_eq _ (exec_pinHandoverEnd s) (if_pos hhand) honly ⟨?_, honly, fun h => Bool.noConfusion h⟩
    exact (only_part only_showLoupe (p := .handover) (by decide)).trans endHandover_handover

/-- Once the pins are handed over to the Loupe they show its sources. -/
theorem pinHandoverEnd_loupe (howner : s.fv F.FAB_PIN_OWNER_OWNER = 2) (hhand : s.handover = true) : Answers .pinHandoverEnd s fun t =>
    t.handover = false ∧ t.out = loupeShown s ++ s.out ∧ Only [.handover, .fab, .out] s t := by
  have hregs : s.endHandover.regs = s.regs := only_part only_endHandover (p := .regs) (by decide)
  have hout : s.endHandover.out = s.out :=
    out_drivePins_shared (fun h => absurd (howner.symm.trans h.2) (by decide)) (fun h => absurd (howner.symm.trans h.2) (by decide)) rfl
  have hshow := showLoupe_shown ((fv_congr hregs _ 0).trans howner) endHandover_handover
  have hsame : loupeShown s.endHandover = loupeShown s :=
    loupeShown_congr (fun n => fv_congr hregs F.LP_SEL_SRC n) (fv_congr hregs F.DBG_STATUS_LEVEL 0)
  have honly : Only [.handover, .fab, .out] s s.endHandover.showLoupe := only_trans only_endHandover (only_mono only_showLoupe (by decide))
  refine answers_of_eq _ (exec_pinHandoverEnd s) (if_pos hhand) honly ⟨?_, ?_, honly⟩
  · exact (only_part only_showLoupe (p := .handover) (by decide)).trans endHandover_handover
  · rw [hshow, hsame, hout]

/-! ### Writes of LP_CTL (R349, R352) -/

/-- The write's first part: every field but CLAIM. -/
def loupeStored (s : State) (v : DWord) : State := s.plainWrite .LP_CTL 0 fullMask (setBits v 0 1 0)

theorem only_loupeStored {ps : List Part} (h : .regs ∈ ps) : Only ps s (loupeStored s v) := (only_plainWrite h _ _ _ _).mpr (only_refl ps s)

theorem onlyRegs_loupeStored {rs : List (RegName × Nat)} (h : (.LP_CTL, 0) ∈ rs) : OnlyRegs rs s (loupeStored s v) :=
  (onlyRegs_plainWrite (by decide) h _ _).mpr (onlyRegs_refl rs s)

theorem only_loupeWrite {ps : List Part} (hr : .regs ∈ ps) (hl : .latches ∈ ps) : Only ps s (loupeStored (s.unlatch .LP_CTL 0) v) :=
  only_trans ((only_unlatch hl _ _).mpr (only_refl ps s)) (only_loupeStored hr)

theorem onlyRegs_loupeWrite {rs : List (RegName × Nat)} (h : (.LP_CTL, 0) ∈ rs) : OnlyRegs rs s (loupeStored (s.unlatch .LP_CTL 0) v) :=
  onlyRegs_trans ((onlyRegs_unlatch _ _).mpr (onlyRegs_refl rs s)) (onlyRegs_loupeStored h)

theorem loupeStored_other {f : Fld} (h : .LP_CTL ≠ f.reg) {i : Nat} (hi : i < 1024) : (loupeStored s v).fv f i = s.fv f i :=
  fv_plainWrite_other s _ _ (by decide) hi h

theorem loupeStored_level : (loupeStored s v).dbgLevel = s.dbgLevel := loupeStored_other (f := F.DBG_STATUS_LEVEL) (by decide) (by decide)

theorem loupeStored_active : (loupeStored s v).active = s.active := by
  have hmode : (loupeStored s v).mode = s.mode := loupeStored_other (f := F.SYS_MODE_STATE) (by decide) (by decide)
  rw [State.active, hmode, ← State.active]

theorem loupeStored_claim : (loupeStored s v).on F.LP_CTL_CLAIM = false := by
  rw [State.on, loupeStored, fv_plainWrite_rw s F.LP_CTL_CLAIM 0 _ (by decide), wField, getBits_setBits_same _ _ _ _ (by decide)]
  rfl

theorem loupeStored_track : (loupeStored s v).fv F.LP_CTL_TRACK = wField v F.LP_CTL_TRACK := by
  rw [loupeStored, fv_plainWrite_rw s F.LP_CTL_TRACK 0 _ (by decide), wField, getBits_setBits_disjoint _ _ _ _ _ _ (by decide), ← wField]

theorem loupeStored_stretch : (loupeStored s v).fv F.LP_CTL_STRETCH = wField v F.LP_CTL_STRETCH := by
  rw [loupeStored, fv_plainWrite_rw s F.LP_CTL_STRETCH 0 _ (by decide), wField, getBits_setBits_disjoint _ _ _ _ _ _ (by decide), ← wField]

theorem writeLpCtl_release (h : wField v F.LP_CTL_CLAIM = 0) : s.writeLpCtl v = (loupeStored s v).releaseLoupe := if_pos h

theorem writeLpCtl_barred (h : wField v F.LP_CTL_CLAIM ≠ 0) (hbar : s.dbgLevel = 0 ∨ s.active = false) : s.writeLpCtl v = loupeStored s v := by
  refine (if_neg h).trans (if_pos ?_)
  rw [← loupeStored, loupeStored_level, loupeStored_active, Bool.not_eq_true]
  exact hbar

/-- At D1 or D2 a write with CLAIM claims the pins, which the fabric may hold. -/
theorem writeLpCtl_claim (h : wField v F.LP_CTL_CLAIM ≠ 0) (hlevel : s.dbgLevel ≠ 0) (hactive : s.active = true) : s.writeLpCtl v =
    let r := (loupeStored s v).claimPins 2
    if r.1 then r.2 else (r.2.fset F.LP_CTL_CLAIM 1).showLoupe := by
  refine (if_neg h).trans (if_neg ?_)
  rw [← loupeStored, loupeStored_level, loupeStored_active]
  exact not_or.mpr ⟨hlevel, not_not_intro hactive⟩

theorem writeLpCtl_refused (h : wField v F.LP_CTL_CLAIM ≠ 0) (hlevel : s.dbgLevel ≠ 0) (hactive : s.active = true)
    (howner : s.fv F.FAB_PIN_OWNER_OWNER = 1) : s.writeLpCtl v = (loupeStored s v).fset F.FAB_PIN_OWNER_CLAIM_REJ 1 := by
  have howner' : (loupeStored s v).fv F.FAB_PIN_OWNER_OWNER = 1 := (loupeStored_other (by decide) (by decide)).trans howner
  rw [writeLpCtl_claim h hlevel hactive, claimPins_refused (by rw [howner']; decide) (by rw [howner']; decide)]
  rfl

theorem writeLpCtl_taken (h : wField v F.LP_CTL_CLAIM ≠ 0) (hlevel : s.dbgLevel ≠ 0) (hactive : s.active = true)
    (howner : s.fv F.FAB_PIN_OWNER_OWNER = 0 ∨ s.fv F.FAB_PIN_OWNER_OWNER = 2) :
    s.writeLpCtl v = (((loupeStored s v).setPinOwner 2).fset F.LP_CTL_CLAIM 1).showLoupe := by
  have howner' : (loupeStored s v).fv F.FAB_PIN_OWNER_OWNER = s.fv F.FAB_PIN_OWNER_OWNER := loupeStored_other (by decide) (by decide)
  rw [writeLpCtl_claim h hlevel hactive, claimPins_taken]
  · rfl
  · rw [howner']
    exact fun ⟨h0, h2⟩ => howner.elim h0 h2

end Loupe

/-! ### The Loupe's two commands -/

section LoupeCommands

variable {s : State} {a : Agent} {v : BitVec 32}

/-- The value that a release writes: the command's, with CLAIM = 0. -/
def releaseValue (v : BitVec 32) : DWord := v.setWidth 64 &&& 0xFFFFFFFE

theorem getLsbD_releaseValue {k : Nat} (hk : k < 32) : (releaseValue v).getLsbD k = (decide (1 ≤ k) && v.getLsbD k) := by
  have hmask : ∀ k : Fin 32, (0xFFFFFFFE : DWord).getLsbD k = decide (1 ≤ k.val) := by decide
  rw [releaseValue, BitVec.getLsbD_and, hmask ⟨k, hk⟩, BitVec.getLsbD_setWidth, decide_eq_true (by omega), Bool.true_and, Bool.and_comm]

theorem releaseValue_claim : wField (releaseValue v) F.LP_CTL_CLAIM = 0 := by
  rw [wField, getBits_one, getLsbD_releaseValue (by decide)]
  rfl

theorem releaseValue_stretch : wField (releaseValue v) F.LP_CTL_STRETCH = (v.getLsbD 1).toNat := by
  rw [wField, getBits_one, getLsbD_releaseValue (by decide)]
  rfl

theorem releaseValue_track : wField (releaseValue v) F.LP_CTL_TRACK = v.toNat / 4 % 64 := by
  refine Nat.eq_of_testBit_eq fun k => ?_
  rw [wField, testBit_getBits, show v.toNat / 4 % 64 = v.toNat / 2 ^ 2 % 2 ^ 6 from rfl, ← Nat.shiftRight_eq_div_pow,
    Nat.testBit_mod_two_pow, Nat.testBit_shiftRight]
  by_cases hk : k < 6
  · rw [getLsbD_releaseValue (show 2 + k < 32 by omega), decide_eq_true (show 1 ≤ 2 + k by omega)]
    rfl
  · rw [decide_eq_false hk, Bool.false_and, Bool.false_and]

theorem exec_loupeRelease (s : State) (a : Agent) (v : BitVec 32) :
    exec (.loupeRelease a v) s = s.effect fun s => s.guarded a .LP_CTL 0 fun s => s.writeLpCtl (releaseValue v) := rfl

theorem exec_loupeClaim (s : State) (a : Agent) (v : BitVec 32) :
    exec (.loupeClaim a v) s = s.effect fun s => s.guarded a .LP_CTL 0 fun s => s.writeLpCtl (v.setWidth 64 ||| 1) := rfl

theorem claimValue_claim : wField (v.setWidth 64 ||| 1) F.LP_CTL_CLAIM ≠ 0 := by
  rw [wField, getBits_one, BitVec.getLsbD_or, show (1 : DWord).getLsbD 0 = true by decide, Bool.or_true]
  decide

/-- The Loupe lets go of the pins, if it has them. -/
theorem releaseLoupe_eq (s : State) : s.releaseLoupe =
    if s.fv F.FAB_PIN_OWNER_OWNER = 2 then pinsHanded (s.fset F.LP_CTL_CLAIM 0) 0 else s.fset F.LP_CTL_CLAIM 0 := by
  rw [State.releaseLoupe, fv_fset_other s 0 (by decide) (by decide) (by decide)]
  rfl

theorem only_releaseLoupe : Only [.regs, .handover] s s.releaseLoupe := by
  have hclaim : Only [.regs, .handover] s (s.fset F.LP_CTL_CLAIM 0) := (only_fset (by decide) _ _ _).mpr (only_refl _ s)
  rw [releaseLoupe_eq]
  split
  · exact only_trans hclaim only_pinsHanded
  · exact hclaim

theorem onlyRegs_releaseLoupe : OnlyRegs [(.LP_CTL, 0), (.FAB_PIN_OWNER, 0)] s s.releaseLoupe := by
  have hclaim : OnlyRegs [(.LP_CTL, 0), (.FAB_PIN_OWNER, 0)] s (s.fset F.LP_CTL_CLAIM 0) :=
    (onlyRegs_fset (by decide) (by decide) _).mpr (onlyRegs_refl _ s)
  rw [releaseLoupe_eq]
  split
  · exact onlyRegs_trans ((onlyRegs_fset (by decide) (by decide) _).mpr hclaim) (onlyRegs_of_regs_eq rfl)
  · exact hclaim

theorem fv_pinsHanded (s : State) (o : Nat) (f : Fld) (i : Nat) : (pinsHanded s o).fv f i = (s.fset F.FAB_PIN_OWNER_OWNER o).fv f i := rfl

/-- The release touches no other field. -/
theorem releaseLoupe_field {f : Fld} (hclaim : Apart F.LP_CTL_CLAIM f) (howner : Apart F.FAB_PIN_OWNER_OWNER f) :
    s.releaseLoupe.fv f = s.fv f := by
  rw [releaseLoupe_eq]
  split
  · rw [fv_pinsHanded, fv_fset_apart _ _ (by decide) (by decide) howner, fv_fset_apart s _ (by decide) (by decide) hclaim]
  · exact fv_fset_apart s _ (by decide) (by decide) hclaim

theorem releaseLoupe_claim : s.releaseLoupe.on F.LP_CTL_CLAIM = false := by
  have hclaim : (s.fset F.LP_CTL_CLAIM 0).fv F.LP_CTL_CLAIM = 0 := fv_fset_same s _ 0 0 (by decide)
  rw [State.on, decide_eq_false_iff_not, not_not, releaseLoupe_eq]
  split
  · rw [fv_pinsHanded, fv_fset_apart _ _ (by decide) (by decide) (by decide), hclaim]
  · exact hclaim

theorem releaseLoupe_owner : s.releaseLoupe.fv F.FAB_PIN_OWNER_OWNER =
    if s.fv F.FAB_PIN_OWNER_OWNER = 2 then 0 else s.fv F.FAB_PIN_OWNER_OWNER := by
  rw [releaseLoupe_eq]
  split
  · rw [fv_pinsHanded, fv_fset_same _ _ _ _ (by decide)]
    rfl
  · exact fv_fset_apart s _ (by decide) (by decide) (by decide)

theorem releaseLoupe_handover (h : s.fv F.FAB_PIN_OWNER_OWNER = 2) : s.releaseLoupe.handover = true := by
  rw [releaseLoupe_eq, if_pos h]
  rfl

/-- The state in which a claim has given the pins to the Loupe, before they show anything. -/
def loupeOwning (s : State) (v : DWord) : State := ((loupeStored (s.unlatch .LP_CTL 0) v).setPinOwner 2).fset F.LP_CTL_CLAIM 1

theorem only_loupeOwning {v : DWord} : Only [.out, .regs, .latches, .handover, .fab] s (loupeOwning s v) :=
  (only_fset (by decide) _ _ _).mpr (only_trans (only_loupeWrite (by decide) (by decide))
    (only_mono only_setPinOwner (by decide)))

theorem onlyRegs_loupeOwning {v : DWord} : OnlyRegs [(.LP_CTL, 0), (.FAB_PIN_OWNER, 0)] s (loupeOwning s v) :=
  (onlyRegs_fset (by decide) (by decide) _).mpr (onlyRegs_trans
    (onlyRegs_loupeWrite (by decide)) (onlyRegs_setPinOwner (by decide)))

theorem loupeOwning_owner {v : DWord} : (loupeOwning s v).fv F.FAB_PIN_OWNER_OWNER = 2 := by
  rw [loupeOwning, fv_fset_apart _ _ (by decide) (by decide) (by decide), setPinOwner_owner (by decide)]

/-- A part that came out as it was is in no frame. -/
theorem only_of_out {ps : List Part} {t : State} (h : Only (.out :: ps) s t) (hout : t.out = s.out) : Only ps s t := by
  obtain ⟨hpending, hfuses, hdev, hticks, hparts⟩ := h
  refine ⟨hpending, hfuses, hdev, hticks, fun p hp => ?_⟩
  by_cases hpo : p = .out
  · subst hpo
    exact hout
  · exact hparts p fun h => (List.mem_cons.mp h).elim hpo hp

section Permitted

variable (hp : Permits s a .LP_CTL 0)

include hp

theorem loupeRelease_releases : Answers (.loupeRelease a v) s fun t => t.on F.LP_CTL_CLAIM = false ∧
    t.fv F.LP_CTL_TRACK = v.toNat / 4 % 64 ∧ t.on F.LP_CTL_STRETCH = v.getLsbD 1 ∧
    t.fv F.FAB_PIN_OWNER_OWNER = (if s.fv F.FAB_PIN_OWNER_OWNER = 2 then 0 else s.fv F.FAB_PIN_OWNER_OWNER) ∧
    (s.fv F.FAB_PIN_OWNER_OWNER = 2 → t.handover = true) ∧ Only [.regs, .latches, .handover, .fab] s t ∧
    OnlyRegs [(.LP_CTL, 0), (.FAB_PIN_OWNER, 0)] s t := by
  have howner : (loupeStored (s.unlatch .LP_CTL 0) (releaseValue v)).fv F.FAB_PIN_OWNER_OWNER = s.fv F.FAB_PIN_OWNER_OWNER :=
    loupeStored_other (by decide) (by decide)
  have honly : Only [.regs, .latches, .handover, .fab] s (loupeStored (s.unlatch .LP_CTL 0) (releaseValue v)).releaseLoupe :=
    only_trans (only_loupeWrite (by decide) (by decide))
      (only_mono only_releaseLoupe (by decide))
  have hwrite := writeLpCtl_release (s := s.unlatch .LP_CTL 0) (releaseValue_claim (v := v))
  refine answers_permitted _ hp (exec_loupeRelease s a v) (hwrite ▸ honly) ?_
  rw [hwrite]
  refine ⟨releaseLoupe_claim, ?_, ?_, ?_, fun h2 => releaseLoupe_handover (howner.trans h2), honly, ?_⟩
  · rw [releaseLoupe_field (by decide) (by decide), loupeStored_track, releaseValue_track]
  · rw [State.on, releaseLoupe_field (by decide) (by decide), loupeStored_stretch, releaseValue_stretch]
    cases v.getLsbD 1 <;> rfl
  · rw [releaseLoupe_owner, howner]
  · exact onlyRegs_trans (onlyRegs_loupeWrite (by decide))
      onlyRegs_releaseLoupe

theorem loupeClaim_barred (hbar : s.dbgLevel = 0 ∨ s.active = false) : Answers (.loupeClaim a v) s fun t =>
    t.on F.LP_CTL_CLAIM = false ∧ t.fv F.FAB_PIN_OWNER_OWNER = s.fv F.FAB_PIN_OWNER_OWNER ∧ RegsOnly [(.LP_CTL, 0)] s t := by
  have hwrite := writeLpCtl_barred (s := s.unlatch .LP_CTL 0) (claimValue_claim (v := v)) hbar
  have honly : Only [.regs, .latches] s (loupeStored (s.unlatch .LP_CTL 0) (v.setWidth 64 ||| 1)) :=
    only_loupeWrite (by decide) (by decide)
  refine answers_permitted _ hp (exec_loupeClaim s a v) (hwrite ▸ honly) ?_
  rw [hwrite]
  exact ⟨loupeStored_claim, loupeStored_other (by decide) (by decide), honly,
    onlyRegs_loupeWrite (by decide)⟩

variable (hlevel : s.dbgLevel ≠ 0) (hactive : s.active = true)

include hlevel hactive

theorem loupeClaim_refused (howner : s.fv F.FAB_PIN_OWNER_OWNER = 1) : Answers (.loupeClaim a v) s fun t =>
    t.on F.LP_CTL_CLAIM = false ∧ t.fv F.FAB_PIN_OWNER_OWNER = 1 ∧ t.on F.FAB_PIN_OWNER_CLAIM_REJ = true ∧
    RegsOnly [(.LP_CTL, 0), (.FAB_PIN_OWNER, 0)] s t := by
  have hwrite := writeLpCtl_refused (s := s.unlatch .LP_CTL 0) (claimValue_claim (v := v)) hlevel hactive howner
  have honly : Only [.regs, .latches] s ((loupeStored (s.unlatch .LP_CTL 0) (v.setWidth 64 ||| 1)).fset F.FAB_PIN_OWNER_CLAIM_REJ 1) :=
    (only_fset (by decide) _ _ _).mpr
      (only_loupeWrite (by decide) (by decide))
  refine answers_permitted _ hp (exec_loupeClaim s a v) (hwrite ▸ honly) ?_
  rw [hwrite]
  refine ⟨?_, ?_, on_fset_one _ _ _ _ rfl (by decide), honly, (onlyRegs_fset (by decide) (by decide) _).mpr
    (onlyRegs_loupeWrite (by decide))⟩
  · rw [State.on, fv_fset_apart _ _ (by decide) (by decide) (by decide)]
    exact loupeStored_claim
  · rw [fv_fset_apart _ _ (by decide) (by decide) (by decide)]
    exact (loupeStored_other (by decide) (by decide)).trans howner

/-- A claim that nobody bars gives the pins to the Loupe. -/
theorem loupeClaim_taken {P : State → Prop} (howner : s.fv F.FAB_PIN_OWNER_OWNER = 0 ∨ s.fv F.FAB_PIN_OWNER_OWNER = 2)
    (hP : P (loupeOwning s (v.setWidth 64 ||| 1)).showLoupe) : Answers (.loupeClaim a v) s P := by
  have hwrite := writeLpCtl_taken (s := s.unlatch .LP_CTL 0) (claimValue_claim (v := v)) hlevel hactive howner
  refine answers_permitted [.out, .regs, .latches, .handover, .fab] hp (exec_loupeClaim s a v) ?_ (by rwa [hwrite])
  rw [hwrite]
  exact only_trans only_loupeOwning (only_mono only_showLoupe (by decide))

/-- The Loupe's pins stay dark until they are handed over. -/
theorem loupeClaim_free (howner : s.fv F.FAB_PIN_OWNER_OWNER = 0) : Answers (.loupeClaim a v) s fun t => t.on F.LP_CTL_CLAIM = true ∧
    t.fv F.FAB_PIN_OWNER_OWNER = 2 ∧ t.handover = true ∧ t.out = s.out ∧ Only [.regs, .latches, .handover, .fab] s t ∧
    OnlyRegs [(.LP_CTL, 0), (.FAB_PIN_OWNER, 0)] s t := by
  have hstored : (loupeStored (s.unlatch .LP_CTL 0) (v.setWidth 64 ||| 1)).fv F.FAB_PIN_OWNER_OWNER = 0 :=
    (loupeStored_other (by decide) (by decide)).trans howner
  have hhand : (loupeOwning s (v.setWidth 64 ||| 1)).handover = true := by
    rw [loupeOwning, State.fset_handover, setPinOwner_handover, hstored]
    exact Bool.or_true _
  have hout : (loupeOwning s (v.setWidth 64 ||| 1)).out = s.out :=
    setPinOwner_out fun h => absurd (hstored.symm.trans h.2) (by decide)
  refine loupeClaim_taken hp hlevel hactive (.inl howner) ?_
  rw [showLoupe_hidden fun h => Bool.noConfusion (hhand.symm.trans h.2)]
  exact ⟨on_fset_one _ _ _ _ rfl (by decide), loupeOwning_owner, hhand, hout, only_of_out only_loupeOwning hout, onlyRegs_loupeOwning⟩

theorem loupeClaim_again (howner : s.fv F.FAB_PIN_OWNER_OWNER = 2) (hhand : s.handover = false) : Answers (.loupeClaim a v) s fun t =>
    t.on F.LP_CTL_CLAIM = true ∧ t.fv F.FAB_PIN_OWNER_OWNER = 2 ∧ t.out = loupeShown s ++ s.out ∧ Only [.regs, .latches, .out] s t ∧
    OnlyRegs [(.LP_CTL, 0)] s t := by
  have hstored : (loupeStored (s.unlatch .LP_CTL 0) (v.setWidth 64 ||| 1)).fv F.FAB_PIN_OWNER_OWNER = 2 :=
    (loupeStored_other (by decide) (by decide)).trans howner
  have howning : loupeOwning s (v.setWidth 64 ||| 1) = (loupeStored (s.unlatch .LP_CTL 0) (v.setWidth 64 ||| 1)).fset F.LP_CTL_CLAIM 1 := by
    rw [loupeOwning, setPinOwner_same hstored]
  have honly : Only [.regs, .latches, .out] s (loupeOwning s (v.setWidth 64 ||| 1)) := by
    rw [howning, only_fset (by decide)]
    exact only_loupeWrite (by decide) (by decide)
  have hregs : OnlyRegs [(.LP_CTL, 0)] s (loupeOwning s (v.setWidth 64 ||| 1)) := by
    rw [howning, onlyRegs_fset (by decide) (by decide)]
    exact onlyRegs_loupeWrite (by decide)
  have hbut : RegsBut [.LP_CTL] s (loupeOwning s (v.setWidth 64 ||| 1)) := regsBut_of_onlyRegs hregs (by decide)
  have hshown : loupeShown (loupeOwning s (v.setWidth 64 ||| 1)) = loupeShown s :=
    loupeShown_congr (fun n => hbut.fv (f := F.LP_SEL_SRC) (by decide) (by omega)) (hbut.fv (f := F.DBG_STATUS_LEVEL) (by decide) (by decide))
  have hhand' : (loupeOwning s (v.setWidth 64 ||| 1)).handover = false := (only_part honly (p := .handover) (by decide)).trans hhand
  have hout : (loupeOwning s (v.setWidth 64 ||| 1)).out = s.out := by
    rw [howning]
    rfl
  refine loupeClaim_taken hp hlevel hactive (.inr howner) ?_
  rw [showLoupe_shown loupeOwning_owner hhand', hshown, hout]
  exact ⟨on_fset_one _ _ _ _ rfl (by decide), loupeOwning_owner, rfl, only_trans honly (only_out (by decide) _),
    onlyRegs_trans hregs (onlyRegs_of_regs_eq rfl)⟩

end Permitted

end LoupeCommands

end Sys2Proof.Proofs
end

section
/-!
SUPPORT. O56: the exchange of a fabric region (R194), and the proof.
-/

namespace Sys2Proof.Proofs

open Sys2Proof.Machine Sys2Proof.Claims

/-! ## Sets of listed entries -/

/-- What a map reads after the entries that `p` names have been set. -/
theorem smGet_foldl_smSet {α : Type} [DecidableEq α] (d : Nat → α) (p : Nat → Bool) (v : Nat → α) (l : List Nat) (m : SMap α) (k : Nat) :
    smGet d (l.foldl (fun m i => if p i then smSet d m i (v i) else m) m) k = if k ∈ l ∧ p k = true then v k else smGet d m k := by
  induction l generalizing m with
  | nil => simp
  | cons i l ih =>
    have hhead : smGet d (if p i then smSet d m i (v i) else m) k = if k = i ∧ p k = true then v k else smGet d m k := by
      by_cases hk : k = i
      · subst hk
        cases hp : p k <;> simp
      · have hother : ¬ (k = i ∧ p k = true) := fun h => hk h.1
        rw [if_neg hother]
        cases p i
        · rfl
        · exact smGet_set_ne d m _ (Ne.symm hk)
    rw [List.foldl_cons, ih, hhead]
    by_cases hl : k ∈ l <;> by_cases hi : k = i <;> cases p k <;> simp only [hl, hi, List.mem_cons] <;> simp

/-! ## The parts of an exchange (R194) -/

section Exchange

variable {s t : State} {r : Fin 16} {im : RegionImage} {fi : Option (BitVec 16)}

/-- The pulse that the exchange shows: one that fell in it, or else one that no cycle has yet shown. -/
def pulseOf (s : State) (r : Fin 16) (fi : Option (BitVec 16)) : Option (BitVec 16) :=
  if fi.isNone ∧ (s.fab[r]).fi ≠ 0 ∧ (s.fab[r]).now ≤ (s.fab[r]).fiAt then some (s.fab[r]).fi else fi

/-- The region under its new configuration, before its cells look for edges. -/
def reconfigured (im : RegionImage) (pulse : Option (BitVec 16)) (x : Region) : Region :=
  { x with
    active := some im, shadow := none, stopped := false,
    cells := im.cells.foldl (fun (cs : SMap CellSt) e => smSet (fun _ => {}) cs e.1.val (freshCell e.2 (x.cell e.1.val))) [],
    macs := (List.range 4).foldl (fun (ms : SMap MacSt) m =>
      if (imMac im m).retain then smSet (fun _ => {}) ms m { acc := (x.mac m).acc, hist := [(0, (x.mac m).acc)] } else ms) [],
    fi := pulse.getD 0, fiAt := if pulse.isSome then 3 else 0 }

/-- A cell that detects edges and does not keep H takes the present value of its EDGE source. -/
def edgeTaken (r : Fin 16) (im : RegionImage) (s : State) (e : Fin 256 × CellConf) : State :=
  match edgeEntry e.2 with
  | some w =>
    if e.2.retH then s
    else
      let x := (s.fab[r]).cell e.1
      let h := s.fabSource r e.1 im e.2 x (w.setWidth 16) (w.toNat / 2 ^ 23 % 16)
      s.used.modFab r (fun g => g.setCell e.1 { x with h := h })
  | none => s

/-- The exchange before its pins are driven. -/
def swapped (s : State) (r : Fin 16) (im : RegionImage) (pulse : Option (BitVec 16)) : State :=
  im.cells.foldl (edgeTaken r im) (s.modFab r (reconfigured im pulse))

/-- The exchange but for the count of FI_LATE. -/
def pinsSwapped (s : State) (r : Fin 16) (im : RegionImage) (pulse : Option (BitVec 16)) : State :=
  (((swapped s r im pulse).fset F.FAB_REGION_CTL_SHADOW_OK 0 r).fset F.FAB_REGION_CTL_SWAP 0 r).drivePins s r

theorem exchange_none (h : (s.fab[r]).shadow = none) : s.exchange r fi = s := by
  unfold State.exchange
  simp only [h]

theorem exchange_eq (h : (s.fab[r]).shadow = some im) : s.exchange r fi =
    if (pulseOf s r fi).isSome then (pinsSwapped s r im (pulseOf s r fi)).finc F.FAB_REGION_CTL_FI_LATE r
    else pinsSwapped s r im (pulseOf s r fi) := by
  unfold State.exchange
  simp only [h]
  rfl

/-! ### What the search for edges leaves -/

/-- Of the fabric only cells of the region have changed. -/
def CellsOnly (r : Fin 16) (s t : State) : Prop :=
  (∀ q : Fin 16, q ≠ r → t.fab[q] = s.fab[q]) ∧ ∃ cs, t.fab[r] = { s.fab[r] with cells := cs }

theorem cellsOnly_refl (r : Fin 16) (s : State) : CellsOnly r s s := ⟨fun _ _ => rfl, _, rfl⟩

theorem cellsOnly_setCell (c : Nat) (x : CellSt) (h : CellsOnly r s t) : CellsOnly r s (t.modFab r fun g => g.setCell c x) := by
  obtain ⟨hother, cs, hregion⟩ := h
  refine ⟨fun q hq => (fab_modFab_other t hq _).trans (hother q hq), ((t.fab[r]).setCell c x).cells, ?_⟩
  rw [fab_modFab_same, hregion]
  rfl

theorem cellsOnly_edgeTaken (e : Fin 256 × CellConf) (h : CellsOnly r s t) : CellsOnly r s (edgeTaken r im t e) := by
  unfold edgeTaken
  split
  · split
    · exact h
    · exact cellsOnly_setCell (t := t.used) _ _ h
  · exact h

theorem only_edgeTaken (e : Fin 256 × CellConf) : Only [.fab, .free] t (edgeTaken r im t e) := by
  unfold edgeTaken
  split
  · split
    · exact only_refl _ t
    · exact (only_modFab (by decide) _ _).mpr ((only_used (by decide)).mpr (only_refl _ t))
  · exact only_refl _ t

/-- The cell's own search changes H alone, and nothing where H is kept. -/
theorem edgeTaken_cell (c : Fin 256) (conf : CellConf) :
    ((edgeTaken r im t (c, conf)).fab[r]).cell c =
        { (t.fab[r]).cell c with h := (((edgeTaken r im t (c, conf)).fab[r]).cell c).h } ∧
      (conf.retH = true → edgeTaken r im t (c, conf) = t) := by
  unfold edgeTaken
  split
  · split
    · exact ⟨rfl, fun _ => rfl⟩
    · next hret =>
      refine ⟨?_, fun h => absurd h hret⟩
      rw [fab_modFab_same, cell_setCell_same]
  · exact ⟨rfl, fun _ => rfl⟩

theorem cellsOnly_swapped (pulse : Option (BitVec 16)) : CellsOnly r (s.modFab r (reconfigured im pulse)) (swapped s r im pulse) :=
  foldl_keeps (p := fun t => CellsOnly r _ t) _ _ (fun _ e h => cellsOnly_edgeTaken e h) _ (cellsOnly_refl r _)

theorem only_swapped (pulse : Option (BitVec 16)) : Only [.fab, .free] s (swapped s r im pulse) :=
  only_trans ((only_modFab (by decide) _ _).mpr (only_refl _ s)) (only_foldl _ (fun _ e => only_edgeTaken e) _)

/-! ### What the exchange leaves -/

theorem pinsSwapped_regs (pulse : Option (BitVec 16)) : (pinsSwapped s r im pulse).regs =
    ((s.fset F.FAB_REGION_CTL_SHADOW_OK 0 r).fset F.FAB_REGION_CTL_SWAP 0 r).regs := by
  have hswapped : (swapped s r im pulse).regs = s.regs := only_part (only_swapped pulse) (p := .regs) (by decide)
  refine (only_part (only_drivePins s r) (p := .regs) (by decide)).trans ?_
  simp only [State.fset, State.setReg, State.reg, hswapped]

theorem onlyRegs_exchange : OnlyRegs [(.FAB_REGION_CTL, r.val)] s (s.exchange r fi) :=
  exchange_keeps r fi (fun _ _ h => onlyRegs_trans h (onlyRegs_of_regs_eq rfl)) (fun _ h => onlyRegs_trans h (onlyRegs_of_regs_eq rfl))
    (fun _ g _ hg h => (onlyRegs_fset (by omega) (by rw [hg]; exact List.mem_singleton_self _) _).mpr h)
    (fun _ old h => onlyRegs_trans h (onlyRegs_drivePins old r)) (onlyRegs_refl _ s)

variable (himage : (s.fab[r]).shadow = some im)

include himage

theorem exchange_fab : (s.exchange r fi).fab = (pinsSwapped s r im (pulseOf s r fi)).fab := by
  rw [exchange_eq himage]
  split <;> rfl

theorem exchange_other {q : Fin 16} (hq : q ≠ r) : (s.exchange r fi).fab[q] = s.fab[q] := by
  rw [exchange_fab himage, pinsSwapped, fab_drivePins_other hq]
  exact ((cellsOnly_swapped _).1 q hq).trans (fab_modFab_other s hq _)

/-- The region is reconfigured, but for the H of its cells and the levels that its pins hold. -/
theorem exchange_region : ∃ cs held,
    (s.exchange r fi).fab[r] = { reconfigured im (pulseOf s r fi) s.fab[r] with cells := cs, pinHeld := held } := by
  obtain ⟨-, cs, hcells⟩ := cellsOnly_swapped (s := s) (r := r) (im := im) (pulseOf s r fi)
  obtain ⟨held, hpins⟩ := sameFabric_drivePins (old := s) (rg := r)
    (s := ((swapped s r im (pulseOf s r fi)).fset F.FAB_REGION_CTL_SHADOW_OK 0 r).fset F.FAB_REGION_CTL_SWAP 0 r)
  refine ⟨cs, held, ?_⟩
  rw [exchange_fab himage, pinsSwapped, hpins, State.fset_fab, State.fset_fab, hcells, fab_modFab_same]

theorem exchange_part {α : Type} (f : Region → α) (hf : ∀ x cs held, f { x with cells := cs, pinHeld := held } = f x) :
    f (s.exchange r fi).fab[r] = f (reconfigured im (pulseOf s r fi) s.fab[r]) := by
  obtain ⟨cs, held, h⟩ := exchange_region himage (fi := fi)
  rw [h, hf]

theorem exchange_mac {m : Nat} (hm : m < 4) : (((s.exchange r fi).fab[r]).mac m).acc =
    if (imMac im m).retain then ((s.fab[r]).mac m).acc else 0 := by
  have hslice := smGet_foldl_smSet (fun _ => {}) (fun m => (imMac im m).retain)
    (fun m => ({ acc := ((s.fab[r]).mac m).acc, hist := [(0, ((s.fab[r]).mac m).acc)] } : MacSt)) (List.range 4) [] m
  refine (exchange_part himage (fun x => (x.mac m).acc) fun _ _ _ => rfl).trans ((congrArg MacSt.acc hslice).trans ?_)
  simp only [List.mem_range, hm, true_and]
  split <;> rfl

/-- The one cell of an image restarts at its first entry. -/
theorem exchange_cell {c : Fin 256} {conf : CellConf} (hcells : im.cells = [(c, conf)]) : ∃ h,
    ((s.exchange r fi).fab[r]).cell c = { freshCell conf ((s.fab[r]).cell c) with h := h } ∧
      (conf.retH = true → h = ((s.fab[r]).cell c).h) := by
  have hfresh : ((s.modFab r (reconfigured im (pulseOf s r fi))).fab[r]).cell c = freshCell conf ((s.fab[r]).cell c) := by
    rw [fab_modFab_same]
    unfold Region.cell reconfigured
    rw [hcells]
    exact smGet_set_same _ _ _ _
  have hswapped : swapped s r im (pulseOf s r fi) = edgeTaken r im (s.modFab r (reconfigured im (pulseOf s r fi))) (c, conf) := by
    rw [swapped, hcells]
    rfl
  have hdriven : ((s.exchange r fi).fab[r]).cell c = ((swapped s r im (pulseOf s r fi)).fab[r]).cell c := by
    obtain ⟨held, hpins⟩ := sameFabric_drivePins (old := s) (rg := r)
      (s := ((swapped s r im (pulseOf s r fi)).fset F.FAB_REGION_CTL_SHADOW_OK 0 r).fset F.FAB_REGION_CTL_SWAP 0 r)
    rw [exchange_fab himage, pinsSwapped, hpins]
    rfl
  obtain ⟨hcell, hkept⟩ := edgeTaken_cell (r := r) (im := im) (t := s.modFab r (reconfigured im (pulseOf s r fi))) c conf
  rw [← hswapped, hfresh] at hcell
  refine ⟨_, hdriven.trans hcell, fun hret => ?_⟩
  rw [hswapped, hkept hret, hfresh, freshCell, if_pos hret]

/-! ### The registers and the pins -/

theorem exchange_fv {f : Fld} (hlate : Apart F.FAB_REGION_CTL_FI_LATE f) : (s.exchange r fi).fv f r =
    ((s.fset F.FAB_REGION_CTL_SHADOW_OK 0 r).fset F.FAB_REGION_CTL_SWAP 0 r).fv f r := by
  have hr : r.val < 1024 := by omega
  rw [exchange_eq himage]
  split
  · exact (fv_fset_apart _ _ hr hr hlate).trans (fv_congr (pinsSwapped_regs _) f r)
  · exact fv_congr (pinsSwapped_regs _) f r

theorem exchange_swap : (s.exchange r fi).on F.FAB_REGION_CTL_SWAP r = false := by
  rw [State.on, exchange_fv himage (by decide), fv_fset_same _ _ _ _ (by decide)]
  rfl

theorem exchange_shadow_ok : (s.exchange r fi).on F.FAB_REGION_CTL_SHADOW_OK r = false := by
  rw [State.on, exchange_fv himage (by decide), fv_fset_apart _ _ (by omega) (by omega) (by decide), fv_fset_same _ _ _ _ (by decide)]
  rfl

/-- FI_LATE counts a pulse that the exchange shows. -/
theorem exchange_late : (s.exchange r fi).fv F.FAB_REGION_CTL_FI_LATE r = if (pulseOf s r fi).isSome then
    Nat.min (2 ^ F.FAB_REGION_CTL_FI_LATE.w - 1) (s.fv F.FAB_REGION_CTL_FI_LATE r + 1) else s.fv F.FAB_REGION_CTL_FI_LATE r := by
  have hlate : (pinsSwapped s r im (pulseOf s r fi)).fv F.FAB_REGION_CTL_FI_LATE r = s.fv F.FAB_REGION_CTL_FI_LATE r := by
    have hr : r.val < 1024 := by omega
    rw [fv_congr (pinsSwapped_regs _), fv_fset_apart _ _ hr hr (by decide), fv_fset_apart _ _ hr hr (by decide)]
  rw [exchange_eq himage]
  split
  · rw [fv_finc_same _ _ _ _ (by decide), hlate]
    exact Nat.min_comm _ _
  · exact hlate

theorem pinsFollow_exchange : PinsFollow s (s.exchange r fi) r := by
  have hfollow : PinsFollow s (pinsSwapped s r im (pulseOf s r fi)) r :=
    pinsFollow_drivePins (only_part (only_swapped (pulseOf s r fi)) (p := .out) (by decide))
  rw [exchange_eq himage]
  split
  · exact pinsFollow_step hfollow rfl rfl rfl (fv_fset_other _ _ (by omega) (by decide) (by decide))
  · exact hfollow

end Exchange

/-! ## Writes of FAB_REGIONn_CTL (R194, R196) -/

section RegionWrites

variable {s : State} {a : Agent} {r : Fin 16} {v : DWord}

/-- A whole write sets the bits of a write-1-to-set field. -/
theorem fv_plainWrite_w1s (s : State) (f : Fld) (i : Nat) (v : DWord) (hf : ⟨f.lo, f.w, .w1s⟩ ∈ (regInfo f.reg).fields) :
    (s.plainWrite f.reg i fullMask v).fv f i = s.fv f i ||| wField v f := by
  refine Nat.eq_of_testBit_eq fun k => ?_
  rw [Nat.testBit_or, State.fv, State.fv, wField, testBit_getBits, testBit_getBits, testBit_getBits, State.plainWrite, reg_setReg_same]
  by_cases hk : k < f.w
  · have hle : f.lo + f.w ≤ 64 := regInfo_field_le_64 hf
    rw [(fieldsAre_swWrite f.reg fullMask _ v).1 _ hf (f.lo + k) (Nat.le_add_right _ _) (Nat.add_lt_add_left hk _)]
    simp [getLsbD_fullMask, show f.lo + k < 64 by omega, byCode, hk]
  · simp [hk]

/-- The write's first part: every field but SWAP. -/
def regionStored (s : State) (r : Fin 16) (v : DWord) : State := s.plainWrite .FAB_REGION_CTL r fullMask (setBits v 1 1 0)

/-- The write requests an exchange: SWAP is written, and a verified shadow waits. -/
def asksSwap (s : State) (r : Fin 16) (v : DWord) : Bool := decide (wField v F.FAB_REGION_CTL_SWAP = 1) && s.on F.FAB_REGION_CTL_SHADOW_OK r

theorem writeRegion_eq (s : State) (r : Fin 16) (v : DWord) : s.writeRegion r v =
    if ¬ asksSwap s r v then regionStored s r v
    else if (regionStored s r v).on F.FAB_REGION_CTL_IMMED r then (regionStored s r v).exchange r none
    else (regionStored s r v).fset F.FAB_REGION_CTL_SWAP 1 r := rfl

theorem only_regionWrite : Only [.regs, .latches] s (regionStored (s.unlatch .FAB_REGION_CTL r) r v) :=
  (only_plainWrite (by decide) _ _ _ _).mpr ((only_unlatch (by decide) _ _).mpr (only_refl _ s))

theorem onlyRegs_regionWrite : OnlyRegs [(.FAB_REGION_CTL, r.val)] s (regionStored (s.unlatch .FAB_REGION_CTL r) r v) :=
  (onlyRegs_plainWrite (by omega) (List.mem_singleton_self _) _ _).mpr ((onlyRegs_unlatch _ _).mpr (onlyRegs_refl _ s))

theorem regionStored_swap : (regionStored s r v).fv F.FAB_REGION_CTL_SWAP r = s.fv F.FAB_REGION_CTL_SWAP r := by
  rw [regionStored, fv_plainWrite_w1s s F.FAB_REGION_CTL_SWAP r _ (by decide), wField, getBits_setBits_same _ _ _ _ (by decide)]
  exact Nat.or_zero _

theorem regionStored_immed : (regionStored s r v).fv F.FAB_REGION_CTL_IMMED r = wField v F.FAB_REGION_CTL_IMMED := by
  rw [regionStored, fv_plainWrite_rw s F.FAB_REGION_CTL_IMMED r _ (by decide), wField, getBits_setBits_disjoint _ _ _ _ _ _ (by decide), ← wField]

theorem regionStored_line : (regionStored s r v).fv F.FAB_REGION_CTL_AT_LINE r = wField v F.FAB_REGION_CTL_AT_LINE := by
  rw [regionStored, fv_plainWrite_rw s F.FAB_REGION_CTL_AT_LINE r _ (by decide), wField, getBits_setBits_disjoint _ _ _ _ _ _ (by decide), ← wField]

theorem exec_regionSwapRequest (s : State) (a : Agent) (r : Fin 16) (v : DWord) :
    exec (.regionSwapRequest a r v) s = s.effect fun s => s.guarded a .FAB_REGION_CTL r fun s => s.writeRegion r v := rfl

variable (hp : Permits s a .FAB_REGION_CTL r)

include hp

/-- SWAP without a verified shadow is ignored. -/
theorem regionSwap_ignored (hask : asksSwap s r v = false) : Answers (.regionSwapRequest a r v) s fun t =>
    t.on F.FAB_REGION_CTL_SWAP r = s.on F.FAB_REGION_CTL_SWAP r ∧ RegsOnly [(.FAB_REGION_CTL, r.val)] s t := by
  have hwrite : (s.unlatch .FAB_REGION_CTL r).writeRegion r v = regionStored (s.unlatch .FAB_REGION_CTL r) r v :=
    (writeRegion_eq _ r v).trans (if_pos (Bool.eq_false_iff.mp hask))
  have honly : Only [.regs, .latches] s (regionStored (s.unlatch .FAB_REGION_CTL r) r v) := only_regionWrite
  refine answers_permitted _ hp (exec_regionSwapRequest s a r v) (hwrite ▸ honly) ?_
  rw [hwrite]
  exact ⟨congrArg (fun n => decide (n ≠ 0)) regionStored_swap, honly, onlyRegs_regionWrite⟩

variable (hask : asksSwap s r v = true)

include hask

/-- A request without IMMED waits for its line. -/
theorem regionSwap_waits (himmed : wField v F.FAB_REGION_CTL_IMMED = 0) : Answers (.regionSwapRequest a r v) s fun t =>
    t.on F.FAB_REGION_CTL_SWAP r = true ∧ t.fv F.FAB_REGION_CTL_AT_LINE r = wField v F.FAB_REGION_CTL_AT_LINE ∧
    RegsOnly [(.FAB_REGION_CTL, r.val)] s t := by
  have hwrite : (s.unlatch .FAB_REGION_CTL r).writeRegion r v =
      (regionStored (s.unlatch .FAB_REGION_CTL r) r v).fset F.FAB_REGION_CTL_SWAP 1 r := by
    refine (writeRegion_eq _ r v).trans ((if_neg (not_not_intro hask)).trans (if_neg ?_))
    rw [State.on, regionStored_immed, himmed]
    decide
  have honly : Only [.regs, .latches] s ((regionStored (s.unlatch .FAB_REGION_CTL r) r v).fset F.FAB_REGION_CTL_SWAP 1 r) :=
    (only_fset (by decide) _ _ _).mpr only_regionWrite
  refine answers_permitted _ hp (exec_regionSwapRequest s a r v) (hwrite ▸ honly) ?_
  rw [hwrite]
  refine ⟨on_fset_one _ _ _ _ rfl (by decide), ?_, honly, ?_⟩
  · rw [fv_fset_apart _ _ (by omega) (by omega) (by decide), regionStored_line]
  · exact (onlyRegs_fset (f := F.FAB_REGION_CTL_SWAP) (by omega) (List.mem_singleton_self _) _).mpr onlyRegs_regionWrite

/-- With IMMED it exchanges at once. -/
theorem regionSwap_immed {im : RegionImage} (himmed : wField v F.FAB_REGION_CTL_IMMED = 1) (himage : (s.fab[r]).shadow = some im) :
    Answers (.regionSwapRequest a r v) s fun t => (t.fab[r]).active = some im ∧ (t.fab[r]).shadow = none ∧
      t.on F.FAB_REGION_CTL_SHADOW_OK r = false ∧ t.on F.FAB_REGION_CTL_SWAP r = false ∧ PinsFollow s t r ∧
      Only [.fab, .regs, .latches, .free, .out] s t := by
  have hfab : (regionStored (s.unlatch .FAB_REGION_CTL r) r v).fab = s.fab := only_part only_regionWrite (p := .fab) (by decide)
  have hout : (regionStored (s.unlatch .FAB_REGION_CTL r) r v).out = s.out := only_part only_regionWrite (p := .out) (by decide)
  have himage' : ((regionStored (s.unlatch .FAB_REGION_CTL r) r v).fab[r]).shadow = some im := by rw [hfab, himage]
  have hwrite : (s.unlatch .FAB_REGION_CTL r).writeRegion r v = (regionStored (s.unlatch .FAB_REGION_CTL r) r v).exchange r none := by
    refine (writeRegion_eq _ r v).trans ((if_neg (not_not_intro hask)).trans (if_pos ?_))
    rw [State.on, regionStored_immed, himmed]
    decide
  have honly : Only [.fab, .regs, .latches, .free, .out] s ((regionStored (s.unlatch .FAB_REGION_CTL r) r v).exchange r none) :=
    only_trans (only_mono only_regionWrite (by decide)) (only_mono (only_exchange r none) (by decide))
  refine answers_permitted _ hp (exec_regionSwapRequest s a r v) (hwrite ▸ honly) ?_
  rw [hwrite]
  exact ⟨exchange_part himage' Region.active fun _ _ _ => rfl, exchange_part himage' Region.shadow fun _ _ _ => rfl,
    exchange_shadow_ok himage', exchange_swap himage', pinsFollow_of_out (pinsFollow_exchange himage') hout, honly⟩

end RegionWrites

/-! ## The switch point (R194) -/

section SwitchPoint

variable {s : State} {r : Fin 16} {im : RegionImage} {fi : Option (BitVec 16)}

theorem pulseOf_some (p : BitVec 16) : pulseOf s r (some p) = some p := if_neg fun h => Bool.noConfusion h.1

theorem pulseOf_shown (h : (s.fab[r]).fi = 0 ∨ (s.fab[r]).fiAt < (s.fab[r]).now) : pulseOf s r none = none :=
  if_neg fun ⟨_, hpulse, hnow⟩ => h.elim hpulse fun hlt => absurd hnow (not_le.mpr hlt)

theorem pulseOf_waiting (hpulse : (s.fab[r]).fi ≠ 0) (hnow : (s.fab[r]).now ≤ (s.fab[r]).fiAt) :
    pulseOf s r none = some (s.fab[r]).fi := if_pos ⟨rfl, hpulse, hnow⟩

theorem exec_regionExchange (s : State) (r : Fin 16) (fi : Option (BitVec 16)) : exec (.regionExchange r fi) s = s.effect fun s =>
    if s.on F.FAB_REGION_CTL_SWAP r ∧ s.switchPoint r (s.fv F.FAB_REGION_CTL_AT_LINE r) then s.exchange r fi else s := rfl

/-- No exchange is requested, or its line has not come, or no shadow waits. -/
theorem regionExchange_idle (h : (s.on F.FAB_REGION_CTL_SWAP r && s.switchPoint r (s.fv F.FAB_REGION_CTL_AT_LINE r)) = false ∨
    (s.fab[r]).shadow = none) : exec (.regionExchange r fi) s = .next s := by
  refine exec_eq_self (exec_regionExchange s r fi) ?_
  split
  · next hdue =>
    exact exchange_none (h.resolve_left (by rw [hdue.1, hdue.2]; decide))
  · rfl

/-- The pulse that the exchange shows, it shows in the first cycle after, and counts. -/
theorem exchange_pulse (himage : (s.fab[r]).shadow = some im) {p : BitVec 16} (hpulse : pulseOf s r fi = some p) :
    ((s.exchange r fi).fab[r]).fi = p ∧ ((s.exchange r fi).fab[r]).fiAt = 3 ∧ (s.exchange r fi).fv F.FAB_REGION_CTL_FI_LATE r =
      Nat.min (2 ^ F.FAB_REGION_CTL_FI_LATE.w - 1) (s.fv F.FAB_REGION_CTL_FI_LATE r + 1) := by
  refine ⟨(exchange_part himage Region.fi fun _ _ _ => rfl).trans ?_, (exchange_part himage Region.fiAt fun _ _ _ => rfl).trans ?_, ?_⟩
  · rw [hpulse]
    rfl
  · rw [hpulse]
    rfl
  · rw [exchange_late himage, hpulse]
    rfl

/-- At its switch point a requested exchange takes place. -/
theorem regionExchange_due (hdue : (s.on F.FAB_REGION_CTL_SWAP r && s.switchPoint r (s.fv F.FAB_REGION_CTL_AT_LINE r)) = true)
    {P : State → Prop} (hP : P (s.exchange r fi)) : Answers (.regionExchange r fi) s P := by
  have hexchange : (if s.on F.FAB_REGION_CTL_SWAP r = true ∧ s.switchPoint r (s.fv F.FAB_REGION_CTL_AT_LINE r) = true
      then s.exchange r fi else s) = s.exchange r fi := if_pos (Bool.and_eq_true_iff.mp hdue)
  exact answers_of_eq _ (exec_regionExchange s r fi) hexchange (only_exchange r fi) hP

end SwitchPoint

/-- What a pin of the Loupe shows for a source (R349). -/
theorem loupeSource_cases (s : State) (n : Nat) :
    (s.fv F.LP_SEL_SRC n = 0x81 → s.dbgLevel = 1 → s.loupeSource n = 0) ∧
    (s.fv F.LP_SEL_SRC n = 0x81 → s.dbgLevel = 2 → s.loupeSource n = 0x81) ∧
    (s.fv F.LP_SEL_SRC n = 0x0F → s.loupeSource n = 0) ∧ (s.fv F.LP_SEL_SRC n = 0x20 → s.loupeSource n = 0x20) := by
  have hsource {c : Nat} (h : s.fv F.LP_SEL_SRC n = c) :
      s.loupeSource n = if (s.dbgLevel = 2 ∧ loupeListed c = true) ∨ loupeRestricted c = true then c else 0 := by
    rw [State.loupeSource, h]
  refine ⟨fun h hlevel => ?_, fun h hlevel => ?_, fun h => ?_, fun h => ?_⟩
  · rw [hsource h, hlevel]
    decide
  · rw [hsource h, hlevel]
    decide
  · rw [hsource h, if_neg]
    rw [show loupeListed 0x0F = false by decide, show loupeRestricted 0x0F = false by decide]
    simp
  · rw [hsource h, if_pos (.inr (by decide))]

/-- Settles O56: the write of a region's control and the exchange by the exchange's own lemmas, the pins and the Loupe by their owners'. -/
theorem regionsAndPins : Obligations.RegionsAndPins := by
  unfold Obligations.RegionsAndPins
  refine ⟨⟨fun s a r v hp => ?_, fun s r fi => ⟨regionExchange_idle, fun im hdue himage => ?_⟩⟩,
    ⟨fun s a v c hp hc => ?_, pinHandoverEnd_ends⟩, fun s a v hp => ?_⟩
  · refine ⟨fun h => regionSwap_ignored hp ?_, fun hok hswap => regionSwap_waits hp ?_, fun im hok hswap => regionSwap_immed hp ?_⟩
    · rw [asksSwap, Bool.and_eq_false_iff]
      exact h.symm
    all_goals rw [asksSwap, hswap, hok]; rfl
  · refine regionExchange_due hdue ⟨exchange_part himage Region.active fun _ _ _ => rfl, exchange_part himage Region.shadow fun _ _ _ => rfl,
      exchange_part himage Region.stopped fun _ _ _ => rfl, exchange_part himage Region.hs fun _ _ _ => rfl,
      exchange_part himage Region.pinOe fun _ _ _ => rfl, exchange_swap himage, exchange_shadow_ok himage, ?_, ?_, ?_, fun c conf hcells => ?_,
      fun m hm => exchange_mac himage hm, fun q hq => exchange_other himage hq, pinsFollow_exchange himage, only_exchange r fi, onlyRegs_exchange⟩
    · rintro p rfl
      exact exchange_pulse himage (pulseOf_some p)
    · rintro rfl hshown
      rw [exchange_late himage, pulseOf_shown hshown]
      rfl
    · rintro rfl hpulse hnow
      exact exchange_pulse himage (pulseOf_waiting hpulse hnow)
    · obtain ⟨h, hcell, hkept⟩ := exchange_cell himage hcells (fi := fi)
      dsimp only
      rw [hcell]
      exact ⟨rfl, rfl, rfl, rfl, rfl, rfl, hkept⟩
  · exact ⟨pinOwner_refused hp hc rfl, pinOwner_set hp hc rfl, pinOwner_three hp hc rfl⟩
  · exact ⟨loupeRelease_releases hp, loupeClaim_barred hp, loupeClaim_refused hp, loupeClaim_free hp, loupeClaim_again hp,
      pinHandoverEnd_loupe, fun n => loupeSource_cases s n⟩


end Sys2Proof.Proofs
end
